-- ==== Sys2Proof/Word.lean ====
section
/-! DEFINITION. The word types of the BU1024 (R3: every register is 32 bits wide; bytes are the unit of the
internal address space, R34). -/

namespace Sys2Proof

/-- A byte of a memory of the device. -/
abbrev Byte := BitVec 8

/-- A 32-bit register or bus word (R3). -/
abbrev Word := BitVec 32

end Sys2Proof
end

