-- ==== Sys2Proof/Syntax.lean ====
section
/-! DEFINITION. The syntax of the commands: `Instr`, one constructor per row of spec/opcode_table.json, and the types of
their operands. -/

namespace Sys2Proof

/-- The blocks that own a commit register pair (R24): the commit sets of R55, R119, R268, R287, R293, R314 and R318. -/
inductive CommitBlk where
  | peal
  | cln
  | aes (n : Nat)
  | net (n : Nat)
  | tuOut (n : Nat)
  | wc (n : Nat)
  | pll (n : Nat)
deriving DecidableEq, Repr

/-- The AtomicOps of R215. -/
inductive AtomicOp where
  | fetchAdd | swap | cas
deriving DecidableEq, Repr

/-- The events that reset HIF and RNG (R215, R228). -/
inductive PcieResetKind where
  | flr | hotReset | linkDown
deriving DecidableEq, Repr

/-- What a fetch outside the device returned: the bytes, or an error response (R216, R218). -/
inductive FetchResp where
  | data (bs : List Byte)
  | error
deriving DecidableEq, Repr

/-- The flags of a ring command (R230): CPL asks for a completion record, IRQ for an interrupt with it. -/
structure CmdFlags where
  cpl : Bool
  irq : Bool
deriving DecidableEq, Repr

/-- What the DRAM check bits report of a unit (R211). -/
inductive EccErr where
  | none | corrected | uncorrectable
deriving DecidableEq, Repr

/-- A subframe of an AES3 frame (R265): 24 audio bits, V, U, C and P. `ok`: the parity of the received subframe is even. -/
structure AesSub where
  audio : Nat
  v : Bool
  u : Bool
  c : Bool
  ok : Bool
deriving DecidableEq, Repr

/-- The engines that hold and apply commands at boundaries (R231, R232). A Mallet cluster is an engine of its own. -/
inductive Engine where
  | ring | cln | chm | mal (c : Nat) | dpl | prt | net | clv | beat | flm
deriving DecidableEq, Repr

/-- One item of a Flam mirror message (R345, R348, R349, R381), with the block at which it applies. The spec fixes what the
messages carry and not their bytes (notes/assumptions/40). -/
inductive MirrorItem where
  /-- A ring command: its 32-byte entry and, for a list command, the bytes fetched. -/
  | entry (bs : List Byte) (data : Option (List Byte)) (blk : Nat)
  /-- A register or window write. -/
  | write (addr : Nat) (value : Word) (blk : Nat)
  /-- Clave's selected slot (31: none) and the offset it absorbs. -/
  | clave (slot : Nat) (absorbNs : Int) (blk : Nat)
  /-- A Beater channel's STATE and CLASS, the ages in blocks of its FAULT entries, newest first (FAILS and the retry timer), and
  whether its level target is 1. -/
  | beat (n state cls : Nat) (ages : List Nat) (target : Bool) (blk : Nat)
  /-- An output stream's next sequence number. -/
  | stream (n seq : Nat) (blk : Nat)
  /-- The key mute states. -/
  | tapKeys (muted : Nat) (blk : Nat)
  /-- The active chip's check of a PEAL commit passed: S, XFADE and MODE. -/
  | swapArm (swapBlk xfade mode : Nat) (blk : Nat)
  | swapAbort (blk : Nat)
  /-- A paired realignment with token Q. -/
  | realign (q : Nat)
  /-- FLM_CMD_RESYNC: the peer enters RESYNC with this reason. -/
  | resync (reason : Nat)
deriving DecidableEq, Repr

/-- One object of a resync chunk (R343, R358), in the state it will hold at the block that installs it. -/
inductive ChunkObj where
  /-- A register field, by its key in the register file: its value, and its value in force where it is RWS. -/
  | field (key value : Nat)
  | force (key value : Nat)
  | crosspoint (key : Nat) (cur tgt : Int) (remain slot : Nat) (entry : Bool)
  | factor (output shiftSet : Nat) (f target : Int) (remain slot : Nat)
  | coef (index : Nat) (value : Int)
  | filter (n active : Nat) (fade : Option (Nat × Nat × Bool))
  | line (n written start : Nat) (fade : Option (Nat × Nat × Nat)) (pendLen : Nat)
  | param (core word : Nat) (value : Nat)
  /-- The source range of region pair `n` of the mirror set. -/
  | region (n : Nat) (words : List Nat)
deriving DecidableEq, Repr

/-- The commands and events of the device: one constructor per row of the opcode table. An operand is what the
outside, or the manual's own mechanism behind the row, supplies with the command. -/
inductive Instr where
  /-- BLOCK_TOKEN (R16): BLK issues the block token with its 48-bit index at each domain A block boundary. -/
  | blockToken (tuSample : Nat)
  /-- TOKEN_ARRIVAL (R17): A block's token reaches an island, which starts that block's work and applies its boundary changes. -/
  | tokenArrival (island : Nat)
  /-- TASK_DISPATCH (R80): A unit starts its next task once the previous task, its dependencies and the token are all in place. -/
  | taskDispatch (task : Nat) (old : Bool) (load : Nat)
  /-- TASK_OVERRUN (R83): A Mallet task that reaches COST cycles is stopped, and its output buses take the fade rule with LATE set. -/
  | taskOverrun (core : Nat)
  /-- HANDSHAKE_WORD (R15): A handshake channel delivers one word, exactly once and in order, across an island boundary. -/
  | handshakeWord (src dst : Nat) (send : Option Word)
  /-- COMMIT_GO (R27): A write of GO to xxx_COMMIT copies the shadow set into a pending set, or is refused under R29. -/
  | commitGo (b : CommitBlk) (tag whenCode : Nat)
  /-- COMMIT_CANCEL (R29): A write of CANCEL to xxx_COMMIT discards the pending set and reports its TAG. -/
  | commitCancel (b : CommitBlk)
  /-- COMMIT_APPLY (R27): A pending commit reaches its point, runs the consistency check, and either applies the whole set or is refused. -/
  | commitApply (b : CommitBlk)
  /-- REGISTER_WRITE (R4): A write to a register that has no row of its own updates its fields by their access types. -/
  | registerWrite (master addr : Nat) (value : Word)
  /-- HOST_READ (R216): A host read of BAR0 or BAR2 completes successfully with the data, or with the decode-error or target-error pattern. -/
  | hostRead (bar2 : Bool) (off len : Nat)
  /-- HOST_WRITE (R216): A posted host write through BAR0 or BAR2 is performed, or is discarded on an error response and recorded in HIF_ERR_STATUS. -/
  | hostWrite (bar2 : Bool) (off : Nat) (data : List (Option Byte))
  /-- ATOMIC_OP (R215): A PCIe AtomicOp on BAR2 runs as a locked sequence; one on BAR0 completes as Unsupported Request. -/
  | atomicOp (bar2 : Bool) (off : Nat) (op : AtomicOp) (wide : Bool) (operand compare : Nat)
  /-- PCIE_RESET (R228): An FLR, hot reset or link down resets HIF and RNG and retires the host master's transactions. -/
  | pcieReset (kind : PcieResetKind)
  /-- PEAL_LOAD_HOST (R49): A write of PEAL_LOAD with GO and SRC 0 starts verification of the image held in the staged plane. -/
  | pealLoadHost
  /-- PEAL_LOAD_FLASH (R46): A write of PEAL_LOAD with GO and SRC 1 starts a copy from a flash slot into the staged plane, or refuses a slot above 3. -/
  | pealLoadFlash (slot : Nat)
  /-- PEAL_LOAD_ABORT (R48): A write of PEAL_LOAD with ABORT stops LOADING or VERIFYING and makes the plane MODIFIED. -/
  | pealLoadAbort
  /-- FLASH_COPY_DONE (R46): The flash copy of an image ends, and the plane moves to VERIFYING, or to REJECTED on a header failure. -/
  | flashCopyDone
  /-- VERIFY_DONE (R50): The verifier ends with a pass, giving VERIFIED, or the first failure code, giving REJECTED. -/
  | verifyDone
  /-- PLANE_WRITE (R49): A write into a peal plane is refused in a locked plane, or takes effect, moves the plane to MODIFIED and stops a running verifier. -/
  | planeWrite (master addr : Nat) (data : List (Option Byte))
  /-- SWAP_PREPARED (R60): The fill, copy and power work of an armed swap completes, and the swap moves to WAIT. -/
  | swapPrepared
  /-- SWAP_ABORT (R60): A write of PEAL_SWAP_ABORT before S − 2 (S − 4 when paired) cancels the armed swap and returns the staged plane to VERIFIED. -/
  | swapAbort
  /-- SWAP_START (R61): At boundary S the live plane flips, PEAL_GEN increments and the crossfade, dip or hold begins. -/
  | swapStart
  /-- SWAP_HOLD_END (R60): After a clock-changing swap, the PLLs lock and pre-roll ends, so the swap leaves HOLD and runs its fade-in. -/
  | swapHoldEnd
  /-- SWAP_XFADE_END (R61): At S + N the crossfade ends, the former plane becomes VERIFIED and the swap returns to IDLE. -/
  | swapXfadeEnd
  /-- REALIGN_REQUEST (R69): A write of 0xB10C to BLK_REALIGN requests a realignment, or is refused with a RESULT code. -/
  | realignRequest (key : Nat)
  /-- REALIGN_SET_INDEX (R69): At token Q+2 the block index is set from the time unit, the pipeline is discarded and ports restart with pre-roll. -/
  | realignSetIndex (tuSample : Nat)
  /-- BLK_TICK (R90): When DIV tokens have passed, BLK sets TICK. -/
  | blkTick
  /-- BLK_INDEX_LO_READ (R430): A read of BLK_INDEX_LO by any master latches bits [47:32] for BLK_INDEX_HI. -/
  | blkIndexLoRead (master : Nat)
  /-- BLK_COUNT_CLEAR (R90): A write of CLEAR clears the BLK late, overrun and faded counters, every PEAK and every per-island late count. -/
  | blkCountClear
  /-- SXM_WRITE_REFUSED (R74): A crossbar write into SXM is discarded with an error response, and WRITE_REFUSED is set. -/
  | sxmWriteRefused (master addr : Nat)
  /-- BRG_SOURCE_LOCK (R78): An asynchronous source whose ratio stays within ±2 ppm for 50 ms becomes LOCKED, and its channels ramp in. -/
  | brgSourceLock (source ratio : Nat)
  /-- BRG_OUT_OF_RANGE (R78): An asynchronous source whose ratio leaves range or jumps becomes OUT_OF_RANGE, and its outputs fade to silence. -/
  | brgOutOfRange (source : Nat)
  /-- BRG_NO_CLOCK (R78): A source with no port clock edge for 8 domain A sample periods becomes NO_CLOCK. -/
  | brgNoClock (source : Nat)
  /-- BRG_ACQUIRE (R78): An asynchronous source whose clock is back in range returns to ACQUIRING. -/
  | brgAcquire (source : Nat)
  /-- XP_SET (R112): A Carillon command sets one crosspoint's target gain under a ramp slot. -/
  | xpSet (input output : Nat) (gain : Word) (slot : Nat)
  /-- XP_LIST (R115): A Carillon command names a gain list, which is fetched, or waits while four lists are already held. -/
  | xpList (addr count slot : Nat)
  /-- XP_LIST_FETCH_DONE (R115): A gain list has been fetched whole, so all its entries can apply at one boundary. -/
  | xpListFetchDone (id : Nat) (resp : FetchResp)
  /-- XP_CLEAR_OUT (R112): A Carillon command sets every crosspoint of one output to 0. -/
  | xpClearOut (output slot : Nat)
  /-- XP_CLEAR_IN (R112): A Carillon command sets every crosspoint of one input to 0. -/
  | xpClearIn (input slot : Nat)
  /-- OUT_MUTE (R109): A Carillon command mutes or unmutes a range of outputs through their factor m. -/
  | outMute (first count mute : Nat)
  /-- XP_WINDOW_WRITE (R117): A device-master write of TARGET and SLOT into the crosspoint window becomes a change, or is refused outside the geometry. -/
  | xpWindowWrite (master addr : Nat) (value : Word)
  /-- CLN_XP_TGT_WRITE (R118): A write of CLN_XP_TGT changes the selected crosspoint and, with AUTOINC, advances the selection. -/
  | clnXpTgtWrite (value : Word)
  /-- CLN_RAMP_SLOT_WRITE (R102): A write to ramp slot 1–15 sets LEN and PROFILE, or is ignored with RAMP_SLOT_BUSY while the slot is in use. -/
  | clnRampSlotWrite (slot : Nat) (value : Word)
  /-- XP_RAMP_END (R104): A crosspoint's REMAIN reaches 0, so CURRENT equals TARGET, and in wide storage its ramp entry is freed to a waiting change. -/
  | xpRampEnd (input output : Nat)
  /-- OUT_FACTOR_RAMP_END (R109): An output's scale factor f reaches its target F and stops ramping. -/
  | outFactorRampEnd (output : Nat)
  /-- CLN_COUNT_CLEAR (R120): A write of CLEAR clears the Carillon counters and CLN_RAMP_TABLE.PEAK. -/
  | clnCountClear
  /-- BANK_SELECT (R129): A Chimes command selects a target bank for a range of filters with a crossfade length. -/
  | bankSelect (first count xfLen bank : Nat)
  /-- PRESET_LOAD (R133): A Chimes command requests a beam preset load, which joins the queue of 4 or is refused with RESULT 5. -/
  | presetLoad (array preset flags xfLen : Nat)
  /-- COEF_WRITE (R134): A Chimes command writes coefficients into a bank, fetched when it is received. -/
  | coefWrite (filter bank first count addr : Nat)
  /-- COEF_WRITE_FETCH_DONE (R134): The coefficients of a COEF_WRITE have been fetched, so the command can apply at a boundary. -/
  | coefWriteFetchDone (id : Nat) (resp : FetchResp)
  /-- CHM_SELECT_WRITE (R134): A write of CHM_SELECT carries a bank select as an unstamped command. -/
  | chmSelectWrite (value : Word)
  /-- CHM_PRESET_REQ_WRITE (R134): A write of CHM_PRESET_REQ with GO carries a preset load as an unstamped command. -/
  | chmPresetReqWrite (value : Word)
  /-- CHM_COEF_WINDOW_WRITE (R130): A device-master write into the coefficient window is accepted only into writable idle banks or unused memory. -/
  | chmCoefWindowWrite (master addr : Nat) (data : List (Option Byte))
  /-- CHM_CW_DATA_WRITE (R130): A write of CHM_CW_DATA writes the selected coefficient, or is refused, and with AUTOINC advances TAP. -/
  | chmCwDataWrite (value : Word)
  /-- PRESET_HEADER_FETCH_DONE (R133): The 16-byte header of the load at the head of the queue has been fetched and is checked, or the load ends with RESULT 3 or 4. -/
  | presetHeaderFetchDone
  /-- PRESET_LOAD_START (R133): A load whose header passed starts at the first boundary with no covered filter fading, and its idle banks become LOADING. -/
  | presetLoadStart
  /-- PRESET_LOAD_COMPLETE (R133): The last coefficient of a load is in, and the CRC check makes the banks READY or INVALID. -/
  | presetLoadComplete
  /-- PRESET_SWAP_AFTER (R133): At the first boundary after a successful SWAP_AFTER load, a bank select of the loaded banks is issued. -/
  | presetSwapAfter
  /-- BANK_FADE_END (R129): A filter's fade counter reaches its end, and the bank that faded out becomes READY. -/
  | bankFadeEnd (filter : Nat)
  /-- CHM_COUNT_CLEAR (R137): A write of CLEAR clears the Chimes counters. -/
  | chmCountClear
  /-- NOP (R184): A CTL bundle that does nothing. -/
  | nop (core : Nat)
  /-- BRA (R184): A conditional branch to an address after two delay slots. -/
  | bra (core : Nat)
  /-- CALL (R185): A conditional call that pushes the return address and SR, then branches. -/
  | call (core : Nat)
  /-- RET (R185): A conditional return that pops the return stack and restores PC only. -/
  | ret (core : Nat)
  /-- JMP (R184): A conditional jump to the address held in a P register. -/
  | jmp (core : Nat)
  /-- CALLR (R184): A conditional call to the address held in a P register. -/
  | callr (core : Nat)
  /-- RTIF (R158): A return from a fast handler that restores PC and SR and exchanges the register bank back. -/
  | rtif (core : Nat)
  /-- RTIN (R159): A return from a normal handler that pops PC and SR. -/
  | rtin (core : Nat)
  /-- TEND (R141): Task end: after its delay slots and its posted bus writes, the task ends. -/
  | tend (core : Nat)
  /-- LOOPI (R154): Opens a hardware loop with an immediate pass count of 1–1024. -/
  | loopi (core : Nat)
  /-- LOOPR (R154): Opens a hardware loop with a pass count from a register, skipping the body on 0. -/
  | loopr (core : Nat)
  /-- LOOPL (R192): Long form that opens a hardware loop with a pass count of 1–65,536. -/
  | loopl (core : Nat)
  /-- LOOP_CLOSE (R154): At LA the closing test returns to the body, or the loop count is spent and the loop closes and releases its record. -/
  | loopClose (core : Nat)
  /-- LEAVE (R154): Releases the innermost loop record and restores the enclosing LC and LA. -/
  | leave (core : Nat)
  /-- RPTI (R155): Repeats the next bundle an immediate number of times. -/
  | rpti (core : Nat)
  /-- RPTR (R155): Repeats the next bundle a register-given number of times. -/
  | rptr (core : Nat)
  /-- BSYNC (R164): Stalls the core until every posted bus transfer has completed. -/
  | bsync (core : Nat)
  /-- WAIT (R186): Stops issue until an enabled interrupt source is pending. -/
  | wait (core : Nat)
  /-- BIN (R164): Posts a current-block read of a bus into local data memory. -/
  | bin (core : Nat)
  /-- BINP (R164): Posts a previous-block read of a bus from the other SXM bank. -/
  | binp (core : Nat)
  /-- BOUT (R164): Posts a write of a bus block from local data memory. -/
  | bout (core : Nat)
  /-- BUS_TRANSFER_COMPLETE (R164): A posted BIN or BOUT transfer completes, freeing a transfer place. -/
  | busTransferComplete (core cycles : Nat)
  /-- MLA2 (R188): Dual multiply-accumulate with two memory slots. -/
  | mla2 (core : Nat)
  /-- MLAS (R188): Dual multiply with one accumulate and one subtract, with two memory slots. -/
  | mlas (core : Nat)
  /-- MUL2 (R188): Dual multiply into two accumulators, with two memory slots. -/
  | mul2 (core : Nat)
  /-- MLS2 (R188): Dual multiply-subtract, with two memory slots. -/
  | mls2 (core : Nat)
  /-- ALU_NOP (R190): An ALU bundle with no operation; with MV set it is a plain move. -/
  | aluNop (core : Nat)
  /-- ZERO (R190): Clears an accumulator. -/
  | zero (core : Nat)
  /-- COPY (R190): Copies one accumulator to another; used with a condition it is the select operation. -/
  | copy (core : Nat)
  /-- ADDS (R190): Adds a shifted accumulator to an accumulator. -/
  | adds (core : Nat)
  /-- SUBS (R190): Subtracts a shifted accumulator from an accumulator. -/
  | subs (core : Nat)
  /-- NEGT (R190): Negates an accumulator. -/
  | negt (core : Nat)
  /-- MAGN (R190): Takes the magnitude of an accumulator. -/
  | magn (core : Nat)
  /-- SHLA (R190): Shifts an accumulator left by n. -/
  | shla (core : Nat)
  /-- SHRA (R190): Shifts an accumulator right arithmetically by n. -/
  | shra (core : Nat)
  /-- RNDH (R190): Rounds an accumulator at bit 24 and clears bits [23:0]. -/
  | rndh (core : Nat)
  /-- MAXS (R190): Signed maximum of two accumulators. -/
  | maxs (core : Nat)
  /-- MINS (R190): Signed minimum of two accumulators. -/
  | mins (core : Nat)
  /-- COMP (R190): Sets the flags from a difference of accumulators without writing any register. -/
  | comp (core : Nat)
  /-- TEST (R190): Sets the flags from an accumulator. -/
  | test (core : Nat)
  /-- AND (R190): Bitwise AND over 56 bits. -/
  | and (core : Nat)
  /-- IOR (R190): Bitwise inclusive OR over 56 bits. -/
  | ior (core : Nat)
  /-- XOR (R190): Bitwise exclusive OR over 56 bits. -/
  | xor (core : Nat)
  /-- MUL (R190): Single multiply into an accumulator. -/
  | mul (core : Nat)
  /-- MULA (R190): Single multiply-accumulate. -/
  | mula (core : Nat)
  /-- MULS (R190): Single multiply-subtract. -/
  | muls (core : Nat)
  /-- LDI (R191): Loads a 16-bit immediate into a register. -/
  | ldi (core : Nat)
  /-- LDL (R192): Long form that loads a 32-bit immediate into a register. -/
  | ldl (core : Nat)
  /-- MOVE (R179): Moves between registers under the fractional or integer view. -/
  | move (core : Nat)
  /-- ADDP (R191): Adds a signed 16-bit immediate to a P register, linearly. -/
  | addp (core : Nat)
  /-- ADDPL (R192): Long form that adds a 24-bit immediate to a P register. -/
  | addpl (core : Nat)
  /-- MOVC_FROM_CCR (R191): Moves a core control register into an accumulator. -/
  | movcFromCcr (core : Nat)
  /-- MOVC_TO_CCR (R191): Writes an accumulator into a core control register, with that register's effect. -/
  | movcToCcr (core : Nat)
  /-- LDR (R191): Loads any register from one memory slot. -/
  | ldr (core : Nat)
  /-- STR (R191): Stores any register to one memory slot. -/
  | str (core : Nat)
  /-- MOV2 (R191): Performs two memory slots with no arithmetic. -/
  | mov2 (core : Nat)
  /-- BFLY (R193): Scaling butterfly into an accumulator pair, with a load and a store. -/
  | bfly (core : Nat)
  /-- BEXP (R162): Loads two words and updates BE.MIN from them. -/
  | bexp (core : Nat)
  /-- BSCALE (R163): Sets SCALE from GUARD and MIN, adds it to EXP and resets MIN. -/
  | bscale (core : Nat)
  /-- BECLR (R193): Resets BE to 0x0017. -/
  | beclr (core : Nat)
  /-- SLOW_PATH_LOAD_DONE (R145): A slow-path load's data arrives from shared memory and the core's stall ends. -/
  | slowPathLoadDone (core cycles : Nat)
  /-- FAST_ACCEPT (R158): A pending fast-level source is accepted: PC and SR are saved, the bank exchanges and the vector is taken. -/
  | fastAccept (core : Nat)
  /-- NORMAL_ACCEPT (R159): A pending normal-level source is accepted: PC and SR are pushed and the vector is taken. -/
  | normalAccept (core : Nat)
  /-- TIMER_EXPIRY (R156): A core's CCR TIMER steps from 1 to 0 and raises source 8. -/
  | timerExpiry (core : Nat)
  /-- DMA_START (R166): A write of DMA_CTRL.GO latches the parameters and starts a channel transfer, unless the channel is BUSY. -/
  | dmaStart (core channel : Nat) (value : Word)
  /-- DMA_COMPLETE (R166): A DMA transfer ends with DONE, or with ERR on an error response, and raises its source. -/
  | dmaComplete (core channel : Nat) (resp : FetchResp)
  /-- MBOX_IN_WRITE (R173): A host write of CCR MBOX_IN stores the word and raises source 6. -/
  | mboxInWrite (core : Nat) (value : Word)
  /-- MBOX_OUT_READ (R173): A host read of MBOX_OUT clears that core's MAL_CL_MBOX_PEND bit. -/
  | mboxOutRead (master core : Nat)
  /-- MAL_CL_BROADCAST_WRITE (R174): A host write of MAL_CL_BROADCAST raises source 9 in each core named. -/
  | malClBroadcastWrite (cluster : Nat) (value : Word)
  /-- MAL_PROGRAM_CCR_WRITE (R168): A write into a core's program memory or CCR window is refused with an error response and counted. -/
  | malProgramCcrWrite (master addr : Nat)
  /-- MAL_DATA_WINDOW_WRITE (R169): A write through the data window queues a parameter word, writes shared memory, or is refused. -/
  | malDataWindowWrite (master cluster word : Nat) (value : Word)
  /-- PARAM_SET (R171): A Mallet command sets up to three parameter words of a core. -/
  | paramSet (core count start : Nat) (values : List Word)
  /-- PARAM_LIST (R171): A Mallet command names a list of parameter words to be fetched and applied together. -/
  | paramList (core count addr : Nat)
  /-- PARAM_LIST_FETCH_DONE (R171): A parameter list has been fetched, so its words can apply at one boundary. -/
  | paramListFetchDone (id : Nat) (resp : FetchResp)
  /-- MAL_CL_COUNT_CLEAR (R174): A write of CLEAR clears the cluster counters. -/
  | malClCountClear (cluster : Nat)
  /-- DELAY_SET (R204): A delay-pool command sets a new DELAY on one line. -/
  | delaySet (line xf delay : Nat)
  /-- DELAY_LIST (R204): A delay-pool command names a list of line delays to be fetched and applied together. -/
  | delayList (count xf addr : Nat)
  /-- DELAY_LIST_FETCH_DONE (R204): A delay list has been fetched whole, so its entries can apply at one boundary. -/
  | delayListFetchDone (id : Nat) (resp : FetchResp)
  /-- DPL_DELAY_SET_WRITE (R203): A write of DPL_DELAY_SET gives the selected line a new delay, applied or made pending. -/
  | dplDelaySetWrite (value : Word)
  /-- DELAY_FADE_END (R202): A line's fade reaches k = L, tap A closes and any pending value then applies. -/
  | delayFadeEnd (line : Nat)
  /-- LINE_STORAGE_WRITE (R195): A write by a master other than the delay pool engine into line storage is discarded with LINE_WRITE set. -/
  | lineStorageWrite (master addr : Nat)
  /-- DPL_HASH_SEED_WRITE (R214): In TEST a write of DPL_HASH_SEED replaces the seed and leaves DRAM contents undefined. -/
  | dplHashSeedWrite (value : Word)
  /-- SCRUB_READ (R213): The scrubber reads a DRAM unit and rewrites it if it corrected an error. -/
  | scrubRead (addr : Nat) (err : EccErr)
  /-- DPL_COUNT_CLEAR (R214): A write of CLEAR clears the delay-pool counters and both PEAK fields. -/
  | dplCountClear
  /-- XB_REQUEST (R225): A master's request reaches the crossbar, is admitted in age order, granted, and answered, or decoded to the default target.
`data` is what a write carries; with none, `len` bytes are read. -/
  | xbRequest (master tag addr len : Nat) (data : Option (List (Option Byte))) (age rounds : Nat) (lock : Option Bool) (resp : FetchResp)
  /-- XB_WATCHDOG_QUARANTINE (R227): A master that does not accept a read beat or write response within 4 µs is quarantined.
`nanos` is how long the beat or response has been offered. -/
  | xbWatchdogQuarantine (master nanos : Nat)
  /-- XB_MASTER_RESET (R228): A write of XB_MASTER_RESET with KEY 0xC105 resets a master and retires its transactions. -/
  | xbMasterReset (master : Nat) (value : Word)
  /-- MASTER_RESET_DONE (R227): Every ID of a resetting master has been retired, and its port returns to OPEN or CLOSED. -/
  | masterResetDone (master : Nat)
  /-- OB_TIMEOUT (R218): An outbound read without a completion within HIF_CPL_TIMEOUT is answered with a target error. -/
  | obTimeout (master : Nat)
  /-- XB_COUNT_CLEAR (R245): A write of CLEAR clears the crossbar counters. -/
  | xbCountClear
  /-- MSIX_TABLE_WRITE (R219): A host write to the MSI-X table unmasks a vector, and a pending message is then sent. -/
  | msixTableWrite (word : Nat) (value : Word)
  /-- MSIX_MODERATION_EXPIRY (R246): The MOD interval of a ring vector ends, and raises merged within it are sent as one. -/
  | msixModerationExpiry (ring : Nat)
  /-- RING_ENABLE (R229): Writing ENABLE 1 to RNG_CTRL sets both indices to 0 and starts the ring, or is refused with BAD_CFG. -/
  | ringEnable (ring : Nat) (value : Word)
  /-- RING_DISABLE (R239): Writing ENABLE 0 stops fetching or writing, while fetched commands still take effect. -/
  | ringDisable (ring : Nat) (value : Word)
  /-- RING_CFG_WRITE (R240): A write of RNG_CFG sets BASE and LOG2 of a disabled ring, or is ignored with SIZE_IGNORED. -/
  | ringCfgWrite (ring : Nat) (value : Word)
  /-- RING_TAIL_WRITE (R229): The host advances a command ring's TAIL, or the write is ignored as out of range. -/
  | ringTailWrite (ring : Nat) (value : Word)
  /-- RING_HEAD_WRITE (R229): The host advances a record ring's HEAD, freeing places. -/
  | ringHeadWrite (ring : Nat) (value : Word)
  /-- RING_RESIZE_REQUEST (R240): A write of RNG_RESIZE with GO requests a resize and moves the ring to RESIZE_PENDING. -/
  | ringResizeRequest (ring : Nat) (value : Word)
  /-- RING_RESIZE_CANCEL (R240): A write of RNG_RESIZE with CANCEL abandons a pending resize. -/
  | ringResizeCancel (ring : Nat)
  /-- RING_RESIZE_APPLY (R240): A ring pending a resize becomes empty, takes its new BASE and LOG2, and writes its held records. -/
  | ringResizeApply (ring : Nat)
  /-- RING_RESIZE_TIMEOUT (R240): A resize not applied within 1 s is abandoned with RESIZE_TIMEOUT. -/
  | ringResizeTimeout (ring : Nat)
  /-- RING_FETCH (R232): The ring engine fetches a descriptor and hands it to its engine, or halts the ring on a fetch error. -/
  | ringFetch (ring : Nat) (resp : FetchResp)
  /-- RING_NOP (R231): Ring-engine command that takes effect when fetched. -/
  | ringNop (ring cookie : Nat) (flags : CmdFlags) (stamp : Option Nat)
  /-- FENCE (R234): Ring-engine command that holds its ring until earlier and waited-for commands have taken effect. -/
  | fence (ring cookie : Nat) (cpl irq : Bool) (waitRing : Nat) (waitEn : Bool) (waitIndex : Nat)
  /-- FENCE_RELEASE (R234): The conditions of a held FENCE are met, it takes effect and its ring resumes. -/
  | fenceRelease (ring : Nat)
  /-- WRITE32 (R231): Ring-engine command that writes a word, plain or masked as a locked sequence. -/
  | write32 (ring cookie : Nat) (cpl irq : Bool) (stamp : Option Nat) (addr : Nat) (value mask : Word) (resp : FetchResp)
  /-- CMD_APPLY (R232): An engine applies a held command at its stamped block, or at the first boundary at which it can. -/
  | cmdApply (e : Engine) (resp : FetchResp)
  /-- RNG_COUNT_CLEAR (R246): A write of CLEAR clears the ring counters. -/
  | rngCountClear
  /-- SYS_BARRIER_WRITE (R241): A master writes a barrier token, or a fifth pending barrier is refused. -/
  | sysBarrierWrite (master token : Nat)
  /-- BARRIER_DONE (R241): All of a master's earlier writes have taken effect, and the token appears in SYS_BARRIER_DONE. -/
  | barrierDone (master : Nat)
  /-- PRT_CTRL_WRITE (R259): A write of PRT_CTRL sets ENABLE, MUTE and RAMP, which act at the port's next boundary. -/
  | prtCtrlWrite (port : Nat) (value : Word)
  /-- AES_CTRL_WRITE (R259): A write of AES_CTRL sets the enables, mutes and ramp of both AES directions. -/
  | aesCtrlWrite (n : Nat) (value : Word)
  /-- PRT_MASK_WRITE (R262): A write of PRT_MASK becomes the pending slot mask. -/
  | prtMaskWrite (port : Nat) (mask : Word) (inGuard : Bool)
  /-- PRT_MASK_APPLY (R262): The pending mask takes effect at a frame start and records the frame index. -/
  | prtMaskApply (port : Nat)
  /-- PRT_MASK (R263): Port command that makes a mask pending from the first frame of its block. -/
  | prtMask (port : Nat) (mask : Word)
  /-- PORT_MUTE (R263): Port command that writes MUTE and RAMP of a range of ports or AES transmitters. -/
  | portMute (kind first count mute ramp : Nat)
  /-- PORT_FRAME (R253): A serial port sends or receives one frame of slots. -/
  | portFrame (port : Nat) (slots : List Nat)
  /-- PORT_LOCK (R257): A follower locks after 4 good frames, or 3 good AES Z preambles, and leaves SYNCING. -/
  | portLock (unit rateMhz : Nat)
  /-- PORT_LOST (R257): A locked follower loses its clock, framing or rate and enters LOST. -/
  | portLost (unit cause : Nat)
  /-- PORT_FRAME_ERROR (R257): A single bad frame on a follower is discarded, handled as missing and counted. -/
  | portFrameError (unit : Nat)
  /-- PORT_PREROLL_DONE (R259): A port's pre-roll ends and it enters RUNNING, ramping in over one block. -/
  | portPrerollDone (unit : Nat)
  /-- PORT_STOP_RAMP_DONE (R258): A stopping port's level reaches 0 and it enters POSTROLL. -/
  | portStopRampDone (unit : Nat)
  /-- PORT_POSTROLL_DONE (R259): The last post-roll frame completes, the clocks stop and the port enters STOPPED. -/
  | portPostrollDone (unit : Nat)
  /-- AES_FRAME_RX (R266): An AES3 receiver takes a frame, checking parity and validity. -/
  | aesFrameRx (n : Nat) (z : Bool) (subs : List AesSub)
  /-- AES_CS_BLOCK_COMPLETE (R266): A 192-frame channel-status block completes and is published, checked and compared. -/
  | aesCsBlockComplete (n : Nat)
  /-- AES_FRAME_TX (R267): An AES3 transmitter sends a frame with its preamble, status, user and validity bits. -/
  | aesFrameTx (n : Nat)
  /-- PRT_COUNT_CLEAR (R269): A write of PRT_COUNT_CLEAR clears the counters of the ports named. -/
  | prtCountClear (ports : Nat)
  /-- AES_COUNT_CLEAR (R270): A write of AES_COUNT_CLEAR clears the counters of the transceivers named. -/
  | aesCountClear (xcvrs : Nat)
  /-- NET_FRAME_RX (R285): A media port receives a frame and timestamps it; unmatched frames are forwarded or delivered as host traffic. -/
  | netFrameRx (port : Nat) (frame : List Byte) (ok full : Bool) (t residence : Nat)
  /-- RTP_PACKET_RX (R275): An RTP packet matching an input stream is checked and its samples placed, or it is discarded as BAD or late. -/
  | rtpPacketRx (stream leg : Nat) (packet : List Byte) (t : Nat)
  /-- LL_PACKET_RX (R276): A low-latency packet matching an input stream is checked and its samples placed, or it is discarded. -/
  | llPacketRx (stream leg : Nat) (packet : List Byte) (t : Nat)
  /-- STREAM_PACKET_TX (R277): At the token of its emit block an output stream's packet is queued and sent. -/
  | streamPacketTx (stream : Nat)
  /-- NET_SEND (R284): NET command that fetches a host frame and queues it for sending. -/
  | netSend (port flags length addr : Nat) (resp : FetchResp)
  /-- NET_SEND_DONE (R284): A NET_SEND frame has been sent, and with TS a KIND 0x51 record is written. -/
  | netSendDone (port t : Nat)
  /-- STREAM_MUTE (R284): NET command that mutes or unmutes a range of output streams with a ramp. -/
  | streamMute (first count mute ramp : Nat)
  /-- NET_CTL_RX_RELEASE_WRITE (R285): A write of NET_CTL_RX_RELEASE frees control-area slots in order. -/
  | netCtlRxReleaseWrite (port : Nat) (value : Word)
  /-- NET_LINK_UP (R287): A media port's link comes up after training. -/
  | netLinkUp (port : Nat)
  /-- NET_LINK_DOWN (R287): A media port's link goes down, and its streams run under R280. -/
  | netLinkDown (port : Nat)
  /-- NET_COUNT_CLEAR (R295): A write of NET_COUNT_CLEAR clears port counters, or the stream table counters and MARGIN. -/
  | netCountClear (value : Word)
  /-- PTP_DELAY_REQ_TIMER (R290): Every 2^LOG_DR seconds an instance sends its own Delay_Req. -/
  | ptpDelayReqTimer (inst t : Nat)
  /-- PTP_NO_PARENT_TIMEOUT (R291): No Sync from PARENT for 2 s puts the servo in NO_PARENT and holds the frequency. -/
  | ptpNoParentTimeout (inst : Nat)
  /-- TU_TIME_LATCH_WRITE (R296): A write of LATCH captures the instance time into the time registers. -/
  | tuTimeLatchWrite (inst t : Nat)
  /-- TU_OUT_EDGE (R293): A timed output reaches its programmed instant and drives its pulse. -/
  | tuOutEdge (n t : Nat)
  /-- TU_CAP_EDGE (R294): A capture input's selected edge is timestamped and queued, or lost and counted. -/
  | tuCapEdge (n : Nat) (fall : Bool) (t : Nat)
  /-- TU_CAP_NS_READ (R294): A read of TU_CAP_NS returns and removes the oldest capture entry. -/
  | tuCapNsRead (master n : Nat)
  /-- CLV_GATE_END (R302): A 100 ms or 1 s gate ends, F is measured, slot states and history update and selection is evaluated. -/
  | clvGateEnd (long : Bool) (fs : List (Option Int)) (temp xo : Int)
  /-- CLV_SWITCH (R308): At the boundary after a new selection the phase is measured and absorbed, and the loop starts to follow the new slot. -/
  | clvSwitch (phi : Int)
  /-- CLV_REF_LOS (R301): A reference meets its loss-of-signal condition and its slot enters LOS. -/
  | clvRefLos (slot : Nat)
  /-- CLV_WTR_EXPIRY (R303): A slot's wait-to-restore ends and it becomes QUALIFIED. -/
  | clvWtrExpiry (slot : Nat)
  /-- CLV_LOCK (R307): The phase error stays within ±50 ns for 1 s and Clave enters LOCKED. -/
  | clvLock
  /-- CLV_SLEW_DONE (R308): The absorbed offset reaches 0, SLEWING clears and SLEW_DONE is set. -/
  | clvSlewDone
  /-- LO_IN_LOST (R310): LO_IN stops, the base switches to the crystal and all values are rebased. -/
  | loInLost
  /-- LO_IN_RESTORE (R310): LO_IN, measured for 10 s after its return, becomes the base again. -/
  | loInRestore
  /-- CLV_MODE (R311): Clave command that sets MODE, FORCE_SLOT and PHASE_HOLD. -/
  | clvMode (mode forceSlot phase : Nat)
  /-- CLV_REF_SET (R311): Clave command that sets a slot's ENABLE, RANK and WTR_S. -/
  | clvRefSet (slot enable rank wtr : Nat)
  /-- WCLK_ALIGN_EDGE (R313): At an alignment edge a word-clock output measures its error and makes one fine phase step. -/
  | wclkAlignEdge (n : Nat) (errPs : Option Int)
  /-- PLL_LOSS_OF_LOCK (R316): A PLL loses lock, starts its band search, and its outputs move to fallback or bypass. -/
  | pllLossOfLock (n : Nat)
  /-- PLL_LOCKED (R315): A PLL reaches lock after 64 good reference cycles; after a band search, islands return to PLL_00. -/
  | pllLocked (n us band : Nat)
  /-- FALLBACK_RETURN_TIMER (R14): In LOAD or TEST, PLL_00 has been LOCKED for 100 ms and islands return to it. -/
  | fallbackReturnTimer
  /-- PLL_BYPASS_EXIT (R316): After 1 ms LOCKED, PLL_01 or PLL_02 outputs leave the bypass synthesizer at an OUT0 edge. -/
  | pllBypassExit (n : Nat)
  /-- PLL_PHASE_STEP_WRITE (R318): A write of PLL_PHASE_STEP moves MCLK_x_OUT by COUNT VCO periods. -/
  | pllPhaseStepWrite (n : Nat) (value : Word)
  /-- BEAT_MUTE (R338): Beater command that sets MUTE and RAMP on a range of channels. -/
  | beatMute (first count mute ramp : Nat)
  /-- BEAT_ENABLE (R338): Beater command that sets ENABLE on a range of channels. -/
  | beatEnable (first count enable : Nat)
  /-- BEAT_CLEAR (R331): Beater command that takes faulted or latched channels to DIAG and resets FAILS. -/
  | beatClear (first count : Nat)
  /-- BEAT_DIAG (R338): Beater command that runs a diagnostic on STOPPED channels. -/
  | beatDiag (first count : Nat)
  /-- BEAT_CTRL_WRITE (R327): A write of BEAT_CTRL sets ENABLE, MUTE, RAMP and I_TRIP of a channel. -/
  | beatCtrlWrite (n : Nat) (value : Word)
  /-- BEAT_DIAG_DONE (R329): A 10 ms load diagnostic ends with a result and impedance, raising DIAG_DONE. -/
  | beatDiagDone (n vcMilli : Nat) (code : Option Nat) (vPkMv : Nat)
  /-- BEAT_CURRENT_TRIP (R330): The current comparator trips, turning all four gates off for the rest of the cycle. -/
  | beatCurrentTrip (n cycles vcMilli vd ref : Nat)
  /-- BEAT_SENSE_FAULT (R330): The sensed output differs from the reference by over 25 % of V_FS for 1 ms. -/
  | beatSenseFault (n : Nat)
  /-- BEAT_RAIL_FAULT (R333): A rail over-voltage or lost feedback stops its PWM and faults its channels. -/
  | beatRailFault (r : Nat)
  /-- BEAT_RETRY (R331): RETRY_S after a FAULT entry, the channel moves to DIAG. -/
  | beatRetry (n : Nat)
  /-- BEAT_PREROLL_DONE (R327): PREROLL_MS elapses and the channel enters RUNNING at level 0. -/
  | beatPrerollDone (n : Nat)
  /-- BEAT_RAMP_DONE (R327): A channel's level reaches 0, leading to STOPPED after idling or to UNPLUGGED. -/
  | beatRampDone (n : Nat)
  /-- BEAT_PRESENCE_CHANGE (R334): A channel acts on a debounced presence loss or return at its boundary. -/
  | beatPresenceChange (n : Nat)
  /-- BEAT_GRID_RELOCK (R326): Depth has stayed below 0.80 for 32 grid periods, so the channel relocks to its grid phase. -/
  | beatGridRelock (n : Nat)
  /-- BEAT_COUNT_CLEAR (R339): A write of CLEAR clears the Beater counters. -/
  | beatCountClear
  /-- FLM_HEARTBEAT_RX (R350): A heartbeat from the peer arrives and its state, evidence, digests and verdict are taken. -/
  | flmHeartbeatRx (link : Nat) (payload : List Byte) (skew : Int)
  /-- FLM_MIRROR_MSG_RX (R345): A mirror message of changes or source ranges from the active chip arrives to be applied at its block. -/
  | flmMirrorMsgRx (blk : Nat) (items : List MirrorItem) (regions : List (Nat × List Nat))
  /-- FLM_RESYNC_CHUNK_RX (R358): A resync chunk arrives and is installed at its boundary. -/
  | flmResyncChunkRx (blk bytes : Nat) (objs : List ChunkObj) (last : Bool)
  /-- FLAM_OWN_RELEASED (R354): FLAM_OWN stays high for 1 µs while the peer is ACTIVE, and the standby takes over at the next boundary. -/
  | flamOwnReleased
  /-- FLAM_SEL_RELEASED (R356): FLAM_SEL is released by the secondary, selecting the primary's outputs. -/
  | flamSelReleased
  /-- FLM_OWN_WATCHDOG (R340): With no token for 2 block periods, or on a reset, the AO island releases FLAM_OWN. -/
  | flmOwnWatchdog
  /-- FLM_TAKEOVER (R355): At boundary T the incoming chip enters LIVE, pulls FLAM_OWN and becomes the mirror source. -/
  | flmTakeover
  /-- FLM_YIELD_END (R355): The outgoing chip holds the incoming heartbeat of T, withholds its outputs and enters SHADOW. -/
  | flmYieldEnd
  /-- FLM_PAIRING_TIMEOUT (R353): After 500 ms in PAIRING with no active peer, a chip becomes ACTIVE. -/
  | flmPairingTimeout
  /-- FLM_RESYNC_COMPLETE (R358): Eight consecutive data blocks agree and the resyncing chip enters STANDBY, recording its peer. -/
  | flmResyncComplete
  /-- FLM_WTR_EXPIRY (R359): The primary's wait-to-restore expires and, with REVERT set, the revert trigger fires. -/
  | flmWtrExpiry
  /-- FLM_CMD_HANDOVER (R360): Flam command that requests a planned handover to the standby. -/
  | flmCmdHandover
  /-- FLM_CMD_RESYNC (R360): Flam command that sends the peer to RESYNC. -/
  | flmCmdResync
  /-- FLM_HANDOVER_WRITE (R361): A write of 0xF1A3 to FLM_HANDOVER acts as FLM_CMD_HANDOVER. -/
  | flmHandoverWrite (value : Word)
  /-- FLM_RESYNC_WRITE (R361): A write of 0xF1A3 to FLM_RESYNC acts as FLM_CMD_RESYNC. -/
  | flmResyncWrite (value : Word)
  /-- FLM_REALIGN_WRITE (R349): A write of 0xB10C to FLM_REALIGN requests a paired realignment, or is refused. -/
  | flmRealignWrite (value : Word)
  /-- FLM_COUNT_CLEAR (R361): A write of CLEAR clears the Flam counters. -/
  | flmCountClear
  /-- SMP_REQUEST_FRAME (R363): An SMP request frame is taken whole and accepted, or discarded on a short frame, bad CRC, bad SYNC or while busy. -/
  | smpRequestFrame (frame : List Byte)
  /-- SMP_RESPONSE_READ (R364): The controller reads the current SMP response with its status and CRC. -/
  | smpResponseRead
  /-- SMP_COMMAND_COMPLETE (R366): An executing SMP or host-path command completes with its STATUS and response. -/
  | smpCommandComplete
  /-- GET_INFO (R365): SMP command that returns serial, revision, mode, flags and power cycles. -/
  | getInfo
  /-- READ32 (R365): SMP command that reads 1–60 words at an internal address. -/
  | read32 (ext : List FetchResp)
  /-- SMP_WRITE32 (R365): SMP command that writes 1–60 words at an internal address. -/
  | smpWrite32
  /-- RMW32 (R365): SMP command that performs a masked read-modify-write as a locked sequence. -/
  | rmw32 (ext : FetchResp)
  /-- MIRROR_READ (R367): SMP command that returns the 16 status mirror words. -/
  | mirrorRead
  /-- PMU_REQUEST (R365): SMP command that passes a power-manager action. -/
  | pmuRequest
  /-- RESET_MAIN (R393): SMP command that resets the main side with key 0x5A1D. -/
  | resetMain (straps : Nat)
  /-- LOAD_FLASH (R365): SMP command that loads a flash slot, waking the main side first from SENTRY. -/
  | loadFlash
  /-- FLAM_HANDOVER (R354): SMP command that performs the forced handover of an ACTIVE Flam chip. -/
  | flamHandover
  /-- EVT_UNLOCK (R379): SMP command that returns a random nonce and opens a 1 s clear window. -/
  | evtUnlock
  /-- EVT_UNLOCK_EXPIRY (R379): The 1 s unlock window ends, and the unlock is void. -/
  | evtUnlockExpiry
  /-- EVT_CLEAR (R379): SMP command that clears the recorder when its code matches the nonce, then writes a CAUSE 4 record. -/
  | evtClear
  /-- EVT_SNAPSHOT (R365): SMP command that requests a recorder snapshot. -/
  | evtSnapshot
  /-- FLASH_READ (R365): SMP command that reads bytes from boot flash. -/
  | flashRead
  /-- FLASH_ERASE (R365): SMP command that erases a 64 KiB block in the image slots. -/
  | flashErase (ok : Bool)
  /-- FLASH_PROGRAM (R365): SMP command that programs bytes within one flash page in the image slots. -/
  | flashProgram (ok : Bool)
  /-- ATTEST (R384): SMP command that builds and returns a signed attestation record over a nonce. -/
  | attest
  /-- OTP_COMMAND (R385): SMP command that carries a signed OTP command block. -/
  | otpCommand
  /-- SMP_HOST_GO_WRITE (R369): A host write of SMP_HOST_GO starts the request in SMP_HOST_REQ, unless a command is executing. -/
  | smpHostGoWrite (value : Word)
  /-- SMP_MIRROR_REFRESH (R367): Every 1 ms, while CTRL is powered, the AO island copies the 16 status words. -/
  | smpMirrorRefresh
  /-- EVT_SECOND_TICK (R370): Each second the per-second histograms and extremes are sampled. -/
  | evtSecondTick (devs : List Int)
  /-- EVT_MINUTE_TICK (R372): Each minute OP_MINUTES increments, per-minute samples apply, and a periodic snapshot is taken if due. -/
  | evtMinuteTick
  /-- EVT_REQUEST_WRITE (R387): A write of EVT_REQUEST.SNAPSHOT takes a CAUSE 3 record. -/
  | evtRequestWrite (value : Word)
  /-- EVT_RECORD_WRITTEN (R374): A record write ends and is verified, or fails; the frozen bank is restored and the other slot pre-erased. -/
  | evtRecordWritten (ok : Bool) (us : Nat)
  /-- EVT_PRE_ERASE_DONE (R374): The pre-erase of the next record slot completes. -/
  | evtPreEraseDone
  /-- EVT_RESTORE (R377): After an AO reset the recorder restores from the newest valid record and increments POWER_CYCLES. -/
  | evtRestore
  /-- EVT_CURSOR_WRITE (R378): A write of EVT_CURSOR selects a source and word, choosing the newest record for SOURCE 1. -/
  | evtCursorWrite (value : Word)
  /-- EVT_WINDOW_READ (R378): A read of EVT_WINDOW returns the selected word and advances WORD. -/
  | evtWindowRead (master : Nat)
  /-- TAP_SAMPLE (R380): Every 1 ms the panel samples its keys and presence inputs and debounces them. -/
  | tapSample (keys pres : Nat)
  /-- TAP_ENC_SAMPLE (R382): At 1 MHz the encoder inputs are sampled and a valid quadrature step moves COUNT. -/
  | tapEncSample (levels : Nat)
  /-- TAP_MUTE_KEY_WRITE (R380): A write of TAP_MUTE_KEY sets the key mute states as a press would. -/
  | tapMuteKeyWrite (value : Word)
  /-- ID_ATTEST_GO_WRITE (R384): A write of ID_ATTEST_GO latches the nonce and starts building an attestation record. -/
  | idAttestGoWrite (value : Word)
  /-- ATTEST_DONE (R384): An attestation record is ready and DONE is set. -/
  | attestDone
  /-- OTP_CMD_GO_WRITE (R385): A write of OTP_CMD_GO with key 0x07F5 starts the OTP command. -/
  | otpCmdGoWrite (value : Word)
  /-- OTP_COMMAND_DONE (R385): An OTP command finishes, fusing or refusing, and reports RESULT. -/
  | otpCommandDone (fuseOk : Bool)
  /-- SLEEP (R396): Power action that ramps outputs to silence and switches domains off into SENTRY. -/
  | sleep
  /-- WAKE (R396): Power action that starts the main side from SENTRY into LOAD. -/
  | wake
  /-- GO_LIVE (R397): Power action that moves SHADOW to LIVE and releases the outputs. -/
  | goLive
  /-- GO_SHADOW (R397): Power action that moves LIVE to SHADOW and withholds the outputs. -/
  | goShadow
  /-- LIMP_ENTER (R400): Power action that sets the REQUEST cause of LIMP. -/
  | limpEnter
  /-- LIMP_EXIT (R402): Power action that clears the REQUEST cause and requests exit from LIMP. -/
  | limpExit
  /-- TEST_ENTER (R396): Power action with key that resets the main side into TEST. -/
  | testEnter (key : Nat)
  /-- TEST_EXIT (R396): Power action that switches every domain except AO off into SENTRY. -/
  | testExit
  /-- LIMP_ENTRY (R401): A LIMP cause moves the device into LIMP: fallback clocks, essential dispatch only, swap cancelled. -/
  | limpEntry
  /-- LIMP_RETENTION (R392): Under THERMAL, 2 blocks after entry, domains without essential tasks enter retention. -/
  | limpRetention
  /-- LIMP_CAUSE_CLEAR (R400): A LIMP cause's clear condition is met, for example 100 ms of lock or 10 s below 140 °C. -/
  | limpCauseClear (cause : Nat)
  /-- LIMP_RETURN (R402): At boundary L islands return to PLL_00, and full dispatch resumes from L + 1. -/
  | limpReturn
  /-- ISLAND_HANG (R400): An island fails to accept a token within one block period, or misses deadlines 16 blocks in a row. -/
  | islandHang (island : Nat)
  /-- RAIL_DROP (R400): VDD_CORE or VDD_SRAM falls over 8 % for 10 µs, or a main rail is removed outside SENTRY. -/
  | railDrop (rail : Nat)
  /-- SYS_RESET_WRITE (R393): A write of SYS_RESET with key 0x5A1D resets the main side. -/
  | sysResetWrite (value : Word) (straps : Nat)
  /-- RESET_N_ASSERT (R393): RESET_N held low for 10 µs resets every domain except AO without draining. -/
  | resetNAssert (straps : Nat)
  /-- AO_RESET (R393): The internal power-on reset or AO_RESET_N resets everything and latches the straps. -/
  | aoReset (por : Bool) (straps : Nat)
  /-- DOMAIN_ON (R391): A power domain's rails are good and it switches on with limited inrush, releasing isolation and reset. -/
  | domainOn (d : Nat)
  /-- DOMAIN_OFF (R391): A power domain drains its channels and switches off. -/
  | domainOff (d : Nat)
  /-- RAIL_TIMEOUT (R391): Rails not good within 100 ms of a power request fail it with RAIL_BAD. -/
  | railTimeout
  /-- BOOT_FIRST_TOKEN (R398): Stage 6 of a wake issues the first token and enters START_MODE or SHADOW. -/
  | bootFirstToken (tuSample : Nat)
  /-- PTP_WAIT_TIMEOUT (R398): With WAIT_PTP set, boot proceeds after 30 s without servo lock and sets PTP_TIMEOUT. -/
  | ptpWaitTimeout
  /-- PMU_TEMP_SAMPLE (R404): Every 1 ms the sixteen sensors are read and compared with the warning and LIMP thresholds. -/
  | pmuTempSample (temps : List Int)
  /-- THERMAL_TRIP (R405): A sensor at 160 °C triggers a main-side reset and SENTRY within 10 µs. -/
  | thermalTrip (straps : Nat)
  /-- THERM_RESTART_WAKE (R405): After a hard trip, with THERM_RESTART set, the device wakes once every sensor has been below 120 °C for 10 s. -/
  | thermRestartWake
  /-- PWR_FAIL_ASSERT (R403): Debounced PWR_FAIL_N triggers a recorder snapshot, a handover or output ramp-down. -/
  | pwrFailAssert
  /-- PWR_FAIL_SHUTDOWN (R403): PWR_FAIL_N still asserted after 1 ms switches the main side off into SENTRY. -/
  | pwrFailShutdown
  /-- PWR_FAIL_DEASSERT (R403): PWR_FAIL_N deasserts within 1 ms, outputs ramp back in and GLITCH is counted. -/
  | pwrFailDeassert
  /-- PF_RESTART_WAKE (R403): After a shutdown with PF_RESTART set, the device wakes once rails have been good for 100 ms. -/
  | pfRestartWake
  /-- PCIE_LINK_UP (R36): The PCIe link finishes training once CTRL is powered, and HIF_LINK.UP, WIDTH and SPEED take their new values. -/
  | pcieLinkUp (width speed : Nat)
  /-- PCIE_POWER_STATE_CHANGE (R435): The host moves the function between D0 and D3hot; in D3hot outbound accesses get target errors at once and record rings halt. -/
  | pciePowerStateChange (d3 : Bool)
  /-- FLM_LINK_DOWN (R353): A Flam link FLM_00 or FLM_01 goes down, FLM_LINK clears its UP bit and LINK_LOST is set. -/
  | flmLinkDown (link : Nat)
  /-- FLM_LINK_UP (R353): A Flam link comes back up, FLM_LINK sets its UP bit, and an ISOLATED chip moves to RESYNC. -/
  | flmLinkUp (link : Nat)
  /-- PLL03_RETURN (R316): After PLL_03 has been LOCKED for 1 ms, the time unit returns from the crystal to PLL_03 and its uncertainty falls back. -/
  | pll03Return
  /-- LO_IN_RETURN (R310): LO_IN starts toggling again after a loss, and Clave begins its 10 s measurement before rebasing onto it. -/
  | loInReturn
  /-- WCLK_INPUT_MISSED (R313): The alignment input of a word-clock output misses 2 expected edges, and the output enters HOLD with its phase kept. -/
  | wclkInputMissed (n : Nat)
  /-- VDD_AO_LOSS (R340): VDD_AO is lost: the AO island releases FLAM_OWN at once, and every AO state, including MIRROR_GEN and RECORD_VALID, is gone. -/
  | vddAoLoss
deriving DecidableEq, Repr

end Sys2Proof
end

