-- ==== Sys2Proof/Decode.lean ====
section
/-! DEFINITION. The opcode table gives no row a word: every row's bits are empty, so no word spells a command. -/

namespace Sys2Proof

/-- The command that a word of `nbits` bits spells by the table's bits: none, since no row of the table gives bits. -/
def decodeTableWord (nbits w : Nat) : Option Instr :=
  match nbits, w with
  | _, _ => none

end Sys2Proof
end

