-- ==== Sys2Proof/Config.lean ====
section
/-! DEFINITION. What an implementation fixes and the free values: constants without a body, so that no proof can lean on
a value the spec leaves open. -/

namespace Sys2Proof

/-- A fresh value the spec leaves open: applied to the counter `State.freeCtr`, which every use advances
(notes/assumptions/2). -/
opaque Config.freeValue : Nat → Nat

/-- The true random numbers the device draws (R206, R275, R379, R384), applied to the same counter. -/
opaque Config.random : Nat → Nat

/-- The contents of DRAM after a write of DPL_HASH_SEED in TEST (R214: undefined), by epoch and address. -/
opaque Config.dramScrambled : Nat → Nat → Byte

/-- The output code of a bridge filter (R76: given by its group delay, its passband and its distortion only): of the bridge kind, the
position of the delayed instant between input samples, and the input samples around that instant (notes/assumptions/48). -/
opaque Config.bridgeFilter : Nat → Rat → List Int → Nat

/-- The on-die ROM coefficient sets of the delay taps (R199, R200), as Q1.23 codes, by phase and tap index. The spec gives their
performance and no value (notes/assumptions/49). -/
opaque Config.delayRom : Nat → Nat → BitVec 24

/-- The XOR-folding functions of R206: which of the 48 bits of the seed and a[27:12] each output bit folds; bits 0 and 1 are H2, bits 2 to 5
H4. -/
opaque Config.hashMask : Nat → Nat

/-- What is fused in OTP at manufacture (R383): the words of the serial number, the identity public key and the certificate,
by internal address. -/
opaque Config.otpWord : Nat → Nat

/-- The direction in which a panel encoder's COUNT moves when input A leads input B (R382 does not state it). -/
opaque Config.encoderUp : Bool

/-- BASE (low 16 bits) and WIDTH of the descriptor of log2 histogram `h` in a record, which the spec leaves open (R373;
notes/assumptions/26). -/
opaque Config.logDescr : Nat → Nat

/-- The ECDSA P-256 signature (r and s, 64 bytes) that the identity key forms over a 32-byte digest (R384): the private half
is in OTP, and no master can read it. -/
opaque Config.identitySign : List Byte → List Byte

end Sys2Proof
end

