-- ==== Sys2Proof/Machine/Table.lean ====
section
/-! DEFINITION. Sparse tables: the one representation of every keyed store of the device (register fields,
crosspoints, coefficients, samples, bytes of memory).

A table is a list of (key, value) pairs in canonical form: keys strictly rising, and no entry equal to what an
unlisted key reads as. Equal tables are therefore equal lists. -/

namespace Sys2Proof.Machine

/-- A sparse table of values of type `α` keyed by `Nat`. -/
abbrev Tbl (α : Type) := List (Nat × α)

/-- Remove every entry at key `k`. -/
def Tbl.erase {α : Type} (k : Nat) : Tbl α → Tbl α
  | [] => []
  | (k', v) :: t => if k' = k then Tbl.erase k t else (k', v) :: Tbl.erase k t

/-- Insert an entry before the first larger key. -/
def Tbl.ins {α : Type} (k : Nat) (v : α) : Tbl α → Tbl α
  | [] => [(k, v)]
  | (k', v') :: t => if k < k' then (k, v) :: (k', v') :: t else (k', v') :: Tbl.ins k v t

/-- The listed value at `k`, if there is one. -/
def Tbl.find {α : Type} (k : Nat) : Tbl α → Option α
  | [] => none
  | (k', v) :: t => if k' = k then some v else Tbl.find k t

/-- Read key `k`; an unlisted key reads as `d`. -/
def Tbl.get {α : Type} (t : Tbl α) (k : Nat) (d : α) : α := (Tbl.find k t).getD d

/-- Write `v` at `k`. Writing what an unlisted key reads as (`d`) removes the entry, which keeps the form canonical. -/
def Tbl.set {α : Type} [DecidableEq α] (t : Tbl α) (k : Nat) (d v : α) : Tbl α :=
  if v = d then Tbl.erase k t else Tbl.ins k v (Tbl.erase k t)

/-- Add an entry whatever its value, replacing the one at `k`: for tables whose absent entry means "none". -/
def Tbl.put {α : Type} (t : Tbl α) (k : Nat) (v : α) : Tbl α := Tbl.ins k v (Tbl.erase k t)

/-- Keys strictly rising. -/
def Tbl.sorted {α : Type} : Tbl α → Bool
  | [] => true
  | [_] => true
  | (k, _) :: (k', v') :: t => decide (k < k') && Tbl.sorted ((k', v') :: t)

/-- The canonical form, for a table whose unlisted key `k` reads as `d k`. -/
def Tbl.wf {α : Type} [DecidableEq α] (d : Nat → α) (t : Tbl α) : Bool :=
  Tbl.sorted t && t.all (fun e => decide (e.2 ≠ d e.1))

/-- Keep the entries whose key satisfies `p`. -/
def Tbl.keep {α : Type} (p : Nat → Bool) (t : Tbl α) : Tbl α := t.filter (fun e => p e.1)

end Sys2Proof.Machine
end

