-- ==== Sys2Proof/Machine/RegMap.lean ====
section
/-! DEFINITION. The register map: every register field of the device, from the register tables of the spec (R33, R65,
R90-R92, R120, R137, R173, R174, R214, R244-R247, R269, R270, R295, R296, R319, R320, R339, R361, R386-R389, R406, R407).

A field is named `R.<REGISTER>_<FIELD>` as the spec names it, with the instance numbers as arguments. Addresses are
internal addresses (R34: BAR0 offset O is internal address 0x1400_0000 + O). `xxx_COMMIT_STATUS` has the layout of R25.
A reset of "Peal image", "OTP", "Strap" or another source is 0 here; the operation that loads the source sets it
(DESIGN CHOICE before the source is loaded, notes/assumptions/3). -/

namespace Sys2Proof.Machine

/-- A register field: the internal address of its register, its lowest bit, its width and its reset value. -/
structure Fld where
  addr : Nat
  lo : Nat
  width : Nat
  rst : Nat
deriving DecidableEq, Repr

/-- The key of a field in the register file. -/
abbrev Fld.key (f : Fld) : Nat := f.addr * 32 + f.lo

/-- The access types of R4. -/
inductive Access where
  | rw | ro | wo | w1c | w1s | rws
deriving DecidableEq, Repr

/-- One field of a register row. -/
structure RegField where
  lo : Nat
  width : Nat
  acc : Access
  rst : Nat
deriving DecidableEq, Repr

/-- One row of a register table: base address, instance dimensions (stride, count), fields. -/
structure RegRow where
  base : Nat
  dims : List (Nat × Nat)
  fields : List RegField
deriving DecidableEq, Repr

namespace R


-- R65
abbrev PEAL_ID_FORMAT : Fld := ⟨0x14060000, 0, 16, 0x1⟩
abbrev PEAL_STATUS_PLANE_A : Fld := ⟨0x14060014, 28, 4, 0⟩
abbrev PEAL_STATUS_PLANE_B : Fld := ⟨0x14060014, 24, 4, 0⟩
abbrev PEAL_STATUS_LIVE_PLANE : Fld := ⟨0x14060014, 16, 1, 0⟩
abbrev PEAL_STATUS_BUSY : Fld := ⟨0x14060014, 0, 1, 0⟩
abbrev PEAL_VERIFY_RESULT_ERR : Fld := ⟨0x14060018, 16, 16, 0⟩
abbrev PEAL_VERIFY_RESULT_INDEX : Fld := ⟨0x14060018, 0, 16, 0⟩
abbrev PEAL_VERIFY_DETAIL_DETAIL : Fld := ⟨0x1406001c, 0, 32, 0⟩
abbrev PEAL_LIVE_HASH_HASH (n : Nat) : Fld := ⟨0x14060020 + 0x4 * n, 0, 32, 0⟩
abbrev PEAL_STAGED_HASH_HASH (n : Nat) : Fld := ⟨0x14060040 + 0x4 * n, 0, 32, 0⟩
abbrev PEAL_GEN_LO_GEN : Fld := ⟨0x14060060, 0, 32, 0⟩
abbrev PEAL_GEN_HI_GEN : Fld := ⟨0x14060064, 0, 32, 0⟩
abbrev PEAL_SWAP_BLK_LO_BLK : Fld := ⟨0x14060080, 0, 32, 0⟩
abbrev PEAL_SWAP_BLK_HI_BLK : Fld := ⟨0x14060084, 0, 16, 0⟩
abbrev PEAL_SWAP_CTRL_XFADE : Fld := ⟨0x14060088, 16, 7, 0⟩
abbrev PEAL_SWAP_CTRL_MODE : Fld := ⟨0x14060088, 8, 2, 0⟩
abbrev PEAL_COMMIT_STATUS_TAG : Fld := ⟨0x14060090, 16, 8, 0⟩
abbrev PEAL_COMMIT_STATUS_ERR_CODE : Fld := ⟨0x14060090, 8, 4, 0⟩
abbrev PEAL_COMMIT_STATUS_PENDING : Fld := ⟨0x14060090, 2, 1, 0⟩
abbrev PEAL_COMMIT_STATUS_COMMIT_ERR : Fld := ⟨0x14060090, 1, 1, 0⟩
abbrev PEAL_COMMIT_STATUS_APPLIED : Fld := ⟨0x14060090, 0, 1, 0⟩
abbrev PEAL_SWAP_STATUS_REFUSE_DETAIL : Fld := ⟨0x14060094, 16, 16, 0⟩
abbrev PEAL_SWAP_STATUS_STATE : Fld := ⟨0x14060094, 0, 4, 0⟩
abbrev PEAL_SWAP_S_LO_S : Fld := ⟨0x14060098, 0, 32, 0⟩
abbrev PEAL_SWAP_S_HI_S : Fld := ⟨0x1406009c, 0, 16, 0⟩
abbrev PEAL_FILL_REMAIN_BLOCKS : Fld := ⟨0x140600a0, 0, 32, 0⟩
abbrev PEAL_STALE_CMD_COUNT_COUNT : Fld := ⟨0x140600a4, 0, 32, 0⟩
abbrev PEAL_INT_STATUS_PLANE_ECC : Fld := ⟨0x140600b0, 8, 1, 0⟩
abbrev PEAL_INT_STATUS_LIVE_WRITE : Fld := ⟨0x140600b0, 7, 1, 0⟩
abbrev PEAL_INT_STATUS_STALE_CMD : Fld := ⟨0x140600b0, 6, 1, 0⟩
abbrev PEAL_INT_STATUS_SWAP_REFUSED : Fld := ⟨0x140600b0, 5, 1, 0⟩
abbrev PEAL_INT_STATUS_SWAP_DONE : Fld := ⟨0x140600b0, 4, 1, 0⟩
abbrev PEAL_INT_STATUS_SWAP_START : Fld := ⟨0x140600b0, 3, 1, 0⟩
abbrev PEAL_INT_STATUS_SWAP_ARMED : Fld := ⟨0x140600b0, 2, 1, 0⟩
abbrev PEAL_INT_STATUS_REJECTED : Fld := ⟨0x140600b0, 1, 1, 0⟩
abbrev PEAL_INT_STATUS_VERIFIED : Fld := ⟨0x140600b0, 0, 1, 0⟩
abbrev PEAL_INT_ENABLE_ENABLE : Fld := ⟨0x140600b4, 0, 9, 0⟩

-- R90
abbrev BLK_CFG_BLOCK_LEN : Fld := ⟨0x14040000, 16, 8, 0⟩
abbrev BLK_CFG_RATE_B : Fld := ⟨0x14040000, 8, 8, 0⟩
abbrev BLK_CFG_RATE_A : Fld := ⟨0x14040000, 0, 8, 0⟩
abbrev BLK_STATE_REALIGNING : Fld := ⟨0x14040004, 3, 1, 0⟩
abbrev BLK_STATE_EPOCH_OK : Fld := ⟨0x14040004, 2, 1, 0⟩
abbrev BLK_STATE_LIMP_SCHED : Fld := ⟨0x14040004, 1, 1, 0⟩
abbrev BLK_STATE_RUN : Fld := ⟨0x14040004, 0, 1, 0⟩
abbrev BLK_INDEX_LO_INDEX : Fld := ⟨0x14040008, 0, 32, 0⟩
abbrev BLK_INDEX_HI_INDEX : Fld := ⟨0x1404000c, 0, 16, 0⟩
abbrev BLK_EPOCH_ERR_ERR : Fld := ⟨0x14040010, 0, 32, 0⟩
abbrev BLK_REALIGN_STATUS_BUSY : Fld := ⟨0x14040018, 8, 1, 0⟩
abbrev BLK_REALIGN_STATUS_RESULT : Fld := ⟨0x14040018, 0, 4, 0⟩
abbrev BLK_TICK_DIV_DIV : Fld := ⟨0x1404001c, 0, 16, 0⟩
abbrev BLK_LATE_TOTAL_COUNT : Fld := ⟨0x14040020, 0, 32, 0⟩
abbrev BLK_OVERRUN_TOTAL_COUNT : Fld := ⟨0x14040024, 0, 32, 0⟩
abbrev BLK_LATE_LAST_OVERRUN : Fld := ⟨0x14040028, 31, 1, 0⟩
abbrev BLK_LATE_LAST_TASK : Fld := ⟨0x14040028, 0, 12, 0⟩
abbrev BLK_LATE_LAST_BLK_LO_BLK : Fld := ⟨0x1404002c, 0, 32, 0⟩
abbrev BLK_FADED_BUSES_COUNT : Fld := ⟨0x14040030, 0, 32, 0⟩
abbrev BLK_ISL_LOAD_PEAK (n : Nat) : Fld := ⟨0x14040100 + 0x4 * n, 16, 16, 0⟩
abbrev BLK_ISL_LOAD_LAST (n : Nat) : Fld := ⟨0x14040100 + 0x4 * n, 0, 16, 0⟩
abbrev BLK_ISL_PLAN_PLAN_ESS (n : Nat) : Fld := ⟨0x14040200 + 0x4 * n, 16, 16, 0⟩
abbrev BLK_ISL_PLAN_PLAN (n : Nat) : Fld := ⟨0x14040200 + 0x4 * n, 0, 16, 0⟩
abbrev BLK_ISL_LATE_COUNT (n : Nat) : Fld := ⟨0x14040300 + 0x4 * n, 0, 32, 0⟩
abbrev BLK_INT_STATUS_REALIGN_DONE : Fld := ⟨0x14040400, 4, 1, 0⟩
abbrev BLK_INT_STATUS_EPOCH_ERR : Fld := ⟨0x14040400, 3, 1, 0⟩
abbrev BLK_INT_STATUS_OVERRUN : Fld := ⟨0x14040400, 2, 1, 0⟩
abbrev BLK_INT_STATUS_LATE : Fld := ⟨0x14040400, 1, 1, 0⟩
abbrev BLK_INT_STATUS_TICK : Fld := ⟨0x14040400, 0, 1, 0⟩
abbrev BLK_INT_ENABLE_ENABLE : Fld := ⟨0x14040404, 0, 5, 0⟩

-- R91
abbrev SXM_STABLE_BLK_BLK : Fld := ⟨0x14050000, 0, 32, 0⟩
abbrev SXM_STATUS_SWAP_USED : Fld := ⟨0x14050004, 0, 13, 0⟩
abbrev SXM_INT_STATUS_WRITE_REFUSED : Fld := ⟨0x14050008, 0, 1, 0⟩
abbrev SXM_INT_ENABLE_ENABLE : Fld := ⟨0x1405000c, 0, 1, 0⟩

-- R92
abbrev BRG_STATUS_AB_CHANNELS : Fld := ⟨0x14070000, 16, 9, 0⟩
abbrev BRG_STATUS_CA_CHANNELS : Fld := ⟨0x14070000, 8, 8, 0⟩
abbrev BRG_STATUS_AC_CHANNELS : Fld := ⟨0x14070000, 0, 8, 0⟩
abbrev BRG_SRC_STATE_CH_OUT (n : Nat) : Fld := ⟨0x14070100 + 0x4 * n, 24, 8, 0⟩
abbrev BRG_SRC_STATE_CH_IN (n : Nat) : Fld := ⟨0x14070100 + 0x4 * n, 16, 8, 0⟩
abbrev BRG_SRC_STATE_STATE (n : Nat) : Fld := ⟨0x14070100 + 0x4 * n, 0, 4, 0⟩
abbrev BRG_SRC_RATIO_RATIO (n : Nat) : Fld := ⟨0x14070200 + 0x4 * n, 0, 32, 0⟩
abbrev BRG_SRC_UNLOCK_COUNT (n : Nat) : Fld := ⟨0x14070300 + 0x4 * n, 0, 32, 0⟩
abbrev BRG_INT_STATUS_UNLOCK : Fld := ⟨0x14070400, 1, 1, 0⟩
abbrev BRG_INT_STATUS_LOCK : Fld := ⟨0x14070400, 0, 1, 0⟩
abbrev BRG_INT_ENABLE_ENABLE : Fld := ⟨0x14070404, 0, 2, 0⟩

-- R120
abbrev CLN_GEOM_OUTPUTS : Fld := ⟨0x14100000, 16, 16, 0⟩
abbrev CLN_GEOM_INPUTS : Fld := ⟨0x14100000, 0, 16, 0⟩
abbrev CLN_BUSES_OUT_BUS_BASE : Fld := ⟨0x14100004, 16, 16, 0⟩
abbrev CLN_BUSES_IN_BUS_BASE : Fld := ⟨0x14100004, 0, 16, 0⟩
abbrev CLN_MODE_PARTS : Fld := ⟨0x14100008, 8, 4, 0⟩
abbrev CLN_MODE_MAX_SHIFT : Fld := ⟨0x14100008, 4, 4, 0⟩
abbrev CLN_MODE_WIDE : Fld := ⟨0x14100008, 1, 1, 0⟩
abbrev CLN_MODE_PRESENT : Fld := ⟨0x14100008, 0, 1, 0⟩
abbrev CLN_RAMP_SLOT_00_PROFILE : Fld := ⟨0x14100040, 16, 1, 0⟩
abbrev CLN_RAMP_SLOT_00_LEN : Fld := ⟨0x14100040, 0, 10, 0⟩
abbrev CLN_RAMP_SLOT_PROFILE (n : Nat) : Fld := ⟨0x14100040 + 0x4 * n, 16, 1, 0⟩
abbrev CLN_RAMP_SLOT_LEN (n : Nat) : Fld := ⟨0x14100040 + 0x4 * n, 0, 10, 0⟩
abbrev CLN_RAMP_INUSE_IN_USE : Fld := ⟨0x14100080, 0, 16, 0⟩
abbrev CLN_RAMP_TABLE_PEAK : Fld := ⟨0x14100084, 16, 15, 0⟩
abbrev CLN_RAMP_TABLE_USED : Fld := ⟨0x14100084, 0, 15, 0⟩
abbrev CLN_XP_SEL_AUTOINC : Fld := ⟨0x14100100, 31, 1, 0⟩
abbrev CLN_XP_SEL_OUTPUT : Fld := ⟨0x14100100, 16, 10, 0⟩
abbrev CLN_XP_SEL_INPUT : Fld := ⟨0x14100100, 0, 11, 0⟩
abbrev CLN_XP_CUR_RAMPING : Fld := ⟨0x14100104, 24, 1, 0⟩
abbrev CLN_XP_CUR_CURRENT : Fld := ⟨0x14100104, 0, 24, 0⟩
abbrev CLN_XP_TGT_SLOT : Fld := ⟨0x14100108, 28, 4, 0⟩
abbrev CLN_XP_TGT_TARGET : Fld := ⟨0x14100108, 0, 24, 0⟩
abbrev CLN_OUTSET_RANGE_LAST : Fld := ⟨0x14100200, 16, 10, 0⟩
abbrev CLN_OUTSET_RANGE_FIRST : Fld := ⟨0x14100200, 0, 10, 0⟩
abbrev CLN_OUTSET_CFG_SLOT : Fld := ⟨0x14100204, 8, 4, 0⟩
abbrev CLN_OUTSET_CFG_SHIFT : Fld := ⟨0x14100204, 4, 4, 0⟩
abbrev CLN_OUTSET_CFG_MODE : Fld := ⟨0x14100204, 0, 2, 0⟩
abbrev CLN_COMMIT_STATUS_TAG : Fld := ⟨0x1410020c, 16, 8, 0⟩
abbrev CLN_COMMIT_STATUS_ERR_CODE : Fld := ⟨0x1410020c, 8, 4, 0⟩
abbrev CLN_COMMIT_STATUS_PENDING : Fld := ⟨0x1410020c, 2, 1, 0⟩
abbrev CLN_COMMIT_STATUS_COMMIT_ERR : Fld := ⟨0x1410020c, 1, 1, 0⟩
abbrev CLN_COMMIT_STATUS_APPLIED : Fld := ⟨0x1410020c, 0, 1, 0⟩
abbrev CLN_OUTSET_ERR_CODE : Fld := ⟨0x14100210, 0, 4, 0⟩
abbrev CLN_CMD_LATE_COUNT : Fld := ⟨0x14100300, 0, 32, 0⟩
abbrev CLN_CMD_REJECT_COUNT : Fld := ⟨0x14100304, 0, 32, 0⟩
abbrev CLN_CMD_DEFER_COUNT : Fld := ⟨0x14100308, 0, 32, 0⟩
abbrev CLN_RAMP_WAIT_COUNT : Fld := ⟨0x1410030c, 0, 32, 0⟩
abbrev CLN_CLIP_COUNT_COUNT : Fld := ⟨0x14100310, 0, 32, 0⟩
abbrev CLN_OVF_COUNT_COUNT : Fld := ⟨0x14100314, 0, 32, 0⟩
abbrev CLN_CHANGES_LAST_COUNT : Fld := ⟨0x14100318, 0, 17, 0⟩
abbrev CLN_INT_STATUS_RAMP_SLOT_BUSY : Fld := ⟨0x14100400, 7, 1, 0⟩
abbrev CLN_INT_STATUS_XP_RANGE : Fld := ⟨0x14100400, 6, 1, 0⟩
abbrev CLN_INT_STATUS_RAMP_WAIT : Fld := ⟨0x14100400, 5, 1, 0⟩
abbrev CLN_INT_STATUS_CMD_DEFER : Fld := ⟨0x14100400, 4, 1, 0⟩
abbrev CLN_INT_STATUS_CMD_REJECT : Fld := ⟨0x14100400, 3, 1, 0⟩
abbrev CLN_INT_STATUS_CMD_LATE : Fld := ⟨0x14100400, 2, 1, 0⟩
abbrev CLN_INT_STATUS_CLIP : Fld := ⟨0x14100400, 1, 1, 0⟩
abbrev CLN_INT_STATUS_OVF : Fld := ⟨0x14100400, 0, 1, 0⟩
abbrev CLN_INT_ENABLE_ENABLE : Fld := ⟨0x14100404, 0, 8, 0⟩
abbrev CLN_OUT0_SLOT (n : Nat) : Fld := ⟨0x14180000 + 0x8 * n, 24, 4, 0⟩
abbrev CLN_OUT0_SHIFT (n : Nat) : Fld := ⟨0x14180000 + 0x8 * n, 20, 4, 0⟩
abbrev CLN_OUT0_MODE (n : Nat) : Fld := ⟨0x14180000 + 0x8 * n, 18, 2, 0⟩
abbrev CLN_OUT0_MUTED (n : Nat) : Fld := ⟨0x14180000 + 0x8 * n, 17, 1, 0⟩
abbrev CLN_OUT0_RAMPING (n : Nat) : Fld := ⟨0x14180000 + 0x8 * n, 16, 1, 0⟩
abbrev CLN_OUT0_ACTIVE (n : Nat) : Fld := ⟨0x14180000 + 0x8 * n, 0, 12, 0⟩
abbrev CLN_OUT1_CLIP (n : Nat) : Fld := ⟨0x14180004 + 0x8 * n, 1, 1, 0⟩
abbrev CLN_OUT1_OVF (n : Nat) : Fld := ⟨0x14180004 + 0x8 * n, 0, 1, 0⟩

-- R137
abbrev CHM_CFG_FILTERS : Fld := ⟨0x14200000, 16, 10, 0⟩
abbrev CHM_CFG_PARTS_1 : Fld := ⟨0x14200000, 12, 4, 0⟩
abbrev CHM_CFG_PARTS_0 : Fld := ⟨0x14200000, 8, 4, 0⟩
abbrev CHM_CFG_PRESENT : Fld := ⟨0x14200000, 0, 1, 0⟩
abbrev CHM_TAPS_USED_TAPS : Fld := ⟨0x14200004, 0, 20, 0⟩
abbrev CHM_BUDGET_BUDGET : Fld := ⟨0x14200008, 0, 21, 0⟩
abbrev CHM_FADING_COUNT : Fld := ⟨0x1420000c, 0, 10, 0⟩
abbrev CHM_CW_SEL_AUTOINC : Fld := ⟨0x14200010, 31, 1, 0⟩
abbrev CHM_CW_SEL_BANK : Fld := ⟨0x14200010, 30, 1, 0⟩
abbrev CHM_CW_SEL_FILTER : Fld := ⟨0x14200010, 13, 9, 0⟩
abbrev CHM_CW_SEL_TAP : Fld := ⟨0x14200010, 0, 13, 0⟩
abbrev CHM_CW_DATA_COEF : Fld := ⟨0x14200014, 0, 32, 0⟩
abbrev CHM_PRESET_STATUS_BLOCKS : Fld := ⟨0x14200028, 24, 8, 0⟩
abbrev CHM_PRESET_STATUS_QUEUED : Fld := ⟨0x14200028, 20, 4, 0⟩
abbrev CHM_PRESET_STATUS_RESULT : Fld := ⟨0x14200028, 16, 4, 0⟩
abbrev CHM_PRESET_STATUS_ARRAY : Fld := ⟨0x14200028, 8, 6, 0⟩
abbrev CHM_PRESET_STATUS_PRESET : Fld := ⟨0x14200028, 4, 4, 0⟩
abbrev CHM_PRESET_STATUS_BUSY : Fld := ⟨0x14200028, 0, 1, 0⟩
abbrev CHM_CMD_LATE_COUNT : Fld := ⟨0x14200100, 0, 32, 0⟩
abbrev CHM_CMD_REJECT_COUNT : Fld := ⟨0x14200104, 0, 32, 0⟩
abbrev CHM_COEF_REFUSED_COUNT : Fld := ⟨0x14200108, 0, 32, 0⟩
abbrev CHM_CLIP_COUNT_COUNT : Fld := ⟨0x1420010c, 0, 32, 0⟩
abbrev CHM_INT_STATUS_XFADE_DONE : Fld := ⟨0x14200200, 6, 1, 0⟩
abbrev CHM_INT_STATUS_PRESET_FAIL : Fld := ⟨0x14200200, 5, 1, 0⟩
abbrev CHM_INT_STATUS_PRESET_DONE : Fld := ⟨0x14200200, 4, 1, 0⟩
abbrev CHM_INT_STATUS_COEF_REFUSED : Fld := ⟨0x14200200, 3, 1, 0⟩
abbrev CHM_INT_STATUS_CMD_REJECT : Fld := ⟨0x14200200, 2, 1, 0⟩
abbrev CHM_INT_STATUS_CMD_LATE : Fld := ⟨0x14200200, 1, 1, 0⟩
abbrev CHM_INT_STATUS_CLIP : Fld := ⟨0x14200200, 0, 1, 0⟩
abbrev CHM_INT_ENABLE_ENABLE : Fld := ⟨0x14200204, 0, 7, 0⟩
abbrev CHM_FILT0_PRESENT (n : Nat) : Fld := ⟨0x14240000 + 0x8 * n, 31, 1, 0⟩
abbrev CHM_FILT0_ACTIVE_BANK (n : Nat) : Fld := ⟨0x14240000 + 0x8 * n, 28, 1, 0⟩
abbrev CHM_FILT0_FADING (n : Nat) : Fld := ⟨0x14240000 + 0x8 * n, 27, 1, 0⟩
abbrev CHM_FILT0_IDLE_STATE (n : Nat) : Fld := ⟨0x14240000 + 0x8 * n, 25, 2, 0⟩
abbrev CHM_FILT0_TAPS (n : Nat) : Fld := ⟨0x14240000 + 0x8 * n, 0, 14, 0⟩
abbrev CHM_FILT1_CLIP (n : Nat) : Fld := ⟨0x14240004 + 0x8 * n, 0, 1, 0⟩

-- R173
abbrev CCR_CORE_ID_CORE (g : Nat) : Fld := ⟨0x14a00000 + 0x400000 * (g / 16) + 0x1000 * (g % 16), 0, 6, 0⟩
abbrev CCR_TASK_INFO_PREV_CAUSE (g : Nat) : Fld := ⟨0x14a00004 + 0x400000 * (g / 16) + 0x1000 * (g % 16), 30, 2, 0⟩
abbrev CCR_TASK_INFO_GAP (g : Nat) : Fld := ⟨0x14a00004 + 0x400000 * (g / 16) + 0x1000 * (g % 16), 29, 1, 0x1⟩
abbrev CCR_TASK_INFO_DOMAIN_B (g : Nat) : Fld := ⟨0x14a00004 + 0x400000 * (g / 16) + 0x1000 * (g % 16), 28, 1, 0⟩
abbrev CCR_TASK_INFO_TASK (g : Nat) : Fld := ⟨0x14a00004 + 0x400000 * (g / 16) + 0x1000 * (g % 16), 12, 12, 0⟩
abbrev CCR_TASK_INFO_SEQ (g : Nat) : Fld := ⟨0x14a00004 + 0x400000 * (g / 16) + 0x1000 * (g % 16), 0, 6, 0⟩
abbrev CCR_TASK_BLK_BLK (g : Nat) : Fld := ⟨0x14a00008 + 0x400000 * (g / 16) + 0x1000 * (g % 16), 0, 32, 0⟩
abbrev CCR_CYCLES_COUNT (g : Nat) : Fld := ⟨0x14a0000c + 0x400000 * (g / 16) + 0x1000 * (g % 16), 0, 32, 0⟩
abbrev CCR_SR_INIT_SR (g : Nat) : Fld := ⟨0x14a00010 + 0x400000 * (g / 16) + 0x1000 * (g % 16), 0, 16, 0⟩
abbrev CCR_TIMER_COUNT (g : Nat) : Fld := ⟨0x14a00014 + 0x400000 * (g / 16) + 0x1000 * (g % 16), 0, 32, 0⟩
abbrev CCR_EXC_CAUSE (g : Nat) : Fld := ⟨0x14a00018 + 0x400000 * (g / 16) + 0x1000 * (g % 16), 28, 4, 0⟩
abbrev CCR_EXC_PC (g : Nat) : Fld := ⟨0x14a00018 + 0x400000 * (g / 16) + 0x1000 * (g % 16), 0, 14, 0⟩
abbrev CCR_BUS_ERR_CAUSE (g : Nat) : Fld := ⟨0x14a0001c + 0x400000 * (g / 16) + 0x1000 * (g % 16), 29, 3, 0⟩
abbrev CCR_BUS_ERR_BUS (g : Nat) : Fld := ⟨0x14a0001c + 0x400000 * (g / 16) + 0x1000 * (g % 16), 0, 13, 0⟩
abbrev CCR_INT_PEND_PEND (g : Nat) : Fld := ⟨0x14a00020 + 0x400000 * (g / 16) + 0x1000 * (g % 16), 0, 16, 0⟩
abbrev CCR_INT_EN_EN (g : Nat) : Fld := ⟨0x14a00028 + 0x400000 * (g / 16) + 0x1000 * (g % 16), 0, 16, 0⟩
abbrev CCR_INT_FAST_FAST (g : Nat) : Fld := ⟨0x14a0002c + 0x400000 * (g / 16) + 0x1000 * (g % 16), 0, 16, 0⟩
abbrev CCR_FPC_PC (g : Nat) : Fld := ⟨0x14a00030 + 0x400000 * (g / 16) + 0x1000 * (g % 16), 0, 14, 0⟩
abbrev CCR_FSR_SR (g : Nat) : Fld := ⟨0x14a00034 + 0x400000 * (g / 16) + 0x1000 * (g % 16), 0, 16, 0⟩
abbrev CCR_MBOX_IN_DATA (g : Nat) : Fld := ⟨0x14a0003c + 0x400000 * (g / 16) + 0x1000 * (g % 16), 0, 32, 0⟩
abbrev CCR_MBOX_OUT_DATA (g : Nat) : Fld := ⟨0x14a00040 + 0x400000 * (g / 16) + 0x1000 * (g % 16), 0, 32, 0⟩
abbrev CCR_VEC_ADDR (g : Nat) (i : Nat) : Fld := ⟨0x14a00080 + 0x400000 * (g / 16) + 0x1000 * (g % 16) + 0x4 * i, 0, 14, 0⟩
abbrev CCR_DMA_LOCAL_WORD (g : Nat) (i : Nat) : Fld := ⟨0x14a000c0 + 0x400000 * (g / 16) + 0x1000 * (g % 16) + 0x10 * i, 0, 16, 0⟩
abbrev CCR_DMA_EXT_ADDR (g : Nat) (i : Nat) : Fld := ⟨0x14a000c4 + 0x400000 * (g / 16) + 0x1000 * (g % 16) + 0x10 * i, 0, 32, 0⟩
abbrev CCR_DMA_CTRL_DIR (g : Nat) (i : Nat) : Fld := ⟨0x14a000c8 + 0x400000 * (g / 16) + 0x1000 * (g % 16) + 0x10 * i, 30, 1, 0⟩
abbrev CCR_DMA_CTRL_PACK (g : Nat) (i : Nat) : Fld := ⟨0x14a000c8 + 0x400000 * (g / 16) + 0x1000 * (g % 16) + 0x10 * i, 29, 1, 0⟩
abbrev CCR_DMA_CTRL_COUNT (g : Nat) (i : Nat) : Fld := ⟨0x14a000c8 + 0x400000 * (g / 16) + 0x1000 * (g % 16) + 0x10 * i, 0, 16, 0⟩
abbrev CCR_DMA_STATUS_BUSY (g : Nat) (i : Nat) : Fld := ⟨0x14a000cc + 0x400000 * (g / 16) + 0x1000 * (g % 16) + 0x10 * i, 31, 1, 0⟩
abbrev CCR_DMA_STATUS_ERR (g : Nat) (i : Nat) : Fld := ⟨0x14a000cc + 0x400000 * (g / 16) + 0x1000 * (g % 16) + 0x10 * i, 30, 1, 0⟩
abbrev CCR_DMA_STATUS_DONE (g : Nat) (i : Nat) : Fld := ⟨0x14a000cc + 0x400000 * (g / 16) + 0x1000 * (g % 16) + 0x10 * i, 29, 1, 0⟩
abbrev CCR_DMA_STATUS_REMAIN (g : Nat) (i : Nat) : Fld := ⟨0x14a000cc + 0x400000 * (g / 16) + 0x1000 * (g % 16) + 0x10 * i, 0, 17, 0⟩

-- R174
abbrev MAL_CL_CFG_USED (n : Nat) : Fld := ⟨0x14800000 + 0x400000 * n, 0, 16, 0⟩
abbrev MAL_CL_DWIN_SEL_PAGE (n : Nat) : Fld := ⟨0x14800004 + 0x400000 * n, 16, 2, 0⟩
abbrev MAL_CL_DWIN_SEL_TARGET (n : Nat) : Fld := ⟨0x14800004 + 0x400000 * n, 0, 5, 0⟩
abbrev MAL_CL_MBOX_PEND_PEND (n : Nat) : Fld := ⟨0x1480000c + 0x400000 * n, 0, 16, 0⟩
abbrev MAL_CL_EXC_COUNT_COUNT (n : Nat) : Fld := ⟨0x14800010 + 0x400000 * n, 0, 32, 0⟩
abbrev MAL_CL_BUSERR_COUNT_COUNT (n : Nat) : Fld := ⟨0x14800014 + 0x400000 * n, 0, 32, 0⟩
abbrev MAL_CL_REFUSED_COUNT_COUNT (n : Nat) : Fld := ⟨0x14800018 + 0x400000 * n, 0, 32, 0⟩
abbrev MAL_CL_DMA_ERR_COUNT_COUNT (n : Nat) : Fld := ⟨0x1480001c + 0x400000 * n, 0, 32, 0⟩
abbrev MAL_CL_PARAM_DEFER_COUNT (n : Nat) : Fld := ⟨0x14800020 + 0x400000 * n, 0, 32, 0⟩
abbrev MAL_CL_INT_STATUS_PARAM_DEFER (n : Nat) : Fld := ⟨0x14800400 + 0x400000 * n, 5, 1, 0⟩
abbrev MAL_CL_INT_STATUS_DMA_ERR (n : Nat) : Fld := ⟨0x14800400 + 0x400000 * n, 4, 1, 0⟩
abbrev MAL_CL_INT_STATUS_MBOX (n : Nat) : Fld := ⟨0x14800400 + 0x400000 * n, 3, 1, 0⟩
abbrev MAL_CL_INT_STATUS_REFUSED (n : Nat) : Fld := ⟨0x14800400 + 0x400000 * n, 2, 1, 0⟩
abbrev MAL_CL_INT_STATUS_BUSERR (n : Nat) : Fld := ⟨0x14800400 + 0x400000 * n, 1, 1, 0⟩
abbrev MAL_CL_INT_STATUS_EXC (n : Nat) : Fld := ⟨0x14800400 + 0x400000 * n, 0, 1, 0⟩
abbrev MAL_CL_INT_ENABLE_ENABLE (n : Nat) : Fld := ⟨0x14800404 + 0x400000 * n, 0, 6, 0⟩

-- R214
abbrev DPL_CFG_LINES : Fld := ⟨0x14080000, 16, 12, 0⟩
abbrev DPL_CFG_PARTS : Fld := ⟨0x14080000, 12, 4, 0⟩
abbrev DPL_CFG_PRESENT : Fld := ⟨0x14080000, 0, 1, 0⟩
abbrev DPL_RT_BUDGET_LIMIT : Fld := ⟨0x14080004, 16, 16, 0⟩
abbrev DPL_RT_BUDGET_PLAN : Fld := ⟨0x14080004, 0, 16, 0⟩
abbrev DPL_RT_USE_PEAK : Fld := ⟨0x14080008, 16, 16, 0⟩
abbrev DPL_RT_USE_LAST : Fld := ⟨0x14080008, 0, 16, 0⟩
abbrev DPL_HASH_SEED_SEED : Fld := ⟨0x1408000c, 0, 32, 0⟩
abbrev DPL_LINE_SEL_LINE : Fld := ⟨0x14080010, 0, 11, 0⟩
abbrev DPL_DELAY_SET_XF : Fld := ⟨0x14080014, 29, 3, 0⟩
abbrev DPL_DELAY_SET_XF_LINE : Fld := ⟨0x14080014, 28, 1, 0⟩
abbrev DPL_DELAY_SET_DELAY : Fld := ⟨0x14080014, 0, 26, 0⟩
abbrev DPL_ECC_CE_COUNT : Fld := ⟨0x14080020, 0, 32, 0⟩
abbrev DPL_ECC_UE_COUNT : Fld := ⟨0x14080024, 0, 32, 0⟩
abbrev DPL_ECC_LAST_ADDR : Fld := ⟨0x14080028, 0, 28, 0⟩
abbrev DPL_ECC_LAST_LINE_VALID : Fld := ⟨0x1408002c, 11, 1, 0⟩
abbrev DPL_ECC_LAST_LINE_LINE : Fld := ⟨0x1408002c, 0, 11, 0⟩
abbrev DPL_CONFLICT_RATE_PEAK : Fld := ⟨0x14080030, 16, 16, 0⟩
abbrev DPL_CONFLICT_RATE_LAST : Fld := ⟨0x14080030, 0, 16, 0⟩
abbrev DPL_RT_EXCESS_COUNT : Fld := ⟨0x14080034, 0, 32, 0⟩
abbrev DPL_DELAY_DEFER_COUNT : Fld := ⟨0x14080038, 0, 32, 0⟩
abbrev DPL_CMD_REJECT_COUNT : Fld := ⟨0x1408003c, 0, 32, 0⟩
abbrev DPL_CMD_LATE_COUNT : Fld := ⟨0x14080040, 0, 32, 0⟩
abbrev DPL_SCRUB_CTRL_PERIOD : Fld := ⟨0x14080048, 0, 16, 0x3c⟩
abbrev DPL_INT_STATUS_CMD_LATE : Fld := ⟨0x14080100, 7, 1, 0⟩
abbrev DPL_INT_STATUS_ECC_UE : Fld := ⟨0x14080100, 6, 1, 0⟩
abbrev DPL_INT_STATUS_ECC_CE : Fld := ⟨0x14080100, 5, 1, 0⟩
abbrev DPL_INT_STATUS_LINE_WRITE : Fld := ⟨0x14080100, 4, 1, 0⟩
abbrev DPL_INT_STATUS_RT_EXCESS : Fld := ⟨0x14080100, 3, 1, 0⟩
abbrev DPL_INT_STATUS_CMD_REJECT : Fld := ⟨0x14080100, 2, 1, 0⟩
abbrev DPL_INT_STATUS_DELAY_DEFER : Fld := ⟨0x14080100, 1, 1, 0⟩
abbrev DPL_INT_STATUS_CLIP : Fld := ⟨0x14080100, 0, 1, 0⟩
abbrev DPL_INT_ENABLE_ENABLE : Fld := ⟨0x14080104, 0, 8, 0⟩
abbrev DPL_LINE0_PRESENT (n : Nat) : Fld := ⟨0x14088000 + 0x10 * n, 31, 1, 0⟩
abbrev DPL_LINE0_STATE (n : Nat) : Fld := ⟨0x14088000 + 0x10 * n, 29, 2, 0⟩
abbrev DPL_LINE0_PENDING (n : Nat) : Fld := ⟨0x14088000 + 0x10 * n, 28, 1, 0⟩
abbrev DPL_LINE0_CLIP (n : Nat) : Fld := ⟨0x14088000 + 0x10 * n, 27, 1, 0⟩
abbrev DPL_LINE0_XF (n : Nat) : Fld := ⟨0x14088000 + 0x10 * n, 24, 3, 0⟩
abbrev DPL_LINE0_UNITS (n : Nat) : Fld := ⟨0x14088000 + 0x10 * n, 0, 16, 0⟩
abbrev DPL_LINE1_DELAY (n : Nat) : Fld := ⟨0x14088004 + 0x10 * n, 0, 26, 0⟩
abbrev DPL_LINE2_PEND (n : Nat) : Fld := ⟨0x14088008 + 0x10 * n, 0, 26, 0⟩
abbrev DPL_LINE3_BASE (n : Nat) : Fld := ⟨0x1408800c + 0x10 * n, 0, 32, 0⟩

-- R244
abbrev HIF_LINK_UP : Fld := ⟨0x14010000, 8, 1, 0⟩
abbrev HIF_LINK_WIDTH : Fld := ⟨0x14010000, 4, 4, 0⟩
abbrev HIF_LINK_SPEED : Fld := ⟨0x14010000, 0, 4, 0⟩
abbrev HIF_CPL_TIMEOUT_MS : Fld := ⟨0x14010004, 0, 7, 0xa⟩
abbrev HIF_ERR_STATUS_ATOMIC_UR : Fld := ⟨0x14010010, 3, 1, 0⟩
abbrev HIF_ERR_STATUS_OB_TIMEOUT : Fld := ⟨0x14010010, 2, 1, 0⟩
abbrev HIF_ERR_STATUS_TARGET_ERR : Fld := ⟨0x14010010, 1, 1, 0⟩
abbrev HIF_ERR_STATUS_DECODE_ERR : Fld := ⟨0x14010010, 0, 1, 0⟩
abbrev HIF_ERR_ADDR_ADDR : Fld := ⟨0x14010014, 0, 32, 0⟩
abbrev HIF_ERR_COUNT_COUNT : Fld := ⟨0x14010018, 0, 32, 0⟩
abbrev HIF_INT_ENABLE_ENABLE : Fld := ⟨0x1401001c, 0, 4, 0⟩
abbrev HIF_OB_HOST_BASE (n : Nat) : Fld := ⟨0x14010100 + 0x4 * n, 4, 28, 0⟩
abbrev HIF_OB_ENABLE (n : Nat) : Fld := ⟨0x14010100 + 0x4 * n, 0, 1, 0⟩

-- R245
abbrev XB_CFG_PROFILE : Fld := ⟨0x14020000, 24, 1, 0⟩
abbrev XB_CFG_ENABLED : Fld := ⟨0x14020000, 0, 24, 0⟩
abbrev XB_QUARANTINE_MASTER : Fld := ⟨0x14020004, 0, 24, 0⟩
abbrev XB_WDOG_LAST_VALID : Fld := ⟨0x1402000c, 31, 1, 0⟩
abbrev XB_WDOG_LAST_MASTER : Fld := ⟨0x1402000c, 0, 5, 0⟩
abbrev XB_LOCK_BROKEN_VALID : Fld := ⟨0x14020010, 31, 1, 0⟩
abbrev XB_LOCK_BROKEN_CAUSE : Fld := ⟨0x14020010, 24, 2, 0⟩
abbrev XB_LOCK_BROKEN_TARGET : Fld := ⟨0x14020010, 16, 4, 0⟩
abbrev XB_LOCK_BROKEN_MASTER : Fld := ⟨0x14020010, 0, 5, 0⟩
abbrev XB_DECERR_ADDR_ADDR : Fld := ⟨0x14020014, 0, 32, 0⟩
abbrev XB_DECERR_COUNT_COUNT : Fld := ⟨0x14020018, 0, 32, 0⟩
abbrev XB_CONFLICT_PEAK : Fld := ⟨0x1402001c, 16, 16, 0⟩
abbrev XB_CONFLICT_LAST : Fld := ⟨0x1402001c, 0, 16, 0⟩
abbrev XB_WDOG_COUNT_COUNT : Fld := ⟨0x14020020, 0, 32, 0⟩
abbrev XB_LOCK_BROKEN_COUNT_COUNT : Fld := ⟨0x14020024, 0, 32, 0⟩
abbrev XB_OUTSTANDING_PEAK (n : Nat) : Fld := ⟨0x14020040 + 0x4 * n, 8, 6, 0⟩
abbrev XB_OUTSTANDING_NOW (n : Nat) : Fld := ⟨0x14020040 + 0x4 * n, 0, 6, 0⟩
abbrev XB_INT_STATUS_DECERR : Fld := ⟨0x14020100, 2, 1, 0⟩
abbrev XB_INT_STATUS_LOCK_BROKEN : Fld := ⟨0x14020100, 1, 1, 0⟩
abbrev XB_INT_STATUS_QUARANTINE : Fld := ⟨0x14020100, 0, 1, 0⟩
abbrev XB_INT_ENABLE_ENABLE : Fld := ⟨0x14020104, 0, 3, 0⟩

-- R246
abbrev RNG_CFG_BASE (n : Nat) : Fld := ⟨0x14030000 + 0x20 * n, 6, 26, 0⟩
abbrev RNG_CFG_LOG2 (n : Nat) : Fld := ⟨0x14030000 + 0x20 * n, 0, 4, 0x4⟩
abbrev RNG_CTRL_ENABLE (n : Nat) : Fld := ⟨0x14030004 + 0x20 * n, 31, 1, 0⟩
abbrev RNG_CTRL_MOD (n : Nat) : Fld := ⟨0x14030004 + 0x20 * n, 16, 8, 0⟩
abbrev RNG_CTRL_CPL_RING (n : Nat) : Fld := ⟨0x14030004 + 0x20 * n, 8, 6, 0⟩
abbrev RNG_CTRL_IRQ_EN (n : Nat) : Fld := ⟨0x14030004 + 0x20 * n, 0, 1, 0⟩
abbrev RNG_HEAD_INDEX (n : Nat) : Fld := ⟨0x14030008 + 0x20 * n, 0, 12, 0⟩
abbrev RNG_TAIL_INDEX (n : Nat) : Fld := ⟨0x1403000c + 0x20 * n, 0, 12, 0⟩
abbrev RNG_STATUS_STATE (n : Nat) : Fld := ⟨0x14030014 + 0x20 * n, 28, 4, 0⟩
abbrev RNG_STATUS_BAD_CFG (n : Nat) : Fld := ⟨0x14030014 + 0x20 * n, 5, 1, 0⟩
abbrev RNG_STATUS_BAD_INDEX (n : Nat) : Fld := ⟨0x14030014 + 0x20 * n, 4, 1, 0⟩
abbrev RNG_STATUS_FETCH_ERR (n : Nat) : Fld := ⟨0x14030014 + 0x20 * n, 3, 1, 0⟩
abbrev RNG_STATUS_RESIZE_DONE (n : Nat) : Fld := ⟨0x14030014 + 0x20 * n, 2, 1, 0⟩
abbrev RNG_STATUS_RESIZE_TIMEOUT (n : Nat) : Fld := ⟨0x14030014 + 0x20 * n, 1, 1, 0⟩
abbrev RNG_STATUS_SIZE_IGNORED (n : Nat) : Fld := ⟨0x14030014 + 0x20 * n, 0, 1, 0⟩
abbrev RNG_DONE_COUNT (n : Nat) : Fld := ⟨0x14030018 + 0x20 * n, 0, 32, 0⟩
abbrev RNG_IN_FLIGHT_COUNT (n : Nat) : Fld := ⟨0x1403001c + 0x20 * n, 0, 13, 0⟩
abbrev RNG_LATE_COUNT_COUNT : Fld := ⟨0x14031000, 0, 32, 0⟩
abbrev RNG_DISCARD_COUNT_COUNT : Fld := ⟨0x14031004, 0, 32, 0⟩
abbrev RNG_HOLD_WAIT_COUNT : Fld := ⟨0x14031008, 0, 32, 0⟩
abbrev RNG_INT_STATUS_HOLD_WAIT : Fld := ⟨0x14031010, 2, 1, 0⟩
abbrev RNG_INT_STATUS_DISCARD : Fld := ⟨0x14031010, 1, 1, 0⟩
abbrev RNG_INT_STATUS_LATE : Fld := ⟨0x14031010, 0, 1, 0⟩
abbrev RNG_INT_ENABLE_ENABLE : Fld := ⟨0x14031014, 0, 3, 0⟩

-- R247
abbrev SYS_BARRIER_INT_STATUS_DONE : Fld := ⟨0x14000044, 0, 24, 0⟩
abbrev SYS_BARRIER_INT_ENABLE_ENABLE : Fld := ⟨0x14000048, 0, 24, 0⟩
abbrev SYS_BARRIER_DONE_PENDING (n : Nat) : Fld := ⟨0x14000080 + 0x4 * n, 16, 3, 0⟩
abbrev SYS_BARRIER_DONE_TOKEN (n : Nat) : Fld := ⟨0x14000080 + 0x4 * n, 0, 16, 0⟩

-- R269
abbrev PRT_CFG_PRESENT (n : Nat) : Fld := ⟨0x14090000 + 0x100 * n, 31, 1, 0⟩
abbrev PRT_CFG_DIR (n : Nat) : Fld := ⟨0x14090000 + 0x100 * n, 30, 1, 0⟩
abbrev PRT_CFG_MODE (n : Nat) : Fld := ⟨0x14090000 + 0x100 * n, 28, 2, 0⟩
abbrev PRT_CFG_CLOCKING (n : Nat) : Fld := ⟨0x14090000 + 0x100 * n, 26, 2, 0⟩
abbrev PRT_CFG_DOMAIN (n : Nat) : Fld := ⟨0x14090000 + 0x100 * n, 24, 2, 0⟩
abbrev PRT_CFG_SLOTS (n : Nat) : Fld := ⟨0x14090000 + 0x100 * n, 16, 6, 0⟩
abbrev PRT_CFG_SLOT_BITS (n : Nat) : Fld := ⟨0x14090000 + 0x100 * n, 8, 8, 0⟩
abbrev PRT_CFG_WORD_BITS (n : Nat) : Fld := ⟨0x14090000 + 0x100 * n, 0, 8, 0⟩
abbrev PRT_BUS_FIRST_BUS (n : Nat) : Fld := ⟨0x14090004 + 0x100 * n, 0, 13, 0⟩
abbrev PRT_CTRL_ENABLE (n : Nat) : Fld := ⟨0x14090008 + 0x100 * n, 31, 1, 0⟩
abbrev PRT_CTRL_MUTE (n : Nat) : Fld := ⟨0x14090008 + 0x100 * n, 30, 1, 0⟩
abbrev PRT_CTRL_RAMP (n : Nat) : Fld := ⟨0x14090008 + 0x100 * n, 16, 7, 0x4⟩
abbrev PRT_ROLL_POSTROLL (n : Nat) : Fld := ⟨0x1409000c + 0x100 * n, 16, 16, 0⟩
abbrev PRT_ROLL_PREROLL (n : Nat) : Fld := ⟨0x1409000c + 0x100 * n, 0, 16, 0⟩
abbrev PRT_MASK_MASK (n : Nat) : Fld := ⟨0x14090010 + 0x100 * n, 0, 32, 0⟩
abbrev PRT_MASK_ACTIVE_MASK (n : Nat) : Fld := ⟨0x14090014 + 0x100 * n, 0, 32, 0⟩
abbrev PRT_MASK_APPLIED_FRAME (n : Nat) : Fld := ⟨0x14090018 + 0x100 * n, 0, 32, 0⟩
abbrev PRT_FRAME_FRAME (n : Nat) : Fld := ⟨0x1409001c + 0x100 * n, 0, 32, 0⟩
abbrev PRT_STATE_FILL (n : Nat) : Fld := ⟨0x14090020 + 0x100 * n, 8, 5, 0⟩
abbrev PRT_STATE_LOST_CAUSE (n : Nat) : Fld := ⟨0x14090020 + 0x100 * n, 6, 2, 0⟩
abbrev PRT_STATE_STATE (n : Nat) : Fld := ⟨0x14090020 + 0x100 * n, 0, 4, 0⟩
abbrev PRT_XRUN_COUNT (n : Nat) : Fld := ⟨0x14090024 + 0x100 * n, 0, 32, 0⟩
abbrev PRT_SLIP_COUNT_REPEAT (n : Nat) : Fld := ⟨0x14090028 + 0x100 * n, 16, 16, 0⟩
abbrev PRT_SLIP_COUNT_DROP (n : Nat) : Fld := ⟨0x14090028 + 0x100 * n, 0, 16, 0⟩
abbrev PRT_FRAME_ERR_COUNT (n : Nat) : Fld := ⟨0x1409002c + 0x100 * n, 0, 32, 0⟩
abbrev PRT_RATE_MHZ (n : Nat) : Fld := ⟨0x14090030 + 0x100 * n, 0, 32, 0⟩
abbrev PRT_INT_STATUS_MASK_APPLIED (n : Nat) : Fld := ⟨0x14090040 + 0x100 * n, 6, 1, 0⟩
abbrev PRT_INT_STATUS_FRAME_ERR (n : Nat) : Fld := ⟨0x14090040 + 0x100 * n, 5, 1, 0⟩
abbrev PRT_INT_STATUS_SLIP (n : Nat) : Fld := ⟨0x14090040 + 0x100 * n, 4, 1, 0⟩
abbrev PRT_INT_STATUS_XRUN (n : Nat) : Fld := ⟨0x14090040 + 0x100 * n, 3, 1, 0⟩
abbrev PRT_INT_STATUS_LOST (n : Nat) : Fld := ⟨0x14090040 + 0x100 * n, 2, 1, 0⟩
abbrev PRT_INT_STATUS_STOPPED (n : Nat) : Fld := ⟨0x14090040 + 0x100 * n, 1, 1, 0⟩
abbrev PRT_INT_STATUS_RUNNING (n : Nat) : Fld := ⟨0x14090040 + 0x100 * n, 0, 1, 0⟩
abbrev PRT_INT_ENABLE_ENABLE (n : Nat) : Fld := ⟨0x14090044 + 0x100 * n, 0, 7, 0⟩
abbrev PRT_INT_SUMMARY_PORT : Fld := ⟨0x14091000, 0, 16, 0⟩
abbrev PRT_CMD_REJECT_COUNT : Fld := ⟨0x14091008, 0, 32, 0⟩

-- R270
abbrev AES_CFG_RX_PRESENT (n : Nat) : Fld := ⟨0x140a0000 + 0x200 * n, 31, 1, 0⟩
abbrev AES_CFG_RX_CLOCKING (n : Nat) : Fld := ⟨0x140a0000 + 0x200 * n, 29, 2, 0⟩
abbrev AES_CFG_RX_DOMAIN (n : Nat) : Fld := ⟨0x140a0000 + 0x200 * n, 27, 2, 0⟩
abbrev AES_CFG_V_POLICY (n : Nat) : Fld := ⟨0x140a0000 + 0x200 * n, 26, 1, 0⟩
abbrev AES_CFG_TX_PRESENT (n : Nat) : Fld := ⟨0x140a0000 + 0x200 * n, 23, 1, 0⟩
abbrev AES_CFG_TX_CLOCKING (n : Nat) : Fld := ⟨0x140a0000 + 0x200 * n, 21, 2, 0⟩
abbrev AES_CFG_TX_DOMAIN (n : Nat) : Fld := ⟨0x140a0000 + 0x200 * n, 19, 2, 0⟩
abbrev AES_CFG_TX_CLK_RX (n : Nat) : Fld := ⟨0x140a0000 + 0x200 * n, 16, 3, 0⟩
abbrev AES_BUS_TX_BUS (n : Nat) : Fld := ⟨0x140a0004 + 0x200 * n, 16, 13, 0⟩
abbrev AES_BUS_RX_BUS (n : Nat) : Fld := ⟨0x140a0004 + 0x200 * n, 0, 13, 0⟩
abbrev AES_CTRL_TX_ENABLE (n : Nat) : Fld := ⟨0x140a0008 + 0x200 * n, 31, 1, 0x1⟩
abbrev AES_CTRL_TX_MUTE (n : Nat) : Fld := ⟨0x140a0008 + 0x200 * n, 30, 1, 0⟩
abbrev AES_CTRL_RAMP (n : Nat) : Fld := ⟨0x140a0008 + 0x200 * n, 16, 7, 0x4⟩
abbrev AES_CTRL_RX_ENABLE (n : Nat) : Fld := ⟨0x140a0008 + 0x200 * n, 15, 1, 0x1⟩
abbrev AES_CTRL_RX_MUTE (n : Nat) : Fld := ⟨0x140a0008 + 0x200 * n, 14, 1, 0⟩
abbrev AES_ROLL_POSTROLL (n : Nat) : Fld := ⟨0x140a000c + 0x200 * n, 16, 16, 0⟩
abbrev AES_ROLL_PREROLL (n : Nat) : Fld := ⟨0x140a000c + 0x200 * n, 0, 16, 0⟩
abbrev AES_RX_STATE_PRO (n : Nat) : Fld := ⟨0x140a0010 + 0x200 * n, 8, 1, 0⟩
abbrev AES_RX_STATE_LOST_CAUSE (n : Nat) : Fld := ⟨0x140a0010 + 0x200 * n, 6, 2, 0⟩
abbrev AES_RX_STATE_STATE (n : Nat) : Fld := ⟨0x140a0010 + 0x200 * n, 0, 4, 0⟩
abbrev AES_RX_RATE_MHZ (n : Nat) : Fld := ⟨0x140a0014 + 0x200 * n, 0, 32, 0⟩
abbrev AES_SLIP_COUNT_REPEAT (n : Nat) : Fld := ⟨0x140a0018 + 0x200 * n, 16, 16, 0⟩
abbrev AES_SLIP_COUNT_DROP (n : Nat) : Fld := ⟨0x140a0018 + 0x200 * n, 0, 16, 0⟩
abbrev AES_PARITY_ERR_COUNT (n : Nat) : Fld := ⟨0x140a001c + 0x200 * n, 0, 32, 0⟩
abbrev AES_CODE_ERR_COUNT (n : Nat) : Fld := ⟨0x140a0020 + 0x200 * n, 0, 32, 0⟩
abbrev AES_CS_CRC_ERR_COUNT (n : Nat) : Fld := ⟨0x140a0024 + 0x200 * n, 0, 32, 0⟩
abbrev AES_V_COUNT_COUNT (n : Nat) : Fld := ⟨0x140a0028 + 0x200 * n, 0, 32, 0⟩
abbrev AES_XRUN_COUNT (n : Nat) : Fld := ⟨0x140a002c + 0x200 * n, 0, 32, 0⟩
abbrev AES_TX_STATE_STATE (n : Nat) : Fld := ⟨0x140a0030 + 0x200 * n, 0, 4, 0⟩
abbrev AES_TX_CTRL_V_SRC (n : Nat) : Fld := ⟨0x140a0040 + 0x200 * n, 8, 2, 0⟩
abbrev AES_TX_CTRL_U_SRC (n : Nat) : Fld := ⟨0x140a0040 + 0x200 * n, 6, 2, 0⟩
abbrev AES_TX_CTRL_CS_SRC (n : Nat) : Fld := ⟨0x140a0040 + 0x200 * n, 4, 2, 0⟩
abbrev AES_TX_CTRL_CRCC_GEN (n : Nat) : Fld := ⟨0x140a0040 + 0x200 * n, 3, 1, 0x1⟩
abbrev AES_TX_CTRL_SRC_RX (n : Nat) : Fld := ⟨0x140a0040 + 0x200 * n, 0, 3, 0⟩
abbrev AES_COMMIT_STATUS_TAG (n : Nat) : Fld := ⟨0x140a0048 + 0x200 * n, 16, 8, 0⟩
abbrev AES_COMMIT_STATUS_ERR_CODE (n : Nat) : Fld := ⟨0x140a0048 + 0x200 * n, 8, 4, 0⟩
abbrev AES_COMMIT_STATUS_PENDING (n : Nat) : Fld := ⟨0x140a0048 + 0x200 * n, 2, 1, 0⟩
abbrev AES_COMMIT_STATUS_COMMIT_ERR (n : Nat) : Fld := ⟨0x140a0048 + 0x200 * n, 1, 1, 0⟩
abbrev AES_COMMIT_STATUS_APPLIED (n : Nat) : Fld := ⟨0x140a0048 + 0x200 * n, 0, 1, 0⟩
abbrev AES_COMMIT_ERR_CODE (n : Nat) : Fld := ⟨0x140a004c + 0x200 * n, 0, 4, 0⟩
abbrev AES_TX_CS_BYTES (n : Nat) (i : Nat) : Fld := ⟨0x140a0080 + 0x200 * n + 0x4 * i, 0, 32, 0⟩
abbrev AES_TX_U_BYTES (n : Nat) (i : Nat) : Fld := ⟨0x140a00c0 + 0x200 * n + 0x4 * i, 0, 32, 0⟩
abbrev AES_RX_CS_BYTES (n : Nat) (i : Nat) : Fld := ⟨0x140a0100 + 0x200 * n + 0x4 * i, 0, 32, 0⟩
abbrev AES_RX_U_BYTES (n : Nat) (i : Nat) : Fld := ⟨0x140a0140 + 0x200 * n + 0x4 * i, 0, 32, 0⟩
abbrev AES_INT_STATUS_CS_CHANGE (n : Nat) : Fld := ⟨0x140a0180 + 0x200 * n, 7, 1, 0⟩
abbrev AES_INT_STATUS_CS_CRC (n : Nat) : Fld := ⟨0x140a0180 + 0x200 * n, 6, 1, 0⟩
abbrev AES_INT_STATUS_PARITY (n : Nat) : Fld := ⟨0x140a0180 + 0x200 * n, 5, 1, 0⟩
abbrev AES_INT_STATUS_CODE_ERR (n : Nat) : Fld := ⟨0x140a0180 + 0x200 * n, 4, 1, 0⟩
abbrev AES_INT_STATUS_SLIP (n : Nat) : Fld := ⟨0x140a0180 + 0x200 * n, 3, 1, 0⟩
abbrev AES_INT_STATUS_XRUN (n : Nat) : Fld := ⟨0x140a0180 + 0x200 * n, 2, 1, 0⟩
abbrev AES_INT_STATUS_RX_LOST (n : Nat) : Fld := ⟨0x140a0180 + 0x200 * n, 1, 1, 0⟩
abbrev AES_INT_STATUS_RX_LOCK (n : Nat) : Fld := ⟨0x140a0180 + 0x200 * n, 0, 1, 0⟩
abbrev AES_INT_ENABLE_ENABLE (n : Nat) : Fld := ⟨0x140a0184 + 0x200 * n, 0, 8, 0⟩
abbrev AES_INT_SUMMARY_XCVR : Fld := ⟨0x140a1000, 0, 8, 0⟩

-- R295
abbrev NET_PORT_CFG_ENABLE (n : Nat) : Fld := ⟨0x140b0000 + 0x400 * n, 31, 1, 0⟩
abbrev NET_PORT_CFG_SPEED (n : Nat) : Fld := ⟨0x140b0000 + 0x400 * n, 24, 2, 0x1⟩
abbrev NET_PORT_CFG_FEC (n : Nat) : Fld := ⟨0x140b0000 + 0x400 * n, 20, 2, 0x2⟩
abbrev NET_PORT_CFG_CTL_MCAST (n : Nat) : Fld := ⟨0x140b0000 + 0x400 * n, 9, 1, 0⟩
abbrev NET_PORT_CFG_PTP_MODE (n : Nat) : Fld := ⟨0x140b0000 + 0x400 * n, 8, 1, 0x1⟩
abbrev NET_PORT_CFG_BRIDGE (n : Nat) : Fld := ⟨0x140b0000 + 0x400 * n, 0, 1, 0⟩
abbrev NET_MAC_LO_MAC (n : Nat) : Fld := ⟨0x140b0004 + 0x400 * n, 0, 32, 0⟩
abbrev NET_MAC_HI_MAC (n : Nat) : Fld := ⟨0x140b0008 + 0x400 * n, 0, 16, 0⟩
abbrev NET_IP_IP (n : Nat) : Fld := ⟨0x140b000c + 0x400 * n, 0, 32, 0⟩
abbrev NET_COMMIT_STATUS_TAG (n : Nat) : Fld := ⟨0x140b0014 + 0x400 * n, 16, 8, 0⟩
abbrev NET_COMMIT_STATUS_ERR_CODE (n : Nat) : Fld := ⟨0x140b0014 + 0x400 * n, 8, 4, 0⟩
abbrev NET_COMMIT_STATUS_PENDING (n : Nat) : Fld := ⟨0x140b0014 + 0x400 * n, 2, 1, 0⟩
abbrev NET_COMMIT_STATUS_COMMIT_ERR (n : Nat) : Fld := ⟨0x140b0014 + 0x400 * n, 1, 1, 0⟩
abbrev NET_COMMIT_STATUS_APPLIED (n : Nat) : Fld := ⟨0x140b0014 + 0x400 * n, 0, 1, 0⟩
abbrev NET_COMMIT_ERR_CODE (n : Nat) : Fld := ⟨0x140b0018 + 0x400 * n, 0, 4, 0⟩
abbrev NET_LINK_UP (n : Nat) : Fld := ⟨0x140b0020 + 0x400 * n, 8, 1, 0⟩
abbrev NET_LINK_SPEED (n : Nat) : Fld := ⟨0x140b0020 + 0x400 * n, 4, 2, 0⟩
abbrev NET_LINK_FEC_LOCK (n : Nat) : Fld := ⟨0x140b0020 + 0x400 * n, 1, 1, 0⟩
abbrev NET_LINK_BLOCK_LOCK (n : Nat) : Fld := ⟨0x140b0020 + 0x400 * n, 0, 1, 0⟩
abbrev NET_TS_LAT_TX_NS (n : Nat) : Fld := ⟨0x140b0024 + 0x400 * n, 16, 16, 0⟩
abbrev NET_TS_LAT_RX_NS (n : Nat) : Fld := ⟨0x140b0024 + 0x400 * n, 0, 16, 0⟩
abbrev NET_CTL_RX_BASE_BASE (n : Nat) : Fld := ⟨0x140b0028 + 0x400 * n, 17, 15, 0⟩
abbrev NET_CTL_RX_BASE_ENABLE (n : Nat) : Fld := ⟨0x140b0028 + 0x400 * n, 0, 1, 0⟩
abbrev NET_CTL_RX_FREE_COUNT (n : Nat) : Fld := ⟨0x140b0030 + 0x400 * n, 0, 7, 0x40⟩
abbrev NET_RX_FRAMES_COUNT (n : Nat) : Fld := ⟨0x140b0040 + 0x400 * n, 0, 32, 0⟩
abbrev NET_TX_FRAMES_COUNT (n : Nat) : Fld := ⟨0x140b0044 + 0x400 * n, 0, 32, 0⟩
abbrev NET_RX_ERR_COUNT (n : Nat) : Fld := ⟨0x140b0048 + 0x400 * n, 0, 32, 0⟩
abbrev NET_BRIDGE_FWD_COUNT (n : Nat) : Fld := ⟨0x140b004c + 0x400 * n, 0, 32, 0⟩
abbrev NET_BRIDGE_DROP_COUNT (n : Nat) : Fld := ⟨0x140b0050 + 0x400 * n, 0, 32, 0⟩
abbrev NET_CTL_DROP_COUNT (n : Nat) : Fld := ⟨0x140b0054 + 0x400 * n, 0, 32, 0⟩
abbrev NET_INT_STATUS_STREAM_LATE (n : Nat) : Fld := ⟨0x140b0080 + 0x400 * n, 4, 1, 0⟩
abbrev NET_INT_STATUS_CTL_DROP (n : Nat) : Fld := ⟨0x140b0080 + 0x400 * n, 3, 1, 0⟩
abbrev NET_INT_STATUS_BRIDGE_DROP (n : Nat) : Fld := ⟨0x140b0080 + 0x400 * n, 2, 1, 0⟩
abbrev NET_INT_STATUS_LINK_DOWN (n : Nat) : Fld := ⟨0x140b0080 + 0x400 * n, 1, 1, 0⟩
abbrev NET_INT_STATUS_LINK_UP (n : Nat) : Fld := ⟨0x140b0080 + 0x400 * n, 0, 1, 0⟩
abbrev NET_INT_ENABLE_ENABLE (n : Nat) : Fld := ⟨0x140b0084 + 0x400 * n, 0, 5, 0⟩
abbrev NET_CTL_RING_RING : Fld := ⟨0x140b1000, 0, 6, 0⟩
abbrev NET_CMD_REJECT_COUNT : Fld := ⟨0x140b1004, 0, 32, 0⟩
abbrev NET_IN0_PRESENT (n : Nat) : Fld := ⟨0x140b8000 + 0x20 * n, 31, 1, 0⟩
abbrev NET_IN0_STATE (n : Nat) : Fld := ⟨0x140b8000 + 0x20 * n, 29, 2, 0⟩
abbrev NET_IN0_LEG0_ACTIVE (n : Nat) : Fld := ⟨0x140b8000 + 0x20 * n, 28, 1, 0⟩
abbrev NET_IN0_LEG1_ACTIVE (n : Nat) : Fld := ⟨0x140b8000 + 0x20 * n, 27, 1, 0⟩
abbrev NET_IN0_CHANNELS (n : Nat) : Fld := ⟨0x140b8000 + 0x20 * n, 0, 7, 0⟩
abbrev NET_IN1_PACKETS (n : Nat) : Fld := ⟨0x140b8004 + 0x20 * n, 0, 32, 0⟩
abbrev NET_IN2_LATE_BLOCKS (n : Nat) : Fld := ⟨0x140b8008 + 0x20 * n, 0, 32, 0⟩
abbrev NET_IN3_LOST_0 (n : Nat) : Fld := ⟨0x140b800c + 0x20 * n, 0, 32, 0⟩
abbrev NET_IN4_LOST_1 (n : Nat) : Fld := ⟨0x140b8010 + 0x20 * n, 0, 32, 0⟩
abbrev NET_IN5_DUP (n : Nat) : Fld := ⟨0x140b8014 + 0x20 * n, 0, 32, 0⟩
abbrev NET_IN6_LATE_PKTS (n : Nat) : Fld := ⟨0x140b8018 + 0x20 * n, 16, 16, 0⟩
abbrev NET_IN6_BAD (n : Nat) : Fld := ⟨0x140b8018 + 0x20 * n, 0, 16, 0⟩
abbrev NET_IN7_MARGIN (n : Nat) : Fld := ⟨0x140b801c + 0x20 * n, 0, 32, 0x7fffffff⟩
abbrev NET_OUT0_PRESENT (n : Nat) : Fld := ⟨0x140ba000 + 0x10 * n, 31, 1, 0⟩
abbrev NET_OUT0_STATE (n : Nat) : Fld := ⟨0x140ba000 + 0x10 * n, 29, 2, 0⟩
abbrev NET_OUT0_MUTED (n : Nat) : Fld := ⟨0x140ba000 + 0x10 * n, 28, 1, 0⟩
abbrev NET_OUT0_RAMPING (n : Nat) : Fld := ⟨0x140ba000 + 0x10 * n, 27, 1, 0⟩
abbrev NET_OUT0_CHANNELS (n : Nat) : Fld := ⟨0x140ba000 + 0x10 * n, 0, 7, 0⟩
abbrev NET_OUT1_PACKETS (n : Nat) : Fld := ⟨0x140ba004 + 0x10 * n, 0, 32, 0⟩
abbrev NET_OUT2_LATE (n : Nat) : Fld := ⟨0x140ba008 + 0x10 * n, 0, 32, 0⟩
abbrev NET_OUT3_SEQ (n : Nat) : Fld := ⟨0x140ba00c + 0x10 * n, 0, 16, 0⟩

-- R296
abbrev TU_CTRL_SYS_INST : Fld := ⟨0x140c0000, 0, 1, 0⟩
abbrev TU_PTP_CFG_ENABLE (n : Nat) : Fld := ⟨0x140c0100 + 0x100 * n, 31, 1, 0⟩
abbrev TU_PTP_CFG_MEASURE_EN (n : Nat) : Fld := ⟨0x140c0100 + 0x100 * n, 30, 1, 0⟩
abbrev TU_PTP_CFG_STEP_EN (n : Nat) : Fld := ⟨0x140c0100 + 0x100 * n, 29, 1, 0x1⟩
abbrev TU_PTP_CFG_PORT (n : Nat) : Fld := ⟨0x140c0100 + 0x100 * n, 24, 2, 0⟩
abbrev TU_PTP_CFG_DOMAIN (n : Nat) : Fld := ⟨0x140c0100 + 0x100 * n, 16, 8, 0⟩
abbrev TU_PTP_CFG_LOG_DR (n : Nat) : Fld := ⟨0x140c0100 + 0x100 * n, 8, 4, 0⟩
abbrev TU_PTP_PARENT_ID (n : Nat) (i : Nat) : Fld := ⟨0x140c0104 + 0x100 * n + 0x4 * i, 0, 32, 0⟩
abbrev TU_PTP_SELF_ID (n : Nat) (i : Nat) : Fld := ⟨0x140c0110 + 0x100 * n + 0x4 * i, 0, 32, 0⟩
abbrev TU_SERVO_GAIN_KP (n : Nat) : Fld := ⟨0x140c0120 + 0x100 * n, 16, 16, 0xb333⟩
abbrev TU_SERVO_GAIN_KI (n : Nat) : Fld := ⟨0x140c0120 + 0x100 * n, 0, 16, 0x4ccd⟩
abbrev TU_SERVO_LIMIT_LOCK_NS (n : Nat) : Fld := ⟨0x140c0124 + 0x100 * n, 16, 16, 0x64⟩
abbrev TU_SERVO_LIMIT_STEP_US (n : Nat) : Fld := ⟨0x140c0124 + 0x100 * n, 0, 16, 0x64⟩
abbrev TU_SERVO_STATE_STATE (n : Nat) : Fld := ⟨0x140c0128 + 0x100 * n, 0, 3, 0⟩
abbrev TU_OFFSET_NS (n : Nat) : Fld := ⟨0x140c012c + 0x100 * n, 0, 32, 0⟩
abbrev TU_PATH_DELAY_NS (n : Nat) : Fld := ⟨0x140c0130 + 0x100 * n, 0, 32, 0⟩
abbrev TU_FREQ_ADJ_PPB (n : Nat) : Fld := ⟨0x140c0134 + 0x100 * n, 0, 32, 0⟩
abbrev TU_STEP_COUNT_COUNT (n : Nat) : Fld := ⟨0x140c0138 + 0x100 * n, 0, 32, 0⟩
abbrev TU_TIME_SEC_HI_SEC (n : Nat) : Fld := ⟨0x140c0144 + 0x100 * n, 0, 16, 0⟩
abbrev TU_TIME_SEC_LO_SEC (n : Nat) : Fld := ⟨0x140c0148 + 0x100 * n, 0, 32, 0⟩
abbrev TU_TIME_NS_NS (n : Nat) : Fld := ⟨0x140c014c + 0x100 * n, 0, 32, 0⟩
abbrev TU_OUT_CTRL_ENABLE (n : Nat) : Fld := ⟨0x140c0400 + 0x20 * n, 31, 1, 0⟩
abbrev TU_OUT_CTRL_POL (n : Nat) : Fld := ⟨0x140c0400 + 0x20 * n, 30, 1, 0⟩
abbrev TU_OUT_CTRL_INST (n : Nat) : Fld := ⟨0x140c0400 + 0x20 * n, 29, 1, 0⟩
abbrev TU_OUT_START_SEC_LO_SEC (n : Nat) : Fld := ⟨0x140c0404 + 0x20 * n, 0, 32, 0⟩
abbrev TU_OUT_START_SEC_HI_SEC (n : Nat) : Fld := ⟨0x140c0408 + 0x20 * n, 0, 16, 0⟩
abbrev TU_OUT_START_NS_NS (n : Nat) : Fld := ⟨0x140c040c + 0x20 * n, 0, 30, 0⟩
abbrev TU_OUT_PERIOD_NS (n : Nat) : Fld := ⟨0x140c0410 + 0x20 * n, 0, 32, 0⟩
abbrev TU_OUT_WIDTH_NS (n : Nat) : Fld := ⟨0x140c0414 + 0x20 * n, 0, 32, 0⟩
abbrev TU_OUT_COMMIT_STATUS_TAG (n : Nat) : Fld := ⟨0x140c041c + 0x20 * n, 16, 8, 0⟩
abbrev TU_OUT_COMMIT_STATUS_ERR_CODE (n : Nat) : Fld := ⟨0x140c041c + 0x20 * n, 8, 4, 0⟩
abbrev TU_OUT_COMMIT_STATUS_PENDING (n : Nat) : Fld := ⟨0x140c041c + 0x20 * n, 2, 1, 0⟩
abbrev TU_OUT_COMMIT_STATUS_COMMIT_ERR (n : Nat) : Fld := ⟨0x140c041c + 0x20 * n, 1, 1, 0⟩
abbrev TU_OUT_COMMIT_STATUS_APPLIED (n : Nat) : Fld := ⟨0x140c041c + 0x20 * n, 0, 1, 0⟩
abbrev TU_OUT_ERR_CODE : Fld := ⟨0x140c0500, 0, 32, 0⟩
abbrev TU_CAP_CFG_ENABLE (n : Nat) : Fld := ⟨0x140c0600 + 0x20 * n, 31, 1, 0⟩
abbrev TU_CAP_CFG_INST (n : Nat) : Fld := ⟨0x140c0600 + 0x20 * n, 29, 1, 0⟩
abbrev TU_CAP_CFG_EDGE (n : Nat) : Fld := ⟨0x140c0600 + 0x20 * n, 0, 2, 0x1⟩
abbrev TU_CAP_SEC_HI_FALL (n : Nat) : Fld := ⟨0x140c0604 + 0x20 * n, 31, 1, 0⟩
abbrev TU_CAP_SEC_HI_LEVEL (n : Nat) : Fld := ⟨0x140c0604 + 0x20 * n, 16, 5, 0⟩
abbrev TU_CAP_SEC_HI_SEC (n : Nat) : Fld := ⟨0x140c0604 + 0x20 * n, 0, 16, 0⟩
abbrev TU_CAP_SEC_LO_SEC (n : Nat) : Fld := ⟨0x140c0608 + 0x20 * n, 0, 32, 0⟩
abbrev TU_CAP_NS_NS (n : Nat) : Fld := ⟨0x140c060c + 0x20 * n, 0, 32, 0⟩
abbrev TU_CAP_OVF_COUNT (n : Nat) : Fld := ⟨0x140c0610 + 0x20 * n, 0, 32, 0⟩
abbrev TU_INT_STATUS_CAP_OVF : Fld := ⟨0x140c0800, 12, 4, 0⟩
abbrev TU_INT_STATUS_CAP : Fld := ⟨0x140c0800, 8, 4, 0⟩
abbrev TU_INT_STATUS_OUT_SKIPPED : Fld := ⟨0x140c0800, 6, 1, 0⟩
abbrev TU_INT_STATUS_B_STEPPED : Fld := ⟨0x140c0800, 5, 1, 0⟩
abbrev TU_INT_STATUS_B_NO_PARENT : Fld := ⟨0x140c0800, 4, 1, 0⟩
abbrev TU_INT_STATUS_B_LOCKED : Fld := ⟨0x140c0800, 3, 1, 0⟩
abbrev TU_INT_STATUS_A_STEPPED : Fld := ⟨0x140c0800, 2, 1, 0⟩
abbrev TU_INT_STATUS_A_NO_PARENT : Fld := ⟨0x140c0800, 1, 1, 0⟩
abbrev TU_INT_STATUS_A_LOCKED : Fld := ⟨0x140c0800, 0, 1, 0⟩
abbrev TU_INT_ENABLE_ENABLE : Fld := ⟨0x140c0804, 0, 16, 0⟩

-- R319
abbrev CLV_STATE_STATE : Fld := ⟨0x140d0000, 29, 3, 0⟩
abbrev CLV_STATE_SELECTED : Fld := ⟨0x140d0000, 24, 5, 0x1f⟩
abbrev CLV_STATE_BASE_XO : Fld := ⟨0x140d0000, 9, 1, 0⟩
abbrev CLV_STATE_SLEWING : Fld := ⟨0x140d0000, 8, 1, 0⟩
abbrev CLV_STATE_HIST_VALID : Fld := ⟨0x140d0000, 5, 1, 0⟩
abbrev CLV_STATE_HIST_FROZEN : Fld := ⟨0x140d0000, 4, 1, 0⟩
abbrev CLV_STATE_MODE : Fld := ⟨0x140d0000, 0, 2, 0⟩
abbrev CLV_CTRL_MODE : Fld := ⟨0x140d0004, 6, 2, 0⟩
abbrev CLV_CTRL_NONREVERT : Fld := ⟨0x140d0004, 5, 1, 0⟩
abbrev CLV_CTRL_PHASE_HOLD : Fld := ⟨0x140d0004, 4, 1, 0⟩
abbrev CLV_CTRL_FORCE_SLOT : Fld := ⟨0x140d0004, 0, 4, 0⟩
abbrev CLV_SLEW_PPB : Fld := ⟨0x140d0008, 0, 14, 0⟩
abbrev CLV_ABSORB_NS_NS : Fld := ⟨0x140d000c, 0, 32, 0⟩
abbrev CLV_OUT_FREQ_FREQ : Fld := ⟨0x140d0010, 0, 32, 0⟩
abbrev CLV_HOLD_FREQ_FREQ : Fld := ⟨0x140d0014, 0, 32, 0⟩
abbrev CLV_HOLD_SECONDS_S : Fld := ⟨0x140d0018, 0, 32, 0⟩
abbrev CLV_TEMP_T_H : Fld := ⟨0x140d001c, 16, 16, 0⟩
abbrev CLV_TEMP_T : Fld := ⟨0x140d001c, 0, 16, 0⟩
abbrev CLV_XO_FREQ_FREQ : Fld := ⟨0x140d0020, 0, 32, 0⟩
abbrev CLV_TC1_TC1 : Fld := ⟨0x140d0024, 0, 32, 0⟩
abbrev CLV_TC2_TC2 : Fld := ⟨0x140d0028, 0, 32, 0⟩
abbrev CLV_AGEING_AGEING : Fld := ⟨0x140d002c, 0, 32, 0⟩
abbrev CLV_CMD_REJECT_COUNT : Fld := ⟨0x140d0030, 0, 32, 0⟩
abbrev CLV_INT_STATUS_SLEW_DONE : Fld := ⟨0x140d0040, 7, 1, 0⟩
abbrev CLV_INT_STATUS_LO_LOST : Fld := ⟨0x140d0040, 6, 1, 0⟩
abbrev CLV_INT_STATUS_PHASE_JUMP : Fld := ⟨0x140d0040, 5, 1, 0⟩
abbrev CLV_INT_STATUS_RANK_CONFLICT : Fld := ⟨0x140d0040, 4, 1, 0⟩
abbrev CLV_INT_STATUS_REF_EVENT : Fld := ⟨0x140d0040, 3, 1, 0⟩
abbrev CLV_INT_STATUS_HOLDOVER : Fld := ⟨0x140d0040, 2, 1, 0⟩
abbrev CLV_INT_STATUS_LOCKED : Fld := ⟨0x140d0040, 1, 1, 0⟩
abbrev CLV_INT_STATUS_SELECT : Fld := ⟨0x140d0040, 0, 1, 0⟩
abbrev CLV_INT_ENABLE_ENABLE : Fld := ⟨0x140d0044, 0, 8, 0⟩
abbrev CLV_REF_CFG_TYPE (n : Nat) : Fld := ⟨0x140d0100 + 0x20 * n, 28, 4, 0⟩
abbrev CLV_REF_CFG_INDEX (n : Nat) : Fld := ⟨0x140d0100 + 0x20 * n, 24, 4, 0⟩
abbrev CLV_REF_CFG_BW (n : Nat) : Fld := ⟨0x140d0100 + 0x20 * n, 22, 2, 0⟩
abbrev CLV_REF_CFG_DOMAIN (n : Nat) : Fld := ⟨0x140d0100 + 0x20 * n, 21, 1, 0⟩
abbrev CLV_REF_CTRL_ENABLE (n : Nat) : Fld := ⟨0x140d0104 + 0x20 * n, 31, 1, 0⟩
abbrev CLV_REF_CTRL_RANK (n : Nat) : Fld := ⟨0x140d0104 + 0x20 * n, 24, 4, 0⟩
abbrev CLV_REF_CTRL_WTR_S (n : Nat) : Fld := ⟨0x140d0104 + 0x20 * n, 0, 12, 0⟩
abbrev CLV_REF_THRESH_HARD_PPB (n : Nat) : Fld := ⟨0x140d0108 + 0x20 * n, 16, 16, 0⟩
abbrev CLV_REF_THRESH_SOFT_PPB (n : Nat) : Fld := ⟨0x140d0108 + 0x20 * n, 0, 16, 0⟩
abbrev CLV_REF_STATE_STATE (n : Nat) : Fld := ⟨0x140d010c + 0x20 * n, 29, 3, 0⟩
abbrev CLV_REF_STATE_SOFT (n : Nat) : Fld := ⟨0x140d010c + 0x20 * n, 28, 1, 0⟩
abbrev CLV_REF_STATE_WTR_LEFT (n : Nat) : Fld := ⟨0x140d010c + 0x20 * n, 0, 12, 0⟩
abbrev CLV_REF_FREQ_100MS_F (n : Nat) : Fld := ⟨0x140d0110 + 0x20 * n, 0, 32, 0⟩
abbrev CLV_REF_FREQ_1S_F (n : Nat) : Fld := ⟨0x140d0114 + 0x20 * n, 0, 32, 0⟩
abbrev CLV_REF_HIST_SELECTED (n : Nat) : Fld := ⟨0x140d0118 + 0x20 * n, 7, 1, 0⟩
abbrev CLV_REF_HIST_RANK_CONFLICT (n : Nat) : Fld := ⟨0x140d0118 + 0x20 * n, 6, 1, 0⟩
abbrev CLV_REF_HIST_PHASE_JUMP (n : Nat) : Fld := ⟨0x140d0118 + 0x20 * n, 5, 1, 0⟩
abbrev CLV_REF_HIST_WTR_RESTART (n : Nat) : Fld := ⟨0x140d0118 + 0x20 * n, 4, 1, 0⟩
abbrev CLV_REF_HIST_SOFT (n : Nat) : Fld := ⟨0x140d0118 + 0x20 * n, 3, 1, 0⟩
abbrev CLV_REF_HIST_HARD (n : Nat) : Fld := ⟨0x140d0118 + 0x20 * n, 2, 1, 0⟩
abbrev CLV_REF_HIST_LOS (n : Nat) : Fld := ⟨0x140d0118 + 0x20 * n, 1, 1, 0⟩
abbrev CLV_REF_HIST_QUALIFIED (n : Nat) : Fld := ⟨0x140d0118 + 0x20 * n, 0, 1, 0⟩
abbrev CLV_REF_LOSS_COUNT_COUNT (n : Nat) : Fld := ⟨0x140d011c + 0x20 * n, 0, 32, 0⟩
abbrev CLV_WC_CFG_ENABLE (n : Nat) : Fld := ⟨0x140d0400 + 0x20 * n, 31, 1, 0⟩
abbrev CLV_WC_CFG_DOMAIN_B (n : Nat) : Fld := ⟨0x140d0400 + 0x20 * n, 30, 1, 0⟩
abbrev CLV_WC_CFG_RATIO (n : Nat) : Fld := ⟨0x140d0400 + 0x20 * n, 28, 2, 0⟩
abbrev CLV_WC_CFG_ALIGN (n : Nat) : Fld := ⟨0x140d0400 + 0x20 * n, 26, 2, 0⟩
abbrev CLV_WC_CFG_PULSE (n : Nat) : Fld := ⟨0x140d0400 + 0x20 * n, 25, 1, 0⟩
abbrev CLV_WC_CFG_WIDTH_NS (n : Nat) : Fld := ⟨0x140d0400 + 0x20 * n, 0, 16, 0⟩
abbrev CLV_WC_OFFSET_NS (n : Nat) : Fld := ⟨0x140d0404 + 0x20 * n, 0, 32, 0⟩
abbrev CLV_WC_COMMIT_STATUS_TAG (n : Nat) : Fld := ⟨0x140d040c + 0x20 * n, 16, 8, 0⟩
abbrev CLV_WC_COMMIT_STATUS_ERR_CODE (n : Nat) : Fld := ⟨0x140d040c + 0x20 * n, 8, 4, 0⟩
abbrev CLV_WC_COMMIT_STATUS_PENDING (n : Nat) : Fld := ⟨0x140d040c + 0x20 * n, 2, 1, 0⟩
abbrev CLV_WC_COMMIT_STATUS_COMMIT_ERR (n : Nat) : Fld := ⟨0x140d040c + 0x20 * n, 1, 1, 0⟩
abbrev CLV_WC_COMMIT_STATUS_APPLIED (n : Nat) : Fld := ⟨0x140d040c + 0x20 * n, 0, 1, 0⟩
abbrev CLV_WC_STATE_ALIGN_STATE (n : Nat) : Fld := ⟨0x140d0410 + 0x20 * n, 0, 2, 0⟩
abbrev CLV_WC_ERR_NS_NS (n : Nat) : Fld := ⟨0x140d0414 + 0x20 * n, 0, 32, 0⟩
abbrev CLV_WC_ERR_CODE : Fld := ⟨0x140d0500, 0, 16, 0⟩

-- R320
abbrev PLL_STATUS_LOCKED (n : Nat) : Fld := ⟨0x140e0000 + 0x100 * n, 31, 1, 0⟩
abbrev PLL_STATUS_SEARCHING (n : Nat) : Fld := ⟨0x140e0000 + 0x100 * n, 30, 1, 0⟩
abbrev PLL_STATUS_BYPASS (n : Nat) : Fld := ⟨0x140e0000 + 0x100 * n, 29, 1, 0⟩
abbrev PLL_STATUS_FALLBACK (n : Nat) : Fld := ⟨0x140e0000 + 0x100 * n, 28, 1, 0⟩
abbrev PLL_STATUS_BAND (n : Nat) : Fld := ⟨0x140e0000 + 0x100 * n, 16, 6, 0⟩
abbrev PLL_VCO_KHZ_KHZ (n : Nat) : Fld := ⟨0x140e0004 + 0x100 * n, 0, 32, 0⟩
abbrev PLL_FRAC_FREQ (n : Nat) : Fld := ⟨0x140e0008 + 0x100 * n, 0, 32, 0⟩
abbrev PLL_LOL_COUNT_COUNT (n : Nat) : Fld := ⟨0x140e000c + 0x100 * n, 0, 32, 0⟩
abbrev PLL_RELOCK_US_US (n : Nat) : Fld := ⟨0x140e0010 + 0x100 * n, 0, 8, 0⟩
abbrev PLL_MCLK_ENABLE (n : Nat) : Fld := ⟨0x140e0020 + 0x100 * n, 31, 1, 0⟩
abbrev PLL_MCLK_DIV (n : Nat) : Fld := ⟨0x140e0020 + 0x100 * n, 0, 13, 0⟩
abbrev PLL_COMMIT_STATUS_TAG (n : Nat) : Fld := ⟨0x140e0028 + 0x100 * n, 16, 8, 0⟩
abbrev PLL_COMMIT_STATUS_ERR_CODE (n : Nat) : Fld := ⟨0x140e0028 + 0x100 * n, 8, 4, 0⟩
abbrev PLL_COMMIT_STATUS_PENDING (n : Nat) : Fld := ⟨0x140e0028 + 0x100 * n, 2, 1, 0⟩
abbrev PLL_COMMIT_STATUS_COMMIT_ERR (n : Nat) : Fld := ⟨0x140e0028 + 0x100 * n, 1, 1, 0⟩
abbrev PLL_COMMIT_STATUS_APPLIED (n : Nat) : Fld := ⟨0x140e0028 + 0x100 * n, 0, 1, 0⟩
abbrev PLL_COMMIT_ERR_CODE (n : Nat) : Fld := ⟨0x140e002c + 0x100 * n, 0, 4, 0⟩
abbrev PLL_INT_STATUS_BYPASS : Fld := ⟨0x140e0800, 8, 4, 0⟩
abbrev PLL_INT_STATUS_LOCK : Fld := ⟨0x140e0800, 4, 4, 0⟩
abbrev PLL_INT_STATUS_LOL : Fld := ⟨0x140e0800, 0, 4, 0⟩
abbrev PLL_INT_ENABLE_ENABLE : Fld := ⟨0x140e0804, 0, 12, 0⟩

-- R339
abbrev BEAT_CHANNELS_PRESENT : Fld := ⟨0x14300000, 0, 32, 0⟩
abbrev BEAT_GRID_RAILS : Fld := ⟨0x14300004, 16, 8, 0⟩
abbrev BEAT_GRID_GRID_DIV : Fld := ⟨0x14300004, 0, 14, 0⟩
abbrev BEAT_FAULT_SUMMARY_CHANNEL : Fld := ⟨0x14300008, 0, 32, 0⟩
abbrev BEAT_CMD_REJECT_COUNT : Fld := ⟨0x1430000c, 0, 32, 0⟩
abbrev BEAT_INT_STATUS_RAIL_FAULT : Fld := ⟨0x14300100, 6, 1, 0⟩
abbrev BEAT_INT_STATUS_RAIL_CLIP : Fld := ⟨0x14300100, 5, 1, 0⟩
abbrev BEAT_INT_STATUS_LATCHED : Fld := ⟨0x14300100, 4, 1, 0⟩
abbrev BEAT_INT_STATUS_FAULT : Fld := ⟨0x14300100, 3, 1, 0⟩
abbrev BEAT_INT_STATUS_DIAG_DONE : Fld := ⟨0x14300100, 2, 1, 0⟩
abbrev BEAT_INT_STATUS_PRESENCE : Fld := ⟨0x14300100, 1, 1, 0⟩
abbrev BEAT_INT_STATUS_CMD_REJECT : Fld := ⟨0x14300100, 0, 1, 0⟩
abbrev BEAT_INT_ENABLE_ENABLE : Fld := ⟨0x14300104, 0, 7, 0⟩
abbrev BEAT_CTRL_ENABLE (n : Nat) : Fld := ⟨0x14301000 + 0x40 * n, 31, 1, 0⟩
abbrev BEAT_CTRL_MUTE (n : Nat) : Fld := ⟨0x14301000 + 0x40 * n, 30, 1, 0⟩
abbrev BEAT_CTRL_RAMP (n : Nat) : Fld := ⟨0x14301000 + 0x40 * n, 16, 10, 0⟩
abbrev BEAT_CTRL_I_TRIP (n : Nat) : Fld := ⟨0x14301000 + 0x40 * n, 0, 8, 0⟩
abbrev BEAT_STATUS_STATE (n : Nat) : Fld := ⟨0x14301004 + 0x40 * n, 28, 4, 0⟩
abbrev BEAT_STATUS_CLASS (n : Nat) : Fld := ⟨0x14301004 + 0x40 * n, 24, 4, 0⟩
abbrev BEAT_STATUS_FAILS (n : Nat) : Fld := ⟨0x14301004 + 0x40 * n, 20, 4, 0⟩
abbrev BEAT_STATUS_GRID_LOCK (n : Nat) : Fld := ⟨0x14301004 + 0x40 * n, 19, 1, 0⟩
abbrev BEAT_STATUS_PRESENT (n : Nat) : Fld := ⟨0x14301004 + 0x40 * n, 18, 1, 0x1⟩
abbrev BEAT_STATUS_OWNED (n : Nat) : Fld := ⟨0x14301004 + 0x40 * n, 17, 1, 0x1⟩
abbrev BEAT_STATUS_RAIL_LIMIT (n : Nat) : Fld := ⟨0x14301004 + 0x40 * n, 16, 1, 0⟩
abbrev BEAT_LIMITS_V_FS (n : Nat) : Fld := ⟨0x14301008 + 0x40 * n, 16, 16, 0⟩
abbrev BEAT_LIMITS_PHASE (n : Nat) : Fld := ⟨0x14301008 + 0x40 * n, 8, 5, 0⟩
abbrev BEAT_LIMITS_DEAD_NS (n : Nat) : Fld := ⟨0x14301008 + 0x40 * n, 0, 8, 0⟩
abbrev BEAT_SCALE_K_V (n : Nat) : Fld := ⟨0x1430100c + 0x40 * n, 16, 16, 0⟩
abbrev BEAT_SCALE_K_I (n : Nat) : Fld := ⟨0x1430100c + 0x40 * n, 0, 16, 0⟩
abbrev BEAT_DIAG_RESULT (n : Nat) : Fld := ⟨0x14301010 + 0x40 * n, 28, 4, 0⟩
abbrev BEAT_DIAG_Z (n : Nat) : Fld := ⟨0x14301010 + 0x40 * n, 0, 16, 0⟩
abbrev BEAT_FAULT_BLK_BLK (n : Nat) : Fld := ⟨0x14301014 + 0x40 * n, 0, 32, 0⟩
abbrev BEAT_TRIP_COUNT_COUNT (n : Nat) : Fld := ⟨0x14301018 + 0x40 * n, 0, 32, 0⟩
abbrev BEAT_FAULT_COUNT_COUNT (n : Nat) : Fld := ⟨0x1430101c + 0x40 * n, 0, 32, 0⟩
abbrev BEAT_FREQ_KHZ (n : Nat) : Fld := ⟨0x14301020 + 0x40 * n, 0, 16, 0⟩
abbrev BEAT_LEVEL_LEVEL (n : Nat) : Fld := ⟨0x14301024 + 0x40 * n, 0, 24, 0⟩
abbrev BEAT_RAIL_CFG_RAIL_MAX (n : Nat) : Fld := ⟨0x14303000 + 0x20 * n, 16, 16, 0⟩
abbrev BEAT_RAIL_CFG_RAIL_MIN (n : Nat) : Fld := ⟨0x14303000 + 0x20 * n, 0, 16, 0⟩
abbrev BEAT_RAIL_MARGIN_FAULT_CAP (n : Nat) : Fld := ⟨0x14303004 + 0x20 * n, 16, 16, 0⟩
abbrev BEAT_RAIL_MARGIN_MARGIN (n : Nat) : Fld := ⟨0x14303004 + 0x20 * n, 0, 16, 0⟩
abbrev BEAT_RAIL_SLEW_RISE (n : Nat) : Fld := ⟨0x14303008 + 0x20 * n, 16, 16, 0⟩
abbrev BEAT_RAIL_SLEW_FALL (n : Nat) : Fld := ⟨0x14303008 + 0x20 * n, 0, 16, 0⟩
abbrev BEAT_RAIL_STATUS_STATE (n : Nat) : Fld := ⟨0x1430300c + 0x20 * n, 28, 4, 0⟩
abbrev BEAT_RAIL_TARGET_COMMANDED (n : Nat) : Fld := ⟨0x14303010 + 0x20 * n, 16, 16, 0⟩
abbrev BEAT_RAIL_TARGET_TARGET (n : Nat) : Fld := ⟨0x14303010 + 0x20 * n, 0, 16, 0⟩
abbrev BEAT_RAIL_MEAS_PEAK (n : Nat) : Fld := ⟨0x14303014 + 0x20 * n, 16, 16, 0⟩
abbrev BEAT_RAIL_MEAS_MEAS (n : Nat) : Fld := ⟨0x14303014 + 0x20 * n, 0, 16, 0⟩
abbrev BEAT_RAIL_CLIP_COUNT (n : Nat) : Fld := ⟨0x14303018 + 0x20 * n, 0, 32, 0⟩
abbrev BEAT_RAIL_SHORT_COUNT (n : Nat) : Fld := ⟨0x1430301c + 0x20 * n, 0, 32, 0⟩

-- R361
abbrev FLM_CFG_PRESENT : Fld := ⟨0x14400000, 31, 1, 0⟩
abbrev FLM_CFG_ROLE : Fld := ⟨0x14400000, 30, 1, 0⟩
abbrev FLM_CFG_GROUPS : Fld := ⟨0x14400000, 16, 7, 0⟩
abbrev FLM_CFG_MIRROR_KIB : Fld := ⟨0x14400000, 0, 16, 0⟩
abbrev FLM_STATE_STATE : Fld := ⟨0x14400004, 28, 4, 0⟩
abbrev FLM_STATE_PEER_STATE : Fld := ⟨0x14400004, 24, 4, 0⟩
abbrev FLM_STATE_PEER_SEEN : Fld := ⟨0x14400004, 23, 1, 0⟩
abbrev FLM_STATE_OWN_IN : Fld := ⟨0x14400004, 22, 1, 0x1⟩
abbrev FLM_STATE_SEL_IN : Fld := ⟨0x14400004, 21, 1, 0x1⟩
abbrev FLM_STATE_RECORD_VALID : Fld := ⟨0x14400004, 16, 1, 0⟩
abbrev FLM_STATE_EVIDENCE : Fld := ⟨0x14400004, 0, 16, 0⟩
abbrev FLM_CTRL_ENABLE : Fld := ⟨0x14400008, 31, 1, 0x1⟩
abbrev FLM_CTRL_REVERT : Fld := ⟨0x14400008, 30, 1, 0x1⟩
abbrev FLM_CTRL_WTR_S : Fld := ⟨0x14400008, 0, 12, 0x3c⟩
abbrev FLM_WTR_LEFT_S : Fld := ⟨0x1440000c, 0, 12, 0⟩
abbrev FLM_GEN_LO_GEN : Fld := ⟨0x14400010, 0, 32, 0⟩
abbrev FLM_GEN_HI_GEN : Fld := ⟨0x14400014, 0, 32, 0⟩
abbrev FLM_PEER_GEN_LO_GEN : Fld := ⟨0x14400018, 0, 32, 0⟩
abbrev FLM_PEER_GEN_HI_GEN : Fld := ⟨0x1440001c, 0, 32, 0⟩
abbrev FLM_PEER_SERIAL_SERIAL (n : Nat) : Fld := ⟨0x14400020 + 0x4 * n, 0, 32, 0⟩
abbrev FLM_PEER_POWER_CYCLES_COUNT : Fld := ⟨0x14400030, 0, 32, 0⟩
abbrev FLM_PEER_EVIDENCE_EVIDENCE : Fld := ⟨0x14400034, 0, 16, 0⟩
abbrev FLM_SKEW_NS_NS : Fld := ⟨0x14400038, 0, 32, 0⟩
abbrev FLM_LINK_UP_01 : Fld := ⟨0x1440003c, 1, 1, 0⟩
abbrev FLM_LINK_UP_00 : Fld := ⟨0x1440003c, 0, 1, 0⟩
abbrev FLM_LAST_TAKEOVER_LO_BLK : Fld := ⟨0x14400040, 0, 32, 0⟩
abbrev FLM_LAST_TAKEOVER_HI_CAUSE : Fld := ⟨0x14400044, 16, 4, 0⟩
abbrev FLM_LAST_TAKEOVER_HI_BLK : Fld := ⟨0x14400044, 0, 16, 0⟩
abbrev FLM_PAIR_FAIL_CODE : Fld := ⟨0x14400048, 0, 4, 0⟩
abbrev FLM_RESYNC_STATUS_PHASE : Fld := ⟨0x14400050, 28, 4, 0⟩
abbrev FLM_RESYNC_STATUS_REASON : Fld := ⟨0x14400050, 24, 4, 0⟩
abbrev FLM_RESYNC_STATUS_KIB_LEFT : Fld := ⟨0x14400050, 0, 15, 0⟩
abbrev FLM_DISAGREE_COUNT_COUNT : Fld := ⟨0x14400054, 0, 32, 0⟩
abbrev FLM_TAKEOVER_COUNT_COUNT : Fld := ⟨0x14400058, 0, 32, 0⟩
abbrev FLM_LATE_COUNT_COUNT : Fld := ⟨0x1440005c, 0, 32, 0⟩
abbrev FLM_REFUSED_COUNT_COUNT : Fld := ⟨0x14400060, 0, 32, 0⟩
abbrev FLM_HB_MISS_COUNT_COUNT : Fld := ⟨0x14400064, 0, 32, 0⟩
abbrev FLM_REALIGN_STATUS_RESULT : Fld := ⟨0x1440007c, 0, 4, 0⟩
abbrev FLM_DIGEST_MISMATCH_LO_GROUP : Fld := ⟨0x14400080, 0, 32, 0⟩
abbrev FLM_DIGEST_MISMATCH_HI_GROUP : Fld := ⟨0x14400084, 0, 32, 0⟩
abbrev FLM_INT_STATUS_IDENTITY_CHANGED : Fld := ⟨0x14400100, 9, 1, 0⟩
abbrev FLM_INT_STATUS_REALIGN_DONE : Fld := ⟨0x14400100, 8, 1, 0⟩
abbrev FLM_INT_STATUS_RESYNC_DONE : Fld := ⟨0x14400100, 7, 1, 0⟩
abbrev FLM_INT_STATUS_RESYNC_START : Fld := ⟨0x14400100, 6, 1, 0⟩
abbrev FLM_INT_STATUS_DISAGREE : Fld := ⟨0x14400100, 5, 1, 0⟩
abbrev FLM_INT_STATUS_LINK_LOST : Fld := ⟨0x14400100, 4, 1, 0⟩
abbrev FLM_INT_STATUS_PEER_LOST : Fld := ⟨0x14400100, 3, 1, 0⟩
abbrev FLM_INT_STATUS_YIELDED : Fld := ⟨0x14400100, 2, 1, 0⟩
abbrev FLM_INT_STATUS_TOOK_OVER : Fld := ⟨0x14400100, 1, 1, 0⟩
abbrev FLM_INT_STATUS_PAIRED : Fld := ⟨0x14400100, 0, 1, 0⟩
abbrev FLM_INT_ENABLE_ENABLE : Fld := ⟨0x14400104, 0, 10, 0⟩

-- R386
abbrev SMP_STATUS_PROTOCOL : Fld := ⟨0x15f20000, 24, 8, 0x1⟩
abbrev SMP_STATUS_HOST_DONE : Fld := ⟨0x15f20000, 2, 1, 0⟩
abbrev SMP_STATUS_BUSY : Fld := ⟨0x15f20000, 1, 1, 0⟩
abbrev SMP_STATUS_READ_ONLY : Fld := ⟨0x15f20000, 0, 1, 0⟩
abbrev SMP_ALERT_STATUS_ALERT : Fld := ⟨0x15f20004, 0, 8, 0⟩
abbrev SMP_ALERT_ENABLE_ENABLE : Fld := ⟨0x15f20008, 0, 8, 0xf⟩
abbrev SMP_FRAME_ERR_COUNT : Fld := ⟨0x15f2000c, 0, 32, 0⟩
abbrev SMP_MIRROR_WORD (n : Nat) : Fld := ⟨0x15f20100 + 0x4 * n, 0, 32, 0⟩
abbrev SMP_HOST_REQ_BYTES (n : Nat) : Fld := ⟨0x15f20200 + 0x4 * n, 0, 32, 0⟩
abbrev SMP_HOST_RSP_BYTES (n : Nat) : Fld := ⟨0x15f20400 + 0x4 * n, 0, 32, 0⟩

-- R387
abbrev EVT_CTRL_PERIOD_MIN : Fld := ⟨0x15f10000, 0, 6, 0xf⟩
abbrev EVT_STATUS_RESTORING : Fld := ⟨0x15f10008, 31, 1, 0x1⟩
abbrev EVT_STATUS_WRITING : Fld := ⟨0x15f10008, 30, 1, 0⟩
abbrev EVT_STATUS_ERASING : Fld := ⟨0x15f10008, 29, 1, 0⟩
abbrev EVT_STATUS_STALE : Fld := ⟨0x15f10008, 28, 1, 0⟩
abbrev EVT_STATUS_BAD_SLOT : Fld := ⟨0x15f10008, 27, 1, 0⟩
abbrev EVT_STATUS_LAST_CAUSE : Fld := ⟨0x15f10008, 20, 4, 0⟩
abbrev EVT_SEQ_SEQ : Fld := ⟨0x15f1000c, 0, 32, 0⟩
abbrev EVT_OP_MINUTES_MIN : Fld := ⟨0x15f10010, 0, 32, 0⟩
abbrev EVT_POWER_CYCLES_COUNT : Fld := ⟨0x15f10014, 0, 32, 0⟩
abbrev EVT_CLEAR_COUNT_COUNT : Fld := ⟨0x15f10018, 0, 32, 0⟩
abbrev EVT_CLEAR_MINUTE_MIN : Fld := ⟨0x15f1001c, 0, 32, 0⟩
abbrev EVT_WRITE_ERR_COUNT : Fld := ⟨0x15f10020, 0, 32, 0⟩
abbrev EVT_CURSOR_SOURCE : Fld := ⟨0x15f10030, 28, 1, 0⟩
abbrev EVT_CURSOR_WORD : Fld := ⟨0x15f10030, 2, 11, 0⟩
abbrev EVT_WINDOW_DATA : Fld := ⟨0x15f10034, 0, 32, 0⟩
abbrev EVT_INT_STATUS_RESTORED : Fld := ⟨0x15f10100, 2, 1, 0⟩
abbrev EVT_INT_STATUS_WRITE_ERR : Fld := ⟨0x15f10100, 1, 1, 0⟩
abbrev EVT_INT_STATUS_WRITTEN : Fld := ⟨0x15f10100, 0, 1, 0⟩
abbrev EVT_INT_ENABLE_ENABLE : Fld := ⟨0x15f10104, 0, 3, 0⟩

-- R388
abbrev TAP_KEYS_PRESSED : Fld := ⟨0x140f0000, 0, 16, 0⟩
abbrev TAP_KEY_EVT_RELEASED : Fld := ⟨0x140f0004, 16, 16, 0⟩
abbrev TAP_KEY_EVT_PRESS : Fld := ⟨0x140f0004, 0, 16, 0⟩
abbrev TAP_KEY_CFG_MOMENTARY : Fld := ⟨0x140f0008, 0, 16, 0⟩
abbrev TAP_MUTE_KEY_MUTED : Fld := ⟨0x140f000c, 0, 16, 0⟩
abbrev TAP_DEBOUNCE_PRES_MS : Fld := ⟨0x140f0010, 8, 8, 0x32⟩
abbrev TAP_DEBOUNCE_KEY_MS : Fld := ⟨0x140f0010, 0, 8, 0xa⟩
abbrev TAP_GROUP_STATE_MUTED (n : Nat) : Fld := ⟨0x140f0014 + 0x4 * n, 0, 32, 0⟩
abbrev TAP_PRES_PRESENT : Fld := ⟨0x140f0020, 0, 32, 0⟩
abbrev TAP_PRES_POL_HIGH : Fld := ⟨0x140f0024, 0, 32, 0⟩
abbrev TAP_PRES_EVT_CHANGED : Fld := ⟨0x140f0028, 0, 32, 0⟩
abbrev TAP_ENC_ERR (n : Nat) : Fld := ⟨0x140f0040 + 0x4 * n, 16, 16, 0⟩
abbrev TAP_ENC_COUNT (n : Nat) : Fld := ⟨0x140f0040 + 0x4 * n, 0, 16, 0⟩
abbrev TAP_LED_SRC (n : Nat) : Fld := ⟨0x140f0060 + 0x4 * n, 30, 2, 0⟩
abbrev TAP_LED_INDEX (n : Nat) : Fld := ⟨0x140f0060 + 0x4 * n, 16, 5, 0⟩
abbrev TAP_LED_DUTY (n : Nat) : Fld := ⟨0x140f0060 + 0x4 * n, 0, 8, 0⟩
abbrev TAP_INT_STATUS_ENC : Fld := ⟨0x140f0100, 3, 1, 0⟩
abbrev TAP_INT_STATUS_PRES : Fld := ⟨0x140f0100, 2, 1, 0⟩
abbrev TAP_INT_STATUS_GROUP : Fld := ⟨0x140f0100, 1, 1, 0⟩
abbrev TAP_INT_STATUS_KEY : Fld := ⟨0x140f0100, 0, 1, 0⟩
abbrev TAP_INT_ENABLE_ENABLE : Fld := ⟨0x140f0104, 0, 4, 0⟩

-- R389
abbrev ID_SERIAL_SERIAL (n : Nat) : Fld := ⟨0x15f80000 + 0x4 * n, 0, 32, 0⟩
abbrev ID_REVISION_DEVICE : Fld := ⟨0x15f80010, 16, 16, 0x1024⟩
abbrev ID_REVISION_REVISION : Fld := ⟨0x15f80010, 0, 8, 0xb1⟩
abbrev ID_PUBKEY_KEY (n : Nat) : Fld := ⟨0x15f80020 + 0x4 * n, 0, 32, 0⟩
abbrev ID_CERT_CERT (n : Nat) : Fld := ⟨0x15f80080 + 0x4 * n, 0, 32, 0⟩
abbrev ID_NONCE_NONCE (n : Nat) : Fld := ⟨0x15f80100 + 0x4 * n, 0, 32, 0⟩
abbrev ID_ATTEST_STATUS_DONE : Fld := ⟨0x15f80114, 1, 1, 0⟩
abbrev ID_ATTEST_STATUS_BUSY : Fld := ⟨0x15f80114, 0, 1, 0⟩
abbrev ID_ATTEST_BYTES (n : Nat) : Fld := ⟨0x15f80200 + 0x4 * n, 0, 32, 0⟩
abbrev OTP_FP_FP (n : Nat) (i : Nat) : Fld := ⟨0x15f80400 + 0x20 * n + 0x4 * i, 0, 32, 0⟩
abbrev OTP_FP_STATE_REVOKED : Fld := ⟨0x15f80480, 4, 4, 0⟩
abbrev OTP_FP_STATE_PROGRAMMED : Fld := ⟨0x15f80480, 0, 4, 0⟩
abbrev OTP_ROLLBACK_MIN_MIN : Fld := ⟨0x15f80484, 0, 6, 0⟩
abbrev OTP_CMD_BYTES (n : Nat) : Fld := ⟨0x15f80500 + 0x4 * n, 0, 32, 0⟩
abbrev OTP_CMD_STATUS_BUSY : Fld := ⟨0x15f805c4, 31, 1, 0⟩
abbrev OTP_CMD_STATUS_RESULT : Fld := ⟨0x15f805c4, 0, 4, 0⟩

-- R406
abbrev SYS_MODE_LIMP_CAUSE : Fld := ⟨0x14000000, 16, 5, 0⟩
abbrev SYS_MODE_WITHHELD : Fld := ⟨0x14000000, 4, 1, 0⟩
abbrev SYS_MODE_MODE : Fld := ⟨0x14000000, 0, 3, 0⟩
abbrev SYS_STRAPS_SMP_MODE : Fld := ⟨0x14000008, 3, 1, 0⟩
abbrev SYS_STRAPS_FLAM_ROLE : Fld := ⟨0x14000008, 2, 1, 0⟩
abbrev SYS_STRAPS_BOOT_SRC : Fld := ⟨0x14000008, 0, 2, 0⟩
abbrev SYS_BOOT_STATUS_STAGE : Fld := ⟨0x1400000c, 20, 4, 0x1⟩
abbrev SYS_BOOT_STATUS_SLOT : Fld := ⟨0x1400000c, 16, 2, 0⟩
abbrev SYS_BOOT_STATUS_PTP_TIMEOUT : Fld := ⟨0x1400000c, 3, 1, 0⟩
abbrev SYS_BOOT_STATUS_STRAP_ERR : Fld := ⟨0x1400000c, 2, 1, 0⟩
abbrev SYS_BOOT_STATUS_SLOT1_REJECTED : Fld := ⟨0x1400000c, 1, 1, 0⟩
abbrev SYS_BOOT_STATUS_SLOT0_REJECTED : Fld := ⟨0x1400000c, 0, 1, 0⟩
abbrev SYS_INT_STATUS_MODE_CHANGE : Fld := ⟨0x14000010, 2, 1, 0⟩
abbrev SYS_INT_STATUS_BOOT_FAIL : Fld := ⟨0x14000010, 1, 1, 0⟩
abbrev SYS_INT_STATUS_BOOT_DONE : Fld := ⟨0x14000010, 0, 1, 0⟩
abbrev SYS_INT_ENABLE_ENABLE : Fld := ⟨0x14000014, 0, 3, 0⟩

-- R407
abbrev PMU_CTRL_WAIT_PTP : Fld := ⟨0x15f00000, 7, 1, 0⟩
abbrev PMU_CTRL_PF_RESTART : Fld := ⟨0x15f00000, 6, 1, 0x1⟩
abbrev PMU_CTRL_THERM_RESTART : Fld := ⟨0x15f00000, 5, 1, 0x1⟩
abbrev PMU_CTRL_LIMP_AUTO_EXIT : Fld := ⟨0x15f00000, 4, 1, 0x1⟩
abbrev PMU_REQ_STATUS_RESULT : Fld := ⟨0x15f00008, 4, 4, 0⟩
abbrev PMU_REQ_STATUS_ACTION : Fld := ⟨0x15f00008, 0, 4, 0⟩
abbrev PMU_DOMAIN_STATE_STATE : Fld := ⟨0x15f0000c, 0, 24, 0x2⟩
abbrev PMU_RAIL_GOOD_GOOD : Fld := ⟨0x15f00010, 0, 11, 0⟩
abbrev PMU_LIMP_STATUS_PHASE : Fld := ⟨0x15f00014, 16, 2, 0⟩
abbrev PMU_LIMP_STATUS_SEEN : Fld := ⟨0x15f00014, 8, 5, 0⟩
abbrev PMU_LIMP_STATUS_CAUSE : Fld := ⟨0x15f00014, 0, 5, 0⟩
abbrev PMU_RESET_CAUSE_PWR_FAIL : Fld := ⟨0x15f00018, 6, 1, 0⟩
abbrev PMU_RESET_CAUSE_THERMAL : Fld := ⟨0x15f00018, 5, 1, 0⟩
abbrev PMU_RESET_CAUSE_SMP : Fld := ⟨0x15f00018, 4, 1, 0⟩
abbrev PMU_RESET_CAUSE_SOFTWARE : Fld := ⟨0x15f00018, 3, 1, 0⟩
abbrev PMU_RESET_CAUSE_RESET_N : Fld := ⟨0x15f00018, 2, 1, 0⟩
abbrev PMU_RESET_CAUSE_AO_RESET_N : Fld := ⟨0x15f00018, 1, 1, 0⟩
abbrev PMU_RESET_CAUSE_POR : Fld := ⟨0x15f00018, 0, 1, 0⟩
abbrev PMU_THERM_CFG_WARN_C : Fld := ⟨0x15f0001c, 8, 8, 0x8c⟩
abbrev PMU_TEMP_MAX_SENSOR : Fld := ⟨0x15f00020, 16, 4, 0⟩
abbrev PMU_TEMP_MAX_T : Fld := ⟨0x15f00020, 0, 16, 0⟩
abbrev PMU_PF_COUNT_GLITCH : Fld := ⟨0x15f00024, 16, 16, 0⟩
abbrev PMU_PF_COUNT_SHUTDOWN : Fld := ⟨0x15f00024, 0, 16, 0⟩
abbrev PMU_LIMP_COUNT_COUNT : Fld := ⟨0x15f00028, 0, 32, 0⟩
abbrev PMU_TEMP_T (n : Nat) : Fld := ⟨0x15f00040 + 0x4 * n, 0, 16, 0⟩
abbrev PMU_INT_STATUS_REQ_DONE : Fld := ⟨0x15f00100, 6, 1, 0⟩
abbrev PMU_INT_STATUS_PWR_FAIL : Fld := ⟨0x15f00100, 5, 1, 0⟩
abbrev PMU_INT_STATUS_THERM_TRIP : Fld := ⟨0x15f00100, 4, 1, 0⟩
abbrev PMU_INT_STATUS_LIMP_EXIT : Fld := ⟨0x15f00100, 3, 1, 0⟩
abbrev PMU_INT_STATUS_LIMP_ENTER : Fld := ⟨0x15f00100, 2, 1, 0⟩
abbrev PMU_INT_STATUS_THERM_WARN : Fld := ⟨0x15f00100, 1, 1, 0⟩
abbrev PMU_INT_STATUS_RAIL_BAD : Fld := ⟨0x15f00100, 0, 1, 0⟩
abbrev PMU_INT_ENABLE_ENABLE : Fld := ⟨0x15f00104, 0, 7, 0⟩

-- R33
abbrev SYS_ISLAND_DIV_X2 (n : Nat) : Fld := ⟨0x14000100 + 0x4 * n, 16, 8, 0⟩
abbrev SYS_ISLAND_CLK_SRC (n : Nat) : Fld := ⟨0x14000100 + 0x4 * n, 10, 2, if n = 0 then 2 else 3⟩
abbrev SYS_ISLAND_POWERED (n : Nat) : Fld := ⟨0x14000100 + 0x4 * n, 8, 1, if n = 0 then 1 else 0⟩
abbrev SYS_ISLAND_FALLBACK_SEEN (n : Nat) : Fld := ⟨0x14000100 + 0x4 * n, 0, 1, 0⟩

end R

/-- Register rows of block PEAL (R65). -/
def regRowsPEAL0 : List RegRow := [
  ⟨0x14060000, [], [⟨0, 16, .ro, 0x1⟩]⟩,
  ⟨0x14060010, [], [⟨8, 8, .wo, 0⟩, ⟨4, 2, .wo, 0⟩, ⟨1, 1, .wo, 0⟩, ⟨0, 1, .wo, 0⟩]⟩,
  ⟨0x14060014, [], [⟨28, 4, .ro, 0⟩, ⟨24, 4, .ro, 0⟩, ⟨16, 1, .ro, 0⟩, ⟨0, 1, .ro, 0⟩]⟩,
  ⟨0x14060018, [], [⟨16, 16, .ro, 0⟩, ⟨0, 16, .ro, 0⟩]⟩,
  ⟨0x1406001c, [], [⟨0, 32, .ro, 0⟩]⟩,
  ⟨0x14060020, [(0x4, 8)], [⟨0, 32, .ro, 0⟩]⟩,
  ⟨0x14060040, [(0x4, 8)], [⟨0, 32, .ro, 0⟩]⟩,
  ⟨0x14060060, [], [⟨0, 32, .ro, 0⟩]⟩,
  ⟨0x14060064, [], [⟨0, 32, .ro, 0⟩]⟩,
  ⟨0x14060080, [], [⟨0, 32, .rws, 0⟩]⟩,
  ⟨0x14060084, [], [⟨0, 16, .rws, 0⟩]⟩,
  ⟨0x14060088, [], [⟨16, 7, .rws, 0⟩, ⟨8, 2, .rws, 0⟩]⟩,
  ⟨0x1406008c, [], [⟨0, 32, .wo, 0⟩]⟩,
  ⟨0x14060090, [], [⟨16, 8, .ro, 0⟩, ⟨8, 4, .ro, 0⟩, ⟨2, 1, .ro, 0⟩, ⟨1, 1, .w1c, 0⟩, ⟨0, 1, .w1c, 0⟩]⟩,
  ⟨0x14060094, [], [⟨16, 16, .ro, 0⟩, ⟨0, 4, .ro, 0⟩]⟩,
  ⟨0x14060098, [], [⟨0, 32, .ro, 0⟩]⟩,
  ⟨0x1406009c, [], [⟨0, 16, .ro, 0⟩]⟩,
  ⟨0x140600a0, [], [⟨0, 32, .ro, 0⟩]⟩,
  ⟨0x140600a4, [], [⟨0, 32, .ro, 0⟩]⟩,
  ⟨0x140600a8, [], [⟨0, 1, .wo, 0⟩]⟩,
  ⟨0x140600b0, [], [⟨8, 1, .w1c, 0⟩, ⟨7, 1, .w1c, 0⟩, ⟨6, 1, .w1c, 0⟩, ⟨5, 1, .w1c, 0⟩, ⟨4, 1, .w1c, 0⟩, ⟨3, 1, .w1c, 0⟩, ⟨2, 1, .w1c, 0⟩, ⟨1, 1, .w1c, 0⟩, ⟨0, 1, .w1c, 0⟩]⟩,
  ⟨0x140600b4, [], [⟨0, 9, .rw, 0⟩]⟩]

/-- Register rows of block BLK (R90). -/
def regRowsBLK0 : List RegRow := [
  ⟨0x14040000, [], [⟨16, 8, .ro, 0⟩, ⟨8, 8, .ro, 0⟩, ⟨0, 8, .ro, 0⟩]⟩,
  ⟨0x14040004, [], [⟨3, 1, .ro, 0⟩, ⟨2, 1, .ro, 0⟩, ⟨1, 1, .ro, 0⟩, ⟨0, 1, .ro, 0⟩]⟩,
  ⟨0x14040008, [], [⟨0, 32, .ro, 0⟩]⟩,
  ⟨0x1404000c, [], [⟨0, 16, .ro, 0⟩]⟩,
  ⟨0x14040010, [], [⟨0, 32, .ro, 0⟩]⟩,
  ⟨0x14040014, [], [⟨0, 16, .wo, 0⟩]⟩,
  ⟨0x14040018, [], [⟨8, 1, .ro, 0⟩, ⟨0, 4, .ro, 0⟩]⟩,
  ⟨0x1404001c, [], [⟨0, 16, .rw, 0⟩]⟩,
  ⟨0x14040020, [], [⟨0, 32, .ro, 0⟩]⟩,
  ⟨0x14040024, [], [⟨0, 32, .ro, 0⟩]⟩,
  ⟨0x14040028, [], [⟨31, 1, .ro, 0⟩, ⟨0, 12, .ro, 0⟩]⟩,
  ⟨0x1404002c, [], [⟨0, 32, .ro, 0⟩]⟩,
  ⟨0x14040030, [], [⟨0, 32, .ro, 0⟩]⟩,
  ⟨0x14040040, [], [⟨0, 1, .wo, 0⟩]⟩,
  ⟨0x14040100, [(0x4, 26)], [⟨16, 16, .ro, 0⟩, ⟨0, 16, .ro, 0⟩]⟩,
  ⟨0x14040200, [(0x4, 26)], [⟨16, 16, .ro, 0⟩, ⟨0, 16, .ro, 0⟩]⟩,
  ⟨0x14040300, [(0x4, 26)], [⟨0, 32, .ro, 0⟩]⟩,
  ⟨0x14040400, [], [⟨4, 1, .w1c, 0⟩, ⟨3, 1, .w1c, 0⟩, ⟨2, 1, .w1c, 0⟩, ⟨1, 1, .w1c, 0⟩, ⟨0, 1, .w1c, 0⟩]⟩,
  ⟨0x14040404, [], [⟨0, 5, .rw, 0⟩]⟩]

/-- Register rows of block SXM (R91). -/
def regRowsSXM0 : List RegRow := [
  ⟨0x14050000, [], [⟨0, 32, .ro, 0⟩]⟩,
  ⟨0x14050004, [], [⟨0, 13, .ro, 0⟩]⟩,
  ⟨0x14050008, [], [⟨0, 1, .w1c, 0⟩]⟩,
  ⟨0x1405000c, [], [⟨0, 1, .rw, 0⟩]⟩]

/-- Register rows of block BRG (R92). -/
def regRowsBRG0 : List RegRow := [
  ⟨0x14070000, [], [⟨16, 9, .ro, 0⟩, ⟨8, 8, .ro, 0⟩, ⟨0, 8, .ro, 0⟩]⟩,
  ⟨0x14070100, [(0x4, 24)], [⟨24, 8, .ro, 0⟩, ⟨16, 8, .ro, 0⟩, ⟨0, 4, .ro, 0⟩]⟩,
  ⟨0x14070200, [(0x4, 24)], [⟨0, 32, .ro, 0⟩]⟩,
  ⟨0x14070300, [(0x4, 24)], [⟨0, 32, .ro, 0⟩]⟩,
  ⟨0x14070400, [], [⟨1, 1, .w1c, 0⟩, ⟨0, 1, .w1c, 0⟩]⟩,
  ⟨0x14070404, [], [⟨0, 2, .rw, 0⟩]⟩]

/-- Register rows of block CLN, part 0 (R120). -/
def regRowsCLN0 : List RegRow := [
  ⟨0x14100000, [], [⟨16, 16, .ro, 0⟩, ⟨0, 16, .ro, 0⟩]⟩,
  ⟨0x14100004, [], [⟨16, 16, .ro, 0⟩, ⟨0, 16, .ro, 0⟩]⟩,
  ⟨0x14100008, [], [⟨8, 4, .ro, 0⟩, ⟨4, 4, .ro, 0⟩, ⟨1, 1, .ro, 0⟩, ⟨0, 1, .ro, 0⟩]⟩,
  ⟨0x14100040, [], [⟨16, 1, .ro, 0⟩, ⟨0, 10, .ro, 0⟩]⟩,
  ⟨0x14100044, [(0x4, 15)], [⟨16, 1, .rw, 0⟩, ⟨0, 10, .rw, 0⟩]⟩,
  ⟨0x14100080, [], [⟨0, 16, .ro, 0⟩]⟩,
  ⟨0x14100084, [], [⟨16, 15, .ro, 0⟩, ⟨0, 15, .ro, 0⟩]⟩,
  ⟨0x14100100, [], [⟨31, 1, .rw, 0⟩, ⟨16, 10, .rw, 0⟩, ⟨0, 11, .rw, 0⟩]⟩,
  ⟨0x14100104, [], [⟨24, 1, .ro, 0⟩, ⟨0, 24, .ro, 0⟩]⟩,
  ⟨0x14100108, [], [⟨28, 4, .rw, 0⟩, ⟨0, 24, .rw, 0⟩]⟩,
  ⟨0x14100200, [], [⟨16, 10, .rws, 0⟩, ⟨0, 10, .rws, 0⟩]⟩,
  ⟨0x14100204, [], [⟨8, 4, .rws, 0⟩, ⟨4, 4, .rws, 0⟩, ⟨0, 2, .rws, 0⟩]⟩,
  ⟨0x14100208, [], [⟨0, 32, .wo, 0⟩]⟩,
  ⟨0x1410020c, [], [⟨16, 8, .ro, 0⟩, ⟨8, 4, .ro, 0⟩, ⟨2, 1, .ro, 0⟩, ⟨1, 1, .w1c, 0⟩, ⟨0, 1, .w1c, 0⟩]⟩,
  ⟨0x14100210, [], [⟨0, 4, .ro, 0⟩]⟩,
  ⟨0x14100300, [], [⟨0, 32, .ro, 0⟩]⟩,
  ⟨0x14100304, [], [⟨0, 32, .ro, 0⟩]⟩,
  ⟨0x14100308, [], [⟨0, 32, .ro, 0⟩]⟩,
  ⟨0x1410030c, [], [⟨0, 32, .ro, 0⟩]⟩,
  ⟨0x14100310, [], [⟨0, 32, .ro, 0⟩]⟩,
  ⟨0x14100314, [], [⟨0, 32, .ro, 0⟩]⟩,
  ⟨0x14100318, [], [⟨0, 17, .ro, 0⟩]⟩,
  ⟨0x1410031c, [], [⟨0, 1, .wo, 0⟩]⟩,
  ⟨0x14100400, [], [⟨7, 1, .w1c, 0⟩, ⟨6, 1, .w1c, 0⟩, ⟨5, 1, .w1c, 0⟩, ⟨4, 1, .w1c, 0⟩, ⟨3, 1, .w1c, 0⟩, ⟨2, 1, .w1c, 0⟩, ⟨1, 1, .w1c, 0⟩, ⟨0, 1, .w1c, 0⟩]⟩]

/-- Register rows of block CLN, part 1 (R120). -/
def regRowsCLN1 : List RegRow := [
  ⟨0x14100404, [], [⟨0, 8, .rw, 0⟩]⟩,
  ⟨0x14180000, [(0x8, 1024)], [⟨24, 4, .ro, 0⟩, ⟨20, 4, .ro, 0⟩, ⟨18, 2, .ro, 0⟩, ⟨17, 1, .ro, 0⟩, ⟨16, 1, .ro, 0⟩, ⟨0, 12, .ro, 0⟩]⟩,
  ⟨0x14180004, [(0x8, 1024)], [⟨1, 1, .w1c, 0⟩, ⟨0, 1, .w1c, 0⟩]⟩]

/-- Register rows of block CHM (R137). -/
def regRowsCHM0 : List RegRow := [
  ⟨0x14200000, [], [⟨16, 10, .ro, 0⟩, ⟨12, 4, .ro, 0⟩, ⟨8, 4, .ro, 0⟩, ⟨0, 1, .ro, 0⟩]⟩,
  ⟨0x14200004, [], [⟨0, 20, .ro, 0⟩]⟩,
  ⟨0x14200008, [], [⟨0, 21, .ro, 0⟩]⟩,
  ⟨0x1420000c, [], [⟨0, 10, .ro, 0⟩]⟩,
  ⟨0x14200010, [], [⟨31, 1, .rw, 0⟩, ⟨30, 1, .rw, 0⟩, ⟨13, 9, .rw, 0⟩, ⟨0, 13, .rw, 0⟩]⟩,
  ⟨0x14200014, [], [⟨0, 32, .rw, 0⟩]⟩,
  ⟨0x14200020, [], [⟨31, 1, .wo, 0⟩, ⟨21, 10, .wo, 0⟩, ⟨12, 9, .wo, 0⟩, ⟨0, 11, .wo, 0⟩]⟩,
  ⟨0x14200024, [], [⟨31, 1, .wo, 0⟩, ⟨20, 11, .wo, 0⟩, ⟨8, 6, .wo, 0⟩, ⟨4, 4, .wo, 0⟩, ⟨0, 1, .wo, 0⟩]⟩,
  ⟨0x14200028, [], [⟨24, 8, .ro, 0⟩, ⟨20, 4, .ro, 0⟩, ⟨16, 4, .ro, 0⟩, ⟨8, 6, .ro, 0⟩, ⟨4, 4, .ro, 0⟩, ⟨0, 1, .ro, 0⟩]⟩,
  ⟨0x14200100, [], [⟨0, 32, .ro, 0⟩]⟩,
  ⟨0x14200104, [], [⟨0, 32, .ro, 0⟩]⟩,
  ⟨0x14200108, [], [⟨0, 32, .ro, 0⟩]⟩,
  ⟨0x1420010c, [], [⟨0, 32, .ro, 0⟩]⟩,
  ⟨0x14200110, [], [⟨0, 1, .wo, 0⟩]⟩,
  ⟨0x14200200, [], [⟨6, 1, .w1c, 0⟩, ⟨5, 1, .w1c, 0⟩, ⟨4, 1, .w1c, 0⟩, ⟨3, 1, .w1c, 0⟩, ⟨2, 1, .w1c, 0⟩, ⟨1, 1, .w1c, 0⟩, ⟨0, 1, .w1c, 0⟩]⟩,
  ⟨0x14200204, [], [⟨0, 7, .rw, 0⟩]⟩,
  ⟨0x14240000, [(0x8, 512)], [⟨31, 1, .ro, 0⟩, ⟨28, 1, .ro, 0⟩, ⟨27, 1, .ro, 0⟩, ⟨25, 2, .ro, 0⟩, ⟨0, 14, .ro, 0⟩]⟩,
  ⟨0x14240004, [(0x8, 512)], [⟨0, 1, .w1c, 0⟩]⟩]

/-- Register rows of block MALC (R173). -/
def regRowsMALC0 : List RegRow := [
  ⟨0x14a00000, [(0x400000, 4), (0x1000, 16)], [⟨0, 6, .ro, 0⟩]⟩,
  ⟨0x14a00004, [(0x400000, 4), (0x1000, 16)], [⟨30, 2, .ro, 0⟩, ⟨29, 1, .ro, 0x1⟩, ⟨28, 1, .ro, 0⟩, ⟨12, 12, .ro, 0⟩, ⟨0, 6, .ro, 0⟩]⟩,
  ⟨0x14a00008, [(0x400000, 4), (0x1000, 16)], [⟨0, 32, .ro, 0⟩]⟩,
  ⟨0x14a0000c, [(0x400000, 4), (0x1000, 16)], [⟨0, 32, .ro, 0⟩]⟩,
  ⟨0x14a00010, [(0x400000, 4), (0x1000, 16)], [⟨0, 16, .rw, 0⟩]⟩,
  ⟨0x14a00014, [(0x400000, 4), (0x1000, 16)], [⟨0, 32, .rw, 0⟩]⟩,
  ⟨0x14a00018, [(0x400000, 4), (0x1000, 16)], [⟨28, 4, .ro, 0⟩, ⟨0, 14, .ro, 0⟩]⟩,
  ⟨0x14a0001c, [(0x400000, 4), (0x1000, 16)], [⟨29, 3, .ro, 0⟩, ⟨0, 13, .ro, 0⟩]⟩,
  ⟨0x14a00020, [(0x400000, 4), (0x1000, 16)], [⟨0, 16, .w1c, 0⟩]⟩,
  ⟨0x14a00024, [(0x400000, 4), (0x1000, 16)], [⟨12, 4, .wo, 0⟩]⟩,
  ⟨0x14a00028, [(0x400000, 4), (0x1000, 16)], [⟨0, 16, .rw, 0⟩]⟩,
  ⟨0x14a0002c, [(0x400000, 4), (0x1000, 16)], [⟨0, 16, .rw, 0⟩]⟩,
  ⟨0x14a00030, [(0x400000, 4), (0x1000, 16)], [⟨0, 14, .rw, 0⟩]⟩,
  ⟨0x14a00034, [(0x400000, 4), (0x1000, 16)], [⟨0, 16, .rw, 0⟩]⟩,
  ⟨0x14a00038, [(0x400000, 4), (0x1000, 16)], [⟨0, 16, .wo, 0⟩]⟩,
  ⟨0x14a0003c, [(0x400000, 4), (0x1000, 16)], [⟨0, 32, .ro, 0⟩]⟩,
  ⟨0x14a00040, [(0x400000, 4), (0x1000, 16)], [⟨0, 32, .rw, 0⟩]⟩,
  ⟨0x14a00080, [(0x400000, 4), (0x1000, 16), (0x4, 16)], [⟨0, 14, .rw, 0⟩]⟩,
  ⟨0x14a000c0, [(0x400000, 4), (0x1000, 16), (0x10, 4)], [⟨0, 16, .rw, 0⟩]⟩,
  ⟨0x14a000c4, [(0x400000, 4), (0x1000, 16), (0x10, 4)], [⟨0, 32, .rw, 0⟩]⟩,
  ⟨0x14a000c8, [(0x400000, 4), (0x1000, 16), (0x10, 4)], [⟨31, 1, .wo, 0⟩, ⟨30, 1, .rw, 0⟩, ⟨29, 1, .rw, 0⟩, ⟨0, 16, .rw, 0⟩]⟩,
  ⟨0x14a000cc, [(0x400000, 4), (0x1000, 16), (0x10, 4)], [⟨31, 1, .ro, 0⟩, ⟨30, 1, .w1c, 0⟩, ⟨29, 1, .w1c, 0⟩, ⟨0, 17, .ro, 0⟩]⟩]

/-- Register rows of block MAL (R174). -/
def regRowsMAL0 : List RegRow := [
  ⟨0x14800000, [(0x400000, 4)], [⟨0, 16, .ro, 0⟩]⟩,
  ⟨0x14800004, [(0x400000, 4)], [⟨16, 2, .rw, 0⟩, ⟨0, 5, .rw, 0⟩]⟩,
  ⟨0x14800008, [(0x400000, 4)], [⟨0, 16, .wo, 0⟩]⟩,
  ⟨0x1480000c, [(0x400000, 4)], [⟨0, 16, .ro, 0⟩]⟩,
  ⟨0x14800010, [(0x400000, 4)], [⟨0, 32, .ro, 0⟩]⟩,
  ⟨0x14800014, [(0x400000, 4)], [⟨0, 32, .ro, 0⟩]⟩,
  ⟨0x14800018, [(0x400000, 4)], [⟨0, 32, .ro, 0⟩]⟩,
  ⟨0x1480001c, [(0x400000, 4)], [⟨0, 32, .ro, 0⟩]⟩,
  ⟨0x14800020, [(0x400000, 4)], [⟨0, 32, .ro, 0⟩]⟩,
  ⟨0x14800024, [(0x400000, 4)], [⟨0, 1, .wo, 0⟩]⟩,
  ⟨0x14800400, [(0x400000, 4)], [⟨5, 1, .w1c, 0⟩, ⟨4, 1, .w1c, 0⟩, ⟨3, 1, .w1c, 0⟩, ⟨2, 1, .w1c, 0⟩, ⟨1, 1, .w1c, 0⟩, ⟨0, 1, .w1c, 0⟩]⟩,
  ⟨0x14800404, [(0x400000, 4)], [⟨0, 6, .rw, 0⟩]⟩]

/-- Register rows of block DPL (R214). -/
def regRowsDPL0 : List RegRow := [
  ⟨0x14080000, [], [⟨16, 12, .ro, 0⟩, ⟨12, 4, .ro, 0⟩, ⟨0, 1, .ro, 0⟩]⟩,
  ⟨0x14080004, [], [⟨16, 16, .ro, 0⟩, ⟨0, 16, .ro, 0⟩]⟩,
  ⟨0x14080008, [], [⟨16, 16, .ro, 0⟩, ⟨0, 16, .ro, 0⟩]⟩,
  ⟨0x1408000c, [], [⟨0, 32, .ro, 0⟩]⟩,
  ⟨0x14080010, [], [⟨0, 11, .rw, 0⟩]⟩,
  ⟨0x14080014, [], [⟨29, 3, .rw, 0⟩, ⟨28, 1, .rw, 0⟩, ⟨0, 26, .rw, 0⟩]⟩,
  ⟨0x14080020, [], [⟨0, 32, .ro, 0⟩]⟩,
  ⟨0x14080024, [], [⟨0, 32, .ro, 0⟩]⟩,
  ⟨0x14080028, [], [⟨0, 28, .ro, 0⟩]⟩,
  ⟨0x1408002c, [], [⟨11, 1, .ro, 0⟩, ⟨0, 11, .ro, 0⟩]⟩,
  ⟨0x14080030, [], [⟨16, 16, .ro, 0⟩, ⟨0, 16, .ro, 0⟩]⟩,
  ⟨0x14080034, [], [⟨0, 32, .ro, 0⟩]⟩,
  ⟨0x14080038, [], [⟨0, 32, .ro, 0⟩]⟩,
  ⟨0x1408003c, [], [⟨0, 32, .ro, 0⟩]⟩,
  ⟨0x14080040, [], [⟨0, 32, .ro, 0⟩]⟩,
  ⟨0x14080044, [], [⟨0, 1, .wo, 0⟩]⟩,
  ⟨0x14080048, [], [⟨0, 16, .rw, 0x3c⟩]⟩,
  ⟨0x14080100, [], [⟨7, 1, .w1c, 0⟩, ⟨6, 1, .w1c, 0⟩, ⟨5, 1, .w1c, 0⟩, ⟨4, 1, .w1c, 0⟩, ⟨3, 1, .w1c, 0⟩, ⟨2, 1, .w1c, 0⟩, ⟨1, 1, .w1c, 0⟩, ⟨0, 1, .w1c, 0⟩]⟩,
  ⟨0x14080104, [], [⟨0, 8, .rw, 0⟩]⟩,
  ⟨0x14088000, [(0x10, 2048)], [⟨31, 1, .ro, 0⟩, ⟨29, 2, .ro, 0⟩, ⟨28, 1, .ro, 0⟩, ⟨27, 1, .w1c, 0⟩, ⟨24, 3, .ro, 0⟩, ⟨0, 16, .ro, 0⟩]⟩,
  ⟨0x14088004, [(0x10, 2048)], [⟨0, 26, .ro, 0⟩]⟩,
  ⟨0x14088008, [(0x10, 2048)], [⟨0, 26, .ro, 0⟩]⟩,
  ⟨0x1408800c, [(0x10, 2048)], [⟨0, 32, .ro, 0⟩]⟩]

/-- Register rows of block HIF (R244). -/
def regRowsHIF0 : List RegRow := [
  ⟨0x14010000, [], [⟨8, 1, .ro, 0⟩, ⟨4, 4, .ro, 0⟩, ⟨0, 4, .ro, 0⟩]⟩,
  ⟨0x14010004, [], [⟨0, 7, .rw, 0xa⟩]⟩,
  ⟨0x14010010, [], [⟨3, 1, .w1c, 0⟩, ⟨2, 1, .w1c, 0⟩, ⟨1, 1, .w1c, 0⟩, ⟨0, 1, .w1c, 0⟩]⟩,
  ⟨0x14010014, [], [⟨0, 32, .ro, 0⟩]⟩,
  ⟨0x14010018, [], [⟨0, 32, .ro, 0⟩]⟩,
  ⟨0x1401001c, [], [⟨0, 4, .rw, 0⟩]⟩,
  ⟨0x14010100, [(0x4, 8)], [⟨4, 28, .rw, 0⟩, ⟨0, 1, .rw, 0⟩]⟩]

/-- Register rows of block XB (R245). -/
def regRowsXB0 : List RegRow := [
  ⟨0x14020000, [], [⟨24, 1, .ro, 0⟩, ⟨0, 24, .ro, 0⟩]⟩,
  ⟨0x14020004, [], [⟨0, 24, .ro, 0⟩]⟩,
  ⟨0x14020008, [], [⟨16, 16, .wo, 0⟩, ⟨0, 5, .wo, 0⟩]⟩,
  ⟨0x1402000c, [], [⟨31, 1, .ro, 0⟩, ⟨0, 5, .ro, 0⟩]⟩,
  ⟨0x14020010, [], [⟨31, 1, .ro, 0⟩, ⟨24, 2, .ro, 0⟩, ⟨16, 4, .ro, 0⟩, ⟨0, 5, .ro, 0⟩]⟩,
  ⟨0x14020014, [], [⟨0, 32, .ro, 0⟩]⟩,
  ⟨0x14020018, [], [⟨0, 32, .ro, 0⟩]⟩,
  ⟨0x1402001c, [], [⟨16, 16, .ro, 0⟩, ⟨0, 16, .ro, 0⟩]⟩,
  ⟨0x14020020, [], [⟨0, 32, .ro, 0⟩]⟩,
  ⟨0x14020024, [], [⟨0, 32, .ro, 0⟩]⟩,
  ⟨0x14020028, [], [⟨0, 1, .wo, 0⟩]⟩,
  ⟨0x14020040, [(0x4, 24)], [⟨8, 6, .ro, 0⟩, ⟨0, 6, .ro, 0⟩]⟩,
  ⟨0x14020100, [], [⟨2, 1, .w1c, 0⟩, ⟨1, 1, .w1c, 0⟩, ⟨0, 1, .w1c, 0⟩]⟩,
  ⟨0x14020104, [], [⟨0, 3, .rw, 0⟩]⟩]

/-- Register rows of block RNG (R246). -/
def regRowsRNG0 : List RegRow := [
  ⟨0x14030000, [(0x20, 64)], [⟨6, 26, .rw, 0⟩, ⟨0, 4, .rw, 0x4⟩]⟩,
  ⟨0x14030004, [(0x20, 64)], [⟨31, 1, .rw, 0⟩, ⟨16, 8, .rw, 0⟩, ⟨8, 6, .rw, 0⟩, ⟨0, 1, .rw, 0⟩]⟩,
  ⟨0x14030008, [(0x20, 64)], [⟨0, 12, .rw, 0⟩]⟩,
  ⟨0x1403000c, [(0x20, 64)], [⟨0, 12, .rw, 0⟩]⟩,
  ⟨0x14030010, [(0x20, 64)], [⟨6, 26, .wo, 0⟩, ⟨5, 1, .wo, 0⟩, ⟨4, 1, .wo, 0⟩, ⟨0, 4, .wo, 0⟩]⟩,
  ⟨0x14030014, [(0x20, 64)], [⟨28, 4, .ro, 0⟩, ⟨5, 1, .w1c, 0⟩, ⟨4, 1, .w1c, 0⟩, ⟨3, 1, .w1c, 0⟩, ⟨2, 1, .w1c, 0⟩, ⟨1, 1, .w1c, 0⟩, ⟨0, 1, .w1c, 0⟩]⟩,
  ⟨0x14030018, [(0x20, 64)], [⟨0, 32, .ro, 0⟩]⟩,
  ⟨0x1403001c, [(0x20, 64)], [⟨0, 13, .ro, 0⟩]⟩,
  ⟨0x14031000, [], [⟨0, 32, .ro, 0⟩]⟩,
  ⟨0x14031004, [], [⟨0, 32, .ro, 0⟩]⟩,
  ⟨0x14031008, [], [⟨0, 32, .ro, 0⟩]⟩,
  ⟨0x1403100c, [], [⟨0, 1, .wo, 0⟩]⟩,
  ⟨0x14031010, [], [⟨2, 1, .w1c, 0⟩, ⟨1, 1, .w1c, 0⟩, ⟨0, 1, .w1c, 0⟩]⟩,
  ⟨0x14031014, [], [⟨0, 3, .rw, 0⟩]⟩]

/-- Register rows of block SYS (R247, R33, R406). -/
def regRowsSYS0 : List RegRow := [
  ⟨0x14000040, [], [⟨0, 16, .wo, 0⟩]⟩,
  ⟨0x14000044, [], [⟨0, 24, .w1c, 0⟩]⟩,
  ⟨0x14000048, [], [⟨0, 24, .rw, 0⟩]⟩,
  ⟨0x14000080, [(0x4, 24)], [⟨16, 3, .ro, 0⟩, ⟨0, 16, .ro, 0⟩]⟩,
  ⟨0x14000000, [], [⟨16, 5, .ro, 0⟩, ⟨4, 1, .ro, 0⟩, ⟨0, 3, .ro, 0⟩]⟩,
  ⟨0x14000004, [], [⟨16, 16, .wo, 0⟩]⟩,
  ⟨0x14000008, [], [⟨3, 1, .ro, 0⟩, ⟨2, 1, .ro, 0⟩, ⟨0, 2, .ro, 0⟩]⟩,
  ⟨0x1400000c, [], [⟨20, 4, .ro, 0x1⟩, ⟨16, 2, .ro, 0⟩, ⟨3, 1, .ro, 0⟩, ⟨2, 1, .ro, 0⟩, ⟨1, 1, .ro, 0⟩, ⟨0, 1, .ro, 0⟩]⟩,
  ⟨0x14000010, [], [⟨2, 1, .w1c, 0⟩, ⟨1, 1, .w1c, 0⟩, ⟨0, 1, .w1c, 0⟩]⟩,
  ⟨0x14000014, [], [⟨0, 3, .rw, 0⟩]⟩,
  ⟨0x14000100, [(0x4, 1)], [⟨16, 8, .ro, 0⟩, ⟨10, 2, .ro, 0x2⟩, ⟨8, 1, .ro, 0x1⟩, ⟨0, 1, .w1c, 0⟩]⟩,
  ⟨0x14000104, [(0x4, 25)], [⟨16, 8, .ro, 0⟩, ⟨10, 2, .ro, 0x3⟩, ⟨8, 1, .ro, 0⟩, ⟨0, 1, .w1c, 0⟩]⟩]

/-- Register rows of block PRT (R269). -/
def regRowsPRT0 : List RegRow := [
  ⟨0x14090000, [(0x100, 16)], [⟨31, 1, .ro, 0⟩, ⟨30, 1, .ro, 0⟩, ⟨28, 2, .ro, 0⟩, ⟨26, 2, .ro, 0⟩, ⟨24, 2, .ro, 0⟩, ⟨16, 6, .ro, 0⟩, ⟨8, 8, .ro, 0⟩, ⟨0, 8, .ro, 0⟩]⟩,
  ⟨0x14090004, [(0x100, 16)], [⟨0, 13, .ro, 0⟩]⟩,
  ⟨0x14090008, [(0x100, 16)], [⟨31, 1, .rw, 0⟩, ⟨30, 1, .rw, 0⟩, ⟨16, 7, .rw, 0x4⟩]⟩,
  ⟨0x1409000c, [(0x100, 16)], [⟨16, 16, .rw, 0⟩, ⟨0, 16, .rw, 0⟩]⟩,
  ⟨0x14090010, [(0x100, 16)], [⟨0, 32, .rw, 0⟩]⟩,
  ⟨0x14090014, [(0x100, 16)], [⟨0, 32, .ro, 0⟩]⟩,
  ⟨0x14090018, [(0x100, 16)], [⟨0, 32, .ro, 0⟩]⟩,
  ⟨0x1409001c, [(0x100, 16)], [⟨0, 32, .ro, 0⟩]⟩,
  ⟨0x14090020, [(0x100, 16)], [⟨8, 5, .ro, 0⟩, ⟨6, 2, .ro, 0⟩, ⟨0, 4, .ro, 0⟩]⟩,
  ⟨0x14090024, [(0x100, 16)], [⟨0, 32, .ro, 0⟩]⟩,
  ⟨0x14090028, [(0x100, 16)], [⟨16, 16, .ro, 0⟩, ⟨0, 16, .ro, 0⟩]⟩,
  ⟨0x1409002c, [(0x100, 16)], [⟨0, 32, .ro, 0⟩]⟩,
  ⟨0x14090030, [(0x100, 16)], [⟨0, 32, .ro, 0⟩]⟩,
  ⟨0x14090040, [(0x100, 16)], [⟨6, 1, .w1c, 0⟩, ⟨5, 1, .w1c, 0⟩, ⟨4, 1, .w1c, 0⟩, ⟨3, 1, .w1c, 0⟩, ⟨2, 1, .w1c, 0⟩, ⟨1, 1, .w1c, 0⟩, ⟨0, 1, .w1c, 0⟩]⟩,
  ⟨0x14090044, [(0x100, 16)], [⟨0, 7, .rw, 0⟩]⟩,
  ⟨0x14091000, [], [⟨0, 16, .ro, 0⟩]⟩,
  ⟨0x14091004, [], [⟨0, 16, .wo, 0⟩]⟩,
  ⟨0x14091008, [], [⟨0, 32, .ro, 0⟩]⟩]

/-- Register rows of block AES, part 0 (R270). -/
def regRowsAES0 : List RegRow := [
  ⟨0x140a0000, [(0x200, 8)], [⟨31, 1, .ro, 0⟩, ⟨29, 2, .ro, 0⟩, ⟨27, 2, .ro, 0⟩, ⟨26, 1, .ro, 0⟩, ⟨23, 1, .ro, 0⟩, ⟨21, 2, .ro, 0⟩, ⟨19, 2, .ro, 0⟩, ⟨16, 3, .ro, 0⟩]⟩,
  ⟨0x140a0004, [(0x200, 8)], [⟨16, 13, .ro, 0⟩, ⟨0, 13, .ro, 0⟩]⟩,
  ⟨0x140a0008, [(0x200, 8)], [⟨31, 1, .rw, 0x1⟩, ⟨30, 1, .rw, 0⟩, ⟨16, 7, .rw, 0x4⟩, ⟨15, 1, .rw, 0x1⟩, ⟨14, 1, .rw, 0⟩]⟩,
  ⟨0x140a000c, [(0x200, 8)], [⟨16, 16, .rw, 0⟩, ⟨0, 16, .rw, 0⟩]⟩,
  ⟨0x140a0010, [(0x200, 8)], [⟨8, 1, .ro, 0⟩, ⟨6, 2, .ro, 0⟩, ⟨0, 4, .ro, 0⟩]⟩,
  ⟨0x140a0014, [(0x200, 8)], [⟨0, 32, .ro, 0⟩]⟩,
  ⟨0x140a0018, [(0x200, 8)], [⟨16, 16, .ro, 0⟩, ⟨0, 16, .ro, 0⟩]⟩,
  ⟨0x140a001c, [(0x200, 8)], [⟨0, 32, .ro, 0⟩]⟩,
  ⟨0x140a0020, [(0x200, 8)], [⟨0, 32, .ro, 0⟩]⟩,
  ⟨0x140a0024, [(0x200, 8)], [⟨0, 32, .ro, 0⟩]⟩,
  ⟨0x140a0028, [(0x200, 8)], [⟨0, 32, .ro, 0⟩]⟩,
  ⟨0x140a002c, [(0x200, 8)], [⟨0, 32, .ro, 0⟩]⟩,
  ⟨0x140a0030, [(0x200, 8)], [⟨0, 4, .ro, 0⟩]⟩,
  ⟨0x140a0040, [(0x200, 8)], [⟨8, 2, .rws, 0⟩, ⟨6, 2, .rws, 0⟩, ⟨4, 2, .rws, 0⟩, ⟨3, 1, .rws, 0x1⟩, ⟨0, 3, .rws, 0⟩]⟩,
  ⟨0x140a0044, [(0x200, 8)], [⟨0, 32, .wo, 0⟩]⟩,
  ⟨0x140a0048, [(0x200, 8)], [⟨16, 8, .ro, 0⟩, ⟨8, 4, .ro, 0⟩, ⟨2, 1, .ro, 0⟩, ⟨1, 1, .w1c, 0⟩, ⟨0, 1, .w1c, 0⟩]⟩,
  ⟨0x140a004c, [(0x200, 8)], [⟨0, 4, .ro, 0⟩]⟩,
  ⟨0x140a0080, [(0x200, 8), (0x4, 12)], [⟨0, 32, .rws, 0⟩]⟩,
  ⟨0x140a00c0, [(0x200, 8), (0x4, 12)], [⟨0, 32, .rws, 0⟩]⟩,
  ⟨0x140a0100, [(0x200, 8), (0x4, 12)], [⟨0, 32, .ro, 0⟩]⟩,
  ⟨0x140a0140, [(0x200, 8), (0x4, 12)], [⟨0, 32, .ro, 0⟩]⟩,
  ⟨0x140a0180, [(0x200, 8)], [⟨7, 1, .w1c, 0⟩, ⟨6, 1, .w1c, 0⟩, ⟨5, 1, .w1c, 0⟩, ⟨4, 1, .w1c, 0⟩, ⟨3, 1, .w1c, 0⟩, ⟨2, 1, .w1c, 0⟩, ⟨1, 1, .w1c, 0⟩, ⟨0, 1, .w1c, 0⟩]⟩,
  ⟨0x140a0184, [(0x200, 8)], [⟨0, 8, .rw, 0⟩]⟩,
  ⟨0x140a1000, [], [⟨0, 8, .ro, 0⟩]⟩]

/-- Register rows of block AES, part 1 (R270). -/
def regRowsAES1 : List RegRow := [
  ⟨0x140a1004, [], [⟨0, 8, .wo, 0⟩]⟩]

/-- Register rows of block NET, part 0 (R295). -/
def regRowsNET0 : List RegRow := [
  ⟨0x140b0000, [(0x400, 4)], [⟨31, 1, .rws, 0⟩, ⟨24, 2, .rws, 0x1⟩, ⟨20, 2, .rws, 0x2⟩, ⟨9, 1, .rws, 0⟩, ⟨8, 1, .rws, 0x1⟩, ⟨0, 1, .rws, 0⟩]⟩,
  ⟨0x140b0004, [(0x400, 4)], [⟨0, 32, .rws, 0⟩]⟩,
  ⟨0x140b0008, [(0x400, 4)], [⟨0, 16, .rws, 0⟩]⟩,
  ⟨0x140b000c, [(0x400, 4)], [⟨0, 32, .rws, 0⟩]⟩,
  ⟨0x140b0010, [(0x400, 4)], [⟨0, 32, .wo, 0⟩]⟩,
  ⟨0x140b0014, [(0x400, 4)], [⟨16, 8, .ro, 0⟩, ⟨8, 4, .ro, 0⟩, ⟨2, 1, .ro, 0⟩, ⟨1, 1, .w1c, 0⟩, ⟨0, 1, .w1c, 0⟩]⟩,
  ⟨0x140b0018, [(0x400, 4)], [⟨0, 4, .ro, 0⟩]⟩,
  ⟨0x140b0020, [(0x400, 4)], [⟨8, 1, .ro, 0⟩, ⟨4, 2, .ro, 0⟩, ⟨1, 1, .ro, 0⟩, ⟨0, 1, .ro, 0⟩]⟩,
  ⟨0x140b0024, [(0x400, 4)], [⟨16, 16, .rw, 0⟩, ⟨0, 16, .rw, 0⟩]⟩,
  ⟨0x140b0028, [(0x400, 4)], [⟨17, 15, .rw, 0⟩, ⟨0, 1, .rw, 0⟩]⟩,
  ⟨0x140b002c, [(0x400, 4)], [⟨0, 7, .wo, 0⟩]⟩,
  ⟨0x140b0030, [(0x400, 4)], [⟨0, 7, .ro, 0x40⟩]⟩,
  ⟨0x140b0040, [(0x400, 4)], [⟨0, 32, .ro, 0⟩]⟩,
  ⟨0x140b0044, [(0x400, 4)], [⟨0, 32, .ro, 0⟩]⟩,
  ⟨0x140b0048, [(0x400, 4)], [⟨0, 32, .ro, 0⟩]⟩,
  ⟨0x140b004c, [(0x400, 4)], [⟨0, 32, .ro, 0⟩]⟩,
  ⟨0x140b0050, [(0x400, 4)], [⟨0, 32, .ro, 0⟩]⟩,
  ⟨0x140b0054, [(0x400, 4)], [⟨0, 32, .ro, 0⟩]⟩,
  ⟨0x140b0080, [(0x400, 4)], [⟨4, 1, .w1c, 0⟩, ⟨3, 1, .w1c, 0⟩, ⟨2, 1, .w1c, 0⟩, ⟨1, 1, .w1c, 0⟩, ⟨0, 1, .w1c, 0⟩]⟩,
  ⟨0x140b0084, [(0x400, 4)], [⟨0, 5, .rw, 0⟩]⟩,
  ⟨0x140b1000, [], [⟨0, 6, .rw, 0⟩]⟩,
  ⟨0x140b1004, [], [⟨0, 32, .ro, 0⟩]⟩,
  ⟨0x140b1008, [], [⟨4, 1, .wo, 0⟩, ⟨0, 4, .wo, 0⟩]⟩,
  ⟨0x140b8000, [(0x20, 256)], [⟨31, 1, .ro, 0⟩, ⟨29, 2, .ro, 0⟩, ⟨28, 1, .ro, 0⟩, ⟨27, 1, .ro, 0⟩, ⟨0, 7, .ro, 0⟩]⟩]

/-- Register rows of block NET, part 1 (R295). -/
def regRowsNET1 : List RegRow := [
  ⟨0x140b8004, [(0x20, 256)], [⟨0, 32, .ro, 0⟩]⟩,
  ⟨0x140b8008, [(0x20, 256)], [⟨0, 32, .ro, 0⟩]⟩,
  ⟨0x140b800c, [(0x20, 256)], [⟨0, 32, .ro, 0⟩]⟩,
  ⟨0x140b8010, [(0x20, 256)], [⟨0, 32, .ro, 0⟩]⟩,
  ⟨0x140b8014, [(0x20, 256)], [⟨0, 32, .ro, 0⟩]⟩,
  ⟨0x140b8018, [(0x20, 256)], [⟨16, 16, .ro, 0⟩, ⟨0, 16, .ro, 0⟩]⟩,
  ⟨0x140b801c, [(0x20, 256)], [⟨0, 32, .ro, 0x7fffffff⟩]⟩,
  ⟨0x140ba000, [(0x10, 256)], [⟨31, 1, .ro, 0⟩, ⟨29, 2, .ro, 0⟩, ⟨28, 1, .ro, 0⟩, ⟨27, 1, .ro, 0⟩, ⟨0, 7, .ro, 0⟩]⟩,
  ⟨0x140ba004, [(0x10, 256)], [⟨0, 32, .ro, 0⟩]⟩,
  ⟨0x140ba008, [(0x10, 256)], [⟨0, 32, .ro, 0⟩]⟩,
  ⟨0x140ba00c, [(0x10, 256)], [⟨0, 16, .ro, 0⟩]⟩]

/-- Register rows of block TU, part 0 (R296). -/
def regRowsTU0 : List RegRow := [
  ⟨0x140c0000, [], [⟨0, 1, .rw, 0⟩]⟩,
  ⟨0x140c0100, [(0x100, 2)], [⟨31, 1, .rw, 0⟩, ⟨30, 1, .rw, 0⟩, ⟨29, 1, .rw, 0x1⟩, ⟨24, 2, .rw, 0⟩, ⟨16, 8, .rw, 0⟩, ⟨8, 4, .rw, 0⟩]⟩,
  ⟨0x140c0104, [(0x100, 2), (0x4, 3)], [⟨0, 32, .rw, 0⟩]⟩,
  ⟨0x140c0110, [(0x100, 2), (0x4, 3)], [⟨0, 32, .rw, 0⟩]⟩,
  ⟨0x140c0120, [(0x100, 2)], [⟨16, 16, .rw, 0xb333⟩, ⟨0, 16, .rw, 0x4ccd⟩]⟩,
  ⟨0x140c0124, [(0x100, 2)], [⟨16, 16, .rw, 0x64⟩, ⟨0, 16, .rw, 0x64⟩]⟩,
  ⟨0x140c0128, [(0x100, 2)], [⟨0, 3, .ro, 0⟩]⟩,
  ⟨0x140c012c, [(0x100, 2)], [⟨0, 32, .ro, 0⟩]⟩,
  ⟨0x140c0130, [(0x100, 2)], [⟨0, 32, .ro, 0⟩]⟩,
  ⟨0x140c0134, [(0x100, 2)], [⟨0, 32, .ro, 0⟩]⟩,
  ⟨0x140c0138, [(0x100, 2)], [⟨0, 32, .ro, 0⟩]⟩,
  ⟨0x140c0140, [(0x100, 2)], [⟨0, 1, .wo, 0⟩]⟩,
  ⟨0x140c0144, [(0x100, 2)], [⟨0, 16, .ro, 0⟩]⟩,
  ⟨0x140c0148, [(0x100, 2)], [⟨0, 32, .ro, 0⟩]⟩,
  ⟨0x140c014c, [(0x100, 2)], [⟨0, 32, .ro, 0⟩]⟩,
  ⟨0x140c0400, [(0x20, 8)], [⟨31, 1, .rws, 0⟩, ⟨30, 1, .rws, 0⟩, ⟨29, 1, .rws, 0⟩]⟩,
  ⟨0x140c0404, [(0x20, 8)], [⟨0, 32, .rws, 0⟩]⟩,
  ⟨0x140c0408, [(0x20, 8)], [⟨0, 16, .rws, 0⟩]⟩,
  ⟨0x140c040c, [(0x20, 8)], [⟨0, 30, .rws, 0⟩]⟩,
  ⟨0x140c0410, [(0x20, 8)], [⟨0, 32, .rws, 0⟩]⟩,
  ⟨0x140c0414, [(0x20, 8)], [⟨0, 32, .rws, 0⟩]⟩,
  ⟨0x140c0418, [(0x20, 8)], [⟨0, 32, .wo, 0⟩]⟩,
  ⟨0x140c041c, [(0x20, 8)], [⟨16, 8, .ro, 0⟩, ⟨8, 4, .ro, 0⟩, ⟨2, 1, .ro, 0⟩, ⟨1, 1, .w1c, 0⟩, ⟨0, 1, .w1c, 0⟩]⟩,
  ⟨0x140c0500, [], [⟨0, 32, .ro, 0⟩]⟩]

/-- Register rows of block TU, part 1 (R296). -/
def regRowsTU1 : List RegRow := [
  ⟨0x140c0600, [(0x20, 4)], [⟨31, 1, .rw, 0⟩, ⟨29, 1, .rw, 0⟩, ⟨0, 2, .rw, 0x1⟩]⟩,
  ⟨0x140c0604, [(0x20, 4)], [⟨31, 1, .ro, 0⟩, ⟨16, 5, .ro, 0⟩, ⟨0, 16, .ro, 0⟩]⟩,
  ⟨0x140c0608, [(0x20, 4)], [⟨0, 32, .ro, 0⟩]⟩,
  ⟨0x140c060c, [(0x20, 4)], [⟨0, 32, .ro, 0⟩]⟩,
  ⟨0x140c0610, [(0x20, 4)], [⟨0, 32, .ro, 0⟩]⟩,
  ⟨0x140c0800, [], [⟨12, 4, .w1c, 0⟩, ⟨8, 4, .w1c, 0⟩, ⟨6, 1, .w1c, 0⟩, ⟨5, 1, .w1c, 0⟩, ⟨4, 1, .w1c, 0⟩, ⟨3, 1, .w1c, 0⟩, ⟨2, 1, .w1c, 0⟩, ⟨1, 1, .w1c, 0⟩, ⟨0, 1, .w1c, 0⟩]⟩,
  ⟨0x140c0804, [], [⟨0, 16, .rw, 0⟩]⟩]

/-- Register rows of block CLV, part 0 (R319). -/
def regRowsCLV0 : List RegRow := [
  ⟨0x140d0000, [], [⟨29, 3, .ro, 0⟩, ⟨24, 5, .ro, 0x1f⟩, ⟨9, 1, .ro, 0⟩, ⟨8, 1, .ro, 0⟩, ⟨5, 1, .ro, 0⟩, ⟨4, 1, .ro, 0⟩, ⟨0, 2, .ro, 0⟩]⟩,
  ⟨0x140d0004, [], [⟨6, 2, .rw, 0⟩, ⟨5, 1, .rw, 0⟩, ⟨4, 1, .rw, 0⟩, ⟨0, 4, .rw, 0⟩]⟩,
  ⟨0x140d0008, [], [⟨0, 14, .rw, 0⟩]⟩,
  ⟨0x140d000c, [], [⟨0, 32, .ro, 0⟩]⟩,
  ⟨0x140d0010, [], [⟨0, 32, .ro, 0⟩]⟩,
  ⟨0x140d0014, [], [⟨0, 32, .ro, 0⟩]⟩,
  ⟨0x140d0018, [], [⟨0, 32, .ro, 0⟩]⟩,
  ⟨0x140d001c, [], [⟨16, 16, .ro, 0⟩, ⟨0, 16, .ro, 0⟩]⟩,
  ⟨0x140d0020, [], [⟨0, 32, .ro, 0⟩]⟩,
  ⟨0x140d0024, [], [⟨0, 32, .rw, 0⟩]⟩,
  ⟨0x140d0028, [], [⟨0, 32, .rw, 0⟩]⟩,
  ⟨0x140d002c, [], [⟨0, 32, .rw, 0⟩]⟩,
  ⟨0x140d0030, [], [⟨0, 32, .ro, 0⟩]⟩,
  ⟨0x140d0040, [], [⟨7, 1, .w1c, 0⟩, ⟨6, 1, .w1c, 0⟩, ⟨5, 1, .w1c, 0⟩, ⟨4, 1, .w1c, 0⟩, ⟨3, 1, .w1c, 0⟩, ⟨2, 1, .w1c, 0⟩, ⟨1, 1, .w1c, 0⟩, ⟨0, 1, .w1c, 0⟩]⟩,
  ⟨0x140d0044, [], [⟨0, 8, .rw, 0⟩]⟩,
  ⟨0x140d0100, [(0x20, 16)], [⟨28, 4, .ro, 0⟩, ⟨24, 4, .ro, 0⟩, ⟨22, 2, .ro, 0⟩, ⟨21, 1, .ro, 0⟩]⟩,
  ⟨0x140d0104, [(0x20, 16)], [⟨31, 1, .rw, 0⟩, ⟨24, 4, .rw, 0⟩, ⟨0, 12, .rw, 0⟩]⟩,
  ⟨0x140d0108, [(0x20, 16)], [⟨16, 16, .ro, 0⟩, ⟨0, 16, .ro, 0⟩]⟩,
  ⟨0x140d010c, [(0x20, 16)], [⟨29, 3, .ro, 0⟩, ⟨28, 1, .ro, 0⟩, ⟨0, 12, .ro, 0⟩]⟩,
  ⟨0x140d0110, [(0x20, 16)], [⟨0, 32, .ro, 0⟩]⟩,
  ⟨0x140d0114, [(0x20, 16)], [⟨0, 32, .ro, 0⟩]⟩,
  ⟨0x140d0118, [(0x20, 16)], [⟨7, 1, .w1c, 0⟩, ⟨6, 1, .w1c, 0⟩, ⟨5, 1, .w1c, 0⟩, ⟨4, 1, .w1c, 0⟩, ⟨3, 1, .w1c, 0⟩, ⟨2, 1, .w1c, 0⟩, ⟨1, 1, .w1c, 0⟩, ⟨0, 1, .w1c, 0⟩]⟩,
  ⟨0x140d011c, [(0x20, 16)], [⟨0, 32, .ro, 0⟩]⟩,
  ⟨0x140d0400, [(0x20, 4)], [⟨31, 1, .rws, 0⟩, ⟨30, 1, .rws, 0⟩, ⟨28, 2, .rws, 0⟩, ⟨26, 2, .rws, 0⟩, ⟨25, 1, .rws, 0⟩, ⟨0, 16, .rws, 0⟩]⟩]

/-- Register rows of block CLV, part 1 (R319). -/
def regRowsCLV1 : List RegRow := [
  ⟨0x140d0404, [(0x20, 4)], [⟨0, 32, .rws, 0⟩]⟩,
  ⟨0x140d0408, [(0x20, 4)], [⟨0, 32, .wo, 0⟩]⟩,
  ⟨0x140d040c, [(0x20, 4)], [⟨16, 8, .ro, 0⟩, ⟨8, 4, .ro, 0⟩, ⟨2, 1, .ro, 0⟩, ⟨1, 1, .w1c, 0⟩, ⟨0, 1, .w1c, 0⟩]⟩,
  ⟨0x140d0410, [(0x20, 4)], [⟨0, 2, .ro, 0⟩]⟩,
  ⟨0x140d0414, [(0x20, 4)], [⟨0, 32, .ro, 0⟩]⟩,
  ⟨0x140d0500, [], [⟨0, 16, .ro, 0⟩]⟩]

/-- Register rows of block PLL (R320). -/
def regRowsPLL0 : List RegRow := [
  ⟨0x140e0000, [(0x100, 4)], [⟨31, 1, .ro, 0⟩, ⟨30, 1, .ro, 0⟩, ⟨29, 1, .ro, 0⟩, ⟨28, 1, .ro, 0⟩, ⟨16, 6, .ro, 0⟩]⟩,
  ⟨0x140e0004, [(0x100, 4)], [⟨0, 32, .ro, 0⟩]⟩,
  ⟨0x140e0008, [(0x100, 4)], [⟨0, 32, .ro, 0⟩]⟩,
  ⟨0x140e000c, [(0x100, 4)], [⟨0, 32, .ro, 0⟩]⟩,
  ⟨0x140e0010, [(0x100, 4)], [⟨0, 8, .ro, 0⟩]⟩,
  ⟨0x140e0120, [(0x100, 2)], [⟨31, 1, .rws, 0⟩, ⟨0, 13, .rws, 0⟩]⟩,
  ⟨0x140e0124, [(0x100, 2)], [⟨0, 32, .wo, 0⟩]⟩,
  ⟨0x140e0128, [(0x100, 2)], [⟨16, 8, .ro, 0⟩, ⟨8, 4, .ro, 0⟩, ⟨2, 1, .ro, 0⟩, ⟨1, 1, .w1c, 0⟩, ⟨0, 1, .w1c, 0⟩]⟩,
  ⟨0x140e012c, [(0x100, 2)], [⟨0, 4, .ro, 0⟩]⟩,
  ⟨0x140e0130, [(0x100, 2)], [⟨31, 1, .wo, 0⟩, ⟨0, 8, .wo, 0⟩]⟩,
  ⟨0x140e0800, [], [⟨8, 4, .w1c, 0⟩, ⟨4, 4, .w1c, 0⟩, ⟨0, 4, .w1c, 0⟩]⟩,
  ⟨0x140e0804, [], [⟨0, 12, .rw, 0⟩]⟩]

/-- Register rows of block BEAT, part 0 (R339). -/
def regRowsBEAT0 : List RegRow := [
  ⟨0x14300000, [], [⟨0, 32, .ro, 0⟩]⟩,
  ⟨0x14300004, [], [⟨16, 8, .ro, 0⟩, ⟨0, 14, .ro, 0⟩]⟩,
  ⟨0x14300008, [], [⟨0, 32, .ro, 0⟩]⟩,
  ⟨0x1430000c, [], [⟨0, 32, .ro, 0⟩]⟩,
  ⟨0x14300010, [], [⟨0, 1, .wo, 0⟩]⟩,
  ⟨0x14300100, [], [⟨6, 1, .w1c, 0⟩, ⟨5, 1, .w1c, 0⟩, ⟨4, 1, .w1c, 0⟩, ⟨3, 1, .w1c, 0⟩, ⟨2, 1, .w1c, 0⟩, ⟨1, 1, .w1c, 0⟩, ⟨0, 1, .w1c, 0⟩]⟩,
  ⟨0x14300104, [], [⟨0, 7, .rw, 0⟩]⟩,
  ⟨0x14301000, [(0x40, 32)], [⟨31, 1, .rw, 0⟩, ⟨30, 1, .rw, 0⟩, ⟨16, 10, .rw, 0⟩, ⟨0, 8, .rw, 0⟩]⟩,
  ⟨0x14301004, [(0x40, 32)], [⟨28, 4, .ro, 0⟩, ⟨24, 4, .ro, 0⟩, ⟨20, 4, .ro, 0⟩, ⟨19, 1, .ro, 0⟩, ⟨18, 1, .ro, 0x1⟩, ⟨17, 1, .ro, 0x1⟩, ⟨16, 1, .ro, 0⟩]⟩,
  ⟨0x14301008, [(0x40, 32)], [⟨16, 16, .ro, 0⟩, ⟨8, 5, .ro, 0⟩, ⟨0, 8, .ro, 0⟩]⟩,
  ⟨0x1430100c, [(0x40, 32)], [⟨16, 16, .ro, 0⟩, ⟨0, 16, .ro, 0⟩]⟩,
  ⟨0x14301010, [(0x40, 32)], [⟨28, 4, .ro, 0⟩, ⟨0, 16, .ro, 0⟩]⟩,
  ⟨0x14301014, [(0x40, 32)], [⟨0, 32, .ro, 0⟩]⟩,
  ⟨0x14301018, [(0x40, 32)], [⟨0, 32, .ro, 0⟩]⟩,
  ⟨0x1430101c, [(0x40, 32)], [⟨0, 32, .ro, 0⟩]⟩,
  ⟨0x14301020, [(0x40, 32)], [⟨0, 16, .ro, 0⟩]⟩,
  ⟨0x14301024, [(0x40, 32)], [⟨0, 24, .ro, 0⟩]⟩,
  ⟨0x14303000, [(0x20, 8)], [⟨16, 16, .ro, 0⟩, ⟨0, 16, .ro, 0⟩]⟩,
  ⟨0x14303004, [(0x20, 8)], [⟨16, 16, .ro, 0⟩, ⟨0, 16, .ro, 0⟩]⟩,
  ⟨0x14303008, [(0x20, 8)], [⟨16, 16, .ro, 0⟩, ⟨0, 16, .ro, 0⟩]⟩,
  ⟨0x1430300c, [(0x20, 8)], [⟨28, 4, .ro, 0⟩]⟩,
  ⟨0x14303010, [(0x20, 8)], [⟨16, 16, .ro, 0⟩, ⟨0, 16, .ro, 0⟩]⟩,
  ⟨0x14303014, [(0x20, 8)], [⟨16, 16, .ro, 0⟩, ⟨0, 16, .ro, 0⟩]⟩,
  ⟨0x14303018, [(0x20, 8)], [⟨0, 32, .ro, 0⟩]⟩]

/-- Register rows of block BEAT, part 1 (R339). -/
def regRowsBEAT1 : List RegRow := [
  ⟨0x1430301c, [(0x20, 8)], [⟨0, 32, .ro, 0⟩]⟩]

/-- Register rows of block FLM, part 0 (R361). -/
def regRowsFLM0 : List RegRow := [
  ⟨0x14400000, [], [⟨31, 1, .ro, 0⟩, ⟨30, 1, .ro, 0⟩, ⟨16, 7, .ro, 0⟩, ⟨0, 16, .ro, 0⟩]⟩,
  ⟨0x14400004, [], [⟨28, 4, .ro, 0⟩, ⟨24, 4, .ro, 0⟩, ⟨23, 1, .ro, 0⟩, ⟨22, 1, .ro, 0x1⟩, ⟨21, 1, .ro, 0x1⟩, ⟨16, 1, .ro, 0⟩, ⟨0, 16, .ro, 0⟩]⟩,
  ⟨0x14400008, [], [⟨31, 1, .rw, 0x1⟩, ⟨30, 1, .rw, 0x1⟩, ⟨0, 12, .rw, 0x3c⟩]⟩,
  ⟨0x1440000c, [], [⟨0, 12, .ro, 0⟩]⟩,
  ⟨0x14400010, [], [⟨0, 32, .ro, 0⟩]⟩,
  ⟨0x14400014, [], [⟨0, 32, .ro, 0⟩]⟩,
  ⟨0x14400018, [], [⟨0, 32, .ro, 0⟩]⟩,
  ⟨0x1440001c, [], [⟨0, 32, .ro, 0⟩]⟩,
  ⟨0x14400020, [(0x4, 4)], [⟨0, 32, .ro, 0⟩]⟩,
  ⟨0x14400030, [], [⟨0, 32, .ro, 0⟩]⟩,
  ⟨0x14400034, [], [⟨0, 16, .ro, 0⟩]⟩,
  ⟨0x14400038, [], [⟨0, 32, .ro, 0⟩]⟩,
  ⟨0x1440003c, [], [⟨1, 1, .ro, 0⟩, ⟨0, 1, .ro, 0⟩]⟩,
  ⟨0x14400040, [], [⟨0, 32, .ro, 0⟩]⟩,
  ⟨0x14400044, [], [⟨16, 4, .ro, 0⟩, ⟨0, 16, .ro, 0⟩]⟩,
  ⟨0x14400048, [], [⟨0, 4, .ro, 0⟩]⟩,
  ⟨0x14400050, [], [⟨28, 4, .ro, 0⟩, ⟨24, 4, .ro, 0⟩, ⟨0, 15, .ro, 0⟩]⟩,
  ⟨0x14400054, [], [⟨0, 32, .ro, 0⟩]⟩,
  ⟨0x14400058, [], [⟨0, 32, .ro, 0⟩]⟩,
  ⟨0x1440005c, [], [⟨0, 32, .ro, 0⟩]⟩,
  ⟨0x14400060, [], [⟨0, 32, .ro, 0⟩]⟩,
  ⟨0x14400064, [], [⟨0, 32, .ro, 0⟩]⟩,
  ⟨0x14400068, [], [⟨0, 1, .wo, 0⟩]⟩,
  ⟨0x14400070, [], [⟨16, 16, .wo, 0⟩]⟩]

/-- Register rows of block FLM, part 1 (R361). -/
def regRowsFLM1 : List RegRow := [
  ⟨0x14400074, [], [⟨16, 16, .wo, 0⟩]⟩,
  ⟨0x14400078, [], [⟨0, 16, .wo, 0⟩]⟩,
  ⟨0x1440007c, [], [⟨0, 4, .ro, 0⟩]⟩,
  ⟨0x14400080, [], [⟨0, 32, .ro, 0⟩]⟩,
  ⟨0x14400084, [], [⟨0, 32, .ro, 0⟩]⟩,
  ⟨0x14400100, [], [⟨9, 1, .w1c, 0⟩, ⟨8, 1, .w1c, 0⟩, ⟨7, 1, .w1c, 0⟩, ⟨6, 1, .w1c, 0⟩, ⟨5, 1, .w1c, 0⟩, ⟨4, 1, .w1c, 0⟩, ⟨3, 1, .w1c, 0⟩, ⟨2, 1, .w1c, 0⟩, ⟨1, 1, .w1c, 0⟩, ⟨0, 1, .w1c, 0⟩]⟩,
  ⟨0x14400104, [], [⟨0, 10, .rw, 0⟩]⟩]

/-- Register rows of block SMP (R386). -/
def regRowsSMP0 : List RegRow := [
  ⟨0x15f20000, [], [⟨24, 8, .ro, 0x1⟩, ⟨2, 1, .w1c, 0⟩, ⟨1, 1, .ro, 0⟩, ⟨0, 1, .ro, 0⟩]⟩,
  ⟨0x15f20004, [], [⟨0, 8, .w1c, 0⟩]⟩,
  ⟨0x15f20008, [], [⟨0, 8, .rw, 0xf⟩]⟩,
  ⟨0x15f2000c, [], [⟨0, 32, .ro, 0⟩]⟩,
  ⟨0x15f20100, [(0x4, 16)], [⟨0, 32, .ro, 0⟩]⟩,
  ⟨0x15f20200, [(0x4, 65)], [⟨0, 32, .rw, 0⟩]⟩,
  ⟨0x15f20380, [], [⟨0, 1, .wo, 0⟩]⟩,
  ⟨0x15f20400, [(0x4, 65)], [⟨0, 32, .ro, 0⟩]⟩]

/-- Register rows of block EVT (R387). -/
def regRowsEVT0 : List RegRow := [
  ⟨0x15f10000, [], [⟨0, 6, .rw, 0xf⟩]⟩,
  ⟨0x15f10004, [], [⟨0, 1, .wo, 0⟩]⟩,
  ⟨0x15f10008, [], [⟨31, 1, .ro, 0x1⟩, ⟨30, 1, .ro, 0⟩, ⟨29, 1, .ro, 0⟩, ⟨28, 1, .w1c, 0⟩, ⟨27, 1, .w1c, 0⟩, ⟨20, 4, .ro, 0⟩]⟩,
  ⟨0x15f1000c, [], [⟨0, 32, .ro, 0⟩]⟩,
  ⟨0x15f10010, [], [⟨0, 32, .ro, 0⟩]⟩,
  ⟨0x15f10014, [], [⟨0, 32, .ro, 0⟩]⟩,
  ⟨0x15f10018, [], [⟨0, 32, .ro, 0⟩]⟩,
  ⟨0x15f1001c, [], [⟨0, 32, .ro, 0⟩]⟩,
  ⟨0x15f10020, [], [⟨0, 32, .ro, 0⟩]⟩,
  ⟨0x15f10030, [], [⟨28, 1, .rw, 0⟩, ⟨2, 11, .rw, 0⟩]⟩,
  ⟨0x15f10034, [], [⟨0, 32, .ro, 0⟩]⟩,
  ⟨0x15f10100, [], [⟨2, 1, .w1c, 0⟩, ⟨1, 1, .w1c, 0⟩, ⟨0, 1, .w1c, 0⟩]⟩,
  ⟨0x15f10104, [], [⟨0, 3, .rw, 0⟩]⟩]

/-- Register rows of block TAP (R388). -/
def regRowsTAP0 : List RegRow := [
  ⟨0x140f0000, [], [⟨0, 16, .ro, 0⟩]⟩,
  ⟨0x140f0004, [], [⟨16, 16, .w1c, 0⟩, ⟨0, 16, .w1c, 0⟩]⟩,
  ⟨0x140f0008, [], [⟨0, 16, .rw, 0⟩]⟩,
  ⟨0x140f000c, [], [⟨0, 16, .rw, 0⟩]⟩,
  ⟨0x140f0010, [], [⟨8, 8, .rw, 0x32⟩, ⟨0, 8, .rw, 0xa⟩]⟩,
  ⟨0x140f0014, [(0x4, 3)], [⟨0, 32, .ro, 0⟩]⟩,
  ⟨0x140f0020, [], [⟨0, 32, .ro, 0⟩]⟩,
  ⟨0x140f0024, [], [⟨0, 32, .rw, 0⟩]⟩,
  ⟨0x140f0028, [], [⟨0, 32, .w1c, 0⟩]⟩,
  ⟨0x140f0040, [(0x4, 4)], [⟨16, 16, .ro, 0⟩, ⟨0, 16, .ro, 0⟩]⟩,
  ⟨0x140f0060, [(0x4, 8)], [⟨30, 2, .rw, 0⟩, ⟨16, 5, .rw, 0⟩, ⟨0, 8, .rw, 0⟩]⟩,
  ⟨0x140f0100, [], [⟨3, 1, .w1c, 0⟩, ⟨2, 1, .w1c, 0⟩, ⟨1, 1, .w1c, 0⟩, ⟨0, 1, .w1c, 0⟩]⟩,
  ⟨0x140f0104, [], [⟨0, 4, .rw, 0⟩]⟩]

/-- Register rows of block ID (R389). -/
def regRowsID0 : List RegRow := [
  ⟨0x15f80000, [(0x4, 4)], [⟨0, 32, .ro, 0⟩]⟩,
  ⟨0x15f80010, [], [⟨16, 16, .ro, 0x1024⟩, ⟨0, 8, .ro, 0xb1⟩]⟩,
  ⟨0x15f80020, [(0x4, 17)], [⟨0, 32, .ro, 0⟩]⟩,
  ⟨0x15f80080, [(0x4, 16)], [⟨0, 32, .ro, 0⟩]⟩,
  ⟨0x15f80100, [(0x4, 4)], [⟨0, 32, .rw, 0⟩]⟩,
  ⟨0x15f80110, [], [⟨0, 1, .wo, 0⟩]⟩,
  ⟨0x15f80114, [], [⟨1, 1, .w1c, 0⟩, ⟨0, 1, .ro, 0⟩]⟩,
  ⟨0x15f80200, [(0x4, 60)], [⟨0, 32, .ro, 0⟩]⟩,
  ⟨0x15f80400, [(0x20, 4), (0x4, 8)], [⟨0, 32, .ro, 0⟩]⟩,
  ⟨0x15f80480, [], [⟨4, 4, .ro, 0⟩, ⟨0, 4, .ro, 0⟩]⟩,
  ⟨0x15f80484, [], [⟨0, 6, .ro, 0⟩]⟩,
  ⟨0x15f80500, [(0x4, 48)], [⟨0, 32, .rw, 0⟩]⟩,
  ⟨0x15f805c0, [], [⟨16, 16, .wo, 0⟩]⟩,
  ⟨0x15f805c4, [], [⟨31, 1, .ro, 0⟩, ⟨0, 4, .ro, 0⟩]⟩]

/-- Register rows of block PMU (R407). -/
def regRowsPMU0 : List RegRow := [
  ⟨0x15f00000, [], [⟨7, 1, .rw, 0⟩, ⟨6, 1, .rw, 0x1⟩, ⟨5, 1, .rw, 0x1⟩, ⟨4, 1, .rw, 0x1⟩]⟩,
  ⟨0x15f00004, [], [⟨16, 16, .wo, 0⟩, ⟨0, 4, .wo, 0⟩]⟩,
  ⟨0x15f00008, [], [⟨4, 4, .ro, 0⟩, ⟨0, 4, .ro, 0⟩]⟩,
  ⟨0x15f0000c, [], [⟨0, 24, .ro, 0x2⟩]⟩,
  ⟨0x15f00010, [], [⟨0, 11, .ro, 0⟩]⟩,
  ⟨0x15f00014, [], [⟨16, 2, .ro, 0⟩, ⟨8, 5, .w1c, 0⟩, ⟨0, 5, .ro, 0⟩]⟩,
  ⟨0x15f00018, [], [⟨6, 1, .w1c, 0⟩, ⟨5, 1, .w1c, 0⟩, ⟨4, 1, .w1c, 0⟩, ⟨3, 1, .w1c, 0⟩, ⟨2, 1, .w1c, 0⟩, ⟨1, 1, .w1c, 0⟩, ⟨0, 1, .w1c, 0⟩]⟩,
  ⟨0x15f0001c, [], [⟨8, 8, .rw, 0x8c⟩]⟩,
  ⟨0x15f00020, [], [⟨16, 4, .ro, 0⟩, ⟨0, 16, .ro, 0⟩]⟩,
  ⟨0x15f00024, [], [⟨16, 16, .ro, 0⟩, ⟨0, 16, .ro, 0⟩]⟩,
  ⟨0x15f00028, [], [⟨0, 32, .ro, 0⟩]⟩,
  ⟨0x15f00040, [(0x4, 16)], [⟨0, 16, .ro, 0⟩]⟩,
  ⟨0x15f00100, [], [⟨6, 1, .w1c, 0⟩, ⟨5, 1, .w1c, 0⟩, ⟨4, 1, .w1c, 0⟩, ⟨3, 1, .w1c, 0⟩, ⟨2, 1, .w1c, 0⟩, ⟨1, 1, .w1c, 0⟩, ⟨0, 1, .w1c, 0⟩]⟩,
  ⟨0x15f00104, [], [⟨0, 7, .rw, 0⟩]⟩]

/-- The register rows by block: (first address, size, rows). The block windows are those of R35. -/
def regBlocks : List (Nat × Nat × List RegRow) := [
  (0x14000000, 0x10000, regRowsSYS0),
  (0x14010000, 0x10000, regRowsHIF0),
  (0x14020000, 0x10000, regRowsXB0),
  (0x14030000, 0x10000, regRowsRNG0),
  (0x14040000, 0x10000, regRowsBLK0),
  (0x14050000, 0x10000, regRowsSXM0),
  (0x14060000, 0x10000, regRowsPEAL0),
  (0x14070000, 0x10000, regRowsBRG0),
  (0x14080000, 0x10000, regRowsDPL0),
  (0x14090000, 0x10000, regRowsPRT0),
  (0x140a0000, 0x10000, regRowsAES0 ++ regRowsAES1),
  (0x140b0000, 0x10000, regRowsNET0 ++ regRowsNET1),
  (0x140c0000, 0x10000, regRowsTU0 ++ regRowsTU1),
  (0x140d0000, 0x10000, regRowsCLV0 ++ regRowsCLV1),
  (0x140e0000, 0x10000, regRowsPLL0),
  (0x140f0000, 0x10000, regRowsTAP0),
  (0x14100000, 0x100000, regRowsCLN0 ++ regRowsCLN1),
  (0x14200000, 0x100000, regRowsCHM0),
  (0x14300000, 0x100000, regRowsBEAT0 ++ regRowsBEAT1),
  (0x14400000, 0x10000, regRowsFLM0 ++ regRowsFLM1),
  (0x14800000, 0x1000000, regRowsMAL0 ++ regRowsMALC0),
  (0x15f00000, 0x10000, regRowsPMU0),
  (0x15f10000, 0x10000, regRowsEVT0),
  (0x15f20000, 0x10000, regRowsSMP0),
  (0x15f80000, 0x80000, regRowsID0)]

/-- Whether the offset `o` is an instance of the dimensions. -/
def dimsMatch : List (Nat × Nat) → Nat → Bool
  | [], o => o == 0
  | (st, ct) :: ds, o => if o / st < ct then dimsMatch ds (o % st) else false

/-- Whether the row holds the register at address `a`. -/
def RegRow.at (r : RegRow) (a : Nat) : Bool := decide (r.base ≤ a) && dimsMatch r.dims (a - r.base)

/-- The row of the register at internal address `a`, if a register stands there. -/
def regRow? (a : Nat) : Option RegRow :=
  match regBlocks.find? (fun b => decide (b.1 ≤ a ∧ a < b.1 + b.2.1)) with
  | none => none
  | some b => b.2.2.find? (fun r => r.at a)

/-- The fields of the register at address `a` with their addresses filled in. -/
def regFields (a : Nat) : List (Fld × Access) :=
  match regRow? a with
  | none => []
  | some r => r.fields.map (fun f => (⟨a, f.lo, f.width, f.rst⟩, f.acc))

/-- The reset value of the field with key `k` (0 where no field stands there). -/
def regReset (k : Nat) : Nat :=
  match (regFields (k / 32)).find? (fun p => p.1.lo == k % 32) with
  | none => 0
  | some p => p.1.rst

end Sys2Proof.Machine
end

