-- ==== Sys2Proof/Machine/Plane.lean ====
section
/-! DEFINITION. The structure an engine takes from a peal image (R37-R43): one record type per section type of R41,
and `Cfg`, the structure the engines hold of the live plane (R212: the engines hold the structure on die). -/

namespace Sys2Proof.Machine

/-- The SYSTEM record (R42). -/
structure SysRec where
  blockLen : Nat
  rateA : Nat
  rateB : Nat
  xbProfile : Nat
  pll00Khz : Nat
  powerMask : Nat
  startMode : Nat
  swapXfade : Nat
  divX2 : List Nat
deriving DecidableEq, Repr

/-- A BUSES record (R41, R70). -/
structure BusRec where
  bus : Nat
  domain : Nat
  outFacing : Bool
  essentialOut : Bool
  writer : Nat
deriving DecidableEq, Repr

/-- A SCHEDULE record (R41, R80). `deps` holds (task, previous-block read). -/
structure TaskRec where
  task : Nat
  island : Nat
  kind : Nat
  cost : Nat
  unit : Nat
  essential : Bool
  domainB : Bool
  deps : List (Nat × Bool)
deriving DecidableEq, Repr

/-- The CARILLON_GEOMETRY record (R41, R93). -/
structure ClnGeom where
  inputs : Nat
  outputs : Nat
  inBase : Nat
  outBase : Nat
  rampBlocks : Nat
  profile : Nat
  scaling : Nat
deriving DecidableEq, Repr

/-- A CARILLON_GAINS record (R41, R99): a gain code as a signed number. -/
structure GainRec where
  input : Nat
  output : Nat
  gain : Int
deriving DecidableEq, Repr

/-- A CHIMES_FILTERS record (R41, R121). -/
structure FilterRec where
  filter : Nat
  taps : Nat
  inBus : Nat
  outBus : Nat
  bankA : Nat
  bankB : Nat
deriving DecidableEq, Repr

/-- A CHIMES_PRESETS record (R41, R131). -/
structure PresetRec where
  array : Nat
  preset : Nat
  addr : Nat
  words : Nat
deriving DecidableEq, Repr

/-- A MALLET_PROGRAM section (R41): program words of one core. -/
structure MalProg where
  core : Nat
  entry : Nat
  words : List Word
deriving DecidableEq, Repr

/-- A MALLET_DATA section (R41): 24-bit words of one core's data memory, and its HOT_CARRY. -/
structure MalData where
  core : Nat
  parameter : Bool
  realTime : Bool
  start : Nat
  words : List (BitVec 24)
  hot : Bool
deriving DecidableEq, Repr

/-- A CLUSTER_MEM section (R41). -/
structure ClusterRec where
  cluster : Nat
  offset : Nat
  data : List Byte
deriving DecidableEq, Repr

/-- A DELAY_LINES record (R41, R196). -/
structure LineRec where
  line : Nat
  inBus : Nat
  outBus : Nat
  base : Nat
  capacity : Nat
  delay : Nat
  flags : Nat
deriving DecidableEq, Repr

/-- A DRAM_REGIONS record (R41, R210). -/
structure RegionRec where
  region : Nat
  cluster : Nat
  realTime : Bool
  base : Nat
  size : Nat
  rtAccesses : Nat
deriving DecidableEq, Repr

/-- A DRAM_INIT section (R41). -/
structure InitRec where
  addr : Nat
  data : List Byte
deriving DecidableEq, Repr

/-- A PORTS record of KIND 0 (R248). -/
structure PrtRec where
  index : Nat
  firstBus : Nat
  dirOut : Bool
  mode : Nat
  slots : Nat
  slotBits : Nat
  wordBits : Nat
  clocking : Nat
  domain : Nat
  shape : Nat
  nominalHz : Nat
  clkShare : Nat
  autoStart : Bool
  tristate : Bool
  preroll : Nat
  postroll : Nat
  mask : Nat
deriving DecidableEq, Repr

/-- A PORTS record of KIND 1 (R249). -/
structure AesRec where
  index : Nat
  rxBus : Nat
  rxEn : Bool
  rxClocking : Nat
  rxDomain : Nat
  vPolicy : Nat
  txEn : Bool
  txClocking : Nat
  txDomain : Nat
  txClkRx : Nat
  txBus : Nat
  nominalHz : Nat
  preroll : Nat
  postroll : Nat
deriving DecidableEq, Repr

/-- The per-leg addressing of a stream (R272). -/
structure LegRec where
  dstIp : Nat
  srcIp : Nat
  dstUdp : Nat
  dstMac : Nat
  vlan : Nat
deriving DecidableEq, Repr

/-- A STREAMS record (R272). -/
structure StreamRec where
  stream : Nat
  dirOut : Bool
  port : Nat
  firstBus : Nat
  channels : Nat
  format : Nat
  srcUdp : Nat
  dscp : Nat
  pt : Nat
  ptime : Nat
  prot : Bool
  ssrc : Nat
  tsOffset : Nat
  linkOffset : Nat
  alignGroup : Nat
  ttl : Nat
  leg0 : LegRec
  leg1 : LegRec
deriving DecidableEq, Repr

/-- A BRIDGES record (R41, R76, R77). -/
structure BridgeRec where
  kind : Nat
  inBus : Nat
  outBus : Nat
  source : Nat
deriving DecidableEq, Repr

/-- A reference slot of the CLOCK record (R299). -/
structure RefRec where
  type : Nat
  index : Nat
  rank : Nat
  bw : Nat
  softPpb : Nat
  hardPpb : Nat
  wtrS : Nat
  domainB : Nat
  offsetNs : Int
deriving DecidableEq, Repr

/-- A word-clock output of the CLOCK record (R299, R313). -/
structure WcRec where
  enable : Bool
  domainB : Nat
  ratio : Nat
  align : Nat
  pulse : Nat
  offsetNs : Int
  widthNs : Nat
deriving DecidableEq, Repr

/-- The CLOCK record (R299). -/
structure ClockRec where
  refs : List RefRec
  mode : Nat
  forceSlot : Nat
  nonrevert : Nat
  phaseHold : Nat
  tempSensor : Nat
  slewPpb : Nat
  tauS : Nat
  loHz : Nat
  tc1 : Int
  tc2 : Int
  ageing : Int
  jumpNs : Nat
  wcs : List WcRec
  mclkADiv : Nat
  mclkBDiv : Nat
deriving DecidableEq, Repr

/-- A channel record of BEATER (R321). -/
structure BeatChanRec where
  chan : Nat
  autoStart : Bool
  presEn : Bool
  invert : Bool
  inBus : Nat
  phase : Nat
  pres : Nat
  iTrip : Nat
  deadNs : Nat
  kV : Nat
  kI : Nat
  vFs : Nat
  ramp : Nat
  prerollMs : Nat
  retryS : Nat
  zShort : Nat
  zOpen : Nat
  diagV : Nat
  lebNs : Nat
deriving DecidableEq, Repr

/-- A rail record of BEATER (R321). -/
structure BeatRailRec where
  rail : Nat
  track : Bool
  railMin : Nat
  railMax : Nat
  margin : Nat
  faultCap : Nat
  rise : Nat
  fall : Nat
  kFb : Nat
  pwmKhz : Nat
  vDiag : Nat
deriving DecidableEq, Repr

/-- A FLAM_MIRROR record (R343). -/
structure MirrorRec where
  kind : Nat
  object : Nat
  offset : Nat
  length : Nat
deriving DecidableEq, Repr

/-- A TAP_BINDINGS record (R41, R380). -/
structure TapRec where
  key : Nat
  group : Nat
deriving DecidableEq, Repr

/-- What the device takes from one verified plane: every section of R41 and which sections carry HOT_CARRY (R39, R64). -/
structure Cfg where
  sys : SysRec
  buses : List BusRec
  tasks : List TaskRec
  geom : Option ClnGeom
  gains : List GainRec
  filters : List FilterRec
  coeffs : List Int
  presets : List PresetRec
  progs : List MalProg
  datas : List MalData
  clusters : List ClusterRec
  lines : List LineRec
  regions : List RegionRec
  inits : List InitRec
  prts : List PrtRec
  aess : List AesRec
  streams : List StreamRec
  bridges : List BridgeRec
  clock : ClockRec
  beatChans : List BeatChanRec
  beatRails : List BeatRailRec
  gridDiv : Option Nat
  mirror : Option (List MirrorRec)
  taps : List TapRec
  hotCarry : List Nat
deriving DecidableEq, Repr

/-- Samples per second of a RATE_A code (R42). -/
def rateAHz : Nat → Nat
  | 0 => 48000
  | 1 => 96000
  | _ => 192000

/-- Samples per second of a RATE_B code (R42); 0 where domain B is unused. -/
def rateBHz : Nat → Nat
  | 0 => 0
  | 1 => 44100
  | 2 => 88200
  | _ => 176400

/-- The BUSES record of bus `b` (R70: a bus with no record does not exist). -/
def Cfg.bus? (c : Cfg) (b : Nat) : Option BusRec := c.buses.find? (fun r => r.bus == b)

/-- The SCHEDULE record of task `t`. -/
def Cfg.task? (c : Cfg) (t : Nat) : Option TaskRec := c.tasks.find? (fun r => r.task == t)

/-- The CHIMES_FILTERS record of filter `f`. -/
def Cfg.filter? (c : Cfg) (f : Nat) : Option FilterRec := c.filters.find? (fun r => r.filter == f)

/-- The DELAY_LINES record of line `l`. -/
def Cfg.line? (c : Cfg) (l : Nat) : Option LineRec := c.lines.find? (fun r => r.line == l)

/-- The PRT record of port `n`. -/
def Cfg.prt? (c : Cfg) (n : Nat) : Option PrtRec := c.prts.find? (fun r => r.index == n)

/-- The AES record of transceiver `n`. -/
def Cfg.aes? (c : Cfg) (n : Nat) : Option AesRec := c.aess.find? (fun r => r.index == n)

/-- The STREAMS record of stream `n` in one direction. -/
def Cfg.stream? (c : Cfg) (out : Bool) (n : Nat) : Option StreamRec :=
  c.streams.find? (fun r => r.stream == n && r.dirOut == out)

/-- The BEATER record of channel `n`. -/
def Cfg.beatChan? (c : Cfg) (n : Nat) : Option BeatChanRec := c.beatChans.find? (fun r => r.chan == n)

/-- The BEATER record of rail `r`. -/
def Cfg.beatRail? (c : Cfg) (n : Nat) : Option BeatRailRec := c.beatRails.find? (fun r => r.rail == n)

/-- The samples a domain A bus holds per block (R70). -/
def Cfg.blockLen (c : Cfg) : Nat := c.sys.blockLen

/-- The domain B samples of block `k` (R70): m with k·L·RB/RA ≤ m < (k+1)·L·RB/RA, counted exactly. -/
def Cfg.countB (c : Cfg) (k : Nat) : Nat :=
  let ra := rateAHz c.sys.rateA
  let rb := rateBHz c.sys.rateB
  let up := fun x => (x * c.sys.blockLen * rb + ra - 1) / ra
  up (k + 1) - up k

/-- The first domain B sample index of block `k` (R70). -/
def Cfg.firstB (c : Cfg) (k : Nat) : Nat :=
  let ra := rateAHz c.sys.rateA
  let rb := rateBHz c.sys.rateB
  (k * c.sys.blockLen * rb + ra - 1) / ra

end Sys2Proof.Machine
end

