-- ==== Sys2Proof/Machine/Cmd.lean ====
section
/-! DEFINITION. The commands an engine holds (R231, R232) and what each engine's command carries. -/

namespace Sys2Proof.Machine

/-- A command as its engine takes it in: the ring commands of R112, R134, R171, R204, R231, R263, R284, R311, R338 and
R360, and the register and window writes that act as unstamped commands (R115, R118, R130, R169, R203). -/
inductive Cmd where
  | nop
  | fence (waitRing : Nat) (waitEn : Bool) (waitIndex : Nat)
  | write32 (addr : Nat) (value mask : Word)
  | xpSet (input output : Nat) (gain : Word) (slot : Nat)
  | xpList (addr count slot : Nat)
  | xpClearOut (output slot : Nat)
  | xpClearIn (input slot : Nat)
  | outMute (first count mute : Nat)
  | xpWrite (input output : Nat) (target : Int) (slot : Nat)
  | bankSelect (first count xfLen bank : Nat)
  | presetLoad (array preset flags xfLen : Nat)
  | coefWrite (filter bank first count addr : Nat)
  | paramSet (core count start : Nat) (values : List Word)
  | paramList (core count addr : Nat)
  | paramWrite (core word : Nat) (value : BitVec 24)
  | delaySet (line xf delay : Nat)
  | delayList (count xf addr : Nat)
  | prtMask (port : Nat) (mask : Word)
  | portMute (kind first count mute ramp : Nat)
  | netSend (port flags length addr : Nat)
  | streamMute (first count mute ramp : Nat)
  | clvMode (mode forceSlot phase : Nat)
  | clvRefSet (slot enable rank wtr : Nat)
  | beatMute (first count mute ramp : Nat)
  | beatEnable (first count enable : Nat)
  | beatClear (first count : Nat)
  | beatDiag (first count : Nat)
  | flmHandover
  | flmResync
  | regWrite (addr : Nat) (value : Word)
deriving DecidableEq, Repr

/-- How far the list or data a command names has been fetched (R115, R134, R171, R204, R284). -/
inductive Fetch where
  | notNeeded
  | waiting
  | running
  | done (bs : List Byte)
  | failed
deriving DecidableEq, Repr

/-- A command held by its engine (R232): its stamp, its completion fields (R230, R237), the boundary at which it was taken
in, and its place in the order of arrival. `ring` is `none` for a register or window write. -/
structure Held where
  id : Nat
  eng : Engine
  cmd : Cmd
  stamp : Option Nat
  cpl : Bool
  irq : Bool
  opcode : Nat
  cookie : Nat
  ring : Option Nat
  index : Nat
  /-- Its place among the entries of its ring since reset. -/
  seq : Nat
  master : Nat
  arr : Nat
  fetch : Fetch
  /-- It reached a boundary and had to wait there (R115, R135). -/
  late : Bool
  /-- On an ACTIVE or YIELDING Flam chip, the first boundary at which it may apply (R345). -/
  mirrorAt : Option Nat
  /-- Its object existed in the live plane when it was taken in (R63). -/
  known : Bool
  /-- It waits whole for a later boundary: the commands behind it in its ring, or the window writes after it, wait behind it (R115,
  R135). -/
  whole : Bool
deriving DecidableEq, Repr

end Sys2Proof.Machine
end

