-- ==== Sys2Proof/Machine/State.lean ====
section
/-! DEFINITION. The state of the device (plain data), its faults and refusals, and the state right after reset. -/

namespace Sys2Proof.Machine

/-- Why the machine stops with a fault. -/
inductive Fault where
  /-- Raised by no command: every command of the spec has an effect (notes/assumptions/1). Safe. -/
  | unreachable
deriving DecidableEq, Repr

/-- Why a command is refused. -/
inductive Refusal where
  /-- Raised only by an arm of `exec` whose command has no meaning yet. Safe: the machine stops. -/
  | notModelled (mnemonic : String)
deriving DecidableEq, Repr

/-- A crossbar response (R216, R226). -/
inductive XbResp where
  | ok
  | data (bs : List Byte)
  | decodeErr
  | targetErr
deriving DecidableEq, Repr

/-- What the device sends to the outside, in the order sent (the model's own record, notes/assumptions/4). -/
inductive Emission where
  | msix (vector : Nat)
  | hostData (bs : List Byte)
  | hostUr
  | errCor
  | outbound (hostAddr : Nat) (bs : List Byte)
  /-- A PCIe read request of the device (R215, R218): host address and length. -/
  | outboundRead (hostAddr len : Nat)
  | response (master : Nat) (r : XbResp)
  /-- A frame on the balls of a PRT port: a word per slot, none where the ball is Hi-Z (R261). -/
  | portFrame (port : Nat) (index : Nat) (slots : List (Option Nat))
  /-- An AES3 frame: Z preamble, then audio, V, U, C and parity of each subframe (R265, R267). -/
  | aesFrame (n : Nat) (z : Bool) (subs : List AesSub)
  /-- A UDP packet of an output stream on one port: its addresses, its UDP checksum where the spec fixes it, and its payload
  (R275-R277, R287). -/
  | udp (port srcMac dstMac vlan dstIp srcIp dstUdp srcUdp dscp ttl : Nat) (checksum : Option Nat) (payload : List Byte)
  /-- An Ethernet frame without FCS: forwarded, or sent by NET_SEND (R284, R286). -/
  | netFrame (port : Nat) (frame : List Byte)
  /-- A PTP instance's Delay_Req (R290): port, instance, sequenceId, domain and SELF. -/
  | delayReq (port inst seq domain self : Nat)
  /-- A Beater channel's reference for one emit block: after the level and the clip of R325, or none where the gates are low. -/
  | beatBlock (n : Nat) (blk : Nat) (xs : Option (List Int))
  /-- One fine phase step of a word-clock output: later, or earlier (R313). -/
  | wcStep (n : Nat) (later : Bool)
  /-- MCLK_A_OUT or MCLK_B_OUT moves by a number of VCO periods (R318). -/
  | mclkStep (pll count : Nat) (later : Bool)
  /-- A Flam heartbeat, sent on both links (R350): its payload. -/
  | flmHeartbeat (payload : List Byte)
  /-- A mirrored change sent to the peer (R345): the engine, the command and the block at which it applies. -/
  | flmChange (e : Engine) (c : Cmd) (stamp : Option Nat) (blk : Nat)
  /-- A mirrored register write or commit sent to the peer (R345). -/
  | flmWrite (addr : Nat) (value : Word) (blk : Nat)
  /-- What R348, R349, R360 and R381 send beside changes. -/
  | flmItem (item : MirrorItem)
  /-- The source ranges of block `blk` (R347): per region pair, its words or bytes. -/
  | flmRegions (blk : Nat) (ranges : List (Nat × List Nat))
  /-- A resync chunk (R358): block, bytes sent, bytes left of the bulk. -/
  | flmChunk (link blk bytes left : Nat)
  /-- An SMP response as the controller clocks it out (R364). -/
  | smpResponse (bs : List Byte)
  /-- A pulse of a timed output (R293): instance time of its active edge in ns, width, active low. -/
  | tuPulse (n : Nat) (start : Int) (width : Nat) (low : Bool)
deriving DecidableEq, Repr

/-- One bus of one block in SXM (R72, R73): its samples, and the LATE and FADED bits of its count byte. -/
structure BusBlk where
  samples : List Int
  late : Bool
  faded : Bool
deriving DecidableEq, Repr

/-- A bus that nothing has written: no samples, no flags. -/
abbrev BusBlk.empty : BusBlk := ⟨[], false, false⟩

/-- A commit accepted and not yet applied (R27): TAG, WHEN, the pending set, and the boundary or frame count at the request. -/
structure PendingCommit where
  blk : CommitBlk
  tag : Nat
  whenCode : Nat
  set : Tbl Nat
  arr : Nat
  /-- The master that wrote GO, and its place among the writes it made (R241). -/
  master : Nat
  id : Nat
  /-- On an ACTIVE or YIELDING Flam chip, the first boundary at which it may apply (R345). -/
  mirrorAt : Option Nat
deriving DecidableEq, Repr

/-- A realignment accepted (R69): token Q, and whether the outputs are ramping in after the step. -/
structure Realign where
  q : Nat
  done : Bool
deriving DecidableEq, Repr

/-- The block sequencer (R16-R20, R67-R69, R80-R89). -/
structure Blk where
  /-- BLK_INDEX: the 48-bit index of the last token issued (R67). -/
  index : Nat
  /-- Tokens issued since BLK_TICK last rose (R90). -/
  ticks : Nat
  /-- Tokens issued since reset: the order of boundaries, which an index step does not change (R68). -/
  seq : Nat
  /-- The last token that arrived at each island (R17): its index and its place in that order. -/
  arrived : Tbl (Nat × Nat)
  /-- Tasks of this token's round that have ended: (task, old-plane version). -/
  ended : List (Nat × Bool)
  /-- Tasks of this token's round that were dispatched and have not ended (Mallet tasks): (task, old-plane version, core). -/
  running : List (Nat × Bool × Nat)
  /-- Blocks in a row in which an island missed a deadline (R400). -/
  missed : Tbl Nat
  realign : Option Realign
  /-- The local time of the last token in ns. -/
  tokenNs : Nat
  /-- Tokens still to be issued before outputs are at full level after a realignment (R69). -/
  restart : Nat
  /-- Whether the round in progress is restricted to the essential set, and whether the previous one was (R88). -/
  limpNow : Bool
  limpPrev : Bool
  /-- Bridge kinds and sources whose channels ramp in at their next block (R78). -/
  locking : List (Nat × Nat)
  /-- Input histories of the bridge channels, newest sample first, by output bus (R76, R78). -/
  brg : Tbl (List Int)
deriving DecidableEq, Repr

/-- The sample exchange memory (R72-R74) and the egress islands' copies of each output-facing bus (R85). -/
structure Sxm where
  /-- Main slots: key bank × 8192 + bus. -/
  main : Tbl BusBlk
  /-- Swap slots, addressed by the bus that took them: key bank × 8192 + bus. -/
  swap : Tbl BusBlk
  /-- The egress islands' copies: key island × 16384 + bank × 8192 + bus. -/
  egress : Tbl BusBlk
deriving DecidableEq, Repr

/-- One crosspoint (R100, R101): gain in force, target, blocks left, slot, whether it holds a ramp entry, and RAMPING at the end of
the last block that its group completed (R117). -/
structure Xp where
  cur : Int
  tgt : Int
  remain : Nat
  slot : Nat
  entry : Bool
  ramping : Bool
deriving DecidableEq, Repr

/-- A crosspoint at rest at gain 0 under slot 0. -/
abbrev Xp.zero : Xp := ⟨0, 0, 0, 0, false, false⟩

/-- An output's scale factor (R108, R109): SHIFT or MAX_SHIFT as set, f, its target F, blocks left, and the slot of the running ramp;
MODE, SHIFT, SLOT and the group mute as read at the boundary (R119, R381); target, blocks left and slot as they stood when the
boundary began. -/
structure OutFactor where
  shiftSet : Nat
  f : Int
  target : Int
  remain : Nat
  slot : Nat
  read : Nat × Nat × Nat × Bool
  base : Int × Nat × Nat
deriving DecidableEq, Repr

/-- An output before any geometry is live. -/
abbrev OutFactor.zero : OutFactor := ⟨0, 0, 0, 0, 0, (0, 0, 0, false), (0, 0, 0)⟩

/-- Carillon's own state beside its registers. -/
structure Cln where
  /-- Crosspoints: key 2048 × output + input. -/
  xp : Tbl Xp
  outs : Tbl OutFactor
  /-- The ramp-wait queue of wide storage, oldest first: (crosspoint key, target, slot) (R101). -/
  waitQ : List (Nat × Int × Nat)
  /-- The parts of each slice group dispatched in this block: (group, part) (R96, R98). -/
  parts : List (Nat × Nat)
  /-- Changes that a swap has made at S, for the boundary that follows to count (R111, R120). -/
  early : Nat
deriving DecidableEq, Repr

/-- The idle bank's state (R128). -/
inductive IdleBank where
  | ready | loading | invalid | busy
deriving DecidableEq, Repr

/-- One filter's banks (R128, R129): the active bank (0 A, 1 B: in force or fading in), the idle bank's state, the
running fade (k, L, reversed), and its part in a plane swap (R136): 0 none, 1 locked since arming block A, 2 the image's
bank B contents are still to be written into the bank that becomes idle, 3 locked, with the image's bank A contents written into the
idle bank. -/
structure ChmFilter where
  active : Nat
  idle : IdleBank
  fade : Option (Nat × Nat × Bool)
  locked : Nat
deriving DecidableEq, Repr

/-- A filter as a peal load leaves it. -/
abbrev ChmFilter.fresh : ChmFilter := ⟨0, .ready, none, 0⟩

/-- A preset load in the queue of R133: what the request named, the header's filters once read, its progress. -/
structure PresetLoad where
  array : Nat
  preset : Nat
  swapAfter : Bool
  xfLen : Nat
  /-- FIRST_FILTER, FILTER_COUNT and CRC of a header that passed. -/
  header : Option (Nat × Nat × Nat)
  /-- The DRAM address and WORDS of its record, as read at H. -/
  src : Nat × Nat
  /-- The boundary H at which the load first headed the queue. -/
  headAt : Option Nat
  /-- The boundary at which the load started. -/
  startAt : Option Nat
  /-- The banks it writes, one per covered filter, from its start, and where each begins and ends: base and TAPS. -/
  banks : List Nat
  spans : List (Nat × Nat)
deriving DecidableEq, Repr

/-- Chimes' own state beside its registers. -/
structure Chm where
  /-- Coefficient memory, by coefficient index (R130). -/
  coefs : Tbl Int
  filters : Tbl ChmFilter
  /-- Histories: key (half × 8 + part) × 8192 + bus; newest sample first (R127). -/
  hist : Tbl (List Int)
  queue : List PresetLoad
  /-- Selects owed after loads with SWAP_AFTER: (first, banks, L, the boundary of completion or at which it last waited, whether it
  has waited). -/
  owed : List (Nat × List Nat × Nat × Nat × Bool)
  /-- A load has ended without success since Flam last looked (R348). -/
  failed : Bool
deriving DecidableEq, Repr

/-- Chimes with no plane. -/
abbrev Chm.idle : Chm := ⟨[], [], [], [], [], false⟩

/-- One delay line beside its table entry (R197-R203): samples written, the start point, the running fade
(old DELAY, k, L) and the pending value's L. -/
structure DplLine where
  written : Nat
  start : Nat
  fade : Option (Nat × Nat × Nat)
  pendLen : Nat
deriving DecidableEq, Repr

/-- A line that nothing has written. -/
abbrev DplLine.empty : DplLine := ⟨0, 0, none, 0⟩

/-- The delay pool's own state beside its registers. -/
structure Dpl where
  lines : Tbl DplLine
  /-- New lines that fill between arming block A and S (R57, R205). -/
  filling : Tbl DplLine
  /-- The address-hash seed (R206); DPL_HASH_SEED reads it only in TEST. -/
  seed : Nat
  /-- Real-time accesses of each region's DMA in this block (R210): key region. -/
  rtUsed : Tbl Nat
deriving DecidableEq, Repr

/-- The memories of the device that are arrays of bytes. -/
structure Mems where
  /-- DRAM (R194): 256 MiB at internal address 0. -/
  dram : Tbl Byte
  /-- 0: an unlisted byte reads as the fill of R434. n > 0: as the n-th undefined content of R214. -/
  dramEpoch : Nat
  /-- 64-bit words of DRAM that hold an uncorrectable error (R211), by word address / 8. -/
  dramBad : List Nat
  /-- Boot flash (R374, R46), at its byte offset: an unlisted byte is erased, 0xFF. -/
  flash : Tbl Byte
deriving DecidableEq, Repr

/-- What a delayed write of the exposed pipeline does when it lands (R151): the register code of R178, that code plus 0x40 for
a fast-level shadow, or 0x100 plus a CCR index; the bits it writes and their values; and how many bundles are still to issue before it is seen. -/
structure PWrite where
  reg : Nat
  mask : Nat
  val : Nat
  left : Nat
deriving DecidableEq, Repr

/-- What happens after the two delay slots of a control transfer (R153). -/
inductive AfterSlots where
  | fall
  | jump (t : Nat)
  | rtif (pc sr : Nat)
  | rtin (pc sr : Nat)
  | tend
deriving DecidableEq, Repr

/-- Why a core's issue is stalled (R145, R164, R186, R141). -/
inductive Stall where
  | none
  /-- Slow-path loads in order: register code, shared word address, and the word from before a store of the same bundle to it (R144).
  Code 0x40: the word only updates BE.MIN (BEXP). -/
  | slow (loads : List (Nat × Nat × Option Nat))
  | busFull
  | bsync
  | wait
  | tend
deriving DecidableEq, Repr

/-- A transfer posted to the bus gate (R164): 0 BIN, 1 BINP, 2 BOUT. `silent`: the gate judged cause 0x2 at issue (R165);
`dead`: cause 0x1 or 0x3. -/
structure Posted where
  kind : Nat
  bus : Nat
  word : Nat
  silent : Bool
  dead : Bool
  task : Nat
  old : Bool
  blk : Nat
deriving DecidableEq, Repr

/-- The task a core runs (R80, R140). -/
structure RunTask where
  task : Nat
  old : Bool
  cost : Nat
  blk : Nat
deriving DecidableEq, Repr

/-- A DMA channel's running transfer, as latched at GO (R166). -/
structure Dma where
  local0 : Nat
  ext : Nat
  toExt : Bool
  pack : Bool
  count : Nat
deriving DecidableEq, Repr

/-- A Mallet core (R138-R166) beside its CCRs, which stand in the register file. -/
structure Core where
  /-- The architectural registers by the code of R178. -/
  regs : Tbl Nat
  /-- The fast-level shadows, by the same codes. -/
  shadow : Tbl Nat
  /-- Writes still in the pipeline, oldest first. -/
  pend : List PWrite
  pc : Nat
  /-- Open loops, innermost first: (enclosing LC, enclosing LA, first bundle of the body). -/
  loops : List (Nat × Nat × Nat)
  /-- The bundle at LA has issued and its closing test is still to be made; its address. -/
  closing : Option Nat
  /-- Delay slots still to issue. -/
  slots : Nat
  after : AfterSlots
  /-- Issues left of a bundle under RPT; 0: none. -/
  rpt : Nat
  /-- The return stack, newest first: (PC, SR). -/
  stack : List (Nat × Nat)
  stall : Stall
  /-- A WAIT has just ended: a source that its level accepts is accepted before the next bundle (R186). -/
  waited : Bool
  posted : List Posted
  /-- Buses written by the task in this block. -/
  written : List Nat
  task : Option RunTask
  /-- Running DMA transfers, by channel. -/
  dma : Tbl Dma
deriving DecidableEq, Repr

/-- An idle core. -/
abbrev Core.idle : Core := ⟨[], [], [], 0, [], none, 0, .fall, 0, [], .none, false, [], [], none, []⟩

/-- The Mallet clusters (R138-R174). -/
structure Mal where
  cores : Tbl Core
  /-- Program memories: key core × 16384 + address. -/
  prog : Tbl Nat
  /-- Local data memories, as 24-bit codes: key core × 65536 + word. -/
  data : Tbl Nat
  /-- Shared memories: key cluster × 2^20 + byte. -/
  shared : Tbl Byte
  /-- How each task's previous run ended and whether its next run has a gap (R142); key + 4096: the old plane's version of a task. -/
  hist : Tbl (Nat × Bool)
  /-- Parameter words applied to each core at this boundary (R170). -/
  applied : Tbl Nat
deriving DecidableEq, Repr

/-- The old plane's changed tasks while a crossfade runs (R58, R59, R72): their structure, the tasks, the buses that take
swap slots, and the engines' state as the old plane left it. -/
structure OldPlane where
  cfg : Cfg
  tasks : List Nat
  swapped : List Nat
  cln : Cln
  chm : Chm
  dpl : Dpl
  /-- The bridge channels' input histories. -/
  brg : Tbl (List Int)
  /-- The old plane's register fields of the engines' tables. -/
  regs : Tbl Nat
deriving DecidableEq, Repr

/-- A frame in a port's buffer: its frame index (domain C outputs: the block from which it leaves), one sample per slot, and for each
whether its block was LATE or FADED (R267). -/
structure PFrame where
  idx : Nat
  xs : List Int
  bad : List Bool
deriving DecidableEq, Repr

/-- One direction of a serial port or AES3 transceiver beside its registers (R256-R264). Unit n < 16 is PRT_n, 16 + n the
receiver of AES_n, 24 + n its transmitter. -/
structure PortDir where
  level : Rat
  /-- Ramping in over one block (R259, R85). -/
  entering : Bool
  mute : Bool
  /-- RAMP as last read, in blocks. -/
  ramp : Nat
  /-- Samples until the S of the swap for which the unit stops (R260); 0: none. -/
  stopLen : Nat
  /-- A swap changes the unit's record (R260): ENABLE is not read until it has taken the new one. -/
  leaving : Bool
  /-- Frames of pre-roll or post-roll sent, and how many there are. -/
  roll : Nat
  rollN : Nat
  /-- Frames since the boundary, and since the clocks started (domain C: since lock). -/
  pos : Nat
  count : Nat
  buf : List PFrame
  last : List Int
  /-- The index after the last frame that a follower-sync unit took or sent (R262). -/
  next : Nat
  /-- Frames of a follower input that its ingress has to take before the next token (R264). -/
  due : Nat
  /-- Frames were missing: the next block ramps in (R264). -/
  gap : Bool
  /-- The pending mask, and the frame starts that go by before it applies (R262). -/
  pendMask : Option (Nat × Nat)
  /-- The boundary's registers are still to be read (R259). -/
  unread : Bool
  /-- The register of ENABLE, MUTE and RAMP was written in the block before the boundary, and since it; the mask likewise (R263). -/
  ctrlBefore : Bool
  ctrlSince : Bool
  maskBefore : Bool
  maskSince : Bool
  /-- Good frames, or Z preambles 192 frames apart, seen in SYNCING, and the frames since the last Z (R257). -/
  good : Nat
  sinceZ : Nat
  /-- The last frame was bad (R257). -/
  badRun : Bool
deriving DecidableEq, Repr

/-- A direction with nothing started. -/
abbrev PortDir.idle : PortDir :=
  { level := 0, entering := false, mute := false, ramp := 4, stopLen := 0, leaving := false, roll := 0, rollN := 0, pos := 0, count := 0,
    buf := [], last := [], next := 0, due := 0, gap := false, pendMask := none, unread := false, ctrlBefore := false, ctrlSince := false,
    maskBefore := false, maskSince := false, good := 0, sinceZ := 0, badRun := false }

/-- An AES3 receiver's capture of a channel-status block (R266): C and U bits of each subframe, newest frame first, and the
previous samples, and the channel-status bytes of the block before, against which CS_CHANGE compares (R432; none: zeros). -/
structure AesCap where
  bits : List (Bool × Bool × Bool × Bool)
  prevA : Int
  prevB : Int
  base : List Byte
deriving DecidableEq, Repr

/-- The serial ports and AES3 transceivers. -/
structure Ports where
  units : Tbl PortDir
  /-- The record each PRT port and AES transceiver runs by: after a swap the old one until its post-roll ends (R260). -/
  prtFmt : Tbl PrtRec
  aesFmt : Tbl AesRec
  caps : Tbl AesCap
  /-- The channel-status and user bytes of the block a transmitter is sending: 48 bytes each, subframe A first (R267). -/
  txCs : Tbl (List Byte)
  txU : Tbl (List Byte)
deriving DecidableEq, Repr

/-- An input stream (R272-R282): the record in force, samples by capture index (one per channel), packets by the capture
index of their first sample with the legs that delivered them in time, and the local times of the last packets: of either
leg, of leg 0, of leg 1; and the packets received with the LATE flag (R276), which no register shows. -/
structure InStream where
  fmt : Option StreamRec
  buf : Tbl (List Int)
  pkts : Tbl (Bool × Bool)
  last : Option Nat
  leg0 : Option Nat
  leg1 : Option Nat
  lateFlags : Nat
deriving DecidableEq, Repr

/-- An input stream that is not defined. -/
abbrev InStream.none : InStream := ⟨.none, [], [], .none, .none, .none, 0⟩

/-- One sample of an output stream's channels, by its index at the pins (R277): the emit block, whether its block was LATE or
FADED, whether its egress was abandoned, and whether the level has been applied. -/
structure SFrame where
  idx : Nat
  blk : Nat
  xs : List Int
  bad : Bool
  gone : Bool
  done : Bool
deriving DecidableEq, Repr

/-- An output stream (R275-R277, R283): the record in force, its level, whether it ramps to silence for a swap, the blocks of
zero payload still to come, its samples and the index of the next packet. -/
structure OutStream where
  fmt : Option StreamRec
  /-- The domain of its buses in the plane that defines it. -/
  dom : Nat
  d : PortDir
  stopping : Bool
  zero : Nat
  buf : List SFrame
  next : Option Nat
  /-- Emit blocks whose level has been applied: the last one. -/
  settled : Nat
deriving DecidableEq, Repr

/-- An output stream that is not defined. -/
abbrev OutStream.none : OutStream := ⟨.none, 0, .idle, false, 0, [], .none, 0⟩

/-- A frame of NET_SEND that waits to be sent (R284): its port, FLAGS, bytes and command. -/
structure TxFrame where
  port : Nat
  flags : Nat
  frame : List Byte
  cmd : Held
  late : Bool
deriving DecidableEq, Repr

/-- The media ports beside their registers. -/
structure Net where
  ins : Tbl InStream
  outs : Tbl OutStream
  txQ : List TxFrame
  /-- The next control-area slot of each port (R285). -/
  ctlNext : Tbl Nat
deriving DecidableEq, Repr

/-- A PTP instance beside its registers (R289-R291): its clock is `base` ns at local time `ref` and is corrected by `ppb`;
Σ KI × o; d; offsets in a row within LOCK_NS; the two-step Sync that waits for its Follow_Up (sequenceId, t2, correction,
arrival); t1 and t2 of the last Sync; the next Delay_Req's sequenceId; and the one outstanding with t3. -/
structure PtpInst where
  base : Rat
  ref : Nat
  ppb : Rat
  integ : Rat
  d : Rat
  run : Nat
  sync : Option (Nat × Rat × Rat × Nat)
  last12 : Option (Rat × Rat)
  drSeq : Nat
  dr : Option (Nat × Rat)
deriving DecidableEq, Repr

/-- A PTP instance after reset. -/
abbrev PtpInst.idle : PtpInst := ⟨0, 0, 0, 0, 0, 0, none, none, 0, none⟩

/-- The time unit beside its registers: instances, the next active edge of each timed output, capture queues (oldest first:
time in ns, falling), the local time of the last captured edge, and the latest local time seen, in ns. -/
structure Tu where
  insts : Tbl PtpInst
  outs : Tbl Int
  caps : Tbl (List (Int × Bool))
  capLast : Tbl Nat
  now : Nat
  /-- It counts from the crystal directly, PLL_03 having lost lock (R316). -/
  crystal : Bool
deriving DecidableEq, Repr

/-- A reference slot beside its registers (R303, R304): 1 s gates in a row that were clear, that were within ¾ of SOFT_PPB,
whether it has qualified since the peal load, and whether the 100 ms and the 1 s gate in progress contain an LOS condition (R302). -/
structure ClvSlot where
  clear : Nat
  calm : Nat
  qualified : Bool
  losShort : Bool
  losLong : Bool
deriving DecidableEq, Repr

/-- A slot after a load. -/
abbrev ClvSlot.fresh : ClvSlot := ⟨0, 0, false, false, false⟩

/-- Clave beside its registers (R302-R310): a selection decided and the boundary at which it was decided; H_live, its values
of the last 32 updates (oldest first), T_H, the updates made and the seconds since the last one. Frequencies in 1/256 ppb. -/
structure Clv where
  slots : Tbl ClvSlot
  want : Option (Option Nat × Nat)
  hLive : Rat
  line : List Rat
  tH : Rat
  updates : Nat
  since : Nat
  /-- LO_IN has returned and is being measured (R310). -/
  measuring : Bool
  /-- The 100 ms and the 1 s gate in progress are discarded, the base having changed (R310). -/
  skipShort : Bool
  skipLong : Bool
  /-- Tenths of a ns slewed and not yet shown in CLV_ABSORB_NS (R308). -/
  slewed : Nat
deriving DecidableEq, Repr

/-- Clave at reset. -/
abbrev Clv.idle : Clv := ⟨[], none, 0, [], 0, 0, 0, false, false, false, 0⟩

/-- A Beater channel beside its registers (R327-R334): the record in force, its level; presence lost with the level ramping
to 0; STOPPING with the level at 0 and idling; a diagnostic made on request; a swap holds the level at 0; the last 16
switching cycles, newest first; the boundaries of its FAULT entries; the block being emitted and the one that egress has
handed over for the next. -/
structure BeatChan where
  fmt : Option BeatChanRec
  level : Rat
  losing : Bool
  idling : Bool
  onRequest : Bool
  held : Bool
  trips : List Bool
  faults : List Nat
  cur : BusBlk
  nxt : Option BusBlk
  /-- Peaks of the emitted block and of the next, in 1/16 V (R335). -/
  peak : Rat
  peakNext : Rat
deriving DecidableEq, Repr

/-- A channel that is not in the live plane. -/
abbrev BeatChan.none : BeatChan := ⟨.none, 0, false, false, false, false, [], [], ⟨[], false, false⟩, .none, 0, 0⟩

/-- A Beater rail beside its registers (R332-R336): the record in force, the commanded voltage in 1/16 V, the targets of the
last two blocks, whether it is on, and whether it has faulted. -/
structure BeatRail where
  fmt : Option BeatRailRec
  cmd : Rat
  t0 : Rat
  t1 : Rat
  /-- The largest target of the block before (R336). -/
  was : Rat
  on : Bool
  fault : Bool
deriving DecidableEq, Repr

/-- A rail that is not in the live plane. -/
abbrev BeatRail.none : BeatRail := ⟨.none, 0, 0, 0, 0, false, false⟩

/-- Beater beside its registers; `settled` is the boundary for which each half's state has been formed. -/
structure Beat where
  chans : Tbl BeatChan
  rails : Tbl BeatRail
  settled : Tbl Nat
deriving DecidableEq, Repr

/-- A pending barrier (R241): its master, its token, and the number of held commands and commits taken in before it. -/
structure Barrier where
  master : Nat
  token : Nat
  before : Nat
deriving DecidableEq, Repr

/-- A FENCE that holds its ring (R234). `seq` is its place in its ring; `wait` the ring and WAIT_INDEX waited for, and the
place of that entry once its ring's TAIL has passed it. -/
structure Fence where
  seq : Nat
  index : Nat
  cpl : Bool
  irq : Bool
  cookie : Nat
  wait : Option (Nat × Nat × Option Nat)
deriving DecidableEq, Repr

/-- A ring beside its registers (R229-R240). Entries are numbered from reset; `base` is the number of the entry at index 0
of the first pass since the ring was last enabled or resized, `fetched` that of the entry at HEAD. -/
structure Ring where
  base : Nat
  fetched : Nat
  /-- PHASE of the next record. -/
  phase : Nat
  /-- Commands fetched that have not taken effect: number, and the record ring in which a place is reserved. -/
  flight : List (Nat × Option Nat)
  fences : List Fence
  /-- The pending resize: BASE, LOG2 (R240). -/
  resize : Option (Nat × Nat)
  /-- Records that wait to be written, oldest first: their bytes, and whether they carry IRQ. They wait for a pending resize (R240), for
  a place in the ring, or for the ring engine's port (R227). -/
  recs : List (List Byte × Bool)
  /-- The next command finds its engine's hold full (R232). -/
  holdWait : Bool
deriving DecidableEq, Repr

/-- A ring after reset. -/
abbrev Ring.idle : Ring := ⟨0, 0, 1, [], [], none, [], false⟩

/-- What a request asks of the crossbar (R217, R222): a read or a write of a device master; a read, a posted write or an AtomicOp as
HIF carries it for the host (R215, R216). -/
inductive XbKind where
  | read (len : Nat)
  | write (data : List (Option Byte))
  | hostRead (len : Nat)
  | hostWrite (data : List (Option Byte))
  | atomic (op : AtomicOp) (n operand compare : Nat)
deriving DecidableEq, Repr

/-- A request that its master has issued and that has no response yet (R222, R225). -/
structure XbReq where
  /-- Its place in the order in which requests and commands reached the device (R241). -/
  id : Nat
  master : Nat
  /-- The transaction ID (R222). -/
  tag : Nat
  kind : XbKind
  addr : Nat
  /-- When it reached the crossbar (R225); in the full profile, when its last beat was granted. -/
  age : Nat
  /-- A beat of a locked sequence, and whether it is the last (R224). -/
  lock : Option Bool
  /-- What the host returns on an outbound read. -/
  resp : FetchResp
  /-- Its target has admitted it; otherwise it waits in its master's port (R225). -/
  admitted : Bool
  /-- Beats granted, and the responses that they gave. -/
  sent : Nat
  got : List XbResp
  /-- The response, which waits for those to earlier requests with its ID (R222). -/
  answer : Option XbResp
  /-- It had to wait behind another request (R225). -/
  waited : Bool
  /-- Its master was reset or quarantined (R228): what remains of it is sent with every strobe clear, and its response is discarded. -/
  dead : Bool
deriving DecidableEq, Repr

/-- A target that a locked sequence holds (R224): its number, the master, and the beats granted. -/
structure XbLock where
  target : Nat
  master : Nat
  beats : Nat
deriving DecidableEq, Repr

/-- The crossbar and host interface beside their registers (R215-R228). -/
structure Hif where
  /-- MSI-X table words (R219): key word index of the table. -/
  msixTable : Tbl Nat
  /-- Pending bits of the MSI-X pending-bit array. -/
  msixPend : List Nat
  /-- Ring vectors whose MOD interval is running, with whether a raise was merged (R246). -/
  moderated : List (Nat × Bool)
  /-- Masters whose port is RESETTING (R227). -/
  resetting : List Nat
  /-- Barriers pending, oldest first (R241). -/
  barriers : List Barrier
  /-- Hot fields written and not yet past their block's boundary (R241): place in the order of arrival, master, engine, boundary at the
  write. -/
  hot : List (Nat × Nat × Engine × Nat)
  /-- Requests without a response, in the order in which their targets grant them (R225). -/
  queue : List XbReq
  /-- Locked sequences in progress (R224). -/
  locks : List XbLock
  /-- Requests that have waited behind another in this block (R225). -/
  waits : Nat
  /-- The function is in D3hot (R435). -/
  d3hot : Bool
  /-- Corrected Internal Error of the AER Correctable Error Status register (R431). -/
  aerCorrected : Bool
  /-- Its bit in the AER Correctable Error Mask, and correctable reporting (R431): set in the configuration space, which is the host's
  (notes/assumptions/50). -/
  aerMasked : Bool
  corEnabled : Bool
deriving DecidableEq, Repr

/-- How far the outputs are released (R69, R397, R403): `released` is where they stand after the running ramp, if any; the
ramp's first emit block, its length in blocks, and whether it rises. -/
structure Gate where
  released : Bool
  ramp : Option (Nat × Nat × Bool)
deriving DecidableEq, Repr

/-- A handshake channel between two islands (R15): words sent and not yet delivered, oldest first, and the words its
receiver has taken in, newest first. -/
structure Channel where
  flight : List Word
  taken : List Word
deriving DecidableEq, Repr

/-- A channel that has carried nothing. -/
abbrev Channel.empty : Channel := ⟨[], []⟩

/-- A swap accepted (R55-R61): S, N, dip, the new plane's structure, the arming block, whether it changes clocks (HOLD), and
whether the new plane's programs and data have been written into the engines (R56, R172). -/
structure Armed where
  swapAt : Nat
  blocks : Nat
  dip : Bool
  cfg : Cfg
  armedAt : Nat
  clocks : Bool
  written : Bool
deriving DecidableEq, Repr

/-- A swap that has passed its S (R59): S, N, the first block of its rise and whether its clocks are still changing (HOLD);
the buses that old-plane changed tasks write, each in its swap slot, and the buses of the old plane. A `rise` takes the new
plane from silence (dip); otherwise the outputs cross over from the old plane. `ended`: S + N has passed. -/
structure Fade where
  swapAt : Nat
  blocks : Nat
  first : Nat
  rise : Bool
  hold : Bool
  swapped : List Nat
  oldBuses : List Nat
  ended : Bool
deriving DecidableEq, Repr

/-- The peal loader and the swap machine beside their registers (R46-R64). -/
structure Peal where
  /-- The flash slot being copied. -/
  copy : Option Nat
  /-- The load in progress is the boot's own (R46, R398), of slot SYS_BOOT_STATUS.SLOT. -/
  boot : Bool
  /-- The verifier runs on a delta (R53). -/
  delta : Bool
  armed : Option Armed
  fade : Option Fade
  /-- Verified structures of the staged plane: what VERIFIED means for its bytes, by plane (0 A, 1 B). -/
  cfgs : Tbl (Option Cfg)
deriving DecidableEq, Repr

/-- A heartbeat of the peer as received (R350). `same`: its BLOCK was the receiver's own index when it arrived. -/
structure Heartbeat where
  blk : Nat
  state : Nat
  role : Nat
  isYield : Bool
  presetOk : Bool
  presetValid : Bool
  verdict : Nat
  evidence : Nat
  handover : Nat
  cycles : Nat
  gen : Nat
  serial : List Byte
  hash : List Byte
  digests : List Nat
  same : Bool
deriving DecidableEq, Repr

/-- Flam beside its registers (R340-R359). -/
structure Flm where
  /-- Flam operates: the live plane has FLAM_MIRROR and ENABLE was 1 at its load (R342). -/
  operates : Bool
  /-- The peer's last heartbeats, newest first. -/
  beats : List Heartbeat
  /-- Consecutive blocks whose heartbeat was missing. -/
  missed : Nat
  /-- Own digests of the last data blocks: (data block, one digest per group), newest first. -/
  digests : List (Nat × List Nat)
  /-- Data blocks in a row that disagreed, and that agreed. -/
  disagree : Nat
  agree : Nat
  /-- Evidence of the last blocks, newest first, and the counters as last seen (R352). -/
  evidence : List Nat
  seen : List Nat
  /-- A decided handover or takeover: T and its cause (R354). -/
  plan : Option (Nat × Nat)
  /-- A handover asked for: the block not before which T may lie (R360). -/
  asked : Option Nat
  /-- An SMP forced handover waits for the next boundary (R354). -/
  forced : Bool
  /-- The peer pulls FLAM_OWN, and FLAM_SEL. -/
  ownPeer : Bool
  selPeer : Bool
  /-- Blocks until the checks of R357 are made again. -/
  recheck : Nat
  verdict : Nat
  /-- Bytes of the bulk still to send (ACTIVE) or to receive (RESYNC). -/
  bulk : Nat
  /-- The last chunk is installed at this block (R358): data blocks are compared from the one before it. -/
  compareAt : Option Nat
  /-- Chunks and items received, by the block at which they apply. -/
  chunks : List (Nat × List ChunkObj × Bool)
  items : List MirrorItem
  /-- Source ranges of the last blocks, own and the peer's: (block, ranges), newest first (R347). -/
  own : List (Nat × List (Nat × List Nat))
  peer : List (Nat × List (Nat × List Nat))
  /-- The block at which MIRROR_GEN last rose. -/
  genAt : Option Nat
  /-- Blocks of wait-to-restore left (R359). -/
  wtr : Nat
  /-- A paired realignment: the boundary at which the indices are compared (R349). -/
  realignAt : Option Nat
  /-- The AO island has released FLAM_OWN because no token came for 2 block periods (R340). -/
  ownFree : Bool
deriving DecidableEq, Repr

/-- Flam with nothing paired. -/
abbrev Flm.idle : Flm :=
  ⟨false, [], 0, [], 0, 0, [], [], none, none, false, false, false, 0, 0, 0, none, [], [], [], [], none, 0, none, false⟩

/-- A command of the sideband port or of the host path (R363, R369). -/
structure SmpCmd where
  cmd : Nat
  payload : List Byte
  host : Bool
deriving DecidableEq, Repr

/-- The sideband port beside its registers. -/
structure Smp where
  /-- The command executing, and its STATUS and response once they are formed. -/
  exec : Option SmpCmd
  result : Option (Nat × List Byte)
  /-- The current response of the SPI path: STATUS, CMD and payload (R364). -/
  status : Nat
  cmd : Nat
  payload : List Byte
  /-- The nonce of an open unlock (R379). -/
  unlock : Option Nat
deriving DecidableEq, Repr

/-- The event recorder beside its registers (R370-R379). -/
structure Evt where
  /-- The live bank: bins (32 × histogram + bin) and extremes (value, minute). -/
  bins : Tbl Nat
  extremes : Tbl (Int × Nat)
  /-- Events of the running minute, by histogram (R370). -/
  minute : Tbl Nat
  /-- The record being written: its bytes, taken from the frozen bank (R375), and its CAUSE. -/
  writing : Option (List Byte × Nat)
  /-- Causes of snapshots that wait for a write or a pre-erase to end (R375). -/
  due : List Nat
  /-- The slot being pre-erased. -/
  erasing : Option Nat
  /-- SEQUENCE the next record takes. -/
  next : Nat
  /-- The record slot that SOURCE 1 reads (R378). -/
  cursor : Option Nat
  /-- The CAUSE 4 record whose end completes an EVT_CLEAR (R379). -/
  clearing : Bool
deriving DecidableEq, Repr

/-- The Tap panel beside its registers (R380-R382): consecutive samples at the other level, by key and by presence input;
the last raw encoder sample and the level accepted of each input; the key mute states that the groups of mirrored blocks
take on a Flam chip (R381). -/
structure Tap where
  keyRun : Tbl Nat
  presRun : Tbl Nat
  encLast : Nat
  encLevel : Nat
  inForce : Nat
deriving DecidableEq, Repr

/-- Identity and OTP beside their registers (R383-R385): the nonce latched for the record being built, and the OTP commands
executing and waiting, oldest first, each with whether it came from the SMP. -/
structure Ident where
  attest : Option (List Byte)
  otp : List (List Byte × Bool)
deriving DecidableEq, Repr

/-- The power manager beside its registers (R390-R405). -/
structure Pmu where
  /-- Domains still to be switched on, in order; the boot waits for them. -/
  goal : List Nat
  /-- Domains still to be switched off, in order. -/
  offs : List Nat
  /-- The action that acts at the next boundary (R395, R396). -/
  ask : Option Nat
  /-- The mode entered once the outputs have ramped to silence: its block, and whether it is TEST's reset. -/
  sleepAt : Option Nat
  /-- LIMP was entered from SHADOW. -/
  limpShadow : Bool
  /-- L, the block at which the islands return (R402), and whether LIMP_EXIT was given. -/
  exitAt : Option Nat
  exitAsked : Bool
  /-- The block of LIMP entry, and islands of ISLAND causes whose domain is to be restarted. -/
  limpAt : Nat
  hung : List Nat
  /-- Domains whose restart an uncorrectable error stopped (R212): they stay reset. -/
  failed : List Nat
  /-- Sensors at 150 °C or more in the last sample (R400). -/
  hot : List Nat
  /-- PWR_FAIL_N is asserted; the chip has handed over. -/
  pwrFail : Bool
  handed : Bool
  /-- The flash slot that a wake by LOAD_FLASH names (R398). -/
  slot : Option Nat
  /-- The source of the wait for network time is settled (R398). -/
  ptpDone : Bool
  /-- The levels of the straps at the last sampling: BOOT_SRC, FLAM_ROLE, SMP_MODE (R394). -/
  straps : Nat
  /-- The main side restarts into TEST. -/
  test : Bool
  /-- PLL_00 lost lock outside LIMP (R14), and not in a commanded band search. -/
  lost : Bool
  /-- The thermal warning is in force (R405). -/
  warn : Bool
  /-- The device is in SENTRY after a hard thermal trip, or after a power-fail shutdown (R403, R405). -/
  tripped : Bool
  shut : Bool
deriving DecidableEq, Repr

/-- The device. -/
structure State where
  pending : List Instr
  /-- The model's own counter of free values drawn (notes/assumptions/2). -/
  freeCtr : Nat
  /-- What the device has sent to the outside, newest first (the model's own record). -/
  sent : List Emission
  /-- The register file: key `Fld.key`, an unlisted field reads as its reset value. RWS fields hold the shadow (R4). -/
  regs : Tbl Nat
  /-- The value in force of each RWS field (R31): key `Fld.key`. -/
  force : Tbl Nat
  commits : List PendingCommit
  /-- The structure of the live plane, once one is live (R47, R212). -/
  cfg : Option Cfg
  blk : Blk
  sxm : Sxm
  cln : Cln
  chm : Chm
  dpl : Dpl
  mal : Mal
  old : Option OldPlane
  ports : Ports
  mem : Mems
  hif : Hif
  rings : Tbl Ring
  net : Net
  tu : Tu
  clv : Clv
  beat : Beat
  gate : Gate
  hsk : Tbl Channel
  peal : Peal
  flm : Flm
  smp : Smp
  evt : Evt
  panel : Tap
  ident : Ident
  pmu : Pmu
  /-- Commands the engines hold, in order of arrival (R232, R233). -/
  held : List Held
  heldNext : Nat
deriving DecidableEq, Repr

/-- The block sequencer with no token issued. -/
abbrev Blk.idle : Blk := ⟨0, 0, 0, [], [], [], [], none, 0, 0, false, false, [], []⟩

/-- The crossbar and host interface after a reset: every MSI-X vector masked. -/
abbrev Hif.idle : Hif := ⟨[], [], [], [], [], [], [], [], 0, false, false, true, false⟩

/-- No image loaded, no swap. -/
abbrev Peal.idle : Peal := ⟨none, false, false, none, none, []⟩

/-- The recorder before its restore. -/
abbrev Evt.idle : Evt := ⟨[], [], [], none, [], none, 0, none, false⟩

/-- The power manager with straps at `straps`. -/
abbrev Pmu.idle (straps : Nat) : Pmu :=
  ⟨[], [], none, none, false, none, false, 0, [], [], [], false, false, none, false, straps, false, false, false, false, false⟩

/-- The machine right after the internal power-on reset, with BOOT_SRC host, FLAM_ROLE primary and SMP_MODE full (R393,
R394; notes/assumptions/3): SENTRY, only AO powered, the recorder restoring. Registers stand at the reset values of their
tables; PMU_RAIL_GOOD shows the two AO rails, PMU_RESET_CAUSE the power-on. -/
def State.reset : State where
  pending := []
  freeCtr := 0
  sent := []
  regs := [((R.PMU_RAIL_GOOD_GOOD).key, 12), ((R.PMU_RESET_CAUSE_POR).key, 1)]
  force := []
  commits := []
  cfg := none
  blk := .idle
  sxm := ⟨[], [], []⟩
  cln := ⟨[], [], [], [], 0⟩
  chm := .idle
  dpl := ⟨[], [], 0, []⟩
  mal := ⟨[], [], [], [], [], []⟩
  old := none
  ports := ⟨[], [], [], [], [], []⟩
  mem := ⟨[], 0, [], []⟩
  hif := .idle
  rings := []
  net := ⟨[], [], [], []⟩
  tu := ⟨[], [], [], [], 0, false⟩
  clv := .idle
  beat := ⟨[], [], []⟩
  gate := ⟨false, none⟩
  hsk := []
  peal := .idle
  flm := .idle
  smp := ⟨none, none, 0, 0, [], none⟩
  evt := .idle
  panel := ⟨[], [], 0, 0, 0⟩
  ident := ⟨none, []⟩
  pmu := .idle 0
  held := []
  heldNext := 0

end Sys2Proof.Machine
end

