-- ==== Sys2Proof/Machine/Ops.lean ====
section
/-! DEFINITION. The named operations every block uses: exact arithmetic narrowed explicitly, register fields, status bits
and their MSI-X vectors, emissions, free values. -/

namespace Sys2Proof.Machine

/-! ### Arithmetic -/

/-- `x` as a `w`-bit two's complement number. -/
def wrapS (w : Nat) (x : Int) : Int :=
  let r := x % (2 ^ w : Nat)
  if r < (2 ^ (w - 1) : Nat) then r else r - (2 ^ w : Nat)

/-- The `w`-bit two's complement code of `x`, as a number from 0. -/
def codeS (w : Nat) (x : Int) : Nat := (x % (2 ^ w : Nat)).toNat

/-- The number a `w`-bit two's complement code stands for. -/
def ofCodeS (w : Nat) (n : Nat) : Int := wrapS w n

/-- `x` held to the range of a `w`-bit two's complement number. -/
def satS (w : Nat) (x : Int) : Int :=
  if x > (2 ^ (w - 1) : Nat) - 1 then (2 ^ (w - 1) : Nat) - 1
  else if x < -((2 ^ (w - 1) : Nat) : Int) then -((2 ^ (w - 1) : Nat) : Int) else x

/-- `num / den` to the nearest integer, halves away from zero (R59, R85, R99). A `den` of 0 gives 0. -/
def roundDiv (num : Int) (den : Nat) : Int :=
  if num < 0 then -(((2 * (-num) + den) / (2 * den) : Int)) else (2 * num + den) / (2 * den)

/-- A rational to the nearest integer, halves away from zero (R259). -/
def roundRat (q : Rat) : Int := roundDiv q.num q.den

/-- `⌈a / b⌉`. -/
def ceilDiv (a b : Nat) : Nat := (a + b - 1) / b

/-- Whether a 32-bit word is the sign extension of its low 24 bits (R99, R125). -/
def signExt24 (w : Word) : Bool := decide (ofCodeS 24 (w.toNat % 2 ^ 24) = ofCodeS 32 w.toNat)

/-- A 24-bit code in bits [23:0] of a word as a number. -/
def low24 (w : Word) : Int := ofCodeS 24 (w.toNat % 2 ^ 24)

/-- Bit `i` of `n`. -/
def bit (n i : Nat) : Nat := n / 2 ^ i % 2

/-- Bits [hi:lo] of `n`. -/
def bits (n hi lo : Nat) : Nat := n / 2 ^ lo % 2 ^ (hi - lo + 1)

/-- `n` with bit `i` set. -/
def withBit (n i : Nat) : Nat := if bit n i = 1 then n else n + 2 ^ i

/-- `n` with bit `i` clear. -/
def withoutBit (n i : Nat) : Nat := if bit n i = 1 then n - 2 ^ i else n

/-- A truth value as a field. -/
def flag (b : Bool) : Nat := if b then 1 else 0

/-! ### Bytes -/

/-- The little-endian number of a byte list (R7). -/
def leNat : List Byte → Nat
  | [] => 0
  | b :: bs => b.toNat + 256 * leNat bs

/-- The `n` little-endian bytes of a number (R7). -/
def leBytes : Nat → Nat → List Byte
  | 0, _ => []
  | n + 1, x => BitVec.ofNat 8 x :: leBytes n (x / 256)

/-- The big-endian number of a byte list. -/
def beNat (bs : List Byte) : Nat := bs.foldl (fun a b => 256 * a + b.toNat) 0

/-- The `n` big-endian bytes of a number. -/
def beBytes (n x : Nat) : List Byte := (leBytes n x).reverse

/-- The bytes of `bs` from `off`, `n` of them. -/
def slice (bs : List Byte) (off n : Nat) : List Byte := (bs.drop off).take n

/-- The little-endian field of `n` bytes at `off`. -/
def leAt (bs : List Byte) (off n : Nat) : Nat := leNat (slice bs off n)

/-! ### Register fields -/

/-- The value of a register field. -/
def State.fld (s : State) (f : Fld) : Nat := Tbl.get s.regs f.key f.rst

/-- Set a register field; the value is cut to the field's width. -/
def State.setFld (s : State) (f : Fld) (v : Nat) : State :=
  { s with regs := Tbl.set s.regs f.key f.rst (v % 2 ^ f.width) }

/-- The per-minute histogram of the event recorder that a counter's events feed (R370). -/
def minuteHistogram (f : Fld) : Option Nat :=
  if f.addr = 0x14040020 then some 29
  else if f.addr = 0x14040024 then some 30
  else if f.addr = 0x14040030 then some 31
  else if f.addr = 0x14100310 then some 32
  else if f.addr = 0x14100314 then some 33
  else if f.addr = 0x1420010C then some 34
  else if f.addr = 0x14080020 then some 35
  else if f.addr = 0x14080024 then some 36
  else if 0x14090000 ≤ f.addr ∧ f.addr < 0x14091000 ∧ f.addr % 256 = 0x24 then some 37
  else if 0x140A0000 ≤ f.addr ∧ f.addr < 0x140A1000 ∧ f.addr % 512 = 0x2C then some 37
  else if 0x14090000 ≤ f.addr ∧ f.addr < 0x14091000 ∧ f.addr % 256 = 0x28 then some 38
  else if 0x140A0000 ≤ f.addr ∧ f.addr < 0x140A1000 ∧ f.addr % 512 = 0x18 then some 39
  else if 0x140A0000 ≤ f.addr ∧ f.addr < 0x140A1000 ∧ f.addr % 512 = 0x1C then some 40
  else if 0x140B8000 ≤ f.addr ∧ f.addr < 0x140BA000 ∧ f.addr % 32 = 8 then some 41
  else if f.addr = 0x14400054 then some 42
  else if f.addr = 0x14400064 then some 43
  else if f.addr = 0x14031000 then some 44
  else if 0x14301000 ≤ f.addr ∧ f.addr < 0x14301800 ∧ f.addr % 64 = 0x18 then some (45 + (f.addr - 0x14301000) / 64)
  else if 0x14301000 ≤ f.addr ∧ f.addr < 0x14301800 ∧ f.addr % 64 = 0x1C then some 95
  else none

/-- Add to a saturating counter (R86, R120, ...: every counter stops at its all-ones value). A counter that feeds a
histogram also counts in the running minute (R370). -/
def State.bump (s : State) (f : Fld) (n : Nat := 1) : State :=
  let s1 := s.setFld f (min (s.fld f + n) (2 ^ f.width - 1))
  match minuteHistogram f with
  | none => s1
  | some h => { s1 with evt := { s1.evt with minute := Tbl.set s1.evt.minute h 0 (Tbl.get s1.evt.minute h 0 + n) } }

/-- Raise a peak field to at least `v`. -/
def State.peak (s : State) (f : Fld) (v : Nat) : State :=
  if s.fld f < v then s.setFld f (min v (2 ^ f.width - 1)) else s

/-- Clear a list of fields. -/
def State.clearFlds (s : State) (fs : List Fld) : State := fs.foldl (fun s f => s.setFld f 0) s

/-- The value in force of an RWS field (R4, R31). -/
def State.inForce (s : State) (f : Fld) : Nat := Tbl.get s.force f.key f.rst

/-- Put a value of an RWS field in force. -/
def State.setForce (s : State) (f : Fld) (v : Nat) : State :=
  { s with force := Tbl.set s.force f.key f.rst (v % 2 ^ f.width) }

/-- A register's word from its stored fields. -/
def State.regWord (s : State) (a : Nat) : Nat := (regFields a).foldl (fun n p => n + s.fld p.1 * 2 ^ p.1.lo) 0

/-- Record what the device sends to the outside. -/
def State.emit (s : State) (e : Emission) : State := { s with sent := e :: s.sent }

/-- Draw a free value: a value the spec leaves open, and the state after drawing it. -/
def State.fresh (s : State) : Nat × State := (Config.freeValue s.freeCtr, { s with freeCtr := s.freeCtr + 1 })

/-- Draw a true random number (R206, R275, R379, R384). -/
def State.random (s : State) : Nat × State := (Config.random s.freeCtr, { s with freeCtr := s.freeCtr + 1 })

/-! ### Status bits and MSI-X (R219) -/

/-- Whether MSI-X vector `v` is masked: bit 0 of its vector control word, which is set at reset. -/
def State.msixMasked (s : State) (v : Nat) : Bool := decide (Tbl.get s.hif.msixTable (4 * v + 3) 1 % 2 = 1)

/-- Request one message on a vector: sent at once, kept pending while the vector is masked (R219), and not sent while the
function is in D3hot (R435). -/
def State.msixRequest (s : State) (v : Nat) : State :=
  if s.hif.d3hot then s
  else if s.msixMasked v then
    { s with hif := { s.hif with msixPend := if v ∈ s.hif.msixPend then s.hif.msixPend else v :: s.hif.msixPend } }
  else s.emit (.msix v)

/-- Raise a vector. A ring vector with MOD set merges the raises that fall within MOD µs of the previous one (R246); the
end of the interval is the event MSIX_MODERATION_EXPIRY. -/
def State.raiseVector (s : State) (v : Nat) : State :=
  if 64 ≤ v ∧ s.fld (R.RNG_CTRL_MOD (v - 64)) ≠ 0 then
    if s.hif.moderated.any (fun p => p.1 == v) then
      { s with hif := { s.hif with moderated := s.hif.moderated.map (fun p => if p.1 == v then (v, true) else p) } }
    else { s.msixRequest v with hif := { (s.msixRequest v).hif with moderated := (v, false) :: s.hif.moderated } }
  else s.msixRequest v

/-- The MSI-X vector of a status register (R219). -/
def vectorOf (a : Nat) : Nat :=
  let o := a - 0x14000000
  if o < 0x10000 then 1
  else if o < 0x30000 then 0
  else if o < 0x31000 then 64 + (o - 0x30000) / 0x20
  else if o < 0x40000 then 24
  else if o < 0x50000 then 3
  else if o < 0x60000 then 4
  else if o < 0x70000 then 2
  else if o < 0x80000 then 5
  else if o < 0x90000 then 12
  else if o < 0xA0000 then 13
  else if o < 0xB0000 then 14
  else if o < 0xC0000 then 15
  else if o < 0xD0000 then 16
  else if o < 0xE0000 then 17
  else if o < 0xF0000 then 18
  else if o < 0x100000 then 21
  else if o < 0x200000 then 6
  else if o < 0x300000 then 7
  else if o < 0x400000 then 19
  else if o < 0x800000 then 20
  else if o < 0x1800000 then 8 + (o - 0x800000) / 0x400000
  else if o < 0x1F10000 then 22
  else if o < 0x1F20000 then 23
  else 22

/-- The enable register of a status register. -/
def enableOf (a : Nat) : Nat :=
  if a = 0x14010010 then 0x1401001C
  else if 0x14030000 ≤ a ∧ a < 0x14031000 then a - 0x10
  else a + 4

/-- Whether bit `i` of the status register at `a` is enabled. A ring's flags share RNG_CTRL.IRQ_EN (R246). -/
def State.irqEnabled (s : State) (a i : Nat) : Bool :=
  let en := Tbl.get s.regs (enableOf a * 32) 0
  if 0x14030000 ≤ a ∧ a < 0x14031000 then decide (en % 2 = 1) else decide (bit en i = 1)

/-- Set bit `i` of a status field; if it rises with its enable set, its vector is raised (R219). -/
def State.raiseAt (s : State) (f : Fld) (i : Nat) : State :=
  if bit (s.fld f) i = 1 then s
  else
    let s' := s.setFld f (s.fld f + 2 ^ i)
    if s'.irqEnabled f.addr (f.lo + i) then s'.raiseVector (vectorOf f.addr) else s'

/-- Set a one-bit status field. -/
def State.raise (s : State) (f : Fld) : State := s.raiseAt f 0

/-- Count an event and set its status bit. -/
def State.countAndRaise (s : State) (c st : Fld) : State := (s.bump c).raise st

/-! ### Mode (R395) -/

/-- The modes, by their code in SYS_MODE (R395, R406). -/
inductive Mode where
  | sentry | load | shadow | live | limp | test
deriving DecidableEq, Repr

end Sys2Proof.Machine
end

