-- ==== Sys2Proof/Machine/Buses.lean ====
section
/-! DEFINITION. Buses and the sample exchange memory (R70-R74), the fade rule (R85), islands and boundaries (R12, R17),
and the commands an engine holds until a boundary (R232, R233). -/

namespace Sys2Proof.Machine

/-! ### Islands, domains and boundaries -/

/-- The power domain of an island (R12): 1 AO, 2 CTRL, 3 CLN, 4 CHM, 5-8 MAL_00-MAL_03, 9 NET, 10 PORTS, 11 BEAT, 12 DRAM. -/
def domainOf (island : Nat) : Nat :=
  if island = 0 then 1
  else if island = 1 ∨ island = 25 then 2
  else if island < 6 then 3
  else if island < 8 then 4
  else if island < 12 then island - 3
  else if island = 12 ∨ island = 24 then 12
  else if island < 19 then 9
  else if island < 22 then 10
  else 11

/-- The islands of a power domain (R12). -/
def islandsOf (domain : Nat) : List Nat := (List.range 26).filter (fun i => domainOf i == domain)

/-- Whether an island's domain is on. -/
def State.islandOn (s : State) (island : Nat) : Bool := decide (s.fld (R.SYS_ISLAND_POWERED island) = 1)

/-- Whether a power domain is on: its first island reports it. -/
def State.domainOn (s : State) (d : Nat) : Bool :=
  match islandsOf d with
  | [] => false
  | i :: _ => s.islandOn i

/-- The power domain of the register at an internal address (R35): 0 where the address belongs to no block. -/
def addrDomain (a : Nat) : Nat :=
  if a < 0x14000000 then 0
  else if a < 0x14070000 then 2
  else if a < 0x14080000 then 10
  else if a < 0x14090000 then 12
  else if a < 0x140B0000 then 10
  else if a < 0x140C0000 then 9
  else if a < 0x14100000 then 2
  else if a < 0x14200000 then 3
  else if a < 0x14300000 then 4
  else if a < 0x14400000 then 11
  else if a < 0x14410000 then 9
  else if a < 0x14800000 then 0
  else if a < 0x15800000 then 5 + (a - 0x14800000) / 0x400000
  else if a < 0x15F00000 then 0
  else if a < 0x16000000 then 1
  else 0

/-- Count a request that decodes nowhere (R226). -/
def State.countDecErr (s : State) (a : Nat) : State :=
  ((s.setFld R.XB_DECERR_ADDR_ADDR a).bump R.XB_DECERR_COUNT_COUNT).raise R.XB_INT_STATUS_DECERR

/-- The islands an engine sits on (R12, R231). -/
def engineIslands : Engine → List Nat
  | .ring => [1]
  | .cln => [2, 3, 4, 5]
  | .chm => [6, 7]
  | .mal c => [8 + c]
  | .dpl => [12]
  | .prt => [19, 20]
  | .net => [13, 14, 15, 16]
  | .clv => [25]
  | .beat => [22, 23]
  | .flm => [17, 18]

/-- The domain of an engine. -/
def engineDomain (e : Engine) : Nat := domainOf ((engineIslands e).headD 0)

/-- Index and order of the latest token that has arrived at one of the islands (R17). -/
def State.reached (s : State) (is : List Nat) : Nat × Nat :=
  is.foldl (fun b i => let a := Tbl.get s.blk.arrived i (0, 0); if b.2 < a.2 then a else b) (0, 0)

/-- Index and order of the latest token that has arrived at every one of the islands (R17). -/
def State.passed (s : State) (is : List Nat) : Nat × Nat :=
  is.foldl (fun b i => let a := Tbl.get s.blk.arrived i (0, 0); if a.2 < b.2 then a else b) (s.reached is)

/-- The engine's latest boundary: that of the first of its islands to be reached. Every slice and half of Carillon and Chimes
applies a change at the same index (R114, R135), so for them the first arrival is the engine's boundary. -/
def State.boundary (s : State) (e : Engine) : Nat × Nat := s.reached (engineIslands e)

/-! ### Samples of a block -/

/-- The falling ramp of R85 over `n` samples. -/
def fallRamp (n : Nat) (xs : List Int) : List Int :=
  (List.range n).map (fun j => roundDiv ((xs.getD j 0) * ((n - j : Nat) : Int)) n)

/-- The rising ramp of R85 over `n` samples. -/
def riseRamp (n : Nat) (xs : List Int) : List Int :=
  (List.range n).map (fun j => roundDiv ((xs.getD j 0) * ((j + 1 : Nat) : Int)) n)

/-- `n` samples of silence. -/
def silence (n : Nat) : List Int := List.replicate n 0

/-- The block the fade rule supplies after `prev` (R85): the falling ramp once, then silence. -/
def fadeAfter (n : Nat) (prev : BusBlk) : List Int :=
  if prev.faded || prev.late then silence n else fallRamp n prev.samples

/-- A good block as the rule lets it through: the first one after a late or faded block rises (R85). -/
def riseAfter (n : Nat) (prev : BusBlk) (xs : List Int) : List Int :=
  if prev.faded || prev.late then riseRamp n xs else xs

/-! ### SXM -/

/-- The slot key of bus `b` for data block `k` (R72: bank = parity of k; the slot of block k + 1 holds block k − 1 until
block k + 1 is written). -/
def slotKey (k b : Nat) : Nat := k % 2 * 8192 + b

/-- Bus `b` of data block `k` as a task of the live plane reads it. -/
def State.bus (s : State) (k b : Nat) : BusBlk := Tbl.get s.sxm.main (slotKey k b) .empty

/-- Write the slot of bus `b` for data block `k`. -/
def State.setBus (s : State) (k b : Nat) (v : BusBlk) : State :=
  { s with sxm := { s.sxm with main := Tbl.set s.sxm.main (slotKey k b) .empty v } }

/-- Bus `b` of data block `k` in its swap slot (R72). -/
def State.swapBus (s : State) (k b : Nat) : BusBlk := Tbl.get s.sxm.swap (slotKey k b) .empty

/-- Write the swap slot of bus `b` for data block `k`. -/
def State.setSwapBus (s : State) (k b : Nat) (v : BusBlk) : State :=
  { s with sxm := { s.sxm with swap := Tbl.set s.sxm.swap (slotKey k b) .empty v } }

/-- The samples bus `b` holds in data block `k` (R70). A domain C bus holds what its writer moved. -/
def busCount (c : Cfg) (k b : Nat) (xs : List Int) : Nat :=
  match c.bus? b with
  | none => 0
  | some r => if r.domain = 0 then c.blockLen else if r.domain = 1 then c.countB k else min xs.length (2 * c.blockLen + 1)

/-- Whether bus `b` is output-facing. -/
def outFacing (c : Cfg) (b : Nat) : Bool := match c.bus? b with | none => false | some r => r.outFacing

/-- A task's good block on bus `b`: an internal bus that was late or faded rises here; an output-facing bus rises at its
egress (R85). -/
def State.writeBus (s : State) (c : Cfg) (k b : Nat) (xs : List Int) : State :=
  let n := busCount c k b xs
  let prev := s.bus (k + 1) b
  let ys := (List.range n).map (fun j => xs.getD j 0)
  s.setBus k b ⟨if outFacing c b then ys else riseAfter n prev ys, false, false⟩

/-- The samples of a block that bus `b` gets without its writer's work: as many as the bus holds (R70), or, on a domain C bus, as
its last block held. -/
def State.blankCount (s : State) (c : Cfg) (k b : Nat) : Nat := busCount c k b (s.bus (k + 1) b).samples

/-- An overrun's block on bus `b` (R83, R85): an internal bus is formed by the fade rule from the other bank; an output-facing
bus is formed at its egress, and its readers in SXM get zeros (notes/assumptions/47). LATE and FADED are set on both. -/
def State.overrunBus (s : State) (c : Cfg) (k b : Nat) : State :=
  let n := s.blankCount c k b
  s.setBus k b ⟨if outFacing c b then silence n else fadeAfter n (s.bus (k + 1) b), true, true⟩

/-- A deadline miss on bus `b` (R84): LATE is set, and its readers read zeros. The fade rule supplies the block of an
output-facing bus at its egress, so FADED is set there (R73, R85). -/
def State.missBus (s : State) (c : Cfg) (k b : Nat) : State := s.setBus k b ⟨silence (s.blankCount c k b), true, outFacing c b⟩

/-- A bus whose writer LIMP withholds (R87, R88): its readers read zeros; FADED is set where it is output-facing. -/
def State.withholdBus (s : State) (c : Cfg) (k b : Nat) : State := s.setBus k b ⟨silence (s.blankCount c k b), false, outFacing c b⟩

/-! ### Held commands (R232, R233) -/

/-- Whether every number from `first`, `count` of them, satisfies `p`. -/
def allFrom (first count : Nat) (p : Nat → Bool) : Bool := (List.range count).all (fun i => p (first + i))

/-- Whether a word range of a core lies in its parameter ranges (R64, R169). -/
def Cfg.paramWords (c : Cfg) (core start count : Nat) : Bool :=
  allFrom start count (fun w => c.datas.any (fun d =>
    d.parameter && decide (d.core = core ∧ d.start ≤ w ∧ w < d.start + d.words.length)))

/-- Whether the object of a command exists in a plane (R63, R64). The rows of a list are judged when they apply. -/
def Cfg.hasObject (c : Cfg) : Cmd → Bool
  | .xpSet i o _ _ => (match c.geom with | none => false | some g => decide (i < g.inputs ∧ o < g.outputs))
  | .xpWrite i o _ _ => (match c.geom with | none => false | some g => decide (i < g.inputs ∧ o < g.outputs))
  | .xpClearOut o _ => (match c.geom with | none => false | some g => decide (o < g.outputs))
  | .xpClearIn i _ => (match c.geom with | none => false | some g => decide (i < g.inputs))
  | .outMute first count _ => (match c.geom with | none => false | some g => decide (first + count ≤ g.outputs))
  | .bankSelect first count _ _ => allFrom first count (fun f => (c.filter? f).isSome)
  | .coefWrite f _ _ _ _ => (c.filter? f).isSome
  | .presetLoad a p _ _ => c.presets.any (fun r => decide (r.array = a ∧ r.preset = p))
  | .paramSet g n start _ => c.paramWords g start n
  | .paramWrite g w _ => c.paramWords g w 1
  | .delaySet l _ _ => (c.line? l).isSome
  | .prtMask n _ => (c.prt? n).isSome
  | .portMute k first count _ _ =>
    if k = 0 then allFrom first count (fun n => (c.prt? n).isSome) else allFrom first count (fun n => (c.aes? n).isSome)
  | .streamMute first count _ _ => allFrom first count (fun n => (c.stream? true n).isSome)
  | .beatMute first count _ _ => allFrom first count (fun n => (c.beatChan? n).isSome)
  | .beatEnable first count _ => allFrom first count (fun n => (c.beatChan? n).isSome)
  | .beatClear first count => allFrom first count (fun n => (c.beatChan? n).isSome)
  | .beatDiag first count => allFrom first count (fun n => (c.beatChan? n).isSome)
  | _ => true

/-- Whether the object of a command exists in the live plane. -/
def State.hasObject (s : State) (c : Cmd) : Bool := match s.cfg with | none => false | some p => p.hasObject c

/-- The islands of Beater's channels from `first`, `count` of them (R12). -/
def beatIslands (first count : Nat) : List Nat :=
  if first + count ≤ 16 then [22] else if 16 ≤ first then [23] else [22, 23]

/-- The islands that a command concerns (R12, R17): those of the units it names. -/
def State.cmdIslands (s : State) (e : Engine) : Cmd → List Nat
  | .prtMask .. => [19]
  | .portMute kind .. => if kind = 0 then [19] else [20]
  | .netSend port .. => [13 + port % 4]
  | .streamMute first count _ _ =>
    match s.cfg with
    | none => engineIslands e
    | some c =>
      let is := ((c.streams.filter (fun r => r.dirOut && decide (first ≤ r.stream ∧ r.stream < first + count))).map (fun r => 13 + r.port)).dedup
      if is = [] then engineIslands e else is
  | .beatMute first count _ _ => beatIslands first count
  | .beatEnable first count _ => beatIslands first count
  | .beatClear first count => beatIslands first count
  | .beatDiag first count => beatIslands first count
  | .regWrite a _ =>
    match e with
    | .prt => if a < 0x140A0000 then [19] else [20]
    | .beat => beatIslands ((a - 0x14301000) / 64) 1
    | _ => engineIslands e
  | _ => engineIslands e

/-- The boundary at which a held command applies: Carillon's and Chimes' is that of the engine (R114, R135); any other command
waits for the token at every island it concerns (R17, notes/assumptions/45). -/
def State.cmdBoundary (s : State) (h : Held) : Nat × Nat :=
  match h.eng with
  | .cln | .chm => s.boundary h.eng
  | _ => s.passed (s.cmdIslands h.eng h.cmd)

/-- Whether a task of the live plane that satisfies `p` has been dispatched in this round. -/
def State.begun (s : State) (p : TaskRec → Bool) : Bool :=
  match s.cfg with
  | none => false
  | some c => (s.blk.ended.map (·.1) ++ s.blk.running.map (·.1)).any (fun t => match c.task? t with | some r => p r | none => false)

/-- Whether an engine still stands at its latest boundary: the token of the running block has reached it, and none of its tasks has
been dispatched. What takes effect now belongs to that boundary. -/
def State.atBoundary (s : State) (e : Engine) (kind : Nat) : Bool :=
  decide ((s.boundary e).2 = s.blk.seq) && !s.begun (fun r => r.kind == kind && decide (r.island ∈ engineIslands e))

/-- Take a command in: it is held at its engine until a boundary. -/
def State.hold (s : State) (h : Held) : State :=
  { s with held := s.held ++ [{ h with id := s.heldNext, arr := (s.reached (s.cmdIslands h.eng h.cmd)).2, known := s.hasObject h.cmd }],
           heldNext := s.heldNext + 1 }

/-- A command that did not come from a ring: a row of the table, or a register or window write. It is unstamped. -/
def heldOf (e : Engine) (c : Cmd) (f : Fetch) : Held := ⟨0, e, c, none, false, false, 0, 0, none, 0, 0, 0, 0, f, false, none, false, false⟩

/-- Whether a held command is due at a boundary, given by index and order (R232): taken in before the boundary's token, and its
stamp reached. -/
def State.dueAt (b : Nat × Nat) (h : Held) : Bool :=
  decide (h.arr < b.2) && (match h.stamp with | none => true | some k => decide (k ≤ b.1)) &&
    (match h.mirrorAt with | none => true | some k => decide (k ≤ b.1))

/-- Whether a held command applies now. -/
def State.due (s : State) (h : Held) : Bool := State.dueAt (s.cmdBoundary h) h

/-- A held register write: Clave and Beater apply these after every command (R311, R338). -/
def Cmd.isRegWrite : Cmd → Bool
  | .regWrite .. => true
  | _ => false

/-- A write into the crosspoint window or CLN_XP_TGT (R115). -/
def Cmd.isXpWrite : Cmd → Bool
  | .xpWrite .. => true
  | _ => false

/-- Whether command `g` waits behind the earlier command `h` where that waits whole (R115, R135): it came later from the same ring,
or both are crosspoint writes. -/
def Held.behind (h g : Held) : Bool :=
  decide (h.id < g.id ∧ g.eng = h.eng) && ((g.ring.isSome && decide (g.ring = h.ring)) || (h.cmd.isXpWrite && g.cmd.isXpWrite))

/-- Whether a held command waits behind another: behind one that waits whole, or behind an XP_LIST that waits unfetched (R115). -/
def State.blocked (s : State) (g : Held) : Bool :=
  s.held.any (fun h => (h.whole || decide (h.fetch = .waiting)) && h.behind g)

/-- Whether engine `e` may take a held command at its boundary now. -/
def State.ready (s : State) (e : Engine) (h : Held) : Bool :=
  decide (h.eng = e) && s.due h && decide (h.fetch ≠ .waiting) && !s.blocked h

/-- Whether an engine applies stamped commands before the others (R114, R135, R170, R203). -/
def stampedFirst : Engine → Bool
  | .cln | .chm | .mal _ | .dpl => true
  | _ => false

/-- The next command engine `e` applies at its boundary: where its chapter says so, stamped ones first (R114, R135, R170, R203); the
others in order of arrival (R233); held register writes last (R263, R311, R338). -/
def State.nextDue (s : State) (e : Engine) : Option Held :=
  match s.held.find? (fun h => s.ready e h && stampedFirst e && h.stamp.isSome) with
  | some h => some h
  | none =>
    match s.held.find? (fun h => s.ready e h && !h.cmd.isRegWrite) with
    | some h => some h
    | none => s.held.find? (fun h => s.ready e h)

/-- Remove a held command. -/
def State.unhold (s : State) (id : Nat) : State := { s with held := s.held.filter (fun h => h.id != id) }

/-- Let a held command wait for the next boundary, with the commands behind it where it waits `whole` (R115, R135). -/
def State.deferHeld (s : State) (h : Held) (whole : Bool) : State :=
  { s with held := s.held.map (fun g =>
      if g.id = h.id then { g with arr := (s.cmdBoundary h).2, late := true, whole := whole }
      else if whole && h.behind g then { g with arr := (s.cmdBoundary h).2 } else g) }

/-- How many commands wait at this boundary with `h`: itself, and those behind it that were due. -/
def State.waitCount (s : State) (h : Held) (whole : Bool) : Nat :=
  (s.held.filter (fun g => decide (g.id = h.id) || (whole && h.behind g && s.due g))).length

/-- Hold a command given as a row that has to wait at the boundary its engine is at. -/
def State.holdLate (s : State) (e : Engine) (c : Cmd) : State := s.hold { heldOf e c .notNeeded with late := true }

/-- Samples that a table of per-sample values gives a bus. -/
def BusBlk.at (b : BusBlk) (j : Nat) : Int := b.samples.getD j 0

/-- Set the fetch state of a held command. -/
def State.setFetch (s : State) (id : Nat) (f : Fetch) : State :=
  { s with held := s.held.map (fun g => if g.id = id then { g with fetch := f } else g) }

/-- Blocks per second of the live plane (R66). -/
def State.blocksPerSecond (s : State) : Nat :=
  match s.cfg with | none => 1 | some c => rateAHz c.sys.rateA / max 1 c.blockLen

/-- The mode in force (R395). -/
def State.mode (s : State) : Mode :=
  match s.fld R.SYS_MODE_MODE with
  | 0 => .sentry
  | 1 => .load
  | 2 => .shadow
  | 3 => .live
  | 4 => .limp
  | _ => .test

/-- The outputs are to be driven: in LIVE, and in LIMP entered from LIVE (R397). -/
def State.outputsLive (s : State) : Bool := decide (s.mode = .live ∨ (s.mode = .limp ∧ s.pmu.limpShadow = false))

/-! ### The mirror set (R343, R345, R346) -/

/-- The state of Flam (R353): 0 OFF, 1 PAIRING, 2 RESYNC, 3 STANDBY, 4 ACTIVE, 5 YIELDING, 6 ISOLATED. -/
def State.flmState (s : State) : Nat := s.fld R.FLM_STATE_STATE

/-- The live plane mirrors CONTROL of object `o`, and Flam operates. -/
def State.mirrors (s : State) (o : Nat) : Bool :=
  s.flm.operates && (match s.cfg with
    | none => false
    | some c => (c.mirror.getD []).any (fun m => decide (m.kind = 1 ∧ m.object = o)))

/-- The chip takes the objects of CONTROL block `o` from its peer (R348). -/
def State.flmFollows (s : State) (o : Nat) : Bool := s.mirrors o && decide (s.flmState = 2 ∨ s.flmState = 3)

/-- The object of R343 that a command's engine belongs to. -/
def Engine.object : Engine → Nat
  | .cln => 1
  | .chm => 2
  | .dpl => 3
  | .mal _ => 4
  | .prt => 5
  | .net => 7
  | .beat => 8
  | .clv => 9
  | .ring | .flm => 0

/-! ### Mute groups (R380, R381) -/

/-- Whether any key bound to the mute group of a kind and index is muted, by the key mute states `keys`. -/
def Cfg.groupOf (c : Cfg) (keys kind index : Nat) : Bool :=
  c.taps.any (fun r => decide (r.group = 64 * kind + index ∧ bit keys r.key = 1))

/-- The CONTROL object of R343 that a mute group's members belong to, by KIND: CLN, BEAT, PRT, AES. -/
def groupObject (kind : Nat) : Nat := if kind = 0 then 1 else if kind = 1 then 8 else if kind = 2 then 5 else 6

/-- Whether the mute group of a kind and index mutes its members (R380, R381): where the members' block is mirrored by the
key states that both chips have in force; where it is not, on a chip that takes its own keys only. -/
def State.groupMuted (s : State) (kind index : Nat) : Bool :=
  match s.cfg with
  | none => false
  | some c =>
    if s.mirrors (groupObject kind) then c.groupOf s.panel.inForce kind index
    else (!s.flm.operates || decide (s.flmState = 0 ∨ s.flmState = 4)) && c.groupOf (s.fld R.TAP_MUTE_KEY_MUTED) kind index

/-! ### The output gate (R69, R397, R403) -/

/-- The gain of sample `j` of `n` in emit block `k`: none where the outputs are withheld. A ramp that has not begun leaves them as they
were: released before a fall, withheld before a rise. -/
def Gate.level (g : Gate) (k j n : Nat) : Option Rat :=
  let base : Option Rat := if g.released then some 1 else none
  match g.ramp with
  | none => base
  | some (b, len, up) =>
    let d := (k + 2 ^ 48 - b) % 2 ^ 48
    if 2 ^ 47 ≤ d then (if up then none else some 1)
    else if d < len then
      let m := len * max n 1
      let i := min (d * max n 1 + j) (m - 1)
      some (if up then (((i + 1 : Nat) : Rat) / (m : Nat)) else (((m - i : Nat) : Rat) / (m : Nat)))
    else base

/-- A sample as the gate lets it through: 0 where the outputs are withheld. -/
def State.gated (s : State) (k j n : Nat) (x : Int) : Int :=
  match s.gate.level k j n with
  | none => 0
  | some l => if l = 1 then x else roundRat (l * (x : Rat))

/-- Whether the outputs are withheld in emit block `k` (R397). -/
def State.withheldIn (s : State) (k : Nat) : Bool := (s.gate.level k 0 1).isNone

end Sys2Proof.Machine
end

