-- ==== Sys2Proof/Machine/Tasks.lean ====
section
/-! DEFINITION. Tasks beside what they compute: the old plane's changed tasks during a crossfade (R58, R59, R72), the ends
of tasks, overruns and deadline misses (R83-R86). -/

namespace Sys2Proof.Machine

/-- Whether a register address belongs to the engines' tables, of which each plane has its own version during a crossfade:
the Carillon geometry and output table, the Chimes filter table and the line table (R120, R137, R214). -/
def tableAddr (a : Nat) : Bool :=
  decide ((0x14100000 ≤ a ∧ a < 0x1410000C) ∨ (0x14180000 ≤ a ∧ a < 0x14200000) ∨ (0x14240000 ≤ a ∧ a < 0x14242000) ∨
    (0x14088000 ≤ a ∧ a < 0x14090000))

/-- The register file with the table fields of `t`. -/
def withTables (regs t : Tbl Nat) : Tbl Nat :=
  t.foldl (fun r e => Tbl.put r e.1 e.2) (regs.filter (fun e => !tableAddr (e.1 / 32)))

/-- The table fields of a register file. -/
def tablesOf (regs : Tbl Nat) : Tbl Nat := regs.filter (fun e => tableAddr (e.1 / 32))

/-- Exchange the main and swap slots of the swapped buses (R72): applied twice, it gives the original back. -/
def Sxm.exchange (x : Sxm) (bs : List Nat) : Sxm :=
  let isIn := fun (e : Nat × BusBlk) => decide (e.1 % 8192 ∈ bs)
  { x with
    main := (x.swap.filter isIn).foldl (fun t e => Tbl.put t e.1 e.2) (x.main.filter (fun e => !isIn e))
    swap := (x.main.filter isIn).foldl (fun t e => Tbl.put t e.1 e.2) (x.swap.filter (fun e => !isIn e)) }

/-- Run `f` as an old-plane changed task: on the old plane's structure and engine state, with its swapped buses in their
swap slots (R59, R72). -/
def State.inOld (s : State) (f : State → State) : State :=
  match s.old with
  | none => s
  | some o =>
    let s1 := { s with cfg := some o.cfg, cln := o.cln, chm := o.chm, dpl := o.dpl, sxm := s.sxm.exchange o.swapped,
                       blk := { s.blk with brg := o.brg }, regs := withTables s.regs o.regs }
    let r := f s1
    { r with cfg := s.cfg, cln := s.cln, chm := s.chm, dpl := s.dpl, sxm := r.sxm.exchange o.swapped,
             blk := { r.blk with brg := s.blk.brg }, regs := withTables r.regs (tablesOf s.regs),
             old := some { o with cln := r.cln, chm := r.chm, dpl := r.dpl, brg := r.blk.brg, regs := tablesOf r.regs } }

/-- Run `f` for one version of a task. -/
def State.inVersion (s : State) (old : Bool) (f : State → State) : State := if old then s.inOld f else f s

/-- The structure a version of a task runs by. -/
def State.verCfg (s : State) (old : Bool) : Option Cfg := if old then s.old.map (·.cfg) else s.cfg

/-- Bus `b` of data block `k` as a version of a task reads it (R72). -/
def State.verBus (s : State) (old : Bool) (k b : Nat) : BusBlk :=
  match s.old with
  | some o => if old && decide (b ∈ o.swapped) then s.swapBus k b else s.bus k b
  | none => s.bus k b

/-- The buses whose WRITER is task `t`. -/
def Cfg.taskBuses (c : Cfg) (t : Nat) : List Nat := (c.buses.filter (fun r => r.writer == t)).map (·.bus)

/-- A task's data block at the block in progress: egress works on block T − 2, every other task on T − 1 (R18). -/
def dataBlock (kind index : Nat) : Nat := (index + 2 ^ 48 - (if kind = 6 then 2 else 1)) % 2 ^ 48

/-- Count a late task (R86). -/
def State.countLate (s : State) (overrun : Bool) (task island k : Nat) : State :=
  let s1 := if overrun then s.countAndRaise R.BLK_OVERRUN_TOTAL_COUNT R.BLK_INT_STATUS_OVERRUN
    else s.countAndRaise R.BLK_LATE_TOTAL_COUNT R.BLK_INT_STATUS_LATE
  (((s1.bump (R.BLK_ISL_LATE_COUNT island)).setFld R.BLK_LATE_LAST_OVERRUN (flag overrun)).setFld
    R.BLK_LATE_LAST_TASK task).setFld R.BLK_LATE_LAST_BLK_LO_BLK k

/-- A task of this round has ended. -/
def State.markEnded (s : State) (task : Nat) (old : Bool) : State :=
  { s with blk := { s.blk with ended := (task, old) :: s.blk.ended,
                               running := s.blk.running.filter (fun r => !(r.1 == task && r.2.1 == old)) } }

/-- Whether a version of a task has ended its work in this round. -/
def State.hasEnded (s : State) (task : Nat) (old : Bool) : Bool := s.blk.ended.contains (task, old)

/-- A Mallet task is stopped (R83, R161): its buses take the fade rule with LATE, and the stop is counted. -/
def State.overrunTask (s : State) (task : Nat) (old : Bool) (island k : Nat) : State :=
  let s1 := s.inVersion old (fun s =>
    match s.cfg with
    | none => s
    | some c => (c.taskBuses task).foldl (fun s b => s.overrunBus c k b) s)
  (s1.countLate true task island k).markEnded task old

end Sys2Proof.Machine
end

