-- ==== Sys2Proof/Machine/Beater.lean ====
section
/-! DEFINITION. Beater (R321-R339): channel states, levels, diagnostics, faults and rails. Measured quantities come with the
events: Vc in thousandths of the rail, Vd and the reference in one unit, currents as threshold codes. The loop macro's analogue
side is outside the model (R324, R326). -/

namespace Sys2Proof.Machine

/-! ### Channels and rails -/

/-- Channel `n`. -/
def State.bchan (s : State) (n : Nat) : BeatChan := Tbl.get s.beat.chans n BeatChan.none

/-- Write channel `n`. -/
def State.setBchan (s : State) (n : Nat) (x : BeatChan) : State :=
  { s with beat := { s.beat with chans := Tbl.set s.beat.chans n BeatChan.none x } }

/-- Rail `r`. -/
def State.brail (s : State) (r : Nat) : BeatRail := Tbl.get s.beat.rails r BeatRail.none

/-- Write rail `r`. -/
def State.setBrail (s : State) (r : Nat) (x : BeatRail) : State :=
  { s with beat := { s.beat with rails := Tbl.set s.beat.rails r BeatRail.none x } }

/-- The state codes of R327. -/
abbrev btAbsent : Nat := 0
abbrev btStopped : Nat := 1
abbrev btDiag : Nat := 2
abbrev btPreroll : Nat := 3
abbrev btRunning : Nat := 4
abbrev btStopping : Nat := 5
abbrev btFault : Nat := 6
abbrev btLatched : Nat := 7
abbrev btUnplugged : Nat := 8

/-- A channel's state (R327). -/
def State.bstate (s : State) (n : Nat) : Nat := s.fld (R.BEAT_STATUS_STATE n)

/-- Whether a state switches the gates at zero or more (R327). -/
def beatSwitching (st : Nat) : Bool := decide (3 ≤ st ∧ st ≤ 5)

/-- Whether a channel counts for its rail (R335). -/
def beatCounted (st : Nat) : Bool := decide (2 ≤ st ∧ st ≤ 5)

/-- Move a channel to a state, with BEAT_FAULT_SUMMARY and the status bits of R339. -/
def State.setBstate (s : State) (n st : Nat) : State :=
  let old := s.bstate n
  let sum := s.fld R.BEAT_FAULT_SUMMARY_CHANNEL
  let s1 := (s.setFld (R.BEAT_STATUS_STATE n) st).setFld R.BEAT_FAULT_SUMMARY_CHANNEL
    (if st = btFault ∨ st = btLatched then withBit sum n else withoutBit sum n)
  let s2 := if beatSwitching st then s1 else s1.setFld (R.BEAT_STATUS_GRID_LOCK n) 0
  if st = old then s2
  else if st = btUnplugged ∨ old = btUnplugged then s2.raise R.BEAT_INT_STATUS_PRESENCE
  else s2

/-- Whether a channel is in the live plane. -/
def State.bdefined (s : State) (n : Nat) : Bool := (s.bchan n).fmt.isSome

/-- Whether presence is there for a channel, as its status shows it (R334). -/
def State.bpresent (s : State) (n : Nat) : Bool := decide (s.fld (R.BEAT_STATUS_PRESENT n) = 1)

/-- Whether a channel's own events move its state: not on a chip that takes CONTROL BEAT from its peer (R348). -/
def State.beatOwn (s : State) : Bool := !s.flmFollows 8

/-- Enter DIAG (R329). -/
def State.enterDiag (s : State) (n : Nat) (onRequest : Bool) : State :=
  (s.setBchan n { s.bchan n with level := 0, losing := false, idling := false, onRequest := onRequest, trips := [] }).setBstate n btDiag

/-- Enter STOPPED. -/
def State.beatStop (s : State) (n : Nat) : State :=
  (s.setBchan n { s.bchan n with level := 0, losing := false, idling := false, onRequest := false, trips := [] }).setBstate n btStopped

/-- FAILS: FAULT entries within the last 60 s, saturating at 15 (R331). -/
def State.beatFails (s : State) (n : Nat) : Nat :=
  min 15 ((s.bchan n).faults.filter (fun f => decide (s.blk.seq < f + 60 * s.blocksPerSecond))).length

/-- Enter FAULT with a class (R330, R331): LATCHED at the third entry within 60 s or where RETRY_S is 0. -/
def State.beatFault (s : State) (n cls : Nat) : State :=
  let x := s.bchan n
  let retry := match x.fmt with | some r => r.retryS | none => 0
  let s1 := s.setBchan n { x with level := 0, losing := false, idling := false, onRequest := false, trips := [],
                                  faults := s.blk.seq :: x.faults }
  let latch := decide (3 ≤ s1.beatFails n ∨ retry = 0)
  let s2 := ((((s1.setFld (R.BEAT_STATUS_CLASS n) cls).setFld (R.BEAT_FAULT_BLK_BLK n) s.blk.index).bump
    (R.BEAT_FAULT_COUNT_COUNT n)).setFld (R.BEAT_LEVEL_LEVEL n) 0).setFld (R.BEAT_STATUS_FAILS n) (s1.beatFails n)
  let s3 := s2.setBstate n (if latch then btLatched else btFault)
  let s4 := if s.fld (R.BEAT_STATUS_OWNED n) = 1 then s3.emit (.beatBlock n s.blk.index none) else s3
  s4.raise (if latch then R.BEAT_INT_STATUS_LATCHED else R.BEAT_INT_STATUS_FAULT)

/-- The class of a trip fault (R330). -/
def tripClass (vcMilli vd ref : Nat) : Nat :=
  if vcMilli < 375 then 1 else if 625 < vcMilli then 2 else if 10 * vd < ref then 3 else 5

/-! ### Boundaries (R327, R328, R335, R336) -/

/-- The island index of a half. -/
def beatIsland (half : Nat) : Nat := 22 + half

/-- ENABLE acts at a boundary (R327). A diagnostic starts only where the outputs are to be driven (the table of R336, R348). -/
def State.beatEnable (s : State) (n : Nat) : State :=
  let st := s.bstate n
  let x := s.bchan n
  if s.beatOwn = false then s
  else if s.fld (R.BEAT_CTRL_ENABLE n) = 1 then
    if (st = btStopped ∨ st = btUnplugged) ∧ s.bpresent n ∧ s.outputsLive then s.enterDiag n false
    else if st = btStopping ∧ x.losing = false then (s.setBchan n { x with idling := false }).setBstate n btRunning
    else s
  else if st = btRunning then s.setBstate n btStopping
  else if st = btPreroll ∨ st = btFault ∨ st = btLatched ∨ st = btUnplugged then s.beatStop n
  else s

/-- The level's target (R328): also 0 while a group mutes the channel (R381) or a swap holds it. -/
def State.beatTarget (s : State) (n : Nat) : Rat :=
  let x := s.bchan n
  if s.fld (R.BEAT_CTRL_MUTE n) = 1 ∨ s.bstate n = btStopping ∨ x.losing ∨ x.held ∨ s.groupMuted 1 (n / 4) then 0 else 1

/-- The level of each sample of a block, and the level after it (R328). A channel that is not RUNNING or STOPPING is at 0. -/
def levelRun (target step : Rat) : Nat → Rat → List Rat × Rat
  | 0, l => ([], l)
  | n + 1, l =>
    let l' := if l < target then min target (l + step) else max target (l - step)
    let r := levelRun target step n l'
    (l' :: r.1, r.2)

/-- RAMP as it acts: 0 acts as 1 (R339). -/
def State.beatRamp (s : State) (n : Nat) : Nat := max 1 (s.fld (R.BEAT_CTRL_RAMP n))

/-- The levels of channel `n` over a block of `len` samples. -/
def State.beatLevels (s : State) (n len : Nat) : List Rat × Rat :=
  let st := s.bstate n
  if st = btRunning ∨ st = btStopping then
    levelRun (s.beatTarget n) (1 / ((s.beatRamp n * max 1 len : Nat) : Rat)) len (s.bchan n).level
  else (List.replicate len 0, 0)

/-- The peak of samples in 1/16 V: max |sample| / 2^23 × V_FS (R335). -/
def beatPeak (vFs : Nat) (xs : List Int) : Rat := ((xs.foldl (fun m x => max m x.natAbs) 0 : Nat) : Rat) * vFs / 8388608

/-- R325: the clip of a sample at 0.95 × the rail. -/
def beatClip (vFs rail : Nat) (x : Int) : Int :=
  let lim : Int := ((95 * rail * 8388608 / (100 * max 1 vFs) : Nat) : Int)
  if x > lim then lim else if x < -lim then -lim else x

/-- The mean frequency of an unlocked channel: a free value within 0.40 and 1.6 × F_GRID (R326). -/
def unlockedKhz (grid x : Nat) : Nat := ceilDiv (2 * grid) 5 + x % (8 * grid / 5 - ceilDiv (2 * grid) 5 + 1)

/-- Emit block `b` of channel `n`: the samples after the level, clipped at 0.95 of the measured rail (R324, R325, R328). -/
def State.beatEmit (s : State) (c : Cfg) (n b : Nat) (quiet : Bool) : State :=
  match (s.bchan n).fmt with
  | none => s
  | some r =>
    let x := s.bchan n
    let len := c.blockLen
    let lv := s.beatLevels n len
    let rail := s.fld (R.BEAT_RAIL_MEAS_MEAS (n / 4))
    let xs := (List.range len).map (fun j =>
      if quiet then 0 else roundRat (lv.1.getD j 0 * ((x.cur.samples.getD j 0 : Int) : Rat)))
    let sw := beatSwitching (s.bstate n)
    let ys := xs.map (beatClip r.vFs rail)
    let clips := if sw then ((xs.zip ys).filter (fun p => p.1 != p.2)).length else 0
    let deep := sw && ys.any (fun y => decide (88 * rail * 8388608 < 100 * r.vFs * y.natAbs))
    let s1 := s.setBchan n { x with level := lv.2, peak := beatPeak r.vFs xs }
    let s2 := (s1.setFld (R.BEAT_LEVEL_LEVEL n) (lv.2 * 8388608).floor.toNat).setFld (R.BEAT_STATUS_RAIL_LIMIT n) (flag (decide (clips ≠ 0)))
    let s3 := if clips = 0 then s2 else (s2.bump (R.BEAT_RAIL_CLIP_COUNT (n / 4)) clips).raise R.BEAT_INT_STATUS_RAIL_CLIP
    let s4 := if deep then s3.setFld (R.BEAT_STATUS_GRID_LOCK n) 0 else s3
    let grid := (roundDiv 3145728 (max 1 (s4.fld R.BEAT_GRID_GRID_DIV))).toNat
    let fq := s4.fresh
    let s5 :=
      if !sw then s4.setFld (R.BEAT_FREQ_KHZ n) 0
      else if s4.fld (R.BEAT_STATUS_GRID_LOCK n) = 1 then s4.setFld (R.BEAT_FREQ_KHZ n) grid
      else fq.2.setFld (R.BEAT_FREQ_KHZ n) (unlockedKhz grid fq.1)
    if s5.fld (R.BEAT_STATUS_OWNED n) = 1 then s5.emit (.beatBlock n b
    (if sw then some (ys.zipIdx.map (fun p => s5.gated b p.2 len p.1)) else none)) else s5

/-- The channels of rail `r`. -/
def railChans (r : Nat) : List Nat := (List.range 4).map (· + 4 * r)

/-- Whether a rail is capped (R332). -/
def State.railCapped (s : State) (r : Nat) : Bool :=
  (railChans r).any (fun n => decide ((s.bstate n = btFault ∨ s.bstate n = btLatched) ∧ 1 ≤ s.fld (R.BEAT_STATUS_CLASS n) ∧
    s.fld (R.BEAT_STATUS_CLASS n) ≤ 3))

/-- T of R335 in 1/16 V, from the peaks counted: with `ahead` the next block's peaks enter. In LIMP a half whose task is not
essential keeps RAIL_MIN (R323). -/
def State.railTarget (s : State) (r : Nat) (k : BeatRailRec) (ahead quiet : Bool) : Rat :=
  let cs := (railChans r).filter (fun n => beatCounted (s.bstate n))
  let diag := cs.any (fun n => s.bstate n == btDiag)
  let cap : Rat := if s.railCapped r then (if diag then max k.faultCap (16 * k.vDiag) else k.faultCap : Nat) else (k.railMax : Nat)
  let e := cs.foldl (fun (m : Rat) n => max m (if ahead then max (s.bchan n).peak (s.bchan n).peakNext else (s.bchan n).peak)) 0
  let t0 : Rat := if quiet then (k.railMin : Nat) else if k.track then e * 20 / 19 + (k.margin : Nat) else (k.railMax : Nat)
  let t1 := min cap (max (k.railMin : Nat) t0)
  if diag then max t1 (16 * k.vDiag : Nat) else t1

/-- The commanded voltage after `ns` towards a target (R335): RISE in 1/16 V per µs, FALL in 1/16 V per ms. -/
def slew (k : BeatRailRec) (v t : Rat) (ns : Nat) : Rat :=
  if v < t then min t (v + (k.rise * ns : Nat) / 1000) else max t (v - (k.fall * ns : Nat) / 1000000)

/-- Form a rail at a boundary (R332, R335, R336): the commanded voltage moved through the block that ends, with the next
block's peaks from the end of the egress task on, a time within the block that is not fixed; then the target of the block
that begins. `late`: the half's egress task was late. -/
def State.settleRail (s : State) (r ns : Nat) (late quiet : Bool) : State :=
  match (s.brail r).fmt with
  | none => s
  | some k =>
    let x := s.brail r
    let f := s.fresh
    let s0 := f.2
    let part := f.1 % (ns + 1)
    let moved := slew k (slew k x.cmd x.t0 part) x.t1 (ns - part)
    let counted := (railChans r).any (fun n => beatCounted (s0.bstate n))
    let on := counted && !x.fault
    let s1 := if x.on ∧ on ∧ moved < x.t1 then s0.bump (R.BEAT_RAIL_SHORT_COUNT r) else s0
    let now := s1.railTarget r k false quiet
    let t := if late ∧ quiet = false then max now (max x.was (max x.t0 x.t1)) else now
    let cmd : Rat := if !on then 0 else if x.on then moved else (k.railMin : Nat)
    let st := if x.fault then 5 else if !on then 1 else if s1.railCapped r then 3 else if k.track then 2 else 4
    let m := s1.fresh
    let meas := if on then m.1 % 65536 else 0
    let s2 := (if on then m.2 else s1).setBrail r { x with
      cmd := cmd, t0 := if on then t else 0, t1 := if on then t else 0, was := max x.t0 x.t1, on := on }
    let s3 := ((s2.setFld (R.BEAT_RAIL_STATUS_STATE r) st).setFld (R.BEAT_RAIL_TARGET_TARGET r) (if on then (roundRat t).toNat else 0)).setFld
      (R.BEAT_RAIL_TARGET_COMMANDED r) cmd.floor.toNat
    (s3.setFld (R.BEAT_RAIL_MEAS_MEAS r) meas).peak (R.BEAT_RAIL_MEAS_PEAK r) meas

/-- The channels and the rails of a half. -/
def halfChans (half : Nat) : List Nat := (List.range 16).map (· + 16 * half)
def halfRails (half : Nat) : List Nat := (List.range 4).map (· + 4 * half)

/-- Whether the egress task of a half is essential (R323). -/
def Cfg.beatEssential (c : Cfg) (half : Nat) : Bool :=
  c.tasks.any (fun t => t.kind == 6 && t.island == 22 + half && t.essential)

/-- Every channel of a half STOPPED: where the outputs of an unpaired chip are withheld (the table of R336, R397). A diagnostic made on
request runs on. -/
def State.beatHalt (s : State) (half : Nat) : State :=
  (halfChans half).foldl (fun s n =>
    if s.bdefined n ∧ !(s.bstate n == btDiag && (s.bchan n).onRequest) then s.beatStop n else s) s

/-- Form a half's state at its boundary, after the commands that apply there (R327, R328, R335): once per boundary. -/
def State.beatSettle (s : State) (half : Nat) : State :=
  match s.cfg with
  | none => s
  | some c =>
    let a := Tbl.get s.blk.arrived (beatIsland half) (0, 0)
    if Tbl.get s.beat.settled half 0 = a.2 then s
    else
      let ns := c.blockLen * 1000000000 / rateAHz c.sys.rateA
      let quiet := decide (s.mode = .limp) && !c.beatEssential half
      let chans := (halfChans half).filter (fun n => s.bdefined n)
      let late := chans.any (fun n => ((s.bchan n).nxt).isNone)
      let s0 := if s.flmState = 0 ∧ s.outputsLive = false ∧ s.withheldIn a.1 then s.beatHalt half else s
      let s1 := chans.foldl (fun s n =>
        let x := s.bchan n
        let cur := match x.nxt with
          | some b => ⟨riseAfter c.blockLen x.cur b.samples, b.late, false⟩
          | none => ⟨fadeAfter c.blockLen x.cur, true, true⟩
        (s.setBchan n { x with cur := cur, nxt := none }).beatEnable n) s0
      let s2 := chans.foldl (fun s n => s.beatEmit c n a.1 quiet) s1
      let s3 := (halfRails half).foldl (fun s r => s.settleRail r ns late (quiet || s.pmu.pwrFail)) s2
      { s3 with beat := { s3.beat with settled := Tbl.set s3.beat.settled half 0 a.2 } }

/-- Form both halves. -/
def State.beatSettleAll (s : State) : State := (s.beatSettle 0).beatSettle 1

/-- The egress task of a half hands channel `n` its next block and the rail its peak (R323, R335). -/
def State.beatGive (s : State) (c : Cfg) (n : Nat) (blk : BusBlk) : State :=
  match (s.bchan n).fmt with
  | none => s
  | some r =>
    let x := s.bchan n
    let lv := s.beatLevels n c.blockLen
    let xs := (List.range c.blockLen).map (fun j => roundRat (lv.1.getD j 0 * ((blk.samples.getD j 0 : Int) : Rat)))
    let s1 := s.setBchan n { x with nxt := some blk, peakNext := beatPeak r.vFs xs }
    match (s1.brail (n / 4)).fmt with
    | none => s1
    | some k =>
      let quiet := decide (s1.mode = .limp) && !c.beatEssential (n / 16)
      let t := s1.railTarget (n / 4) k true (quiet || s1.pmu.pwrFail)
      let q := s1.brail (n / 4)
      if q.on then (s1.setBrail (n / 4) { q with t1 := t }).setFld (R.BEAT_RAIL_TARGET_TARGET (n / 4)) (roundRat t).toNat else s1

/-! ### Diagnostics (R329) -/

/-- End a diagnostic with a result and Z (R329). A diagnostic made on request returns to STOPPED whatever its result. -/
def State.diagEnd (s : State) (n result z : Nat) : State :=
  let req := (s.bchan n).onRequest
  let s1 := ((s.setFld (R.BEAT_DIAG_RESULT n) result).setFld (R.BEAT_DIAG_Z n) (min z 65535)).raise R.BEAT_INT_STATUS_DIAG_DONE
  if result = 0 then
    let s2 := s1.setFld (R.BEAT_STATUS_CLASS n) 0
    if req then s2.beatStop n else s2.setBstate n btPreroll
  else if req then s1.beatStop n
  else s1.beatFault n result

/-- The result of a diagnostic (R329) from Vc, the code at which the current search ended (none: no trip; codes in mV) and
V_pk in mV: the class, and Z where it is measured. -/
def diagResult (r : BeatChanRec) (vcMilli : Nat) (code : Option Nat) (vPkMv : Nat) : Nat × Option Nat :=
  if vcMilli < 150 then (1, none)
  else if 850 < vcMilli then (2, none)
  else match code with
    | none => (4, some 65535)
    | some i =>
      let den := max 1 (i * r.kI)
      let num := vPkMv * 256
      (if 16 * num < r.zShort * den then 3 else if r.zOpen * den < num then 4 else 0, some (16 * num / den))

/-! ### Commands and registers (R338, R339) -/

/-- Discard a Beater command (R338). -/
def State.beatReject (s : State) : State := s.countAndRaise R.BEAT_CMD_REJECT_COUNT R.BEAT_INT_STATUS_CMD_REJECT

/-- Whether a command's range holds defined channels only. -/
def State.beatRange (s : State) (first count : Nat) : Bool :=
  decide (1 ≤ count ∧ first + count ≤ 32) && (List.range count).all (fun j => s.bdefined (first + j))

/-- BEAT_CLEAR on one channel (R331, R333): a faulted rail restarts from RAIL_MIN. -/
def State.beatClear1 (s : State) (n : Nat) : State :=
  let r := n / 4
  let q := s.brail r
  let s1 := if q.fault then s.setBrail r { q with fault := false, on := false } else s
  if s1.bstate n = btFault ∨ s1.bstate n = btLatched then
    let s2 := (s1.setBchan n { s1.bchan n with faults := [] }).setFld (R.BEAT_STATUS_FAILS n) 0
    if s2.beatOwn ∧ s2.outputsLive then s2.enterDiag n false else s2
  else s1

/-- Whether BEAT_DIAG may run a diagnostic (R338, the table of R336): in TEST, and where the outputs are to be driven. -/
def State.beatMayTest (s : State) : Bool := s.beatOwn && (s.outputsLive || decide (s.mode = .test))

/-- A write of BEAT_CTRL (R339): I_TRIP above the image's, or 0, is stored as the image's. -/
def State.beatCtrl (s : State) (n v : Nat) : State :=
  match (s.bchan n).fmt with
  | none => s
  | some r =>
    let i := v % 256
    (((s.setFld (R.BEAT_CTRL_ENABLE n) (bit v 31)).setFld (R.BEAT_CTRL_MUTE n) (bit v 30)).setFld (R.BEAT_CTRL_RAMP n)
      (bits v 25 16)).setFld (R.BEAT_CTRL_I_TRIP n) (if i = 0 ∨ r.iTrip < i then r.iTrip else i)

/-- Apply one Beater command or held register write at its boundary (R338). -/
def State.beatApply (s : State) (c : Cmd) : Nat × State :=
  match c with
  | .beatMute first count mute ramp =>
    if s.beatRange first count ∧ mute ≤ 1 ∧ ramp ≤ 1023 then
      (0, (List.range count).foldl (fun s j =>
        let s1 := s.setFld (R.BEAT_CTRL_MUTE (first + j)) mute
        if ramp = 0 then s1 else s1.setFld (R.BEAT_CTRL_RAMP (first + j)) ramp) s)
    else (2, s.beatReject)
  | .beatEnable first count enable =>
    if s.beatRange first count ∧ enable ≤ 1 then
      (0, (List.range count).foldl (fun s j => s.setFld (R.BEAT_CTRL_ENABLE (first + j)) enable) s)
    else (2, s.beatReject)
  | .beatClear first count =>
    if s.beatRange first count then (0, (List.range count).foldl (fun s j => s.beatClear1 (first + j)) s) else (2, s.beatReject)
  | .beatDiag first count =>
    if s.beatRange first count then
      (0, (List.range count).foldl (fun s j => if s.bstate (first + j) = btStopped ∧ s.beatMayTest then s.enterDiag (first + j) true else s) s)
    else (2, s.beatReject)
  | .regWrite a v => (0, s.beatCtrl ((a - 0x14301000) / 0x40) v.toNat)
  | _ => (2, s)

/-- The counters of BEAT_COUNT_CLEAR (R339); PEAK counts since then. -/
def beatCounts : List Fld :=
  [R.BEAT_CMD_REJECT_COUNT] ++ (List.range 32).map R.BEAT_TRIP_COUNT_COUNT ++ (List.range 32).map R.BEAT_FAULT_COUNT_COUNT ++
  (List.range 8).map R.BEAT_RAIL_CLIP_COUNT ++ (List.range 8).map R.BEAT_RAIL_SHORT_COUNT ++ (List.range 8).map R.BEAT_RAIL_MEAS_PEAK

/-! ### Modes, a load and a swap (R327, R336) -/

/-- A channel's registers from its record (R339). -/
def State.beatChanRegs (s : State) (r : BeatChanRec) : State :=
  let n := r.chan
  let s1 := (((s.setFld (R.BEAT_LIMITS_V_FS n) r.vFs).setFld (R.BEAT_LIMITS_PHASE n) r.phase).setFld (R.BEAT_LIMITS_DEAD_NS n) r.deadNs).setFld
    (R.BEAT_SCALE_K_V n) r.kV
  (((s1.setFld (R.BEAT_SCALE_K_I n) r.kI).setFld (R.BEAT_CTRL_RAMP n) r.ramp).setFld (R.BEAT_CTRL_I_TRIP n) r.iTrip).setFld
    R.BEAT_CHANNELS_PRESENT (withBit (s.fld R.BEAT_CHANNELS_PRESENT) n)

/-- The registers of a channel that start at 0 (R339). -/
def beatChanZero (n : Nat) : List Fld :=
  [R.BEAT_STATUS_CLASS n, R.BEAT_STATUS_FAILS n, R.BEAT_STATUS_GRID_LOCK n, R.BEAT_STATUS_RAIL_LIMIT n, R.BEAT_DIAG_RESULT n, R.BEAT_DIAG_Z n,
    R.BEAT_FAULT_BLK_BLK n, R.BEAT_TRIP_COUNT_COUNT n, R.BEAT_FAULT_COUNT_COUNT n, R.BEAT_FREQ_KHZ n, R.BEAT_LEVEL_LEVEL n]

/-- A new channel: STOPPED, ENABLE from AUTO_START. Without PRES_EN it always counts as present (R334). -/
def State.beatTake (s : State) (r : BeatChanRec) : State :=
  let n := r.chan
  let s1 := ((s.setBchan n { BeatChan.none with fmt := some r }).clearFlds (beatChanZero n)).beatChanRegs r
  (((s1.setFld (R.BEAT_CTRL_ENABLE n) (flag r.autoStart)).setFld (R.BEAT_CTRL_MUTE n) 0).setFld (R.BEAT_STATUS_PRESENT n)
    (if r.presEn then bit (s.fld R.TAP_PRES_PRESENT) r.pres else 1)).setFld (R.BEAT_STATUS_STATE n) btStopped

/-- A rail takes its record (R339): off. -/
def State.railTake (s : State) (k : BeatRailRec) : State :=
  let r := k.rail
  let s1 := s.setBrail r { s.brail r with fmt := some k }
  let s2 := (((s1.setFld (R.BEAT_RAIL_CFG_RAIL_MAX r) k.railMax).setFld (R.BEAT_RAIL_CFG_RAIL_MIN r) k.railMin).setFld
    (R.BEAT_RAIL_MARGIN_FAULT_CAP r) k.faultCap).setFld (R.BEAT_RAIL_MARGIN_MARGIN r) k.margin
  let s3 := ((s2.setFld (R.BEAT_RAIL_SLEW_RISE r) k.rise).setFld (R.BEAT_RAIL_SLEW_FALL r) k.fall).setFld R.BEAT_GRID_RAILS
    (withBit (s.fld R.BEAT_GRID_RAILS) r)
  if s.fld (R.BEAT_RAIL_STATUS_STATE r) = 0 then s3.setFld (R.BEAT_RAIL_STATUS_STATE r) 1 else s3

/-- A peal load. -/
def State.beatLoad (s : State) (c : Cfg) : State :=
  let s0 := { s with beat := ⟨[], [], []⟩ }.clearFlds [R.BEAT_CHANNELS_PRESENT, R.BEAT_GRID_RAILS]
  let s1 := c.beatChans.foldl (fun s r => s.beatTake r) s0
  (c.beatRails.foldl (fun s k => s.railTake k) s1).setFld R.BEAT_GRID_GRID_DIV (c.gridDiv.getD 0)

/-- Whether a swap changes a channel's record, its rail's, or the grid. -/
def State.beatChanges (s : State) (old new : Cfg) (n : Nat) : Bool :=
  decide ((s.bchan n).fmt ≠ new.beatChan? n ∨ (s.brail (n / 4)).fmt ≠ new.beatRail? (n / 4) ∨ old.gridDiv ≠ new.gridDiv)

/-- Before S the level of a changed channel ramps to 0 over RAMP blocks ending at S. -/
def State.beatHold (s : State) (old new : Cfg) (blocks : Nat) : State :=
  (List.range 32).foldl (fun s n =>
    if s.bdefined n ∧ s.beatChanges old new n ∧ blocks ≤ s.beatRamp n then s.setBchan n { s.bchan n with held := true } else s) s

/-- At S: changed channels take their records and ramp in; removed ones are ABSENT; new ones are STOPPED. -/
def State.beatSwap (s : State) (new : Cfg) : State :=
  let s1 := new.beatRails.foldl (fun s k => s.railTake k) s
  let s2 := new.beatChans.foldl (fun s r =>
    let x := s.bchan r.chan
    if x.fmt.isSome then
      let s' := s.setBchan r.chan { x with fmt := some r, held := false, level := if x.held then 0 else x.level }
      if x.fmt = some r then s' else s'.beatChanRegs r
    else s.beatTake r) s1
  let gone := (List.range 32).filter (fun n => s2.bdefined n && (new.beatChan? n).isNone)
  let s3 := gone.foldl (fun s n =>
    ((s.setBstate n btAbsent).setBchan n BeatChan.none).setFld R.BEAT_CHANNELS_PRESENT (withoutBit (s.fld R.BEAT_CHANNELS_PRESENT) n)) s2
  let goneR := (List.range 8).filter (fun r => (s3.brail r).fmt.isSome && (new.beatRail? r).isNone)
  let s4 := goneR.foldl (fun s r =>
    ((s.setBrail r BeatRail.none).setFld (R.BEAT_RAIL_STATUS_STATE r) 0).setFld R.BEAT_GRID_RAILS (withoutBit (s.fld R.BEAT_GRID_RAILS) r)) s3
  s4.setFld R.BEAT_GRID_GRID_DIV (new.gridDiv.getD 0)

/-! ### The commands -/

/-- Whether the halves that a command names stand at their boundary: the token of the running block has reached them, and they have not
formed their state. -/
def State.beatOpen (s : State) (c : Cmd) : Bool :=
  let is := s.cmdIslands .beat c
  decide ((s.passed is).2 = s.blk.seq) && is.all (fun i => decide (Tbl.get s.beat.settled (i - 22) 0 ≠ s.blk.seq))

/-- A Beater command given as a row: applied at the boundary its halves are at, or held for the next one (R338). -/
def State.beatCommand (s : State) (c : Cmd) : State :=
  if s.beatOpen c then (s.beatApply c).2 else s.hold (heldOf .beat c .notNeeded)

def execBeatMute (first count mute ramp : Nat) (s : State) : Host.Outcome State Fault Refusal :=
  .next (s.beatCommand (.beatMute first count mute ramp))

def execBeatEnable (first count enable : Nat) (s : State) : Host.Outcome State Fault Refusal :=
  .next (s.beatCommand (.beatEnable first count enable))

def execBeatClear (first count : Nat) (s : State) : Host.Outcome State Fault Refusal :=
  .next (s.beatCommand (.beatClear first count))

def execBeatDiag (first count : Nat) (s : State) : Host.Outcome State Fault Refusal :=
  .next (s.beatCommand (.beatDiag first count))

/-- A diagnostic ends (R329). Where Z is not measured its value is open. -/
def execBeatDiagDone (n vcMilli : Nat) (code : Option Nat) (vPkMv : Nat) (s : State) : Host.Outcome State Fault Refusal :=
  let s0 := s.beatSettleAll
  match (s0.bchan n).fmt with
  | none => .next s0
  | some r =>
    if s0.bstate n = btDiag ∧ s0.beatOwn then
      let d := diagResult r vcMilli code vPkMv
      match d.2 with
      | some z => .next (s0.diagEnd n d.1 z)
      | none => .next (s0.fresh.2.diagEnd n d.1 s0.fresh.1)
    else .next s0

/-- A trip cycle (R329, R330): `cycles` switching cycles without a trip lie between this one and the last. -/
def execBeatCurrentTrip (n cycles vcMilli vd ref : Nat) (s : State) : Host.Outcome State Fault Refusal :=
  let s0 := s.beatSettleAll
  let st := s0.bstate n
  let s1 := s0.bump (R.BEAT_TRIP_COUNT_COUNT n)
  if s0.beatOwn = false then .next (if beatSwitching st then s1 else s0)
  else if st = btDiag then .next (s1.fresh.2.diagEnd n 3 s1.fresh.1)
  else if beatSwitching st then
    let x := s1.bchan n
    let ts := (true :: (List.replicate (min 16 cycles) false ++ x.trips)).take 16
    if 8 ≤ (ts.filter (fun b => b)).length then .next (s1.beatFault n (tripClass vcMilli vd ref))
    else .next (s1.setBchan n { x with trips := ts })
  else .next s0

def execBeatSenseFault (n : Nat) (s : State) : Host.Outcome State Fault Refusal :=
  let s0 := s.beatSettleAll
  if beatSwitching (s0.bstate n) ∧ s0.beatOwn then .next (s0.beatFault n 6) else .next s0

/-- A rail faults (R333): its PWM stops and each channel that runs from it enters FAULT. -/
def execBeatRailFault (r : Nat) (s : State) : Host.Outcome State Fault Refusal :=
  let s0 := s.beatSettleAll
  let q := s0.brail r
  if q.fmt.isSome ∧ q.on ∧ s0.beatOwn then
    let s1 := (((s0.setBrail r { q with fault := true, on := false, cmd := 0, t0 := 0, t1 := 0, was := 0 }).setFld (R.BEAT_RAIL_STATUS_STATE r) 5).setFld
      (R.BEAT_RAIL_TARGET_COMMANDED r) 0).raise R.BEAT_INT_STATUS_RAIL_FAULT
    .next ((railChans r).foldl (fun s n => if beatCounted (s.bstate n) then s.beatFault n 7 else s) s1)
  else .next s0

/-- A channel in FAULT retries (R331): not before RETRY_S, nor while presence is lost, nor on a faulted rail (R333). -/
def execBeatRetry (n : Nat) (s : State) : Host.Outcome State Fault Refusal :=
  let s0 := s.beatSettleAll
  let x := s0.bchan n
  match x.fmt with
  | none => .next s0
  | some r =>
    let since := s0.blk.seq - x.faults.headD 0
    if s0.bstate n = btFault ∧ s0.bpresent n ∧ s0.beatOwn ∧ s0.outputsLive ∧ (s0.brail (n / 4)).fault = false ∧ r.retryS * s0.blocksPerSecond ≤ since then
      .next (s0.enterDiag n false)
    else .next s0

/-- PREROLL_MS elapses (R327): a channel in PREROLL runs with its level at 0; one that idles in STOPPING is STOPPED. -/
def execBeatPrerollDone (n : Nat) (s : State) : Host.Outcome State Fault Refusal :=
  let s0 := s.beatSettleAll
  let x := s0.bchan n
  if s0.beatOwn = false then .next s0
  else if s0.bstate n = btPreroll then .next ((s0.setBchan n { x with level := 0 }).setBstate n btRunning)
  else if s0.bstate n = btStopping ∧ x.idling then .next (s0.beatStop n)
  else .next s0

/-- A channel's level reaches 0 (R327, R334). -/
def execBeatRampDone (n : Nat) (s : State) : Host.Outcome State Fault Refusal :=
  let s0 := s.beatSettleAll
  let x := s0.bchan n
  if s0.beatOwn = false then .next s0
  else if x.level = 0 ∧ x.losing ∧ (s0.bstate n = btRunning ∨ s0.bstate n = btStopping) then
    .next ((s0.setBchan n { x with losing := false, idling := false }).setBstate n btUnplugged)
  else if x.level = 0 ∧ s0.bstate n = btStopping then .next (s0.setBchan n { x with idling := true })
  else .next s0

/-- A channel acts on its debounced presence (R334). -/
def execBeatPresenceChange (n : Nat) (s : State) : Host.Outcome State Fault Refusal :=
  match (s.bchan n).fmt with
  | none => .next s
  | some r =>
    let p := if r.presEn then bit (s.fld R.TAP_PRES_PRESENT) r.pres else 1
    if p = s.fld (R.BEAT_STATUS_PRESENT n) then .next s
    else
      let s1 := s.setFld (R.BEAT_STATUS_PRESENT n) p
      let st := s.bstate n
      if s1.beatOwn = false then .next s1
      else if p = 0 then
        if st = btRunning ∨ st = btStopping then .next (s1.setBchan n { s1.bchan n with losing := true })
        else if st = btDiag ∨ st = btPreroll then
          .next ((s1.setBchan n { s1.bchan n with level := 0, onRequest := false }).setBstate n btUnplugged)
        else .next s1
      else if st = btUnplugged ∧ s1.outputsLive then .next (s1.enterDiag n false)
      else .next s1

/-- The channel's phase is pulled back onto the grid (R326). -/
def execBeatGridRelock (n : Nat) (s : State) : Host.Outcome State Fault Refusal :=
  if beatSwitching (s.bstate n) then .next (s.setFld (R.BEAT_STATUS_GRID_LOCK n) 1) else .next s

end Sys2Proof.Machine
end

