-- ==== Sys2Proof/Machine/Memory.lean ====
section
/-! DEFINITION. The in-package DRAM (R194, R206, R211, R434). -/

namespace Sys2Proof.Machine

/-- What a byte of DRAM that nothing has written reads as: the fill 0x5A of stage 2 (R434), or, after a write of the hash
seed in TEST (R214), undefined contents. -/
def dramDefault (epoch a : Nat) : Byte := if epoch = 0 then 0x5A else Config.dramScrambled epoch a

/-- The canonical form of DRAM and flash: addresses strictly rising, and no byte listed that reads as an unlisted one. -/
def Mems.wf (m : Mems) : Bool := Tbl.wf (dramDefault m.dramEpoch) m.dram && Tbl.wf (fun _ => 0xFF#8) m.flash

/-- A byte of DRAM. -/
def Mems.dramByte (m : Mems) (a : Nat) : Byte := Tbl.get m.dram a (dramDefault m.dramEpoch a)

/-- Write a byte of DRAM. -/
def Mems.setDramByte (m : Mems) (a : Nat) (b : Byte) : Mems :=
  { m with dram := Tbl.set m.dram a (dramDefault m.dramEpoch a) b }

/-- `n` bytes of DRAM from `a`. -/
def Mems.dramRead (m : Mems) (a n : Nat) : List Byte := (List.range n).map (fun i => m.dramByte (a + i))

/-- Write bytes of DRAM; an absent byte is not written. -/
def Mems.dramPut (m : Mems) (a : Nat) : List (Option Byte) → Mems
  | [] => m
  | none :: bs => m.dramPut (a + 1) bs
  | some b :: bs => (m.setDramByte a b).dramPut (a + 1) bs

/-- Whether a write covers the 64-bit word `w` whole. -/
def coversWord (a : Nat) (bs : List (Option Byte)) (w : Nat) : Bool :=
  (List.range 8).all (fun i => decide (a ≤ 8 * w + i) && (bs.getD (8 * w + i - a) none).isSome)

/-- Write DRAM (R194): a 64-bit word written whole gets valid check bits (R211). -/
def Mems.dramWrite (m : Mems) (a : Nat) (bs : List (Option Byte)) : Mems :=
  { m.dramPut a bs with dramBad := m.dramBad.filter (fun w => !coversWord a bs w) }

/-- The first 64-bit word of a range that holds an uncorrectable error (R211). -/
def Mems.firstBad (m : Mems) (a n : Nat) : Option Nat :=
  m.dramBad.find? (fun w => decide (8 * w < a + n ∧ a < 8 * w + 8))

/-- The 64-bit words of a range that hold an uncorrectable error, in ascending order (R211). -/
def Mems.badWords (m : Mems) (a n : Nat) : List Nat := m.dramBad.filter (fun w => decide (8 * w < a + n ∧ a < 8 * w + 8))

/-- Put a number into an ascending list, once. -/
def insertAsc (w : Nat) : List Nat → List Nat
  | [] => [w]
  | v :: vs => if w < v then w :: v :: vs else if w = v then v :: vs else v :: insertAsc w vs

/-- A 64-bit word comes to hold an uncorrectable error. -/
def Mems.markBad (m : Mems) (w : Nat) : Mems := { m with dramBad := insertAsc w m.dramBad }

/-- Count an uncorrectable error at a word, which no tap read (R211, R214). -/
def State.countUe (s : State) (w : Nat) : State :=
  (((s.bump R.DPL_ECC_UE_COUNT).setFld R.DPL_ECC_LAST_ADDR (8 * w)).raise R.DPL_INT_STATUS_ECC_UE).setFld R.DPL_ECC_LAST_LINE_VALID 0

/-- A read of DRAM by a master (R211): the bytes, or none where words hold uncorrectable errors, each of which is counted. -/
def State.dramFetch (s : State) (a n : Nat) : Option (List Byte) × State :=
  match s.mem.badWords a n with
  | [] => (some (s.mem.dramRead a n), s)
  | ws => (none, ws.foldl (fun s w => s.countUe w) s)

/-- The parity of the bits of `x` that `mask` selects, of 48: one output bit of an XOR-folding function (R206). -/
def foldBits (mask x : Nat) : Nat := (List.range 48).foldl (fun p i => p ^^^ (bit mask i * bit x i)) 0

/-- The channel of a DRAM address under a seed (R206): a[7:6] XOR H2. -/
def dramChannel (seed a : Nat) : Nat :=
  let x := bits a 27 12 + 2 ^ 16 * (seed % 2 ^ 32)
  bits a 7 6 ^^^ (foldBits (Config.hashMask 0) x + 2 * foldBits (Config.hashMask 1) x)

/-- The bank of a DRAM address under a seed (R206): a[11:8] XOR H4. -/
def dramBank (seed a : Nat) : Nat :=
  let x := bits a 27 12 + 2 ^ 16 * (seed % 2 ^ 32)
  bits a 11 8 ^^^ (foldBits (Config.hashMask 2) x + 2 * foldBits (Config.hashMask 3) x + 4 * foldBits (Config.hashMask 4) x +
    8 * foldBits (Config.hashMask 5) x)

/-- Where a DRAM address lies (R194, R206): channel, bank, row and byte of the unit. -/
def dramPlace (seed a : Nat) : Nat × Nat × Nat × Nat := (dramChannel seed a, dramBank seed a, bits a 27 12, a % 64)

/-- Whether a range lies in DRAM (R34, R194). -/
def inDram (a n : Nat) : Bool := decide (a + n ≤ 0x10000000)

end Sys2Proof.Machine
end

