-- ==== Sys2Proof/Machine/Carillon.lean ====
section
/-! DEFINITION. Carillon (R93-R120): crosspoints and their ramps, exact sums, headroom factors, commands and the
crosspoint window. -/

namespace Sys2Proof.Machine

/-- Key of crosspoint (i, o). -/
abbrev xpKey (i o : Nat) : Nat := 2048 * o + i

/-- Crosspoint (i, o). -/
def State.xp (s : State) (i o : Nat) : Xp := Tbl.get s.cln.xp (xpKey i o) .zero

/-- Write crosspoint (i, o). -/
def State.setXp (s : State) (i o : Nat) (x : Xp) : State :=
  { s with cln := { s.cln with xp := Tbl.set s.cln.xp (xpKey i o) .zero x } }

/-- Output `o`'s factor. -/
def State.outF (s : State) (o : Nat) : OutFactor := Tbl.get s.cln.outs o .zero

/-- Write output `o`'s factor. -/
def State.setOutF (s : State) (o : Nat) (x : OutFactor) : State :=
  { s with cln := { s.cln with outs := Tbl.set s.cln.outs o .zero x } }

/-- The live plane's matrix (R93): inputs and outputs, 0 where it has none. -/
def State.clnInputs (s : State) : Nat := s.fld R.CLN_GEOM_INPUTS
def State.clnOutputs (s : State) : Nat := s.fld R.CLN_GEOM_OUTPUTS

/-- Wide storage is in use (R101). -/
def State.clnWide (s : State) : Bool := decide (s.fld R.CLN_MODE_WIDE = 1)

/-- Ramp length of a slot in blocks, at least one (R102). -/
def State.slotLen (s : State) (slot : Nat) : Nat := max (s.fld (R.CLN_RAMP_SLOT_LEN slot)) 1

/-- The shape function N of R104 for a slot. -/
def shapeN (profile len r : Nat) : Nat := if profile = 1 then r * r * (3 * len - 2 * r) else r

/-- The value a ramp reaches at the end of a block (R104). -/
def rampEnd (tgt cur : Int) (profile len r : Nat) : Int :=
  tgt - roundDiv ((tgt - cur) * (shapeN profile len (r - 1) : Int)) (shapeN profile len r)

/-- The value of sample `j` within a block (R105). -/
def rampSample (cur gEnd : Int) (j blockLen : Nat) : Int :=
  cur + roundDiv ((gEnd - cur) * ((j + 1 : Nat) : Int)) blockLen

/-- The value a crosspoint or factor reaches at the end of this block under its slot. -/
def State.slotEnd (s : State) (cur tgt : Int) (remain slot : Nat) : Int :=
  if remain = 0 then cur
  else rampEnd tgt cur (s.fld (R.CLN_RAMP_SLOT_PROFILE slot)) (s.slotLen slot) remain

/-- Ramp-table entries in use (R101): 0 in standard storage. -/
def State.rampUsed (s : State) : Nat :=
  if s.clnWide then (s.cln.xp.filter (fun e => e.2.entry)).length else 0

/-- Whether any crosspoint or output factor is ramping under a slot (R102). -/
def State.slotInUse (s : State) (slot : Nat) : Bool :=
  s.cln.xp.any (fun e => decide (e.2.slot = slot ∧ e.2.remain ≠ 0)) ||
  s.cln.outs.any (fun e => decide (e.2.slot = slot ∧ e.2.remain ≠ 0))

/-- CLN_RAMP_INUSE (R102). -/
def State.rampInUse (s : State) : Nat :=
  (List.range 16).foldl (fun n i => if s.slotInUse i then n + 2 ^ i else n) 0

/-! ### Changes (R101, R103) -/

/-- Count changes applied at this boundary (R115, R120). -/
def State.addChanges (s : State) (n : Nat) : State := s.bump R.CLN_CHANGES_LAST_COUNT n

/-- Start or retarget a crosspoint's ramp (R103). -/
def State.startRamp (s : State) (i o : Nat) (tgt : Int) (slot : Nat) : State :=
  let x := s.xp i o
  let s' := s.setXp i o { x with tgt := tgt, remain := s.slotLen slot, slot := slot, entry := true }
  if s.clnWide then s'.peak R.CLN_RAMP_TABLE_PEAK s'.rampUsed else s'

/-- A change of one crosspoint at a boundary (R101, R103): in wide storage one that needs a ramp entry and finds none, or
finds an earlier change of its crosspoint waiting, joins the ramp-wait queue. -/
def State.changeXp (s : State) (i o : Nat) (tgt : Int) (slot : Nat) : State :=
  let x := s.xp i o
  if s.clnWide then
    if s.cln.waitQ.any (fun w => w.1 == xpKey i o) then
      { s with cln := { s.cln with waitQ := s.cln.waitQ ++ [(xpKey i o, tgt, slot)] } }
    else if x.entry then (s.startRamp i o tgt slot).addChanges 1
    else if tgt = x.cur then (s.setXp i o { x with tgt := tgt, slot := slot }).addChanges 1
    else if s.rampUsed < 16384 then (s.startRamp i o tgt slot).addChanges 1
    else { s with cln := { s.cln with waitQ := s.cln.waitQ ++ [(xpKey i o, tgt, slot)] } }
  else (s.startRamp i o tgt slot).addChanges 1

/-- Serve the ramp-wait queue, oldest first, while entries are free (R101). -/
def State.serveWaits (s : State) : State :=
  let q := s.cln.waitQ
  let s0 := { s with cln := { s.cln with waitQ := [] } }
  q.foldl (fun s w =>
    let i := w.1 % 2048
    let o := w.1 / 2048
    let x := s.xp i o
    if s.cln.waitQ.any (fun v => v.1 == w.1) then { s with cln := { s.cln with waitQ := s.cln.waitQ ++ [w] } }
    else if x.entry ∨ s.rampUsed < 16384 then (s.startRamp i o w.2.1 w.2.2).addChanges 1
    else { s with cln := { s.cln with waitQ := s.cln.waitQ ++ [w] } }) s0

/-- Whether `n` more changes fit at this boundary (R115). -/
def State.changesFit (s : State) (n : Nat) : Bool := decide (s.fld R.CLN_CHANGES_LAST_COUNT + n ≤ 65536)

/-- Discard a Carillon command (R113). -/
def State.clnReject (s : State) : State := s.countAndRaise R.CLN_CMD_REJECT_COUNT R.CLN_INT_STATUS_CMD_REJECT

/-- Let a Carillon command wait for the next boundary (R115). -/
def State.clnDefer (s : State) : State := s.countAndRaise R.CLN_CMD_DEFER_COUNT R.CLN_INT_STATUS_CMD_DEFER

/-- Apply a set of changes whole, or `none` where the boundary's limit or the ramp-wait queue cannot take it (R101, R115). -/
def State.applyChanges (s : State) (n : Nat) (cs : List (Nat × Nat × Int × Nat)) : Option State :=
  if s.changesFit n then
    let s' := cs.foldl (fun s c => s.changeXp c.1 c.2.1 c.2.2.1 c.2.2.2) s
    if s'.cln.waitQ.length ≤ 65536 then some s' else none
  else none

/-! ### Headroom factors (R108, R109) -/

/-- `⌈log2 n⌉` for n ≥ 1. -/
def ceilLog2 (n : Nat) : Nat := if n ≤ 1 then 0 else Nat.log2 (n - 1) + 1

/-- Active inputs of an output (R108): CURRENT or TARGET not 0. -/
def State.activeInputs (s : State) (o : Nat) : Nat :=
  (s.cln.xp.filter (fun e => decide (e.1 / 2048 = o ∧ e.1 % 2048 < s.clnInputs ∧ (e.2.cur ≠ 0 ∨ e.2.tgt ≠ 0)))).length

/-- The headroom shift h of an output with `n` active inputs (R108), by the settings read at the boundary. -/
def OutFactor.headroom (x : OutFactor) (n : Nat) : Nat :=
  match x.read.1 with
  | 0 => min x.read.2.1 (ceilLog2 n)
  | 1 => x.read.2.1
  | _ => 0

/-- The output stage reads output `o`'s settings (R119), and its group's mute (R381). -/
def State.readOut (s : State) (o : Nat) : State :=
  let x := s.outF o
  s.setOutF o { x with read := (s.fld (R.CLN_OUT0_MODE o), x.shiftSet, s.fld (R.CLN_OUT0_SLOT o), s.groupMuted 0 (o / 16)) }

/-- Form an output's target factor from the boundary's changes so far (R108, R109): where F differs from the target with which the
boundary began, f ramps to it from where it stands. -/
def State.settleOut (s : State) (o : Nat) : State :=
  let x := s.outF o
  let n := s.activeInputs o
  let h := x.headroom n
  let m := if x.read.2.2.2 then 0 else 1 - s.fld (R.CLN_OUT0_MUTED o)
  let target : Int := (m * 2 ^ (23 - h) : Nat)
  let y := if target = x.base.1 then { x with target := x.base.1, remain := x.base.2.1, slot := x.base.2.2 }
    else { x with target := target, remain := s.slotLen x.read.2.2.1, slot := x.read.2.2.1 }
  (((s.setFld (R.CLN_OUT0_ACTIVE o) n).setFld (R.CLN_OUT0_SHIFT o) h).setFld (R.CLN_OUT0_RAMPING o) (flag (decide (y.remain ≠ 0)))).setOutF
    o y

/-- Form every output's target factor from the changes that the boundary has brought so far. -/
def State.clnSettle (s : State) : State := (List.range s.clnOutputs).foldl (fun s o => s.settleOut o) s

/-- No part has begun its work in this block: what takes effect now still belongs to the boundary (R114). -/
def State.clnOpen (s : State) : Bool := s.cln.parts == [] && s.atBoundary .cln 2

/-- The entries of a gain list (R112): (INPUT, OUTPUT, GAIN). -/
def gainList (n : Nat) (bs : List Byte) : List (Nat × Nat × Word) :=
  (List.range n).map (fun k => (leAt bs (8 * k) 2, leAt bs (8 * k + 2) 2, BitVec.ofNat 32 (leAt bs (8 * k + 4) 4)))

/-- Whether crosspoint (i, o) lies in the live geometry. -/
def State.xpIn (s : State) (i o : Nat) : Bool := decide (i < s.clnInputs ∧ o < s.clnOutputs)

/-- Count the entries of a list that are skipped (R113). -/
def State.rejectEntries (s : State) : Nat → State
  | 0 => s
  | n + 1 => (s.clnReject).rejectEntries n

/-- Apply one Carillon command at its boundary (R112-R115): `none` where it waits; otherwise its status (0 took effect,
2 discarded) and the state after. -/
def State.clnApply (s : State) (c : Cmd) (f : Fetch) : Option (Nat × State) :=
  let discard := some (2, s.clnReject)
  match c with
  | .xpSet i o g slot =>
    if s.xpIn i o && decide (slot ≤ 15) && signExt24 g then
      (s.applyChanges 1 [(i, o, low24 g, slot)]).map (fun s => (0, s.clnSettle))
    else discard
  | .xpWrite i o tgt slot => (s.applyChanges 1 [(i, o, tgt, slot)]).map (fun s => (0, s.clnSettle))
  | .xpList addr count slot =>
    if decide (s.clnInputs ≠ 0 ∧ slot ≤ 15 ∧ 1 ≤ count ∧ count ≤ 16384 ∧ addr % 8 = 0) then
      match f with
      | .done bs =>
        let es := gainList count bs
        let ok := es.filter (fun e => s.xpIn e.1 e.2.1 && signExt24 e.2.2)
        match s.applyChanges count (ok.map (fun e => (e.1, e.2.1, low24 e.2.2, slot))) with
        | none => none
        | some s' => some (0, (s'.rejectEntries (es.length - ok.length)).clnSettle)
      | .failed => discard
      | _ => none
    else discard
  | .xpClearOut o slot =>
    if decide (s.clnInputs ≠ 0 ∧ o < s.clnOutputs ∧ slot ≤ 15) then
      (s.applyChanges s.clnInputs ((List.range s.clnInputs).map (fun i => (i, o, 0, slot)))).map (fun s => (0, s.clnSettle))
    else discard
  | .xpClearIn i slot =>
    if decide (i < s.clnInputs ∧ slot ≤ 15) then
      (s.applyChanges s.clnOutputs ((List.range s.clnOutputs).map (fun o => (i, o, 0, slot)))).map (fun s => (0, s.clnSettle))
    else discard
  | .outMute first count mute =>
    if decide (1 ≤ count ∧ count ≤ 1024 ∧ mute ≤ 1 ∧ first + count ≤ s.clnOutputs) then
      some (0, ((List.range count).foldl (fun s j => s.setFld (R.CLN_OUT0_MUTED (first + j)) mute) s).clnSettle)
    else discard
  | _ => some (2, s)

/-- A Carillon command given as a row: applied at the boundary the engine is at, or held for the next one where the block's work has
begun (R114) or it must wait (R115). -/
def State.clnCommand (s : State) (c : Cmd) : State :=
  if s.clnOpen then
    match s.clnApply c .notNeeded with
    | some r => r.2
    | none => (s.holdLate .cln c).clnDefer
  else s.hold (heldOf .cln c .notNeeded)

/-! ### The boundary (R101, R108, R115, R119) -/

/-- An output's boundary begins: its ramp stands where the last block left it, and its settings are read (R109, R119). -/
def State.openOut (s : State) (o : Nat) : State :=
  let x := s.outF o
  (s.setOutF o { x with base := (x.target, x.remain, x.slot) }).readOut o

/-- Each block that an XP_LIST waits unfetched counts (R115). -/
def State.countWaitingLists (s : State) : State :=
  (s.held.filter (fun h => decide (h.eng = .cln ∧ h.fetch = .waiting))).foldl (fun s _ => s.clnDefer) s

/-- The changes in the ramp-wait queue have waited a block (R101). -/
def State.countRampWaits (s : State) : State :=
  if s.cln.waitQ = [] then s else (s.bump R.CLN_RAMP_WAIT_COUNT s.cln.waitQ.length).raise R.CLN_INT_STATUS_RAMP_WAIT

/-- Carillon's boundary at a token (R101, R108, R115): waits are counted, the count of changes starts again with those of a swap at S,
the ramp-wait queue is served, settings are read and factors formed. -/
def State.clnBoundary (s : State) : State :=
  let s1 := (s.countRampWaits.countWaitingLists).setFld R.CLN_CHANGES_LAST_COUNT (min s.cln.early (2 ^ 17 - 1))
  let s2 := { s1 with
    cln := { s1.cln with parts := [], early := 0 }
    old := s1.old.map (fun (o : OldPlane) => { o with cln := { o.cln with parts := [] } }) }
  ((List.range s2.clnOutputs).foldl (fun s o => s.openOut o) s2).serveWaits.clnSettle

/-- The OUTSET set's consistency check (R119): the code of the first cause that holds, 0 where none does. -/
def State.outsetCheck (s : State) (set : Tbl Nat) : Nat :=
  let v := fun (f : Fld) => Tbl.get set f.key f.rst
  if s.clnOutputs = 0 then 5
  else if v R.CLN_OUTSET_RANGE_FIRST > v R.CLN_OUTSET_RANGE_LAST then 1
  else if v R.CLN_OUTSET_RANGE_LAST ≥ s.clnOutputs then 2
  else if v R.CLN_OUTSET_CFG_MODE = 3 then 3
  else if v R.CLN_OUTSET_CFG_SHIFT > 11 then 4
  else 0

/-- Apply the OUTSET set (R119): every output from FIRST to LAST takes MODE, SHIFT and SLOT. Applied at a boundary (R114, R30), the
output stage reads them there; an immediate commit first acts at the next boundary. -/
def State.outsetApply (s : State) (set : Tbl Nat) (atBoundary : Bool) : State :=
  let v := fun (f : Fld) => Tbl.get set f.key f.rst
  let first := v R.CLN_OUTSET_RANGE_FIRST
  let outs := (List.range (v R.CLN_OUTSET_RANGE_LAST + 1 - first)).map (· + first)
  let s1 := outs.foldl (fun s o =>
    ((s.setOutF o { s.outF o with shiftSet := v R.CLN_OUTSET_CFG_SHIFT }).setFld
      (R.CLN_OUT0_MODE o) (v R.CLN_OUTSET_CFG_MODE)).setFld (R.CLN_OUT0_SLOT o) (v R.CLN_OUTSET_CFG_SLOT)) s
  if atBoundary && s1.clnOpen then (outs.foldl (fun s o => s.readOut o) s1).clnSettle else s1

/-! ### Sums (R95, R96, R98, R106, R107) -/

/-- The inputs of part `p` of `P` (R96). -/
def partInputs (inputs parts p : Nat) : List Nat :=
  let lo := p * inputs / parts
  (List.range ((p + 1) * inputs / parts - lo)).map (· + lo)

/-- The exact sum of an output at sample `j` over the inputs of the dispatched parts (R105, R106). -/
def State.xpSum (s : State) (blockLen : Nat) (inBus : Nat → BusBlk) (ins : List Nat) (o j : Nat) : Int :=
  ins.foldl (fun acc i =>
    let x := s.xp i o
    if x = .zero then acc
    else
      let g := if x.remain = 0 then x.cur else rampSample x.cur (s.slotEnd x.cur x.tgt x.remain x.slot) j blockLen
      acc + (inBus i).samples.getD j 0 * g) 0

/-- The accumulator and net-wrap counter of an exact sum (R106): S = A + c × 2^56. -/
def accOf (sum : Int) : Int × Int := (wrapS 56 sum, (sum - wrapS 56 sum) / (2 ^ 56 : Nat))

/-- The output stage (R107): the sample, and whether CLIP and OVF are set. -/
def outStage (sum f : Int) : Int × Bool × Bool :=
  let a := (accOf sum).1
  let c := (accOf sum).2
  if f = 0 then (0, false, false)
  else if c = 0 then
    let y := (a * f + (2 ^ 41 : Nat)) / (2 ^ 42 : Nat)
    (satS 24 y, decide (satS 24 y ≠ y), false)
  else (if c > 0 then 0x7FFFFF else -0x800000, true, true)

/-- One output's block: samples and the sticky flags it sets. -/
def State.outBlock (s : State) (blockLen : Nat) (inBus : Nat → BusBlk) (ins : List Nat) (o : Nat) :
    List Int × Bool × Bool :=
  let x := s.outF o
  let fEnd := s.slotEnd x.f x.target x.remain x.slot
  let ys := (List.range blockLen).map (fun j =>
    outStage (s.xpSum blockLen inBus ins o j) (if x.remain = 0 then x.f else rampSample x.f fEnd j blockLen))
  (ys.map (·.1), ys.any (·.2.1), ys.any (·.2.2))

/-- Advance one output's crosspoint ramps and factor to the end of the block (R104, R109); the entry of a ramp that has ended is free
(R101). -/
def State.advanceOut (s : State) (o : Nat) : State :=
  let adv := fun (x : Xp) => if x.remain = 0 then { x with entry := false, ramping := false }
    else { x with cur := s.slotEnd x.cur x.tgt x.remain x.slot, remain := x.remain - 1,
                  entry := x.entry && decide (x.remain ≠ 1), ramping := decide (x.remain ≠ 1) }
  let xp' := s.cln.xp.map (fun e => if e.1 / 2048 = o then (e.1, adv e.2) else e)
  let x := s.outF o
  let x' := if x.remain = 0 then x
    else { x with f := s.slotEnd x.f x.target x.remain x.slot, remain := x.remain - 1 }
  (({ s with cln := { s.cln with xp := xp'.filter (fun (e : Nat × Xp) => decide (e.2 ≠ Xp.zero)) } }).setOutF o x').setFld
    (R.CLN_OUT0_RAMPING o) (flag (decide (x'.remain ≠ 0)))

/-- Set an output's sticky flags and count its block (R107). -/
def State.flagOut (s : State) (o : Nat) (clip ovf : Bool) : State :=
  let s1 := if clip then
    ((s.setFld (R.CLN_OUT1_CLIP o) 1).bump R.CLN_CLIP_COUNT_COUNT).raise R.CLN_INT_STATUS_CLIP else s
  if ovf then ((s1.setFld (R.CLN_OUT1_OVF o) 1).bump R.CLN_OVF_COUNT_COUNT).raise R.CLN_INT_STATUS_OVF else s1

/-- The outputs of slice group `g` (R95). -/
def groupOutputs (outputs g : Nat) : List Nat := (List.range (outputs / 4)).map (· + g * (outputs / 4))

/-- Run part `p` of slice group `g` on data block `k` (R95-R98, R104-R107). The output stage runs at the last part. -/
def State.clnRunPart (s : State) (c : Cfg) (geom : ClnGeom) (parts k g p : Nat) : State :=
  let s2 := { s with cln := { s.cln with parts := (g, p) :: s.cln.parts } }
  if p + 1 = parts then
    let ins := (s2.cln.parts.filter (fun q => q.1 == g)).flatMap (fun q => partInputs geom.inputs parts q.2)
    let inBus := fun i => s2.bus k (geom.inBase + i)
    let outs := groupOutputs geom.outputs g
    let s3 := outs.foldl (fun s o =>
      let b := s2.outBlock c.blockLen inBus ins o
      (s.writeBus c k (geom.outBase + o) b.1).flagOut o b.2.1 b.2.2) s2
    outs.foldl (fun s o => s.advanceOut o) s3
  else s2

/-! ### The crosspoint window (R116-R118) -/

/-- The crosspoint a window address names (R116): input, output, and whether it is the word at +4. -/
def State.xpOfAddr (s : State) (a : Nat) : Nat × Nat × Bool :=
  let o := a - 0x11000000
  if s.clnWide then (o / 4 % 2048, o / 4 / 2048, false) else (o / 8 % 1024, o / 8 / 1024, decide (o % 8 = 4))

/-- TARGET and SLOT as last written (R117): a held write, a waiting change, or the crosspoint's own. -/
def State.xpTarget (s : State) (i o : Nat) : Int × Nat :=
  match s.held.reverse.find? (fun h => match h.cmd with | .xpWrite i' o' _ _ => i' == i && o' == o | _ => false) with
  | some h => match h.cmd with | .xpWrite _ _ t sl => (t, sl) | _ => (0, 0)
  | none =>
    match s.cln.waitQ.reverse.find? (fun w => w.1 == xpKey i o) with
    | some w => (w.2.1, w.2.2)
    | none => ((s.xp i o).tgt, (s.xp i o).slot)

/-- The word at +0 in the standard layout: RAMPING and CURRENT (R116, R118). -/
def State.xpCurWord (s : State) (i o : Nat) : Nat :=
  let x := s.xp i o
  if s.xpIn i o then flag x.ramping * 2 ^ 24 + codeS 24 x.cur else 0

/-- The word with SLOT and TARGET (R116); in the window of wide storage it also shows RAMPING. -/
def State.xpTgtWord (s : State) (i o : Nat) (ramping : Bool) : Nat :=
  if s.xpIn i o then
    let t := s.xpTarget i o
    t.2 * 2 ^ 28 + flag (ramping && (s.xp i o).ramping) * 2 ^ 24 + codeS 24 t.1
  else 0

/-- A read of the crosspoint window (R117). -/
def State.xpWindowRead (s : State) (a : Nat) : Nat :=
  let p := s.xpOfAddr a
  if s.clnWide then s.xpTgtWord p.1 p.2.1 true
  else if p.2.2 then s.xpTgtWord p.1 p.2.1 false else s.xpCurWord p.1 p.2.1

/-- A write of TARGET and SLOT becomes a held change of its crosspoint (R103, R115): it replaces one that has not yet
applied. Outside the geometry it is discarded with an error response and sets XP_RANGE (R117). -/
def State.xpWrite (s : State) (i o : Nat) (v : Word) : XbResp × State :=
  if s.xpIn i o then
    let s1 := { s with held := s.held.filter (fun h =>
      match h.cmd with | .xpWrite i' o' _ _ => !(i' == i && o' == o) | _ => true) }
    (.ok, s1.hold (heldOf .cln (.xpWrite i o (low24 v) (v.toNat / 2 ^ 28)) .notNeeded))
  else (.targetErr, s.raise R.CLN_INT_STATUS_XP_RANGE)

/-- A write into the crosspoint window (R116, R117). The word at +0 of standard storage is read-only. -/
def State.xpWindowWrite (s : State) (a : Nat) (v : Word) : XbResp × State :=
  let p := s.xpOfAddr a
  if s.clnWide || p.2.2 || !s.xpIn p.1 p.2.1 then s.xpWrite p.1 p.2.1 v else (.ok, s)

/-- Advance CLN_XP_SEL by one input (R118). -/
def State.xpAdvance (s : State) : State :=
  if s.fld R.CLN_XP_SEL_AUTOINC = 1 then
    let i := s.fld R.CLN_XP_SEL_INPUT + 1
    if i < s.clnInputs then s.setFld R.CLN_XP_SEL_INPUT i
    else
      let o := s.fld R.CLN_XP_SEL_OUTPUT + 1
      (s.setFld R.CLN_XP_SEL_INPUT 0).setFld R.CLN_XP_SEL_OUTPUT (if o < s.clnOutputs then o else 0)
  else s

/-- A write of CLN_XP_TGT (R118). -/
def State.xpTgtWrite (s : State) (v : Word) : XbResp × State :=
  let r := s.xpWrite (s.fld R.CLN_XP_SEL_INPUT) (s.fld R.CLN_XP_SEL_OUTPUT) v
  (r.1, r.2.xpAdvance)

/-- A write to ramp slot 1-15 (R102): ignored with RAMP_SLOT_BUSY while the slot is in use. -/
def State.rampSlotWrite (s : State) (slot : Nat) (v : Word) : State :=
  if slot = 0 ∨ 15 < slot then s
  else if s.slotInUse slot then s.raise R.CLN_INT_STATUS_RAMP_SLOT_BUSY
  else (s.setFld (R.CLN_RAMP_SLOT_PROFILE slot) (bit v.toNat 16)).setFld (R.CLN_RAMP_SLOT_LEN slot) (bits v.toNat 9 0)

/-- The counters CLN_COUNT_CLEAR clears (R120). -/
def clnCounts : List Fld := [R.CLN_CMD_LATE_COUNT, R.CLN_CMD_REJECT_COUNT, R.CLN_CMD_DEFER_COUNT, R.CLN_RAMP_WAIT_COUNT,
  R.CLN_CLIP_COUNT_COUNT, R.CLN_OVF_COUNT_COUNT, R.CLN_RAMP_TABLE_PEAK]

/-! ### The commands -/

def execXpSet (input output : Nat) (gain : Word) (slot : Nat) (s : State) : Host.Outcome State Fault Refusal :=
  .next (s.clnCommand (.xpSet input output gain slot))

/-- Take an XP_LIST in (R115): its fetch starts, or it waits unfetched while four lists are held. -/
def execXpList (addr count slot : Nat) (s : State) : Host.Outcome State Fault Refusal :=
  let n := (s.held.filter (fun h => match h.cmd with | .xpList .. => true | _ => false)).length
  .next (s.hold (heldOf .cln (.xpList addr count slot) (if n < 4 then .running else .waiting)))

def execXpClearOut (output slot : Nat) (s : State) : Host.Outcome State Fault Refusal :=
  .next (s.clnCommand (.xpClearOut output slot))

def execXpClearIn (input slot : Nat) (s : State) : Host.Outcome State Fault Refusal :=
  .next (s.clnCommand (.xpClearIn input slot))

def execOutMute (first count mute : Nat) (s : State) : Host.Outcome State Fault Refusal :=
  .next (s.clnCommand (.outMute first count mute))

/-- A crosspoint's ramp ends (R101, R104): its last block brings CURRENT to TARGET, and its entry is freed. -/
def execXpRampEnd (input output : Nat) (s : State) : Host.Outcome State Fault Refusal :=
  let x := s.xp input output
  if x.remain = 0 then .next (s.setXp input output { x with cur := x.tgt, entry := false }) else .next s

/-- An output's factor reaches its target (R109). -/
def execOutFactorRampEnd (output : Nat) (s : State) : Host.Outcome State Fault Refusal :=
  let x := s.outF output
  if x.remain = 0 then
    .next ((s.setOutF output { x with f := x.target }).setFld (R.CLN_OUT0_RAMPING output) 0)
  else .next s

end Sys2Proof.Machine
end

