-- ==== Sys2Proof/Machine/Dram.lean ====
section
/-! DEFINITION. What stands between a master and memory, for every master that reaches it: the targets of R221, the ports of R220, R223 and
R227, peal planes (R48, R49), line storage (R195), the outbound windows (R218). -/

namespace Sys2Proof.Machine

/-! ### Targets -/

/-- What an internal address decodes to (R34, R221). `words`: the targets that take whole words (R217). -/
inductive Target where
  | dram | sxm | words | coefs | history | shared | flash | outbound | nowhere
deriving DecidableEq, Repr

/-- The target of an internal address (R34). -/
def targetOf (a : Nat) : Target :=
  if a < 0x10000000 then .dram
  else if a < 0x10200000 then .sxm
  else if a < 0x11000000 then .nowhere
  else if a < 0x11800000 then .words
  else if a < 0x12000000 then .nowhere
  else if a < 0x12300000 then .coefs
  else if a < 0x12600000 then .history
  else if a < 0x13000000 then .nowhere
  else if a < 0x13400000 then .shared
  else if a < 0x14000000 then .nowhere
  else if a < 0x16000000 then .words
  else if a < 0x18000000 then .nowhere
  else if a < 0x20000000 then .flash
  else if a < 0x80000000 then .nowhere
  else if a < 0x100000000 then .outbound
  else .nowhere

/-- The power domain of an address's target (R32): 0 where no block stands there. -/
def targetDomain (a : Nat) : Nat :=
  match targetOf a with
  | .dram => 12
  | .sxm => 2
  | .words => if a < 0x14000000 then 3 else addrDomain a
  | .coefs => 4
  | .history => 4
  | .shared => 5 + (a - 0x13000000) / 0x100000
  | .flash => 1
  | .outbound => 2
  | .nowhere => 0

/-- The number of an address's target (R221): a DRAM address by its channel (R206). -/
def State.targetNumber (s : State) (a : Nat) : Nat :=
  match targetOf a with
  | .dram => dramChannel s.dpl.seed a
  | .sxm => 4
  | .words => if a < 0x14000000 then 5 else if a < 0x15F00000 then 11 else if a < 0x15F80000 then 12 else 13
  | .coefs => 6
  | .history => 6
  | .shared => 7 + (a - 0x13000000) / 0x100000
  | .flash => 14
  | .outbound => 15
  | .nowhere => 16

/-! ### Planes (R34, R47, R48) -/

/-- The plane states of R48. -/
abbrev plEmpty : Nat := 0
abbrev plLoading : Nat := 1
abbrev plVerifying : Nat := 2
abbrev plVerified : Nat := 3
abbrev plRejected : Nat := 4
abbrev plArmed : Nat := 5
abbrev plSwapping : Nat := 6
abbrev plLive : Nat := 7
abbrev plModified : Nat := 8

/-- The internal address of plane `p`: 0 A, 1 B (R34). -/
def planeBase (p : Nat) : Nat := 0x0D000000 + 0x1800000 * p

/-- The state of plane `p`. -/
def planeFld (p : Nat) : Fld := if p = 0 then R.PEAL_STATUS_PLANE_A else R.PEAL_STATUS_PLANE_B
def State.plane (s : State) (p : Nat) : Nat := s.fld (planeFld p)

/-- Set the state of plane `p`; BUSY shows a load or a verification (R65). -/
def State.setPlane (s : State) (p st : Nat) : State :=
  let s1 := s.setFld (planeFld p) st
  s1.setFld R.PEAL_STATUS_BUSY (flag (decide (s1.plane 0 = 1 ∨ s1.plane 0 = 2 ∨ s1.plane 1 = 1 ∨ s1.plane 1 = 2)))

/-- The live plane and the staged one: A while none is live (R47). -/
def State.livePlane (s : State) : Nat := s.fld R.PEAL_STATUS_LIVE_PLANE
def State.staged (s : State) : Nat := if s.cfg.isNone then 0 else 1 - s.livePlane

/-- SYS_BOOT_STATUS.STAGE while no plane is live and the device is in LOAD. -/
def State.bootStage (s : State) (n : Nat) : State :=
  if s.cfg.isNone ∧ s.mode = .load then s.setFld R.SYS_BOOT_STATUS_STAGE n else s

/-- A write of bytes at a DRAM address into the planes it touches: refused whole, or taken (R49). Line storage and the rest
of DRAM are not its concern. -/
def State.planeWrite (s : State) (a : Nat) (data : List (Option Byte)) : XbResp × State :=
  let hit := [0, 1].filter (fun p => decide (a < planeBase p + 0x1800000 ∧ planeBase p < a + data.length))
  if hit.any (fun p => decide (s.plane p = plLive ∨ s.plane p = plArmed ∨ s.plane p = plSwapping ∨ s.plane p = plLoading)) then
    (.targetErr, s.raise R.PEAL_INT_STATUS_LIVE_WRITE)
  else
    let s1 := { s with mem := s.mem.dramWrite a data }
    (.ok, hit.foldl (fun s p =>
      if s.plane p = plEmpty ∨ s.plane p = plVerifying ∨ s.plane p = plVerified ∨ s.plane p = plRejected then
        let s' := if s.plane p = plVerifying then s.bootStage 3 else s
        { (s'.setPlane p plModified) with peal := { s'.peal with cfgs := Tbl.erase p s'.peal.cfgs } }
      else s) s1)

/-! ### Line storage (R195, R197) -/

/-- Units of 64 bytes of a line of capacity `c` (R197). -/
def lineUnits (c : Nat) : Nat := ceilDiv (c + 42) 21

/-- Whether `n` bytes at `a` touch the storage of a line (R195). -/
def Cfg.inLineStorage (c : Cfg) (a n : Nat) : Bool :=
  c.lines.any (fun r => decide (a < r.base + 64 * lineUnits r.capacity ∧ r.base < a + n))

/-- Whether a byte lies in the storage of a delay line that is protected now (R195): the live plane's, and from arming to the
end of a crossfade those of both planes. -/
def State.lineProtected (s : State) (a : Nat) : Bool :=
  (match s.cfg with | some c => c.inLineStorage a 1 | none => false) ||
  (match s.peal.armed with | some x => x.cfg.inLineStorage a 1 | none => false) ||
  (match s.old with | some o => o.cfg.inLineStorage a 1 | none => false) ||
  ((match s.peal.fade with | none => false | some f => !f.ended) && (match Tbl.get s.peal.cfgs (1 - s.livePlane) none with | some c => c.inLineStorage a 1 | none => false))

/-- Addresses of the bytes a write carries. -/
def writtenAddrs (a : Nat) : List (Option Byte) → List Nat
  | [] => []
  | none :: bs => writtenAddrs (a + 1) bs
  | some _ :: bs => a :: writtenAddrs (a + 1) bs

/-- A write into DRAM (R194, R195, R49). -/
def State.dramStore (s : State) (m a : Nat) (data : List (Option Byte)) : XbResp × State :=
  if m ≠ 10 ∧ (writtenAddrs a data).any (fun b => s.lineProtected b) then (.targetErr, s.raise R.DPL_INT_STATUS_LINE_WRITE)
  else s.planeWrite a data

/-! ### Outbound windows and masters -/

/-- The host address of an outbound internal address (R218); none where its window is not enabled, or in D3hot (R435). -/
def State.obAddr (s : State) (a : Nat) : Option Nat :=
  let n := (a - 0x80000000) / 0x10000000
  if s.fld (R.HIF_OB_ENABLE n) = 1 ∧ s.hif.d3hot = false then some (s.fld (R.HIF_OB_HOST_BASE n) * 2 ^ 28 + a % 0x10000000) else none

/-- Whether a master is enabled (R223). -/
def State.xbEnabled (s : State) (m : Nat) : Bool :=
  let has := fun (p : Cfg → Bool) => match s.cfg with | none => false | some c => p c
  match m with
  | 0 | 1 | 2 | 3 | 17 | 18 | 22 => true
  | 4 => has (fun c => c.geom.isSome)
  | 5 => has (fun c => c.filters != [])
  | 6 | 7 | 8 | 9 => s.domainOn (m - 1)
  | 10 => has (fun c => c.lines != [] || c.regions != [])
  | 11 | 12 | 13 | 14 | 15 | 16 => s.domainOn 9
  | 19 => has (fun c => c.beatChans != [] || c.beatRails != [])
  | 20 => has (fun c => c.prts != [])
  | 21 => has (fun c => c.aess != [])
  | 23 => decide (s.mode = .test)
  | _ => false

/-- XB_CFG.ENABLED (R223, R245). -/
def State.xbEnabledMask (s : State) : Nat :=
  (List.range 24).foldl (fun n m => if s.xbEnabled m then n + 2 ^ m else n) 0

/-- XB_CFG.PROFILE (R223). -/
def State.xbProfile (s : State) : Nat :=
  match s.mode, s.cfg with
  | .shadow, some c => c.sys.xbProfile
  | .live, some c => c.sys.xbProfile
  | .limp, some c => c.sys.xbProfile
  | _, _ => 0

/-- The state of a master's port (R227). -/
inductive PortState where
  | closed | opened | quarantined | resetting
deriving DecidableEq, Repr

/-- The state of master `m`'s port (R227). -/
def State.xbPort (s : State) (m : Nat) : PortState :=
  if m ∈ s.hif.resetting then .resetting
  else if bit (s.fld R.XB_QUARANTINE_MASTER) m = 1 then .quarantined
  else if s.xbEnabled m then .opened
  else .closed

/-- Bytes a request covers. -/
def XbKind.len : XbKind → Nat
  | .read n => n
  | .write d => d.length
  | .hostRead n => n
  | .hostWrite d => d.length
  | .atomic _ n _ _ => n

/-- Whether a request writes. -/
def XbKind.writes : XbKind → Bool
  | .read _ => false
  | .hostRead _ => false
  | .write _ => true
  | .hostWrite _ => true
  | .atomic .. => true

/-- The requests of a master that are outstanding: forwarded, and without a response (R222, R245). -/
def State.outstanding (s : State) (m : Nat) : Nat := (s.hif.queue.filter (fun r => r.admitted && r.master == m)).length

/-- XB_OUTSTANDING of a master shows what is outstanding (R245). -/
def State.showOutstanding (s : State) (m : Nat) : State :=
  (s.setFld (R.XB_OUTSTANDING_NOW m) (s.outstanding m)).peak (R.XB_OUTSTANDING_PEAK m) (s.outstanding m)

/-- A request that is issued and answered while a command runs counts in its master's peak (R245). -/
def State.touch (s : State) (m : Nat) : State :=
  if s.domainOn 2 then s.peak (R.XB_OUTSTANDING_PEAK m) (s.outstanding m + 1) else s

/-- The requests that target `t` has admitted and not finished (R225). -/
def State.admittedAt (s : State) (t : Nat) : Nat :=
  (s.hif.queue.filter (fun r => r.admitted && r.answer.isNone && s.targetNumber r.addr == t)).length

/-- Whether a request of master `m` to address `a` has to wait in its port (R222, R224, R225): behind a locked sequence of another master,
behind its own master's requests that wait there, at its master's limit, or for a target that is full. -/
def State.portBusy (s : State) (m a : Nat) : Bool :=
  s.hif.locks.any (fun l => l.target == s.targetNumber a && l.master != m) ||
  s.hif.queue.any (fun r => r.master == m && !r.admitted) ||
  decide (32 ≤ s.outstanding m ∨ 256 ≤ (s.hif.queue.filter (fun r => r.admitted)).length ∨ 64 ≤ s.admittedAt (s.targetNumber a))

/-- What becomes of a request of master `m` to address `a` (R36, R227): forwarded, answered at once with a target error, held at its
port, or none at all where the master has no port. With CTRL off only the SMP gets anywhere: to AO and to OTP and identity. -/
inductive Passage where
  | forwarded | refused | held | stopped
deriving DecidableEq, Repr

def State.passage (s : State) (m a : Nat) : Passage :=
  if s.domainOn 2 then
    match s.xbPort m with
    | .opened => if s.portBusy m a then .held else .forwarded
    | .quarantined => .refused
    | .closed => .stopped
    | .resetting => .held
  else if m = 1 ∧ 0x15F00000 ≤ a ∧ a < 0x16000000 then .forwarded
  else .stopped

/-! ### Writes into memory targets (R217, R221) -/

/-- Write bytes of a cluster's shared memory; an absent byte is not written. -/
def State.putShared (s : State) (cl i : Nat) : List (Option Byte) → State
  | [] => s
  | none :: bs => s.putShared cl (i + 1) bs
  | some b :: bs =>
    ({ s with mal := { s.mal with shared := Tbl.set s.mal.shared (1048576 * cl + i) 0 b } }).putShared cl (i + 1) bs

/-- A crossbar write into SXM (R74). -/
def State.sxmRefuse (s : State) : XbResp × State := (.targetErr, s.raise R.SXM_INT_STATUS_WRITE_REFUSED)

/-- Runs of consecutive bytes that a write carries, with their addresses. -/
def byteRuns (a : Nat) : List (Option Byte) → List (Nat × List Byte)
  | [] => []
  | none :: bs => byteRuns (a + 1) bs
  | some b :: bs =>
    match byteRuns (a + 1) bs with
    | (a', r) :: t => if a' = a + 1 then (a, b :: r) :: t else (a, [b]) :: (a', r) :: t
    | [] => [(a, [b])]

/-- A write into an outbound window (R218, R435). -/
def State.obStore (s : State) (a : Nat) (data : List (Option Byte)) : XbResp × State :=
  match s.obAddr a with
  | none => (.targetErr, s)
  | some h => (.ok, (byteRuns h data).foldl (fun s r => s.emit (.outbound r.1 r.2)) s)

/-- A write by master `m` into a target other than registers, windows and Chimes coefficients (R217); those answer with a target error
here. -/
def State.memStore (s : State) (m a : Nat) (data : List (Option Byte)) : XbResp × State :=
  if targetDomain a = 0 ∨ s.domainOn (targetDomain a) = false then (.decodeErr, s.countDecErr a)
  else
    match targetOf a with
    | .dram => s.dramStore m a data
    | .sxm => s.sxmRefuse
    | .shared => (.ok, s.putShared ((a - 0x13000000) / 0x100000) (a % 0x100000) data)
    | .outbound => s.obStore a data
    | .words => (.targetErr, s)
    | .coefs => (.targetErr, s)
    | .history => (.targetErr, s)
    | .flash => (.targetErr, s)
    | .nowhere => (.decodeErr, s.countDecErr a)

/-- A span of `n` bytes at `a`, cut where one target may end and another begin: every range of R34 is a multiple of 1 MiB. -/
def spans (a n : Nat) : List (Nat × Nat) :=
  if n = 0 ∨ a / 2 ^ 20 = (a + n - 1) / 2 ^ 20 then [(a, n)]
  else
    (List.range ((a + n - 1) / 2 ^ 20 - a / 2 ^ 20 + 1)).map (fun i =>
      let lo := max a (2 ^ 20 * (a / 2 ^ 20 + i))
      (lo, min (a + n) (2 ^ 20 * (a / 2 ^ 20 + i + 1)) - lo))

end Sys2Proof.Machine
end

