-- ==== Sys2Proof/Machine/Chimes.lean ====
section
/-! DEFINITION. Chimes (R121-R137): filters, banks and their crossfades, the coefficient window, presets and commands. -/

namespace Sys2Proof.Machine

/-- Filter `f`'s banks. -/
def State.filt (s : State) (f : Nat) : ChmFilter := Tbl.get s.chm.filters f .fresh

/-- Write filter `f`'s banks. -/
def State.setFilt (s : State) (f : Nat) (x : ChmFilter) : State :=
  { s with chm := { s.chm with filters := Tbl.set s.chm.filters f .fresh x } }

/-- The record of filter `f` in the live plane. -/
def State.filterRec? (s : State) (f : Nat) : Option FilterRec := s.cfg.bind (fun c => c.filter? f)

/-- Base of bank `b` of a filter. -/
def FilterRec.bankBase (r : FilterRec) (b : Nat) : Nat := if b = 0 then r.bankA else r.bankB

/-- Coefficient `n` of coefficient memory. -/
def State.coef (s : State) (n : Nat) : Int := Tbl.get s.chm.coefs n 0

/-- Write coefficients from index `n`. -/
def State.setCoefs (s : State) (n : Nat) (cs : List Int) : State :=
  let t' := cs.zipIdx.foldl (fun t p => Tbl.set t (n + p.2) 0 p.1) s.chm.coefs
  { s with chm := { s.chm with coefs := t' } }

/-- The contents of bank `b` of a filter. -/
def State.bankCoefs (s : State) (r : FilterRec) (b : Nat) : List Int :=
  (List.range r.taps).map (fun t => s.coef (r.bankBase b + t))

/-- The image's contents of bank `b` of a filter (R128). -/
def Cfg.bankCoefs (c : Cfg) (r : FilterRec) (b : Nat) : List Int :=
  (List.range r.taps).map (fun t => c.coeffs.getD (r.bankBase b + t) 0)

/-- The idle bank may be written (R128). -/
def ChmFilter.writable (x : ChmFilter) : Bool := decide (x.locked = 0) && (x.idle == .ready || x.idle == .invalid)

/-- Filters with a fade running. -/
def State.fadingCount (s : State) : Nat := (s.chm.filters.filter (fun e => e.2.fade.isSome)).length

/-- The code of an idle-bank state (R128). -/
def IdleBank.code : IdleBank → Nat
  | .ready => 0
  | .loading => 1
  | .invalid => 2
  | .busy => 3

/-- The idle state as the filter table shows it (R128, R136). -/
def ChmFilter.idleCode (x : ChmFilter) : Nat := if x.locked ≠ 0 then 3 else x.idle.code

/-! ### Samples (R126, R127, R129) -/

/-- The rounding and saturation of a filter sum (R126): the sample, and whether it saturated. -/
def firRound (sum : Int) : Int × Bool :=
  let y := (sum + (2 ^ 21 : Nat)) / (2 ^ 22 : Nat)
  (satS 24 y, decide (satS 24 y ≠ y))

/-- The key of a part's history of a bus (R127). -/
abbrev histKey (half part bus : Nat) : Nat := (half * 8 + part) * 8192 + bus

/-- A part's history of a bus, newest sample first. -/
def State.hist (s : State) (half part bus : Nat) : List Int := Tbl.get s.chm.hist (histKey half part bus) []

/-- Store `xs`, oldest first, into a part's history of a bus (R127). -/
def State.pushHist (s : State) (half part bus keep : Nat) (xs : List Int) : State :=
  let t' := Tbl.set s.chm.hist (histKey half part bus) [] ((xs.reverse ++ s.hist half part bus).take keep)
  { s with chm := { s.chm with hist := t' } }

/-- One output of a filter bank (R126): `x` is the history newest first, `d` how many samples lie before it. -/
def State.firOut (s : State) (r : FilterRec) (b : Nat) (x : List Int) (d : Nat) : Int × Bool :=
  firRound ((List.range r.taps).foldl (fun a t => a + s.coef (r.bankBase b + t) * x.getD (d + t) 0) 0)

/-- The mix of a fade at step k of L (R129, R202). -/
def fadeMix (yOut yIn : Int) (k len : Nat) : Int := yOut + roundDiv ((yIn - yOut) * (k : Int)) len

/-- A filter's sample `j` of `n` (R129): fading in is the active bank, fading out the other. -/
def State.filterSample (s : State) (r : FilterRec) (x : List Int) (n j : Nat) : Int × Bool :=
  let ft := s.filt r.filter
  let d := n - 1 - j
  let yIn := s.firOut r ft.active x d
  match ft.fade with
  | none => yIn
  | some (k, len, false) =>
    if k + j + 1 ≤ len then
      let yOut := s.firOut r (1 - ft.active) x d
      (fadeMix yOut.1 yIn.1 (k + j + 1) len, yIn.2 || yOut.2)
    else yIn
  | some (k, len, true) =>
    let yOut := s.firOut r (1 - ft.active) x d
    if j + 1 < k then (fadeMix yOut.1 yIn.1 (k - j - 1) len, yIn.2 || yOut.2) else yOut

/-- Advance a running fade by `n` samples (R129). -/
def ChmFilter.advance (x : ChmFilter) (n : Nat) : ChmFilter :=
  match x.fade with
  | none => x
  | some (k, len, false) => { x with fade := some (min (k + n) len, len, false) }
  | some (k, len, true) => { x with fade := some (k - n, len, true) }

/-- Whether a fade has reached its end: L, or 0 where it was reversed (R129). -/
def ChmFilter.fadeAtEnd (x : ChmFilter) : Bool :=
  match x.fade with
  | none => false
  | some (k, len, false) => decide (k = len)
  | some (k, _, true) => decide (k = 0)

/-- The filters of part `p` of half `h` (R123). -/
def Cfg.partFilters (c : Cfg) (h p parts : Nat) : List FilterRec :=
  c.filters.filter (fun r => decide (256 * h + 256 * p / parts ≤ r.filter ∧ r.filter < 256 * h + 256 * (p + 1) / parts))

/-- The input buses of a part's filters, each once, with the history its longest filter needs. -/
def partBuses (rs : List FilterRec) (n : Nat) : List (Nat × Nat) :=
  (rs.map (·.inBus)).dedup.map (fun b =>
    (b, n + (rs.filter (fun r => r.inBus == b)).foldl (fun m r => max m r.taps) 0))

/-- The first step of a part after its dispatch (R127): data block `k` of its buses enters its histories whole. -/
def State.chmStore (s : State) (c : Cfg) (parts k h p : Nat) : State :=
  let n := c.blockLen
  (partBuses (c.partFilters h p parts) n).foldl (fun s b =>
    s.pushHist h p b.1 b.2 ((List.range n).map (fun j => (s.bus k b.1).samples.getD j 0))) s

/-- Run part `p` of half `h` on data block `k` (R126, R127, R129). -/
def State.chmRunPart (s : State) (c : Cfg) (parts k h p : Nat) : State :=
  let n := c.blockLen
  let rs := c.partFilters h p parts
  let s1 := s.chmStore c parts k h p
  rs.foldl (fun s r =>
    let ys := (List.range n).map (fun j => s.filterSample r (s.hist h p r.inBus) n j)
    let s2 := (s.writeBus c k r.outBus (ys.map (·.1))).setFilt r.filter ((s.filt r.filter).advance n)
    if ys.any (·.2) then
      ((s2.setFld (R.CHM_FILT1_CLIP r.filter) 1).bump R.CHM_CLIP_COUNT_COUNT).raise R.CHM_INT_STATUS_CLIP
    else s2) s1

/-- End a filter's fade (R129): the bank that faded out becomes READY. After a swap the device first writes the image's
bank B contents into the bank that is then idle (R136). -/
def State.endFade (s : State) (f : Nat) : State :=
  let x := s.filt f
  match x.fade with
  | none => s
  | some (_, _, rev) =>
    let active := if rev then 1 - x.active else x.active
    let s1 := s.setFilt f { active := active, idle := .ready, fade := none, locked := if x.locked = 2 then 0 else x.locked }
    let s2 := if x.locked = 2 then
        match s.filterRec? f, s.cfg with
        | some r, some c => s1.setCoefs (r.bankBase (1 - active)) (c.bankCoefs r 1)
        | _, _ => s1
      else s1
    s2.raise R.CHM_INT_STATUS_XFADE_DONE

/-- End every fade that has reached its end. -/
def State.endFades (s : State) : State :=
  (s.chm.filters.filter (fun e => e.2.fadeAtEnd)).foldl (fun s e => s.endFade e.1) s

/-- A part whose block was not run (R127, R129): its fades end, and the block's samples read 0; a LIMP restriction that
withholds the part clears its history. -/
def State.chmSkipPart (s : State) (c : Cfg) (parts h p : Nat) (stored withheld : Bool) : State :=
  let rs := c.partFilters h p parts
  let s1 := rs.foldl (fun s r => s.endFade r.filter) s
  if withheld then (partBuses rs c.blockLen).foldl (fun s b => s.pushHist h p b.1 0 []) s1
  else if stored then s1
  else (partBuses rs c.blockLen).foldl (fun s b => s.pushHist h p b.1 b.2 (silence c.blockLen)) s1

/-! ### Bank selects (R129, R135) -/

/-- Select bank `b` on one filter (R129). -/
def State.selectBank (s : State) (f b len : Nat) : State :=
  let x := s.filt f
  match x.fade with
  | none =>
    if b = x.active then s
    else s.setFilt f { x with active := b, idle := .busy, fade := some (0, len, false) }
  | some (k, l, rev) =>
    let fadingIn := if rev then 1 - x.active else x.active
    if b = fadingIn then s else s.setFilt f { x with fade := some (k, l, !rev) }

/-- Select a bank on each of several filters, as one request (R129, R135): `none` where a target is LOADING and it waits whole; an error
where a filter is undefined, locked by a swap (R136) or its target INVALID. -/
def State.selectAll (s : State) (targets : List (Nat × Nat)) (len : Nat) : Option (Except Unit State) :=
  let goes := fun (t : Nat × Nat) => decide ((s.filt t.1).fade = none ∧ (s.filt t.1).active ≠ t.2)
  if targets.any (fun t => (s.filterRec? t.1).isNone || decide ((s.filt t.1).locked ≠ 0) ||
      (goes t && decide ((s.filt t.1).idle = .invalid))) then some (.error ())
  else if targets.any (fun t => goes t && decide ((s.filt t.1).idle = .loading)) then none
  else some (.ok (targets.foldl (fun s t => s.selectBank t.1 t.2 len) s))

/-- Discard a Chimes command (R135). -/
def State.chmReject (s : State) : State := s.countAndRaise R.CHM_CMD_REJECT_COUNT R.CHM_INT_STATUS_CMD_REJECT

/-- A Chimes command applied after its stamp, or after it had to wait (R134, R135). -/
def State.chmLate (s : State) : State := s.countAndRaise R.CHM_CMD_LATE_COUNT R.CHM_INT_STATUS_CMD_LATE

/-- Whether the live plane has filters (R121). -/
def State.chmPresent (s : State) : Bool := match s.cfg with | none => false | some c => c.filters != []

/-- Whether every filter of a range is defined. -/
def State.filtersIn (s : State) (first count : Nat) : Bool :=
  (List.range count).all (fun j => (s.filterRec? (first + j)).isSome)

/-- A load ends without a start, or a request is refused (R133). -/
def State.presetFail (s : State) (result : Nat) : State :=
  { (s.setFld R.CHM_PRESET_STATUS_RESULT result).raise R.CHM_INT_STATUS_PRESET_FAIL with chm := { s.chm with failed := true } }

/-- Loads that wait (R133). -/
def State.presetWaiting (s : State) : Nat := (s.chm.queue.filter (fun l => l.startAt.isNone)).length

/-- The words of a coefficient list, or none where one is not sign-extended (R125, R134). -/
def coefList (n : Nat) (bs : List Byte) : Option (List Int) :=
  let ws := (List.range n).map (fun k => (BitVec.ofNat 32 (leAt bs (4 * k) 4) : Word))
  if ws.all signExt24 then some (ws.map low24) else none

/-- The first accepted write makes an INVALID bank READY (R128). -/
def State.touchIdle (s : State) (f : Nat) : State :=
  let x := s.filt f
  if x.idle = .invalid then s.setFilt f { x with idle := .ready } else s

/-- Apply one Chimes command at its boundary (R129, R133-R135): `none` where it waits; otherwise its status (0 took effect,
2 discarded) and the state after. -/
def State.chmApply (s : State) (c : Cmd) (f : Fetch) : Option (Nat × State) :=
  let discard := some (2, s.chmReject)
  match c with
  | .bankSelect first count len bank =>
    if s.chmPresent && decide (1 ≤ count ∧ count ≤ 512 ∧ 16 ≤ len ∧ len ≤ 1024 ∧ bank ≤ 1) then
      match s.selectAll ((List.range count).map (fun j => (first + j, bank))) len with
      | some (.ok s') => some (0, s')
      | some (.error _) => discard
      | none => none
    else discard
  | .presetLoad array preset flags len =>
    if s.chmPresent && (decide (flags % 2 = 0) || decide (16 ≤ len ∧ len ≤ 1024)) then
      if s.presetWaiting < 4 ∧ ((s.cfg.bind (fun c => c.presets.find? (fun r => r.array == array && r.preset == preset))).isSome) then
        let l : PresetLoad := ⟨array, preset, decide (flags % 2 = 1), len, none, (0, 0),
          if s.chm.queue = [] then some (s.boundary .chm).2 else none, none, [], []⟩
        some (0, { s with chm := { s.chm with queue := s.chm.queue ++ [l] } })
      else some (2, s.presetFail 5)
    else discard
  | .coefWrite filter bank first count addr =>
    match s.filterRec? filter with
    | none => discard
    | some r =>
      if decide (bank ≤ 1 ∧ 1 ≤ count ∧ count ≤ 8192 ∧ first + count ≤ r.taps ∧ addr % 4 = 0) then
        match f with
        | .done bs =>
          match coefList count bs with
          | none => discard
          | some cs =>
            let x := s.filt filter
            if x.writable && decide (bank ≠ x.active) then
              some (0, (s.setCoefs (r.bankBase bank + first) cs).touchIdle filter)
            else discard
        | .failed => discard
        | _ => none
      else discard
  | _ => some (2, s)

/-- A Chimes command given as a row: applied at the boundary the engine is at, or held for the next one where the block's work has
begun or it must wait whole (R135). -/
def State.chmCommand (s : State) (c : Cmd) : State :=
  if s.atBoundary .chm 3 then
    match s.chmApply c .notNeeded with
    | some r => r.2
    | none => s.holdLate .chm c
  else s.hold (heldOf .chm c .notNeeded)

/-! ### The coefficient window and CHM_CW (R130) -/

/-- The filter and bank that hold coefficient index `n`. -/
def Cfg.coefOwner (c : Cfg) (n : Nat) : Option (FilterRec × Nat) :=
  match c.filters.find? (fun r => decide (r.bankA ≤ n ∧ n < r.bankA + r.taps)) with
  | some r => some (r, 0)
  | none => (c.filters.find? (fun r => decide (r.bankB ≤ n ∧ n < r.bankB + r.taps))).map (fun r => (r, 1))

/-- Whether coefficient `n` may be written: in no bank, or in a writable idle bank (R130). -/
def State.coefWritable (s : State) (n : Nat) : Bool :=
  match s.cfg.bind (fun c => c.coefOwner n) with
  | none => true
  | some (r, b) => let x := s.filt r.filter; x.writable && decide (b ≠ x.active)

/-- The filter whose INVALID bank a write of coefficient `n` makes READY. -/
def State.touchCoef (s : State) (n : Nat) : State :=
  match s.cfg.bind (fun c => c.coefOwner n) with
  | none => s
  | some (r, _) => s.touchIdle r.filter

/-- Refuse a coefficient write (R130). -/
def State.coefRefuse (s : State) : XbResp × State :=
  (.targetErr, s.countAndRaise R.CHM_COEF_REFUSED_COUNT R.CHM_INT_STATUS_COEF_REFUSED)

/-- Byte `i` of coefficient memory as the window packs it (R130). -/
def State.coefByte (s : State) (i : Nat) : Byte := BitVec.ofNat 8 (codeS 24 (s.coef (i / 3)) / 256 ^ (i % 3))

/-- Write one byte of coefficient memory. -/
def State.setCoefByte (s : State) (i : Nat) (b : Byte) : State :=
  let old := codeS 24 (s.coef (i / 3))
  let cleared := old - (old / 256 ^ (i % 3) % 256) * 256 ^ (i % 3)
  s.setCoefs (i / 3) [ofCodeS 24 (cleared + b.toNat * 256 ^ (i % 3))]

/-- Write bytes of coefficient memory. -/
def State.putCoefBytes (s : State) (i : Nat) : List (Option Byte) → State
  | [] => s
  | none :: bs => s.putCoefBytes (i + 1) bs
  | some b :: bs => (s.setCoefByte i b).putCoefBytes (i + 1) bs

/-- A write into the coefficient or history window (R130). -/
def State.chmWindowWrite (s : State) (a : Nat) (data : List (Option Byte)) : XbResp × State :=
  if a < 0x12300000 then
    let i := a - 0x12000000
    let ns := ((List.range data.length).filter (fun j => (data.getD j none).isSome)).map (fun j => (i + j) / 3)
    if ns.all (fun n => s.coefWritable n) then (.ok, ns.dedup.foldl (fun s n => s.touchCoef n) (s.putCoefBytes i data))
    else s.coefRefuse
  else (.targetErr, s)

/-- A read of the coefficient or history window (R130). -/
def State.chmWindowRead (s : State) (a n : Nat) : List Byte :=
  (List.range n).map (fun j => if a + j < 0x12300000 then s.coefByte (a + j - 0x12000000) else 0)

/-- The coefficient that CHM_CW_SEL names, if it names one (R130). -/
def State.cwIndex (s : State) : Option Nat :=
  match s.filterRec? (s.fld R.CHM_CW_SEL_FILTER) with
  | none => none
  | some r =>
    if s.fld R.CHM_CW_SEL_TAP < r.taps then some (r.bankBase (s.fld R.CHM_CW_SEL_BANK) + s.fld R.CHM_CW_SEL_TAP) else none

/-- Advance CHM_CW_SEL.TAP (R130). -/
def State.cwAdvance (s : State) : State :=
  if s.fld R.CHM_CW_SEL_AUTOINC = 1 then
    let tap := s.fld R.CHM_CW_SEL_TAP
    let last := match s.cwIndex, s.filterRec? (s.fld R.CHM_CW_SEL_FILTER) with
      | some _, some r => r.taps - 1
      | _, _ => 8191
    s.setFld R.CHM_CW_SEL_TAP (if tap < last then tap + 1 else 0)
  else s

/-- A write of CHM_CW_DATA (R130, R137). -/
def State.cwDataWrite (s : State) (v : Word) : XbResp × State :=
  let r := match s.cwIndex with
    | none => s.coefRefuse
    | some n =>
      if signExt24 v && s.coefWritable n then (.ok, (s.setCoefs n [low24 v]).touchCoef n) else s.coefRefuse
  (r.1, r.2.cwAdvance)

/-- A read of CHM_CW_DATA (R130). -/
def State.cwDataRead (s : State) : Nat :=
  match s.cwIndex with
  | none => 0
  | some n => codeS 32 (s.coef n)

/-! ### Presets (R131-R133) -/

/-- Remove the load at the head of the queue. -/
def State.popPreset (s : State) : State := { s with chm := { s.chm with queue := s.chm.queue.drop 1 } }

/-- Replace the load at the head of the queue. -/
def State.setHeadPreset (s : State) (l : PresetLoad) : State :=
  { s with chm := { s.chm with queue := l :: s.chm.queue.drop 1 } }

/-- Check a header of 16 bytes against R132: FIRST_FILTER, FILTER_COUNT and CRC where it passes. -/
def State.presetHeader (s : State) (rec : PresetRec) (bs : List Byte) : Option (Nat × Nat × Nat) :=
  let first := leAt bs 8 2
  let count := leAt bs 10 2
  let taps := (List.range count).foldl (fun a j =>
    match s.filterRec? (first + j) with | none => a | some r => a + r.taps) 0
  if leAt bs 0 4 = 0x4D494843 ∧ leAt bs 4 2 = rec.array ∧ leAt bs 6 1 = rec.preset ∧ leAt bs 7 1 = 0 ∧
      1 ≤ count ∧ count ≤ 512 ∧ s.filtersIn first count = true ∧ taps = rec.words then
    some (first, count, leAt bs 12 4)
  else none

/-- A fetch of preset data from DRAM through Chimes' port (R132, R220, R227): none where it is held there. -/
def State.presetFetch (s : State) (a n : Nat) : Option (Option (List Byte) × State) :=
  match s.passage 5 a with
  | .forwarded => some ((s.touch 5).dramFetch a n)
  | .refused => some (none, s)
  | .held => none
  | .stopped => some (none, s)

/-- The header of the load at the head of the queue has been fetched (R133). -/
def State.presetHeaderDone (s : State) : State :=
  match s.chm.queue with
  | [] => s
  | l :: _ =>
    if l.headAt.isNone || l.header.isSome then s
    else
      match s.cfg.bind (fun c => c.presets.find? (fun r => r.array == l.array && r.preset == l.preset)) with
      | none => s.popPreset.presetFail 5
      | some rec =>
        match s.presetFetch rec.addr 16 with
        | none => s
        | some (none, s') => s'.popPreset.presetFail 4
        | some (some bs, s') =>
          match s'.presetHeader rec bs with
          | none => s'.popPreset.presetFail 3
          | some h => s'.setHeadPreset { l with header := some h, src := (rec.addr, rec.words) }

/-- The load whose header passed starts (R133): at a boundary after H at which no covered filter is fading. -/
def State.presetStart (s : State) : State :=
  match s.chm.queue with
  | [] => s
  | l :: _ =>
    match l.header, l.headAt, l.startAt with
    | some (first, count, _), some h, none =>
      let fs := (List.range count).map (· + first)
      if h < (s.boundary .chm).2 ∧ fs.all (fun f => (s.filt f).fade.isNone && (s.filt f).locked == 0) = true then
        let banks := fs.map (fun f => 1 - (s.filt f).active)
        let spans := (fs.zip banks).map (fun p => match s.filterRec? p.1 with | none => (0, 0) | some r => (r.bankBase p.2, r.taps))
        let s1 := s.setHeadPreset { l with startAt := some (s.boundary .chm).2, banks := banks, spans := spans }
        let s2 := fs.foldl (fun s f => s.setFilt f { s.filt f with idle := .loading }) s1
        ((((s2.setFld R.CHM_PRESET_STATUS_BUSY 1).setFld R.CHM_PRESET_STATUS_RESULT 0).setFld R.CHM_PRESET_STATUS_BLOCKS 0).setFld
          R.CHM_PRESET_STATUS_ARRAY l.array).setFld R.CHM_PRESET_STATUS_PRESET l.preset
      else s
    | _, _, _ => s

/-- Write the coefficients of a preset into the banks of a load, filter after filter, as they lay at its start (R132, R136). -/
def State.putPreset (s : State) (cs : Nat → Int) : List (Nat × Nat) → Nat → State
  | [], _ => s
  | (base, taps) :: rest, off =>
    (s.setCoefs base ((List.range taps).map (fun t => cs (off + t)))).putPreset cs rest (off + taps)

/-- The covered filters' idle banks leave LOADING. -/
def State.leaveLoading (s : State) (first count : Nat) (x : IdleBank) : State :=
  (List.range count).foldl (fun s j =>
    let y := s.filt (first + j)
    if y.idle = .loading then s.setFilt (first + j) { y with idle := x } else s) s

/-- A coefficient of a preset, packed in 3 bytes (R132). -/
def presetCoef (bs : List Byte) (k : Nat) : Int := ofCodeS 24 (leAt bs (3 * k) 3)

/-- The last coefficient of a load is in (R133). After a fetch error the banks hold free values: how far the fetch came is
not stated. -/
def State.presetComplete (s : State) : State :=
  match s.chm.queue with
  | [] => s
  | l :: _ =>
    match l.header, l.startAt with
    | some (first, count, crc), some b =>
      let s0 := ((s.popPreset).setFld R.CHM_PRESET_STATUS_BUSY 0).setFld R.CHM_PRESET_STATUS_BLOCKS
        (min ((s.boundary .chm).2 - b + 1) 255)
      match s0.presetFetch (l.src.1 + 16) (3 * l.src.2) with
      | none => s
      | some (none, s1) =>
        let free := s1.freeCtr
        let s2 := s1.putPreset (fun k => ofCodeS 24 (Config.freeValue (free + k) % 2 ^ 24)) l.spans 0
        (({ s2 with freeCtr := free + l.src.2 }).leaveLoading first count .invalid).presetFail 4
      | some (some bs, s1) =>
        let s2 := s1.putPreset (presetCoef bs) l.spans 0
        if crc32 bs = crc then
          let s3 := ((s2.leaveLoading first count .ready).setFld R.CHM_PRESET_STATUS_RESULT 1).raise R.CHM_INT_STATUS_PRESET_DONE
          if l.swapAfter then
            { s3 with chm := { s3.chm with owed := s3.chm.owed ++ [(first, l.banks, l.xfLen, (s.boundary .chm).2, false)] } }
          else s3
        else (s2.leaveLoading first count .invalid).presetFail 2
    | _, _ => s

/-- The bank selects owed after SWAP_AFTER loads are issued at the first boundary after they completed (R133), under R129 and R135: one
with a LOADING target waits whole and counts as late when it applies; one that R135 discards is counted. Where CONTROL CHM is mirrored,
Flam issues them (R348). -/
def State.presetSwapAfter (s : State) : State :=
  if s.mirrors 2 then s else
  let now := (s.boundary .chm).2
  let dueNow := s.chm.owed.filter (fun o => decide (o.2.2.2.1 < now))
  dueNow.foldl (fun s o =>
      match s.selectAll ((o.2.1.zipIdx).map (fun p => (o.1 + p.2, p.1))) o.2.2.1 with
      | some (.ok s') => if o.2.2.2.2 then s'.chmLate else s'
      | some (.error _) => s.chmReject
      | none => { s with chm := { s.chm with owed := s.chm.owed ++ [(o.1, o.2.1, o.2.2.1, now, true)] } })
    { s with chm := { s.chm with owed := s.chm.owed.filter (fun o => !decide (o.2.2.2.1 < now)) } }

/-- A select owed at Chimes' boundary has still to be issued there. -/
def State.owedDue (s : State) : Bool := !s.mirrors 2 && s.chm.owed.any (fun o => decide (o.2.2.2.1 < (s.boundary .chm).2))

/-- Chimes' boundary at a token: fades that ended are closed, and a load that now heads the queue has its H here (R133). -/
def State.chmBoundary (s : State) : State :=
  let s1 := s.endFades
  match s1.chm.queue with
  | [] => s1
  | l :: _ => if l.headAt.isNone then s1.setHeadPreset { l with headAt := some (s1.boundary .chm).2 } else s1

/-! ### A plane swap (R136) -/

/-- Whether a filter keeps its TAPS and bank bases from one plane to another. -/
def sameBanks (a b : FilterRec) : Bool := a.taps == b.taps && a.bankA == b.bankA && a.bankB == b.bankB

/-- The active bank of a filter once the fade running on it has ended. -/
def ChmFilter.settledActive (x : ChmFilter) : Nat :=
  match x.fade with
  | some (_, _, true) => 1 - x.active
  | _ => x.active

/-- Arming block A (R136): with HOT_CARRY clear, a filter whose contents differ from the new image's is locked. -/
def State.chmArm (s : State) (new : Cfg) : State :=
  if 0x21 ∈ new.hotCarry then s
  else new.filters.foldl (fun s r =>
    match s.filterRec? r.filter with
    | none => s
    | some old =>
      if sameBanks old r then
        let x := s.filt r.filter
        let a := x.settledActive
        if s.bankCoefs r a ≠ new.bankCoefs r 0 ∨ s.bankCoefs r (1 - a) ≠ new.bankCoefs r 1 then
          s.setFilt r.filter { x with locked := 1 }
        else s
      else s) s

/-- Whether a swap to `new` locks filter record `r` of it at an arming now, and has bank A contents to write (R136). -/
def State.chmRewrites (s : State) (new : Cfg) (r : FilterRec) : Bool :=
  !decide (0x21 ∈ new.hotCarry) && (match s.filterRec? r.filter with
    | none => false
    | some old => sameBanks old r && decide (s.bankCoefs r (s.filt r.filter).settledActive ≠ new.bankCoefs r 0))

/-- Samples that a running fade has still to run (R129). -/
def ChmFilter.fadeLeft (x : ChmFilter) : Nat :=
  match x.fade with
  | none => 0
  | some (k, len, false) => len - k
  | some (k, _, true) => k

/-- Blocks that the copying of a swap waits for fades that run at its arming (R56, R136). -/
def State.chmFadeWait (s : State) (new : Cfg) : Nat :=
  ((new.filters.filter (fun r => s.chmRewrites new r)).map (fun r => ceilDiv (s.filt r.filter).fadeLeft (max 1 new.blockLen))).foldl max 0

/-- No filter that a swap locks still fades (R136). -/
def State.chmIdleForSwap (s : State) : Bool := s.chm.filters.all (fun e => decide (e.2.locked ≠ 1) || e.2.fade.isNone)

/-- The image's bank A contents enter the idle bank of each locked filter whose active bank differs (R136), once its fade has ended. -/
def State.chmPrewrite (s : State) (new : Cfg) : State :=
  new.filters.foldl (fun s r =>
    let x := s.filt r.filter
    if x.locked = 1 ∧ x.fade = none ∧ s.bankCoefs r x.active ≠ new.bankCoefs r 0 then
      (s.setCoefs (r.bankBase (1 - x.active)) (new.bankCoefs r 0)).setFilt r.filter { x with locked := 3 }
    else s) s

/-- The histories that part `p` of half `h` keeps across a swap (R127): those of buses it reads in both planes; none where a filter of
it changes TAPS or bank bases. -/
def keptBuses (old new : Cfg) (h p : Nat) : List Nat :=
  let of_ : Cfg → List FilterRec := fun c => c.partFilters h p (c.tasks.filter (fun t => t.kind == 3 && t.island == 6 + h)).length
  let shape : Cfg → List (Nat × Nat × Nat × Nat) := fun c => (of_ c).map (fun r => (r.filter, r.taps, r.bankA, r.bankB))
  if shape old = shape new then ((of_ old).map (·.inBus)).filter (fun b => decide (b ∈ (of_ new).map (·.inBus))) else []

/-- Undo the locks of arming (R60). -/
def State.chmDisarm (s : State) : State :=
  let t' := s.chm.filters.map (fun (e : Nat × ChmFilter) => (e.1, { e.2 with locked := 0 }))
  { s with chm := { s.chm with filters := t'.filter (fun e => decide (e.2 ≠ ChmFilter.fresh)) } }

/-- A filter of the new plane at S (R128, R136): one locked at arming selects the bank that holds the image's bank A contents, or
takes the image's bank B contents into its idle bank; one whose TAPS or bank bases change starts afresh. -/
def State.chmSwapFilter (s0 : State) (old new : Cfg) (len : Nat) (r : FilterRec) : State :=
  match old.filter? r.filter with
  | some o =>
    if sameBanks o r then
      let s := if (s0.filt r.filter).locked = 0 then s0 else s0.endFade r.filter
      let x := s.filt r.filter
      if x.locked = 0 then s
      else if x.locked = 3 then s.setFilt r.filter ⟨1 - x.active, .busy, some (0, len, false), 2⟩
      else (s.setCoefs (r.bankBase (1 - x.active)) (new.bankCoefs r 1)).setFilt r.filter ⟨x.active, .ready, none, 0⟩
    else ((s0.setCoefs r.bankA (new.bankCoefs r 0)).setCoefs r.bankB (new.bankCoefs r 1)).setFilt r.filter .fresh
  | none => ((s0.setCoefs r.bankA (new.bankCoefs r 0)).setCoefs r.bankB (new.bankCoefs r 1)).setFilt r.filter .fresh

/-- Boundary S (R127, R128, R136, R137): the new plane's filters take their banks, histories that no part keeps end, and a removed
filter's flag clears. `n` is the swap's crossfade length in blocks. -/
def State.chmSwap (s : State) (old new : Cfg) (n : Nat) : State :=
  let len := min 1024 (max 16 (n * new.blockLen))
  let s0 := s.chmPrewrite new
  let s1 := new.filters.foldl (fun s r => s.chmSwapFilter old new len r) s0
  let gone := old.filters.filter (fun r => (new.filter? r.filter).isNone)
  let s2 := s1.clearFlds (gone.map (fun r => R.CHM_FILT1_CLIP r.filter))
  { s2 with chm := { s2.chm with
      filters := s2.chm.filters.filter (fun e => (new.filter? e.1).isSome)
      hist := s2.chm.hist.filter (fun e => decide (e.1 % 8192 ∈ keptBuses old new (e.1 / 65536) (e.1 / 8192 % 8))) } }

/-- The counters CHM_COUNT_CLEAR clears (R137). -/
def chmCounts : List Fld := [R.CHM_CMD_LATE_COUNT, R.CHM_CMD_REJECT_COUNT, R.CHM_COEF_REFUSED_COUNT, R.CHM_CLIP_COUNT_COUNT]

/-- The request a CHM_SELECT word carries (R134, R137). -/
def chmSelectCmd (v : Word) : Cmd :=
  .bankSelect (bits v.toNat 20 12) (bits v.toNat 30 21) (bits v.toNat 10 0) (bit v.toNat 31)

/-- The request a CHM_PRESET_REQ word carries (R134, R137). -/
def chmPresetCmd (v : Word) : Cmd :=
  .presetLoad (bits v.toNat 13 8) (bits v.toNat 7 4) (bit v.toNat 31) (bits v.toNat 30 20)

/-- A write of CHM_SELECT (R134). -/
def State.chmSelectWrite (s : State) (v : Word) : State := s.hold (heldOf .chm (chmSelectCmd v) .notNeeded)

/-- A write of CHM_PRESET_REQ (R134): GO requests the load. -/
def State.chmPresetWrite (s : State) (v : Word) : State :=
  if bit v.toNat 0 = 1 then s.hold (heldOf .chm (chmPresetCmd v) .notNeeded) else s

/-! ### The commands -/

def execBankSelect (first count xfLen bank : Nat) (s : State) : Host.Outcome State Fault Refusal :=
  .next (s.chmCommand (.bankSelect first count xfLen bank))

def execPresetLoad (array preset flags xfLen : Nat) (s : State) : Host.Outcome State Fault Refusal :=
  .next (s.chmCommand (.presetLoad array preset flags xfLen))

/-- Take a COEF_WRITE in: its fetch starts (R134). -/
def execCoefWrite (filter bank first count addr : Nat) (s : State) : Host.Outcome State Fault Refusal :=
  .next (s.hold (heldOf .chm (.coefWrite filter bank first count addr) .running))

def execPresetHeaderFetchDone (s : State) : Host.Outcome State Fault Refusal := .next s.presetHeaderDone

def execPresetLoadStart (s : State) : Host.Outcome State Fault Refusal := .next s.presetStart

def execPresetLoadComplete (s : State) : Host.Outcome State Fault Refusal := .next s.presetComplete

def execPresetSwapAfter (s : State) : Host.Outcome State Fault Refusal := .next s.presetSwapAfter

/-- A filter's fade counter has reached its end (R129). -/
def execBankFadeEnd (filter : Nat) (s : State) : Host.Outcome State Fault Refusal :=
  if (s.filt filter).fadeAtEnd then .next (s.endFade filter) else .next s

end Sys2Proof.Machine
end

