-- ==== Sys2Proof/Machine/Ports.lean ====
section
/-! DEFINITION. The serial audio ports and AES3 transceivers (R248-R270). A unit is one direction: PRT_n is unit n, the
receiver of AES_n unit 16 + n, its transmitter unit 24 + n. -/

namespace Sys2Proof.Machine

/-! ### Units -/

/-- The state codes of R258. -/
abbrev stAbsent : Nat := 0
abbrev stStopped : Nat := 1
abbrev stSyncing : Nat := 2
abbrev stPreroll : Nat := 3
abbrev stRunning : Nat := 4
abbrev stStopping : Nat := 5
abbrev stPostroll : Nat := 6
abbrev stLost : Nat := 7

/-- The STATE field of a unit. -/
def stateFld (u : Nat) : Fld :=
  if u < 16 then R.PRT_STATE_STATE u else if u < 24 then R.AES_RX_STATE_STATE (u - 16) else R.AES_TX_STATE_STATE (u - 24)

/-- A unit's state (R258). -/
def State.unitState (s : State) (u : Nat) : Nat := s.fld (stateFld u)

/-- Set a unit's state. -/
def State.setUnitState (s : State) (u st : Nat) : State := s.setFld (stateFld u) st

/-- A unit beside its registers. -/
def State.unit (s : State) (u : Nat) : PortDir := Tbl.get s.ports.units u .idle

/-- Write a unit. -/
def State.setUnit (s : State) (u : Nat) (d : PortDir) : State :=
  { s with ports := { s.ports with units := Tbl.set s.ports.units u .idle d } }

/-- The record a PRT port runs by. -/
def State.prtFmt? (s : State) (n : Nat) : Option PrtRec := Tbl.find n s.ports.prtFmt

/-- The record an AES transceiver runs by. -/
def State.aesFmt? (s : State) (n : Nat) : Option AesRec := Tbl.find n s.ports.aesFmt

/-- What the operations of R256-R264 need of a unit's record: present, output, CLOCKING, DOMAIN, first bus, channels. -/
structure UnitFmt where
  out : Bool
  clocking : Nat
  domain : Nat
  bus : Nat
  chans : Nat
deriving DecidableEq, Repr

/-- The format of a unit, where its record defines it. -/
def State.unitFmt? (s : State) (u : Nat) : Option UnitFmt :=
  if u < 16 then (s.prtFmt? u).map (fun r => ⟨r.dirOut, r.clocking, r.domain, r.firstBus, r.slots⟩)
  else if u < 24 then
    match s.aesFmt? (u - 16) with
    | some r => if r.rxEn then some ⟨false, r.rxClocking, r.rxDomain, r.rxBus, 2⟩ else none
    | none => none
  else
    match s.aesFmt? (u - 24) with
    | some r => if r.txEn then some ⟨true, r.txClocking, r.txDomain, r.txBus, 2⟩ else none
    | none => none

/-- The island of a unit (R250). -/
def unitIsland (u : Nat) : Nat := if u < 16 then 19 else 20

/-- The index of the block a unit's island is in (R17). -/
def State.unitBlk (s : State) (u : Nat) : Nat := (Tbl.get s.blk.arrived (unitIsland u) (0, 0)).1

/-- The first sample of block `k` of a domain (R67, R70). -/
def State.firstSample (s : State) (domain k : Nat) : Nat :=
  match s.cfg with
  | none => 0
  | some c => if domain = 0 then k * c.blockLen else c.firstB k

/-- The index of a unit's current frame (R262): in domain C the count since lock; a leader's is the sample at its place in the block;
a follower-sync frame's is that of the sample which its place in the slip buffer makes it. -/
def State.frameIndex (s : State) (u : Nat) : Nat :=
  let d := s.unit u
  match s.unitFmt? u with
  | none => 0
  | some f =>
    if f.domain = 2 then d.count
    else if f.clocking = 1 then
      if f.out then (match d.buf.head? with | some e => e.idx | none => d.next) else d.next + d.buf.length
    else s.firstSample f.domain (s.unitBlk u) + d.pos

/-- The registers a unit reads at its boundary (R259): ENABLE, MUTE and RAMP in blocks. -/
def State.unitCtrl (s : State) (u : Nat) : Nat × Nat × Nat :=
  if u < 16 then (s.fld (R.PRT_CTRL_ENABLE u), s.fld (R.PRT_CTRL_MUTE u), s.fld (R.PRT_CTRL_RAMP u))
  else if u < 24 then
    (s.fld (R.AES_CTRL_RX_ENABLE (u - 16)), s.fld (R.AES_CTRL_RX_MUTE (u - 16)), s.fld (R.AES_CTRL_RAMP (u - 16)))
  else (s.fld (R.AES_CTRL_TX_ENABLE (u - 24)), s.fld (R.AES_CTRL_TX_MUTE (u - 24)), s.fld (R.AES_CTRL_RAMP (u - 24)))

/-- RAMP as it acts (R269): 0 acts as 1, above 64 as 64. -/
def rampBlocks (r : Nat) : Nat := min 64 (max 1 r)

/-- Frames of pre-roll or post-roll (R248): 0 means 4096. -/
def rollFrames (n : Nat) : Nat := if n = 0 then 4096 else n

/-- A unit's pre-roll and post-roll (R269, R270). -/
def State.unitRoll (s : State) (u : Nat) (post : Bool) : Nat :=
  let n := if u < 16 then u else if u < 24 then u - 16 else u - 24
  rollFrames (if u < 16 then s.fld (if post then R.PRT_ROLL_POSTROLL n else R.PRT_ROLL_PREROLL n)
    else s.fld (if post then R.AES_ROLL_POSTROLL n else R.AES_ROLL_PREROLL n))

/-! ### State changes (R258, R259) -/

/-- The clocks of a unit run. -/
def clocksRun (st : Nat) : Bool := decide (3 ≤ st ∧ st ≤ 6)

/-- Enter PREROLL: a pre-roll is counted from here. -/
def State.enterPreroll (s : State) (u : Nat) : State :=
  (s.setUnit u { s.unit u with
    roll := 0, rollN := s.unitRoll u false, count := 0, buf := [], due := 0, gap := false, badRun := false, level := 0,
    entering := false }).setUnitState u stPreroll

/-- Enter POSTROLL. -/
def State.enterPostroll (s : State) (u : Nat) : State :=
  (s.setUnit u { s.unit u with roll := 0, rollN := s.unitRoll u true, level := 0, stopLen := 0 }).setUnitState u stPostroll

/-- The state becomes RUNNING, at the level reached. -/
def State.toRunning (s : State) (u : Nat) : State :=
  let s1 := s.setUnitState u stRunning
  if u < 16 then s1.raise (R.PRT_INT_STATUS_RUNNING u) else s1

/-- Enter RUNNING: the level starts at 0 and ramps in over one block. -/
def State.enterRunning (s : State) (u : Nat) : State :=
  (s.setUnit u { s.unit u with level := 0, entering := true, gap := false }).toRunning u

/-- Enter SYNCING: nothing has been seen yet of what locks the unit (R257). -/
def State.enterSyncing (s : State) (u : Nat) : State :=
  (s.setUnit u { s.unit u with good := 0, sinceZ := 0, badRun := false }).setUnitState u stSyncing

/-- Enter STOPPED. -/
def State.enterStopped (s : State) (u : Nat) : State :=
  let s1 := (s.setUnit u { s.unit u with level := 0, entering := false, buf := [], due := 0, gap := false, stopLen := 0 }).setUnitState u stStopped
  if u < 16 then (s1.setFld (R.PRT_RATE_MHZ u) 0).raise (R.PRT_INT_STATUS_STOPPED u) else s1

/-- The nominal rate of a unit's domain in mHz. -/
def State.nominalMhz (s : State) (domain : Nat) : Nat :=
  match s.cfg with
  | none => 0
  | some c => 1000 * (if domain = 0 then rateAHz c.sys.rateA else rateBHz c.sys.rateB)

/-- A leader's clocks start: its measured rate is that of its domain. -/
def State.startClocks (s : State) (u : Nat) (f : UnitFmt) : State :=
  if u < 16 then s.setFld (R.PRT_RATE_MHZ u) (s.nominalMhz f.domain) else s

/-- The group mute of a unit (R381): of a PRT output port, or of an AES transmitter. -/
def State.unitGroup (s : State) (u : Nat) : Bool :=
  if u < 16 then (match s.prtFmt? u with | some r => r.dirOut && s.groupMuted 2 u | none => false)
  else if u < 24 then false else s.groupMuted 3 (u - 24)

/-- Whether a unit's record differs in a plane (R52, R260). -/
def State.unitChanges (s : State) (new : Cfg) (u : Nat) : Bool :=
  if u < 16 then decide (s.prtFmt? u ≠ new.prt? u)
  else decide (s.aesFmt? (if u < 24 then u - 16 else u - 24) ≠ new.aes? (if u < 24 then u - 16 else u - 24))

/-- The samples of the stop ramp, where an armed swap that changes the unit's record stops it from this boundary on: S − RAMP, or A + 1 if
that is later. The ramp is shortened where S comes sooner (R260). -/
def State.stopSpan (s : State) (u : Nat) : Option Nat :=
  match s.peal.armed, s.cfg, s.unitFmt? u with
  | some a, some c, some f =>
    let k := s.unitBlk u
    if a.armedAt < k ∧ k < a.swapAt ∧ a.swapAt - k ≤ rampBlocks (s.unitCtrl u).2.2 ∧ s.unitChanges a.cfg u then
      some (min (rampBlocks (s.unitCtrl u).2.2 * c.blockLen)
        (if f.domain = 1 then c.firstB a.swapAt - c.firstB k else (a.swapAt - k) * c.blockLen))
    else none
  | _, _, _ => none

/-- What ENABLE does to a unit's state at its boundary (R258). A unit that stops for a swap reads it no more (R260). -/
def State.unitStep (s : State) (u : Nat) (f : UnitFmt) (enable : Bool) : State :=
  let d := s.unit u
  let st := s.unitState u
  let stop := (s.setUnit u { d with entering := false }).setUnitState u stStopping
  if d.leaving then (if st = stRunning then stop else s)
  else if enable then
    if st = stStopped then (if f.clocking = 0 then (s.enterPreroll u).startClocks u f else s.enterSyncing u)
    else if st = stStopping then (s.setUnit u { d with stopLen := 0 }).toRunning u
    else if st = stPostroll then s.enterRunning u
    else s
  else
    if st = stSyncing ∨ st = stLost then s.enterStopped u
    else if st = stPreroll then s.enterPostroll u
    else if st = stRunning then stop
    else s

/-- Read ENABLE, MUTE and RAMP at the boundary and act on them (R258-R260). -/
def State.settleUnit (s : State) (u : Nat) : State :=
  let d := s.unit u
  if d.unread then
    let r := s.unitCtrl u
    let span := s.stopSpan u
    let leaving := d.leaving || (span.isSome && clocksRun (s.unitState u))
    let s1 := s.setUnit u { d with
      unread := false, mute := decide (r.2.1 = 1) || s.unitGroup u, ramp := rampBlocks r.2.2, leaving := leaving,
      stopLen := if s.unitState u = stStopping then d.stopLen else span.getD 0 }
    match s1.unitFmt? u with
    | none => s1
    | some f => s1.unitStep u f (decide (r.1 = 1))
  else s

/-- The level's target (R259). -/
def PortDir.target (d : PortDir) (st : Nat) : Rat := if d.mute ∨ st = stStopping then 0 else 1

/-- One sample's level, and the unit after it (R259, R85): an entering ramp is (j + 1) / n over the `n` samples of its block; otherwise
the sample takes the level reached, which then steps by 1 / (RAMP × BLOCK_LEN) towards its target, or by what reaches it at S. -/
def PortDir.stepLevel (d : PortDir) (st blockLen n : Nat) : Rat × PortDir :=
  let t := d.target st
  if d.entering ∧ t = 1 then
    let l := min 1 (d.level + 1 / (max n 1 : Nat))
    (l, { d with level := l, entering := decide (l ≠ 1) })
  else
    let step : Rat := 1 / (max (if d.stopLen = 0 then d.ramp * blockLen else d.stopLen) 1 : Nat)
    let l := if d.level < t then min t (d.level + step) else max t (d.level - step)
    (d.level, { d with level := l, entering := false })

/-- A sample at a level (R259). -/
def atLevel (l : Rat) (x : Int) : Int := roundRat (l * (x : Rat))

/-! ### Words (R254) -/

/-- The 24-bit sample of an input slot. -/
def slotToSample (r : PrtRec) (w : Nat) : Int :=
  ofCodeS 24 (w % 2 ^ r.slotBits / 2 ^ (r.slotBits - r.wordBits) * 2 ^ (24 - r.wordBits))

/-- The slot word of an output sample: rounded to WORD_BITS, saturated, in the top bits of the slot. -/
def sampleToSlot (r : PrtRec) (x : Int) : Nat :=
  codeS r.wordBits (satS r.wordBits (roundDiv x (2 ^ (24 - r.wordBits)))) * 2 ^ (r.slotBits - r.wordBits)

/-! ### Faults and counters -/

/-- Count frames that were missing or lost (R264). -/
def State.xrun (s : State) (u n : Nat) : State :=
  if n = 0 then s
  else if u < 16 then (s.bump (R.PRT_XRUN_COUNT u) n).raise (R.PRT_INT_STATUS_XRUN u)
  else
    let a := if u < 24 then u - 16 else u - 24
    (s.bump (R.AES_XRUN_COUNT a) n).raise (R.AES_INT_STATUS_XRUN a)

/-- Count a slip (R256). -/
def State.slip (s : State) (u : Nat) (drop : Bool) : State :=
  if u < 16 then (s.bump (if drop then R.PRT_SLIP_COUNT_DROP u else R.PRT_SLIP_COUNT_REPEAT u)).raise (R.PRT_INT_STATUS_SLIP u)
  else
    let a := if u < 24 then u - 16 else u - 24
    (s.bump (if drop then R.AES_SLIP_COUNT_DROP a else R.AES_SLIP_COUNT_REPEAT a)).raise (R.AES_INT_STATUS_SLIP a)

/-- The frames that a slip buffer holds (R256). -/
abbrev slipFrames : Nat := 48

/-- Compare the slip buffer's fill with its target after a take or add (R256). -/
def State.slipCheck (s : State) (u : Nat) (out : Bool) : State :=
  let d := s.unit u
  let fill := d.buf.length
  let s1 := if u < 16 then s.setFld (R.PRT_STATE_FILL u) (min fill 31) else s
  if 12 ≤ fill then (s1.setUnit u { d with buf := d.buf.drop 1 }).slip u true
  else if fill ≤ 4 then
    let again : List PFrame :=
      if out then (match d.buf.getLast? with | some f => d.buf ++ [f] | none => [⟨d.next, d.last, []⟩]) else ⟨0, d.last, []⟩ :: d.buf
    (s1.setUnit u { d with buf := again }).slip u false
  else s1

/-! ### Masks (R261, R262) -/

/-- The pending mask of a port (R262); `skip` frame starts go by before it applies. -/
def State.portMaskPend (s : State) (n m skip : Nat) : State :=
  (s.setUnit n { s.unit n with pendMask := some (m, skip) }).setFld (R.PRT_MASK_MASK n) m

/-- The pending mask applies at the start of a frame (R262). -/
def State.maskApply (s : State) (n : Nat) : State :=
  let d := s.unit n
  match d.pendMask with
  | some (m, 0) =>
    if clocksRun (s.unitState n) then
      (((s.setUnit n { d with pendMask := none }).setFld (R.PRT_MASK_ACTIVE_MASK n) m).setFld
        (R.PRT_MASK_APPLIED_FRAME n) (s.frameIndex n)).raise (R.PRT_INT_STATUS_MASK_APPLIED n)
    else s
  | _ => s

/-- A frame starts: the pending mask applies, or has one frame fewer to wait (R262). -/
def State.maskFrame (s : State) (n : Nat) : State :=
  let d := s.unit n
  match d.pendMask with
  | some (m, k + 1) => s.setUnit n { d with pendMask := some (m, k) }
  | _ => s.maskApply n

/-! ### Frames (R253, R256, R264) -/

/-- Step a unit's counters after a frame. -/
def PortDir.tickFrame (d : PortDir) : PortDir :=
  { d with pos := d.pos + 1, count := d.count + 1, roll := d.roll + 1, badRun := false }

/-- The samples of block `k` at a unit's pins; in domain C as many as the block has of domain A (notes/assumptions/53). -/
def State.framesIn (s : State) (f : UnitFmt) (k : Nat) : Nat :=
  match s.cfg with | none => 1 | some c => if f.domain = 1 then c.countB k else c.blockLen

/-- A unit's level for the frame at hand (R259): `stepLevel` with the lengths of its plane and block. -/
def State.frameLevel (s : State) (u : Nat) (f : UnitFmt) (d : PortDir) : Rat × PortDir :=
  d.stepLevel (s.unitState u) (match s.cfg with | none => 1 | some c => c.blockLen) (s.framesIn f (s.unitBlk u))

/-- Take one input frame's samples in: real samples while RUNNING or STOPPING, else zeros (R258), at the level (R259). A frame for which
the slip buffer has no room is lost (R256). -/
def State.frameIn (s : State) (u : Nat) (f : UnitFmt) (xs : List Int) : State :=
  let st := s.unitState u
  let d := s.unit u
  let live := decide (st = stRunning ∨ st = stStopping)
  let r := if live then s.frameLevel u f d else (0, d)
  let ys := (List.range f.chans).map (fun j => if live then atLevel r.1 (xs.getD j 0) else 0)
  if f.clocking = 1 ∧ slipFrames ≤ d.buf.length then (s.setUnit u r.2.tickFrame).xrun u 1
  else s.setUnit u { r.2.tickFrame with buf := d.buf ++ [⟨s.frameIndex u, ys, []⟩] }

/-- The frame an output unit sends next, where its buffer holds it, and the buffer after it: a leader's by its index, a follower's
the oldest, in domain C from its own block on (R18, R256). -/
def State.outEntry (s : State) (u : Nat) (f : UnitFmt) : Option PFrame × List PFrame :=
  let buf := (s.unit u).buf
  let idx := s.frameIndex u
  if f.clocking = 0 then (buf.find? (fun e => e.idx == idx), buf.filter (fun e => decide (idx < e.idx)))
  else if f.clocking = 1 then (buf.head?, buf.drop 1)
  else match buf.head? with
    | some e => if e.idx ≤ s.unitBlk u then (some e, buf.drop 1) else (none, buf)
    | none => (none, [])

/-- Take one output frame from the buffer (R253, R256, R264): its samples at the level, and the state after. Missing frames
are sent as zeros and counted; the block after the gap ramps in. -/
def State.frameOut (s : State) (u : Nat) (f : UnitFmt) : PFrame × State :=
  let st := s.unitState u
  let d := s.unit u
  let idx := s.frameIndex u
  let e := s.outEntry u f
  let d0 := { d with buf := e.2, next := idx + 1 }
  let zeros := List.replicate f.chans 0
  if st = stRunning ∨ st = stStopping then
    match e.1 with
    | none => (⟨idx, zeros, []⟩, (s.setUnit u { d0.tickFrame with gap := true }).xrun u 1)
    | some x =>
      let r := s.frameLevel u f (if d.gap then { d0 with gap := false, entering := true, level := 0 } else d0)
      (⟨idx, x.xs.map (atLevel r.1), x.bad⟩, s.setUnit u { r.2.tickFrame with last := x.xs })
  else (⟨idx, zeros, (match e.1 with | some x => x.bad | none => [])⟩, s.setUnit u d0.tickFrame)

/-- A PRT port sends or receives one frame of slots (R253, R254, R261). -/
def State.slotFrame (s : State) (n : Nat) (r : PrtRec) (f : UnitFmt) (slots : List Nat) : State :=
  let s1 := (s.maskFrame n).setFld (R.PRT_FRAME_FRAME n) (s.frameIndex n)
  let mask := s1.fld (R.PRT_MASK_ACTIVE_MASK n)
  if r.dirOut then
    let p := s1.frameOut n f
    let k := s1.unitBlk n
    let pos := (s1.unit n).pos
    let hidden := s1.withheldIn k
    p.2.emit (.portFrame n p.1.idx ((List.range r.slots).map (fun j =>
      if bit mask j = 1 ∧ hidden = false then some (sampleToSlot r (s1.gated k pos (s1.framesIn f k) (p.1.xs.getD j 0)))
      else if r.tristate then none else some 0)))
  else
    s1.frameIn n f ((List.range r.slots).map (fun j => if bit mask j = 1 then slotToSample r (slots.getD j 0) else 0))

/-- A frame of the external clock reaches a follower that is not locked (R257, R258): in SYNCING a good one counts towards lock; in LOST
it shows that the clock has returned. -/
def State.unlockedFrame (s : State) (u : Nat) (good : Bool) : State :=
  let st := s.unitState u
  let s1 := if st = stLost then s.enterSyncing u else s
  if st = stSyncing ∨ st = stLost then
    s1.setUnit u (if good then { s1.unit u with good := (s1.unit u).good + 1 } else { s1.unit u with good := 0 })
  else s

/-- One frame at a PRT port's pins (R253, R257). -/
def State.prtFrame (s : State) (n : Nat) (slots : List Nat) : State :=
  match s.prtFmt? n, s.unitFmt? n with
  | some r, some f =>
    if clocksRun (s.unitState n) then s.slotFrame n r f slots
    else if f.clocking ≠ 0 then s.unlockedFrame n true else s
  | _, _ => s

/-! ### Ingress and egress (R250, R256) -/

/-- How many frames the ingress takes for data block `k`: the domain's sample count; in domain C the frames captured in the block
(R70). -/
def State.takeCount (s : State) (c : Cfg) (f : UnitFmt) (u k : Nat) : Nat :=
  if f.domain = 0 then c.blockLen else if f.domain = 1 then c.countB k else min (s.unit u).due (2 * c.blockLen + 1)

/-- The samples an input unit's channels give data block `k`: one list per channel, and the state after. -/
def State.unitTake (s : State) (c : Cfg) (u k : Nat) : List (List Int) × State :=
  match s.unitFmt? u with
  | none => ([], s)
  | some f =>
    let d := s.unit u
    let n := s.takeCount c f u k
    let base := s.firstSample f.domain k
    let frames : List (List Int) :=
      if f.clocking = 0 then (List.range n).map (fun j =>
        match d.buf.find? (fun e => e.idx == base + j) with | some e => e.xs | none => [])
      else (List.range n).map (fun j => match d.buf[j]? with | some e => e.xs | none => [])
    let rest := if f.clocking = 0 then d.buf.filter (fun e => decide (base + n ≤ e.idx)) else d.buf.drop n
    let due := if f.clocking = 2 then d.due - n else 0
    let s1 := s.setUnit u { d with buf := rest, last := frames.getLast?.getD d.last, next := base + n, due := due }
    let s2 := if f.clocking = 1 ∧ clocksRun (s1.unitState u) then s1.slipCheck u false else s1
    ((List.range f.chans).map (fun ch => frames.map (fun fr => fr.getD ch 0)), s2)

/-- An ingress task of a port writes its buses (R250). -/
def State.unitIngress (s : State) (c : Cfg) (u k : Nat) : State :=
  match s.unitFmt? u with
  | none => s
  | some f =>
    let r := s.unitTake c u k
    (r.1.zipIdx).foldl (fun s p => s.writeBus c k (f.bus + p.2) p.1) r.2

/-- An egress task hands data block `k` to a port's buffer (R18, R256): it leaves in block k + 3. `bad`: which channels' blocks are LATE
or FADED. A unit whose clocks stand takes nothing. -/
def State.unitGive (s : State) (c : Cfg) (u k : Nat) (chans : List (List Int)) (bad : List Bool) : State :=
  match s.unitFmt? u with
  | none => s
  | some f =>
    if clocksRun (s.unitState u) then
      let d := s.unit u
      let n := if f.domain = 0 then c.blockLen else if f.domain = 1 then c.countB k else (chans.headD []).length
      let index := fun (j : Nat) => if f.domain = 2 then k + 3 else s.firstSample f.domain (k + 3) + j
      let frames := (List.range n).map (fun j => (⟨index j, chans.map (fun xs => xs.getD j 0), bad⟩ : PFrame))
      let room := if f.clocking = 1 then slipFrames - d.buf.length else n
      let s1 := (s.setUnit u { d with buf := d.buf ++ frames.take room }).xrun u (n - room)
      if f.clocking = 1 then s1.slipCheck u true else s1
    else s

/-- The unit an ingress or egress task of ISL_19 or ISL_20 names (R250). -/
def taskUnit (island kind unit : Nat) : Nat := if island = 19 then unit else if kind = 0 then 16 + unit else 24 + unit

/-- Whether a mirrored write of a port register is still to apply at the boundary the unit's island stands at (R345). -/
def State.writeDue (s : State) (u : Nat) : Bool :=
  s.held.any (fun h => decide (h.eng = .prt) && h.cmd.isRegWrite && decide (unitIsland u ∈ s.cmdIslands .prt h.cmd) && s.due h)

/-- The frames that the ingress of the block before last has not taken (R264): a leader's by their indices, a follower's the oldest. -/
def State.untaken (s : State) (u : Nat) (f : UnitFmt) : Nat × List PFrame :=
  let d := s.unit u
  if f.out then (0, d.buf)
  else if f.clocking = 0 then
    let keep := d.buf.filter (fun e => decide (s.firstSample f.domain (s.unitBlk u - 1) ≤ e.idx))
    (d.buf.length - keep.length, keep)
  else (min d.due d.buf.length, d.buf.drop d.due)

/-- A token reaches ISL_19 or ISL_20: frames that an ingress did not take in time are lost (R264), frame positions start anew, and the
registers are read (R259), after mirrored writes that apply at this boundary. -/
def State.unitBoundary (s : State) (u : Nat) : State :=
  let s0 := s.settleUnit u
  match s0.unitFmt? u with
  | none => s0
  | some f =>
    let d := s0.unit u
    let lost := s0.untaken u f
    let due := if f.out ∨ f.clocking = 0 ∨ !clocksRun (s0.unitState u) then 0
      else if f.clocking = 1 then s0.framesIn f (s0.unitBlk u - 1) else lost.2.length
    let s1 := (s0.setUnit u { d with
      pos := 0, unread := true, buf := lost.2, due := due, ctrlBefore := d.ctrlSince, ctrlSince := false, maskBefore := d.maskSince,
      maskSince := false }).xrun u lost.1
    if s1.writeDue u then s1 else s1.settleUnit u

/-- The units of an island. -/
def islandUnits (island : Nat) : List Nat :=
  if island = 19 then List.range 16 else if island = 20 then (List.range 16).map (· + 16) else []

/-! ### Records (R258, R260, R269, R270) -/

/-- A port's CFG registers from its record (R269). -/
def State.prtCfg (s : State) (n : Nat) (r : PrtRec) : State :=
  ((((((((s.setFld (R.PRT_CFG_PRESENT n) 1).setFld (R.PRT_CFG_DIR n) (flag r.dirOut)).setFld (R.PRT_CFG_MODE n) r.mode).setFld
    (R.PRT_CFG_CLOCKING n) r.clocking).setFld (R.PRT_CFG_DOMAIN n) r.domain).setFld (R.PRT_CFG_SLOTS n) r.slots).setFld
    (R.PRT_CFG_SLOT_BITS n) r.slotBits).setFld (R.PRT_CFG_WORD_BITS n) r.wordBits).setFld (R.PRT_BUS_FIRST_BUS n) r.firstBus

/-- Clear a port's registers that come from its record. -/
def State.prtClear (s : State) (n : Nat) : State :=
  s.clearFlds [R.PRT_CFG_PRESENT n, R.PRT_CFG_DIR n, R.PRT_CFG_MODE n, R.PRT_CFG_CLOCKING n, R.PRT_CFG_DOMAIN n,
    R.PRT_CFG_SLOTS n, R.PRT_CFG_SLOT_BITS n, R.PRT_CFG_WORD_BITS n, R.PRT_BUS_FIRST_BUS n]

/-- A direction that has taken a record: nothing of the record before is left. -/
def PortDir.rest (d : PortDir) : PortDir :=
  { d with level := 0, entering := false, stopLen := 0, leaving := false, buf := [], due := 0, gap := false, pendMask := none, badRun := false }

/-- A port takes a record (R258, R269): STOPPED, with the record's rolls and mask. -/
def State.prtTake (s : State) (r : PrtRec) : State :=
  let n := r.index
  let s1 := { s with ports := { s.ports with prtFmt := Tbl.put s.ports.prtFmt n r } }
  let s2 := ((((s1.prtCfg n r).setFld (R.PRT_ROLL_PREROLL n) r.preroll).setFld (R.PRT_ROLL_POSTROLL n) r.postroll).setFld
    (R.PRT_MASK_MASK n) r.mask).setFld (R.PRT_MASK_ACTIVE_MASK n) r.mask
  (s2.setUnit n (s2.unit n).rest).setUnitState n stStopped

/-- A transceiver's CFG registers from its record (R270). -/
def State.aesCfg (s : State) (n : Nat) (r : AesRec) : State :=
  let s1 := (((s.setFld (R.AES_CFG_RX_PRESENT n) (flag r.rxEn)).setFld (R.AES_CFG_RX_CLOCKING n) r.rxClocking).setFld
    (R.AES_CFG_RX_DOMAIN n) r.rxDomain).setFld (R.AES_CFG_V_POLICY n) r.vPolicy
  let s2 := (((s1.setFld (R.AES_CFG_TX_PRESENT n) (flag r.txEn)).setFld (R.AES_CFG_TX_CLOCKING n) r.txClocking).setFld
    (R.AES_CFG_TX_DOMAIN n) r.txDomain).setFld (R.AES_CFG_TX_CLK_RX n) r.txClkRx
  (s2.setFld (R.AES_BUS_TX_BUS n) r.txBus).setFld (R.AES_BUS_RX_BUS n) r.rxBus

/-- A transceiver takes a record. -/
def State.aesTake (s : State) (r : AesRec) : State :=
  let n := r.index
  let s1 := { s with ports := { s.ports with aesFmt := Tbl.put s.ports.aesFmt n r } }
  let s2 := ((s1.aesCfg n r).setFld (R.AES_ROLL_PREROLL n) r.preroll).setFld (R.AES_ROLL_POSTROLL n) r.postroll
  let s3 := (s2.setUnit (16 + n) (s2.unit (16 + n)).rest).setUnitState (16 + n) (if r.rxEn then stStopped else stAbsent)
  (s3.setUnit (24 + n) (s3.unit (24 + n)).rest).setUnitState (24 + n) (if r.txEn then stStopped else stAbsent)

/-- A port that the live plane does not define (R258, R260): ABSENT, without a record. -/
def State.prtDrop (s : State) (n : Nat) : State :=
  let s1 := ({ s with ports := { s.ports with prtFmt := Tbl.erase n s.ports.prtFmt } }).prtClear n
  (s1.setUnit n (s1.unit n).rest).setUnitState n stAbsent

/-- A transceiver that the live plane does not define. -/
def State.aesDrop (s : State) (n : Nat) : State :=
  let s1 := { s with ports := { s.ports with aesFmt := Tbl.erase n s.ports.aesFmt } }
  let s2 := s1.clearFlds [R.AES_CFG_RX_PRESENT n, R.AES_CFG_RX_CLOCKING n, R.AES_CFG_RX_DOMAIN n, R.AES_CFG_V_POLICY n,
    R.AES_CFG_TX_PRESENT n, R.AES_CFG_TX_CLOCKING n, R.AES_CFG_TX_DOMAIN n, R.AES_CFG_TX_CLK_RX n, R.AES_BUS_TX_BUS n, R.AES_BUS_RX_BUS n]
  let s3 := (s2.setUnit (16 + n) (s2.unit (16 + n)).rest).setUnitState (16 + n) stAbsent
  (s3.setUnit (24 + n) (s3.unit (24 + n)).rest).setUnitState (24 + n) stAbsent

/-- The CTRL register of a port that a swap defines anew: ENABLE as AUTO_START has it, the rest as at reset (R258, R269). -/
def State.prtFresh (s : State) (r : PrtRec) : State :=
  ((s.setFld (R.PRT_CTRL_ENABLE r.index) (flag r.autoStart)).setFld (R.PRT_CTRL_MUTE r.index) 0).setFld (R.PRT_CTRL_RAMP r.index) 4

/-- The CTRL register of a transceiver that a swap defines anew (R258, R270). -/
def State.aesFresh (s : State) (n : Nat) : State :=
  ((((s.setFld (R.AES_CTRL_TX_ENABLE n) 1).setFld (R.AES_CTRL_TX_MUTE n) 0).setFld (R.AES_CTRL_RAMP n) 4).setFld
    (R.AES_CTRL_RX_ENABLE n) 1).setFld (R.AES_CTRL_RX_MUTE n) 0

/-- A unit that has stopped takes what the live plane says of it (R260): its new record, or none. A transceiver takes a record when
both of its directions have stopped. -/
def State.takeFormat (s : State) (u : Nat) : State :=
  match s.cfg with
  | none => s
  | some c =>
    if s.unitChanges c u = false then s
    else if u < 16 then
      match c.prt? u with
      | some r => if (s.prtFmt? u).isNone then (s.prtTake r).prtFresh r else s.prtTake r
      | none => s.prtDrop u
    else
      let n := if u < 24 then u - 16 else u - 24
      if clocksRun (s.unitState (16 + n)) ∨ clocksRun (s.unitState (24 + n)) then s
      else match c.aes? n with
        | some r => if (s.aesFmt? n).isNone then (s.aesTake r).aesFresh n else s.aesTake r
        | none => s.aesDrop n

/-! ### Clocks (R257) -/

/-- The LOST_CAUSE field of a unit, where it has one. -/
def State.setLostCause (s : State) (u cause : Nat) : State :=
  if u < 16 then s.setFld (R.PRT_STATE_LOST_CAUSE u) cause
  else if u < 24 then s.setFld (R.AES_RX_STATE_LOST_CAUSE (u - 16)) cause else s

/-- What a follower has to have seen to lock (R257): 4 good frames, or 3 Z preambles 192 frames apart; a transmitter's clock is that
of the receiver it follows. -/
def State.mayLock (s : State) (u : Nat) : Bool :=
  if u < 16 then decide (4 ≤ (s.unit u).good)
  else if u < 24 then decide (3 ≤ (s.unit u).good)
  else match s.aesFmt? (u - 24) with
    | some r => clocksRun (s.unitState (16 + r.txClkRx))
    | none => false

/-- The capture of receiver `n`. -/
def State.aesCap (s : State) (n : Nat) : AesCap := Tbl.get s.ports.caps n ⟨[], 0, 0, []⟩

/-- Write a receiver's capture. -/
def State.setAesCap (s : State) (n : Nat) (c : AesCap) : State :=
  { s with ports := { s.ports with caps := Tbl.set s.ports.caps n ⟨[], 0, 0, []⟩ c } }

/-- A receiver's capture starts anew, and CS_CHANGE compares with zeros (R432). -/
def State.aesRestart (s : State) (u : Nat) : State :=
  if 16 ≤ u ∧ u < 24 then s.setAesCap (u - 16) { s.aesCap (u - 16) with bits := [], base := [] } else s

/-- The frames a slip buffer is primed with at lock (R256): silence, in the places before the samples that follow. -/
def State.primed (s : State) (u : Nat) (f : UnitFmt) : List PFrame :=
  if f.clocking = 1 then
    (List.range 8).map (fun j => ⟨s.firstSample f.domain (s.unitBlk u + 1) + j - 8, List.replicate f.chans 0, []⟩)
  else []

/-- A follower in SYNCING locks (R256, R257): the slip buffer is primed to 8 frames and pre-roll starts. -/
def State.unitLock (s : State) (u rate : Nat) : State :=
  match s.unitFmt? u with
  | none => s
  | some f =>
    if f.clocking ≠ 0 ∧ s.unitState u = stSyncing ∧ s.mayLock u then
      let s1 := (s.enterPreroll u).aesRestart u
      let next := s1.firstSample f.domain (s1.unitBlk u)
      let s2 := s1.setUnit u { s1.unit u with buf := s1.primed u f, next := next }
      if u < 16 then s2.setFld (R.PRT_RATE_MHZ u) rate
      else if u < 24 then (s2.setFld (R.AES_RX_RATE_MHZ (u - 16)) rate).raise (R.AES_INT_STATUS_RX_LOCK (u - 16))
      else s2
    else s

/-- A unit takes no more of what it had: an input keeps the frames already received (R264). -/
def State.enterLost (s : State) (u : Nat) (f : UnitFmt) : State :=
  let d := s.unit u
  ((s.setUnit u { d with level := 0, entering := false, stopLen := 0, badRun := false, buf := if f.out then [] else d.buf }).setUnitState u
    stLost).aesRestart u

/-- A locked follower loses its clock (cause 1), framing (2) or rate (3, follower-sync only) (R257). -/
def State.unitLost (s : State) (u cause : Nat) : State :=
  match s.unitFmt? u with
  | none => s
  | some f =>
    if f.clocking ≠ 0 ∧ clocksRun (s.unitState u) ∧ 1 ≤ cause ∧ cause ≤ 3 ∧ (cause = 3 → f.clocking = 1) then
      let s1 := (s.enterLost u f).setLostCause u cause
      let s2 := if cause = 1 then
          (if u < 16 then s1.setFld (R.PRT_RATE_MHZ u) 0 else if u < 24 then s1.setFld (R.AES_RX_RATE_MHZ (u - 16)) 0 else s1)
        else s1
      let s3 := if u < 16 then s2.raise (R.PRT_INT_STATUS_LOST u)
        else if u < 24 then s2.raise (R.AES_INT_STATUS_RX_LOST (u - 16)) else s2
      if (s3.unit u).leaving then s3.takeFormat u else s3
    else s

/-- A bad frame on a follower's pins (R257, R264): counted, and on input its samples are zero. The second in a row loses the lock. An AES
transmitter sees none. -/
def State.unitFrameError (s : State) (u : Nat) : State :=
  match s.unitFmt? u with
  | none => s
  | some f =>
    if f.clocking = 0 ∨ 24 ≤ u then s
    else if clocksRun (s.unitState u) then
      let s1 := if u < 16 then (s.bump (R.PRT_FRAME_ERR_COUNT u)).raise (R.PRT_INT_STATUS_FRAME_ERR u)
        else (s.bump (R.AES_CODE_ERR_COUNT (u - 16))).raise (R.AES_INT_STATUS_CODE_ERR (u - 16))
      if (s.unit u).badRun then s1.unitLost u 2
      else
        let s2 := if f.out then s1 else s1.frameIn u f []
        s2.setUnit u { s2.unit u with badRun := true }
    else s.unlockedFrame u false

/-- Pre-roll ends (R259): after its frames, and in domains A and B at the first sample of a block. -/
def State.prerollDone (s : State) (u : Nat) : State :=
  match s.unitFmt? u with
  | none => s
  | some f =>
    let d := s.unit u
    if s.unitState u = stPreroll ∧ d.rollN ≤ d.roll ∧ (f.domain = 2 ∨ d.pos = 0) then s.enterRunning u else s

/-- A stopping unit's level reaches 0 (R258). One that stops for a swap waits for S (R260). -/
def State.stopRampDone (s : State) (u : Nat) : State :=
  if s.unitState u = stStopping ∧ (s.unit u).level = 0 ∧ (s.unit u).leaving = false then s.enterPostroll u else s

/-- The last post-roll frame is complete (R258-R260): the unit stops; where a swap has changed its record, it takes the new
one. -/
def State.postrollDone (s : State) (u : Nat) : State :=
  let d := s.unit u
  if s.unitState u = stPostroll ∧ d.rollN ≤ d.roll then
    let s1 := s.enterStopped u
    if d.leaving then s1.takeFormat u else s1
  else s

/-! ### AES3 (R265-R268) -/

/-- 192 bits, first bit first, as 24 bytes, each with its first bit as bit 0. -/
def bitsToBytes (bs : List Bool) : List Byte :=
  (List.range 24).map (fun i => BitVec.ofNat 8 ((List.range 8).foldl (fun a j => a + flag (bs.getD (8 * i + j) false) * 2 ^ j) 0))

/-- The CRCC of a professional channel-status block (R265): CRC-8 with polynomial x^8 + x^4 + x^3 + x^2 + 1, first bit first,
initially all ones, over bytes 0-22 (PRESUMED: the AES3 standard, notes/assumptions/30). -/
def crcc (bs : List Byte) : Byte :=
  (bs.take 23).foldl (fun c b => (List.range 8).foldl (fun c j =>
    if (c.getLsbD 0) != (b.getLsbD j) then (c >>> 1) ^^^ 0xB8#8 else c >>> 1) c) 0xFF#8

/-- Words of a 48-byte window (R270): word i from byte 4i, little-endian. -/
def State.setBytes48 (s : State) (f : Nat → Fld) (bs : List Byte) : State :=
  (List.range 12).foldl (fun s i => s.setFld (f i) (leAt bs (4 * i) 4)) s

/-- The 48 bytes of a window of twelve words, by a reader of fields. -/
def bytes48 (rd : Fld → Nat) (f : Nat → Fld) : List Byte := (List.range 12).flatMap (fun i => leBytes 4 (rd (f i)))

/-- A 192-frame block is complete (R266): it is published, its CRCC is checked, and it is compared with the one before. -/
def State.csBlockComplete (s : State) (n : Nat) : State :=
  let cap := s.aesCap n
  if cap.bits.length = 192 then
    let fs := cap.bits.reverse
    let csA := bitsToBytes (fs.map (·.1))
    let uA := bitsToBytes (fs.map (·.2.1))
    let csB := bitsToBytes (fs.map (·.2.2.1))
    let uB := bitsToBytes (fs.map (·.2.2.2))
    let s1 := ((s.setAesCap n { cap with bits := [], base := csA ++ csB }).setBytes48 (R.AES_RX_CS_BYTES n) (csA ++ csB)).setBytes48
      (R.AES_RX_U_BYTES n) (uA ++ uB)
    let pro := fun (cs : List Byte) => decide ((cs.headD 0).toNat % 2 = 1)
    let bad := fun (cs : List Byte) => pro cs && decide (crcc cs ≠ cs.getD 23 0)
    let s2 := s1.setFld (R.AES_RX_STATE_PRO n) (flag (pro csA))
    let s3 := [csA, csB].foldl (fun s cs =>
      if bad cs then (s.bump (R.AES_CS_CRC_ERR_COUNT n)).raise (R.AES_INT_STATUS_CS_CRC n) else s) s2
    let differs := fun (o : Nat) => (List.range 14).any (fun i => (csA ++ csB).getD (o + i) 0 != cap.base.getD (o + i) 0)
    if differs 0 ∨ differs 24 then s3.raise (R.AES_INT_STATUS_CS_CHANGE n) else s3
  else s

/-- A received subframe (R266): its sample, and the state after counting parity errors and V bits. -/
def State.aesSub (s : State) (n : Nat) (vPolicy : Nat) (x : AesSub) (prev : Int) : Int × State :=
  let s1 := if x.v then s.bump (R.AES_V_COUNT_COUNT n) else s
  if x.ok then (if x.v ∧ vPolicy = 1 then 0 else ofCodeS 24 (x.audio % 2 ^ 24), s1)
  else (if x.v ∧ vPolicy = 1 then 0 else prev, (s1.bump (R.AES_PARITY_ERR_COUNT n)).raise (R.AES_INT_STATUS_PARITY n))

/-- A frame reaches a receiver that is not locked (R257, R258): Z preambles 192 frames apart count towards lock; a receiver in LOST has its
clock back, and so has a transmitter that follows it. -/
def State.aesUnlocked (s : State) (n : Nat) (z : Bool) : State :=
  let u := 16 + n
  let st := s.unitState u
  let back := fun (s : State) (m : Nat) => match s.aesFmt? m with
    | some r => if r.txEn ∧ r.txClocking = 2 ∧ r.txClkRx = n ∧ s.unitState (24 + m) = stLost then s.enterSyncing (24 + m) else s
    | none => s
  let s1 := if st = stLost then (List.range 8).foldl back (s.enterSyncing u) else s
  if st = stSyncing ∨ st = stLost then
    let d := s1.unit u
    s1.setUnit u (if z then { d with good := if d.sinceZ = 192 then d.good + 1 else 1, sinceZ := 1 }
      else if d.sinceZ = 0 then d else { d with sinceZ := d.sinceZ + 1 })
  else s

/-- An AES3 receiver takes a frame (R266). -/
def State.aesFrameRx (s : State) (n : Nat) (z : Bool) (subs : List AesSub) : State :=
  let u := 16 + n
  let s0 := s.csBlockComplete n
  match s0.unitFmt? u, s0.aesFmt? n, subs with
  | some f, some r, [a, b] =>
    if clocksRun (s0.unitState u) then
      let cap := s0.aesCap n
      let ra := s0.aesSub n r.vPolicy a cap.prevA
      let rb := ra.2.aesSub n r.vPolicy b cap.prevB
      let entry := (a.c, a.u, b.c, b.u)
      let bs := if z then [entry] else if cap.bits = [] then [] else entry :: cap.bits
      (rb.2.setAesCap n ⟨bs, ra.1, rb.1, cap.base⟩).frameIn u f [ra.1, rb.1]
    else s0.aesUnlocked n z
  | _, _, _ => s0

/-- The channel-status and user bytes a transmitter takes for a new block (R267). -/
def State.aesTxBlock (s : State) (n : Nat) : List Byte × List Byte :=
  let src := s.inForce (R.AES_TX_CTRL_SRC_RX n)
  let tmpl := bytes48 s.inForce (R.AES_TX_CS_BYTES n)
  let withCrc := fun (cs : List Byte) =>
    if s.inForce (R.AES_TX_CTRL_CRCC_GEN n) = 1 ∧ (cs.headD 0).toNat % 2 = 1 then cs.take 23 ++ [crcc cs] else cs
  let cs := if s.inForce (R.AES_TX_CTRL_CS_SRC n) = 1 then bytes48 s.fld (R.AES_RX_CS_BYTES src)
    else withCrc (tmpl.take 24) ++ withCrc (tmpl.drop 24)
  let u := match s.inForce (R.AES_TX_CTRL_U_SRC n) with
    | 1 => bytes48 s.inForce (R.AES_TX_U_BYTES n)
    | 2 => bytes48 s.fld (R.AES_RX_U_BYTES src)
    | _ => List.replicate 48 0
  (cs, u)

/-- Bit `i` of a 24-byte block, first bit of a byte first. -/
def blockBit (bs : List Byte) (i : Nat) : Bool := (bs.getD (i / 8) 0).getLsbD (i % 8)

/-- A subframe to send, with even parity over time slots 4-31 (R265). -/
def mkSub (audio : Nat) (v u c : Bool) : AesSub := ⟨audio, v, u, c, true⟩

/-- Whether the next frame of a transmitter starts a channel-status block (R267). -/
def State.aesAtZ (s : State) (n : Nat) : Bool :=
  match s.unitFmt? (24 + n) with
  | none => false
  | some f => if f.domain = 2 then (s.unit (24 + n)).count % 192 == 0 else s.frameIndex (24 + n) % 192 == 0

/-- An AES3 transmitter sends a frame (R267). -/
def State.aesFrameTx (s : State) (n : Nat) : State :=
  let u := 24 + n
  let s0 := s
  match s0.unitFmt? u with
  | none => s0
  | some f =>
    if clocksRun (s0.unitState u) then
      let z := s0.aesAtZ n
      let blk := if z then s0.aesTxBlock n else
        (Tbl.get s0.ports.txCs n (List.replicate 48 0), Tbl.get s0.ports.txU n (List.replicate 48 0))
      let i := (if f.domain = 2 then (s0.unit u).count else s0.frameIndex u) % 192
      let p := s0.frameOut u f
      let k := s0.unitBlk u
      let hidden := s0.withheldIn k
      let v := fun (j : Nat) => hidden || (match s0.inForce (R.AES_TX_CTRL_V_SRC n) with | 0 => false | 1 => true | _ => p.1.bad.getD j false)
      let out := fun (j : Nat) => codeS 24 (s0.gated k (s0.unit u).pos (s0.framesIn f k) (p.1.xs.getD j 0))
      let s1 := { p.2 with ports := { p.2.ports with txCs := Tbl.put p.2.ports.txCs n blk.1, txU := Tbl.put p.2.ports.txU n blk.2 } }
      s1.emit (.aesFrame n z [
        mkSub (out 0) (v 0) (blockBit (blk.2.take 24) i) (blockBit (blk.1.take 24) i),
        mkSub (out 1) (v 1) (blockBit (blk.2.drop 24) i) (blockBit (blk.1.drop 24) i)])
    else s0

/-- The consistency check of an AES transmitter's set (R268): the code of the first cause that holds, 0 where none does. -/
def State.aesCheck (s : State) (n : Nat) (set : Tbl Nat) : Nat :=
  let v := fun (f : Fld) => Tbl.get set f.key f.rst
  let vs := v (R.AES_TX_CTRL_V_SRC n)
  let us := v (R.AES_TX_CTRL_U_SRC n)
  let cs := v (R.AES_TX_CTRL_CS_SRC n)
  let src := v (R.AES_TX_CTRL_SRC_RX n)
  let uses := decide (cs = 1 ∨ us = 2)
  let tx := s.cfg.bind (fun c => c.aes? n)
  let rx := s.cfg.bind (fun c => c.aes? src)
  if vs = 3 ∨ us = 3 ∨ 1 < cs then 1
  else match tx with
    | none => 2
    | some t =>
      if !t.txEn then 2
      else if uses then
        match rx with
        | none => 3
        | some r =>
          if !r.rxEn then 3
          else if (r.rxClocking = 1 ∧ r.rxDomain = t.txDomain) ∨ (t.txClocking = 2 ∧ t.txClkRx = src) then 0 else 4
      else 0

/-- The RWS fields of an AES transmitter's set (R268). -/
def aesSetFlds (n : Nat) : List Fld :=
  [R.AES_TX_CTRL_V_SRC n, R.AES_TX_CTRL_U_SRC n, R.AES_TX_CTRL_CS_SRC n, R.AES_TX_CTRL_CRCC_GEN n, R.AES_TX_CTRL_SRC_RX n] ++
  (List.range 12).map (fun i => R.AES_TX_CS_BYTES n i) ++ (List.range 12).map (fun i => R.AES_TX_U_BYTES n i)

/-! ### Commands (R263) -/

/-- Discard a port command (R263). -/
def State.prtReject (s : State) : State := s.bump R.PRT_CMD_REJECT_COUNT

/-- PRT_MASK at the boundary of its block (R263): pending from its first frame. A write of the register comes after it. -/
def State.maskCommand (s : State) (n m : Nat) : State :=
  let d := s.unit n
  if d.maskSince ∨ (d.maskBefore ∧ d.pendMask.isSome) then s else s.portMaskPend n m 0

/-- PORT_MUTE at the boundary of its block, of one port or transmitter (R263): MUTE and RAMP, read at this boundary. A write of the
register comes after it. -/
def State.muteCommand (s : State) (kind n mute ramp : Nat) : State :=
  let u := if kind = 0 then n else 24 + n
  let d := s.unit u
  let r := if ramp = 0 then d.ramp else rampBlocks ramp
  if d.ctrlBefore then s
  else
    let s1 := s.setUnit u { d with mute := decide (mute = 1) || s.unitGroup u, ramp := r }
    let s2 := if kind = 0 ∨ ramp = 0 then s1 else s1.setUnit (16 + n) { s1.unit (16 + n) with ramp := r }
    if d.ctrlSince then s2
    else
      let s3 := s2.setFld (if kind = 0 then R.PRT_CTRL_MUTE n else R.AES_CTRL_TX_MUTE n) mute
      if ramp = 0 then s3 else s3.setFld (if kind = 0 then R.PRT_CTRL_RAMP n else R.AES_CTRL_RAMP n) ramp

/-- Apply one port command at its boundary (R263): its status and the state after. -/
def State.prtApply (s : State) (c : Cmd) : Nat × State :=
  match c with
  | .prtMask port mask =>
    if port ≤ 15 ∧ (s.cfg.bind (fun c => c.prt? port)).isSome then (0, s.maskCommand port mask.toNat) else (2, s.prtReject)
  | .portMute kind first count mute ramp =>
    let lim := if kind = 0 then 16 else 8
    let defined := fun (n : Nat) => match s.cfg with
      | none => false
      | some c => if kind = 0 then (c.prt? n).isSome else (match c.aes? n with | none => false | some r => r.txEn)
    if kind ≤ 1 ∧ 1 ≤ count ∧ count ≤ 16 ∧ first + count ≤ lim ∧ mute ≤ 1 ∧ ramp ≤ 64 ∧
        (List.range count).all (fun j => defined (first + j)) then
      (0, (List.range count).foldl (fun s j => s.muteCommand kind (first + j) mute ramp) s)
    else (2, s.prtReject)
  | _ => (2, s)

/-- A write of PRT_CTRL (R259, R269): ignored by a port that is not defined. -/
def State.prtCtrlWrite (s : State) (n : Nat) (v : Nat) : State :=
  if s.fld (R.PRT_CFG_PRESENT n) = 1 then
    ((((s.setUnit n { s.unit n with ctrlSince := true }).setFld (R.PRT_CTRL_ENABLE n) (bit v 31)).setFld (R.PRT_CTRL_MUTE n) (bit v 30)).setFld (R.PRT_CTRL_RAMP n) (bits v 22 16))
  else s

/-- A write of AES_CTRL (R259, R270). -/
def State.aesCtrlWrite (s : State) (n : Nat) (v : Nat) : State :=
  if s.fld (R.AES_CFG_RX_PRESENT n) = 1 ∨ s.fld (R.AES_CFG_TX_PRESENT n) = 1 then
    let s1 := s.setUnit (16 + n) { s.unit (16 + n) with ctrlSince := true }
    let s2 := s1.setUnit (24 + n) { s1.unit (24 + n) with ctrlSince := true }
    ((((s2.setFld (R.AES_CTRL_TX_ENABLE n) (bit v 31)).setFld (R.AES_CTRL_TX_MUTE n) (bit v 30)).setFld
      (R.AES_CTRL_RAMP n) (bits v 22 16)).setFld (R.AES_CTRL_RX_ENABLE n) (bit v 15)).setFld (R.AES_CTRL_RX_MUTE n) (bit v 14)
  else s

/-- A write of PRT_MASK to a defined port (R262): the pending mask, from the next frame, or the one after it in the guard window. -/
def State.prtMaskWrite (s : State) (n v : Nat) (inGuard : Bool) : State :=
  if s.fld (R.PRT_CFG_PRESENT n) = 1 then (s.setUnit n { s.unit n with maskSince := true }).portMaskPend n v (flag inGuard) else s

/-- The counters that bit n of PRT_COUNT_CLEAR clears (R269). -/
def prtCounts (n : Nat) : List Fld :=
  [R.PRT_XRUN_COUNT n, R.PRT_SLIP_COUNT_REPEAT n, R.PRT_SLIP_COUNT_DROP n, R.PRT_FRAME_ERR_COUNT n]

/-- The counters that bit n of AES_COUNT_CLEAR clears (R270). -/
def aesCounts (n : Nat) : List Fld :=
  [R.AES_SLIP_COUNT_REPEAT n, R.AES_SLIP_COUNT_DROP n, R.AES_PARITY_ERR_COUNT n, R.AES_CODE_ERR_COUNT n,
   R.AES_CS_CRC_ERR_COUNT n, R.AES_V_COUNT_COUNT n, R.AES_XRUN_COUNT n]

/-- Clear the counters that a mask of `n` instances names. -/
def State.clearMasked (s : State) (n mask : Nat) (fs : Nat → List Fld) : State :=
  (List.range n).foldl (fun s i => if bit mask i = 1 then s.clearFlds (fs i) else s) s

/-! ### A load and a swap (R258, R260) -/

/-- A peal load: every port takes its record; AUTO_START sets ENABLE, and AES directions start enabled (R258). -/
def State.portsLoad (s : State) (c : Cfg) : State :=
  let s1 := c.prts.foldl (fun s r => (s.prtTake r).setFld (R.PRT_CTRL_ENABLE r.index) (flag r.autoStart)) s
  c.aess.foldl (fun s r => (((s.aesTake r).setFld (R.AES_CTRL_TX_ENABLE r.index) 1).setFld (R.AES_CTRL_RX_ENABLE r.index) 1)) s1

/-- At S a changed unit stops in its old format (R260): post-roll, or at once where its clocks stand. -/
def State.unitLeaves (s : State) (new : Cfg) (u : Nat) : State :=
  let st := s.unitState u
  if s.unitChanges new u ∧ st ≠ stAbsent then
    let s1 := s.setUnit u { s.unit u with leaving := true }
    if clocksRun st then s1.enterPostroll u else if st = stSyncing ∨ st = stLost then s1.enterStopped u else s1
  else s

/-- At S (R260): changed ports leave, and those that have no post-roll to run take their records, as do new ones. -/
def State.portsSwap (s : State) (new : Cfg) : State :=
  let s1 := (List.range 32).foldl (fun s u => s.unitLeaves new u) s
  ((List.range 16) ++ (List.range 8).map (· + 16)).foldl (fun s u => if clocksRun (s.unitState u) then s else s.takeFormat u) s1

/-! ### The commands -/

def execPrtMaskApply (port : Nat) (s : State) : Host.Outcome State Fault Refusal := .next (s.maskApply port)

/-- The units a port command names. -/
def cmdUnits : Cmd → List Nat
  | .prtMask port _ => [port]
  | .portMute kind first count _ _ => (List.range count).map (fun j => first + j + (if kind = 0 then 0 else 24))
  | _ => []

/-- Whether the units of a port command stand at their boundary: the token of the running block has reached them, and they have sent and
received nothing since. -/
def State.prtOpen (s : State) (c : Cmd) : Bool :=
  decide ((s.passed (s.cmdIslands .prt c)).2 = s.blk.seq) && (cmdUnits c).all (fun u => decide ((s.unit u).pos = 0))

/-- A port command given as a row: applied at the boundary its units are at, or held for the next one (R263). -/
def State.prtCommand (s : State) (c : Cmd) : State := if s.prtOpen c then (s.prtApply c).2 else s.hold (heldOf .prt c .notNeeded)

def execPrtMask (port : Nat) (mask : Word) (s : State) : Host.Outcome State Fault Refusal := .next (s.prtCommand (.prtMask port mask))

def execPortMute (kind first count mute ramp : Nat) (s : State) : Host.Outcome State Fault Refusal :=
  .next (s.prtCommand (.portMute kind first count mute ramp))

def execPortFrame (port : Nat) (slots : List Nat) (s : State) : Host.Outcome State Fault Refusal :=
  .next (s.prtFrame port slots)

def execPortLock (unit rateMhz : Nat) (s : State) : Host.Outcome State Fault Refusal := .next (s.unitLock unit rateMhz)

def execPortLost (unit cause : Nat) (s : State) : Host.Outcome State Fault Refusal := .next (s.unitLost unit cause)

def execPortFrameError (unit : Nat) (s : State) : Host.Outcome State Fault Refusal := .next (s.unitFrameError unit)

def execPortPrerollDone (unit : Nat) (s : State) : Host.Outcome State Fault Refusal := .next (s.prerollDone unit)

def execPortStopRampDone (unit : Nat) (s : State) : Host.Outcome State Fault Refusal := .next (s.stopRampDone unit)

def execPortPostrollDone (unit : Nat) (s : State) : Host.Outcome State Fault Refusal := .next (s.postrollDone unit)

def execAesFrameRx (n : Nat) (z : Bool) (subs : List AesSub) (s : State) : Host.Outcome State Fault Refusal :=
  .next (s.aesFrameRx n z subs)

def execAesCsBlockComplete (n : Nat) (s : State) : Host.Outcome State Fault Refusal := .next (s.csBlockComplete n)

def execAesFrameTx (n : Nat) (s : State) : Host.Outcome State Fault Refusal := .next (s.aesFrameTx n)

end Sys2Proof.Machine
end

