-- ==== Sys2Proof/Machine/Time.lean ====
section
/-! DEFINITION. The time unit (R289-R294, R296): PTP instances and their servos, timed outputs, captures. Local time is the
time unit's own clock in ns. -/

namespace Sys2Proof.Machine

/-- The latest local time seen moves on to `t`. -/
def State.seeTime (s : State) (t : Nat) : State := { s with tu := { s.tu with now := max s.tu.now t } }

/-- The local time of a command that carries none: any time from the last one seen on (notes/assumptions/2). -/
def State.someTime (s : State) : Nat × State :=
  let r := s.fresh
  (s.tu.now + r.1, r.2.seeTime (s.tu.now + r.1))

/-- PTP instance `i`: 0 is A, 1 is B. -/
def State.inst (s : State) (i : Nat) : PtpInst := Tbl.get s.tu.insts i .idle

/-- Write an instance. -/
def State.setInst (s : State) (i : Nat) (p : PtpInst) : State :=
  { s with tu := { s.tu with insts := Tbl.set s.tu.insts i .idle p } }

/-- An instance's clock at local time `t`, in ns. A positive correction slows the clock, which is what brings o = t2 − t1 − d
to 0 (DEDUCED from R290 and R291, notes/assumptions/32). -/
def PtpInst.at (p : PtpInst) (t : Nat) : Rat := p.base + ((t : Int) - (p.ref : Int) : Int) * (1 - p.ppb / 1000000000)

/-- The whole nanoseconds of an instance's clock at local time `t` (R288). -/
def State.instNs (s : State) (i t : Nat) : Int := ((s.inst i).at t).floor

/-- Let an instance's clock go on from local time `t` with another value and correction. -/
def PtpInst.rebase (p : PtpInst) (t : Nat) (step ppb : Rat) : PtpInst := { p with base := p.at t + step, ref := t, ppb := ppb }

/-- Seconds (48 bits) and nanoseconds of a time (R288). -/
def secNs (x : Int) : Nat × Nat := ((x / 1000000000).toNat % 2 ^ 48, (x % 1000000000).toNat)

/-! ### Timed outputs (R293) -/

/-- START of a set: ns of its instance. -/
def tuStart (v : Fld → Nat) (n : Nat) : Int :=
  ((v (R.TU_OUT_START_SEC_HI_SEC n) * 2 ^ 32 + v (R.TU_OUT_START_SEC_LO_SEC n)) * 1000000000 + v (R.TU_OUT_START_NS_NS n) : Nat)

/-- The first START + k × PERIOD after `now`, for whole k from 0 (R293). -/
def nextEdge (start : Int) (period : Nat) (now : Int) : Int :=
  if now < start then start else start + ((now - start) / period + 1) * period

/-- The RWS fields of a timed output (R293). -/
def tuSetFlds (n : Nat) : List Fld :=
  [R.TU_OUT_CTRL_ENABLE n, R.TU_OUT_CTRL_POL n, R.TU_OUT_CTRL_INST n, R.TU_OUT_START_SEC_LO_SEC n, R.TU_OUT_START_SEC_HI_SEC n,
   R.TU_OUT_START_NS_NS n, R.TU_OUT_PERIOD_NS n, R.TU_OUT_WIDTH_NS n]

/-- The consistency check of a timed output's set at local time `t` (R293): the first cause that holds, 0 where none does. -/
def State.tuCheck (s : State) (n t : Nat) (set : Tbl Nat) : Nat :=
  let v := fun (f : Fld) => Tbl.get set f.key f.rst
  let per := v (R.TU_OUT_PERIOD_NS n)
  let w := v (R.TU_OUT_WIDTH_NS n)
  let i := v (R.TU_OUT_CTRL_INST n)
  if per = 0 ∧ tuStart v n ≤ s.instNs i t then 1
  else if w < 8 ∨ (per ≠ 0 ∧ per < w + 8) then 2
  else if s.fld (R.TU_PTP_CFG_ENABLE i) = 0 then 3
  else 0

/-- Write TU_OUT_ERR's code of output `n`. -/
def State.setTuErr (s : State) (n code : Nat) : State :=
  let e := s.fld R.TU_OUT_ERR_CODE
  s.setFld R.TU_OUT_ERR_CODE (e - bits e (4 * n + 3) (4 * n) * 2 ^ (4 * n) + code % 16 * 2 ^ (4 * n))

/-- Program output `n` from its fields in force (R293). -/
def State.tuProgram (s : State) (n t : Nat) : State :=
  let start := tuStart s.inForce n
  let per := s.inForce (R.TU_OUT_PERIOD_NS n)
  let now := s.instNs (s.inForce (R.TU_OUT_CTRL_INST n)) t
  let outs' :=
    if s.inForce (R.TU_OUT_CTRL_ENABLE n) = 0 then Tbl.erase n s.tu.outs
    else Tbl.put s.tu.outs n (if per = 0 then start else if now ≤ start then start else nextEdge start per now)
  { s with tu := { s.tu with outs := outs' } }

/-- Drive one pulse of output `n` (R293): a one-shot is spent; a periodic output goes on at the next edge. -/
def State.tuPulse (s : State) (n : Nat) (edge : Int) : State :=
  let per := s.inForce (R.TU_OUT_PERIOD_NS n)
  let outs' := if per = 0 then Tbl.erase n s.tu.outs else Tbl.put s.tu.outs n (edge + per)
  ({ s with tu := { s.tu with outs := outs' } }).emit
    (.tuPulse n edge (s.inForce (R.TU_OUT_WIDTH_NS n)) (decide (s.inForce (R.TU_OUT_CTRL_POL n) = 1)))

/-- The outputs of an instance after a step of its clock at local time `t` (R293). -/
def State.outsAfterStep (s : State) (i t : Nat) : State :=
  (List.range 8).foldl (fun s n =>
    if s.inForce (R.TU_OUT_CTRL_INST n) = i then
      match Tbl.find n s.tu.outs with
      | none => s
      | some e =>
        let now := s.instNs i t
        let per := s.inForce (R.TU_OUT_PERIOD_NS n)
        if per = 0 then
          if e < now then (s.tuPulse n now).raise R.TU_INT_STATUS_OUT_SKIPPED else s
        else { s with tu := { s.tu with outs := Tbl.put s.tu.outs n (nextEdge (tuStart s.inForce n) per now) } }
    else s) s

/-! ### The servo (R290, R291) -/

/-- The servo's state codes (R291): 0 DISABLED, 1 LISTEN, 2 TRACK, 3 LOCKED, 4 NO_PARENT. -/
def State.servo (s : State) (i : Nat) : Nat := s.fld (R.TU_SERVO_STATE_STATE i)

/-- Set the servo's state; entering LOCKED or NO_PARENT sets its status bit. -/
def State.setServo (s : State) (i st : Nat) : State :=
  let s1 := s.setFld (R.TU_SERVO_STATE_STATE i) st
  if st = s.servo i then s1
  else if st = 3 then s1.raise (if i = 0 then R.TU_INT_STATUS_A_LOCKED else R.TU_INT_STATUS_B_LOCKED)
  else if st = 4 then s1.raise (if i = 0 then R.TU_INT_STATUS_A_NO_PARENT else R.TU_INT_STATUS_B_NO_PARENT)
  else s1

/-- Put a frequency correction in force, in ppb, clamped to ±500,000 (R291). -/
def State.setPpb (s : State) (i t : Nat) (ppb : Rat) : State :=
  let c : Rat := max (-500000) (min 500000 ppb)
  (s.setInst i ((s.inst i).rebase t 0 c)).setFld (R.TU_FREQ_ADJ_PPB i) (codeS 32 (roundRat c))

/-- Clave absorbs a phase difference of its selected reference (R308): it is added to the held offset, and slewed out
unless PHASE_HOLD keeps it. A difference above JUMP_NS is recorded. -/
def State.clvAbsorb (s : State) (slot : Nat) (phi : Int) : State :=
  let a := ofCodeS 32 (s.fld R.CLV_ABSORB_NS_NS) + phi
  let s1 := s.setFld R.CLV_ABSORB_NS_NS (codeS 32 (satS 32 a))
  let s2 := s1.setFld R.CLV_STATE_SLEWING (flag (decide (s1.fld R.CLV_CTRL_PHASE_HOLD = 0 ∧ a ≠ 0)))
  let jump := match s.cfg with | none => 0 | some c => c.clock.jumpNs
  if phi.natAbs > jump then
    ((s2.setFld (R.CLV_REF_HIST_PHASE_JUMP slot) 1).raise R.CLV_INT_STATUS_PHASE_JUMP).raise R.CLV_INT_STATUS_REF_EVENT
  else s2

/-- Step an instance's clock (R291, R293). Where Clave follows the instance, it absorbs the step (R308). -/
def State.stepInst (s : State) (i t : Nat) (by_ : Rat) : State :=
  let s1 := (s.setInst i ((s.inst i).rebase t by_ (s.inst i).ppb)).outsAfterStep i t
  let sel := s.fld R.CLV_STATE_SELECTED
  let st := s.fld R.CLV_STATE_STATE
  if sel < 16 ∧ s.fld (R.CLV_REF_CFG_TYPE sel) = 1 ∧ s.fld (R.CLV_REF_CFG_INDEX sel) = i ∧ (st = 1 ∨ st = 2) then
    s1.clvAbsorb sel (roundRat by_)
  else s1

/-- An offset's effect on the lock (R291): 8 in a row within LOCK_NS lock, one beyond 4 × LOCK_NS unlocks. -/
def State.lockOffset (s : State) (i : Nat) (o : Rat) : State :=
  let lim : Rat := (s.fld (R.TU_SERVO_LIMIT_LOCK_NS i) : Rat)
  let run := if -lim ≤ o ∧ o ≤ lim then (s.inst i).run + 1 else 0
  let s1 := s.setInst i { s.inst i with run := run }
  if s1.servo i = 3 then (if o < -(4 * lim) ∨ 4 * lim < o then (s1.setInst i { s1.inst i with run := 0 }).setServo i 2 else s1)
  else if 8 ≤ run then s1.setServo i 3 else s1

/-- Track one offset (R291): the frequency correction. -/
def State.trackOffset (s : State) (i t : Nat) (o : Rat) : State :=
  let p := s.inst i
  let kp : Rat := (s.fld (R.TU_SERVO_GAIN_KP i) : Rat) / 65536
  let ki : Rat := (s.fld (R.TU_SERVO_GAIN_KI i) : Rat) / 65536
  let sum := p.integ + ki * o
  let corr := kp * o + sum
  let clamped := decide (corr < -500000 ∨ 500000 < corr)
  (s.setInst i { p with integ := if clamped then p.integ else sum }).setPpb i t corr

/-- The servo takes an offset in ns at local time `t` (R291). -/
def State.servoOffset (s : State) (i t : Nat) (o : Rat) : State :=
  let s1 := s.setFld (R.TU_OFFSET_NS i) (codeS 32 (satS 32 (roundRat o)))
  let big : Rat := (s.fld (R.TU_SERVO_LIMIT_STEP_US i) : Rat) * 1000
  match s.servo i with
  | 1 => ((s1.setInst i { s1.inst i with integ := 0, run := 0 }).stepInst i t (-o)).setServo i 2
  | 0 => s1
  | st =>
    let s2 := (if st = 4 then s1.setServo i 2 else s1).lockOffset i o
    if o < -big ∨ big < o then
      if s.fld (R.TU_PTP_CFG_STEP_EN i) = 1 then
        ((s2.stepInst i t (-o)).bump (R.TU_STEP_COUNT_COUNT i)).raise
          (if i = 0 then R.TU_INT_STATUS_A_STEPPED else R.TU_INT_STATUS_B_STEPPED)
      else s2.setPpb i t (if o < 0 then -500000 else 500000)
    else s2.trackOffset i t o

/-- An instance takes t1 and t2 of a Sync (R290). -/
def State.takeSync (s : State) (i t : Nat) (t1 t2 : Rat) : State :=
  let p := s.inst i
  (s.setInst i { p with last12 := some (t1, t2), sync := none }).servoOffset i t (t2 - t1 - p.d)

/-- An instance takes t4 of the Delay_Resp to its outstanding Delay_Req (R290): d ← d + (d_new − d) / 16. -/
def State.takeDelayResp (s : State) (i : Nat) (t4 : Rat) : State :=
  let p := s.inst i
  match p.last12, p.dr with
  | some (t1, t2), some (_, t3) =>
    let d := p.d + (((t2 - t1) + (t4 - t3)) / 2 - p.d) / 16
    (s.setInst i { p with d := d, dr := none }).setFld (R.TU_PATH_DELAY_NS i) (codeS 32 (satS 32 (roundRat d)))
  | _, _ => s

/-- A PTP message on a port, for an instance that measures there (R290). `m` is the message, `ts` its receive time in ns of
the instance, `t` the local time. -/
def State.ptpMessage (s : State) (i port t : Nat) (ts : Int) (m : List Byte) : State :=
  if s.fld (R.TU_PTP_CFG_ENABLE i) = 1 ∧ s.fld (R.TU_PTP_CFG_MEASURE_EN i) = 1 ∧ s.fld (R.TU_PTP_CFG_PORT i) = port ∧
      34 ≤ m.length ∧ (m.getD 4 0).toNat = s.fld (R.TU_PTP_CFG_DOMAIN i) then
    let kind := (m.getD 0 0).toNat % 16
    let twoStep := (m.getD 6 0).getLsbD 1
    let corr : Rat := (ofCodeS 64 (beNat (slice m 8 8)) : Rat) / 65536
    let src := beNat (slice m 20 10)
    let seq := beNat (slice m 30 2)
    let stamp : Rat := ((beNat (slice m 34 6) * 1000000000 + beNat (slice m 40 4) : Nat) : Rat)
    let id := fun (f : Nat → Fld) => (s.fld (f 0) * 2 ^ 32 + s.fld (f 1)) * 65536 + s.fld (f 2) % 65536
    let p := s.inst i
    if kind = 0 ∧ src = id (R.TU_PTP_PARENT_ID i) then
      if twoStep then s.setInst i { p with sync := some (seq, (ts : Rat), 0, t) }
      else s.takeSync i t (stamp + corr) ts
    else if kind = 8 ∧ src = id (R.TU_PTP_PARENT_ID i) then
      match p.sync with
      | some (q, t2, _, t0) => if q = seq ∧ t ≤ t0 + 100000000 then s.takeSync i t (stamp + corr) t2 else s
      | none => s
    else if kind = 9 ∧ beNat (slice m 44 10) = id (R.TU_PTP_SELF_ID i) then
      match p.dr with
      | some (q, _) => if q = seq then s.takeDelayResp i (stamp - corr) else s
      | none => s
    else s
  else s

/-- The instance whose PORT is in a list of ports, A first (R292). -/
def State.instOn (s : State) (ports : List Nat) : Option Nat :=
  [0, 1].find? (fun i => decide (s.fld (R.TU_PTP_CFG_PORT i) ∈ ports))

/-- The time of a port's records (R285, R288): of the instance bound to the port, else of SYS_INST
(DESIGN CHOICE, notes/assumptions/33). -/
def State.portNs (s : State) (port t : Nat) : Int :=
  s.instNs ((s.instOn [port]).getD (s.fld R.TU_CTRL_SYS_INST)) t

/-- A write of TU_PTP_CFG (R291, R296): ENABLE 0 disables the servo, ENABLE 1 starts it in LISTEN. -/
def State.ptpCfgWrite (s : State) (i v : Nat) : State :=
  let s1 := (((((s.setFld (R.TU_PTP_CFG_ENABLE i) (bit v 31)).setFld (R.TU_PTP_CFG_MEASURE_EN i) (bit v 30)).setFld
    (R.TU_PTP_CFG_STEP_EN i) (bit v 29)).setFld (R.TU_PTP_CFG_PORT i) (bits v 25 24)).setFld
    (R.TU_PTP_CFG_DOMAIN i) (bits v 23 16)).setFld (R.TU_PTP_CFG_LOG_DR i) (bits v 11 8)
  if bit v 31 = 0 then s1.setServo i 0
  else if s.servo i = 0 then s1.setServo i 1 else s1

/-- Latch an instance's time (R296). -/
def State.latchTime (s : State) (i t : Nat) : State :=
  let x := secNs (s.instNs i t)
  ((s.setFld (R.TU_TIME_SEC_HI_SEC i) (x.1 / 2 ^ 32)).setFld (R.TU_TIME_SEC_LO_SEC i) (x.1 % 2 ^ 32)).setFld
    (R.TU_TIME_NS_NS i) x.2

/-- The queue of capture `n`. -/
def State.capQ (s : State) (n : Nat) : List (Int × Bool) := Tbl.get s.tu.caps n []

/-- Remove the oldest entry of capture `n` (R294). -/
def State.capPop (s : State) (n : Nat) : State :=
  { s with tu := { s.tu with caps := Tbl.set s.tu.caps n [] ((s.capQ n).drop 1) } }

/-- The words of capture `n`'s oldest entry (R296): SEC_HI with FALL and LEVEL, SEC_LO, NS. -/
def State.capWords (s : State) (n : Nat) : Nat × Nat × Nat :=
  match s.capQ n with
  | [] => (0, 0, 0)
  | e :: es =>
    let x := secNs e.1
    (flag e.2 * 2 ^ 31 + (es.length + 1) * 65536 + x.1 / 2 ^ 32, x.1 % 2 ^ 32, x.2)

/-- An edge on capture `n` at local time `t` (R294). -/
def State.capEdge (s : State) (n : Nat) (fall : Bool) (t : Nat) : State :=
  let sel := s.fld (R.TU_CAP_CFG_EDGE n)
  if n < 4 ∧ s.fld (R.TU_CAP_CFG_ENABLE n) = 1 ∧ bit sel (flag fall) = 1 then
    let near : Bool := match Tbl.find n s.tu.capLast with | some t0 => decide (t < t0 + 100) | none => false
    if near = true ∨ 16 ≤ (s.capQ n).length then (s.bump (R.TU_CAP_OVF_COUNT n)).raiseAt R.TU_INT_STATUS_CAP_OVF n
    else
      let q := s.capQ n ++ [(s.instNs (s.fld (R.TU_CAP_CFG_INST n)) t, fall)]
      let s1 := { s with tu := { s.tu with caps := Tbl.set s.tu.caps n [] q, capLast := Tbl.put s.tu.capLast n t } }
      s1.raiseAt R.TU_INT_STATUS_CAP n
  else s

/-! ### The commands -/

/-- Every 2^LOG_DR seconds an instance that measures sends its Delay_Req (R290). -/
def execPtpDelayReqTimer (inst t : Nat) (s : State) : Host.Outcome State Fault Refusal :=
  let s0 := s.seeTime t
  if inst < 2 ∧ s.fld (R.TU_PTP_CFG_ENABLE inst) = 1 ∧ s.fld (R.TU_PTP_CFG_MEASURE_EN inst) = 1 then
    let port := s.fld (R.TU_PTP_CFG_PORT inst)
    let p := s0.inst inst
    let t3 : Rat := ((s0.instNs inst (t + s.fld (R.NET_TS_LAT_TX_NS port)) : Int) : Rat)
    let self := (s.fld (R.TU_PTP_SELF_ID inst 0) * 2 ^ 32 + s.fld (R.TU_PTP_SELF_ID inst 1)) * 65536 +
      s.fld (R.TU_PTP_SELF_ID inst 2) % 65536
    .next (((s0.setInst inst { p with drSeq := (p.drSeq + 1) % 65536, dr := some (p.drSeq, t3) }).bump
      (R.NET_TX_FRAMES_COUNT port)).emit (.delayReq port inst p.drSeq (s.fld (R.TU_PTP_CFG_DOMAIN inst)) self))
  else .next s0

/-- No Sync from PARENT for 2 s (R291): the correction is held. -/
def execPtpNoParentTimeout (inst : Nat) (s : State) : Host.Outcome State Fault Refusal :=
  if inst < 2 ∧ (s.servo inst = 2 ∨ s.servo inst = 3) then
    .next ((s.setInst inst { s.inst inst with run := 0 }).setServo inst 4)
  else .next s

/-- A timed output reaches its instant (R293). -/
def execTuOutEdge (n t : Nat) (s : State) : Host.Outcome State Fault Refusal :=
  let s0 := s.seeTime t
  match Tbl.find n s0.tu.outs with
  | none => .next s0
  | some e =>
    if e ≤ s0.instNs (s0.inForce (R.TU_OUT_CTRL_INST n)) t + 2 then .next (s0.tuPulse n e) else .next s0

def execTuCapEdge (n : Nat) (fall : Bool) (t : Nat) (s : State) : Host.Outcome State Fault Refusal :=
  .next ((s.seeTime t).capEdge n fall t)

end Sys2Proof.Machine
end

