-- ==== Sys2Proof/Machine/Clave.lean ====
section
/-! DEFINITION. Clave (R299-R314, R319): reference slots, selection, hitless switching, history and holdover, word clocks.
Frequencies are in 1/256 ppb. Measured values (F of a gate, φ, temperatures) come with the events. -/

namespace Sys2Proof.Machine

/-! ### Slots (R301-R304) -/

/-- Slot `n` beside its registers. -/
def State.clvSlot (s : State) (n : Nat) : ClvSlot := Tbl.get s.clv.slots n .fresh

/-- Write slot `n`. -/
def State.setClvSlot (s : State) (n : Nat) (x : ClvSlot) : State :=
  { s with clv := { s.clv with slots := Tbl.set s.clv.slots n .fresh x } }

/-- A slot's state (R303): 0 UNUSED, 1 LOS, 2 DISQUALIFIED, 3 WAIT, 4 QUALIFIED. -/
def State.refState (s : State) (n : Nat) : Nat := s.fld (R.CLV_REF_STATE_STATE n)

/-- Set a bit of a slot's history. -/
def State.refHist (s : State) (f : Fld) : State := (s.setFld f 1).raise R.CLV_INT_STATUS_REF_EVENT

/-- WTR_S as it acts (R319). -/
def State.wtr (s : State) (n : Nat) : Nat := min 3600 (s.fld (R.CLV_REF_CTRL_WTR_S n))

/-- Move a slot to another state, with its history and its counts (R303, R319). -/
def State.setRef (s : State) (n st : Nat) : State :=
  let old := s.refState n
  if old = st then s
  else
    let s1 := (s.setFld (R.CLV_REF_STATE_STATE n) st).setClvSlot n { s.clvSlot n with clear := 0 }
    let s2 := if old = 4 then s1.bump (R.CLV_REF_LOSS_COUNT_COUNT n) else s1
    let s3 := if old = 3 ∧ (st = 1 ∨ st = 2) then s2.refHist (R.CLV_REF_HIST_WTR_RESTART n) else s2
    let s4 := s3.setFld (R.CLV_REF_STATE_WTR_LEFT n) (if st = 3 then s3.wtr n else 0)
    match st with
    | 1 => s4.refHist (R.CLV_REF_HIST_LOS n)
    | 2 => s4.refHist (R.CLV_REF_HIST_HARD n)
    | 4 => (s4.setClvSlot n { s4.clvSlot n with qualified := true }).refHist (R.CLV_REF_HIST_QUALIFIED n)
    | _ => s4

/-- A reference's loss-of-signal condition (R301): of a PTP instance its servo, of a port its state; of other types the
signal itself, which is outside the model. -/
def State.refLost (s : State) (n : Nat) : Bool :=
  let i := s.fld (R.CLV_REF_CFG_INDEX n)
  let idle := fun (u : Nat) => decide (s.unitState u ≠ stRunning ∧ s.unitState u ≠ stPreroll)
  match s.fld (R.CLV_REF_CFG_TYPE n) with
  | 0 => false
  | 1 => decide (s.servo i ≠ 3)
  | 5 => idle i
  | 6 => idle (16 + i)
  | _ => true

/-- The loss of a slot's signal is known from the device's own state: a PTP instance's or a port's (R301). -/
def State.refDead (s : State) (n : Nat) : Bool :=
  let ty := s.fld (R.CLV_REF_CFG_TYPE n)
  decide (ty = 1 ∨ ty = 5 ∨ ty = 6) && s.refLost n

/-- A gate's F as it counts: none where the gate contains an LOS condition (R302). -/
def State.gateF (s : State) (long : Bool) (n : Nat) (f : Option Int) : Option Int :=
  let x := s.clvSlot n
  if (if long then x.losLong else x.losShort) || s.refDead n then none else f

/-- |F| is clear: at most ¾ of a threshold in ppb (R303, R304). -/
def withinThreeQuarters (f : Int) (ppb : Nat) : Bool := decide (4 * f.natAbs ≤ 3 * 256 * ppb)

/-- A 1 s gate's F and a slot's SOFT (R304): set above SOFT_PPB, cleared by three gates in a row within ¾ of it. -/
def State.refSoft (s : State) (n : Nat) (x : Int) : State :=
  let soft := s.fld (R.CLV_REF_THRESH_SOFT_PPB n)
  let calm := if withinThreeQuarters x soft then (s.clvSlot n).calm + 1 else 0
  let s1 := s.setClvSlot n { s.clvSlot n with calm := calm }
  if x.natAbs > 256 * soft then
    if s1.fld (R.CLV_REF_STATE_SOFT n) = 1 then s1 else (s1.setFld (R.CLV_REF_STATE_SOFT n) 1).refHist (R.CLV_REF_HIST_SOFT n)
  else if 3 ≤ calm then s1.setFld (R.CLV_REF_STATE_SOFT n) 0 else s1

/-- A 1 s gate's F and a slot's way back (R303): three clear gates in a row take it out of LOS or DISQUALIFIED. -/
def State.refClear (s : State) (n : Nat) (x : Int) : State :=
  let clear := if withinThreeQuarters x (s.fld (R.CLV_REF_THRESH_HARD_PPB n)) then (s.clvSlot n).clear + 1 else 0
  let s1 := s.setClvSlot n { s.clvSlot n with clear := clear }
  if 3 ≤ clear ∧ s1.refState n = 1 then s1.setRef n (if (s1.clvSlot n).qualified then 3 else 4)
  else if 3 ≤ clear ∧ s1.refState n = 2 then s1.setRef n 3
  else s1

/-- One second of a slot's wait to restore has passed (R303). -/
def State.wtrSecond (s : State) (n : Nat) : State :=
  s.setFld (R.CLV_REF_STATE_WTR_LEFT n) (s.fld (R.CLV_REF_STATE_WTR_LEFT n) - 1)

/-- A slot's gate (R302-R304): `f0` is none where the gate yielded no F. -/
def State.refGate (s : State) (long : Bool) (n : Nat) (f0 : Option Int) : State :=
  let st := s.refState n
  if st = 0 then s
  else
    let s0 := if long then s.setClvSlot n { s.clvSlot n with losLong := false } else s.setClvSlot n { s.clvSlot n with losShort := false }
    let s1 := match s.gateF long n f0 with
      | none => if long then s0.setClvSlot n { s0.clvSlot n with clear := 0, calm := 0 } else s0
      | some x =>
        let t := s0.setFld (if long then R.CLV_REF_FREQ_1S_F n else R.CLV_REF_FREQ_100MS_F n) (codeS 32 x)
        let u := if x.natAbs > 256 * s.fld (R.CLV_REF_THRESH_HARD_PPB n) ∧ (st = 3 ∨ st = 4) then t.setRef n 2 else t
        if long then (u.refSoft n x).refClear n x else u
    if long ∧ st = 3 ∧ s1.refState n = 3 then s1.wtrSecond n else s1

/-! ### Selection (R305, R306) -/

/-- F of a slot's last 1 s gate. -/
def State.f1s (s : State) (n : Nat) : Int := ofCodeS 32 (s.fld (R.CLV_REF_FREQ_1S_F n))

/-- SOFT_PPB of a slot in 1/256 ppb. -/
def State.softLim (s : State) (n : Nat) : Nat := 256 * s.fld (R.CLV_REF_THRESH_SOFT_PPB n)

/-- Two candidates disagree (R306). -/
def State.disagree (s : State) (a b : Nat) : Bool := decide ((s.f1s a - s.f1s b).natAbs > min (s.softLim a) (s.softLim b))

/-- Whether candidate `c` agrees with an arbiter: a slot, or LO_IN (R306). -/
def State.agrees (s : State) (c : Nat) : Option Nat → Bool
  | some a => decide ((s.f1s c - s.f1s a).natAbs ≤ s.softLim c)
  | none => decide ((s.f1s c).natAbs ≤ s.softLim c)

/-- Insert a slot into a list ordered by a key and then by number. -/
def insertSlot (key : Nat → Nat) (n : Nat) : List Nat → List Nat
  | [] => [n]
  | m :: ms => if key n < key m ∨ (key n = key m ∧ n < m) then n :: m :: ms else m :: insertSlot key n ms

/-- The arbiters in the order R306 tries them. -/
def State.arbiters (s : State) (cands : List Nat) : List (Option Nat) :=
  let others := (List.range 16).filter (fun n => decide (s.refState n = 4 ∧ n ∉ cands))
  ((others.foldr (insertSlot (fun n => s.fld (R.CLV_REF_CTRL_RANK n))) []).map some) ++
    (if s.fld R.CLV_STATE_BASE_XO = 1 then [] else [none])

/-- Steps 1 to 3 of R306 on the best candidates: the slot chosen, and the state with its conflicts recorded. -/
def State.breakTie (s : State) (sel : Option Nat) (cands : List Nat) : Option Nat × State :=
  let conflict := cands.any (fun a => cands.any (fun b => s.disagree a b))
  let s1 := if conflict then
      (cands.foldl (fun s n => s.refHist (R.CLV_REF_HIST_RANK_CONFLICT n)) s).raise R.CLV_INT_STATUS_RANK_CONFLICT
    else s
  let left :=
    if conflict then
      match (s.arbiters cands).find? (fun a => cands.any (fun c => s.agrees c a) && !cands.all (fun c => s.agrees c a)) with
      | some a => cands.filter (fun c => s.agrees c a)
      | none => cands
    else cands
  match sel with
  | some n => if n ∈ left then (some n, s1) else (left.head?, s1)
  | none => (left.head?, s1)

/-- CLV_CTRL.MODE as it acts: 3 acts as 0 (R319). -/
def State.clvMode (s : State) : Nat := if s.fld R.CLV_CTRL_MODE = 3 then 0 else s.fld R.CLV_CTRL_MODE

/-- The slot selected. -/
def State.clvSel (s : State) : Option Nat := if s.fld R.CLV_STATE_SELECTED < 16 then some (s.fld R.CLV_STATE_SELECTED) else none

/-- The selection of R305: the slot, if one is fit, and the state with conflicts recorded. -/
def State.clvSelect (s : State) : Option Nat × State :=
  match s.clvMode with
  | 0 =>
    let cands := (List.range 16).filter (fun n =>
      decide (s.refState n = 4 ∧ 1 ≤ s.fld (R.CLV_REF_CTRL_RANK n) ∧ s.fld (R.CLV_REF_CTRL_ENABLE n) = 1))
    let keep := match s.clvSel with
      | some n => decide (s.fld R.CLV_CTRL_NONREVERT = 1 ∧ n ∈ cands ∧ s.fld (R.CLV_REF_STATE_SOFT n) = 0)
      | none => false
    if keep then (s.clvSel, s)
    else
      let key := fun (n : Nat) => s.fld (R.CLV_REF_STATE_SOFT n) * 16 + s.fld (R.CLV_REF_CTRL_RANK n)
      match cands.foldr (insertSlot key) [] with
      | [] => (none, s)
      | b :: bs => s.breakTie s.clvSel ((b :: bs).filter (fun n => key n == key b))
  | 1 =>
    let n := s.fld R.CLV_CTRL_FORCE_SLOT
    (if s.refState n = 4 then some n else none, s)
  | _ => (none, s)

/-- Evaluate selection (R305): a change takes effect at the next domain A boundary. A loss of every candidate is a change
to none, and so is MODE HOLDOVER in FREERUN. A standby takes the active chip's selection instead (R348). -/
def State.clvEvaluate (s : State) : State :=
  if s.flmFollows 9 then s else
  let r := s.clvSelect
  let idle := decide ((s.fld R.CLV_STATE_STATE = 0 ∧ s.clvMode ≠ 2) ∨ s.fld R.CLV_STATE_STATE = 3)
  if r.1 = s.clvSel ∧ (r.1.isSome ∨ idle) then { r.2 with clv := { r.2.clv with want := none } }
  else { r.2 with clv := { r.2.clv with want := some (r.1, s.blk.seq) } }

/-- Select anew at this boundary, the selected slot having changed at S (R312). -/
def State.clvReselect (s : State) : State :=
  let s1 := s.clvEvaluate
  { s1 with clv := { s1.clv with want := s1.clv.want.map (fun (w : Option Nat × Nat) => (w.1, w.2 - 1)) } }

/-! ### History and output frequency (R307, R309) -/

/-- H: H_live as it stood 32 updates before (R309). -/
def State.histH (s : State) : Rat := s.clv.line.headD s.clv.hLive

/-- F_out of holdover (R309), in 1/256 ppb. -/
def State.holdFreq (s : State) : Rat :=
  let dt : Rat := (ofCodeS 16 (s.fld R.CLV_TEMP_T) : Rat) / 128 - s.clv.tH / 128
  let tc1 : Rat := ofCodeS 32 (s.fld R.CLV_TC1_TC1)
  let tc2 : Rat := (ofCodeS 32 (s.fld R.CLV_TC2_TC2) : Rat) / 256
  let age : Rat := ofCodeS 32 (s.fld R.CLV_AGEING_AGEING)
  s.histH - tc1 * dt - tc2 * dt * dt - age * ((s.clv.since : Rat) / 86400)

/-- Put an output frequency in force: PLL_01 and PLL_02 take the same deviation (R297, R317). -/
def State.setOutFreq (s : State) (f : Int) : State :=
  ((s.setFld R.CLV_OUT_FREQ_FREQ (codeS 32 f)).setFld (R.PLL_FRAC_FREQ 1) (codeS 32 f)).setFld (R.PLL_FRAC_FREQ 2) (codeS 32 f)

/-- The farthest the output frequency moves in 100 ms: 10 ppm per second (R307), in 1/256 ppb. -/
abbrev rampLimit : Int := 256000

/-- Move the output frequency towards `f` for 100 ms (R307). -/
def State.rampOutFreq (s : State) (f : Int) : State :=
  let x := ofCodeS 32 (s.fld R.CLV_OUT_FREQ_FREQ)
  s.setOutFreq (x + max (-rampLimit) (min rampLimit (f - x)))

/-- The output frequency by state (R307), over one 100 ms gate: towards base nominal, towards F_out, or steered by the loop (within the
ramp a value that the spec leaves to the loop). -/
def State.clvOutput (s : State) : State :=
  match s.fld R.CLV_STATE_STATE with
  | 0 => s.rampOutFreq 0
  | 3 => s.rampOutFreq (roundRat s.holdFreq)
  | _ =>
    let r := s.fresh
    r.2.rampOutFreq (ofCodeS 32 r.1)

/-- Freeze the history (R309): H_live and its delay line are set to H. -/
def State.clvFreeze (s : State) : State :=
  let h := s.histH
  { (s.setFld R.CLV_STATE_HIST_FROZEN 1) with clv := { s.clv with hLive := h, line := s.clv.line.map (fun _ => h) } }

/-- One 1 s update of the history (R309). -/
def State.clvHistory (s : State) (f : Option Int) : State :=
  let s0 := { s with clv := { s.clv with since := s.clv.since + 1 } }
  match s.clvSel with
  | none => s0
  | some n =>
    let tau := match s.cfg with | none => 1 | some c => max 1 c.clock.tauS
    if s.fld (R.CLV_REF_STATE_SOFT n) = 1 then (if s.fld R.CLV_STATE_HIST_FROZEN = 1 then s0 else s0.clvFreeze)
    else if s.fld R.CLV_STATE_STATE = 2 then
      match f with
      | none => s0.setFld R.CLV_STATE_HIST_FROZEN 0
      | some x =>
        let h := s.clv.hLive + ((x : Rat) - s.clv.hLive) / tau
        let th := s.clv.tH + ((ofCodeS 16 (s.fld R.CLV_TEMP_T) : Rat) - s.clv.tH) / tau
        let line := s.clv.line ++ [s.clv.hLive]
        let c' : Clv := { s.clv with hLive := h, tH := th, updates := s.clv.updates + 1, since := 0,
                                     line := line.drop (line.length - 32) }
        let s1 := { (s.setFld R.CLV_STATE_HIST_FROZEN 0) with clv := c' }
        (((if tau ≤ c'.updates then s1.setFld R.CLV_STATE_HIST_VALID 1 else s1).setFld R.CLV_HOLD_FREQ_FREQ
          (codeS 32 (roundRat s1.histH)))).setFld R.CLV_TEMP_T_H (codeS 16 (roundRat th))
    else s0

/-- The absorbed offset has been removed (R308). -/
def State.slewEnd (s : State) : State :=
  (({ s with clv := { s.clv with slewed := 0 } }.setFld R.CLV_ABSORB_NS_NS 0).setFld R.CLV_STATE_SLEWING 0).raise R.CLV_INT_STATUS_SLEW_DONE

/-- The absorbed offset shrinks while it is slewed out (R308): SLEW_PPB ns per second, a tenth of it per 100 ms gate. -/
def State.clvSlew (s : State) : State :=
  if s.fld R.CLV_STATE_SLEWING = 1 then
    let a := ofCodeS 32 (s.fld R.CLV_ABSORB_NS_NS)
    let tenths := s.clv.slewed + min 10000 (max 1 (s.fld R.CLV_SLEW_PPB))
    if a.natAbs ≤ tenths / 10 then s.slewEnd
    else
      let step : Int := (tenths / 10 : Nat)
      { s with clv := { s.clv with slewed := tenths % 10 } }.setFld R.CLV_ABSORB_NS_NS (codeS 32 (if a < 0 then a + step else a - step))
  else s

/-- What a 1 s gate gives beside the slots (R309, R310): the crystal measured against LO_IN, the history, the seconds of holdover. -/
def State.clvSecond (s : State) (f : Option Int) (xo : Int) : State :=
  let s1 := if s.fld R.CLV_STATE_BASE_XO = 0 ∨ s.clv.measuring then s.setFld R.CLV_XO_FREQ_FREQ (codeS 32 xo) else s
  let s2 := s1.clvHistory f
  if s2.fld R.CLV_STATE_STATE = 3 then s2.bump R.CLV_HOLD_SECONDS_S else s2

/-- A gate that was in progress when the base changed is discarded (R310). -/
def State.gateDropped (s : State) (long : Bool) : Bool := if long then s.clv.skipLong else s.clv.skipShort

/-- The slots at the end of a gate (R302-R304, R310): only the waits go on where the gate is discarded. -/
def State.slotGates (s : State) (long : Bool) (fs : List (Option Int)) : State :=
  if s.gateDropped long then
    (List.range 16).foldl (fun s n => if long ∧ s.refState n = 3 then s.wtrSecond n else s)
      { s with clv := if long then { s.clv with skipLong := false } else { s.clv with skipShort := false } }
  else (List.range 16).foldl (fun s n => s.refGate long n (fs.getD n none)) s

/-- A gate ends (R302): at a domain A boundary whose index is a multiple of a tenth of the blocks per second; a 1 s gate at a
multiple of the blocks per second. -/
def State.clvGateEnd (s : State) (long : Bool) (fs : List (Option Int)) (temp xo : Int) : State :=
  let per := if long then s.blocksPerSecond else s.blocksPerSecond / 10
  if s.cfg.isSome ∧ s.blk.index % max 1 per = 0 then
    let f := if s.gateDropped long then none else (s.clvSel).bind (fun n => s.gateF long n (fs.getD n none))
    let s1 := (s.setFld R.CLV_TEMP_T (codeS 16 temp)).slotGates long fs
    if long then (s1.clvSecond f xo).clvEvaluate else (s1.clvSlew.clvEvaluate).clvOutput
  else s

/-! ### Switching (R307, R308) -/

/-- The period P within which a slot defines phase, in ns (R301). -/
def State.refPeriod (s : State) (n : Nat) : Option Rat :=
  let r := match s.cfg with | none => fun _ => 1 | some c => fun d => if d = 0 then rateAHz c.sys.rateA else max 1 (rateBHz c.sys.rateB)
  let i := s.fld (R.CLV_REF_CFG_INDEX n)
  match s.fld (R.CLV_REF_CFG_TYPE n) with
  | 2 => some 1000000000
  | 3 => some 100
  | 4 => some ((1000000000 : Rat) / (r (s.fld (R.CLV_REF_CFG_DOMAIN n)) : Rat))
  | 5 => some ((1000000000 : Rat) / (r (match s.unitFmt? i with | some f => f.domain | none => 0) : Rat))
  | 6 => some ((1000000000 : Rat) / (r (match s.unitFmt? (16 + i) with | some f => f.domain | none => 0) : Rat))
  | _ => none

/-- φ reduced to [−P/2, P/2) (R308). -/
def reducePhase (phi : Int) : Option Rat → Int
  | none => phi
  | some p => roundRat ((phi : Rat) - p * ((((phi : Rat) / p + 1 / 2).floor : Int) : Rat))

/-- No slot is selected any more (R307): HOLDOVER while the history is valid or where MODE asks for it, else FREERUN. Slewing
stops and the offset that is left is held (R308). -/
def State.clvLose (s : State) : State :=
  let st := if s.fld R.CLV_STATE_HIST_VALID = 1 ∨ s.clvMode = 2 then 3 else 0
  let s1 := ((s.setFld R.CLV_STATE_SELECTED 0x1F).setFld R.CLV_STATE_STATE st).setFld R.CLV_STATE_SLEWING 0
  let s2 := if s.fld R.CLV_STATE_STATE = st then s1 else s1.raise R.CLV_INT_STATUS_HOLDOVER
  let s3 := if st = 3 ∧ s.fld R.CLV_STATE_STATE ≠ 3 then s2.setFld R.CLV_HOLD_SECONDS_S 0 else s2
  if s.clvSel.isSome then s3.raise R.CLV_INT_STATUS_SELECT else s3

/-- A newly selected slot takes over with measured phase φ (R308). -/
def State.clvTake (s : State) (n : Nat) (phi : Int) : State :=
  let s1 := ((s.setFld R.CLV_STATE_SELECTED n).setFld R.CLV_STATE_STATE 1).refHist (R.CLV_REF_HIST_SELECTED n)
  let s2 := s1.clvAbsorb n (reducePhase phi (s1.refPeriod n))
  let s3 := if s.fld (R.CLV_REF_CFG_TYPE n) = 1 then s2.setFld R.TU_CTRL_SYS_INST (s.fld (R.CLV_REF_CFG_INDEX n)) else s2
  s3.raise R.CLV_INT_STATUS_SELECT

/-- Carry out a selection at the boundary after it was decided (R305, R307, R308). -/
def State.clvSwitch (s : State) (phi : Int) : State :=
  match s.clv.want with
  | none => s
  | some (w, at0) =>
    if at0 < s.blk.seq then
      let s1 := { s with clv := { s.clv with want := none } }
      match w with
      | none => s1.clvLose
      | some n => s1.clvTake n phi
    else s

/-! ### Registers and commands (R308, R311, R319) -/

/-- A slot's ENABLE, RANK and WTR_S are written (R303, R311): ENABLE 0 makes it UNUSED, ENABLE 1 starts it in LOS; a change
of WTR_S restarts a running WAIT. -/
def State.refCtrl (s : State) (n enable rank wtr : Nat) : State :=
  let old := s.wtr n
  let s1 := ((s.setFld (R.CLV_REF_CTRL_ENABLE n) enable).setFld (R.CLV_REF_CTRL_RANK n) rank).setFld (R.CLV_REF_CTRL_WTR_S n) wtr
  let s2 := if s1.wtr n ≠ old ∧ s1.refState n = 3 then s1.setFld (R.CLV_REF_STATE_WTR_LEFT n) (s1.wtr n) else s1
  if enable = 0 then s2.setRef n 0
  else if s2.refState n = 0 ∧ s2.fld (R.CLV_REF_CFG_TYPE n) ≠ 0 then s2.setRef n 1 else s2

/-- MODE, NONREVERT, PHASE_HOLD and FORCE_SLOT are written; a change of PHASE_HOLD acts on the offset that is left (R308). -/
def State.clvCtrl (s : State) (mode nonrevert hold force : Nat) : State :=
  let s1 := (((s.setFld R.CLV_CTRL_MODE mode).setFld R.CLV_CTRL_NONREVERT nonrevert).setFld R.CLV_CTRL_PHASE_HOLD hold).setFld
    R.CLV_CTRL_FORCE_SLOT force
  let s2 := s1.setFld R.CLV_STATE_MODE s1.clvMode
  if hold = s.fld R.CLV_CTRL_PHASE_HOLD then s2
  else s2.setFld R.CLV_STATE_SLEWING (flag (decide (hold = 0 ∧ s.fld R.CLV_ABSORB_NS_NS ≠ 0 ∧ s.clvSel.isSome = true)))

/-- Discard a Clave command (R311). -/
def State.clvReject (s : State) : State := s.bump R.CLV_CMD_REJECT_COUNT

/-- Apply one Clave command or held register write at its boundary (R311). CLV_MODE names the slot of FORCE_SLOT, whatever its MODE. -/
def State.clvApply (s : State) (c : Cmd) : Nat × State :=
  match c with
  | .clvMode mode force phase =>
    if mode ≤ 2 ∧ force ≤ 15 ∧ (phase ≤ 1 ∨ phase = 0xFF) ∧ s.fld (R.CLV_REF_CFG_TYPE force) ≠ 0 then
      (0, s.clvCtrl mode (s.fld R.CLV_CTRL_NONREVERT) (if phase = 0xFF then s.fld R.CLV_CTRL_PHASE_HOLD else phase) force)
    else (2, s.clvReject)
  | .clvRefSet n enable rank wtr =>
    if n ≤ 15 ∧ s.fld (R.CLV_REF_CFG_TYPE n) ≠ 0 ∧ (enable ≤ 1 ∨ enable = 0xFF) ∧ (rank ≤ 15 ∨ rank = 0xFF) ∧
        (wtr ≤ 3600 ∨ wtr = 0xFFFF) then
      (0, s.refCtrl n (if enable = 0xFF then s.fld (R.CLV_REF_CTRL_ENABLE n) else enable)
        (if rank = 0xFF then s.fld (R.CLV_REF_CTRL_RANK n) else rank)
        (if wtr = 0xFFFF then s.fld (R.CLV_REF_CTRL_WTR_S n) else wtr))
    else (2, s.clvReject)
  | .regWrite a v =>
    let x := v.toNat
    if a = 0x140D0004 then (0, s.clvCtrl (bits x 7 6) (bit x 5) (bit x 4) (bits x 3 0))
    else (0, s.refCtrl ((a - 0x140D0104) / 0x20) (bit x 31) (bits x 27 24) (bits x 11 0))
  | _ => (2, s)

/-! ### The base clock (R310) -/

/-- Rebase every frequency by `d`, and discard the gates in progress (R310). -/
def State.rebaseAll (s : State) (d : Int) : State :=
  let add := fun (s : State) (f : Fld) => s.setFld f (codeS 32 (ofCodeS 32 (s.fld f) + d))
  let s1 := (List.range 16).foldl (fun s n => add (add s (R.CLV_REF_FREQ_100MS_F n)) (R.CLV_REF_FREQ_1S_F n)) s
  let s2 := [R.CLV_OUT_FREQ_FREQ, R.CLV_HOLD_FREQ_FREQ, R.PLL_FRAC_FREQ 1, R.PLL_FRAC_FREQ 2].foldl add s1
  { s2 with clv := { s2.clv with
    hLive := s2.clv.hLive + d, line := s2.clv.line.map (· + (d : Rat)), skipShort := true, skipLong := true } }

/-! ### Word clocks (R313, R314) -/

/-- The RWS fields of a word-clock output (R314). -/
def wcSetFlds (n : Nat) : List Fld :=
  [R.CLV_WC_CFG_ENABLE n, R.CLV_WC_CFG_DOMAIN_B n, R.CLV_WC_CFG_RATIO n, R.CLV_WC_CFG_ALIGN n, R.CLV_WC_CFG_PULSE n,
   R.CLV_WC_CFG_WIDTH_NS n, R.CLV_WC_OFFSET_NS n]

/-- The consistency check of a word-clock output's set (R314): the first cause of the table that holds; RATIO 3, for which no period is
defined, comes before the two that compare with the period. -/
def State.wcCheck (s : State) (n : Nat) (set : Tbl Nat) : Nat :=
  let v := fun (f : Fld) => Tbl.get set f.key f.rst
  let rb := match s.cfg with | none => 0 | some c => rateBHz c.sys.rateB
  let ra := match s.cfg with | none => 1 | some c => rateAHz c.sys.rateA
  let db := v (R.CLV_WC_CFG_DOMAIN_B n)
  let rate := if db = 1 then rb else ra
  let per : Rat := (1000000000 * 2 ^ v (R.CLV_WC_CFG_RATIO n) : Nat) / (max 1 rate : Nat)
  let w := v (R.CLV_WC_CFG_WIDTH_NS n)
  let off := ofCodeS 32 (v (R.CLV_WC_OFFSET_NS n))
  if db = 1 ∧ rb = 0 then 1
  else if v (R.CLV_WC_CFG_RATIO n) = 3 then 4
  else if v (R.CLV_WC_CFG_PULSE n) = 1 ∧ (w < 8 ∨ per - 8 ≤ (w : Rat)) then 2
  else if per ≤ 2 * (off.natAbs : Rat) then 3
  else 0

/-- Write CLV_WC_ERR's code of output `n`. -/
def State.setWcErr (s : State) (n code : Nat) : State :=
  let e := s.fld R.CLV_WC_ERR_CODE
  s.setFld R.CLV_WC_ERR_CODE (e - bits e (4 * n + 3) (4 * n) * 2 ^ (4 * n) + code % 16 * 2 ^ (4 * n))

/-- A word-clock output starts in its new configuration (R313, R314). -/
def State.wcStart (s : State) (n : Nat) : State :=
  s.setFld (R.CLV_WC_STATE_ALIGN_STATE n) (s.inForce (R.CLV_WC_CFG_ENABLE n))

/-- An alignment edge of a word-clock output (R313): its error in ps, none where 2 expected edges were missed. -/
def State.wcAlign (s : State) (n : Nat) (err : Option Int) : State :=
  if n < 4 ∧ s.inForce (R.CLV_WC_CFG_ENABLE n) = 1 then
    match err with
    | none => if s.inForce (R.CLV_WC_CFG_ALIGN n) = 0 then s else s.setFld (R.CLV_WC_STATE_ALIGN_STATE n) 3
    | some e =>
      let half : Nat := if s.inForce (R.CLV_WC_CFG_DOMAIN_B n) = 1 then 1730 else 1589
      let s1 := s.setFld (R.CLV_WC_ERR_NS_NS n) (codeS 32 (roundDiv e 1000))
      if 10 * e.natAbs ≤ half then s1.setFld (R.CLV_WC_STATE_ALIGN_STATE n) 2
      else (s1.setFld (R.CLV_WC_STATE_ALIGN_STATE n) 1).emit (.wcStep n (decide (e < 0)))
  else s

/-! ### A load and a swap (R299, R312) -/

/-- A slot takes its record (R303): it starts in LOS; one that was QUALIFIED has left that state. -/
def State.refTake (s : State) (n : Nat) (r : RefRec) : State :=
  let s1 := (((s.setFld (R.CLV_REF_CFG_TYPE n) r.type).setFld (R.CLV_REF_CFG_INDEX n) r.index).setFld (R.CLV_REF_CFG_BW n) r.bw).setFld
    (R.CLV_REF_CFG_DOMAIN n) r.domainB
  let s2 := (s1.setFld (R.CLV_REF_THRESH_HARD_PPB n) r.hardPpb).setFld (R.CLV_REF_THRESH_SOFT_PPB n) r.softPpb
  let s3 := if s.refState n = 4 then s2.bump (R.CLV_REF_LOSS_COUNT_COUNT n) else s2
  let s4 := (((s3.setFld (R.CLV_REF_STATE_SOFT n) 0).setFld (R.CLV_REF_STATE_STATE n) (if r.type = 0 then 0 else 1)).setFld
    (R.CLV_REF_STATE_WTR_LEFT n) 0).setClvSlot n { ClvSlot.fresh with qualified := (s.clvSlot n).qualified }
  if r.type = 0 then s4 else s4.refHist (R.CLV_REF_HIST_LOS n)

/-- The values of CLV_REF_CTRL that every slot takes from a plane (R312, R319). -/
def State.refCtrlTake (s : State) (n : Nat) (r : RefRec) : State := s.refCtrl n (flag (decide (r.type ≠ 0))) r.rank r.wtrS

/-- CLV_CTRL and CLV_SLEW from a plane (R299, R312). -/
def State.clvCtrlTake (s : State) (k : ClockRec) : State :=
  (s.clvCtrl k.mode k.nonrevert k.phaseHold k.forceSlot).setFld R.CLV_SLEW_PPB k.slewPpb

/-- A word-clock output takes its record, with the shadow at the value in force. -/
def State.wcTake (s : State) (n : Nat) (r : WcRec) : State :=
  let vs := [flag r.enable, r.domainB, r.ratio, r.align, r.pulse, r.widthNs, codeS 32 r.offsetNs]
  ((wcSetFlds n).zip vs).foldl (fun s p => (s.setFld p.1 p.2).setForce p.1 p.2) s |>.wcStart n

/-- A peal load (R303, R307, R319): slots in LOS, no history, FREERUN; without LO_IN the base is the crystal. -/
def State.clvLoad (s : State) (k : ClockRec) : State :=
  let s0 := { s with clv := ⟨[], none, 0, [], 0, 0, 0, false, false, false, 0⟩ }
  let s1 := (k.refs.zipIdx).foldl (fun s p => ((s.refTake p.2 p.1).refCtrlTake p.2 p.1)) s0
  let s2 := ((((s1.clvCtrlTake k).setFld R.CLV_TC1_TC1 (codeS 32 k.tc1)).setFld R.CLV_TC2_TC2 (codeS 32 k.tc2)).setFld
    R.CLV_AGEING_AGEING (codeS 32 k.ageing)).setFld R.CLV_STATE_BASE_XO (flag (decide (k.loHz = 0)))
  let s3 := (((s2.setFld R.CLV_STATE_STATE 0).setFld R.CLV_STATE_SELECTED 0x1F).setFld R.CLV_STATE_HIST_VALID 0).setFld
    R.CLV_STATE_HIST_FROZEN 0
  (k.wcs.zipIdx).foldl (fun s p => s.wcTake p.2 p.1) s3

/-- The values in force of a word-clock output are those of a record. -/
def State.wcHas (s : State) (n : Nat) (r : WcRec) : Bool :=
  (wcSetFlds n).map s.inForce == [flag r.enable, r.domainB, r.ratio, r.align, r.pulse, r.widthNs, codeS 32 r.offsetNs]

/-- A swap (R30, R312): unchanged slots keep their state, changed ones restart in LOS; a lost selection is made anew at S. Word clocks run by
the new plane from S. -/
def State.clvSwap (s : State) (old new : ClockRec) : State :=
  let s1 := (new.refs.zipIdx).foldl (fun s p =>
    let s' := if old.refs[p.2]? = some p.1 then s else s.refTake p.2 p.1
    s'.refCtrlTake p.2 p.1) s
  let s2 := s1.clvCtrlTake new
  let s3 := ((s2.setFld R.CLV_TC1_TC1 (codeS 32 new.tc1)).setFld R.CLV_TC2_TC2 (codeS 32 new.tc2)).setFld
    R.CLV_AGEING_AGEING (codeS 32 new.ageing)
  let s4 := (new.wcs.zipIdx).foldl (fun s p => if s.wcHas p.2 p.1 then s else s.wcTake p.2 p.1) s3
  match s4.clvSel with
  | some n => if s4.refState n = 4 then s4 else s4.clvReselect
  | none => s4

/-! ### The commands -/

def execClvGateEnd (long : Bool) (fs : List (Option Int)) (temp xo : Int) (s : State) : Host.Outcome State Fault Refusal :=
  .next (s.clvGateEnd long fs temp xo)

def execClvSwitch (phi : Int) (s : State) : Host.Outcome State Fault Refusal := .next (s.clvSwitch phi)

/-- A reference meets its loss-of-signal condition (R301, R303). -/
def execClvRefLos (slot : Nat) (s : State) : Host.Outcome State Fault Refusal :=
  if slot < 16 ∧ 1 ≤ s.refState slot ∧ s.refLost slot then
    .next ((s.setClvSlot slot { s.clvSlot slot with clear := 0, losShort := true, losLong := true }).setRef slot 1)
  else .next s

/-- A slot's wait to restore ends (R303). -/
def execClvWtrExpiry (slot : Nat) (s : State) : Host.Outcome State Fault Refusal :=
  if slot < 16 ∧ s.refState slot = 3 ∧ s.fld (R.CLV_REF_STATE_WTR_LEFT slot) = 0 then .next (s.setRef slot 4) else .next s

/-- The history thaws when the selected slot is LOCKED without SOFT (R309). -/
def State.clvThaw (s : State) : State :=
  match s.clvSel with
  | some n => if s.fld (R.CLV_REF_STATE_SOFT n) = 0 then s.setFld R.CLV_STATE_HIST_FROZEN 0 else s
  | none => s

/-- The phase error stays within ±50 ns for 1 s (R307). -/
def execClvLock (s : State) : Host.Outcome State Fault Refusal :=
  if s.fld R.CLV_STATE_STATE = 1 then .next ((s.setFld R.CLV_STATE_STATE 2).raise R.CLV_INT_STATUS_LOCKED).clvThaw else .next s

/-- The absorbed offset reaches 0 (R308). -/
def execClvSlewDone (s : State) : Host.Outcome State Fault Refusal :=
  if s.fld R.CLV_STATE_SLEWING = 1 then .next s.slewEnd else .next s

/-- LO_IN stops (R310): the base switches to the crystal. -/
def execLoInLost (s : State) : Host.Outcome State Fault Refusal :=
  if s.fld R.CLV_STATE_BASE_XO = 0 then
    .next (((s.rebaseAll (-(ofCodeS 32 (s.fld R.CLV_XO_FREQ_FREQ)))).setFld R.CLV_STATE_BASE_XO 1).raise R.CLV_INT_STATUS_LO_LOST)
  else .next { s with clv := { s.clv with measuring := false } }

/-- LO_IN returns (R310), where the plane says one is fitted: its measurement begins. -/
def execLoInReturn (s : State) : Host.Outcome State Fault Refusal :=
  let fitted := match s.cfg with | none => false | some c => decide (c.clock.loHz ≠ 0)
  if s.fld R.CLV_STATE_BASE_XO = 1 ∧ fitted = true then .next { s with clv := { s.clv with measuring := true } } else .next s

/-- LO_IN becomes the base again after 10 s of measurement (R310). -/
def execLoInRestore (s : State) : Host.Outcome State Fault Refusal :=
  if s.fld R.CLV_STATE_BASE_XO = 1 ∧ s.clv.measuring then
    let s1 := (s.rebaseAll (ofCodeS 32 (s.fld R.CLV_XO_FREQ_FREQ))).setFld R.CLV_STATE_BASE_XO 0
    .next { s1 with clv := { s1.clv with measuring := false } }
  else .next s

def execClvMode (mode forceSlot phase : Nat) (s : State) : Host.Outcome State Fault Refusal :=
  .next (s.clvApply (.clvMode mode forceSlot phase)).2

def execClvRefSet (slot enable rank wtr : Nat) (s : State) : Host.Outcome State Fault Refusal :=
  .next (s.clvApply (.clvRefSet slot enable rank wtr)).2

def execWclkAlignEdge (n : Nat) (errPs : Option Int) (s : State) : Host.Outcome State Fault Refusal := .next (s.wcAlign n errPs)

/-- The alignment input of a word-clock output has missed 2 expected edges (R313): the phase is kept. -/
def execWclkInputMissed (n : Nat) (s : State) : Host.Outcome State Fault Refusal := .next (s.wcAlign n none)

end Sys2Proof.Machine
end

