-- ==== Sys2Proof/Machine/DelayPool.lean ====
section
/-! DEFINITION. The delay pool (R194-R214): lines held in DRAM, taps, crossfades, commands, the scrubber. -/

namespace Sys2Proof.Machine

/-- Line `l` beside its table entry. -/
def State.lineSt (s : State) (l : Nat) : DplLine := Tbl.get s.dpl.lines l .empty

/-- Write line `l`. -/
def State.setLine (s : State) (l : Nat) (x : DplLine) : State :=
  { s with dpl := { s.dpl with lines := Tbl.set s.dpl.lines l .empty x } }

/-- The record of line `l` in the live plane. -/
def State.lineRec? (s : State) (l : Nat) : Option LineRec := s.cfg.bind (fun c => c.line? l)

/-- Whether a delay is valid for a capacity (R199). -/
def delayValid (cap d : Nat) : Bool := decide (d / 64 + 4 ≤ cap ∧ (d % 64 = 0 ∨ 3 ≤ d / 64))

/-- The length of a crossfade code (R202). -/
def xfLen (xf : Nat) : Nat := 16 * 2 ^ xf

/-! ### Storage and taps (R197, R199, R201) -/

/-- The DRAM address of sample `i` of a line's history (R197). -/
def sampleAddr (r : LineRec) (i : Nat) : Nat :=
  let u := lineUnits r.capacity
  r.base + 64 * (i % (21 * u) / 21) + 3 * (i % 21)

/-- Write sample `i` of a line's history; byte 63 of its unit is 0 (R197). -/
def State.putSample (s : State) (r : LineRec) (i : Nat) (x : Int) : State :=
  let bs := (leBytes 3 (codeS 24 x)).map some
  let m := s.mem.dramWrite (sampleAddr r i) bs
  { s with mem := m.dramWrite (sampleAddr r i / 64 * 64 + 63) [some 0] }

/-- Sample `i` of a line as a tap reads it (R201, R211): samples older than the start point read 0, and so do all samples
of a unit with an uncorrectable error. -/
def State.readSample (s : State) (r : LineRec) (start i : Nat) : Int :=
  let a := sampleAddr r i
  if i < start then 0
  else if (s.mem.firstBad (a / 64 * 64) 64).isSome then 0
  else ofCodeS 24 (leNat (s.mem.dramRead a 3))

/-- Sample `n - d` of a line; samples before the first read 0. -/
def State.readBack (s : State) (r : LineRec) (start n d : Nat) : Int :=
  if n < d then 0 else s.readSample r start (n - d)

/-- A tap's output for sample `n` at delay `d` (R199), and whether it saturated. -/
def State.tap (s : State) (r : LineRec) (start n d : Nat) : Int × Bool :=
  let w := d / 64
  let phase := d % 64
  if phase = 0 then (s.readBack r start n w, false)
  else
    let sum := (List.range 8).foldl (fun a t => if w + t < 3 then a
      else a + (Config.delayRom phase t).toInt * s.readBack r start n (w + t - 3)) 0
    let y := (sum + (2 ^ 22 : Nat)) / (2 ^ 23 : Nat)
    (satS 24 y, decide (satS 24 y ≠ y))

/-- The samples of a line's history that a tap at delay `d` reads for sample `n` (R199, R201): none older than the start point. -/
def tapSamples (start n d : Nat) : List Nat :=
  let w := d / 64
  let back := if d % 64 = 0 then [w] else ((List.range 8).filter (fun t => decide (3 ≤ w + t))).map (fun t => w + t - 3)
  (back.filter (fun b => decide (b ≤ n ∧ start ≤ n - b))).map (fun b => n - b)

/-- Count the uncorrectable errors in the units that the taps of line `l` read, given the samples they read (R211). -/
def State.countBadUnits (s : State) (r : LineRec) (xs : List Nat) : State :=
  ((xs.map (fun i => sampleAddr r i / 64)).dedup.flatMap (fun u => s.mem.badWords (64 * u) 64)).foldl
    (fun s w => ((s.countUe w).setFld R.DPL_ECC_LAST_LINE_VALID 1).setFld R.DPL_ECC_LAST_LINE_LINE r.line) s

/-- The state code a line's table entry shows (R201, R214). -/
def State.lineState (s : State) (l : Nat) : Nat :=
  let x := s.lineSt l
  if x.fade.isSome then 3
  else if x.written = 0 then 0
  else if x.written < x.start + s.fld (R.DPL_LINE1_DELAY l) / 64 + 4 then 1
  else 2

/-! ### Changing a delay (R202, R203) -/

/-- A delay value that applies to line `l` (R202, R203): it starts a crossfade, or becomes the pending value. -/
def State.setDelay (s : State) (l d len : Nat) : State :=
  let x := s.lineSt l
  if x.fade.isSome then
    let s1 := if s.fld (R.DPL_LINE0_PENDING l) = 1 then
      s.countAndRaise R.DPL_DELAY_DEFER_COUNT R.DPL_INT_STATUS_DELAY_DEFER else s
    ((s1.setFld (R.DPL_LINE0_PENDING l) 1).setFld (R.DPL_LINE2_PEND l) d).setLine l { x with pendLen := len }
  else if d = s.fld (R.DPL_LINE1_DELAY l) then s
  else (s.setLine l { x with fade := some (s.fld (R.DPL_LINE1_DELAY l), 0, len) }).setFld (R.DPL_LINE1_DELAY l) d

/-- The end of a line's fade (R202): tap A closes. -/
def State.endDelayFade (s : State) (l : Nat) : State := s.setLine l { s.lineSt l with fade := none }

/-- Whether a line's fade has reached k = L. -/
def DplLine.fadeAtEnd (x : DplLine) : Bool :=
  match x.fade with
  | none => false
  | some (_, k, len) => decide (len ≤ k)

/-- The pending value of a line whose fade has ended applies (R203). -/
def State.applyPending (s : State) (l : Nat) : State :=
  if s.fld (R.DPL_LINE0_PENDING l) = 1 ∧ (s.lineSt l).fade = none then
    let d := s.fld (R.DPL_LINE2_PEND l)
    (((s.setFld (R.DPL_LINE0_PENDING l) 0).setFld (R.DPL_LINE2_PEND l) 0)).setDelay l d (s.lineSt l).pendLen
  else s

/-- Discard a delay command or entry (R204). -/
def State.dplReject (s : State) : State := s.countAndRaise R.DPL_CMD_REJECT_COUNT R.DPL_INT_STATUS_CMD_REJECT

/-- Count skipped entries (R204). -/
def State.dplRejectEntries (s : State) : Nat → State
  | 0 => s
  | n + 1 => s.dplReject.dplRejectEntries n

/-- A delay command applied after its stamp (R203). -/
def State.dplLate (s : State) : State := s.countAndRaise R.DPL_CMD_LATE_COUNT R.DPL_INT_STATUS_CMD_LATE

/-- Whether the live plane has lines. -/
def State.dplPresent (s : State) : Bool := match s.cfg with | none => false | some c => c.lines != []

/-- Whether a crossfade code is in range (R204). -/
def xfOk (xf : Nat) : Bool := decide (xf ≤ 7 ∨ xf = 0xFF)

/-- Whether (line, delay) may be applied: the line is defined and the delay valid. -/
def State.delayOk (s : State) (l d : Nat) : Bool :=
  match s.lineRec? l with | none => false | some r => delayValid r.capacity d

/-- The crossfade length of a code on a line (R202). -/
def State.xfOf (s : State) (l xf : Nat) : Nat := xfLen (if xf = 0xFF then s.fld (R.DPL_LINE0_XF l) else xf)

/-- Apply one delay command at its boundary (R203, R204): `none` where it waits for its list; otherwise its status and the
state after. -/
def State.dplApply (s : State) (c : Cmd) (f : Fetch) : Option (Nat × State) :=
  let discard := some (2, s.dplReject)
  match c with
  | .delaySet l xf d =>
    if s.dplPresent && xfOk xf && s.delayOk l d then some (0, s.setDelay l d (s.xfOf l xf)) else discard
  | .delayList count xf addr =>
    if s.dplPresent && xfOk xf && decide (1 ≤ count ∧ count ≤ 2048 ∧ addr % 8 = 0) then
      match f with
      | .done bs =>
        let es := (List.range count).map (fun k => (leAt bs (8 * k) 2, leAt bs (8 * k + 4) 4))
        let ok := es.filter (fun e => s.delayOk e.1 e.2)
        some (0, (ok.foldl (fun s e => s.setDelay e.1 e.2 (s.xfOf e.1 xf)) s).dplRejectEntries (es.length - ok.length))
      | .failed => discard
      | _ => none
    else discard
  | _ => some (2, s)

/-- The change a write of DPL_DELAY_SET carries to the selected line (R203, R214). -/
def State.delayRegCmd (s : State) (v : Word) : Cmd :=
  .delaySet (s.fld R.DPL_LINE_SEL_LINE) (if bit v.toNat 28 = 1 then 0xFF else bits v.toNat 31 29) (bits v.toNat 25 0)

/-- A write of DPL_DELAY_SET (R203). -/
def State.delaySetWrite (s : State) (v : Word) : State :=
  (s.hold (heldOf .dpl (s.delayRegCmd v) .notNeeded)).setFld R.DPL_DELAY_SET_XF (bits v.toNat 31 29)
    |>.setFld R.DPL_DELAY_SET_XF_LINE (bit v.toNat 28)

/-! ### A part's work (R198, R199, R202) -/

/-- The lines of part `p` (R198). -/
def Cfg.partLines (c : Cfg) (p parts : Nat) : List LineRec :=
  c.lines.filter (fun r => decide (2048 * p / parts ≤ r.line ∧ r.line < 2048 * (p + 1) / parts))

/-- A line's sample `j` of a block whose first sample is `n` (R199, R202). -/
def State.lineSample (s : State) (r : LineRec) (n j : Nat) : Int × Bool :=
  let x := s.lineSt r.line
  let d := s.fld (R.DPL_LINE1_DELAY r.line)
  let b := s.tap r x.start (n + j) d
  match x.fade with
  | none => b
  | some (old, k, len) =>
    if k + j + 1 ≤ len then
      let a := s.tap r x.start (n + j) old
      (fadeMix a.1 b.1 (k + j + 1) len, a.2 || b.2)
    else b

/-- The history samples that a line's open taps read for the `len` samples of a block whose first is `n` (R199, R202). -/
def State.lineReads (s : State) (r : LineRec) (n len : Nat) : List Nat :=
  let x := s.lineSt r.line
  (List.range len).flatMap (fun j => tapSamples x.start (n + j) (s.fld (R.DPL_LINE1_DELAY r.line)) ++
    (match x.fade with
      | some (old, k, l) => if k + j + 1 ≤ l then tapSamples x.start (n + j) old else []
      | none => []))

/-- Run one line on data block `k`: its input is written to DRAM, then its taps are read. -/
def State.runLine (s : State) (c : Cfg) (k : Nat) (r : LineRec) : State :=
  let n := c.blockLen
  let x := s.lineSt r.line
  let s1 := (List.range n).foldl (fun s j => s.putSample r (x.written + j) ((s.bus k r.inBus).at j)) s
  let ys := (List.range n).map (fun j => s1.lineSample r x.written j)
  let s2 := (s1.writeBus c k r.outBus (ys.map (·.1))).setLine r.line
    { x with written := x.written + n, fade := x.fade.map (fun p => (p.1, min (p.2.1 + n) p.2.2, p.2.2)) }
  let s3 := s2.countBadUnits r (s1.lineReads r x.written n)
  if ys.any (·.2) then (s3.setFld (R.DPL_LINE0_CLIP r.line) 1).raise R.DPL_INT_STATUS_CLIP else s3

/-- Run delay part `p` on data block `k`. -/
def State.dplRunPart (s : State) (c : Cfg) (parts k p : Nat) : State :=
  (c.partLines p parts).foldl (fun s r => s.runLine c k r) s

/-- A part whose block was not run (R201, R202): its lines start anew after the gap, and running fades end. -/
def State.dplSkipPart (s : State) (c : Cfg) (parts p : Nat) : State :=
  (c.partLines p parts).foldl (fun s r =>
    let x := s.lineSt r.line
    s.setLine r.line { x with start := x.written, fade := none }) s

/-- The delay pool's boundary at a token (R203, R208, R210, R214): fades that ended are closed, pending values apply, and
the counts of the past block are taken. How many accesses and conflicts a block had is not stated: free values, the
accesses never above PLAN (R208). -/
def State.dplBoundary (s : State) : State :=
  let s1 := (s.dpl.lines.filter (fun e => e.2.fadeAtEnd)).foldl (fun s e => s.endDelayFade e.1) s
  let s2 := (s1.dpl.lines.map (·.1)).foldl (fun s l => s.applyPending l) s1
  let u := s2.fresh
  let use := u.1 % (s2.fld R.DPL_RT_BUDGET_PLAN + 1)
  let s3 := (u.2.setFld R.DPL_RT_USE_LAST use).peak R.DPL_RT_USE_PEAK use
  let v := s3.fresh
  let s4 := (v.2.setFld R.DPL_CONFLICT_RATE_LAST (v.1 % 2 ^ 16)).peak R.DPL_CONFLICT_RATE_PEAK (v.1 % 2 ^ 16)
  { s4 with dpl := { s4.dpl with rtUsed := [] } }

/-- The accesses of 64 bytes that `n` bytes at `a` take. -/
def unitsOf (a n : Nat) : Nat := if n = 0 then 0 else (a + n - 1) / 64 - a / 64 + 1

/-- `n` accesses of a cluster's DMA into region `r` with REAL_TIME set (R210): those beyond its share are counted, and the first excess
of a block sets RT_EXCESS. -/
def State.shareUse (s : State) (r : RegionRec) (n : Nat) : State :=
  let before := Tbl.get s.dpl.rtUsed r.region 0
  let after := before + n
  let s1 := { s with dpl := { s.dpl with rtUsed := Tbl.set s.dpl.rtUsed r.region 0 after } }
  if after ≤ r.rtAccesses then s1
  else
    let s2 := s1.bump R.DPL_RT_EXCESS_COUNT (after - max before r.rtAccesses)
    if before ≤ r.rtAccesses then s2.raise R.DPL_INT_STATUS_RT_EXCESS else s2

/-- The `n` bytes at `a` that a cluster's DMA has read or written (R210): each region of the cluster takes the accesses that fall into it. -/
def State.regionAccess (s : State) (cluster a n : Nat) : State :=
  match s.cfg with
  | none => s
  | some c => (c.regions.filter (fun r => r.realTime && r.cluster == cluster)).foldl (fun s r =>
      let lo := max a r.base
      let k := unitsOf lo (min (a + n) (r.base + r.size) - lo)
      if k = 0 then s else s.shareUse r k) s

/-! ### A plane swap (R205) -/

/-- Whether two records are the same line (R205). -/
def sameLine (a b : LineRec) : Bool := a.line == b.line && a.base == b.base && a.capacity == b.capacity

/-- Write a line's table entry from its record. -/
def State.lineEntry (s : State) (r : LineRec) : State :=
  (((s.setFld (R.DPL_LINE0_PRESENT r.line) 1).setFld (R.DPL_LINE0_XF r.line) (r.flags % 8)).setFld
    (R.DPL_LINE0_UNITS r.line) (lineUnits r.capacity)).setFld (R.DPL_LINE3_BASE r.line) r.base

/-- Clear a line's table entry. -/
def State.clearLineEntry (s : State) (l : Nat) : State :=
  s.clearFlds [R.DPL_LINE0_PRESENT l, R.DPL_LINE0_PENDING l, R.DPL_LINE0_CLIP l, R.DPL_LINE0_XF l, R.DPL_LINE0_UNITS l,
    R.DPL_LINE1_DELAY l, R.DPL_LINE2_PEND l, R.DPL_LINE3_BASE l]

/-- A line that a peal load or a swap creates (R201, R205). -/
def State.newLine (s : State) (r : LineRec) : State :=
  (((s.clearLineEntry r.line).lineEntry r).setLine r.line .empty).setFld (R.DPL_LINE1_DELAY r.line) r.delay

/-- The lines that `new` adds, or whose BASE or CAPACITY it changes (R205). -/
def newLines (old new : Cfg) : List LineRec :=
  new.lines.filter (fun r => match old.line? r.line with | none => true | some o => !sameLine o r)

/-- A line that fills between arming block A and S takes data block `k` of its input (R57). -/
def State.fillLine (s : State) (n k : Nat) (r : LineRec) : State :=
  let x := Tbl.get s.dpl.filling r.line .empty
  let s1 := (List.range n).foldl (fun s j => s.putSample r (x.written + j) ((s.bus k r.inBus).at j)) s
  { s1 with dpl := { s1.dpl with filling := Tbl.set s1.dpl.filling r.line .empty { x with written := x.written + n } } }

/-- A new line at S: with the samples it has filled with (R57, R201). -/
def State.filledLine (s : State) (r : LineRec) : State :=
  (s.newLine r).setLine r.line (Tbl.get s.dpl.filling r.line .empty)

/-- Boundary S (R64, R205): the same lines keep their history and fades, and move to the image's DELAY by a crossfade
unless HOT_CARRY is set; other lines are new, with what they filled with since arming. -/
def State.dplSwap (s : State) (old new : Cfg) : State :=
  let gone := old.lines.filter (fun r => !(new.lines.any (fun q => q.line == r.line)))
  let s1 := gone.foldl (fun s r => (s.clearLineEntry r.line).setLine r.line .empty) s
  new.lines.foldl (fun s r =>
    match old.line? r.line with
    | none => s.filledLine r
    | some o =>
      if sameLine o r then
        let s2 := s.lineEntry r
        if 0x40 ∈ new.hotCarry then s2 else s2.setDelay r.line r.delay (xfLen (r.flags % 8))
      else s.filledLine r) s1

/-- The counters DPL_COUNT_CLEAR clears (R214). -/
def dplCounts : List Fld := [R.DPL_ECC_CE_COUNT, R.DPL_ECC_UE_COUNT, R.DPL_ECC_LAST_ADDR, R.DPL_ECC_LAST_LINE_VALID,
  R.DPL_ECC_LAST_LINE_LINE, R.DPL_CONFLICT_RATE_PEAK, R.DPL_CONFLICT_RATE_LAST, R.DPL_RT_EXCESS_COUNT,
  R.DPL_DELAY_DEFER_COUNT, R.DPL_CMD_REJECT_COUNT, R.DPL_CMD_LATE_COUNT, R.DPL_RT_USE_PEAK]

/-- A write of DPL_HASH_SEED (R214): in TEST it replaces the seed, and DRAM contents become undefined. -/
def State.hashSeedWrite (s : State) (v : Word) : State :=
  if s.mode = .test then
    { s with dpl := { s.dpl with seed := v.toNat }, mem := { s.mem with dram := [], dramEpoch := s.mem.dramEpoch + 1 } }
  else s

/-! ### The commands -/

/-- A delay command given as a row: applied at the boundary the delay pool is at, or held for the next one (R203). -/
def State.dplCommand (s : State) (c : Cmd) : State :=
  if s.atBoundary .dpl 4 then
    match s.dplApply c .notNeeded with
    | some r => r.2
    | none => s
  else s.hold (heldOf .dpl c .notNeeded)

def execDelaySet (line xf delay : Nat) (s : State) : Host.Outcome State Fault Refusal :=
  .next (s.dplCommand (.delaySet line xf delay))

/-- Take a DELAY_LIST in: its fetch starts (R204). -/
def execDelayList (count xf addr : Nat) (s : State) : Host.Outcome State Fault Refusal :=
  .next (s.hold (heldOf .dpl (.delayList count xf addr) .running))

/-- A line's fade has reached k = L (R202). -/
def execDelayFadeEnd (line : Nat) (s : State) : Host.Outcome State Fault Refusal :=
  if (s.lineSt line).fadeAtEnd then .next (s.endDelayFade line) else .next s

/-- The scrubber reads a 64-bit word of DRAM (R211, R213), unless PERIOD is 0 or DRAM is off: a corrected error is counted and rewritten;
an uncorrectable one is counted and stays. -/
def State.scrubRead (s : State) (addr : Nat) (err : EccErr) : State :=
  if s.fld R.DPL_SCRUB_CTRL_PERIOD = 0 ∨ s.domainOn 12 = false ∨ 0x10000000 ≤ addr then s
  else
    match err with
    | .none => s
    | .corrected => s.countAndRaise R.DPL_ECC_CE_COUNT R.DPL_INT_STATUS_ECC_CE
    | .uncorrectable => { s with mem := s.mem.markBad (addr / 8) }.countUe (addr / 8)

def execScrubRead (addr : Nat) (err : EccErr) (s : State) : Host.Outcome State Fault Refusal := .next (s.scrubRead addr err)

end Sys2Proof.Machine
end

