-- ==== Sys2Proof/Machine/MalletDecode.lean ====
section
/-! DEFINITION. The encodings of Mallet bundles (R175-R193): a total decoder that answers none for every bundle that is
ILLEGAL at decode (R176). -/

namespace Sys2Proof.Machine

/-- A memory slot: load or store, the register code of R178, the address register, and the post-modify code of R180
(0 none, 1 plus one, 2 minus one, 3 by M_n). -/
structure Slot where
  store : Bool
  reg : Nat
  p : Nat
  mod : Nat
deriving DecidableEq, Repr

/-- The accumulator operations of R190, with their sources. -/
inductive AluOp where
  | nop | zero
  | copy (src : Nat)
  | adds (src k : Nat)
  | subs (src k : Nat)
  | negt (src : Nat)
  | magn (src : Nat)
  | shla (n : Nat)
  | shra (n : Nat)
  | rndh
  | maxs (src : Nat)
  | mins (src : Nat)
  | comp (src : Nat)
  | test
  | and (src : Nat)
  | ior (src : Nat)
  | xor (src : Nat)
  | mul (x y : Nat)
  | mula (x y : Nat)
  | muls (x y : Nat)
deriving DecidableEq, Repr

/-- The dual multiplies of R188. -/
inductive MacOp where
  | mla2 | mlas | mul2 | mls2
deriving DecidableEq, Repr

/-- A bundle (R184-R193). -/
inductive Bundle where
  | nop
  | bra (cc t : Nat)
  | call (cc t : Nat)
  | ret (cc : Nat)
  | jmp (cc p : Nat)
  | callr (cc p : Nat)
  | rtif
  | rtin
  | tend
  | loopi (count la : Nat)
  | loopr (rs la : Nat)
  | leave
  | rpti (n : Nat)
  | rptr (rs : Nat)
  | bsync
  | wait
  | bus (kind p : Nat) (rb : Bool) (pm bus : Nat)
  | mac2 (op : MacOp) (xa ya xb yb acc1 acc2 : Nat) (s1 s2 : Option Slot)
  | alu (op : AluOp) (ad : Nat) (slot : Option Slot) (cc : Nat)
  | ldi (rd imm : Nat)
  | move (rd rs : Nat)
  | addp (p : Nat) (imm : Int)
  | movcFrom (a index : Nat)
  | movcTo (a index : Nat)
  | ldr (reg p mod : Nat)
  | str (reg p mod : Nat)
  | mov2 (s1 : Slot) (s2 : Option Slot)
  | ldl (rd imm : Nat)
  | loopl (count la : Nat)
  | addpl (p imm : Nat)
  | bfly (a acc pair : Nat) (ld st : Option Slot)
  | bexp (s1 s2 : Option Nat)
  | bscale
  | beclr
deriving DecidableEq, Repr

/-- The table rows that a bundle belongs to: one code per mnemonic of the opcode table. -/
inductive MalKind where
  | nop | bra | call | ret | jmp | callr | rtif | rtin | tend | loopi | loopr | loopl | leave | rpti | rptr | bsync | wait
  | bin | binp | bout | mla2 | mlas | mul2 | mls2
  | aluNop | zero | copy | adds | subs | negt | magn | shla | shra | rndh | maxs | mins | comp | test | and | ior | xor
  | mul | mula | muls
  | ldi | ldl | move | addp | addpl | movcFrom | movcTo | ldr | str | mov2 | bfly | bexp | bscale | beclr
deriving DecidableEq, Repr

/-- The row of an accumulator operation. -/
def AluOp.kind : AluOp → MalKind
  | .nop => .aluNop
  | .zero => .zero
  | .copy _ => .copy
  | .adds _ _ => .adds
  | .subs _ _ => .subs
  | .negt _ => .negt
  | .magn _ => .magn
  | .shla _ => .shla
  | .shra _ => .shra
  | .rndh => .rndh
  | .maxs _ => .maxs
  | .mins _ => .mins
  | .comp _ => .comp
  | .test => .test
  | .and _ => .and
  | .ior _ => .ior
  | .xor _ => .xor
  | .mul _ _ => .mul
  | .mula _ _ => .mula
  | .muls _ _ => .muls

/-- The row of a bundle. -/
def Bundle.kind : Bundle → MalKind
  | .nop => .nop
  | .bra _ _ => .bra
  | .call _ _ => .call
  | .ret _ => .ret
  | .jmp _ _ => .jmp
  | .callr _ _ => .callr
  | .rtif => .rtif
  | .rtin => .rtin
  | .tend => .tend
  | .loopi _ _ => .loopi
  | .loopr _ _ => .loopr
  | .leave => .leave
  | .rpti _ => .rpti
  | .rptr _ => .rptr
  | .bsync => .bsync
  | .wait => .wait
  | .bus k _ _ _ _ => if k = 0 then .bin else if k = 1 then .binp else .bout
  | .mac2 op .. => match op with | .mla2 => .mla2 | .mlas => .mlas | .mul2 => .mul2 | .mls2 => .mls2
  | .alu op _ _ _ => op.kind
  | .ldi _ _ => .ldi
  | .move _ _ => .move
  | .addp _ _ => .addp
  | .movcFrom _ _ => .movcFrom
  | .movcTo _ _ => .movcTo
  | .ldr _ _ _ => .ldr
  | .str _ _ _ => .str
  | .mov2 _ _ => .mov2
  | .ldl _ _ => .ldl
  | .loopl _ _ => .loopl
  | .addpl _ _ => .addpl
  | .bfly .. => .bfly
  | .bexp _ _ => .bexp
  | .bscale => .bscale
  | .beclr => .beclr

/-- Whether a bundle must not stand in a delay slot or under RPT (R153, R155). -/
def Bundle.forbidden : Bundle → Bool
  | .bra .. | .call .. | .ret .. | .jmp .. | .callr .. | .rtif | .rtin | .tend | .loopi .. | .loopr .. | .loopl ..
  | .rpti _ | .rptr _ | .bsync | .wait => true
  | _ => false

/-- Whether a bundle is a long form (R175). -/
def Bundle.long : Bundle → Bool
  | .ldl .. | .loopl .. | .addpl .. => true
  | _ => false

/-- A condition code that is defined (R183). -/
def ccOk (cc : Nat) : Bool := decide (cc ≤ 0xC)

/-- A register code that is defined (R178). -/
def regOk (r : Nat) : Bool := decide (r < 0x34)

/-- `b` where the guard holds. -/
def keepIf (g : Bool) (b : Bundle) : Option Bundle := if g then some b else none

/-- CTL bundles (R184): bits not named are 0. -/
def decodeCtl (w : Nat) : Option Bundle :=
  let cc := bits w 23 20
  let t := bits w 13 0
  let n := bits w 19 16
  let z := fun (hi lo : Nat) => bits w hi lo == 0
  match bits w 28 24 with
  | 0x00 => keepIf (z 23 0) .nop
  | 0x01 => keepIf (ccOk cc && z 19 14) (.bra cc t)
  | 0x02 => keepIf (ccOk cc && z 19 14) (.call cc t)
  | 0x03 => keepIf (ccOk cc && z 19 0) (.ret cc)
  | 0x04 => keepIf (ccOk cc && z 15 0) (.jmp cc n)
  | 0x05 => keepIf (ccOk cc && z 15 0) (.callr cc n)
  | 0x06 => keepIf (z 23 0) .rtif
  | 0x07 => keepIf (z 23 0) .rtin
  | 0x08 => keepIf (z 23 0) .tend
  | 0x09 => some (.loopi (bits w 23 14 + 1) t)
  | 0x0A => keepIf (regOk (bits w 23 18) && z 17 14) (.loopr (bits w 23 18) t)
  | 0x0B => keepIf (z 23 0) .leave
  | 0x0C => keepIf (z 23 8) (.rpti (bits w 7 0 + 1))
  | 0x0D => keepIf (regOk (bits w 23 18) && z 17 0) (.rptr (bits w 23 18))
  | 0x0E => keepIf (z 23 0) .bsync
  | 0x0F => keepIf (z 23 0) .wait
  | 0x10 => keepIf (z 14 13) (.bus 0 cc (bit w 19 == 1) (bits w 18 15) (bits w 12 0))
  | 0x11 => keepIf (z 14 13) (.bus 1 cc (bit w 19 == 1) (bits w 18 15) (bits w 12 0))
  | 0x12 => keepIf (z 14 13) (.bus 2 cc (bit w 19 == 1) (bits w 18 15) (bits w 12 0))
  | _ => none

/-- A slot of MAC2, BFLY or BEXP: P code 7 means unused; the post-modify is by M_n (R180, R181). -/
def macSlot (store : Bool) (reg p : Nat) : Option Slot := if p = 7 then none else some ⟨store, reg, p, 3⟩

/-- The register a slot loads, if it loads one. -/
def Slot.loads : Option Slot → Option Nat
  | some s => if s.store then none else some s.reg
  | none => none

/-- Two slots load one register (R182). -/
def sameLoad (a b : Option Slot) : Bool := (Slot.loads a).isSome && Slot.loads a == Slot.loads b

/-- MAC2 bundles (R188): the two accumulators differ (R148), and the two loads too (R182). -/
def decodeMac (w : Nat) : Option Bundle :=
  let op := match bits w 28 27 with | 0 => MacOp.mla2 | 1 => .mlas | 2 => .mul2 | _ => .mls2
  let a1 := bits w 18 16
  let a2 := bits w 15 13
  let s1 := macSlot false (bits w 12 10) (bits w 9 7)
  let st := bit w 6 == 1
  let s2 := macSlot st (if st then 8 + bits w 5 3 else bits w 5 3) (bits w 2 0)
  keepIf (a1 != a2 && !sameLoad s1 s2)
    (.mac2 op (bits w 26 25) (bits w 24 23) (bits w 22 21) (bits w 20 19) a1 a2 s1 s2)

/-- The accumulator operation of OP and SRC (R190): unused SRC bits are 0. -/
def decodeAluOp (op src : Nat) : Option AluOp :=
  let as := src / 4
  let one := fun (o : AluOp) => if src % 4 = 0 then some o else none
  let zero := fun (o : AluOp) => if src = 0 then some o else none
  let xy := fun (o : AluOp) => if src % 2 = 0 then some o else none
  match op with
  | 0x00 => zero .nop
  | 0x01 => zero .zero
  | 0x02 => one (.copy as)
  | 0x03 => some (.adds as (src % 4))
  | 0x04 => some (.subs as (src % 4))
  | 0x05 => one (.negt as)
  | 0x06 => one (.magn as)
  | 0x07 => some (.shla src)
  | 0x08 => some (.shra src)
  | 0x09 => zero .rndh
  | 0x0A => one (.maxs as)
  | 0x0B => one (.mins as)
  | 0x0C => one (.comp as)
  | 0x0D => zero .test
  | 0x0E => one (.and as)
  | 0x0F => one (.ior as)
  | 0x10 => one (.xor as)
  | 0x11 => xy (.mul (src / 8) (src / 2 % 4))
  | 0x12 => xy (.mula (src / 8) (src / 2 % 4))
  | 0x13 => xy (.muls (src / 8) (src / 2 % 4))
  | _ => none

/-- Whether an accumulator operation writes its destination. -/
def AluOp.writes : AluOp → Bool
  | .nop | .comp _ | .test => false
  | _ => true

/-- ALU bundles (R189): with MV = 0 the slot bits are 0; a load of the destination accumulator is a double write (R182). -/
def decodeAlu (w : Nat) : Option Bundle :=
  match decodeAluOp (bits w 28 24) (bits w 20 16) with
  | none => none
  | some op =>
    let mv := bit w 15 == 1
    let slot : Slot := ⟨bit w 14 == 1, bits w 13 10, bits w 9 6, bits w 5 4⟩
    let ad := bits w 23 21
    keepIf (ccOk (bits w 3 0) && (mv || bits w 14 4 == 0) && !(mv && !slot.store && op.writes && slot.reg == 8 + ad))
      (.alu op ad (if mv then some slot else none) (bits w 3 0))

/-- MOV bundles (R191). -/
def decodeMov (w : Nat) : Option Bundle :=
  let rd := bits w 25 20
  match bits w 28 26 with
  | 0 => keepIf (regOk rd && bits w 19 16 == 0) (.ldi rd (bits w 15 0))
  | 1 => keepIf (regOk rd && regOk (bits w 19 14)) (.move rd (bits w 19 14))
  | 2 => some (.addp (bits w 25 22) (ofCodeS 16 (bits w 15 0)))
  | 3 => some (if bit w 25 = 0 then .movcFrom (bits w 24 22) (bits w 21 14) else .movcTo (bits w 24 22) (bits w 21 14))
  | 4 =>
    keepIf (regOk (bits w 24 19))
      (if bit w 25 = 0 then .ldr (bits w 24 19) (bits w 18 15) (bits w 14 13)
       else .str (bits w 24 19) (bits w 18 15) (bits w 14 13))
  | 5 =>
    let s1 : Slot := ⟨false, bits w 25 23, bits w 22 19, bits w 18 17⟩
    let s2 : Option Slot := if bit w 16 = 1 then some ⟨bit w 15 == 1, bits w 14 11, bits w 10 7, bits w 6 5⟩ else none
    keepIf (bits w 4 0 == 0 && !sameLoad (some s1) s2) (.mov2 s1 s2)
  | _ => none

/-- BFE bundles (R193): bits not named are 0. -/
def decodeBfe (w : Nat) : Option Bundle :=
  match bits w 28 26 with
  | 0 =>
    keepIf (bits w 4 0 == 0)
      (.bfly (bits w 25 23) (bits w 22 20) (bits w 19 18) (macSlot false (bits w 17 15) (bits w 14 12))
        (macSlot true (bits w 11 8) (bits w 7 5)))
  | 1 =>
    let p := fun (n : Nat) => if n = 7 then none else some n
    keepIf (bits w 19 0 == 0) (.bexp (p (bits w 25 23)) (p (bits w 22 20)))
  | 2 => keepIf (bits w 25 0 == 0) .bscale
  | 3 => keepIf (bits w 25 0 == 0) .beclr
  | _ => none

/-- Long forms (R192): word 0 and the immediate. -/
def decodeLong (w imm : Nat) : Option Bundle :=
  match bits w 28 24 with
  | 0 => keepIf (regOk (bits w 23 18)) (.ldl (bits w 23 18) imm)
  | 1 => keepIf (bits imm 31 16 == 0) (.loopl (bits imm 15 0 + 1) (bits w 13 0))
  | 2 => keepIf (bits imm 31 24 == 0) (.addpl (bits w 23 20) (bits imm 23 0))
  | _ => none

/-- Decode a bundle from its word and the one after it (R175, R176). -/
def decodeBundle (w imm : Nat) : Option Bundle :=
  match bits w 31 29 with
  | 0 => decodeCtl w
  | 1 => decodeMac w
  | 2 => decodeAlu w
  | 3 => decodeMov w
  | 4 => decodeBfe w
  | 6 => decodeLong w imm
  | _ => none

/-- The program words of a bundle whose first word is `w` (R175). -/
def bundleLen (w : Nat) : Nat := if bits w 31 29 = 6 then 2 else 1

end Sys2Proof.Machine
end

