-- ==== Sys2Proof/Machine/MalletCore.lean ====
section
/-! DEFINITION. A Mallet core's registers, pipeline, memories, bus gate, interrupts and exceptions (R138-R166). -/

namespace Sys2Proof.Machine

/-! ### Cores -/

/-- Core `g`. -/
def State.core (s : State) (g : Nat) : Core := Tbl.get s.mal.cores g .idle

/-- Write core `g`. -/
def State.setCore (s : State) (g : Nat) (c : Core) : State :=
  { s with mal := { s.mal with cores := Tbl.set s.mal.cores g .idle c } }

/-- A register by its code (R178), as it has landed. -/
def Core.rd (c : Core) (r : Nat) : Nat := Tbl.get c.regs r 0

/-- Write a register at once. -/
def Core.wr (c : Core) (r v : Nat) : Core := { c with regs := Tbl.set c.regs r 0 v }

/-- A register's width (R146). -/
def regWidth (r : Nat) : Nat :=
  if r < 8 then 24 else if r < 16 then 56 else if r < 32 then 24 else if r < 48 then 32
  else if r = 48 then 17 else if r = 49 then 14 else 16

/-- The bits of SR that a write changes (R147): not INF, INN and the reserved bits. -/
abbrev srWritable : Nat := 0xCF1F

/-- The bits of a register that a write changes (R146, R147): BE[7:5] and the reserved bits of SR stay 0. -/
def regMask (r : Nat) : Nat := if r = 50 then srWritable else if r = 51 then 0xFF1F else 2 ^ regWidth r - 1

/-- Replace the bits of `mask` in `old` by those of `val`. -/
def maskWrite (old mask val : Nat) : Nat := (old - (old &&& mask)) + (val &&& mask)

/-- Put a write into the pipeline (R151): it is seen from the bundle `left` later. -/
def Core.later (c : Core) (reg mask val left : Nat) : Core := { c with pend := c.pend ++ [⟨reg, mask, val, left⟩] }

/-- An accumulator as MAC2, ALU and BFLY read it (R182): the newest write in flight, else as landed. -/
def Core.accNew (c : Core) (r : Nat) : Int :=
  match c.pend.reverse.find? (fun p => p.reg == r) with
  | some p => ofCodeS 56 p.val
  | none => ofCodeS 56 (c.rd r)

/-- An accumulate into register `r` (R151): forwarded to accumulations, seen by stores and moves from n + 3. -/
def Core.accWrite (c : Core) (r : Nat) (v : Int) : Core := c.later r (2 ^ 56 - 1) (codeS 56 v) 3

/-- Bits of SR (R147). -/
def Core.sr (c : Core) (i : Nat) : Nat := bit (c.rd 50) i

/-- Set flags (R151): bits of SR seen from n + 4. -/
def Core.flags (c : Core) (mask val : Nat) : Core := c.later 50 mask val 4

/-- Write a register from a move or an immediate (R151, R191): X and Y at once, A as an accumulate, others from n + 4. -/
def Core.moveTo (c : Core) (r v : Nat) : Core :=
  if r < 8 then c.wr r v
  else if r < 16 then c.later r (2 ^ 56 - 1) v 3
  else c.later r (regMask r) v 4

/-- Write a register from a load (R151): X, Y and A at once, P and M from n + 2, others from n + 4. -/
def Core.loadTo (c : Core) (r v : Nat) : Core :=
  if r < 16 then c.wr r v
  else c.later r (regMask r) v (if r < 48 then 2 else 4)

/-! ### Interrupt sources (R156) and core control registers (R173) -/

/-- Set a source's pending bit (R156). -/
def State.pendSource (s : State) (g src : Nat) : State :=
  s.setFld (R.CCR_INT_PEND_PEND g) (withBit (s.fld (R.CCR_INT_PEND_PEND g)) src)

/-- The sources of a core that are pending and enabled (R157). -/
def State.readySources (s : State) (g : Nat) : Nat := s.fld (R.CCR_INT_PEND_PEND g) &&& s.fld (R.CCR_INT_EN_EN g)

/-- A WAIT ends when an enabled source is pending (R186). -/
def State.endWait (s : State) (g : Nat) : State :=
  let c := s.core g
  if c.stall = .wait ∧ s.readySources g ≠ 0 then s.setCore g { c with stall := .none } else s

/-- Add `n` cycles to a running task (R141, R173): CYCLES counts up and TIMER down; TIMER's step to 0 raises source 8. -/
def State.addCycles (s : State) (g n : Nat) : State :=
  let s1 := s.bump (R.CCR_CYCLES_COUNT g) n
  let t := s.fld (R.CCR_TIMER_COUNT g)
  if t = 0 then s1
  else if t ≤ n then ((s1.setFld (R.CCR_TIMER_COUNT g) 0).pendSource g 8).endWait g
  else s1.setFld (R.CCR_TIMER_COUNT g) (t - n)

/-- The cycles that a core's task has left before COST (R83). -/
def State.cyclesLeft (s : State) (g : Nat) : Nat :=
  match (s.core g).task with
  | none => 0
  | some t => t.cost - s.fld (R.CCR_CYCLES_COUNT g)

/-- The most cycles a WAIT can have lasted when a source other than the timer ends it: it ends at COST, and with source 8 enabled
at the step of TIMER to 0 (R186). -/
def State.waitLimit (s : State) (g : Nat) : Nat :=
  let t := s.fld (R.CCR_TIMER_COUNT g)
  if bit (s.fld (R.CCR_INT_EN_EN g)) 8 = 1 ∧ t ≠ 0 then min t (s.cyclesLeft g) else s.cyclesLeft g

/-- A source's event (R156). Where it ends a WAIT, CYCLES has counted through that (R186), for a time that the event itself does
not carry: a free value. -/
def State.raiseSource (s : State) (g src : Nat) : State :=
  let s1 := s.pendSource g src
  if (s1.core g).stall = .wait ∧ bit (s1.fld (R.CCR_INT_EN_EN g)) src = 1 then
    let f := s1.fresh
    (f.2.addCycles g (f.1 % max 1 (s1.waitLimit g))).endWait g
  else s1

/-- Raise source `src` in the cores of cluster `cl` named by a 16-bit mask. -/
def State.raiseMask (s : State) (cl src mask : Nat) : State :=
  (List.range 16).foldl (fun s n => if bit mask n = 1 then s.raiseSource (16 * cl + n) src else s) s

/-- Start a DMA transfer (R166): the parameters are latched at GO; a GO while the channel is BUSY is ignored. -/
def State.dmaCtrlWrite (s : State) (g i v : Nat) : State :=
  let s1 := ((s.setFld (R.CCR_DMA_CTRL_DIR g i) (bit v 30)).setFld (R.CCR_DMA_CTRL_PACK g i) (bit v 29)).setFld
    (R.CCR_DMA_CTRL_COUNT g i) (bits v 15 0)
  if bit v 31 = 1 ∧ s.fld (R.CCR_DMA_STATUS_BUSY g i) = 0 then
    let c := s1.core g
    let d : Dma := ⟨s1.fld (R.CCR_DMA_LOCAL_WORD g i), s1.fld (R.CCR_DMA_EXT_ADDR g i), bit v 30 == 1, bit v 29 == 1,
      bits v 15 0 + 1⟩
    ((s1.setCore g { c with dma := Tbl.put c.dma i d }).setFld (R.CCR_DMA_STATUS_BUSY g i) 1).setFld
      (R.CCR_DMA_STATUS_REMAIN g i) (bits v 15 0 + 1)
  else s1

/-- Whether a CCR index is defined (R173). -/
def ccrDefined (i : Nat) : Bool := decide (i ≤ 0x10 ∨ (0x20 ≤ i ∧ i ≤ 0x3F))

/-- The internal address of CCR `i` of core `g` (R168). -/
def ccrAddr (g i : Nat) : Nat := 0x14A00000 + 0x400000 * (g / 16) + 0x1000 * (g % 16) + 4 * i

/-- A CCR as its core's program reads it (R173). -/
def State.ccrRead (s : State) (g i : Nat) : Nat := if i = 0 then g else s.regWord (ccrAddr g i)

/-- A control move into a CCR takes its effect (R173, R191): RO fields and reserved bits stay. -/
def State.ccrWrite (s : State) (g i v : Nat) : State :=
  if 0x20 ≤ i ∧ i ≤ 0x2F then s.setFld (R.CCR_VEC_ADDR g (i - 0x20)) (bits v 13 0)
  else if 0x30 ≤ i ∧ i ≤ 0x3F then
    let ch := (i - 0x30) / 4
    match i % 4 with
    | 0 => s.setFld (R.CCR_DMA_LOCAL_WORD g ch) (bits v 15 0)
    | 1 => s.setFld (R.CCR_DMA_EXT_ADDR g ch) v
    | 2 => s.dmaCtrlWrite g ch v
    | _ =>
      let s1 := if bit v 30 = 1 then s.setFld (R.CCR_DMA_STATUS_ERR g ch) 0 else s
      if bit v 29 = 1 then s1.setFld (R.CCR_DMA_STATUS_DONE g ch) 0 else s1
  else
    match i with
    | 0x04 => s.setFld (R.CCR_SR_INIT_SR g) (bits v 15 0)
    | 0x05 => s.setFld (R.CCR_TIMER_COUNT g) v
    | 0x08 => s.setFld (R.CCR_INT_PEND_PEND g) (maskWrite (s.fld (R.CCR_INT_PEND_PEND g)) (bits v 15 0) 0)
    | 0x09 => (List.range 4).foldl (fun s j => if bit v (12 + j) = 1 then s.raiseSource g (12 + j) else s) s
    | 0x0A => s.setFld (R.CCR_INT_EN_EN g) (bits v 15 0)
    | 0x0B => s.setFld (R.CCR_INT_FAST_FAST g) (bits v 15 0)
    | 0x0C => s.setFld (R.CCR_FPC_PC g) (bits v 13 0)
    | 0x0D => s.setFld (R.CCR_FSR_SR g) (bits v 15 0)
    | 0x0E => s.raiseMask (g / 16) 7 (bits v 15 0)
    | 0x10 =>
      let cl := g / 16
      ((s.setFld (R.CCR_MBOX_OUT_DATA g) v).setFld (R.MAL_CL_MBOX_PEND_PEND cl)
        (withBit (s.fld (R.MAL_CL_MBOX_PEND_PEND cl)) (g % 16))).raise (R.MAL_CL_INT_STATUS_MBOX cl)
    | _ => s

/-! ### Landing of delayed writes (R151) -/

/-- One delayed write lands: in a register, in its fast-level shadow (code + 0x40), or in a CCR (code 0x100 + index). -/
def State.landOne (s : State) (g : Nat) (p : PWrite) : State :=
  let c := s.core g
  if p.reg < 0x40 then s.setCore g (c.wr p.reg (maskWrite (c.rd p.reg) p.mask p.val))
  else if p.reg < 0x100 then
    let r := p.reg - 0x40
    s.setCore g { c with shadow := Tbl.set c.shadow r 0 (maskWrite (Tbl.get c.shadow r 0) p.mask p.val) }
  else s.ccrWrite g (p.reg - 0x100) p.val

/-- A bundle issues: every delayed write comes one bundle nearer, and those that are due land, oldest first. -/
def State.age (s : State) (g : Nat) : State :=
  let c := s.core g
  let dueNow := c.pend.filter (fun p => decide (p.left ≤ 1))
  let rest := (c.pend.filter (fun p => !decide (p.left ≤ 1))).map (fun p => { p with left := p.left - 1 })
  dueNow.foldl (fun s p => s.landOne g p) (s.setCore g { c with pend := rest })

/-- Every write in flight lands: the pipeline drains (R140, R141, R158). -/
def State.drain (s : State) (g : Nat) : State :=
  let c := s.core g
  c.pend.foldl (fun s p => s.landOne g p) (s.setCore g { c with pend := [] })

/-! ### Bus gate (R164, R165) -/

/-- Record a fault of the gate (R165). -/
def State.gateFault (s : State) (g cause b : Nat) : State :=
  let cl := g / 16
  (((s.setFld (R.CCR_BUS_ERR_CAUSE g) cause).setFld (R.CCR_BUS_ERR_BUS g) b).bump
    (R.MAL_CL_BUSERR_COUNT_COUNT cl)).raise (R.MAL_CL_INT_STATUS_BUSERR cl) |>.raiseSource g 5

/-- The count byte of a bus in SXM (R73). -/
def State.countByte (s : State) (old : Bool) (k b : Nat) : Nat :=
  match s.verCfg old with
  | none => 0
  | some c =>
    let v := s.verBus old k b
    busCount c k b v.samples % 64 + 64 * flag v.late + 128 * flag v.faded

/-- Whether the writer of bus `b` has ended its work on the data block (R165): a stopped or abandoned one counts as ended. -/
def State.writerEnded (s : State) (old : Bool) (b : Nat) : Bool :=
  match s.verCfg old with
  | none => true
  | some c =>
    match c.bus? b with
    | none => true
    | some r =>
      let oldWriter := old && (match s.old with | none => false | some o => decide (r.writer ∈ o.tasks))
      s.hasEnded r.writer oldWriter

/-- The 24-bit words a completed BIN brings to local memory: the count word, then the samples (R164, R165). -/
def State.binWords (s : State) (p : Posted) : List Nat :=
  if p.dead then [0]
  else
    let k := if p.kind = 1 then (p.blk + 2 ^ 48 - 1) % 2 ^ 48 else p.blk
    let n := match s.verCfg p.old with | none => 0 | some c => busCount c k p.bus (s.verBus p.old k p.bus).samples
    let v := s.verBus p.old k p.bus
    s.countByte p.old k p.bus :: (List.range n).map (fun j => if p.silent then 0 else codeS 24 (v.at j))

/-! ### Memory of a core (R143-R145) -/

/-- A word of local data memory. -/
def State.dataWord (s : State) (g w : Nat) : Nat := Tbl.get s.mal.data (65536 * g + w % 65536) 0

/-- Write a word of local data memory. -/
def State.setData (s : State) (g w v : Nat) : State :=
  { s with mal := { s.mal with data := Tbl.set s.mal.data (65536 * g + w % 65536) 0 (v % 2 ^ 24) } }

/-- Write consecutive words of local data memory. -/
def State.putData (s : State) (g w : Nat) : List Nat → State
  | [] => s
  | v :: vs => (s.setData g w v).putData g (w + 1) vs

/-- A byte of a cluster's shared memory. -/
def State.sharedByte (s : State) (cl i : Nat) : Byte := Tbl.get s.mal.shared (1048576 * cl + i) 0

/-- Bytes of a cluster's shared memory. -/
def State.sharedRead (s : State) (cl i n : Nat) : List Byte := (List.range n).map (fun j => s.sharedByte cl (i + j))

/-- A data address (R143): local, or a word of shared memory, or an ADDR exception. -/
inductive DataAddr where
  | loc (w : Nat)
  | shared (w : Nat)
  | bad
deriving DecidableEq, Repr

/-- Where a data address lies. -/
def dataAddr (a : Nat) : DataAddr :=
  if a < 0x10000 then .loc a
  else if 0x400000 ≤ a ∧ a < 0x440000 then .shared (a - 0x400000)
  else .bad

/-- A load from local memory. Under a BIN that has not completed the word may be old or new (R164): a free choice. -/
def State.loadLocal (s : State) (g w : Nat) : Nat × State :=
  let old := s.dataWord g w
  match (s.core g).posted.find? (fun p => decide (p.kind < 2 ∧ p.word ≤ w) && decide (w < p.word + (s.binWords p).length)) with
  | none => (old, s)
  | some p =>
    let f := s.fresh
    (if f.1 % 2 = 0 then old else (s.binWords p).getD (w - p.word) old, f.2)

/-- A store of the gate's 24-bit word into local or shared memory (R145). -/
def State.storeWord (s : State) (g : Nat) (a : DataAddr) (v : Nat) : State :=
  match a with
  | .loc w => s.setData g w v
  | .shared w => s.putShared (g / 16) (4 * w) ((leBytes 4 (codeS 32 (ofCodeS 24 v))).map some)
  | .bad => s

/-- A word of shared memory as a slow-path load takes it (R145). -/
def State.sharedWord (s : State) (g w : Nat) : Nat := leNat (s.sharedRead (g / 16) (4 * w) 4) % 2 ^ 24

/-! ### Conversions (R149, R162, R179) -/

/-- An accumulator stored to 24 bits (R149): the code, and whether it saturated. -/
def accToWord (a : Int) : Nat × Bool :=
  let r := (a + (2 ^ 23 : Nat)) / (2 ^ 24 : Nat)
  (codeS 24 (satS 24 r), decide (satS 24 r ≠ r))

/-- The leading-sign count of a 24-bit word (R162). -/
def lsc (w : Nat) : Nat :=
  let b := bit w 23
  ((List.range 23).takeWhile (fun i => bit w (22 - i) == b)).length

/-- A 24-bit memory word as register `r` takes it (R179). -/
def wordToReg (r w : Nat) : Nat :=
  if r < 8 then w
  else if r < 16 then codeS 56 (ofCodeS 24 w * (2 ^ 24 : Nat))
  else if r < 32 then w
  else if r < 48 then codeS 32 (ofCodeS 24 w)
  else w % 2 ^ regWidth r

/-- A register moved to register `d` (R179): the value, and whether the conversion of R149 saturated. -/
def moveValue (d srcReg v : Nat) : Nat × Bool :=
  if srcReg < 8 then (wordToReg d v, false)
  else if srcReg < 16 then
    if d < 8 then accToWord (ofCodeS 56 v)
    else if d < 16 then (v, false)
    else (v % 2 ^ regWidth d, false)
  else if d < 8 then (v % 2 ^ 24, false)
  else if d < 16 then (v, false)
  else (v % 2 ^ regWidth d, false)

/-- A 16- or 32-bit immediate of `n` bits as register `r` takes it (R191, R192). -/
def immValue (r n imm : Nat) : Nat :=
  if r < 8 then (if n = 16 then imm * 2 ^ 8 else imm % 2 ^ 24)
  else if r < 16 then codeS 56 (ofCodeS n imm)
  else imm % 2 ^ regWidth r

/-- The 24-bit word a store of register `r` writes (R149, R191): the word, and whether it saturated. -/
def Core.storeValue (c : Core) (r : Nat) : Nat × Bool :=
  if 8 ≤ r ∧ r < 16 then accToWord (ofCodeS 56 (c.rd r)) else (c.rd r % 2 ^ 24, false)

/-- Lower BE.MIN to the leading-sign count of a word (R162). -/
def Core.minWith (c : Core) (w : Nat) : Core :=
  let be := c.rd 51
  if lsc w < be % 32 then c.wr 51 (be - be % 32 + lsc w) else c

/-! ### Address generation (R180, R181) -/

/-- The smallest b with 2^b ≥ n. -/
def bitsFor (n : Nat) : Nat := if n ≤ 1 then 0 else Nat.log2 (n - 1) + 1

/-- The low `b` bits of `x` in reverse order. -/
def revBits (b x : Nat) : Nat := (List.range b).foldl (fun r i => 2 * r + bit x i) 0

/-- The post-modify "by M_n" (R180); none where its use is ILLEGAL. -/
def modifyBy (p m : Nat) : Option Nat :=
  let len := bits m 29 16 + 1
  let step := ofCodeS 16 (bits m 15 0)
  let b := bitsFor len
  let base := p - p % 2 ^ b
  let o := p % 2 ^ b
  match bits m 31 30 with
  | 0 => some (codeS 24 ((p : Int) + step))
  | 1 => some ((base + (((o : Int) + step) % (len : Int)).toNat) % 2 ^ 24)
  | 2 => if 2 ^ b = len then some (base + revBits b ((revBits b o + revBits b (codeS 16 step % 2 ^ b)) % 2 ^ b)) else none
  | _ => none

/-- A slot's post-modify (R180). -/
def Core.postModify (c : Core) (p mod : Nat) : Option Nat :=
  let v := c.rd (16 + p)
  match mod with
  | 0 => some v
  | 1 => some ((v + 1) % 2 ^ 24)
  | 2 => some ((v + 2 ^ 24 - 1) % 2 ^ 24)
  | _ => modifyBy v (c.rd (32 + p))

/-- Address one slot: its address, and the core after the post-modify. A load into the slot's own P_n wins over the
modification (R182). -/
def Core.slotAddr (c : Core) (sl : Slot) : Option (Nat × Core) :=
  let a := c.rd (16 + sl.p)
  match c.postModify sl.p sl.mod with
  | none => none
  | some v => some (a, if !sl.store && sl.reg == 16 + sl.p then c else c.wr (16 + sl.p) v)

/-- Address the slots of a bundle in order (R181): an exception cause, or the addresses and the core after. -/
def Core.slotAddrs (c : Core) : List Slot → Except Nat (List (Slot × DataAddr) × Core)
  | [] => .ok ([], c)
  | sl :: sls =>
    match c.slotAddr sl with
    | none => .error 1
    | some (a, c1) =>
      match dataAddr a with
      | .bad => .error 6
      | d => match c1.slotAddrs sls with
        | .error e => .error e
        | .ok (ds, c2) => .ok ((sl, d) :: ds, c2)

/-! ### Accumulator arithmetic (R148, R190) -/

/-- A true sum narrowed to 56 bits (R148): the value and whether it overflowed. -/
def Core.narrow (c : Core) (x : Int) : Int × Bool :=
  if satS 56 x = x then (x, false) else (if c.sr 8 = 1 then satS 56 x else wrapS 56 x, true)

/-- Set N and Z from a result, V, and W where it wrapped or saturated. -/
def Core.resultFlags (c : Core) (v : Int) (ovf w : Bool) : Core :=
  let f := flag (decide (v = 0)) + 2 * flag (decide (v < 0)) + 4 * flag ovf
  c.flags (if w then 0xF else 7) (f + 8 * flag w)

/-- The product of two 24-bit codes, shifted left by 1 (R148). -/
def prod (x y : Nat) : Int := 2 * (ofCodeS 24 x * ofCodeS 24 y)

/-- Apply an accumulator operation to accumulator register `ad` (R190). -/
def Core.aluOp (c : Core) (op : AluOp) (ad : Nat) : Core :=
  let r := 8 + ad
  let d := c.accNew r
  let a := fun (n : Nat) => c.accNew (8 + n)
  let all := fun (x : Int) => let v := c.narrow x; (c.accWrite r v.1).resultFlags v.1 v.2 v.2
  let nz := fun (x : Int) => (c.accWrite r x).resultFlags x false false
  let bitwise := fun (f : Nat → Nat → Nat) (n : Nat) => nz (ofCodeS 56 (f (codeS 56 d) (codeS 56 (a n))))
  match op with
  | .nop => c
  | .zero => nz 0
  | .copy n => nz (a n)
  | .adds n k => all (d + a n * (2 ^ k : Nat))
  | .subs n k => all (d - a n * (2 ^ k : Nat))
  | .negt n => all (-(a n))
  | .magn n => all (if a n < 0 then -(a n) else a n)
  | .shla n => all (d * (2 ^ n : Nat))
  | .shra n => nz (d / (2 ^ n : Nat))
  | .rndh =>
    let v := c.narrow (d + (2 ^ 23 : Nat))
    let x := v.1 - v.1 % (2 ^ 24 : Nat)
    (c.accWrite r x).resultFlags x v.2 v.2
  | .maxs n => nz (max d (a n))
  | .mins n => nz (min d (a n))
  | .comp n => let v := c.narrow (d - a n); c.resultFlags v.1 v.2 false
  | .test => c.resultFlags d false false
  | .and n => bitwise (· &&& ·) n
  | .ior n => bitwise (· ||| ·) n
  | .xor n => bitwise (· ^^^ ·) n
  | .mul x y => all (prod (c.rd x) (c.rd (4 + y)))
  | .mula x y => all (d + prod (c.rd x) (c.rd (4 + y)))
  | .muls x y => all (d - prod (c.rd x) (c.rd (4 + y)))

/-- The two multiplies of MAC2 (R188). -/
def Core.macOp (c : Core) (op : MacOp) (xa ya xb yb a1 a2 : Nat) : Core :=
  let p1 := prod (c.rd xa) (c.rd (4 + ya))
  let p2 := prod (c.rd xb) (c.rd (4 + yb))
  let d1 := c.accNew (8 + a1)
  let d2 := c.accNew (8 + a2)
  let v1 := c.narrow (match op with | .mla2 | .mlas => d1 + p1 | .mul2 => p1 | .mls2 => d1 - p1)
  let v2 := c.narrow (match op with | .mla2 => d2 + p2 | .mul2 => p2 | .mlas | .mls2 => d2 - p2)
  let o := v1.2 || v2.2
  ((c.accWrite (8 + a1) v1.1).accWrite (8 + a2) v2.1).resultFlags v1.1 o o

/-- The right shift of BFLY with rounding, halves up (R193). -/
def shrRound (v : Int) (n : Nat) : Int := if n = 0 then v else (v + (2 ^ (n - 1) : Nat)) / (2 ^ n : Nat)

/-- The butterfly (R193). -/
def Core.butterfly (c : Core) (a acc pair : Nat) : Core :=
  let n := bits (c.rd 51) 9 8
  let u := shrRound (ofCodeS 24 (c.rd a) * (2 ^ 24 : Nat)) n
  let t := shrRound (c.accNew (8 + acc)) n
  let e := c.narrow (u + t)
  let o := c.narrow (u - t)
  let w := e.2 || o.2
  ((c.accWrite (8 + 2 * pair) e.1).accWrite (9 + 2 * pair) o.1).resultFlags e.1 w w

/-- BSCALE (R163). -/
def Core.bscale (c : Core) : Core :=
  let be := c.rd 51
  let guard := bits (c.rd 50) 11 10
  let sc := min 2 (guard - be % 32)
  let ex := min 63 (bits be 15 10 + sc)
  c.wr 51 (ex * 1024 + sc * 256 + 23)

/-- A condition (R183), on SR as it has landed. -/
def Core.cond (c : Core) (cc : Nat) : Bool :=
  let z := c.sr 0 == 1
  let n := c.sr 1 == 1
  match cc with
  | 0x0 => true
  | 0x1 => z
  | 0x2 => !z
  | 0x3 => n
  | 0x4 => !n
  | 0x5 => !n && !z
  | 0x6 => n || z
  | 0x7 => c.sr 2 == 1
  | 0x8 => c.sr 2 == 0
  | 0x9 => c.sr 3 == 1
  | 0xA => c.sr 3 == 0
  | 0xB => c.sr 4 == 1
  | _ => c.sr 4 == 0

/-! ### Ends of tasks (R141, R142, R161, R165) -/

/-- A slow-path load's word enters its register, or lowers BE.MIN (R145, R162). `before` is the word as it stood before a store of the
same bundle to it (R144). -/
def State.takeSlow (s : State) (g : Nat) (l : Nat × Nat × Option Nat) : State :=
  let v := match l.2.2 with | some v => v | none => s.sharedWord g l.2.1
  let c := s.core g
  s.setCore g (if l.1 = 0x40 then c.minWith v else c.loadTo l.1 (wordToReg l.1 v))

/-- The slow-path loads a core has issued and not yet completed. -/
def Core.slowLoads (c : Core) : List (Nat × Nat × Option Nat) := match c.stall with | .slow l => l | _ => []

/-- The core leaves its task (R141): the bundles already issued complete, their slow-path loads among them; open loops and the return
stack empty. -/
def State.leaveTask (s : State) (g : Nat) (dropPosted : Bool) : State :=
  let s1 := ((s.core g).slowLoads.foldl (fun s l => s.takeSlow g l) s).drain g
  let c := s1.core g
  s1.setCore g { c with task := none, slots := 0, after := .fall, rpt := 0, stall := .none, loops := [], closing := none,
                        stack := [], waited := false, written := [],
                        posted := if dropPosted then c.posted.filter (fun p => decide (p.kind < 2)) else c.posted }

/-- The key of a version of a task in the table of how runs ended: during a crossfade both versions run. -/
def taskKey (task : Nat) (old : Bool) : Nat := task + 4096 * flag old

/-- How the previous run of a version of a task ended, and whether its next run has GAP (R142). -/
def State.taskHist (s : State) (task : Nat) (old : Bool) : Nat × Bool := Tbl.get s.mal.hist (taskKey task old) (0, true)

/-- Record how a run of a version of a task ended (R142). -/
def State.setTaskHist (s : State) (task : Nat) (old : Bool) (cause : Nat) (gap : Bool) : State :=
  { s with mal := { s.mal with hist := Tbl.set s.mal.hist (taskKey task old) (0, true) (cause, gap) } }

/-- Stop the task on core `g` as an overrun (R83, R141, R161). -/
def State.stopTask (s : State) (g cause : Nat) : State :=
  match (s.core g).task with
  | none => s
  | some t => ((s.leaveTask g true).overrunTask t.task t.old (8 + g / 16) t.blk).setTaskHist t.task t.old cause false

/-- An exception (R161): its cause and the bundle's address are recorded, it is counted, and the task is stopped. -/
def State.malException (s : State) (g cause : Nat) : State :=
  let cl := g / 16
  let s1 := (s.setFld (R.CCR_EXC_CAUSE g) cause).setFld (R.CCR_EXC_PC g) (s.core g).pc
  (((s1.bump (R.MAL_CL_EXC_COUNT_COUNT cl)).raise (R.MAL_CL_INT_STATUS_EXC cl))).stopTask g 2

/-- The task ends (R141): a bus of the task that it did not write is written as silence and is a fault (R165). -/
def State.finishTask (s : State) (g : Nat) : State :=
  match (s.core g).task with
  | none => s
  | some t =>
    let bs := match s.verCfg t.old with | none => [] | some c => c.taskBuses t.task
    let missing := bs.filter (fun b => !decide (b ∈ (s.core g).written))
    let s1 := missing.foldl (fun s b =>
      (s.inVersion t.old (fun s => match s.cfg with
        | none => s
        | some c => s.writeBus c t.blk b [])).gateFault g 4 b) s
    ((s1.leaveTask g false).markEnded t.task t.old).setTaskHist t.task t.old 0 false

/-- Bus writes posted and not complete. -/
def Core.busWrites (c : Core) : Bool := c.posted.any (fun p => p.kind == 2)

/-- TEND's delay slots have issued: the task ends once its bus writes are complete (R141). -/
def State.tryFinish (s : State) (g : Nat) : State :=
  let c := s.core g
  if c.busWrites then s.setCore g { c with stall := .tend } else s.finishTask g

/-- Set SR whole, as an accept or a return does. -/
def Core.setSr (c : Core) (v : Nat) : Core := c.wr 50 (v % 2 ^ 16)

/-- Exchange the bank of R158 with its shadows: X, Y, A0-A3 and P0-P7; a write in flight stays with the bank it was made in. -/
def Core.exchange (c : Core) : Core :=
  let isBank := fun (r : Nat) => decide (r < 12 ∨ (16 ≤ r ∧ r < 24))
  let moved := fun (p : PWrite) =>
    if isBank p.reg then { p with reg := p.reg + 0x40 } else if 0x40 ≤ p.reg ∧ p.reg < 0x100 then { p with reg := p.reg - 0x40 } else p
  { c with regs := (c.shadow.filter (fun e => isBank e.1)).foldl (fun t e => Tbl.put t e.1 e.2) (c.regs.filter (fun e => !isBank e.1))
           shadow := c.regs.filter (fun e => isBank e.1)
           pend := c.pend.map moved }

/-- A return restores SR (R158, R159): writes of SR by the handler that are still in flight are older, and are lost. -/
def Core.returnSr (c : Core) (v : Nat) : Core := { c with pend := c.pend.filter (fun p => p.reg != 50) }.setSr v

/-- The counters MAL_CL_COUNT_CLEAR clears (R174). -/
def malCounts (cl : Nat) : List Fld := [R.MAL_CL_EXC_COUNT_COUNT cl, R.MAL_CL_BUSERR_COUNT_COUNT cl,
  R.MAL_CL_REFUSED_COUNT_COUNT cl, R.MAL_CL_DMA_ERR_COUNT_COUNT cl, R.MAL_CL_PARAM_DEFER_COUNT cl]

end Sys2Proof.Machine
end

