-- ==== Sys2Proof/Machine/Mallet.lean ====
section
/-! DEFINITION. A Mallet core issuing its bundles (R150-R160, R175-R193), interrupts, parameter writes and the windows
(R168-R171). Every row of the table that is an instruction names the core: its meaning fetches the bundle at the core's PC,
decodes it and runs it where it is that instruction (notes/assumptions/9). -/

namespace Sys2Proof.Machine

/-! ### Issue -/

/-- A word of a core's program memory. -/
def State.progWord (s : State) (g a : Nat) : Nat := Tbl.get s.mal.prog (16384 * g + a % 16384) 0

/-- Release the innermost loop record (R154). -/
def Core.popLoop (c : Core) : Core :=
  match c.loops with
  | [] => c
  | (lc, la, _) :: rest => { (c.wr 48 lc).wr 49 la with loops := rest }

/-- The closing test after the bundle at `a` (R154): at most four loops close on one bundle. -/
def Core.closeAt (c : Core) (a : Nat) : Nat → Core
  | 0 => { c with closing := none }
  | n + 1 =>
    match c.loops with
    | [] => { c with closing := none }
    | (_, _, start) :: _ =>
      if c.rd 49 = a then
        if 1 < c.rd 48 then { c.wr 48 (c.rd 48 - 1) with pc := start, closing := none }
        else c.popLoop.closeAt a n
      else { c with closing := none }

/-- Make the closing test that is still to be made. -/
def Core.closeLoop (c : Core) : Core :=
  match c.closing with
  | none => c
  | some a => c.closeAt a 4

/-- The first bundle address at or after `la`, walking bundles from `a`: `la` itself unless it is the second word of a long
form (R185). -/
def State.walkTo (s : State) (g la : Nat) : Nat → Nat → Nat
  | 0, a => a
  | n + 1, a => if la ≤ a then a else s.walkTo g la n (a + bundleLen (s.progWord g a))

/-- Open a loop (R154, R185): an exception cause, or the core inside the loop, or past it where the count is 0. -/
def State.openLoop (s : State) (g len count la : Nat) : Except Nat State :=
  let c := s.core g
  let start := c.pc + len
  if 4 ≤ c.loops.length then .error 2
  else if la ≤ c.pc ∨ (len = 2 ∧ la = c.pc + 1) ∨ s.walkTo g la 16384 start ≠ la then .error 1
  else if count = 0 then .ok (s.setCore g { c with pc := la + bundleLen (s.progWord g la) - len })
  else .ok (s.setCore g { (c.wr 48 count).wr 49 la with loops := (c.rd 48, c.rd 49, start) :: c.loops })

/-- A control transfer (R153): two delay slots follow, taken or not. -/
def Core.transfer (c : Core) (a : AfterSlots) : Core := { c with slots := 2, after := a }

/-- The address of the bundle after the second delay slot (R185). -/
def State.returnAddr (s : State) (g pc : Nat) : Nat :=
  let a := pc + 1
  let b := a + bundleLen (s.progWord g a)
  (b + bundleLen (s.progWord g b)) % 16384

/-- A conditional call (R184, R185). -/
def State.callTo (s : State) (g cc t : Nat) : Except Nat State :=
  let c := s.core g
  if c.cond cc then
    if 16 ≤ c.stack.length then .error 4
    else .ok (s.setCore g ({ c with stack := (s.returnAddr g c.pc, c.rd 50) :: c.stack }.transfer (.jump (t % 16384))))
  else .ok (s.setCore g (c.transfer .fall))

/-- Post a bus transfer (R164, R165, R187). -/
def State.postBus (s : State) (g kind p : Nat) (rb : Bool) (pm bus : Nat) : Except Nat State :=
  let c := s.core g
  let b := if rb then (bus + c.rd (16 + pm) % 8192) % 8192 else bus
  let w := c.rd (16 + p)
  match c.task with
  | none => .ok s
  | some t =>
    if 0x10000 ≤ w then .error 6
    else
      let rec? := (s.verCfg t.old).bind (fun cf => cf.bus? b)
      let missing := match rec? with | none => true | some r => decide (2 ≤ r.domain)
      let foreign := match rec? with | none => false | some r => decide (kind = 2 ∧ r.writer ≠ t.task)
      let early := decide (kind = 0) && !missing && !s.writerEnded t.old b
      let post : Posted := ⟨kind, b, w, early, missing || foreign, t.task, t.old, t.blk⟩
      let c1 := { c with posted := c.posted ++ [post]
                         stall := if 8 ≤ c.posted.length then .busFull else c.stall
                         written := if kind = 2 ∧ !missing ∧ !foreign then b :: c.written else c.written }
      let s1 := s.setCore g c1
      .ok (if missing then s1.gateFault g 3 b else if foreign then s1.gateFault g 1 b
        else if early then s1.gateFault g 2 b else s1)

/-- The loads of a bundle: local ones at once; slow-path ones stall the core (R145). -/
def State.doLoads (s : State) (g : Nat) : List (Slot × DataAddr) → State
  | [] => s
  | (sl, a) :: rest =>
    if sl.store then s.doLoads g rest
    else
      match a with
      | .loc w =>
        let r := s.loadLocal g w
        let c := r.2.core g
        (r.2.setCore g (if sl.reg = 0x40 then c.minWith r.1 else c.loadTo sl.reg (wordToReg sl.reg r.1))).doLoads g rest
      | .shared w =>
        let c := s.core g
        (s.setCore g { c with stall := .slow (c.slowLoads ++ [(sl.reg, w, none)]) }).doLoads g rest
      | .bad => s.doLoads g rest

/-- The stores of a bundle, of the values that `c0` held before the bundle (R149, R162, R182). -/
def State.doStores (s : State) (g : Nat) (c0 : Core) : List (Slot × DataAddr) → State
  | [] => s
  | (sl, a) :: rest =>
    if sl.store then
      let v := c0.storeValue sl.reg
      let s1 := s.storeWord g a v.1
      let c := s1.core g
      let c1 := if v.2 then c.flags 0x10 0x10 else c
      (s1.setCore g (if c0.sr 9 = 1 then c1.minWith v.1 else c1)).doStores g c0 rest
    else s.doStores g c0 rest

/-- The slow-path loads of a bundle keep the word from before the bundle's own store to it (R144, R182). -/
def State.holdOld (s : State) (g : Nat) (ds : List (Slot × DataAddr)) : State :=
  let c := s.core g
  match c.stall with
  | .slow l => s.setCore g { c with stall := .slow (l.map (fun e =>
      if ds.any (fun d => d.1.store && decide (d.2 = .shared e.2.1)) then (e.1, e.2.1, some (s.sharedWord g e.2.1)) else e)) }
  | _ => s

/-- Run a bundle's slots around its operation: addresses first, then the operation on the registers as they stood, then the
loads and the store. A slow-path load under RPT is ILLEGAL (R155). -/
def State.withSlots (s : State) (g : Nat) (slots : List Slot) (op : Core → Core) : Except Nat State :=
  let c0 := s.core g
  match c0.slotAddrs slots with
  | .error e => .error e
  | .ok (ds, c1) =>
    let slow := ds.any (fun d => !d.1.store && (match d.2 with | .shared _ => true | _ => false))
    if slow && decide (0 < c0.rpt) then .error 1
    else .ok ((((s.setCore g (op c1)).doLoads g ds).holdOld g ds).doStores g c0 ds)

/-- Move a register to a register (R179). -/
def Core.moveReg (c : Core) (rd rs : Nat) : Core :=
  let v := moveValue rd rs (c.rd rs)
  let c1 := c.moveTo rd v.1
  if v.2 then c1.flags 0x10 0x10 else c1

/-- A bundle's own work (R184-R193): an exception cause, or the state after; the PC is stepped by `afterIssue`. -/
def State.runBundle (s : State) (g : Nat) (b : Bundle) : Except Nat State :=
  let c := s.core g
  let put := fun (c : Core) => (Except.ok (s.setCore g c) : Except Nat State)
  match b with
  | .nop => .ok s
  | .bra cc t => put (c.transfer (if c.cond cc then .jump t else .fall))
  | .call cc t => s.callTo g cc t
  | .ret cc =>
    if c.cond cc then
      match c.stack with
      | [] => .error 5
      | (pc, _) :: rest => put ({ c with stack := rest }.transfer (.jump pc))
    else put (c.transfer .fall)
  | .jmp cc p => put (c.transfer (if c.cond cc then .jump (c.rd (16 + p) % 16384) else .fall))
  | .callr cc p => s.callTo g cc (c.rd (16 + p))
  | .rtif => put (c.transfer (.rtif (s.fld (R.CCR_FPC_PC g)) (s.fld (R.CCR_FSR_SR g))))
  | .rtin =>
    match c.stack with
    | [] => .error 5
    | (pc, sr) :: rest => put ({ c with stack := rest }.transfer (.rtin pc sr))
  | .tend => put (c.transfer .tend)
  | .loopi n la => s.openLoop g 1 n la
  | .loopr rs la => s.openLoop g 1 (c.rd rs % 65536) la
  | .loopl n la => s.openLoop g 2 n la
  | .leave => if c.loops = [] then .error 3 else put c.popLoop
  | .rpti n => put { c with rpt := n }
  | .rptr rs => put { c with rpt := c.rd rs % 256 + 1 }
  | .bsync => put (if c.posted = [] then c else { c with stall := .bsync })
  | .wait =>
    put { c with waited := true, stall := if s.readySources g = 0 then .wait else c.stall }
  | .bus kind p rb pm bus => s.postBus g kind p rb pm bus
  | .mac2 op xa ya xb yb a1 a2 s1 s2 =>
    s.withSlots g (s1.toList ++ s2.toList) (fun c => c.macOp op xa ya xb yb a1 a2)
  | .alu op ad slot cc => s.withSlots g slot.toList (fun k => if c.cond cc then k.aluOp op ad else k)
  | .ldi rd imm => put (c.moveTo rd (immValue rd 16 imm))
  | .move rd rs => put (c.moveReg rd rs)
  | .addp p imm => put (c.moveTo (16 + p) (codeS 24 ((c.rd (16 + p) : Int) + imm)))
  | .movcFrom a i => if ccrDefined i then put (c.moveTo (8 + a) (s.ccrRead g i)) else .error 6
  | .movcTo a i =>
    if ccrDefined i then put (c.later (0x100 + i) (2 ^ 32 - 1) (c.rd (8 + a) % 2 ^ 32) 4) else .error 6
  | .ldr r p mod => s.withSlots g [⟨false, r, p, mod⟩] id
  | .str r p mod => s.withSlots g [⟨true, r, p, mod⟩] id
  | .mov2 s1 s2 => s.withSlots g (s1 :: s2.toList) id
  | .ldl rd imm => put (c.moveTo rd (immValue rd 32 imm))
  | .addpl p imm => put (c.moveTo (16 + p) ((c.rd (16 + p) + imm) % 2 ^ 24))
  | .bfly a acc pair ld st => s.withSlots g (ld.toList ++ st.toList) (fun c => c.butterfly a acc pair)
  | .bexp p1 p2 =>
    s.withSlots g ((p1.toList ++ p2.toList).map (fun p => ⟨false, 0x40, p, 3⟩)) id
  | .bscale => put c.bscale
  | .beclr => put (c.wr 51 0x17)

/-- What follows the second delay slot (R153, R158, R159, R141). -/
def State.afterSlots (s : State) (g : Nat) (a : AfterSlots) : State :=
  match a with
  | .fall => s
  | .jump t => s.setCore g { s.core g with pc := t }
  | .rtif pc sr => s.setCore g { ((s.core g).exchange.returnSr (sr &&& (srWritable + 0x1000))) with pc := pc }
  | .rtin pc sr => s.setCore g { ((s.core g).returnSr sr) with pc := pc }
  | .tend => s.tryFinish g

/-- What follows the second delay slot comes once that slot no longer stalls the core, as a slow-path load in it does (R153). -/
def State.resume (s : State) (g : Nat) : State :=
  let c := s.core g
  if c.slots = 0 ∧ c.stall = .none then (s.setCore g { c with after := .fall }).afterSlots g c.after else s

/-- After a bundle at `pc` has issued: the PC steps, RPT and delay slots count down, and the closing test of the loop whose
LA it was becomes due (R153-R155). `slots0` and `rpt0` are as they stood before the bundle. -/
def State.afterIssue (s : State) (g pc len slots0 rpt0 : Nat) (a0 : AfterSlots) : State :=
  let c := s.core g
  if 1 < rpt0 then s.setCore g { c with rpt := rpt0 - 1 }
  else
    let c1 := { c with pc := (c.pc + len) % 16384, rpt := if rpt0 = 1 then 0 else c.rpt }
    let c2 := if c1.loops ≠ [] ∧ c1.rd 49 = pc then { c1 with closing := some pc } else c1
    if slots0 = 0 then s.setCore g c2
    else if slots0 = 1 then (s.setCore g { c2 with slots := 0, after := a0 }).resume g
    else s.setCore g { c2 with slots := slots0 - 1 }

/-- The source that an accept would take, and whether at the fast level (R157). -/
def State.acceptable (s : State) (g : Nat) : Option (Bool × Nat) :=
  let c := s.core g
  let ready := s.readySources g
  let fast := s.fld (R.CCR_INT_FAST_FAST g)
  let inF := c.sr 13 == 1
  if c.task.isNone || decide (c.slots ≠ 0) || decide (c.rpt ≠ 0) || decide (c.stall ≠ .none) then none
  else
    match (if c.sr 15 == 1 && !inF then (List.range 16).find? (fun i => bit ready i == 1 && bit fast i == 1) else none) with
    | some i => some (true, i)
    | none =>
      match (if c.sr 14 == 1 && !inF && c.sr 12 == 0 then
          (List.range 16).find? (fun i => bit ready i == 1 && bit fast i == 0) else none) with
      | some i => some (false, i)
      | none => none

/-- Core `g` issues its next bundle, if that bundle is of the row `kind` (R150-R155, R175-R193). An ILLEGAL bundle raises
its exception under every row. -/
def State.malIssue (s : State) (g : Nat) (kind : MalKind) : State :=
  let c := s.core g
  match c.task with
  | none => s
  | some t =>
    if c.stall ≠ .none ∨ t.cost ≤ s.fld (R.CCR_CYCLES_COUNT g) ∨ (c.waited ∧ (s.acceptable g).isSome) then s
    else if c.slots ≠ 0 ∧ (c.closing.isSome ∨ (c.loops ≠ [] ∧ c.rd 49 = c.pc)) then s.malException g 1
    else
      let s1 := s.setCore g { c.closeLoop with waited := false }
      let pc := (s1.core g).pc
      match decodeBundle (s1.progWord g pc) (s1.progWord g (pc + 1)) with
      | none => s1.malException g 1
      | some b =>
        if b.kind ≠ kind then s
        else if (b.forbidden ∧ (c.slots ≠ 0 ∨ c.rpt ≠ 0)) ∨ (b.long ∧ c.rpt ≠ 0) then s1.malException g 1
        else
          let s2 := s1.age g
          let len := if b.long then 2 else 1
          match s2.runBundle g b with
          | .error e => s2.malException g e
          | .ok s3 =>
            (s3.addCycles g (if b.long ∧ pc % 2 = 1 then 2 else 1)).afterIssue g pc len c.slots c.rpt c.after

/-- Start a task on a core (R140, R142). -/
def State.malStart (s : State) (g : Nat) (cf : Cfg) (r : TaskRec) (old : Bool) (k : Nat) : State :=
  let entry := match cf.progs.find? (fun p => p.core == g) with | none => 0 | some p => p.entry
  let seq := ((cf.tasks.filter (fun q => q.kind == 1 && q.unit == g)).map (·.task)).takeWhile (fun q => q != r.task)
  let h := s.taskHist r.task old
  let c := s.core g
  let c1 := { ((c.setSr (maskWrite (s.fld (R.CCR_SR_INIT_SR g) &&& srWritable) 0x3000 0)).wr 51 0x17) with
    pend := [], pc := entry, loops := [], closing := none, slots := 0, after := .fall, rpt := 0, stack := [],
    stall := .none, waited := false, written := [], task := some ⟨r.task, old, r.cost, k⟩ }
  (((((((s.setCore g c1).setFld (R.CCR_TASK_INFO_PREV_CAUSE g) h.1).setFld (R.CCR_TASK_INFO_GAP g) (flag h.2)).setFld
    (R.CCR_TASK_INFO_DOMAIN_B g) (flag r.domainB)).setFld (R.CCR_TASK_INFO_TASK g) r.task).setFld
    (R.CCR_TASK_INFO_SEQ g) seq.length).setFld (R.CCR_TASK_BLK_BLK g) k).setFld (R.CCR_CYCLES_COUNT g) 0

/-- A posted transfer completes (R164). `cycles` is how long the core had been stalled, where it was. -/
def State.busComplete (s : State) (g cycles : Nat) : State :=
  let c := s.core g
  match c.posted with
  | [] => s
  | p :: rest =>
    let s0 := if c.stall = .none then s else s.addCycles g cycles
    let s1 :=
      if p.kind < 2 then s0.putData g p.word (s0.binWords p)
      else if p.dead then s0
      else
        s0.inVersion p.old (fun s => match s.cfg with
          | none => s
          | some cf =>
            let n := busCount cf p.blk p.bus []
            s.writeBus cf p.blk p.bus ((List.range n).map (fun j => ofCodeS 24 (s.dataWord g (p.word + 1 + j)))))
    let c1 := { s1.core g with posted := rest }
    match c1.stall with
    | .busFull => (s1.setCore g { c1 with stall := .none }).resume g
    | .bsync => s1.setCore g { c1 with stall := if rest = [] then .none else .bsync }
    | .tend =>
      let beyond := match c1.task with | none => true | some t => decide (t.cost < s1.fld (R.CCR_CYCLES_COUNT g))
      if c1.busWrites || beyond then s1.setCore g c1
      else (s1.setCore g { c1 with stall := .none }).finishTask g
    | _ => s1.setCore g c1

/-- A slow-path load's data arrives (R145): 10 to 25 cycles after its issue. -/
def State.slowDone (s : State) (g cycles : Nat) : State :=
  match (s.core g).stall with
  | .slow (l :: rest) =>
    if 10 ≤ cycles ∧ cycles ≤ 25 then
      let s1 := s.takeSlow g l
      ((s1.setCore g { s1.core g with stall := if rest = [] then .none else .slow rest }).addCycles g cycles).resume g
    else s
  | _ => s

/-- The clearing of a source by its accept (R156). -/
def State.takeSource (s : State) (g src : Nat) : State :=
  s.setFld (R.CCR_INT_PEND_PEND g) (withoutBit (s.fld (R.CCR_INT_PEND_PEND g)) src)

/-- A fast accept (R158). -/
def State.fastAccept (s : State) (g : Nat) : State :=
  match s.acceptable g with
  | some (true, src) =>
    let s1 := (s.setCore g (s.core g).closeLoop).drain g
    let c := s1.core g
    let sr := c.rd 50
    let s2 := ((s1.takeSource g src).setFld (R.CCR_FPC_PC g) c.pc).setFld (R.CCR_FSR_SR g) sr
    (s2.setCore g { (c.exchange.setSr (maskWrite sr 0x2200 0x2000)) with
      pc := s2.fld (R.CCR_VEC_ADDR g src), waited := false }).addCycles g 1
  | _ => s

/-- A normal accept (R159). -/
def State.normalAccept (s : State) (g : Nat) : State :=
  match s.acceptable g with
  | some (false, src) =>
    let s1 := (s.setCore g (s.core g).closeLoop).drain g
    let c := s1.core g
    let sr := c.rd 50
    if 16 ≤ c.stack.length then s1.malException g 4
    else
      let s2 := s1.takeSource g src
      (s2.setCore g { (c.setSr (maskWrite sr 0x1200 0x1000)) with
        stack := (c.pc, sr) :: c.stack, pc := s2.fld (R.CCR_VEC_ADDR g src), waited := false }).addCycles g 1
  | _ => s

/-- Whether a core stands in a stall whose length its program does not set: a WAIT, or a wait for posted transfers. -/
def Core.stands (c : Core) : Bool := match c.stall with | .wait | .bsync | .busFull | .tend => true | _ => false

/-- TIMER runs out during a stall of a running task (R156, R173): as many cycles pass, which CYCLES counts. Between bundles it runs out as
their cycles are counted. -/
def State.timerExpiry (s : State) (g : Nat) : State :=
  let t := s.fld (R.CCR_TIMER_COUNT g)
  if (s.core g).stands ∧ 0 < t ∧ t ≤ s.cyclesLeft g then s.addCycles g t else s

/-- Whether COST can come before a core's stall ends (R83): a slow-path load lasts at most 25 cycles, and a WAIT ends with TIMER where
source 8 is enabled. -/
def State.mayReachCost (s : State) (g : Nat) : Bool :=
  let c := s.core g
  match c.stall with
  | .none => s.cyclesLeft g == 0
  | .slow l => decide (s.cyclesLeft g ≤ 25 * l.length)
  | .wait => decide (s.cyclesLeft g ≤ s.waitLimit g)
  | _ => true

/-- CYCLES reaches COST (R83, R141): the task is stopped, where it stands in a stall after the cycles that were left. -/
def State.costReached (s : State) (g : Nat) : State :=
  if s.mayReachCost g then (s.addCycles g (s.cyclesLeft g)).stopTask g 1 else s

/-! ### Parameter words and windows (R168-R171) -/

/-- Whether a word lies in a PARAMETER range of a core (R169). -/
def State.isParam (s : State) (g w : Nat) : Bool :=
  match s.cfg with
  | none => false
  | some c => c.datas.any (fun d => d.core == g && d.parameter && decide (d.start ≤ w ∧ w < d.start + d.words.length))

/-- Refuse a window write or command of cluster `cl` (R168-R171). -/
def State.malRefuse (s : State) (cl : Nat) : State :=
  s.countAndRaise (R.MAL_CL_REFUSED_COUNT_COUNT cl) (R.MAL_CL_INT_STATUS_REFUSED cl)

/-- A parameter command waits (R170). -/
def State.malDefer (s : State) (cl : Nat) : State :=
  s.countAndRaise (R.MAL_CL_PARAM_DEFER_COUNT cl) (R.MAL_CL_INT_STATUS_PARAM_DEFER cl)

/-- Write parameter words of a core at a boundary, where the 64 words allow (R170). -/
def State.putParams (s : State) (g : Nat) (ws : List (Nat × Nat)) : Option State :=
  let used := Tbl.get s.mal.applied g 0
  if used + ws.length ≤ 64 then
    let s1 := ws.foldl (fun s w => s.setData g w.1 w.2) s
    some { s1 with mal := { s1.mal with applied := Tbl.set s1.mal.applied g 0 (used + ws.length) } }
  else none

/-- Apply one Mallet command of cluster `cl` at its boundary (R170, R171): `none` where it waits; otherwise its status and
the state after. -/
def State.malApply (s : State) (cl : Nat) (c : Cmd) (f : Fetch) : Option (Nat × State) :=
  let discard := some (2, s.malRefuse cl)
  match c with
  | .paramSet core count start values =>
    let ws := (List.range count).map (fun j => (start + j, (values.getD j 0).toNat % 2 ^ 24))
    if core ≤ 63 ∧ 1 ≤ count ∧ count ≤ 3 ∧ ws.all (fun w => s.isParam core w.1) then (s.putParams core ws).map (fun s => (0, s))
    else discard
  | .paramList core count addr =>
    if core ≤ 63 ∧ 1 ≤ count ∧ count ≤ 64 ∧ addr % 8 = 0 then
      match f with
      | .done bs =>
        let ws := (List.range count).map (fun k => (leAt bs (8 * k) 2, leAt bs (8 * k + 4) 4 % 2 ^ 24))
        if ws.all (fun w => s.isParam core w.1) then (s.putParams core ws).map (fun s => (0, s)) else discard
      | .failed => discard
      | _ => none
    else discard
  | .paramWrite core w v => (s.putParams core [(w, v.toNat)]).map (fun s => (0, s))
  | _ => some (2, s)

/-- The boundary of cluster `cl` at a token: the 64 words of each core start anew (R170). -/
def State.malBoundary (s : State) (cl : Nat) : State :=
  { s with mal := { s.mal with applied := s.mal.applied.filter (fun e => e.1 / 16 != cl) } }

/-- A write through the data window (R169, R170): a parameter word is queued, at most 256 of them; shared memory is
written at once; any other write is refused. `w` is the word of the window. -/
def State.dataWindowWrite (s : State) (cl w : Nat) (v : Word) : XbResp × State :=
  let target := s.fld (R.MAL_CL_DWIN_SEL_TARGET cl)
  if target < 16 then
    let g := 16 * cl + target
    let queued := (s.held.filter (fun h => h.eng == .mal cl && (match h.cmd with | .paramWrite .. => true | _ => false))).length
    if s.isParam g w ∧ queued < 256 then
      (.ok, s.hold (heldOf (.mal cl) (.paramWrite g w (BitVec.ofNat 24 v.toNat)) .notNeeded))
    else (.targetErr, s.malRefuse cl)
  else if target = 16 then
    let a := 262144 * s.fld (R.MAL_CL_DWIN_SEL_PAGE cl) + 4 * w
    (.ok, s.putShared cl a ((leBytes 4 (codeS 32 (low24 v))).map some))
  else (.targetErr, s.malRefuse cl)

/-- A read through the data window (R169). -/
def State.dataWindowRead (s : State) (cl w : Nat) : Nat :=
  let target := s.fld (R.MAL_CL_DWIN_SEL_TARGET cl)
  if target < 16 then codeS 32 (ofCodeS 24 (s.dataWord (16 * cl + target) w))
  else if target = 16 then
    codeS 32 (ofCodeS 24 (s.sharedWord (16 * cl) (65536 * s.fld (R.MAL_CL_DWIN_SEL_PAGE cl) + w)))
  else 0

/-- A write of CCR MBOX_IN from outside (R168, R173). -/
def State.mboxInWrite (s : State) (g : Nat) (v : Word) : State :=
  (s.setFld (R.CCR_MBOX_IN_DATA g) v.toNat).raiseSource g 6

/-- A read of MBOX_OUT from outside clears its pending bit (R173). -/
def State.mboxOutRead (s : State) (g : Nat) : Nat × State :=
  let f := R.MAL_CL_MBOX_PEND_PEND (g / 16)
  (s.fld (R.CCR_MBOX_OUT_DATA g), s.setFld f (withoutBit (s.fld f) (g % 16)))

/-- A Mallet command of cluster `cl` given as a row: applied at the boundary its island is at, before that boundary's first dispatch, or
held for the next one (R170). -/
def State.malCommand (s : State) (cl : Nat) (c : Cmd) : State :=
  if s.atBoundary (.mal cl) 1 then
    match s.malApply cl c .notNeeded with
    | some r => r.2
    | none => (s.holdLate (.mal cl) c).malDefer cl
  else s.hold (heldOf (.mal cl) c .notNeeded)

/-! ### The commands: instructions -/

def execNop (core : Nat) (s : State) : Host.Outcome State Fault Refusal := .next (s.malIssue core .nop)
def execBra (core : Nat) (s : State) : Host.Outcome State Fault Refusal := .next (s.malIssue core .bra)
def execCall (core : Nat) (s : State) : Host.Outcome State Fault Refusal := .next (s.malIssue core .call)
def execRet (core : Nat) (s : State) : Host.Outcome State Fault Refusal := .next (s.malIssue core .ret)
def execJmp (core : Nat) (s : State) : Host.Outcome State Fault Refusal := .next (s.malIssue core .jmp)
def execCallr (core : Nat) (s : State) : Host.Outcome State Fault Refusal := .next (s.malIssue core .callr)
def execRtif (core : Nat) (s : State) : Host.Outcome State Fault Refusal := .next (s.malIssue core .rtif)
def execRtin (core : Nat) (s : State) : Host.Outcome State Fault Refusal := .next (s.malIssue core .rtin)
def execTend (core : Nat) (s : State) : Host.Outcome State Fault Refusal := .next (s.malIssue core .tend)
def execLoopi (core : Nat) (s : State) : Host.Outcome State Fault Refusal := .next (s.malIssue core .loopi)
def execLoopr (core : Nat) (s : State) : Host.Outcome State Fault Refusal := .next (s.malIssue core .loopr)
def execLoopl (core : Nat) (s : State) : Host.Outcome State Fault Refusal := .next (s.malIssue core .loopl)

/-- The closing test at LA (R154), after the bundle there has issued. -/
def execLoopClose (core : Nat) (s : State) : Host.Outcome State Fault Refusal :=
  let c := s.core core
  if c.task.isSome ∧ c.slots = 0 ∧ c.stall = .none then .next (s.setCore core c.closeLoop) else .next s

def execLeave (core : Nat) (s : State) : Host.Outcome State Fault Refusal := .next (s.malIssue core .leave)
def execRpti (core : Nat) (s : State) : Host.Outcome State Fault Refusal := .next (s.malIssue core .rpti)
def execRptr (core : Nat) (s : State) : Host.Outcome State Fault Refusal := .next (s.malIssue core .rptr)
def execBsync (core : Nat) (s : State) : Host.Outcome State Fault Refusal := .next (s.malIssue core .bsync)
def execWait (core : Nat) (s : State) : Host.Outcome State Fault Refusal := .next (s.malIssue core .wait)
def execBin (core : Nat) (s : State) : Host.Outcome State Fault Refusal := .next (s.malIssue core .bin)
def execBinp (core : Nat) (s : State) : Host.Outcome State Fault Refusal := .next (s.malIssue core .binp)
def execBout (core : Nat) (s : State) : Host.Outcome State Fault Refusal := .next (s.malIssue core .bout)

def execBusTransferComplete (core cycles : Nat) (s : State) : Host.Outcome State Fault Refusal :=
  .next (s.busComplete core cycles)

def execMla2 (core : Nat) (s : State) : Host.Outcome State Fault Refusal := .next (s.malIssue core .mla2)
def execMlas (core : Nat) (s : State) : Host.Outcome State Fault Refusal := .next (s.malIssue core .mlas)
def execMul2 (core : Nat) (s : State) : Host.Outcome State Fault Refusal := .next (s.malIssue core .mul2)
def execMls2 (core : Nat) (s : State) : Host.Outcome State Fault Refusal := .next (s.malIssue core .mls2)
def execAluNop (core : Nat) (s : State) : Host.Outcome State Fault Refusal := .next (s.malIssue core .aluNop)
def execZero (core : Nat) (s : State) : Host.Outcome State Fault Refusal := .next (s.malIssue core .zero)
def execCopy (core : Nat) (s : State) : Host.Outcome State Fault Refusal := .next (s.malIssue core .copy)
def execAdds (core : Nat) (s : State) : Host.Outcome State Fault Refusal := .next (s.malIssue core .adds)
def execSubs (core : Nat) (s : State) : Host.Outcome State Fault Refusal := .next (s.malIssue core .subs)
def execNegt (core : Nat) (s : State) : Host.Outcome State Fault Refusal := .next (s.malIssue core .negt)
def execMagn (core : Nat) (s : State) : Host.Outcome State Fault Refusal := .next (s.malIssue core .magn)
def execShla (core : Nat) (s : State) : Host.Outcome State Fault Refusal := .next (s.malIssue core .shla)
def execShra (core : Nat) (s : State) : Host.Outcome State Fault Refusal := .next (s.malIssue core .shra)
def execRndh (core : Nat) (s : State) : Host.Outcome State Fault Refusal := .next (s.malIssue core .rndh)
def execMaxs (core : Nat) (s : State) : Host.Outcome State Fault Refusal := .next (s.malIssue core .maxs)
def execMins (core : Nat) (s : State) : Host.Outcome State Fault Refusal := .next (s.malIssue core .mins)
def execComp (core : Nat) (s : State) : Host.Outcome State Fault Refusal := .next (s.malIssue core .comp)
def execTest (core : Nat) (s : State) : Host.Outcome State Fault Refusal := .next (s.malIssue core .test)
def execAnd (core : Nat) (s : State) : Host.Outcome State Fault Refusal := .next (s.malIssue core .and)
def execIor (core : Nat) (s : State) : Host.Outcome State Fault Refusal := .next (s.malIssue core .ior)
def execXor (core : Nat) (s : State) : Host.Outcome State Fault Refusal := .next (s.malIssue core .xor)
def execMul (core : Nat) (s : State) : Host.Outcome State Fault Refusal := .next (s.malIssue core .mul)
def execMula (core : Nat) (s : State) : Host.Outcome State Fault Refusal := .next (s.malIssue core .mula)
def execMuls (core : Nat) (s : State) : Host.Outcome State Fault Refusal := .next (s.malIssue core .muls)
def execLdi (core : Nat) (s : State) : Host.Outcome State Fault Refusal := .next (s.malIssue core .ldi)
def execLdl (core : Nat) (s : State) : Host.Outcome State Fault Refusal := .next (s.malIssue core .ldl)
def execMove (core : Nat) (s : State) : Host.Outcome State Fault Refusal := .next (s.malIssue core .move)
def execAddp (core : Nat) (s : State) : Host.Outcome State Fault Refusal := .next (s.malIssue core .addp)
def execAddpl (core : Nat) (s : State) : Host.Outcome State Fault Refusal := .next (s.malIssue core .addpl)
def execMovcFromCcr (core : Nat) (s : State) : Host.Outcome State Fault Refusal := .next (s.malIssue core .movcFrom)
def execMovcToCcr (core : Nat) (s : State) : Host.Outcome State Fault Refusal := .next (s.malIssue core .movcTo)
def execLdr (core : Nat) (s : State) : Host.Outcome State Fault Refusal := .next (s.malIssue core .ldr)
def execStr (core : Nat) (s : State) : Host.Outcome State Fault Refusal := .next (s.malIssue core .str)
def execMov2 (core : Nat) (s : State) : Host.Outcome State Fault Refusal := .next (s.malIssue core .mov2)
def execBfly (core : Nat) (s : State) : Host.Outcome State Fault Refusal := .next (s.malIssue core .bfly)
def execBexp (core : Nat) (s : State) : Host.Outcome State Fault Refusal := .next (s.malIssue core .bexp)
def execBscale (core : Nat) (s : State) : Host.Outcome State Fault Refusal := .next (s.malIssue core .bscale)
def execBeclr (core : Nat) (s : State) : Host.Outcome State Fault Refusal := .next (s.malIssue core .beclr)

/-! ### The commands: events and outside access -/

def execSlowPathLoadDone (core cycles : Nat) (s : State) : Host.Outcome State Fault Refusal := .next (s.slowDone core cycles)

def execFastAccept (core : Nat) (s : State) : Host.Outcome State Fault Refusal := .next (s.fastAccept core)

def execNormalAccept (core : Nat) (s : State) : Host.Outcome State Fault Refusal := .next (s.normalAccept core)

def execTimerExpiry (core : Nat) (s : State) : Host.Outcome State Fault Refusal := .next (s.timerExpiry core)

/-- A write of DMA_CTRL by the core's program (R166). -/
def execDmaStart (core channel : Nat) (value : Word) (s : State) : Host.Outcome State Fault Refusal :=
  .next (s.dmaCtrlWrite core channel value.toNat)

def execParamSet (core count start : Nat) (values : List Word) (s : State) : Host.Outcome State Fault Refusal :=
  .next (s.malCommand (core / 16 % 4) (.paramSet core count start values))

/-- Take a PARAM_LIST in: its fetch starts (R171). -/
def execParamList (core count addr : Nat) (s : State) : Host.Outcome State Fault Refusal :=
  .next (s.hold (heldOf (.mal (core / 16 % 4)) (.paramList core count addr) .running))

end Sys2Proof.Machine
end

