-- ==== Sys2Proof/Machine/Rings.lean ====
section
/-! DEFINITION. Rings and the crossbar's ports (R218-R219, R223-R241): records and completions, resizes, fences, MSI-X
moderation, the watchdog and master resets, barriers. -/

namespace Sys2Proof.Machine

/-- Break a lock (R228). -/
def State.breakLock (s : State) (m target cause : Nat) : State :=
  let s1 := ((((s.setFld R.XB_LOCK_BROKEN_VALID 1).setFld R.XB_LOCK_BROKEN_CAUSE cause).setFld
    R.XB_LOCK_BROKEN_TARGET target).setFld R.XB_LOCK_BROKEN_MASTER m).bump R.XB_LOCK_BROKEN_COUNT_COUNT
  s1.raise R.XB_INT_STATUS_LOCK_BROKEN

/-- Break the locks that a master holds: the targets are released (R228). -/
def State.breakLocks (s : State) (m cause : Nat) : State :=
  (s.hif.locks.filter (fun l => l.master == m)).foldl (fun s l => s.breakLock m l.target cause)
    { s with hif := { s.hif with locks := s.hif.locks.filter (fun l => l.master != m) } }

/-- The transactions of a master that are in flight are retired (R228): what waits in the port is never sent; what was forwarded and is
not finished goes on without effect on its master. -/
def State.retire (s : State) (m : Nat) : State :=
  let left := s.hif.queue.filter (fun (r : XbReq) => r.master != m || (r.admitted && r.answer.isNone))
  let s1 : State := { s with hif := { s.hif with queue := left.map (fun (r : XbReq) => if r.master = m then { r with dead := true } else r) } }
  s1.showOutstanding m

/-- Reset master `m` (R228): its lock is broken, its transactions are retired, its barriers are discarded, and its port is RESETTING until
every ID is retired; it is QUARANTINED no longer (R227). -/
def State.resetMaster (s : State) (m : Nat) : State :=
  let s1 := (s.breakLocks m 0).retire m
  let s2 := { s1 with hif := { s1.hif with
    resetting := if m ∈ s1.hif.resetting then s1.hif.resetting else m :: s1.hif.resetting
    barriers := s1.hif.barriers.filter (fun b => b.master != m) } }
  (s2.setFld (R.SYS_BARRIER_DONE_PENDING m) 0).setFld R.XB_QUARANTINE_MASTER (withoutBit (s2.fld R.XB_QUARANTINE_MASTER) m)

/-- The masters of a power domain, which are reset with it and as it is switched off (R220, R228). -/
def mastersOf (d : Nat) : List Nat :=
  match d with
  | 3 => [4]
  | 4 => [5]
  | 5 | 6 | 7 | 8 => [d + 1]
  | 9 => [11, 12, 13, 14, 15, 16]
  | 10 => [20, 21]
  | 11 => [19]
  | 12 => [10]
  | _ => []

/-- The counters of XB_COUNT_CLEAR, and the peaks counted since (R245). -/
def xbCounts : List Fld :=
  [R.XB_DECERR_COUNT_COUNT, R.XB_CONFLICT_PEAK, R.XB_CONFLICT_LAST, R.XB_WDOG_COUNT_COUNT, R.XB_LOCK_BROKEN_COUNT_COUNT] ++
  (List.range 24).map R.XB_OUTSTANDING_PEAK

/-! ### Rings -/

/-- Ring `n` beside its registers. -/
def State.ring (s : State) (n : Nat) : Ring := Tbl.get s.rings n .idle

/-- Write ring `n`. -/
def State.setRing (s : State) (n : Nat) (r : Ring) : State := { s with rings := Tbl.set s.rings n .idle r }

/-- Entries of ring `n` (R229). -/
def State.ringSize (s : State) (n : Nat) : Nat := 2 ^ s.fld (R.RNG_CFG_LOG2 n)

/-- Entries between HEAD and TAIL. -/
def State.ringUsed (s : State) (n : Nat) : Nat :=
  (s.fld (R.RNG_TAIL_INDEX n) + s.ringSize n - s.fld (R.RNG_HEAD_INDEX n)) % s.ringSize n

/-- The internal address of entry `i` of ring `n`. -/
def State.ringAddr (s : State) (n i : Nat) : Nat := s.fld (R.RNG_CFG_BASE n) * 64 + 32 * i

/-- A ring is enabled and not halted. A ring is HALTED from its FETCH_ERR until ENABLE is written 0 (R239). -/
def State.ringOn (s : State) (n : Nat) : Bool :=
  decide (s.fld (R.RNG_CTRL_ENABLE n) = 1 ∧ s.fld (R.RNG_STATUS_STATE n) ≠ 5)

/-- Places reserved in record ring `n` (R238). -/
def State.ringReserved (s : State) (n : Nat) : Nat :=
  s.rings.foldl (fun k e => k + (e.2.flight.filter (fun f => f.2 == some n)).length) 0

/-- Places of record ring `n` that are neither written and unread nor reserved (R238); 64 records are held during a resize
(R240). -/
def State.ringRoom (s : State) (n : Nat) : Nat :=
  (if (s.ring n).resize.isSome then 64 else s.ringSize n - 1 - s.ringUsed n) - (s.ring n).recs.length - s.ringReserved n

/-- The record ring that a command ring's completions go to (R237, R246). -/
def State.cplRing (s : State) (n : Nat) : Option Nat :=
  let c := s.fld (R.RNG_CTRL_CPL_RING n)
  if 32 ≤ c then some c else none

/-- Whether a command ring can hand over a command: its record ring has a place, or takes no completion (R238). -/
def State.placeFor (s : State) (n : Nat) : Bool :=
  match s.cplRing n with
  | none => true
  | some c => !s.ringOn c || decide (0 < s.ringRoom c)

/-- A fence of the ring's present run holds it (R234). -/
def State.fenced (s : State) (n : Nat) : Bool := (s.ring n).fences.any (fun f => decide ((s.ring n).base ≤ f.seq))

/-- RNG_STATUS.STATE (R239). The stored field keeps only HALTED. -/
def State.ringState (s : State) (n : Nat) : Nat :=
  if s.fld (R.RNG_CTRL_ENABLE n) = 0 then 0
  else if s.fld (R.RNG_STATUS_STATE n) = 5 then 5
  else if (s.ring n).resize.isSome then 4
  else if n < 32 then
    if s.fenced n then 2
    else if (s.ring n).holdWait then 3
    else if 0 < s.ringUsed n ∧ s.placeFor n = false then 3
    else 1
  else if s.ringUsed n + 1 = s.ringSize n then 3 else 1

/-- Halt a ring on an error response (R239): records that wait for it are dropped (R237). -/
def State.haltRing (s : State) (n : Nat) : State :=
  ((s.setRing n { s.ring n with recs := [] }).setFld (R.RNG_STATUS_STATE n) 5).raise (R.RNG_STATUS_FETCH_ERR n)

/-- Put PHASE into a record (R236). -/
def withPhase (bs : List Byte) (phase : Nat) : List Byte := bs.take 15 ++ [BitVec.ofNat 8 phase] ++ bs.drop 16

/-- A record stands at TAIL of ring `n` (R229, R236, R246): TAIL moves on, PHASE inverts at a wrap, and a record with IRQ raises the vector. -/
def State.recordPosted (s : State) (n : Nat) (irq : Bool) : State :=
  let t := s.fld (R.RNG_TAIL_INDEX n)
  let wrap := decide (t + 1 = s.ringSize n)
  let s1 := ((s.setFld (R.RNG_TAIL_INDEX n) (if wrap then 0 else t + 1)).bump (R.RNG_DONE_COUNT n)).setRing n
    { s.ring n with phase := if wrap then 1 - (s.ring n).phase else (s.ring n).phase }
  if irq && decide (s1.fld (R.RNG_CTRL_IRQ_EN n) = 1) then s1.raiseVector (64 + n) else s1

/-- A record waits behind those that already wait. -/
def State.keepRecord (s : State) (n : Nat) (bs : List Byte) (irq : Bool) : State :=
  s.setRing n { s.ring n with recs := (s.ring n).recs ++ [(bs, irq)] }

/-- Write one record at TAIL of ring `n` through the ring engine's port, as one 32-byte write (R220, R236): an error response halts the
ring (R239). A ring must lie in memory (notes/assumptions/29). -/
def State.putRecord (s : State) (n : Nat) (bs : List Byte) (irq : Bool) : State :=
  let a := s.ringAddr n (s.fld (R.RNG_TAIL_INDEX n))
  match s.passage 18 a with
  | .forwarded =>
    let r := (s.touch 18).memStore 18 a ((withPhase bs (s.ring n).phase).map some)
    if r.1 = .ok then r.2.recordPosted n irq else r.2.haltRing n
  | .refused => s.haltRing n
  | .held => s.keepRecord n bs irq
  | .stopped => s.keepRecord n bs irq

/-- Post a record (R236-R240): dropped on a ring that is DISABLED or HALTED; it waits while a resize is pending, while the ring is full,
and behind records that wait. -/
def State.postRecord (s : State) (n : Nat) (bs : List Byte) (irq : Bool) : State :=
  if s.ringOn n && decide (32 ≤ n ∧ n < 64) then
    if (s.ring n).resize.isSome ∨ (s.ring n).recs ≠ [] ∨ s.ringSize n ≤ s.ringUsed n + 1 then s.keepRecord n bs irq
    else s.putRecord n bs irq
  else s

/-- Write the records that wait for ring `n`, in order, as far as they go (R238, R240). -/
def State.flushRecords (s : State) (n : Nat) : State :=
  (s.ring n).recs.foldl (fun s r => s.postRecord n r.1 r.2) (s.setRing n { s.ring n with recs := [] })

/-- Every ring with records that wait. -/
def State.flushAll (s : State) : State := (s.rings.filter (fun e => e.2.recs != [])).foldl (fun s e => s.flushRecords e.1) s

/-- Whether record ring `n` takes a record of a block's own kind now (R238). -/
def State.recordReady (s : State) (n : Nat) : Bool :=
  decide (32 ≤ n ∧ n < 64) && s.ringOn n && decide (0 < s.ringRoom n)

/-- A completion record (R236, R237). -/
def cplRecord (h : Held) (status blk : Nat) : List Byte :=
  [1, BitVec.ofNat 8 status, BitVec.ofNat 8 (h.ring.getD 0), BitVec.ofNat 8 h.opcode] ++ leBytes 4 h.cookie ++
  leBytes 6 blk ++ [0, 0] ++ leBytes 2 h.index ++ List.replicate 14 0

/-- A ring command has taken effect or been discarded in block `blk` (R232, R236-R238): its place, its counts and its completion. -/
def State.completeAt (s : State) (h : Held) (status blk : Nat) : State :=
  match h.ring with
  | none => s
  | some n =>
    let r := s.ring n
    let place := (r.flight.find? (fun f => f.1 == h.seq)).bind (·.2)
    let s1 := s.setRing n { r with flight := r.flight.filter (fun f => f.1 != h.seq) }
    let s2 := s1.bump (R.RNG_DONE_COUNT n)
    let s3 :=
      if status = 1 then s2.countAndRaise R.RNG_LATE_COUNT_COUNT R.RNG_INT_STATUS_LATE
      else if 2 ≤ status then s2.countAndRaise R.RNG_DISCARD_COUNT_COUNT R.RNG_INT_STATUS_DISCARD
      else s2
    if h.cpl || decide (2 ≤ status) then
      match (if place.isSome then place else s3.cplRing n) with
      | none => s3
      | some c => s3.postRecord c (cplRecord h status blk) h.irq
    else s3

/-- The block in which a command takes effect or is discarded now (R236): its engine's, at its boundary; the ring engine's own commands, and
those of an engine whose domain is off, in the running block. -/
def State.effectBlock (s : State) (h : Held) : Nat :=
  if h.eng = .ring ∨ s.domainOn (engineDomain h.eng) = false then s.blk.index else (s.cmdBoundary h).1

/-- A ring command has taken effect or been discarded by its engine. -/
def State.complete (s : State) (h : Held) (status : Nat) : State := s.completeAt h status (s.effectBlock h)

/-- A ring command is discarded, or takes effect, in the ring engine. -/
def State.completeNow (s : State) (h : Held) (status : Nat) : State := s.completeAt h status s.blk.index

/-- Whether the object of a held command has left with a swap (R63). -/
def State.stale (s : State) (h : Held) : Bool := h.known && !s.hasObject h.cmd

/-- A command whose object has left with a swap is discarded (R63). -/
def State.discardStale (s : State) (h : Held) : State :=
  ((s.bump R.PEAL_STALE_CMD_COUNT_COUNT).raise R.PEAL_INT_STATUS_STALE_CMD).complete h 3

/-- The commands that the engines of a domain hold are discarded as it is reset or switched off (R30, R63, R232;
notes/assumptions/51). -/
def State.discardHeld (s : State) (d : Nat) : State :=
  let sending := if d = 9 then (s.net.txQ.map (·.cmd)).dedup else []
  (s.held.filter (fun h => engineDomain h.eng == d) ++ sending).foldl (fun s h => if s.stale h then s.discardStale h else s.completeNow h 2)
    { s with held := s.held.filter (fun h => engineDomain h.eng != d) }

/-! ### Fences (R234) -/

/-- The number of the entry after the last that TAIL of ring `n` has passed. -/
def State.tailSeq (s : State) (n : Nat) : Nat := (s.ring n).fetched + s.ringUsed n

/-- The latest entry at index `i` that TAIL of ring `n` has passed since the ring was last enabled or resized. -/
def State.latestAt (s : State) (n i : Nat) : Option Nat :=
  let b := (s.ring n).base
  if i < s.ringSize n ∧ b + i < s.tailSeq n then
    some (b + i + (s.tailSeq n - 1 - (b + i)) / s.ringSize n * s.ringSize n)
  else none

/-- Settle which entry the fences that wait on ring `n` wait for, as TAIL passes the first one at WAIT_INDEX. -/
def State.resolveFences (s : State) (n : Nat) : State :=
  { s with rings := s.rings.map (fun e => (e.1, { e.2 with fences := e.2.fences.map (fun f =>
      match f.wait with
      | some (r, i, none) =>
        if r = n ∧ (s.ring n).base + i < s.tailSeq n ∧ i < s.ringSize n then
          { f with wait := some (r, i, some ((s.ring n).base + i)) } else f
      | _ => f) })) }

/-- Whether every entry of ring `n` up to number `q` has taken effect. -/
def State.entriesDone (s : State) (n q : Nat) : Bool :=
  decide (q < (s.ring n).fetched) && (s.ring n).flight.all (fun f => decide (q < f.1))

/-- The conditions of a held FENCE (R234). -/
def State.fenceMet (s : State) (n : Nat) (f : Fence) : Bool :=
  (s.ring n).flight.all (fun g => decide (f.seq ≤ g.1)) &&
  (match f.wait with
   | none => true
   | some (_, _, none) => false
   | some (r, _, some q) => s.entriesDone r q)

/-- Take the entry at HEAD of ring `n` (R229, R238): HEAD moves on, the command is in flight, and it reserves its place.
The answer carries its number and its index. -/
def State.takeEntry (s : State) (n : Nat) : (Nat × Nat) × State :=
  let i := s.fld (R.RNG_HEAD_INDEX n)
  let r := s.ring n
  let place := match s.cplRing n with | some c => if s.ringOn c then some c else none | none => none
  ((r.fetched, i), (s.setRing n { r with fetched := r.fetched + 1, flight := r.flight ++ [(r.fetched, place)], holdWait := false }).setFld
    (R.RNG_HEAD_INDEX n) (if i + 1 = s.ringSize n then 0 else i + 1))

/-- Whether ring `n` may take its next entry: RUNNING, STALLED with room again, or RESIZE_PENDING (R238-R240). -/
def State.mayFetch (s : State) (n : Nat) : Bool :=
  decide (n < 32) && s.ringOn n && !s.fenced n && decide (0 < s.ringUsed n) && s.placeFor n

/-- A command taken from ring `n`. -/
def ringHeld (n : Nat) (q : Nat × Nat) (e : Engine) (c : Cmd) (stamp : Option Nat) (cpl irq : Bool) (opcode cookie : Nat) : Held :=
  ⟨0, e, c, stamp, cpl, irq, opcode, cookie, some n, q.2, q.1, 18, 0, .notNeeded, false, none, false, false⟩

/-- FENCE as fetched (R231, R234): discarded with 0x07 where WAIT_EN names an invalid ring; otherwise it holds its ring. -/
def State.startFence (s : State) (n : Nat) (q : Nat × Nat) (cpl irq : Bool) (cookie waitRing : Nat) (waitEn : Bool)
    (waitIndex : Nat) : State :=
  if waitEn && decide (31 < waitRing ∨ waitRing = n) then
    s.complete (ringHeld n q .ring .nop none cpl irq 1 cookie) 7
  else
    let w := if waitEn then some (waitRing, waitIndex, s.latestAt waitRing waitIndex) else none
    s.setRing n { s.ring n with fences := (s.ring n).fences ++ [⟨q.1, q.2, cpl, irq, cookie, w⟩] }

/-- Release the oldest fence of ring `n` whose conditions hold (R234). -/
def State.releaseFence (s : State) (n : Nat) : State :=
  match (s.ring n).fences with
  | [] => s
  | f :: fs =>
    if s.fenceMet n f then
      (s.setRing n { s.ring n with fences := fs }).complete (ringHeld n (f.seq, f.index) .ring .nop none f.cpl f.irq 1 f.cookie) 0
    else s

/-! ### Ring registers (R229, R239, R240, R246) -/

/-- A ring starts again with both indices 0 and PHASE 1. -/
def State.restartRing (s : State) (n : Nat) : State :=
  let b := s.tailSeq n
  ((s.setRing n { s.ring n with base := b, fetched := b, phase := 1, holdWait := false }).setFld (R.RNG_HEAD_INDEX n) 0).setFld
    (R.RNG_TAIL_INDEX n) 0

/-- A write of RNG_CTRL (R246). -/
def State.ringCtrlWrite (s : State) (n : Nat) (v : Word) : State :=
  let x := v.toNat
  let cpl := bits x 13 8
  let s0 := (s.setFld (R.RNG_CTRL_MOD n) (bits x 23 16)).setFld (R.RNG_CTRL_IRQ_EN n) (bit x 0)
  let flags := s.regWord (R.RNG_STATUS_BAD_CFG n).addr % 64
  let s1 := if s.fld (R.RNG_CTRL_IRQ_EN n) = 0 ∧ bit x 0 = 1 ∧ flags ≠ 0 then s0.raiseVector (64 + n) else s0
  let s2 :=
    if n < 32 ∧ cpl ≠ 0 ∧ cpl < 32 then (s1.setFld (R.RNG_CTRL_CPL_RING n) 0).raise (R.RNG_STATUS_BAD_CFG n)
    else s1.setFld (R.RNG_CTRL_CPL_RING n) cpl
  let s3 :=
    if bit x 31 = 1 then
      if s2.fld (R.RNG_CTRL_ENABLE n) = 1 then s2
      else if 4 ≤ s2.fld (R.RNG_CFG_LOG2 n) ∧ s2.fld (R.RNG_CFG_LOG2 n) ≤ 12 then (s2.restartRing n).setFld (R.RNG_CTRL_ENABLE n) 1
      else s2.raise (R.RNG_STATUS_BAD_CFG n)
    else
      ((s2.setFld (R.RNG_CTRL_ENABLE n) 0).setFld (R.RNG_STATUS_STATE n) 0).setRing n
        { s2.ring n with resize := none, recs := [], holdWait := false }
  s3

/-- A write of RNG_CFG (R240). -/
def State.ringCfgWrite (s : State) (n : Nat) (v : Word) : State :=
  if s.fld (R.RNG_CTRL_ENABLE n) = 1 then s.raise (R.RNG_STATUS_SIZE_IGNORED n)
  else (s.setFld (R.RNG_CFG_BASE n) (v.toNat / 64)).setFld (R.RNG_CFG_LOG2 n) (bits v.toNat 3 0)

/-- A write of RNG_TAIL (R229): of a command ring only. -/
def State.ringTailWrite (s : State) (n : Nat) (v : Word) : State :=
  let i := bits v.toNat 11 0
  if 32 ≤ n ∨ s.fld (R.RNG_CTRL_ENABLE n) = 0 then s
  else if s.ringSize n ≤ i then s.raise (R.RNG_STATUS_BAD_INDEX n)
  else (s.setFld (R.RNG_TAIL_INDEX n) i).resolveFences n

/-- A write of RNG_HEAD (R229): of a record ring only. -/
def State.ringHeadWrite (s : State) (n : Nat) (v : Word) : State :=
  let i := bits v.toNat 11 0
  if n < 32 ∨ s.fld (R.RNG_CTRL_ENABLE n) = 0 then s
  else if s.ringSize n ≤ i then s.raise (R.RNG_STATUS_BAD_INDEX n)
  else (s.setFld (R.RNG_HEAD_INDEX n) i).flushRecords n

/-- A resize request (R240): ignored on a DISABLED ring. A new LOG2 outside 4-12 is refused with BAD_CFG
(DESIGN CHOICE, notes/assumptions/31). -/
def State.ringResize (s : State) (n : Nat) (v : Word) : State :=
  if s.ringOn n then
    if 4 ≤ bits v.toNat 3 0 ∧ bits v.toNat 3 0 ≤ 12 then
      s.setRing n { s.ring n with resize := some (v.toNat / 64, bits v.toNat 3 0) }
    else s.raise (R.RNG_STATUS_BAD_CFG n)
  else s

/-- Abandon a pending resize (R240): the ring goes on at its old size. -/
def State.abandonResize (s : State) (n : Nat) : State :=
  (s.setRing n { s.ring n with resize := none }).flushRecords n

/-- A write of RNG_RESIZE (R240). A write with CANCEL is a cancel whatever GO says (DESIGN CHOICE). -/
def State.ringResizeWrite (s : State) (n : Nat) (v : Word) : State :=
  if bit v.toNat 5 = 1 then (if (s.ring n).resize.isSome then s.abandonResize n else s)
  else if bit v.toNat 4 = 1 then s.ringResize n v
  else s

/-- A ring pending a resize is empty: it takes its new size (R240). -/
def State.ringResizeApply (s : State) (n : Nat) : State :=
  match (s.ring n).resize with
  | none => s
  | some (b, l) =>
    if s.ringUsed n = 0 ∧ (s.ring n).flight = [] then
      let s1 := ((s.restartRing n).setFld (R.RNG_CFG_BASE n) b).setFld (R.RNG_CFG_LOG2 n) l
      ((s1.setRing n { s1.ring n with resize := none }).raise (R.RNG_STATUS_RESIZE_DONE n)).flushRecords n
    else s

/-- Rings whose next command waits on a full hold count the block (R232). -/
def State.countHoldWaits (s : State) : State :=
  (s.rings.filter (fun e => e.2.holdWait)).foldl (fun s _ =>
    s.countAndRaise R.RNG_HOLD_WAIT_COUNT R.RNG_INT_STATUS_HOLD_WAIT) s

/-! ### MSI-X (R219, R246) -/

/-- A write of an MSI-X table word: a vector that it unmasks sends its pending message. -/
def State.msixTableWrite (s : State) (w v : Nat) : State :=
  if w < 512 then
    let s1 := { s with hif := { s.hif with msixTable := Tbl.set s.hif.msixTable w (if w % 4 = 3 then 1 else 0) (v % 2 ^ 32) } }
    if s1.msixMasked (w / 4) = false ∧ w / 4 ∈ s1.hif.msixPend then
      let s2 := { s1 with hif := { s1.hif with msixPend := s1.hif.msixPend.filter (fun p => p != w / 4) } }
      s2.msixRequest (w / 4)
    else s1
  else s

/-- The MOD interval of a ring vector ends (R246): raises merged within it are sent as one, which starts a new interval. -/
def State.moderationEnd (s : State) (n : Nat) : State :=
  match s.hif.moderated.find? (fun p => p.1 == 64 + n) with
  | none => s
  | some (v, merged) =>
    let s1 := { s with hif := { s.hif with moderated := s.hif.moderated.filter (fun p => p.1 != v) } }
    if merged then s1.raiseVector v else s1

/-! ### Barriers (R241) -/

/-- A barrier write by master `m` (R241): refused with a target error while four are pending. -/
def State.barrierWrite (s : State) (m token : Nat) : XbResp × State :=
  let n := (s.hif.barriers.filter (fun b => b.master == m)).length
  if 4 ≤ n then (.targetErr, s)
  else
    let b : Barrier := ⟨m, token % 65536, s.heldNext⟩
    let s1 := { s with hif := { s.hif with barriers := s.hif.barriers ++ [b] } }
    (.ok, s1.setFld (R.SYS_BARRIER_DONE_PENDING m) (n + 1))

/-- Every write that a barrier covers has taken effect (R241): no request, held write, pending commit or hot field of its master that is
older waits for its target or its block's boundary. -/
def State.barrierMet (s : State) (b : Barrier) : Bool :=
  s.held.all (fun h => !(h.ring.isNone && h.master == b.master && decide (h.id < b.before))) &&
  s.commits.all (fun c => !(c.master == b.master && decide (c.id < b.before))) &&
  s.hif.queue.all (fun r => !(r.master == b.master && r.kind.writes && decide (r.id < b.before))) &&
  s.hif.hot.all (fun x => !(x.2.1 == b.master && decide (x.1 < b.before ∧ (s.boundary x.2.2.1).2 ≤ x.2.2.2)))

/-- Complete the oldest barrier of master `m` where its writes have taken effect (R241). -/
def State.barrierDone (s : State) (m : Nat) : State :=
  match s.hif.barriers.find? (fun b => b.master == m) with
  | none => s
  | some b =>
    if s.barrierMet b then
      let s1 := { s with hif := { s.hif with barriers := s.hif.barriers.erase b } }
      (((s1.setFld (R.SYS_BARRIER_DONE_TOKEN m) b.token).setFld (R.SYS_BARRIER_DONE_PENDING m)
        (s.fld (R.SYS_BARRIER_DONE_PENDING m) - 1))).raiseAt R.SYS_BARRIER_INT_STATUS_DONE m
    else s

/-! ### Reset of HIF and RNG (R215, R228) -/

/-- HIF and RNG take their reset values and master 0 is reset (R215, R228). A link-down event leaves the link down. -/
def State.pcieReset (s : State) (kind : PcieResetKind) : State :=
  let link := s.regWord 0x14010000
  let own := fun (e : Nat × Nat) =>
    decide ((0x14010000 * 32 ≤ e.1 ∧ e.1 < 0x14020000 * 32) ∨ (0x14030000 * 32 ≤ e.1 ∧ e.1 < 0x14040000 * 32))
  let regs' := s.regs.filter (fun e => !own e)
  let rings' := s.rings.map (fun e => (e.1, { Ring.idle with base := s.tailSeq e.1, fetched := s.tailSeq e.1 }))
  let held' := s.held.filter (fun h => decide (h.eng ≠ Engine.ring))
  let s1 := { s with regs := regs', rings := rings', held := held',
                     hif := { s.hif with msixTable := [], msixPend := [], moderated := [] } }
  let s2 := match kind with
    | .linkDown => s1
    | _ => ((s1.setFld R.HIF_LINK_UP (bit link 8)).setFld R.HIF_LINK_WIDTH (bits link 7 4)).setFld R.HIF_LINK_SPEED (bits link 3 0)
  s2.resetMaster 0

/-! ### The commands -/

/-- A write of XB_MASTER_RESET (R228, R245). -/
def State.masterResetWrite (s : State) (v : Word) : State :=
  if v.toNat / 65536 = 0xC105 ∧ v.toNat % 32 < 24 then s.resetMaster (v.toNat % 32) else s

def execMsixModerationExpiry (ring : Nat) (s : State) : Host.Outcome State Fault Refusal := .next (s.moderationEnd ring)

def execRingResizeApply (ring : Nat) (s : State) : Host.Outcome State Fault Refusal := .next (s.ringResizeApply ring)

/-- A resize not applied within 1 s (R240). -/
def execRingResizeTimeout (ring : Nat) (s : State) : Host.Outcome State Fault Refusal :=
  if (s.ring ring).resize.isSome then .next ((s.abandonResize ring).raise (R.RNG_STATUS_RESIZE_TIMEOUT ring)) else .next s

/-- A stamp more than 2^24 blocks ahead (R232). -/
def State.beyond (s : State) (stamp : Option Nat) : Bool :=
  match stamp with | none => false | some b => decide (s.blk.index + 2 ^ 24 < b)

/-- The status of a NOP, which takes effect when fetched (R231, R232). -/
def State.nopStatus (s : State) (stamp : Option Nat) : Nat :=
  if s.beyond stamp then 6 else match stamp with | some b => if b < s.blk.index then 1 else 0 | none => 0

/-- A NOP at HEAD of a ring (R231, R232). -/
def State.takeNop (s : State) (ring cookie : Nat) (cpl irq : Bool) (stamp : Option Nat) : State :=
  let q := s.takeEntry ring
  q.2.complete (ringHeld ring q.1 .ring .nop stamp cpl irq 0 cookie) (s.nopStatus stamp)

def execRingNop (ring cookie : Nat) (flags : CmdFlags) (stamp : Option Nat) (s : State) : Host.Outcome State Fault Refusal :=
  .next (if s.mayFetch ring then s.takeNop ring cookie flags.cpl flags.irq stamp else s)

/-- A FENCE at HEAD of a ring (R234). -/
def execFence (ring cookie : Nat) (cpl irq : Bool) (waitRing : Nat) (waitEn : Bool) (waitIndex : Nat) (s : State) :
    Host.Outcome State Fault Refusal :=
  if s.mayFetch ring then
    let q := s.takeEntry ring
    .next (q.2.startFence ring q.1 cpl irq cookie waitRing waitEn waitIndex)
  else .next s

def execFenceRelease (ring : Nat) (s : State) : Host.Outcome State Fault Refusal := .next (s.releaseFence ring)

def execBarrierDone (master : Nat) (s : State) : Host.Outcome State Fault Refusal := .next (s.barrierDone master)

def execPcieReset (kind : PcieResetKind) (s : State) : Host.Outcome State Fault Refusal := .next (s.pcieReset kind)

end Sys2Proof.Machine
end

