-- ==== Sys2Proof/Machine/Media.lean ====
section
/-! DEFINITION. The media ports (R271-R288, R292, R295): streams in and out, host traffic, the daisy-chain bridge, frames
sent by commands. Frames are byte lists without FCS. The layouts of Ethernet II, 802.1Q, IPv4, UDP, RTP and PTP headers are
those of their standards, which R271 names (PRESUMED, notes/assumptions/34). -/

namespace Sys2Proof.Machine

/-! ### Streams -/

/-- Input stream `n`. -/
def State.inS (s : State) (n : Nat) : InStream := Tbl.get s.net.ins n InStream.none

/-- Write an input stream. -/
def State.setInS (s : State) (n : Nat) (x : InStream) : State :=
  { s with net := { s.net with ins := Tbl.set s.net.ins n InStream.none x } }

/-- Output stream `n`. -/
def State.outS (s : State) (n : Nat) : OutStream := Tbl.get s.net.outs n OutStream.none

/-- Write an output stream. -/
def State.setOutS (s : State) (n : Nat) (x : OutStream) : State :=
  { s with net := { s.net with outs := Tbl.set s.net.outs n OutStream.none x } }

/-- The domain of a stream: that of its first bus (R273). -/
def Cfg.streamDomain (c : Cfg) (r : StreamRec) : Nat := match c.bus? r.firstBus with | none => 0 | some b => b.domain

/-- Samples per second of a domain. -/
def Cfg.rate (c : Cfg) (domain : Nat) : Nat := if domain = 0 then rateAHz c.sys.rateA else rateBHz c.sys.rateB

/-- The first sample of block `k` of a domain, and how many it holds (R67, R70). -/
def Cfg.firstOf (c : Cfg) (domain k : Nat) : Nat := if domain = 0 then k * c.blockLen else c.firstB k
def Cfg.countOf (c : Cfg) (domain k : Nat) : Nat := if domain = 0 then c.blockLen else c.countB k

/-- The block that holds sample `i` of a domain (R70). -/
def Cfg.blockOf (c : Cfg) (domain i : Nat) : Nat :=
  if domain = 0 then i / max c.blockLen 1
  else i * rateAHz c.sys.rateA / (max (rateBHz c.sys.rateB) 1 * max c.blockLen 1)

/-- The local time at which token `k` is issued, seen from the last token (R16). -/
def State.tokenTime (s : State) (c : Cfg) (k : Nat) : Int :=
  (s.blk.tokenNs : Int) + ((k : Int) - (s.blk.index : Int)) * (c.blockLen * 1000000000 : Nat) / (rateAHz c.sys.rateA : Nat)

/-- The capture index of a domain at local time `t`. -/
def State.captureNow (s : State) (c : Cfg) (domain t : Nat) : Nat :=
  c.firstOf domain s.blk.index + (t - s.blk.tokenNs) * c.rate domain / 1000000000

/-! ### Packets in (R275-R282) -/

/-- A packet of a stream once checked: the index of its first sample before LINK_OFFSET, and its payload. -/
abbrev Pkt := Int × List Byte

/-- Check an RTP packet (R275, R278). -/
def State.rtpCheck (s : State) (c : Cfg) (r : StreamRec) (t : Nat) (p : List Byte) : Option Pkt :=
  let b0 := (p.getD 0 0).toNat
  let b1 := (p.getD 1 0).toNat
  let h1 := 12 + 4 * (b0 % 16)
  let h := if bit b0 4 = 1 then h1 + 4 + 4 * beNat (slice p (h1 + 2) 2) else h1
  let pad := if bit b0 5 = 1 then (p.getLast?.getD 0).toNat else 0
  if b0 / 64 = 2 ∧ b1 % 128 = r.pt ∧ p.length = h + r.channels * r.ptime * 3 + pad then
    let x := ((beNat (slice p 4 4) : Int) - (r.tsOffset : Int)) % (2 ^ 32 : Nat)
    let now : Int := s.captureNow c (c.streamDomain r) t
    some (now + wrapS 32 (x - now), slice p h (r.channels * r.ptime * 3))
  else none

/-- Count a low-latency packet whose LATE flag is set (R276). -/
def State.countLateFlag (s : State) (n : Nat) (p : List Byte) : State :=
  if (p.getD 15 0).getLsbD 0 then s.setInS n { s.inS n with lateFlags := (s.inS n).lateFlags + 1 } else s

/-- Check a low-latency packet (R276). -/
def llCheck (r : StreamRec) (p : List Byte) : Option Pkt :=
  let pay := p.drop 24
  if beNat (slice p 0 2) = 0x5D31 ∧ p.getD 2 0 = 1 ∧ (p.getD 3 0).toNat = r.channels ∧ p.getD 14 0 = 6 ∧
      pay.length = r.channels * 6 * 3 ∧ beNat (slice p 20 4) = crc32 (p.take 20 ++ pay) then
    some ((beNat (slice p 8 6) : Int), pay)
  else none

/-- The samples of a payload: one list of channels per sample (R275). -/
def payloadSamples (chans n : Nat) (bs : List Byte) : List (List Int) :=
  (List.range n).map (fun j => (List.range chans).map (fun ch => ofCodeS 24 (beNat (slice bs (3 * (j * chans + ch)) 3))))

/-- Count a bad packet. -/
def State.badPkt (s : State) (n : Nat) : State := s.bump (R.NET_IN6_BAD n)

/-- Lower MARGIN to `m` ns (R279, R295). -/
def State.margin (s : State) (n : Nat) (m : Int) : State :=
  if m < ofCodeS 32 (s.fld (R.NET_IN7_MARGIN n)) then s.setFld (R.NET_IN7_MARGIN n) (codeS 32 (satS 32 m)) else s

/-- Place a checked packet (R278-R280, R282): late ones and duplicates are discarded. -/
def State.placePkt (s : State) (c : Cfg) (n leg t : Nat) (r : StreamRec) (p : Pkt) : State :=
  let dom := c.streamDomain r
  let len := if r.format = 0 then r.ptime else 6
  let first : Int := p.1 + (r.linkOffset : Int)
  if first > ((s.captureNow c dom t + r.linkOffset + 2 * r.ptime : Nat) : Int) then s.badPkt n
  else
    let x := s.inS n
    let i := first.toNat
    let m := if first < 0 then -1 else s.tokenTime c (c.blockOf dom i + 1) - (t : Int) - 2000
    let x1 := { x with last := some t, leg0 := if leg = 0 then some t else x.leg0, leg1 := if leg = 1 then some t else x.leg1 }
    let key := Tbl.find i x.pkts
    if m < 0 then
      if first ≥ 0 ∧ key.isSome then s.setInS n x1
      else ((s.setInS n x1).bump (R.NET_IN6_LATE_PKTS n)).margin n m
    else
      let seen := key.getD (false, false)
      let pk := Tbl.put x.pkts i (seen.1 || leg == 0, seen.2 || leg == 1)
      let ys := payloadSamples r.channels len p.2
      let missing := (List.range len).any (fun j => (Tbl.find (i + j) x.buf).isNone)
      if missing then
        let buf' := ys.zipIdx.foldl (fun b y => if (Tbl.find (i + y.2) b).isSome then b else Tbl.put b (i + y.2) y.1) x.buf
        ((s.setInS n { x1 with buf := buf', pkts := pk }).bump (R.NET_IN1_PACKETS n)).margin n m
      else (s.setInS n { x1 with pkts := pk }).bump (R.NET_IN5_DUP n)

/-- A packet that matches input stream `n` on one leg (R275, R276, R279). -/
def State.streamRx (s : State) (n leg t : Nat) (p : List Byte) : State :=
  match s.cfg, (s.inS n).fmt with
  | some c, some r =>
    if leg = 1 ∧ r.prot = false then s
    else
      match (if r.format = 0 then s.rtpCheck c r t p else llCheck r p) with
      | none => s.badPkt n
      | some k => (if r.format = 0 then s else s.countLateFlag n p).placePkt c n leg t r k
  | _, _ => s

/-- Ingress of one stream at data block `k` (R280-R282). -/
def State.streamIngress (s : State) (c : Cfg) (n k : Nat) : State :=
  match (s.inS n).fmt with
  | none => s
  | some r =>
    let x := s.inS n
    let dom := c.streamDomain r
    let base := c.firstOf dom k
    let len := c.countOf dom k
    let got := (List.range len).map (fun j => Tbl.find (base + j) x.buf)
    let mine := x.pkts.filter (fun e => decide (base ≤ e.1 ∧ e.1 < base + len))
    let lost0 := if r.prot then (mine.filter (fun e => !e.2.1)).length else 0
    let lost1 := if r.prot then (mine.filter (fun e => !e.2.2)).length else 0
    let keep := fun (i : Nat) => decide (base + len ≤ i)
    let s1 := s.setInS n { x with buf := Tbl.keep keep x.buf, pkts := Tbl.keep keep x.pkts }
    let s2 := (s1.bump (R.NET_IN3_LOST_0 n) lost0).bump (R.NET_IN4_LOST_1 n) lost1
    if got.all (·.isSome) then
      (List.range r.channels).foldl (fun s ch =>
        s.writeBus c k (r.firstBus + ch) (got.map (fun y => (y.getD []).getD ch 0))) s2
    else
      let s3 := (List.range r.channels).foldl (fun s ch => s.overrunBus c k (r.firstBus + ch)) s2
      (s3.bump (R.NET_IN2_LATE_BLOCKS n)).raise (R.NET_INT_STATUS_STREAM_LATE r.port)

/-- The ingress task of a media port (R274). -/
def State.netIngress (s : State) (c : Cfg) (port k : Nat) : State :=
  (s.net.ins.filter (fun e => match e.2.fmt with | some r => r.port == port | none => false)).foldl
    (fun s e => s.streamIngress c e.1 k) s

/-- Whether a local time lies within `ns` before the last token. -/
def State.within (s : State) (ns : Nat) : Option Nat → Bool
  | none => false
  | some t => decide (s.blk.tokenNs < t + ns)

/-- STATE and the LEG bits of an input stream (R282, R295). -/
def State.inState (s : State) (n : Nat) : Nat × Bool × Bool :=
  let x := s.inS n
  if x.fmt.isNone then (0, false, false)
  else (if s.within 100000000 x.last then 2 else 1, s.within 10000000 x.leg0, s.within 10000000 x.leg1)

/-! ### Packets out (R275-R277, R283, R284) -/

/-- A stream that the live plane no longer defines, its zero payload sent, is absent (R283). -/
def State.outDrop (s : State) (n : Nat) : State :=
  (s.setOutS n OutStream.none).clearFlds [R.NET_OUT0_PRESENT n, R.NET_OUT0_STATE n, R.NET_OUT0_CHANNELS n]

/-- A stream has begun: it has sent a packet, or holds samples of one (R277). -/
def OutStream.begun (x : OutStream) : Bool := x.next.isSome || x.buf.any (·.done)

/-- The samples of emit block `b`: those its egress gave; zeros in the blocks of zero payload, and where a stream that has begun has
none, its egress having been abandoned (R283, R295). -/
def OutStream.blockFrames (x : OutStream) (base len b chans : Nat) : List SFrame :=
  let now := x.buf.filter (fun f => decide (f.blk = b) && !f.done)
  let zeros := List.replicate chans (0 : Int)
  if now ≠ [] then now
  else if x.zero ≠ 0 then (List.range len).map (fun j => ⟨base + j, b, zeros, false, false, false⟩)
  else if x.begun then (List.range len).map (fun j => ⟨base + j, b, zeros, true, true, false⟩)
  else []

/-- Apply the level to the samples that leave in emit block `b` (R21, R283, R284). -/
def State.settleStream (s : State) (c : Cfg) (n b : Nat) : State :=
  let x := s.outS n
  match x.fmt with
  | none => s
  | some r =>
    if b ≤ x.settled then s
    else if x.zero = 0 ∧ (c.stream? true n).isNone then s.outDrop n
    else
      let base := c.firstOf x.dom b
      let len := c.countOf x.dom b
      let zeros := List.replicate r.channels (0 : Int)
      let old := x.buf.filter (fun f => f.done)
      let rest := x.buf.filter (fun f => decide (b < f.blk) && !f.done)
      let st := if x.stopping then stStopping else stRunning
      let p := (x.blockFrames base len b r.channels).foldl (fun (a : List SFrame × PortDir) f =>
        if x.zero ≠ 0 then (a.1 ++ [{ f with xs := zeros, done := true }], a.2)
        else
          let l := a.2.stepLevel st c.blockLen len
          (a.1 ++ [{ f with xs := f.xs.map (atLevel l.1), done := true }], l.2)) ([], x.d)
      let d' := if x.zero = 1 then { p.2 with level := 0, entering := true } else p.2
      let s1 := s.setOutS n { x with buf := old ++ p.1 ++ rest, d := d', zero := x.zero - 1, settled := b }
      s1.setFld (R.NET_OUT0_STATE n) (if x.zero ≤ 1 then 2 else 1)

/-- Egress hands data block `k` of an output stream to its buffer (R18, R277): it leaves in emit block k + 3. -/
def State.streamGive (s : State) (c : Cfg) (n k : Nat) (chans : List (List Int)) (bad : Bool) : State :=
  match (s.outS n).fmt with
  | none => s
  | some r =>
    let dom := c.streamDomain r
    let fs := (List.range (c.countOf dom k)).map (fun j =>
      (⟨c.firstOf dom (k + 3) + j, k + 3, chans.map (fun xs => xs.getD j 0), bad, false, false⟩ : SFrame))
    s.setOutS n { s.outS n with buf := (s.outS n).buf ++ fs }

/-- A port's MAC in force. -/
def State.macOf (s : State) (port : Nat) : Nat := s.inForce (R.NET_MAC_HI_MAC port) * 2 ^ 32 + s.inForce (R.NET_MAC_LO_MAC port)

/-- The address words of one leg of an output stream: source and destination MAC, VLAN, destination and source IP, destination UDP
(R272, R287). -/
def State.legAddr (s : State) (port : Nat) (l : LegRec) : Nat × Nat × Nat × Nat × Nat × Nat :=
  (s.macOf port, l.dstMac, l.vlan, l.dstIp, if l.srcIp = 0 then s.inForce (R.NET_IP_IP port) else l.srcIp, l.dstUdp)

/-- The bytes of an output packet (R275, R276). -/
def packetBytes (r : StreamRec) (seq : Nat) (fs : List SFrame) (xs : List (List Int)) : List Byte :=
  let first := (fs.headD ⟨0, 0, [], false, false, true⟩).idx
  let pay := xs.flatMap (fun x => x.flatMap (fun v => beBytes 3 (codeS 24 v)))
  if r.format = 0 then
    [0x80#8, BitVec.ofNat 8 r.pt] ++ beBytes 2 seq ++ beBytes 4 (first + r.tsOffset) ++ beBytes 4 r.ssrc ++ pay
  else
    let h := beBytes 2 0x5D31 ++ [1, BitVec.ofNat 8 r.channels] ++ beBytes 4 r.ssrc ++ beBytes 6 first ++
      [6, BitVec.ofNat 8 (flag (fs.any (·.bad)))] ++ beBytes 2 seq ++ [0, 0]
    h ++ beBytes 4 (crc32 (h ++ pay)) ++ pay

/-- The samples of a stream's next packet that are at their level, and the index of its first one (R277). -/
def OutStream.nextPacket (x : OutStream) (len : Nat) : Nat × List SFrame :=
  let ready := x.buf.filter (fun f => f.done)
  let start := x.next.getD (((ready.headD ⟨0, 0, [], false, false, true⟩).idx + len - 1) / max len 1 * len)
  (start, ready.filter (fun f => decide (start ≤ f.idx ∧ f.idx < start + len)))

/-- Put a packet on a leg's line, where its link is up. -/
def State.sendLeg (s : State) (r : StreamRec) (port : Nat) (l : LegRec) (pkt : List Byte) : State :=
  if s.fld (R.NET_LINK_UP port) = 1 then
    let a := s.legAddr port l
    (s.emit (.udp port a.1 a.2.1 a.2.2.1 a.2.2.2.1 a.2.2.2.2.1 a.2.2.2.2.2 r.srcUdp r.dscp r.ttl (if r.format = 0 then none else some 0)
      pkt)).bump (R.NET_TX_FRAMES_COUNT port)
  else s

/-- Send a stream's next packet, on both legs where it is PROTECTED (R275-R277, R282); none where it is not complete yet. -/
def State.sendPacket (s : State) (c : Cfg) (n : Nat) : Option State :=
  let x := s.outS n
  match x.fmt with
  | none => none
  | some r =>
    let len := if r.format = 0 then r.ptime else 6
    let p := x.nextPacket len
    if p.2.length = len ∧ 0 < len then
      let gone := p.2.any (·.gone)
      let zeros := List.replicate r.channels (0 : Int)
      let seq := s.fld (R.NET_OUT3_SEQ n)
      let pkt := packetBytes r seq p.2 (p.2.map (fun f => if gone then zeros else
        f.xs.map (s.gated f.blk (f.idx - c.firstOf x.dom f.blk) (c.countOf x.dom f.blk))))
      let s2 := s.setOutS n { x with buf := x.buf.filter (fun f => decide (p.1 + len ≤ f.idx)), next := some (p.1 + len) }
      let s3 := s2.setFld (R.NET_OUT3_SEQ n) (seq + 1)
      let s4 := if gone then s3.bump (R.NET_OUT2_LATE n) else s3
      if p.2.any (fun f => s.withheldIn f.blk) then some s4
      else
        let s5 := (s4.bump (R.NET_OUT1_PACKETS n)).sendLeg r r.port r.leg0 pkt
        some (if r.prot then s5.sendLeg r (r.port + 1) r.leg1 pkt else s5)
    else none

/-- Send every packet of a stream that is queued. -/
def State.drainStream (s : State) (c : Cfg) (n : Nat) : State :=
  let s1 := s.settleStream c n s.blk.index
  (List.range (s1.outS n).buf.length).foldl (fun s _ => (s.sendPacket c n).getD s) s1

/-- The output streams of a pair of ports below `n`, in ascending order. -/
def State.streamsBelow (s : State) (pair n : Nat) : List Nat :=
  (s.net.outs.filter (fun e => decide (e.1 < n) && (match e.2.fmt with | some r => r.port / 2 == pair | none => false))).map (·.1)

/-- Send what is queued on a pair of ports of the streams below `n`: packets leave in ascending stream number (R277). -/
def State.drainBelow (s : State) (pair n : Nat) : State :=
  match s.cfg with
  | none => s
  | some c => (s.streamsBelow pair n).foldl (fun s m => s.drainStream c m) s

/-- Send every stream packet queued on a pair of ports: they go ahead of bridged and host frames (R277). -/
def State.drainPair (s : State) (pair : Nat) : State := s.drainBelow pair 256

/-- The packets queued at a token have left when the next one is issued (R277). -/
def State.drainStreams (s : State) : State := (s.drainPair 0).drainPair 1

/-- An output stream's next packet leaves once its last sample's emit block has begun, behind those of the streams below it (R277). -/
def State.streamTx (s : State) (n : Nat) : State :=
  match s.cfg, (s.outS n).fmt with
  | some c, some r =>
    let s1 := (s.drainBelow (r.port / 2) n).settleStream c n s.blk.index
    (s1.sendPacket c n).getD s1
  | _, _ => s

/-- RAMPING of an output stream (R295). -/
def State.outRamping (s : State) (n : Nat) : Bool :=
  let x := s.outS n
  x.fmt.isSome && decide (x.zero = 0 ∧ x.d.level ≠ x.d.target (if x.stopping then stStopping else stRunning))

/-! ### Frames (R284-R286, R292) -/

/-- Replace the bytes of a frame at `off`. -/
def putBytes (f : List Byte) (off : Nat) (bs : List Byte) : List Byte := f.take off ++ bs ++ f.drop (off + bs.length)

/-- The VLAN tag of a frame, where it has one, and the length of its Ethernet header. -/
def frameTag (f : List Byte) : Option Nat × Nat := if beNat (slice f 12 2) = 0x8100 then (some (beNat (slice f 14 2)), 18) else (none, 14)

/-- A UDP/IPv4 packet of a frame: header offset, source and destination IP, source and destination UDP port, payload. -/
structure UdpPkt where
  hdr : Nat
  srcIp : Nat
  dstIp : Nat
  srcUdp : Nat
  dstUdp : Nat
  payload : List Byte
deriving DecidableEq, Repr

/-- Read UDP over IPv4 without options or fragments (R271). -/
def udpOf (f : List Byte) : Option UdpPkt :=
  let h := (frameTag f).2
  if beNat (slice f (h - 2) 2) = 0x0800 ∧ f.getD h 0 = 0x45 ∧ f.getD (h + 9) 0 = 17 ∧ beNat (slice f (h + 6) 2) % 2 ^ 14 = 0 ∧
      h + 28 ≤ f.length ∧ 8 ≤ beNat (slice f (h + 24) 2) then
    some ⟨h, beNat (slice f (h + 12) 4), beNat (slice f (h + 16) 4), beNat (slice f (h + 20) 2), beNat (slice f (h + 22) 2),
      slice f (h + 28) (beNat (slice f (h + 24) 2) - 8)⟩
  else none

/-- Whether a packet on a leg passes a stream's filter (R272). -/
def legMatch (r : StreamRec) (l : LegRec) (tag : Option Nat) (u : UdpPkt) : Bool :=
  decide (u.dstIp = l.dstIp ∧ u.dstUdp = l.dstUdp ∧ (r.srcUdp = 0 ∨ u.srcUdp = r.srcUdp) ∧ (l.srcIp = 0 ∨ u.srcIp = l.srcIp)) &&
  (l.vlan / 2 ^ 15 % 2 == 0 || (match tag with | some v => v % 4096 == l.vlan % 4096 | none => false)) &&
  decide (r.ssrc = 0 ∨ beNat (slice u.payload (if r.format = 0 then 8 else 4) 4) = r.ssrc)

/-- The input stream and leg that a packet on a port matches. -/
def State.streamMatch (s : State) (port : Nat) (tag : Option Nat) (u : UdpPkt) : Option (Nat × Nat) :=
  let hit := fun (e : Nat × InStream) => match e.2.fmt with
    | none => none
    | some r =>
      if r.port = port ∧ legMatch r r.leg0 tag u then some (e.1, 0)
      else if r.prot ∧ r.port + 1 = port ∧ legMatch r r.leg1 tag u then some (e.1, 1) else none
  (s.net.ins.filterMap hit).head?

/-- Whether a packet is a PTP message, and whether it is a PTP event message (R292). -/
def isPtp (u : Option UdpPkt) : Bool := match u with | some u => u.dstUdp == 319 || u.dstUdp == 320 | none => false
def isPtpEvent (u : Option UdpPkt) : Bool :=
  match u with | some u => u.dstUdp == 319 && decide ((u.payload.getD 0 0).toNat % 16 < 4) | none => false

/-- Drop a frame that finds no room for host delivery (R285). -/
def State.ctlDrop (s : State) (port : Nat) : State :=
  (s.bump (R.NET_CTL_DROP_COUNT port)).raise (R.NET_INT_STATUS_CTL_DROP port)

/-- A timestamp's bytes in a record: seconds (6), nanoseconds (4) (R285). -/
def stampBytes (x : Int) : List Byte := leBytes 6 (secNs x).1 ++ leBytes 4 (secNs x).2

/-- Write a frame into its slot through the port's DMA master (R220, R285); none where it does not get there. -/
def State.slotWrite (s : State) (port a : Nat) (f : List Byte) : Option State :=
  match s.passage (11 + port) a with
  | .forwarded =>
    let r := (s.touch (11 + port)).memStore (11 + port) a (f.map some)
    if r.1 = .ok then some r.2 else none
  | _ => none

/-- Deliver a frame to the host (R285). -/
def State.hostDeliver (s : State) (port : Nat) (f : List Byte) (ts : Int) : State :=
  let ring := s.fld R.NET_CTL_RING_RING
  if s.fld (R.NET_CTL_RX_BASE_ENABLE port) = 0 ∨ ring < 32 then s
  else if s.fld (R.NET_CTL_RX_FREE_COUNT port) = 0 ∨ s.recordReady ring = false then s.ctlDrop port
  else
    let slot := Tbl.get s.net.ctlNext port 0
    match s.slotWrite port (s.fld (R.NET_CTL_RX_BASE_BASE port) * 2 ^ 17 + 2048 * slot) f with
    | none => s.ctlDrop port
    | some s1 =>
      let s2 := s1.setFld (R.NET_CTL_RX_FREE_COUNT port) (s1.fld (R.NET_CTL_RX_FREE_COUNT port) - 1)
      let s3 := { s2 with net := { s2.net with ctlNext := Tbl.set s2.net.ctlNext port 0 ((slot + 1) % 64) } }
      s3.postRecord ring ([0x50#8, 0, 0xFF#8, 0, 0, 0, 0, 0] ++ leBytes 6 s.blk.index ++ [0, 0, 0, 0] ++
        [BitVec.ofNat 8 port, BitVec.ofNat 8 slot] ++ leBytes 2 f.length ++ stampBytes ts) false

/-- Add a residence time to a forwarded event message (R292). -/
def addResidence (f : List Byte) (u : UdpPkt) (ns : Nat) : List Byte :=
  let corr := ofCodeS 64 (beNat (slice f (u.hdr + 36) 8)) + (ns * 65536 : Nat)
  putBytes (putBytes f (u.hdr + 36) (beBytes 8 (codeS 64 corr))) (u.hdr + 26) [0, 0]

/-- Forward a frame out of the other port of a bridged pair (R286, R292). -/
def State.forward (s : State) (port : Nat) (f : List Byte) (u : Option UdpPkt) (full : Bool) (residence : Nat) : State :=
  let out := if port % 2 = 0 then port + 1 else port - 1
  if full ∨ s.fld (R.NET_LINK_UP out) = 0 then
    (s.bump (R.NET_BRIDGE_DROP_COUNT out)).raise (R.NET_INT_STATUS_BRIDGE_DROP out)
  else
    let f' := match u with
      | some p => if isPtpEvent u ∧ s.inForce (R.NET_PORT_CFG_PTP_MODE (port / 2 * 2)) = 0 then addResidence f p residence else f
      | none => f
    (((s.drainPair (port / 2)).bump (R.NET_BRIDGE_FWD_COUNT out)).bump (R.NET_TX_FRAMES_COUNT out)).emit (.netFrame out f')

/-- A pause frame of IEEE 802.3, which a port ignores (R271). -/
def isPause (f : List Byte) : Bool := decide (beNat (slice f 12 2) = 0x8808 ∧ beNat (slice f 14 2) = 1)

/-- A frame arrives on a port at local time `t` (R285, R286, R288, R290). `ok`: its FCS is good. `full`: the bridge queue it
goes to is full. -/
def State.frameRx (s : State) (port : Nat) (f : List Byte) (ok full : Bool) (t residence : Nat) : State :=
  let s0 := s.seeTime t
  if port < 4 ∧ s.domainOn 9 ∧ s.fld (R.NET_LINK_UP port) = 1 then
    if !ok ∨ f.length < 60 ∨ 1518 < f.length then s0.bump (R.NET_RX_ERR_COUNT port)
    else if isPause f then s0.bump (R.NET_RX_FRAMES_COUNT port)
    else
      let rx := t - s.fld (R.NET_TS_LAT_RX_NS port)
      let u := udpOf f
      let dst := beNat (f.take 6)
      let own := decide (dst = s.macOf port)
      let bcast := decide (dst = 2 ^ 48 - 1)
      let mcast := decide (bit (f.getD 0 0).toNat 0 = 1)
      let bridged := decide (s.inForce (R.NET_PORT_CFG_BRIDGE (port / 2 * 2)) = 1) && !own
      let s1 := s0.bump (R.NET_RX_FRAMES_COUNT port)
      let hit := u.bind (fun p => s1.streamMatch port (frameTag f).1 p)
      let s2 := match hit, u with | some h, some p => s1.streamRx h.1 h.2 rx p.payload | _, _ => s1
      let s3 := if bridged then s2.forward port f u full residence else s2
      let s4 := match u with
        | some p => if isPtp u then [0, 1].foldl (fun s i => s.ptpMessage i port rx (s.instNs i rx) p.payload) s3 else s3
        | none => s3
      let consumed := bridged && !mcast
      if hit.isNone ∧ !consumed ∧ (bcast ∨ own ∨ isPtp u ∨ (mcast ∧ s.inForce (R.NET_PORT_CFG_CTL_MCAST port) = 1)) then
        s4.hostDeliver port f (s4.portNs port rx)
      else s4
  else s0

/-- Discard a NET command (R284). -/
def State.netReject (s : State) : State := s.bump R.NET_CMD_REJECT_COUNT

/-- The fields of a NET_SEND are in range (R284). -/
def sendValid (port flags length : Nat) : Bool := decide (port < 4 ∧ flags < 8 ∧ 60 ≤ length ∧ length ≤ 1518)

/-- Queue the frame of a NET_SEND (R284): on both ports of the pair with PAIR. None where the command is discarded. -/
def State.netQueue (s : State) (h : Held) (late : Bool) (port flags length : Nat) (bs : Option (List Byte)) : Option State :=
  match bs with
  | none => none
  | some f =>
    if sendValid port flags length then
      let ports := if bit flags 1 = 1 then [port / 2 * 2, port / 2 * 2 + 1] else [port]
      some { s with net := { s.net with txQ := s.net.txQ ++ ports.map (fun p => ⟨p, flags, f.take length, h, late⟩) } }
    else none

/-- Apply STREAM_MUTE (R284). -/
def State.streamMute (s : State) (first count mute ramp : Nat) : Nat × State :=
  if 1 ≤ count ∧ count ≤ 255 ∧ mute ≤ 1 ∧ 1 ≤ ramp ∧ ramp ≤ 64 ∧
      (List.range count).all (fun j => (s.outS (first + j)).fmt.isSome) then
    (0, (List.range count).foldl (fun s j =>
      let x := s.outS (first + j)
      (s.setOutS (first + j) { x with d := { x.d with mute := decide (mute = 1), ramp := ramp } }).setFld
        (R.NET_OUT0_MUTED (first + j)) mute) s)
  else (2, s.netReject)

/-- A frame that carries a one-step Sync as it leaves (R292): the instance's egress time in its originTimestamp, the rest in
its correction field. -/
def State.oneStep (s : State) (port t : Nat) (f : List Byte) : List Byte :=
  let pair := port / 2 * 2
  match s.instOn [pair, pair + 1] with
  | none => f
  | some i =>
    if s.inForce (R.NET_PORT_CFG_PTP_MODE pair) = 1 then
      let h := (frameTag f).2
      let x := (s.inst i).at (t + s.fld (R.NET_TS_LAT_TX_NS port))
      let n := secNs x.floor
      let rem := ((x - (x.floor : Rat)) * 65536).floor
      putBytes (putBytes (putBytes f (h + 28 + 34) (beBytes 6 n.1 ++ beBytes 4 n.2)) (h + 28 + 8) (beBytes 8 rem.toNat))
        (h + 26) [0, 0]
    else f

/-- The frame at the front of a port's queue has been sent at local time `t` (R284), behind the stream packets queued (R277): with TS its record is written; the
command has taken effect when no copy of it is left. -/
def State.netSent (s : State) (port t : Nat) : State :=
  let s0 := (s.seeTime t).drainPair (port / 2)
  match s0.net.txQ.find? (fun x => x.port == port && decide (s0.fld (R.NET_LINK_UP port) = 1)) with
  | none => s0
  | some x =>
    let f := if bit x.flags 2 = 1 then s0.oneStep port t x.frame else x.frame
    let s1 := { s0 with net := { s0.net with txQ := s0.net.txQ.erase x } }
    let s2 := (s1.bump (R.NET_TX_FRAMES_COUNT port)).emit (.netFrame port f)
    let ns := s2.portNs port (t + s2.fld (R.NET_TS_LAT_TX_NS port))
    let s3 := if bit x.flags 0 = 1 then
        s2.postRecord (s2.fld R.NET_CTL_RING_RING)
          ([0x51#8, 0, BitVec.ofNat 8 (x.cmd.ring.getD 0xFF), BitVec.ofNat 8 x.cmd.opcode] ++ leBytes 4 x.cmd.cookie ++
            leBytes 6 s2.blk.index ++ [0, 0, 0, 0] ++ [BitVec.ofNat 8 port, 0, 0, 0] ++ stampBytes ns) x.cmd.irq
      else s2
    if s3.net.txQ.any (fun y => decide (y.cmd = x.cmd)) then s3 else s3.complete x.cmd (flag x.late)

/-! ### Commit, links, counters (R285, R287, R295) -/

/-- The RWS fields of port `n`'s set (R287). -/
def netSetFlds (n : Nat) : List Fld :=
  [R.NET_PORT_CFG_ENABLE n, R.NET_PORT_CFG_SPEED n, R.NET_PORT_CFG_FEC n, R.NET_PORT_CFG_CTL_MCAST n, R.NET_PORT_CFG_PTP_MODE n,
   R.NET_PORT_CFG_BRIDGE n, R.NET_MAC_LO_MAC n, R.NET_MAC_HI_MAC n, R.NET_IP_IP n]

/-- The consistency check of port `n`'s set (R287). -/
def State.netCheck (s : State) (n : Nat) (set : Tbl Nat) : Nat :=
  let v := fun (f : Fld) => Tbl.get set f.key f.rst
  let other := if n % 2 = 0 then n + 1 else n - 1
  let bridge := if n % 2 = 0 then v (R.NET_PORT_CFG_BRIDGE n) else s.inForce (R.NET_PORT_CFG_BRIDGE other)
  let prot : Bool := match s.cfg with
    | none => false
    | some c => c.streams.any (fun r => r.prot && decide (r.port / 2 = n / 2))
  if 1 < v (R.NET_PORT_CFG_SPEED n) ∨ v (R.NET_PORT_CFG_FEC n) = 3 then 1
  else if bridge = 1 ∧ v (R.NET_PORT_CFG_SPEED n) ≠ s.inForce (R.NET_PORT_CFG_SPEED other) then 2
  else if bridge = 1 ∧ prot = true then 3
  else 0

/-- A media port's link goes down. -/
def State.linkDown (s : State) (n : Nat) : State :=
  if s.fld (R.NET_LINK_UP n) = 1 then
    (s.clearFlds [R.NET_LINK_UP n, R.NET_LINK_SPEED n, R.NET_LINK_FEC_LOCK n, R.NET_LINK_BLOCK_LOCK n]).raise (R.NET_INT_STATUS_LINK_DOWN n)
  else s

/-- Put port `n`'s set in force (R287): a change of SPEED or FEC, and ENABLE, retrain the link. -/
def State.netApplySet (s : State) (n : Nat) (set : Tbl Nat) : State :=
  let v := fun (f : Fld) => Tbl.get set f.key f.rst
  let was := fun (f : Fld) => s.inForce f
  let train := [R.NET_PORT_CFG_ENABLE n, R.NET_PORT_CFG_SPEED n, R.NET_PORT_CFG_FEC n].any (fun f => v f != was f)
  let s1 := (netSetFlds n).foldl (fun s f => s.setForce f (v f)) s
  if train then s1.linkDown n else s1

/-- A media port's link comes up (R287). -/
def State.linkUp (s : State) (n : Nat) : State :=
  if n < 4 ∧ s.domainOn 9 ∧ s.inForce (R.NET_PORT_CFG_ENABLE n) = 1 ∧ s.fld (R.NET_LINK_UP n) = 0 then
    ((((s.setFld (R.NET_LINK_UP n) 1).setFld (R.NET_LINK_SPEED n) (s.inForce (R.NET_PORT_CFG_SPEED n))).setFld
      (R.NET_LINK_FEC_LOCK n) (flag (decide (s.inForce (R.NET_PORT_CFG_FEC n) ≠ 0)))).setFld (R.NET_LINK_BLOCK_LOCK n) 1).raise
      (R.NET_INT_STATUS_LINK_UP n)
  else s

/-- Free control-area slots (R285). -/
def State.ctlRelease (s : State) (n count : Nat) : State :=
  if count ≤ 64 then s.setFld (R.NET_CTL_RX_FREE_COUNT n) (min 64 (s.fld (R.NET_CTL_RX_FREE_COUNT n) + count)) else s

/-- A write of NET_COUNT_CLEAR (R295). -/
def State.netCountClear (s : State) (v : Nat) : State :=
  let s1 := s.clearMasked 4 v (fun n => [R.NET_RX_FRAMES_COUNT n, R.NET_TX_FRAMES_COUNT n, R.NET_RX_ERR_COUNT n,
    R.NET_BRIDGE_FWD_COUNT n, R.NET_BRIDGE_DROP_COUNT n, R.NET_CTL_DROP_COUNT n])
  if bit v 4 = 1 then
    (List.range 256).foldl (fun s n =>
      (s.clearFlds [R.NET_IN1_PACKETS n, R.NET_IN2_LATE_BLOCKS n, R.NET_IN3_LOST_0 n, R.NET_IN4_LOST_1 n, R.NET_IN5_DUP n,
        R.NET_IN6_LATE_PKTS n, R.NET_IN6_BAD n, R.NET_OUT1_PACKETS n, R.NET_OUT2_LATE n]).setFld (R.NET_IN7_MARGIN n) 0x7FFFFFFF) s1
  else s1

/-! ### A load and a swap (R283) -/

/-- An input stream takes a record: nothing buffered, its buses silent until data comes. -/
def State.inTake (s : State) (r : StreamRec) : State :=
  let n := r.stream
  let quiet : BusBlk := ⟨[], false, true⟩
  let s1 := s.setInS n { InStream.none with fmt := some r }
  let s2 := (List.range r.channels).foldl (fun s ch => (s.setBus 0 (r.firstBus + ch) quiet).setBus 1 (r.firstBus + ch) quiet) s1
  (s2.setFld (R.NET_IN0_PRESENT n) 1).setFld (R.NET_IN0_CHANNELS n) r.channels

/-- An output stream takes a record, with a random first sequence number (R275). `quiet`: the blocks of zero payload before it ramps
in over one block (R283); a stream of a peal load begins with its first packet (R398). -/
def State.outTake (s : State) (c : Cfg) (r : StreamRec) (quiet settled : Nat) : State :=
  let n := r.stream
  let q := s.random
  let s1 := q.2.setOutS n { OutStream.none with
    fmt := some r, dom := c.streamDomain r, zero := quiet, settled := settled, d := { PortDir.idle with level := if quiet = 0 then 1 else 0 } }
  ((((s1.setFld (R.NET_OUT3_SEQ n) q.1).setFld (R.NET_OUT0_PRESENT n) 1).setFld (R.NET_OUT0_CHANNELS n) r.channels).setFld
    (R.NET_OUT0_STATE n) (if quiet = 0 then 2 else 1)).setFld (R.NET_OUT0_MUTED n) 0

/-- A peal load: every stream takes its record. -/
def State.netLoad (s : State) (c : Cfg) : State :=
  c.streams.foldl (fun s r => if r.dirOut then s.outTake c r 0 s.blk.index else s.inTake r) s

/-- An output stream whose record changes ramps to silence over the 4 blocks that end at S (R283). -/
def State.netStop (s : State) (new : Cfg) (swapAt : Nat) : State :=
  match s.cfg with
  | none => s
  | some c =>
    (s.net.outs.filter (fun e => decide (e.2.fmt ≠ new.stream? true e.1))).foldl (fun s e =>
      let x := s.outS e.1
      let span := c.firstOf x.dom swapAt - c.firstOf x.dom s.blk.index
      s.setOutS e.1 { x with stopping := true, d := { x.d with stopLen := span, entering := false } }) s

/-- At S changed streams take their new records; a removed output stream sends zero payload for 64 blocks more (R283). -/
def State.netSwap (s : State) (new : Cfg) : State :=
  let s1 := (s.net.ins.filter (fun e => decide (e.2.fmt ≠ new.stream? false e.1))).foldl (fun s e =>
    (s.setInS e.1 InStream.none).clearFlds [R.NET_IN0_PRESENT e.1, R.NET_IN0_CHANNELS e.1]) s
  let s2 := (s1.net.outs.filter (fun e => (new.stream? true e.1).isNone)).foldl (fun s e =>
    s.setOutS e.1 { s.outS e.1 with zero := 64 }) s1
  new.streams.foldl (fun s r =>
    if r.dirOut then (if (s.outS r.stream).fmt = some r then s else s.outTake new r 64 (s.blk.index - 1))
    else if (s.inS r.stream).fmt = some r then s else s.inTake r) s2

/-! ### The commands -/

def execNetFrameRx (port : Nat) (frame : List Byte) (ok full : Bool) (t residence : Nat) (s : State) :
    Host.Outcome State Fault Refusal := .next (s.frameRx port frame ok full t residence)

/-- An RTP packet that matches an input stream of FORMAT 0 (R275). -/
def execRtpPacketRx (stream leg : Nat) (packet : List Byte) (t : Nat) (s : State) : Host.Outcome State Fault Refusal :=
  match (s.inS stream).fmt with
  | some r => if r.format = 0 then .next ((s.seeTime t).streamRx stream leg t packet) else .next s
  | none => .next s

/-- A low-latency packet that matches an input stream of FORMAT 1 (R276). -/
def execLlPacketRx (stream leg : Nat) (packet : List Byte) (t : Nat) (s : State) : Host.Outcome State Fault Refusal :=
  match (s.inS stream).fmt with
  | some r => if r.format = 1 then .next ((s.seeTime t).streamRx stream leg t packet) else .next s
  | none => .next s

def execStreamPacketTx (stream : Nat) (s : State) : Host.Outcome State Fault Refusal := .next (s.streamTx stream)

def execNetSendDone (port t : Nat) (s : State) : Host.Outcome State Fault Refusal := .next (s.netSent port t)

/-- Whether the streams of STREAM_MUTE stand at their boundary: the token of the running block has reached their islands, and none of
their samples of its emit block has left. -/
def State.streamsOpen (s : State) (first count mute ramp : Nat) : Bool :=
  decide ((s.passed (s.cmdIslands .net (.streamMute first count mute ramp))).2 = s.blk.seq) &&
    (List.range count).all (fun j => decide ((s.outS (first + j)).settled < s.blk.index))

/-- A STREAM_MUTE given as a row: applied at the boundary its streams are at, or held for the next one (R284). -/
def execStreamMute (first count mute ramp : Nat) (s : State) : Host.Outcome State Fault Refusal :=
  .next (if s.streamsOpen first count mute ramp then (s.streamMute first count mute ramp).2
    else s.hold (heldOf .net (.streamMute first count mute ramp) .notNeeded))

def execNetLinkUp (port : Nat) (s : State) : Host.Outcome State Fault Refusal := .next (s.linkUp port)

def execNetLinkDown (port : Nat) (s : State) : Host.Outcome State Fault Refusal := .next (s.linkDown port)

end Sys2Proof.Machine
end

