-- ==== Sys2Proof/Machine/Modes.lean ====
section
/-! DEFINITION. What modes, resets and power domains share (R12-R14, R32, R390-R397, R400): register windows and their
domains, the reset of a domain, the output gate, fallback clocks, causes of LIMP, alerts. -/

namespace Sys2Proof.Machine

/-! ### Alerts (R368) -/

/-- Set an SMP alert bit. -/
def State.alert (s : State) (i : Nat) : State := s.setFld R.SMP_ALERT_STATUS_ALERT (withBit (s.fld R.SMP_ALERT_STATUS_ALERT) i)

/-- SMP_ALERT_N is low (R368). -/
def State.alertLow (s : State) : Bool := decide (s.fld R.SMP_ALERT_STATUS_ALERT &&& s.fld R.SMP_ALERT_ENABLE_ENABLE ≠ 0)

/-! ### Domains of registers, engines and commits (R12, R32, R35) -/

/-- Register fields kept in AO or by the power manager, which a main-side reset leaves: Flam's MIRROR_GEN and peer record
(R357), and the mode, power and clock fields of SYS (PMU state, R406, R33). -/
def keptKey (k : Nat) : Bool :=
  let a := k / 32
  decide ((0x14400010 ≤ a ∧ a < 0x14400018) ∨ (0x14400020 ≤ a ∧ a < 0x14400034) ∨ k = R.FLM_STATE_RECORD_VALID.key ∨
    (a = 0x14000000 ∧ (k % 32 = 0 ∨ k % 32 = 16)) ∨ (0x14000100 ≤ a ∧ a < 0x14000168 ∧ 0 < k % 32) ∨ a = 0x14000008)

/-- The domain of a commit set. -/
def commitDomain : CommitBlk → Nat
  | .peal | .tuOut _ | .wc _ | .pll _ => 2
  | .cln => 3
  | .aes _ => 10
  | .net _ => 9

/-- What a domain's reset means for the rings and the crossbar, while CTRL is on: its engines' held commands are discarded, and its masters
are reset (R228, R232). -/
def State.quietDomain (s : State) (d : Nat) : State :=
  if s.domainOn 2 ∧ d ≠ 2 then (mastersOf d).foldl (fun s m => s.resetMaster m) (s.discardHeld d)
  else { s with held := s.held.filter (fun h => engineDomain h.eng != d) }

/-- Reset a domain's state (R6, R30, R62, R393): its registers take their reset values, its pending commits and held commands
are discarded, its engines' state is as at power-up. A reset of CTRL or DRAM sets both planes to EMPTY. -/
def State.resetDomain (s : State) (d : Nat) : State :=
  let gone := fun (e : Nat × Nat) => addrDomain (e.1 / 32) == d && !keptKey e.1
  let s := s.quietDomain d
  let s1 := { s with
    regs := s.regs.filter (fun e => !gone e)
    force := s.force.filter (fun e => !gone e)
    commits := s.commits.filter (fun p => commitDomain p.blk != d) }
  match d with
  | 2 => { s1 with
      cfg := none, old := none, blk := .idle, sxm := ⟨[], [], []⟩, hif := .idle, rings := []
      tu := ⟨[], [], [], [], 0, false⟩, clv := .idle, gate := ⟨false, none⟩, peal := .idle
      panel := ⟨[], [], 0, 0, 0⟩ }
  | 3 => { s1 with cln := ⟨[], [], [], [], 0⟩ }
  | 4 => { s1 with chm := .idle }
  | 9 => { s1 with net := ⟨[], [], [], []⟩, flm := { Flm.idle with ownPeer := s.flm.ownPeer, selPeer := s.flm.selPeer } }
  | 10 => { s1 with ports := ⟨[], [], [], [], [], []⟩ }
  | 11 => { s1 with beat := ⟨[], [], []⟩ }
  | 12 => ({ s1 with cfg := none, old := none, dpl := ⟨[], [], 0, []⟩, peal := .idle }).clearFlds
      [R.PEAL_STATUS_PLANE_A, R.PEAL_STATUS_PLANE_B, R.PEAL_STATUS_LIVE_PLANE, R.PEAL_STATUS_BUSY]
  | _ =>
    if 5 ≤ d ∧ d ≤ 8 then
      let c := d - 5
      { s1 with mal := { s1.mal with
          cores := s1.mal.cores.filter (fun e => e.1 / 16 != c)
          prog := s1.mal.prog.filter (fun e => e.1 / 16384 / 16 != c)
          data := s1.mal.data.filter (fun e => e.1 / 65536 / 16 != c)
          shared := s1.mal.shared.filter (fun e => e.1 / 2 ^ 20 != c)
          applied := s1.mal.applied.filter (fun e => e.1 / 16 != c) } }
    else s1

/-! ### Domain states and islands (R33, R391, R407) -/

/-- PMU_DOMAIN_STATE of a domain: 0 off, 1 switching, 2 on, 3 retention. -/
def State.domainState (s : State) (d : Nat) : Nat := s.fld R.PMU_DOMAIN_STATE_STATE / 4 ^ (d - 1) % 4

/-- Set PMU_DOMAIN_STATE of a domain. -/
def State.setDomainState (s : State) (d v : Nat) : State :=
  let w := s.fld R.PMU_DOMAIN_STATE_STATE
  s.setFld R.PMU_DOMAIN_STATE_STATE (w - s.domainState d * 4 ^ (d - 1) + v * 4 ^ (d - 1))

/-- The divider an island shows: of the live plane, or the boot clock's (R33, R398). DESIGN CHOICE (notes/assumptions/46): an
island that a swap powers between its arming and S shows the live plane's byte, and one that leaves retention likewise. -/
def State.islandDiv (s : State) (i : Nat) : Nat :=
  match s.cfg with
  | some c => c.sys.divX2.getD i 0
  | none => if i = 1 ∨ i = 25 ∨ i = 12 then 8 else if i = 24 then 10 else 0

/-- An island's clock and power fields once its domain is on. -/
def State.islandUp (s : State) (i : Nat) : State :=
  let fb := s.fld (R.PLL_STATUS_FALLBACK 0)
  let s1 := ((s.setFld (R.SYS_ISLAND_POWERED i) 1).setFld (R.SYS_ISLAND_CLK_SRC i) fb).setFld (R.SYS_ISLAND_DIV_X2 i) (s.islandDiv i)
  if fb = 1 then s1.setFld (R.SYS_ISLAND_FALLBACK_SEEN i) 1 else s1

/-- An island stopped. -/
def State.islandDown (s : State) (i : Nat) : State :=
  ((s.setFld (R.SYS_ISLAND_POWERED i) 0).setFld (R.SYS_ISLAND_CLK_SRC i) 3).setFld (R.SYS_ISLAND_DIV_X2 i) 0

/-- Words in flight on channels into or out of a domain are discarded (R15). -/
def State.dropFlights (s : State) (d : Nat) : State :=
  { s with hsk := s.hsk.map (fun e =>
      if domainOf (e.1 / 26) = d ∨ domainOf (e.1 % 26) = d then (e.1, { e.2 with flight := [] }) else e) }

/-- Beater's gates go low (R391, R393). -/
def State.gatesLow (s : State) : State :=
  (List.range 32).foldl (fun s n => if s.bdefined n then s.emit (.beatBlock n s.blk.index none) else s) s

/-- Switch a domain off: its state is lost (R391). -/
def State.domainDown (s : State) (d : Nat) : State :=
  let s0 := if d = 11 then s.gatesLow else s
  let s1 := (s0.resetDomain d).setDomainState d 0
  (islandsOf d).foldl (fun s i => s.islandDown i) s1

/-! ### Mode and gate (R395, R397) -/

/-- The code of a mode (R395). -/
def Mode.code : Mode → Nat
  | .sentry => 0
  | .load => 1
  | .shadow => 2
  | .live => 3
  | .limp => 4
  | .test => 5

/-- SYS_MODE.WITHHELD: in SHADOW, and in LIMP entered from SHADOW (R397). -/
def State.markWithheld (s : State) : State :=
  s.setFld R.SYS_MODE_WITHHELD (flag (decide (s.mode = .shadow ∨ (s.mode = .limp ∧ s.pmu.limpShadow))))

/-- Enter a mode. -/
def State.setMode (s : State) (m : Mode) : State :=
  if s.mode = m then s
  else ((s.setFld R.SYS_MODE_MODE m.code).markWithheld).raise R.SYS_INT_STATUS_MODE_CHANGE

/-- Start a ramp of every output at emit block `k`, over `n` blocks; the outputs then stand released or withheld. -/
def State.rampOutputs (s : State) (k n : Nat) (up released : Bool) : State :=
  { s with gate := ⟨released, some (k, n, up)⟩ }

/-- Release or withhold every output without a ramp. -/
def State.setGate (s : State) (released : Bool) : State := { s with gate := ⟨released, none⟩ }

/-- A ramp that has ended is forgotten at its boundary. -/
def State.gateBoundary (s : State) (k : Nat) : State :=
  match s.gate.ramp with
  | none => s
  | some (b, n, _) =>
    let d := (k + 2 ^ 48 - b) % 2 ^ 48
    if n ≤ d ∧ d < 2 ^ 47 then { s with gate := ⟨s.gate.released, none⟩ } else s

/-! ### Fallback clocks (R14, R316) -/

/-- Every powered island clocked from PLL_00 switches to the fallback oscillator (R14); Mallet cores take source 10 (R156). -/
def State.toFallback (s : State) : State :=
  let s1 := ((List.range 26).filter (fun i => i != 0 && s.islandOn i)).foldl (fun s i =>
    if s.fld (R.SYS_ISLAND_CLK_SRC i) = 1 then s
    else
      let s' := (s.setFld (R.SYS_ISLAND_CLK_SRC i) 1).setFld (R.SYS_ISLAND_FALLBACK_SEEN i) 1
      if 8 ≤ i ∧ i ≤ 11 then s'.raiseMask (i - 8) 10 0xFFFF else s') s
  s1.setFld (R.PLL_STATUS_FALLBACK 0) 1

/-- Every powered island returns to PLL_00. -/
def State.fromFallback (s : State) : State :=
  (((List.range 26).filter (fun i => i != 0 && s.islandOn i)).foldl (fun s i => s.setFld (R.SYS_ISLAND_CLK_SRC i) 0) s).setFld
    (R.PLL_STATUS_FALLBACK 0) 0

/-- An island on the fallback oscillator returns to PLL_00, where PLL_00 is in use again (R402). -/
def State.islandReturn (s : State) (i : Nat) : State :=
  if s.islandOn i ∧ s.fld (R.SYS_ISLAND_CLK_SRC i) = 1 ∧ s.fld (R.PLL_STATUS_FALLBACK 0) = 0 then
    s.setFld (R.SYS_ISLAND_CLK_SRC i) 0
  else s

/-- A PLL starts a band search (R315). -/
def State.pllSearch (s : State) (n : Nat) : State :=
  (s.setFld (R.PLL_STATUS_LOCKED n) 0).setFld (R.PLL_STATUS_SEARCHING n) 1

/-! ### Causes of LIMP (R400) -/

/-- The codes of the causes in LIMP_CAUSE and CAUSE (R406, R407). -/
abbrev causeClock : Nat := 0
abbrev causeThermal : Nat := 1
abbrev causeIsland : Nat := 2
abbrev causeRail : Nat := 3
abbrev causeRequest : Nat := 4

/-- The causes present. -/
def State.limpCauses (s : State) : Nat := s.fld R.PMU_LIMP_STATUS_CAUSE

/-- Show the causes present. -/
def State.setCauses (s : State) (v : Nat) : State :=
  let s1 := s.setFld R.PMU_LIMP_STATUS_CAUSE v
  if s1.domainOn 2 then s1.setFld R.SYS_MODE_LIMP_CAUSE v else s1

/-- A cause of LIMP arises, in SHADOW, LIVE or LIMP (R400); an exit under way is abandoned (R402). -/
def State.addCause (s : State) (b : Nat) : State :=
  match s.mode with
  | .shadow | .live | .limp =>
    let s1 := (s.setCauses (withBit s.limpCauses b)).setFld R.PMU_LIMP_STATUS_SEEN (withBit (s.fld R.PMU_LIMP_STATUS_SEEN) b)
    if s1.pmu.exitAt.isSome ∧ s1.fld R.PMU_LIMP_STATUS_PHASE ≠ 3 then
      ({ s1 with pmu := { s1.pmu with exitAt := none } }).setFld R.PMU_LIMP_STATUS_PHASE 1
    else s1
  | _ => s

/-- A cause of LIMP is clear. -/
def State.dropCause (s : State) (b : Nat) : State := s.setCauses (withoutBit s.limpCauses b)

/-! ### PLLs (R315, R316) -/

/-- A PLL loses lock (R315, R316). -/
def State.pllLoss (s : State) (n : Nat) : State :=
  if n ≤ 3 ∧ s.fld (R.PLL_STATUS_LOCKED n) = 1 then
    let s1 := ((s.pllSearch n).bump (R.PLL_LOL_COUNT_COUNT n)).raiseAt R.PLL_INT_STATUS_LOL n
    if n = 0 then
      match s1.mode with
      | .shadow | .live | .limp =>
        let s2 := s1.toFallback.addCause causeClock
        { s2 with pmu := { s2.pmu with lost := false } }
      | _ => { s1.toFallback with pmu := { s1.toFallback.pmu with lost := true } }
    else if n ≤ 2 then (s1.setFld (R.PLL_STATUS_BYPASS n) 1).raiseAt R.PLL_INT_STATUS_BYPASS n
    else { s1 with tu := { s1.tu with crystal := true } }
  else s

/-- A PLL reaches LOCKED (R315): `us` the relock took, `band` it found. After a commanded band search of PLL_00 the islands
return at once (R14, R317). -/
def State.pllLock (s : State) (n us band : Nat) : State :=
  if n ≤ 3 ∧ s.fld (R.PLL_STATUS_SEARCHING n) = 1 then
    let s1 := ((((s.setFld (R.PLL_STATUS_LOCKED n) 1).setFld (R.PLL_STATUS_SEARCHING n) 0).setFld (R.PLL_STATUS_BAND n) band).setFld
      (R.PLL_RELOCK_US_US n) us).raiseAt R.PLL_INT_STATUS_LOCK n
    if n = 0 ∧ s1.mode = .sentry ∧ s1.fld R.SYS_BOOT_STATUS_STAGE = 1 then s1.setFld R.SYS_BOOT_STATUS_STAGE 2
    else if n = 0 ∧ s1.fld (R.PLL_STATUS_FALLBACK 0) = 1 ∧ s1.pmu.lost = false ∧ bit s1.limpCauses causeClock = 0 ∧ s1.mode ≠ .limp then
      s1.fromFallback
    else s1
  else s

/-- PLL_01 or PLL_02 has been LOCKED for 1 ms: its outputs leave the bypass synthesizer (R316). -/
def State.bypassExit (s : State) (n : Nat) : State :=
  if (n = 1 ∨ n = 2) ∧ s.fld (R.PLL_STATUS_LOCKED n) = 1 then s.setFld (R.PLL_STATUS_BYPASS n) 0 else s

/-- PLL_00 has been LOCKED for 100 ms after a loss in LOAD or TEST: the islands return (R14), whatever mode the boot has
reached since; in LIMP every island stays on the fallback oscillator (R399). -/
def State.fallbackReturn (s : State) : State :=
  if s.pmu.lost ∧ s.fld (R.PLL_STATUS_LOCKED 0) = 1 ∧ s.mode ≠ .limp then
    { s.fromFallback with pmu := { s.fromFallback.pmu with lost := false } }
  else s

/-- A write of PLL_PHASE_STEP (R318, R320). -/
def State.phaseStep (s : State) (n v : Nat) : State :=
  if (n = 1 ∨ n = 2) ∧ bits v 7 0 ≠ 0 then s.emit (.mclkStep n (bits v 7 0) (decide (bit v 31 = 1))) else s

/-- The RWS fields of PLL `n`'s set (R318). -/
def pllSetFlds (n : Nat) : List Fld := [R.PLL_MCLK_ENABLE n, R.PLL_MCLK_DIV n]

/-- The consistency check of a PLL's set (R318): its code, 0 where it passes. -/
def State.pllCheck (s : State) (n : Nat) (set : Tbl Nat) : Nat :=
  let v := fun (f : Fld) => Tbl.get set f.key f.rst
  if v (R.PLL_MCLK_ENABLE n) = 1 ∧ (v (R.PLL_MCLK_DIV n) < 32 ∨ 4096 < v (R.PLL_MCLK_DIV n)) then 1
  else if v (R.PLL_MCLK_ENABLE n) = 1 ∧ n = 2 ∧ (match s.cfg with | none => true | some c => c.sys.rateB == 0) = true then 2
  else 0

/-- Whether MCLK_A_OUT (PLL_01) or MCLK_B_OUT (PLL_02) runs, and its divider (R318). -/
def State.mclk (s : State) (n : Nat) : Option Nat :=
  if s.inForce (R.PLL_MCLK_ENABLE n) = 1 then some (s.inForce (R.PLL_MCLK_DIV n)) else none

/-! ### The commands -/

def execPllLossOfLock (n : Nat) (s : State) : Host.Outcome State Fault Refusal := .next (s.pllLoss n)

def execPllLocked (n us band : Nat) (s : State) : Host.Outcome State Fault Refusal := .next (s.pllLock n us band)

def execPllBypassExit (n : Nat) (s : State) : Host.Outcome State Fault Refusal := .next (s.bypassExit n)

def execFallbackReturnTimer (s : State) : Host.Outcome State Fault Refusal := .next s.fallbackReturn

/-- PLL_03 has been LOCKED for 1 ms: the time unit returns from the crystal to it (R316). -/
def execPll03Return (s : State) : Host.Outcome State Fault Refusal :=
  if s.fld (R.PLL_STATUS_LOCKED 3) = 1 then .next { s with tu := { s.tu with crystal := false } } else .next s

end Sys2Proof.Machine
end

