-- ==== Sys2Proof/Machine/Signature.lean ====
section
/-! DEFINITION. ECDSA over P-256 (R43, R44), as the verifier and the OTP commands check it. -/

namespace Sys2Proof.Machine

/-- The prime of the field of P-256. -/
abbrev p256P : Nat := 0xFFFFFFFF00000001000000000000000000000000FFFFFFFFFFFFFFFFFFFFFFFF

/-- The order of the group. -/
abbrev p256N : Nat := 0xFFFFFFFF00000000FFFFFFFFFFFFFFFFBCE6FAADA7179E84F3B9CAC2FC632551

/-- The coefficient b of the curve y² = x³ − 3x + b. -/
abbrev p256B : Nat := 0x5AC635D8AA3A93E7B3EBBD55769886BC651D06B0CC53B0F63BCE3C3E27D2604B

/-- The base point. -/
abbrev p256Gx : Nat := 0x6B17D1F2E12C4247F8BCE6E563A440F277037D812DEB33A0F4A13945D898C296
abbrev p256Gy : Nat := 0x4FE342E2FE1A7F9B8EE7EB4A7C0F9E162BCE33576B315ECECBB6406837BF51F5

/-- `b ^ e` modulo `m`, by the `n` low bits of the exponent. -/
def powMod (m : Nat) : Nat → Nat → Nat → Nat
  | 0, _, _ => 1 % m
  | n + 1, b, e =>
    let r := powMod m n (b * b % m) (e / 2)
    if e % 2 = 1 then b * r % m else r

/-- The inverse modulo a 256-bit prime. -/
def invMod (m x : Nat) : Nat := powMod m 256 (x % m) (m - 2)

/-- A point in Jacobian coordinates: (x / z², y / z³); the point at infinity has z = 0. -/
structure JPoint where
  x : Nat
  y : Nat
  z : Nat
deriving DecidableEq, Repr

/-- `a - b` in the field. -/
def subP (a b : Nat) : Nat := (a + p256P - b % p256P) % p256P

/-- Twice a point. -/
def JPoint.double (p : JPoint) : JPoint :=
  if p.z = 0 ∨ p.y = 0 then ⟨1, 1, 0⟩
  else
    let yy := p.y * p.y % p256P
    let zz := p.z * p.z % p256P
    let sv := 4 * (p.x * yy) % p256P
    let mv := 3 * (subP p.x zz * ((p.x + zz) % p256P)) % p256P
    let x3 := subP (mv * mv) (2 * sv)
    ⟨x3, subP (mv * subP sv x3) (8 * (yy * yy)), 2 * (p.y * p.z) % p256P⟩

/-- The sum of two points. -/
def JPoint.add (p q : JPoint) : JPoint :=
  if p.z = 0 then q
  else if q.z = 0 then p
  else
    let z1 := p.z * p.z % p256P
    let z2 := q.z * q.z % p256P
    let u1 := p.x * z2 % p256P
    let u2 := q.x * z1 % p256P
    let s1 := p.y * (z2 * q.z % p256P) % p256P
    let s2 := q.y * (z1 * p.z % p256P) % p256P
    if u1 = u2 then
      if s1 = s2 then p.double else ⟨1, 1, 0⟩
    else
      let h := subP u2 u1
      let r := subP s2 s1
      let hh := h * h % p256P
      let hhh := h * hh % p256P
      let v := u1 * hh % p256P
      let x3 := subP (r * r) (hhh + 2 * v)
      ⟨x3, subP (r * subP v x3) (s1 * hhh), h * (p.z * q.z % p256P) % p256P⟩

/-- `k` times a point, by the `n` low bits of `k`, `p` being the point for the lowest of them. -/
def mulPoint : Nat → Nat → JPoint → JPoint
  | 0, _, _ => ⟨1, 1, 0⟩
  | n + 1, k, p =>
    let r := mulPoint n (k / 2) p.double
    if k % 2 = 1 then p.add r else r

/-- Whether the 65 bytes are an uncompressed SEC 1 point on the curve (R43, R44). -/
def onCurve (pk : List Byte) : Bool :=
  let x := beNat (slice pk 1 32)
  let y := beNat (slice pk 33 32)
  decide (pk.length = 65 ∧ pk.headD 0 = 4#8 ∧ x < p256P ∧ y < p256P ∧
    y * y % p256P = (x * x * x + (p256P - 3) * x + p256B) % p256P)

/-- Whether (r, s) verifies over a digest under a public key on the curve. -/
def ecdsaVerify (pk digest : List Byte) (r s : Nat) : Bool :=
  if r = 0 ∨ p256N ≤ r ∨ s = 0 ∨ p256N ≤ s then false
  else
    let w := invMod p256N s
    let u1 := beNat digest * w % p256N
    let u2 := r * w % p256N
    let q := (mulPoint 256 u1 ⟨p256Gx, p256Gy, 1⟩).add
      (mulPoint 256 u2 ⟨beNat (slice pk 1 32), beNat (slice pk 33 32), 1⟩)
    if q.z = 0 then false
    else
      let zi := invMod p256P q.z
      decide (q.x * (zi * zi % p256P) % p256P % p256N = r)

/-- A fingerprint slot of OTP as 32 bytes (R385). -/
def State.fingerprint (s : State) (slot : Nat) : List Byte :=
  (List.range 8).flatMap (fun i => leBytes 4 (s.fld (R.OTP_FP_FP slot i)))

/-- Whether a fingerprint slot is fused and not revoked (R44). -/
def State.slotUsable (s : State) (slot : Nat) : Bool :=
  decide (slot < 4 ∧ bit (s.fld R.OTP_FP_STATE_PROGRAMMED) slot = 1 ∧ bit (s.fld R.OTP_FP_STATE_REVOKED) slot = 0)

end Sys2Proof.Machine
end

