-- ==== Sys2Proof/Machine/Image.lean ====
section
/-! DEFINITION. The layout of a peal image (R37-R43, R438, R439), its format and integrity checks (classes 0x01xx to 0x03xx of
R51), and the composition of a delta (R53, R54). -/

namespace Sys2Proof.Machine

/-- A verification failure (R51): the code, INDEX and DETAIL. -/
structure Failure where
  code : Nat
  index : Nat
  detail : Nat
deriving DecidableEq, Repr

/-- One failure if the condition holds. -/
def failIf (c : Bool) (code index detail : Nat) : List Failure := if c then [⟨code, index, detail⟩] else []

/-- A section (R39): its table entry and its payload. -/
structure Sec where
  type : Nat
  flags : Nat
  off : Nat
  len : Nat
  count : Nat
  size : Nat
  version : Nat
  crc : Nat
  data : List Byte
deriving DecidableEq, Repr

/-! ### Section types (R41) -/

/-- SYSTEM, BUSES, SCHEDULE, … by their TYPE. -/
abbrev tSystem : Nat := 0x01
abbrev tBuses : Nat := 0x02
abbrev tSchedule : Nat := 0x03
abbrev tGeometry : Nat := 0x10
abbrev tGains : Nat := 0x11
abbrev tFilters : Nat := 0x20
abbrev tCoeffs : Nat := 0x21
abbrev tPresets : Nat := 0x22
abbrev tProgram : Nat := 0x30
abbrev tData : Nat := 0x31
abbrev tCluster : Nat := 0x32
abbrev tLines : Nat := 0x40
abbrev tRegions : Nat := 0x41
abbrev tInit : Nat := 0x42
abbrev tPorts : Nat := 0x50
abbrev tStreams : Nat := 0x51
abbrev tBridges : Nat := 0x52
abbrev tClock : Nat := 0x60
abbrev tBeater : Nat := 0x70
abbrev tMirror : Nat := 0x80
abbrev tTap : Nat := 0x90
abbrev tPatch : Nat := 0xFE

/-- The record size of a type, 0 for a raw section; none for a type that is not listed. -/
def recSize : Nat → Option Nat
  | 0x01 => some 128
  | 0x02 => some 8
  | 0x03 => some 32
  | 0x10 => some 64
  | 0x11 => some 8
  | 0x20 => some 16
  | 0x21 => some 4
  | 0x22 => some 16
  | 0x30 => some 0
  | 0x31 => some 0
  | 0x32 => some 0
  | 0x40 => some 32
  | 0x41 => some 16
  | 0x42 => some 0
  | 0x50 => some 32
  | 0x51 => some 64
  | 0x52 => some 8
  | 0x60 => some 512
  | 0x70 => some 32
  | 0x80 => some 12
  | 0x90 => some 4
  | 0xFE => some 0
  | _ => none

/-- The most sections a type may have. -/
def maxSections : Nat → Nat
  | 0x30 => 64
  | 0x31 => 256
  | 0x32 => 64
  | 0x42 => 32
  | 0xFE => 64
  | _ => 1

/-- The types that must appear. -/
abbrev requiredTypes : List Nat := [tSystem, tBuses, tSchedule, tClock]

/-- The types that are listed. -/
abbrev listedTypes : List Nat :=
  [tSystem, tBuses, tSchedule, tGeometry, tGains, tFilters, tCoeffs, tPresets, tProgram, tData, tCluster, tLines, tRegions,
   tInit, tPorts, tStreams, tBridges, tClock, tBeater, tMirror, tTap, tPatch]

/-! ### Reserved positions (R438) -/

/-- `n` whole bytes from `a`. -/
def wholeBytes (a n : Nat) : List (Nat × Nat) := (List.range n).map (fun i => (a + i, 0xFF))

/-- The reserved bits of a record of a type, as (offset in the record, mask). -/
def reservedRec (type : Nat) (r : List Byte) : List (Nat × Nat) :=
  let b := fun i => (r.getD i 0#8).toNat
  match type with
  | 0x01 => (0x09, 0xF0) :: (0x0C, 0xFF) :: wholeBytes 0x26 90
  | 0x02 => (3, 0xFC) :: wholeBytes 6 2
  | 0x03 =>
    (10, 0xFC) :: wholeBytes 28 4 ++ (List.range 8).flatMap (fun i =>
      if b 11 ≤ i then wholeBytes (12 + 2 * i) 2 else [(13 + 2 * i, 0x70)])
  | 0x10 => (11, 0xF0) :: wholeBytes 12 52
  | 0x22 => (3, 0xFF) :: wholeBytes 12 4
  | 0x40 => wholeBytes 6 2 ++ (20, 0xF8) :: wholeBytes 21 11
  | 0x41 => [(3, 0xFE)]
  | 0x50 =>
    if b 0 = 0 then (11, 0xF0) :: (17, 0xFC) :: wholeBytes 22 2 ++ wholeBytes 28 4
    else if b 0 = 1 then wholeBytes 14 2 ++ wholeBytes 24 8
    else []
  | 0x51 => (28, 0xC0) :: (31, 0xFE) :: wholeBytes 62 2
  | 0x52 => [(1, 0xFF)]
  | 0x60 =>
    (List.range 16).map (fun n => (16 * n + 11, 0xFF)) ++ (0x102, 0xFC) :: wholeBytes 0x11A 6 ++
      (List.range 4).flatMap (fun w => (0x120 + 16 * w, 0x80) :: wholeBytes (0x121 + 16 * w) 3 ++ wholeBytes (0x12A + 16 * w) 6) ++
      wholeBytes 0x160 96 ++ wholeBytes 0x1C4 60
  | 0x70 =>
    if b 0 < 32 then (1, 0xF8) :: wholeBytes 23 9
    else if 0x80 ≤ b 0 ∧ b 0 ≤ 0x87 then (1, 0xFE) :: wholeBytes 19 13
    else if b 0 = 0xFF then (1, 0xFF) :: wholeBytes 4 28
    else []
  | 0x80 => [(1, 0xFF)]
  | 0x90 => wholeBytes 2 2
  | _ => []

/-- The reserved bits of the prefix of a raw section. -/
def reservedPrefix : Nat → List (Nat × Nat)
  | 0x30 => (1, 0xFF) :: wholeBytes 6 2
  | 0x31 => (1, 0xFC) :: wholeBytes 6 2
  | 0x32 => wholeBytes 1 3
  | 0x42 => wholeBytes 4 4
  | 0xFE => wholeBytes 2 2
  | _ => []

/-- The offsets of the bytes of `bs` that are not 0 in reserved bits. -/
def nonZero (bs : List Byte) (rs : List (Nat × Nat)) : List Nat :=
  (rs.filter (fun p => decide ((bs.getD p.1 0#8).toNat &&& p.2 ≠ 0))).map (·.1)

/-- Cut a byte list into `n` records of a size. -/
def cutRecords (size : Nat) : Nat → List Byte → List (List Byte)
  | 0, _ => []
  | n + 1, bs => bs.take size :: cutRecords size n (bs.drop size)

/-- The records of a section, with their index. -/
def Sec.records (x : Sec) : List (Nat × List Byte) :=
  (List.range x.count).zip (cutRecords x.size x.count x.data)

/-- The whole records a RECORD_PATCH holds: the target's record size, FIRST and the records (R53). -/
def Sec.patch (x : Sec) : Nat × Nat × List (List Byte) :=
  let size := (recSize (leAt x.data 0 2)).getD 0
  (leAt x.data 0 2, leAt x.data 4 4, if size = 0 then [] else cutRecords size ((x.len - 8) / size) (x.data.drop 8))

/-- Offsets in the payload of a section's non-zero reserved bytes. -/
def Sec.reserved (x : Sec) : List Nat :=
  match recSize x.type with
  | none => []
  | some 0 =>
    let top := nonZero x.data (reservedPrefix x.type)
    if x.type = tData then
      top ++ (List.range ((x.len - 8) / 4)).filterMap (fun i => if x.data.getD (11 + 4 * i) 0#8 = 0#8 then none else some (11 + 4 * i))
    else if x.type = tPatch then
      let (t, _, rs) := x.patch
      let size := (recSize t).getD 0
      top ++ ((List.range rs.length).zip rs).flatMap (fun p => (nonZero p.2 (reservedRec t p.2)).map (fun o => 8 + size * p.1 + o))
    else top
  | some size => x.records.flatMap (fun p => (nonZero p.2 (reservedRec x.type p.2)).map (fun o => size * p.1 + o))

/-! ### Header and section table -/

/-- SIG_OFFSET of an image. -/
def sigOffset (bs : List Byte) : Nat := leAt bs 0x18 4

/-- IMAGE_KIND is delta. -/
def isDelta (bs : List Byte) : Bool := decide (leAt bs 0x0B 1 = 1)

/-- SECTION_COUNT. -/
def sectionCount (bs : List Byte) : Nat := leAt bs 0x14 2

/-- The header rules of R38; `rev` is the device's revision. DESIGN CHOICE (notes/assumptions/47): a SIG_OFFSET that is not a
multiple of 64 has no code of its own and is reported as 0x0104, and the "revision" that 0x0103 gives as DETAIL is the device's. -/
def headerFailures (bs : List Byte) (rev : Nat) : List Failure :=
  failIf (leAt bs 0 4 != 0x4C414550) 0x0101 0 0 ++
  failIf (leAt bs 4 2 != 1) 0x0102 0 4 ++
  failIf (leAt bs 6 2 != 0x100) 0x0102 0 6 ++
  failIf (leAt bs 0x10 4 != 0x100) 0x0102 0 0x10 ++
  failIf (decide (1 < leAt bs 0x0B 1)) 0x0102 0 0x0B ++
  failIf (decide (63 < leAt bs 0x1C 4)) 0x0102 0 0x1C ++
  failIf (decide (leAt bs 0x0B 1 = 0) && (slice bs 0x30 32).any (fun b => b != 0#8)) 0x0102 0 0x30 ++
  failIf (leAt bs 8 2 != 0x1024 || decide (rev < leAt bs 0x0A 1)) 0x0103 0 rev ++
  failIf (decide (0x1800000 < leAt bs 0x0C 4 ∨ leAt bs 0x0C 4 ≠ sigOffset bs + 0xC0 ∨ sigOffset bs % 64 ≠ 0)) 0x0104 0 0 ++
  failIf (crc32 (bs.take 0xFC) != leAt bs 0xFC 4) 0x0105 0 0 ++
  failIf (decide (sectionCount bs = 0 ∨ 512 < sectionCount bs)) 0x0106 0 0 ++
  (nonZero bs (wholeBytes 0x16 2 ++ wholeBytes 0x50 172)).map (fun o => ⟨0x010B, 0xFFFF, o⟩)

/-- One section of an image by its table entry. -/
def sectionAt (bs : List Byte) (i : Nat) : Sec :=
  let e := slice bs (0x100 + 32 * i) 32
  ⟨leAt e 0 2, leAt e 2 2, leAt e 4 4, leAt e 8 4, leAt e 12 4, leAt e 16 2, leAt e 18 2, leAt e 20 4,
   slice bs (leAt e 4 4) (leAt e 8 4)⟩

/-- The sections of an image. -/
def sectionsOf (bs : List Byte) : List Sec := (List.range (sectionCount bs)).map (sectionAt bs)

/-- A list with its indices. -/
def indexed {α : Type} (xs : List α) : List (Nat × α) := (List.range xs.length).zip xs

/-- Whether the bytes from `a` up to `b` are all 0. -/
def zeroBytes (bs : List Byte) (a b : Nat) : Bool := (slice bs a (b - a)).all (fun x => x == 0#8)

/-- The placement rules of R37, payload by payload: `a` is where the payloads before it or the table end, a misplaced one too. -/
def placementFailures (bs : List Byte) (sig : Nat) : Nat → Nat → List Sec → List Failure
  | i, a, [] => failIf (!zeroBytes bs a sig) 0x0107 (i - 1) 0
  | i, a, x :: xs =>
    if x.off % 64 ≠ 0 ∨ x.off < a ∨ sig < x.off + x.len then ⟨0x0107, i, 0⟩ :: placementFailures bs sig (i + 1) (max a (min sig (x.off + x.len))) xs
    else failIf (!zeroBytes bs a x.off) 0x0107 i 0 ++ placementFailures bs sig (i + 1) (x.off + x.len) xs

/-- Whether LENGTH, RECORD_COUNT and RECORD_SIZE fit the type (R39, R41). DESIGN CHOICE (notes/assumptions/47): a RECORD_PATCH may
show RECORD_COUNT 0, as R39 has it for a raw section, or the number of its records, as R53 uses the field. -/
def Sec.lengthOk (x : Sec) : Bool :=
  match recSize x.type with
  | none => true
  | some 0 =>
    decide (x.size = 0 ∧ 8 ≤ x.len) &&
      (if x.type = tProgram then decide (x.count = 0 ∧ x.len = 8 + 4 * leAt x.data 2 2)
       else if x.type = tData then decide (x.count = 0 ∧ x.len = 8 + 4 * leAt x.data 4 2)
       else if x.type = tPatch then
         let size := (recSize (leAt x.data 0 2)).getD 0
         decide (size = 0 ∨ ((x.len - 8) % size = 0 ∧ (x.count = 0 ∨ x.count = (x.len - 8) / size)))
       else decide (x.count = 0))
  | some size =>
    decide (x.size = size ∧ x.len = x.count * size) &&
      (if x.type = tSystem ∨ x.type = tClock ∨ x.type = tGeometry then decide (x.count = 1) else true)

/-- The rules of the section table and the payloads (R37, R39, R41, R438). -/
def tableFailures (bs : List Byte) : List Failure :=
  let secs := indexed (sectionsOf bs)
  let sig := sigOffset bs
  let delta := isDelta bs
  placementFailures bs sig 0 (0x100 + 32 * sectionCount bs) (sectionsOf bs) ++
  secs.flatMap (fun p => failIf ((recSize p.2.type).isNone || p.2.version != 1 || (p.2.type == tPatch && !delta)) 0x0108 p.1 0) ++
  listedTypes.flatMap (fun t =>
    let n := (secs.filter (fun p => p.2.type == t)).length
    failIf (decide (maxSections t < n) || (!delta && decide (n = 0 ∧ t ∈ requiredTypes))) 0x0109 t 0) ++
  secs.flatMap (fun p => failIf (!p.2.lengthOk) 0x010A p.1 0) ++
  secs.flatMap (fun p =>
    let e := 0x100 + 32 * p.1
    (nonZero (slice bs e 32) ((2, 0xFE) :: (3, 0xFF) :: wholeBytes 0x18 8)).map (fun o => ⟨0x010B, p.1, e + o⟩) ++
    p.2.reserved.map (fun o => ⟨0x010B, p.1, p.2.off + o⟩)) ++
  (nonZero (slice bs sig 0xC0) (wholeBytes 5 3 ++ wholeBytes 0x49 7 ++ wholeBytes 0x90 48)).map (fun o => ⟨0x010B, 0xFFFE, sig + o⟩)

/-- Class 0x01xx. The table is judged once the header says where it ends (notes/assumptions/11). -/
def formatFailures (bs : List Byte) (rev : Nat) : List Failure :=
  let h := headerFailures bs rev
  if h.any (fun f => f.code == 0x0104 || f.code == 0x0106) then h else h ++ tableFailures bs

/-- The section that holds a byte of an image, as R439 counts; padding belongs to the section after it. -/
def indexAt (bs : List Byte) (o : Nat) : Nat :=
  if o < 0x100 then 0xFFFF
  else if sigOffset bs ≤ o then 0xFFFE
  else if o < 0x100 + 32 * sectionCount bs then (o - 0x100) / 32
  else
    match (indexed (sectionsOf bs)).find? (fun p => decide (o < p.2.off + p.2.len)) with
    | some p => p.1
    | none => sectionCount bs - 1

/-- Class 0x02xx: section CRCs, and uncorrectable errors among the image's bytes (R212); `base` is where the image lies and
`bad` the words of DRAM in error. -/
def integrityFailures (bs : List Byte) (base : Nat) (bad : List Nat) : List Failure :=
  (indexed (sectionsOf bs)).flatMap (fun p => failIf (crc32 p.2.data != p.2.crc) 0x0201 p.1 0) ++
  (bad.filter (fun w => decide (base < 8 * w + 8 ∧ 8 * w < base + leAt bs 0x0C 4))).map
    (fun w => ⟨0x0202, indexAt bs (8 * w - base), 8 * w⟩)

/-- The digest of R44. -/
def imageDigest (bs : List Byte) : List Byte := sha256 (bs.take (sigOffset bs))

/-- Class 0x03xx (R43, R44, R38). -/
def State.signatureFailures (s : State) (bs : List Byte) : List Failure :=
  let g := slice bs (sigOffset bs) 0xC0
  let slot := leAt g 4 1
  let pk := slice g 8 65
  failIf (leAt g 0 4 != 0x4E474953) 0x0301 0 0 ++
  failIf (!s.slotUsable slot) 0x0302 0 slot ++
  failIf (s.slotUsable slot && sha256 pk != s.fingerprint slot) 0x0303 0 slot ++
  failIf (!onCurve pk) 0x0304 0 0 ++
  failIf (onCurve pk && !ecdsaVerify pk (imageDigest bs) (beNat (slice g 0x50 32)) (beNat (slice g 0x70 32))) 0x0305 0 0 ++
  failIf (decide (leAt bs 0x1C 4 < s.fld R.OTP_ROLLBACK_MIN_MIN)) 0x0306 0 (s.fld R.OTP_ROLLBACK_MIN_MIN)

/-! ### Deltas (R53, R54) -/

/-- Replace the records of a section from `first` by others. -/
def patchRecords (x : Sec) (first : Nat) (rs : List (List Byte)) : Sec :=
  { x with data := x.data.take (first * x.size) ++ rs.flatten ++ x.data.drop ((first + rs.length) * x.size) }

/-- Apply one section of a delta (R53): the sections so far and the failure. The sections of a listed type that the delta
holds replace those of the base together: `seen` are the types already replaced. -/
def applySection (i : Nat) (x : Sec) (base : List Sec) (seen : List Nat) : Except Failure (List Sec × List Nat) :=
  if x.type = tPatch then
    let (t, first, rs) := x.patch
    match base.find? (fun b => b.type == t) with
    | none => .error ⟨0x0603, i, 0⟩
    | some b =>
      if b.size = 0 ∨ b.count < first + rs.length then .error ⟨0x0603, i, 0⟩
      else .ok (base.map (fun c => if c.type == t then patchRecords c first rs else c), seen)
  else if x.type ∈ seen then .ok (base ++ [x], seen)
  else
    match base.findIdx? (fun b => b.type == x.type) with
    | none => .ok (base ++ [x], x.type :: seen)
    | some k => .ok ((base.take k ++ x :: base.drop (k + 1)).filter (fun b => b.type != x.type || b == x), x.type :: seen)

/-- Apply every section of a delta in table order. -/
def applyDelta : List (Nat × Sec) → List Sec → List Nat → Except Failure (List Sec)
  | [], base, _ => .ok base
  | (i, x) :: xs, base, seen =>
    match applySection i x base seen with
    | .error f => .error f
    | .ok (b, sn) => applyDelta xs b sn

/-- Place sections one after another from `a`, each at a multiple of 64. -/
def placeSecs : Nat → List Sec → List Sec
  | _, [] => []
  | a, x :: xs =>
    let o := (a + 63) / 64 * 64
    { x with off := o, len := x.data.length } :: placeSecs (o + x.data.length) xs

/-- The bytes of a table entry. -/
def Sec.entry (x : Sec) : List Byte :=
  leBytes 2 x.type ++ leBytes 2 x.flags ++ leBytes 4 x.off ++ leBytes 4 x.len ++ leBytes 4 x.count ++ leBytes 2 x.size ++
    leBytes 2 x.version ++ leBytes 4 (crc32 x.data) ++ leBytes 8 0

/-- Write byte lists at rising offsets, 0 between them. -/
def layBytes : Nat → List (Nat × List Byte) → List Byte
  | _, [] => []
  | a, (o, bs) :: xs => List.replicate (o - a) 0#8 ++ bs ++ layBytes (o + bs.length) xs

/-- The composed image (R53): the base's header with the new sizes, the section table and the payloads. It carries no
signature (R54); its layout is the model's (notes/assumptions/35). -/
def composedImage (baseHeader : List Byte) (secs : List Sec) : List Byte :=
  let ps := placeSecs (0x100 + 32 * secs.length) secs
  let body := layBytes (0x100 + 32 * ps.length) (ps.map (fun x => (x.off, x.data)))
  let table := ps.flatMap Sec.entry
  let sig := (0x100 + table.length + body.length + 63) / 64 * 64
  let h := slice baseHeader 0 0x0C ++ leBytes 4 (sig + 0xC0) ++ leBytes 4 0x100 ++ leBytes 2 ps.length ++ leBytes 2 0 ++
    leBytes 4 sig ++ slice baseHeader 0x1C 0xE0
  layBytes 0 [(0, h), (0xFC, leBytes 4 (crc32 h)), (0x100, table ++ body), (sig, List.replicate 0xC0 0#8)]

end Sys2Proof.Machine
end

