-- ==== Sys2Proof/Machine/Records.lean ====
section
/-! DEFINITION. The records of every section type (R41, R42, R248, R249, R272, R299, R321, R343, R380) as the structures of
`Cfg`. -/

namespace Sys2Proof.Machine

/-- A signed little-endian field of `n` bytes. -/
def leSAt (bs : List Byte) (off n : Nat) : Int := ofCodeS (8 * n) (leAt bs off n)

/-- A bit of a byte as a truth value. -/
def bitAt (bs : List Byte) (off i : Nat) : Bool := decide (bit (leAt bs off 1) i = 1)

/-- The records of every section of a type: section index, record index, bytes. -/
def recsOf (secs : List Sec) (t : Nat) : List (Nat × Nat × List Byte) :=
  (indexed secs).flatMap (fun p => if p.2.type = t then p.2.records.map (fun r => (p.1, r.1, r.2)) else [])

/-- The raw sections of a type: section index and payload. -/
def rawsOf (secs : List Sec) (t : Nat) : List (Nat × List Byte) :=
  (indexed secs).filterMap (fun p => if p.2.type = t then some (p.1, p.2.data) else none)

/-- The bytes of the records of a type. -/
def bytesOf (secs : List Sec) (t : Nat) : List (List Byte) := (recsOf secs t).map (·.2.2)

def sysRec (r : List Byte) : SysRec :=
  ⟨leAt r 0 1, leAt r 1 1, leAt r 2 1, leAt r 3 1, leAt r 4 4, leAt r 8 2, leAt r 10 1, leAt r 11 1,
   (slice r 12 26).map (·.toNat)⟩

def busRec (r : List Byte) : BusRec := ⟨leAt r 0 2, leAt r 2 1, bitAt r 3 0, bitAt r 3 1, leAt r 4 2⟩

def taskRec (r : List Byte) : TaskRec :=
  ⟨leAt r 0 2, leAt r 2 1, leAt r 3 1, leAt r 4 4, leAt r 8 2, bitAt r 10 0, bitAt r 10 1,
   (List.range (min (leAt r 11 1) 8)).map (fun i => (leAt r (12 + 2 * i) 2 % 4096, decide (32768 ≤ leAt r (12 + 2 * i) 2)))⟩

def clnGeom (r : List Byte) : ClnGeom :=
  ⟨leAt r 0 2, leAt r 2 2, leAt r 4 2, leAt r 6 2, leAt r 8 2, leAt r 10 1, leAt r 11 1⟩

def gainRec (r : List Byte) : GainRec := ⟨leAt r 0 2, leAt r 2 2, ofCodeS 24 (leAt r 4 3)⟩

def filterRec (r : List Byte) : FilterRec := ⟨leAt r 0 2, leAt r 2 2, leAt r 4 2, leAt r 6 2, leAt r 8 4, leAt r 12 4⟩

def presetRec (r : List Byte) : PresetRec := ⟨leAt r 0 2, leAt r 2 1, leAt r 4 4, leAt r 8 4⟩

/-- The 32-bit words of a byte list. -/
def wordsOf (n : Nat) (bs : List Byte) : List Word := (cutRecords 4 n bs).map (fun b => BitVec.ofNat 32 (leNat b))

def malProg (d : List Byte) : MalProg := ⟨leAt d 0 1, leAt d 4 2, wordsOf (leAt d 2 2) (d.drop 8)⟩

def malData (hot : Bool) (d : List Byte) : MalData :=
  ⟨leAt d 0 1, bitAt d 1 0, bitAt d 1 1, leAt d 2 2,
   (cutRecords 4 (leAt d 4 2) (d.drop 8)).map (fun b => BitVec.ofNat 24 (leNat b)), hot⟩

def clusterRec (d : List Byte) : ClusterRec := ⟨leAt d 0 1, leAt d 4 4, d.drop 8⟩

def lineRec (r : List Byte) : LineRec :=
  ⟨leAt r 0 2, leAt r 2 2, leAt r 4 2, leAt r 8 4, leAt r 12 4, leAt r 16 4, leAt r 20 1⟩

def regionRec (r : List Byte) : RegionRec := ⟨leAt r 0 2, leAt r 2 1, bitAt r 3 0, leAt r 4 4, leAt r 8 4, leAt r 12 4⟩

def initRec (d : List Byte) : InitRec := ⟨leAt d 0 4, d.drop 8⟩

def prtRec (r : List Byte) : PrtRec :=
  ⟨leAt r 1 1, leAt r 2 2, decide (leAt r 4 1 = 1), leAt r 5 1, leAt r 6 1, leAt r 7 1, leAt r 8 1, leAt r 9 1, leAt r 10 1,
   leAt r 11 1, leAt r 12 4, leAt r 16 1, bitAt r 17 0, bitAt r 17 1, leAt r 18 2, leAt r 20 2, leAt r 24 4⟩

def aesRec (r : List Byte) : AesRec :=
  ⟨leAt r 1 1, leAt r 2 2, decide (leAt r 4 1 = 1), leAt r 5 1, leAt r 6 1, leAt r 7 1, decide (leAt r 8 1 = 1), leAt r 9 1,
   leAt r 10 1, leAt r 11 1, leAt r 12 2, leAt r 16 4, leAt r 20 2, leAt r 22 2⟩

def streamRec (r : List Byte) : StreamRec where
  stream := leAt r 0 2
  dirOut := decide (leAt r 2 1 = 1)
  port := leAt r 3 1
  firstBus := leAt r 4 2
  channels := leAt r 6 1
  format := leAt r 7 1
  srcUdp := leAt r 14 2
  dscp := leAt r 28 1
  pt := leAt r 29 1
  ptime := leAt r 30 1
  prot := bitAt r 31 0
  ssrc := leAt r 32 4
  tsOffset := leAt r 36 4
  linkOffset := leAt r 40 2
  alignGroup := leAt r 42 1
  ttl := leAt r 43 1
  leg0 := ⟨beNat (slice r 8 4), beNat (slice r 16 4), leAt r 12 2, beNat (slice r 20 6), leAt r 26 2⟩
  leg1 := ⟨beNat (slice r 44 4), beNat (slice r 48 4), leAt r 52 2, beNat (slice r 54 6), leAt r 60 2⟩

def bridgeRec (r : List Byte) : BridgeRec := ⟨leAt r 0 1, leAt r 2 2, leAt r 4 2, leAt r 6 2⟩

def refRec (r : List Byte) : RefRec :=
  ⟨leAt r 0 1, leAt r 1 1, leAt r 2 1, leAt r 3 1, leAt r 4 2, leAt r 6 2, leAt r 8 2, leAt r 10 1, leSAt r 12 4⟩

def wcRec (r : List Byte) : WcRec :=
  ⟨bitAt r 0 0, bit (leAt r 0 1) 1, bits (leAt r 0 1) 3 2, bits (leAt r 0 1) 5 4, bit (leAt r 0 1) 6, leSAt r 4 4, leAt r 8 2⟩

def clockRec (r : List Byte) : ClockRec where
  refs := (List.range 16).map (fun n => refRec (slice r (16 * n) 16))
  mode := leAt r 0x100 1
  forceSlot := leAt r 0x101 1
  nonrevert := bit (leAt r 0x102 1) 0
  phaseHold := bit (leAt r 0x102 1) 1
  tempSensor := leAt r 0x103 1
  slewPpb := leAt r 0x104 2
  tauS := leAt r 0x106 2
  loHz := leAt r 0x108 4
  tc1 := leSAt r 0x10C 4
  tc2 := leSAt r 0x110 4
  ageing := leSAt r 0x114 4
  jumpNs := leAt r 0x118 2
  wcs := (List.range 4).map (fun w => wcRec (slice r (0x120 + 16 * w) 16))
  mclkADiv := leAt r 0x1C0 2
  mclkBDiv := leAt r 0x1C2 2

def beatChanRec (r : List Byte) : BeatChanRec :=
  ⟨leAt r 0 1, bitAt r 1 0, bitAt r 1 1, bitAt r 1 2, leAt r 2 2, leAt r 4 1, leAt r 5 1, leAt r 6 1, leAt r 7 1, leAt r 8 2,
   leAt r 10 2, leAt r 12 2, leAt r 14 2, leAt r 16 2, leAt r 18 1, leAt r 19 1, leAt r 20 1, leAt r 21 1, leAt r 22 1⟩

def beatRailRec (r : List Byte) : BeatRailRec :=
  ⟨leAt r 0 1 - 0x80, bitAt r 1 0, leAt r 2 2, leAt r 4 2, leAt r 6 2, leAt r 8 2, leAt r 10 2, leAt r 12 2, leAt r 14 2,
   leAt r 16 2, leAt r 18 1⟩

def mirrorRec (r : List Byte) : MirrorRec := ⟨leAt r 0 1, leAt r 2 2, leAt r 4 4, leAt r 8 4⟩

def tapRec (r : List Byte) : TapRec := ⟨leAt r 0 1, leAt r 1 1⟩

/-- The structure an image's sections give the engines. -/
def cfgOf (secs : List Sec) : Cfg where
  sys := sysRec ((bytesOf secs tSystem).headD [])
  buses := (bytesOf secs tBuses).map busRec
  tasks := (bytesOf secs tSchedule).map taskRec
  geom := ((bytesOf secs tGeometry).head?).map clnGeom
  gains := (bytesOf secs tGains).map gainRec
  filters := (bytesOf secs tFilters).map filterRec
  coeffs := (bytesOf secs tCoeffs).map (fun r => ofCodeS 24 (leAt r 0 3))
  presets := (bytesOf secs tPresets).map presetRec
  progs := (rawsOf secs tProgram).map (fun p => malProg p.2)
  datas := (secs.filter (fun x => x.type == tData)).map (fun x => malData (decide (x.flags % 2 = 1)) x.data)
  clusters := (rawsOf secs tCluster).map (fun p => clusterRec p.2)
  lines := (bytesOf secs tLines).map lineRec
  regions := (bytesOf secs tRegions).map regionRec
  inits := (rawsOf secs tInit).map (fun p => initRec p.2)
  prts := ((bytesOf secs tPorts).filter (fun r => leAt r 0 1 == 0)).map prtRec
  aess := ((bytesOf secs tPorts).filter (fun r => leAt r 0 1 == 1)).map aesRec
  streams := (bytesOf secs tStreams).map streamRec
  bridges := (bytesOf secs tBridges).map bridgeRec
  clock := clockRec ((bytesOf secs tClock).headD [])
  beatChans := ((bytesOf secs tBeater).filter (fun r => decide (leAt r 0 1 < 32))).map beatChanRec
  beatRails := ((bytesOf secs tBeater).filter (fun r => decide (0x80 ≤ leAt r 0 1 ∧ leAt r 0 1 ≤ 0x87))).map beatRailRec
  gridDiv := (((bytesOf secs tBeater).find? (fun r => leAt r 0 1 == 0xFF))).map (fun r => leAt r 2 2)
  mirror := if secs.any (fun x => x.type == tMirror) then some ((bytesOf secs tMirror).map mirrorRec) else none
  taps := (bytesOf secs tTap).map tapRec
  hotCarry := (secs.filter (fun x => x.flags % 2 == 1)).map (·.type)

end Sys2Proof.Machine
end

