-- ==== Sys2Proof/Machine/Schedule.lean ====
section
/-! DEFINITION. The schedule of a plane (R76, R80-R82, R88, R89, R96, R123, R198): units, part tasks, dependencies, and the
timing that the verifier proves. -/

namespace Sys2Proof.Machine

/-- The most samples a bus of a domain holds per block (R70). -/
def Cfg.maxSamples (c : Cfg) (domain : Nat) : Nat :=
  if domain = 0 then c.blockLen
  else if domain = 1 then ceilDiv (c.blockLen * rateBHz c.sys.rateB) (rateAHz c.sys.rateA)
  else 2 * c.blockLen + 1

/-- The domain of a bus; none where it does not exist. -/
def Cfg.busDomain (c : Cfg) (b : Nat) : Option Nat := (c.bus? b).map (·.domain)

/-- The tasks of a kind on an island, in SCHEDULE order. -/
def Cfg.tasksOn (c : Cfg) (kind island : Nat) : List TaskRec := c.tasks.filter (fun t => t.kind == kind && t.island == island)

/-- The part number a part task's UNIT names (R96, R123, R198). -/
def TaskRec.part (t : TaskRec) : Nat := if t.kind = 4 then t.unit % 8 else t.unit / 16 % 8

/-- The number of part tasks of the unit a part task belongs to. -/
def Cfg.partsOf (c : Cfg) (t : TaskRec) : Nat := (c.tasksOn t.kind t.island).length

/-- The buses that a part task reads (R96, R123, R198). -/
def Cfg.partReads (c : Cfg) (t : TaskRec) : List Nat :=
  let parts := max 1 (c.partsOf t)
  if t.kind = 2 then
    match c.geom with
    | none => []
    | some g =>
      let lo := t.part * g.inputs / parts
      (List.range ((t.part + 1) * g.inputs / parts - lo)).map (fun i => g.inBase + lo + i)
  else if t.kind = 3 then
    let h := t.island - 6
    ((c.filters.filter (fun r => decide (256 * h + 256 * t.part / parts ≤ r.filter ∧ r.filter < 256 * h + 256 * (t.part + 1) / parts))).map
      (·.inBus)).dedup
  else if t.kind = 4 then
    ((c.lines.filter (fun r => decide (2048 * t.part / parts ≤ r.line ∧ r.line < 2048 * (t.part + 1) / parts))).map (·.inBus)).dedup
  else []

/-- The tasks a part task waits for in place of DEPS: the writers of the buses it reads. -/
def Cfg.implicitDeps (c : Cfg) (t : TaskRec) : List Nat :=
  ((c.partReads t).filterMap (fun b => (c.bus? b).map (·.writer))).dedup

/-- The tasks that must have ended before a task starts: its DEPS without bit 15, and a part's implicit ones (R80, R96). -/
def Cfg.depsOf (c : Cfg) (t : TaskRec) : List Nat :=
  (t.deps.filter (fun d => !d.2)).map (·.1) ++ c.implicitDeps t

/-- The unit a task runs on (R80): its island and, where an island has several units, which one. -/
def TaskRec.unitOf (t : TaskRec) : Nat × Nat :=
  (t.island, if t.kind = 2 ∨ t.kind = 3 ∨ t.kind = 4 then 0 else t.unit)

/-- The task before `t` on its unit among `ts`. -/
def prevOnUnit (ts : List TaskRec) (t : TaskRec) : Option TaskRec :=
  ((ts.takeWhile (fun u => u.task != t.task)).filter (fun u => u.unitOf == t.unitOf)).getLast?

/-- The cycles a task needs: COST, or for a bridge task what R76 counts. -/
def Cfg.cycles (c : Cfg) (t : TaskRec) : Nat :=
  if t.kind = 5 then
    (c.bridges.filter (fun r => r.kind == t.unit)).foldl (fun n r =>
      n + (if r.kind = 0 then 6 * c.maxSamples ((c.busDomain r.outBus).getD 0)
           else if r.kind = 1 then 12 * c.blockLen else 12 * (2 * c.blockLen + 1))) 0
  else t.cost

/-- One pass over the tasks: the ends of those whose unit and dependencies allow it (R80, R81). -/
def passEnds (c : Cfg) (ts : List TaskRec) (hz : Nat → Rat) (arrive : Rat) (ends : Tbl Rat) : Tbl Rat :=
  ts.foldl (fun es t =>
    if (Tbl.find t.task es).isSome then es
    else
      let prev : Option Rat := match prevOnUnit ts t with | none => some 0 | some u => Tbl.find u.task es
      let deps := (c.depsOf t).filterMap (fun d => ts.find? (fun u => u.task == d))
      let times := deps.map (fun u => (Tbl.find u.task es).map (fun e => if u.island = t.island then e else e + 1 / 10000000))
      if prev.isNone || times.any (·.isNone) then es
      else
        let start := (times.map (fun x => x.getD 0)).foldl max (max arrive (prev.getD 0))
        Tbl.put es t.task (start + ((64 + c.cycles t : Nat) : Rat) / hz t.island)) ends

/-- Passes until no further task ends. -/
def runEnds (c : Cfg) (ts : List TaskRec) (hz : Nat → Rat) (arrive : Rat) : Nat → Tbl Rat → Tbl Rat
  | 0, es => es
  | n + 1, es =>
    let es' := passEnds c ts hz arrive es
    if es'.length = es.length then es' else runEnds c ts hz arrive n es'

/-- When each task of `ts` ends after the token's issue (R81); a task that can never start has no entry. -/
def Cfg.ends (c : Cfg) (ts : List TaskRec) (hz : Nat → Rat) (arrive : Rat) : Tbl Rat := runEnds c ts hz arrive ts.length []

/-- An island's profile clock in Hz (R13). -/
def Cfg.profileHz (c : Cfg) (i : Nat) : Rat := ((c.sys.pll00Khz * 2000 : Nat) : Rat) / (max 1 (c.sys.divX2.getD i 0) : Nat)

/-- The block period in seconds. -/
def Cfg.period (c : Cfg) : Rat := (c.blockLen : Rat) / (rateAHz c.sys.rateA : Nat)

/-- The end of the last task of `ts` on an island; none where one of them never starts. -/
def lastEnd (ts : List TaskRec) (es : Tbl Rat) (i : Nat) : Option Rat :=
  (ts.filter (fun t => t.island == i)).foldl (fun m t => match m, Tbl.find t.task es with | some a, some b => some (max a b) | _, _ => none)
    (some 0)

/-- The essential tasks (R87). -/
def Cfg.essential (c : Cfg) : List TaskRec := c.tasks.filter (·.essential)

/-- The ends of R81 at the profile clocks, and of the essential set at 200 MHz. -/
def Cfg.planEnds (c : Cfg) : Tbl Rat := c.ends c.tasks c.profileHz (1 / 5000000)
def Cfg.essEnds (c : Cfg) : Tbl Rat := c.ends c.essential (fun _ => 200000000) (7 / 10000000)

/-- A time as a fraction of the block period in 1/65536 (R89). -/
def Cfg.fraction (c : Cfg) (e : Rat) : Nat := min 0xFFFF (e * 65536 / c.period).floor.toNat

/-- The islands on which a version of a set of tasks does not end within 90 % of the block, with the cycles needed (R81). -/
def Cfg.overloaded (c : Cfg) (ts : List TaskRec) (es : Tbl Rat) (hz : Nat → Rat) : List (Nat × Nat) :=
  (List.range 26).filterMap (fun i =>
    match lastEnd ts es i with
    | none => some (i, 0xFFFFFFFF)
    | some e => if c.period * 9 / 10 < e then some (i, min 0xFFFFFFFF (e * hz i).ceil.toNat) else none)

end Sys2Proof.Machine
end

