-- ==== Sys2Proof/Machine/Verify.lean ====
section
/-! DEFINITION. The structural rules of the verifier (classes 0x04xx and 0x05xx of R51) over the sections of an image. Every
rule gives the failures it finds; which one of a class is reported the spec leaves open (R50). -/

namespace Sys2Proof.Machine

/-- The image as the rules see it. -/
structure Img where
  secs : List Sec
  c : Cfg
deriving DecidableEq, Repr

/-- The records of a type that break a rule. -/
def Img.bad (v : Img) (t code : Nat) (p : List Byte → Bool) : List Failure :=
  ((recsOf v.secs t).filter (fun r => p r.2.2)).map (fun r => ⟨code, r.1, r.2.1⟩)

/-- The records of a type whose key occurred before. -/
def Img.repeats (v : Img) (t code : Nat) (key : List Byte → Option (List Nat)) : List Failure :=
  ((recsOf v.secs t).foldl (fun (acc : List (List Nat) × List Failure) r =>
    match key r.2.2 with
    | none => acc
    | some k => if k ∈ acc.1 then (acc.1, acc.2 ++ [⟨code, r.1, r.2.1⟩]) else (k :: acc.1, acc.2)) ([], [])).2

/-- The raw sections of a type that break a rule. -/
def Img.badRaw (v : Img) (t code : Nat) (p : List Byte → Bool) : List Failure :=
  ((rawsOf v.secs t).filter (fun r => p r.2)).map (fun r => ⟨code, r.1, 0⟩)

/-- The section index of the first section of a type. -/
def Img.secIndex (v : Img) (t : Nat) : Nat := (v.secs.findIdx? (fun x => x.type == t)).getD 0

/-- The SCHEDULE record of a task as INDEX and DETAIL. -/
def Img.badTasks (v : Img) (code : Nat) (p : TaskRec → Bool) : List Failure := v.bad tSchedule code (fun r => p (taskRec r))

/-- Tasks that break a rule whose INDEX is the task. -/
def Img.taskFailures (v : Img) (code : Nat) (p : TaskRec → Bool) : List Failure :=
  (v.c.tasks.filter p).map (fun t => ⟨code, t.task, 0⟩)

/-! ### SYSTEM, BUSES, SCHEDULE -/

/-- The fields of SYSTEM (R42, R66, R71); its clocks are `clockRange`. -/
def Img.system (v : Img) : List Failure :=
  let y := v.c.sys
  failIf (decide (y.blockLen ∉ [4, 6, 8, 12, 16] ∨ 2 < y.rateA ∨ y.rateA + 1 < y.rateB ∨ 3 < y.rateB ∨ 1 < y.xbProfile ∨
    bit y.powerMask 0 = 0 ∨ bit y.powerMask 1 = 0 ∨ bit y.powerMask 11 = 0 ∨ 1 < y.startMode ∨ y.swapXfade = 0 ∨
    64 < y.swapXfade)) 0x0401 (v.secIndex tSystem) 0

/-- Whether the image powers a domain (R42). -/
def Cfg.powers (c : Cfg) (d : Nat) : Bool := decide (bit c.sys.powerMask (d - 1) = 1)

/-- The range checks of PLL00_KHZ and the dividers (R42, R297, R298), made ahead of 0x0404 and 0x040B (R50). -/
def Img.clockRange (v : Img) : List Failure :=
  let y := v.c.sys
  let si := v.secIndex tSystem
  let o := (v.secs.getD si ⟨0, 0, 0, 0, 0, 0, 0, 0, []⟩).off
  let fine := fun (i : Nat) =>
    let d := y.divX2.getD i 0
    let khz2 := y.pll00Khz * 2
    if i = 0 then true
    else if !v.c.powers (domainOf i) then decide (d = 0)
    else if 8 ≤ i ∧ i ≤ 11 then decide (2 ≤ d ∧ d ≤ 0x80 ∧ khz2 ≤ 1200000 * d)
    else if i = 24 then decide (2 ≤ d ∧ d ≤ 0x80 ∧ khz2 ≤ 400000 * d ∧ 375000 * d ≤ khz2)
    else decide (2 ≤ d ∧ d ≤ 0x80 ∧ khz2 ≤ 1000000 * d)
  failIf (decide (y.pll00Khz < 2000000 ∨ 3200000 < y.pll00Khz)) 0x0504 si (o + 4) ++
  (List.range 26).flatMap (fun i => failIf (!fine i) 0x0504 si (o + 12 + i))

/-- BUSES (R41, R70-R72). -/
def Img.buses (v : Img) : List Failure :=
  let rs := recsOf v.secs tBuses
  v.bad tBuses 0x0401 (fun r => decide (8191 < leAt r 0 2 ∨ 2 < leAt r 2 1 ∨ (leAt r 2 1 = 1 ∧ v.c.sys.rateB = 0))) ++
  (v.repeats tBuses 0x0402 (fun r => some [leAt r 0 2])).map (fun f =>
    ⟨0x0402, 0, ((rs.find? (fun r => r.1 == f.index && r.2.1 == f.detail)).map (fun r => leAt r.2.2 0 2)).getD 0⟩) ++
  ((rs.filter (fun r => leAt r.2.2 2 1 == 2)).drop 256).map (fun r => ⟨0x0401, r.1, r.2.1⟩)

/-- SCHEDULE (R41, R138); placement on units and islands (R51: 0x0405). -/
def Img.schedule (v : Img) : List Failure :=
  v.bad tSchedule 0x0401 (fun r => decide (4095 < leAt r 0 2 ∨ 25 < leAt r 2 1 ∨ 6 < leAt r 3 1 ∨ 8 < leAt r 11 1)) ++
  v.repeats tSchedule 0x0401 (fun r => some [leAt r 0 2]) ++
  v.badTasks 0x0401 (fun t => t.domainB && v.c.sys.rateB == 0) ++
  v.taskFailures 0x040E (fun t => t.domainB && (t.kind == 2 || t.kind == 3)) ++
  v.taskFailures 0x0405 (fun t => decide (t.island ≤ 25) && !v.c.powers (domainOf t.island)) ++
  v.taskFailures 0x0405 (fun t => decide (
    (t.kind = 0 ∧ ¬((13 ≤ t.island ∧ t.island ≤ 16 ∧ t.unit = t.island - 13) ∨ (t.island = 19 ∧ t.unit < 16) ∨ (t.island = 20 ∧ t.unit < 8))) ∨
    (t.kind = 6 ∧ ¬((13 ≤ t.island ∧ t.island ≤ 16 ∧ t.unit = t.island - 13) ∨ (t.island = 19 ∧ t.unit < 16) ∨
      (t.island = 20 ∧ t.unit < 8) ∨ (22 ≤ t.island ∧ t.island ≤ 23 ∧ t.unit = t.island - 22))) ∨
    (t.kind = 5 ∧ ¬(t.island = 21 ∧ t.unit < 3)))) ++
  v.badTasks 0x0401 (fun t => decide (t.kind = 1 ∧ (63 < t.unit ∨ t.island ≠ 8 + t.unit / 16))) ++
  v.badTasks 0x0401 (fun t => decide (t.kind = 1 ∧ 64 ≤ ((v.c.tasks.takeWhile (fun u => u.task != t.task)).filter
    (fun u => u.kind == 1 && u.unit == t.unit)).length))

/-- Dependencies on undefined tasks (R51: 0x0403). -/
def Img.undefinedDeps (v : Img) : List Failure :=
  v.c.tasks.flatMap (fun t => (t.deps.filter (fun d => (v.c.task? d.1).isNone)).map (fun d => ⟨0x0403, t.task, d.1⟩))

/-- Remove tasks whose dependencies are all removed, until none is left to remove: what stays holds every cycle. -/
def stuckTasks (edges : List (Nat × List Nat)) : Nat → List (Nat × List Nat)
  | 0 => edges
  | n + 1 =>
    let rest := stuckTasks edges n
    rest.filter (fun e => e.2.any (fun d => rest.any (fun g => g.1 == d)))

/-- The tasks reached from `ts` along dependencies. -/
def reaches (edges : List (Nat × List Nat)) : Nat → List Nat → List Nat
  | 0, ts => ts
  | n + 1, ts =>
    let more := (edges.filter (fun e => decide (e.1 ∈ ts))).flatMap (·.2)
    reaches edges n (ts ++ more).dedup

/-- A feedback cycle (R19): the lowest task on one, and the lowest bus it writes on one (R51). -/
def Img.cycles (v : Img) : List Failure :=
  let edges := v.c.tasks.map (fun t => (t.task, (v.c.depsOf t).filter (fun d => (v.c.task? d).isSome)))
  let left := stuckTasks edges edges.length
  let from_ := fun (t : Nat) => reaches left left.length (((left.find? (fun e => e.1 == t)).map (·.2)).getD [])
  let onCycle := (left.map (·.1)).filter (fun t => decide (t ∈ from_ t))
  match (onCycle.mergeSort (fun a b => decide (a ≤ b))).head? with
  | none => []
  | some t =>
    let comp := onCycle.filter (fun u => decide (u ∈ from_ t ∧ t ∈ from_ u))
    let readers := v.c.tasks.filter (fun u => decide (u.task ∈ comp ∧ t ∈ v.c.depsOf u))
    let mine := (v.c.buses.filter (fun b => b.writer == t)).map (·.bus)
    let on := mine.filter (fun b => readers.any (fun u => if u.kind = 2 ∨ u.kind = 3 ∨ u.kind = 4 then decide (b ∈ v.c.partReads u) else true))
    [⟨0x0403, t, ((on.mergeSort (fun a b => decide (a ≤ b))).head?).getD 0⟩]

/-! ### Fields of ports and streams -/

/-- A field of a PORTS record outside R248 or R249 (R251); the values of R249 bind a direction that is not enabled too. -/
def portFieldBad (r : List Byte) : Bool :=
  let f := fun i n => leAt r i n
  let nominal := fun (isC : Bool) (hz : Nat) => if isC then decide (32000 ≤ hz ∧ hz ≤ 192000) else decide (hz = 0)
  if f 0 1 = 0 then
    decide (15 < f 1 1 ∨ 1 < f 4 1 ∨ 2 < f 5 1 ∨ (if f 5 1 = 2 then f 6 1 = 0 ∨ 32 < f 6 1 else f 6 1 ≠ 2) ∨ f 7 1 ∉ [16, 24, 32] ∨
      f 8 1 ∉ [16, 20, 24] ∨ f 7 1 < f 8 1 ∨ 2 < f 9 1 ∨ 2 < f 10 1 ∨ ((f 10 1 = 2) ≠ (f 9 1 = 2)) ∨ (f 5 1 ≠ 2 ∧ f 11 1 ≠ 0) ∨
      (f 16 1 ≠ 0xFF ∧ 15 < f 16 1)) ||
    (bitAt r 17 1 && f 4 1 != 1) || !nominal (f 10 1 == 2) (f 12 4)
  else if f 0 1 = 1 then
    decide (7 < f 1 1 ∨ 1 < f 4 1 ∨ 1 < f 7 1 ∨ 1 < f 8 1 ∨ 7 < f 11 1) ||
    decide (f 5 1 ∉ [1, 2] ∨ 2 < f 6 1 ∨ ((f 6 1 = 2) ≠ (f 5 1 = 2))) ||
    decide (f 9 1 ∉ [0, 2] ∨ 2 < f 10 1 ∨ ((f 10 1 = 2) ≠ (f 9 1 = 2))) ||
    !nominal (f 6 1 == 2 || f 10 1 == 2) (f 16 4)
  else true

/-- The fields of a STREAMS record that R272 fixes. -/
def streamFieldBad (r : List Byte) : Bool :=
  let f := fun i n => leAt r i n
  let out := f 2 1 == 1
  let prot := bitAt r 31 0
  let ll := f 7 1 == 1
  decide (255 < f 0 2 ∨ 1 < f 2 1 ∨ 3 < f 3 1 ∨ f 6 1 = 0 ∨ 64 < f 6 1 ∨ 1 < f 7 1 ∨ f 12 2 = 0) ||
  (if ll then decide (f 29 1 ≠ 0 ∨ f 30 1 ≠ 6 ∨ f 36 4 ≠ 0)
   else decide (f 29 1 < 96 ∨ 127 < f 29 1 ∨ f 30 1 ∉ [6, 12, 16, 24, 32, 48, 96, 192])) ||
  (if out then decide (f 14 2 = 0 ∨ f 16 4 ≠ 0 ∨ f 32 4 = 0 ∨ f 40 2 ≠ 0 ∨ f 42 1 ≠ 0 ∨ f 43 1 = 0)
   else decide (beNat (slice r 20 6) ≠ 0 ∨ f 28 1 ≠ 0 ∨ 8191 < f 40 2 ∨ 63 < f 42 1 ∨ f 43 1 ≠ 0)) ||
  (if prot then
     decide (f 3 1 % 2 = 1 ∨ f 52 2 = 0) || (if out then decide (f 48 4 ≠ 0) else decide (beNat (slice r 54 6) ≠ 0))
   else (slice r 44 18).any (fun b => b != 0#8))

/-! ### Writers and readers of buses -/

/-- The task of a port direction (R250), of a media port (R274) or of a Beater half (R323). -/
def Cfg.ioTask (c : Cfg) (kind island unit : Nat) : Option Nat :=
  ((c.tasksOn kind island).find? (fun t => t.unit == unit)).map (·.task)

/-- The part task that covers a filter (R123), and a line (R198). -/
def Cfg.filterTask (c : Cfg) (f : Nat) : Option Nat :=
  let ts := c.tasksOn 3 (6 + f / 256)
  (ts.find? (fun t => decide (256 * (f / 256) + 256 * t.part / max 1 ts.length ≤ f ∧
    f < 256 * (f / 256) + 256 * (t.part + 1) / max 1 ts.length))).map (·.task)
def Cfg.lineTask (c : Cfg) (l : Nat) : Option Nat :=
  let ts := c.tasksOn 4 12
  (ts.find? (fun t => decide (2048 * t.part / max 1 ts.length ≤ l ∧ l < 2048 * (t.part + 1) / max 1 ts.length))).map (·.task)

/-- The buses of a channel range. -/
def busRange (first n : Nat) : List Nat := (List.range n).map (· + first)

/-- Every bus that an engine's object writes, with the task that writes it and the object's record
(R96, R121, R196, R250, R274, R76); `odd`: also those of PORTS and STREAMS records whose fields class 0x05xx rejects. -/
def Img.writes (v : Img) (odd : Bool) : List (Nat × Option Nat × Nat × Nat) :=
  let c := v.c
  let each := fun (t : Nat) (f : List Byte → List (Nat × Option Nat)) =>
    (recsOf v.secs t).flatMap (fun r => (f r.2.2).map (fun w => (w.1, w.2, r.1, r.2.1)))
  each tGeometry (fun r =>
    let g := clnGeom r
    (List.range g.outputs).map (fun o => (g.outBase + o, ((c.tasksOn 2 (2 + o / max 1 (g.outputs / 4))).getLast?).map (·.task)))) ++
  each tFilters (fun r => [(leAt r 6 2, c.filterTask (leAt r 0 2))]) ++
  each tLines (fun r => [(leAt r 4 2, c.lineTask (leAt r 0 2))]) ++
  each tPorts (fun r =>
    if portFieldBad r && !odd then []
    else if leAt r 0 1 = 0 then
      if leAt r 4 1 = 0 then (busRange (leAt r 2 2) (leAt r 6 1)).map (fun b => (b, c.ioTask 0 19 (leAt r 1 1))) else []
    else if leAt r 0 1 = 1 ∧ leAt r 4 1 = 1 then (busRange (leAt r 2 2) 2).map (fun b => (b, c.ioTask 0 20 (leAt r 1 1))) else []) ++
  each tStreams (fun r =>
    if (streamFieldBad r && !odd) || leAt r 2 1 != 0 then []
    else (busRange (leAt r 4 2) (leAt r 6 1)).map (fun b => (b, c.ioTask 0 (13 + leAt r 3 1) (leAt r 3 1)))) ++
  each tBridges (fun r => [(leAt r 4 2, c.ioTask 5 21 (leAt r 0 1))])

/-- Every bus that an engine's object reads. -/
def Img.reads (v : Img) : List Nat :=
  let c := v.c
  (match c.geom with | none => [] | some g => busRange g.inBase g.inputs) ++
  c.filters.map (·.inBus) ++ c.lines.map (·.inBus) ++ c.bridges.map (·.inBus) ++ c.beatChans.map (·.inBus) ++
  (bytesOf v.secs tPorts).flatMap (fun r =>
    if leAt r 0 1 = 0 then (if leAt r 4 1 = 1 then busRange (leAt r 2 2) (leAt r 6 1) else [])
    else if leAt r 0 1 = 1 ∧ leAt r 8 1 = 1 then busRange (leAt r 12 2) 2 else []) ++
  ((bytesOf v.secs tStreams).filter (fun r => leAt r 2 1 == 1)).flatMap (fun r => busRange (leAt r 4 2) (leAt r 6 1))

/-- 0x0402, and a WRITER other than the task the engine's rule names (0x0401). -/
def Img.writers (v : Img) : List Failure :=
  let c := v.c
  let ws := v.writes false
  let rs := v.reads
  let undefined := (((v.writes true).map (·.1)) ++ rs).filter (fun b => (c.bus? b).isNone)
  let twice := (ws.foldl (fun (acc : List Nat × List Nat) w => if w.1 ∈ acc.1 then (acc.1, w.1 :: acc.2) else (w.1 :: acc.1, acc.2)) ([], [])).2
  let odd := (bytesOf v.secs tPorts).any portFieldBad || (bytesOf v.secs tStreams).any streamFieldBad
  (undefined.dedup ++ twice.dedup).map (fun b => ⟨0x0402, 0, b⟩) ++
  (recsOf v.secs tBuses).flatMap (fun r =>
    let b := busRec r.2.2
    match c.task? b.writer with
    | none => [⟨0x0402, 0, b.bus⟩]
    | some t =>
      match ws.find? (fun w => w.1 == b.bus) with
      | some w =>
        failIf (w.2.1 != some b.writer) 0x0401 r.1 r.2.1 ++ failIf (w.2.1 != some b.writer) 0x0401 w.2.2.1 w.2.2.2 ++
        failIf (w.2.1.isSome && w.2.1 != some b.writer) 0x0402 0 b.bus
      | none => failIf (t.kind != 1 && !odd && decide (b.bus ∈ rs)) 0x0402 0 b.bus)

/-! ### Engines -/

/-- Buses of a list that are not in domain A. -/
def Cfg.notA (c : Cfg) (bs : List Nat) : Bool := bs.any (fun b => match c.busDomain b with | none => false | some d => d != 0)

/-- The part tasks of a kind on an island are in part order, 1 to 8 of them, with the UNIT the rule gives and no DEPS. -/
def Img.partFailures (v : Img) (kind : Nat) (islands : List Nat) (unit : Nat → Nat → Nat) : List Failure :=
  v.badTasks 0x0401 (fun t => t.kind == kind && !(decide (t.island ∈ islands))) ++
  islands.flatMap (fun i =>
    let ts := v.c.tasksOn kind i
    v.badTasks 0x0401 (fun t => t.kind == kind && t.island == i &&
      (decide (t.unit ≠ unit i ((ts.findIdx? (fun u => u.task == t.task)).getD 0) ∨ t.deps ≠ [] ∨ 8 < ts.length))))

/-- CARILLON_GEOMETRY and CARILLON_GAINS (R93-R97, R99, R41). -/
def Img.carillon (v : Img) : List Failure :=
  let c := v.c
  let gi := v.secIndex tGeometry
  let gains := v.bad tGains 0x0401 (fun r => decide (leAt r 4 4 ≠ codeS 32 (ofCodeS 24 (leAt r 4 3))) ||
    (match c.geom with | none => true | some g => decide (g.inputs ≤ leAt r 0 2 ∨ g.outputs ≤ leAt r 2 2))) ++
    v.repeats tGains 0x0401 (fun r => some [leAt r 0 2, leAt r 2 2])
  match c.geom with
  | none => gains ++ v.badTasks 0x0401 (fun t => t.kind == 2)
  | some g =>
    let inB := busRange g.inBase g.inputs
    let outB := busRange g.outBase g.outputs
    let counts := (List.range 4).map (fun k => (c.tasksOn 2 (2 + k)).length)
    let parts := max 1 (counts.headD 0)
    let limit := if c.sys.rateA = 0 then 2048 else if c.sys.rateA = 1 then 1024 else 512
    failIf (decide (g.inputs = 0 ∨ limit < g.inputs ∨ g.outputs < 4 ∨ 1024 < g.outputs ∨ g.outputs % 4 ≠ 0)) 0x040A 0 0 ++
    failIf (decide (1023 < g.rampBlocks ∨ 1 < g.profile ∨ 11 < g.scaling)) 0x0401 gi 0 ++
    failIf (c.notA (inB ++ outB) || decide (8192 < g.inBase + g.inputs ∨ 8192 < g.outBase + g.outputs) ||
      decide (g.inBase < g.outBase + g.outputs ∧ g.outBase < g.inBase + g.inputs)) 0x0401 gi 0 ++
    failIf (counts.any (fun n => decide (n = 0 ∨ n ≠ counts.headD 0))) 0x0401 gi 0 ++
    v.partFailures 2 [2, 3, 4, 5] (fun i p => i - 2 + 16 * p) ++
    v.badTasks 0x0401 (fun t => t.kind == 2 &&
      decide (t.cost < ceilDiv ((partInputs g.inputs parts t.part).length * (g.outputs / 4) * c.blockLen) 32 + 64 +
        (if t.part + 1 = parts then 16 * (g.outputs / 4) else 0))) ++
    gains

/-- The bank ranges of every filter: base and TAPS. -/
def Cfg.bankRanges (c : Cfg) : List (Nat × Nat) := c.filters.flatMap (fun r => [(r.bankA, r.taps), (r.bankB, r.taps)])

/-- Whether two ranges (start, length) share a place. -/
def overlaps (a b : Nat × Nat) : Bool := decide (a.1 < b.1 + b.2 ∧ b.1 < a.1 + a.2 ∧ 0 < a.2 ∧ 0 < b.2)

/-- Whether any two ranges of a list overlap. -/
def anyOverlap : List (Nat × Nat) → Bool
  | [] => false
  | x :: xs => xs.any (overlaps x) || anyOverlap xs

/-- CHIMES_FILTERS, CHIMES_COEFFS and CHIMES_PRESETS (R121-R125, R131). -/
def Img.chimes (v : Img) : List Failure :=
  let c := v.c
  let taps := fun (rs : List FilterRec) => 2 * (rs.map (·.taps)).sum
  let budget := 1048576 * 96000 / rateAHz c.sys.rateA
  let half := fun h => taps (c.filters.filter (fun r => r.filter / 256 == h))
  v.bad tFilters 0x0401 (fun r => decide (511 < leAt r 0 2 ∨ leAt r 2 2 = 0 ∨ 8192 < leAt r 2 2 ∨ leAt r 8 4 % 4 ≠ 0 ∨ leAt r 12 4 % 4 ≠ 0) ||
    c.notA [leAt r 4 2, leAt r 6 2]) ++
  v.repeats tFilters 0x0401 (fun r => some [leAt r 0 2]) ++
  failIf (c.bankRanges.any (fun b => decide (1048576 < b.1 + b.2)) || anyOverlap c.bankRanges || decide (1048576 < c.coeffs.length))
    0x0408 0 (taps c.filters) ++
  failIf (decide (min budget 1048576 < taps c.filters)) 0x0408 0 (taps c.filters) ++
  (List.range 2).flatMap (fun h => failIf (decide (budget / 2 < half h)) 0x0408 0 (half h)) ++
  v.partFailures 3 [6, 7] (fun i p => i - 6 + 16 * p) ++
  (List.range 2).flatMap (fun h =>
    failIf (c.filters.any (fun r => r.filter / 256 == h) && (c.tasksOn 3 (6 + h)).isEmpty) 0x0401 (v.secIndex tFilters) 0) ++
  v.badTasks 0x0401 (fun t => t.kind == 3 &&
    (let rs := c.filters.filter (fun r => c.filterTask r.filter == some t.task)
     decide (t.cost < ceilDiv (2 * (rs.map (·.taps)).sum * c.blockLen) 64 + 16 * rs.length + 64))) ++
  v.bad tCoeffs 0x0401 (fun r => decide (leAt r 0 4 ≠ codeS 32 (ofCodeS 24 (leAt r 0 3)))) ++
  v.bad tPresets 0x0401 (fun r => decide (63 < leAt r 0 2 ∨ 15 < leAt r 2 1 ∨ leAt r 4 4 % 64 ≠ 0 ∨ leAt r 8 4 = 0 ∨ 524288 < leAt r 8 4)) ++
  v.repeats tPresets 0x0401 (fun r => some [leAt r 0 2, leAt r 2 1])

/-- MALLET_PROGRAM, MALLET_DATA and CLUSTER_MEM (R139). -/
def Img.mallet (v : Img) : List Failure :=
  let c := v.c
  let progs := rawsOf v.secs tProgram
  let datas := rawsOf v.secs tData
  v.badRaw tProgram 0x0401 (fun d => decide (63 < leAt d 0 1 ∨ leAt d 2 2 ≤ leAt d 4 2)) ++
  v.badRaw tProgram 0x0409 (fun d => decide (16384 < leAt d 2 2)) ++
  (progs.filter (fun p => decide (1 < (progs.filter (fun q => leAt q.2 0 1 == leAt p.2 0 1)).length))).map (fun p => ⟨0x0401, p.1, 0⟩) ++
  v.badTasks 0x0401 (fun t => t.kind == 1 && !(c.progs.any (fun p => p.core == t.unit))) ++
  v.badRaw tData 0x0401 (fun d => decide (63 < leAt d 0 1)) ++
  v.badRaw tData 0x0409 (fun d => decide (65536 < leAt d 2 2 + leAt d 4 2)) ++
  (datas.filter (fun p => datas.any (fun q => decide (q.1 < p.1) && leAt q.2 0 1 == leAt p.2 0 1 &&
    overlaps (leAt q.2 2 2, leAt q.2 4 2) (leAt p.2 2 2, leAt p.2 4 2)))).map (fun p => ⟨0x0409, p.1, 0⟩) ++
  v.badRaw tCluster 0x0401 (fun d => decide (3 < leAt d 0 1)) ++
  v.badRaw tCluster 0x0409 (fun d => decide (0x100000 < leAt d 4 4 + (d.length - 8) ∨ leAt d 4 4 % 4 ≠ 0))

/-- LIMIT of R207. -/
def Cfg.rtLimit (c : Cfg) : Nat := 20480000 * c.blockLen / rateAHz c.sys.rateA

/-- Real-time demand of R207 for a number of lines. -/
def Cfg.rtDemand (c : Cfg) (lines : Nat) : Nat :=
  ceilDiv (3 * c.blockLen * lines) 21 + ((c.regions.filter (·.realTime)).map (·.rtAccesses)).sum + (if c.presets = [] then 0 else 256)

/-- The places of DRAM an image uses: type, section, record, range (R131, R196, R210, R41). -/
def Img.dramUses (v : Img) : List (Nat × Nat × Nat × Nat × Nat) :=
  (recsOf v.secs tLines).map (fun r => (tLines, r.1, r.2.1, leAt r.2.2 8 4, 64 * lineUnits (leAt r.2.2 12 4))) ++
  (recsOf v.secs tRegions).map (fun r => (tRegions, r.1, r.2.1, leAt r.2.2 4 4, leAt r.2.2 8 4)) ++
  (recsOf v.secs tPresets).map (fun r => (tPresets, r.1, r.2.1, leAt r.2.2 4 4, 16 + 3 * leAt r.2.2 8 4)) ++
  (rawsOf v.secs tInit).map (fun r => (tInit, r.1, 0, leAt r.2 0 4, r.2.length - 8))

/-- 0x0407: uses that leave the 208 MiB area or overlap an earlier one; presets may share data, and a DRAM_INIT
may fill a preset whole. -/
def dramOverlaps : List (Nat × Nat × Nat × Nat × Nat) → List Failure
  | [] => []
  | (t, i, d, a, n) :: xs =>
    failIf (decide (0x0D000000 < a + n)) 0x0407 i d ++
    (xs.filter (fun y => overlaps (a, n) (y.2.2.2.1, y.2.2.2.2) && !(t == tPresets && y.1 == tPresets) &&
      !(t == tPresets && y.1 == tInit && decide (y.2.2.2.1 ≤ a ∧ a + n ≤ y.2.2.2.1 + y.2.2.2.2)))).flatMap
      (fun y => [⟨0x0407, y.2.1, y.2.2.1⟩, ⟨0x0407, i, d⟩]) ++
    dramOverlaps xs

/-- DELAY_LINES and DRAM_REGIONS (R196-R199, R207, R210). -/
def Img.delays (v : Img) : List Failure :=
  let c := v.c
  v.bad tLines 0x0401 (fun r => decide (2047 < leAt r 0 2 ∨ leAt r 12 4 < 64 ∨ 4 * rateAHz c.sys.rateA < leAt r 12 4) ||
    !delayValid (leAt r 12 4) (leAt r 16 4) || c.notA [leAt r 2 2, leAt r 4 2]) ++
  v.repeats tLines 0x0401 (fun r => some [leAt r 0 2]) ++
  v.bad tLines 0x0407 (fun r => decide (leAt r 8 4 % 64 ≠ 0)) ++
  v.partFailures 4 [12] (fun _ p => p) ++
  failIf (c.lines != [] && (c.tasksOn 4 12).isEmpty) 0x0401 (v.secIndex tLines) 0 ++
  v.badTasks 0x0401 (fun t => t.kind == 4 &&
    (let n := (c.lines.filter (fun r => c.lineTask r.line == some t.task)).length
     decide (t.cost < c.blockLen * n + 4 * n + 64))) ++
  v.bad tRegions 0x0401 (fun r => decide (63 < leAt r 0 2 ∨ 3 < leAt r 2 1 ∨ leAt r 8 4 = 0) ||
    (if bitAt r 3 0 then decide (leAt r 12 4 = 0 ∨ c.rtLimit < leAt r 12 4) else decide (leAt r 12 4 ≠ 0))) ++
  v.repeats tRegions 0x0401 (fun r => some [leAt r 0 2]) ++
  v.bad tRegions 0x0407 (fun r => decide (leAt r 4 4 % 64 ≠ 0 ∨ leAt r 8 4 % 64 ≠ 0)) ++
  dramOverlaps v.dramUses ++
  failIf (decide (c.rtLimit < c.rtDemand c.lines.length)) 0x0406 0 (c.rtDemand c.lines.length)

/-- BRIDGES and their tasks, and domain C buses (R75-R77). -/
def Img.bridging (v : Img) : List Failure :=
  let c := v.c
  let lim := fun k => if k = 0 then 256 else if k = 1 then 128 else 64
  let dom := fun b d => match c.busDomain b with | none => true | some x => x == d
  let cPort := fun (out : Bool) (b : Nat) =>
    c.prts.any (fun r => r.dirOut == out && r.domain == 2 && decide (r.firstBus ≤ b ∧ b < r.firstBus + r.slots)) ||
    c.aess.any (fun r => if out then r.txEn && r.txDomain == 2 && decide (r.txBus ≤ b ∧ b < r.txBus + 2)
      else r.rxEn && r.rxDomain == 2 && decide (r.rxBus ≤ b ∧ b < r.rxBus + 2))
  let port := fun (out inC : Bool) (b : Nat) =>
    c.prts.any (fun r => r.dirOut == out && (inC || r.domain != 2) && decide (r.firstBus ≤ b ∧ b < r.firstBus + r.slots)) ||
    c.aess.any (fun r => if out then r.txEn && (inC || r.txDomain != 2) && decide (r.txBus ≤ b ∧ b < r.txBus + 2)
      else r.rxEn && (inC || r.rxDomain != 2) && decide (r.rxBus ≤ b ∧ b < r.rxBus + 2))
  let stream := fun (b : Nat) => c.streams.any (fun r => decide (r.firstBus ≤ b ∧ b < r.firstBus + r.channels))
  let source := fun (n : Nat) => decide (n / 256 = 0 ∧ c.prts.any (fun r => r.index == n % 256 && r.domain == 2) = true) ||
    decide (n / 256 = 1 ∧ c.aess.any (fun r => r.index == n % 256 && r.rxEn && r.rxDomain == 2) = true)
  v.bad tBridges 0x0401 (fun r =>
    let k := leAt r 0 1
    let i := leAt r 2 2
    let o := leAt r 4 2
    let n := leAt r 6 2
    decide (2 < k) ||
    (k == 0 && (decide (n ≠ 0) || !((dom i 0 && dom o 1) || (dom i 1 && dom o 0)))) ||
    (k == 1 && !(dom i 2 && dom o 0 && source n && cPort false i)) ||
    (k == 2 && !(dom i 0 && dom o 2 && source n && cPort true o))) ++
  v.bad tBuses 0x0401 (fun r =>
    let b := busRec r
    b.domain == 2 && (stream b.bus ||
      !((cPort false b.bus && c.bridges.any (fun x => x.kind == 1 && x.inBus == b.bus) && !port true true b.bus && !port false false b.bus) ||
        (cPort true b.bus && c.bridges.any (fun x => x.kind == 2 && x.outBus == b.bus) && !port false true b.bus && !port true false b.bus)))) ++
  (List.range 3).flatMap (fun k =>
    let n := (c.bridges.filter (fun r => r.kind == k)).length
    let ts := (c.tasksOn 5 21).filter (fun t => t.unit == k)
    failIf (decide (0 < n ∧ ts.length ≠ 1)) 0x0401 (v.secIndex tBridges) 0 ++
    failIf (decide (lim k < n)) 0x040E ((ts.head?.map (·.task)).getD 0) 0) ++
  v.badTasks 0x0401 (fun t => t.kind == 5 && (decide (t.cost ≠ 0)))

/-- The tasks of ports, streams and Beater halves (R250, R274, R323): missing, repeated, without an object, or too cheap. DESIGN
CHOICE (notes/assumptions/47): a task on a unit that exists but has no PORTS record and no stream is accepted. -/
def Img.ioTasks (v : Img) : List Failure :=
  let c := v.c
  let count := fun kind island unit => ((c.tasksOn kind island).filter (fun t => t.unit == unit)).length
  let per := fun (domain : Nat) => if domain = 2 then 2 * c.blockLen + 1 else c.blockLen
  let prtCost := fun (r : PrtRec) => 32 + r.slots * per r.domain
  let netS := fun (out : Bool) (p : Nat) => c.streams.filter (fun r => r.dirOut == out && r.port == p)
  let netCost := fun (rs : List StreamRec) =>
    64 + 32 * rs.length + ceilDiv ((rs.map (fun r => r.channels * c.maxSamples ((c.busDomain r.firstBus).getD 0))).sum) 4
  let need := fun (kind island unit : Nat) =>
    if island = 19 then (c.prts.filter (fun r => r.index == unit && (r.dirOut == (kind == 6)))).map prtCost
    else if island = 20 then
      (c.aess.filter (fun r => r.index == unit && (if kind = 0 then r.rxEn else r.txEn))).map
        (fun r => 32 + 2 * per (if kind = 0 then r.rxDomain else r.txDomain))
    else if island = 22 ∨ island = 23 then
      let n := (c.beatChans.filter (fun r => r.chan / 16 == unit)).length
      if n = 0 then [] else [64 + n * (c.blockLen + 8) + 32 * (c.beatRails.filter (fun r => r.rail / 4 == unit)).length]
    else
      let rs := netS (kind == 6) unit
      if rs = [] then [] else [netCost rs]
  let oddPort := fun (t : TaskRec) =>
    (bytesOf v.secs tPorts).any (fun r => portFieldBad r && leAt r 0 1 + 19 == t.island && leAt r 1 1 == t.unit) ||
    (bytesOf v.secs tStreams).any (fun r => streamFieldBad r && leAt r 3 1 + 13 == t.island)
  let repeated := fun (t : TaskRec) => (v.c.tasks.takeWhile (fun u => u.task != t.task)).any (fun u =>
    u.kind == t.kind && u.island == t.island && u.unit == t.unit)
  v.bad tPorts 0x0401 (fun r => !portFieldBad r &&
    (if leAt r 0 1 = 0 then count (if leAt r 4 1 = 1 then 6 else 0) 19 (leAt r 1 1) != 1
     else (leAt r 4 1 == 1 && count 0 20 (leAt r 1 1) != 1) || (leAt r 8 1 == 1 && count 6 20 (leAt r 1 1) != 1))) ++
  v.bad tStreams 0x0401 (fun r => !streamFieldBad r && count (if leAt r 2 1 = 1 then 6 else 0) (13 + leAt r 3 1) (leAt r 3 1) != 1) ++
  v.bad tBeater 0x0401 (fun r => decide (leAt r 0 1 < 32) && count 6 (22 + leAt r 0 1 / 16) (leAt r 0 1 / 16) != 1) ++
  v.badTasks 0x0401 (fun t => (t.kind == 0 || t.kind == 6) && !oddPort t &&
    (repeated t || (match need t.kind t.island t.unit with 
      | [] => (t.island == 19 && c.prts.any (fun r => r.index == t.unit)) || (t.island == 20 && c.aess.any (fun r => r.index == t.unit))
      | cost :: _ => decide (t.cost < cost))))

/-- BEATER (R321, R322). -/
def Img.beater (v : Img) : List Failure :=
  let c := v.c
  let rail := fun (n : Nat) => c.beatRail? (n / 4)
  v.bad tBeater 0x0401 (fun r =>
    let o := leAt r 0 1
    let f := fun i n => leAt r i n
    if o < 32 then
      decide (31 < f 4 1 ∨ 31 < f 5 1 ∨ f 6 1 = 0 ∨ f 7 1 < 2 ∨ 50 < f 7 1 ∨ f 8 2 < 256 ∨ f 10 2 = 0 ∨ f 12 2 < 16 ∨ f 14 2 = 0 ∨
        1023 < f 14 2 ∨ f 16 2 = 0 ∨ 1000 < f 16 2 ∨ 60 < f 18 1 ∨ f 19 1 = 0 ∨ f 20 1 = 0 ∨ f 21 1 = 0 ∨ 20 < f 21 1 ∨ 100 < f 22 1) ||
        (rail o).isNone || c.gridDiv.isNone || c.notA [f 2 2]
    else if 0x80 ≤ o ∧ o ≤ 0x87 then
      decide (f 10 2 = 0 ∨ 1023 < f 10 2 ∨ f 12 2 = 0 ∨ f 16 2 < 100 ∨ 2000 < f 16 2 ∨ f 18 1 < 5 ∨ 60 < f 18 1)
    else if o = 0xFF then decide (f 2 2 < 4096 ∨ 8192 < f 2 2 ∨ f 2 2 % 32 ≠ 0)
    else true) ++
  v.repeats tBeater 0x0401 (fun r => some [leAt r 0 1]) ++
  (List.range 2).flatMap (fun h =>
    match c.tasks.find? (fun t => t.kind == 6 && t.island == 22 + h) with
    | none => []
    | some t => if t.essential then []
      else (c.beatChans.filter (fun r => r.chan / 16 == h && ((c.bus? r.inBus).map (·.essentialOut)).getD false)).map
        (fun r => ⟨0x040B, t.task, r.inBus⟩))

/-- The electrical limits of R322: INDEX and DETAIL are the record. -/
def Img.beatLimits (v : Img) : List Failure :=
  ((recsOf v.secs tBeater).filter (fun r =>
    let b := r.2.2
    let f := fun i n => leAt b i n
    if leAt b 0 1 < 32 then
      match v.c.beatRail? (leAt b 0 1 / 4) with
      | none => false
      | some k => decide (95 * k.railMax < 100 * f 12 2 + 95 * k.margin ∨ f 8 2 < 16 * k.railMax ∨ 95 * k.vDiag < 100 * f 21 1 ∨
          16 * f 20 1 ≤ f 19 1)
    else if 0x80 ≤ leAt b 0 1 ∧ leAt b 0 1 ≤ 0x87 then
      decide (f 14 2 < 16 * f 4 2 ∨ f 4 2 ≤ f 2 2 ∨ f 8 2 < f 2 2 ∨ f 4 2 < f 8 2 ∨ f 8 2 < 16 * f 18 1)
    else false)).map (fun r => ⟨0x0505, r.2.1, r.2.1⟩)

/-- The size of the mirror set and its live bytes per block (R344). -/
def Cfg.mirrorSize (c : Cfg) : Nat × Nat :=
  (c.mirror.getD []).foldl (fun (a : Nat × Nat) m =>
    if m.kind = 1 then
      (a.1 + (match m.object with
        | 1 => (match c.geom with | none => 0 | some g => 4 * g.inputs * g.outputs + 8 * g.outputs)
        | 2 => 6 * (c.filters.map (·.taps)).sum + 8 * c.filters.length
        | 3 => 16 * c.lines.length
        | 4 => 3 * ((c.datas.filter (·.parameter)).map (fun d => d.words.length)).sum
        | _ => 4096), a.2)
    else if m.kind = 2 then (a.1 + 3 * m.length, a.2 + 3 * m.length)
    else if m.kind = 3 then (a.1 + m.length, a.2 + m.length)
    else a) (0, 0)

/-- FLAM_MIRROR (R343, R344). DESIGN CHOICE (notes/assumptions/47): an OBJECT repeated within its KIND is at fault for CONTROL and
digest groups; several region pairs may name one core or cluster where they do not overlap. -/
def Img.flam (v : Img) : List Failure :=
  let c := v.c
  let rs := (recsOf v.secs tMirror).map (fun r => (r.1, r.2.1, mirrorRec r.2.2))
  let pair := fun (m : MirrorRec) => (m.offset, 2 * m.length)
  let ok := fun (m : MirrorRec) =>
    if m.kind = 1 then decide (1 ≤ m.object ∧ m.object ≤ 9 ∧ m.offset = 0 ∧ m.length = 0)
    else if m.kind = 2 then decide (m.object < 64 ∧ 1 ≤ m.length ∧ m.length ≤ 4096) &&
      c.datas.any (fun d => d.core == m.object && !d.parameter && decide (d.start ≤ m.offset ∧ m.offset + 2 * m.length ≤ d.start + d.words.length))
    else if m.kind = 3 then decide (m.object < 4 ∧ m.offset % 4 = 0 ∧ m.length % 4 = 0 ∧ 4 ≤ m.length ∧ m.length ≤ 65536 ∧
      m.offset + 2 * m.length ≤ 0x100000)
    else if m.kind = 0x10 then decide (m.object < 64 ∧ 1 ≤ m.length ∧ m.length ≤ 1024) &&
      (busRange m.offset m.length).all (fun b => ((c.bus? b).map (·.outFacing)).getD false)
    else false
  let clash := fun (a b : MirrorRec) => a.kind == b.kind &&
    (a.object == b.object && (a.kind != 2 && a.kind != 3) ||
     ((a.kind == 2 || a.kind == 3) && a.object == b.object && overlaps (pair a) (pair b)) ||
     (a.kind == 0x10 && overlaps (a.offset, a.length) (b.offset, b.length)))
  let again := fun (i : Nat) (m : MirrorRec) => (rs.take i).any (fun q => clash q.2.2 m)
  (indexed rs).flatMap (fun p => failIf (!ok p.2.2.2 || again p.1 p.2.2.2) 0x0401 p.2.1 p.2.2.1) ++
  failIf (decide (0x1000000 < c.mirrorSize.1)) 0x040C 0 c.mirrorSize.1 ++
  failIf (decide (1572864000 * c.blockLen / rateAHz c.sys.rateA < c.mirrorSize.2)) 0x040C 0 c.mirrorSize.2

/-- The masters an image enables (R223). -/
def Cfg.masters (c : Cfg) : List Nat :=
  [0, 1, 2, 3, 17, 18, 22] ++ (if c.geom.isSome then [4] else []) ++ (if c.filters = [] then [] else [5]) ++
  (List.range 4).filterMap (fun k => if c.powers (5 + k) then some (6 + k) else none) ++
  (if c.lines = [] ∧ c.regions = [] then [] else [10]) ++ (if c.powers 9 then [11, 12, 13, 14, 15, 16] else []) ++
  (if c.beatChans = [] ∧ c.beatRails = [] then [] else [19]) ++ (if c.prts = [] then [] else [20]) ++ (if c.aess = [] then [] else [21])

/-- Class 0x04xx but for what is timed at the profile clocks. -/
def Img.structural (v : Img) : List Failure :=
  v.buses ++ v.schedule ++ v.undefinedDeps ++ v.cycles ++ v.writers ++ v.carillon ++ v.chimes ++ v.mallet ++ v.delays ++ v.bridging ++
  v.ioTasks ++ (v.beater.filter (fun f => f.code != 0x040B)) ++ v.flam ++
  failIf (decide (v.c.sys.xbProfile = 0 ∧ 12 < v.c.masters.length)) 0x040D 0 v.c.masters.length

/-- 0x0404 and 0x040B (R81, R87, R207, R323). -/
def Img.feasible (v : Img) : List Failure :=
  let c := v.c
  (c.overloaded c.tasks c.planEnds c.profileHz).map (fun p => ⟨0x0404, p.1, p.2⟩) ++
  (c.overloaded c.essential c.essEnds (fun _ => 200000000)).map (fun p => ⟨0x040B, p.1, p.2⟩) ++
  c.essential.flatMap (fun t =>
    ((c.depsOf t).filter (fun d => ((c.task? d).map (fun u => !u.essential)).getD false)).map (fun d => ⟨0x040B, t.task, d⟩)) ++
  (c.buses.filter (fun b => b.essentialOut && ((c.task? b.writer).map (fun t => !t.essential)).getD false)).map
    (fun b => ⟨0x040B, b.writer, b.bus⟩) ++
  v.beater.filter (fun f => f.code == 0x040B) ++
  (let ess := (c.lines.filter (fun r => ((c.lineTask r.line).bind c.task?).any (·.essential))).length
   failIf (decide (c.rtLimit / 2 < c.rtDemand ess)) 0x040B 0xFFFF (c.rtDemand ess))

/-! ### Class 0x05xx -/

/-- The bit clock of a port in Hz (R252). -/
def Cfg.bitClock (c : Cfg) (r : PrtRec) : Nat :=
  (if r.domain = 0 then rateAHz c.sys.rateA else if r.domain = 1 then rateBHz c.sys.rateB else r.nominalHz) * r.slots * r.slotBits

/-- PORTS (R248-R251). -/
def Img.ports (v : Img) : List Failure :=
  let c := v.c
  v.bad tPorts 0x0501 portFieldBad ++
  v.bad tPorts 0x0501 (fun r => leAt r 0 1 == 1 && leAt r 9 1 == 2 &&
    !(c.aess.any (fun a => a.index == leAt r 11 1 && a.rxEn && a.rxClocking == 2))) ++
  v.repeats tPorts 0x0501 (fun r => some [leAt r 0 1, leAt r 1 1]) ++
  v.bad tPorts 0x0501 (fun r => leAt r 0 1 == 0 && leAt r 16 1 != 0xFF &&
    (let p := prtRec r
     p.clkShare == p.index || !(c.prts.any (fun q => q.index == p.clkShare && q.clocking == p.clocking && q.domain == p.domain &&
       q.mode == p.mode && q.slots == p.slots && q.slotBits == p.slotBits && q.clkShare == 0xFF)))) ++
  v.bad tPorts 0x0502 (fun r =>
    let wrong := fun (d first n : Nat) => decide (d = 1 ∧ c.sys.rateB = 0) ||
      (busRange first n).any (fun b => match c.busDomain b with | none => false | some x => x != d)
    if leAt r 0 1 = 0 then
      wrong (leAt r 10 1) (leAt r 2 2) (leAt r 6 1) || decide (49152000 < c.bitClock (prtRec r))
    else
      (leAt r 4 1 == 1 && wrong (leAt r 6 1) (leAt r 2 2) 2) || (leAt r 8 1 == 1 && wrong (leAt r 10 1) (leAt r 12 2) 2))

/-- The rate of a stream in samples per second. -/
def Cfg.streamRate (c : Cfg) (r : StreamRec) : Nat :=
  if c.busDomain r.firstBus = some 1 then rateBHz c.sys.rateB else rateAHz c.sys.rateA

/-- A stream's load in bit/s × PTIME (R273). -/
def Cfg.streamLoad (c : Cfg) (r : StreamRec) : Rat :=
  (c.streamRate r : Rat) / (r.ptime : Nat) * ((r.channels * r.ptime * 3 + (if r.format = 1 then 24 else 12) + 70) * 8 : Nat)

/-- STREAMS (R272, R273). -/
def Img.streams (v : Img) : List Failure :=
  let c := v.c
  let dir := fun out => c.streams.filter (fun r => r.dirOut == out)
  let chans := fun (rs : List StreamRec) => (rs.map (·.channels)).sum
  let buses := fun (r : StreamRec) => (busRange r.firstBus r.channels).filterMap c.busDomain
  v.bad tStreams 0x0501 streamFieldBad ++
  v.repeats tStreams 0x0501 (fun r => some [leAt r 0 2, leAt r 2 1]) ++
  v.repeats tStreams 0x0501 (fun r => if leAt r 2 1 = 0
    then some [leAt r 8 4, leAt r 12 2, leAt r 16 4, leAt r 14 2, leAt r 32 4, leAt r 26 2] else none) ++
  v.bad tStreams 0x0501 (fun r =>
    let x := streamRec r
    !x.dirOut && x.alignGroup != 0 && c.streams.any (fun y => !y.dirOut && y.alignGroup == x.alignGroup &&
      (y.linkOffset != x.linkOffset || c.busDomain y.firstBus != c.busDomain x.firstBus))) ++
  v.bad tStreams 0x0502 (fun r =>
    let x := streamRec r
    (buses x).any (fun d => d == 2 || some d != (buses x).head?) || (x.format == 0 && decide (1440 < x.channels * x.ptime * 3))) ++
  [false, true].flatMap (fun out =>
    let rs := dir out
    failIf (decide (256 < rs.length ∨ 2048 < chans rs ∨ 196608000 < (rs.map (fun r => r.channels * c.streamRate r)).sum)) 0x0503 0 (chans rs) ++
    (List.range 4).flatMap (fun p =>
      let on := rs.filter (fun r => r.port == p || (r.prot && r.port / 2 == p / 2))
      failIf (decide (8000000000 < (on.map c.streamLoad).sum)) 0x0503 0 (chans on))) ++
  (List.range 4).flatMap (fun p =>
    let on := c.streams.filter (fun r => r.port == p)
    let bytes : List Nat := on.map (fun r =>
      r.channels * (if r.dirOut then r.ptime + c.blockLen else r.linkOffset + 2 * r.ptime + 2 * c.blockLen) * 3)
    failIf (decide (1572864 < bytes.sum)) 0x0503 0 (chans on))

/-- The period of a reference slot in ns (R301); none where it has none. -/
def Cfg.refPeriod (c : Cfg) (r : RefRec) : Option Rat :=
  let rate := fun d => if d = 1 then rateBHz c.sys.rateB else rateAHz c.sys.rateA
  let frame := fun d => (1000000000 : Rat) / (rate d : Nat)
  match r.type with
  | 2 => some 1000000000
  | 4 => some (frame r.domainB)
  | 5 => (c.prts.find? (fun p => p.index == r.index)).map (fun p => frame p.domain)
  | 6 => (c.aess.find? (fun p => p.index == r.index)).map (fun p => frame p.rxDomain)
  | _ => none

/-- CLOCK (R299-R301, R313): the offset of each field at fault in the record. -/
def Cfg.clockFaults (c : Cfg) : List Nat :=
  let k := c.clock
  let noB := c.sys.rateB = 0
  let slot := fun (n : Nat) (r : RefRec) =>
    let at_ := fun (o : Nat) (b : Bool) => if b then [16 * n + o] else []
    if r.type = 0 then
      at_ 1 (r.index != 0) ++ at_ 2 (r.rank != 0) ++ at_ 3 (r.bw != 0) ++ at_ 4 (r.softPpb != 0) ++ at_ 6 (r.hardPpb != 0) ++
      at_ 8 (r.wtrS != 0) ++ at_ 10 (r.domainB != 0) ++ at_ 12 (r.offsetNs != 0)
    else
      let maxIndex := match r.type with | 1 => 1 | 4 => 1 | 5 => 15 | 6 => 7 | _ => 0
      let port := match r.type with
        | 5 => c.prts.any (fun p => p.index == r.index && !p.dirOut && p.clocking == 1)
        | 6 => c.aess.any (fun p => p.index == r.index && p.rxEn && p.rxClocking == 1)
        | _ => true
      let off := match c.refPeriod r with
        | none => r.offsetNs != 0
        | some p => decide (0 < p ∧ p ≤ 2 * (r.offsetNs.natAbs : Rat))
      at_ 0 (decide (6 < r.type)) ++
      at_ 0 ((k.refs.take n).any (fun q => q.type == r.type && q.index == r.index)) ++
      at_ 1 (decide (maxIndex < r.index) || !port) ++ at_ 2 (decide (15 < r.rank)) ++ at_ 3 (decide (3 < r.bw)) ++
      at_ 4 (r.softPpb == 0) ++ at_ 6 (decide (r.hardPpb ≤ r.softPpb)) ++ at_ 8 (decide (3600 < r.wtrS)) ++
      at_ 10 (if r.type = 4 then decide (1 < r.domainB ∨ (r.domainB = 1 ∧ noB)) else decide (r.domainB ≠ 0)) ++ at_ 12 off
  let one := fun (o : Nat) (b : Bool) => if b then [o] else []
  let div := fun d => decide (d ≠ 0 ∧ (d < 32 ∨ 4096 < d))
  (indexed k.refs).flatMap (fun p => slot p.1 p.2) ++
  one 0x100 (decide (2 < k.mode)) ++ one 0x101 (decide (15 < k.forceSlot)) ++ one 0x103 (decide (15 < k.tempSensor)) ++
  one 0x104 (decide (k.slewPpb = 0 ∨ 10000 < k.slewPpb)) ++ one 0x106 (decide (k.tauS < 10 ∨ 1000 < k.tauS)) ++
  one 0x108 (decide (k.loHz ≠ 0 ∧ (k.loHz < 10000000 ∨ 50000000 < k.loHz))) ++ one 0x118 (k.jumpNs == 0) ++
  (indexed k.wcs).flatMap (fun p => one (0x120 + 16 * p.1) (decide (p.2.ratio = 3 ∨ (p.2.domainB = 1 ∧ noB)))) ++
  one 0x1C0 (div k.mclkADiv) ++ one 0x1C2 (div k.mclkBDiv || decide (k.mclkBDiv ≠ 0 ∧ noB))

/-- 0x0504 for the CLOCK section (R300). -/
def Img.clock (v : Img) : List Failure :=
  let i := v.secIndex tClock
  let o := (v.secs.getD i ⟨0, 0, 0, 0, 0, 0, 0, 0, []⟩).off
  v.c.clockFaults.map (fun f => ⟨0x0504, i, o + f⟩)

/-- TAP_BINDINGS (R380): INDEX is the record. -/
def Img.taps (v : Img) : List Failure :=
  let c := v.c
  let member := fun (g : Nat) =>
    let i := g % 64
    match g / 64 with
    | 0 => (match c.geom with | none => false | some x => decide (16 * i < x.outputs))
    | 1 => decide (i < 8) && c.beatChans.any (fun r => r.chan / 4 == i)
    | 2 => c.prts.any (fun r => r.index == i && r.dirOut)
    | _ => c.aess.any (fun r => r.index == i && r.txEn)
  let rs := indexed (v.c.taps)
  (rs.filter (fun p => decide (15 < p.2.key) || !member p.2.group || (rs.any (fun q => decide (q.1 < p.1) && q.2 == p.2)))).map
    (fun p => ⟨0x0506, p.1, 0⟩)

/-- Class 0x05xx. -/
def Img.class05 (v : Img) : List Failure := v.ports ++ v.streams ++ v.clock ++ v.beatLimits ++ v.taps

/-- The stages of the structural rules, in the order of R50. -/
def Img.stages (v : Img) : List (List Failure) := [v.system, v.structural, v.clockRange, v.feasible, v.class05]

end Sys2Proof.Machine
end

