-- ==== Sys2Proof/Machine/Load.lean ====
section
/-! DEFINITION. What each engine takes from a plane: at a peal load (R47, R100, R128, R139, R201, R258, R303), at the restart
of a domain (R401) and at boundary S of a swap (R58, R64, R100, R111, R136, R172, R205, R312). -/

namespace Sys2Proof.Machine

/-! ### Carillon (R93, R100, R108, R111, R120) -/

/-- CLN registers that show the plane's geometry (R120). -/
def State.clnRegs (s : State) (c : Cfg) : State :=
  match c.geom with
  | none => s.clearFlds [R.CLN_GEOM_INPUTS, R.CLN_GEOM_OUTPUTS, R.CLN_BUSES_IN_BUS_BASE, R.CLN_BUSES_OUT_BUS_BASE, R.CLN_MODE_PARTS,
      R.CLN_MODE_MAX_SHIFT, R.CLN_MODE_WIDE, R.CLN_MODE_PRESENT, R.CLN_RAMP_SLOT_00_LEN, R.CLN_RAMP_SLOT_00_PROFILE]
  | some g =>
    [(R.CLN_GEOM_INPUTS, g.inputs), (R.CLN_GEOM_OUTPUTS, g.outputs), (R.CLN_BUSES_IN_BUS_BASE, g.inBase),
      (R.CLN_BUSES_OUT_BUS_BASE, g.outBase), (R.CLN_MODE_PARTS, (c.tasksOn 2 2).length), (R.CLN_MODE_MAX_SHIFT, g.scaling),
      (R.CLN_MODE_WIDE, flag (decide (1024 < g.inputs ∧ c.sys.rateA = 0))), (R.CLN_MODE_PRESENT, 1),
      (R.CLN_RAMP_SLOT_00_LEN, g.rampBlocks), (R.CLN_RAMP_SLOT_00_PROFILE, g.profile)].foldl
      (fun s p => s.setFld p.1 p.2) s

/-- Crosspoint (i, o) of a plane: its gain, or 0 where it is not listed (R99). -/
def Cfg.gain (c : Cfg) (i o : Nat) : Int :=
  match c.gains.find? (fun r => r.input == i && r.output == o) with | none => 0 | some r => r.gain

/-- An output as a new geometry leaves it (R108): AUTO, slot 0, not muted, its factor at F with no ramp. -/
def State.startOut (s : State) (g : ClnGeom) (o : Nat) : State :=
  let s1 := (((s.setFld (R.CLN_OUT0_MODE o) 0).setFld (R.CLN_OUT0_SLOT o) 0).setFld (R.CLN_OUT0_MUTED o) 0).setOutF o
    { OutFactor.zero with shiftSet := g.scaling, read := (0, g.scaling, 0, s.groupMuted 0 (o / 16)) }
  let s2 := s1.settleOut o
  let x := s2.outF o
  (s2.setOutF o { x with f := x.target, remain := 0, slot := 0, base := (x.target, 0, 0) }).setFld (R.CLN_OUT0_RAMPING o) 0

/-- Carillon takes a plane afresh: the image gains are in force with no ramp (R100, R108). -/
def State.clnLoad (s : State) (c : Cfg) : State :=
  let xp : Tbl Xp := c.gains.foldl (fun t r => Tbl.set t (xpKey r.input r.output) .zero { Xp.zero with cur := r.gain, tgt := r.gain }) []
  let s1 := { s.clnRegs c with cln := ⟨xp, [], [], [], 0⟩ }
  match c.geom with
  | none => s1
  | some g => (List.range g.outputs).foldl (fun s o => s.startOut g o) s1

/-- Carillon at S (R64, R100, R108, R111). -/
def State.clnSwap (s : State) (old new : Cfg) : State :=
  if old.geom ≠ new.geom then s.clnLoad new
  else
    let s1 := s.clnRegs new
    if tGains ∈ new.hotCarry then s1
    else
      let live := s1.cln.xp.map (fun e => (e.1 % 2048, e.1 / 2048))
      let named := new.gains.map (fun r => (r.input, r.output))
      (live ++ named.filter (fun p => !(live.contains p))).foldl (fun s p =>
        if (s.xp p.1 p.2).tgt = new.gain p.1 p.2 then s
        else
          let s2 := s.changeXp p.1 p.2 (new.gain p.1 p.2) 0
          { s2 with cln := { s2.cln with early := s2.cln.early + 1 } }) s1

/-! ### Chimes (R122, R128, R137) -/

/-- CHM registers that show the plane's filters (R137). -/
def State.chmRegs (s : State) (c : Cfg) : State :=
  [(R.CHM_CFG_FILTERS, c.filters.length), (R.CHM_CFG_PARTS_0, (c.tasksOn 3 6).length), (R.CHM_CFG_PARTS_1, (c.tasksOn 3 7).length),
    (R.CHM_CFG_PRESENT, flag (c.filters != [])), (R.CHM_TAPS_USED_TAPS, (c.filters.map (·.taps)).sum),
    (R.CHM_BUDGET_BUDGET, min (1048576 * 96000 / rateAHz c.sys.rateA) 1048576)].foldl (fun s p => s.setFld p.1 p.2) s

/-- Chimes takes a plane afresh (R125, R128): coefficient memory from word 0, bank A active, bank B READY, no history. -/
def State.chmLoad (s : State) (c : Cfg) : State :=
  ({ s.chmRegs c with chm := .idle }).setCoefs 0 c.coeffs

/-! ### Mallet (R139, R140, R142, R172) -/

/-- Write a program of a core. -/
def State.putProg (s : State) (p : MalProg) : State :=
  let m := ((List.range p.words.length).zip p.words).foldl (fun t e => Tbl.set t (16384 * p.core + e.1) 0 e.2.toNat) s.mal.prog
  { s with mal := { s.mal with prog := m } }

/-- Write a range of a core's data memory. -/
def State.putDatas (s : State) (d : MalData) : State :=
  let m := ((List.range d.words.length).zip d.words).foldl
    (fun t e => Tbl.set t (65536 * d.core + d.start + e.1) 0 e.2.toNat) s.mal.data
  { s with mal := { s.mal with data := m } }

/-- Write a payload of cluster memory. -/
def State.putCluster (s : State) (m : ClusterRec) : State :=
  let t' := ((List.range m.data.length).zip m.data).foldl
    (fun t e => Tbl.set t (2 ^ 20 * m.cluster + m.offset + e.1) 0 e.2) s.mal.shared
  { s with mal := { s.mal with shared := t' } }

/-- MAL_CL_CFG.USED of a cluster (R174). -/
def Cfg.coresUsed (c : Cfg) (cl : Nat) : Nat :=
  (List.range 16).foldl (fun n i => if c.progs.any (fun p => p.core == 16 * cl + i) then n + 2 ^ i else n) 0

/-- Whether a field belongs to the core control registers of a cluster (R167, R173). -/
def ccrKey (cl k : Nat) : Bool :=
  decide (0x14A00000 + 0x400000 * cl ≤ k / 32 ∧ k / 32 < 0x14A10000 + 0x400000 * cl)

/-- A cluster takes a plane afresh (R139, R140, R173): memories 0 but for the plane's contents, core control registers at
their reset values, cores idle with registers 0, every task's next run with GAP. -/
def State.malLoad (s : State) (c : Cfg) (cl : Nat) : State :=
  let mine := fun (g : Nat) => g / 16 == cl
  let s1 := { s with
    regs := s.regs.filter (fun e => !ccrKey cl e.1)
    mal := { s.mal with
      cores := s.mal.cores.filter (fun e => !mine e.1)
      prog := s.mal.prog.filter (fun e => !mine (e.1 / 16384))
      data := s.mal.data.filter (fun e => !mine (e.1 / 65536))
      shared := s.mal.shared.filter (fun e => e.1 / 2 ^ 20 != cl)
      applied := s.mal.applied.filter (fun e => !mine e.1)
      hist := s.mal.hist.filter (fun e => !(c.tasks.any (fun t => t.task == e.1 % 4096 && t.kind == 1 && mine t.unit))) } }
  let s2 := (c.progs.filter (fun p => mine p.core)).foldl (fun s p => s.putProg p) s1
  let s3 := (c.datas.filter (fun d => mine d.core)).foldl (fun s d => s.putDatas d) s2
  ((c.clusters.filter (fun m => m.cluster == cl)).foldl (fun s m => s.putCluster m) s3).setFld (R.MAL_CL_CFG_USED cl) (c.coresUsed cl)

/-- The program of a core. -/
def Cfg.prog? (c : Cfg) (g : Nat) : Option MalProg := c.progs.find? (fun p => p.core == g)

/-- The data ranges of a core. -/
def Cfg.coreDatas (c : Cfg) (g : Nat) : List MalData := c.datas.filter (fun d => d.core == g)

/-- The contents of a data range that a swap compares: all but HOT_CARRY. -/
def MalData.bare (d : MalData) : MalData := { d with hot := false }

/-- Whether a core's program or data differ between planes (R172). -/
def coreChanges (old new : Cfg) (g : Nat) : Bool :=
  decide (old.prog? g ≠ new.prog? g ∨ (old.coreDatas g).map MalData.bare ≠ (new.coreDatas g).map MalData.bare)

/-- The peal loader writes the new plane's programs, data and cluster memory where they change (R56, R172). Parameter words
that both planes have are left to `paramSwap`. -/
def State.malWrite (s : State) (old new : Cfg) : State :=
  let cores := (List.range 64).filter (coreChanges old new)
  let both := fun (g w : Nat) =>
    (old.coreDatas g).any (fun d => d.parameter && decide (d.start ≤ w ∧ w < d.start + d.words.length))
  let s1 := cores.foldl (fun s g =>
    let s' := match new.prog? g with | none => s | some p => s.putProg p
    (new.coreDatas g).foldl (fun s d =>
      if d.parameter then
        let m := ((List.range d.words.length).zip d.words).foldl (fun t e =>
          if both g (d.start + e.1) then t else Tbl.set t (65536 * g + d.start + e.1) 0 e.2.toNat) s.mal.data
        { s with mal := { s.mal with data := m } }
      else s.putDatas d) s') s
  (new.clusters.filter (fun m => !(old.clusters.contains m))).foldl (fun s m => s.putCluster m) s1

/-- The parameter words that both planes have take the image value at S, unless their section has HOT_CARRY set (R64). -/
def State.paramSwap (s : State) (old new : Cfg) : State :=
  new.datas.foldl (fun s d =>
    if d.parameter && !d.hot then
      let both := fun w => (old.coreDatas d.core).any (fun q => q.parameter && decide (q.start ≤ w ∧ w < q.start + q.words.length))
      let m := ((List.range d.words.length).zip d.words).foldl (fun t e =>
        if both (d.start + e.1) then Tbl.set t (65536 * d.core + d.start + e.1) 0 e.2.toNat else t) s.mal.data
      { s with mal := { s.mal with data := m } }
    else s) s

/-- Mallet at S (R64, R142, R172): a changed task's next run has GAP; its old version goes on with the history it had. -/
def State.malSwap (s : State) (old new : Cfg) (changed : List Nat) : State :=
  let s1 := s.paramSwap old new
  let s2 := changed.foldl (fun s t =>
    let h := s.taskHist t false
    (s.setTaskHist t true h.1 h.2).setTaskHist t false h.1 true) s1
  (List.range 4).foldl (fun s cl => s.setFld (R.MAL_CL_CFG_USED cl) (new.coresUsed cl)) s2

/-! ### Delay pool and DRAM (R41, R201, R207, R214) -/

/-- DPL registers that show the plane's lines (R214). -/
def State.dplRegs (s : State) (c : Cfg) : State :=
  [(R.DPL_CFG_LINES, c.lines.length), (R.DPL_CFG_PARTS, (c.tasksOn 4 12).length), (R.DPL_CFG_PRESENT, flag (c.lines != [])),
    (R.DPL_RT_BUDGET_LIMIT, c.rtLimit), (R.DPL_RT_BUDGET_PLAN, c.rtDemand c.lines.length)].foldl (fun s p => s.setFld p.1 p.2) s

/-- The delay pool takes a plane afresh: every line EMPTY at its image DELAY (R201). -/
def State.dplLoad (s : State) (c : Cfg) : State :=
  let s1 := { s with dpl := { s.dpl with lines := [], filling := [], rtUsed := [] } }
  c.lines.foldl (fun s r => s.newLine r) ((s1.clearFlds ((List.range 2048).map R.DPL_LINE0_PRESENT)).dplRegs c)

/-- DRAM_INIT payloads are written to DRAM (R41). -/
def State.putInits (s : State) (is : List InitRec) : State :=
  { s with mem := is.foldl (fun m i => m.dramWrite i.addr (i.data.map some)) s.mem }

/-! ### Bridges (R77, R78, R92) -/

/-- The bridge records of a kind on source `n` (R77). -/
def Cfg.bridgesOn (c : Cfg) (kind n : Nat) : List BridgeRec :=
  c.bridges.filter (fun r => r.kind == kind && r.source == (if n < 16 then n else 0x100 + n - 16))

/-- BRG registers from a plane: a source that channels name starts in ACQUIRING (R78). `keep`: sources whose state stays. -/
def State.brgTake (s : State) (c : Cfg) (keep : List Nat) : State :=
  let n := fun k => (c.bridges.filter (fun r => r.kind == k)).length
  let s1 := ((s.setFld R.BRG_STATUS_AB_CHANNELS (n 0)).setFld R.BRG_STATUS_CA_CHANNELS (n 1)).setFld R.BRG_STATUS_AC_CHANNELS (n 2)
  (List.range 24).foldl (fun s i =>
    let a := (c.bridgesOn 1 i).length
    let b := (c.bridgesOn 2 i).length
    let s' := (s.setFld (R.BRG_SRC_STATE_CH_IN i) a).setFld (R.BRG_SRC_STATE_CH_OUT i) b
    if i ∈ keep then s' else s'.setFld (R.BRG_SRC_STATE_STATE i) (if a + b = 0 then 0 else 1)) s1

/-- The sources whose channels two planes share. -/
def sameSources (old new : Cfg) : List Nat :=
  (List.range 24).filter (fun i => decide (old.bridgesOn 1 i = new.bridgesOn 1 i ∧ old.bridgesOn 2 i = new.bridgesOn 2 i))

/-! ### The block sequencer, the PLLs and Flam (R89, R90, R318, R320) -/

/-- BLK registers that show the plane (R89, R90). -/
def State.blkRegs (s : State) (c : Cfg) : State :=
  let plan := c.planEnds
  let ess := c.essEnds
  let frac := fun (ts : List TaskRec) (es : Tbl Rat) i =>
    if ts.any (fun t => t.island == i) then c.fraction ((lastEnd ts es i).getD c.period) else 0
  let s1 := ((s.setFld R.BLK_CFG_BLOCK_LEN c.blockLen).setFld R.BLK_CFG_RATE_A c.sys.rateA).setFld R.BLK_CFG_RATE_B c.sys.rateB
  (List.range 26).foldl (fun s i =>
    (s.setFld (R.BLK_ISL_PLAN_PLAN i) (frac c.tasks plan i)).setFld (R.BLK_ISL_PLAN_PLAN_ESS i) (frac c.essential ess i)) s1

/-- MCLK outputs and nominal frequencies from a plane (R297, R318, R320): shadow and value in force. -/
def State.pllRegs (s : State) (c : Cfg) (mclk : Bool) : State :=
  let s1 := [(0, c.sys.pll00Khz), (1, 3145728), (2, 2890138), (3, 2000000)].foldl (fun s p => s.setFld (R.PLL_VCO_KHZ_KHZ p.1) p.2) s
  if mclk then
    [(1, c.clock.mclkADiv), (2, c.clock.mclkBDiv)].foldl (fun s p =>
      [(R.PLL_MCLK_ENABLE p.1, flag (decide (p.2 ≠ 0))), (R.PLL_MCLK_DIV p.1, p.2)].foldl
        (fun s q => (s.setFld q.1 q.2).setForce q.1 q.2) s) s1
  else s1

/-- FLM_CFG from a plane (R344, R360). -/
def State.flmRegs (s : State) (c : Cfg) : State :=
  ((s.setFld R.FLM_CFG_PRESENT (flag c.mirror.isSome)).setFld R.FLM_CFG_GROUPS
    ((c.mirror.getD []).filter (fun m => m.kind == 0x10)).length).setFld R.FLM_CFG_MIRROR_KIB (ceilDiv c.mirrorSize.1 1024)

/-- The dividers of the powered islands (R13). -/
def State.dividers (s : State) (c : Cfg) : State :=
  (List.range 26).foldl (fun s i => if s.islandOn i && i != 0 then s.setFld (R.SYS_ISLAND_DIV_X2 i) (c.sys.divX2.getD i 0) else s) s

/-! ### All of it -/

/-- The engines of a domain take a plane afresh: at a peal load, and when a hung island's domain restarts (R401). -/
def State.domainLoad (s : State) (c : Cfg) (d : Nat) : State :=
  match d with
  | 3 => s.clnLoad c
  | 4 => s.chmLoad c
  | 5 => s.malLoad c 0
  | 6 => s.malLoad c 1
  | 7 => s.malLoad c 2
  | 8 => s.malLoad c 3
  | 9 => s.netLoad c
  | 10 => (s.portsLoad c).brgTake c []
  | 11 => s.beatLoad c
  | 12 => s.dplLoad c
  | _ => s

/-- Every engine takes a plane afresh (R47): key mute states start clear (R380). -/
def State.loadAll (s : State) (c : Cfg) : State :=
  let s1 := ((({ s with cfg := some c, panel := { s.panel with inForce := 0 } }).setFld R.TAP_MUTE_KEY_MUTED 0).putInits c.inits).dividers c
  let s2 := (List.range 13).foldl (fun s d => s.domainLoad c d) s1
  let s3 : State := (((s2.clvLoad c.clock).blkRegs c).pllRegs c true).flmRegs c
  let ops := c.mirror.isSome && decide (s3.fld R.FLM_CTRL_ENABLE = 1)
  { s3 with flm := { s3.flm with operates := ops } }

end Sys2Proof.Machine
end

