-- ==== Sys2Proof/Machine/Commit.lean ====
section
/-! DEFINITION. Commit pairs (R24-R31): the status register of each block's pair, its set, and how a commit ends. -/

namespace Sys2Proof.Machine

/-- The address of a block's xxx_COMMIT_STATUS. -/
def commitAddr : CommitBlk → Nat
  | .peal => 0x14060090
  | .cln => 0x1410020C
  | .aes n => 0x140A0048 + 0x200 * n
  | .net n => 0x140B0014 + 0x400 * n
  | .tuOut n => 0x140C041C + 0x20 * n
  | .wc n => 0x140D040C + 0x20 * n
  | .pll n => 0x140E0028 + 0x100 * n

/-- Whether a block has the pair: its instances (R24, R268, R287, R293, R314, R318). -/
def commitPresent : CommitBlk → Bool
  | .peal | .cln => true
  | .aes n => decide (n < 8)
  | .net n => decide (n < 4)
  | .tuOut n => decide (n < 8)
  | .wc n => decide (n < 4)
  | .pll n => decide (n = 1 ∨ n = 2)

/-- The fields of xxx_COMMIT_STATUS (R25). -/
def commitTag (b : CommitBlk) : Fld := ⟨commitAddr b, 16, 8, 0⟩
def commitCode (b : CommitBlk) : Fld := ⟨commitAddr b, 8, 4, 0⟩
def commitPend (b : CommitBlk) : Fld := ⟨commitAddr b, 2, 1, 0⟩
def commitErr (b : CommitBlk) : Fld := ⟨commitAddr b, 1, 1, 0⟩
def commitApplied (b : CommitBlk) : Fld := ⟨commitAddr b, 0, 1, 0⟩

/-- The RWS fields of a block's set (R24). -/
def commitFlds : CommitBlk → List Fld
  | .peal => [R.PEAL_SWAP_BLK_LO_BLK, R.PEAL_SWAP_BLK_HI_BLK, R.PEAL_SWAP_CTRL_XFADE, R.PEAL_SWAP_CTRL_MODE]
  | .cln => [R.CLN_OUTSET_RANGE_LAST, R.CLN_OUTSET_RANGE_FIRST, R.CLN_OUTSET_CFG_SLOT, R.CLN_OUTSET_CFG_SHIFT, R.CLN_OUTSET_CFG_MODE]
  | .aes n => aesSetFlds n
  | .net n => netSetFlds n
  | .tuOut n => tuSetFlds n
  | .wc n => wcSetFlds n
  | .pll n => pllSetFlds n

/-- Every commit pair of the device. -/
def allCommitBlks : List CommitBlk :=
  [.peal, .cln] ++ (List.range 8).map CommitBlk.aes ++ (List.range 4).map CommitBlk.net ++ (List.range 8).map CommitBlk.tuOut ++
    (List.range 4).map CommitBlk.wc ++ [.pll 1, .pll 2]

/-- Whether a block defines a frame (R268, R314, R318). -/
def commitFrame : CommitBlk → Bool
  | .aes _ | .wc _ | .pll _ => true
  | _ => false

/-- The pending commit of a block. -/
def State.pendingOf (s : State) (b : CommitBlk) : Option PendingCommit := s.commits.find? (fun p => decide (p.blk = b))

/-- A commit is refused (R26, R27). -/
def State.commitRefused (s : State) (b : CommitBlk) (tag code : Nat) : State :=
  ((s.setFld (commitErr b) 1).setFld (commitCode b) code).setFld (commitTag b) tag

/-- The pending commit of a block is gone. -/
def State.dropCommit (s : State) (b : CommitBlk) : State :=
  { s with commits := s.commits.filter (fun p => decide (p.blk ≠ b)) }.setFld (commitPend b) 0

/-- A pending commit is refused when it would apply. -/
def State.commitFails (s : State) (b : CommitBlk) (tag code : Nat) : State := (s.dropCommit b).commitRefused b tag code

/-- A pending commit has been applied (R27). -/
def State.commitDone (s : State) (b : CommitBlk) (tag : Nat) : State := ((s.dropCommit b).setFld (commitApplied b) 1).setFld (commitTag b) tag

/-- Put every field of a set in force together. -/
def State.putSet (s : State) (b : CommitBlk) (set : Tbl Nat) : State :=
  (commitFlds b).foldl (fun s f => s.setForce f (Tbl.get set f.key f.rst)) s

/-- Whether a pending commit was to apply at the boundary of block `k` (R28, R30): a set of AES3 where the next frame is a Z
(R268), one of Clave's with a frame where the block begins a whole second (R314, R318), any other at the next boundary. -/
def State.commitDueAt (s : State) (k : Nat) (p : PendingCommit) : Bool :=
  (match p.mirrorAt with | none => true | some b => decide (b ≤ k)) &&
  (match p.blk with
    | .peal => false
    | .aes n => (s.unitFmt? (24 + n)).isNone || s.aesAtZ n
    | .wc _ | .pll _ => if p.whenCode = 2 then decide (p.arr < k / max 1 s.blocksPerSecond) else true
    | _ => true)

/-- The set of an AES transmitter as a swap loads it (R268): zeros, with CRCC_GEN 1. -/
def State.blankTemplate (s : State) : CommitBlk → State
  | .aes n => (aesSetFlds n).foldl (fun s f => s.setForce f f.rst) s
  | _ => s

/-- A plane swap takes effect (R30, R61): commits pending for its boundary in other blocks are refused with code 5, and every
RWS shadow takes the value in force. An AES transmitter's set is loaded anew, as a plane that holds no template leaves it (R268). -/
def State.swapCommits (s : State) (swapAt : Nat) : State :=
  let mine := fun (p : PendingCommit) => s.commitDueAt swapAt p
  let s1 := (s.commits.filter mine).foldl (fun s p => s.commitFails p.blk p.tag 5) s
  allCommitBlks.foldl (fun s b => (commitFlds b).foldl (fun s f => s.setFld f (s.inForce f)) (s.blankTemplate b)) s1

end Sys2Proof.Machine
end

