-- ==== Sys2Proof/Machine/Peal.lean ====
section
/-! DEFINITION. The peal loader, the verifier's verdict and the swap machine (R45-R65, R212, R398 stages 3 to 5). -/

namespace Sys2Proof.Machine

/-! ### Hashes and generations (R47, R65) -/

/-- A hash register file of eight words (R65): its 32 bytes. -/
def State.hashBytes (s : State) (f : Nat → Fld) : List Byte := (List.range 8).flatMap (fun n => leBytes 4 (s.fld (f n)))

/-- Write a hash of 32 bytes. -/
def State.setHash (s : State) (f : Nat → Fld) (h : List Byte) : State :=
  (List.range 8).foldl (fun s n => s.setFld (f n) (leAt h (4 * n) 4)) s

/-- PEAL_GEN counts swaps and boot loads (R47, R61). -/
def State.bumpGen (s : State) : State :=
  let g := s.fld R.PEAL_GEN_LO_GEN + 2 ^ 32 * s.fld R.PEAL_GEN_HI_GEN + 1
  (s.setFld R.PEAL_GEN_LO_GEN (g % 2 ^ 32)).setFld R.PEAL_GEN_HI_GEN (g / 2 ^ 32)

/-- Draw one of a list; none of an empty one. Which is drawn is a free value. -/
def State.pick {α : Type} (s : State) (xs : List α) : Option α × State :=
  match xs with
  | [] => (none, s)
  | _ => let u := s.fresh; (xs[u.1 % xs.length]?, u.2)

/-! ### The verdict (R44, R45, R50-R54) -/

/-- The image at a DRAM address: IMAGE_SIZE bytes of it, at least the header, at most 24 MiB. -/
def State.imageAt (s : State) (a : Nat) : List Byte :=
  s.mem.dramRead a (min (max 0x100 (leAt (s.mem.dramRead a 0x10) 0x0C 4)) 0x1800000)

/-- What the verifier concludes: the structure, the live hash, and the bytes that composing wrote at offset 0. -/
structure Verdict where
  fail : List Failure
  cfg : Option Cfg
  hash : List Byte
  bytes : Option (List Byte)
deriving DecidableEq, Repr

/-- A verdict of failure. -/
def Verdict.no (fs : List Failure) : Verdict := ⟨fs, none, [], none⟩

/-- Classes 0x01xx to 0x03xx on the image at `base`: the failures of the first class that has one (R50). -/
def State.ownFailures (s : State) (base : Nat) (bs : List Byte) : List Failure :=
  let f1 := formatFailures bs 0xB1
  if f1 ≠ [] then f1
  else
    let f2 := integrityFailures bs base s.mem.dramBad
    if f2 ≠ [] then f2 else s.signatureFailures bs

/-- Classes 0x04xx and 0x05xx on a list of sections. -/
def ruleFailures (secs : List Sec) : List Failure :=
  (((⟨secs, cfgOf secs⟩ : Img).stages).find? (fun fs => decide (fs ≠ []))).getD []

/-- The verdict on a full image at `base`; an image of kind delta at offset 0 is placed wrongly (R53). -/
def State.verdictFull (s : State) (base : Nat) : Verdict :=
  let bs := s.imageAt base
  match s.ownFailures base bs with
  | [] =>
    if isDelta bs then .no [⟨0x0602, 0, 0⟩]
    else
      let secs := sectionsOf bs
      match ruleFailures secs with
      | [] => ⟨[], some (cfgOf secs), imageDigest bs, none⟩
      | fs => .no fs
  | fs => .no fs

/-! ### Differences between planes (R52, R58) -/

/-- Whether a bus of both planes changes its DOMAIN or FLAGS. -/
def busKindChanges (old new : Cfg) : Bool :=
  new.buses.any (fun r => match old.bus? r.bus with
    | none => false
    | some o => o.domain != r.domain || o.outFacing != r.outFacing || o.essentialOut != r.essentialOut)

/-- Whether a filter is added, removed, or changes TAPS or bank bases. -/
def filterShapeChanges (old new : Cfg) : Bool :=
  let shape : Cfg → List (Nat × Nat × Nat × Nat) := fun c => c.filters.map (fun r => (r.filter, r.taps, r.bankA, r.bankB))
  decide (shape old ≠ shape new)

/-- The divider of an island that both planes power differs: R42 gives 0 for one that a plane does not power, and POWER_MASK is a
subject of its own (R52). -/
def dividerChanges (old new : Cfg) : Bool :=
  (List.range 26).any (fun i => old.powers (domainOf i) && new.powers (domainOf i) && old.sys.divX2.getD i 0 != new.sys.divX2.getD i 0)

/-- Block length, rates, PLL_00, dividers, crossbar profile, or the PLL part of CLOCK (R52). -/
def clockChanges (old new : Cfg) : Bool :=
  decide (old.sys.blockLen ≠ new.sys.blockLen ∨ old.sys.rateA ≠ new.sys.rateA ∨ old.sys.rateB ≠ new.sys.rateB ∨
    old.sys.pll00Khz ≠ new.sys.pll00Khz ∨ dividerChanges old new = true ∨ old.sys.xbProfile ≠ new.sys.xbProfile ∨
    old.clock.mclkADiv ≠ new.clock.mclkADiv ∨ old.clock.mclkBDiv ≠ new.clock.mclkBDiv)

/-- A subject whose Outputs column in R52 reads Dip or All outputs mute. -/
def mustDip (old new : Cfg) : Bool :=
  busKindChanges old new || decide (old.geom ≠ new.geom) || filterShapeChanges old new || clockChanges old new

/-- A subject that R52 marks cold. -/
def coldChange (old new : Cfg) : Bool :=
  let fixed : Cfg → List MalData := fun c => (c.datas.filter (fun d => !d.parameter)).map MalData.bare
  let places : Cfg → List (Nat × Nat × Nat) := fun c => c.lines.map (fun r => (r.line, r.base, r.capacity))
  mustDip old new ||
    decide (old.tasks ≠ new.tasks ∨ old.progs ≠ new.progs ∨ fixed old ≠ fixed new ∨ old.clusters ≠ new.clusters ∨
      places old ≠ places new ∨ old.regions ≠ new.regions ∨ old.inits ≠ new.inits ∨ old.clock ≠ new.clock ∨
      old.prts ≠ new.prts ∨ old.aess ≠ new.aess ∨ old.streams ≠ new.streams ∨ old.bridges ≠ new.bridges ∨
      old.beatChans ≠ new.beatChans ∨ old.beatRails ≠ new.beatRails ∨ old.gridDiv ≠ new.gridDiv ∨
      old.sys.powerMask ≠ new.sys.powerMask ∨ old.mirror ≠ new.mirror ∨ old.taps ≠ new.taps)

/-- The records that belong to a compute task beside its SCHEDULE record, without the contents that change by their own ramps
or fades (R58). -/
structure Owned where
  buses : List BusRec
  geom : Option ClnGeom
  filters : List FilterRec
  lines : List LineRec
  prog : Option MalProg
  datas : List MalData
  clusters : List ClusterRec
  bridges : List BridgeRec
  prts : List PrtRec
  aess : List AesRec
  streams : List StreamRec
  beatChans : List BeatChanRec
  beatRails : List BeatRailRec
deriving DecidableEq, Repr

/-- What task `t` owns in plane `c`. -/
def Cfg.owned (c : Cfg) (t : TaskRec) : Owned where
  buses := c.buses.filter (fun r => r.writer == t.task)
  geom := if t.kind = 2 then c.geom else none
  filters := if t.kind = 3 then c.partFilters (t.island - 6) t.part (c.partsOf t) else []
  lines := if t.kind = 4 then (c.partLines t.part (c.partsOf t)).map (fun r => { r with delay := 0, flags := 0 }) else []
  prog := if t.kind = 1 then c.prog? t.unit else none
  datas := if t.kind = 1 then (c.coreDatas t.unit).map MalData.bare else []
  clusters := if t.kind = 1 then c.clusters.filter (fun m => m.cluster == t.unit / 16) else []
  bridges := if t.kind = 5 then c.bridges.filter (fun r => r.kind == t.unit) else []
  prts := if t.island = 19 then c.prts.filter (fun r => r.index == t.unit) else []
  aess := if t.island = 20 then c.aess.filter (fun r => r.index == t.unit) else []
  streams := if 13 ≤ t.island ∧ t.island ≤ 16 then c.streams.filter (fun r => r.port == t.unit && r.dirOut == (t.kind == 6)) else []
  beatChans := if 22 ≤ t.island then c.beatChans.filter (fun r => r.chan / 16 == t.unit) else []
  beatRails := if 22 ≤ t.island then c.beatRails.filter (fun r => r.rail / 4 == t.unit) else []

/-- A compute task: every kind but ingress and egress, whose ports, streams and channels mute by their own rules (R52). -/
def TaskRec.compute (t : TaskRec) : Bool := decide (1 ≤ t.kind ∧ t.kind ≤ 5)

/-- A task of `a` that is carried into `b` (R58). -/
def carriedInto (a b : Cfg) (t : TaskRec) : Bool :=
  match b.task? t.task with
  | none => false
  | some u => decide (u = t ∧ a.owned t = b.owned u)

/-- The compute tasks of `a` that are not carried into `b`. -/
def changedTasks (a b : Cfg) : List TaskRec := a.tasks.filter (fun t => t.compute && !carriedInto a b t)

/-- The buses that the old plane's changed tasks write, which take swap slots, in ascending order (R72). -/
def swapBuses (old new : Cfg) : List Nat :=
  let ts := (changedTasks old new).map (·.task)
  (List.range 8192).filter (fun b => match old.bus? b with | none => false | some r => ts.contains r.writer)

/-- Whether the swap load fits every island (R58): all tasks of the new plane and the old plane's changed ones, of every kind, at the
new plane's profile clock and 90 % of its block; and no core runs both versions of a changed task. A bridge task costs what R76
counts. -/
def swapFits (old new : Cfg) : Bool :=
  let olds := changedTasks old new
  let all := new.tasks.map (fun t => (t.island, new.cycles t)) ++
    (old.tasks.filter (fun t => !carriedInto old new t)).map (fun t => (t.island, old.cycles t))
  (List.range 26).all (fun i =>
    let cycles := ((all.filter (fun t => t.1 == i)).map (fun t => 64 + t.2)).sum
    let hz := ((new.sys.pll00Khz * 2000 : Nat) : Rat) / (max 1 (new.sys.divX2.getD i (old.sys.divX2.getD i 0)) : Nat)
    decide ((cycles : Nat) / hz ≤ new.period * 9 / 10)) &&
  !(olds.any (fun t => t.kind == 1 && (changedTasks new old).any (fun u => u.kind == 1 && u.unit == t.unit)))

/-- The ranges of DRAM a plane uses: lines, regions, preset records and DRAM_INIT targets. -/
def Cfg.dramRanges (c : Cfg) : List (Nat × Nat) :=
  c.lines.map (fun r => (r.base, 64 * lineUnits r.capacity)) ++ c.regions.map (fun r => (r.base, r.size)) ++
    c.presets.map (fun r => (r.addr, 16 + 3 * r.words)) ++ c.inits.map (fun i => (i.addr, i.data.length))

/-- A line, region or DRAM_INIT target that changes overlaps a range of the live plane (R55, 0x0609). -/
def dramClash (old new : Cfg) : Bool :=
  let moved := (newLines old new).map (fun r => (r.base, 64 * lineUnits r.capacity)) ++
    (new.regions.filter (fun r => !(old.regions.contains r))).map (fun r => (r.base, r.size)) ++
    (new.inits.filter (fun i => !(old.inits.contains i))).map (fun i => (i.addr, i.data.length))
  moved.any (fun a => old.dramRanges.any (fun b => decide (a.1 < b.1 + b.2 ∧ b.1 < a.1 + a.2)))

/-! ### Deltas (R53, R54) -/

/-- The verdict on a delta at offset 0x0100_0000 of plane `p` (R53). DESIGN CHOICE (notes/assumptions/47): while no plane is live
there is no live hash, and a delta is rejected with 0x0601. -/
def State.verdictDelta (s : State) (p : Nat) : Verdict :=
  let base := planeBase p + 0x1000000
  let bs := s.imageAt base
  match s.ownFailures base bs with
  | [] =>
    let live := s.hashBytes R.PEAL_LIVE_HASH_HASH
    match s.cfg with
    | none => .no [⟨0x0601, 0, 0⟩]
    | some old =>
      if slice bs 0x30 32 ≠ live then .no [⟨0x0601, 0, 0⟩]
      else
        let lb := planeBase s.livePlane
        let lbs := s.imageAt lb
        if 0x800000 < leAt bs 0x0C 4 ∨ 0x1000000 < leAt lbs 0x0C 4 then .no [⟨0x0602, 0, 0⟩]
        else
          match (s.mem.dramBad.filter (fun w => decide (lb < 8 * w + 8 ∧ 8 * w < lb + lbs.length))).map
              (fun w => (⟨0x0202, indexAt lbs (8 * w - lb), 8 * w⟩ : Failure)) with
          | [] =>
            match applyDelta (indexed (sectionsOf bs)) (sectionsOf lbs) [] with
            | .error f => { Verdict.no [f] with bytes := some lbs }
            | .ok secs =>
              let image := composedImage (slice lbs 0 0x100) secs
              let placed := sectionsOf image
              match ruleFailures placed with
              | [] =>
                let new := cfgOf placed
                if coldChange old new then { Verdict.no [⟨0x0604, 0, 0⟩] with bytes := some image }
                else ⟨[], some new, sha256 (live ++ imageDigest bs), some image⟩
              | fs => { Verdict.no fs with bytes := some image }
          | fs => .no fs
  | fs => .no fs

/-! ### Boot (R396, R398) -/

/-- Whether PLL_00 needs a band search to move from one frequency to another (R317, R433). -/
def bandSearch (fromKhz toKhz : Nat) : Bool := decide (60000 < fromKhz - toKhz ∨ 60000 < toKhz - fromKhz)

/-- PLL_00 moves to a plane's frequency: its islands wait on the fallback oscillator during a band search (R317). -/
def State.movePll00 (s : State) (fromKhz toKhz : Nat) : State :=
  if bandSearch fromKhz toKhz then
    let t := (s.toFallback).pllSearch 0
    { t with pmu := { t.pmu with lost := false } }
  else s

/-- A PLL that is not running starts. -/
def State.startPll (s : State) (n : Nat) : State :=
  if s.fld (R.PLL_STATUS_LOCKED n) = 1 then s else s.pllSearch n

/-- The domains an image powers, in the order of R391. -/
def Cfg.powerOrder (c : Cfg) : List Nat := [2, 12, 9, 10, 3, 4, 5, 6, 7, 8, 11].filter (fun d => c.powers d)

/-- Stage 5 of the boot (R398): domains switch on, PLL_00 moves, PLL_01 and PLL_02 lock. -/
def State.bootGoesOn (s : State) (c : Cfg) : State :=
  let s1 := s.setFld R.SYS_BOOT_STATUS_STAGE 5
  let s2 := { s1 with pmu := { s1.pmu with goal := c.powerOrder.filter (fun d => !s1.domainOn d) } }
  let s3 := (s2.movePll00 2000000 c.sys.pll00Khz).startPll 1
  if c.sys.rateB = 0 then s3 else s3.startPll 2

/-! ### Loads (R46-R51) -/

/-- A failure of a load is reported (R51). -/
def State.reportFailure (s : State) (f : Failure) : State :=
  (((s.setFld R.PEAL_VERIFY_RESULT_ERR f.code).setFld R.PEAL_VERIFY_RESULT_INDEX f.index).setFld R.PEAL_VERIFY_DETAIL_DETAIL
    f.detail).raise R.PEAL_INT_STATUS_REJECTED

/-- The copy of flash slot `slot` into the staged plane starts (R46). `boot`: it is the boot's own. -/
def State.startCopy (s : State) (slot : Nat) (boot : Bool) : State :=
  let s1 := (s.setPlane s.staged plLoading).bootStage 3
  let s2 := if boot then s1.setFld R.SYS_BOOT_STATUS_SLOT slot else s1
  { s2 with peal := { s2.peal with copy := some slot, boot := boot } }

/-- The staged plane's image is rejected (R48, R51): a boot load from slot 0 goes on with slot 1, and after slot 1 the boot
has failed (R396, R398). -/
def State.rejectStaged (s : State) (f : Failure) : State :=
  let p := s.staged
  let s1 := ((s.reportFailure f).setPlane p plRejected).bootStage 3
  let s2 := { s1 with peal := { s1.peal with boot := false, copy := none, cfgs := Tbl.erase p s1.peal.cfgs } }
  if s.peal.boot ∧ s.cfg.isNone then
    if s.fld R.SYS_BOOT_STATUS_SLOT = 0 then (s2.setFld R.SYS_BOOT_STATUS_SLOT0_REJECTED 1).startCopy 1 true
    else if s.fld R.SYS_BOOT_STATUS_SLOT = 1 then
      ((s2.setFld R.SYS_BOOT_STATUS_SLOT1_REJECTED 1).bootStage 7).raise R.SYS_INT_STATUS_BOOT_FAIL
    else s2
  else s2

/-- Whether the staged plane takes a load request: not while it is being loaded or verified, nor armed or swapping (R48, R65). -/
def State.mayLoad (s : State) : Bool :=
  s.domainOn 12 && decide (s.plane s.staged ≠ plLoading ∧ s.plane s.staged ≠ plVerifying ∧ s.plane s.staged ≠ plArmed ∧
    s.plane s.staged ≠ plSwapping)

/-- PEAL_LOAD with GO and SRC 0 (R49): what the plane holds is verified (R53). DESIGN CHOICE (notes/assumptions/47):
the device takes it for a delta where MAGIC and IMAGE_KIND 1 stand at 0x0100_0000 of the plane, whatever lies at offset 0. -/
def State.loadHost (s : State) : State :=
  if s.mayLoad then
    let p := s.staged
    let d := s.mem.dramRead (planeBase p + 0x1000000) 0x0C
    let s1 := (s.setPlane p plVerifying).bootStage 4
    { s1 with peal := { s1.peal with boot := false, delta := decide (leAt d 0 4 = 0x4C414550 ∧ leAt d 0x0B 1 = 1) } }
  else s

/-- PEAL_LOAD with GO and SRC 1 (R46, R51). -/
def State.loadFlash (s : State) (slot : Nat) : State :=
  if s.mayLoad then
    if 3 < slot then s.reportFailure ⟨0x0701, 0, slot⟩
    else s.startCopy slot false
  else s

/-- PEAL_LOAD with ABORT (R48). How far a flash copy had come is not stated. -/
def State.loadAbort (s : State) : State :=
  let p := s.staged
  if s.plane p = plLoading then
    let u := s.fresh
    let slot := s.peal.copy.getD 0
    let n := u.1 % 0x1800001
    let m := u.2.mem.dramWrite (planeBase p) ((List.range n).map (fun i => some (Tbl.get s.mem.flash (0x1800000 * slot + i) 0xFF)))
    let s1 := ({ u.2 with mem := m }.setPlane p plModified).bootStage 3
    { s1 with peal := { s1.peal with copy := none, boot := false } }
  else if s.plane p = plVerifying then
    let s1 := (s.setPlane p plModified).bootStage 3
    { s1 with peal := { s1.peal with boot := false } }
  else s

/-- The flash copy ends (R46): only the header, where it fails its checks; else the whole image. The loader reads and writes through its own
port (R220); what it does on an error response there is not stated, so the copy waits (notes/assumptions/50). -/
def State.copyDone (s : State) : State :=
  let p := s.staged
  match s.peal.copy with
  | none => s
  | some slot =>
    if s.plane p = plLoading ∧ s.passage 2 0x18000000 = .forwarded then
      let rd := fun n => (List.range n).map (fun i => Tbl.get s.mem.flash (0x1800000 * slot + i) (0xFF : Byte))
      let h := rd 0x100
      match headerFailures h 0xB1 with
      | [] =>
        let m := s.mem.dramWrite (planeBase p) ((rd (leAt h 0x0C 4)).map some)
        let s1 := ({ s with mem := m }.setPlane p plVerifying).bootStage 4
        { s1 with peal := { s1.peal with copy := none, delta := false } }
      | fs =>
        let c := s.pick fs
        let s1 := { c.2 with mem := c.2.mem.dramWrite (planeBase p) (h.map some) }
        match c.1 with
        | none => s1
        | some f => s1.rejectStaged f
    else s

/-- A VERIFIED image in LOAD becomes live at once (R47). -/
def State.makeLive (s : State) (p : Nat) (c : Cfg) (hash : List Byte) : State :=
  let s1 := (((s.setPlane p plLive).setPlane (1 - p) plEmpty).setFld R.PEAL_STATUS_LIVE_PLANE p).bumpGen.setHash R.PEAL_LIVE_HASH_HASH hash
  ({ s1 with peal := { s1.peal with boot := false } }.loadAll c).bootGoesOn c

/-- The bytes that composing wrote at offset 0 of a plane. -/
def State.putComposed (s : State) (p : Nat) : Option (List Byte) → State
  | none => s
  | some bs => { s with mem := s.mem.dramWrite (planeBase p) (bs.map some) }

/-- The verifier ends (R50): on the bytes as they stand, since a write would have stopped it (R49). -/
def State.verifyDone (s : State) : State :=
  let p := s.staged
  if s.plane p = plVerifying then
    let v := if s.peal.delta then s.verdictDelta p else s.verdictFull (planeBase p)
    let s0 := s.putComposed p v.bytes
    match v.cfg with
    | none =>
      let c := s0.pick v.fail
      match c.1 with
      | none => c.2
      | some f =>
        let s1 := if f.code = 0x0202 then
            let s' := c.2.countUe (f.detail / 8)
            if f.detail / 8 * 8 < planeBase p ∨ planeBase p + 0x1800000 ≤ f.detail then s'.raise R.PEAL_INT_STATUS_PLANE_ECC else s'
          else c.2
        if f.code = 0x0604 then
          let u := s1.fresh
          u.2.rejectStaged { f with detail := u.1 % 2 ^ 32 }
        else s1.rejectStaged f
    | some cfg =>
      let s1 := ((s0.setPlane p plVerified).setFld R.PEAL_VERIFY_RESULT_ERR 0).setFld R.PEAL_VERIFY_RESULT_INDEX 0
      let s2 := (((s1.setFld R.PEAL_VERIFY_DETAIL_DETAIL 0).setHash R.PEAL_STAGED_HASH_HASH v.hash).raise R.PEAL_INT_STATUS_VERIFIED)
      let s3 := { s2 with peal := { s2.peal with cfgs := Tbl.put s2.peal.cfgs p (some cfg) } }
      if s.mode = .load ∧ s.cfg.isNone then s3.makeLive p cfg v.hash else { s3 with peal := { s3.peal with boot := false } }
  else s

/-! ### Writes into planes (R49) -/

/-! ### Arming (R55-R57, R60) -/

/-- The swap machine's states (R60). -/
abbrev swIdle : Nat := 0
abbrev swFill : Nat := 1
abbrev swWait : Nat := 2
abbrev swXfade : Nat := 3
abbrev swHold : Nat := 4
def State.swapState (s : State) : Nat := s.fld R.PEAL_SWAP_STATUS_STATE
def State.setSwap (s : State) (st : Nat) : State := s.setFld R.PEAL_SWAP_STATUS_STATE st

/-- A pair operates: every FLM state but OFF is a paired one (R342, R353). -/
def State.flmPaired (s : State) : Bool := decide (s.fld R.FLM_STATE_STATE ≠ 0)

/-- Refuse a swap, or cancel it, with a detail (R55, R212). -/
def State.swapRefused (s : State) (detail : Nat) : State :=
  (s.setFld R.PEAL_SWAP_STATUS_REFUSE_DETAIL detail).raise R.PEAL_INT_STATUS_SWAP_REFUSED

/-- Whether a swap has anything to write as best-effort traffic (R56). -/
def State.swapCopies (s : State) (old new : Cfg) : Bool :=
  decide (old.inits ≠ new.inits ∨ old.clusters ≠ new.clusters ∨ old.presets ≠ new.presets) ||
    (List.range 64).any (coreChanges old new) || decide ((s.chmArm new).chm.filters ≠ s.chm.filters)

/-- The terms of R56 that FILL lasts for: fill, copy and power, in blocks. How long copying takes is not stated; it begins after the
fades that it has to wait for (R136). -/
def State.swapWork (s : State) (old new : Cfg) : Nat × State :=
  let d := ((newLines old new).map (fun r => ceilDiv r.delay 64)).foldl max 0
  let fill := ceilDiv d old.blockLen + 1
  let u := s.fresh
  let copy := s.chmFadeWait new + (if s.swapCopies old new then u.1 else 0)
  let on := (new.powerOrder.filter (fun d => !old.powers d)).length
  let power := ((on : Rat) / 5000 / old.period).ceil.toNat
  (max fill (max copy power), u.2)

/-- An uncorrectable error in the images of the two planes (R55, R212): the word. -/
def State.planeError (s : State) : Option Nat :=
  let n := fun p => leAt (s.mem.dramRead (planeBase p) 0x10) 0x0C 4
  match s.mem.firstBad (planeBase s.staged) (n s.staged) with
  | some w => some w
  | none => s.mem.firstBad (planeBase s.livePlane) (n s.livePlane)

/-- The details of R55 that hold for a swap to `new` with MODE, XFADE, N and a requested S, where the earliest is `least`. -/
def State.swapFaults (s : State) (old new : Cfg) (mode xfade req least peerBit : Nat) : List Nat :=
  let on := fun (b : Bool) (d : Nat) => if b then [d] else []
  on (decide (req ≠ 0 ∧ req < least)) 0x0606 ++
  on (decide (mode = 0) && !swapFits old new) 0x0607 ++
  on (decide (mode = 0 ∧ 4096 < (swapBuses old new).length)) 0x0608 ++
  on (dramClash old new) 0x0609 ++
  on (s.flmPaired && (decide (s.fld R.FLM_STATE_STATE ≠ 4) || (decide (s.fld R.FLM_STATE_PEER_SEEN = 1 ∧ peerBit = 1)))) 0x060A ++
  on (decide (s.mode ≠ .live ∧ s.mode ≠ .shadow)) 0x060B ++
  on (decide (mode = 0) && mustDip old new) 0x060C ++
  on (decide (64 < xfade ∨ 2 ≤ mode)) 0x060D ++
  on s.planeError.isSome 0x060E

/-- The consistency check of a PEAL set for arming block `at_` (R55, R56): a refusal's detail, or the swap to arm with the
blocks of its FILL. Which of several details is reported is not stated; what the peer has staged, no rule tells this chip. -/
def State.swapCheck (s : State) (set : Tbl Nat) (at_ : Nat) : Except Nat (Armed × Nat) × State :=
  let v := fun (f : Fld) => Tbl.get set f.key f.rst
  let req := v R.PEAL_SWAP_BLK_LO_BLK + 2 ^ 32 * v R.PEAL_SWAP_BLK_HI_BLK
  let xfade := v R.PEAL_SWAP_CTRL_XFADE
  let mode := v R.PEAL_SWAP_CTRL_MODE
  let unready := (if s.plane s.staged = plVerified then [] else [0x0605]) ++
    (if s.mode ≠ .live ∧ s.mode ≠ .shadow then [0x060B] else []) ++ (if 64 < xfade ∨ 2 ≤ mode then [0x060D] else []) ++
    (if s.flmPaired ∧ s.fld R.FLM_STATE_STATE ≠ 4 then [0x060A] else [])
  match s.cfg, (Tbl.find s.staged s.peal.cfgs).getD none with
  | some old, some new =>
    if s.plane s.staged = plVerified then
      let n := if xfade = 0 then old.sys.swapXfade else xfade
      let w := s.swapWork old new
      let b := w.2.fresh
      let least := at_ + max (if s.flmPaired then 4 else 2) (max w.1 (if mode = 1 then n else 0))
      match b.2.swapFaults old new mode xfade req least (b.1 % 2) with
      | [] => (.ok (⟨if req = 0 then least else req, n, decide (mode = 1), new, at_, clockChanges old new, false⟩, w.1), b.2)
      | ds => let c := b.2.pick ds; (.error (c.1.getD 0x0605), c.2)
    else let c := s.pick unready; (.error (c.1.getD 0x0605), c.2)
  | _, _ => let c := s.pick unready; (.error (c.1.getD 0x0605), c.2)

/-- A refused PEAL commit (R55, R212): after an uncorrectable error the staged plane must be loaded again. -/
def State.swapDenied (s : State) (detail : Nat) : State :=
  let s1 := s.swapRefused detail
  if detail = 0x060E then
    let s2 := match s1.planeError with
      | none => s1
      | some w =>
        let s' := s1.countUe w
        if (s1.mem.firstBad (planeBase s1.staged) 0x1800000) = some w then s' else s'.raise R.PEAL_INT_STATUS_PLANE_ECC
    (s2.setPlane s2.staged plModified)
  else s1

/-- The stops of streams and Beater channels before S that a swap brings forward (R283, R332): `left` blocks remain. Ports stop at their
own boundary (`State.stopSpan`). -/
def State.swapStops (s : State) (a : Armed) (left : Nat) : State :=
  match s.cfg with
  | none => s
  | some old =>
    let s1 := s.beatHold old a.cfg left
    if left ≤ 4 ∧ s.blk.index ≠ a.armedAt ∧ !(s.net.outs.any (fun e => e.2.stopping)) then s1.netStop a.cfg a.swapAt else s1

/-- The swap is armed (R55-R57, R60): FILL begins, locks are set, and domains that turn on are powered. -/
def State.swapArm (s : State) (a : Armed) (work : Nat) : State :=
  match s.cfg with
  | none => s
  | some old =>
    let s1 := (((s.setPlane s.staged plArmed).setSwap swFill).setFld R.PEAL_SWAP_S_LO_S (a.swapAt % 2 ^ 32)).setFld R.PEAL_SWAP_S_HI_S
      (a.swapAt / 2 ^ 32)
    let s2 := ((s1.setFld R.PEAL_FILL_REMAIN_BLOCKS work).raise R.PEAL_INT_STATUS_SWAP_ARMED).chmArm a.cfg
    let used := if a.dip then 0 else (swapBuses old a.cfg).length
    let goal := s2.pmu.goal ++ a.cfg.powerOrder.filter (fun d => !s2.domainOn d && !(s2.pmu.goal.contains d))
    let s3 := { s2.setFld R.SXM_STATUS_SWAP_USED used with
      peal := { s2.peal with armed := some a }
      dpl := { s2.dpl with filling := [] }
      pmu := { s2.pmu with goal := goal } }
    s3.swapStops a (a.swapAt - a.armedAt)

/-- Preparation is complete (R60): what the new plane brings is written (R56, R172), and the swap waits for S. -/
def State.swapWrite (s : State) : State :=
  match s.cfg, s.peal.armed with
  | some old, some a =>
    if a.written then s
    else
      let s1 := s.putInits (a.cfg.inits.filter (fun i => !(old.inits.contains i)))
      let s2 := (if a.dip then s1 else s1.malWrite old a.cfg).chmPrewrite a.cfg
      { s2 with peal := { s2.peal with armed := some { a with written := true } } }
  | _, _ => s

/-- An armed swap is cancelled (R48, R60): stopped ports and channels go on, and domains that came on only for it go off. -/
def State.swapCancel (s : State) (toState : Nat) : State :=
  match s.peal.armed, s.cfg with
  | some _, some old =>
    let s1 := (((s.setPlane s.staged toState).setSwap swIdle).setFld R.PEAL_FILL_REMAIN_BLOCKS 0).chmDisarm
    let s2 := (List.range 32).foldl (fun s u =>
      if (s.unit u).leaving ∧ s.unitChanges old u = false then s.setUnit u { s.unit u with leaving := false, stopLen := 0 } else s) s1
    let s3 := (List.range 32).foldl (fun s n => if (s.bchan n).held then s.setBchan n { s.bchan n with held := false } else s) s2
    let s4 := (s3.net.outs.map (·.1)).foldl (fun s n =>
      if (s.outS n).stopping then s.setOutS n { s.outS n with stopping := false, d := { (s.outS n).d with stopLen := 0 } } else s) s3
    { s4.setFld R.SXM_STATUS_SWAP_USED 0 with
      peal := { s4.peal with armed := none }
      dpl := { s4.dpl with filling := [] }
      pmu := { s4.pmu with goal := s4.pmu.goal.filter (fun d => old.powers d),
                           offs := s4.pmu.offs ++ (([2, 12, 9, 10, 3, 4, 5, 6, 7, 8, 11].reverse).filter (fun d => s4.domainOn d && !old.powers d)) } }
  | _, _ => s

/-- An uncorrectable error in the image of the staged plane (R212): its word. -/
def State.stagedError (s : State) : Option Nat :=
  s.mem.firstBad (planeBase s.staged) (leAt (s.mem.dramRead (planeBase s.staged) 0x10) 0x0C 4)

/-- An armed swap whose new plane could not be read is cancelled (R212). -/
def State.swapSpoilt (s : State) (w : Nat) : State := ((s.countUe w).swapCancel plModified).swapRefused 0x060E

/-- The swap leaves FILL (R60, R65): with at most 2 blocks left. A read of the new plane that fails cancels it instead (R212). -/
def State.swapPrepared (s : State) : State :=
  if s.swapState = swFill ∧ s.fld R.PEAL_FILL_REMAIN_BLOCKS ≤ 2 ∧ s.chmIdleForSwap then
    match s.stagedError with
    | some w => s.swapSpoilt w
    | none => ((s.swapWrite).setFld R.PEAL_FILL_REMAIN_BLOCKS 0).setSwap swWait
  else s

/-- PEAL_SWAP_ABORT (R60): accepted until boundary S − 2, or S − 4 when paired, has passed. -/
def State.swapAbort (s : State) : State :=
  match s.peal.armed with
  | none => s
  | some a => if (s.blk.index + (if s.flmPaired then 4 else 2) < a.swapAt) then s.swapCancel plVerified else s

/-! ### S and after (R59-R62) -/

/-- Flam stops operating, the live plane having no FLAM_MIRROR section (R342): FLM_STATE reads OFF, and the chip owns its outputs. -/
def State.flmOff (s : State) : State :=
  let s1 := (List.range 32).foldl (fun s n => s.setFld (R.BEAT_STATUS_OWNED n) 1) ((s.alert 4).setFld R.FLM_STATE_STATE 0)
  { s1 with flm := { s1.flm with operates := false, plan := none } }

/-- The engines take the new plane at S (R30, R59, R64, R100, R111, R136, R172, R205, R312). -/
def State.takePlane (s : State) (old : Cfg) (a : Armed) : State :=
  let new := a.cfg
  let s0 := s.swapWrite
  let s1 := if a.dip then s0.malWrite old new else s0
  let s2 := (({ s1 with cfg := some new }.clnSwap old new).chmSwap old new a.blocks).chmRegs new
  let s3 := ((s2.malSwap old new ((changedTasks new old).map (·.task))).dplSwap old new).dplRegs new
  let s4 := (((s3.portsSwap new).netSwap new).beatSwap new).clvSwap old.clock new.clock
  let s5 := (((s4.brgTake new (sameSources old new)).blkRegs new).pllRegs new
    (decide (old.clock.mclkADiv ≠ new.clock.mclkADiv ∨ old.clock.mclkBDiv ≠ new.clock.mclkBDiv))).flmRegs new
  let s6 := (s5.dividers new).swapCommits a.swapAt
  let s7 := { s6 with
    dpl := { s6.dpl with filling := [] }
    flm := if old.mirror = new.mirror then s6.flm else { s6.flm with own := [], peer := [] } }
  if s.flm.operates ∧ new.mirror.isNone then s7.flmOff else s7

/-- Every unit whose clocks run starts its pre-roll again (R52, R69), but one that ends its post-roll for a swap (R260). -/
def State.restartPorts (s : State) : State :=
  (List.range 32).foldl (fun s u => if clocksRun (s.unitState u) ∧ (s.unit u).leaving = false then s.enterPreroll u else s) s

/-- Clocks change at S (R317): PLL_00 moves, PLL_02 starts where domain B does, and ports restart with pre-roll. -/
def State.changeClocks (s : State) (old new : Cfg) : State :=
  let s1 := (s.movePll00 old.sys.pll00Khz new.sys.pll00Khz).restartPorts
  if new.sys.rateB ≠ 0 then s1.startPll 2 else s1

/-- Boundary S (R61), at the first thing that happens at or after token S. Where the new plane has still to be written, an
uncorrectable error in it cancels the swap (R212). -/
def State.swapStart (s : State) : State :=
  match s.cfg, s.peal.armed with
  | some old, some a =>
    let spoilt := if a.written then none else s.stagedError
    if a.swapAt ≤ s.blk.index ∧ spoilt.isSome then s.swapSpoilt (spoilt.getD 0)
    else if a.swapAt ≤ s.blk.index then
      let p := s.staged
      let q := s.livePlane
      let swapped := if a.dip then [] else swapBuses old a.cfg
      let keep : OldPlane :=
        ⟨old, (changedTasks old a.cfg).map (·.task), swapped, s.cln, s.chm, s.dpl, s.blk.brg, tablesOf s.regs⟩
      let liveHash := s.hashBytes R.PEAL_LIVE_HASH_HASH
      let stagedHash := s.hashBytes R.PEAL_STAGED_HASH_HASH
      let s1 := { s.takePlane old a with old := if a.dip then none else some keep }
      let s2 := if a.dip then s1 else
        { s1 with sxm := { s1.sxm with swap := s1.sxm.main.filter (fun (e : Nat × BusBlk) => swapped.contains (e.1 % 8192)) } }
      let s3 := ((s2.setPlane p plLive).setPlane q (if a.dip then plVerified else plSwapping)).setFld R.PEAL_STATUS_LIVE_PLANE p
      let s4 := ((s3.bumpGen.setHash R.PEAL_LIVE_HASH_HASH stagedHash).setHash R.PEAL_STAGED_HASH_HASH liveHash).setFld
        R.PEAL_FILL_REMAIN_BLOCKS 0
      let s5 := (s4.setSwap (if a.clocks then swHold else swXfade)).raise R.PEAL_INT_STATUS_SWAP_START
      let f : Fade := ⟨a.swapAt, a.blocks, a.swapAt, a.dip, a.clocks, swapped, old.buses.map (·.bus), false⟩
      let s6 := { s5 with peal := { s5.peal with armed := none, fade := some f, cfgs := Tbl.put (Tbl.erase p s5.peal.cfgs) q (some old) } }
      if a.clocks then s6.changeClocks old a.cfg else s6
    else s
  | _, _ => s

/-- HOLD ends (R60): the PLLs in use are LOCKED and no port is in pre-roll; the outputs then rise over N blocks. -/
def State.swapHoldEnd (s : State) : State :=
  match s.peal.fade, s.cfg with
  | some f, some c =>
    let locked := s.fld (R.PLL_STATUS_LOCKED 0) = 1 ∧ s.fld (R.PLL_STATUS_LOCKED 1) = 1 ∧
      (c.sys.rateB = 0 ∨ s.fld (R.PLL_STATUS_LOCKED 2) = 1)
    if s.swapState = swHold ∧ locked ∧ (List.range 32).all (fun u => s.unitState u != stPreroll) then
      { s.setSwap swXfade with peal := { s.peal with fade := some { f with hold := false, first := s.blk.index + 1 } } }
    else s
  | _, _ => s

/-- XFADE ends (R61): the former plane is VERIFIED, its tasks stop, its lines and domains are released. -/
def State.xfadeFinish (s : State) : State :=
  match s.peal.fade, s.cfg with
  | some f, some c =>
    if s.swapState = swXfade ∧ !f.ended then
      let q := 1 - s.livePlane
      let s1 := if s.plane q = plSwapping then s.setPlane q plVerified else s
      let s2 := (s1.setSwap swIdle).raise R.PEAL_INT_STATUS_SWAP_DONE
      let offs := ([2, 12, 9, 10, 3, 4, 5, 6, 7, 8, 11].reverse).filter (fun d => s2.domainOn d && !c.powers d)
      { s2 with old := none, peal := { s2.peal with fade := some { f with ended := true } },
                pmu := { s2.pmu with offs := s2.pmu.offs ++ offs } }
    else s
  | _, _ => s

/-- The crossfade, or the rise of a dip, has run its N blocks (R60). -/
def State.xfadeEnd (s : State) : State :=
  match s.peal.fade with
  | some f => if f.first + f.blocks ≤ s.blk.index then s.xfadeFinish else s
  | none => s

/-- LIMP entry (R60, R62, R401): an armed swap is cancelled with detail 0x060B, and in XFADE the old plane's changed tasks stop and w
becomes 1. A swap in HOLD keeps its N. -/
def State.swapLimp (s : State) : State :=
  let s1 := if s.peal.armed.isSome then (s.swapCancel plVerified).swapRefused 0x060B else s
  if s1.swapState = swXfade then
    match s1.peal.fade with
    | none => s1
    | some f => { s1 with peal := { s1.peal with fade := some { f with blocks := min f.blocks (s1.blk.index - f.first) } } }.xfadeFinish
  else s1

/-- What the swap machine does at token `k` (R57, R60, R65): FILL counts down, stops before S begin, a fade that has left
egress is forgotten. -/
def State.swapBoundary (s : State) (k : Nat) : State :=
  let s1 := if s.swapState = swFill then s.setFld R.PEAL_FILL_REMAIN_BLOCKS (s.fld R.PEAL_FILL_REMAIN_BLOCKS - 1) else s
  let s2 := match s1.peal.armed with
    | none => s1
    | some a => if k < a.swapAt then s1.swapStops a (a.swapAt - k) else s1
  match s2.peal.fade with
  | none => s2
  | some f =>
    if f.ended ∧ f.first + f.blocks < k then
      { s2.setFld R.SXM_STATUS_SWAP_USED (if s2.peal.armed.isSome then s2.fld R.SXM_STATUS_SWAP_USED else 0) with
        peal := { s2.peal with fade := none }, sxm := { s2.sxm with swap := [] } }
    else s2

/-- New and changed lines fill with the data of block `k − 2` at token `k` (R57). -/
def State.swapFill (s : State) (k : Nat) : State :=
  match s.cfg, s.peal.armed with
  | some old, some a =>
    if a.armedAt + 2 ≤ k ∧ k ≤ a.swapAt then (newLines old a.cfg).foldl (fun s r => s.fillLine old.blockLen (k - 2) r) s else s
  | _, _ => s

/-- The samples that a bus of a domain carries in `n` compute blocks from `first` (R59, R70): compute block b carries data block
b − 1. -/
def Cfg.spanSamples (c : Cfg) (domain first n : Nat) : Nat :=
  if domain = 1 then ((List.range n).map (fun i => c.countB (first + i - 1))).sum else n * c.blockLen

/-- How much of an output-facing bus of a domain comes from the new plane in compute block `b` (R59), for sample `j` of the block, as
the sample mixes: `x` the plane's own sample of that block, `o` the old plane's. -/
def State.swapMix (s : State) (c : Cfg) (domain b j : Nat) (x o : Int) : Int :=
  let at_ := fun (first : Nat) => c.spanSamples domain first (b - first) + j + 1
  match s.peal.armed, s.peal.fade with
  | some a, none =>
    if a.dip ∧ a.swapAt - a.blocks ≤ b ∧ b < a.swapAt then
      let m := c.spanSamples domain (a.swapAt - a.blocks) a.blocks
      roundDiv (x * ((m + 1 - at_ (a.swapAt - a.blocks) : Nat) : Int)) m
    else x
  | _, some f =>
    let m := c.spanSamples domain f.first f.blocks
    if b < f.swapAt then
      let m := c.spanSamples domain (f.swapAt - f.blocks) f.blocks
      if f.rise ∧ f.swapAt - f.blocks ≤ b then roundDiv (x * ((m + 1 - at_ (f.swapAt - f.blocks) : Nat) : Int)) m else x
    else if f.hold ∨ b < f.first then 0
    else if f.first + f.blocks ≤ b then x
    else if f.rise then roundDiv (x * ((at_ f.first : Nat) : Int)) m
    else o + roundDiv ((x - o) * ((at_ f.first : Nat) : Int)) m
  | _, none => x

/-! ### The commands -/

def execFlashCopyDone (s : State) : Host.Outcome State Fault Refusal := .next s.copyDone

def execVerifyDone (s : State) : Host.Outcome State Fault Refusal := .next s.verifyDone

def execSwapPrepared (s : State) : Host.Outcome State Fault Refusal := .next s.swapPrepared

def execSwapHoldEnd (s : State) : Host.Outcome State Fault Refusal := .next s.swapHoldEnd

def execSwapXfadeEnd (s : State) : Host.Outcome State Fault Refusal := .next s.xfadeEnd

end Sys2Proof.Machine
end

