-- ==== Sys2Proof/Machine/RingEntry.lean ====
section
/-! DEFINITION. Command descriptors (R230, R231): the 32 bytes of a ring entry, their fields, and the commands they carry
(R112, R134, R171, R204, R263, R284, R311, R338, R360). -/

namespace Sys2Proof.Machine

/-- A command descriptor's header (R230) and its payload, byte 0 at offset 0x10. -/
structure Descr where
  opcode : Nat
  stamped : Bool
  cpl : Bool
  irq : Bool
  /-- FLAGS [7:3] and the reserved bytes of the header are 0, and BLOCK is 0 where STAMPED is 0. -/
  clean : Bool
  cookie : Nat
  block : Nat
  payload : List Byte
deriving DecidableEq, Repr

/-- Read the header of a descriptor. -/
def descrOf (bs : List Byte) : Descr :=
  let fl := leAt bs 1 1
  let st := decide (fl % 2 = 1)
  ⟨leAt bs 0 1, st, decide (bit fl 1 = 1), decide (bit fl 2 = 1),
    decide (fl < 8 ∧ leAt bs 2 2 = 0 ∧ leAt bs 14 2 = 0 ∧ (st = true ∨ leAt bs 8 6 = 0)),
    leAt bs 4 4, leAt bs 8 6, slice bs 16 16⟩

/-- A field of a payload, at its offset in the descriptor. -/
def Descr.at (d : Descr) (off n : Nat) : Nat := leAt d.payload (off - 16) n

/-- Whether the payload from an offset to its end is 0. -/
def Descr.zeroFrom (d : Descr) (off : Nat) : Bool := (d.payload.drop (off - 16)).all (fun b => b == 0)

/-- What a descriptor asks for. -/
inductive Order where
  | nop
  | fence (waitRing : Nat) (waitEn : Bool) (waitIndex : Nat)
  | write32 (addr : Nat) (value mask : Word)
  | engine (e : Engine) (c : Cmd)
deriving DecidableEq, Repr

/-- The command of a descriptor, and whether its reserved bytes and flag bits are 0; none where its opcode is not defined. -/
def Descr.order (d : Descr) : Option (Order × Bool) :=
  let a := d.at
  let w := fun o => BitVec.ofNat 32 (a o 4)
  match d.opcode with
  | 0x00 => some (.nop, d.zeroFrom 16)
  | 0x01 => some (.fence (a 16 1) (decide (bit (a 17 1) 0 = 1)) (a 18 2), decide (a 17 1 < 2) && d.zeroFrom 20)
  | 0x02 => some (.write32 (a 16 4) (w 20) (w 24), d.zeroFrom 28)
  | 0x20 => some (.engine .cln (.xpSet (a 16 2) (a 18 2) (w 20) (a 24 1)), d.zeroFrom 25)
  | 0x21 => some (.engine .cln (.xpList (a 16 8) (a 24 4) (a 28 1)), d.zeroFrom 29)
  | 0x22 => some (.engine .cln (.xpClearOut (a 16 2) (a 18 1)), d.zeroFrom 19)
  | 0x23 => some (.engine .cln (.xpClearIn (a 16 2) (a 18 1)), d.zeroFrom 19)
  | 0x24 => some (.engine .cln (.outMute (a 16 2) (a 18 2) (a 20 1)), d.zeroFrom 21)
  | 0x28 => some (.engine .chm (.bankSelect (a 16 2) (a 18 2) (a 20 2) (a 22 1)), d.zeroFrom 23)
  | 0x29 => some (.engine .chm (.presetLoad (a 16 2) (a 18 1) (a 19 1) (a 20 2)), decide (a 19 1 < 2) && d.zeroFrom 22)
  | 0x2A => some (.engine .chm (.coefWrite (a 16 2) (a 18 1) (a 20 2) (a 22 2) (a 24 8)), decide (a 19 1 = 0))
  | 0x30 => some (.engine (.mal (a 16 1 / 16 % 4)) (.paramSet (a 16 1) (a 17 1) (a 18 2) [w 20, w 24, w 28]), true)
  | 0x31 => some (.engine (.mal (a 16 1 / 16 % 4)) (.paramList (a 16 1) (a 18 2) (a 24 8)), decide (a 17 1 = 0 ∧ a 20 4 = 0))
  | 0x38 => some (.engine .dpl (.delaySet (a 16 2) (a 18 1) (a 20 4)), decide (a 19 1 = 0) && d.zeroFrom 24)
  | 0x39 => some (.engine .dpl (.delayList (a 16 2) (a 18 1) (a 24 8)), decide (a 19 5 = 0))
  | 0x40 => some (.engine .prt (.prtMask (a 16 1) (w 20)), decide (a 17 3 = 0) && d.zeroFrom 24)
  | 0x41 => some (.engine .prt (.portMute (a 16 1) (a 17 1) (a 18 1) (a 19 1) (a 20 1)), d.zeroFrom 21)
  | 0x50 => some (.engine .net (.netSend (a 16 1) (a 17 1) (a 18 2) (a 24 8)), decide (a 17 1 < 8 ∧ a 20 4 = 0))
  | 0x51 => some (.engine .net (.streamMute (a 16 1) (a 17 1) (a 18 1) (a 19 1)), d.zeroFrom 20)
  | 0x60 => some (.engine .clv (.clvMode (a 16 1) (a 17 1) (a 18 1)), d.zeroFrom 19)
  | 0x61 => some (.engine .clv (.clvRefSet (a 16 1) (a 17 1) (a 18 1) (a 20 2)), decide (a 19 1 = 0) && d.zeroFrom 22)
  | 0x70 => some (.engine .beat (.beatMute (a 16 1) (a 17 1) (a 18 1) (a 20 2)), decide (a 19 1 = 0) && d.zeroFrom 22)
  | 0x71 => some (.engine .beat (.beatEnable (a 16 1) (a 17 1) (a 18 1)), d.zeroFrom 19)
  | 0x72 => some (.engine .beat (.beatClear (a 16 1) (a 17 1)), d.zeroFrom 18)
  | 0x73 => some (.engine .beat (.beatDiag (a 16 1) (a 17 1)), d.zeroFrom 18)
  | 0x80 => some (.engine .flm .flmHandover, d.zeroFrom 16)
  | 0x81 => some (.engine .flm .flmResync, d.zeroFrom 16)
  | _ => none

/-- A descriptor as the ring engine judges it: the order, or none with status 0x04 where its opcode is not defined, a reserved
field is not 0, or a FENCE is stamped (R231, R237). -/
def Descr.judge (d : Descr) : Option Order :=
  match d.order with
  | none => none
  | some (o, clean) =>
    if d.clean && clean then
      match o with
      | .fence .. => if d.stamped then none else some o
      | _ => some o
    else none

/-- The stamp of a descriptor. -/
def Descr.stamp (d : Descr) : Option Nat := if d.stamped then some d.block else none

/-- The opcode of a held command, for the completion of one that a mirror message carries. -/
def Cmd.opcode : Cmd → Nat
  | .nop => 0x00
  | .fence .. => 0x01
  | .write32 .. => 0x02
  | .xpSet .. => 0x20
  | .xpList .. => 0x21
  | .xpClearOut .. => 0x22
  | .xpClearIn .. => 0x23
  | .outMute .. => 0x24
  | .bankSelect .. => 0x28
  | .presetLoad .. => 0x29
  | .coefWrite .. => 0x2A
  | .paramSet .. => 0x30
  | .paramList .. => 0x31
  | .delaySet .. => 0x38
  | .delayList .. => 0x39
  | .prtMask .. => 0x40
  | .portMute .. => 0x41
  | .netSend .. => 0x50
  | .streamMute .. => 0x51
  | .clvMode .. => 0x60
  | .clvRefSet .. => 0x61
  | .beatMute .. => 0x70
  | .beatEnable .. => 0x71
  | .beatClear .. => 0x72
  | .beatDiag .. => 0x73
  | .flmHandover => 0x80
  | .flmResync => 0x81
  | _ => 0xFF

end Sys2Proof.Machine
end

