-- ==== Sys2Proof/Machine/Flam.lean ====
section
/-! DEFINITION. Flam twin fail-over (R340-R361): heartbeats, digests, evidence, the state machine, takeover, resync, region
pairs, mirror messages and resync chunks. -/

namespace Sys2Proof.Machine

/-! ### Lines, states, generation -/

/-- The chip is the secondary (R340). -/
def State.flmSecondary (s : State) : Bool := decide (s.fld R.FLM_CFG_ROLE = 1)

/-- The level of FLAM_OWN (R340): low while this chip or its peer pulls it. A YIELDING chip has released it at T (R355;
notes/assumptions/41), and a forced handover releases it at once (R354). -/
def State.ownHigh (s : State) : Bool := !(decide (s.flmState = 4) && !s.flm.ownFree && !s.flm.forced) && !s.flm.ownPeer

/-- The level of FLAM_SEL (R340): low while the secondary owns the outputs. -/
def State.selHigh (s : State) : Bool := !(decide (s.flmState = 4) && s.flmSecondary) && !s.flm.selPeer

/-- Enter a Flam state. Beater's channels are owned by an unpaired or an ACTIVE chip (R337, R356). -/
def State.setFlm (s : State) (st : Nat) : State :=
  let s := if s.flmState = st then s else s.alert 4
  (List.range 32).foldl (fun s n => s.setFld (R.BEAT_STATUS_OWNED n) (flag (decide (st = 0 ∨ st = 4)))) (s.setFld R.FLM_STATE_STATE st)

/-- MIRROR_GEN rises (R357). -/
def State.bumpMirrorGen (s : State) : State :=
  let g := s.fld R.FLM_GEN_LO_GEN + 2 ^ 32 * s.fld R.FLM_GEN_HI_GEN + 1
  (s.setFld R.FLM_GEN_LO_GEN (g % 2 ^ 32)).setFld R.FLM_GEN_HI_GEN (g / 2 ^ 32)

/-- MIRROR_GEN rises once at a boundary at which mirrored changes or chunks apply (R357). -/
def State.mirrorApplied (s : State) (k : Nat) : State :=
  if s.flm.genAt = some k then s else { s.bumpMirrorGen with flm := { s.bumpMirrorGen.flm with genAt := some k } }

/-- The peer's newest heartbeat, if it is that of block `k`. -/
def State.beatOf (s : State) (k : Nat) : Option Heartbeat := s.flm.beats.find? (fun b => b.blk == k)

/-- The wait to restore in blocks (R359). -/
def State.wtrFull (s : State) : Nat := min 3600 (s.fld R.FLM_CTRL_WTR_S) * s.blocksPerSecond

/-- The outputs are withheld and the chip is in SHADOW, or in LIMP entered from SHADOW (R353, R397). -/
def State.flmWithhold (s : State) : State :=
  let s1 := s.setGate false
  if s1.mode = .limp then { s1 with pmu := { s1.pmu with limpShadow := true } }.markWithheld else s1.setMode .shadow

/-- The outputs are released and the chip is in LIVE, or in LIMP. -/
def State.flmRelease (s : State) : State :=
  if s.mode = .limp then { s with pmu := { s.pmu with limpShadow := false } }.markWithheld else s.setMode .live

/-- Enter PAIRING (R353). -/
def State.flmPairing (s : State) : State :=
  let s1 := (s.setFlm 1).setFld R.FLM_RESYNC_STATUS_PHASE 0
  { s1 with flm := { s1.flm with plan := none, verdict := 0, recheck := 0, chunks := [], compareAt := none, bulk := 0 } }

/-- Enter RESYNC with a reason (R357, R358). `empty`: the bulk phase is empty. -/
def State.enterResync (s : State) (reason : Nat) (empty : Bool) : State :=
  let size := match s.cfg with | none => 0 | some c => c.mirrorSize.1
  let s1 := ((((s.setFlm 2).setFld R.FLM_RESYNC_STATUS_PHASE (if empty then 2 else 1)).setFld R.FLM_RESYNC_STATUS_REASON reason).setFld
    R.FLM_RESYNC_STATUS_KIB_LEFT (if empty then 0 else ceilDiv size 1024)).raise R.FLM_INT_STATUS_RESYNC_START
  { s1 with flm := { s1.flm with plan := none, disagree := 0, agree := 0, chunks := [], bulk := if empty then 0 else size,
                                 compareAt := if empty then some s1.blk.index else none } }

/-! ### Digests (R351) -/

/-- One bit of the CRC-64: polynomial 0x42F0_E1EB_A9EA_3693, no reflection. -/
def crc64Bit (c : BitVec 64) : BitVec 64 :=
  if c.getLsbD 63 then (c <<< 1) ^^^ 0x42F0E1EBA9EA3693#64 else c <<< 1

/-- One byte of the CRC-64. -/
def crc64Byte (c : BitVec 64) (b : Byte) : BitVec 64 :=
  crc64Bit (crc64Bit (crc64Bit (crc64Bit (crc64Bit (crc64Bit (crc64Bit (crc64Bit (c ^^^ (b.setWidth 64 <<< 56)))))))))

/-- CRC-64: initial value 0, no final XOR. -/
def crc64 (bs : List Byte) : Nat := (bs.foldl crc64Byte 0#64).toNat

/-- The count byte of a bus (R73). -/
def BusBlk.countByte (b : BusBlk) : Nat := b.samples.length % 64 + 64 * flag b.late + 128 * flag b.faded

/-- A bus as a digest covers it: its count byte, then its samples as 3 bytes each. -/
def BusBlk.digestBytes (b : BusBlk) : List Byte :=
  BitVec.ofNat 8 b.countByte :: b.samples.flatMap (fun x => leBytes 3 (codeS 24 x))

/-- The digest groups of a plane (R343), in group order. -/
def Cfg.digestGroups (c : Cfg) : List MirrorRec :=
  (List.range 64).filterMap (fun g => (c.mirror.getD []).find? (fun m => decide (m.kind = 0x10 ∧ m.object = g)))

/-- The digests of data block `k`, one per group. -/
def State.digestsOf (s : State) (c : Cfg) (k : Nat) : List Nat :=
  c.digestGroups.map (fun m => crc64 ((List.range m.length).flatMap (fun j => (s.bus k (m.offset + j)).digestBytes)))

/-! ### Region pairs (R343, R347) -/

/-- The region pairs of a plane. -/
def Cfg.regionPairs (c : Cfg) : List MirrorRec := (c.mirror.getD []).filter (fun m => decide (m.kind = 2 ∨ m.kind = 3))

/-- The source range of a region pair: words, or bytes. -/
def State.pairSource (s : State) (m : MirrorRec) : List Nat :=
  if m.kind = 2 then (List.range m.length).map (fun j => s.dataWord m.object (m.offset + j))
  else (s.sharedRead m.object m.offset m.length).map (·.toNat)

/-- Write `xs` at an offset of a region pair's memory. -/
def State.pairWrite (s : State) (m : MirrorRec) (off : Nat) (xs : List Nat) : State :=
  if m.kind = 2 then s.putData m.object off xs
  else s.putShared m.object off (xs.map (fun x => some (BitVec.ofNat 8 x)))

/-- The regions at boundary `k` (R347): the sources are kept, and each applied range is filled from the source as it stood at
`k − 2`: the peer's where it was ACTIVE then and its copy has come, else the chip's own. -/
def State.flmRegionsAt (s : State) (k : Nat) : State :=
  match s.cfg with
  | none => s
  | some c =>
    match c.regionPairs with
    | [] => s
    | ps =>
      let here := ps.zipIdx.map (fun p => (p.2, s.pairSource p.1))
      let from_ : Option (List (Nat × List Nat)) :=
        match s.flm.peer.find? (fun e => e.1 == k - 2) with
        | some e => some e.2
        | none => (s.flm.own.find? (fun e => e.1 == k - 2)).map (·.2)
      let s1 := match from_ with
        | none => s
        | some rs => ps.zipIdx.foldl (fun (s : State) (p : MirrorRec × Nat) =>
            match rs.find? (fun (r : Nat × List Nat) => r.1 == p.2) with
            | none => s
            | some r => s.pairWrite p.1 (p.1.offset + p.1.length) (r.2.take p.1.length)) s
      { s1 with flm := { s1.flm with own := ((k, here) :: s1.flm.own).take 4, peer := s1.flm.peer.take 4 } }

/-- The ACTIVE chip sends its source ranges of boundary `k` (R347). -/
def State.sendRegions (s : State) (k : Nat) : State :=
  match s.flm.own.find? (fun e => e.1 == k) with
  | some e => if s.flmState = 4 then s.emit (.flmRegions k e.2) else s
  | none => s

/-! ### Evidence (R352) -/

/-- The counters whose change is evidence: deadline misses and overruns; uncorrectable errors; frame errors, faded blocks of
input streams. -/
def State.evidenceCounts (s : State) : List Nat :=
  let sum := fun (xs : List Nat) => xs.foldl (· + ·) 0
  [s.fld R.BLK_OVERRUN_TOTAL_COUNT + s.fld R.BLK_LATE_TOTAL_COUNT, s.fld R.DPL_ECC_UE_COUNT,
    sum ((List.range 16).map (fun n => s.fld (R.PRT_FRAME_ERR_COUNT n))) +
      sum ((List.range 8).map (fun n => s.fld (R.AES_PARITY_ERR_COUNT n) + s.fld (R.AES_CODE_ERR_COUNT n))) +
      sum (s.net.ins.map (fun e => s.fld (R.NET_IN2_LATE_BLOCKS e.1)))]

/-- The evidence that holds now (R352). Whether the peer is LOCKED no message tells (bit 7: a free value). -/
def State.evidenceNow (s : State) : Nat × State :=
  let counts := s.evidenceCounts
  let rose := fun (i : Nat) => decide (s.flm.seen.getD i 0 < counts.getD i 0)
  let lost := (List.range 24).any (fun u => s.unitState u == stLost)
  let nets := match s.cfg with
    | none => []
    | some c => (List.range 4).filter (fun n => c.streams.any (fun r => r.port == n))
  let f := s.fresh
  let hold := decide (s.fld R.CLV_STATE_STATE = 0 ∨ s.fld R.CLV_STATE_STATE = 3)
  let bitsNow := [decide (s.mode = .limp),
    decide (s.fld (R.PLL_STATUS_LOCKED 0) = 0) || (List.range 26).any (fun i => s.islandOn i && s.fld (R.SYS_ISLAND_CLK_SRC i) == 1),
    rose 0, rose 1,
    lost || rose 2 || nets.any (fun n => s.fld (R.NET_LINK_UP n) == 0),
    s.pmu.warn,
    decide (s.fld (R.PLL_STATUS_BYPASS 1) = 1 ∨ s.fld (R.PLL_STATUS_BYPASS 2) = 1),
    hold && decide (s.fld R.FLM_STATE_PEER_SEEN = 1) && decide (f.1 % 2 = 1)]
  (bitsNow.zipIdx.foldl (fun n p => if p.1 then n + 2 ^ p.2 else n) 0, { f.2 with flm := { f.2.flm with seen := counts } })

/-- Evidence at a boundary: each bit holds for the last 3 blocks. -/
def State.flmEvidence (s : State) : State :=
  let e := s.evidenceNow
  let es := (e.1 :: e.2.flm.evidence).take 3
  let s1 := { e.2 with flm := { e.2.flm with evidence := es } }
  s1.setFld R.FLM_STATE_EVIDENCE (es.foldl (· ||| ·) 0)

/-! ### Heartbeats (R350) -/

/-- The serial number, 16 bytes (R383). -/
def serialBytes : List Byte := (List.range 4).flatMap (fun i => leBytes 4 (Config.otpWord (0x15F80000 + 4 * i)))

/-- Whether the result of a preset load is held (PRESET_VALID). -/
def State.presetValid (s : State) : Bool := decide (s.fld R.CHM_PRESET_STATUS_RESULT ≠ 0) && (s.chm.queue == [])

/-- The heartbeat of block `k`. -/
def State.heartbeat (s : State) (k : Nat) : List Byte :=
  let t := match s.flm.plan with | some p => p.1 | none => 0
  let ds := match s.flm.digests.find? (fun d => d.1 == k - 2) with | some d => d.2 | none => []
  let body : List Byte := leBytes 2 0x464D ++ [0x01#8, 0x01#8] ++ leBytes 6 k ++
    [BitVec.ofNat 8 (s.flmState + 16 * s.fld R.FLM_CFG_ROLE),
     BitVec.ofNat 8 (flag (decide (s.flmState = 4) && s.flm.plan.isSome) + 2 * flag (s.presetValid && s.fld R.CHM_PRESET_STATUS_RESULT == 1) +
       4 * flag s.presetValid + 8 * (if s.flmState = 4 then s.flm.verdict else 0))] ++
    leBytes 2 (s.fld R.FLM_STATE_EVIDENCE) ++ leBytes 6 t ++ leBytes 4 (s.fld R.EVT_POWER_CYCLES_COUNT) ++
    leBytes 4 (s.fld R.FLM_GEN_LO_GEN) ++ leBytes 4 (s.fld R.FLM_GEN_HI_GEN) ++ serialBytes ++
    s.hashBytes R.PEAL_LIVE_HASH_HASH ++ ds.flatMap (leBytes 8)
  body ++ leBytes 4 (crc32 body)

/-- Read a heartbeat's payload; none where its layout or CRC is not that of R350. -/
def parseBeat (index : Nat) (p : List Byte) : Option Heartbeat :=
  let n := p.length
  if n < 0x54 ∨ (n - 0x54) % 8 ≠ 0 ∨ leAt p 0 2 ≠ 0x464D ∨ leAt p 2 1 ≠ 1 ∨ leAt p 3 1 ≠ 1 ∨ crc32 (p.take (n - 4)) ≠ leAt p (n - 4) 4 then none
  else
    let a := leAt p 0x0A 1
    let b := leAt p 0x0B 1
    some { blk := leAt p 4 6, state := a % 16, role := bit a 4, isYield := decide (bit b 0 = 1), presetOk := decide (bit b 1 = 1),
           presetValid := decide (bit b 2 = 1), verdict := bits b 6 3, evidence := leAt p 0x0C 2, handover := leAt p 0x0E 6,
           cycles := leAt p 0x14 4, gen := leAt p 0x18 8, serial := slice p 0x20 16, hash := slice p 0x30 32,
           digests := (List.range ((n - 0x54) / 8)).map (fun g => leAt p (0x50 + 8 * g) 8), same := decide (leAt p 4 6 = index) }

/-- Record a peer at a completed resync (R358). -/
def State.recordPeer (s : State) (b : Heartbeat) : State :=
  (((List.range 4).foldl (fun s i => s.setFld (R.FLM_PEER_SERIAL_SERIAL i) (leAt b.serial (4 * i) 4)) s).setFld
    R.FLM_PEER_POWER_CYCLES_COUNT b.cycles).setFld R.FLM_STATE_RECORD_VALID 1

/-- The recorded peer serial. -/
def State.recordedSerial (s : State) : List Byte := (List.range 4).flatMap (fun i => leBytes 4 (s.fld (R.FLM_PEER_SERIAL_SERIAL i)))

/-- A heartbeat arrives (R350): `skew` is the peer's token minus the chip's own, in ns. An ACTIVE chip starts the bulk of a peer
that enters RESYNC, its verdict being done with (R357), and records one that leaves it (R358). -/
def State.heartbeatRx (s : State) (payload : List Byte) (skew : Int) : State :=
  match parseBeat s.blk.index payload with
  | none => s
  | some b =>
    if (s.beatOf b.blk).isSome then s
    else
      let was := s.fld R.FLM_STATE_PEER_STATE
      let s1 := ((((s.setFld R.FLM_STATE_PEER_STATE b.state).setFld R.FLM_PEER_EVIDENCE_EVIDENCE b.evidence).setFld
        R.FLM_PEER_GEN_LO_GEN (b.gen % 2 ^ 32)).setFld R.FLM_PEER_GEN_HI_GEN (b.gen / 2 ^ 32)).setFld R.FLM_SKEW_NS_NS (codeS 32 skew)
      let s2 := { s1 with flm := { s1.flm with
        beats := (b :: s1.flm.beats).take 4
        ownPeer := decide (b.state = 4)
        selPeer := decide (b.state = 4 ∧ b.role = 1) } }
      if s2.flmState = 4 ∧ b.state = 2 ∧ was ≠ 2 then
        let size := match s2.cfg with | none => 0 | some c => c.mirrorSize.1
        { s2 with flm := { s2.flm with bulk := if s2.flm.verdict = 8 then 0 else size, verdict := 0 } }
      else if s2.flmState = 4 ∧ b.state = 3 ∧ was = 2 then
        { s2.recordPeer b with flm := { (s2.recordPeer b).flm with verdict := 0, bulk := 0 } }
      else s2

/-! ### Takeover and yield (R354-R356) -/

/-- The levels that the peer held at 0 are the chip's own again (R348). -/
def State.releaseLevels (s : State) : State :=
  { s with beat := { s.beat with chans := s.beat.chans.map (fun (e : Nat × BeatChan) => (e.1, { e.2 with held := false })) } }

/-- Boundary T on the incoming chip (R355): it enters LIVE and owns the outputs. -/
def State.flmTakeover (s : State) : State :=
  match s.flm.plan with
  | some (t, cause) =>
    if s.flmState = 3 ∧ t ≤ s.blk.index then
      let s1 := (((s.setFlm 4).flmRelease).setGate true).releaseLevels
      let s2 := (((s1.setFld R.FLM_LAST_TAKEOVER_LO_BLK (t % 2 ^ 32)).setFld R.FLM_LAST_TAKEOVER_HI_BLK (t / 2 ^ 32)).setFld
        R.FLM_LAST_TAKEOVER_HI_CAUSE cause).bump R.FLM_TAKEOVER_COUNT_COUNT
      let s3 := (s2.bumpMirrorGen).raise R.FLM_INT_STATUS_TOOK_OVER
      { s3 with flm := { s3.flm with plan := none, verdict := 0, bulk := 0, wtr := s3.wtrFull, disagree := 0 } }
    else s
  | none => s

/-- The outgoing chip at T (R355): YIELDING, FLAM_OWN released. -/
def State.flmYield (s : State) (k : Nat) : State :=
  match s.flm.plan with
  | some (t, _) => if s.flmState = 4 ∧ t ≤ k then (s.setFlm 5).raise R.FLM_INT_STATUS_YIELDED else s
  | none => s

/-- The outgoing chip stops emitting (R353, R355): at the first boundary at which it holds the incoming chip's heartbeat of T,
or at T + 2. The reason of a resync after severe evidence is not stated. -/
def State.flmYieldEnd (s : State) : State :=
  match s.flm.plan with
  | some (t, cause) =>
    let held := s.flm.beats.any (fun b => decide (b.state = 4 ∧ t ≤ b.blk))
    if s.flmState = 5 ∧ (held ∨ t + 2 ≤ s.blk.index) then
      let s1 := s.flmWithhold
      if cause = 6 ∨ cause = 7 then
        let s2 := s1.setFlm 3
        { s2 with flm := { s2.flm with plan := none, disagree := 0, agree := 0, wtr := s2.wtrFull } }
      else if cause = 4 then s1.enterResync 8 false
      else s1.fresh.2.enterResync s1.fresh.1 false
    else s
  | none => s

/-- A resync is complete (R358): 8 consecutive data blocks have agreed. -/
def State.flmResyncComplete (s : State) : State :=
  if s.flmState = 2 ∧ 8 ≤ s.flm.agree then
    let s1 := ((s.setFlm 3).setFld R.FLM_RESYNC_STATUS_PHASE 0).raise R.FLM_INT_STATUS_RESYNC_DONE
    let s2 := (s1.setFld R.FLM_GEN_LO_GEN (s1.fld R.FLM_PEER_GEN_LO_GEN)).setFld R.FLM_GEN_HI_GEN (s1.fld R.FLM_PEER_GEN_HI_GEN)
    let s3 := match s2.flm.beats with | b :: _ => s2.recordPeer b | [] => s2
    { s3 with flm := { s3.flm with wtr := s3.wtrFull, agree := 0, disagree := 0, compareAt := none } }
  else s

/-- The primary's wait to restore runs: on the standby primary, and on the secondary that is ACTIVE with a standby without
evidence (R359; how the ACTIVE chip learns of the expiry is DEDUCED, notes/assumptions/41). -/
def State.wtrRuns (s : State) : Bool :=
  (decide (s.flmState = 3 ∧ s.fld R.FLM_STATE_PEER_STATE = 4 ∧ s.fld R.FLM_STATE_EVIDENCE = 0) && !s.flmSecondary) ||
  (decide (s.flmState = 4 ∧ s.fld R.FLM_STATE_PEER_STATE = 3 ∧ s.fld R.FLM_PEER_EVIDENCE_EVIDENCE = 0) && s.flmSecondary)

/-- The wait to restore expires (R359): with REVERT set, the revert is decided at this boundary. -/
def State.flmWtrExpiry (s : State) : State :=
  if s.wtrRuns ∧ s.flm.wtr = 0 ∧ s.fld R.FLM_CTRL_REVERT = 1 ∧ s.flm.plan = none then
    { s with flm := { s.flm with plan := some (s.blk.index + 2, 6) } }
  else s

/-- What Flam has to do at the boundary of the last token, before its heartbeat is formed: each of these is an event of its own. -/
def State.flmSettle (s : State) : State := (((s.flmTakeover).flmYieldEnd).flmResyncComplete).flmWtrExpiry

/-! ### The boundary -/

/-- Missing heartbeats (R350, R353, R354). -/
def State.flmMissing (s : State) (k : Nat) : State :=
  if (s.beatOf (k - 1)).isSome then { s.setFld R.FLM_STATE_PEER_SEEN 1 with flm := { s.flm with missed := 0 } }
  else
    let s0 := (s.setFld R.FLM_STATE_PEER_SEEN 0).bump R.FLM_HB_MISS_COUNT_COUNT
    let s1 := { s0 with flm := { s0.flm with missed := s0.flm.missed + 1 } }
    if s1.flm.missed = 2 then
      let s2 := s1.raise R.FLM_INT_STATUS_PEER_LOST
      let s3 := { s2 with flm := { s2.flm with verdict := 0 } }
      if s3.flmState = 2 then s3.flmPairing
      else if s3.flmState = 3 then
        if s3.ownHigh then { s3 with flm := { s3.flm with plan := some (k, 2) } }
        else
          let s4 := (s3.setFlm 6).raise R.FLM_INT_STATUS_LINK_LOST
          { s4 with flm := { s4.flm with plan := none } }
      else s3
    else s1

/-- Compare data block `k − 3` (R351, R358), where both heartbeats of `k − 1` are held. -/
def State.flmCompare (s : State) (k : Nat) : State :=
  match s.beatOf (k - 1), s.flm.digests.find? (fun d => d.1 == k - 3) with
  | some b, some d =>
    let resync := decide (s.flmState = 2) && (match s.flm.compareAt with | some a => decide (a ≤ k - 2) | none => false)
    let both := decide ((s.flmState = 3 ∧ b.state = 4) ∨ (s.flmState = 4 ∧ b.state = 3))
    if resync || both then
      let bad := (List.range d.2.length).filter (fun g => decide (d.2.getD g 0 ≠ b.digests.getD g 0) || decide (b.digests.length ≤ g))
      let mask := bad.foldl (fun n g => n + 2 ^ g) 0
      let s1 := (s.setFld R.FLM_DIGEST_MISMATCH_LO_GROUP (mask % 2 ^ 32)).setFld R.FLM_DIGEST_MISMATCH_HI_GROUP (mask / 2 ^ 32)
      if bad = [] then { s1 with flm := { s1.flm with disagree := 0, agree := s1.flm.agree + 1 } }
      else
        let s2 := s1.bump R.FLM_DISAGREE_COUNT_COUNT
        { s2 with flm := { s2.flm with disagree := s2.flm.disagree + 1, agree := 0 } }
    else s
  | _, _ => s

/-- The decisions of boundary `k`, from both heartbeats of `k − 1` (R354). -/
def State.flmDecide (s : State) (k : Nat) : State :=
  match s.beatOf (k - 1) with
  | none => s
  | some b =>
    let active := decide (s.flmState = 4 ∧ b.state = 3)
    let standby := decide (s.flmState = 3 ∧ b.state = 4)
    let mine := s.fld R.FLM_STATE_EVIDENCE
    let actE := if active then mine else b.evidence
    let stbE := if active then b.evidence else mine
    let plan := fun (t c : Nat) => ({ s with flm := { s.flm with plan := some (t, c), disagree := 0 } } : State)
    if (active || standby) && s.flm.plan.isNone then
      if 3 ≤ s.flm.disagree then
        if actE ≠ 0 ∧ stbE = 0 then plan (k + 2) 4
        else
          let s1 := { s with flm := { s.flm with disagree := 0 } }.raise R.FLM_INT_STATUS_DISAGREE
          if standby then s1.enterResync 4 false else s1
      else if actE % 4 ≠ 0 ∧ stbE = 0 then plan (k + 2) 5
      else if standby && b.isYield then plan b.handover 7
      else match s.flm.asked with
        | some n => if active then { plan (max n (k + 2)) 7 with flm := { (plan (max n (k + 2)) 7).flm with asked := none } } else s
        | none => s
    else s

/-- An SMP forced handover takes effect at the boundary (R354): the outputs are withheld and the chip enters PAIRING. -/
def State.flmForced (s : State) : State := if s.flm.forced ∧ s.flmState = 4 then (s.flmWithhold).flmPairing else s

/-- The checks of R357 that both chips make: 0 where they pass. -/
def State.pairCheck (s : State) (b : Heartbeat) : Nat :=
  if b.role = s.fld R.FLM_CFG_ROLE then 1
  else if b.hash ≠ s.hashBytes R.PEAL_LIVE_HASH_HASH then 2
  else if b.same = false ∨ 1000 < (ofCodeS 32 (s.fld R.FLM_SKEW_NS_NS)).natAbs then 3
  else 0

/-- The verdict of an ACTIVE chip on a returning one (R357). -/
def State.verdictOn (s : State) (b : Heartbeat) : Nat :=
  if s.fld R.FLM_STATE_RECORD_VALID = 0 then 9
  else if b.serial ≠ s.recordedSerial then 1
  else if b.cycles ≠ s.fld R.FLM_PEER_POWER_CYCLES_COUNT then 2
  else if b.gen ≠ s.fld R.FLM_GEN_LO_GEN + 2 ^ 32 * s.fld R.FLM_GEN_HI_GEN then 3
  else 8

/-- Pairing at boundary `k` (R357). A refused pair repeats the checks every second. -/
def State.flmPair (s : State) (k : Nat) : State :=
  let s0 := { s with flm := { s.flm with recheck := s.flm.recheck - 1 } }
  match s0.beatOf (k - 1) with
  | none => s0
  | some b =>
    let returning := decide ((s0.flmState = 1 ∨ s0.flmState = 6) ∧ b.state = 4)
    let judging := decide (s0.flmState = 4 ∧ (b.state = 1 ∨ b.state = 6) ∧ s0.flm.verdict = 0)
    if (returning || judging) && decide (s0.flm.recheck = 0) then
      let c := s0.pairCheck b
      if c ≠ 0 then
        let s1 := s0.setFld R.FLM_PAIR_FAIL_CODE c
        { s1 with flm := { s1.flm with recheck := s1.blocksPerSecond } }
      else if judging then
        let v := s0.verdictOn b
        let s1 := { s0 with flm := { s0.flm with verdict := v } }
        if v = 1 then s1.raise R.FLM_INT_STATUS_IDENTITY_CHANGED else s1
      else if b.verdict ≠ 0 then
        let differs := decide (s0.fld R.FLM_STATE_RECORD_VALID = 1 ∧ b.serial ≠ s0.recordedSerial)
        let s1 := if b.verdict = 1 ∨ differs = true then s0.raise R.FLM_INT_STATUS_IDENTITY_CHANGED else s0
        let s2 := if s1.flmState = 1 then s1.raise R.FLM_INT_STATUS_PAIRED else s1
        s2.enterResync (if b.verdict = 8 then 0 else b.verdict) (decide (b.verdict = 8))
      else s0
    else s0

/-- Install one object of a chunk (R358). -/
def State.installObj (s : State) : ChunkObj → State
  | .field key v => { s with regs := Tbl.set s.regs key (regReset key) v }
  | .force key v => { s with force := Tbl.set s.force key (regReset key) v }
  | .crosspoint key cur tgt remain slot entry =>
    { s with cln := { s.cln with xp := Tbl.set s.cln.xp key .zero ⟨cur, tgt, remain, slot, entry, decide (remain ≠ 0)⟩ } }
  | .factor o shift f tgt remain slot =>
    s.setOutF o { s.outF o with shiftSet := shift, f := f, target := tgt, remain := remain, slot := slot, base := (tgt, remain, slot) }
  | .coef i v => s.setCoefs i [v]
  | .filter n active fade => s.setFilt n { s.filt n with active := active, fade := fade }
  | .line n written start fade pend => s.setLine n ⟨written, start, fade, pend⟩
  | .param core w v => s.setData core w v
  | .region n words =>
    match s.cfg with
    | none => s
    | some c => match c.regionPairs[n]? with | none => s | some m => s.pairWrite m m.offset words

/-- Install the chunks due at boundary `k` (R358). -/
def State.installChunks (s : State) (k : Nat) : State :=
  let now := s.flm.chunks.filter (fun c => decide (c.1 ≤ k))
  if s.flmState ≠ 2 ∨ now = [] then s
  else
    let s1 := now.foldl (fun s c => c.2.1.foldl (fun s o => s.installObj o) s) s
    let s2 := ({ s1 with flm := { s1.flm with chunks := s1.flm.chunks.filter (fun c => !decide (c.1 ≤ k)) } }).mirrorApplied k
    if now.any (fun c => c.2.2) then
      { (s2.setFld R.FLM_RESYNC_STATUS_PHASE 2).setFld R.FLM_RESYNC_STATUS_KIB_LEFT 0 with
        flm := { s2.flm with compareAt := some k, agree := 0, bulk := 0 } }
    else s2

/-- The swap that a mirror message of the ACTIVE chip arms (R349): S, N, MODE. -/
def State.armMirrored (s : State) (swapBlk xfade mode k : Nat) : State :=
  match s.cfg, (Tbl.find s.staged s.peal.cfgs).getD none with
  | some old, some new =>
    if s.plane s.staged = plVerified ∧ s.peal.armed.isNone then
      let w := s.swapWork old new
      w.2.swapArm ⟨swapBlk, if xfade = 0 then old.sys.swapXfade else xfade, decide (mode = 1), new, k, clockChanges old new, false⟩ w.1
    else s
  | _, _ => s

/-- A realignment is accepted with token Q (R69, R349): the outputs dip over blocks Q and Q + 1. -/
def State.startRealign (s : State) (q : Nat) : State :=
  let s1 := ((s.setFld R.BLK_STATE_REALIGNING 1).setFld R.BLK_REALIGN_STATUS_BUSY 1).setFld R.BLK_REALIGN_STATUS_RESULT 0
  let s2 := { s1 with blk := { s1.blk with realign := some ⟨q, false⟩ } }
  if s2.gate.released then s2.rampOutputs q 2 false false else s2

/-- The effect of a mirror item at its block (R348, R349, R381). -/
def State.applyItem (s : State) (k : Nat) (i : MirrorItem) : State :=
  match i with
  | .clave slot absorb _ =>
    if s.flmFollows 9 then (s.setFld R.CLV_STATE_SELECTED slot).setFld R.CLV_ABSORB_NS_NS (codeS 32 absorb) else s
  | .beat n st cls ages target _ =>
    if s.flmFollows 8 ∧ s.bdefined n then
      let s1 := (s.setBstate n st).setFld (R.BEAT_STATUS_CLASS n) cls
      let s2 := s1.setBchan n { s1.bchan n with held := !target, faults := ages.map (s.blk.seq - ·) }
      s2.setFld (R.BEAT_STATUS_FAILS n) (s2.beatFails n)
    else s
  | .stream n seq _ => if s.flmFollows 7 then s.setFld (R.NET_OUT3_SEQ n) seq else s
  | .tapKeys muted _ =>
    let s1 : State := if s.flmState = 2 ∨ s.flmState = 3 then s.setFld R.TAP_MUTE_KEY_MUTED muted else s
    ({ s1 with panel := { s1.panel with inForce := muted } } : State).mirrorApplied k
  | .swapArm b x m _ => s.armMirrored b x m k
  | .swapAbort _ => if s.peal.armed.isSome then s.swapCancel plVerified else s
  | .realign q => s.startRealign q
  | .resync reason => if s.flmState = 3 then s.enterResync reason false else s
  | .entry .. => s
  | .write .. => s

/-- The block at which an item applies; an order of the peer's applies at once. -/
def itemBlk : MirrorItem → Nat
  | .entry _ _ b => b
  | .write _ _ b => b
  | .clave _ _ b => b
  | .beat _ _ _ _ _ b => b
  | .stream _ _ b => b
  | .tapKeys _ b => b
  | .swapArm _ _ _ b => b
  | .swapAbort b => b
  | .realign _ => 0
  | .resync _ => 0

/-- Apply the items due at boundary `k`. -/
def State.applyItems (s : State) (k : Nat) : State :=
  let now := s.flm.items.filter (fun i => decide (itemBlk i ≤ k))
  if now = [] then s
  else now.foldl (fun s i => s.applyItem k i) { s with flm := { s.flm with items := s.flm.items.filter (fun i => !decide (itemBlk i ≤ k)) } }

/-- What an ACTIVE chip mirrors every block beside changes, for block N + 2 (R348). -/
def State.mirrorBlock (s : State) (k : Nat) : State :=
  if s.flmState = 4 ∧ s.fld R.FLM_STATE_PEER_SEEN = 1 then
    let s1 := if s.mirrors 9 then
        s.emit (.flmItem (.clave (s.fld R.CLV_STATE_SELECTED) (ofCodeS 32 (s.fld R.CLV_ABSORB_NS_NS)) (k + 2)))
      else s
    let s2 := if s1.mirrors 8 then
        ((List.range 32).filter (fun n => s1.bdefined n)).foldl (fun s n =>
          s.emit (.flmItem (.beat n (s.bstate n) (s.fld (R.BEAT_STATUS_CLASS n)) ((s.bchan n).faults.map (s.blk.seq + 2 - ·))
            (decide (s.beatTarget n = 1)) (k + 2)))) s1
      else s1
    if s2.mirrors 7 then
      s2.net.outs.foldl (fun s e => s.emit (.flmItem (.stream e.1 (s.fld (R.NET_OUT3_SEQ e.1)) (k + 2)))) s2
    else s2
  else s

/-- An ACTIVE chip sends the bulk of a resync at 2,800 bytes per µs, on FLM_00, or on FLM_01 while FLM_00 is down (R358). -/
def State.sendBulk (s : State) (k : Nat) : State :=
  match s.cfg with
  | none => s
  | some c =>
    let link := if s.fld R.FLM_LINK_UP_00 = 1 then 0 else 1
    if s.flmState = 4 ∧ s.fld R.FLM_STATE_PEER_STATE = 2 ∧ 0 < s.flm.bulk ∧
        (s.fld R.FLM_LINK_UP_00 = 1 ∨ s.fld R.FLM_LINK_UP_01 = 1) then
      let n := min s.flm.bulk (2800 * c.blockLen * 1000000 / rateAHz c.sys.rateA)
      let left := s.flm.bulk - n
      ({ s with flm := { s.flm with bulk := left } }.setFld R.FLM_RESYNC_STATUS_KIB_LEFT (ceilDiv left 1024)).emit (.flmChunk link k n left)
    else s

/-- Bank selects after preset loads in a pair (R348): the ACTIVE chip issues them as mirrored changes once it holds RESULT from
both chips. A standby whose RESULT is not 1 enters RESYNC. -/
def State.flmPresets (s : State) (k : Nat) : State :=
  if !s.mirrors 2 then s
  else if s.flmState = 4 then
    let peerHolds := match s.flm.beats with
      | b :: _ => decide (s.fld R.FLM_STATE_PEER_SEEN = 0 ∨ b.state ≠ 3) || b.presetValid
      | [] => true
    if peerHolds then
      let s0 := { s with chm := { s.chm with owed := [], failed := false } }
      let put := fun (s : State) (c : Cmd) =>
        (s.hold { heldOf .chm c .notNeeded with mirrorAt := some (k + 2) }).emit (.flmChange .chm c none (k + 2))
      s.chm.owed.foldl (fun s o =>
        if o.2.1.all (fun b => b == o.2.1.headD 0) then put s (.bankSelect o.1 o.2.1.length o.2.2.1 (o.2.1.headD 0))
        else (o.2.1.zipIdx).foldl (fun s p => put s (.bankSelect (o.1 + p.2) 1 o.2.2.1 p.1)) s) s0
    else s
  else
    let s1 := { s with chm := { s.chm with owed := [], failed := false } }
    if s.chm.failed ∧ s.flmState = 3 then s1.enterResync 7 false else s1

/-- Count the wait to restore down by a block, or restart it (R359). -/
def State.flmWtr (s : State) : State :=
  { s with flm := { s.flm with wtr := if s.wtrRuns then s.flm.wtr - 1 else s.wtrFull } }

/-- The indices of a paired realignment are compared (R349): a standby whose peer's differs enters RESYNC. -/
def State.flmRealigned (s : State) (k : Nat) : State :=
  match s.flm.realignAt with
  | some a =>
    if a ≤ k then
      let s1 := { s with flm := { s.flm with realignAt := none } }
      match s1.flm.beats with
      | b :: _ => if s1.flmState = 3 ∧ b.same = false then s1.enterResync 3 false else s1
      | [] => s1
    else s
  | none => s

/-- Digests of data block `k − 2`, for the heartbeat of block `k` (R350). -/
def State.flmDigests (s : State) (k : Nat) : State :=
  match s.cfg with
  | none => s
  | some c => { s with flm := { s.flm with digests := ((k - 2, s.digestsOf c (k - 2)) :: s.flm.digests).take 4 } }

/-- What Flam does at token `k`. -/
def State.flmBoundary (s : State) (k : Nat) : State :=
  let s0 := s.flmRegionsAt k
  if s0.flm.operates ∧ s0.flmState ≠ 0 then
    let s1 := ({ s0 with flm := { s0.flm with ownFree := false } }.flmRealigned k).flmMissing k
    let s2 := ((((s1.flmCompare k).flmDecide k).flmEvidence).flmForced).flmYield k
    let s3 := ((((s2.flmPair k).installChunks k).applyItems k).flmPresets k).flmWtr
    s3.flmDigests k
  else s0

/-- What leaves on the Flam links after the token (R347, R348, R350, R358): the heartbeat on both, which a forced handover stops for its
block, and an ACTIVE chip's messages. -/
def State.flmSend (s : State) : State :=
  if s.flm.operates ∧ s.flmState ≠ 0 then
    let k := s.blk.index
    let s1 := if s.flm.forced then { s with flm := { s.flm with forced := false } } else s.emit (.flmHeartbeat (s.heartbeat k))
    ((s1.mirrorBlock k).sendRegions k).sendBulk k
  else s

/-! ### Commands (R360) -/

/-- The peer of an ACTIVE chip is in STANDBY. -/
def State.standbyPeer (s : State) : Bool :=
  decide (s.flmState = 4 ∧ s.fld R.FLM_STATE_PEER_STATE = 3 ∧ s.fld R.FLM_STATE_PEER_SEEN = 1)

/-- Apply a Flam command: its status, and the state after. -/
def State.flmApply (s : State) (c : Cmd) (stamp : Option Nat) : Nat × State :=
  match c with
  | .flmHandover =>
    if s.standbyPeer then (0, { s with flm := { s.flm with asked := some (stamp.getD 0) } }) else (2, s)
  | .flmResync => if s.flmState = 4 then (0, s.emit (.flmItem (.resync 5))) else (2, s)
  | _ => (2, s)

/-! ### The commands -/

def execFlmHeartbeatRx (link : Nat) (payload : List Byte) (skew : Int) (s : State) : Host.Outcome State Fault Refusal :=
  let up := if link = 0 then s.fld R.FLM_LINK_UP_00 else s.fld R.FLM_LINK_UP_01
  if s.flm.operates ∧ link < 2 ∧ up = 1 then .next (s.heartbeatRx payload skew) else .next s

/-- A resync chunk arrives in RESYNC (R358). -/
def execFlmResyncChunkRx (blk bytes : Nat) (objs : List ChunkObj) (last : Bool) (s : State) : Host.Outcome State Fault Refusal :=
  if s.flmState = 2 ∧ s.fld R.FLM_RESYNC_STATUS_PHASE = 1 then
    let left := s.flm.bulk - bytes
    let s1 := { s with flm := { s.flm with bulk := left, chunks := s.flm.chunks ++ [(blk, objs, last)] } }
    .next (s1.setFld R.FLM_RESYNC_STATUS_KIB_LEFT (ceilDiv left 1024))
  else .next s

/-- FLAM_OWN has been high for 1 µs (R353, R354): a standby takes over at the next boundary, an ISOLATED chip enters PAIRING. -/
def execFlamOwnReleased (s : State) : Host.Outcome State Fault Refusal :=
  let s1 := { s with flm := { s.flm with ownPeer := false } }
  if s1.flmState = 3 ∧ s1.flm.operates ∧ s1.fld R.FLM_STATE_PEER_STATE = 4 then .next { s1 with flm := { s1.flm with plan := some (s1.blk.index + 1, 1) } }
  else if s1.flmState = 6 then .next s1.flmPairing
  else .next s1

/-- FLAM_SEL is released (R354, R356): a primary in STANDBY drives at once and is ACTIVE at the next boundary. -/
def execFlamSelReleased (s : State) : Host.Outcome State Fault Refusal :=
  let was := s.flm.selPeer
  let s1 := { s with flm := { s.flm with selPeer := false } }
  if was ∧ s1.flmState = 3 ∧ s1.flmSecondary = false ∧ s1.flm.plan = none then
    let s2 := (List.range 32).foldl (fun s n => s.setFld (R.BEAT_STATUS_OWNED n) 1) s1
    .next { s2 with flm := { s2.flm with plan := some (s2.blk.index + 1, 3) } }
  else .next s1

/-- No token for 2 block periods (R340, R368): the AO island releases FLAM_OWN, and the main side counts as down where it
should be running. -/
def execFlmOwnWatchdog (s : State) : Host.Outcome State Fault Refusal :=
  let s1 : State := { s with flm := { s.flm with ownFree := true } }
  match s1.mode with
  | .shadow | .live | .limp => .next (s1.alert 0)
  | _ => .next s1

def execFlmTakeover (s : State) : Host.Outcome State Fault Refusal := .next s.flmTakeover

def execFlmYieldEnd (s : State) : Host.Outcome State Fault Refusal := .next s.flmYieldEnd

/-- 500 ms in PAIRING with no ACTIVE peer (R353): a primary always, a secondary where FLAM_OWN is high and no heartbeat of the
primary comes. Its outputs start afresh: ports with pre-roll, Beater channels with a diagnostic. -/
def execFlmPairingTimeout (s : State) : Host.Outcome State Fault Refusal :=
  let seen := decide (s.fld R.FLM_STATE_PEER_SEEN = 1)
  let alone := if s.flmSecondary then s.ownHigh && !seen else !(seen && decide (s.fld R.FLM_STATE_PEER_STATE = 4))
  if s.flmState = 1 ∧ s.flm.operates ∧ alone = true then
    let s0 := ((s.beatHalt 0).beatHalt 1).releaseLevels
    let s1 := ((((s0.setFlm 4).flmRelease).restartPorts).rampOutputs (s.blk.index + 1) 1 true true).raise R.FLM_INT_STATUS_TOOK_OVER
    .next { s1 with flm := { s1.flm with plan := none, verdict := 0, wtr := s1.wtrFull } }
  else .next s

def execFlmResyncComplete (s : State) : Host.Outcome State Fault Refusal := .next s.flmResyncComplete

def execFlmWtrExpiry (s : State) : Host.Outcome State Fault Refusal := .next s.flmWtrExpiry

/-- FLM_CMD_HANDOVER given as a row, unstamped: it takes effect where it stands (notes/assumptions/12). -/
def execFlmCmdHandover (s : State) : Host.Outcome State Fault Refusal := .next (s.flmApply .flmHandover none).2

def execFlmCmdResync (s : State) : Host.Outcome State Fault Refusal := .next (s.flmApply .flmResync none).2

/-- A write of FLM_HANDOVER (R361). -/
def State.flmHandoverWrite (s : State) (v : Word) : State :=
  if v.toNat / 65536 = 0xF1A3 then s.hold (heldOf .flm .flmHandover .notNeeded) else s

/-- A write of FLM_RESYNC (R361). -/
def State.flmResyncWrite (s : State) (v : Word) : State :=
  if v.toNat / 65536 = 0xF1A3 then s.hold (heldOf .flm .flmResync .notNeeded) else s

/-- The counters FLM_COUNT_CLEAR clears (R361). -/
def flmCounts : List Fld := [R.FLM_DISAGREE_COUNT_COUNT, R.FLM_TAKEOVER_COUNT_COUNT, R.FLM_LATE_COUNT_COUNT, R.FLM_REFUSED_COUNT_COUNT,
  R.FLM_HB_MISS_COUNT_COUNT]

/-- A Flam link goes down (R353, R361). -/
def execFlmLinkDown (link : Nat) (s : State) : Host.Outcome State Fault Refusal :=
  if link < 2 then
    .next ((s.setFld (if link = 0 then R.FLM_LINK_UP_00 else R.FLM_LINK_UP_01) 0).raise R.FLM_INT_STATUS_LINK_LOST)
  else .next s

/-- A Flam link comes up (R353): an ISOLATED chip moves to RESYNC; the reason it shows is not stated. -/
def execFlmLinkUp (link : Nat) (s : State) : Host.Outcome State Fault Refusal :=
  if link < 2 then
    let s1 := s.setFld (if link = 0 then R.FLM_LINK_UP_00 else R.FLM_LINK_UP_01) 1
    if s1.flmState = 6 then .next (s1.fresh.2.enterResync s1.fresh.1 false) else .next s1
  else .next s

end Sys2Proof.Machine
end

