-- ==== Sys2Proof/Machine/Sequencer.lean ====
section
/-! DEFINITION. The block sequencer (R16-R20, R66-R92, R430): rounds of tasks, dispatch, overruns, deadline misses, egress,
realignment, bridges, handshake channels. The token itself is in Token.lean. -/

namespace Sys2Proof.Machine

/-! ### Rounds (R58, R80, R88) -/

/-- Whether the round in progress dispatches a task: all but those that LIMP withholds (R88) and those of a domain whose restart failed
(R212). -/
def State.dispatched (s : State) (t : TaskRec) : Bool := (t.essential || !s.blk.limpNow) && !(s.pmu.failed.contains (domainOf t.island))

/-- The tasks of the round in progress, in SCHEDULE order: the live plane's, then the old plane's changed ones while a crossfade
runs; only essential ones while dispatch is restricted. -/
def State.roundTasks (s : State) : List (TaskRec × Bool) :=
  let live := match s.cfg with
    | none => []
    | some c => (c.tasks.filter s.dispatched).map (fun t => (t, false))
  let old := match s.old with
    | none => []
    | some o => (o.cfg.tasks.filter (fun t => s.dispatched t && decide (t.task ∈ o.tasks))).map (fun t => (t, true))
  live ++ old

/-- The tasks of the live plane that the round in progress withholds (R88, R212). -/
def State.withheldTasks (s : State) : List TaskRec :=
  match s.cfg with
  | none => []
  | some c => c.tasks.filter (fun t => !s.dispatched t)

/-- The version of task `d` that a task of one version waits for: an old-plane task waits for the old version of a changed
task, and for the task itself where it is carried over. -/
def State.depVersion (s : State) (old : Bool) (d : Nat) : Bool :=
  match s.old with
  | some o => old && decide (d ∈ o.tasks)
  | none => false

/-- Whether a task of the round may start (R80): its island has the token, the task before it on its unit has ended, and so
has every task it waits for. -/
def State.mayStart (s : State) (c : Cfg) (t : TaskRec) (old : Bool) : Bool :=
  let here := (s.roundTasks.filter (fun r => r.2 == old)).map (·.1)
  let inRound := fun (d : Nat) (v : Bool) => s.roundTasks.any (fun r => r.1.task == d && r.2 == v)
  decide (Tbl.get s.blk.arrived t.island (0, 0) = (s.blk.index, s.blk.seq)) && s.islandOn t.island &&
  here.any (fun r => r.task == t.task) && !s.hasEnded t.task old &&
  !(s.blk.running.any (fun r => r.1 == t.task && r.2.1 == old)) &&
  (match prevOnUnit here t with | none => true | some p => s.hasEnded p.task old) &&
  (c.depsOf t).all (fun d => s.hasEnded d (s.depVersion old d) || !(inRound d (s.depVersion old d))) &&
  (t.kind != 1 || (s.core t.unit).task.isNone)

/-! ### Loads (R89) -/

/-- Whether every task of an island in this round has ended. -/
def State.islandDone (s : State) (i : Nat) : Bool :=
  s.roundTasks.all (fun r => r.1.island != i || s.hasEnded r.1.task r.2)

/-- An island's measured load for a block. -/
def State.setLoad (s : State) (i load : Nat) : State := (s.setFld (R.BLK_ISL_LOAD_LAST i) load).peak (R.BLK_ISL_LOAD_PEAK i) load

/-! ### Bridges (R76-R78) -/

/-- The source of a BRIDGES record as the BRG registers number it (R77). -/
def brgSource (source : Nat) : Nat := if source / 256 = 0 then source % 256 else 16 + source % 256

/-- Samples of input that a channel keeps: its filter reaches over twice its group delay, at the highest ratio. -/
abbrev brgDepth : Nat := 512

/-- A channel takes the `xs` of its input bus into its history. -/
def State.brgPush (s : State) (outBus : Nat) (xs : List Int) : State :=
  let hist := (xs.reverse ++ Tbl.get s.blk.brg outBus []).take brgDepth
  { s with blk := { s.blk with brg := Tbl.set s.blk.brg outBus [] hist } }

/-- The group delay of a bridge kind in output samples (R76): 24 of kind 0, 40 of kinds 1 and 2. -/
def brgDelay (kind : Nat) : Nat := if kind = 0 then 24 else 40

/-- Output samples `first`, …, `n` of them, of a filter whose output sample m lies at input position m × `step` + `off`, from the
history `hist`, newest first, whose newest sample has input index `top` (R76): each is formed from the input around the instant
one group delay before it, and as far behind that instant as ahead of it. -/
def brgFilter (kind : Nat) (hist : List Int) (top : Int) (first n : Nat) (step off : Rat) : List Int :=
  (List.range n).map (fun j =>
    let d : Nat := brgDelay kind
    let hi := ((((first + j : Nat) : Int) : Rat) * step + off).floor
    let lo := (((((first + j : Nat) : Int) - ((2 * d : Nat) : Int) : Int) : Rat) * step + off).ceil
    let mid := ((((first + j : Nat) : Int) - (d : Int) : Int) : Rat) * step + off
    let window := (List.range (hi - lo + 1).toNat).map (fun i => if top < lo + i then 0 else hist.getD (top - (lo + i)).toNat 0)
    ofCodeS 24 (Config.bridgeFilter kind (mid - (mid.floor : Rat)) window % 2 ^ 24))

/-- A LOCKED channel's block: it follows its input at the fixed group delay (R76, R78, R79). Kind 0 has both rates fixed by the block
index; the position of an asynchronous source among the samples of the other clock is free within a sample period. -/
def State.brgBlock (s : State) (c : Cfg) (k n : Nat) (r : BridgeRec) : List Int × State :=
  let hist := Tbl.get s.blk.brg r.outBus []
  if r.kind = 0 then
    let di := (c.busDomain r.inBus).getD 0
    let do_ := (c.busDomain r.outBus).getD 0
    let step : Rat := (c.rate di : Rat) / (max 1 (c.rate do_) : Nat)
    (brgFilter 0 hist (((c.firstOf di (k + 1) : Nat) : Int) - 1) (c.firstOf do_ k) n step 0, s)
  else
    let f := s.fresh
    let ratio : Rat := (s.fld (R.BRG_SRC_RATIO_RATIO (brgSource r.source)) : Rat) / (2 ^ 30 : Nat)
    let step := if r.kind = 1 then ratio else 1 / ratio
    (brgFilter r.kind hist 0 0 n step (-(((n : Nat) : Rat) * step) + ((f.1 % 2 ^ 16 : Nat) : Rat) / (2 ^ 16 : Nat)), f.2)

/-- Samples that an A→C channel of a LOCKED source moves in a block: those of its clock in the block, at most 2 × BLOCK_LEN + 1
(R70, R76); which of the two whole numbers beside BLOCK_LEN × ratio is free. -/
def State.brgMoved (s : State) (c : Cfg) (src : Nat) : Nat × State :=
  let f := s.fresh
  (min (c.blockLen * s.fld (R.BRG_SRC_RATIO_RATIO src) / 2 ^ 30 + f.1 % 2) (2 * c.blockLen + 1), f.2)

/-- One channel's block (R76, R78). -/
def State.bridgeChannel (s0 : State) (c : Cfg) (k : Nat) (r : BridgeRec) : State :=
  let s := s0.brgPush r.outBus (s0.bus k r.inBus).samples
  let prev := s.bus (k + 1) r.outBus
  let src := brgSource r.source
  let st := if r.kind = 0 then 2 else s.fld (R.BRG_SRC_STATE_STATE src)
  let f := if r.kind = 2 ∧ st = 2 then s.brgMoved c src else (if r.kind = 2 then prev.samples.length else busCount c k r.outBus [], s)
  let n := f.1
  if st = 2 then
    let xs := f.2.brgBlock c k n r
    let rising := decide ((r.kind, src) ∈ s.blk.locking) && !(prev.faded || prev.late)
    xs.2.writeBus c k r.outBus (if rising then riseRamp n xs.1 else xs.1)
  else if st = 3 ∨ st = 4 then s.setBus k r.outBus ⟨fadeAfter n prev, false, true⟩
  else s.setBus k r.outBus ⟨silence n, false, false⟩

/-- The task of a bridge kind that did not run on data block `k`: its channels miss their input. -/
def State.bridgeSkip (s : State) (c : Cfg) (k kind : Nat) : State :=
  (c.bridges.filter (fun r => r.kind == kind)).foldl (fun s r => s.brgPush r.outBus (silence (s.bus k r.inBus).samples.length)) s

/-- The task of a bridge kind on data block `k`. -/
def State.bridgeRun (s : State) (c : Cfg) (k kind : Nat) : State :=
  let s1 := (c.bridges.filter (fun r => r.kind == kind)).foldl (fun s r => s.bridgeChannel c k r) s
  { s1 with blk := { s1.blk with locking := s1.blk.locking.filter (fun p => p.1 != kind) } }

/-! ### Egress (R18, R59, R85) -/

/-- The buses that an egress task takes, by what it feeds. -/
def State.egressBuses (s : State) (c : Cfg) (t : TaskRec) : List Nat :=
  if 13 ≤ t.island ∧ t.island ≤ 16 then
    (c.streams.filter (fun r => r.dirOut && r.port == t.unit)).flatMap (fun r => (List.range r.channels).map (· + r.firstBus))
  else if 22 ≤ t.island then (c.beatChans.filter (fun r => r.chan / 16 == t.unit)).map (·.inBus)
  else match s.unitFmt? (taskUnit t.island t.kind t.unit) with
    | none => []
    | some f => (List.range f.chans).map (· + f.bus)

/-- The key of an egress island's copy. -/
def egressKey (i k b : Nat) : Nat := 16384 * i + k % 2 * 8192 + b

/-- Whether bus `b` has ESSENTIAL_OUT set (R87). -/
def Cfg.essentialOut (c : Cfg) (b : Nat) : Bool := match c.bus? b with | none => false | some r => r.essentialOut

/-- Whether the writer of bus `b` is an essential task (R87). -/
def Cfg.essentialWriter (c : Cfg) (b : Nat) : Bool :=
  match c.bus? b with
  | none => false
  | some r => match c.task? r.writer with | none => false | some t => t.essential

/-- Whether LIMP keeps the block of output-facing bus `b` from egress (R88): every such bus without ESSENTIAL_OUT from the first
boundary at which dispatch is restricted, and the block that a withheld writer did not compute in the round before. -/
def State.limpBus (s : State) (c : Cfg) (b : Nat) : Bool :=
  (s.blk.limpNow && !c.essentialOut b) || (s.blk.limpPrev && !c.essentialWriter b)

/-- Bus `b` of data block `k` as egress on island `i` forms it: mixed with the old plane's while a swap fades (R59), and under the
fade rule where its writer was late (R85), LIMP withholds the bus (R88) or the egress task itself (`held`). -/
def State.egressBus (s : State) (c : Cfg) (held : Bool) (i k b : Nat) : BusBlk :=
  let x := s.bus k b
  let prev := Tbl.get s.sxm.egress (egressKey i (k + 1) b) .empty
  let limp := held || s.limpBus c b
  let lost := x.late || limp
  let n := if lost then busCount c k b prev.samples else busCount c k b x.samples
  let o := fun (j : Nat) => match s.peal.fade with
    | some f =>
      if b ∈ f.swapped then (s.swapBus k b).samples.getD j 0 else if b ∈ f.oldBuses then x.samples.getD j 0 else 0
    | none => x.samples.getD j 0
  let domain := (c.busDomain b).getD 0
  let mixed := (List.range n).map (fun j => s.swapMix c domain (k + 1) j (x.samples.getD j 0) (o j))
  if outFacing c b then
    if lost then ⟨fadeAfter n prev, x.late && !limp, true⟩ else ⟨riseAfter n prev mixed, false, x.faded⟩
  else x

/-- Whether an egress task that has ended in this round has taken bus `b`: its block is counted once (R86). -/
def State.egressTaken (s : State) (c : Cfg) (b : Nat) : Bool :=
  c.tasks.any (fun t => t.kind == 6 && s.hasEnded t.task false && decide (b ∈ s.egressBuses c t))

/-- Egress takes bus `b`: its block, with the copy kept and a faded block after a late writer counted (R85, R86). -/
def State.takeEgress (s : State) (c : Cfg) (held : Bool) (i k b : Nat) : BusBlk × State :=
  let y := s.egressBus c held i k b
  let s1 := { s with sxm := { s.sxm with egress := Tbl.set s.sxm.egress (egressKey i k b) .empty y } }
  (y, if outFacing c b && y.late && !(s.egressTaken c b) then s1.bump R.BLK_FADED_BUSES_COUNT else s1)

/-- The buses of a list, each once. -/
def State.takeAll (s : State) (c : Cfg) (held : Bool) (i k : Nat) (bs : List Nat) : Tbl BusBlk × State :=
  bs.dedup.foldl (fun a b => let r := a.2.takeEgress c held i k b; (Tbl.put a.1 b r.1, r.2)) ([], s)

/-- An egress task hands data block `k` on: to streams, a Beater half or a port. `held`: LIMP withholds the task, and its island
only fades what it holds (R88). -/
def State.egressRun (s : State) (c : Cfg) (held : Bool) (t : TaskRec) (k : Nat) : State :=
  let r := s.takeAll c held t.island k (s.egressBuses c t)
  let blk := fun (b : Nat) => Tbl.get r.1 b BusBlk.empty
  let chans := fun (first n : Nat) => (List.range n).map (fun j => (blk (first + j)).samples)
  let bad := fun (first n : Nat) => (List.range n).any (fun j => (blk (first + j)).late || (blk (first + j)).faded)
  if 13 ≤ t.island ∧ t.island ≤ 16 then
    (c.streams.filter (fun x => x.dirOut && x.port == t.unit)).foldl (fun s x =>
      s.streamGive c x.stream k (chans x.firstBus x.channels) (bad x.firstBus x.channels)) r.2
  else if 22 ≤ t.island then
    (c.beatChans.filter (fun x => x.chan / 16 == t.unit)).foldl (fun s x => s.beatGive c x.chan (blk x.inBus)) r.2
  else
    let u := taskUnit t.island t.kind t.unit
    match s.unitFmt? u with
    | none => r.2
    | some f => r.2.unitGive c u k (chans f.bus f.chans) ((List.range f.chans).map (fun j => bad (f.bus + j) 1))

/-- An ingress task writes its buses with data block `k`. -/
def State.ingressRun (s : State) (c : Cfg) (t : TaskRec) (k : Nat) : State :=
  if 13 ≤ t.island ∧ t.island ≤ 16 then s.netIngress c t.unit k else s.unitIngress c (taskUnit t.island t.kind t.unit) k

/-! ### Dispatch (R80) and overrun (R83) -/

/-- The work of a task other than a Mallet task, whole. -/
def State.taskRun (s : State) (c : Cfg) (t : TaskRec) (k : Nat) : State :=
  match t.kind with
  | 0 => s.ingressRun c t k
  | 2 => match c.geom with
    | none => s
    | some g => s.clnRunPart c g (c.partsOf t) k (t.island - 2) t.part
  | 3 => s.chmRunPart c (c.partsOf t) k (t.island - 6) t.part
  | 4 => s.dplRunPart c (c.partsOf t) k t.part
  | 5 => s.bridgeRun c k t.unit
  | 6 => s.egressRun c false t k
  | _ => s

/-- A commit of Carillon's that has still to apply at the boundary of an island (R30, R114). -/
def State.clnCommitDue (s : State) (i : Nat) : Bool :=
  decide (2 ≤ i ∧ i ≤ 5) && s.commits.any (fun p => decide (p.blk = .cln ∧ p.arr < (s.boundary .cln).2) &&
    (match p.mirrorAt with | some k => decide (k ≤ s.blk.index) | none => decide (p.whenCode = 1)))

/-- A command that has still to take effect at an island's boundary: the island starts no work before it (R17). -/
def State.dueOn (s : State) (i : Nat) : Bool :=
  s.clnCommitDue i || (decide (i = 6 ∨ i = 7) && s.owedDue) || s.held.any (fun h => decide (i ∈ s.cmdIslands h.eng h.cmd ∧ h.fetch ≠ .waiting) && !s.blocked h &&
    (s.due h || State.dueAt (Tbl.get s.blk.arrived i (0, 0)) h))

/-- A unit starts a task (R80). A Mallet task then runs as its core issues bundles; every other task does its work whole, and its
island's load is measured as it ends, at `load` 65,536ths of the block after the token. A task that would end later than the block does
not end in it: it is abandoned at the next token (R84); a Chimes part has then stored its input (R127). -/
def State.dispatch (s : State) (task : Nat) (old : Bool) (load : Nat) : State :=
  match s.verCfg old with
  | none => s
  | some c =>
    match c.task? task with
    | none => s
    | some t =>
      if s.mayStart c t old ∧ s.dueOn t.island = false then
        let k := dataBlock t.kind s.blk.index
        if t.kind = 1 then
          let s1 := s.malStart t.unit c t old k
          { s1 with blk := { s1.blk with running := (task, old, t.unit) :: s1.blk.running } }
        else if 65536 ≤ load then
          let s1 := if t.kind = 3 then s.inVersion old (fun s => s.chmStore c (c.partsOf t) k (t.island - 6) t.part) else s
          { s1 with blk := { s1.blk with running := (task, old, t.unit) :: s1.blk.running } }
        else
          let s1 := (s.inVersion old (fun s => s.taskRun c t k)).markEnded task old
          if s1.islandDone t.island then s1.setLoad t.island (min load 65534) else s1
      else s

def execTaskDispatch (task : Nat) (old : Bool) (load : Nat) (s : State) : Host.Outcome State Fault Refusal :=
  .next (s.dispatch task old load)

/-- CYCLES reaches COST (R83). -/
def execTaskOverrun (core : Nat) (s : State) : Host.Outcome State Fault Refusal := .next (s.costReached core)

/-! ### Deadline misses (R84) -/

/-- A task that has not ended when the token is issued is abandoned. -/
def State.abandon (s : State) (t : TaskRec) (old : Bool) : State :=
  let k := dataBlock t.kind s.blk.index
  let s1 := s.inVersion old (fun s =>
    match s.cfg with
    | none => s
    | some c =>
      let s' := (c.taskBuses t.task).foldl (fun s b => s.missBus c k b) s
      match t.kind with
      | 3 => s'.chmSkipPart c (c.partsOf t) (t.island - 6) t.part (s.blk.running.any (fun r => r.1 == t.task && r.2.1 == old)) false
      | 4 => s'.dplSkipPart c (c.partsOf t) t.part
      | 5 => s'.bridgeSkip c k t.unit
      | 6 => (s'.egressBuses c t).foldl (fun s b =>
          { s with sxm := { s.sxm with egress := Tbl.set s.sxm.egress (egressKey t.island k b) .empty ⟨[], true, true⟩ } }) s'
      | _ => s')
  let s2 := if t.kind = 1 then
      let ran := s1.blk.running.any (fun r => r.1 == t.task && r.2.1 == old)
      (if ran then s1.leaveTask t.unit true else s1).setTaskHist t.task old 3 (!ran)
    else s1
  (s2.countLate false t.task t.island k).markEnded t.task old

/-- What LIMP withholds (R88, R98): the buses of a task that is not dispatched are silent. -/
def State.withhold (s : State) (t : TaskRec) : State :=
  match s.cfg with
  | none => s
  | some c => (c.taskBuses t.task).foldl (fun s b => s.withholdBus c (dataBlock t.kind s.blk.index) b) s

/-- What a withheld task leaves behind at the end of its block: its engine sees a gap, and its egress island fades what it holds
(R88, R129, R142, R202). -/
def State.skip (s : State) (t : TaskRec) : State :=
  match s.cfg with
  | none => s
  | some c =>
    let k := dataBlock t.kind s.blk.index
    match t.kind with
    | 1 => s.setTaskHist t.task false (s.taskHist t.task false).1 true
    | 3 => s.chmSkipPart c (c.partsOf t) (t.island - 6) t.part false true
    | 4 => s.dplSkipPart c (c.partsOf t) t.part
    | 5 => s.bridgeSkip c k t.unit
    | 6 => if s.islandOn t.island then s.egressRun c true t k else s
    | _ => s

/-- The blocks that R88 fades or silences carry FADED in their count bytes. -/
def State.markLimp (s : State) : State :=
  match s.cfg with
  | none => s
  | some c =>
    if s.blk.limpNow then
      let k := dataBlock 6 s.blk.index
      (c.buses.filter (fun r => r.outFacing && !r.essentialOut)).foldl (fun s r =>
        s.setBus k r.bus { s.bus k r.bus with faded := true }) s
    else s

/-- The round ends at the issue of the next token: tasks that have not ended are abandoned, in SCHEDULE order (R84, R86); islands
that were late show 0xFFFF, and the load of an island whose last task was a Mallet task is one the spec does not time. -/
def State.endRound (s : State) : State :=
  let late := s.roundTasks.filter (fun r => !s.hasEnded r.1.task r.2)
  let isl := (late.map (fun r => r.1.island)).dedup
  let mals := ((s.roundTasks.filter (fun r => r.1.kind == 1)).map (fun r => r.1.island)).dedup.filter (fun i => !decide (i ∈ isl))
  let s1 := s.withheldTasks.foldl (fun s t => s.skip t) (late.foldl (fun s r => s.abandon r.1 r.2) s)
  let s2 := isl.foldl (fun s i => s.setLoad i 65535) s1
  let s3 := mals.foldl (fun s i => let f := s.fresh; f.2.setLoad i (f.1 % 65535)) s2
  let missed := isl.map (fun i => (i, Tbl.get s.blk.missed i 0 + 1))
  { s3 with blk := { s3.blk with missed := missed.foldl (fun t e => Tbl.put t e.1 e.2) [] } }

/-! ### Epoch (R68) -/

/-- BLK_EPOCH_ERR and EPOCH_OK at a token (R68, R90): `tuSample` is the domain A sample index the time unit implies. -/
def State.setEpoch (s : State) (tuSample : Nat) : State :=
  match s.cfg with
  | none => s
  | some c =>
    let e := satS 32 ((tuSample : Int) - ((s.blk.index * c.blockLen : Nat) : Int))
    let ok := decide (e.natAbs ≤ 1)
    let s1 := (s.setFld R.BLK_EPOCH_ERR_ERR (codeS 32 e)).setFld R.BLK_STATE_EPOCH_OK (flag ok)
    if s.fld R.BLK_STATE_EPOCH_OK = 1 ∧ ok = false then s1.raise R.BLK_INT_STATUS_EPOCH_ERR else s1

/-- The duration of a block in ns, rounded to the nearest. -/
def Cfg.blockNs (c : Cfg) : Nat := (roundRat (((c.blockLen * 1000000000 : Nat) : Rat) / (rateAHz c.sys.rateA : Nat))).toNat

/-- Token `k` is issued (R16): a new round begins. -/
def State.issueToken (s : State) (k tuSample : Nat) : State :=
  let ns := match s.cfg with | none => 0 | some c => c.blockNs
  let ticks := if s.fld R.BLK_TICK_DIV_DIV = 0 then 0 else s.blk.ticks + 1
  let s1 := { s with blk := { s.blk with
    index := k, ticks := ticks, seq := s.blk.seq + 1, ended := [], running := [], tokenNs := s.blk.tokenNs + ns
    limpPrev := s.blk.limpNow, limpNow := decide (s.fld R.BLK_STATE_LIMP_SCHED = 1) } }
  s1.withheldTasks.foldl (fun s t => s.withhold t) (s1.setEpoch tuSample).markLimp

/-! ### Realignment (R69, R349) -/

/-- The refusal of a realignment, 0 where it is accepted (R69). Where several cases hold, the first of the table shows
(notes/assumptions/47). -/
def State.realignRefusal (s : State) : Nat :=
  if s.swapState ≠ swIdle then 2
  else if s.mode ≠ .live ∧ s.mode ≠ .shadow then 3
  else if s.flmState ≠ 0 then 4
  else if (ofCodeS 32 (s.fld R.BLK_EPOCH_ERR_ERR)).natAbs ≤ 1 then 5
  else 0

/-- A write of BLK_REALIGN (R69, R90). A request while one runs changes nothing. -/
def State.realignRequest (s : State) (key : Nat) : State :=
  if key % 65536 = 0xB10C ∧ s.blk.realign = none then
    let r := s.realignRefusal
    if r = 0 then s.startRealign (s.blk.index + 1)
    else (s.setFld R.BLK_REALIGN_STATUS_RESULT r).raise R.BLK_INT_STATUS_REALIGN_DONE
  else s

/-- A write of FLM_REALIGN (R349): on the ACTIVE chip with a peer in STANDBY, both chips realign with Q = C + 2. -/
def State.flmRealignWrite (s : State) (v : Nat) : State :=
  if v % 65536 = 0xB10C ∧ s.blk.realign = none then
    let r := if s.swapState ≠ swIdle then 2 else if s.standbyPeer = false then 3
      else if (ofCodeS 32 (s.fld R.BLK_EPOCH_ERR_ERR)).natAbs ≤ 1 then 5 else 0
    if r = 0 then
      let q := s.blk.index + 3
      ((s.setFld R.FLM_REALIGN_STATUS_RESULT 0).startRealign q).emit (.flmItem (.realign q))
    else (s.setFld R.FLM_REALIGN_STATUS_RESULT r).raise R.FLM_INT_STATUS_REALIGN_DONE
  else s

/-- The index step is due at the next token (R69): token Q + 2. -/
def State.stepDue (s : State) : Bool :=
  match s.blk.realign with | some r => !r.done && decide (r.q + 1 ≤ s.blk.index) | none => false

/-- Token Q + 2 (R69): the index is set from the time unit, pipeline contents are discarded, ports restart, and the outputs
ramp in over the first 2 blocks of real data. -/
def State.stepIndex (s : State) (tuSample : Nat) : State :=
  match s.cfg, s.blk.realign with
  | some c, some r =>
    let k := tuSample / c.blockLen % 2 ^ 48
    let was := s.blk.index
    let s1 : State := { (s.endRound).issueToken k tuSample with
      sxm := ⟨[], [], []⟩
      net := { s.net with outs := s.net.outs.map (fun (e : Nat × OutStream) => (e.1, { e.2 with buf := [], next := none, settled := k - 1 })) } }
    let s2 : State := { s1 with
      blk := { s1.blk with realign := some { r with done := true }, restart := 5, brg := [] }
      flm := { s1.flm with
        beats := s1.flm.beats.map (fun (b : Heartbeat) => if b.blk = was then { b with blk := k - 1 } else b)
        digests := [], own := [], peer := [], realignAt := if s1.flmState = 0 then none else some (k + 1) }
      beat := { s1.beat with chans := s1.beat.chans.map (fun (e : Nat × BeatChan) => (e.1, { e.2 with nxt := none })) } }
    let s3 := { s2.restartPorts with ports := { s2.restartPorts.ports with
      units := s2.restartPorts.ports.units.map (fun (e : Nat × PortDir) => (e.1, { e.2 with buf := [] })) } }
    if s3.outputsLive then s3.rampOutputs (k + 3) 2 true true else s3
  | _, _ => s

/-- A realignment completes when the outputs are back at full level (R69, R349). -/
def State.realignEnd (s : State) : State :=
  match s.blk.realign with
  | some r =>
    if r.done then
      let s1 := { s with blk := { s.blk with restart := s.blk.restart - 1 } }
      if s1.blk.restart = 0 then
        let s2 := { s1 with blk := { s1.blk with realign := none } }
        let s3 := ((s2.setFld R.BLK_STATE_REALIGNING 0).setFld R.BLK_REALIGN_STATUS_BUSY 0).setFld R.BLK_REALIGN_STATUS_RESULT 1
        let s4 := s3.raise R.BLK_INT_STATUS_REALIGN_DONE
        if s4.flmState = 0 then s4 else (s4.setFld R.FLM_REALIGN_STATUS_RESULT 1).raise R.FLM_INT_STATUS_REALIGN_DONE
      else s1
    else s
  | none => s

/-! ### Ticks, counts and reads (R90, R430) -/

/-- DIV tokens have passed (R90). -/
def execBlkTick (s : State) : Host.Outcome State Fault Refusal :=
  let d := s.fld R.BLK_TICK_DIV_DIV
  if 0 < d ∧ d ≤ s.blk.ticks then
    .next ({ s with blk := { s.blk with ticks := s.blk.ticks - d } }.raise R.BLK_INT_STATUS_TICK)
  else .next s

/-- A read of BLK_INDEX_LO latches BLK_INDEX_HI: one latch for every master (R430). -/
def State.indexLoRead (s : State) : Nat × State :=
  (s.blk.index % 2 ^ 32, s.setFld R.BLK_INDEX_HI_INDEX (s.blk.index / 2 ^ 32))

/-- What BLK_COUNT_CLEAR clears (R90). -/
def blkCounts : List Fld :=
  [R.BLK_LATE_TOTAL_COUNT, R.BLK_OVERRUN_TOTAL_COUNT, R.BLK_LATE_LAST_OVERRUN, R.BLK_LATE_LAST_TASK, R.BLK_LATE_LAST_BLK_LO_BLK,
    R.BLK_FADED_BUSES_COUNT] ++ (List.range 26).map (fun n => R.BLK_ISL_LOAD_PEAK n) ++ (List.range 26).map (fun n => R.BLK_ISL_LATE_COUNT n)

/-! ### Bridge sources (R78, R92) -/

/-- The state of a bridge source: 0 UNUSED, 1 ACQUIRING, 2 LOCKED, 3 OUT_OF_RANGE, 4 NO_CLOCK. -/
def State.brgState (s : State) (n : Nat) : Nat := s.fld (R.BRG_SRC_STATE_STATE n)

/-- Leave LOCKED, where the source was LOCKED (R78). -/
def State.brgLeave (s : State) (n st : Nat) : State :=
  let s1 := s.setFld (R.BRG_SRC_STATE_STATE n) st
  if s.brgState n = 2 then
    let s2 := { s1 with blk := { s1.blk with locking := s1.blk.locking.filter (fun p => p.2 != n) } }
    (s2.bump (R.BRG_SRC_UNLOCK_COUNT n)).raise R.BRG_INT_STATUS_UNLOCK
  else s1

/-- The ratio has stayed within ±2 ppm for 50 ms (R78). -/
def execBrgSourceLock (source ratio : Nat) (s : State) : Host.Outcome State Fault Refusal :=
  if source < 24 ∧ s.brgState source = 1 then
    let s1 := (s.setFld (R.BRG_SRC_STATE_STATE source) 2).setFld (R.BRG_SRC_RATIO_RATIO source) ratio
    .next ({ s1 with blk := { s1.blk with locking := [(1, source), (2, source)] ++ s1.blk.locking } }.raise R.BRG_INT_STATUS_LOCK)
  else .next s

def execBrgOutOfRange (source : Nat) (s : State) : Host.Outcome State Fault Refusal :=
  if source < 24 ∧ (s.brgState source = 1 ∨ s.brgState source = 2) then .next (s.brgLeave source 3) else .next s

def execBrgNoClock (source : Nat) (s : State) : Host.Outcome State Fault Refusal :=
  if source < 24 ∧ s.brgState source ≠ 0 then .next (s.brgLeave source 4) else .next s

def execBrgAcquire (source : Nat) (s : State) : Host.Outcome State Fault Refusal :=
  if source < 24 ∧ (s.brgState source = 3 ∨ s.brgState source = 4) then .next (s.brgLeave source 1) else .next s

/-! ### Handshake channels (R15) -/

/-- A channel between two islands. -/
def State.channel (s : State) (src dst : Nat) : Channel := Tbl.get s.hsk (26 * src + dst) .empty

/-- A word enters a channel (`some`), or its oldest word is delivered (`none`): exactly once and in order. -/
def execHandshakeWord (src dst : Nat) (send : Option Word) (s : State) : Host.Outcome State Fault Refusal :=
  if src < 26 ∧ dst < 26 ∧ s.islandOn src ∧ s.islandOn dst then
    let c := s.channel src dst
    let put := fun (c' : Channel) => { s with hsk := Tbl.set s.hsk (26 * src + dst) .empty c' }
    match send, c.flight with
    | some w, fl => .next (put { c with flight := fl ++ [w] })
    | none, w :: fl => .next (put ⟨fl, w :: c.taken⟩)
    | none, [] => .next s
  else .next s

/-! ### The swap at its boundary, and its abort (R60, R61, R349) -/

/-- Boundary S (R61, R349): after a swap that changes FLAM_MIRROR a STANDBY chip enters RESYNC. -/
def State.swapAtS (s : State) : State :=
  match s.peal.armed, s.cfg with
  | some a, some old =>
    let fills := decide (a.swapAt ≤ s.blk.index ∧ (Tbl.get s.blk.arrived 12 (0, 0)).2 < s.blk.seq)
    let s1 := (if fills then s.swapFill s.blk.index else s).swapStart
    if s1.peal.armed.isNone ∧ old.mirror ≠ a.cfg.mirror ∧ s1.flmState = 3 then s1.enterResync 6 false else s1
  | _, _ => s

def execSwapStart (s : State) : Host.Outcome State Fault Refusal := .next s.swapAtS

/-- PEAL_SWAP_ABORT (R60); on an ACTIVE chip it is mirrored (R349). On a chip that follows, the peer's abort decides. -/
def State.swapAbortWrite (s : State) : State :=
  if s.flmPaired ∧ s.flmState ≠ 4 then s
  else
    let s1 := s.swapAbort
    if s.peal.armed.isSome ∧ s1.peal.armed.isNone ∧ s.flmState = 4 then s1.emit (.flmItem (.swapAbort (s.blk.index + 2))) else s1

end Sys2Proof.Machine
end

