-- ==== Sys2Proof/Machine/CommitPair.lean ====
section
/-! DEFINITION. Commits (R24-R32, R55, R119, R268, R287, R293, R314, R318, R345, R349): GO, CANCEL, and the point at which a
pending commit applies or is refused. -/

namespace Sys2Proof.Machine

/-- The island whose boundary a block's commits wait for. -/
def commitIsland : CommitBlk → Nat
  | .peal => 1
  | .cln => 2
  | .aes _ => 20
  | .net n => 13 + n
  | .tuOut _ | .wc _ | .pll _ => 25

/-- The object of R343 that a block's set belongs to; 0 where it is not mirrored (NET mirrors STREAM_MUTE only). -/
def commitObject : CommitBlk → Nat
  | .cln => 1
  | .aes _ => 6
  | .wc _ => 9
  | _ => 0

/-- Order of the last token that reached the island of a block's commits; Carillon's boundary is that of its first island. -/
def State.commitSeq (s : State) : CommitBlk → Nat
  | .cln => (s.boundary .cln).2
  | b => (Tbl.get s.blk.arrived (commitIsland b) (0, 0)).2

/-- The index of the last token that reached an island. -/
def State.islandIndex (s : State) (i : Nat) : Nat := (Tbl.get s.blk.arrived i (0, 0)).1

/-- The whole second of a block index (R314). -/
def State.wholeSecond (s : State) (k : Nat) : Nat := k / max 1 s.blocksPerSecond

/-- The shadow set of a block. -/
def State.shadowSet (s : State) (b : CommitBlk) : Tbl Nat := (commitFlds b).foldl (fun t f => Tbl.put t f.key (s.fld f)) []

/-- What a commit waits past: the order of its island's last token; for Clave's frame, the whole second. -/
def State.commitMark (s : State) (b : CommitBlk) (whenCode : Nat) : Nat :=
  match b with
  | .wc _ | .pll _ => if whenCode = 2 then s.wholeSecond (s.islandIndex 25) else s.commitSeq b
  | _ => s.commitSeq b

/-- Whether a pending commit has reached its point (R27, R28, R268, R314). -/
def State.commitPoint (s : State) (p : PendingCommit) : Bool :=
  let past := decide (p.arr < s.commitSeq p.blk)
  (match p.mirrorAt with | none => true | some k => decide (k ≤ s.blk.index) && past) &&
  (match p.blk with
    | .aes n => (p.whenCode != 1 || past) && ((s.unitFmt? (24 + n)).isNone || s.aesAtZ n)
    | .wc _ => if p.whenCode = 2 then decide (p.arr < s.wholeSecond (s.islandIndex 25)) else past
    | .pll _ => if p.whenCode = 2 then decide (p.arr < s.wholeSecond (s.islandIndex 25)) else p.whenCode = 0 || past
    | .peal => past
    | _ => p.whenCode = 0 || past)

/-- A commit of a PEAL set at its boundary (R55, R349). In a pair the ACTIVE chip checks at C, sends the result, and both chips
arm at C + 2. -/
def State.applyPeal (s : State) (p : PendingCommit) : State :=
  match p.mirrorAt with
  | some k =>
    let v := fun (f : Fld) => Tbl.get p.set f.key f.rst
    ((s.armMirrored (v R.PEAL_SWAP_BLK_LO_BLK + 2 ^ 32 * v R.PEAL_SWAP_BLK_HI_BLK) (v R.PEAL_SWAP_CTRL_XFADE)
      (v R.PEAL_SWAP_CTRL_MODE) k).putSet .peal p.set).commitDone .peal p.tag
  | none =>
    let at_ := s.blk.index + (if s.flmState = 4 then 2 else 0)
    let r := s.swapCheck p.set at_
    match r.1 with
    | .error detail => (r.2.swapDenied detail).commitFails .peal p.tag 4
    | .ok (a, work) =>
      if s.flmState = 4 then
        let put := fun (t : Tbl Nat) (f : Fld) (x : Nat) => Tbl.put t f.key x
        let set := put (put (put p.set R.PEAL_SWAP_BLK_LO_BLK (a.swapAt % 2 ^ 32)) R.PEAL_SWAP_BLK_HI_BLK (a.swapAt / 2 ^ 32))
          R.PEAL_SWAP_CTRL_XFADE a.blocks
        let s1 := { r.2 with commits := r.2.commits.map (fun (q : PendingCommit) =>
          if q.blk = CommitBlk.peal then { q with mirrorAt := some at_, set := set } else q) }
        s1.emit (.flmItem (.swapArm a.swapAt a.blocks (flag a.dip) at_))
      else ((r.2.swapArm a work).putSet .peal p.set).commitDone .peal p.tag

/-- Check and apply a pending commit at its point (R27). A mirrored one raises MIRROR_GEN (R357). -/
def State.applyCommit (s : State) (p : PendingCommit) : State :=
  let done := fun (s : State) =>
    let s1 := (s.putSet p.blk p.set).commitDone p.blk p.tag
    if p.mirrorAt.isSome then s1.mirrorApplied s.blk.index else s1
  match p.blk with
  | .peal => s.applyPeal p
  | .cln =>
    let code := s.outsetCheck p.set
    if code ≠ 0 then (s.setFld R.CLN_OUTSET_ERR_CODE code).commitFails p.blk p.tag 4 else (done s).outsetApply p.set (decide (p.whenCode = 1) || p.mirrorAt.isSome)
  | .aes n =>
    let code := s.aesCheck n p.set
    if code ≠ 0 then (s.setFld (R.AES_COMMIT_ERR_CODE n) code).commitFails p.blk p.tag 4 else done s
  | .net n =>
    let code := s.netCheck n p.set
    if code ≠ 0 then (s.setFld (R.NET_COMMIT_ERR_CODE n) code).commitFails p.blk p.tag 4 else (s.netApplySet n p.set).commitDone p.blk p.tag
  | .tuOut n =>
    let t := s.someTime
    let code := t.2.tuCheck n t.1 p.set
    if code ≠ 0 then (t.2.setTuErr n code).commitFails p.blk p.tag 4 else (done t.2).tuProgram n t.1
  | .wc n =>
    let code := s.wcCheck n p.set
    if code ≠ 0 then (s.setWcErr n code).commitFails p.blk p.tag 4 else (done s).wcStart n
  | .pll n =>
    let code := s.pllCheck n p.set
    if code ≠ 0 then (s.setFld (R.PLL_COMMIT_ERR_CODE n) code).commitFails p.blk p.tag 4 else done s

/-- Whether an immediate commit of a block applies at once (R28): an AES3 transmitter waits for its Z (R268), a word clock for
the boundary of ISL_25 (R314), and a PEAL set for its boundary (R55). -/
def commitAtOnce : CommitBlk → Bool
  | .cln | .net _ | .tuOut _ | .pll _ => true
  | _ => false

/-- GO by master `m` (R24, R26, R27, R29). An immediate commit applies at once where its block allows it; one to a mirrored set
on an ACTIVE or YIELDING chip applies on both chips two blocks later (R345). -/
def State.commitGo (s : State) (b : CommitBlk) (tag whenCode m : Nat) : State :=
  if commitPresent b && s.domainOn (commitDomain b) then
    if whenCode = 3 then s.commitRefused b tag 1
    else if whenCode = 2 ∧ commitFrame b = false then s.commitRefused b tag 2
    else if (s.pendingOf b).isSome then s.commitRefused b tag 3
    else
      let mirrored := s.mirrors (commitObject b) && decide (s.flmState = 4 ∨ s.flmState = 5)
      let p : PendingCommit := ⟨b, tag, whenCode, s.shadowSet b, s.commitMark b whenCode, m, s.heldNext,
        if mirrored then some (s.blk.index + 2) else none⟩
      let s1 := { s with commits := s.commits ++ [p], heldNext := s.heldNext + 1 }
      let s2 := if mirrored then
          s1.emit (.flmWrite (commitAddr b - 4) (BitVec.ofNat 32 (1 + 16 * whenCode + 256 * tag)) (s.blk.index + 2))
        else s1
      if s2.commitPoint p ∧ whenCode = 0 ∧ commitAtOnce b then s2.applyCommit p else s2.setFld (commitPend b) 1
  else s

/-- CANCEL (R24, R29). -/
def State.commitCancel (s : State) (b : CommitBlk) : State :=
  match s.pendingOf b with
  | none => s
  | some p => (s.dropCommit b).setFld (commitTag b) p.tag

/-- A write of xxx_COMMIT by master `m` (R24). -/
def State.commitWrite (s : State) (b : CommitBlk) (v m : Nat) : State :=
  if bit v 1 = 1 then s.commitCancel b
  else if bit v 0 = 1 then s.commitGo b (bits v 15 8) (bits v 5 4) m
  else s

/-- A pending commit reaches its point. -/
def State.commitApply (s : State) (b : CommitBlk) : State :=
  match s.pendingOf b with
  | none => s
  | some p => if s.commitPoint p then s.applyCommit p else s

def execCommitApply (b : CommitBlk) (s : State) : Host.Outcome State Fault Refusal := .next (s.commitApply b)

end Sys2Proof.Machine
end

