-- ==== Sys2Proof/Machine/Recorder.lean ====
section
/-! DEFINITION. The event recorder (R370-R379): histograms and extremes, records and their snapshots, the two flash slots,
restore, the window. -/

namespace Sys2Proof.Machine

/-! ### Histograms and extremes (R370, R371) -/

/-- The bin of a linear histogram that a value increments. -/
def linearBin (base width v : Int) : Nat := (max 0 (min 31 ((v - base) / width))).toNat

/-- The bin of a log2 histogram that a value increments. -/
def log2Bin (v : Int) : Nat := if v ≤ 0 then 0 else min 31 (Nat.log2 v.toNat + 1)

/-- Count one sample of a histogram; a bin saturates. -/
def State.binAdd (s : State) (h i : Nat) : State :=
  let k := 32 * h + i
  { s with evt := { s.evt with bins := Tbl.set s.evt.bins k 0 (min 65535 (Tbl.get s.evt.bins k 0 + 1)) } }

/-- Extremes that hold a lowest value. -/
def lowExtreme (x : Nat) : Bool := decide ((16 ≤ x ∧ x ≤ 31) ∨ (43 ≤ x ∧ x ≤ 53))

/-- An extreme after a clear: its value and minute. -/
def extremeCleared (x : Nat) : Int × Nat := (if lowExtreme x then 0x7FFFFFFF else -0x80000000, 0xFFFFFFFF)

/-- The value and minute of an extreme. -/
def State.extreme (s : State) (x : Nat) : Int × Nat := Tbl.get s.evt.extremes x (extremeCleared x)

/-- Offer a value to an extreme: it replaces the stored one only if it lies strictly beyond it. -/
def State.offer (s : State) (x : Nat) (v : Int) (minute : Nat) : State :=
  let old := (s.extreme x).1
  let beyond := if lowExtreme x then decide (v < old) else decide (old < v)
  if beyond then
    { s with evt := { s.evt with extremes := Tbl.set s.evt.extremes x (extremeCleared x) (satS 32 v, minute) } }
  else s

/-- The operating minute. -/
def State.opMinutes (s : State) : Nat := s.fld R.EVT_OP_MINUTES_MIN

/-- The reading of a temperature sensor, in 1/128 °C (R404). -/
def State.tempOf (s : State) (n : Nat) : Int := ofCodeS 16 (s.fld (R.PMU_TEMP_T n))

/-- The samples that the PMU feeds each second: sensors and supply deviations. -/
def State.samplePmu (s : State) (devs : List Int) : State :=
  let m := s.opMinutes
  let s1 := (List.range 16).foldl (fun s n =>
    let t := s.tempOf n
    ((s.binAdd n (linearBin (-5120) 768 t)).offer n t m).offer (16 + n) t m) s
  (List.range 11).foldl (fun s r =>
    match devs[r]? with
    | none => s
    | some d => ((s.binAdd (16 + r) (linearBin (-80) 5 d)).offer (32 + r) d m).offer (43 + r) d m) s1

/-- The islands of histograms 85-92. -/
abbrev loadIslands : List Nat := [8, 9, 10, 11, 2, 3, 4, 5]

/-- A rail's commanded voltage in 1/32 of its RAIL_MAX: none where the rail is not defined. -/
def State.railLevel (s : State) (r : Nat) : Option Nat :=
  let m := s.fld (R.BEAT_RAIL_CFG_RAIL_MAX r)
  if m = 0 then none else some (32 * s.fld (R.BEAT_RAIL_TARGET_COMMANDED r) / m)

/-- The per-second histograms of the main side. -/
def State.sampleBins (s : State) : State :=
  let s1 := (s.binAdd 27 (log2Bin (s.fld R.DPL_CONFLICT_RATE_LAST))).binAdd 28 (log2Bin (s.fld R.XB_CONFLICT_LAST))
  let s2 := (List.range 8).foldl (fun s r =>
    match s.railLevel r with
    | none => s
    | some v => s.binAdd (77 + r) (linearBin 0 1 v)) s1
  let s3 := (List.range 8).foldl (fun s i =>
    s.binAdd (85 + i) (linearBin 0 1 ((s.fld (R.BLK_ISL_LOAD_LAST (loadIslands.getD i 0)) * 32 / 65536 : Nat)))) s2
  let s4 := s3.binAdd 93 (linearBin (-160) 10 (ofCodeS 32 (s3.fld R.CLV_OUT_FREQ_FREQ) / 256))
  s4.binAdd 94 (log2Bin (ofCodeS 32 (s4.fld (R.TU_OFFSET_NS (s4.fld R.TU_CTRL_SYS_INST)))).natAbs)

/-- The highest of a list of numbers; 0 of none. -/
def maxOf (xs : List Nat) : Nat := xs.foldl max 0

/-- The per-second extremes of the main side. -/
def State.sampleExtremes (s : State) : State :=
  let m := s.opMinutes
  ((((((((s.offer 54 (maxOf ((List.range 26).map (fun i => s.fld (R.BLK_ISL_LOAD_PEAK i)))) m).offer 55
    (s.fld R.DPL_RT_USE_LAST) m).offer 56 (s.fld R.DPL_CONFLICT_RATE_LAST) m).offer 57 (s.fld R.XB_CONFLICT_LAST) m).offer 58
    (ofCodeS 32 (s.fld R.CLV_ABSORB_NS_NS)).natAbs m).offer 59 (ofCodeS 32 (s.fld R.BLK_EPOCH_ERR_ERR)).natAbs m).offer 61
    (maxOf ((List.range 8).map (fun r => s.fld (R.BEAT_RAIL_MEAS_MEAS r)))) m).offer 62 (s.fld R.CLV_HOLD_SECONDS_S) m)

/-- A second (R370): sensors and supplies in every mode, the rest while CTRL is on. -/
def State.secondTick (s : State) (devs : List Int) : State :=
  let s1 := s.samplePmu devs
  if s1.domainOn 2 then s1.sampleBins.sampleExtremes else s1

/-- The per-minute samples of the running minute, tagged with the operating minute in force (R370, R372). -/
def State.sampleMinute (s : State) : State :=
  let n := fun h => Tbl.get s.evt.minute h 0
  let s1 :=
    if s.domainOn 2 then
      let s2 := ((List.range 48).map (fun i => 29 + i) ++ [95]).foldl (fun (s : State) (h : Nat) => s.binAdd h (log2Bin (n h))) s
      s2.offer 60 (maxOf ((List.range 32).map (fun c => n (45 + c)))) s.opMinutes
    else s
  { s1 with evt := { s1.evt with minute := [] } }

/-! ### The record (R373) -/

/-- The live hash (R45), 0 without a live image. -/
def State.liveHash (s : State) : List Byte := s.hashBytes R.PEAL_LIVE_HASH_HASH

/-- FLAGS, BASE and WIDTH of a histogram's descriptor: BASE and WIDTH of a log2 histogram are open. -/
def histShape (h : Nat) : Nat × Int × Nat :=
  if h < 16 then (0, -40, 6)
  else if h < 27 then (0, -80, 5)
  else if 77 ≤ h ∧ h < 93 then (0, 0, 1)
  else if h = 93 then (0, -160, 10)
  else (1, ((Config.logDescr h % 65536 : Nat) : Int), Config.logDescr h / 65536)

/-- A histogram's descriptor. -/
def histDescr (h : Nat) : List Byte :=
  let d := histShape h
  leBytes 1 h ++ leBytes 1 d.1 ++ leBytes 2 0 ++ leBytes 2 (codeS 16 d.2.1) ++ leBytes 2 d.2.2

/-- A record before its CRC, of a SEQUENCE and a CAUSE. -/
def State.recordBody (s : State) (q cause : Nat) : List Byte :=
  leBytes 4 0x43525645 ++ leBytes 2 1 ++ leBytes 2 0x2000 ++ leBytes 4 q ++ leBytes 4 s.opMinutes ++
    leBytes 4 (s.fld R.EVT_POWER_CYCLES_COUNT) ++ leBytes 1 cause ++ leBytes 1 0xB1 ++ leBytes 2 0 ++ serialBytes ++
    s.liveHash.take 8 ++ leBytes 4 (s.fld R.EVT_CLEAR_COUNT_COUNT) ++ leBytes 4 (s.fld R.EVT_CLEAR_MINUTE_MIN) ++ leBytes 8 0 ++
    (List.range 96).flatMap histDescr ++
    (List.range 3072).flatMap (fun i => leBytes 2 (Tbl.get s.evt.bins i 0)) ++
    (List.range 64).flatMap (fun x => leBytes 4 (codeS 32 (s.extreme x).1) ++ leBytes 4 (s.extreme x).2) ++ leBytes 700 0

/-- A record with its CRC-32. -/
def State.record (s : State) (q cause : Nat) : List Byte :=
  let b := s.recordBody q cause
  b ++ leBytes 4 (crc32 b)

/-! ### Flash slots (R374) -/

/-- The flash offset of a record slot. -/
def recordAt (slot : Nat) : Nat := 0x6000000 + 0x10000 * slot

/-- The bytes of the record in a slot. -/
def State.slotBytes (s : State) (slot : Nat) : List Byte :=
  (List.range 8192).map (fun i => Tbl.get s.mem.flash (recordAt slot + i) 0xFF#8)

/-- A slot's block is blank. -/
def State.slotBlank (s : State) (slot : Nat) : Bool :=
  s.mem.flash.all (fun e => !decide (recordAt slot ≤ e.1 ∧ e.1 < recordAt slot + 0x10000))

/-- A record is valid: MAGIC, SIZE and CRC correct (R377). -/
def recordValid (bs : List Byte) : Bool :=
  leAt bs 0 4 == 0x43525645 && leAt bs 6 2 == 0x2000 && leAt bs 0x1FFC 4 == crc32 (bs.take 0x1FFC)

/-- Erase flash from an offset. -/
def State.flashErase (s : State) (a n : Nat) : State :=
  { s with mem := { s.mem with flash := s.mem.flash.filter (fun e => !decide (a ≤ e.1 ∧ e.1 < a + n)) } }

/-- Put bytes into flash. -/
def flashPut (t : Tbl Byte) (a : Nat) : List Byte → Tbl Byte
  | [] => t
  | b :: bs => flashPut (Tbl.set t a 0xFF#8 b) (a + 1) bs

/-- Put bytes into flash at an offset. -/
def State.flashWrite (s : State) (a : Nat) (bs : List Byte) : State :=
  { s with mem := { s.mem with flash := flashPut s.mem.flash a bs } }

/-- Bytes whose values the spec leaves open. -/
def State.freeBytes (s : State) (n : Nat) : List Byte × State := let f := s.fresh; (leBytes n f.1, f.2)

/-- Leave flash with contents that nothing states: a program or an erase that failed or was abandoned. -/
def State.flashSpoil (s : State) (a n : Nat) : State := let f := s.freeBytes n; f.2.flashWrite a f.1

/-! ### Snapshots and writes (R374-R376) -/

/-- Take a snapshot of a CAUSE and start to write its record, or let it wait for a write or a pre-erase to end. -/
def State.snapshot (s : State) (cause : Nat) : State :=
  if s.evt.writing.isSome ∨ s.evt.erasing.isSome ∨ s.fld R.EVT_STATUS_RESTORING = 1 then
    { s with evt := { s.evt with due := s.evt.due ++ [cause] } }
  else
    { s.setFld R.EVT_STATUS_WRITING 1 with evt := { s.evt with writing := some (s.record s.evt.next cause, cause) } }

/-- Take the oldest snapshot that waits. -/
def State.dueSnapshot (s : State) : State :=
  match s.evt.due with
  | [] => s
  | c :: cs => ({ s with evt := { s.evt with due := cs } } : State).snapshot c

/-- Start the pre-erase of a slot; a window that reads it goes stale (R378). -/
def State.startErase (s : State) (slot : Nat) : State :=
  { s.setFld R.EVT_STATUS_ERASING 1 with evt := { s.evt with
      erasing := some slot, cursor := if s.evt.cursor = some slot then some 2 else s.evt.cursor } }

/-- A record write ends (R374): verified, or failed, after `us` µs. A failed write leaves its slot to be erased again, and
the next SEQUENCE skips one, as R377 has it of a bad slot (notes/assumptions/42). -/
def State.recordWritten (s : State) (ok : Bool) (us : Nat) : State :=
  match s.evt.writing with
  | none => s
  | some (bs, cause) =>
    let q := s.evt.next
    let s1 := ({ s.setFld R.EVT_STATUS_WRITING 0 with evt := { s.evt with writing := none } } : State).offer 63 us s.opMinutes
    if ok then
      let s2 := (((s1.flashWrite (recordAt (q % 2)) bs).setFld R.EVT_SEQ_SEQ q).setFld R.EVT_STATUS_LAST_CAUSE cause).raise
        R.EVT_INT_STATUS_WRITTEN
      let s3 := ({ s2 with evt := { s2.evt with next := q + 1 } } : State).alert 5
      let s4 : State :=
        if cause = 4 ∧ s3.evt.clearing then
          { s3 with evt := { s3.evt with clearing := false }, smp := { s3.smp with result := some (0, []) } }
        else s3
      if cause = 2 then s4.dueSnapshot else s4.startErase ((q + 1) % 2)
    else
      let s2 := (((s1.flashSpoil (recordAt (q % 2)) 8192).bump R.EVT_WRITE_ERR_COUNT).raise R.EVT_INT_STATUS_WRITE_ERR).alert 6
      let s3 : State :=
        if cause = 4 ∧ s2.evt.clearing then
          { s2 with evt := { s2.evt with clearing := false }, smp := { s2.smp with result := some (8, []) } }
        else s2
      ({ s3 with evt := { s3.evt with next := q + 2 } } : State).startErase (q % 2)

/-- A pre-erase ends. -/
def State.preEraseDone (s : State) : State :=
  match s.evt.erasing with
  | none => s
  | some slot =>
    let s1 := (s.flashErase (recordAt slot) 0x10000).setFld R.EVT_STATUS_ERASING 0
    ({ s1 with evt := { s1.evt with erasing := none } } : State).dueSnapshot

/-- PWR_FAIL_N is asserted (R376): the partial minute's samples apply and a record with CAUSE 2 is made, unless a write is in
progress, or a pre-erase, which is abandoned. -/
def State.recorderPowerFail (s : State) : State :=
  let s1 := s.sampleMinute
  match s1.evt.erasing with
  | some slot =>
    let s2 := (s1.flashSpoil (recordAt slot) 0x10000).setFld R.EVT_STATUS_ERASING 0
    { s2 with evt := { s2.evt with erasing := none } }
  | none => if s1.evt.writing.isSome ∨ s1.fld R.EVT_STATUS_RESTORING = 1 then s1 else s1.snapshot 2

/-! ### The minute (R372) -/

/-- EVT_CTRL.PERIOD_MIN: 0 acts as 1, above 60 as 60 (R387). -/
def State.periodMin (s : State) : Nat := max 1 (min 60 (s.fld R.EVT_CTRL_PERIOD_MIN))

/-- A minute tick: OP_MINUTES, the samples of the minute that has ended, the periodic snapshot if due. -/
def State.minuteTick (s : State) : State :=
  let m := s.opMinutes
  let s1 := (s.sampleMinute).setFld R.EVT_OP_MINUTES_MIN (m + 1)
  if s1.opMinutes % s1.periodMin = 0 then s1.snapshot 1 else s1

/-! ### Clear and restore (R377, R379) -/

/-- Every bin and extreme at its cleared value. -/
def State.clearBins (s : State) : State := { s with evt := { s.evt with bins := [], extremes := [] } }

/-- A valid EVT_CLEAR (R379): it completes when its record is written. -/
def State.recorderClear (s : State) : State :=
  let s1 := ((s.clearBins).bump R.EVT_CLEAR_COUNT_COUNT).setFld R.EVT_CLEAR_MINUTE_MIN s.opMinutes
  ({ s1 with evt := { s1.evt with clearing := true } } : State).snapshot 4

/-- The newest valid record: its slot and bytes. -/
def State.newestRecord (s : State) : Option (Nat × List Byte) :=
  let a := s.slotBytes 0
  let b := s.slotBytes 1
  match recordValid a, recordValid b with
  | true, true => if leAt a 8 4 < leAt b 8 4 then some (1, b) else some (0, a)
  | true, false => some (0, a)
  | false, true => some (1, b)
  | false, false => none

/-- Take the bins, extremes and counts of a record. -/
def State.takeRecord (s : State) (bs : List Byte) : State :=
  let bins : Tbl Nat := (List.range 3072).filterMap (fun i =>
    let v := leAt bs (0x340 + 2 * i) 2
    if v = 0 then none else some (i, v))
  let exts : Tbl (Int × Nat) := (List.range 64).filterMap (fun x =>
    let v := (ofCodeS 32 (leAt bs (0x1B40 + 8 * x) 4), leAt bs (0x1B44 + 8 * x) 4)
    if v = extremeCleared x then none else some (x, v))
  (((((({ s with evt := { s.evt with bins := bins, extremes := exts } } : State).setFld R.EVT_OP_MINUTES_MIN (leAt bs 0xC 4)).setFld
    R.EVT_POWER_CYCLES_COUNT (leAt bs 0x10 4)).setFld R.EVT_SEQ_SEQ (leAt bs 8 4)).setFld R.EVT_CLEAR_COUNT_COUNT
    (leAt bs 0x30 4)).setFld R.EVT_CLEAR_MINUTE_MIN (leAt bs 0x34 4)).setFld R.EVT_STATUS_LAST_CAUSE (leAt bs 0x14 1)

/-- The cleared state, with every count 0 (R377). -/
def State.noRecord (s : State) : State :=
  s.clearBins.clearFlds [R.EVT_OP_MINUTES_MIN, R.EVT_POWER_CYCLES_COUNT, R.EVT_SEQ_SEQ, R.EVT_CLEAR_COUNT_COUNT,
    R.EVT_CLEAR_MINUTE_MIN, R.EVT_STATUS_LAST_CAUSE]

/-- A slot holds neither a valid record nor a blank block. -/
def State.slotBad (s : State) (slot : Nat) : Bool := !recordValid (s.slotBytes slot) && !s.slotBlank slot

/-- The restore after an AO reset (R377). -/
def State.restore (s : State) : State :=
  if s.fld R.EVT_STATUS_RESTORING = 0 then s
  else
    let bad := s.slotBad 0 || s.slotBad 1
    let s1 := match s.newestRecord with
      | none => s.noRecord
      | some (_, bs) => s.takeRecord bs
    let s2 := ((s1.bump R.EVT_POWER_CYCLES_COUNT).setFld R.EVT_STATUS_RESTORING 0).raise R.EVT_INT_STATUS_RESTORED
    let s3 := if bad then s2.setFld R.EVT_STATUS_BAD_SLOT 1 else s2
    let q := s3.fld R.EVT_SEQ_SEQ + (if bad then 2 else 1)
    ({ s3 with evt := { s3.evt with next := q } } : State).startErase (q % 2)

/-! ### The window (R378) -/

/-- A write of EVT_CURSOR. -/
def State.cursorWrite (s : State) (v : Nat) : State :=
  let s1 := (s.setFld R.EVT_CURSOR_SOURCE (bit v 28)).setFld R.EVT_CURSOR_WORD (bits v 12 2)
  { s1 with evt := { s1.evt with cursor := if bit v 28 = 1 then (s1.newestRecord).map (fun p => p.1) else none } }

/-- The word that EVT_WINDOW returns. The fields of a record that only a snapshot gives (SEQUENCE, CAUSE, CRC) have no stated
value in the live bank; nor has SOURCE 1 a word where flash holds no valid record. -/
def State.windowWord (s : State) : Nat × State :=
  let w := s.fld R.EVT_CURSOR_WORD
  if s.fld R.EVT_STATUS_RESTORING = 1 then (0, s)
  else if s.fld R.EVT_CURSOR_SOURCE = 0 then
    let f := s.fresh
    if w = 2 ∨ w = 2047 then (f.1 % 2 ^ 32, f.2)
    else if w = 5 then (0xB100 + f.1 % 256, f.2)
    else (leAt (s.recordBody 0 0) (4 * w) 4, s)
  else
    match s.evt.cursor with
    | some 2 => (0xFFFFFFFF, s.setFld R.EVT_STATUS_STALE 1)
    | some slot => (leAt (s.slotBytes slot) (4 * w) 4, s)
    | none => let f := s.fresh; (f.1 % 2 ^ 32, f.2)

/-- A read of EVT_WINDOW: the word, and WORD advanced. -/
def State.windowRead (s : State) : Nat × State :=
  let r := s.windowWord
  (r.1, r.2.setFld R.EVT_CURSOR_WORD ((s.fld R.EVT_CURSOR_WORD + 1) % 2048))

/-! ### The commands -/

def execEvtSecondTick (devs : List Int) (s : State) : Host.Outcome State Fault Refusal := .next (s.secondTick devs)

def execEvtMinuteTick (s : State) : Host.Outcome State Fault Refusal := .next s.minuteTick

/-- A write of EVT_REQUEST (R387). -/
def State.requestWrite (s : State) (v : Nat) : State := if bit v 0 = 1 then s.snapshot 3 else s

def execEvtRequestWrite (value : Word) (s : State) : Host.Outcome State Fault Refusal := .next (s.requestWrite value.toNat)

def execEvtRecordWritten (ok : Bool) (us : Nat) (s : State) : Host.Outcome State Fault Refusal := .next (s.recordWritten ok us)

def execEvtPreEraseDone (s : State) : Host.Outcome State Fault Refusal := .next s.preEraseDone

def execEvtCursorWrite (value : Word) (s : State) : Host.Outcome State Fault Refusal := .next (s.cursorWrite value.toNat)

end Sys2Proof.Machine
end

