-- ==== Sys2Proof/Machine/Ident.lean ====
section
/-! DEFINITION. Identity, attestation and OTP (R383-R385). -/

namespace Sys2Proof.Machine

/-! ### Attestation (R384) -/

/-- The identity public key, uncompressed SEC 1 (R383, R389). -/
def identityKey : List Byte :=
  (List.range 17).flatMap (fun i => leBytes (if i = 16 then 1 else 4) (Config.otpWord (0x15F80020 + 4 * i)))

/-- The record before its signature, over a nonce. FLAM_PAIRED is set in every Flam state but OFF, which is the unpaired one
(R353). -/
def State.attestBody (s : State) (nonce : List Byte) : List Byte :=
  leBytes 4 0x54535441 ++ leBytes 1 1 ++ leBytes 1 0xB1 ++ leBytes 1 s.mode.code ++
    leBytes 1 (flag s.cfg.isSome + 2 * flag (decide (s.flmState ≠ 0))) ++ serialBytes ++ nonce ++ s.liveHash ++
    leBytes 4 (s.fld R.PEAL_GEN_LO_GEN) ++ leBytes 4 (s.fld R.PEAL_GEN_HI_GEN) ++
    leBytes 4 (s.fld R.FLM_GEN_LO_GEN) ++ leBytes 4 (s.fld R.FLM_GEN_HI_GEN) ++
    leBytes 4 (s.fld R.EVT_POWER_CYCLES_COUNT) ++ leBytes 4 s.opMinutes ++ leBytes 4 (s.fld R.OTP_ROLLBACK_MIN_MIN) ++
    leBytes 1 (s.fld R.OTP_FP_STATE_PROGRAMMED + 16 * s.fld R.OTP_FP_STATE_REVOKED) ++ leBytes 3 0 ++ identityKey ++ leBytes 7 0

/-- The attestation record over a nonce. -/
def State.attestRecord (s : State) (nonce : List Byte) : List Byte :=
  let b := s.attestBody nonce
  b ++ (Config.identitySign (sha256 b)).take 64

/-- A write of ID_ATTEST_GO latches ID_NONCE; it is ignored while a record is being built (R389). -/
def State.attestGo (s : State) (v : Nat) : State :=
  if bit v 0 = 1 ∧ s.fld R.ID_ATTEST_STATUS_BUSY = 0 then
    { s.setFld R.ID_ATTEST_STATUS_BUSY 1 with ident := { s.ident with
        attest := some ((List.range 4).flatMap (fun i => leBytes 4 (s.fld (R.ID_NONCE_NONCE i)))) } }
  else s

/-- The record is ready (R384): it stands in ID_ATTEST, DONE is set and raises vector 1. -/
def State.attestDone (s : State) : State :=
  match s.ident.attest with
  | none => s
  | some nonce =>
    let rec' := s.attestRecord nonce
    let s1 : State := { s with ident := { s.ident with attest := none } }
    let s2 := (List.range 60).foldl (fun s i => s.setFld (R.ID_ATTEST_BYTES i) (leAt rec' (4 * i) 4)) s1
    let s3 := (s2.setFld R.ID_ATTEST_STATUS_BUSY 0).setFld R.ID_ATTEST_STATUS_DONE 1
    if s.fld R.ID_ATTEST_STATUS_DONE = 0 then s3.raiseVector 1 else s3

/-! ### OTP (R385) -/

/-- The last programmed slot that is not revoked is `slot`. -/
def State.lastSlot (s : State) (slot : Nat) : Bool :=
  s.slotUsable slot && (List.range 4).all (fun i => i == slot || !s.slotUsable i)

/-- The checks of an OTP command that fail, by RESULT. -/
def State.otpFailures (s : State) (bs : List Byte) : List Nat :=
  let op := leAt bs 4 1
  let target := leAt bs 5 1
  let slot := leAt bs 6 1
  let boot := decide (op = 1 ∧ target = 0 ∧ slot = 255)
  let fp := slice bs 0x18 32
  let pk := slice bs 0x38 65
  let need := fun (bad : Bool) (r : Nat) => if bad then [r] else []
  need (decide (leAt bs 0 4 ≠ 0x4350544F ∨ op = 0 ∨ 3 < op ∨ leAt bs 7 1 ≠ 0 ∨ leAt bs 0x79 7 ≠ 0) ||
    (decide (op ≠ 1) && fp.any (fun b => b != 0))) 2 ++
  need (slice bs 8 16 != serialBytes) 3 ++
  (if boot then need (decide (s.fld R.OTP_FP_STATE_PROGRAMMED ≠ 0)) 8
   else
    need (!s.slotUsable slot) 4 ++ need (s.slotUsable slot && (sha256 pk != s.fingerprint slot || !onCurve pk)) 5 ++
    need (s.slotUsable slot && onCurve pk &&
      !ecdsaVerify pk (sha256 (bs.take 0x80)) (beNat (slice bs 0x80 32)) (beNat (slice bs 0xA0 32))) 6) ++
  (if op = 1 then need (decide (3 < target ∨ bit (s.fld R.OTP_FP_STATE_PROGRAMMED) target = 1 ∨
      bit (s.fld R.OTP_FP_STATE_REVOKED) target = 1)) 7
   else if op = 2 then need (decide (3 < target ∨ bit (s.fld R.OTP_FP_STATE_REVOKED) target = 1)) 7 ++ need (s.lastSlot target) 10
   else if op = 3 then need (decide (63 < target ∨ target ≤ s.fld R.OTP_ROLLBACK_MIN_MIN)) 7
   else [])

/-- What an accepted command fuses. -/
def State.otpFuse (s : State) (bs : List Byte) : State :=
  let target := leAt bs 5 1
  match leAt bs 4 1 with
  | 1 =>
    ((List.range 8).foldl (fun s i => s.setFld (R.OTP_FP_FP target i) (leAt bs (0x18 + 4 * i) 4)) s).setFld
      R.OTP_FP_STATE_PROGRAMMED (withBit (s.fld R.OTP_FP_STATE_PROGRAMMED) target)
  | 2 => s.setFld R.OTP_FP_STATE_REVOKED (withBit (s.fld R.OTP_FP_STATE_REVOKED) target)
  | _ => s.setFld R.OTP_ROLLBACK_MIN_MIN target

/-- Fuse programming failed: how many of the command's fuses changed is left open; fuses only ever change one way. -/
def State.otpSpoil (s : State) (bs : List Byte) : State :=
  let target := leAt bs 5 1
  let f := s.fresh
  match leAt bs 4 1 with
  | 1 =>
    let s1 := (List.range 8).foldl (fun s i =>
      let g := s.fresh
      g.2.setFld (R.OTP_FP_FP target i) (leAt bs (0x18 + 4 * i) 4 &&& g.1)) f.2
    if f.1 % 2 = 1 then s1.setFld R.OTP_FP_STATE_PROGRAMMED (withBit (s1.fld R.OTP_FP_STATE_PROGRAMMED) target) else s1
  | 2 => if f.1 % 2 = 1 then f.2.setFld R.OTP_FP_STATE_REVOKED (withBit (s.fld R.OTP_FP_STATE_REVOKED) target) else f.2
  | _ => f.2.setFld R.OTP_ROLLBACK_MIN_MIN (max (s.fld R.OTP_ROLLBACK_MIN_MIN) (f.1 % 64))

/-- The OTP command that executes ends: its RESULT and the state after. Where several checks fail, which RESULT shows is open. -/
def State.otpRun (s : State) (bs : List Byte) (fuseOk : Bool) : Nat × State :=
  match s.otpFailures bs with
  | [] => if fuseOk then (1, s.otpFuse bs) else (9, s.otpSpoil bs)
  | [r] => (r, s)
  | r :: rs => let f := s.fresh; ((r :: rs).getD (f.1 % (rs.length + 1)) r, f.2)

/-- A write of OTP_CMD_GO; the block is latched, and a GO while a command of OTP_CMD executes is ignored. -/
def State.otpGo (s : State) (v : Nat) : State :=
  if v / 65536 = 0x07F5 ∧ s.fld R.OTP_CMD_STATUS_BUSY = 0 then
    { s.setFld R.OTP_CMD_STATUS_BUSY 1 with ident := { s.ident with
        otp := s.ident.otp ++ [((List.range 48).flatMap (fun i => leBytes 4 (s.fld (R.OTP_CMD_BYTES i))), false)] } }
  else s

/-- The oldest OTP command finishes and reports RESULT. -/
def State.otpDone (s : State) (fuseOk : Bool) : State :=
  match s.ident.otp with
  | [] => s
  | (bs, smp) :: rest =>
    let r := s.otpRun bs fuseOk
    let s1 : State := { r.2 with ident := { r.2.ident with otp := rest } }
    if smp then { s1 with smp := { s1.smp with result := some (0, leBytes 1 r.1) } }
    else (s1.setFld R.OTP_CMD_STATUS_BUSY 0).setFld R.OTP_CMD_STATUS_RESULT r.1

/-! ### The commands -/

def execIdAttestGoWrite (value : Word) (s : State) : Host.Outcome State Fault Refusal := .next (s.attestGo value.toNat)

def execAttestDone (s : State) : Host.Outcome State Fault Refusal := .next s.attestDone

def execOtpCmdGoWrite (value : Word) (s : State) : Host.Outcome State Fault Refusal := .next (s.otpGo value.toNat)

def execOtpCommandDone (fuseOk : Bool) (s : State) : Host.Outcome State Fault Refusal := .next (s.otpDone fuseOk)

end Sys2Proof.Machine
end

