-- ==== Sys2Proof/Machine/Tap.lean ====
section
/-! DEFINITION. The Tap panel (R380-R382): debounced keys and presence inputs, key mute states, mute groups, encoders, LEDs. -/

namespace Sys2Proof.Machine

/-- Mute groups 0-95 as TAP_GROUP_STATE numbers them: KIND and INDEX (R388). -/
def groupNumber (g : Nat) : Nat × Nat :=
  if g < 64 then (0, g) else if g < 72 then (1, g - 64) else if g < 88 then (2, g - 72) else (3, g - 88)

/-- TAP_GROUP_STATE_j for the key mute states `keys` (R380, R388). -/
def State.groupWord (s : State) (keys j : Nat) : Nat :=
  match s.cfg with
  | none => 0
  | some c => (List.range 32).foldl (fun n b =>
      let g := groupNumber (32 * j + b)
      if c.groupOf keys g.1 g.2 then n + 2 ^ b else n) 0

/-- The states of all groups. -/
def State.groupWords (s : State) (keys : Nat) : List Nat := (List.range 3).map (fun j => s.groupWord keys j)

/-- A chip whose keys act: unpaired, or ACTIVE (R381). -/
def State.ownKeys (s : State) : Bool := !s.flm.operates || decide (s.flmState = 0 ∨ s.flmState = 4)

/-- The key mute states change (R380, R381), for the boundaries that follow: Beater forms its state first. On an ACTIVE chip the groups of mirrored blocks take them at block N + 2, on both
chips. -/
def State.setKeyMutes (s : State) (keys : Nat) : State :=
  let s := if s.held.any (fun h => decide (h.eng = .beat) && s.due h) then s else s.beatSettleAll
  let old := s.fld R.TAP_MUTE_KEY_MUTED
  if s.ownKeys = false ∨ old = keys then s
  else
    let s1 := s.setFld R.TAP_MUTE_KEY_MUTED keys
    let s2 := if s.groupWords old = s.groupWords keys then s1 else s1.raise R.TAP_INT_STATUS_GROUP
    if s2.flm.operates ∧ s2.flmState = 4 then
      let i := MirrorItem.tapKeys keys (s2.blk.index + 2)
      ({ s2 with flm := { s2.flm with items := s2.flm.items ++ [i] } } : State).emit (.flmItem i)
    else { s2 with panel := { s2.panel with inForce := keys } }

/-- KEY_MS and PRES_MS: 0 acts as 1 (R388). -/
def State.keyMs (s : State) : Nat := max 1 (s.fld R.TAP_DEBOUNCE_KEY_MS)
def State.presMs (s : State) : Nat := max 1 (s.fld R.TAP_DEBOUNCE_PRES_MS)

/-- One debounce step: the samples in a row at the other level, and whether the input changes state. -/
def debounce (same : Bool) (run limit : Nat) : Nat × Bool :=
  if same then (0, false) else if limit ≤ run + 1 then (0, true) else (run + 1, false)

/-- A key changes its debounced state. -/
def State.keyChanged (s : State) (k : Nat) (down : Bool) : State :=
  let keys := s.fld R.TAP_KEYS_PRESSED
  let mutes := s.fld R.TAP_MUTE_KEY_MUTED
  let s1 := (s.setFld R.TAP_KEYS_PRESSED (if down then withBit keys k else withoutBit keys k)).raise R.TAP_INT_STATUS_KEY
  let s2 :=
    if down then s1.setFld R.TAP_KEY_EVT_PRESS (withBit (s1.fld R.TAP_KEY_EVT_PRESS) k)
    else s1.setFld R.TAP_KEY_EVT_RELEASED (withBit (s1.fld R.TAP_KEY_EVT_RELEASED) k)
  if bit (s.fld R.TAP_KEY_CFG_MOMENTARY) k = 1 then s2.setKeyMutes (if down then withBit mutes k else withoutBit mutes k)
  else if down then s2.setKeyMutes (if bit mutes k = 1 then withoutBit mutes k else withBit mutes k)
  else s2

/-- One key's sample. -/
def State.sampleKey (s : State) (keys k : Nat) : State :=
  let down := decide (bit keys k = 1)
  let d := debounce (decide (bit (s.fld R.TAP_KEYS_PRESSED) k = bit keys k)) (Tbl.get s.panel.keyRun k 0) s.keyMs
  let s1 : State := { s with panel := { s.panel with keyRun := Tbl.set s.panel.keyRun k 0 d.1 } }
  if d.2 then s1.keyChanged k down else s1

/-- One presence input's sample: an input is present at the level that TAP_PRES_POL names (R382). -/
def State.samplePres (s : State) (pres p : Nat) : State :=
  let now := flag (decide (bit pres p = bit (s.fld R.TAP_PRES_POL_HIGH) p))
  let was := s.fld R.TAP_PRES_PRESENT
  let d := debounce (decide (bit was p = now)) (Tbl.get s.panel.presRun p 0) s.presMs
  let s1 : State := { s with panel := { s.panel with presRun := Tbl.set s.panel.presRun p 0 d.1 } }
  if d.2 then
    ((s1.setFld R.TAP_PRES_PRESENT (if now = 1 then withBit was p else withoutBit was p)).setFld R.TAP_PRES_EVT_CHANGED
      (withBit (s1.fld R.TAP_PRES_EVT_CHANGED) p)).raise R.TAP_INT_STATUS_PRES
  else s1

/-- A sample of every key and presence input. The panel is off whenever CTRL is. -/
def State.panelSample (s : State) (keys pres : Nat) : State :=
  if s.domainOn 2 then
    (List.range 32).foldl (fun s p => s.samplePres pres p) ((List.range 16).foldl (fun s k => s.sampleKey keys k) s)
  else s

/-! ### Encoders (R382) -/

/-- The position of an encoder's inputs in the cycle in which A leads B: 00, 10, 11, 01 (A, B). -/
def quadrature (a b : Nat) : Nat := if a = b then 2 * a else if a = 1 then 1 else 3

/-- One encoder's step between two accepted levels. -/
def State.encoderStep (s : State) (e was now : Nat) : State :=
  let p := quadrature (bit was (2 * e)) (bit was (2 * e + 1))
  let q := quadrature (bit now (2 * e)) (bit now (2 * e + 1))
  if p = q then s
  else if (p + 2) % 4 = q then s.bump (R.TAP_ENC_ERR e)
  else
    let up := decide ((p + 1) % 4 = q) == Config.encoderUp
    (s.setFld (R.TAP_ENC_COUNT e) (s.fld (R.TAP_ENC_COUNT e) + (if up then 1 else 65535))).raise R.TAP_INT_STATUS_ENC

/-- A sample of the encoder inputs: bit 2e is A and bit 2e + 1 is B of encoder e. A level counts after 2 equal samples. -/
def State.encoderSample (s : State) (levels : Nat) : State :=
  if s.domainOn 2 then
    let was := s.panel.encLevel
    let now := (List.range 8).foldl (fun n i =>
      n + 2 ^ i * (if bit levels i = bit s.panel.encLast i then bit levels i else bit was i)) 0
    (List.range 4).foldl (fun s e => s.encoderStep e was now)
      { s with panel := { s.panel with encLast := levels % 256, encLevel := now } }
  else s

/-! ### LEDs (R382) -/

/-- What LED `l` shows: its duty in 256ths, and whether it blinks at 2 Hz. -/
def State.led (s : State) (l : Nat) : Nat × Bool :=
  let i := s.fld (R.TAP_LED_INDEX l)
  let d := s.fld (R.TAP_LED_DUTY l)
  let on := match s.fld (R.TAP_LED_SRC l) with
    | 1 => decide (i < 16 ∧ bit (s.fld R.TAP_MUTE_KEY_MUTED) i = 1)
    | 2 => decide (bit (s.fld R.TAP_PRES_PRESENT) i = 1)
    | _ => true
  if s.domainOn 2 then (if on then d else 0, decide (s.fld (R.TAP_LED_SRC l) = 3)) else (0, false)

/-! ### The commands -/

def execTapSample (keys pres : Nat) (s : State) : Host.Outcome State Fault Refusal := .next (s.panelSample keys pres)

def execTapEncSample (levels : Nat) (s : State) : Host.Outcome State Fault Refusal := .next (s.encoderSample levels)

/-- A write of TAP_MUTE_KEY sets the states as a press would (R380). -/
def State.muteKeyWrite (s : State) (v : Nat) : State := s.setKeyMutes (v % 65536)

end Sys2Proof.Machine
end

