-- ==== Sys2Proof/Machine/Power.lean ====
section
/-! DEFINITION. The power manager (R390-R407): resets and straps, domains, modes and requests, start-up, LIMP, power failure,
temperature; the PCIe link's events (R36, R435). -/

namespace Sys2Proof.Machine

/-! ### Domains (R390-R392) -/

/-- The domains in the order of R391. -/
abbrev powerSequence : List Nat := [2, 12, 9, 10, 3, 4, 5, 6, 7, 8, 11]

/-- The rails a domain needs (R391), as bits of PMU_RAIL_GOOD. -/
def railsOf (d : Nat) : List Nat :=
  [0, 1] ++ (match d with
    | 2 => [8, 5]
    | 12 => [10]
    | 9 => [6, 7]
    | 10 => [4, 5]
    | 11 => [9, 4]
    | _ => [])

/-- Set bits of PMU_RAIL_GOOD. -/
def State.railsGood (s : State) (rs : List Nat) : State :=
  s.setFld R.PMU_RAIL_GOOD_GOOD (rs.foldl withBit (s.fld R.PMU_RAIL_GOOD_GOOD))

/-- The main rails (R390): all but the two AO rails. -/
abbrev mainRails : List Nat := [0, 1, 4, 5, 6, 7, 8, 9, 10]

/-- The domains that are on, in the order in which they switch off. -/
def State.onDomains (s : State) : List Nat := (powerSequence.filter (fun d => s.domainState d != 0)).reverse

/-- The words in flight on channels into or out of a domain are delivered (R15). -/
def State.drainFlights (s : State) (d : Nat) : State :=
  { s with hsk := s.hsk.map (fun e =>
      if domainOf (e.1 / 26) = d ∨ domainOf (e.1 % 26) = d then
        (e.1, { e.2 with flight := [], taken := e.2.flight.reverse ++ e.2.taken }) else e) }

/-- A request to the power manager ends with a RESULT (R395, R407). -/
def State.requestEnd (s : State) (result : Nat) : State :=
  (s.setFld R.PMU_REQ_STATUS_RESULT result).raise R.PMU_INT_STATUS_REQ_DONE

/-- The request in progress, if it is this action, is done. -/
def State.requestDone (s : State) (action : Nat) : State :=
  if s.fld R.PMU_REQ_STATUS_RESULT = 2 ∧ s.fld R.PMU_REQ_STATUS_ACTION = action then s.requestEnd 1 else s

/-! ### SENTRY and the wake (R396, R398) -/

/-- Enter SENTRY: every domain except AO is to be switched off in the reverse order (R391). -/
def State.toSentry (s : State) : State :=
  let s1 := ((s.setMode .sentry).setFld R.BLK_STATE_RUN 0).setGate false
  let s2 := ((s1.setCauses 0).setFld R.PMU_LIMP_STATUS_PHASE 0)
  { s2 with pmu := { s2.pmu with
      goal := [], offs := s2.onDomains, ask := none, sleepAt := none, limpShadow := false, exitAt := none, exitAsked := false,
      hung := [], failed := [], test := false, slot := none, ptpDone := false, lost := false } }

/-- A wake (R396): CTRL and DRAM are to be switched on. `slot`: the flash slot that LOAD_FLASH names. -/
def State.wake (s : State) (slot : Option Nat) : State :=
  if s.mode = .sentry ∧ s.pmu.goal = [] then
    { s with pmu := { s.pmu with goal := [2, 12], slot := slot, tripped := false, shut := false, ptpDone := false } }
  else s

/-- BOOT_SRC as it acts: 0b11 as 0b10 (R394). -/
def State.bootSrc (s : State) : Nat := min 2 (s.fld R.SYS_STRAPS_BOOT_SRC)

/-- The wake at the release of a reset with BOOT_SRC host or flash (R393). -/
def State.wakeByStrap (s : State) : State := if s.bootSrc < 2 then s.wake none else s

/-- CTRL is on: PLL_00 locks at the boot clock, PLL_03 beside it (R398). -/
def State.ctrlOn (s : State) : State :=
  let s1 := ((s.setFld R.SYS_BOOT_STATUS_STAGE 1).setFld R.SYS_BOOT_STATUS_STRAP_ERR
    (flag (decide (s.fld R.SYS_STRAPS_BOOT_SRC = 3)))).setFld R.SYS_MODE_LIMP_CAUSE s.limpCauses
  (s1.startPll 0).startPll 3

/-- DRAM is on and trained, its hash seed drawn, both planes EMPTY (R206, R398, R434): LOAD, or TEST. The load of the boot
source starts. -/
def State.dramOn (s : State) : State :=
  let r := s.random
  let s1 := { r.2 with
    mem := { r.2.mem with dram := [], dramEpoch := 0, dramBad := [] }
    dpl := { r.2.dpl with seed := r.1 } }
  if s1.pmu.test then
    (({ s1 with pmu := { s1.pmu with test := false } } : State).setMode .test).requestDone 7
  else if s1.mode = .sentry then
    let s2 := ((s1.setMode .load).setFld R.SYS_BOOT_STATUS_STAGE 3).requestDone 2
    match s2.pmu.slot with
    | some n =>
      let s3 := ({ s2 with pmu := { s2.pmu with slot := none } } : State).setFld R.SYS_BOOT_STATUS_SLOT n
      let s4 := s3.startCopy n false
      match s4.smp.exec, s4.smp.result with
      | some c, none => if c.cmd = 0x12 then { s4 with smp := { s4.smp with result := some (0, []) } } else s4
      | _, _ => s4
    | none => if s2.bootSrc = 1 then s2.startCopy 0 true else s2
  else s1

/-- A domain's rails are good and it is switched on, or comes out of retention with its state intact (R391, R392). Domains
switch one at a time, in order; DRAM waits for PLL_00 where the main side starts. -/
def State.domainUp (s : State) (d : Nat) : State :=
  if s.pmu.goal.head? = some d ∧ s.pmu.offs = [] ∧ (d = 12 ∧ s.mode = .sentry → s.fld (R.PLL_STATUS_LOCKED 0) = 1) then
    let kept := decide (s.domainState d = 3)
    let s1 := ({ s with pmu := { s.pmu with goal := s.pmu.goal.tail } } : State).railsGood (railsOf d)
    let s2 := (islandsOf d).foldl (fun s i => s.islandUp i) (s1.setDomainState d 2)
    let s3 := if d = 9 then s2.setFld R.FLM_CFG_ROLE (s2.fld R.SYS_STRAPS_FLAM_ROLE) else s2
    if kept then s3 else if d = 2 then s3.ctrlOn else if d = 12 then s3.dramOn else s3
  else s

/-- A domain drains its channels and is switched off (R391). -/
def State.domainOffNext (s : State) (d : Nat) : State :=
  if s.pmu.offs.head? = some d then
    ({ s with pmu := { s.pmu with offs := s.pmu.offs.tail } } : State).drainFlights d |>.domainDown d
  else s

/-- Rails not good within 100 ms of a request (R391): it fails with RAIL_BAD, and the device stays in or returns to SENTRY.
RESULT has no code for it. -/
def State.railTimeout (s : State) : State :=
  if s.pmu.goal = [] then s
  else
    let s1 := (s.toSentry).raise R.PMU_INT_STATUS_RAIL_BAD
    let s2 : State := match s1.smp.exec, s1.smp.result with
      | some c, none => if c.cmd = 0x12 then { s1 with smp := { s1.smp with result := some (5, []) } } else s1
      | _, _ => s1
    if s2.fld R.PMU_REQ_STATUS_RESULT = 2 then s2.fresh.2.requestEnd s2.fresh.1 else s2

/-! ### Resets (R393, R394) -/

/-- Sample the straps at the release of a reset that includes the main side. -/
def State.sampleStraps (s : State) (straps : Nat) : State :=
  let s1 := (s.setFld R.SYS_STRAPS_BOOT_SRC (bits straps 1 0)).setFld R.SYS_STRAPS_FLAM_ROLE (bit straps 2)
  { s1 with pmu := { s1.pmu with straps := straps % 16 } }

/-- Every domain except AO is switched off without draining (R393, R403): words in flight are discarded. -/
def State.mainOff (s : State) : State :=
  let s0 := if s.domainOn 2 then s.alert 0 else s
  let s1 := s0.toSentry
  let s2 := powerSequence.foldl (fun s d => (s.dropFlights d).domainDown d) s1
  { s2 with pmu := { s2.pmu with offs := [] } }

/-- A main-side reset with its cause bit, and the straps sampled at its release. -/
def State.mainReset (s : State) (cause : Fld) (straps : Nat) : State := ((s.mainOff).setFld cause 1).sampleStraps straps

/-- What a reset of everything keeps: the flash, OTP, the lines the peer drives, the commands that wait and the model's own
records. -/
def State.wiped (s : State) : State :=
  let otp := fun (e : Nat × Nat) => decide (0x15F80400 * 32 ≤ e.1 ∧ e.1 < 0x15F80488 * 32)
  let s0 : State := match s.evt.writing with
    | some _ => s.flashSpoil (recordAt (s.evt.next % 2)) 8192
    | none => s
  let s1 : State := match s.evt.erasing with
    | some slot => s0.flashSpoil (recordAt slot) 0x10000
    | none => s0
  { State.reset with
    pending := s1.pending
    freeCtr := s1.freeCtr
    sent := s1.sent
    regs := s1.regs.filter otp
    mem := { State.reset.mem with flash := s1.mem.flash }
    flm := { Flm.idle with ownPeer := s1.flm.ownPeer, selPeer := s1.flm.selPeer } }

/-- The internal power-on reset or AO_RESET_N (R393): everything, with the straps latched and the recorder restoring. -/
def State.aoReset (s : State) (por : Bool) (straps : Nat) : State :=
  let rails := if por then 12 else s.fld R.PMU_RAIL_GOOD_GOOD
  let s1 := ((s.wiped).setFld R.PMU_RAIL_GOOD_GOOD rails).setFld (if por then R.PMU_RESET_CAUSE_POR else R.PMU_RESET_CAUSE_AO_RESET_N) 1
  ((s1.sampleStraps straps).setFld R.SYS_STRAPS_SMP_MODE (bit straps 3)).setFld R.SMP_STATUS_READ_ONLY (bit straps 3)

/-- VDD_AO is lost (R340): every AO state is gone until the power-on reset. -/
def State.aoLoss (s : State) : State := (s.wiped).setFld R.EVT_STATUS_RESTORING 0

/-- A write of SYS_RESET (R393, R406). -/
def State.sysReset (s : State) (v straps : Nat) : State :=
  if v / 65536 = 0x5A1D then (s.mainReset R.PMU_RESET_CAUSE_SOFTWARE straps).wakeByStrap else s

/-! ### Requests (R395, R396) -/

/-- The modes in which an action is taken (R396). -/
def actionModes : Nat → List Mode
  | 1 => [.load, .shadow, .live, .limp]
  | 2 => [.sentry]
  | 3 => [.shadow]
  | 4 => [.live]
  | 5 => [.limp]
  | 6 => [.shadow, .live, .limp]
  | 7 => [.sentry, .shadow]
  | _ => [.test]

/-- The main side is reset and started for TEST (R396). -/
def State.startTest (s : State) : State :=
  let s1 := s.mainOff
  { s1 with pmu := { s1.pmu with goal := [2, 12], test := true } }

/-- An accepted action acts: at once where no tokens are issued, and for the requests that only set or clear a cause; else at
the next domain A boundary. -/
def State.actionTaken (s : State) (action : Nat) : State :=
  match action with
  | 2 => s.wake none
  | 5 => ({ s with pmu := { s.pmu with exitAsked := true } } : State).dropCause causeRequest
  | 6 => if s.mode = .limp then (s.addCause causeRequest).requestDone 6 else s.addCause causeRequest
  | 8 => (s.toSentry).requestDone 8
  | 1 => if s.mode = .load then (s.toSentry).requestDone 1 else { s with pmu := { s.pmu with ask := some 1 } }
  | 7 => if s.mode = .sentry then s.startTest else { s with pmu := { s.pmu with ask := some 7 } }
  | n => { s with pmu := { s.pmu with ask := some n } }

/-- A request to the power manager (R395): its action and key. -/
def State.pmuRequest (s : State) (action key : Nat) : State :=
  let s1 := s.setFld R.PMU_REQ_STATUS_ACTION action
  if action = 0 ∨ 8 < action then s1.requestEnd 6
  else if action = 7 ∧ key ≠ 0x7E5A then s1.requestEnd 5
  else if (action = 3 ∨ action = 4) ∧ s.flm.operates then s1.requestEnd 4
  else if !(actionModes action).contains s.mode then s1.requestEnd 3
  else (s1.setFld R.PMU_REQ_STATUS_RESULT 2).actionTaken action

/-! ### LIMP (R399-R402) -/

/-- A hung island's domain is reset without draining and restarts from the live plane (R401); after an
uncorrectable error in the read of that it stays reset (R212). CTRL and DRAM hold the sequencer
and the live plane themselves and are not restarted (notes/assumptions/43). -/
def State.restartDomain (s : State) (d : Nat) : State :=
  match s.cfg with
  | none => s
  | some c =>
    if 3 ≤ d ∧ d ≤ 11 ∧ s.domainOn d then
      let s1 := (s.dropFlights d).resetDomain d
      match s.mem.firstBad (planeBase s.livePlane) (leAt (s.mem.dramRead (planeBase s.livePlane) 0x10) 0x0C 4) with
      | some w =>
        let s2 := (s1.countUe w).raise R.PEAL_INT_STATUS_PLANE_ECC
        { s2 with pmu := { s2.pmu with failed := s2.pmu.failed ++ [d] } }
      | none => s1.domainLoad c d
    else s

/-- Restart the domains of the hung islands. -/
def State.restartHung (s : State) : State :=
  let ds := (s.pmu.hung.map domainOf).dedup
  ds.foldl (fun s d => s.restartDomain d) { s with pmu := { s.pmu with hung := [] } }

/-- LIMP entry at boundary `k` (R401): a request that waits and is not taken in LIMP is refused. -/
def State.limpEnter (s : State) (k : Nat) : State :=
  let r := match s.pmu.ask with
    | none => s
    | some a => if a = 1 then s else s.requestEnd 3
  let s0 : State := { r with pmu := { r.pmu with
    limpShadow := decide (r.mode = .shadow), limpAt := k, ask := if r.pmu.ask = some 1 then some 1 else none, exitAt := none, exitAsked := false } }
  let s1 := (((s0.setMode .limp).setFld R.BLK_STATE_LIMP_SCHED 1).setFld R.PMU_LIMP_STATUS_PHASE 1).bump R.PMU_LIMP_COUNT_COUNT
  let s2 := ((s1.raise R.PMU_INT_STATUS_LIMP_ENTER).alert 1).requestDone 6
  let s3 := if s2.fld (R.PLL_STATUS_FALLBACK 0) = 1 then s2 else s2.toFallback
  (s3.swapLimp).restartHung

/-- A cause of LIMP is present in SHADOW or LIVE. -/
def State.limpDue (s : State) : Bool := decide ((s.mode = .shadow ∨ s.mode = .live) ∧ s.limpCauses ≠ 0)

/-- The domains that hold an essential task. -/
def Cfg.essentialDomains (c : Cfg) : List Nat := (c.tasks.filter (·.essential)).map (fun t => domainOf t.island)

/-- BEAT's gates are low whenever it is not on (R391). -/
def State.gatesLowOf (s : State) (d : Nat) : State := if d = 11 then s.gatesLow else s

/-- Under THERMAL, 2 blocks after entry, the domains without an essential task enter retention (R392, R401). CTRL, which issues
the tokens, stays on. -/
def State.limpRetention (s : State) : State :=
  match s.cfg with
  | none => s
  | some c =>
    if s.mode = .limp ∧ bit s.limpCauses causeThermal = 1 ∧ s.pmu.limpAt + 2 ≤ s.blk.index then
      (powerSequence.filter (fun d => d != 2 && decide (s.domainState d = 2) && !c.essentialDomains.contains d)).reverse.foldl
        (fun s d => (islandsOf d).foldl (fun s i => s.islandDown i) (((s.drainFlights d).gatesLowOf d).setDomainState d 3)) s
    else s

/-- The exit conditions of LIMP hold at boundary `k`: X (R402). Domains in retention are to be restored. -/
def State.limpExitStart (s : State) (k : Nat) : State :=
  if s.mode = .limp ∧ s.limpCauses = 0 ∧ s.pmu.exitAt = none ∧ (s.fld R.PMU_CTRL_LIMP_AUTO_EXIT = 1 ∨ s.pmu.exitAsked) then
    let back := powerSequence.filter (fun d => decide (s.domainState d = 3) && !s.pmu.goal.contains d)
    { s.setFld R.PMU_LIMP_STATUS_PHASE 2 with pmu := { s.pmu with exitAt := some (k + 2), goal := s.pmu.goal ++ back } }
  else s

/-- Boundary L (R402): every island returns to PLL_00 at its token arrival; one that has the token already returns now. -/
def State.limpReturn (s : State) : State :=
  match s.pmu.exitAt with
  | some l =>
    if s.mode = .limp ∧ l ≤ s.blk.index ∧ s.pmu.goal = [] ∧ s.limpCauses = 0 ∧ s.fld R.PMU_LIMP_STATUS_PHASE = 2 then
      let s0 := ((List.range 26).filter (fun i => i != 0 && decide ((Tbl.get s.blk.arrived i (0, 0)).2 = s.blk.seq))).foldl
        (fun s i => s.islandReturn i) (s.setFld (R.PLL_STATUS_FALLBACK 0) 0)
      let s1 := s0.setFld R.PMU_LIMP_STATUS_PHASE 3
      { s1 with pmu := { s1.pmu with lost := false } }
    else s
  | none => s

/-- L + 1 (R402): full dispatch resumes and the mode returns. -/
def State.limpLeave (s : State) : State :=
  if s.mode = .limp ∧ s.fld R.PMU_LIMP_STATUS_PHASE = 3 then
    let m := if s.pmu.limpShadow then Mode.shadow else Mode.live
    let s1 := ((s.setMode m).setFld R.BLK_STATE_LIMP_SCHED 0).setFld R.PMU_LIMP_STATUS_PHASE 0
    (({ s1 with pmu := { s1.pmu with exitAt := none, exitAsked := false } } : State).raise R.PMU_INT_STATUS_LIMP_EXIT).requestDone 5
  else s

/-- A cause's clear condition is met (R400); REQUEST is cleared by LIMP_EXIT only. -/
def State.causeClear (s : State) (cause : Nat) : State :=
  match cause with
  | 0 => if s.fld (R.PLL_STATUS_LOCKED 0) = 1 then s.dropCause causeClock else s
  | 1 => if (List.range 16).all (fun n => decide (s.tempOf n < 140 * 128)) then s.dropCause causeThermal else s
  | 2 => if s.pmu.hung = [] ∧ s.pmu.failed = [] then s.dropCause causeIsland else s
  | 3 => (s.railsGood mainRails).dropCause causeRail
  | _ => s

/-- An island has not accepted its token, or has missed a deadline in each of 16 blocks in a row (R400). -/
def State.islandHang (s : State) (i : Nat) : State :=
  let late := decide ((Tbl.get s.blk.arrived i (0, 0)).2 < s.blk.seq)
  if i < 26 ∧ s.islandOn i ∧ (late ∨ 16 ≤ Tbl.get s.blk.missed i 0) then
    match s.mode with
    | .shadow | .live | .limp =>
      ({ s with pmu := { s.pmu with hung := if i ∈ s.pmu.hung then s.pmu.hung else s.pmu.hung ++ [i] } } : State).addCause causeIsland
    | _ => s
  else s

/-- A main rail drops or is removed (R390, R400). -/
def State.railDrop (s : State) (rail : Nat) : State :=
  if mainRails.contains rail then
    (s.setFld R.PMU_RAIL_GOOD_GOOD (withoutBit (s.fld R.PMU_RAIL_GOOD_GOOD) rail)).addCause causeRail
  else s

/-! ### Boundaries (R396, R397) -/

/-- What the power manager does at boundary `k` before its token is issued: LIMP, then the request that waits, in the order of
precedence of R396. -/
def State.pmuBoundary (s : State) (k : Nat) : State :=
  if s.pmu.sleepAt = some k then (s.toSentry).requestDone 1
  else if s.limpDue then s.limpEnter k
  else
    let s1 := if s.mode = .limp ∧ s.pmu.hung ≠ [] then s.restartHung else s
    let s2' := s1.limpLeave
    let s2 := if s2'.limpDue then s2'.limpEnter k else s2'.limpExitStart k
    let s3 : State := if s2.pmu.pwrFail ∧ s2.pmu.handed = false ∧ s2.gate.released then s2.rampOutputs k 2 false false else s2
    if s3.pmu.sleepAt.isSome then s3
    else
      let s4 : State := { s3 with pmu := { s3.pmu with ask := none } }
      match s3.pmu.ask with
      | some 1 =>
        let s5 : State := { s4 with pmu := { s4.pmu with sleepAt := some (k + 2) } }
        if s5.flmState = 4 then { s5 with flm := { s5.flm with forced := true } }
        else if s5.gate.released then s5.rampOutputs k 2 false false else s5
      | some 3 => if s4.mode = .shadow then ((s4.setMode .live).rampOutputs k 1 true true).requestDone 3 else s4.requestEnd 3
      | some 4 => if s4.mode = .live then ((s4.setMode .shadow).rampOutputs k 2 false false).requestDone 4 else s4.requestEnd 3
      | some 7 => s4.startTest
      | _ => s4

/-! ### The first token (R398) -/

/-- Stage 5 is complete: every domain of the image is on, the PLLs in use are LOCKED, and the wait for network time is over. -/
def State.bootReady (s : State) (c : Cfg) : Bool :=
  decide (s.mode = .load ∧ s.pmu.goal = [] ∧ s.fld R.BLK_STATE_RUN = 0 ∧ s.fld (R.PLL_STATUS_LOCKED 0) = 1 ∧
    s.fld (R.PLL_STATUS_LOCKED 1) = 1 ∧ (c.sys.rateB = 0 ∨ s.fld (R.PLL_STATUS_LOCKED 2) = 1) ∧
    (s.fld R.PMU_CTRL_WAIT_PTP = 0 ∨ s.pmu.ptpDone = true ∨ s.fld (R.TU_SERVO_STATE_STATE (s.fld R.TU_CTRL_SYS_INST)) = 3))

/-- Stage 6: the first token, with its index set from the time unit (R67, R68), and the mode of START_MODE, or SHADOW and
PAIRING when Flam operates (R342, R353). -/
def State.firstToken (s : State) (tuSample : Nat) : State :=
  match s.cfg with
  | none => s
  | some c =>
    if s.bootReady c then
      let k := tuSample / max 1 c.blockLen % 2 ^ 48
      let live := decide (c.sys.startMode = 1) && !s.flm.operates
      let s1 := (s.setFld R.SYS_BOOT_STATUS_STAGE 6).setFld R.BLK_STATE_RUN 1
      let s2 := (s1.setMode (if live then .live else .shadow)).raise R.SYS_INT_STATUS_BOOT_DONE
      let s3 := s2.issueToken k tuSample
      let s4 := if live then s3.rampOutputs k 1 true true else s3.setGate false
      if s4.flm.operates then s4.flmPairing else s4.setFlm 0
    else s

/-- 30 s without a servo lock (R398). -/
def State.ptpTimeout (s : State) : State :=
  if s.mode = .load ∧ s.cfg.isSome ∧ s.fld R.PMU_CTRL_WAIT_PTP = 1 ∧ s.fld R.BLK_STATE_RUN = 0 then
    { s.setFld R.SYS_BOOT_STATUS_PTP_TIMEOUT 1 with pmu := { s.pmu with ptpDone := true } }
  else s

/-! ### Temperature (R404, R405) -/

/-- The warning threshold in 1/128 °C: below 60 acts as 60, above 140 as 140 (R407). -/
def State.warnAt (s : State) : Int := 128 * ((max 60 (min 140 (s.fld R.PMU_THERM_CFG_WARN_C)) : Nat) : Int)

/-- The hottest sensor. -/
def hottest (temps : List Int) : Nat × Int :=
  (temps.zipIdx).foldl (fun m p => if m.2 < p.1 then (p.2, p.1) else m) (0, temps.headD 0)

/-- The sixteen sensors are read. -/
def State.tempSample (s : State) (temps : List Int) : State :=
  let ts := (List.range 16).map (fun n => satS 16 (temps.getD n 0))
  let m := hottest ts
  let s1 := (ts.zipIdx).foldl (fun s p => s.setFld (R.PMU_TEMP_T p.2) (codeS 16 p.1)) s
  let s2 := (s1.setFld R.PMU_TEMP_MAX_SENSOR m.1).setFld R.PMU_TEMP_MAX_T (codeS 16 m.2)
  let hot := (List.range 16).filter (fun n => decide (150 * 128 ≤ ts.getD n 0))
  let again := hot.any (fun n => s.pmu.hot.contains n)
  let s3 : State := { s2 with pmu := { s2.pmu with hot := hot } }
  let s4 := if again then s3.addCause causeThermal else s3
  if s4.pmu.warn then
    if m.2 < s4.warnAt - 5 * 128 then { s4 with pmu := { s4.pmu with warn := false } } else s4
  else if s4.warnAt ≤ m.2 then
    ((({ s4 with pmu := { s4.pmu with warn := true } } : State).raise R.PMU_INT_STATUS_THERM_WARN).alert 2)
  else s4

/-- The hard trip: a main-side reset, then SENTRY (R405). -/
def State.thermalTrip (s : State) (straps : Nat) : State :=
  let s1 := (s.mainReset R.PMU_RESET_CAUSE_THERMAL straps).raise R.PMU_INT_STATUS_THERM_TRIP
  { s1 with pmu := { s1.pmu with tripped := true } }

/-! ### Power failure (R403) -/

/-- PWR_FAIL_N is asserted. -/
def State.pwrFailAssert (s : State) : State :=
  if s.pmu.pwrFail then s
  else
    let s1 := ((s.recorderPowerFail).raise R.PMU_INT_STATUS_PWR_FAIL).alert 3
    let active := decide (s1.flmState = 4)
    { s1 with pmu := { s1.pmu with pwrFail := true, handed := active }, flm := { s1.flm with forced := s1.flm.forced || active } }

/-- PWR_FAIL_N is still asserted after 1 ms: the main side is switched off without draining. -/
def State.pwrFailShutdown (s : State) : State :=
  if s.pmu.pwrFail ∧ (s.mode ≠ .sentry ∨ s.pmu.goal ≠ []) then
    let s1 := ((s.mainOff).bump R.PMU_PF_COUNT_SHUTDOWN).setFld R.PMU_RESET_CAUSE_PWR_FAIL 1
    { s1 with pmu := { s1.pmu with shut := true, handed := false } }
  else s

/-- PWR_FAIL_N deasserts: within 1 ms the outputs ramp back in over 2 blocks, unless the chip has handed over. -/
def State.pwrFailDeassert (s : State) : State :=
  if s.pmu.pwrFail then
    let s1 : State := { s with pmu := { s.pmu with pwrFail := false, handed := false } }
    if s.pmu.shut then s1
    else
      let s2 := s1.bump R.PMU_PF_COUNT_GLITCH
      if s.pmu.handed = false ∧ s2.outputsLive ∧ s2.gate.released = false then s2.rampOutputs (s2.blk.index + 1) 2 true true else s2
  else s

/-! ### The PCIe link (R36, R435) -/

/-- The link has finished training. -/
def State.pcieUp (s : State) (width speed : Nat) : State :=
  if s.domainOn 2 then ((s.setFld R.HIF_LINK_UP 1).setFld R.HIF_LINK_WIDTH width).setFld R.HIF_LINK_SPEED speed else s

/-! ### The commands -/

def execSleep (s : State) : Host.Outcome State Fault Refusal := .next (s.pmuRequest 1 0)

def execWake (s : State) : Host.Outcome State Fault Refusal := .next (s.pmuRequest 2 0)

def execGoLive (s : State) : Host.Outcome State Fault Refusal := .next (s.pmuRequest 3 0)

def execGoShadow (s : State) : Host.Outcome State Fault Refusal := .next (s.pmuRequest 4 0)

def execLimpEnter (s : State) : Host.Outcome State Fault Refusal := .next (s.pmuRequest 6 0)

def execLimpExit (s : State) : Host.Outcome State Fault Refusal := .next (s.pmuRequest 5 0)

def execTestEnter (key : Nat) (s : State) : Host.Outcome State Fault Refusal := .next (s.pmuRequest 7 key)

def execTestExit (s : State) : Host.Outcome State Fault Refusal := .next (s.pmuRequest 8 0)

/-- LIMP is entered where a cause is present. -/
def execLimpEntry (s : State) : Host.Outcome State Fault Refusal :=
  if s.limpDue then .next (s.limpEnter s.blk.index) else .next s

def execLimpRetention (s : State) : Host.Outcome State Fault Refusal := .next s.limpRetention

def execLimpCauseClear (cause : Nat) (s : State) : Host.Outcome State Fault Refusal := .next (s.causeClear cause)

def execLimpReturn (s : State) : Host.Outcome State Fault Refusal := .next s.limpReturn

def execIslandHang (island : Nat) (s : State) : Host.Outcome State Fault Refusal := .next (s.islandHang island)

def execRailDrop (rail : Nat) (s : State) : Host.Outcome State Fault Refusal := .next (s.railDrop rail)

def execResetNAssert (straps : Nat) (s : State) : Host.Outcome State Fault Refusal :=
  .next (s.mainReset R.PMU_RESET_CAUSE_RESET_N straps).wakeByStrap

def execAoReset (por : Bool) (straps : Nat) (s : State) : Host.Outcome State Fault Refusal := .next (s.aoReset por straps)

def execDomainOn (d : Nat) (s : State) : Host.Outcome State Fault Refusal := .next (s.domainUp d)

def execDomainOff (d : Nat) (s : State) : Host.Outcome State Fault Refusal := .next (s.domainOffNext d)

def execRailTimeout (s : State) : Host.Outcome State Fault Refusal := .next s.railTimeout

def execBootFirstToken (tuSample : Nat) (s : State) : Host.Outcome State Fault Refusal := .next (s.firstToken tuSample)

def execPtpWaitTimeout (s : State) : Host.Outcome State Fault Refusal := .next s.ptpTimeout

def execPmuTempSample (temps : List Int) (s : State) : Host.Outcome State Fault Refusal := .next (s.tempSample temps)

def execThermalTrip (straps : Nat) (s : State) : Host.Outcome State Fault Refusal := .next (s.thermalTrip straps)

/-- After a hard trip, every sensor below 120 °C for 10 s (R405). -/
def execThermRestartWake (s : State) : Host.Outcome State Fault Refusal :=
  if s.pmu.tripped ∧ s.fld R.PMU_CTRL_THERM_RESTART = 1 ∧ (List.range 16).all (fun n => decide (s.tempOf n < 120 * 128)) then
    .next (s.wake none)
  else .next s

def execPwrFailAssert (s : State) : Host.Outcome State Fault Refusal := .next s.pwrFailAssert

def execPwrFailShutdown (s : State) : Host.Outcome State Fault Refusal := .next s.pwrFailShutdown

def execPwrFailDeassert (s : State) : Host.Outcome State Fault Refusal := .next s.pwrFailDeassert

/-- After a shutdown, PWR_FAIL_N deasserted and every main rail good for 100 ms (R403). -/
def execPfRestartWake (s : State) : Host.Outcome State Fault Refusal :=
  if s.pmu.shut ∧ s.pmu.pwrFail = false ∧ s.fld R.PMU_CTRL_PF_RESTART = 1 then .next ((s.railsGood mainRails).wake none) else .next s

def execPcieLinkUp (width speed : Nat) (s : State) : Host.Outcome State Fault Refusal := .next (s.pcieUp width speed)

/-- The host moves the function between D0 and D3hot (R435). -/
def execPciePowerStateChange (d3 : Bool) (s : State) : Host.Outcome State Fault Refusal :=
  .next { s with hif := { s.hif with d3hot := d3 } }

def execVddAoLoss (s : State) : Host.Outcome State Fault Refusal := .next s.aoLoss

/-- The restore after an AO reset, and the wake that follows it with BOOT_SRC host or flash (R377, R393). -/
def execEvtRestore (s : State) : Host.Outcome State Fault Refusal :=
  if s.fld R.EVT_STATUS_RESTORING = 1 then .next (s.restore).wakeByStrap else .next s

end Sys2Proof.Machine
end

