-- ==== Sys2Proof/Machine/Bus.lean ====
section
/-! DEFINITION. The crossbar's targets (R5, R32, R34-R36, R72-R74, R117, R130, R168, R194, R195, R217, R218, R221): what a read and
a write by any master do, word by word and byte by byte, and the registers of every block behind them (R4, R25, R219). -/

namespace Sys2Proof.Machine

/-! ### SXM as masters read it (R72, R73) -/

/-- The buses that hold swap slots, in slot order (R72). -/
def State.swapSlots (s : State) : List Nat := match s.old with | some o => o.swapped | none => []

/-- The domain C buses of the live plane in ascending order (R72). -/
def Cfg.domainC (c : Cfg) : List Nat := (List.range 8192).filter (fun b => match c.bus? b with | some r => r.domain == 2 | none => false)

/-- A sample word (R73): words beyond the bus's count read 0. -/
def BusBlk.word (b : BusBlk) (j : Nat) : Nat := if j < b.samples.length then codeS 32 (b.samples.getD j 0) else 0

/-- A byte of SXM (R72, R73). -/
def State.sxmByte (s : State) (a : Nat) : Byte :=
  let o := a - 0x10000000
  let word : Nat → Byte := fun w => (leBytes 4 w).getD (o % 4) 0
  if o < 0x100000 then
    word ((s.bus (o / 0x80000) (o % 0x80000 / 64)).word (o % 64 / 4))
  else if o < 0x180000 then
    match s.swapSlots[o % 0x40000 / 64]? with
    | some b => word ((s.swapBus ((o - 0x100000) / 0x40000) b).word (o % 64 / 4))
    | none => 0
  else if o < 0x190000 + 0x8000 then
    if o % 0x10000 < 0x8000 then
      match (match s.cfg with | some c => c.domainC[o % 0x10000 / 128]? | none => none) with
      | some b => word ((s.bus ((o - 0x180000) / 0x10000) b).word (16 + o % 128 / 4))
      | none => 0
    else 0
  else if 0x1A0000 ≤ o ∧ o < 0x1A4000 then
    BitVec.ofNat 8 (s.bus ((o - 0x1A0000) / 0x2000) (o % 0x2000)).countByte
  else 0

/-! ### Registers as they are read -/

/-- The word of a row table entry with status and enable at two addresses: bit `n` where an enabled status bit is set. -/
def State.summary (s : State) (count : Nat) (st : Nat → Nat) : Nat :=
  (List.range count).foldl (fun x n => if s.regWord (st n) &&& s.regWord (st n + 4) ≠ 0 then x + 2 ^ n else x) 0

/-- The word of CHM_FILT0 (R137). -/
def State.filtWord (s : State) (n : Nat) : Nat :=
  match s.filterRec? n with
  | none => 0
  | some r =>
    let x := s.filt n
    2 ^ 31 + x.active * 2 ^ 28 + flag x.fade.isSome * 2 ^ 27 + x.idleCode * 2 ^ 25 + r.taps % 2 ^ 14

/-- Seconds of wait-to-restore left (R361). -/
def State.wtrSeconds (s : State) : Nat := ceilDiv s.flm.wtr (max 1 s.blocksPerSecond)

/-- The register belongs to an output, filter, line, port, transceiver, stream, channel or rail that is not defined: it reads 0 and ignores
writes (R120, R137, R214, R270, R289, R339). -/
def State.regAbsent (s : State) (a : Nat) : Bool :=
  if 0x14088000 ≤ a ∧ a < 0x14090000 then (s.lineRec? ((a - 0x14088000) / 16)).isNone
  else if 0x14090000 ≤ a ∧ a < 0x14091000 then (s.prtFmt? ((a - 0x14090000) / 256)).isNone
  else if 0x140A0000 ≤ a ∧ a < 0x140A1000 then (s.aesFmt? ((a - 0x140A0000) / 512)).isNone
  else if 0x140B8000 ≤ a ∧ a < 0x140BA000 then (s.inS ((a - 0x140B8000) / 32)).fmt.isNone
  else if 0x140BA000 ≤ a ∧ a < 0x140BB000 then (s.outS ((a - 0x140BA000) / 16)).fmt.isNone
  else if 0x14180000 ≤ a ∧ a < 0x14182000 then decide (s.clnOutputs ≤ (a - 0x14180000) / 8)
  else if 0x14240000 ≤ a ∧ a < 0x14241000 then (s.filterRec? ((a - 0x14240000) / 8)).isNone
  else if 0x14301000 ≤ a ∧ a < 0x14301800 then !s.bdefined ((a - 0x14301000) / 64)
  else if 0x14303000 ≤ a ∧ a < 0x14303100 then (s.brail ((a - 0x14303000) / 32)).fmt.isNone
  else false

/-- The word that a register of the map reads as (R4, R5), where its read has no effect of its own. Reserved fields and
write-only fields read 0; an RWS field reads its shadow; what a block holds elsewhere is read from there. -/
def State.viewReg (s : State) (a : Nat) : Nat :=
  let w := s.regWord a
  if a < 0x14018000 then w
  else if s.regAbsent a then 0
  else if a < 0x14018800 then
    let i := (a - 0x14018000) / 4
    Tbl.get s.hif.msixTable i (if i % 4 = 3 then 1 else 0)
  else if 0x14019000 ≤ a ∧ a < 0x14019010 then
    (List.range 32).foldl (fun x j => if (a - 0x14019000) * 8 + j ∈ s.hif.msixPend then x + 2 ^ j else x) 0
  else if a = 0x14020000 then s.xbProfile * 2 ^ 24 + s.xbEnabledMask
  else if 0x14030000 ≤ a ∧ a < 0x14030800 ∧ a % 32 = 0x14 then w % 2 ^ 28 + s.ringState ((a - 0x14030000) / 32) * 2 ^ 28
  else if 0x14030000 ≤ a ∧ a < 0x14030800 ∧ a % 32 = 0x1C then (s.ring ((a - 0x14030000) / 32)).flight.length
  else if a = 0x14050000 then if s.blk.seq = 0 then 0 else (s.blk.index + 2 ^ 48 - 2) % 2 ^ 32
  else if a = 0x1408000C then if s.mode = .test then s.dpl.seed else 0
  else if a = 0x14080014 then w / 2 ^ 26 * 2 ^ 26 + s.fld (R.DPL_LINE1_DELAY (s.fld R.DPL_LINE_SEL_LINE))
  else if 0x14088000 ≤ a ∧ a < 0x14090000 ∧ a % 16 = 0 then w + s.lineState ((a - 0x14088000) / 16) * 2 ^ 29
  else if a = 0x14091000 then s.summary 16 (fun n => 0x14090040 + 256 * n)
  else if a = 0x140A1000 then s.summary 8 (fun n => 0x140A0180 + 512 * n)
  else if 0x140B8000 ≤ a ∧ a < 0x140BA000 ∧ a % 32 = 0 then
    let x := s.inState ((a - 0x140B8000) / 32)
    w + x.1 * 2 ^ 29 + flag x.2.1 * 2 ^ 28 + flag x.2.2 * 2 ^ 27
  else if 0x140BA000 ≤ a ∧ a < 0x140BB000 ∧ a % 16 = 0 then w + flag (s.outRamping ((a - 0x140BA000) / 16)) * 2 ^ 27
  else if 0x140C0600 ≤ a ∧ a < 0x140C0680 ∧ a % 32 = 4 then (s.capWords ((a - 0x140C0600) / 32)).1
  else if 0x140C0600 ≤ a ∧ a < 0x140C0680 ∧ a % 32 = 8 then (s.capWords ((a - 0x140C0600) / 32)).2.1
  else if a = 0x140E0108 ∨ a = 0x140E0208 then s.regWord 0x140D0010
  else if 0x140F0014 ≤ a ∧ a < 0x140F0020 then s.groupWord (s.fld R.TAP_MUTE_KEY_MUTED) ((a - 0x140F0014) / 4)
  else if a = 0x14100080 then s.rampInUse
  else if a = 0x14100084 then w + s.rampUsed
  else if a = 0x14100104 then s.xpCurWord (s.fld R.CLN_XP_SEL_INPUT) (s.fld R.CLN_XP_SEL_OUTPUT)
  else if a = 0x14100108 then s.xpTgtWord (s.fld R.CLN_XP_SEL_INPUT) (s.fld R.CLN_XP_SEL_OUTPUT) false
  else if a = 0x1420000C then s.fadingCount
  else if a = 0x14200014 then s.cwDataRead
  else if a = 0x14200028 then w + s.presetWaiting * 2 ^ 20
  else if 0x14240000 ≤ a ∧ a < 0x14241000 ∧ a % 8 = 0 then s.filtWord ((a - 0x14240000) / 8)
  else if 0x14301000 ≤ a ∧ a < 0x14301800 ∧ a % 64 = 4 then
    w / 2 ^ 24 * 2 ^ 24 + s.beatFails ((a - 0x14301000) / 64) % 16 * 2 ^ 20 + w % 2 ^ 20
  else if a = 0x14400004 then w / 2 ^ 23 * 2 ^ 23 + flag s.ownHigh * 2 ^ 22 + flag s.selHigh * 2 ^ 21 + w % 2 ^ 21
  else if a = 0x1440000C then s.wtrSeconds
  else if a = 0x15F20000 then w + 2 * flag s.smp.exec.isSome
  else if 0x15F80000 ≤ a ∧ a < 0x15F80010 then Config.otpWord a % 2 ^ 32
  else if 0x15F80020 ≤ a ∧ a < 0x15F80064 then Config.otpWord a % (if a = 0x15F80060 then 2 ^ 8 else 2 ^ 32)
  else if 0x15F80080 ≤ a ∧ a < 0x15F800C0 then Config.otpWord a % 2 ^ 32
  else w

/-- Whether a command that is due at engine `e`'s boundary has not been applied yet. -/
def State.anyDue (s : State) (e : Engine) : Bool := s.held.any (fun h => decide (h.eng = e) && s.due h)

/-- Blocks that form their state late do so before they are read, once the commands of their boundary have applied. -/
def State.settleFor (s : State) (a : Nat) : State :=
  if 0x14300000 ≤ a ∧ a < 0x14400000 then if s.anyDue .beat then s else s.beatSettleAll
  else s

/-- A word of a Mallet cluster's window (R168). -/
def State.malRead (s : State) (a : Nat) : Nat × State :=
  let cl := (a - 0x14800000) / 0x400000
  let o := (a - 0x14800000) % 0x400000
  if o < 0x100000 then (s.viewReg a, s)
  else if o < 0x200000 then (s.progWord (16 * cl + (o - 0x100000) / 0x10000) (o % 0x10000 / 4), s)
  else if o < 0x210000 then
    let g := 16 * cl + (o - 0x200000) / 0x1000
    let i := o % 0x1000 / 4
    if i = 0x10 then s.mboxOutRead g else if ccrDefined i then (s.ccrRead g i, s) else (0, s)
  else if 0x300000 ≤ o ∧ o < 0x340000 then (s.dataWindowRead cl ((o - 0x300000) / 4), s)
  else (0, s)

/-- A read of the register or window word at address `a`, with its effect. -/
def State.readReg (s : State) (a : Nat) : Nat × State :=
  if a < 0x14000000 then (s.xpWindowRead a, s)
  else if a = 0x14040008 then s.indexLoRead
  else if a = 0x15F10034 then s.windowRead
  else if 0x140C0600 ≤ a ∧ a < 0x140C0680 ∧ a % 32 = 0x0C then
    ((s.capWords ((a - 0x140C0600) / 32)).2.2, s.capPop ((a - 0x140C0600) / 32))
  else if 0x14800000 ≤ a ∧ a < 0x15800000 then s.malRead a
  else ((s.settleFor a).viewReg a, s.settleFor a)

/-! ### Registers as they are written -/

/-- The interrupt-enable registers of R219: base, stride, count. Each follows its status register; HIF's stands apart. -/
def intEnables : List (Nat × Nat × Nat) :=
  [(0x14000014, 4, 1), (0x14000048, 4, 1), (0x1401001C, 4, 1), (0x14020104, 4, 1), (0x14031014, 4, 1), (0x14040404, 4, 1),
   (0x1405000C, 4, 1), (0x140600B4, 4, 1), (0x14070404, 4, 1), (0x14080104, 4, 1), (0x14090044, 256, 16), (0x140A0184, 512, 8),
   (0x140B0084, 1024, 4), (0x140C0804, 4, 1), (0x140D0044, 4, 1), (0x140E0804, 4, 1), (0x140F0104, 4, 1), (0x14100404, 4, 1),
   (0x14200204, 4, 1), (0x14300104, 4, 1), (0x14400104, 4, 1), (0x14800404, 0x400000, 4), (0x15F00104, 4, 1), (0x15F10104, 4, 1)]

/-- Whether an address is an interrupt-enable register. -/
def isIntEnable (a : Nat) : Bool :=
  intEnables.any (fun e => decide (e.1 ≤ a ∧ (a - e.1) % e.2.1 = 0 ∧ (a - e.1) / e.2.1 < e.2.2))

/-- The status register of an enable register. -/
def statusOf (a : Nat) : Nat := if a = 0x1401001C then 0x14010010 else a - 4

/-- A field takes what a write gives it, by its access type (R4). -/
def State.writeFld (s : State) (x : Nat) (p : Fld × Access) : State :=
  let v := bits x (p.1.lo + p.1.width - 1) p.1.lo
  match p.2 with
  | .rw => s.setFld p.1 v
  | .rws => s.setFld p.1 v
  | .w1c => s.setFld p.1 (s.fld p.1 - (s.fld p.1 &&& v))
  | .w1s => s.setFld p.1 (s.fld p.1 ||| v)
  | .ro => s
  | .wo => s

/-- Enable bits written from 0 to 1 while their status bit is 1 raise their vector (R219). -/
def State.enableRise (s : State) (a before : Nat) : State :=
  let st := s.regWord (statusOf a)
  (List.range 32).foldl (fun s j => if bit before j = 0 ∧ bit (s.regWord a) j = 1 ∧ bit st j = 1 then s.raiseVector (vectorOf (statusOf a)) else s) s

/-- A write to a register that has no row of its own (R4): its fields by their access types; an enable register's rising bits
(R219); ERR_CODE falls with COMMIT_ERR (R25). -/
def State.writeGeneric (s : State) (a x : Nat) : State :=
  let s1 := (regFields a).foldl (fun s p => s.writeFld x p) s
  if isIntEnable a then s1.enableRise a (s.regWord a)
  else
    match allCommitBlks.find? (fun b => decide (commitAddr b = a)) with
    | some b => if bit x 1 = 1 then s1.setFld (commitCode b) 0 else s1
    | none => s1

/-- A write of PEAL_LOAD (R65). DESIGN CHOICE (notes/assumptions/47): of a write with ABORT and GO both 1, only ABORT acts. -/
def State.pealLoadWrite (s : State) (x : Nat) : State :=
  if bit x 1 = 1 then s.loadAbort
  else if bit x 0 = 1 then
    if bits x 5 4 = 0 then s.loadHost else if bits x 5 4 = 1 then s.loadFlash (bits x 15 8) else s
  else s

/-- The codes of the SMP commands (R365). -/
def smpCodes : List Nat := [1, 2, 3, 4, 5, 0x10, 0x11, 0x12, 0x13, 0x20, 0x21, 0x22, 0x30, 0x31, 0x32, 0x40, 0x41]

/-- An SMP request is accepted (R366): it executes; an unknown CMD ends with status 2. An EVT_CLEAR of the SPI path apart, it voids an
open unlock (R379). -/
def State.smpAccept (s : State) (c : SmpCmd) : State :=
  { s with smp := { s.smp with
      exec := some c
      result := if c.cmd ∈ smpCodes then none else some (2, [])
      unlock := if c.cmd = 0x21 ∧ c.host = false then s.smp.unlock else none } }

/-- A write of SMP_HOST_GO (R369): it starts the request in SMP_HOST_REQ, unless a command executes. -/
def State.smpHostGo (s : State) (v : Nat) : State :=
  if bit v 0 = 1 ∧ s.smp.exec = none then
    let bs := (List.range 65).flatMap (fun n => leBytes 4 (s.fld (R.SMP_HOST_REQ_BYTES n)))
    s.smpAccept ⟨leAt bs 0 1, slice bs 2 (leAt bs 1 1), true⟩
  else s

/-- A write of a CCR or a program word through a cluster's window, or of its registers and data window (R168, R169, R174). -/
def State.malWriteWord (s : State) (a : Nat) (v : Word) : XbResp × State :=
  let cl := (a - 0x14800000) / 0x400000
  let o := (a - 0x14800000) % 0x400000
  if o < 0x100000 then
    if o = 8 then (.ok, s.raiseMask cl 9 (bits v.toNat 15 0))
    else if o = 0x24 then (.ok, if bit v.toNat 0 = 1 then s.clearFlds (malCounts cl) else s)
    else (.ok, s.writeGeneric a v.toNat)
  else if o < 0x200000 then (.targetErr, s.malRefuse cl)
  else if o < 0x210000 then
    if 0x400 ≤ o % 0x1000 then (.ok, s)
    else if o % 0x1000 = 0x3C then (.ok, s.mboxInWrite (16 * cl + (o - 0x200000) / 0x1000) v)
    else (.targetErr, s.malRefuse cl)
  else if 0x300000 ≤ o ∧ o < 0x340000 then s.dataWindowWrite cl ((o - 0x300000) / 4) v
  else (.ok, s)

/-- A write of a ring register (R246). -/
def State.ringRegWrite (s : State) (a : Nat) (v : Word) : State :=
  let n := (a - 0x14030000) / 32
  match a % 32 with
  | 0 => s.ringCfgWrite n v
  | 4 => s.ringCtrlWrite n v
  | 8 => s.ringHeadWrite n v
  | 12 => s.ringTailWrite n v
  | 16 => s.ringResizeWrite n v
  | _ => s.writeGeneric a v.toNat

/-- A write of a port register (R269, R270), which its port reads at its next boundary. Whether a mask lands inside its guard
is a matter of when it lands. -/
def State.portRegWrite (s : State) (m a : Nat) (v : Word) : State :=
  let x := v.toNat
  let s1 : State :=
    if a = 0x14091004 then s.clearMasked 16 (x % 65536) prtCounts
    else if a = 0x140A1004 then s.clearMasked 8 (x % 256) aesCounts
    else if a < 0x14091000 ∧ a % 256 = 8 then s.prtCtrlWrite ((a - 0x14090000) / 256) x
    else if a < 0x14091000 ∧ a % 256 = 0x10 then
      let f := s.fresh
      f.2.prtMaskWrite ((a - 0x14090000) / 256) x (f.1 % 2 == 1)
    else if 0x140A0000 ≤ a ∧ a < 0x140A1000 ∧ a % 512 = 8 then s.aesCtrlWrite ((a - 0x140A0000) / 512) x
    else s.writeGeneric a x
  let late := decide ((a < 0x14091000 ∧ (a % 256 = 8 ∨ a % 256 = 0x0C)) ∨
    (0x140A0000 ≤ a ∧ a < 0x140A1000 ∧ (a % 512 = 8 ∨ a % 512 = 0x0C)))
  if late then
    { s1 with hif := { s1.hif with hot := s1.hif.hot ++ [(s1.heldNext, m, .prt, (s1.boundary .prt).2)] }, heldNext := s1.heldNext + 1 }
  else s1

/-- A write of a TU, CLV or PLL register (R296, R319, R320). Instants that the write does not carry are open. -/
def State.timeRegWrite (s : State) (a : Nat) (v : Word) : State :=
  let x := v.toNat
  if a = 0x140C0100 ∨ a = 0x140C0200 then s.ptpCfgWrite ((a - 0x140C0100) / 256) x
  else if a = 0x140C0140 ∨ a = 0x140C0240 then
    if bit x 0 = 1 then let t := s.someTime; t.2.latchTime ((a - 0x140C0140) / 256) t.1 else s
  else if a = 0x140D0004 ∨ (0x140D0104 ≤ a ∧ a < 0x140D0304 ∧ a % 32 = 4) then s.hold (heldOf .clv (.regWrite a v) .notNeeded)
  else if a = 0x140E0130 ∨ a = 0x140E0230 then s.phaseStep ((a - 0x140E0030) / 256) x
  else s.writeGeneric a x

/-- A write of a CLN, CHM, DPL or BEAT register (R120, R137, R214, R339). -/
def State.engineRegWrite (s : State) (a : Nat) (v : Word) : XbResp × State :=
  let x := v.toNat
  if a = 0x14080014 then (.ok, s.delaySetWrite v)
  else if a = 0x1408000C then (.ok, s.hashSeedWrite v)
  else if a = 0x14080044 then (.ok, if bit x 0 = 1 then s.clearFlds dplCounts else s)
  else if 0x14100044 ≤ a ∧ a < 0x14100080 then (.ok, s.rampSlotWrite ((a - 0x14100040) / 4) v)
  else if a = 0x14100108 then s.xpTgtWrite v
  else if a = 0x1410031C then (.ok, if bit x 0 = 1 then s.clearFlds clnCounts else s)
  else if a = 0x14200014 then s.cwDataWrite v
  else if a = 0x14200020 then (.ok, s.chmSelectWrite v)
  else if a = 0x14200024 then (.ok, s.chmPresetWrite v)
  else if a = 0x14200110 then (.ok, if bit x 0 = 1 then s.clearFlds chmCounts else s)
  else if a = 0x14300010 then (.ok, if bit x 0 = 1 then s.clearFlds beatCounts else s)
  else if 0x14301000 ≤ a ∧ a < 0x14301800 ∧ a % 64 = 0 then
    (.ok, if s.bdefined ((a - 0x14301000) / 64) then s.hold (heldOf .beat (.regWrite a v) .notNeeded) else s)
  else (.ok, s.writeGeneric a x)

/-- A write of a register of SYS, HIF, XB, RNG, BLK, PEAL, NET, FLM, TAP or of AO. -/
def State.systemRegWrite (s : State) (m a : Nat) (v : Word) : XbResp × State :=
  let x := v.toNat
  if a = 0x14000040 then s.barrierWrite m (x % 65536)
  else (.ok,
    if a = 0x14000004 then let f := s.fresh; f.2.sysReset x (f.1 % 16)
    else if 0x14018000 ≤ a ∧ a < 0x14018800 then s.msixTableWrite ((a - 0x14018000) / 4) x
    else if a = 0x14020008 then s.masterResetWrite v
    else if a = 0x14020028 then if bit x 0 = 1 then s.clearFlds xbCounts else s
    else if 0x14030000 ≤ a ∧ a < 0x14030800 then s.ringRegWrite a v
    else if a = 0x1403100C then
      if bit x 0 = 1 then s.clearFlds [R.RNG_LATE_COUNT_COUNT, R.RNG_DISCARD_COUNT_COUNT, R.RNG_HOLD_WAIT_COUNT] else s
    else if a = 0x14040014 then s.realignRequest (x % 65536)
    else if a = 0x1404001C then (let s1 := s.writeGeneric a x; { s1 with blk := { s1.blk with ticks := 0 } })
    else if a = 0x14040040 then if bit x 0 = 1 then s.clearFlds blkCounts else s
    else if a = 0x14060010 then s.pealLoadWrite x
    else if a = 0x140600A8 then if bit x 0 = 1 then s.swapAbortWrite else s
    else if 0x140B0000 ≤ a ∧ a < 0x140B1000 ∧ a % 1024 = 0x2C then s.ctlRelease ((a - 0x140B0000) / 1024) (x % 128)
    else if a = 0x140B1008 then s.netCountClear x
    else if a = 0x140F000C then s.muteKeyWrite x
    else if a = 0x14400068 then if bit x 0 = 1 then s.clearFlds flmCounts else s
    else if a = 0x14400070 then s.flmHandoverWrite x
    else if a = 0x14400074 then s.flmResyncWrite x
    else if a = 0x14400078 then s.flmRealignWrite x
    else if a = 0x15F00004 then s.pmuRequest (bits x 3 0) (bits x 31 16)
    else if a = 0x15F10004 then s.requestWrite x
    else if a = 0x15F10030 then s.cursorWrite x
    else if a = 0x15F20380 then s.smpHostGo x
    else if a = 0x15F80110 then s.attestGo x
    else if a = 0x15F805C0 then s.otpGo x
    else s.writeGeneric a x)

/-- A write of one register or window word by master `m`, whatever Flam has to say about it. -/
def State.writeReg (s : State) (m a : Nat) (v : Word) : XbResp × State :=
  if s.regAbsent a then (.ok, s) else
  match allCommitBlks.find? (fun b => decide (commitAddr b = a + 4)) with
  | some b => (.ok, s.commitWrite b v.toNat m)
  | none =>
    if a < 0x14000000 then s.xpWindowWrite a v
    else if 0x14080000 ≤ a ∧ a < 0x14090000 then s.engineRegWrite a v
    else if 0x14090000 ≤ a ∧ a < 0x140B0000 then (.ok, s.portRegWrite m a v)
    else if 0x140C0000 ≤ a ∧ a < 0x140F0000 then (.ok, s.timeRegWrite a v)
    else if 0x14100000 ≤ a ∧ a < 0x14400000 then s.engineRegWrite a v
    else if 0x14800000 ≤ a ∧ a < 0x15800000 then s.malWriteWord a v
    else s.systemRegWrite m a v

/-! ### Mirrored writes (R345, R346) -/

/-- The CONTROL object of R343 that a write of the word at `a` would change: 0 none. Interrupt enables, count clears, selectors
and windows that select stand outside (R345). -/
def State.mirrorObject (s : State) (a : Nat) : Nat :=
  if isIntEnable a then 0
  else if 0x11000000 ≤ a ∧ a < 0x11800000 then 1
  else if 0x12000000 ≤ a ∧ a < 0x12300000 then 2
  else if 0x14080000 ≤ a ∧ a < 0x14090000 then if a = 0x14080014 ∨ a = 0x14080048 then 3 else 0
  else if 0x14090000 ≤ a ∧ a < 0x14091000 then if a % 256 = 8 ∨ a % 256 = 0x0C ∨ a % 256 = 0x10 then 5 else 0
  else if 0x140A0000 ≤ a ∧ a < 0x140A1000 then
    if a % 512 = 8 ∨ a % 512 = 0x0C ∨ a % 512 = 0x40 ∨ a % 512 = 0x44 ∨ (0x80 ≤ a % 512 ∧ a % 512 < 0xF0) then 6 else 0
  else if 0x140D0000 ≤ a ∧ a < 0x140E0000 then
    if (regFields a).any (fun p => decide (p.2 = .rw ∨ p.2 = .rws)) ∨ (0x140D0408 ≤ a ∧ a < 0x140D0480 ∧ a % 32 = 8) then 9 else 0
  else if 0x14100000 ≤ a ∧ a < 0x14200000 then
    if (0x14100044 ≤ a ∧ a < 0x14100080) ∨ a = 0x14100108 ∨ a = 0x14100200 ∨ a = 0x14100204 ∨ a = 0x14100208 then 1 else 0
  else if 0x14200000 ≤ a ∧ a < 0x14300000 then if a = 0x14200014 ∨ a = 0x14200020 ∨ a = 0x14200024 then 2 else 0
  else if 0x14300000 ≤ a ∧ a < 0x14400000 then if 0x14301000 ≤ a ∧ a < 0x14301800 ∧ a % 64 = 0 then 8 else 0
  else if 0x14800000 ≤ a ∧ a < 0x15800000 then
    let o := (a - 0x14800000) % 0x400000
    if 0x300000 ≤ o ∧ o < 0x340000 ∧ s.fld (R.MAL_CL_DWIN_SEL_TARGET ((a - 0x14800000) / 0x400000)) < 16 then 4 else 0
  else 0

/-- The engine that applies a mirrored register write of a CONTROL object. -/
def objectEngine (o : Nat) : Engine :=
  match o with
  | 1 => .cln
  | 2 => .chm
  | 3 => .dpl
  | 8 => .beat
  | 9 => .clv
  | _ => .prt

/-- The masters that software drives (R345): HIF, the SMP bridge and the ring engine. -/
def hostFacing (m : Nat) : Bool := m == 0 || m == 1 || m == 18

/-- Commands taken in since `from_` carry their master; on an ACTIVE or YIELDING chip a mirrored one waits for block `at_`
and goes to the peer (R345). -/
def State.tagHeld (s : State) (from_ m : Nat) (at_ : Option Nat) : State :=
  let s1 := { s with held := s.held.map (fun h => if from_ ≤ h.id then { h with master := m, mirrorAt := at_ } else h) }
  match at_ with
  | none => s1
  | some k => (s1.held.filter (fun h => decide (from_ ≤ h.id))).foldl (fun s h => s.emit (.flmChange h.eng h.cmd h.stamp k)) s1

/-- A write of CHM_CW_DATA on a chip that mirrors it (R130, R345): judged now, it lands two blocks later as a write of its
coefficient in the window. -/
def State.cwDataMirrored (s : State) (m k : Nat) (v : Word) : XbResp × State :=
  let r := match s.cwIndex with
    | none => s.coefRefuse
    | some n =>
      if signExt24 v && s.coefWritable n then
        let a := 0x12000000 + 3 * n
        (.ok, (s.hold { heldOf .chm (.regWrite a v) .notNeeded with master := m, mirrorAt := some k }).emit (.flmWrite a v k))
      else s.coefRefuse
  (r.1, r.2.cwAdvance)

/-- A mirrored write on an ACTIVE or YIELDING chip (R345): a shadow takes it at once; a change that a block applies at a
boundary, and a hot field, waits for block N + 2; the peer is sent the same. -/
def State.writeMirrored (s : State) (o m a : Nat) (v : Word) : XbResp × State :=
  let k := s.blk.index + 2
  if allCommitBlks.any (fun b => decide (commitAddr b = a + 4)) then s.writeReg m a v
  else if a = 0x14200014 then s.cwDataMirrored m k v
  else if (regFields a).any (fun p => decide (p.2 = .rws)) then
    let r := s.writeReg m a v
    (r.1, r.2.emit (.flmWrite a v k))
  else if a < 0x14000000 ∨ a = 0x14080014 ∨ a = 0x14100108 ∨ a = 0x14200020 ∨ a = 0x14200024 ∨ o = 4 then
    let r := s.writeReg m a v
    (r.1, r.2.tagHeld s.heldNext m (some k))
  else
    (.ok, (s.hold { heldOf (objectEngine o) (.regWrite a v) .notNeeded with master := m, mirrorAt := some k }).emit (.flmWrite a v k))

/-- A write of one word by master `m` that `f` performs, as it is delivered (R4, R32, R345, R346). -/
def State.delivered (s : State) (m a : Nat) (v : Word) (f : State → XbResp × State) : XbResp × State :=
  let d := targetDomain a
  if d ≠ 0 ∧ s.domainOn d then
    let o := s.mirrorObject a
    if hostFacing m && o != 0 && s.mirrors o && s.flmState != 0 then
      if s.flmState = 4 ∨ s.flmState = 5 then s.writeMirrored o m a v
      else (.targetErr, s.bump R.FLM_REFUSED_COUNT_COUNT)
    else
      let r := f s
      (r.1, r.2.tagHeld s.heldNext m none)
  else (.decodeErr, s.countDecErr a)

/-- A write of one word by master `m`. -/
def State.writeWord (s : State) (m a : Nat) (v : Word) : XbResp × State := s.delivered m a v (fun s => s.writeReg m a v)

/-- A read of one word (R32). -/
def State.readWord (s : State) (a : Nat) : XbResp × State :=
  let d := targetDomain a
  if d ≠ 0 ∧ s.domainOn d then
    let r := s.readReg a
    (.data (leBytes 4 r.1), r.2)
  else (.decodeErr, s.countDecErr a)

/-! ### Memory targets -/

/-- The word addresses that a span of `n` bytes at `a` touches. -/
def spanWords (a n : Nat) : List Nat := if n = 0 then [] else (List.range ((a + n - 1) / 4 - a / 4 + 1)).map (fun i => 4 * (a / 4 + i))

/-- The four byte lanes of the word at `w` in a write. -/
def laneBytes (a : Nat) (data : List (Option Byte)) (w : Nat) : List (Option Byte) :=
  (List.range 4).map (fun j => if a ≤ w + j then data.getD (w + j - a) none else none)

/-- A write of one word of a span (R217): with all four byte enables it is performed; any other is discarded with a target error. -/
def State.laneWrite (s : State) (m w : Nat) (lanes : List (Option Byte)) : XbResp × State :=
  if targetDomain w = 0 ∨ s.domainOn (targetDomain w) = false then (.decodeErr, s.countDecErr w)
  else if lanes.all (fun b => b.isSome) then s.writeWord m w (BitVec.ofNat 32 (leNat (lanes.filterMap (fun b => b))))
  else (.targetErr, s)

/-- A write by master `m` of bytes that lie in one target (R217): the response of each request it makes, with its address, in order. -/
def State.targetWrite (s : State) (m a : Nat) (data : List (Option Byte)) : List (Nat × XbResp) × State :=
  let one := fun (r : XbResp × State) => ([(a, r.1)], r.2)
  if targetOf a = .words then
    (spanWords a data.length).foldl (fun (p : List (Nat × XbResp) × State) w =>
      let r := p.2.laneWrite m w (laneBytes a data w)
      (p.1 ++ [(w, r.1)], r.2)) ([], s)
  else if targetOf a = .coefs ∧ s.domainOn (targetDomain a) then
    if hostFacing m && s.mirrors 2 && s.flmState != 0 && !(s.flmState == 4 || s.flmState == 5) then
      one (.targetErr, s.bump R.FLM_REFUSED_COUNT_COUNT)
    else one (s.chmWindowWrite a data)
  else one (s.memStore m a data)

/-- A write by master `m` (R217): target by target. -/
def State.busWrite (s : State) (m a : Nat) (data : List (Option Byte)) : List (Nat × XbResp) × State :=
  (spans a data.length).foldl (fun (p : List (Nat × XbResp) × State) x =>
    let r := p.2.targetWrite m x.1 ((data.drop (x.1 - a)).take x.2)
    (p.1 ++ r.1, r.2)) ([], s)

/-- A byte of boot flash in its read window (R34, R374). -/
def State.flashByte (s : State) (o : Nat) : Byte := Tbl.get s.mem.flash o 0xFF

/-- The PCIe read requests of an outbound read (R215, R218): of up to 512 bytes each. -/
def State.outboundRequests (s : State) (h n : Nat) : State :=
  (List.range (ceilDiv n 512)).foldl (fun s i => s.emit (.outboundRead (h + 512 * i) (min 512 (n - 512 * i)))) s

/-- A read of a memory target, of `n` bytes; `ext` is what the host returns on an outbound window. -/
def State.memRead (s : State) (a n : Nat) (ext : FetchResp) : XbResp × State :=
  match targetOf a with
  | .dram => match s.dramFetch a n with
    | (some bs, s') => (.data bs, s')
    | (none, s') => (.targetErr, s')
  | .sxm => (.data ((List.range n).map (fun j => s.sxmByte (a + j))), s)
  | .coefs => (.data (s.chmWindowRead a n), s)
  | .history => (.data (List.replicate n 0), s)
  | .shared => (.data (s.sharedRead ((a - 0x13000000) / 0x100000) (a % 0x100000) n), s)
  | .flash => (.data ((List.range n).map (fun j => s.flashByte (a - 0x18000000 + j))), s)
  | .outbound =>
    match s.obAddr a with
    | none => (.targetErr, s)
    | some h =>
      let s1 := s.outboundRequests h n
      match ext with
      | .data bs => if bs.length < n then (.targetErr, s1.raise R.HIF_ERR_STATUS_OB_TIMEOUT) else (.data (bs.take n), s1)
      | .error => (.targetErr, s1.raise R.HIF_ERR_STATUS_OB_TIMEOUT)
  | .words => (.decodeErr, s)
  | .nowhere => (.decodeErr, s)

/-- A read of bytes that lie in one target (R217): the response of each request it makes, with its address and the number of its bytes
that were asked for, in order. -/
def State.targetRead (s : State) (a n : Nat) (ext : FetchResp) : List (Nat × Nat × XbResp) × State :=
  if targetOf a = .words then
    (spanWords a n).foldl (fun (p : List (Nat × Nat × XbResp) × State) w =>
      let r := p.2.readWord w
      let lo := max a w
      let k := min (a + n) (w + 4) - lo
      let x := match r.1 with | .data bs => XbResp.data (slice bs (lo - w) k) | e => e
      (p.1 ++ [(w, k, x)], r.2)) ([], s)
  else if targetDomain a = 0 ∨ s.domainOn (targetDomain a) = false then ([(a, n, .decodeErr)], s.countDecErr a)
  else
    let r := s.memRead a n ext
    ([(a, n, r.1)], r.2)

/-- What the host returns from byte `k` of an outbound read on. -/
def respFrom (k : Nat) : FetchResp → FetchResp
  | .data bs => .data (bs.drop k)
  | .error => .error

/-- A read by any master (R217): target by target. -/
def State.busRead (s : State) (a n : Nat) (ext : FetchResp) : List (Nat × Nat × XbResp) × State :=
  (spans a n).foldl (fun (p : List (Nat × Nat × XbResp) × State) x =>
    let r := p.2.targetRead x.1 x.2 (respFrom (x.1 - a) ext)
    (p.1 ++ r.1, r.2)) ([], s)

/-- One response for a whole access: the first error, or the data. -/
def joinReads (rs : List (Nat × Nat × XbResp)) : XbResp :=
  match rs.find? (fun r => match r.2.2 with | .decodeErr => true | .targetErr => true | _ => false) with
  | some r => r.2.2
  | none => .data (rs.flatMap (fun r => match r.2.2 with | .data bs => bs | _ => []))

/-- One response for a whole write. -/
def joinWrites (rs : List (Nat × XbResp)) : XbResp :=
  match rs.find? (fun r => match r.2 with | .decodeErr => true | .targetErr => true | _ => false) with
  | some r => r.2
  | none => .ok

end Sys2Proof.Machine
end

