-- ==== Sys2Proof/Machine/Xbar.lean ====
section
/-! DEFINITION. The crossbar's arbitration (R222-R228): requests that wait in their masters' ports, admission in age order, grants round by
round, locked sequences, the return of responses, the watchdog; and what HIF returns to the host (R215, R216, R431). -/

namespace Sys2Proof.Machine

/-! ### What the host gets (R215, R216, R431) -/

/-- An error that a host access met (R216, R244). -/
def State.hostError (s : State) (a : Nat) (r : XbResp) : State :=
  match r with
  | .decodeErr => ((s.setFld R.HIF_ERR_ADDR_ADDR a).bump R.HIF_ERR_COUNT_COUNT).raise R.HIF_ERR_STATUS_DECODE_ERR
  | .targetErr => ((s.setFld R.HIF_ERR_ADDR_ADDR a).bump R.HIF_ERR_COUNT_COUNT).raise R.HIF_ERR_STATUS_TARGET_ERR
  | .ok => s
  | .data _ => s

/-- Whether a response is an error. -/
def XbResp.isErr : XbResp → Bool
  | .decodeErr => true
  | .targetErr => true
  | .ok => false
  | .data _ => false

/-- A read of the host is answered with an error pattern (R431): Corrected Internal Error is set, and reported where it is neither masked
nor its reporting disabled. -/
def State.corrected (s : State) : State :=
  let s1 := { s with hif := { s.hif with aerCorrected := true } }
  if s.hif.aerMasked = false ∧ s.hif.corEnabled = true then s1.emit .errCor else s1

/-- The bytes a host read returns for one response (R216): the data, or the error pattern in every word. -/
def hostBytes (a n : Nat) (r : XbResp) : List Byte :=
  let fill := fun (p : Nat) => (List.range n).map (fun j => (leBytes 4 p).getD ((a + j) % 4) 0)
  match r with
  | .data bs => bs
  | .decodeErr => fill 0xDEC0DEC0
  | .targetErr => fill 0xBADDBADD
  | .ok => []

/-- The responses to a host read, with their addresses and lengths, go back to the host (R216). -/
def State.hostReturn (s : State) (a : Nat) (rs : List (Nat × Nat × XbResp)) : State :=
  let s1 := rs.foldl (fun s x => s.hostError x.1 x.2.2) s
  let s2 := if rs.any (fun x => x.2.2.isErr) then s1.corrected else s1
  s2.emit (.hostData (rs.flatMap (fun x => hostBytes (max a x.1) x.2.1 x.2.2)))

/-- The value an AtomicOp leaves (R215); none where a CAS does not match. -/
def atomicResult (op : AtomicOp) (w old operand compare : Nat) : Option Nat :=
  match op with
  | .fetchAdd => some ((old + operand) % 2 ^ w)
  | .swap => some (operand % 2 ^ w)
  | .cas => if old = compare % 2 ^ w then some (operand % 2 ^ w) else none

/-- An AtomicOp as a locked sequence of a read and a write (R215, R224): its old value goes back to the host. -/
def State.atomicRun (s : State) (a : Nat) (op : AtomicOp) (n operand compare : Nat) : State :=
  let r := s.busRead a n .error
  match joinReads r.1 with
  | .data bs =>
    match atomicResult op (8 * n) (leNat bs) operand compare with
    | none => r.2.emit (.hostData bs)
    | some v =>
      let x := r.2.busWrite 0 a ((leBytes n v).map some)
      (x.1.foldl (fun s y => s.hostError y.1 y.2) x.2).emit (.hostData bs)
  | e => (r.2.hostError a e).emit (.hostData (hostBytes a n e))

/-- A request of master `m` is answered; the host port records an error that it meets (R216, R244). -/
def State.answer (s : State) (m a : Nat) (r : XbResp) : State :=
  (if m = 0 then s.hostError a r else s).emit (.response m r)

/-! ### Requests and their beats (R222) -/

/-- The beats of a span: a beat is 64 bytes. -/
def beatsOf (a n : Nat) : Nat := if n = 0 then 1 else (a + n - 1) / 64 - a / 64 + 1

/-- Beat `i` of a span: its address and its length. -/
def beatSpan (a n i : Nat) : Nat × Nat :=
  let lo := max a (64 * (a / 64 + i))
  (lo, min (a + n) (64 * (a / 64 + i) + 64) - lo)

/-- The beats of a request; what HIF carries for the host is granted whole. -/
def XbReq.beats (r : XbReq) : Nat :=
  match r.kind with
  | .read n => beatsOf r.addr n
  | .write d => beatsOf r.addr d.length
  | _ => 1

/-- Whether a span is one burst (R222): 1 to 16 beats, to one target, within 1 KiB. -/
def burstOk (a n : Nat) : Bool :=
  decide (0 < n ∧ beatsOf a n ≤ 16 ∧ a / 1024 = (a + n - 1) / 1024 ∧ targetOf a = targetOf (a + n - 1) ∧ targetDomain a = targetDomain (a + n - 1))

/-! ### The queue -/

/-- Put a request into the queue in age order: ties go to the lower master number, then to the earlier (R225). -/
def insertReq (r : XbReq) : List XbReq → List XbReq
  | [] => [r]
  | q :: qs => if r.age < q.age ∨ (r.age = q.age ∧ r.master < q.master) then r :: q :: qs else q :: insertReq r qs

/-- A request reaches the crossbar, or waits in its master's port. -/
def State.enqueue (s : State) (m tag : Nat) (k : XbKind) (a age : Nat) (lock : Option Bool) (resp : FetchResp) : State :=
  let r : XbReq := ⟨s.heldNext, m, tag, k, a, age, lock, resp, false, 0, [], none, false, false⟩
  { s with hif := { s.hif with queue := insertReq r s.hif.queue }, heldNext := s.heldNext + 1 }

/-- The age of a request that reaches the crossbar now: it is the youngest. -/
def State.ageNow (s : State) : Nat := s.hif.queue.foldl (fun n r => max n r.age) 0

/-- Change the requests of a number. -/
def State.setReq (s : State) (id : Nat) (f : XbReq → XbReq) : State :=
  { s with hif := { s.hif with queue := s.hif.queue.map (fun r => if r.id = id then f r else r) } }

/-- Whether a request in its port may be issued and is admitted by its target (R222, R225, R227). -/
def State.mayAdmit (s : State) (r : XbReq) : Bool :=
  !r.admitted && decide (s.xbPort r.master = .opened ∧ s.outstanding r.master < 32 ∧ (s.hif.queue.filter (fun q => q.admitted)).length < 256 ∧
    s.admittedAt (s.targetNumber r.addr) < 64) &&
  s.hif.queue.all (fun q => !(q.master == r.master && !q.admitted && decide (q.id < r.id) && s.targetNumber q.addr == s.targetNumber r.addr))

/-- Targets take in the requests that reach them, in age order (R225). -/
def State.letIn (s : State) : State :=
  s.hif.queue.foldl (fun s r => if s.mayAdmit r then (s.setReq r.id (fun r => { r with admitted := true })).showOutstanding r.master else s) s

/-- Whether a request may be granted by its target now (R222, R224): it is admitted and not finished, no other master's locked sequence holds
the target, and of a master's writes to a target the earlier go first. -/
def State.grantable (s : State) (t : Nat) (r : XbReq) : Bool :=
  r.admitted && r.answer.isNone && s.targetNumber r.addr == t &&
  s.hif.locks.all (fun l => l.target != t || (l.master == r.master && r.lock.isSome)) &&
  !(r.kind.writes && s.hif.queue.any (fun q => q.master == r.master && q.answer.isNone && q.kind.writes && decide (q.id < r.id) &&
      s.targetNumber q.addr == t))

/-- The request that target `t` grants next: the oldest (R225). -/
def State.nextGrant (s : State) (t : Nat) : Option XbReq := s.hif.queue.find? (fun r => s.grantable t r)

/-! ### A round (R224, R225) -/

/-- One beat of a request. A dead one's write carries no strobe (R228). -/
def State.oneBeat (s : State) (r : XbReq) (i : Nat) : XbResp × State :=
  let x := beatSpan r.addr r.kind.len i
  match r.kind with
  | .write d =>
    let bs := (d.drop (x.1 - r.addr)).take x.2
    let w := s.busWrite r.master x.1 (if r.dead then bs.map (fun _ => none) else bs)
    (joinWrites w.1, w.2)
  | _ =>
    let w := s.busRead x.1 x.2 (respFrom (x.1 - r.addr) r.resp)
    (joinReads w.1, w.2)

/-- The response of a whole request from those of its beats: the first error, the data read, or none beside it. -/
def joinBeats (k : XbKind) (rs : List XbResp) : XbResp :=
  match rs.find? XbResp.isErr with
  | some e => e
  | none => if k.writes then .ok else .data (rs.flatMap (fun r => match r with | .data bs => bs | _ => []))

/-- Grant up to `n` of a request's beats: it is finished with its last, and waits behind the others of its target where beats are left (R225). -/
def State.grantBeats (s : State) (id : Nat) : Nat → State
  | 0 => s
  | n + 1 =>
    match s.hif.queue.find? (fun r => r.id == id) with
    | none => s
    | some r =>
      if r.sent < r.beats then
        let b := s.oneBeat r r.sent
        let got := r.got ++ [b.1]
        let fin := decide (r.beats ≤ r.sent + 1)
        (b.2.setReq id (fun r => { r with sent := r.sent + 1, got := got, answer := if fin then some (joinBeats r.kind got) else none })).grantBeats id n
      else s

/-- A request that has beats left takes its place behind the others (full profile, R223, R225; notes/assumptions/52). -/
def State.reAge (s : State) (id : Nat) : State :=
  match s.hif.queue.find? (fun r => r.id == id) with
  | none => s
  | some r =>
    if r.answer.isSome then s
    else { s with hif := { s.hif with queue := s.hif.queue.filter (fun q => q.id != id) ++ [{ r with age := s.ageNow }] } }

/-- A beat of a locked sequence (R224): the first locks the target, the last releases it; a 17th is answered with a target error, and the
lock is broken with cause 2. -/
def State.grantLocked (s : State) (t : Nat) (r : XbReq) (last : Bool) : State :=
  let k := (match s.hif.locks.find? (fun l => l.target == t) with | some l => l.beats | none => 0) + 1
  let rest := s.hif.locks.filter (fun l => l.target != t)
  if 16 < k then
    (({ s with hif := { s.hif with locks := rest } } : State).breakLock r.master t 2).setReq r.id (fun r => { r with answer := some .targetErr })
  else
    let s1 := s.grantBeats r.id 1
    { s1 with hif := { s1.hif with locks := if last then rest else rest ++ [⟨t, r.master, k⟩] } }

/-- What HIF carries for the host is done whole (R215, R216): the host has its answer. -/
def State.grantHost (s : State) (r : XbReq) : State :=
  let drop : State := { s with hif := { s.hif with queue := s.hif.queue.filter (fun q => q.id != r.id) } }
  let s1 := drop.showOutstanding r.master
  match r.kind with
  | .hostRead n => if r.dead then s1 else let x := s1.busRead r.addr n .error; x.2.hostReturn r.addr x.1
  | .hostWrite d => if r.dead then s1 else let x := s1.busWrite 0 r.addr d; x.1.foldl (fun s y => s.hostError y.1 y.2) x.2
  | .atomic op n operand compare => if r.dead then s1 else s1.atomicRun r.addr op n operand compare
  | _ => s1

/-- A request may be answered once no earlier one of its master with its ID is left (R222). -/
def State.mayReturn (s : State) (r : XbReq) : Bool :=
  r.answer.isSome && s.hif.queue.all (fun q => !(q.master == r.master && q.tag == r.tag && decide (q.id < r.id)))

/-- Responses return, in issue order within an ID (R222); a dead request's is discarded (R228). -/
def State.returnOne (s : State) (r : XbReq) : State :=
  if s.mayReturn r then
    let s1 : State := { s with hif := { s.hif with queue := s.hif.queue.filter (fun q => q.id != r.id) } }
    let s2 := s1.showOutstanding r.master
    match r.answer with
    | some x => if r.dead then s2 else s2.answer r.master r.addr x
    | none => s2
  else s

/-- Responses return as far as they may. -/
def State.returnAll (s : State) : State :=
  (s.hif.queue.insertionSort (fun a b => a.id ≤ b.id)).foldl (fun s r => s.returnOne r) s

/-- The other requests that target `t` has admitted have had to wait (R225): each is counted once. -/
def State.countWaits (s : State) (t id : Nat) : State :=
  let others := s.hif.queue.filter (fun r => r.admitted && r.answer.isNone && !r.waited && r.id != id && s.targetNumber r.addr == t)
  let s1 : State := { s with hif := { s.hif with waits := s.hif.waits + others.length } }
  { s1 with hif := { s1.hif with queue := s1.hif.queue.map (fun r => if others.any (fun q => q.id == r.id) then { r with waited := true } else r) } }

/-- One arbitration round of target `t` (R223-R225): a burst or a locked beat in the compact profile, a beat in the full one. -/
def State.xbRound (s : State) (t : Nat) : State :=
  let s1 := s.letIn
  match s1.nextGrant t with
  | none => s1
  | some r =>
    let s2 := s1.countWaits t r.id
    let s3 :=
      match r.kind, r.lock with
      | .read _, some last => s2.grantLocked t r last
      | .write _, some last => s2.grantLocked t r last
      | .read _, none => if s2.xbProfile = 0 then s2.grantBeats r.id r.beats else (s2.grantBeats r.id 1).reAge r.id
      | .write _, none => if s2.xbProfile = 0 then s2.grantBeats r.id r.beats else (s2.grantBeats r.id 1).reAge r.id
      | _, _ => s2.grantHost r
    s3.returnAll

/-- `n` rounds of target `t`, or as many as it has work for. -/
def State.xbRounds (s : State) (t : Nat) : Nat → State
  | 0 => s
  | n + 1 => if (s.letIn.nextGrant t).isNone then s.letIn else (s.xbRound t).xbRounds t n

/-- `n` rounds of every target. -/
def State.xbRun (s : State) (n : Nat) : State := (List.range 17).foldl (fun s t => s.xbRounds t n) s

/-- Beats that all requests have left: as many rounds serve a target for good. -/
def State.xbWork (s : State) : Nat := s.hif.queue.foldl (fun n r => n + r.beats) 0

/-- Every request that can be served is served. -/
def State.xbDrain (s : State) : State := s.xbRun s.xbWork

/-! ### Ports -/

/-- A request that is issued while a command runs is the youngest (R225): those that its target has admitted are served first. It says what
becomes of the request, which counts as outstanding while the command runs (R245). -/
def State.reach (s : State) (m a : Nat) : Passage × State :=
  let s1 := if s.hif.queue.isEmpty then s else s.xbRounds (s.targetNumber a) s.xbWork
  match s1.passage m a with
  | .forwarded => (.forwarded, s1.touch m)
  | p => (p, s1)

/-! ### The commands -/

/-- Masters that issue locked sequences (R224). -/
def mayLock (m : Nat) : Bool := m == 0 || m == 1 || m == 18 || m == 23

/-- A request of a device master reaches the crossbar (R222, R225-R227), of which `rounds` rounds go by. A master issues bursts of R222, and
locked sequences only where R224 lets it. -/
def execXbRequest (master tag addr len : Nat) (data : Option (List (Option Byte))) (age rounds : Nat) (lock : Option Bool)
    (resp : FetchResp) (s : State) : Host.Outcome State Fault Refusal :=
  let k := match data with | some bytes => XbKind.write bytes | none => XbKind.read len
  if master < 24 ∧ burstOk addr k.len ∧ (lock = none ∨ (mayLock master ∧ beatsOf addr k.len = 1)) ∧ s.domainOn 2 then
    match s.xbPort master with
    | .closed => .next s
    | .quarantined => .next (s.answer master addr .targetErr)
    | .opened => .next ((s.enqueue master (tag % 256) k addr age lock resp).xbRun rounds)
    | .resetting => .next ((s.enqueue master (tag % 256) k addr age lock resp).xbRun rounds)
  else .next s

/-- A request of a quarantined master receives a target error (R227). -/
def State.failReq (s : State) (r : XbReq) : State :=
  if r.dead then s
  else
    match r.kind with
    | .hostRead n => s.hostReturn r.addr [(r.addr, n, .targetErr)]
    | .hostWrite _ => s.hostError r.addr .targetErr
    | .atomic _ n _ _ => (s.hostError r.addr .targetErr).emit (.hostData (hostBytes r.addr n .targetErr))
    | _ => s.answer r.master r.addr .targetErr

/-- The port of master `m` is quarantined (R227): XB shows it, its lock is broken with cause 1, and its transactions in flight are answered with
a target error and retired. -/
def State.quarantine (s : State) (m : Nat) : State :=
  let s1 := (((s.setFld R.XB_QUARANTINE_MASTER (withBit (s.fld R.XB_QUARANTINE_MASTER) m)).setFld
    R.XB_WDOG_LAST_VALID 1).setFld R.XB_WDOG_LAST_MASTER m).bump R.XB_WDOG_COUNT_COUNT
  let s2 := (s1.hif.queue.filter (fun r => r.master == m)).foldl (fun s r => s.failReq r) (s1.breakLocks m 1)
  (s2.retire m).raise R.XB_INT_STATUS_QUARANTINE

/-- Whether a request of master `m` that was forwarded is still to be retired. -/
def State.retiring (s : State) (m : Nat) : Bool := s.hif.queue.any (fun r => r.master == m && r.dead)

/-- Every ID of a resetting master is retired (R227, R228): its port is OPEN, or CLOSED where it is no longer enabled, and what waited in it goes
on, the ring engine's records among it. -/
def State.masterResetDone (s : State) (m : Nat) : State :=
  let s1 := if s.retiring m then s.xbDrain else s
  if m ∈ s1.hif.resetting ∧ s1.retiring m = false then
    let s2 : State := { s1 with hif := { s1.hif with resetting := s1.hif.resetting.filter (fun x => x != m) } }
    let s3 := if s2.hif.queue.isEmpty then s2 else s2.xbDrain
    if m = 18 then s3.flushAll else s3
  else s1

def execMasterResetDone (master : Nat) (s : State) : Host.Outcome State Fault Refusal := .next (s.masterResetDone master)

end Sys2Proof.Machine
end

