-- ==== Sys2Proof/Machine/HostPort.lean ====
section
/-! DEFINITION. Who reaches the crossbar and how an access ends for them (R36, R166, R215, R216, R222-R227): host reads and writes,
AtomicOps, register writes, requests of device masters, Mallet DMA. -/

namespace Sys2Proof.Machine

/-! ### The host (R215, R216) -/

/-- The host reaches the device: CTRL is powered, the link is up and the function is in D0 (R36, R215). -/
def State.hostReaches (s : State) : Bool := s.domainOn 2 && decide (s.fld R.HIF_LINK_UP = 1) && !s.hif.d3hot

/-- The internal address of a BAR offset (R34, R215); none beyond the BAR. -/
def barAddr (bar2 : Bool) (off len : Nat) : Option Nat :=
  if bar2 then if off + len ≤ 0x10000000 then some off else none
  else if off + len ≤ 0x2000000 then some (0x14000000 + off) else none

/-- A request of the host waits in HIF's port (R227). -/
def State.holdHost (s : State) (k : XbKind) (a : Nat) : State := s.enqueue 0 0 k a s.ageNow none .error

/-- A host read (R216). -/
def State.hostRead (s : State) (a n : Nat) : State :=
  let p := s.reach 0 a
  match p.1 with
  | .stopped => p.2
  | .held => p.2.holdHost (.hostRead n) a
  | .refused => p.2.hostReturn a [(a, n, .targetErr)]
  | .forwarded => let r := p.2.busRead a n .error; r.2.hostReturn a r.1

/-- A posted host write (R216). -/
def State.hostWrite (s : State) (a : Nat) (data : List (Option Byte)) : State :=
  let p := s.reach 0 a
  match p.1 with
  | .stopped => p.2
  | .held => p.2.holdHost (.hostWrite data) a
  | .refused => p.2.hostError a .targetErr
  | .forwarded =>
    let r := p.2.busWrite 0 a data
    r.1.foldl (fun s x => s.hostError x.1 x.2) r.2

def execHostRead (bar2 : Bool) (off len : Nat) (s : State) : Host.Outcome State Fault Refusal :=
  match barAddr bar2 off len with
  | none => .next s
  | some a => .next (if s.hostReaches then s.hostRead a len else s)

def execHostWrite (bar2 : Bool) (off : Nat) (data : List (Option Byte)) (s : State) : Host.Outcome State Fault Refusal :=
  match barAddr bar2 off data.length with
  | none => .next s
  | some a => .next (if s.hostReaches then s.hostWrite a data else s)

/-- An AtomicOp on BAR2 (R215, R224). One to BAR0, or one that is not naturally aligned, is completed as Unsupported Request. -/
def State.atomic (s : State) (a : Nat) (op : AtomicOp) (n operand compare : Nat) : State :=
  let p := s.reach 0 a
  match p.1 with
  | .stopped => p.2
  | .held => p.2.holdHost (.atomic op n operand compare) a
  | .refused => (p.2.hostError a .targetErr).emit (.hostData (hostBytes a n .targetErr))
  | .forwarded => p.2.atomicRun a op n operand compare

def execAtomicOp (bar2 : Bool) (off : Nat) (op : AtomicOp) (wide : Bool) (operand compare : Nat) (s : State) :
    Host.Outcome State Fault Refusal :=
  let n := if wide then 8 else 4
  match barAddr bar2 off n with
  | none => .next s
  | some a =>
    if s.hostReaches = false then .next s
    else if bar2 = false then .next ((s.raise R.HIF_ERR_STATUS_ATOMIC_UR).emit .hostUr)
    else if a % n ≠ 0 then .next (s.emit .hostUr)
    else .next (s.atomic a op n operand compare)

/-! ### Register writes and crossbar requests -/

/-- A request of one word by master `m` waits in its port (R227). -/
def State.holdWord (s : State) (m a : Nat) (k : XbKind) : State := s.enqueue m 0 k a s.ageNow none .error

/-- A write of one register word by master `m`, which `f` performs, as it comes through the crossbar (R4, R32, R36, R226, R227). -/
def State.through (s : State) (m a : Nat) (v : Word) (f : State → XbResp × State) : State :=
  let p := s.reach m a
  match p.1 with
  | .stopped => p.2
  | .held => p.2.holdWord m a (.write ((leBytes 4 v.toNat).map some))
  | .refused => p.2.answer m a .targetErr
  | .forwarded =>
    let r := p.2.delivered m a v f
    r.2.answer m a r.1

/-- A read of one register word by master `m`, which `f` performs (R32, R36, R226, R227). -/
def State.throughRead (s : State) (m a : Nat) (f : State → Nat × State) : State :=
  let p := s.reach m a
  match p.1 with
  | .stopped => p.2
  | .held => p.2.holdWord m a (.read 4)
  | .refused => p.2.answer m a .targetErr
  | .forwarded =>
    if targetDomain a ≠ 0 ∧ p.2.domainOn (targetDomain a) then
      let r := f p.2
      r.2.answer m a (.data (leBytes 4 r.1))
    else (p.2.countDecErr a).answer m a .decodeErr

/-- A write of bytes by master `m` into a memory target (R217, R226, R227). -/
def State.throughBytes (s : State) (m a : Nat) (data : List (Option Byte)) : State :=
  let p := s.reach m a
  match p.1 with
  | .stopped => p.2
  | .held => p.2.holdWord m a (.write data)
  | .refused => p.2.answer m a .targetErr
  | .forwarded =>
    let r := p.2.busWrite m a data
    r.2.answer m a (joinWrites r.1)

/-- A write to a register that has no row of its own (R4): by master `master`, 32 bits. -/
def execRegisterWrite (master addr : Nat) (value : Word) (s : State) : Host.Outcome State Fault Refusal :=
  .next (s.throughBytes master addr ((leBytes 4 value.toNat).map some))

/-- At each token the waits of the block that ended are shown (R225, R245). -/
def State.conflictRoll (s : State) : State :=
  let n := min s.hif.waits 65535
  let s1 := (s.setFld R.XB_CONFLICT_LAST n).peak R.XB_CONFLICT_PEAK n
  { s1 with hif := { s1.hif with waits := 0 } }

/-! ### Mallet DMA (R166) -/

/-- The words that external bytes stand for: 3 bytes each with PACK, otherwise the low 24 bits of a 32-bit container. -/
def dmaWords (pack : Bool) (n : Nat) (bs : List Byte) : List Nat :=
  (List.range n).map (fun j => if pack then leAt bs (3 * j) 3 else leAt bs (4 * j) 3)

/-- The external bytes of words: PACK, or sign-extended containers. -/
def dmaBytes (pack : Bool) (ws : List Nat) : List Byte :=
  ws.flatMap (fun w => if pack then leBytes 3 w else leBytes 4 (codeS 32 (ofCodeS 24 w)))

/-- A channel ends: with DONE and its source, or with ERR and source 4. -/
def State.dmaEnd (s : State) (g ch : Nat) (err : Bool) (left : Nat) : State :=
  let c := s.core g
  let s1 := ((s.setCore g { c with dma := Tbl.erase ch c.dma }).setFld (R.CCR_DMA_STATUS_BUSY g ch) 0).setFld
    (R.CCR_DMA_STATUS_REMAIN g ch) left
  if err then
    ((s1.setFld (R.CCR_DMA_STATUS_ERR g ch) 1).raiseSource g 4).countAndRaise (R.MAL_CL_DMA_ERR_COUNT_COUNT (g / 16))
      (R.MAL_CL_INT_STATUS_DMA_ERR (g / 16))
  else (s1.setFld (R.CCR_DMA_STATUS_DONE g ch) 1).raiseSource g ch

/-- The words of a transfer's bytes, as the bus carries them. -/
def busBeats (bs : List Byte) : List (List Byte) := (List.range (ceilDiv bs.length 4)).map (fun i => slice bs (4 * i) 4)

/-- Write bus words in order from address `a` (R166): how many went, whether all did, and the state after. The first error ends it. -/
def State.dmaOut (s : State) (m a : Nat) : List (List Byte) → Nat × Bool × State
  | [] => (0, true, s)
  | b :: bs =>
    let p := s.reach m a
    if p.1 = .forwarded then
      let r := p.2.busWrite m a (b.map some)
      match joinWrites r.1 with
      | .ok => let x := r.2.dmaOut m (a + 4) bs; (x.1 + 1, x.2)
      | _ => (0, false, r.2)
    else (0, false, p.2)

/-- Read `n` bus words in order from address `a` (R166): their bytes, whether all came, and the state after. The first error ends it. -/
def State.dmaIn (s : State) (m a : Nat) (ext : List Byte) (ok : Bool) : Nat → List Byte × Bool × State
  | 0 => ([], true, s)
  | n + 1 =>
    let p := s.reach m a
    if p.1 = .forwarded then
      let r := p.2.busRead a 4 (if ok then .data (ext.take 4) else .error)
      match joinReads r.1 with
      | .data bs => let x := r.2.dmaIn m (a + 4) (ext.drop 4) ok n; (bs ++ x.1, x.2)
      | _ => ([], false, r.2)
    else ([], false, p.2)

/-- Whether a transfer waits in its port (R227): one of its words would be held there, or there is no port. -/
def State.dmaHeld (s : State) (m : Nat) (d : Dma) (n : Nat) : Bool :=
  (List.range (ceilDiv n 4)).any (fun i => decide (s.passage m (d.ext + 4 * i) = .held ∨ s.passage m (d.ext + 4 * i) = .stopped))

/-- A transfer runs and ends (R166), bus word by bus word: at the first error response it stops, and REMAIN shows the words not moved. -/
def State.dmaRun (s : State) (g ch : Nat) (d : Dma) (resp : FetchResp) : State :=
  let m := 6 + g / 16
  let size := if d.pack then 3 else 4
  let n := d.count * size
  if s.dmaHeld m d n then s
  else
    -- the bytes the target was asked for, with the failed bus word where the port let it through
    let asked := fun (moved : Nat) (ok : Bool) => if ok then n else moved + (if s.passage m (d.ext + moved) = .forwarded then 4 else 0)
    if d.toExt then
      let r := s.dmaOut m d.ext (busBeats (dmaBytes d.pack ((List.range d.count).map (fun j => s.dataWord g (d.local0 + j)))))
      (r.2.2.regionAccess (g / 16) d.ext (asked (4 * r.1) r.2.1)).dmaEnd g ch (!r.2.1) (if r.2.1 then 0 else d.count - 4 * r.1 / size)
    else
      let r := s.dmaIn m d.ext (match resp with | .data bs => bs | .error => []) (match resp with | .data _ => true | .error => false) (ceilDiv n 4)
      let moved := min d.count (r.1.length / size)
      ((r.2.2.regionAccess (g / 16) d.ext (asked r.1.length r.2.1)).putData g d.local0 (dmaWords d.pack moved r.1)).dmaEnd g ch (!r.2.1) (d.count - moved)

def execDmaComplete (core channel : Nat) (resp : FetchResp) (s : State) : Host.Outcome State Fault Refusal :=
  match Tbl.find channel (s.core core).dma with
  | none => .next s
  | some d => .next (s.dmaRun core channel d resp)

end Sys2Proof.Machine
end

