-- ==== Sys2Proof/Machine/Fetch.lean ====
section
/-! DEFINITION. What the device's engines fetch on behalf of commands, each through its own master's port (R115, R134, R171, R204, R220, R227,
R284), and the watchdog and the outbound timeout that end what is in flight (R218, R227). -/

namespace Sys2Proof.Machine

/-- The list or data a command names: its internal address and its length in bytes (R112, R134, R171, R204, R284). -/
def Cmd.range : Cmd → Nat × Nat
  | .xpList a n _ => (a, 8 * n)
  | .coefWrite _ _ _ n a => (a, 4 * n)
  | .paramList _ n a => (a, 8 * n)
  | .delayList n _ a => (a, 8 * n)
  | .netSend _ _ n a => (a, n)
  | _ => (0, 0)

/-- The master by which an engine fetches what a command names (R220). -/
def fetchMaster (e : Engine) (c : Cmd) : Nat :=
  match e, c with
  | .cln, _ => 4
  | .chm, _ => 5
  | .mal k, _ => 6 + k
  | .dpl, _ => 10
  | .net, .netSend port _ _ _ => 11 + port % 4
  | _, _ => 18

/-- Fetch `n` bytes at `a` by master `m`: none where the request is held at its port (R227); otherwise the bytes, or an error response. A
master that is not enabled gets nothing. -/
def State.masterFetch (s : State) (m a n : Nat) (resp : FetchResp) : Option (Option (List Byte) × State) :=
  let p := s.reach m a
  match p.1 with
  | .forwarded =>
    let r := p.2.busRead a n resp
    match joinReads r.1 with
    | .data bs => some (if bs.length = n then some bs else none, r.2)
    | _ => some (none, r.2)
  | .refused => some (none, p.2)
  | .held => none
  | .stopped => some (none, p.2)

/-- End the fetch of a held command that satisfies `p`; `resp` is what the host returns for one in host memory (R211, R218). -/
def State.fetchDone (s : State) (id : Nat) (resp : FetchResp) (p : Cmd → Bool) : State :=
  match s.held.find? (fun h => h.id == id && p h.cmd) with
  | none => s
  | some h =>
    if h.fetch ≠ .running then s
    else
      match s.masterFetch (fetchMaster h.eng h.cmd) h.cmd.range.1 h.cmd.range.2 resp with
      | none => s
      | some (some bs, s') => s'.setFetch id (.done bs)
      | some (none, s') => s'.setFetch id .failed

def execXpListFetchDone (id : Nat) (resp : FetchResp) (s : State) : Host.Outcome State Fault Refusal :=
  .next (s.fetchDone id resp (fun c => match c with | .xpList .. => true | _ => false))

def execCoefWriteFetchDone (id : Nat) (resp : FetchResp) (s : State) : Host.Outcome State Fault Refusal :=
  .next (s.fetchDone id resp (fun c => match c with | .coefWrite .. => true | _ => false))

def execParamListFetchDone (id : Nat) (resp : FetchResp) (s : State) : Host.Outcome State Fault Refusal :=
  .next (s.fetchDone id resp (fun c => match c with | .paramList .. => true | _ => false))

def execDelayListFetchDone (id : Nat) (resp : FetchResp) (s : State) : Host.Outcome State Fault Refusal :=
  .next (s.fetchDone id resp (fun c => match c with | .delayList .. => true | _ => false))

/-- A NET_SEND given as a row: it fetches its frame and queues it (R284). One out of range, or whose fetch fails, is discarded. -/
def execNetSend (port flags length addr : Nat) (resp : FetchResp) (s : State) : Host.Outcome State Fault Refusal :=
  if sendValid port flags length then
    match s.masterFetch (11 + port % 4) addr length resp with
    | none => .next s
    | some p =>
      let h := { heldOf .net (.netSend port flags length addr) .notNeeded with id := s.heldNext }
      match p.2.netQueue h false port flags length p.1 with
      | some s' => .next { s' with heldNext := s'.heldNext + 1 }
      | none => .next p.2.netReject
  else .next s.netReject

/-- The fetches of a master that are in flight end with an error response (R227): those of held commands, and a cluster's DMA transfers. -/
def State.failFetches (s : State) (m : Nat) : State :=
  let s1 := (s.held.filter (fun h => decide (h.fetch = .running) && fetchMaster h.eng h.cmd == m)).foldl (fun s h => s.setFetch h.id .failed) s
  if 6 ≤ m ∧ m < 10 then
    (List.range 16).foldl (fun s c =>
      let g := 16 * (m - 6) + c
      (s.core g).dma.foldl (fun s e => s.dmaEnd g e.1 true e.2.count) s) s1
  else s1

/-- A master has not accepted a read beat or a write response, offered for `nanos` ns (R227): after 4 µs it is quarantined. -/
def execXbWatchdogQuarantine (master nanos : Nat) (s : State) : Host.Outcome State Fault Refusal :=
  .next (if master < 24 ∧ 4000 ≤ nanos ∧ s.xbPort master = .opened then (s.quarantine master).failFetches master else s)

/-- An outbound read of master `m` meets no completion in time (R218): one that the crossbar has forwarded, the fetch of a held command, or one of a
command that ends with it. -/
def State.obTimeout (s : State) (m : Nat) : State :=
  match s.hif.queue.find? (fun r => r.master == m && r.admitted && r.answer.isNone && !r.kind.writes && decide (targetOf r.addr = .outbound)) with
  | some r =>
    let s1 := s.setReq r.id (fun r => { r with resp := .error })
    s1.xbRounds (s1.targetNumber r.addr) s1.xbWork
  | none =>
    let s1 := s.raise R.HIF_ERR_STATUS_OB_TIMEOUT
    match s.held.find? (fun h => decide (h.fetch = .running ∧ targetOf h.cmd.range.1 = .outbound) && fetchMaster h.eng h.cmd == m) with
    | some h => s1.setFetch h.id .failed
    | none => s1.emit (.response m .targetErr)

def execObTimeout (master : Nat) (s : State) : Host.Outcome State Fault Refusal := .next (s.obTimeout master)

end Sys2Proof.Machine
end

