-- ==== Sys2Proof/Machine/Apply.lean ====
section
/-! DEFINITION. Commands from a ring to their effect (R230-R237, R345, R346): the fetch of a descriptor, the hand-over to an engine,
WRITE32, and the application of a held command at its engine's boundary. -/

namespace Sys2Proof.Machine

/-! ### WRITE32 (R231, R235) -/

/-- A write of the ring engine, plain or masked as a locked sequence (R224, R231): none where it is held at the engine's port (R227), otherwise its
completion status. `ext` is what the host returns on a masked write into an outbound window. -/
def State.doWrite32 (s : State) (a : Nat) (value mask : Word) (ext : FetchResp) : Option (Nat × State) :=
  let p := s.reach 18 a
  match p.1 with
  | .held => none
  | .stopped => none
  | .refused => some (5, p.2)
  | .forwarded =>
    let put := fun (s : State) (v : Word) =>
      let w := s.busWrite 18 a ((leBytes 4 v.toNat).map some)
      (if joinWrites w.1 = .ok then 0 else 5, w.2)
    if mask = 0xFFFFFFFF then some (put p.2 value)
    else
      let r := p.2.busRead a 4 ext
      match joinReads r.1 with
      | .data bs => some (put r.2 ((BitVec.ofNat 32 (leNat bs) &&& ~~~mask) ||| (value &&& mask)))
      | _ => some (5, r.2)

/-- Whether a WRITE32 with a stamp is issued now: unstamped, at or after token B − 1 (R235). -/
def State.write32Due (s : State) (stamp : Option Nat) : Bool :=
  match stamp with | none => true | some b => decide (b ≤ s.blk.index + 1)

/-- Issue a WRITE32 and complete it: late where its response comes after token B. None where its port holds it. -/
def State.issueWrite32 (s : State) (h : Held) (a : Nat) (value mask : Word) (ext : FetchResp) : Option State :=
  match s.doWrite32 a value mask ext with
  | none => none
  | some r =>
    let late : Bool := match h.stamp with | some b => decide (b ≤ s.blk.index) | none => false
    some (r.2.complete h (if r.1 = 0 ∧ late = true then 1 else r.1))

/-! ### Hand-over (R232, R346) -/

/-- The engine holds 1024 stamped commands (R232). -/
def State.holdFull (s : State) (e : Engine) : Bool :=
  decide (1024 ≤ (s.held.filter (fun h => decide (h.eng = e) && h.stamp.isSome)).length)

/-- The CONTROL object of a command (R343): PORT_MUTE of AES transceivers belongs to AES; NET_SEND to none. -/
def cmdObject (e : Engine) : Cmd → Nat
  | .portMute kind .. => if kind = 0 then 5 else 6
  | .netSend .. => 0
  | _ => Engine.object e

/-- How the fetch of a command's list or data starts (R115, R134, R171, R204): an XP_LIST waits while four are held. -/
def State.firstFetch (s : State) : Cmd → Fetch
  | .xpList .. => if (s.held.filter (fun h => match h.cmd with | .xpList .. => true | _ => false)).length < 4 then .running else .waiting
  | .coefWrite .. => .running
  | .paramList .. => .running
  | .delayList .. => .running
  | _ => .notNeeded

/-- Hand a command of a ring to its engine: held, mirrored where Flam mirrors its block (R345). -/
def State.toEngine (s : State) (h : Held) : State :=
  let o := cmdObject h.eng h.cmd
  let mirrored := o != 0 && s.mirrors o
  if s.beyond h.stamp then s.completeNow h 6
  else if mirrored ∧ s.flmState ≠ 0 ∧ s.flmState ≠ 4 ∧ s.flmState ≠ 5 then (s.bump R.FLM_REFUSED_COUNT_COUNT).completeNow h 2
  else if s.domainOn (engineDomain h.eng) = false then s.completeNow h 2
  else
    let f := s.firstFetch h.cmd
    let k := s.blk.index + 2
    let m := mirrored && decide (s.flmState = 4 ∨ s.flmState = 5)
    let s1 := s.hold { h with fetch := f, mirrorAt := if m then some k else none }
    if m then s1.emit (.flmChange h.eng h.cmd h.stamp k) else s1

/-- Take the entry at HEAD as a descriptor says (R231-R238). -/
def State.handOver (s : State) (n : Nat) (bs : List Byte) : State :=
  let d := descrOf bs
  let full := fun (e : Engine) => s.setRing n { s.ring n with holdWait := s.holdFull e }
  match d.judge with
  | none =>
    let q := s.takeEntry n
    q.2.complete (ringHeld n q.1 .ring .nop none d.cpl d.irq d.opcode d.cookie) 4
  | some .nop => s.takeNop n d.cookie d.cpl d.irq d.stamp
  | some (.fence r en i) =>
    let q := s.takeEntry n
    q.2.startFence n q.1 d.cpl d.irq d.cookie r en i
  | some (.write32 a v k) =>
    if s.holdFull .ring then full .ring
    else
      let q := s.takeEntry n
      let h := ringHeld n q.1 .ring (.write32 a v k) d.stamp d.cpl d.irq 2 d.cookie
      if a % 4 ≠ 0 then q.2.complete h 2
      else if q.2.beyond d.stamp then q.2.complete h 6
      else q.2.hold h
  | some (.engine e c) =>
    if s.holdFull e then full e
    else
      let q := s.takeEntry n
      q.2.toEngine (ringHeld n q.1 e c d.stamp d.cpl d.irq d.opcode d.cookie)

/-- The fetch of the descriptor at HEAD returned an error (R237, R239): the command is discarded with status 0x05, and the ring halts. The
OPCODE and COOKIE of its completion are open. -/
def State.fetchFailed (s : State) (n : Nat) : State :=
  let o := s.fresh
  let c := o.2.fresh
  let q := c.2.takeEntry n
  (q.2.complete (ringHeld n q.1 .ring .nop none false false (o.1 % 256) (c.1 % 2 ^ 32)) 5).haltRing n

/-- The ring engine fetches the descriptor at HEAD of a ring (R232, R239); `resp` is what the host returns for a ring in host
memory. -/
def State.ringFetch (s : State) (n : Nat) (resp : FetchResp) : State :=
  if s.mayFetch n then
    match s.masterFetch 18 (s.ringAddr n (s.fld (R.RNG_HEAD_INDEX n))) 32 resp with
    | none => s
    | some (some bs, s1) => s1.handOver n bs
    | some (none, s1) => s1.fetchFailed n
  else s

def execRingFetch (ring : Nat) (resp : FetchResp) (s : State) : Host.Outcome State Fault Refusal := .next (s.ringFetch ring resp)

/-- A WRITE32 at HEAD of a ring (R231, R235): issued at once, or held until token B − 1. -/
def execWrite32 (ring cookie : Nat) (cpl irq : Bool) (stamp : Option Nat) (addr : Nat) (value mask : Word) (resp : FetchResp)
    (s : State) : Host.Outcome State Fault Refusal :=
  if s.mayFetch ring ∧ s.holdFull .ring = false then
    let q := s.takeEntry ring
    let h := ringHeld ring q.1 .ring (.write32 addr value mask) stamp cpl irq 2 cookie
    if addr % 4 ≠ 0 then .next (q.2.complete h 2)
    else if q.2.beyond stamp then .next (q.2.complete h 6)
    else if q.2.write32Due stamp then .next ((q.2.issueWrite32 h addr value mask resp).getD (q.2.hold h))
    else .next (q.2.hold h)
  else .next s

/-! ### Application at a boundary (R63, R114, R135, R232, R233, R311, R338, R345) -/

/-- A held register write takes effect: what Clave and Beater apply in turn, a mirrored coefficient, or any other register. A port reads
its registers once the last one of its boundary has applied (R259). -/
def State.applyRegWrite (s : State) (h : Held) (a : Nat) (v : Word) : State :=
  if h.eng = .clv ∧ (a = 0x140D0004 ∨ (0x140D0104 ≤ a ∧ a < 0x140D0304 ∧ a % 32 = 4)) then (s.clvApply h.cmd).2
  else if h.eng = .beat ∧ 0x14301000 ≤ a ∧ a < 0x14301800 then (s.beatApply h.cmd).2
  else if targetOf a = .coefs then (s.chmWindowWrite a ((leBytes 3 v.toNat).map some)).2
  else if h.eng = .prt then
    let s1 := ((s.writeReg h.master a v).2).unhold h.id
    ((s.cmdIslands .prt h.cmd).flatMap islandUnits).foldl (fun s u => if s.writeDue u then s else s.settleUnit u) s1
  else (s.writeReg h.master a v).2

/-- One held command at its engine's boundary: none where it has to wait, otherwise its status and the state after. -/
def State.applyCmd (s : State) (h : Held) : Option (Nat × State) :=
  match h.cmd with
  | .regWrite a v => some (0, s.applyRegWrite h a v)
  | _ =>
    match h.eng with
    | .ring => some (2, s)
    | .cln => s.clnApply h.cmd h.fetch
    | .chm => s.chmApply h.cmd h.fetch
    | .mal cl => s.malApply cl h.cmd h.fetch
    | .dpl => s.dplApply h.cmd h.fetch
    | .prt => some (s.prtApply h.cmd)
    | .net => match h.cmd with
      | .streamMute first count mute ramp => some (s.streamMute first count mute ramp)
      | _ => some (2, s.netReject)
    | .clv => some (s.clvApply h.cmd)
    | .beat => some (s.beatApply h.cmd)
    | .flm => some (s.flmApply h.cmd h.stamp)

/-- Whether a command that has to wait at its boundary waits whole, holding back those behind it (R115, R135), rather than for its
fetch. -/
def Held.waitsWhole (h : Held) : Bool := decide (h.fetch ≠ .running) && decide (h.eng = .cln ∨ h.eng = .chm)

/-- The commands that wait at a boundary are counted where their engine counts that (R115, R170): `n` of Carillon's, a command of a
Mallet cluster. -/
def State.countDefer (s : State) (h : Held) (n : Nat) : State :=
  match h.eng, h.cmd with
  | .cln, _ => if h.fetch = .running then s else (List.range n).foldl (fun s _ => s.clnDefer) s
  | .mal _, .paramWrite .. => s
  | .mal cl, _ => if h.fetch = .running then s else s.malDefer cl
  | _, _ => s

/-- A held command waits for the next boundary. -/
def State.letWait (s : State) (h : Held) : State := (s.deferHeld h h.waitsWhole).countDefer h (s.waitCount h h.waitsWhole)

/-- A command that applies after its stamp, or after a boundary at which it had to wait, in its engine's own counter (R115, R135,
R203, R232) and in Flam's (R345). -/
def State.countLateCmd (s : State) (h : Held) (status : Nat) : State :=
  let s1 := match h.eng with
    | .cln => if status = 1 then s.countAndRaise R.CLN_CMD_LATE_COUNT R.CLN_INT_STATUS_CMD_LATE else s
    | .chm => if status = 1 ∨ (status = 0 ∧ h.late) then s.chmLate else s
    | .dpl => if status = 1 then s.dplLate else s
    | _ => s
  match h.mirrorAt, h.stamp with
  | some k, some b => if status = 1 ∧ b < k then s1.bump R.FLM_LATE_COUNT_COUNT else s1
  | _, _ => s1

/-- An XP_LIST has left Carillon's hold: the fetch of the oldest that waits starts (R115). -/
def State.nextList (s : State) : State :=
  match s.held.find? (fun h => decide (h.fetch = .waiting)) with
  | some h => s.setFetch h.id .running
  | none => s

/-- The engine of a commit set. -/
def commitEngine : CommitBlk → Option Engine
  | .cln => some .cln
  | .aes _ => some .prt
  | .net _ => some .net
  | .wc _ => some .clv
  | _ => none

/-- A commit of the engine's block is due at this boundary and has not been applied: it goes first (R30). -/
def State.commitFirst (s : State) (e : Engine) : Bool :=
  s.commits.any (fun p => decide (commitEngine p.blk = some e) && s.commitPoint p)

/-- What follows the application of a held command: it leaves the hold, MIRROR_GEN rises where it is a mirrored change (R357), and it
completes. -/
def State.finishCmd (s : State) (h : Held) (status : Nat) : State :=
  let s1 := (s.unhold h.id).countLateCmd h status
  let s2 := match h.cmd with | .xpList .. => s1.nextList | _ => s1
  let s3 := if h.mirrorAt.isSome ∧ status ≤ 1 then s2.mirrorApplied s.blk.index else s2
  s3.complete h status

/-- The status of an application (R237): a failed fetch, or an application after the stamp. -/
def applyStatus (h : Held) (b status : Nat) : Nat :=
  if status = 2 ∧ h.fetch = .failed then 5
  else if status = 0 then (match h.stamp with | some k => if k < b then 1 else 0 | none => 0)
  else status

/-- NET_SEND at its boundary (R284): its frame is fetched and queued, and completes when it has been sent. One out of range, or whose
fetch fails, is discarded. -/
def State.applySend (s : State) (h : Held) (port flags length addr : Nat) (resp : FetchResp) : State :=
  let b := (s.cmdBoundary h).1
  let late := match h.stamp with | some k => decide (k < b) | none => false
  if sendValid port flags length then
    match s.masterFetch (11 + port % 4) addr length resp with
    | none => s
    | some p => ((p.2.unhold h.id).netQueue h late port flags length p.1).getD ((p.2.unhold h.id).netReject.complete h 2)
  else (s.unhold h.id).netReject.complete h 2

/-- The engine applies the next command that is due at its boundary. -/
def State.engineApply (s : State) (e : Engine) (resp : FetchResp) : State :=
  if s.commitFirst e then s
  else
    match s.nextDue e with
    | none => s
    | some h =>
      if s.stale h then
        (s.unhold h.id).discardStale h
      else
        match h.cmd with
        | .netSend port flags length addr => s.applySend h port flags length addr resp
        | _ =>
          match s.applyCmd h with
          | none => s.letWait h
          | some (st, s') => s'.finishCmd h (applyStatus h (s.cmdBoundary h).1 st)

/-- The ring engine issues the next WRITE32 whose time has come, in the order of arrival (R235). -/
def State.ringApply (s : State) (resp : FetchResp) : State :=
  match s.held.find? (fun h => decide (h.eng = .ring) && s.write32Due h.stamp) with
  | none => s
  | some h =>
    match h.cmd with
    | .write32 a v m => ((s.unhold h.id).issueWrite32 h a v m resp).getD s
    | _ => s.unhold h.id

def execCmdApply (e : Engine) (resp : FetchResp) (s : State) : Host.Outcome State Fault Refusal :=
  .next (if e = .ring then s.ringApply resp else s.engineApply e resp)

/-! ### Mirror messages on the chip that follows (R345-R349) -/

/-- A ring command of the peer: held for its block, with its stamp (R345). -/
def State.mirrorEntry (s : State) (bs : List Byte) (data : Option (List Byte)) (blk : Nat) : State :=
  let d := descrOf bs
  match d.judge with
  | some (.engine e c) =>
    if s.mirrors (cmdObject e c) then
      let f : Fetch := if s.firstFetch c = .notNeeded then .notNeeded else match data with | some xs => .done xs | none => .failed
      s.hold { heldOf e c f with stamp := d.stamp, opcode := d.opcode, mirrorAt := some blk, master := 15 }
    else s
  | _ => s

/-- A register or window write of the peer (R345): a shadow takes it now, a commit and any other change wait for block `blk`. -/
def State.mirrorWrite (s : State) (a : Nat) (v : Word) (blk : Nat) : State :=
  let o := s.mirrorObject a
  if o = 0 ∨ s.mirrors o = false then s
  else
    match allCommitBlks.find? (fun b => decide (commitAddr b = a + 4)) with
    | some b =>
      let s1 := s.commitWrite b v.toNat 15
      { s1 with commits := s1.commits.map (fun p => if p.blk = b ∧ s.heldNext ≤ p.id then { p with mirrorAt := some blk } else p) }
    | none =>
      if (regFields a).any (fun p => decide (p.2 = .rws)) then (s.writeReg 15 a v).2
      else if (0x11000000 ≤ a ∧ a < 0x11800000) ∨ o = 4 then
        let s1 := (s.writeReg 15 a v).2
        { s1 with held := s1.held.map (fun h => if s.heldNext ≤ h.id then { h with master := 15, mirrorAt := some blk } else h) }
      else s.hold { heldOf (objectEngine o) (.regWrite a v) .notNeeded with master := 15, mirrorAt := some blk }

/-- A mirror message of the peer (R345-R349): changes to mirrored objects reach a chip that follows; the rest waits for its block. -/
def State.mirrorMsg (s : State) (blk : Nat) (items : List MirrorItem) (regions : List (Nat × List Nat)) : State :=
  let follows := decide (s.flmState = 2 ∨ s.flmState = 3)
  let s1 := items.foldl (fun (s : State) i =>
    match i with
    | .entry bs data k => if follows then s.mirrorEntry bs data k else s
    | .write a v k => if follows then s.mirrorWrite a v k else s
    | _ => { s with flm := { s.flm with items := s.flm.items ++ [i] } }) s
  if regions = [] then s1 else { s1 with flm := { s1.flm with peer := (blk, regions) :: s1.flm.peer } }

def execFlmMirrorMsgRx (blk : Nat) (items : List MirrorItem) (regions : List (Nat × List Nat)) (s : State) :
    Host.Outcome State Fault Refusal :=
  if s.flm.operates ∧ s.flmState ≠ 0 ∧ (s.fld R.FLM_LINK_UP_00 = 1 ∨ s.fld R.FLM_LINK_UP_01 = 1) then
    .next (s.mirrorMsg blk items regions)
  else .next s

end Sys2Proof.Machine
end

