-- ==== Sys2Proof/Machine/RegCommands.lean ====
section
/-! DEFINITION. The commands that are reads and writes of registers and windows with an effect of their own, as they come through the
crossbar (R4, R32, R36, R216, R345). Where a row names no master, the host sends it (notes/assumptions/44). -/

namespace Sys2Proof.Machine

/-- A write by the host of the register at `a`. -/
def State.hostSet (s : State) (a : Nat) (v : Word) (f : State → State) : State := s.through 0 a v (fun s => (.ok, f s))

/-- A write of a register's CLEAR bit by the host. -/
def State.hostClear (s : State) (a : Nat) (fs : List Fld) : State := s.hostSet a 1 (fun s => s.clearFlds fs)

/-! ### Commits (R24, R27, R29) -/

/-- The word of xxx_COMMIT with GO. -/
def goWord (tag whenCode : Nat) : Word := BitVec.ofNat 32 (tag % 256 * 256 + whenCode % 4 * 16 + 1)

/-- The address of xxx_COMMIT. -/
def commitReg (b : CommitBlk) : Nat := commitAddr b - 4

def execCommitGo (b : CommitBlk) (tag whenCode : Nat) (s : State) : Host.Outcome State Fault Refusal :=
  .next (s.hostSet (commitReg b) (goWord tag whenCode) (fun s => s.commitGo b (tag % 256) (whenCode % 4) 0))

def execCommitCancel (b : CommitBlk) (s : State) : Host.Outcome State Fault Refusal :=
  .next (s.hostSet (commitReg b) 2 (fun s => s.commitCancel b))

/-! ### Peal, swap and sequencer (R46, R48, R49, R60, R69, R90, R430) -/

def execPealLoadHost (s : State) : Host.Outcome State Fault Refusal := .next (s.hostSet 0x14060010 1 (fun s => s.loadHost))

def execPealLoadFlash (slot : Nat) (s : State) : Host.Outcome State Fault Refusal :=
  .next (s.hostSet 0x14060010 (BitVec.ofNat 32 (slot % 256 * 256 + 0x11)) (fun s => s.loadFlash (slot % 256)))

def execPealLoadAbort (s : State) : Host.Outcome State Fault Refusal := .next (s.hostSet 0x14060010 2 (fun s => s.loadAbort))

/-- A write into a peal plane (R49). -/
def execPlaneWrite (master addr : Nat) (data : List (Option Byte)) (s : State) : Host.Outcome State Fault Refusal :=
  if 0x0D000000 ≤ addr ∧ addr + data.length ≤ 0x10000000 then .next (s.throughBytes master addr data) else .next s

def execSwapAbort (s : State) : Host.Outcome State Fault Refusal := .next (s.hostSet 0x140600A8 1 (fun s => s.swapAbortWrite))

def execRealignRequest (key : Nat) (s : State) : Host.Outcome State Fault Refusal :=
  .next (s.hostSet 0x14040014 (BitVec.ofNat 32 key) (fun s => s.realignRequest (key % 65536)))

def execBlkIndexLoRead (master : Nat) (s : State) : Host.Outcome State Fault Refusal :=
  .next (s.throughRead master 0x14040008 (fun s => s.indexLoRead))

def execBlkCountClear (s : State) : Host.Outcome State Fault Refusal := .next (s.hostClear 0x14040040 blkCounts)

/-- A crossbar write into SXM (R74). -/
def execSxmWriteRefused (master addr : Nat) (s : State) : Host.Outcome State Fault Refusal :=
  if 0x10000000 ≤ addr ∧ addr < 0x10200000 then .next (s.through master addr 0 (fun s => s.sxmRefuse)) else .next s

/-! ### Carillon (R102, R117, R118, R120) -/

/-- A write into the crosspoint window. -/
def execXpWindowWrite (master addr : Nat) (value : Word) (s : State) : Host.Outcome State Fault Refusal :=
  if 0x11000000 ≤ addr ∧ addr < 0x11800000 then .next (s.through master addr value (fun s => s.xpWindowWrite addr value))
  else .next s

def execClnXpTgtWrite (value : Word) (s : State) : Host.Outcome State Fault Refusal :=
  .next (s.through 0 0x14100108 value (fun s => s.xpTgtWrite value))

def execClnRampSlotWrite (slot : Nat) (value : Word) (s : State) : Host.Outcome State Fault Refusal :=
  if 1 ≤ slot ∧ slot < 16 then .next (s.hostSet (0x14100040 + 4 * slot) value (fun s => s.rampSlotWrite slot value)) else .next s

def execClnCountClear (s : State) : Host.Outcome State Fault Refusal := .next (s.hostClear 0x1410031C clnCounts)

/-! ### Chimes (R130, R134, R137) -/

def execChmSelectWrite (value : Word) (s : State) : Host.Outcome State Fault Refusal :=
  .next (s.hostSet 0x14200020 value (fun s => s.chmSelectWrite value))

def execChmPresetReqWrite (value : Word) (s : State) : Host.Outcome State Fault Refusal :=
  .next (s.hostSet 0x14200024 value (fun s => s.chmPresetWrite value))

/-- A write into the coefficient window. -/
def execChmCoefWindowWrite (master addr : Nat) (data : List (Option Byte)) (s : State) : Host.Outcome State Fault Refusal :=
  if targetOf addr = .coefs then .next (s.throughBytes master addr data) else .next s

def execChmCwDataWrite (value : Word) (s : State) : Host.Outcome State Fault Refusal :=
  .next (s.through 0 0x14200014 value (fun s => s.cwDataWrite value))

def execChmCountClear (s : State) : Host.Outcome State Fault Refusal := .next (s.hostClear 0x14200110 chmCounts)

/-! ### Mallet (R168, R169, R173, R174) -/

def execMboxInWrite (core : Nat) (value : Word) (s : State) : Host.Outcome State Fault Refusal :=
  if core < 64 then .next (s.hostSet (ccrAddr core 0x0F) value (fun s => s.mboxInWrite core value)) else .next s

def execMboxOutRead (master core : Nat) (s : State) : Host.Outcome State Fault Refusal :=
  if core < 64 then .next (s.throughRead master (ccrAddr core 0x10) (fun s => s.mboxOutRead core)) else .next s

def execMalClBroadcastWrite (cluster : Nat) (value : Word) (s : State) : Host.Outcome State Fault Refusal :=
  if cluster < 4 then
    .next (s.hostSet (0x14800008 + 0x400000 * cluster) value (fun s => s.raiseMask cluster 9 (bits value.toNat 15 0)))
  else .next s

/-- Whether an offset in a cluster's registers lies in the program memories, or is a CCR other than MBOX_IN (R168). -/
def malProtected (o : Nat) : Bool :=
  decide ((0x100000 ≤ o ∧ o < 0x200000) ∨ (0x200000 ≤ o ∧ o < 0x210000 ∧ o % 0x1000 < 0x400 ∧ o % 0x1000 ≠ 0x3C))

/-- A write into a core's program memory or CCR window (R168). -/
def execMalProgramCcrWrite (master addr : Nat) (s : State) : Host.Outcome State Fault Refusal :=
  if 0x14800000 ≤ addr ∧ addr < 0x15800000 ∧ malProtected ((addr - 0x14800000) % 0x400000) then
    .next (s.through master addr 0 (fun s => (.targetErr, s.malRefuse ((addr - 0x14800000) / 0x400000))))
  else .next s

def execMalDataWindowWrite (master cluster word : Nat) (value : Word) (s : State) : Host.Outcome State Fault Refusal :=
  if cluster < 4 ∧ word < 0x10000 then
    .next (s.through master (0x14B00000 + 0x400000 * cluster + 4 * word) value (fun s => s.dataWindowWrite cluster word value))
  else .next s

def execMalClCountClear (cluster : Nat) (s : State) : Host.Outcome State Fault Refusal :=
  if cluster < 4 then .next (s.hostClear (0x14800024 + 0x400000 * cluster) (malCounts cluster)) else .next s

/-! ### The delay pool (R195, R203, R214) -/

def execDplDelaySetWrite (value : Word) (s : State) : Host.Outcome State Fault Refusal :=
  .next (s.hostSet 0x14080014 value (fun s => s.delaySetWrite value))

/-- A write into line storage by a master other than the engine (R195). -/
def execLineStorageWrite (master addr : Nat) (s : State) : Host.Outcome State Fault Refusal :=
  if addr < 0x10000000 ∧ s.lineProtected addr ∧ master ≠ 10 then
    .next (s.through master addr 0 (fun s => (.targetErr, s.raise R.DPL_INT_STATUS_LINE_WRITE)))
  else .next s

def execDplHashSeedWrite (value : Word) (s : State) : Host.Outcome State Fault Refusal :=
  .next (s.hostSet 0x1408000C value (fun s => s.hashSeedWrite value))

def execDplCountClear (s : State) : Host.Outcome State Fault Refusal := .next (s.hostClear 0x14080044 dplCounts)

/-! ### Crossbar, host interface and rings (R219, R228-R240, R245, R246) -/

/-- A write of XB_MASTER_RESET by master `master` (R228). -/
def execXbMasterReset (master : Nat) (value : Word) (s : State) : Host.Outcome State Fault Refusal :=
  .next (s.through master 0x14020008 value (fun s => (.ok, s.masterResetWrite value)))

def execXbCountClear (s : State) : Host.Outcome State Fault Refusal := .next (s.hostClear 0x14020028 xbCounts)

def execMsixTableWrite (word : Nat) (value : Word) (s : State) : Host.Outcome State Fault Refusal :=
  if word < 512 then .next (s.hostSet (0x14018000 + 4 * word) value (fun s => s.msixTableWrite word value.toNat)) else .next s

/-- A write of a register of a ring by the host: `reg` is its offset in the ring's registers. -/
def State.ringSet (s : State) (ring reg : Nat) (value : Word) (f : State → State) : State :=
  if ring < 64 then s.hostSet (0x14030000 + 32 * ring + reg) value f else s

/-- A write of RNG_CTRL with ENABLE 1 (R229, R246). -/
def execRingEnable (ring : Nat) (value : Word) (s : State) : Host.Outcome State Fault Refusal :=
  .next (s.ringSet ring 4 (value ||| 0x80000000) (fun s => s.ringCtrlWrite ring (value ||| 0x80000000)))

/-- A write of RNG_CTRL with ENABLE 0 (R239). -/
def execRingDisable (ring : Nat) (value : Word) (s : State) : Host.Outcome State Fault Refusal :=
  .next (s.ringSet ring 4 (value &&& 0x7FFFFFFF) (fun s => s.ringCtrlWrite ring (value &&& 0x7FFFFFFF)))

def execRingCfgWrite (ring : Nat) (value : Word) (s : State) : Host.Outcome State Fault Refusal :=
  .next (s.ringSet ring 0 value (fun s => s.ringCfgWrite ring value))

def execRingTailWrite (ring : Nat) (value : Word) (s : State) : Host.Outcome State Fault Refusal :=
  .next (s.ringSet ring 12 value (fun s => s.ringTailWrite ring value))

def execRingHeadWrite (ring : Nat) (value : Word) (s : State) : Host.Outcome State Fault Refusal :=
  .next (s.ringSet ring 8 value (fun s => s.ringHeadWrite ring value))

def execRingResizeRequest (ring : Nat) (value : Word) (s : State) : Host.Outcome State Fault Refusal :=
  .next (s.ringSet ring 16 (value ||| 0x10) (fun s => s.ringResize ring value))

def execRingResizeCancel (ring : Nat) (s : State) : Host.Outcome State Fault Refusal :=
  .next (s.ringSet ring 16 0x20 (fun s => if (s.ring ring).resize.isSome then s.abandonResize ring else s))

def execRngCountClear (s : State) : Host.Outcome State Fault Refusal :=
  .next (s.hostClear 0x1403100C [R.RNG_LATE_COUNT_COUNT, R.RNG_DISCARD_COUNT_COUNT, R.RNG_HOLD_WAIT_COUNT])

def execSysBarrierWrite (master token : Nat) (s : State) : Host.Outcome State Fault Refusal :=
  .next (s.through master 0x14000040 (BitVec.ofNat 32 token) (fun s => s.barrierWrite master token))

def execSysResetWrite (value : Word) (straps : Nat) (s : State) : Host.Outcome State Fault Refusal :=
  .next (s.hostSet 0x14000004 value (fun s => s.sysReset value.toNat straps))

/-! ### Ports, network and time (R259, R262, R269, R270, R285, R294-R296, R318) -/

def execPrtCtrlWrite (port : Nat) (value : Word) (s : State) : Host.Outcome State Fault Refusal :=
  if port < 16 then
    .next (s.hostSet (0x14090008 + 256 * port) value (fun s => s.portRegWrite 0 (0x14090008 + 256 * port) value))
  else .next s

def execAesCtrlWrite (n : Nat) (value : Word) (s : State) : Host.Outcome State Fault Refusal :=
  if n < 8 then .next (s.hostSet (0x140A0008 + 512 * n) value (fun s => s.portRegWrite 0 (0x140A0008 + 512 * n) value))
  else .next s

def execPrtMaskWrite (port : Nat) (mask : Word) (inGuard : Bool) (s : State) : Host.Outcome State Fault Refusal :=
  if port < 16 then .next (s.hostSet (0x14090010 + 256 * port) mask (fun s => s.prtMaskWrite port mask.toNat inGuard)) else .next s

def execPrtCountClear (ports : Nat) (s : State) : Host.Outcome State Fault Refusal :=
  .next (s.hostSet 0x14091004 (BitVec.ofNat 32 ports) (fun s => s.clearMasked 16 ports prtCounts))

def execAesCountClear (xcvrs : Nat) (s : State) : Host.Outcome State Fault Refusal :=
  .next (s.hostSet 0x140A1004 (BitVec.ofNat 32 xcvrs) (fun s => s.clearMasked 8 xcvrs aesCounts))

def execNetCtlRxReleaseWrite (port : Nat) (value : Word) (s : State) : Host.Outcome State Fault Refusal :=
  if port < 4 then .next (s.hostSet (0x140B002C + 1024 * port) value (fun s => s.ctlRelease port (value.toNat % 128))) else .next s

def execNetCountClear (value : Word) (s : State) : Host.Outcome State Fault Refusal :=
  .next (s.hostSet 0x140B1008 value (fun s => s.netCountClear value.toNat))

def execTuTimeLatchWrite (inst t : Nat) (s : State) : Host.Outcome State Fault Refusal :=
  if inst < 2 then .next (s.hostSet (0x140C0140 + 256 * inst) 1 (fun s => (s.seeTime t).latchTime inst t)) else .next s

/-- A read of TU_CAP_NS returns the oldest entry's nanoseconds and removes it (R294). -/
def execTuCapNsRead (master n : Nat) (s : State) : Host.Outcome State Fault Refusal :=
  if n < 4 then .next (s.throughRead master (0x140C060C + 32 * n) (fun s => ((s.capWords n).2.2, s.capPop n))) else .next s

def execPllPhaseStepWrite (n : Nat) (value : Word) (s : State) : Host.Outcome State Fault Refusal :=
  if n = 1 ∨ n = 2 then .next (s.hostSet (0x140E0030 + 256 * n) value (fun s => s.phaseStep n value.toNat)) else .next s

/-! ### Beater, Flam, panel, recorder, sideband (R327, R339, R361, R369, R378, R380) -/

/-- A write of BEAT_CTRL acts at the channel's boundary, after the commands there (R338). -/
def execBeatCtrlWrite (n : Nat) (value : Word) (s : State) : Host.Outcome State Fault Refusal :=
  if n < 32 then
    .next (s.hostSet (0x14301000 + 64 * n) value (fun s =>
      if s.bdefined n then s.hold (heldOf .beat (.regWrite (0x14301000 + 64 * n) value) .notNeeded) else s))
  else .next s

def execBeatCountClear (s : State) : Host.Outcome State Fault Refusal := .next (s.hostClear 0x14300010 beatCounts)

def execFlmHandoverWrite (value : Word) (s : State) : Host.Outcome State Fault Refusal :=
  .next (s.hostSet 0x14400070 value (fun s => s.flmHandoverWrite value.toNat))

def execFlmResyncWrite (value : Word) (s : State) : Host.Outcome State Fault Refusal :=
  .next (s.hostSet 0x14400074 value (fun s => s.flmResyncWrite value.toNat))

def execFlmRealignWrite (value : Word) (s : State) : Host.Outcome State Fault Refusal :=
  .next (s.hostSet 0x14400078 value (fun s => s.flmRealignWrite value.toNat))

def execFlmCountClear (s : State) : Host.Outcome State Fault Refusal := .next (s.hostClear 0x14400068 flmCounts)

def execTapMuteKeyWrite (value : Word) (s : State) : Host.Outcome State Fault Refusal :=
  .next (s.hostSet 0x140F000C value (fun s => s.muteKeyWrite value.toNat))

/-- A read of EVT_WINDOW by the host or the SMP. -/
def execEvtWindowRead (master : Nat) (s : State) : Host.Outcome State Fault Refusal :=
  .next (s.throughRead master 0x15F10034 (fun s => s.windowRead))

def execSmpHostGoWrite (value : Word) (s : State) : Host.Outcome State Fault Refusal :=
  .next (s.hostSet 0x15F20380 value (fun s => s.smpHostGo value.toNat))

end Sys2Proof.Machine
end

