-- ==== Sys2Proof/Machine/Token.lean ====
section
/-! DEFINITION. The block token (R16, R17, R67-R69): its issue, its arrival at an island, and the index step of a realignment. -/

namespace Sys2Proof.Machine

/-- What follows the issue of a token: gates, swap, Flam, waits counted per block, writes whose boundary has passed (R225, R232,
R241, R350). -/
def State.afterToken (s : State) (stepped : Bool) : State :=
  let k := s.blk.index
  let s1 := ((s.gateBoundary k).swapBoundary k).flmBoundary k
  let s2 := if stepped then s1 else s1.realignEnd
  let s3 := ((if s2.hif.queue.isEmpty then s2 else s2.xbDrain).flushAll.countHoldWaits).conflictRoll
  { s3 with hif := { s3.hif with hot := s3.hif.hot.filter (fun x => decide ((s3.boundary x.2.2.1).2 ≤ x.2.2.2)) } }

/-- The next token is issued (R16), once the stream packets of the one before have left (R277) and the power manager has acted at its
boundary; none once the device has gone to SENTRY. At token Q + 2 of a realignment the index is set from the time unit (R69). -/
def State.blockToken (s : State) (tuSample : Nat) : State :=
  if s.fld R.BLK_STATE_RUN = 1 ∧ s.domainOn 2 then
    let k := (s.blk.index + 1) % 2 ^ 48
    let s1 := s.drainStreams.pmuBoundary k
    if s1.mode = .sentry ∨ s1.fld R.BLK_STATE_RUN = 0 then s1
    else if s1.stepDue then (s1.stepIndex tuSample).afterToken true
    else ((s1.endRound).issueToken k tuSample).afterToken false
  else s

def execBlockToken (tuSample : Nat) (s : State) : Host.Outcome State Fault Refusal := .next (s.blockToken tuSample)

def execRealignSetIndex (tuSample : Nat) (s : State) : Host.Outcome State Fault Refusal :=
  .next (if s.stepDue then s.blockToken tuSample else s)

/-- The order of the last token that reached an island. -/
def State.arrivedSeq (s : State) (i : Nat) : Nat := (Tbl.get s.blk.arrived i (0, 0)).2

/-- What an island's blocks do at their boundary before any commit or command applies there; `first`: the engine's first island to
be reached, `last`: its last one. Flam's heartbeat leaves on both links once both islands have the token. -/
def State.islandBoundary (s : State) (i : Nat) (first last : Bool) : State :=
  if i < 2 then s
  else if i < 6 then (if first then s.clnBoundary else s)
  else if i < 8 then (if first then s.chmBoundary else s)
  else if i < 12 then s.malBoundary (i - 8)
  else if i = 12 then (s.swapFill s.blk.index).dplBoundary
  else if i < 17 then s
  else if i < 19 then (if last then s.flmSettle.flmSend else s)
  else (islandUnits i).foldl (fun s u => s.unitBoundary u) s

/-- The islands that share an engine's boundary with island `i` (R114, R135). -/
def boundaryGroup (i : Nat) : List Nat :=
  if 2 ≤ i ∧ i < 6 then [2, 3, 4, 5] else if i = 6 ∨ i = 7 then [6, 7] else if i = 17 ∨ i = 18 then [17, 18] else [i]

/-- The token of the running block reaches an island (R17): at boundary S a plane swap takes effect first (R61). -/
def State.tokenArrival (s : State) (i : Nat) : State :=
  if i < 26 ∧ s.islandOn i ∧ s.fld R.BLK_STATE_RUN = 1 ∧ s.arrivedSeq i < s.blk.seq then
    let s0 := if i = 22 then s.beatSettle 0 else if i = 23 then s.beatSettle 1 else s
    let s1 := s0.swapAtS
    let first := (boundaryGroup i).all (fun j => decide (s1.arrivedSeq j < s1.blk.seq))
    let s2 := { s1 with blk := { s1.blk with arrived := Tbl.put s1.blk.arrived i (s1.blk.index, s1.blk.seq) } }.islandReturn i
    s2.islandBoundary i first ((boundaryGroup i).all (fun j => decide (s2.arrivedSeq j = s2.blk.seq)))
  else s

def execTokenArrival (island : Nat) (s : State) : Host.Outcome State Fault Refusal := .next (s.tokenArrival island)

end Sys2Proof.Machine
end

