-- ==== Sys2Proof/Machine/Smp.lean ====
section
/-! DEFINITION. The sideband port (R362-R369) and the clear of the recorder (R379). -/

namespace Sys2Proof.Machine

/-! ### Frames and responses (R363, R364) -/

/-- One bit of the CRC-8 with polynomial 0x07. -/
def crc8Bit (c : Byte) : Byte := if c.getLsbD 7 then (c <<< 1) ^^^ 0x07#8 else c <<< 1

/-- One byte of the CRC-8. -/
def crc8Byte (c b : Byte) : Byte :=
  crc8Bit (crc8Bit (crc8Bit (crc8Bit (crc8Bit (crc8Bit (crc8Bit (crc8Bit (c ^^^ b))))))))

/-- CRC-8 (R363): initial value 0, no reflection, no final XOR. -/
def crc8 (bs : List Byte) : Byte := bs.foldl crc8Byte 0#8

/-- The CMD and payload of a request frame, or none where it is to be discarded. -/
def frameRequest (frame : List Byte) : Option (Nat × List Byte) :=
  let n := leAt frame 2 1
  if frame.length < 4 + n ∨ leAt frame 0 1 ≠ 0xA5 ∨ crc8 (frame.take (3 + n)) ≠ frame.getD (3 + n) 0 then none
  else some (leAt frame 1 1, slice frame 3 n)

/-- The response as the controller clocks it out. -/
def responseFrame (status cmd : Nat) (payload : List Byte) : List Byte :=
  let body := leBytes 1 status ++ leBytes 1 cmd ++ leBytes 1 payload.length ++ payload
  0#8 :: body ++ [crc8 body]

/-- The controller reads the current response. -/
def State.smpRespond (s : State) : State :=
  match s.smp.exec with
  | some c =>
    if c.host then s.emit (.smpResponse (responseFrame s.smp.status s.smp.cmd s.smp.payload))
    else s.emit (.smpResponse (responseFrame 0xFF c.cmd []))
  | none => s.emit (.smpResponse (responseFrame s.smp.status s.smp.cmd s.smp.payload))

/-- A frame that is discarded: counted, and the next response reads status 0x01. Which CMD that response shows is not stated. -/
def State.smpDiscard (s : State) : State :=
  let f := (s.bump R.SMP_FRAME_ERR_COUNT).fresh
  { f.2 with smp := { f.2.smp with status := 1, cmd := f.1 % 256, payload := [] } }

/-- A request frame (R363). A frame that begins with 0x5A is the controller reading the response (R364). -/
def State.smpFrame (s : State) (frame : List Byte) : State :=
  if frame.head? = some 0x5A#8 then s.smpRespond
  else
    match frameRequest frame with
    | none => s.smpDiscard
    | some (cmd, payload) => if s.smp.exec.isSome then s.smpDiscard else s.smpAccept ⟨cmd, payload, false⟩

/-! ### Execution (R366, R369) -/

/-- The response bytes laid over SMP_HOST_RSP. -/
def State.hostResponse (s : State) (bs : List Byte) : State :=
  let old := (List.range 65).flatMap (fun i => leBytes 4 (s.fld (R.SMP_HOST_RSP_BYTES i)))
  let new := bs ++ old.drop bs.length
  (List.range 65).foldl (fun s i => s.setFld (R.SMP_HOST_RSP_BYTES i) (leAt new (4 * i) 4)) s

/-- The command that executes ends with its STATUS and response (R364, R368, R369). HOST_DONE has no enable bit
(notes/assumptions/18). -/
def State.smpComplete (s : State) : State :=
  match s.smp.exec, s.smp.result with
  | some c, some (st, bs) =>
    let s1 : State := { s with smp := { s.smp with exec := none, result := none } }
    if c.host then
      let s2 := (s1.hostResponse (leBytes 1 st ++ leBytes 1 c.cmd ++ leBytes 1 bs.length ++ bs)).setFld R.SMP_STATUS_HOST_DONE 1
      if s.fld R.SMP_STATUS_HOST_DONE = 0 then s2.raiseVector 1 else s2
    else
      let s2 : State := { s1 with smp := { s1.smp with status := st, cmd := c.cmd, payload := bs } }
      s2.alert 7
  | _, _ => s

/-- The command that executes has its STATUS and response. -/
def State.smpEnd (s : State) (status : Nat) (bs : List Byte := []) : State :=
  { s with smp := { s.smp with result := some (status, bs) } }

/-- The payload of the command that executes, if it is `code` and has no result yet, and whether it is refused: a W command on
the SPI path in read-only mode (R362, R365). -/
def State.smpTurn (s : State) (code : Nat) (w : Bool) : Option (List Byte × Bool × Bool) :=
  match s.smp.exec, s.smp.result with
  | some c, none =>
    if c.cmd = code then some (c.payload, c.host, w && !c.host && decide (s.fld R.SMP_STATUS_READ_ONLY = 1)) else none
  | _, _ => none

/-- Run a command on its payload: refused in read-only mode with 4, refused with 3 where its LEN is wrong. -/
def State.smpRun (s : State) (code : Nat) (w : Bool) (fits : Nat → Bool) (act : List Byte → State) : State :=
  match s.smpTurn code w with
  | none => s
  | some (p, _, refused) => if refused then s.smpEnd 4 else if fits p.length then act p else s.smpEnd 3

/-- GET_INFO. -/
def State.smpGetInfo (s : State) : State :=
  s.smpRun 0x01 false (· == 0) (fun _ =>
    s.smpEnd 0 (serialBytes ++ leBytes 1 0xB1 ++ leBytes 1 s.mode.code ++
      leBytes 1 (s.fld R.SMP_STATUS_READ_ONLY + 2 * flag (s.domainOn 2)) ++ leBytes 1 1 ++ leBytes 4 (s.fld R.EVT_POWER_CYCLES_COUNT)))

/-- No crossbar response: the target is unreachable with CTRL off, or the request is held at the SMP's port (R36, R227). -/
def State.smpStopped (s : State) : State := if s.domainOn 2 then s else s.smpEnd 5

/-- READ32's words. The response of a read that failed has no words (notes/assumptions/23). -/
def State.smpReadWords : Nat → State → Nat → List FetchResp → List Byte → State
  | 0, s, _, _, got => s.smpEnd 0 got
  | n + 1, s, a, ext, got =>
    let p := s.reach 1 a
    match p.1 with
    | .stopped => p.2.smpStopped
    | .held => p.2.smpStopped
    | .refused => p.2.smpEnd 6
    | .forwarded =>
      let r := p.2.busRead a 4 (ext.headD .error)
      match joinReads r.1 with
      | .data bs => smpReadWords n r.2 (a + 4) ext.tail (got ++ bs)
      | _ => r.2.smpEnd 6

/-- WRITE32's words. -/
def State.smpWriteWords : Nat → State → Nat → List Byte → State
  | 0, s, _, _ => s.smpEnd 0
  | n + 1, s, a, bs =>
    let p := s.reach 1 a
    match p.1 with
    | .stopped => p.2.smpStopped
    | .held => p.2.smpStopped
    | .refused => p.2.smpEnd 6
    | .forwarded =>
      let r := p.2.busWrite 1 a ((bs.take 4).map some)
      match joinWrites r.1 with
      | .ok => smpWriteWords n r.2 (a + 4) (bs.drop 4)
      | _ => r.2.smpEnd 6

/-- Whether a word of a request would be held at the SMP's port (R227): the command then goes on executing. -/
def State.smpHeld (s : State) (a n : Nat) : Bool := (List.range n).any (fun i => decide (s.passage 1 (a + 4 * i) = .held))

/-- READ32. -/
def State.smpRead (s : State) (ext : List FetchResp) : State :=
  s.smpRun 0x02 false (· == 5) (fun p =>
    let a := leAt p 0 4
    let n := leAt p 4 1
    if a % 4 ≠ 0 ∨ n = 0 ∨ 60 < n then s.smpEnd 3
    else if s.smpHeld a n then s
    else State.smpReadWords n s a ext [])

/-- WRITE32. -/
def State.smpWrite (s : State) : State :=
  s.smpRun 0x03 true (fun n => n % 4 == 0 && decide (8 ≤ n ∧ n ≤ 244)) (fun p =>
    let a := leAt p 0 4
    if a % 4 ≠ 0 then s.smpEnd 3
    else if s.smpHeld a (p.length / 4 - 1) then s
    else State.smpWriteWords (p.length / 4 - 1) s a (p.drop 4))

/-- The word of a masked write: VALUE where MASK is set, the old word elsewhere. -/
def maskedWord (old value mask : Nat) : Nat :=
  (BitVec.ofNat 32 old &&& ~~~(BitVec.ofNat 32 mask) ||| (BitVec.ofNat 32 value &&& BitVec.ofNat 32 mask)).toNat

/-- RMW32: VALUE where MASK is set, the old word elsewhere, as a locked sequence (R224). -/
def State.smpRmw (s : State) (ext : FetchResp) : State :=
  s.smpRun 0x04 true (· == 12) (fun p =>
    let a := leAt p 0 4
    if a % 4 ≠ 0 then s.smpEnd 3
    else
      let q := s.reach 1 a
      match q.1 with
      | .stopped => q.2.smpStopped
      | .held => q.2.smpStopped
      | .refused => q.2.smpEnd 6
      | .forwarded =>
        let r := q.2.busRead a 4 ext
        match joinReads r.1 with
        | .data bs =>
          let x := r.2.busWrite 1 a ((leBytes 4 (maskedWord (leNat bs) (leAt p 4 4) (leAt p 8 4))).map some)
          match joinWrites x.1 with
          | .ok => x.2.smpEnd 0 bs
          | _ => x.2.smpEnd 6
        | _ => r.2.smpEnd 6)

/-- MIRROR_READ. -/
def State.smpMirrorRead (s : State) : State :=
  s.smpRun 0x05 false (· == 0) (fun _ => s.smpEnd 0 ((List.range 16).flatMap (fun i => leBytes 4 (s.fld (R.SMP_MIRROR_WORD i)))))

/-- PMU_REQUEST: what becomes of the action shows in PMU_REQ_STATUS. -/
def State.smpPmu (s : State) : State :=
  s.smpRun 0x10 true (· == 1) (fun p => (s.pmuRequest (leAt p 0 1) 0).smpEnd 0)

/-- RESET_MAIN; `straps` are the levels sampled at the release (R394). -/
def State.smpResetMain (s : State) (straps : Nat) : State :=
  s.smpRun 0x11 true (· == 2) (fun p =>
    if leNat p ≠ 0x5A1D then s.smpEnd 4
    else ((s.mainReset R.PMU_RESET_CAUSE_SMP straps).wakeByStrap).smpEnd 0)

/-- LOAD_FLASH: in SENTRY it wakes the main side and ends once that load is accepted. A load that PEAL_LOAD would ignore is refused
with 4 (notes/assumptions/23). -/
def State.smpLoadFlash (s : State) : State :=
  s.smpRun 0x12 true (· == 1) (fun p =>
    let slot := leNat p
    if 3 < slot then s.smpEnd 3
    else if s.mode = .sentry then
      if s.pmu.goal = [] then s.wake (some slot) else { s with pmu := { s.pmu with slot := some slot } }
    else if s.domainOn 2 = false then s.smpEnd 5
    else if s.mayLoad then (s.loadFlash slot).smpEnd 0
    else s.smpEnd 4)

/-- FLAM_HANDOVER: the forced handover of an ACTIVE chip (R354). On another chip it is refused with 4 (notes/assumptions/23). -/
def State.smpHandover (s : State) : State :=
  s.smpRun 0x13 true (· == 2) (fun p =>
    if leNat p ≠ 0xF1A3 then s.smpEnd 4
    else if s.domainOn 2 = false then s.smpEnd 5
    else if s.flmState ≠ 4 then s.smpEnd 4
    else
      let s1 : State := { s with flm := { s.flm with forced := true } }
      s1.smpEnd 0)

/-- EVT_UNLOCK: a random nonce; not on the host path. -/
def State.smpUnlock (s : State) : State :=
  match s.smpTurn 0x20 true with
  | none => s
  | some (p, host, refused) =>
    if host ∨ refused then s.smpEnd 4
    else if p.length ≠ 2 then s.smpEnd 3
    else if leNat p ≠ 0x0C1E then s.smpEnd 4
    else
      let r := s.random
      let n := r.1 % 65536
      let s1 : State := { r.2 with smp := { r.2.smp with unlock := some n } }
      s1.smpEnd 0 (leBytes 2 n)

/-- EVT_CLEAR: with the nonce XOR 0x5EED it clears the recorder and ends when its record is written. -/
def State.smpClear (s : State) : State :=
  match s.smpTurn 0x21 true with
  | none => s
  | some (p, host, refused) =>
    let s1 : State := { s with smp := { s.smp with unlock := none } }
    if host ∨ refused then s1.smpEnd 4
    else if p.length ≠ 2 then s1.smpEnd 3
    else if s.evt.clearing then s
    else
      match s.smp.unlock with
      | some n => if leNat p = n ^^^ 0x5EED then s1.recorderClear else s1.smpEnd 7
      | none => s1.smpEnd 7

/-- EVT_SNAPSHOT. -/
def State.smpSnapshot (s : State) : State := s.smpRun 0x22 false (· == 0) (fun _ => (s.snapshot 3).smpEnd 0)

/-- The bytes of the flash that the image slots occupy (R365). -/
def imageSlots : Nat := 0x06000000

/-- FLASH_READ, within the 128 MiB of R374. -/
def State.smpFlashRead (s : State) : State :=
  s.smpRun 0x30 false (· == 5) (fun p =>
    let o := leAt p 0 4
    let n := leAt p 4 1
    if n = 0 ∨ 240 < n ∨ 0x8000000 < o + n then s.smpEnd 3
    else s.smpEnd 0 ((List.range n).map (fun j => s.flashByte (o + j))))

/-- FLASH_ERASE of a 64 KiB block. What a failed erase leaves is not stated. -/
def State.smpFlashErase (s : State) (ok : Bool) : State :=
  s.smpRun 0x31 true (· == 4) (fun p =>
    let o := leNat p
    if o % 0x10000 ≠ 0 ∨ imageSlots ≤ o then s.smpEnd 3
    else if ok then (s.flashErase o 0x10000).smpEnd 0
    else (s.flashSpoil o 0x10000).smpEnd 8)

/-- Bytes programmed at an offset: a byte that was not erased ends with a value that nothing states. -/
def State.flashProgram : State → Nat → List Byte → State
  | s, _, [] => s
  | s, o, b :: bs =>
    if s.flashByte o = 0xFF#8 then (s.flashWrite o [b]).flashProgram (o + 1) bs else (s.flashSpoil o 1).flashProgram (o + 1) bs

/-- FLASH_PROGRAM of 1-240 bytes within one 256-byte page. -/
def State.smpFlashProgram (s : State) (ok : Bool) : State :=
  s.smpRun 0x32 true (fun n => decide (5 ≤ n ∧ n ≤ 244)) (fun p =>
    let o := leAt p 0 4
    let bs := p.drop 4
    if 256 < o % 256 + bs.length ∨ imageSlots ≤ o then s.smpEnd 3
    else if ok then (s.flashProgram o bs).smpEnd 0
    else (s.flashSpoil o bs.length).smpEnd 8)

/-- ATTEST: the record over the command's nonce. -/
def State.smpAttest (s : State) : State := s.smpRun 0x40 false (· == 16) (fun p => s.smpEnd 0 (s.attestRecord p))

/-- OTP_COMMAND: its RESULT comes when the OTP has run it (R385). -/
def State.smpOtp (s : State) : State :=
  s.smpRun 0x41 true (· == 192) (fun p =>
    if s.ident.otp.any (fun e => e.2) then s else { s with ident := { s.ident with otp := s.ident.otp ++ [(p, true)] } })

/-! ### The status mirror (R367) -/

/-- The registers that mirror words 2-15 copy. -/
def mirrorSources : List Nat :=
  [0x14040004, 0x14040008, 0x14060014, 0x14060018, 0x14060060, 0x140D0000, 0x14400004] ++
  [0x140E0000, 0x140E0100, 0x14300008, 0x14020004, 0x14040020, 0x14040024, 0x14010000]

/-- One millisecond of the mirror: a refresh while CTRL is powered, else only AGE_MS rises. -/
def State.mirrorRefresh (s : State) : State :=
  let w := s.fld (R.SMP_MIRROR_WORD 0)
  if s.domainOn 2 then
    let words := [(w / 65536 + 1) % 65536 * 65536, s.mode.code] ++ mirrorSources.map s.viewReg
    (List.range 16).foldl (fun s i => s.setFld (R.SMP_MIRROR_WORD i) (words.getD i 0)) s
  else s.setFld (R.SMP_MIRROR_WORD 0) (w / 65536 * 65536 + min 65535 (w % 65536 + 1))

/-! ### The commands -/

def execSmpRequestFrame (frame : List Byte) (s : State) : Host.Outcome State Fault Refusal := .next (s.smpFrame frame)

def execSmpResponseRead (s : State) : Host.Outcome State Fault Refusal := .next s.smpRespond

def execSmpCommandComplete (s : State) : Host.Outcome State Fault Refusal := .next s.smpComplete

def execGetInfo (s : State) : Host.Outcome State Fault Refusal := .next s.smpGetInfo

def execRead32 (ext : List FetchResp) (s : State) : Host.Outcome State Fault Refusal := .next (s.smpRead ext)

def execSmpWrite32 (s : State) : Host.Outcome State Fault Refusal := .next s.smpWrite

def execRmw32 (ext : FetchResp) (s : State) : Host.Outcome State Fault Refusal := .next (s.smpRmw ext)

def execMirrorRead (s : State) : Host.Outcome State Fault Refusal := .next s.smpMirrorRead

def execPmuRequest (s : State) : Host.Outcome State Fault Refusal := .next s.smpPmu

def execResetMain (straps : Nat) (s : State) : Host.Outcome State Fault Refusal := .next (s.smpResetMain straps)

def execLoadFlash (s : State) : Host.Outcome State Fault Refusal := .next s.smpLoadFlash

def execFlamHandover (s : State) : Host.Outcome State Fault Refusal := .next s.smpHandover

def execEvtUnlock (s : State) : Host.Outcome State Fault Refusal := .next s.smpUnlock

/-- The second after EVT_UNLOCK is over. -/
def execEvtUnlockExpiry (s : State) : Host.Outcome State Fault Refusal :=
  .next { s with smp := { s.smp with unlock := none } }

def execEvtClear (s : State) : Host.Outcome State Fault Refusal := .next s.smpClear

def execEvtSnapshot (s : State) : Host.Outcome State Fault Refusal := .next s.smpSnapshot

def execFlashRead (s : State) : Host.Outcome State Fault Refusal := .next s.smpFlashRead

def execFlashErase (ok : Bool) (s : State) : Host.Outcome State Fault Refusal := .next (s.smpFlashErase ok)

def execFlashProgram (ok : Bool) (s : State) : Host.Outcome State Fault Refusal := .next (s.smpFlashProgram ok)

def execAttest (s : State) : Host.Outcome State Fault Refusal := .next s.smpAttest

def execOtpCommand (s : State) : Host.Outcome State Fault Refusal := .next s.smpOtp

def execSmpMirrorRefresh (s : State) : Host.Outcome State Fault Refusal := .next s.mirrorRefresh

end Sys2Proof.Machine
end

