-- ==== Sys2Proof/Machine/Dispatch.lean ====
section
/-! DEFINITION. The meaning of a command: one arm per constructor of `Instr`, each one call of the command's own
meaning, which acts on everything but the queue. -/

namespace Sys2Proof.Machine

def exec (i : Instr) (s : State) : Host.Outcome State Fault Refusal :=
  match i with
  | .blockToken tuSample => Sys2Proof.Machine.execBlockToken tuSample s
  | .tokenArrival island => Sys2Proof.Machine.execTokenArrival island s
  | .taskDispatch task old load => Sys2Proof.Machine.execTaskDispatch task old load s
  | .taskOverrun core => Sys2Proof.Machine.execTaskOverrun core s
  | .handshakeWord src dst send => Sys2Proof.Machine.execHandshakeWord src dst send s
  | .commitGo b tag whenCode => Sys2Proof.Machine.execCommitGo b tag whenCode s
  | .commitCancel b => Sys2Proof.Machine.execCommitCancel b s
  | .commitApply b => Sys2Proof.Machine.execCommitApply b s
  | .registerWrite master addr value => Sys2Proof.Machine.execRegisterWrite master addr value s
  | .hostRead bar2 off len => Sys2Proof.Machine.execHostRead bar2 off len s
  | .hostWrite bar2 off data => Sys2Proof.Machine.execHostWrite bar2 off data s
  | .atomicOp bar2 off op wide operand compare => Sys2Proof.Machine.execAtomicOp bar2 off op wide operand compare s
  | .pcieReset kind => Sys2Proof.Machine.execPcieReset kind s
  | .pealLoadHost => Sys2Proof.Machine.execPealLoadHost s
  | .pealLoadFlash slot => Sys2Proof.Machine.execPealLoadFlash slot s
  | .pealLoadAbort => Sys2Proof.Machine.execPealLoadAbort s
  | .flashCopyDone => Sys2Proof.Machine.execFlashCopyDone s
  | .verifyDone => Sys2Proof.Machine.execVerifyDone s
  | .planeWrite master addr data => Sys2Proof.Machine.execPlaneWrite master addr data s
  | .swapPrepared => Sys2Proof.Machine.execSwapPrepared s
  | .swapAbort => Sys2Proof.Machine.execSwapAbort s
  | .swapStart => Sys2Proof.Machine.execSwapStart s
  | .swapHoldEnd => Sys2Proof.Machine.execSwapHoldEnd s
  | .swapXfadeEnd => Sys2Proof.Machine.execSwapXfadeEnd s
  | .realignRequest key => Sys2Proof.Machine.execRealignRequest key s
  | .realignSetIndex tuSample => Sys2Proof.Machine.execRealignSetIndex tuSample s
  | .blkTick => Sys2Proof.Machine.execBlkTick s
  | .blkIndexLoRead master => Sys2Proof.Machine.execBlkIndexLoRead master s
  | .blkCountClear => Sys2Proof.Machine.execBlkCountClear s
  | .sxmWriteRefused master addr => Sys2Proof.Machine.execSxmWriteRefused master addr s
  | .brgSourceLock source ratio => Sys2Proof.Machine.execBrgSourceLock source ratio s
  | .brgOutOfRange source => Sys2Proof.Machine.execBrgOutOfRange source s
  | .brgNoClock source => Sys2Proof.Machine.execBrgNoClock source s
  | .brgAcquire source => Sys2Proof.Machine.execBrgAcquire source s
  | .xpSet input output gain slot => Sys2Proof.Machine.execXpSet input output gain slot s
  | .xpList addr count slot => Sys2Proof.Machine.execXpList addr count slot s
  | .xpListFetchDone id resp => Sys2Proof.Machine.execXpListFetchDone id resp s
  | .xpClearOut output slot => Sys2Proof.Machine.execXpClearOut output slot s
  | .xpClearIn input slot => Sys2Proof.Machine.execXpClearIn input slot s
  | .outMute first count mute => Sys2Proof.Machine.execOutMute first count mute s
  | .xpWindowWrite master addr value => Sys2Proof.Machine.execXpWindowWrite master addr value s
  | .clnXpTgtWrite value => Sys2Proof.Machine.execClnXpTgtWrite value s
  | .clnRampSlotWrite slot value => Sys2Proof.Machine.execClnRampSlotWrite slot value s
  | .xpRampEnd input output => Sys2Proof.Machine.execXpRampEnd input output s
  | .outFactorRampEnd output => Sys2Proof.Machine.execOutFactorRampEnd output s
  | .clnCountClear => Sys2Proof.Machine.execClnCountClear s
  | .bankSelect first count xfLen bank => Sys2Proof.Machine.execBankSelect first count xfLen bank s
  | .presetLoad array preset flags xfLen => Sys2Proof.Machine.execPresetLoad array preset flags xfLen s
  | .coefWrite filter bank first count addr => Sys2Proof.Machine.execCoefWrite filter bank first count addr s
  | .coefWriteFetchDone id resp => Sys2Proof.Machine.execCoefWriteFetchDone id resp s
  | .chmSelectWrite value => Sys2Proof.Machine.execChmSelectWrite value s
  | .chmPresetReqWrite value => Sys2Proof.Machine.execChmPresetReqWrite value s
  | .chmCoefWindowWrite master addr data => Sys2Proof.Machine.execChmCoefWindowWrite master addr data s
  | .chmCwDataWrite value => Sys2Proof.Machine.execChmCwDataWrite value s
  | .presetHeaderFetchDone => Sys2Proof.Machine.execPresetHeaderFetchDone s
  | .presetLoadStart => Sys2Proof.Machine.execPresetLoadStart s
  | .presetLoadComplete => Sys2Proof.Machine.execPresetLoadComplete s
  | .presetSwapAfter => Sys2Proof.Machine.execPresetSwapAfter s
  | .bankFadeEnd filter => Sys2Proof.Machine.execBankFadeEnd filter s
  | .chmCountClear => Sys2Proof.Machine.execChmCountClear s
  | .nop core => Sys2Proof.Machine.execNop core s
  | .bra core => Sys2Proof.Machine.execBra core s
  | .call core => Sys2Proof.Machine.execCall core s
  | .ret core => Sys2Proof.Machine.execRet core s
  | .jmp core => Sys2Proof.Machine.execJmp core s
  | .callr core => Sys2Proof.Machine.execCallr core s
  | .rtif core => Sys2Proof.Machine.execRtif core s
  | .rtin core => Sys2Proof.Machine.execRtin core s
  | .tend core => Sys2Proof.Machine.execTend core s
  | .loopi core => Sys2Proof.Machine.execLoopi core s
  | .loopr core => Sys2Proof.Machine.execLoopr core s
  | .loopl core => Sys2Proof.Machine.execLoopl core s
  | .loopClose core => Sys2Proof.Machine.execLoopClose core s
  | .leave core => Sys2Proof.Machine.execLeave core s
  | .rpti core => Sys2Proof.Machine.execRpti core s
  | .rptr core => Sys2Proof.Machine.execRptr core s
  | .bsync core => Sys2Proof.Machine.execBsync core s
  | .wait core => Sys2Proof.Machine.execWait core s
  | .bin core => Sys2Proof.Machine.execBin core s
  | .binp core => Sys2Proof.Machine.execBinp core s
  | .bout core => Sys2Proof.Machine.execBout core s
  | .busTransferComplete core cycles => Sys2Proof.Machine.execBusTransferComplete core cycles s
  | .mla2 core => Sys2Proof.Machine.execMla2 core s
  | .mlas core => Sys2Proof.Machine.execMlas core s
  | .mul2 core => Sys2Proof.Machine.execMul2 core s
  | .mls2 core => Sys2Proof.Machine.execMls2 core s
  | .aluNop core => Sys2Proof.Machine.execAluNop core s
  | .zero core => Sys2Proof.Machine.execZero core s
  | .copy core => Sys2Proof.Machine.execCopy core s
  | .adds core => Sys2Proof.Machine.execAdds core s
  | .subs core => Sys2Proof.Machine.execSubs core s
  | .negt core => Sys2Proof.Machine.execNegt core s
  | .magn core => Sys2Proof.Machine.execMagn core s
  | .shla core => Sys2Proof.Machine.execShla core s
  | .shra core => Sys2Proof.Machine.execShra core s
  | .rndh core => Sys2Proof.Machine.execRndh core s
  | .maxs core => Sys2Proof.Machine.execMaxs core s
  | .mins core => Sys2Proof.Machine.execMins core s
  | .comp core => Sys2Proof.Machine.execComp core s
  | .test core => Sys2Proof.Machine.execTest core s
  | .and core => Sys2Proof.Machine.execAnd core s
  | .ior core => Sys2Proof.Machine.execIor core s
  | .xor core => Sys2Proof.Machine.execXor core s
  | .mul core => Sys2Proof.Machine.execMul core s
  | .mula core => Sys2Proof.Machine.execMula core s
  | .muls core => Sys2Proof.Machine.execMuls core s
  | .ldi core => Sys2Proof.Machine.execLdi core s
  | .ldl core => Sys2Proof.Machine.execLdl core s
  | .move core => Sys2Proof.Machine.execMove core s
  | .addp core => Sys2Proof.Machine.execAddp core s
  | .addpl core => Sys2Proof.Machine.execAddpl core s
  | .movcFromCcr core => Sys2Proof.Machine.execMovcFromCcr core s
  | .movcToCcr core => Sys2Proof.Machine.execMovcToCcr core s
  | .ldr core => Sys2Proof.Machine.execLdr core s
  | .str core => Sys2Proof.Machine.execStr core s
  | .mov2 core => Sys2Proof.Machine.execMov2 core s
  | .bfly core => Sys2Proof.Machine.execBfly core s
  | .bexp core => Sys2Proof.Machine.execBexp core s
  | .bscale core => Sys2Proof.Machine.execBscale core s
  | .beclr core => Sys2Proof.Machine.execBeclr core s
  | .slowPathLoadDone core cycles => Sys2Proof.Machine.execSlowPathLoadDone core cycles s
  | .fastAccept core => Sys2Proof.Machine.execFastAccept core s
  | .normalAccept core => Sys2Proof.Machine.execNormalAccept core s
  | .timerExpiry core => Sys2Proof.Machine.execTimerExpiry core s
  | .dmaStart core channel value => Sys2Proof.Machine.execDmaStart core channel value s
  | .dmaComplete core channel resp => Sys2Proof.Machine.execDmaComplete core channel resp s
  | .mboxInWrite core value => Sys2Proof.Machine.execMboxInWrite core value s
  | .mboxOutRead master core => Sys2Proof.Machine.execMboxOutRead master core s
  | .malClBroadcastWrite cluster value => Sys2Proof.Machine.execMalClBroadcastWrite cluster value s
  | .malProgramCcrWrite master addr => Sys2Proof.Machine.execMalProgramCcrWrite master addr s
  | .malDataWindowWrite master cluster word value => Sys2Proof.Machine.execMalDataWindowWrite master cluster word value s
  | .paramSet core count start values => Sys2Proof.Machine.execParamSet core count start values s
  | .paramList core count addr => Sys2Proof.Machine.execParamList core count addr s
  | .paramListFetchDone id resp => Sys2Proof.Machine.execParamListFetchDone id resp s
  | .malClCountClear cluster => Sys2Proof.Machine.execMalClCountClear cluster s
  | .delaySet line xf delay => Sys2Proof.Machine.execDelaySet line xf delay s
  | .delayList count xf addr => Sys2Proof.Machine.execDelayList count xf addr s
  | .delayListFetchDone id resp => Sys2Proof.Machine.execDelayListFetchDone id resp s
  | .dplDelaySetWrite value => Sys2Proof.Machine.execDplDelaySetWrite value s
  | .delayFadeEnd line => Sys2Proof.Machine.execDelayFadeEnd line s
  | .lineStorageWrite master addr => Sys2Proof.Machine.execLineStorageWrite master addr s
  | .dplHashSeedWrite value => Sys2Proof.Machine.execDplHashSeedWrite value s
  | .scrubRead addr err => Sys2Proof.Machine.execScrubRead addr err s
  | .dplCountClear => Sys2Proof.Machine.execDplCountClear s
  | .xbRequest master tag addr len data age rounds lock resp => Sys2Proof.Machine.execXbRequest master tag addr len data age rounds lock resp s
  | .xbWatchdogQuarantine master nanos => Sys2Proof.Machine.execXbWatchdogQuarantine master nanos s
  | .xbMasterReset master value => Sys2Proof.Machine.execXbMasterReset master value s
  | .masterResetDone master => Sys2Proof.Machine.execMasterResetDone master s
  | .obTimeout master => Sys2Proof.Machine.execObTimeout master s
  | .xbCountClear => Sys2Proof.Machine.execXbCountClear s
  | .msixTableWrite word value => Sys2Proof.Machine.execMsixTableWrite word value s
  | .msixModerationExpiry ring => Sys2Proof.Machine.execMsixModerationExpiry ring s
  | .ringEnable ring value => Sys2Proof.Machine.execRingEnable ring value s
  | .ringDisable ring value => Sys2Proof.Machine.execRingDisable ring value s
  | .ringCfgWrite ring value => Sys2Proof.Machine.execRingCfgWrite ring value s
  | .ringTailWrite ring value => Sys2Proof.Machine.execRingTailWrite ring value s
  | .ringHeadWrite ring value => Sys2Proof.Machine.execRingHeadWrite ring value s
  | .ringResizeRequest ring value => Sys2Proof.Machine.execRingResizeRequest ring value s
  | .ringResizeCancel ring => Sys2Proof.Machine.execRingResizeCancel ring s
  | .ringResizeApply ring => Sys2Proof.Machine.execRingResizeApply ring s
  | .ringResizeTimeout ring => Sys2Proof.Machine.execRingResizeTimeout ring s
  | .ringFetch ring resp => Sys2Proof.Machine.execRingFetch ring resp s
  | .ringNop ring cookie flags stamp => Sys2Proof.Machine.execRingNop ring cookie flags stamp s
  | .fence ring cookie cpl irq waitRing waitEn waitIndex => Sys2Proof.Machine.execFence ring cookie cpl irq waitRing waitEn waitIndex s
  | .fenceRelease ring => Sys2Proof.Machine.execFenceRelease ring s
  | .write32 ring cookie cpl irq stamp addr value mask resp => Sys2Proof.Machine.execWrite32 ring cookie cpl irq stamp addr value mask resp s
  | .cmdApply e resp => Sys2Proof.Machine.execCmdApply e resp s
  | .rngCountClear => Sys2Proof.Machine.execRngCountClear s
  | .sysBarrierWrite master token => Sys2Proof.Machine.execSysBarrierWrite master token s
  | .barrierDone master => Sys2Proof.Machine.execBarrierDone master s
  | .prtCtrlWrite port value => Sys2Proof.Machine.execPrtCtrlWrite port value s
  | .aesCtrlWrite n value => Sys2Proof.Machine.execAesCtrlWrite n value s
  | .prtMaskWrite port mask inGuard => Sys2Proof.Machine.execPrtMaskWrite port mask inGuard s
  | .prtMaskApply port => Sys2Proof.Machine.execPrtMaskApply port s
  | .prtMask port mask => Sys2Proof.Machine.execPrtMask port mask s
  | .portMute kind first count mute ramp => Sys2Proof.Machine.execPortMute kind first count mute ramp s
  | .portFrame port slots => Sys2Proof.Machine.execPortFrame port slots s
  | .portLock unit rateMhz => Sys2Proof.Machine.execPortLock unit rateMhz s
  | .portLost unit cause => Sys2Proof.Machine.execPortLost unit cause s
  | .portFrameError unit => Sys2Proof.Machine.execPortFrameError unit s
  | .portPrerollDone unit => Sys2Proof.Machine.execPortPrerollDone unit s
  | .portStopRampDone unit => Sys2Proof.Machine.execPortStopRampDone unit s
  | .portPostrollDone unit => Sys2Proof.Machine.execPortPostrollDone unit s
  | .aesFrameRx n z subs => Sys2Proof.Machine.execAesFrameRx n z subs s
  | .aesCsBlockComplete n => Sys2Proof.Machine.execAesCsBlockComplete n s
  | .aesFrameTx n => Sys2Proof.Machine.execAesFrameTx n s
  | .prtCountClear ports => Sys2Proof.Machine.execPrtCountClear ports s
  | .aesCountClear xcvrs => Sys2Proof.Machine.execAesCountClear xcvrs s
  | .netFrameRx port frame ok full t residence => Sys2Proof.Machine.execNetFrameRx port frame ok full t residence s
  | .rtpPacketRx stream leg packet t => Sys2Proof.Machine.execRtpPacketRx stream leg packet t s
  | .llPacketRx stream leg packet t => Sys2Proof.Machine.execLlPacketRx stream leg packet t s
  | .streamPacketTx stream => Sys2Proof.Machine.execStreamPacketTx stream s
  | .netSend port flags length addr resp => Sys2Proof.Machine.execNetSend port flags length addr resp s
  | .netSendDone port t => Sys2Proof.Machine.execNetSendDone port t s
  | .streamMute first count mute ramp => Sys2Proof.Machine.execStreamMute first count mute ramp s
  | .netCtlRxReleaseWrite port value => Sys2Proof.Machine.execNetCtlRxReleaseWrite port value s
  | .netLinkUp port => Sys2Proof.Machine.execNetLinkUp port s
  | .netLinkDown port => Sys2Proof.Machine.execNetLinkDown port s
  | .netCountClear value => Sys2Proof.Machine.execNetCountClear value s
  | .ptpDelayReqTimer inst t => Sys2Proof.Machine.execPtpDelayReqTimer inst t s
  | .ptpNoParentTimeout inst => Sys2Proof.Machine.execPtpNoParentTimeout inst s
  | .tuTimeLatchWrite inst t => Sys2Proof.Machine.execTuTimeLatchWrite inst t s
  | .tuOutEdge n t => Sys2Proof.Machine.execTuOutEdge n t s
  | .tuCapEdge n fall t => Sys2Proof.Machine.execTuCapEdge n fall t s
  | .tuCapNsRead master n => Sys2Proof.Machine.execTuCapNsRead master n s
  | .clvGateEnd long fs temp xo => Sys2Proof.Machine.execClvGateEnd long fs temp xo s
  | .clvSwitch phi => Sys2Proof.Machine.execClvSwitch phi s
  | .clvRefLos slot => Sys2Proof.Machine.execClvRefLos slot s
  | .clvWtrExpiry slot => Sys2Proof.Machine.execClvWtrExpiry slot s
  | .clvLock => Sys2Proof.Machine.execClvLock s
  | .clvSlewDone => Sys2Proof.Machine.execClvSlewDone s
  | .loInLost => Sys2Proof.Machine.execLoInLost s
  | .loInRestore => Sys2Proof.Machine.execLoInRestore s
  | .clvMode mode forceSlot phase => Sys2Proof.Machine.execClvMode mode forceSlot phase s
  | .clvRefSet slot enable rank wtr => Sys2Proof.Machine.execClvRefSet slot enable rank wtr s
  | .wclkAlignEdge n errPs => Sys2Proof.Machine.execWclkAlignEdge n errPs s
  | .pllLossOfLock n => Sys2Proof.Machine.execPllLossOfLock n s
  | .pllLocked n us band => Sys2Proof.Machine.execPllLocked n us band s
  | .fallbackReturnTimer => Sys2Proof.Machine.execFallbackReturnTimer s
  | .pllBypassExit n => Sys2Proof.Machine.execPllBypassExit n s
  | .pllPhaseStepWrite n value => Sys2Proof.Machine.execPllPhaseStepWrite n value s
  | .beatMute first count mute ramp => Sys2Proof.Machine.execBeatMute first count mute ramp s
  | .beatEnable first count enable => Sys2Proof.Machine.execBeatEnable first count enable s
  | .beatClear first count => Sys2Proof.Machine.execBeatClear first count s
  | .beatDiag first count => Sys2Proof.Machine.execBeatDiag first count s
  | .beatCtrlWrite n value => Sys2Proof.Machine.execBeatCtrlWrite n value s
  | .beatDiagDone n vcMilli code vPkMv => Sys2Proof.Machine.execBeatDiagDone n vcMilli code vPkMv s
  | .beatCurrentTrip n cycles vcMilli vd ref => Sys2Proof.Machine.execBeatCurrentTrip n cycles vcMilli vd ref s
  | .beatSenseFault n => Sys2Proof.Machine.execBeatSenseFault n s
  | .beatRailFault r => Sys2Proof.Machine.execBeatRailFault r s
  | .beatRetry n => Sys2Proof.Machine.execBeatRetry n s
  | .beatPrerollDone n => Sys2Proof.Machine.execBeatPrerollDone n s
  | .beatRampDone n => Sys2Proof.Machine.execBeatRampDone n s
  | .beatPresenceChange n => Sys2Proof.Machine.execBeatPresenceChange n s
  | .beatGridRelock n => Sys2Proof.Machine.execBeatGridRelock n s
  | .beatCountClear => Sys2Proof.Machine.execBeatCountClear s
  | .flmHeartbeatRx link payload skew => Sys2Proof.Machine.execFlmHeartbeatRx link payload skew s
  | .flmMirrorMsgRx blk items regions => Sys2Proof.Machine.execFlmMirrorMsgRx blk items regions s
  | .flmResyncChunkRx blk bytes objs last => Sys2Proof.Machine.execFlmResyncChunkRx blk bytes objs last s
  | .flamOwnReleased => Sys2Proof.Machine.execFlamOwnReleased s
  | .flamSelReleased => Sys2Proof.Machine.execFlamSelReleased s
  | .flmOwnWatchdog => Sys2Proof.Machine.execFlmOwnWatchdog s
  | .flmTakeover => Sys2Proof.Machine.execFlmTakeover s
  | .flmYieldEnd => Sys2Proof.Machine.execFlmYieldEnd s
  | .flmPairingTimeout => Sys2Proof.Machine.execFlmPairingTimeout s
  | .flmResyncComplete => Sys2Proof.Machine.execFlmResyncComplete s
  | .flmWtrExpiry => Sys2Proof.Machine.execFlmWtrExpiry s
  | .flmCmdHandover => Sys2Proof.Machine.execFlmCmdHandover s
  | .flmCmdResync => Sys2Proof.Machine.execFlmCmdResync s
  | .flmHandoverWrite value => Sys2Proof.Machine.execFlmHandoverWrite value s
  | .flmResyncWrite value => Sys2Proof.Machine.execFlmResyncWrite value s
  | .flmRealignWrite value => Sys2Proof.Machine.execFlmRealignWrite value s
  | .flmCountClear => Sys2Proof.Machine.execFlmCountClear s
  | .smpRequestFrame frame => Sys2Proof.Machine.execSmpRequestFrame frame s
  | .smpResponseRead => Sys2Proof.Machine.execSmpResponseRead s
  | .smpCommandComplete => Sys2Proof.Machine.execSmpCommandComplete s
  | .getInfo => Sys2Proof.Machine.execGetInfo s
  | .read32 ext => Sys2Proof.Machine.execRead32 ext s
  | .smpWrite32 => Sys2Proof.Machine.execSmpWrite32 s
  | .rmw32 ext => Sys2Proof.Machine.execRmw32 ext s
  | .mirrorRead => Sys2Proof.Machine.execMirrorRead s
  | .pmuRequest => Sys2Proof.Machine.execPmuRequest s
  | .resetMain straps => Sys2Proof.Machine.execResetMain straps s
  | .loadFlash => Sys2Proof.Machine.execLoadFlash s
  | .flamHandover => Sys2Proof.Machine.execFlamHandover s
  | .evtUnlock => Sys2Proof.Machine.execEvtUnlock s
  | .evtUnlockExpiry => Sys2Proof.Machine.execEvtUnlockExpiry s
  | .evtClear => Sys2Proof.Machine.execEvtClear s
  | .evtSnapshot => Sys2Proof.Machine.execEvtSnapshot s
  | .flashRead => Sys2Proof.Machine.execFlashRead s
  | .flashErase ok => Sys2Proof.Machine.execFlashErase ok s
  | .flashProgram ok => Sys2Proof.Machine.execFlashProgram ok s
  | .attest => Sys2Proof.Machine.execAttest s
  | .otpCommand => Sys2Proof.Machine.execOtpCommand s
  | .smpHostGoWrite value => Sys2Proof.Machine.execSmpHostGoWrite value s
  | .smpMirrorRefresh => Sys2Proof.Machine.execSmpMirrorRefresh s
  | .evtSecondTick devs => Sys2Proof.Machine.execEvtSecondTick devs s
  | .evtMinuteTick => Sys2Proof.Machine.execEvtMinuteTick s
  | .evtRequestWrite value => Sys2Proof.Machine.execEvtRequestWrite value s
  | .evtRecordWritten ok us => Sys2Proof.Machine.execEvtRecordWritten ok us s
  | .evtPreEraseDone => Sys2Proof.Machine.execEvtPreEraseDone s
  | .evtRestore => Sys2Proof.Machine.execEvtRestore s
  | .evtCursorWrite value => Sys2Proof.Machine.execEvtCursorWrite value s
  | .evtWindowRead master => Sys2Proof.Machine.execEvtWindowRead master s
  | .tapSample keys pres => Sys2Proof.Machine.execTapSample keys pres s
  | .tapEncSample levels => Sys2Proof.Machine.execTapEncSample levels s
  | .tapMuteKeyWrite value => Sys2Proof.Machine.execTapMuteKeyWrite value s
  | .idAttestGoWrite value => Sys2Proof.Machine.execIdAttestGoWrite value s
  | .attestDone => Sys2Proof.Machine.execAttestDone s
  | .otpCmdGoWrite value => Sys2Proof.Machine.execOtpCmdGoWrite value s
  | .otpCommandDone fuseOk => Sys2Proof.Machine.execOtpCommandDone fuseOk s
  | .sleep => Sys2Proof.Machine.execSleep s
  | .wake => Sys2Proof.Machine.execWake s
  | .goLive => Sys2Proof.Machine.execGoLive s
  | .goShadow => Sys2Proof.Machine.execGoShadow s
  | .limpEnter => Sys2Proof.Machine.execLimpEnter s
  | .limpExit => Sys2Proof.Machine.execLimpExit s
  | .testEnter key => Sys2Proof.Machine.execTestEnter key s
  | .testExit => Sys2Proof.Machine.execTestExit s
  | .limpEntry => Sys2Proof.Machine.execLimpEntry s
  | .limpRetention => Sys2Proof.Machine.execLimpRetention s
  | .limpCauseClear cause => Sys2Proof.Machine.execLimpCauseClear cause s
  | .limpReturn => Sys2Proof.Machine.execLimpReturn s
  | .islandHang island => Sys2Proof.Machine.execIslandHang island s
  | .railDrop rail => Sys2Proof.Machine.execRailDrop rail s
  | .sysResetWrite value straps => Sys2Proof.Machine.execSysResetWrite value straps s
  | .resetNAssert straps => Sys2Proof.Machine.execResetNAssert straps s
  | .aoReset por straps => Sys2Proof.Machine.execAoReset por straps s
  | .domainOn d => Sys2Proof.Machine.execDomainOn d s
  | .domainOff d => Sys2Proof.Machine.execDomainOff d s
  | .railTimeout => Sys2Proof.Machine.execRailTimeout s
  | .bootFirstToken tuSample => Sys2Proof.Machine.execBootFirstToken tuSample s
  | .ptpWaitTimeout => Sys2Proof.Machine.execPtpWaitTimeout s
  | .pmuTempSample temps => Sys2Proof.Machine.execPmuTempSample temps s
  | .thermalTrip straps => Sys2Proof.Machine.execThermalTrip straps s
  | .thermRestartWake => Sys2Proof.Machine.execThermRestartWake s
  | .pwrFailAssert => Sys2Proof.Machine.execPwrFailAssert s
  | .pwrFailShutdown => Sys2Proof.Machine.execPwrFailShutdown s
  | .pwrFailDeassert => Sys2Proof.Machine.execPwrFailDeassert s
  | .pfRestartWake => Sys2Proof.Machine.execPfRestartWake s
  | .pcieLinkUp width speed => Sys2Proof.Machine.execPcieLinkUp width speed s
  | .pciePowerStateChange d3 => Sys2Proof.Machine.execPciePowerStateChange d3 s
  | .flmLinkDown link => Sys2Proof.Machine.execFlmLinkDown link s
  | .flmLinkUp link => Sys2Proof.Machine.execFlmLinkUp link s
  | .pll03Return => Sys2Proof.Machine.execPll03Return s
  | .loInReturn => Sys2Proof.Machine.execLoInReturn s
  | .wclkInputMissed n => Sys2Proof.Machine.execWclkInputMissed n s
  | .vddAoLoss => Sys2Proof.Machine.execVddAoLoss s

end Sys2Proof.Machine
end

