-- ==== Sys2Proof/Safety.lean ====
section
/-! DEFINITION. What counts as a safe state and a safe run, and the terms in which the statements say what a command leaves alone and
when a request reaches the register it names. -/

namespace Sys2Proof.Machine

/-- The one form of the stores that the manual addresses: the register file, the values in force, DRAM and flash list their keys
strictly rising, and the memories list no byte that reads as an unlisted one. Equal contents are then equal data. -/
def State.canonical (s : State) : Bool := Tbl.sorted s.regs && Tbl.sorted s.force && s.mem.wf

/-- The command answers a next state: neither a fault nor a refusal. -/
def Answers (i : Instr) (s : State) : Prop := ∃ t, exec i s = .next t

/-- A safe run: every command that waits answers a next state, one after the other. -/
def Safe : Nat → State → Prop
  | 0, _ => True
  | n + 1, s =>
    match step s with
    | .next t => Safe n t
    | .fault _ => False
    | .refused _ => False

/-- The command answers a next state of which `p` holds. -/
def Gives (i : Instr) (s : State) (p : State → Prop) : Prop := ∃ t, exec i s = .next t ∧ p t

/-- `t` is `u` but for the register fields `fs`, and what a status bit and a counter bring with them: a message to the host (R219) and
the events of the running minute (R370). -/
def SameBut (fs : List Fld) (u t : State) : Prop :=
  (∀ f : Fld, (∀ g ∈ fs, f.key ≠ g.key) → t.fld f = u.fld f) ∧
  t = { u with regs := t.regs, sent := t.sent
               hif := { u.hif with msixPend := t.hif.msixPend, moderated := t.hif.moderated }
               evt := { u.evt with minute := t.evt.minute } }

/-- A request of master `m` to the address `a` goes through the crossbar at once (R225, R227): its port is open and no other request waits
there. -/
def Through (s : State) (m a : Nat) : Prop := m < 24 ∧ s.passage m a = .forwarded ∧ s.hif.queue = []

/-- A request of master `m` reaches the register at `a` (R32, R36, R227), whose domain is on. It counts as outstanding on its way, which
`State.touch` records in XB_OUTSTANDING (R245). -/
def Reaches (s : State) (m a : Nat) : Prop := Through s m a ∧ targetDomain a ≠ 0 ∧ s.domainOn (targetDomain a) = true

/-- A write by the host reaches the register at `a`, on a chip that does not operate in a pair (R345). -/
def HostReaches (s : State) (a : Nat) : Prop := Reaches s 0 a ∧ s.flmState = 0

/-- The end of a request of master `m` that `u` is left by: commands that it brought in bear their master, and the response goes
out. -/
def State.answered (s : State) (m : Nat) (r : XbResp) (u : State) : State := (u.tagHeld s.heldNext m none).emit (.response m r)

/-- The command answers a next state that differs from `u` in the fields `fs` alone, and of which `p` holds. -/
def Turns (i : Instr) (s : State) (fs : List Fld) (u : State) (p : State → Prop) : Prop :=
  ∃ t, exec i s = .next t ∧ SameBut fs u t ∧ p t

/-- The host's request is answered with OK, and leaves a state that differs from `u` in the fields `fs` and in the peak of the host's
outstanding requests (R245) alone, of which `p` holds. -/
def HostSets (i : Instr) (s : State) (fs : List Fld) (u : State) (p : State → Prop) : Prop :=
  ∃ t, exec i s = .next (s.answered 0 .ok t) ∧ SameBut (R.XB_OUTSTANDING_PEAK 0 :: fs) u t ∧ p t

/-- The range of `n` bytes at `a` is DRAM beside the peal planes that is powered, belongs to no delay line and holds no uncorrectable
error. -/
def PlainDram (s : State) (a n : Nat) : Prop :=
  a + n ≤ 0x0D000000 ∧ s.domainOn 12 = true ∧ (∀ b, a ≤ b → b < a + n → s.lineProtected b = false) ∧ s.mem.firstBad a n = none

/-- Core `g` runs a task, is not stalled, has no write in flight, no closing test to make and TIMER at 0, and the bundle at its PC is
`b`, which is not the last of an open loop. -/
def Runs (s : State) (g : Nat) (b : Bundle) : Prop :=
  let c := s.core g
  (∃ t, c.task = some t ∧ s.fld (R.CCR_CYCLES_COUNT g) < t.cost) ∧ c.stall = .none ∧ c.closing = none ∧ (c.loops = [] ∨ c.rd 49 ≠ c.pc) ∧
  c.waited = false ∧ c.pend = [] ∧ s.fld (R.CCR_TIMER_COUNT g) = 0 ∧ decodeBundle (s.progWord g c.pc) (s.progWord g (c.pc + 1)) = some b

/-- Core `g` runs `b` outside delay slots and repeats. -/
def Ready (s : State) (g : Nat) (b : Bundle) : Prop := Runs s g b ∧ (s.core g).slots = 0 ∧ (s.core g).rpt = 0

/-- `i` issues a bundle of `len` words on core `g`: the core is left as `c` with its PC past the bundle, CYCLES counts, and nothing else
changes. -/
def Issues (i : Instr) (s : State) (g len : Nat) (c : Core) : Prop :=
  ∃ t, exec i s = .next t ∧ t.core g = { c with pc := (c.pc + len) % 16384 } ∧ (∀ h, h ≠ g → t.core h = s.core h) ∧
    t.fld (R.CCR_CYCLES_COUNT g) =
      min (s.fld (R.CCR_CYCLES_COUNT g) + (if len = 2 ∧ (s.core g).pc % 2 = 1 then 2 else 1)) (2 ^ 32 - 1) ∧
    SameBut [R.CCR_CYCLES_COUNT g] { s with mal := { s.mal with cores := t.mal.cores } } t

/-- A core takes the word `w` of a load into register `r` (R151, R162, R179): X, Y and A at once, P and M from the second bundle on, any
other register from the fourth on; the load of a BEXP (0x40) lowers BE.MIN to the word's leading sign count. -/
def Core.taking (c : Core) (r w : Nat) : Core :=
  if r = 0x40 then if lsc w < c.rd 51 % 32 then c.wr 51 (c.rd 51 - c.rd 51 % 32 + lsc w) else c
  else if r < 8 then c.wr r w
  else if r < 16 then c.wr r (codeS 56 (ofCodeS 24 w * 2 ^ 24))
  else { c with pend := c.pend ++ [
    if r < 32 then ⟨r, 2 ^ 24 - 1, w, 2⟩ else if r < 48 then ⟨r, 2 ^ 32 - 1, codeS 32 (ofCodeS 24 w), 2⟩
    else ⟨r, if r = 50 then srWritable else if r = 51 then 0xFF1F else 2 ^ regWidth r - 1, w % 2 ^ regWidth r, 4⟩] }

/-- What a store of register `r` writes, before it saturates (R149). -/
def Core.storing (c : Core) (r : Nat) : Int :=
  if 8 ≤ r ∧ r < 16 then (ofCodeS 56 (c.rd r) + 2 ^ 23) / 2 ^ 24 else ofCodeS 24 (c.rd r)

/-- `i` issues a bundle of one word on core `g`: the slots `sls` beside an operation that leaves the writes `pend` (R143, R145, R149,
R162, R180-R182). The pointers move, the loads from local memory, of words that no posted transfer is still to bring (R164), bring its words
and the loads from shared memory stall the core, each with its word as it stands where the bundle stores to it; the one store writes its word, sets SF where it saturates and, with BET set, lowers BE.MIN; no other word, byte, core or field changes. -/
def IssuesSlots (i : Instr) (s : State) (g : Nat) (sls : List Slot) (pend : List PWrite) : Prop :=
  let c := s.core g
  ∀ ds c1, c.slotAddrs sls = .ok (ds, c1) → (sls.filter (·.store)).length ≤ 1 →
    let near : List (Nat × Nat) := ds.filterMap (fun d => match d.2 with | .loc w => if d.1.store then none else some (d.1.reg, w) | _ => none)
    (∀ p ∈ c.posted, p.kind < 2 → ∀ l ∈ near, l.2 < p.word ∨ p.word + (s.binWords p).length ≤ l.2) →
    let stored : Option (DataAddr × Int) := (ds.find? (·.1.store)).map (fun d => (d.2, c.storing d.1.reg))
    let before : Nat → Option Nat := fun w => if stored.map (·.1) = some (.shared w) then some (s.sharedWord g w) else none
    let far : List (Nat × Nat × Option Nat) := ds.filterMap (fun d => match d.2 with
      | .shared w => if d.1.store then none else some (d.1.reg, w, before w)
      | _ => none)
    let taken : Core := near.foldl (fun k l => k.taking l.1 (s.dataWord g l.2)) { c1 with pend := pend }
    let k : Core := match stored with
      | none => taken
      | some (_, x) =>
        let k1 := if satS 24 x = x then taken else { taken with pend := taken.pend ++ [⟨50, 0x10, 0x10, 4⟩] }
        if c.sr 9 = 1 then k1.taking 0x40 (codeS 24 (satS 24 x)) else k1
    ∃ t, exec i s = .next t ∧
      t.core g = { k with pc := (c.pc + 1) % 16384, stall := if far = [] then .none else .slow far } ∧ (∀ h, h ≠ g → t.core h = s.core h) ∧
      t.fld (R.CCR_CYCLES_COUNT g) = min (s.fld (R.CCR_CYCLES_COUNT g) + 1) (2 ^ 32 - 1) ∧
      SameBut [R.CCR_CYCLES_COUNT g] { s with mal := { s.mal with cores := t.mal.cores, data := t.mal.data, shared := t.mal.shared } } t ∧
      (∀ h < 64, ∀ w < 0x10000, t.dataWord h w = match stored with
        | some (.loc v, x) => if h = g ∧ w = v then codeS 24 (satS 24 x) else s.dataWord h w
        | _ => s.dataWord h w) ∧
      (∀ l < 4, ∀ b < 0x100000, t.sharedByte l b = match stored with
        | some (.shared v, x) => if l = g / 16 ∧ 4 * v ≤ b ∧ b < 4 * v + 4 then
            BitVec.ofNat 8 (codeS 32 (satS 24 x) / 2 ^ (8 * (b - 4 * v))) else s.sharedByte l b
        | _ => s.sharedByte l b)

/-- A core's accumulator as it has landed. -/
def Core.acc (c : Core) (n : Nat) : Int := ofCodeS 56 (c.rd (8 + n))

/-- The writes that an arithmetic result brings (R148, R151): the accumulator, and N, Z, V and W from the exact result `x`, which wraps
or, with SAT set, saturates at 56 bits. -/
def Core.kept (c : Core) (x : Int) : Int := if satS 56 x = x then x else if c.sr 8 = 1 then satS 56 x else wrapS 56 x

/-- The flags of a result `v`: Z, N, and V and W where `o`. -/
def flagWrite (v : Int) (o : Bool) : PWrite :=
  ⟨50, if o then 0xF else 7, flag (decide (v = 0)) + 2 * flag (decide (v < 0)) + 4 * flag o + 8 * flag o, 4⟩

/-- The write of an accumulator. -/
def accLater (n : Nat) (v : Int) : PWrite := ⟨8 + n, 2 ^ 56 - 1, codeS 56 v, 3⟩

/-- Nothing but the count of blocks is due at the next token: no mode change, no ramp of the outputs, no swap, no realignment, no twin, no
task withheld, no output stream, no request at the crossbar, no ring that waits or holds a record. -/
def Quiet (s : State) : Prop :=
  s.fld R.BLK_STATE_RUN = 1 ∧ s.domainOn 2 = true ∧ s.mode ≠ .sentry ∧ s.mode ≠ .limp ∧ s.limpDue = false ∧ s.pmu.sleepAt = none ∧
  s.pmu.ask = none ∧ s.pmu.pwrFail = false ∧ s.gate.ramp = none ∧ s.swapState = swIdle ∧ s.peal.armed = none ∧ s.peal.fade = none ∧
  s.flm.operates = false ∧ (∀ c, s.cfg = some c → c.regionPairs = []) ∧ s.blk.realign = none ∧ s.fld R.BLK_STATE_LIMP_SCHED = 0 ∧
  s.blk.limpNow = false ∧ s.pmu.failed = [] ∧ s.net.outs = [] ∧ s.hif.queue = [] ∧
  (∀ e ∈ s.rings, e.2.holdWait = false ∧ e.2.recs = [])

end Sys2Proof.Machine
end

