-- ==== Sys2Proof/Certificates/Slice0/Obligations.lean ====
section
/-! DEFINITION. The statements for the provers. -/

open Sys2Proof Sys2Proof.Machine

/-! ### The machine, and rules stated whole -/

/-- A step runs the command at the front of the queue, on the state with the rest of the queue; an empty queue leaves the block as it is
(a choice of the model, notes/assumptions/1). -/
def Obligations.StepTakesTheFrontCommand : Prop :=
  (∀ (s : State) (c : Instr) (cs : List Instr), step { s with pending := c :: cs } = exec c { s with pending := cs }) ∧
  (∀ s : State, s.pending = [] → step s = .next s)

/-- No command, in any state, ends in a fault or a refusal, and none reaches the queue of the commands that wait; so every queue runs to
its end. -/
def Obligations.EveryCommandAnswersAndKeepsTheQueue : Prop :=
  (∀ (i : Instr) (s : State), ∃ t, exec i s = .next t ∧ t.pending = s.pending) ∧ (∀ (n : Nat) (s : State), Safe n s) ∧
  (∀ s : State, s.pending ≠ [] → ∃ t, step s = .next t ∧ t.pending = s.pending.tail)

/-- Every step keeps the register file, the values in force, DRAM and flash in their one form: keys strictly rising, and no byte listed
that reads as an unlisted one (the form is the model's own, and what an unlisted byte reads as stands in notes/assumptions/7). -/
def Obligations.EveryStepKeepsTheCanonicalForm : Prop :=
  ∀ s t : State, s.canonical = true → step s = .next t → t.canonical = true

/-- R6, R391, R393, R395. Right after the power-on reset: the canonical form; SENTRY; no domain on but AO; POR as the cause; every other
register at its reset value; no image, no command, no commit; memories with nothing listed. The two AO rails as good, the reset values
that the manual leaves open and what DRAM and flash read as are the model's choice (notes/assumptions/3 and 7). -/
def Obligations.StateAfterReset : Prop :=
  let s := State.reset
  s.canonical = true ∧ s.pending = [] ∧ s.mode = .sentry ∧ s.cfg = none ∧ s.held = [] ∧ s.commits = [] ∧
  (∀ d ∈ powerSequence, s.domainOn d = false ∧ s.domainState d = 0) ∧ s.domainOn 1 = true ∧ s.domainState 1 = 2 ∧
  s.fld R.PMU_RAIL_GOOD_GOOD = 12 ∧ s.fld R.PMU_RESET_CAUSE_POR = 1 ∧ s.fld R.EVT_STATUS_RESTORING = 1 ∧
  (∀ f : Fld, f.key ≠ R.PMU_RAIL_GOOD_GOOD.key → f.key ≠ R.PMU_RESET_CAUSE_POR.key → s.fld f = f.rst) ∧
  (∀ f : Fld, s.inForce f = f.rst) ∧ s.gate.released = false ∧ s.mem.dram = [] ∧ s.mem.flash = []

/-- R29. While a commit is pending, GO is refused with the code of its WHEN and the pending commit stays; CANCEL discards the pending
set, clears PENDING, and shows the TAG it carried, and sets neither APPLIED nor COMMIT_ERR. -/
def Obligations.CommitWhilePending : Prop :=
  ∀ (s : State) (b : CommitBlk) (p : PendingCommit), commitPresent b = true → s.domainOn (commitDomain b) = true → HostReaches s (commitReg b) →
    s.pendingOf b = some p →
    (∀ tag whenCode : Nat, tag < 256 → whenCode < 4 →
      HostSets (.commitGo b tag whenCode) s [commitErr b, commitCode b, commitTag b] s (fun u => u.fld (commitErr b) = 1 ∧
        u.commits = s.commits ∧
        u.fld (commitCode b) = (if whenCode = 3 then 1 else if whenCode = 2 ∧ commitFrame b = false then 2 else 3) ∧
        u.fld (commitTag b) = tag)) ∧
    HostSets (.commitCancel b) s [commitPend b, commitTag b] { s with commits := s.commits.filter (fun q => decide (q.blk ≠ b)) } (fun u =>
      u.pendingOf b = none ∧ u.fld (commitPend b) = 0 ∧ u.fld (commitTag b) = p.tag % 256 ∧
      u.fld (commitApplied b) = s.fld (commitApplied b) ∧ u.fld (commitErr b) = s.fld (commitErr b) ∧
      ∀ b', b' ≠ b → u.pendingOf b' = s.pendingOf b')

/-- R226. A request of a word at an address that decodes nowhere: a decode error for whoever asks, by whichever command; a host's read
returns the error pattern; each request is counted and its address recorded. -/
def Obligations.DefaultTarget : Prop :=
  ∀ (s : State) (a : Nat), targetDomain a = 0 → a % 4 = 0 → a < 2 ^ 32 → s.domainOn 2 = true →
    let counted := fun (t : State) => t.fld R.XB_DECERR_ADDR_ADDR = a ∧
      t.fld R.XB_DECERR_COUNT_COUNT = min (s.fld R.XB_DECERR_COUNT_COUNT + 1) (2 ^ 32 - 1) ∧ t.mem = s.mem
    (∀ m : Nat, Through s m a →
      (∀ (v : Word) (tag age rounds : Nat) (resp : FetchResp), 0 < rounds → s.hif.locks = [] →
        Gives (.xbRequest m tag a 4 none age rounds none resp) s (fun t => counted t ∧ .response m .decodeErr ∈ t.sent) ∧
        Gives (.xbRequest m tag a 4 (some ((leBytes 4 v.toNat).map some)) age rounds none resp) s (fun t =>
          counted t ∧ .response m .decodeErr ∈ t.sent)) ∧
      (∀ v : Word, Gives (.registerWrite m a v) s (fun t => counted t ∧ .response m .decodeErr ∈ t.sent))) ∧
    (∀ off : Nat, a = 0x14000000 + off → off + 4 ≤ 0x2000000 → s.hostReaches = true → Through s 0 a →
      Gives (.hostRead false off 4) s (fun t => counted t ∧ .hostData (leBytes 4 0xDEC0DEC0) ∈ t.sent) ∧
      ∀ v : Word, Gives (.hostWrite false off ((leBytes 4 v.toNat).map some)) s counted)

/-- R254. A port's input word: the top WORD_BITS bits of its slot, in the top bits of the sample, whatever the other bits are. A port's
output word: the sample to WORD_BITS, to the nearest with halves away from zero, saturated at either end, with zeros below it. -/
def Obligations.PortWords : Prop :=
  ∀ r : PrtRec, (r.wordBits = 16 ∨ r.wordBits = 20 ∨ r.wordBits = 24) → r.wordBits ≤ r.slotBits →
    let d := 24 - r.wordBits
    (∀ (x : Int) (junk : Nat), -2 ^ (r.wordBits - 1) ≤ x → x < 2 ^ (r.wordBits - 1) → junk < 2 ^ (r.slotBits - r.wordBits) →
      slotToSample r (codeS r.wordBits x * 2 ^ (r.slotBits - r.wordBits) + junk) = x * 2 ^ d) ∧
    (∀ x : Int, -2 ^ 23 ≤ x → x < 2 ^ 23 →
      let m := (2 * x.natAbs + 2 ^ d) / 2 ^ (d + 1)
      let y : Int := if x < 0 then -m else m
      sampleToSlot r x % 2 ^ (r.slotBits - r.wordBits) = 0 ∧
      ofCodeS r.wordBits (sampleToSlot r x / 2 ^ (r.slotBits - r.wordBits)) = min (2 ^ (r.wordBits - 1) - 1) y)

/-- R363. A request frame: SYNC, CMD, LEN, the payload and the CRC, with what follows ignored; one that ends early, whose SYNC or CRC is
wrong, or that comes while a command executes, is discarded whole and counted, and the next response reads status 1; and the CRC-8. -/
def Obligations.RequestFrames : Prop :=
  (∀ (s : State) (cmd : Byte) (p rest : List Byte), p.length < 256 →
    let head := 0xA5#8 :: cmd :: BitVec.ofNat 8 p.length :: p
    let drops := fun (f : List Byte) => Gives (.smpRequestFrame f) s (fun t =>
      t.fld R.SMP_FRAME_ERR_COUNT = min (s.fld R.SMP_FRAME_ERR_COUNT + 1) (2 ^ 32 - 1) ∧ t.smp.status = 1 ∧ t.smp.exec = s.smp.exec ∧
      t.smp.result = s.smp.result ∧ t.mem = s.mem)
    (s.smp.exec = none → Gives (.smpRequestFrame (head ++ crc8 head :: rest)) s (fun t => t.smp.exec = some ⟨cmd.toNat, p, false⟩ ∧
      t.fld R.SMP_FRAME_ERR_COUNT = s.fld R.SMP_FRAME_ERR_COUNT)) ∧
    (s.smp.exec.isSome = true → drops (head ++ crc8 head :: rest)) ∧
    (∀ n ≤ p.length + 3, drops (head.take n)) ∧
    (∀ c : Byte, c ≠ crc8 head → drops (head ++ c :: rest)) ∧
    (∀ (b : Byte) (f : List Byte), b ≠ 0xA5#8 → b ≠ 0x5A#8 → drops (b :: f))) ∧
  crc8 [] = 0#8 ∧ crc8 [0x31, 0x32, 0x33, 0x34, 0x35, 0x36, 0x37, 0x38, 0x39] = 0xF4#8 ∧
  (∀ (bs : List Byte) (b : Byte), crc8 (bs ++ [b]) =
    (fun c : Byte => if c.msb then (c <<< 1) ^^^ 0x07#8 else c <<< 1)^[8] (crc8 bs ^^^ b))

/-! ### The block sequencer and the bridges -/

/-- R90, R430, R74, R69. BLK_TICK, the read of BLK_INDEX_LO, BLK_COUNT_CLEAR, a write into SXM and an accepted realignment each complete
with their own effect and change no other field. A realignment that may not run changes nothing but RESULT and REALIGN_DONE. -/
def Obligations.SequencerRegisterCommands : Prop :=
  ((∀ s : State, 0 < s.fld R.BLK_TICK_DIV_DIV → s.fld R.BLK_TICK_DIV_DIV ≤ s.blk.ticks →
    Gives .blkTick s (fun t => bit (t.fld R.BLK_INT_STATUS_TICK) 0 = 1 ∧
      SameBut [R.BLK_INT_STATUS_TICK] { s with blk := { s.blk with ticks := s.blk.ticks - s.fld R.BLK_TICK_DIV_DIV } } t)) ∧
  (∀ (s : State) (m : Nat), Reaches s m 0x14040008 →
    exec (.blkIndexLoRead m) s = .next (((s.touch m).setFld R.BLK_INDEX_HI_INDEX (s.blk.index / 2 ^ 32)).emit
      (.response m (.data (leBytes 4 (s.blk.index % 2 ^ 32)))))) ∧
  (∀ s : State, HostReaches s 0x14040040 →
    HostSets .blkCountClear s ([R.BLK_LATE_TOTAL_COUNT, R.BLK_OVERRUN_TOTAL_COUNT, R.BLK_LATE_LAST_OVERRUN, R.BLK_LATE_LAST_TASK,
        R.BLK_LATE_LAST_BLK_LO_BLK, R.BLK_FADED_BUSES_COUNT] ++ (List.range 26).map R.BLK_ISL_LOAD_PEAK ++
        (List.range 26).map R.BLK_ISL_LATE_COUNT) s (fun u =>
      u.fld R.BLK_LATE_TOTAL_COUNT = 0 ∧ u.fld R.BLK_OVERRUN_TOTAL_COUNT = 0 ∧ u.fld R.BLK_LATE_LAST_OVERRUN = 0 ∧
      u.fld R.BLK_LATE_LAST_TASK = 0 ∧ u.fld R.BLK_LATE_LAST_BLK_LO_BLK = 0 ∧ u.fld R.BLK_FADED_BUSES_COUNT = 0 ∧
      ∀ n < 26, u.fld (R.BLK_ISL_LOAD_PEAK n) = 0 ∧ u.fld (R.BLK_ISL_LATE_COUNT n) = 0)) ∧
  (∀ (s : State) (m a : Nat), 0x10000000 ≤ a → a < 0x10200000 → Reaches s m a → s.flmState = 0 →
    ∃ u, exec (.sxmWriteRefused m a) s = .next ((u.tagHeld s.heldNext m none).answer m a .targetErr) ∧
      bit (u.fld R.SXM_INT_STATUS_WRITE_REFUSED) 0 = 1 ∧ u.sxm = s.sxm ∧ SameBut [R.XB_OUTSTANDING_PEAK m, R.SXM_INT_STATUS_WRITE_REFUSED] s u) ∧
  (∀ (s : State) (key : Nat), HostReaches s 0x14040014 → key % 65536 = 0xB10C → s.blk.realign = none → s.swapState = swIdle →
    (s.mode = .live ∨ s.mode = .shadow) → 1 < (ofCodeS 32 (s.fld R.BLK_EPOCH_ERR_ERR)).natAbs →
    HostSets (.realignRequest key) s [R.BLK_STATE_REALIGNING, R.BLK_REALIGN_STATUS_BUSY, R.BLK_REALIGN_STATUS_RESULT]
      { s with blk := { s.blk with realign := some ⟨s.blk.index + 1, false⟩ }
               gate := if s.gate.released then ⟨false, some (s.blk.index + 1, 2, false)⟩ else s.gate }
      (fun u => u.fld R.BLK_STATE_REALIGNING = 1 ∧ u.fld R.BLK_REALIGN_STATUS_BUSY = 1 ∧ u.fld R.BLK_REALIGN_STATUS_RESULT = 0))) ∧
  (∀ (s : State) (key : Nat), HostReaches s 0x14040014 → key % 65536 = 0xB10C → s.blk.realign = none →
    let r := if s.swapState ≠ swIdle then 2 else if s.mode ≠ .live ∧ s.mode ≠ .shadow then 3 else 5
    (r = 5 → (ofCodeS 32 (s.fld R.BLK_EPOCH_ERR_ERR)).natAbs ≤ 1) →
    HostSets (.realignRequest key) s [R.BLK_REALIGN_STATUS_RESULT, R.BLK_INT_STATUS_REALIGN_DONE] s (fun u =>
      u.fld R.BLK_REALIGN_STATUS_RESULT = r ∧ bit (u.fld R.BLK_INT_STATUS_REALIGN_DONE) 0 = 1))

/-- R15, R78, R92. A handshake channel takes a word in behind the words in flight and delivers the oldest of them: no word is lost or
passed. The state of a bridge source: LOCKED from ACQUIRING, with its ratio and its channels to ramp in; out of range or without a
clock, with the exit from LOCKED counted; and back to ACQUIRING. -/
def Obligations.HandshakeAndBridgeEvents : Prop :=
  (∀ (s : State) (src dst : Nat), src < 26 → dst < 26 → s.islandOn src = true → s.islandOn dst = true →
    (∀ w : Word, Gives (.handshakeWord src dst (some w)) s (fun t =>
      (t.channel src dst).flight = (s.channel src dst).flight ++ [w] ∧ (t.channel src dst).taken = (s.channel src dst).taken ∧
      (∀ i j, j < 26 → (i, j) ≠ (src, dst) → t.channel i j = s.channel i j) ∧ t = { s with hsk := t.hsk })) ∧
    (∀ (w : Word) (ws : List Word), (s.channel src dst).flight = w :: ws → Gives (.handshakeWord src dst none) s (fun t =>
      (t.channel src dst).flight = ws ∧ (t.channel src dst).taken = w :: (s.channel src dst).taken ∧
      (∀ i j, j < 26 → (i, j) ≠ (src, dst) → t.channel i j = s.channel i j) ∧ t = { s with hsk := t.hsk }))) ∧
  ((∀ (s : State) (n ratio : Nat), n < 24 → s.brgState n = 1 → ratio < 2 ^ 32 →
    Gives (.brgSourceLock n ratio) s (fun t => t.brgState n = 2 ∧ t.fld (R.BRG_SRC_RATIO_RATIO n) = ratio ∧
      bit (t.fld R.BRG_INT_STATUS_LOCK) 0 = 1 ∧
      SameBut [R.BRG_SRC_STATE_STATE n, R.BRG_SRC_RATIO_RATIO n, R.BRG_INT_STATUS_LOCK]
        { s with blk := { s.blk with locking := (1, n) :: (2, n) :: s.blk.locking } } t)) ∧
  (∀ (s : State) (n : Nat), n < 24 →
    (s.brgState n = 2 →
      Gives (.brgOutOfRange n) s (fun t => t.brgState n = 3 ∧
        t.fld (R.BRG_SRC_UNLOCK_COUNT n) = min (s.fld (R.BRG_SRC_UNLOCK_COUNT n) + 1) (2 ^ 32 - 1) ∧
        bit (t.fld R.BRG_INT_STATUS_UNLOCK) 0 = 1 ∧ (∀ p ∈ t.blk.locking, p.2 ≠ n) ∧
        SameBut [R.BRG_SRC_STATE_STATE n, R.BRG_SRC_UNLOCK_COUNT n, R.BRG_INT_STATUS_UNLOCK]
          { s with blk := { s.blk with locking := t.blk.locking } } t) ∧
      Gives (.brgNoClock n) s (fun t => t.brgState n = 4 ∧
        t.fld (R.BRG_SRC_UNLOCK_COUNT n) = min (s.fld (R.BRG_SRC_UNLOCK_COUNT n) + 1) (2 ^ 32 - 1) ∧
        bit (t.fld R.BRG_INT_STATUS_UNLOCK) 0 = 1 ∧ (∀ p ∈ t.blk.locking, p.2 ≠ n) ∧
        SameBut [R.BRG_SRC_STATE_STATE n, R.BRG_SRC_UNLOCK_COUNT n, R.BRG_INT_STATUS_UNLOCK]
          { s with blk := { s.blk with locking := t.blk.locking } } t)) ∧
    (s.brgState n = 1 →
      Gives (.brgOutOfRange n) s (fun t => t.brgState n = 3 ∧ SameBut [R.BRG_SRC_STATE_STATE n] s t) ∧
      Gives (.brgNoClock n) s (fun t => t.brgState n = 4 ∧ SameBut [R.BRG_SRC_STATE_STATE n] s t)) ∧
    (s.brgState n = 3 ∨ s.brgState n = 4 →
      Gives (.brgAcquire n) s (fun t => t.brgState n = 1 ∧ SameBut [R.BRG_SRC_STATE_STATE n] s t))))

/-! ### Tokens, tasks and commits -/

/-- R16, R67, R68. While nothing else is due, a token is issued: the index rises by exactly one, a new round begins with no task ended
or running, and no memory, sample or held command changes. -/
def Obligations.TokenCountsBlocks : Prop :=
  ∀ (s : State) (tuSample : Nat), Quiet s → (∀ r ∈ s.roundTasks, s.hasEnded r.1.task r.2 = true) →
    Gives (.blockToken tuSample) s (fun t => t.blk.index = (s.blk.index + 1) % 2 ^ 48 ∧ t.blk.seq = s.blk.seq + 1 ∧
      t.blk.ticks = (if s.fld R.BLK_TICK_DIV_DIV = 0 then 0 else s.blk.ticks + 1) ∧ t.blk.ended = [] ∧ t.blk.running = [] ∧ t.blk.arrived = s.blk.arrived ∧
      t.mem = s.mem ∧ t.sxm = s.sxm ∧ t.held = s.held ∧ t.commits = s.commits ∧ t.cfg = s.cfg ∧ t.force = s.force)

/-- R17, R60, R80, R83, R98, R170, R402. A token reaches an island, which then leaves the fallback oscillator where PLL_00 is back; a
task is dispatched and ends in its block or runs on; a task that reaches its cost is stopped. -/
def Obligations.TokenAndTaskCommands : Prop :=
  (∀ (s : State) (i : Nat), i < 26 → i ≠ 22 → i ≠ 23 → s.islandOn i = true → s.fld R.BLK_STATE_RUN = 1 →
    s.arrivedSeq i < s.blk.seq → s.peal.armed = none →
    let here := { s with blk := { s.blk with arrived := Tbl.put s.blk.arrived i (s.blk.index, s.blk.seq) } }
    (s.fld (R.SYS_ISLAND_CLK_SRC i) ≠ 1 ∨ s.fld (R.PLL_STATUS_FALLBACK 0) = 1 →
      (i < 2 ∨ (13 ≤ i ∧ i ≤ 16) ∨ i = 21 ∨ i = 24 ∨ i = 25 → exec (.tokenArrival i) s = .next here) ∧
      (8 ≤ i → i < 12 → exec (.tokenArrival i) s = .next { here with
        mal := { here.mal with applied := s.mal.applied.filter (fun e => e.1 / 16 != i - 8) } }) ∧
      exec (.tokenArrival i) s = .next (here.islandBoundary i ((boundaryGroup i).all (fun j => decide (s.arrivedSeq j < s.blk.seq)))
        ((boundaryGroup i).all (fun j => decide (here.arrivedSeq j = s.blk.seq))))) ∧
    (s.fld (R.SYS_ISLAND_CLK_SRC i) = 1 → s.fld (R.PLL_STATUS_FALLBACK 0) = 0 → i < 2 ∨ i = 21 ∨ i = 24 ∨ i = 25 →
      Turns (.tokenArrival i) s [R.SYS_ISLAND_CLK_SRC i] here (fun t => t.fld (R.SYS_ISLAND_CLK_SRC i) = 0))) ∧
  (∀ (s : State) (i h : Nat), i = 22 + h → h < 2 → s.islandOn i = true → s.fld R.BLK_STATE_RUN = 1 → s.arrivedSeq i < s.blk.seq →
    s.cfg = none → exec (.tokenArrival i) s = .next
      { s with blk := { s.blk with arrived := Tbl.put s.blk.arrived i (s.blk.index, s.blk.seq) } }) ∧
  (∀ (s : State) (task load : Nat) (old : Bool) (c : Cfg) (t : TaskRec), s.verCfg old = some c → c.task? task = some t →
    s.mayStart c t old = true → s.dueOn t.island = false →
    (t.kind = 1 → Gives (.taskDispatch task old load) s (fun u =>
      (u.core t.unit).task = some ⟨t.task, old, t.cost, dataBlock 1 s.blk.index⟩ ∧ u.blk.running = (task, old, t.unit) :: s.blk.running ∧
      u.fld (R.CCR_CYCLES_COUNT t.unit) = 0 ∧ (u.core t.unit).loops = [] ∧ (u.core t.unit).stack = [] ∧ (u.core t.unit).pend = [] ∧
      (∀ g, g ≠ t.unit → u.core g = s.core g) ∧ u.mem = s.mem ∧ u.sxm = s.sxm)) ∧
    (t.kind ≠ 1 → t.kind ≠ 3 → 65536 ≤ load →
      exec (.taskDispatch task old load) s = .next { s with blk := { s.blk with running := (task, old, t.unit) :: s.blk.running } }) ∧
    (t.kind ≠ 1 → load < 65536 → Gives (.taskDispatch task old load) s (fun u => u.hasEnded task old = true ∧
      u.blk.running = ((s.inVersion old (fun s => s.taskRun c t (dataBlock t.kind s.blk.index))).blk.running.filter
        (fun r => !(r.1 == task && r.2.1 == old)))))) ∧
  (∀ (s : State) (g : Nat) (k : RunTask) (c : Cfg), (s.core g).task = some k → (s.core g).pend = [] → k.old = false → s.cfg = some c → g < 64 →
    (s.core g).stall = .none → k.cost ≤ s.fld (R.CCR_CYCLES_COUNT g) →
    Gives (.taskOverrun g) s (fun t => (t.core g).task = none ∧ t.hasEnded k.task false = true ∧
      t.fld R.BLK_OVERRUN_TOTAL_COUNT = min (s.fld R.BLK_OVERRUN_TOTAL_COUNT + 1) (2 ^ 32 - 1) ∧
      bit (t.fld R.BLK_INT_STATUS_OVERRUN) 0 = 1 ∧ t.fld R.BLK_LATE_LAST_OVERRUN = 1 ∧ t.fld R.BLK_LATE_LAST_TASK = k.task % 4096 ∧
      t.fld R.BLK_LATE_LAST_BLK_LO_BLK = k.blk % 2 ^ 32 ∧ t.taskHist k.task false = (1, false) ∧ t.mem = s.mem))

/-- R24, R26, R27, R28. GO takes the shadow set into a pending set, or is refused with its code and its TAG; an immediate one of a set
that waits for no boundary applies, or fails, at once. It changes no field in force before its point. A pending commit that reaches its
point is gone, its TAG is reported, and it has applied or it has failed with code 4 and changed no field in force. -/
def Obligations.CommitsAreTakenAndEnd : Prop :=
  (∀ (s : State) (b : CommitBlk) (tag whenCode : Nat), commitPresent b = true → s.domainOn (commitDomain b) = true →
    HostReaches s (commitReg b) → tag < 256 → whenCode < 4 →
    let code := if whenCode = 3 then 1 else if whenCode = 2 ∧ commitFrame b = false then 2 else 3
    ((whenCode = 3 ∨ (whenCode = 2 ∧ commitFrame b = false) ∨ (s.pendingOf b).isSome = true) →
      HostSets (.commitGo b tag whenCode) s [commitErr b, commitCode b, commitTag b] s (fun u =>
        u.fld (commitErr b) = 1 ∧ u.fld (commitCode b) = code ∧ u.fld (commitTag b) = tag)) ∧
    ((whenCode = 1 ∨ (whenCode = 2 ∧ commitFrame b = true) ∨ (whenCode = 0 ∧ commitAtOnce b = false)) → s.pendingOf b = none →
      HostSets (.commitGo b tag whenCode) s [commitPend b] { s with
          commits := s.commits ++ [⟨b, tag, whenCode, s.shadowSet b, s.commitMark b whenCode, 0, s.heldNext, none⟩]
          heldNext := s.heldNext + 1 } (fun u => u.fld (commitPend b) = 1)) ∧
    (whenCode = 0 → commitAtOnce b = true → s.pendingOf b = none →
      ∃ u, exec (.commitGo b tag whenCode) s = .next (s.answered 0 .ok u) ∧ u.pendingOf b = none ∧ u.fld (commitPend b) = 0 ∧
        u.fld (commitTag b) = tag ∧ (u.fld (commitApplied b) = 1 ∨ (u.fld (commitErr b) = 1 ∧ u.fld (commitCode b) = 4 ∧ u.force = s.force)))) ∧
  ((∀ (s : State) (b : CommitBlk) (p : PendingCommit), commitPresent b = true → b ≠ .peal → s.pendingOf b = some p →
    s.commitPoint p = true →
    Gives (.commitApply b) s (fun t => t.pendingOf b = none ∧ t.fld (commitPend b) = 0 ∧ t.fld (commitTag b) = p.tag % 256 ∧
      (t.fld (commitApplied b) = 1 ∨ (t.fld (commitErr b) = 1 ∧ t.fld (commitCode b) = 4 ∧ t.force = s.force)) ∧ t.mem = s.mem)) ∧
  (∀ (s : State) (n : Nat) (p : PendingCommit), n = 1 ∨ n = 2 → s.pendingOf (.pll n) = some p → s.commitPoint p = true →
    s.pllCheck n p.set = 0 →
    Gives (.commitApply (.pll n)) s (fun t => t.fld (commitApplied (.pll n)) = 1 ∧
      ∀ f ∈ pllSetFlds n, t.inForce f = Tbl.get p.set f.key f.rst % 2 ^ f.width)))

/-! ### The host, the crossbar and the rings -/

/-- R4, R215, R216, R224, R222, R225, R245. The host reads and writes DRAM through BAR2 byte by byte, and an AtomicOp reads, replaces
and returns a naturally aligned word; through BAR0 it reads and writes the registers. With no locked sequence about, a burst of a master
to DRAM is served within as many rounds as it has beats: it is answered, its bytes read or written, and none of its requests is left
outstanding. A beat of a locked sequence locks its target for the master; the last releases it. -/
def Obligations.AccessesToDram : Prop :=
  (∀ (s : State) (a : Nat), s.hostReaches = true → Through s 0 a →
    (∀ n, PlainDram s a n → exec (.hostRead true a n) s = .next ((s.touch 0).emit (.hostData (s.mem.dramRead a n)))) ∧
    (∀ data : List (Option Byte), PlainDram s a data.length → Gives (.hostWrite true a data) s (fun t =>
      (∀ i < data.length, t.mem.dramByte (a + i) = (data.getD i none).getD (s.mem.dramByte (a + i))) ∧
      (∀ x, x < a ∨ a + data.length ≤ x → t.mem.dramByte x = s.mem.dramByte x) ∧ t = { s.touch 0 with mem := t.mem })) ∧
    (∀ (op : AtomicOp) (wide : Bool) (operand compare : Nat),
      let n := if wide then 8 else 4
      let old := leNat (s.mem.dramRead a n)
      let new := match op with
        | .fetchAdd => old + operand
        | .swap => operand
        | .cas => if old = compare % 2 ^ (8 * n) then operand else old
      a % n = 0 → PlainDram s a n → Gives (.atomicOp true a op wide operand compare) s (fun t =>
        t.sent = .hostData (s.mem.dramRead a n) :: s.sent ∧ t.mem.dramRead a n = leBytes n new ∧
        (∀ x, x < a ∨ a + n ≤ x → t.mem.dramByte x = s.mem.dramByte x) ∧ t = { s.touch 0 with mem := t.mem, sent := t.sent })) ∧
    (Reaches s 0 a → a % 4 = 0 → a ≠ 0x14040008 → a ≠ 0x15F10034 →
      (∃ r ∈ [(0x14000000, 0x14018000), (0x14020000, 0x14030000), (0x14040000, 0x14080000), (0x140B0000, 0x140B8000), (0x140F0000, 0x140F1000),
        (0x15F00000, 0x16000000)], r.1 ≤ a ∧ a < r.2) →
      exec (.hostRead false (a - 0x14000000) 4) s = .next ((s.touch 0).emit (.hostData (leBytes 4 ((s.touch 0).viewReg a)))) ∧
      ∀ v : Word, (s.touch 0).writeReg 0 a v = (.ok, (s.touch 0).writeGeneric a v.toNat) → s.flmState = 0 →
        exec (.hostWrite false (a - 0x14000000) ((leBytes 4 v.toNat).map some)) s = .next ((s.touch 0).writeGeneric a v.toNat |>.tagHeld s.heldNext 0 none))) ∧
  (∀ (s : State) (m tag a age rounds : Nat) (resp : FetchResp), Through s m a → s.hif.locks = [] → 16 ≤ rounds →
    let fs := [R.XB_OUTSTANDING_NOW m, R.XB_OUTSTANDING_PEAK m]
    (∀ n, burstOk a n = true → PlainDram s a n →
      Turns (.xbRequest m tag a n none age rounds none resp) s fs { s with heldNext := s.heldNext + 1 } (fun t =>
        t.fld (R.XB_OUTSTANDING_NOW m) = 0 ∧ t.sent = .response m (.data (s.mem.dramRead a n)) :: s.sent)) ∧
    (∀ data : List (Option Byte), burstOk a data.length = true → PlainDram s a data.length →
      Gives (.xbRequest m tag a data.length (some data) age rounds none resp) s (fun t =>
        SameBut fs { s with mem := t.mem, heldNext := s.heldNext + 1 } t ∧
        (∀ i < data.length, t.mem.dramByte (a + i) = (data.getD i none).getD (s.mem.dramByte (a + i))) ∧
        (∀ x, x < a ∨ a + data.length ≤ x → t.mem.dramByte x = s.mem.dramByte x) ∧
        t.fld (R.XB_OUTSTANDING_NOW m) = 0 ∧ t.sent = .response m .ok :: s.sent)) ∧
    (∀ (n : Nat) (last : Bool), mayLock m = true → burstOk a n = true → beatsOf a n = 1 → PlainDram s a n →
      Turns (.xbRequest m tag a n none age rounds (some last) resp) s fs
        { s with heldNext := s.heldNext + 1
                 hif := { s.hif with locks := if last then [] else [⟨s.targetNumber a, m, 1⟩] } } (fun t =>
          t.sent = .response m (.data (s.mem.dramRead a n)) :: s.sent)))

/-- R4, R217, R218, R219, R246, R241, R215, R228. A write of a register by a master does to each of its fields what the field's access
type says, in the registers of the blocks named whose writes do nothing else; a write of an outbound window sets it, and the window then
translates by it. A write of a vector's control word that unmasks it sends its pending message, and a masked vector keeps it; the end of
a moderation interval sends one message for the raises merged in it. A barrier write is taken in while its master has fewer than four
pending and refused with a target error otherwise; a barrier whose writes have taken effect shows its token and is gone. A reset of the
PCIe function puts HIF and RNG at their reset values, but for the link, discards what they hold, and resets master 0; a link that goes
down shows so, and with any other reset it keeps its state, width and speed. -/
def Obligations.WindowsMessagesBarriersAndResets : Prop :=
  ((∀ (s : State) (m a : Nat) (v : Word), Reaches s m a → s.flmState = 0 → a % 4 = 0 → regFields a ≠ [] → (∀ p ∈ regFields a, p.2 ≠ .wo) →
    (∃ r ∈ [(0x14000000, 0x14018000), (0x14020000, 0x14030000), (0x14040000, 0x1404001C), (0x14040020, 0x14080000), (0x140B0000, 0x140B8000),
      (0x140F0010, 0x140F1000), (0x14400000, 0x14401000), (0x15F00000, 0x15F10030), (0x15F10034, 0x16000000)], r.1 ≤ a ∧ a < r.2) →
    let written := (regFields a).filter (fun p => p.2 ≠ .ro)
    ∃ t, exec (.registerWrite m a v) s = .next (s.answered m .ok t) ∧ SameBut (R.XB_OUTSTANDING_PEAK m :: written.map (·.1)) s t ∧
      ∀ p ∈ written, let x := bits v.toNat (p.1.lo + p.1.width - 1) p.1.lo
        t.fld p.1 = (match p.2 with
          | .w1c => s.fld p.1 - (s.fld p.1 &&& x)
          | .w1s => s.fld p.1 ||| x
          | _ => x) % 2 ^ p.1.width) ∧
  ∀ (s : State) (m n : Nat) (v : Word), n < 8 → Reaches s m (0x14010100 + 4 * n) →
    Gives (.registerWrite m (0x14010100 + 4 * n) v) s (fun t =>
      t.fld (R.HIF_OB_ENABLE n) = v.toNat % 2 ∧ t.fld (R.HIF_OB_HOST_BASE n) = v.toNat / 16 ∧
      t.sent = .response m .ok :: s.sent ∧
      SameBut [R.HIF_OB_ENABLE n, R.HIF_OB_HOST_BASE n, R.XB_OUTSTANDING_PEAK m] { s with held := t.held } t ∧
      (∀ h ∈ s.held, h.id < s.heldNext → h ∈ t.held) ∧
      (v.toNat % 2 = 1 → s.hif.d3hot = false → ∀ x, 0x80000000 + 0x10000000 * n ≤ x → x < 0x90000000 + 0x10000000 * n →
        t.obAddr x = some (v.toNat / 16 * 2 ^ 28 + x % 2 ^ 28)))) ∧
  ((∀ (s : State) (v : Nat) (value : Word), v < 128 → HostReaches s (0x14018000 + 4 * (4 * v + 3)) → s.hif.d3hot = false →
    ∃ t, exec (.msixTableWrite (4 * v + 3) value) s = .next (s.answered 0 .ok t) ∧
      SameBut [R.XB_OUTSTANDING_PEAK 0] { s with hif := { s.hif with msixTable := t.hif.msixTable } } t ∧
      t.msixMasked v = decide (value.toNat % 2 = 1) ∧ (∀ w, w ≠ v → t.msixMasked w = s.msixMasked w) ∧
      t.hif.moderated = s.hif.moderated ∧
      (value.toNat % 2 = 0 → v ∈ s.hif.msixPend → t.sent = .msix v :: s.sent ∧ t.hif.msixPend = s.hif.msixPend.filter (fun w => w != v)) ∧
      (value.toNat % 2 = 1 ∨ v ∉ s.hif.msixPend → t.sent = s.sent ∧ t.hif.msixPend = s.hif.msixPend)) ∧
  (∀ (s : State) (n : Nat), n < 64 → s.hif.moderated = [(64 + n, true)] → s.msixMasked (64 + n) = false → s.hif.d3hot = false →
    Turns (.msixModerationExpiry n) s [] s (fun t => t.sent = .msix (64 + n) :: s.sent ∧ t.hif.msixPend = s.hif.msixPend)) ∧
  (∀ (s : State) (n : Nat), n < 64 → s.hif.moderated = [(64 + n, false)] →
    exec (.msixModerationExpiry n) s = .next { s with hif := { s.hif with moderated := [] } })) ∧
  ((∀ (s : State) (m token : Nat), token < 65536 → Reaches s m 0x14000040 → s.flmState = 0 →
    let n := (s.hif.barriers.filter (fun b => b.master == m)).length
    (n < 4 → ∃ t, exec (.sysBarrierWrite m token) s = .next (s.answered m .ok t) ∧
      SameBut [R.SYS_BARRIER_DONE_PENDING m, R.XB_OUTSTANDING_PEAK m]
        { s with hif := { s.hif with barriers := s.hif.barriers ++ [⟨m, token, s.heldNext⟩] } } t ∧
      t.fld (R.SYS_BARRIER_DONE_PENDING m) = n + 1) ∧
    (4 ≤ n → Gives (.sysBarrierWrite m token) s (fun t => .response m .targetErr ∈ t.sent ∧
      SameBut [R.XB_OUTSTANDING_PEAK m, R.HIF_ERR_ADDR_ADDR, R.HIF_ERR_COUNT_COUNT, R.HIF_ERR_STATUS_TARGET_ERR] { s with held := t.held } t))) ∧
  (∀ (s : State) (m : Nat) (b : Barrier), m < 24 → s.hif.barriers.find? (fun b => b.master == m) = some b → s.barrierMet b = true →
    b.token < 65536 → 0 < s.fld (R.SYS_BARRIER_DONE_PENDING m) → s.fld (R.SYS_BARRIER_DONE_PENDING m) ≤ 4 →
    Turns (.barrierDone m) s [R.SYS_BARRIER_DONE_TOKEN m, R.SYS_BARRIER_DONE_PENDING m, R.SYS_BARRIER_INT_STATUS_DONE]
      { s with hif := { s.hif with barriers := s.hif.barriers.erase b } }
      (fun t => t.fld (R.SYS_BARRIER_DONE_TOKEN m) = b.token ∧
        t.fld (R.SYS_BARRIER_DONE_PENDING m) = s.fld (R.SYS_BARRIER_DONE_PENDING m) - 1 ∧
        bit (t.fld R.SYS_BARRIER_INT_STATUS_DONE) m = 1))) ∧
  (∀ (s : State) (kind : PcieResetKind), Gives (.pcieReset kind) s (fun t =>
    (∀ f : Fld, (0x14030000 ≤ f.addr ∧ f.addr < 0x14040000) ∨ (0x14010010 ≤ f.addr ∧ f.addr < 0x14020000) → f.lo < 32 → t.fld f = f.rst) ∧
    (kind = .linkDown → t.fld R.HIF_LINK_UP = 0 ∧ t.fld R.HIF_LINK_WIDTH = 0 ∧ t.fld R.HIF_LINK_SPEED = 0) ∧
    (kind ≠ .linkDown → s.fld R.HIF_LINK_UP < 2 → s.fld R.HIF_LINK_WIDTH < 16 → s.fld R.HIF_LINK_SPEED < 16 →
      t.fld R.HIF_LINK_UP = s.fld R.HIF_LINK_UP ∧ t.fld R.HIF_LINK_WIDTH = s.fld R.HIF_LINK_WIDTH ∧
      t.fld R.HIF_LINK_SPEED = s.fld R.HIF_LINK_SPEED) ∧
    t.hif.msixTable = [] ∧ ((∀ l ∈ s.hif.locks, l.master ≠ 0) → t.hif.msixPend = []) ∧ 0 ∈ t.hif.resetting ∧
    (∀ l ∈ t.hif.locks, l.master ≠ 0) ∧ (∀ b ∈ t.hif.barriers, b.master ≠ 0) ∧
    (∀ n, (t.ring n).recs = [] ∧ (t.ring n).fences = [] ∧ (t.ring n).flight = [] ∧ (t.ring n).resize = none) ∧
    t.held = s.held.filter (fun h => decide (h.eng ≠ .ring)) ∧ t.mem = s.mem ∧ t.cfg = s.cfg ∧ t.force = s.force ∧ t.commits = s.commits))

/-- R218, R227, R228, R245. A master that stalls for 4 µs, and no sooner, is quarantined: its lock is broken with cause 1, its requests
that wait and its running fetches end with a target error. A reset of a master, asked for by any master, with nothing in flight discards
its barriers; its port is open again when its IDs are retired. An outbound read that times out ends with an error. The counts are
cleared. -/
def Obligations.QuarantineAndMasterReset : Prop :=
  (∀ (s : State) (m n : Nat), m < 24 → n < 4000 → exec (.xbWatchdogQuarantine m n) s = .next s) ∧
  (∀ (s : State) (m w : Nat), m < 24 → 4000 ≤ w → s.xbPort m = .opened →
    let fs := [R.XB_QUARANTINE_MASTER, R.XB_WDOG_LAST_VALID, R.XB_WDOG_LAST_MASTER, R.XB_WDOG_COUNT_COUNT, R.XB_INT_STATUS_QUARANTINE,
      R.XB_OUTSTANDING_NOW m, R.XB_OUTSTANDING_PEAK m]
    let p := fun (t : State) => t.xbPort m = .quarantined ∧ t.fld R.XB_WDOG_LAST_VALID = 1 ∧ t.fld R.XB_WDOG_LAST_MASTER = m ∧
      t.fld R.XB_WDOG_COUNT_COUNT = min (s.fld R.XB_WDOG_COUNT_COUNT + 1) (2 ^ 32 - 1) ∧ bit (t.fld R.XB_INT_STATUS_QUARANTINE) 0 = 1
    ((∀ r ∈ s.hif.queue, r.master ≠ m) → (∀ h ∈ s.held, h.fetch = .running → fetchMaster h.eng h.cmd ≠ m) → (∀ g, (s.core g).dma = []) →
      ((∀ l ∈ s.hif.locks, l.master ≠ m) → Turns (.xbWatchdogQuarantine m w) s fs s p) ∧
      (∀ target b, target < 16 → s.hif.locks = [⟨target, m, b⟩] → Turns (.xbWatchdogQuarantine m w) s (fs ++ [R.XB_LOCK_BROKEN_VALID,
        R.XB_LOCK_BROKEN_CAUSE, R.XB_LOCK_BROKEN_TARGET, R.XB_LOCK_BROKEN_MASTER, R.XB_LOCK_BROKEN_COUNT_COUNT, R.XB_INT_STATUS_LOCK_BROKEN])
        { s with hif := { s.hif with locks := [] } } (fun t => p t ∧ t.fld R.XB_LOCK_BROKEN_VALID = 1 ∧ t.fld R.XB_LOCK_BROKEN_CAUSE = 1 ∧
          t.fld R.XB_LOCK_BROKEN_TARGET = target ∧ t.fld R.XB_LOCK_BROKEN_MASTER = m ∧ bit (t.fld R.XB_INT_STATUS_LOCK_BROKEN) 0 = 1))) ∧
    (∀ (r : XbReq) (n : Nat), s.hif.queue = [r] → r.master = m → r.dead = false → r.kind = .read n → Gives (.xbWatchdogQuarantine m w) s
      (fun t => .response m .targetErr ∈ t.sent ∧ t.xbPort m = .quarantined)) ∧
    (∀ h : Held, s.held = [h] → h.fetch = .running → fetchMaster h.eng h.cmd = m → Gives (.xbWatchdogQuarantine m w) s (fun t =>
      t.held = [{ h with fetch := .failed }] ∧ t.xbPort m = .quarantined))) ∧
  (∀ (s : State) (w m : Nat) (v : Word), Reaches s w 0x14020008 → s.flmState = 0 → v.toNat / 65536 = 0xC105 → v.toNat % 32 = m → m < 24 →
    (∀ l ∈ s.hif.locks, l.master ≠ m) → ∃ t, exec (.xbMasterReset w v) s = .next (s.answered w .ok t) ∧
      SameBut [R.XB_OUTSTANDING_PEAK w, R.SYS_BARRIER_DONE_PENDING m, R.XB_QUARANTINE_MASTER, R.XB_OUTSTANDING_NOW m, R.XB_OUTSTANDING_PEAK m]
        { s with hif := { s.hif with resetting := if m ∈ s.hif.resetting then s.hif.resetting else m :: s.hif.resetting
                                     barriers := s.hif.barriers.filter (fun b => b.master != m) } } t ∧
      t.xbPort m = .resetting ∧ t.fld (R.SYS_BARRIER_DONE_PENDING m) = 0 ∧ bit (t.fld R.XB_QUARANTINE_MASTER) m = 0) ∧
  (∀ (s : State) (m : Nat), m < 24 → m ∈ s.hif.resetting → s.hif.queue = [] → bit (s.fld R.XB_QUARANTINE_MASTER) m = 0 →
    (∀ e ∈ s.rings, e.2.recs = []) → Gives (.masterResetDone m) s (fun t =>
      t = { s with hif := { s.hif with resetting := s.hif.resetting.filter (fun x => x != m) } } ∧
      t.xbPort m = if s.xbEnabled m then .opened else .closed)) ∧
  (∀ (s : State) (m : Nat), s.hif.queue = [] →
    let outbound := s.held.find? (fun h => decide (h.fetch = .running ∧ targetOf h.cmd.range.1 = .outbound) && fetchMaster h.eng h.cmd == m)
    (outbound = none → Turns (.obTimeout m) s [R.HIF_ERR_STATUS_OB_TIMEOUT] s (fun t =>
      bit (t.fld R.HIF_ERR_STATUS_OB_TIMEOUT) 0 = 1 ∧ .response m .targetErr ∈ t.sent)) ∧
    (∀ h, outbound = some h → Gives (.obTimeout m) s (fun t => SameBut [R.HIF_ERR_STATUS_OB_TIMEOUT] { s with held := t.held } t ∧
      bit (t.fld R.HIF_ERR_STATUS_OB_TIMEOUT) 0 = 1 ∧ { h with fetch := .failed } ∈ t.held))) ∧
  (∀ s : State, HostReaches s 0x14020028 → HostSets .xbCountClear s xbCounts s (fun t =>
    t.fld R.XB_DECERR_COUNT_COUNT = 0 ∧ t.fld R.XB_WDOG_COUNT_COUNT = 0 ∧ t.fld R.XB_LOCK_BROKEN_COUNT_COUNT = 0 ∧
    t.fld R.XB_CONFLICT_PEAK = 0 ∧ t.fld R.XB_CONFLICT_LAST = 0 ∧ ∀ n < 24, t.fld (R.XB_OUTSTANDING_PEAK n) = 0))

/-- R229, R239, R246, R240. Enabling a ring of a legal size starts it with both indices 0 and PHASE 1; a size outside 16 to 4096 entries
leaves it disabled with BAD_CFG; disabling it drops what it held. RNG_CFG is written on a disabled ring and ignored with SIZE_IGNORED on
an enabled one; TAIL of a command ring and HEAD of a record ring take an index below the ring's size, and another is ignored with
BAD_INDEX. A resize is noted, cancelled, applied to an empty ring, or abandoned after 1 s. -/
def Obligations.RingRegisters : Prop :=
  (∀ (s : State) (n : Nat) (v : Word), n < 64 → HostReaches s (0x14030004 + 32 * n) →
    let fs := [R.RNG_CTRL_MOD n, R.RNG_CTRL_IRQ_EN n, R.RNG_CTRL_CPL_RING n, R.RNG_CTRL_ENABLE n, R.RNG_STATUS_BAD_CFG n,
      R.RNG_HEAD_INDEX n, R.RNG_TAIL_INDEX n, R.RNG_STATUS_STATE n, R.XB_OUTSTANDING_PEAK 0]
    let set := fun (t : State) => t.fld (R.RNG_CTRL_MOD n) = bits v.toNat 23 16 ∧ t.fld (R.RNG_CTRL_IRQ_EN n) = v.toNat % 2 ∧
      ((32 ≤ n ∨ bits v.toNat 13 8 = 0 ∨ 32 ≤ bits v.toNat 13 8) → t.fld (R.RNG_CTRL_CPL_RING n) = bits v.toNat 13 8) ∧
      (n < 32 → 0 < bits v.toNat 13 8 → bits v.toNat 13 8 < 32 →
        t.fld (R.RNG_CTRL_CPL_RING n) = 0 ∧ bit (t.fld (R.RNG_STATUS_BAD_CFG n)) 0 = 1) ∧ ∀ k, k ≠ n → t.ring k = s.ring k
    (s.fld (R.RNG_CTRL_ENABLE n) = 0 → 4 ≤ s.fld (R.RNG_CFG_LOG2 n) → s.fld (R.RNG_CFG_LOG2 n) ≤ 12 →
      ∃ t, exec (.ringEnable n v) s = .next (s.answered 0 .ok t) ∧ SameBut fs { s with rings := t.rings } t ∧ set t ∧
        t.fld (R.RNG_CTRL_ENABLE n) = 1 ∧ t.fld (R.RNG_HEAD_INDEX n) = 0 ∧ t.fld (R.RNG_TAIL_INDEX n) = 0 ∧ (t.ring n).phase = 1) ∧
    (s.fld (R.RNG_CTRL_ENABLE n) = 0 → s.fld (R.RNG_CFG_LOG2 n) < 4 ∨ 12 < s.fld (R.RNG_CFG_LOG2 n) →
      ∃ t, exec (.ringEnable n v) s = .next (s.answered 0 .ok t) ∧ SameBut fs { s with rings := t.rings } t ∧ set t ∧
        t.fld (R.RNG_CTRL_ENABLE n) = 0 ∧ bit (t.fld (R.RNG_STATUS_BAD_CFG n)) 0 = 1) ∧
    (∃ t, exec (.ringDisable n v) s = .next (s.answered 0 .ok t) ∧ SameBut fs { s with rings := t.rings } t ∧ set t ∧
      t.fld (R.RNG_CTRL_ENABLE n) = 0 ∧ t.fld (R.RNG_STATUS_STATE n) = 0 ∧ (t.ring n).resize = none ∧ (t.ring n).recs = [])) ∧
  (∀ (s : State) (n : Nat) (v : Word), n < 64 →
    (HostReaches s (0x14030000 + 32 * n) → s.fld (R.RNG_CTRL_ENABLE n) = 0 →
      HostSets (.ringCfgWrite n v) s [R.RNG_CFG_BASE n, R.RNG_CFG_LOG2 n] s (fun t =>
        t.fld (R.RNG_CFG_BASE n) = v.toNat / 64 ∧ t.fld (R.RNG_CFG_LOG2 n) = v.toNat % 16)) ∧
    (HostReaches s (0x14030000 + 32 * n) → s.fld (R.RNG_CTRL_ENABLE n) = 1 →
      HostSets (.ringCfgWrite n v) s [R.RNG_STATUS_SIZE_IGNORED n] s (fun t => bit (t.fld (R.RNG_STATUS_SIZE_IGNORED n)) 0 = 1)) ∧
    (HostReaches s (0x1403000C + 32 * n) → n < 32 → s.fld (R.RNG_CTRL_ENABLE n) = 1 →
      (v.toNat % 4096 < s.ringSize n →
        ∃ t, exec (.ringTailWrite n v) s = .next (s.answered 0 .ok t) ∧ SameBut [R.RNG_TAIL_INDEX n, R.XB_OUTSTANDING_PEAK 0] { s with rings := t.rings } t ∧
          t.fld (R.RNG_TAIL_INDEX n) = v.toNat % 4096 ∧ ∀ k, { t.ring k with fences := [] } = { s.ring k with fences := [] }) ∧
      (s.ringSize n ≤ v.toNat % 4096 →
        HostSets (.ringTailWrite n v) s [R.RNG_STATUS_BAD_INDEX n] s (fun t => bit (t.fld (R.RNG_STATUS_BAD_INDEX n)) 0 = 1))) ∧
    (HostReaches s (0x14030008 + 32 * n) → 32 ≤ n → s.fld (R.RNG_CTRL_ENABLE n) = 1 →
      (v.toNat % 4096 < s.ringSize n → (s.ring n).recs = [] →
        ∃ t, exec (.ringHeadWrite n v) s = .next (s.answered 0 .ok t) ∧
          SameBut [R.RNG_HEAD_INDEX n, R.XB_OUTSTANDING_PEAK 0] { s with rings := t.rings } t ∧
          t.fld (R.RNG_HEAD_INDEX n) = v.toNat % 4096 ∧ ∀ k, t.ring k = s.ring k) ∧
      (s.ringSize n ≤ v.toNat % 4096 →
        HostSets (.ringHeadWrite n v) s [R.RNG_STATUS_BAD_INDEX n] s (fun t => bit (t.fld (R.RNG_STATUS_BAD_INDEX n)) 0 = 1)))) ∧
  (∀ (s : State) (n : Nat), n < 64 →
    (∀ v : Word, HostReaches s (0x14030010 + 32 * n) → s.ringOn n = true → 4 ≤ v.toNat % 16 → v.toNat % 16 ≤ 12 →
      ∃ t, exec (.ringResizeRequest n v) s = .next (s.answered 0 .ok t) ∧ SameBut [R.XB_OUTSTANDING_PEAK 0] { s with rings := t.rings } t ∧
        t.ring n = { s.ring n with resize := some (v.toNat / 64, v.toNat % 16) } ∧ ∀ k, k ≠ n → t.ring k = s.ring k) ∧
    (∀ r, (s.ring n).resize = some r → (s.ring n).recs = [] →
      (HostReaches s (0x14030010 + 32 * n) →
        ∃ t, exec (.ringResizeCancel n) s = .next (s.answered 0 .ok t) ∧ SameBut [R.XB_OUTSTANDING_PEAK 0] { s with rings := t.rings } t ∧
          t.ring n = { s.ring n with resize := none } ∧ ∀ k, k ≠ n → t.ring k = s.ring k) ∧
      (∃ t, exec (.ringResizeTimeout n) s = .next t ∧ SameBut [R.RNG_STATUS_RESIZE_TIMEOUT n] { s with rings := t.rings } t ∧
        t.ring n = { s.ring n with resize := none } ∧ bit (t.fld (R.RNG_STATUS_RESIZE_TIMEOUT n)) 0 = 1 ∧ ∀ k, k ≠ n → t.ring k = s.ring k) ∧
      (s.ringUsed n = 0 → (s.ring n).flight = [] →
        ∃ t, exec (.ringResizeApply n) s = .next t ∧ SameBut [R.RNG_CFG_BASE n, R.RNG_CFG_LOG2 n, R.RNG_HEAD_INDEX n, R.RNG_TAIL_INDEX n,
            R.RNG_STATUS_RESIZE_DONE n] { s with rings := t.rings } t ∧
          t.fld (R.RNG_CFG_BASE n) = r.1 % 2 ^ 26 ∧ t.fld (R.RNG_CFG_LOG2 n) = r.2 % 16 ∧ t.fld (R.RNG_HEAD_INDEX n) = 0 ∧
          t.fld (R.RNG_TAIL_INDEX n) = 0 ∧ bit (t.fld (R.RNG_STATUS_RESIZE_DONE n)) 0 = 1 ∧ (t.ring n).resize = none ∧ (t.ring n).phase = 1)))

/-- R229, R231, R232, R234, R237, R63, R230, R235. NOP and FENCE are taken from HEAD; a NOP takes effect at once, late where its block
has passed, and one stamped more than 2^24 blocks ahead is discarded; a FENCE holds its ring, one that waits on an invalid ring is
discarded, and one whose conditions hold is released. A WRITE32 with no stamp is issued as it is taken and its masked bits alone change;
one stamped for a later block is held; the descriptor of an engine's command, fetched from DRAM, is held by that engine; a held command
takes effect when its engine applies it, and is discarded and counted where its object has left with a swap. RNG_COUNT_CLEAR clears the
rings' counts. -/
def Obligations.RingCommands : Prop :=
  ((∀ (s : State) (n cookie : Nat) (irq : Bool), s.mayFetch n = true → s.fld (R.RNG_HEAD_INDEX n) < s.ringSize n → s.ringSize n ≤ 4096 →
    let head := if s.fld (R.RNG_HEAD_INDEX n) + 1 = s.ringSize n then 0 else s.fld (R.RNG_HEAD_INDEX n) + 1
    let done := min (s.fld (R.RNG_DONE_COUNT n) + 1) (2 ^ 32 - 1)
    let taken := fun (t : State) => t.fld (R.RNG_HEAD_INDEX n) = head ∧ (t.ring n).fetched = (s.ring n).fetched + 1 ∧
      ∀ k, k ≠ n → t.ring k = s.ring k
    (∀ stamp : Option Nat, (∀ b, stamp = some b → s.blk.index ≤ b ∧ b ≤ s.blk.index + 2 ^ 24) →
      ∃ t, exec (.ringNop n cookie ⟨false, irq⟩ stamp) s = .next t ∧ SameBut [R.RNG_HEAD_INDEX n, R.RNG_DONE_COUNT n] { s with rings := t.rings } t ∧
        taken t ∧ t.fld (R.RNG_DONE_COUNT n) = done ∧ ∀ f ∈ (t.ring n).flight, f ∈ (s.ring n).flight) ∧
    (∀ b, b < s.blk.index →
      ∃ t, exec (.ringNop n cookie ⟨false, irq⟩ (some b)) s = .next t ∧ SameBut [R.RNG_HEAD_INDEX n, R.RNG_DONE_COUNT n, R.RNG_LATE_COUNT_COUNT,
          R.RNG_INT_STATUS_LATE] { s with rings := t.rings } t ∧ taken t ∧ t.fld (R.RNG_DONE_COUNT n) = done ∧
        t.fld R.RNG_LATE_COUNT_COUNT = min (s.fld R.RNG_LATE_COUNT_COUNT + 1) (2 ^ 32 - 1) ∧ bit (t.fld R.RNG_INT_STATUS_LATE) 0 = 1) ∧
    (∀ b, s.blk.index + 2 ^ 24 < b → s.cplRing n = none →
      ∃ t, exec (.ringNop n cookie ⟨false, irq⟩ (some b)) s = .next t ∧ SameBut [R.RNG_HEAD_INDEX n, R.RNG_DONE_COUNT n, R.RNG_DISCARD_COUNT_COUNT,
          R.RNG_INT_STATUS_DISCARD] { s with rings := t.rings } t ∧ taken t ∧ t.fld (R.RNG_DONE_COUNT n) = done ∧
        t.fld R.RNG_DISCARD_COUNT_COUNT = min (s.fld R.RNG_DISCARD_COUNT_COUNT + 1) (2 ^ 32 - 1) ∧
        bit (t.fld R.RNG_INT_STATUS_DISCARD) 0 = 1) ∧
    (∀ (wait i : Nat) (en cpl : Bool), (en = true → wait < 32 ∧ wait ≠ n) →
      ∃ t, exec (.fence n cookie cpl irq wait en i) s = .next t ∧ SameBut [R.RNG_HEAD_INDEX n] { s with rings := t.rings } t ∧
        taken t ∧ (t.ring n).fences.length = (s.ring n).fences.length + 1) ∧
    (∀ wait i : Nat, 31 < wait ∨ wait = n → s.cplRing n = none →
      ∃ t, exec (.fence n cookie false irq wait true i) s = .next t ∧ SameBut [R.RNG_HEAD_INDEX n, R.RNG_DONE_COUNT n,
          R.RNG_DISCARD_COUNT_COUNT, R.RNG_INT_STATUS_DISCARD] { s with rings := t.rings } t ∧
        taken t ∧ t.fld (R.RNG_DONE_COUNT n) = done ∧ (t.ring n).fences = (s.ring n).fences ∧
        t.fld R.RNG_DISCARD_COUNT_COUNT = min (s.fld R.RNG_DISCARD_COUNT_COUNT + 1) (2 ^ 32 - 1) ∧
        bit (t.fld R.RNG_INT_STATUS_DISCARD) 0 = 1)) ∧
  (∀ (s : State) (n : Nat) (f : Fence) (fs : List Fence), n < 32 → (s.ring n).fences = f :: fs → s.fenceMet n f = true → f.cpl = false →
    Gives (.fenceRelease n) s (fun t => (t.ring n).fences = fs ∧
      t.fld (R.RNG_DONE_COUNT n) = min (s.fld (R.RNG_DONE_COUNT n) + 1) (2 ^ 32 - 1) ∧
      SameBut [R.RNG_DONE_COUNT n] { s with rings := t.rings } t))) ∧
  ((∀ (s : State) (n cookie a : Nat) (irq : Bool) (v mask : Word) (resp : FetchResp), s.mayFetch n = true → s.holdFull .ring = false →
    a % 4 = 0 →
    (PlainDram s a 4 → Through s 18 a → Gives (.write32 n cookie false irq none a v mask resp) s (fun t =>
      t.mem.dramRead a 4 = leBytes 4 ((BitVec.ofNat 32 (leNat (s.mem.dramRead a 4)) &&& ~~~mask) ||| (v &&& mask)).toNat ∧
      (∀ x, x < a ∨ a + 4 ≤ x → t.mem.dramByte x = s.mem.dramByte x) ∧
      t.fld (R.RNG_DONE_COUNT n) = min (s.fld (R.RNG_DONE_COUNT n) + 1) (2 ^ 32 - 1) ∧
      SameBut [R.RNG_HEAD_INDEX n, R.RNG_DONE_COUNT n, R.XB_OUTSTANDING_PEAK 18] { s with rings := t.rings, mem := t.mem } t)) ∧
    (∀ (b : Nat) (cpl : Bool), s.blk.index + 1 < b → b ≤ s.blk.index + 2 ^ 24 →
      Gives (.write32 n cookie cpl irq (some b) a v mask resp) s (fun t =>
        (∃ h, t.held = s.held ++ [h] ∧ h.cmd = .write32 a v mask ∧ h.stamp = some b ∧ h.ring = some n ∧ h.cookie = cookie) ∧
        SameBut [R.RNG_HEAD_INDEX n] { s with rings := t.rings, held := t.held, heldNext := s.heldNext + 1 } t))) ∧
  (∀ (s : State) (n a : Nat) (e : Engine) (c : Cmd) (resp : FetchResp), s.mayFetch n = true →
    a = s.ringAddr n (s.fld (R.RNG_HEAD_INDEX n)) → PlainDram s a 32 → Through s 18 a →
    (descrOf (s.mem.dramRead a 32)).judge = some (.engine e c) → s.holdFull e = false → s.domainOn (engineDomain e) = true →
    s.beyond (descrOf (s.mem.dramRead a 32)).stamp = false → s.flmState = 0 → s.firstFetch c = .notNeeded →
    Gives (.ringFetch n resp) s (fun t =>
      (∃ h, t.held = s.held ++ [h] ∧ h.eng = e ∧ h.cmd = c ∧ h.stamp = (descrOf (s.mem.dramRead a 32)).stamp ∧ h.ring = some n) ∧
      SameBut [R.RNG_HEAD_INDEX n, R.XB_OUTSTANDING_PEAK 18] { s with rings := t.rings, held := t.held, heldNext := s.heldNext + 1 } t)) ∧
  (∀ (s : State) (h : Held) (i o slot : Nat), s.held = [h] → h.eng = .cln → h.whole = false → h.cmd = .xpWrite i o 0 slot → h.cpl = false →
    h.ring = none → h.mirrorAt = none → h.fetch = .notNeeded → h.stamp = none → s.due h = true → s.commitFirst .cln = false →
    (s.stale h = false → s.clnWide = false → s.xpIn i o = true → slot < 16 → s.changesFit 1 = true → s.cln.waitQ.length ≤ 65536 →
      Gives (.cmdApply .cln .error) s (fun t => t.held = [] ∧ (t.xp i o).tgt = 0 ∧ (t.xp i o).remain = s.slotLen slot ∧
        (t.xp i o).slot = slot ∧ (t.xp i o).cur = (s.xp i o).cur ∧ t.mem = s.mem)) ∧
    (s.stale h = true → Turns (.cmdApply .cln .error) s [R.PEAL_STALE_CMD_COUNT_COUNT, R.PEAL_INT_STATUS_STALE_CMD] { s with held := [] }
      (fun t => t.fld R.PEAL_STALE_CMD_COUNT_COUNT = min (s.fld R.PEAL_STALE_CMD_COUNT_COUNT + 1) (2 ^ 32 - 1) ∧
        bit (t.fld R.PEAL_INT_STATUS_STALE_CMD) 0 = 1))) ∧
  (∀ s : State, HostReaches s 0x1403100C → HostSets .rngCountClear s [R.RNG_LATE_COUNT_COUNT, R.RNG_DISCARD_COUNT_COUNT, R.RNG_HOLD_WAIT_COUNT]
    s (fun t => t.fld R.RNG_LATE_COUNT_COUNT = 0 ∧ t.fld R.RNG_DISCARD_COUNT_COUNT = 0 ∧ t.fld R.RNG_HOLD_WAIT_COUNT = 0)))

/-! ### Carillon -/

/-- R101, R103, R108, R112, R113, R114. While no part of the block has begun, a crosspoint command retargets its crosspoints, and no
other, over the blocks of its ramp slot; OUT_MUTE sets the mutes of its outputs; a gain that is no sign extension is discarded and
counted; in wide storage a change that finds no ramp entry waits. The outputs' targets are formed anew; their factors do not move. Later
in the block each is held for the next boundary (a command given as a row, notes/assumptions/12). -/
def Obligations.CrosspointCommands : Prop :=
  ∀ s : State, s.cln.waitQ.length ≤ 65535 → s.clnInputs ≤ 2048 →
    let outFs := (List.range s.clnOutputs).flatMap (fun o => [R.CLN_OUT0_ACTIVE o, R.CLN_OUT0_SHIFT o, R.CLN_OUT0_RAMPING o])
    let formed := fun (t : State) => t.cln = { s.cln with xp := t.cln.xp, outs := t.cln.outs } ∧ ∀ o, (t.outF o).f = (s.outF o).f
    (s.clnOpen = true → s.clnWide = false → ∀ (i o slot : Nat), slot < 16 →
      let aim := fun (x : Xp) (g : Int) => { x with tgt := g, remain := s.slotLen slot, slot := slot, entry := true }
      (∀ gain : Word, s.xpIn i o = true → signExt24 gain = true → s.changesFit 1 = true → Gives (.xpSet i o gain slot) s (fun t =>
        t.xp i o = aim (s.xp i o) (low24 gain) ∧ (∀ i' < 2048, ∀ o', (i', o') ≠ (i, o) → t.xp i' o' = s.xp i' o') ∧ formed t ∧
        SameBut (R.CLN_CHANGES_LAST_COUNT :: outFs) { s with cln := t.cln } t)) ∧
      (0 < s.clnInputs → o < s.clnOutputs → s.changesFit s.clnInputs = true → Gives (.xpClearOut o slot) s (fun t =>
        (∀ j < s.clnInputs, t.xp j o = aim (s.xp j o) 0) ∧ (∀ j < 2048, ∀ o', o' ≠ o → t.xp j o' = s.xp j o') ∧ formed t ∧
        SameBut (R.CLN_CHANGES_LAST_COUNT :: outFs) { s with cln := t.cln } t)) ∧
      (i < s.clnInputs → s.changesFit s.clnOutputs = true → Gives (.xpClearIn i slot) s (fun t =>
        (∀ p < s.clnOutputs, t.xp i p = aim (s.xp i p) 0) ∧ (∀ j < 2048, ∀ p, j ≠ i → t.xp j p = s.xp j p) ∧ formed t ∧
        SameBut (R.CLN_CHANGES_LAST_COUNT :: outFs) { s with cln := t.cln } t))) ∧
    (∀ first count mute : Nat, s.clnOpen = true → 0 < count → count ≤ 1024 → mute < 2 → first + count ≤ s.clnOutputs →
      Gives (.outMute first count mute) s (fun t => (∀ j < count, t.fld (R.CLN_OUT0_MUTED (first + j)) = mute) ∧ t.cln.xp = s.cln.xp ∧
        formed t ∧ SameBut ((List.range count).map (fun j => R.CLN_OUT0_MUTED (first + j)) ++ outFs) { s with cln := t.cln } t)) ∧
    (∀ (i o slot : Nat) (gain : Word), s.clnOpen = true → signExt24 gain = false →
      Turns (.xpSet i o gain slot) s [R.CLN_CMD_REJECT_COUNT, R.CLN_INT_STATUS_CMD_REJECT] s (fun t =>
        t.fld R.CLN_CMD_REJECT_COUNT = min (s.fld R.CLN_CMD_REJECT_COUNT + 1) (2 ^ 32 - 1) ∧ bit (t.fld R.CLN_INT_STATUS_CMD_REJECT) 0 = 1)) ∧
    (∀ (i o slot : Nat) (gain : Word), s.clnOpen = true → s.clnWide = true → s.xpIn i o = true → slot < 16 → signExt24 gain = true →
      s.changesFit 1 = true → s.cln.waitQ = [] → (s.xp i o).entry = false → (s.xp i o).cur ≠ low24 gain → 16384 ≤ s.rampUsed →
      Gives (.xpSet i o gain slot) s (fun t => t.cln.waitQ = [(xpKey i o, low24 gain, slot)] ∧ t.cln.xp = s.cln.xp ∧
        SameBut outFs { s with cln := t.cln } t)) ∧
    (s.clnOpen = false →
      let waits := fun (c : Cmd) (t : State) => (∃ h, t.held = s.held ++ [h] ∧ h.eng = .cln ∧ h.cmd = c ∧ h.stamp = none ∧ h.ring = none) ∧
        t = { s with held := t.held, heldNext := s.heldNext + 1 }
      (∀ (i o slot : Nat) (gain : Word), Gives (.xpSet i o gain slot) s (waits (.xpSet i o gain slot))) ∧
      (∀ o slot : Nat, Gives (.xpClearOut o slot) s (waits (.xpClearOut o slot))) ∧
      (∀ i slot : Nat, Gives (.xpClearIn i slot) s (waits (.xpClearIn i slot))) ∧
      (∀ first count mute : Nat, Gives (.outMute first count mute) s (waits (.outMute first count mute))))

/-- R102, R115, R116, R117, R118, R120, R134, R171, R204, R220, R227. A gain list is taken in, and a fifth waits unfetched; a write of a
crosspoint's TARGET and SLOT, in the window or through the selector, is held for the boundary, and refused with XP_RANGE outside the
geometry; the word with CURRENT ignores writes; the selector advances by one input and wraps to the next output; a ramp slot is written
while no ramp uses it. The fetch of a list that a command names, by its engine's master, ends with the bytes that DRAM holds, or with an
error where the master's port is quarantined. -/
def Obligations.CarillonListsWindowAndFetches : Prop :=
  ((∀ (s : State) (a n slot : Nat),
    let lists := (s.held.filter (fun h => match h.cmd with | .xpList .. => true | _ => false)).length
    Gives (.xpList a n slot) s (fun t => (∃ h, t.held = s.held ++ [h] ∧ h.cmd = .xpList a n slot ∧
      h.fetch = (if lists < 4 then .running else .waiting) ∧ h.id = s.heldNext) ∧ t = { s with held := t.held, heldNext := s.heldNext + 1 })) ∧
  (∀ (s : State) (m i o : Nat) (v : Word), i < 1024 ∨ (s.clnWide = true ∧ i < 2048) → o < 1024 → s.flmState = 0 →
    let a := if s.clnWide then 0x11000000 + 4 * (2048 * o + i) else 0x11000004 + 8 * (1024 * o + i)
    (Reaches s m a → s.xpIn i o = true → Gives (.xpWindowWrite m a v) s (fun t =>
      (∃ h ∈ t.held, h.cmd = .xpWrite i o (low24 v) (v.toNat / 2 ^ 28) ∧ h.master = m ∧ h.id = s.heldNext) ∧
      (∀ h ∈ s.held, h.id < s.heldNext → (∀ x y, h.cmd ≠ .xpWrite i o x y) → h ∈ t.held) ∧
      SameBut [R.XB_OUTSTANDING_PEAK m] { s with held := t.held, heldNext := s.heldNext + 1 } t ∧ t.sent = .response m .ok :: s.sent)) ∧
    (Reaches s m a → s.xpIn i o = false → Gives (.xpWindowWrite m a v) s (fun t =>
      bit (t.fld R.CLN_INT_STATUS_XP_RANGE) 0 = 1 ∧ .response m .targetErr ∈ t.sent ∧ t.cln = s.cln ∧ t.held.map (·.cmd) = s.held.map (·.cmd))) ∧
    (s.clnWide = false → Reaches s m (a - 4) → s.xpIn i o = true → Gives (.xpWindowWrite m (a - 4) v) s (fun t =>
      SameBut [R.XB_OUTSTANDING_PEAK m] { s with held := t.held } t ∧ t.held.map (·.cmd) = s.held.map (·.cmd) ∧
      t.sent = .response m .ok :: s.sent))) ∧
  (∀ (s : State) (v : Word), HostReaches s 0x14100108 → s.xpIn (s.fld R.CLN_XP_SEL_INPUT) (s.fld R.CLN_XP_SEL_OUTPUT) = true →
    s.clnInputs ≤ 2048 → s.clnOutputs ≤ 1024 →
    let i := s.fld R.CLN_XP_SEL_INPUT
    let o := s.fld R.CLN_XP_SEL_OUTPUT
    let auto := s.fld R.CLN_XP_SEL_AUTOINC = 1
    Gives (.clnXpTgtWrite v) s (fun t => (∃ h ∈ t.held, h.cmd = .xpWrite i o (low24 v) (v.toNat / 2 ^ 28) ∧ h.id = s.heldNext) ∧
      (auto → i + 1 < s.clnInputs → t.fld R.CLN_XP_SEL_INPUT = i + 1 ∧ t.fld R.CLN_XP_SEL_OUTPUT = o) ∧
      (auto → i + 1 = s.clnInputs → t.fld R.CLN_XP_SEL_INPUT = 0 ∧ t.fld R.CLN_XP_SEL_OUTPUT = if o + 1 < s.clnOutputs then o + 1 else 0) ∧
      (¬auto → t.fld R.CLN_XP_SEL_INPUT = i ∧ t.fld R.CLN_XP_SEL_OUTPUT = o) ∧
      SameBut [R.CLN_XP_SEL_INPUT, R.CLN_XP_SEL_OUTPUT, R.XB_OUTSTANDING_PEAK 0] { s with held := t.held, heldNext := s.heldNext + 1 } t)) ∧
  (∀ (s : State) (slot : Nat) (v : Word), 0 < slot → slot < 16 → HostReaches s (0x14100040 + 4 * slot) →
    (s.slotInUse slot = false → HostSets (.clnRampSlotWrite slot v) s [R.CLN_RAMP_SLOT_PROFILE slot, R.CLN_RAMP_SLOT_LEN slot] s (fun t =>
      t.fld (R.CLN_RAMP_SLOT_PROFILE slot) = v.toNat / 2 ^ 16 % 2 ∧ t.fld (R.CLN_RAMP_SLOT_LEN slot) = v.toNat % 1024)) ∧
    (s.slotInUse slot = true → HostSets (.clnRampSlotWrite slot v) s [R.CLN_INT_STATUS_RAMP_SLOT_BUSY] s (fun t =>
      bit (t.fld R.CLN_INT_STATUS_RAMP_SLOT_BUSY) 0 = 1))) ∧
  (∀ s : State, HostReaches s 0x1410031C → HostSets .clnCountClear s clnCounts s (fun t => t.fld R.CLN_CMD_LATE_COUNT = 0 ∧
    t.fld R.CLN_CMD_REJECT_COUNT = 0 ∧ t.fld R.CLN_CMD_DEFER_COUNT = 0 ∧ t.fld R.CLN_RAMP_WAIT_COUNT = 0 ∧ t.fld R.CLN_CLIP_COUNT_COUNT = 0 ∧
    t.fld R.CLN_OVF_COUNT_COUNT = 0 ∧ t.fld R.CLN_RAMP_TABLE_PEAK = 0))) ∧
  (∀ (s : State) (h : Held) (a n : Nat) (resp : FetchResp), s.held = [h] → h.fetch = .running →
    let m := fetchMaster h.eng h.cmd
    let gets := fun (i : Instr) (len : Nat) =>
      (Through s m a → PlainDram s a len →
        exec i s = .next { s.touch m with held := [{ h with fetch := .done (s.mem.dramRead a len) }] }) ∧
      (s.passage m a = .refused → s.hif.queue = [] → exec i s = .next { s with held := [{ h with fetch := .failed }] })
    (∀ slot, h.cmd = .xpList a n slot → gets (.xpListFetchDone h.id resp) (8 * n)) ∧
    (∀ f b k, h.cmd = .coefWrite f b k n a → gets (.coefWriteFetchDone h.id resp) (4 * n)) ∧
    (∀ core, h.cmd = .paramList core n a → gets (.paramListFetchDone h.id resp) (8 * n)) ∧
    (∀ xf, h.cmd = .delayList n xf a → gets (.delayListFetchDone h.id resp) (8 * n)))

/-- R101, R104, R109. A ramp's last block brings a crosspoint, or an output's factor, to its target exactly, and the ramp's end frees
what it held. -/
def Obligations.RampsEndOnTheirTarget : Prop :=
  (∀ (tgt cur : Int) (profile len : Nat), rampEnd tgt cur profile len 1 = tgt) ∧
  (∀ (cur gEnd : Int) (n : Nat), 0 < n → rampSample cur gEnd (n - 1) n = gEnd) ∧
  (∀ (s : State) (i o : Nat), (s.xp i o).remain = 0 → Gives (.xpRampEnd i o) s (fun t => (t.xp i o).cur = (s.xp i o).tgt ∧
    (t.xp i o).entry = false ∧ (∀ j < 2048, ∀ p, i < 2048 → (j, p) ≠ (i, o) → t.xp j p = s.xp j p) ∧ t = { s with cln := t.cln })) ∧
  (∀ (s : State) (o : Nat), (s.outF o).remain = 0 → Gives (.outFactorRampEnd o) s (fun t => (t.outF o).f = (s.outF o).target ∧
    t.fld (R.CLN_OUT0_RAMPING o) = 0 ∧ (∀ p, p ≠ o → t.outF p = s.outF p) ∧ SameBut [R.CLN_OUT0_RAMPING o] { s with cln := t.cln } t))

/-! ### Chimes -/

/-- R114, R129, R134, R135, R137. While no part of the block has begun, a bank select starts the fade of every covered filter whose
active bank is another, waits while an idle bank is LOADING, and is discarded and counted where a covered filter is locked or its
request is not legal; later in the block it is held for the next boundary (a command given as a row, notes/assumptions/12). A fade that
has reached its end leaves the other bank READY. A write of CHM_SELECT is a held bank select. -/
def Obligations.BankSelects : Prop :=
  (∀ (s : State) (first count len bank : Nat),
    let waits := fun (t : State) => (∃ h, t.held = s.held ++ [h] ∧ h.eng = .chm ∧ h.cmd = .bankSelect first count len bank) ∧
      t = { s with held := t.held, heldNext := s.heldNext + 1 }
    (s.atBoundary .chm 3 = false → Gives (.bankSelect first count len bank) s waits) ∧
    (s.atBoundary .chm 3 = true → s.chmPresent = true → s.filtersIn first count = true → 0 < count → count ≤ 512 → 16 ≤ len → len ≤ 1024 →
      bank < 2 →
      ((∀ j < count, (s.filt (first + j)).locked = 0 ∧ (s.filt (first + j)).fade = none ∧ (s.filt (first + j)).idle = .ready) →
        Gives (.bankSelect first count len bank) s (fun t =>
          (∀ j < count, t.filt (first + j) = if (s.filt (first + j)).active = bank then s.filt (first + j)
            else ⟨bank, .busy, some (0, len, false), 0⟩) ∧
          (∀ f, f < first ∨ first + count ≤ f → t.filt f = s.filt f) ∧ t = { s with chm := { s.chm with filters := t.chm.filters } })) ∧
      ((∀ j < count, (s.filt (first + j)).locked = 0 ∧ (s.filt (first + j)).idle ≠ .invalid) →
        (∃ j < count, (s.filt (first + j)).fade = none ∧ (s.filt (first + j)).active ≠ bank ∧ (s.filt (first + j)).idle = .loading) →
        Gives (.bankSelect first count len bank) s waits)) ∧
    (s.atBoundary .chm 3 = true → s.chmPresent = false ∨ count = 0 ∨ 512 < count ∨ len < 16 ∨ 1024 < len ∨ 1 < bank ∨
        s.filtersIn first count = false ∨ (∃ j < count, (s.filt (first + j)).locked ≠ 0) →
      Turns (.bankSelect first count len bank) s [R.CHM_CMD_REJECT_COUNT, R.CHM_INT_STATUS_CMD_REJECT] s (fun t =>
        t.fld R.CHM_CMD_REJECT_COUNT = min (s.fld R.CHM_CMD_REJECT_COUNT + 1) (2 ^ 32 - 1) ∧ bit (t.fld R.CHM_INT_STATUS_CMD_REJECT) 0 = 1))) ∧
  (∀ (s : State) (f a len k : Nat) (rev : Bool) (idle : IdleBank), s.filt f = ⟨a, idle, some (k, len, rev), 0⟩ →
    (rev = false → k = len) → (rev = true → k = 0) →
    Turns (.bankFadeEnd f) s [R.CHM_INT_STATUS_XFADE_DONE]
      { s with chm := (s.setFilt f ⟨if rev then 1 - a else a, .ready, none, 0⟩).chm }
      (fun t => t.filt f = ⟨if rev then 1 - a else a, .ready, none, 0⟩ ∧ bit (t.fld R.CHM_INT_STATUS_XFADE_DONE) 0 = 1)) ∧
  (∀ (s : State) (v : Word), HostReaches s 0x14200020 → Gives (.chmSelectWrite v) s (fun t =>
    (∃ h ∈ t.held, h.id = s.heldNext ∧ h.stamp = none ∧
      h.cmd = .bankSelect (bits v.toNat 20 12) (bits v.toNat 30 21) (bits v.toNat 10 0) (bit v.toNat 31)) ∧
    t.held.length = s.held.length + 1 ∧ SameBut [R.XB_OUTSTANDING_PEAK 0] { s with held := t.held, heldNext := s.heldNext + 1 } t))

/-- R132, R133, R134, R135. A preset load is queued, or ends with RESULT 5 where no preset answers to it; its header is fetched through
Chimes' port and refused with RESULT 3, or with RESULT 4 where the port is quarantined; it starts at a later boundary with its banks
LOADING, writes the preset's coefficients, and ends READY with RESULT 1 or, where the CRC differs, INVALID with RESULT 2; a bank select
that it owes follows, and is discarded and counted where its filter is locked. A write of CHM_PRESET_REQ with GO is a held load. -/
def Obligations.PresetLoads : Prop :=
  (∀ (s : State) (array preset flags len : Nat), s.atBoundary .chm 3 = true → s.chmPresent = true → flags < 2 → 16 ≤ len → len ≤ 1024 →
    let known := (s.cfg.bind (fun c => c.presets.find? (fun r => r.array == array && r.preset == preset))).isSome
    (s.presetWaiting < 4 → known = true → Gives (.presetLoad array preset flags len) s (fun t =>
      (∃ l, t.chm.queue = s.chm.queue ++ [l] ∧ l.array = array ∧ l.preset = preset ∧ l.swapAfter = decide (flags = 1) ∧ l.xfLen = len ∧
        l.startAt = none) ∧ t = { s with chm := { s.chm with queue := t.chm.queue } })) ∧
    (4 ≤ s.presetWaiting ∨ known = false → Turns (.presetLoad array preset flags len) s [R.CHM_PRESET_STATUS_RESULT,
      R.CHM_INT_STATUS_PRESET_FAIL] { s with chm := { s.chm with failed := true } } (fun t =>
        t.fld R.CHM_PRESET_STATUS_RESULT = 5 ∧ bit (t.fld R.CHM_INT_STATUS_PRESET_FAIL) 0 = 1))) ∧
  (∀ (s : State) (l : PresetLoad) (ls : List PresetLoad) (h : Nat) (rec : PresetRec), s.chm.queue = l :: ls → l.headAt = some h →
    l.header = none → s.cfg.bind (fun c => c.presets.find? (fun r => r.array == l.array && r.preset == l.preset)) = some rec →
    let fs := [R.CHM_PRESET_STATUS_RESULT, R.CHM_INT_STATUS_PRESET_FAIL, R.XB_OUTSTANDING_PEAK 5]
    let ends := fun (result : Nat) => Turns .presetHeaderFetchDone s fs { s with chm := { s.chm with queue := ls, failed := true } } (fun t =>
      t.fld R.CHM_PRESET_STATUS_RESULT = result ∧ bit (t.fld R.CHM_INT_STATUS_PRESET_FAIL) 0 = 1)
    (s.passage 5 rec.addr = .forwarded → s.mem.firstBad rec.addr 16 = none →
      (∀ x, s.presetHeader rec (s.mem.dramRead rec.addr 16) = some x → exec .presetHeaderFetchDone s = .next { s.touch 5 with
        chm := { s.chm with queue := { l with header := some x, src := (rec.addr, rec.words) } :: ls } }) ∧
      (s.presetHeader rec (s.mem.dramRead rec.addr 16) = none → ends 3)) ∧
    (s.passage 5 rec.addr = .refused → ends 4)) ∧
  (∀ (s : State) (l : PresetLoad) (ls : List PresetLoad) (h first count crc : Nat), s.chm.queue = l :: ls → l.headAt = some h →
    l.startAt = none → l.header = some (first, count, crc) → h < (s.boundary .chm).2 → l.array < 64 → l.preset < 16 →
    (∀ j < count, (s.filt (first + j)).fade = none ∧ (s.filt (first + j)).locked = 0) →
    Gives .presetLoadStart s (fun t => (∀ j < count, t.filt (first + j) = { s.filt (first + j) with idle := .loading }) ∧
      (∀ f, f < first ∨ first + count ≤ f → t.filt f = s.filt f) ∧ t.fld R.CHM_PRESET_STATUS_BUSY = 1 ∧
      t.fld R.CHM_PRESET_STATUS_RESULT = 0 ∧ t.fld R.CHM_PRESET_STATUS_ARRAY = l.array ∧ t.fld R.CHM_PRESET_STATUS_PRESET = l.preset ∧
      t.chm.queue.tail = ls ∧ t.chm.queue.head?.map (·.startAt) = some (some (s.boundary .chm).2) ∧
      SameBut [R.CHM_PRESET_STATUS_BUSY, R.CHM_PRESET_STATUS_RESULT, R.CHM_PRESET_STATUS_BLOCKS, R.CHM_PRESET_STATUS_ARRAY,
        R.CHM_PRESET_STATUS_PRESET] { s with chm := { s.chm with queue := t.chm.queue, filters := t.chm.filters } } t)) ∧
  (∀ (s : State) (l : PresetLoad) (f crc b k : Nat) (r : FilterRec), s.chm.queue = [l] → l.header = some (f, 1, crc) → l.startAt = some k →
    l.spans = [(r.bankBase b, r.taps)] → l.src.2 = r.taps → (s.filt f).idle = .loading → s.passage 5 (l.src.1 + 16) = .forwarded →
    s.mem.firstBad (l.src.1 + 16) (3 * r.taps) = none →
    let bs := s.mem.dramRead (l.src.1 + 16) (3 * r.taps)
    Gives .presetLoadComplete s (fun t => t.chm.queue = [] ∧ t.fld R.CHM_PRESET_STATUS_BUSY = 0 ∧
      (∀ j < r.taps, t.coef (r.bankBase b + j) = presetCoef bs j) ∧
      (∀ n, n < r.bankBase b ∨ r.bankBase b + r.taps ≤ n → t.coef n = s.coef n) ∧
      (crc32 bs = crc → (t.filt f).idle = .ready ∧ t.fld R.CHM_PRESET_STATUS_RESULT = 1 ∧ bit (t.fld R.CHM_INT_STATUS_PRESET_DONE) 0 = 1) ∧
      (crc32 bs ≠ crc → (t.filt f).idle = .invalid ∧ t.fld R.CHM_PRESET_STATUS_RESULT = 2 ∧
        bit (t.fld R.CHM_INT_STATUS_PRESET_FAIL) 0 = 1) ∧
      SameBut [R.CHM_PRESET_STATUS_BUSY, R.CHM_PRESET_STATUS_BLOCKS, R.CHM_PRESET_STATUS_RESULT, R.CHM_INT_STATUS_PRESET_DONE,
        R.CHM_INT_STATUS_PRESET_FAIL, R.XB_OUTSTANDING_PEAK 5] { s with chm := t.chm } t)) ∧
  (∀ (s : State) (f bank len at_ : Nat), s.mirrors 2 = false → s.chm.owed = [(f, [bank], len, at_, false)] → at_ < (s.boundary .chm).2 →
    (s.filterRec? f).isSome = true → (s.filt f).fade = none → (s.filt f).active ≠ bank → (s.filt f).idle = .ready →
    ((s.filt f).locked = 0 → Gives .presetSwapAfter s (fun t => t.chm.owed = [] ∧
      t.filt f = { s.filt f with active := bank, idle := .busy, fade := some (0, len, false) } ∧
      t = { s with chm := { s.chm with owed := [], filters := t.chm.filters } })) ∧
    ((s.filt f).locked ≠ 0 → Turns .presetSwapAfter s [R.CHM_CMD_REJECT_COUNT, R.CHM_INT_STATUS_CMD_REJECT]
      { s with chm := { s.chm with owed := [] } } (fun t =>
        t.fld R.CHM_CMD_REJECT_COUNT = min (s.fld R.CHM_CMD_REJECT_COUNT + 1) (2 ^ 32 - 1)))) ∧
  (∀ (s : State) (v : Word), HostReaches s 0x14200024 → v.toNat % 2 = 1 → Gives (.chmPresetReqWrite v) s (fun t =>
    (∃ h ∈ t.held, h.id = s.heldNext ∧ h.stamp = none ∧
      h.cmd = .presetLoad (bits v.toNat 13 8) (bits v.toNat 7 4) (bit v.toNat 31) (bits v.toNat 30 20)) ∧
    t.held.length = s.held.length + 1 ∧ SameBut [R.XB_OUTSTANDING_PEAK 0] { s with held := t.held, heldNext := s.heldNext + 1 } t))

/-- R128, R130, R134, R137. A COEF_WRITE is taken in, and its fetch starts; a coefficient of a bank that may be written is written
through the window, byte by byte, and through CHM_CW_DATA, whose selector advances; one of an active bank, or one that is no sign
extension, is refused and counted, and no coefficient changes. -/
def Obligations.CoefficientWrites : Prop :=
  (∀ (s : State) (f bank first n a : Nat), Gives (.coefWrite f bank first n a) s (fun t => (∃ h, t.held = s.held ++ [h] ∧
    h.cmd = .coefWrite f bank first n a ∧ h.fetch = .running ∧ h.id = s.heldNext) ∧
    t = { s with held := t.held, heldNext := s.heldNext + 1 })) ∧
  (∀ (s : State) (m n : Nat) (b0 b1 b2 : Byte), n < 0x100000 → 3 * n / 2 ^ 20 = (3 * n + 2) / 2 ^ 20 → Reaches s m (0x12000000 + 3 * n) →
    s.flmState = 0 →
    (s.coefWritable n = true → Gives (.chmCoefWindowWrite m (0x12000000 + 3 * n) [some b0, some b1, some b2]) s (fun t =>
      t.coef n = ofCodeS 24 (b0.toNat + 256 * b1.toNat + 65536 * b2.toNat) ∧ (∀ k, k ≠ n → t.coef k = s.coef k) ∧
      .response m .ok ∈ t.sent ∧
      SameBut [R.XB_OUTSTANDING_PEAK m] { s with chm := { s.chm with coefs := t.chm.coefs, filters := t.chm.filters } } t)) ∧
    (s.coefWritable n = false → Gives (.chmCoefWindowWrite m (0x12000000 + 3 * n) [some b0, some b1, some b2]) s (fun t =>
      t.chm = s.chm ∧ .response m .targetErr ∈ t.sent ∧
      t.fld R.CHM_COEF_REFUSED_COUNT = min (s.fld R.CHM_COEF_REFUSED_COUNT + 1) (2 ^ 32 - 1) ∧
      bit (t.fld R.CHM_INT_STATUS_COEF_REFUSED) 0 = 1))) ∧
  (∀ (s : State) (v : Word) (n : Nat) (r : FilterRec), HostReaches s 0x14200014 → s.cwIndex = some n →
    s.filterRec? (s.fld R.CHM_CW_SEL_FILTER) = some r → r.taps ≤ 8192 →
    let tap := fun (t : State) => t.fld R.CHM_CW_SEL_TAP = if s.fld R.CHM_CW_SEL_AUTOINC = 1 then
      (if s.fld R.CHM_CW_SEL_TAP + 1 = r.taps then 0 else s.fld R.CHM_CW_SEL_TAP + 1) else s.fld R.CHM_CW_SEL_TAP
    (s.coefWritable n = true → signExt24 v = true → Gives (.chmCwDataWrite v) s (fun t => t.coef n = low24 v ∧
      (∀ k, k ≠ n → t.coef k = s.coef k) ∧ tap t ∧ .response 0 .ok ∈ t.sent ∧
      SameBut [R.CHM_CW_SEL_TAP, R.XB_OUTSTANDING_PEAK 0]
        { s with chm := { s.chm with coefs := t.chm.coefs, filters := t.chm.filters }, held := t.held } t)) ∧
    (s.coefWritable n = false ∨ signExt24 v = false → Gives (.chmCwDataWrite v) s (fun t => t.chm = s.chm ∧ tap t ∧
      .response 0 .targetErr ∈ t.sent ∧ t.fld R.CHM_COEF_REFUSED_COUNT = min (s.fld R.CHM_COEF_REFUSED_COUNT + 1) (2 ^ 32 - 1)))) ∧
  (∀ s : State, HostReaches s 0x14200110 → HostSets .chmCountClear s chmCounts s (fun t => t.fld R.CHM_CMD_LATE_COUNT = 0 ∧
    t.fld R.CHM_CMD_REJECT_COUNT = 0 ∧ t.fld R.CHM_COEF_REFUSED_COUNT = 0 ∧ t.fld R.CHM_CLIP_COUNT_COUNT = 0))

/-! ### Peal planes and swaps -/

/-- R46, R48, R49, R51, R53. A load by the host starts the verification of what the staged plane holds, a full image or a delta, or the
copy of a flash slot into it; a slot that does not exist is reported; the end of a copy of an image whose header passes its checks
starts its verification; an aborted load leaves the plane MODIFIED. -/
def Obligations.PealLoads : Prop :=
  (∀ s : State, HostReaches s 0x14060010 → s.mayLoad = true →
    let fs := [R.XB_OUTSTANDING_PEAK 0, planeFld s.staged, R.PEAL_STATUS_BUSY, R.SYS_BOOT_STATUS_STAGE]
    let d := s.mem.dramRead (planeBase s.staged + 0x1000000) 12
    (∃ t, exec .pealLoadHost s = .next (s.answered 0 .ok t) ∧ SameBut fs { s with peal := t.peal } t ∧ t.plane s.staged = plVerifying ∧
      t.fld R.PEAL_STATUS_BUSY = 1 ∧ t.peal = { s.peal with boot := false, delta := decide (leAt d 0 4 = 0x4C414550 ∧ leAt d 11 1 = 1) }) ∧
    (∀ slot : Nat, slot < 4 → ∃ t, exec (.pealLoadFlash slot) s = .next (s.answered 0 .ok t) ∧ SameBut fs { s with peal := t.peal } t ∧
      t.plane s.staged = plLoading ∧ t.fld R.PEAL_STATUS_BUSY = 1 ∧ t.peal = { s.peal with copy := some slot, boot := false }) ∧
    (∀ slot : Nat, slot < 256 → 3 < slot → HostSets (.pealLoadFlash slot) s [R.PEAL_VERIFY_RESULT_ERR, R.PEAL_VERIFY_RESULT_INDEX,
      R.PEAL_VERIFY_DETAIL_DETAIL, R.PEAL_INT_STATUS_REJECTED] s (fun t => t.fld R.PEAL_VERIFY_RESULT_ERR = 0x0701 ∧
        t.fld R.PEAL_VERIFY_DETAIL_DETAIL = slot ∧ bit (t.fld R.PEAL_INT_STATUS_REJECTED) 0 = 1))) ∧
  (∀ s : State, HostReaches s 0x14060010 → (s.plane s.staged = plLoading ∨ s.plane s.staged = plVerifying) →
    ∃ t, exec .pealLoadAbort s = .next (s.answered 0 .ok t) ∧ t.plane s.staged = plModified ∧ t.plane (1 - s.staged) = s.plane (1 - s.staged) ∧
      t.peal.boot = false ∧ t.peal.cfgs = s.peal.cfgs ∧ (s.plane s.staged = plVerifying → t.mem = s.mem) ∧
      SameBut [R.XB_OUTSTANDING_PEAK 0, planeFld s.staged, R.PEAL_STATUS_BUSY, R.SYS_BOOT_STATUS_STAGE]
        { s with peal := t.peal, mem := t.mem, freeCtr := t.freeCtr } t) ∧
  (∀ (s : State) (slot : Nat), s.peal.copy = some slot → s.plane s.staged = plLoading → s.passage 2 0x18000000 = .forwarded →
    let src := fun i => Tbl.get s.mem.flash (0x1800000 * slot + i) (0xFF : Byte)
    let h := (List.range 0x100).map src
    headerFailures h 0xB1 = [] → Gives .flashCopyDone s (fun t => t.plane s.staged = plVerifying ∧
      t.peal = { s.peal with copy := none, delta := false } ∧
      (∀ i : Nat, i < leAt h 12 4 → t.mem.dramByte (planeBase s.staged + i) = src i) ∧
      (∀ x : Nat, x < planeBase s.staged ∨ planeBase s.staged + leAt h 12 4 ≤ x → t.mem.dramByte x = s.mem.dramByte x) ∧
      SameBut [planeFld s.staged, R.PEAL_STATUS_BUSY, R.SYS_BOOT_STATUS_STAGE] { s with peal := t.peal, mem := t.mem } t))

/-- R47, R48, R50, R51. The verifier's verdict: VERIFIED with the structure it found, REJECTED with the failure's code, or live at once
where no plane is live in LOAD. -/
def Obligations.Verdicts : Prop :=
  ∀ s : State, s.plane s.staged = plVerifying → s.peal.delta = false →
    (∀ c, (s.verdictFull (planeBase s.staged)).cfg = some c →
      (s.mode ≠ .load ∨ s.cfg.isSome = true → Gives .verifyDone s (fun t => t.plane s.staged = plVerified ∧ t.fld R.PEAL_VERIFY_RESULT_ERR = 0 ∧
        bit (t.fld R.PEAL_INT_STATUS_VERIFIED) 0 = 1 ∧ Tbl.get t.peal.cfgs s.staged none = some c ∧ t.cfg = s.cfg ∧ t.mem = s.mem)) ∧
      (s.mode = .load → s.cfg = none → Gives .verifyDone s (fun t => t.cfg = some c ∧ t.plane 0 = plLive ∧ t.fld R.PEAL_STATUS_LIVE_PLANE = 0))) ∧
    (∀ f, s.verdictFull (planeBase s.staged) = Verdict.no [f] → f.code ≠ 0x0202 → f.code ≠ 0x0604 → f.code < 65536 → s.peal.boot = false →
      Gives .verifyDone s (fun t => t.plane s.staged = plRejected ∧ t.fld R.PEAL_VERIFY_RESULT_ERR = f.code ∧
        bit (t.fld R.PEAL_INT_STATUS_REJECTED) 0 = 1 ∧ Tbl.get t.peal.cfgs s.staged none = none ∧ t.cfg = s.cfg ∧ t.mem = s.mem))

/-- R48, R49. A write into a plane that is LIVE, ARMED, SWAPPING or LOADING is refused with a target error and LIVE_WRITE, and changes
no byte; into any other plane it is taken, and the plane is then MODIFIED. -/
def Obligations.PlaneWrites : Prop :=
  ∀ (s : State) (m p a : Nat) (data : List (Option Byte)), p < 2 → planeBase p ≤ a → a + data.length ≤ planeBase p + 0x1800000 →
    0 < data.length → Through s m a → s.domainOn 12 = true →
    (∀ b : Nat, a ≤ b → b < a + data.length → s.lineProtected b = false) →
    (s.plane p = plLive ∨ s.plane p = plArmed ∨ s.plane p = plSwapping ∨ s.plane p = plLoading → Gives (.planeWrite m a data) s (fun t =>
      .response m .targetErr ∈ t.sent ∧ bit (t.fld R.PEAL_INT_STATUS_LIVE_WRITE) 0 = 1 ∧ t.plane p = s.plane p ∧
      SameBut [R.XB_OUTSTANDING_PEAK m, R.PEAL_INT_STATUS_LIVE_WRITE, R.HIF_ERR_ADDR_ADDR, R.HIF_ERR_COUNT_COUNT, R.HIF_ERR_STATUS_TARGET_ERR]
        s t)) ∧
    (s.plane p = plEmpty ∨ s.plane p = plVerifying ∨ s.plane p = plVerified ∨ s.plane p = plRejected ∨ s.plane p = plModified →
      Gives (.planeWrite m a data) s (fun t =>
      t.plane p = plModified ∧ t.plane (1 - p) = s.plane (1 - p) ∧ .response m .ok ∈ t.sent ∧
      (∀ i < data.length, t.mem.dramByte (a + i) = (data.getD i none).getD (s.mem.dramByte (a + i))) ∧
      (∀ x : Nat, x < a ∨ a + data.length ≤ x → t.mem.dramByte x = s.mem.dramByte x) ∧
      SameBut [R.XB_OUTSTANDING_PEAK m, planeFld p, R.PEAL_STATUS_BUSY, R.SYS_BOOT_STATUS_STAGE]
        { s with mem := t.mem, peal := { s.peal with cfgs := t.peal.cfgs } } t))

/-- R57, R60, R212, R30, R47, R59, R61. The swap machine outside boundary S: FILL ends with at most two blocks left, and the new plane
is then written; where its image holds an uncorrectable error, the swap is cancelled instead with detail 0x060E; HOLD ends when the
clocks are there; an abort before boundary S − 2 has come leaves the plane VERIFIED, and a later one changes nothing. At boundary S the
armed plane is live and the former one is SWAPPING, or VERIFIED after a dip; when the crossfade has run its blocks the swap is IDLE and
the former plane VERIFIED. -/
def Obligations.PlaneSwaps : Prop :=
  ((∀ s : State, s.swapState = swFill → s.fld R.PEAL_FILL_REMAIN_BLOCKS ≤ 2 → s.chmIdleForSwap = true →
    (s.stagedError = none → Gives .swapPrepared s (fun t => t.swapState = swWait ∧ t.fld R.PEAL_FILL_REMAIN_BLOCKS = 0 ∧ t.cfg = s.cfg ∧
      ∀ a, s.peal.armed = some a → s.cfg.isSome = true → t.peal.armed = some { a with written := true })) ∧
    (s.stagedError.isSome = true → s.peal.armed.isSome = true → s.cfg.isSome = true → Gives .swapPrepared s (fun t => t.swapState = swIdle ∧
      t.plane s.staged = plModified ∧ t.peal.armed = none ∧ t.fld R.PEAL_SWAP_STATUS_REFUSE_DETAIL = 0x060E ∧
      bit (t.fld R.PEAL_INT_STATUS_SWAP_REFUSED) 0 = 1 ∧ t.cfg = s.cfg ∧ t.mem = s.mem))) ∧
  (∀ (s : State) (f : Fade) (c : Cfg), s.peal.fade = some f → s.cfg = some c → s.swapState = swHold → s.fld (R.PLL_STATUS_LOCKED 0) = 1 →
    s.fld (R.PLL_STATUS_LOCKED 1) = 1 → (c.sys.rateB = 0 ∨ s.fld (R.PLL_STATUS_LOCKED 2) = 1) → (∀ u < 32, s.unitState u ≠ stPreroll) →
    Turns .swapHoldEnd s [R.PEAL_SWAP_STATUS_STATE] { s with peal := { s.peal with
      fade := some { f with hold := false, first := s.blk.index + 1 } } } (fun t => t.swapState = swXfade)) ∧
  (∀ (s : State) (a : Armed), HostReaches s 0x140600A8 → s.peal.armed = some a → s.cfg.isSome = true →
    (s.blk.index + 2 < a.swapAt → ∃ t, exec .swapAbort s = .next (s.answered 0 .ok t) ∧ t.swapState = swIdle ∧ t.plane s.staged = plVerified ∧
      t.peal.armed = none ∧ t.fld R.PEAL_FILL_REMAIN_BLOCKS = 0 ∧ t.fld R.SXM_STATUS_SWAP_USED = 0 ∧ t.cfg = s.cfg ∧ t.mem = s.mem) ∧
    (a.swapAt ≤ s.blk.index + 2 → exec .swapAbort s = .next (s.answered 0 .ok (s.touch 0))))) ∧
  ((∀ (s : State) (old : Cfg) (a : Armed), s.cfg = some old → s.peal.armed = some a → a.swapAt ≤ s.blk.index →
    (a.written = true ∨ s.stagedError = none) → s.livePlane < 2 → a.clocks = false →
    old.mirror = a.cfg.mirror → Gives .swapStart s (fun t => t.cfg = some a.cfg ∧ t.fld R.PEAL_STATUS_LIVE_PLANE = s.staged ∧ t.plane s.staged = plLive ∧
      t.plane s.livePlane = (if a.dip then plVerified else plSwapping) ∧ t.swapState = swXfade ∧ t.peal.armed = none ∧
      (∃ f, t.peal.fade = some f ∧ f.swapAt = a.swapAt ∧ f.first = a.swapAt ∧ f.blocks = a.blocks ∧ f.rise = a.dip ∧ f.hold = false ∧
        f.ended = false) ∧ t.old.isSome = !a.dip ∧
      bit (t.fld R.PEAL_INT_STATUS_SWAP_START) 0 = 1)) ∧
  (∀ (s : State) (f : Fade) (c : Cfg), s.peal.fade = some f → s.cfg = some c → s.swapState = swXfade → f.ended = false →
    f.first + f.blocks ≤ s.blk.index → Gives .swapXfadeEnd s (fun t => t.swapState = swIdle ∧
      (s.plane (1 - s.livePlane) = plSwapping → t.plane (1 - s.livePlane) = plVerified) ∧ t.old = none ∧
      t.peal.fade = some { f with ended := true } ∧ bit (t.fld R.PEAL_INT_STATUS_SWAP_DONE) 0 = 1 ∧ t.cfg = s.cfg ∧ t.mem = s.mem)))

/-! ### Mallet instructions -/

/-- R153, R158, R159, R184, R185. A control transfer starts two delay slots, taken or not, with what follows them; calls push the return
address and SR, and returns pop them. -/
def Obligations.ControlTransfers : Prop :=
  ∀ (s : State) (g cc : Nat), g < 64 →
    let c := s.core g
    let go := fun (a : AfterSlots) => { c with slots := 2, after := a }
    let call := fun (t : Nat) => if c.cond cc = true then
        { c with stack := (s.returnAddr g c.pc, c.rd 50) :: c.stack, slots := 2, after := .jump (t % 16384) }
      else go .fall
    (∀ t, Ready s g (.bra cc t) → Issues (.bra g) s g 1 (go (if c.cond cc then .jump t else .fall))) ∧
    (∀ p, Ready s g (.jmp cc p) → Issues (.jmp g) s g 1 (go (if c.cond cc then .jump (c.rd (16 + p) % 16384) else .fall))) ∧
    (∀ t, c.stack.length < 16 → Ready s g (.call cc t) → Issues (.call g) s g 1 (call t)) ∧
    (∀ p, c.stack.length < 16 → Ready s g (.callr cc p) → Issues (.callr g) s g 1 (call (c.rd (16 + p)))) ∧
    (∀ pc sr rest, c.stack = (pc, sr) :: rest →
      (Ready s g (.ret cc) → Issues (.ret g) s g 1 (if c.cond cc then { c with stack := rest, slots := 2, after := .jump pc } else go .fall)) ∧
      (Ready s g .rtin → Issues (.rtin g) s g 1 { c with stack := rest, slots := 2, after := .rtin pc sr })) ∧
    (Ready s g .rtif → Issues (.rtif g) s g 1 (go (.rtif (s.fld (R.CCR_FPC_PC g)) (s.fld (R.CCR_FSR_SR g))))) ∧
    (Ready s g .tend → Issues (.tend g) s g 1 (go .tend))

/-- R141, R151, R153, R155, R161, R176, R154, R185, R186, R187. A bundle in a delay slot, under a repeat and alone; a write in flight
lands when it is due; the second delay slot takes the transfer, or ends the task; a bundle that does not decode stops the task with
cause 1, counts it and records its address. The loop instructions open a loop over the bundles to LA, or step past it for a count of 0;
the bundle at LA makes the closing test due, which goes round or restores the outer loop; LEAVE leaves; RPTI and RPTR repeat; BSYNC
waits for the bus gate and WAIT for an enabled source. -/
def Obligations.SlotsLoopsRepeatsAndWaits : Prop :=
  ((∀ (s : State) (g : Nat), g < 64 → Runs s g .nop →
    let c := s.core g
    (c.slots = 0 → c.rpt = 0 → Issues (.nop g) s g 1 c) ∧
    (c.slots = 2 → c.rpt = 0 → Issues (.nop g) s g 1 { c with slots := 1 }) ∧
    (∀ t, c.slots = 1 → c.rpt = 0 → c.after = .jump t → Gives (.nop g) s (fun u => u.core g = { c with slots := 0, after := .fall, pc := t })) ∧
    (c.slots = 1 → c.rpt = 0 → c.after = .fall → Issues (.nop g) s g 1 { c with slots := 0 }) ∧
    (∀ pc sr, c.slots = 1 → c.rpt = 0 → c.after = .rtin pc sr → sr < 65536 → Gives (.nop g) s (fun u =>
      (u.core g).pc = pc ∧ (u.core g).rd 50 = sr ∧ (u.core g).slots = 0 ∧ ∀ r, r ≠ 50 → (u.core g).rd r = c.rd r)) ∧
    (∀ pc sr, c.slots = 1 → c.rpt = 0 → c.after = .rtif pc sr → Tbl.sorted c.regs = true → Tbl.sorted c.shadow = true →
      Gives (.nop g) s (fun u => (u.core g).pc = pc ∧ (u.core g).rd 50 = sr &&& 0xDF1F ∧ (u.core g).slots = 0 ∧
        ∀ r, r ≠ 50 → (u.core g).rd r = if r < 12 ∨ 16 ≤ r ∧ r < 24 then Tbl.get c.shadow r 0 else c.rd r)) ∧
    (∀ rt cf, c.slots = 1 → c.rpt = 0 → c.after = .tend → c.task = some rt → c.posted = [] → rt.old = false → s.cfg = some cf →
      (∀ b ∈ cf.taskBuses rt.task, b ∈ c.written) → Gives (.nop g) s (fun u => (u.core g).task = none ∧ u.hasEnded rt.task false = true ∧
        Tbl.get u.mal.hist rt.task (0, true) = (0, false) ∧ u.sxm = s.sxm)) ∧
    (c.slots = 0 → 1 < c.rpt → Gives (.nop g) s (fun u => u.core g = { c with rpt := c.rpt - 1 })) ∧
    (c.slots = 0 → c.rpt = 1 → Issues (.nop g) s g 1 { c with rpt := 0 }) ∧
    (∀ p : PWrite, c.slots = 0 → c.rpt = 0 → c.loops = [] → p.reg < 0x40 →
      Gives (.nop g) (s.setCore g { c with pend := [p] }) (fun u => u.core g = { (if p.left ≤ 1
        then c.wr p.reg (c.rd p.reg - (c.rd p.reg &&& p.mask) + (p.val &&& p.mask))
        else { c with pend := [{ p with left := p.left - 1 }] }) with pc := (c.pc + 1) % 16384 }))) ∧
  (∀ (s : State) (g : Nat) (rt : RunTask), g < 64 → (s.core g).task = some rt → s.fld (R.CCR_CYCLES_COUNT g) < rt.cost → rt.old = false →
    s.cfg.isSome = true → (s.core g).stall = .none → (s.core g).closing = none → (s.core g).slots = 0 → (s.core g).waited = false →
    (s.core g).pend = [] → (s.core g).pc < 16384 →
    decodeBundle (s.progWord g (s.core g).pc) (s.progWord g ((s.core g).pc + 1)) = none →
    ∀ i ∈ [Instr.nop g, .bra g, .mul2 g, .adds g, .ldi g, .ldl g, .ldr g, .mov2 g, .bfly g], Gives i s (fun u =>
      u.fld (R.CCR_EXC_CAUSE g) = 1 ∧ u.fld (R.CCR_EXC_PC g) = (s.core g).pc ∧ (u.core g).task = none ∧ u.hasEnded rt.task false = true ∧
      u.fld (R.MAL_CL_EXC_COUNT_COUNT (g / 16)) = min (s.fld (R.MAL_CL_EXC_COUNT_COUNT (g / 16)) + 1) (2 ^ 32 - 1) ∧
      bit (u.fld (R.MAL_CL_INT_STATUS_EXC (g / 16))) 0 = 1 ∧ Tbl.get u.mal.hist rt.task (0, true) = (2, false)))) ∧
  (∀ (s : State) (g : Nat), g < 64 →
    let c := s.core g
    let opened := fun (n la len : Nat) => if n = 0 then { c with pc := la + bundleLen (s.progWord g la) - len }
      else { (c.wr 48 n).wr 49 la with loops := (c.rd 48, c.rd 49, c.pc + len) :: c.loops }
    let legal := fun (la len : Nat) => c.loops.length < 4 ∧ c.pc < la ∧ (len = 2 → la ≠ c.pc + 1) ∧ s.walkTo g la 16384 (c.pc + len) = la
    (∀ n la, legal la 1 → Ready s g (.loopi n la) → Issues (.loopi g) s g 1 (opened n la 1)) ∧
    (∀ rs la, legal la 1 → Ready s g (.loopr rs la) → Issues (.loopr g) s g 1 (opened (c.rd rs % 65536) la 1)) ∧
    (∀ n la, legal la 2 → Ready s g (.loopl n la) → Issues (.loopl g) s g 2 (opened n la 2)) ∧
    (∀ la lc start rest, c.loops = (lc, la, start) :: rest → la ≠ c.pc → Ready s g .leave →
      Issues (.leave g) s g 1 { (c.wr 48 lc).wr 49 la with loops := rest }) ∧
    (∀ la lc start a, c.task.isSome = true → c.slots = 0 → c.stall = .none → c.closing = some a → c.loops = [(lc, la, start)] → c.rd 49 = a →
      Gives (.loopClose g) s (fun t => t.core g = (if 1 < c.rd 48 then { c.wr 48 (c.rd 48 - 1) with pc := start, closing := none }
          else { (c.wr 48 lc).wr 49 la with loops := [], closing := none }) ∧
        (∀ h, h ≠ g → t.core h = s.core h) ∧ t = { s with mal := { s.mal with cores := t.mal.cores } })) ∧
    (∀ n, Ready s g (.rpti n) → Issues (.rpti g) s g 1 { c with rpt := n }) ∧
    (∀ rs, Ready s g (.rptr rs) → Issues (.rptr g) s g 1 { c with rpt := c.rd rs % 256 + 1 }) ∧
    (Ready s g .bsync → Issues (.bsync g) s g 1 (if c.posted = [] then c else { c with stall := .bsync })) ∧
    (Ready s g .wait → Issues (.wait g) s g 1 { c with
      waited := true
      stall := if s.fld (R.CCR_INT_PEND_PEND g) &&& s.fld (R.CCR_INT_EN_EN g) = 0 then .wait else .none }))

/-- R145, R164, R165, R187. BIN, BINP and BOUT post a transfer of a bus that the plane has; a bus that it has not is a fault of the
gate; a transfer that completes brings its words, or writes its bus, and frees its place. -/
def Obligations.BusTransfers : Prop :=
  (∀ (s : State) (g kind p pm field bus : Nat) (rb : Bool) (t : RunTask) (cf : Cfg) (r : BusRec), g < 64 → kind < 3 →
    Ready s g (.bus kind p rb pm field) → bus = (if rb then (field + (s.core g).rd (16 + pm) % 8192) % 8192 else field) →
    (s.core g).task = some t → t.old = false → s.cfg = some cf → cf.bus? bus = some r → r.domain < 2 →
    (kind = 0 → s.writerEnded false bus = true) → (kind = 2 → r.writer = t.task) → (s.core g).rd (16 + p) < 0x10000 →
    (s.core g).posted.length < 8 →
    Issues (if kind = 0 then .bin g else if kind = 1 then .binp g else .bout g) s g 1 { s.core g with
      posted := (s.core g).posted ++ [⟨kind, bus, (s.core g).rd (16 + p), false, false, t.task, t.old, t.blk⟩]
      written := if kind = 2 then bus :: (s.core g).written else (s.core g).written }) ∧
  (∀ (s : State) (g kind p pm field bus : Nat) (rb : Bool) (t : RunTask) (cf : Cfg), g < 64 → kind < 3 → bus < 8192 →
    Ready s g (.bus kind p rb pm field) → bus = (if rb then (field + (s.core g).rd (16 + pm) % 8192) % 8192 else field) →
    (s.core g).task = some t → t.old = false → s.cfg = some cf → cf.bus? bus = none →
    (s.core g).rd (16 + p) < 0x10000 →
    Gives (if kind = 0 then .bin g else if kind = 1 then .binp g else .bout g) s (fun u => u.fld (R.CCR_BUS_ERR_CAUSE g) = 3 ∧
      u.fld (R.CCR_BUS_ERR_BUS g) = bus ∧ bit (u.fld (R.MAL_CL_INT_STATUS_BUSERR (g / 16))) 0 = 1 ∧
      bit (u.fld (R.CCR_INT_PEND_PEND g)) 5 = 1)) ∧
  (∀ (s : State) (g cycles : Nat) (q : Posted) (qs : List Posted), g < 64 → (s.core g).posted = q :: qs → (s.core g).stall = .none →
    (q.kind < 2 → Gives (.busTransferComplete g cycles) s (fun t => (t.core g).posted = qs ∧
      (∀ j < (s.binWords q).length, q.word + (s.binWords q).length ≤ 0x10000 →
        t.dataWord g (q.word + j) = (s.binWords q).getD j 0 % 2 ^ 24) ∧ t.sxm = s.sxm ∧ t.regs = s.regs)) ∧
    (∀ cf, q.kind = 2 → q.dead = false → q.old = false → s.cfg = some cf → Gives (.busTransferComplete g cycles) s (fun t =>
      (t.core g).posted = qs ∧ t.mal.data = s.mal.data ∧
      t.sxm = (s.writeBus cf q.blk q.bus ((List.range (busCount cf q.blk q.bus [])).map (fun j => ofCodeS 24 (s.dataWord g (q.word + 1 + j))))).sxm)))

/-- R148, R149, R151, R181, R182, R188. The dual multiplies, with any slots beside them: both products and accumulations exact, kept at
56 bits, with the flags of the first result and V and W of either. -/
def Obligations.DualMultiplies : Prop :=
  ∀ (s : State) (g xa ya xb yb a1 a2 : Nat) (s1 s2 : Option Slot), g < 64 →
    let c := s.core g
    let p1 := 2 * (ofCodeS 24 (c.rd xa) * ofCodeS 24 (c.rd (4 + ya)))
    let p2 := 2 * (ofCodeS 24 (c.rd xb) * ofCodeS 24 (c.rd (4 + yb)))
    ∀ e ∈ [(Instr.mla2 g, MacOp.mla2, c.acc a1 + p1, c.acc a2 + p2), (.mlas g, .mlas, c.acc a1 + p1, c.acc a2 - p2), (.mul2 g, .mul2, p1, p2),
        (.mls2 g, .mls2, c.acc a1 - p1, c.acc a2 - p2)],
      Ready s g (.mac2 e.2.1 xa ya xb yb a1 a2 s1 s2) → IssuesSlots e.1 s g (s1.toList ++ s2.toList)
        [accLater a1 (c.kept e.2.2.1), accLater a2 (c.kept e.2.2.2),
          flagWrite (c.kept e.2.2.1) (decide (satS 56 e.2.2.1 ≠ e.2.2.1) || decide (satS 56 e.2.2.2 ≠ e.2.2.2))]

/-- R148, R149, R151, R181, R183, R189, R190. The accumulator operations under their condition, with any slot beside them: the exact
result kept at 56 bits with its flags; COMP and TEST write flags alone; NOP, and any operation whose condition does not hold, leaves the
slot alone to act. -/
def Obligations.AccumulatorOperations : Prop :=
  ∀ (s : State) (g ad n k x y cc : Nat) (slot : Option Slot), g < 64 →
    let c := s.core g
    let d := c.acc ad
    let a := c.acc n
    let p := 2 * (ofCodeS 24 (c.rd x) * ofCodeS 24 (c.rd (4 + y)))
    let bitwise := fun (f : Nat → Nat → Nat) => ofCodeS 56 (f (codeS 56 d) (codeS 56 a))
    let rounded := c.kept (d + 2 ^ 23) - c.kept (d + 2 ^ 23) % 2 ^ 24
    let does := fun (i : Instr) (op : AluOp) (pend : List PWrite) =>
      Ready s g (.alu op ad slot cc) → IssuesSlots i s g slot.toList pend
    (c.cond cc = true →
      (∀ e ∈ [(Instr.zero g, AluOp.zero, (0 : Int)), (.copy g, .copy n, a), (.adds g, .adds n k, d + a * 2 ^ k), (.subs g, .subs n k, d - a * 2 ^ k),
          (.negt g, .negt n, -a), (.magn g, .magn n, if a < 0 then -a else a), (.shla g, .shla n, d * 2 ^ n), (.shra g, .shra n, d / 2 ^ n),
          (.maxs g, .maxs n, max d a), (.mins g, .mins n, min d a), (.and g, .and n, bitwise (· &&& ·)), (.ior g, .ior n, bitwise (· ||| ·)),
          (.xor g, .xor n, bitwise (· ^^^ ·)), (.mul g, .mul x y, p), (.mula g, .mula x y, d + p), (.muls g, .muls x y, d - p)],
        does e.1 e.2.1 [accLater ad (c.kept e.2.2), flagWrite (c.kept e.2.2) (decide (satS 56 e.2.2 ≠ e.2.2))]) ∧
      does (.rndh g) .rndh [accLater ad rounded, flagWrite rounded (decide (satS 56 (d + 2 ^ 23) ≠ d + 2 ^ 23))] ∧
      does (.comp g) (.comp n)
        [{ flagWrite (c.kept (d - a)) false with val := (flagWrite (c.kept (d - a)) false).val + 4 * flag (decide (satS 56 (d - a) ≠ d - a)) }] ∧
      does (.test g) .test [flagWrite d false]) ∧
    does (.aluNop g) .nop [] ∧
    (c.cond cc = false → ∀ e ∈ [(Instr.zero g, AluOp.zero), (.copy g, .copy n), (.adds g, .adds n k), (.subs g, .subs n k), (.negt g, .negt n),
        (.magn g, .magn n), (.shla g, .shla n), (.shra g, .shra n), (.rndh g, .rndh), (.maxs g, .maxs n), (.mins g, .mins n), (.comp g, .comp n),
        (.test g, .test), (.and g, .and n), (.ior g, .ior n), (.xor g, .xor n), (.mul g, .mul x y), (.mula g, .mula x y), (.muls g, .muls x y)],
      does e.1 e.2 [])

/-- R151, R179, R181, R191, R192, R143, R145, R149, R162, R164, R180, R193. Immediates, moves, pointer additions and control moves: X
and Y are written at once, an accumulator from the third bundle on, any other register from the fourth on. A load, a store and MOV2 run
their slots, and BEXP its two loads that lower BE.MIN; a load of a word that a posted BIN is still to bring takes the word as it is or
as it will be; a slow-path load ends with the word of shared memory; BSCALE and BECLR set BE; BFLY writes the sum and the difference
beside its slots; a slot that has no legal address stops the task. -/
def Obligations.MovesLoadsAndStores : Prop :=
  ((∀ (c : Core) (r v : Nat), c.moveTo r v = if r < 8 then c.wr r v else { c with
    pend := c.pend ++ [if r < 16 then ⟨r, 2 ^ 56 - 1, v, 3⟩ else if r = 50 then ⟨r, srWritable, v, 4⟩ else if r = 51 then ⟨r, 0xFF1F, v, 4⟩
      else ⟨r, 2 ^ regWidth r - 1, v, 4⟩] }) ∧
  (∀ (s : State) (g rd rs imm p i a : Nat) (k : Int), g < 64 →
    let c := s.core g
    let imm16 := if rd < 8 then imm * 256 else if rd < 16 then codeS 56 (ofCodeS 16 imm) else imm % 2 ^ regWidth rd
    let imm32 := if rd < 8 then imm % 2 ^ 24 else if rd < 16 then codeS 56 (ofCodeS 32 imm) else imm % 2 ^ regWidth rd
    (Ready s g (.ldi rd imm) → Issues (.ldi g) s g 1 (c.moveTo rd imm16)) ∧
    (Ready s g (.ldl rd imm) → Issues (.ldl g) s g 2 (c.moveTo rd imm32)) ∧
    (Ready s g (.move rd rs) → ¬(rd < 8 ∧ 8 ≤ rs ∧ rs < 16) → Issues (.move g) s g 1 (c.moveTo rd (moveValue rd rs (c.rd rs)).1)) ∧
    (Ready s g (.move rd rs) → rd < 8 → 8 ≤ rs → rs < 16 →
      let r := (c.acc (rs - 8) + 2 ^ 23) / 2 ^ 24
      Issues (.move g) s g 1 (if satS 24 r = r then c.wr rd (codeS 24 r)
        else { c.wr rd (codeS 24 (satS 24 r)) with pend := [⟨50, 0x10, 0x10, 4⟩] })) ∧
    (Ready s g (.addp p k) → p < 8 → Issues (.addp g) s g 1 { c with pend := [⟨16 + p, 2 ^ 24 - 1, codeS 24 ((c.rd (16 + p) : Int) + k), 4⟩] }) ∧
    (Ready s g (.addpl p imm) → p < 8 →
      Issues (.addpl g) s g 2 { c with pend := [⟨16 + p, 2 ^ 24 - 1, (c.rd (16 + p) + imm) % 2 ^ 24, 4⟩] }) ∧
    (Ready s g (.movcFrom a i) → a < 8 → ccrDefined i = true →
      Issues (.movcFromCcr g) s g 1 { c with pend := [⟨8 + a, 2 ^ 56 - 1, s.ccrRead g i, 3⟩] }) ∧
    (Ready s g (.movcTo a i) → a < 8 → ccrDefined i = true →
      Issues (.movcToCcr g) s g 1 { c with pend := [⟨0x100 + i, 2 ^ 32 - 1, c.rd (8 + a) % 2 ^ 32, 4⟩] }))) ∧
  (∀ (s : State) (g : Nat), g < 64 →
    let c := s.core g
    (∀ r p mod, (Ready s g (.ldr r p mod) → IssuesSlots (.ldr g) s g [⟨false, r, p, mod⟩] []) ∧
      (Ready s g (.str r p mod) → IssuesSlots (.str g) s g [⟨true, r, p, mod⟩] [])) ∧
    (∀ r p q, c.posted = [q] → q.kind < 2 → Ready s g (.ldr r p 0) → q.word ≤ c.rd (16 + p) → c.rd (16 + p) < 0x10000 →
      c.rd (16 + p) < q.word + (s.binWords q).length → Gives (.ldr g) s (fun t =>
        ∃ w ∈ [s.dataWord g (c.rd (16 + p)), (s.binWords q).getD (c.rd (16 + p) - q.word) 0],
          t.core g = { c.taking r w with pc := (c.pc + 1) % 16384 })) ∧
    (∀ s1 s2, Ready s g (.mov2 s1 s2) → IssuesSlots (.mov2 g) s g (s1 :: s2.toList) []) ∧
    (∀ p1 p2, Ready s g (.bexp p1 p2) →
      IssuesSlots (.bexp g) s g ((p1.toList ++ p2.toList).map (fun p => ⟨false, 0x40, p, 3⟩)) []) ∧
    (∀ cycles r w held rest, 10 ≤ cycles → cycles ≤ 25 → r < 52 ∨ r = 0x40 → c.stall = .slow ((r, w, held) :: rest) → c.after = .fall →
      s.fld (R.CCR_TIMER_COUNT g) = 0 →
      Turns (.slowPathLoadDone g cycles) s [R.CCR_CYCLES_COUNT g]
        { s with mal := (s.setCore g { c.taking r (held.getD (s.sharedWord g w)) with stall := if rest = [] then .none else .slow rest }).mal }
        (fun t => t.fld (R.CCR_CYCLES_COUNT g) = min (s.fld (R.CCR_CYCLES_COUNT g) + cycles) (2 ^ 32 - 1))) ∧
    (Ready s g .beclr → Issues (.beclr g) s g 1 (c.wr 51 0x17)) ∧
    (Ready s g .bscale →
      let sc := min 2 (bits (c.rd 50) 11 10 - c.rd 51 % 32)
      Issues (.bscale g) s g 1 (c.wr 51 (min 63 (bits (c.rd 51) 15 10 + sc) * 1024 + sc * 256 + 23))) ∧
    (∀ a acc pair ld st, Ready s g (.bfly a acc pair ld st) →
      let n := bits (c.rd 51) 9 8
      let half := fun (x : Int) => if n = 0 then x else (x + (2 ^ (n - 1) : Nat)) / (2 ^ n : Nat)
      let e := half (ofCodeS 24 (c.rd a) * 2 ^ 24) + half (c.acc acc)
      let o := half (ofCodeS 24 (c.rd a) * 2 ^ 24) - half (c.acc acc)
      IssuesSlots (.bfly g) s g (ld.toList ++ st.toList) [accLater (2 * pair) (c.kept e), accLater (2 * pair + 1) (c.kept o),
        flagWrite (c.kept e) (decide (satS 56 e ≠ e) || decide (satS 56 o ≠ o))]) ∧
    (∀ r p mod e, c.slotAddrs [⟨false, r, p, mod⟩] = .error e → Ready s g (.ldr r p mod) → Gives (.ldr g) s (fun t =>
      t.fld (R.CCR_EXC_CAUSE g) = e ∧ t.fld (R.CCR_EXC_PC g) = c.pc ∧ (t.core g).task = none)))

/-! ### Mallet interrupts and DMA -/

/-- R156, R157, R158, R159, R168, R173, R186, R166, R169, R170, R171, R174. A fast accept saves PC and SR and exchanges the bank, a
normal accept stacks them; both clear their source and go to its vector. TIMER counts a running task's cycles, and its step to 0 raises
source 8; a mailbox write and a broadcast raise their sources, which end a WAIT where they are enabled; a read of MBOX_OUT clears its
pending bit. A DMA channel starts and ends with its words moved, or with ERR at an error response; parameter words are written at the
boundary before its first dispatch (a command given as a row, notes/assumptions/12), wait where 64 words do not take them, and are
refused outside a PARAMETER range; the data window queues parameter words and writes shared memory; programs and CCRs refuse writes from
outside; the counts are cleared. -/
def Obligations.MalletInterruptsDmaAndParameters : Prop :=
  ((∀ (s : State) (g src : Nat), g < 64 → src < 16 → (s.core g).pend = [] → (s.core g).closing = none → s.fld (R.CCR_TIMER_COUNT g) = 0 →
    let c := s.core g
    let taken := fun (t : State) => bit (t.fld (R.CCR_INT_PEND_PEND g)) src = 0 ∧
      ∀ i < 16, i ≠ src → bit (t.fld (R.CCR_INT_PEND_PEND g)) i = bit (s.fld (R.CCR_INT_PEND_PEND g)) i
    (s.acceptable g = some (true, src) → c.pc < 16384 → c.rd 50 < 65536 → Gives (.fastAccept g) s (fun t =>
      t.fld (R.CCR_FPC_PC g) = c.pc ∧ t.fld (R.CCR_FSR_SR g) = c.rd 50 ∧ (t.core g).pc = s.fld (R.CCR_VEC_ADDR g src) ∧
      (t.core g).rd 50 = (c.rd 50 - (c.rd 50 &&& 0x2200)) + 0x2000 ∧ taken t ∧ (t.core g).stack = c.stack ∧
      (∀ r, 12 ≤ r → ¬(16 ≤ r ∧ r < 24) → r ≠ 50 → (t.core g).rd r = c.rd r) ∧
      (∀ r, r < 12 ∨ (16 ≤ r ∧ r < 24) → Tbl.sorted c.shadow = true → Tbl.sorted c.regs = true → (t.core g).rd r = Tbl.get c.shadow r 0) ∧
      (∀ h, h ≠ g → t.core h = s.core h))) ∧
    (s.acceptable g = some (false, src) → c.stack.length < 16 → c.rd 50 < 65536 → Gives (.normalAccept g) s (fun t =>
      (t.core g).stack = (c.pc, c.rd 50) :: c.stack ∧ (t.core g).pc = s.fld (R.CCR_VEC_ADDR g src) ∧
      (t.core g).rd 50 = (c.rd 50 - (c.rd 50 &&& 0x1200)) + 0x1000 ∧ taken t ∧
      (∀ r, r ≠ 50 → (t.core g).rd r = c.rd r) ∧ (∀ h, h ≠ g → t.core h = s.core h)))) ∧
  (∀ (s : State) (g n : Nat), g < 64 → Ready s g .nop → 0 < n → n < 2 ^ 32 →
    Turns (.nop g) (s.setFld (R.CCR_TIMER_COUNT g) n) [R.CCR_CYCLES_COUNT g, R.CCR_TIMER_COUNT g, R.CCR_INT_PEND_PEND g]
      { s with mal := (s.setCore g { s.core g with pc := ((s.core g).pc + 1) % 16384 }).mal } (fun t =>
        t.fld (R.CCR_TIMER_COUNT g) = n - 1 ∧ bit (t.fld (R.CCR_INT_PEND_PEND g)) 8 = if n = 1 then 1 else bit (s.fld (R.CCR_INT_PEND_PEND g)) 8)) ∧
  (∀ (s : State) (g : Nat) (rt : RunTask), g < 64 → (s.core g).task = some rt →
    (s.core g).stall = .wait ∨ (s.core g).stall = .bsync ∨ (s.core g).stall = .busFull ∨ (s.core g).stall = .tend →
    0 < s.fld (R.CCR_TIMER_COUNT g) → s.fld (R.CCR_CYCLES_COUNT g) + s.fld (R.CCR_TIMER_COUNT g) ≤ rt.cost →
    Gives (.timerExpiry g) s (fun t => t.fld (R.CCR_TIMER_COUNT g) = 0 ∧ bit (t.fld (R.CCR_INT_PEND_PEND g)) 8 = 1 ∧
      t.fld (R.CCR_CYCLES_COUNT g) = min (s.fld (R.CCR_CYCLES_COUNT g) + s.fld (R.CCR_TIMER_COUNT g)) (2 ^ 32 - 1) ∧
      ((s.core g).stall = .wait → bit (s.fld (R.CCR_INT_EN_EN g)) 8 = 1 → (t.core g).stall = .none) ∧
      SameBut [R.CCR_TIMER_COUNT g, R.CCR_INT_PEND_PEND g, R.CCR_CYCLES_COUNT g] { s with mal := { s.mal with cores := t.mal.cores } } t)) ∧
  (∀ (s : State) (g : Nat) (v : Word), g < 64 → HostReaches s (ccrAddr g 0x0F) →
    let fs := [R.XB_OUTSTANDING_PEAK 0, R.CCR_MBOX_IN_DATA g, R.CCR_INT_PEND_PEND g]
    let wakes := (s.core g).stall = .wait ∧ bit (s.fld (R.CCR_INT_EN_EN g)) 6 = 1
    ∃ t, exec (.mboxInWrite g v) s = .next (s.answered 0 .ok t) ∧ t.fld (R.CCR_MBOX_IN_DATA g) = v.toNat ∧
      bit (t.fld (R.CCR_INT_PEND_PEND g)) 6 = 1 ∧ (¬wakes → SameBut fs s t) ∧
      (wakes → t.core g = { s.core g with stall := .none } ∧ SameBut (fs ++ [R.CCR_CYCLES_COUNT g, R.CCR_TIMER_COUNT g])
        { s with mal := { s.mal with cores := t.mal.cores }, freeCtr := s.freeCtr + 1 } t)) ∧
  (∀ (s : State) (m g : Nat), g < 64 → Reaches s m (ccrAddr g 0x10) →
    Turns (.mboxOutRead m g) s [R.XB_OUTSTANDING_PEAK m, R.MAL_CL_MBOX_PEND_PEND (g / 16)] s (fun t =>
      t.sent = .response m (.data (leBytes 4 (s.fld (R.CCR_MBOX_OUT_DATA g)))) :: s.sent ∧
      ∀ i < 16, bit (t.fld (R.MAL_CL_MBOX_PEND_PEND (g / 16))) i =
        if i = g % 16 then 0 else bit (s.fld (R.MAL_CL_MBOX_PEND_PEND (g / 16))) i)) ∧
  (∀ (s : State) (cl : Nat) (v : Word), cl < 4 → HostReaches s (0x14800008 + 0x400000 * cl) →
    ∃ t, exec (.malClBroadcastWrite cl v) s = .next (s.answered 0 .ok t) ∧
      (∀ n < 16, bit v.toNat n = 1 → bit (t.fld (R.CCR_INT_PEND_PEND (16 * cl + n))) 9 = 1 ∧
        ((s.core (16 * cl + n)).stall = .wait → bit (s.fld (R.CCR_INT_EN_EN (16 * cl + n))) 9 = 1 → (t.core (16 * cl + n)).stall = .none)) ∧
      (∀ n < 16, bit v.toNat n = 0 → t.fld (R.CCR_INT_PEND_PEND (16 * cl + n)) = s.fld (R.CCR_INT_PEND_PEND (16 * cl + n)) ∧
        t.core (16 * cl + n) = s.core (16 * cl + n)) ∧
      SameBut (R.XB_OUTSTANDING_PEAK 0 :: (List.range 16).flatMap (fun n => [R.CCR_INT_PEND_PEND (16 * cl + n), R.CCR_CYCLES_COUNT (16 * cl + n),
        R.CCR_TIMER_COUNT (16 * cl + n)])) { s with mal := { s.mal with cores := t.mal.cores }, freeCtr := t.freeCtr } t)) ∧
  ((∀ (s : State) (g ch : Nat) (v : Word), g < 64 → ch < 4 → bit v.toNat 31 = 1 → s.fld (R.CCR_DMA_STATUS_BUSY g ch) = 0 →
    Gives (.dmaStart g ch v) s (fun t => t.fld (R.CCR_DMA_STATUS_BUSY g ch) = 1 ∧ t.fld (R.CCR_DMA_STATUS_REMAIN g ch) = v.toNat % 65536 + 1 ∧
      Tbl.find ch (t.core g).dma = some ⟨s.fld (R.CCR_DMA_LOCAL_WORD g ch), s.fld (R.CCR_DMA_EXT_ADDR g ch), bit v.toNat 30 == 1,
        bit v.toNat 29 == 1, v.toNat % 65536 + 1⟩ ∧ t.mem = s.mem ∧ t.mal.data = s.mal.data)) ∧
  (∀ (s : State) (g ch : Nat) (d : Dma) (resp : FetchResp), g < 64 → ch < 4 → Tbl.find ch (s.core g).dma = some d →
    let size := if d.pack then 3 else 4
    let n := size * d.count
    (d.local0 + d.count ≤ 0x10000 → PlainDram s d.ext (4 * ((n + 3) / 4)) → (∀ i < (n + 3) / 4, Through s (6 + g / 16) (d.ext + 4 * i)) →
      Gives (.dmaComplete g ch resp) s (fun t => t.fld (R.CCR_DMA_STATUS_BUSY g ch) = 0 ∧ t.fld (R.CCR_DMA_STATUS_DONE g ch) = 1 ∧
      t.fld (R.CCR_DMA_STATUS_REMAIN g ch) = 0 ∧ bit (t.fld (R.CCR_INT_PEND_PEND g)) ch = 1 ∧ Tbl.find ch (t.core g).dma = none ∧
      (d.toExt = false → t.mem = s.mem ∧ ∀ j < d.count, t.dataWord g (d.local0 + j) = leAt (s.mem.dramRead d.ext n) (size * j) 3) ∧
      (d.toExt = true → t.mal.data = s.mal.data ∧ (∀ j < d.count, t.mem.dramRead (d.ext + size * j) size =
          if d.pack then leBytes 3 (s.dataWord g (d.local0 + j)) else leBytes 4 (codeS 32 (ofCodeS 24 (s.dataWord g (d.local0 + j))))) ∧
        ∀ x, x < d.ext ∨ d.ext + n ≤ x → t.mem.dramByte x = s.mem.dramByte x))) ∧
    (0 < d.count → s.hif.queue = [] → (∀ i < (n + 3) / 4, s.passage (6 + g / 16) (d.ext + 4 * i) = .refused) →
      Gives (.dmaComplete g ch resp) s (fun t => t.fld (R.CCR_DMA_STATUS_BUSY g ch) = 0 ∧ t.fld (R.CCR_DMA_STATUS_ERR g ch) = 1 ∧
        t.fld (R.CCR_DMA_STATUS_REMAIN g ch) = d.count % 2 ^ 17 ∧ bit (t.fld (R.CCR_INT_PEND_PEND g)) 4 = 1 ∧
        t.fld (R.MAL_CL_DMA_ERR_COUNT_COUNT (g / 16)) = min (s.fld (R.MAL_CL_DMA_ERR_COUNT_COUNT (g / 16)) + 1) (2 ^ 32 - 1) ∧
        bit (t.fld (R.MAL_CL_INT_STATUS_DMA_ERR (g / 16))) 0 = 1 ∧ t.mem = s.mem ∧ t.mal.data = s.mal.data))) ∧
  (∀ (s : State) (g count start : Nat) (values : List Word), g < 64 →
    let holds := fun (t : State) (late : Bool) => ∃ h, t.held = s.held ++ [h] ∧ h.eng = .mal (g / 16) ∧ h.cmd = .paramSet g count start values ∧
      h.late = late
    (s.atBoundary (.mal (g / 16)) 1 = false → Gives (.paramSet g count start values) s (fun t => holds t false ∧
      t = { s with held := t.held, heldNext := s.heldNext + 1 })) ∧
    (s.atBoundary (.mal (g / 16)) 1 = true → 0 < count → count ≤ 3 → (∀ j < count, s.isParam g (start + j) = true) → start + count ≤ 0x10000 →
      (Tbl.get s.mal.applied g 0 + count ≤ 64 → Gives (.paramSet g count start values) s (fun t =>
        (∀ j < count, t.dataWord g (start + j) = (values.getD j 0).toNat % 2 ^ 24) ∧
        (∀ h x, h < 64 → x < 0x10000 → h ≠ g ∨ x < start ∨ start + count ≤ x → t.dataWord h x = s.dataWord h x) ∧
        Tbl.get t.mal.applied g 0 = Tbl.get s.mal.applied g 0 + count ∧
        t = { s with mal := { s.mal with data := t.mal.data, applied := t.mal.applied } })) ∧
      (64 < Tbl.get s.mal.applied g 0 + count → Gives (.paramSet g count start values) s (fun t => holds t true ∧
        t.fld (R.MAL_CL_PARAM_DEFER_COUNT (g / 16)) = min (s.fld (R.MAL_CL_PARAM_DEFER_COUNT (g / 16)) + 1) (2 ^ 32 - 1) ∧
        bit (t.fld (R.MAL_CL_INT_STATUS_PARAM_DEFER (g / 16))) 0 = 1 ∧
        SameBut [R.MAL_CL_PARAM_DEFER_COUNT (g / 16), R.MAL_CL_INT_STATUS_PARAM_DEFER (g / 16)]
          { s with held := t.held, heldNext := s.heldNext + 1 } t))) ∧
    (s.atBoundary (.mal (g / 16)) 1 = true → count = 0 ∨ 3 < count ∨ (∃ j < count, s.isParam g (start + j) = false) →
      Turns (.paramSet g count start values) s [R.MAL_CL_REFUSED_COUNT_COUNT (g / 16), R.MAL_CL_INT_STATUS_REFUSED (g / 16)] s (fun t =>
        t.fld (R.MAL_CL_REFUSED_COUNT_COUNT (g / 16)) = min (s.fld (R.MAL_CL_REFUSED_COUNT_COUNT (g / 16)) + 1) (2 ^ 32 - 1) ∧
        bit (t.fld (R.MAL_CL_INT_STATUS_REFUSED (g / 16))) 0 = 1))) ∧
  (∀ (s : State) (g n a : Nat), Gives (.paramList g n a) s (fun t => ∃ h, t.held = s.held ++ [h] ∧ h.cmd = .paramList g n a ∧
    h.fetch = .running ∧ h.id = s.heldNext ∧ t = { s with held := t.held, heldNext := s.heldNext + 1 })) ∧
  (∀ (s : State) (m cl w : Nat) (v : Word), cl < 4 → w < 0x10000 → Reaches s m (0x14B00000 + 0x400000 * cl + 4 * w) → s.flmState = 0 →
    let target := s.fld (R.MAL_CL_DWIN_SEL_TARGET cl)
    let queued := (s.held.filter (fun h => h.eng == .mal cl && (match h.cmd with | .paramWrite .. => true | _ => false))).length
    let refused := Gives (.malDataWindowWrite m cl w v) s (fun t => .response m .targetErr ∈ t.sent ∧ t.mal = s.mal ∧ t.held = s.held ∧
      t.fld (R.MAL_CL_REFUSED_COUNT_COUNT cl) = min (s.fld (R.MAL_CL_REFUSED_COUNT_COUNT cl) + 1) (2 ^ 32 - 1) ∧
      bit (t.fld (R.MAL_CL_INT_STATUS_REFUSED cl)) 0 = 1)
    (target < 16 → s.isParam (16 * cl + target) w = true → queued < 256 → ∃ t, exec (.malDataWindowWrite m cl w v) s = .next (s.answered m .ok t) ∧
      (∃ h, t.held = s.held ++ [h] ∧ h.cmd = .paramWrite (16 * cl + target) w (BitVec.ofNat 24 v.toNat) ∧ h.stamp = none) ∧
      SameBut [R.XB_OUTSTANDING_PEAK m] { s with held := t.held, heldNext := s.heldNext + 1 } t) ∧
    (target < 16 → s.isParam (16 * cl + target) w = false ∨ 256 ≤ queued → (∀ h ∈ s.held, h.id < s.heldNext) → refused) ∧
    (target = 16 → s.fld (R.MAL_CL_DWIN_SEL_PAGE cl) < 4 → (∀ h ∈ s.held, h.id < s.heldNext) → Gives (.malDataWindowWrite m cl w v) s (fun t =>
      let o := 262144 * s.fld (R.MAL_CL_DWIN_SEL_PAGE cl) + 4 * w
      .response m .ok ∈ t.sent ∧ t.sharedRead cl o 4 = leBytes 4 (codeS 32 (low24 v)) ∧
      (∀ l b, l < 4 → b < 0x100000 → l ≠ cl ∨ b < o ∨ o + 4 ≤ b → t.sharedByte l b = s.sharedByte l b) ∧
      SameBut [R.XB_OUTSTANDING_PEAK m] { s with mal := { s.mal with shared := t.mal.shared } } t)) ∧
    (16 < target → (∀ h ∈ s.held, h.id < s.heldNext) → refused)) ∧
  (∀ (s : State) (m cl o : Nat), cl < 4 → (0x100000 ≤ o ∧ o < 0x200000) ∨ (0x200000 ≤ o ∧ o < 0x210000 ∧ o % 4096 < 1024 ∧ o % 4096 ≠ 60) →
    Reaches s m (0x14800000 + 0x400000 * cl + o) → s.flmState = 0 →
    Gives (.malProgramCcrWrite m (0x14800000 + 0x400000 * cl + o)) s (fun t => .response m .targetErr ∈ t.sent ∧ t.mal = s.mal ∧
      t.fld (R.MAL_CL_REFUSED_COUNT_COUNT cl) = min (s.fld (R.MAL_CL_REFUSED_COUNT_COUNT cl) + 1) (2 ^ 32 - 1) ∧
      bit (t.fld (R.MAL_CL_INT_STATUS_REFUSED cl)) 0 = 1)) ∧
  (∀ (s : State) (cl : Nat), cl < 4 → HostReaches s (0x14800024 + 0x400000 * cl) → HostSets (.malClCountClear cl) s (malCounts cl) s (fun t =>
    t.fld (R.MAL_CL_EXC_COUNT_COUNT cl) = 0 ∧ t.fld (R.MAL_CL_BUSERR_COUNT_COUNT cl) = 0 ∧ t.fld (R.MAL_CL_REFUSED_COUNT_COUNT cl) = 0 ∧
    t.fld (R.MAL_CL_DMA_ERR_COUNT_COUNT cl) = 0 ∧ t.fld (R.MAL_CL_PARAM_DEFER_COUNT cl) = 0)))

/-! ### The delay pool -/

/-- R195, R202, R203, R204, R206, R211, R213, R214. While no part of the block has begun, a delay that is valid for its line crossfades
to it, becomes pending while a fade runs, and is discarded and counted otherwise; later in the block it is held for the next boundary (a
command given as a row, notes/assumptions/12). A list is taken in; the selected line's delay is written through DPL_DELAY_SET; a fade
ends; a write into line storage is refused; the hash seed is written in TEST alone, and under any seed two addresses never share a
place; errors that the scrubber meets are counted while it runs; the counts are cleared. -/
def Obligations.DelayPoolCommands : Prop :=
  (∀ (s : State) (l xf d : Nat), s.atBoundary .dpl 4 = false → Gives (.delaySet l xf d) s (fun t =>
    (∃ h, t.held = s.held ++ [h] ∧ h.eng = .dpl ∧ h.cmd = .delaySet l xf d ∧ h.stamp = none) ∧
    t = { s with held := t.held, heldNext := s.heldNext + 1 })) ∧
  (∀ (s : State) (l xf d : Nat), l < 2048 → d < 2 ^ 26 → s.atBoundary .dpl 4 = true → s.dplPresent = true → (xf ≤ 7 ∨ xf = 0xFF) →
    s.delayOk l d = true →
    let len := 16 * 2 ^ (if xf = 0xFF then s.fld (R.DPL_LINE0_XF l) else xf)
    let cur := s.fld (R.DPL_LINE1_DELAY l)
    ((s.lineSt l).fade = none → d ≠ cur → Gives (.delaySet l xf d) s (fun t => t.fld (R.DPL_LINE1_DELAY l) = d ∧
      t.lineSt l = { s.lineSt l with fade := some (cur, 0, len) } ∧ (∀ k, k ≠ l → t.lineSt k = s.lineSt k) ∧
      SameBut [R.DPL_LINE1_DELAY l] { s with dpl := { s.dpl with lines := t.dpl.lines } } t)) ∧
    ((s.lineSt l).fade = none → d = cur → exec (.delaySet l xf d) s = .next s) ∧
    ((s.lineSt l).fade.isSome = true → Gives (.delaySet l xf d) s (fun t => t.fld (R.DPL_LINE0_PENDING l) = 1 ∧ t.fld (R.DPL_LINE2_PEND l) = d ∧
      t.lineSt l = { s.lineSt l with pendLen := len } ∧ (∀ k, k ≠ l → t.lineSt k = s.lineSt k) ∧
      (s.fld (R.DPL_LINE0_PENDING l) = 1 →
        t.fld R.DPL_DELAY_DEFER_COUNT = min (s.fld R.DPL_DELAY_DEFER_COUNT + 1) (2 ^ 32 - 1) ∧ bit (t.fld R.DPL_INT_STATUS_DELAY_DEFER) 0 = 1) ∧
      SameBut ([R.DPL_LINE0_PENDING l, R.DPL_LINE2_PEND l] ++
          if s.fld (R.DPL_LINE0_PENDING l) = 1 then [R.DPL_DELAY_DEFER_COUNT, R.DPL_INT_STATUS_DELAY_DEFER] else [])
        { s with dpl := { s.dpl with lines := t.dpl.lines } } t))) ∧
  (∀ (s : State) (l xf d : Nat), s.atBoundary .dpl 4 = true → s.dplPresent = false ∨ (7 < xf ∧ xf ≠ 0xFF) ∨ s.delayOk l d = false →
    Turns (.delaySet l xf d) s [R.DPL_CMD_REJECT_COUNT, R.DPL_INT_STATUS_CMD_REJECT] s (fun t =>
      t.fld R.DPL_CMD_REJECT_COUNT = min (s.fld R.DPL_CMD_REJECT_COUNT + 1) (2 ^ 32 - 1) ∧ bit (t.fld R.DPL_INT_STATUS_CMD_REJECT) 0 = 1)) ∧
  (∀ (s : State) (n xf a : Nat), Gives (.delayList n xf a) s (fun t => (∃ h, t.held = s.held ++ [h] ∧ h.cmd = .delayList n xf a ∧
    h.fetch = .running ∧ h.id = s.heldNext) ∧ t = { s with held := t.held, heldNext := s.heldNext + 1 })) ∧
  (∀ (s : State) (v : Word), HostReaches s 0x14080014 → ∃ t, exec (.dplDelaySetWrite v) s = .next (s.answered 0 .ok t) ∧
    (∃ h, t.held = s.held ++ [h] ∧ h.stamp = none ∧ h.cmd = .delaySet (s.fld R.DPL_LINE_SEL_LINE)
      (if bit v.toNat 28 = 1 then 0xFF else bits v.toNat 31 29) (v.toNat % 2 ^ 26)) ∧
    t.fld R.DPL_DELAY_SET_XF = bits v.toNat 31 29 ∧ t.fld R.DPL_DELAY_SET_XF_LINE = bit v.toNat 28 ∧
    SameBut [R.XB_OUTSTANDING_PEAK 0, R.DPL_DELAY_SET_XF, R.DPL_DELAY_SET_XF_LINE]
      { s with held := t.held, heldNext := s.heldNext + 1 } t) ∧
  (∀ (s : State) (l old k len : Nat), (s.lineSt l).fade = some (old, k, len) → len ≤ k → Gives (.delayFadeEnd l) s (fun t =>
    t.lineSt l = { s.lineSt l with fade := none } ∧ (∀ j, j ≠ l → t.lineSt j = s.lineSt j) ∧
    t = { s with dpl := { s.dpl with lines := t.dpl.lines } })) ∧
  (∀ (s : State) (m a : Nat), a < 0x10000000 → m ≠ 10 → Reaches s m a → s.flmState = 0 → s.lineProtected a = true →
    Gives (.lineStorageWrite m a) s (fun t => t.mem = s.mem ∧ bit (t.fld R.DPL_INT_STATUS_LINE_WRITE) 0 = 1 ∧
      .response m .targetErr ∈ t.sent ∧ SameBut [R.XB_OUTSTANDING_PEAK m, R.DPL_INT_STATUS_LINE_WRITE, R.HIF_ERR_ADDR_ADDR,
        R.HIF_ERR_COUNT_COUNT, R.HIF_ERR_STATUS_TARGET_ERR] { s with held := t.held } t)) ∧
  (∀ (s : State) (v : Word), HostReaches s 0x1408000C →
    (s.mode = .test → ∃ t, exec (.dplHashSeedWrite v) s = .next (s.answered 0 .ok t) ∧ t.dpl = { s.dpl with seed := v.toNat } ∧
      t.mem.dramEpoch = s.mem.dramEpoch + 1 ∧ t.mem.dram = [] ∧
      SameBut [R.XB_OUTSTANDING_PEAK 0] { s with dpl := t.dpl, mem := { s.mem with dram := t.mem.dram, dramEpoch := t.mem.dramEpoch } } t) ∧
    (s.mode ≠ .test → exec (.dplHashSeedWrite v) s = .next (s.answered 0 .ok (s.touch 0)))) ∧
  (∀ seed a b : Nat, a < 2 ^ 28 → b < 2 ^ 28 → dramPlace seed a = dramPlace seed b → a = b) ∧
  (∀ (s : State) (a : Nat), s.fld R.DPL_SCRUB_CTRL_PERIOD ≠ 0 → s.domainOn 12 = true → a < 0x10000000 → exec (.scrubRead a .none) s = .next s ∧
    Turns (.scrubRead a .corrected) s [R.DPL_ECC_CE_COUNT, R.DPL_INT_STATUS_ECC_CE] s (fun t =>
      t.fld R.DPL_ECC_CE_COUNT = min (s.fld R.DPL_ECC_CE_COUNT + 1) (2 ^ 32 - 1) ∧ bit (t.fld R.DPL_INT_STATUS_ECC_CE) 0 = 1) ∧
    Gives (.scrubRead a .uncorrectable) s (fun t => (∀ w, w ∈ t.mem.dramBad ↔ w = a / 8 ∨ w ∈ s.mem.dramBad) ∧
      t.fld R.DPL_ECC_UE_COUNT = min (s.fld R.DPL_ECC_UE_COUNT + 1) (2 ^ 32 - 1) ∧ t.fld R.DPL_ECC_LAST_ADDR = a / 8 * 8 ∧
      t.fld R.DPL_ECC_LAST_LINE_VALID = 0 ∧ bit (t.fld R.DPL_INT_STATUS_ECC_UE) 0 = 1 ∧
      SameBut [R.DPL_ECC_UE_COUNT, R.DPL_ECC_LAST_ADDR, R.DPL_ECC_LAST_LINE_VALID, R.DPL_INT_STATUS_ECC_UE]
        { s with mem := { s.mem with dramBad := t.mem.dramBad } } t)) ∧
  (∀ (s : State) (a : Nat) (err : EccErr), s.fld R.DPL_SCRUB_CTRL_PERIOD = 0 → exec (.scrubRead a err) s = .next s) ∧
  (∀ s : State, HostReaches s 0x14080044 → HostSets .dplCountClear s dplCounts s (fun t => ∀ f ∈ dplCounts, t.fld f = 0))

/-! ### Serial ports -/

/-- R259, R261, R262, R263, R269, R270. A defined port or transceiver takes the fields of its control register; a mask waits for the
frame after its guard and then is the active one; PRT_MASK and PORT_MUTE set the same at the boundary of their block, unless a register
write after them has, and are held for the next boundary where frames have passed (commands given as rows, notes/assumptions/12); a
command for a port that is not defined, or with a field out of range, is counted. -/
def Obligations.PortControl : Prop :=
  (∀ (s : State) (n : Nat) (v : Word), n < 16 → HostReaches s (0x14090008 + 256 * n) →
    let fs := [R.XB_OUTSTANDING_PEAK 0, R.PRT_CTRL_ENABLE n, R.PRT_CTRL_MUTE n, R.PRT_CTRL_RAMP n]
    (s.fld (R.PRT_CFG_PRESENT n) = 1 → ∃ t, exec (.prtCtrlWrite n v) s = .next (s.answered 0 .ok t) ∧
      t.fld (R.PRT_CTRL_ENABLE n) = bit v.toNat 31 ∧ t.fld (R.PRT_CTRL_MUTE n) = bit v.toNat 30 ∧ t.fld (R.PRT_CTRL_RAMP n) = bits v.toNat 22 16 ∧
      t.unit n = { s.unit n with ctrlSince := true } ∧ (∀ u, u ≠ n → t.unit u = s.unit u) ∧
      SameBut fs { s with ports := { s.ports with units := t.ports.units }, heldNext := s.heldNext + 1
                          hif := { s.hif with hot := s.hif.hot ++ [(s.heldNext, 0, .prt, (s.boundary .prt).2)] } } t) ∧
    (s.fld (R.PRT_CFG_PRESENT n) ≠ 1 → ∃ t, exec (.prtCtrlWrite n v) s = .next (s.answered 0 .ok t) ∧
      SameBut [R.XB_OUTSTANDING_PEAK 0] { s with heldNext := s.heldNext + 1
                                                 hif := { s.hif with hot := s.hif.hot ++ [(s.heldNext, 0, .prt, (s.boundary .prt).2)] } } t)) ∧
  (∀ (s : State) (n : Nat) (v : Word), n < 8 → HostReaches s (0x140A0008 + 512 * n) →
    s.fld (R.AES_CFG_RX_PRESENT n) = 1 ∨ s.fld (R.AES_CFG_TX_PRESENT n) = 1 →
    ∃ t, exec (.aesCtrlWrite n v) s = .next (s.answered 0 .ok t) ∧ t.fld (R.AES_CTRL_TX_ENABLE n) = bit v.toNat 31 ∧
      t.fld (R.AES_CTRL_TX_MUTE n) = bit v.toNat 30 ∧ t.fld (R.AES_CTRL_RAMP n) = bits v.toNat 22 16 ∧
      t.fld (R.AES_CTRL_RX_ENABLE n) = bit v.toNat 15 ∧ t.fld (R.AES_CTRL_RX_MUTE n) = bit v.toNat 14 ∧
      (∀ u, t.unit u = if u = 16 + n ∨ u = 24 + n then { s.unit u with ctrlSince := true } else s.unit u) ∧
      SameBut [R.XB_OUTSTANDING_PEAK 0, R.AES_CTRL_TX_ENABLE n, R.AES_CTRL_TX_MUTE n, R.AES_CTRL_RAMP n, R.AES_CTRL_RX_ENABLE n,
        R.AES_CTRL_RX_MUTE n] { s with ports := { s.ports with units := t.ports.units }, heldNext := s.heldNext + 1
                                       hif := { s.hif with hot := s.hif.hot ++ [(s.heldNext, 0, .prt, (s.boundary .prt).2)] } } t) ∧
  (∀ (s : State) (n : Nat) (m : Word) (g : Bool), n < 16 → HostReaches s (0x14090010 + 256 * n) →
    (s.fld (R.PRT_CFG_PRESENT n) = 1 → ∃ t, exec (.prtMaskWrite n m g) s = .next (s.answered 0 .ok t) ∧ t.fld (R.PRT_MASK_MASK n) = m.toNat ∧
      t.unit n = { s.unit n with pendMask := some (m.toNat, flag g), maskSince := true } ∧ (∀ u, u ≠ n → t.unit u = s.unit u) ∧
      SameBut [R.XB_OUTSTANDING_PEAK 0, R.PRT_MASK_MASK n] { s with ports := { s.ports with units := t.ports.units } } t) ∧
    (s.fld (R.PRT_CFG_PRESENT n) ≠ 1 → exec (.prtMaskWrite n m g) s = .next (s.answered 0 .ok (s.touch 0)))) ∧
  (∀ (s : State) (n w : Nat), n < 16 → w < 2 ^ 32 → (s.unit n).pendMask = some (w, 0) → clocksRun (s.unitState n) = true →
    Gives (.prtMaskApply n) s (fun t => t.fld (R.PRT_MASK_ACTIVE_MASK n) = w ∧ t.fld (R.PRT_MASK_APPLIED_FRAME n) = s.frameIndex n % 2 ^ 32 ∧
      t.unit n = { s.unit n with pendMask := none } ∧ bit (t.fld (R.PRT_INT_STATUS_MASK_APPLIED n)) 0 = 1 ∧ (∀ u, u ≠ n → t.unit u = s.unit u) ∧
      SameBut [R.PRT_MASK_ACTIVE_MASK n, R.PRT_MASK_APPLIED_FRAME n, R.PRT_INT_STATUS_MASK_APPLIED n]
        { s with ports := { s.ports with units := t.ports.units } } t)) ∧
  (∀ (s : State) (n : Nat) (m : Word),
    (s.prtOpen (.prtMask n m) = false → Gives (.prtMask n m) s (fun t => (∃ h, t.held = s.held ++ [h] ∧ h.eng = .prt ∧ h.cmd = .prtMask n m) ∧
      t = { s with held := t.held, heldNext := s.heldNext + 1 })) ∧
    (s.prtOpen (.prtMask n m) = true →
      (n < 16 → (s.cfg.bind (fun c => c.prt? n)).isSome = true →
        ((s.unit n).maskSince = false → (s.unit n).maskBefore = false ∨ (s.unit n).pendMask = none → Gives (.prtMask n m) s (fun t =>
          t.fld (R.PRT_MASK_MASK n) = m.toNat ∧ t.unit n = { s.unit n with pendMask := some (m.toNat, 0) } ∧
          (∀ u, u ≠ n → t.unit u = s.unit u) ∧
          SameBut [R.PRT_MASK_MASK n] { s with ports := { s.ports with units := t.ports.units } } t)) ∧
        ((s.unit n).maskSince = true ∨ ((s.unit n).maskBefore = true ∧ (s.unit n).pendMask ≠ none) → exec (.prtMask n m) s = .next s)) ∧
      (15 < n ∨ s.cfg.bind (fun c => c.prt? n) = none → Turns (.prtMask n m) s [R.PRT_CMD_REJECT_COUNT] s (fun t =>
        t.fld R.PRT_CMD_REJECT_COUNT = min (s.fld R.PRT_CMD_REJECT_COUNT + 1) (2 ^ 32 - 1))))) ∧
  (∀ (s : State) (kind first count mute ramp : Nat),
    let c := Cmd.portMute kind first count mute ramp
    let unit := fun (j : Nat) => (if kind = 0 then 0 else 24) + first + j
    let last := if kind = 0 then 16 else 8
    let defined := fun (j : Nat) => match s.cfg with
      | none => false
      | some c => if kind = 0 then (c.prt? (first + j)).isSome else (match c.aes? (first + j) with | none => false | some r => r.txEn)
    let legal := kind ≤ 1 ∧ 0 < count ∧ count ≤ 16 ∧ first + count ≤ last ∧ mute ≤ 1 ∧ ramp ≤ 64 ∧ ∀ j < count, defined j = true
    (s.prtOpen c = false → Gives (.portMute kind first count mute ramp) s (fun t => (∃ h, t.held = s.held ++ [h] ∧ h.eng = .prt ∧ h.cmd = c) ∧
      t = { s with held := t.held, heldNext := s.heldNext + 1 })) ∧
    (s.prtOpen c = true → legal →
      Gives (.portMute kind first count mute ramp) s (fun t =>
        (∀ j < count,
          ((s.unit (unit j)).ctrlBefore = true → t.unit (unit j) = s.unit (unit j)) ∧
          ((s.unit (unit j)).ctrlBefore = false →
            t.unit (unit j) = { s.unit (unit j) with
              mute := decide (mute = 1) || s.unitGroup (unit j), ramp := if ramp = 0 then (s.unit (unit j)).ramp else ramp } ∧
            (0 < ramp → kind = 1 → (t.unit (16 + first + j)).ramp = ramp)) ∧
          ((s.unit (unit j)).ctrlBefore = false → (s.unit (unit j)).ctrlSince = false →
            t.fld (if kind = 0 then R.PRT_CTRL_MUTE (first + j) else R.AES_CTRL_TX_MUTE (first + j)) = mute ∧
            (0 < ramp → t.fld (if kind = 0 then R.PRT_CTRL_RAMP (first + j) else R.AES_CTRL_RAMP (first + j)) = ramp))) ∧
        (∀ u, (∀ j < count, u ≠ unit j ∧ u ≠ 16 + first + j) → t.unit u = s.unit u) ∧
        SameBut ((List.range count).flatMap (fun j => if kind = 0 then [R.PRT_CTRL_MUTE (first + j), R.PRT_CTRL_RAMP (first + j)]
          else [R.AES_CTRL_TX_MUTE (first + j), R.AES_CTRL_RAMP (first + j)])) { s with ports := { s.ports with units := t.ports.units } } t)) ∧
    (s.prtOpen c = true → ¬legal → Turns (.portMute kind first count mute ramp) s [R.PRT_CMD_REJECT_COUNT] s (fun t =>
      t.fld R.PRT_CMD_REJECT_COUNT = min (s.fld R.PRT_CMD_REJECT_COUNT + 1) (2 ^ 32 - 1))))

/-- R253, R254, R256, R257, R258, R259, R261, R264, R260, R266. A frame of a running input port brings the samples of the slots that its
mask opens, at the level, which steps towards its target; in pre-roll and post-roll zeros; one that the slip buffer has no room for is
lost and counted. A frame of an output port sends the samples of the frame that its buffer holds in the slots that the mask opens, or
zeros where it holds none, which is counted. In SYNCING a frame counts towards lock. A follower in SYNCING that has seen what locks it
locks into pre-roll, its slip buffer primed to 8 frames; one whose clocks run is lost with its cause, and an input keeps the frames it
has received; a bad frame is counted and a second one in a row loses the lock; pre-roll, stop ramp and post-roll lead to RUNNING,
POSTROLL and STOPPED, where a unit that a swap has changed takes its new record or is ABSENT. -/
def Obligations.PortFramesAndStates : Prop :=
  (∀ (s : State) (n : Nat) (slots : List Nat) (r : PrtRec) (c : Cfg), n < 16 → s.prtFmt? n = some r → (s.unit n).pendMask = none → s.cfg = some c →
    0 < c.blockLen → 0 < (s.unit n).ramp →
    let d := s.unit n
    let target : Rat := if d.mute = true ∨ s.unitState n = stStopping then 0 else 1
    let step : Rat := 1 / (d.ramp * c.blockLen : Nat)
    let opened := fun (j : Nat) => bit (s.fld (R.PRT_MASK_ACTIVE_MASK n)) j = 1
    let ticked : PortDir := { d with pos := d.pos + 1, count := d.count + 1, roll := d.roll + 1, badRun := false }
    let playing := s.unitState n = stRunning ∨ s.unitState n = stStopping
    let silence := (List.range r.slots).map (fun j => if opened j then some 0 else if r.tristate then none else some 0)
    let room := r.clocking = 1 → d.buf.length < 48
    (r.dirOut = false →
      (playing → room → d.entering = false → d.stopLen = 0 → Gives (.portFrame n slots) s (fun t =>
        t.unit n = { ticked with
          level := if d.level < target then min target (d.level + step) else max target (d.level - step)
          buf := d.buf ++ [⟨s.frameIndex n, (List.range r.slots).map (fun j =>
            if opened j then roundRat (d.level * (slotToSample r (slots.getD j 0) : Rat)) else 0), []⟩] } ∧
        t.fld (R.PRT_FRAME_FRAME n) = s.frameIndex n % 2 ^ 32 ∧ t.sent = s.sent ∧ (∀ u, u ≠ n → t.unit u = s.unit u) ∧
        SameBut [R.PRT_FRAME_FRAME n] { s with ports := { s.ports with units := t.ports.units } } t)) ∧
      (s.unitState n = stPreroll ∨ s.unitState n = stPostroll → room → Gives (.portFrame n slots) s (fun t =>
        t.unit n = { ticked with buf := d.buf ++ [⟨s.frameIndex n, List.replicate r.slots 0, []⟩] } ∧ t.sent = s.sent)) ∧
      (clocksRun (s.unitState n) = true → ¬room → Gives (.portFrame n slots) s (fun t => (t.unit n).buf = d.buf ∧
        t.fld (R.PRT_XRUN_COUNT n) = min (s.fld (R.PRT_XRUN_COUNT n) + 1) (2 ^ 32 - 1) ∧ bit (t.fld (R.PRT_INT_STATUS_XRUN n)) 0 = 1))) ∧
    (r.clocking ≠ 0 → s.unitState n = stSyncing → exec (.portFrame n slots) s = .next (s.setUnit n { d with good := d.good + 1 })) ∧
    (r.dirOut = true → clocksRun (s.unitState n) = true →
      (Gives (.portFrame n slots) s (fun t => ∃ ws, t.sent.head? = some (.portFrame n (s.frameIndex n) ws) ∧ ws.length = r.slots ∧
        ∀ j < r.slots, ¬opened j → ws.getD j (some 1) = if r.tristate then none else some 0)) ∧
      (∀ (f : UnitFmt) (x : PFrame), s.unitFmt? n = some f → (s.outEntry n f).1 = some x → s.unitState n = stRunning → d.gap = false →
        d.entering = false → d.level = 1 → d.mute = false → s.gate = ⟨true, none⟩ → Gives (.portFrame n slots) s (fun t =>
          t.sent.head? = some (.portFrame n (s.frameIndex n) ((List.range r.slots).map (fun j =>
            if opened j then some (sampleToSlot r (x.xs.getD j 0)) else if r.tristate then none else some 0))) ∧
          (t.unit n).buf = (s.outEntry n f).2)) ∧
      (s.unitState n = stPreroll ∨ s.unitState n = stPostroll → s.gate = ⟨true, none⟩ → Gives (.portFrame n slots) s (fun t =>
        t.sent.head? = some (.portFrame n (s.frameIndex n) silence))) ∧
      (∀ f : UnitFmt, s.unitFmt? n = some f → (s.outEntry n f).1 = none → playing → s.gate = ⟨true, none⟩ →
        Gives (.portFrame n slots) s (fun t => t.sent.head? = some (.portFrame n (s.frameIndex n) silence) ∧ (t.unit n).gap = true ∧
          t.fld (R.PRT_XRUN_COUNT n) = min (s.fld (R.PRT_XRUN_COUNT n) + 1) (2 ^ 32 - 1) ∧ bit (t.fld (R.PRT_INT_STATUS_XRUN n)) 0 = 1)))) ∧
  (∀ (s : State) (u : Nat) (f : UnitFmt), u < 32 → s.unitFmt? u = some f →
    let d := s.unit u
    let alone := fun (t : State) (fs : List Fld) =>
      (∀ i, i ≠ u → t.unit i = s.unit i) ∧ SameBut (stateFld u :: fs) { s with ports := t.ports } t
    (∀ rate : Nat, rate < 2 ^ 32 → f.clocking ≠ 0 → s.unitState u = stSyncing → s.mayLock u = true → Gives (.portLock u rate) s (fun t =>
      t.unitState u = stPreroll ∧ (t.unit u).roll = 0 ∧ (t.unit u).rollN = s.unitRoll u false ∧ (t.unit u).level = 0 ∧
      (t.unit u).buf.length = (if f.clocking = 1 then 8 else 0) ∧ (∀ e ∈ (t.unit u).buf, e.xs = List.replicate f.chans 0) ∧
      (u < 16 → t.fld (R.PRT_RATE_MHZ u) = rate ∧ alone t [R.PRT_RATE_MHZ u]) ∧
      (16 ≤ u → u < 24 → t.fld (R.AES_RX_RATE_MHZ (u - 16)) = rate ∧ (t.aesCap (u - 16)).bits = [] ∧ (t.aesCap (u - 16)).base = [] ∧
        bit (t.fld (R.AES_INT_STATUS_RX_LOCK (u - 16))) 0 = 1 ∧ alone t [R.AES_RX_RATE_MHZ (u - 16), R.AES_INT_STATUS_RX_LOCK (u - 16)]) ∧
      (24 ≤ u → alone t []))) ∧
    (∀ cause : Nat, f.clocking ≠ 0 → clocksRun (s.unitState u) = true → 0 < cause → cause < 4 → (cause = 3 → f.clocking = 1) → d.leaving = false →
      Gives (.portLost u cause) s (fun t => t.unitState u = stLost ∧ (t.unit u).level = 0 ∧ (t.unit u).buf = (if f.out then [] else d.buf) ∧
        (u < 16 → t.fld (R.PRT_STATE_LOST_CAUSE u) = cause ∧ (cause = 1 → t.fld (R.PRT_RATE_MHZ u) = 0) ∧
          bit (t.fld (R.PRT_INT_STATUS_LOST u)) 0 = 1 ∧ alone t [R.PRT_STATE_LOST_CAUSE u, R.PRT_RATE_MHZ u, R.PRT_INT_STATUS_LOST u]) ∧
        (16 ≤ u → u < 24 → t.fld (R.AES_RX_STATE_LOST_CAUSE (u - 16)) = cause ∧ (cause = 1 → t.fld (R.AES_RX_RATE_MHZ (u - 16)) = 0) ∧
          bit (t.fld (R.AES_INT_STATUS_RX_LOST (u - 16))) 0 = 1 ∧ (t.aesCap (u - 16)).bits = [] ∧
          alone t [R.AES_RX_STATE_LOST_CAUSE (u - 16), R.AES_RX_RATE_MHZ (u - 16), R.AES_INT_STATUS_RX_LOST (u - 16)]) ∧
        (24 ≤ u → alone t []))) ∧
    (f.clocking ≠ 0 → u < 24 →
      (clocksRun (s.unitState u) = true → Gives (.portFrameError u) s (fun t =>
        (u < 16 → t.fld (R.PRT_FRAME_ERR_COUNT u) = min (s.fld (R.PRT_FRAME_ERR_COUNT u) + 1) (2 ^ 32 - 1) ∧
          bit (t.fld (R.PRT_INT_STATUS_FRAME_ERR u)) 0 = 1) ∧
        (16 ≤ u → t.fld (R.AES_CODE_ERR_COUNT (u - 16)) = min (s.fld (R.AES_CODE_ERR_COUNT (u - 16)) + 1) (2 ^ 32 - 1) ∧
          bit (t.fld (R.AES_INT_STATUS_CODE_ERR (u - 16))) 0 = 1) ∧
        (d.badRun = false → t.unitState u = s.unitState u ∧ (t.unit u).badRun = true) ∧
        (d.badRun = true → d.leaving = false → t.unitState u = stLost))) ∧
      (s.unitState u = stSyncing → exec (.portFrameError u) s = .next (s.setUnit u { d with good := 0 }))) ∧
    (s.unitState u = stPreroll → d.rollN ≤ d.roll → f.domain = 2 ∨ d.pos = 0 → Gives (.portPrerollDone u) s (fun t =>
      t.unitState u = stRunning ∧ t.unit u = { d with level := 0, entering := true, gap := false } ∧
      (u < 16 → bit (t.fld (R.PRT_INT_STATUS_RUNNING u)) 0 = 1) ∧ alone t (if u < 16 then [R.PRT_INT_STATUS_RUNNING u] else []))) ∧
    (s.unitState u = stStopping → d.level = 0 → d.leaving = false → Gives (.portStopRampDone u) s (fun t => t.unitState u = stPostroll ∧
      (t.unit u).roll = 0 ∧ (t.unit u).rollN = s.unitRoll u true ∧ alone t [])) ∧
    (s.unitState u = stPostroll → d.rollN ≤ d.roll →
      (d.leaving = false → Gives (.portPostrollDone u) s (fun t => t.unitState u = stStopped ∧ (t.unit u).buf = [] ∧ (t.unit u).level = 0 ∧
        (u < 16 → t.fld (R.PRT_RATE_MHZ u) = 0 ∧ bit (t.fld (R.PRT_INT_STATUS_STOPPED u)) 0 = 1) ∧
        alone t (if u < 16 then [R.PRT_RATE_MHZ u, R.PRT_INT_STATUS_STOPPED u] else []))) ∧
      (∀ c : Cfg, d.leaving = true → u < 16 → s.cfg = some c → s.prtFmt? u ≠ c.prt? u → Gives (.portPostrollDone u) s (fun t =>
        t.prtFmt? u = c.prt? u ∧ (t.unit u).leaving = false ∧
        (∀ r, c.prt? u = some r → t.unitState u = stStopped ∧ t.fld (R.PRT_CFG_PRESENT u) = 1 ∧ t.fld (R.PRT_MASK_ACTIVE_MASK u) = r.mask % 2 ^ 32) ∧
        (c.prt? u = none → t.unitState u = stAbsent ∧ t.fld (R.PRT_CFG_PRESENT u) = 0)))))

/-- R257, R258, R265, R266, R267, R269, R270. An AES3 receiver takes both subframes, holds the sample before one whose parity is wrong,
counts that and V bits, and publishes a block of 192 frames; in SYNCING its Z preambles count towards lock; a transmitter sends two
subframes with the samples of its buffer and the bits of its block, which it takes anew at a Z preamble; the counts are cleared by mask.
-/
def Obligations.Aes3Frames : Prop :=
  (∀ (s : State) (n : Nat) (z : Bool) (a b : AesSub) (r : AesRec) (f : UnitFmt), n < 8 → s.aesFmt? n = some r → s.unitFmt? (16 + n) = some f →
    (s.aesCap n).bits.length < 192 →
    (s.unitState (16 + n) = stRunning → (s.unit (16 + n)).level = 1 → (s.unit (16 + n)).mute = false → (s.unit (16 + n)).entering = false →
      (f.clocking = 1 → (s.unit (16 + n)).buf.length < 48) →
      let sample := fun (x : AesSub) (held : Int) => if x.v = true ∧ r.vPolicy = 1 then 0 else if x.ok then ofCodeS 24 (x.audio % 2 ^ 24) else held
      let fs := [R.AES_V_COUNT_COUNT n, R.AES_PARITY_ERR_COUNT n, R.AES_INT_STATUS_PARITY n]
      Gives (.aesFrameRx n z [a, b]) s (fun t =>
        (t.unit (16 + n)).buf = (s.unit (16 + n)).buf ++ [⟨s.frameIndex (16 + n), [sample a (s.aesCap n).prevA, sample b (s.aesCap n).prevB], []⟩] ∧
        t.aesCap n = { s.aesCap n with
          bits := if z then [(a.c, a.u, b.c, b.u)] else if (s.aesCap n).bits = [] then [] else (a.c, a.u, b.c, b.u) :: (s.aesCap n).bits
          prevA := sample a (s.aesCap n).prevA, prevB := sample b (s.aesCap n).prevB } ∧
        (a.ok = true → b.ok = true → a.v = false → b.v = false → SameBut [] { s with ports := t.ports } t) ∧
        (a.ok ≠ b.ok → t.fld (R.AES_PARITY_ERR_COUNT n) = min (s.fld (R.AES_PARITY_ERR_COUNT n) + 1) (2 ^ 32 - 1) ∧
          bit (t.fld (R.AES_INT_STATUS_PARITY n)) 0 = 1) ∧
        (a.v ≠ b.v → t.fld (R.AES_V_COUNT_COUNT n) = min (s.fld (R.AES_V_COUNT_COUNT n) + 1) (2 ^ 32 - 1)) ∧
        SameBut fs { s with ports := t.ports } t)) ∧
    (s.unitState (16 + n) = stSyncing → Gives (.aesFrameRx n z [a, b]) s (fun t => t.unit (16 + n) = (let d := s.unit (16 + n)
      if z then { d with good := if d.sinceZ = 192 then d.good + 1 else 1, sinceZ := 1 }
      else if d.sinceZ = 0 then d else { d with sinceZ := d.sinceZ + 1 }) ∧
      t = { s with ports := { s.ports with units := t.ports.units } }))) ∧
  (∀ (s : State) (n : Nat), n < 8 → (s.aesCap n).bits.length = 192 →
    let fs := (s.aesCap n).bits.reverse
    let cs := bitsToBytes (fs.map (·.1)) ++ bitsToBytes (fs.map (·.2.2.1))
    let us := bitsToBytes (fs.map (·.2.1)) ++ bitsToBytes (fs.map (·.2.2.2))
    Gives (.aesCsBlockComplete n) s (fun t => t.aesCap n = { s.aesCap n with bits := [], base := cs } ∧
      (∀ i < 12, t.fld (R.AES_RX_CS_BYTES n i) = leAt cs (4 * i) 4 ∧ t.fld (R.AES_RX_U_BYTES n i) = leAt us (4 * i) 4) ∧
      t.fld (R.AES_RX_STATE_PRO n) = (cs.headD 0).toNat % 2 ∧
      ((∃ i < 14, cs.getD i 0 ≠ (s.aesCap n).base.getD i 0) → bit (t.fld (R.AES_INT_STATUS_CS_CHANGE n)) 0 = 1) ∧
      SameBut ([R.AES_RX_STATE_PRO n, R.AES_CS_CRC_ERR_COUNT n, R.AES_INT_STATUS_CS_CRC n, R.AES_INT_STATUS_CS_CHANGE n] ++
        (List.range 12).flatMap (fun i => [R.AES_RX_CS_BYTES n i, R.AES_RX_U_BYTES n i])) { s with ports := { s.ports with caps := t.ports.caps } } t)) ∧
  (∀ (s : State) (n : Nat) (f : UnitFmt), n < 8 → s.unitFmt? (24 + n) = some f → clocksRun (s.unitState (24 + n)) = true →
    let i := (if f.domain = 2 then (s.unit (24 + n)).count else s.frameIndex (24 + n)) % 192
    let cs := if s.aesAtZ n then (s.aesTxBlock n).1 else Tbl.get s.ports.txCs n (List.replicate 48 0)
    let us := if s.aesAtZ n then (s.aesTxBlock n).2 else Tbl.get s.ports.txU n (List.replicate 48 0)
    Gives (.aesFrameTx n) s (fun t => (∃ a b, t.sent.head? = some (.aesFrame n (s.aesAtZ n) [a, b]) ∧
        (a.c = blockBit (cs.take 24) i ∧ b.c = blockBit (cs.drop 24) i ∧ a.u = blockBit (us.take 24) i ∧ b.u = blockBit (us.drop 24) i) ∧
        (s.gate = ⟨true, none⟩ → s.inForce (R.AES_TX_CTRL_V_SRC n) < 2 → a.v = decide (s.inForce (R.AES_TX_CTRL_V_SRC n) = 1) ∧ b.v = a.v) ∧
        (s.gate = ⟨false, none⟩ → a.audio = 0 ∧ b.audio = 0 ∧ a.v = true ∧ b.v = true)) ∧
      (t.unit (24 + n)).count = (s.unit (24 + n)).count + 1 ∧ Tbl.get t.ports.txCs n [] = cs ∧ Tbl.get t.ports.txU n [] = us) ∧
    (∀ (x : PFrame) (p q : Int), (s.outEntry (24 + n) f).1 = some x → x.xs = [p, q] → s.unitState (24 + n) = stRunning → (s.unit (24 + n)).gap = false →
      (s.unit (24 + n)).entering = false → (s.unit (24 + n)).level = 1 → (s.unit (24 + n)).mute = false → s.gate = ⟨true, none⟩ →
      Gives (.aesFrameTx n) s (fun t => (∃ a b, t.sent.head? = some (.aesFrame n (s.aesAtZ n) [a, b]) ∧ a.audio = codeS 24 p ∧ b.audio = codeS 24 q ∧
          (s.inForce (R.AES_TX_CTRL_V_SRC n) = 2 → a.v = x.bad.getD 0 false ∧ b.v = x.bad.getD 1 false)) ∧
        (t.unit (24 + n)).buf = (s.outEntry (24 + n) f).2))) ∧
  (∀ (s : State) (mask : Nat), mask < 2 ^ 16 → HostReaches s 0x14091004 → HostSets (.prtCountClear mask) s ((List.range 16).flatMap prtCounts) s
    (fun t => ∀ n < 16, ∀ f ∈ prtCounts n, t.fld f = if bit mask n = 1 then 0 else s.fld f)) ∧
  (∀ (s : State) (mask : Nat), mask < 2 ^ 8 → HostReaches s 0x140A1004 → HostSets (.aesCountClear mask) s ((List.range 8).flatMap aesCounts) s
    (fun t => ∀ n < 8, ∀ f ∈ aesCounts n, t.fld f = if bit mask n = 1 then 0 else s.fld f))

/-! ### Network and time -/

/-- R284, R285, R287, R295. A link comes up where its port is enabled and down clears its fields; a release returns slots, at most 64;
the counters clear by port and for all streams; STREAM_MUTE reaches all its streams or is discarded, at the boundary of its block, and
is held for the next one where their samples have left (a command given as a row, notes/assumptions/12). -/
def Obligations.NetworkControl : Prop :=
  (∀ (s : State) (n : Nat), n < 4 →
    let fs := [R.NET_LINK_UP n, R.NET_LINK_SPEED n, R.NET_LINK_FEC_LOCK n, R.NET_LINK_BLOCK_LOCK n]
    (s.domainOn 9 = true → s.inForce (R.NET_PORT_CFG_ENABLE n) = 1 → s.fld (R.NET_LINK_UP n) = 0 → s.inForce (R.NET_PORT_CFG_SPEED n) < 4 →
      Turns (.netLinkUp n) s (R.NET_INT_STATUS_LINK_UP n :: fs) s (fun t => t.fld (R.NET_LINK_UP n) = 1 ∧
        t.fld (R.NET_LINK_SPEED n) = s.inForce (R.NET_PORT_CFG_SPEED n) ∧
        t.fld (R.NET_LINK_FEC_LOCK n) = (if s.inForce (R.NET_PORT_CFG_FEC n) = 0 then 0 else 1) ∧ t.fld (R.NET_LINK_BLOCK_LOCK n) = 1 ∧
        bit (t.fld (R.NET_INT_STATUS_LINK_UP n)) 0 = 1)) ∧
    (s.fld (R.NET_LINK_UP n) = 1 → Turns (.netLinkDown n) s (R.NET_INT_STATUS_LINK_DOWN n :: fs) s (fun t => (∀ f ∈ fs, t.fld f = 0) ∧
      bit (t.fld (R.NET_INT_STATUS_LINK_DOWN n)) 0 = 1)) ∧
    (∀ v : Word, HostReaches s (0x140B002C + 1024 * n) →
      (v.toNat % 128 ≤ 64 → HostSets (.netCtlRxReleaseWrite n v) s [R.NET_CTL_RX_FREE_COUNT n] s (fun t =>
        t.fld (R.NET_CTL_RX_FREE_COUNT n) = min 64 (s.fld (R.NET_CTL_RX_FREE_COUNT n) + v.toNat % 128))) ∧
      (64 < v.toNat % 128 → exec (.netCtlRxReleaseWrite n v) s = .next (s.answered 0 .ok (s.touch 0))))) ∧
  (∀ (s : State) (v : Word), HostReaches s 0x140B1008 →
    let pf := fun n => [R.NET_RX_FRAMES_COUNT n, R.NET_TX_FRAMES_COUNT n, R.NET_RX_ERR_COUNT n, R.NET_BRIDGE_FWD_COUNT n,
      R.NET_BRIDGE_DROP_COUNT n, R.NET_CTL_DROP_COUNT n]
    let sf := fun n => [R.NET_IN1_PACKETS n, R.NET_IN2_LATE_BLOCKS n, R.NET_IN3_LOST_0 n, R.NET_IN4_LOST_1 n, R.NET_IN5_DUP n,
      R.NET_IN6_LATE_PKTS n, R.NET_IN6_BAD n, R.NET_OUT1_PACKETS n, R.NET_OUT2_LATE n]
    HostSets (.netCountClear v) s (((List.range 4).filter (fun n => bit v.toNat n = 1)).flatMap pf ++
      (if bit v.toNat 4 = 1 then (List.range 256).flatMap sf ++ (List.range 256).map R.NET_IN7_MARGIN else [])) s (fun t =>
      (∀ n < 4, bit v.toNat n = 1 → ∀ f ∈ pf n, t.fld f = 0) ∧
      (bit v.toNat 4 = 1 → ∀ n < 256, (∀ f ∈ sf n, t.fld f = 0) ∧ t.fld (R.NET_IN7_MARGIN n) = 0x7FFFFFFF))) ∧
  (∀ (s : State) (first count mute ramp : Nat),
    let ok := 1 ≤ count ∧ count ≤ 255 ∧ mute ≤ 1 ∧ 1 ≤ ramp ∧ ramp ≤ 64 ∧ ∀ j < count, (s.outS (first + j)).fmt.isSome = true
    (s.streamsOpen first count mute ramp = false → Gives (.streamMute first count mute ramp) s (fun t =>
      (∃ h, t.held = s.held ++ [h] ∧ h.eng = .net ∧ h.cmd = .streamMute first count mute ramp) ∧
      t = { s with held := t.held, heldNext := s.heldNext + 1 })) ∧
    (s.streamsOpen first count mute ramp = true → ok → Turns (.streamMute first count mute ramp) s ((List.range count).map (fun j => R.NET_OUT0_MUTED (first + j)))
      { s with net := { s.net with outs := ((List.range count).foldl (fun u j => u.setOutS (first + j)
        { u.outS (first + j) with d := { (u.outS (first + j)).d with mute := decide (mute = 1), ramp := ramp } }) s).net.outs } }
      (fun t => ∀ j < count, t.fld (R.NET_OUT0_MUTED (first + j)) = mute ∧ (t.outS (first + j)).d.mute = decide (mute = 1) ∧
        (t.outS (first + j)).d.ramp = ramp)) ∧
    (s.streamsOpen first count mute ramp = true → ¬ ok → Turns (.streamMute first count mute ramp) s [R.NET_CMD_REJECT_COUNT] s (fun t =>
      t.fld R.NET_CMD_REJECT_COUNT = min (s.fld R.NET_CMD_REJECT_COUNT + 1) (2 ^ 32 - 1))))

/-- R275, R276, R278, R279, R277, R282, R283, R295. A packet of an input stream that fails its checks, or lies too far ahead, is counted
as BAD; one in time writes the samples of its index that are still missing, once, and counts as a duplicate where none is; a late one is
counted, unless it was delivered before, and writes nothing. Output packets: an output stream, behind those of the streams below it on
its pair of ports, sends the samples of its next packet once they are at their level, with its sequence number, which counts, on each
leg whose link is up; an abandoned egress makes it a packet of zeros, counted as late; where not all its samples are there it sends
nothing. -/
def Obligations.StreamPackets : Prop :=
  (∀ (s : State) (c : Cfg) (r : StreamRec) (n leg tm : Nat) (p : List Byte) (i : Instr) (chk : Option Pkt),
    s.cfg = some c → (s.inS n).fmt = some r → leg = 0 ∨ (leg = 1 ∧ r.prot = true) →
    (r.format = 0 ∧ i = .rtpPacketRx n leg p tm ∧ chk = s.rtpCheck c r tm p) ∨
      (r.format = 1 ∧ i = .llPacketRx n leg p tm ∧ chk = llCheck r p) →
    let u := s.seeTime tm
    let len := if r.format = 0 then r.ptime else 6
    (chk = none → Turns i s [R.NET_IN6_BAD n] u (fun t =>
      t.fld (R.NET_IN6_BAD n) = min (s.fld (R.NET_IN6_BAD n) + 1) (2 ^ 16 - 1))) ∧
    (∀ (k : Pkt) (a : Nat), chk = some k → k.1 + (r.linkOffset : Int) = (a : Int) → 0 < len →
      let x := s.inS n
      let m := s.tokenTime c (c.blockOf (c.streamDomain r) a + 1) - (tm : Int) - 2000
      let margin := fun (t : State) => t.fld (R.NET_IN7_MARGIN n) =
        if m < ofCodeS 32 (s.fld (R.NET_IN7_MARGIN n)) then codeS 32 (satS 32 m) else s.fld (R.NET_IN7_MARGIN n)
      let seen := (Tbl.find a x.pkts).getD (false, false)
      (s.captureNow c (c.streamDomain r) tm + r.linkOffset + 2 * r.ptime < a → Gives i s (fun t =>
        t.fld (R.NET_IN6_BAD n) = min (s.fld (R.NET_IN6_BAD n) + 1) (2 ^ 16 - 1) ∧ (t.inS n).buf = x.buf ∧ (t.inS n).pkts = x.pkts)) ∧
      (a ≤ s.captureNow c (c.streamDomain r) tm + r.linkOffset + 2 * r.ptime →
        (0 ≤ m → Gives i s (fun t => (t.inS n).fmt = some r ∧ (∀ b, b < a ∨ a + len ≤ b → Tbl.find b (t.inS n).buf = Tbl.find b x.buf) ∧
          Tbl.find a (t.inS n).pkts = some (seen.1 || leg == 0, seen.2 || leg == 1) ∧
          ((∃ j < len, Tbl.find (a + j) x.buf = none) →
            t.fld (R.NET_IN1_PACKETS n) = min (s.fld (R.NET_IN1_PACKETS n) + 1) (2 ^ 32 - 1) ∧ margin t ∧
            (∀ j < len, Tbl.find (a + j) (t.inS n).buf =
              if (Tbl.find (a + j) x.buf).isSome then Tbl.find (a + j) x.buf else (payloadSamples r.channels len k.2)[j]?) ∧
            SameBut [R.NET_IN1_PACKETS n, R.NET_IN7_MARGIN n] { u with net := (u.setInS n (t.inS n)).net } t) ∧
          ((∀ j < len, (Tbl.find (a + j) x.buf).isSome = true) → (t.inS n).buf = x.buf ∧
            t.fld (R.NET_IN5_DUP n) = min (s.fld (R.NET_IN5_DUP n) + 1) (2 ^ 32 - 1) ∧
            SameBut [R.NET_IN5_DUP n] { u with net := (u.setInS n (t.inS n)).net } t))) ∧
        (m < 0 → Gives i s (fun t => (t.inS n).buf = x.buf ∧ (t.inS n).pkts = x.pkts ∧
          (Tbl.find a x.pkts = none → t.fld (R.NET_IN6_LATE_PKTS n) = min (s.fld (R.NET_IN6_LATE_PKTS n) + 1) (2 ^ 16 - 1) ∧ margin t) ∧
          (Tbl.find a x.pkts ≠ none → t.fld (R.NET_IN6_LATE_PKTS n) = s.fld (R.NET_IN6_LATE_PKTS n)) ∧
          SameBut [R.NET_IN6_LATE_PKTS n, R.NET_IN7_MARGIN n] { u with net := (u.setInS n (t.inS n)).net } t))))) ∧
  (∀ (s : State) (c : Cfg) (r : StreamRec) (n : Nat), n < 256 → (if r.prot = true then r.port < 3 else r.port < 4) → s.cfg = some c →
    (s.outS n).fmt = some r → s.drainBelow (r.port / 2) n = s → s.blk.index ≤ (s.outS n).settled →
    let x := s.outS n
    let len := if r.format = 0 then r.ptime else 6
    let ready := x.buf.filter (·.done)
    let start := x.next.getD (((ready.headD ⟨0, 0, [], false, false, true⟩).idx + len - 1) / len * len)
    let mine := ready.filter (fun f => decide (start ≤ f.idx ∧ f.idx < start + len))
    let gone := mine.any (·.gone)
    let seq := s.fld (R.NET_OUT3_SEQ n)
    let pkt := packetBytes r seq mine (mine.map (fun f => if gone then List.replicate r.channels 0 else
      f.xs.map (s.gated f.blk (f.idx - c.firstOf x.dom f.blk) (c.countOf x.dom f.blk))))
    let legs := ((r.port, r.leg0) :: if r.prot then [(r.port + 1, r.leg1)] else []).filter (fun l => decide (s.fld (R.NET_LINK_UP l.1) = 1))
    let line := fun (l : Nat × LegRec) => let a := s.legAddr l.1 l.2
      Emission.udp l.1 a.1 a.2.1 a.2.2.1 a.2.2.2.1 a.2.2.2.2.1 a.2.2.2.2.2 r.srcUdp r.dscp r.ttl (if r.format = 0 then none else some 0) pkt
    let counts := fun (t : State) => t.fld (R.NET_OUT3_SEQ n) = (seq + 1) % 2 ^ 16 ∧
      t.fld (R.NET_OUT2_LATE n) = (if gone then min (s.fld (R.NET_OUT2_LATE n) + 1) (2 ^ 32 - 1) else s.fld (R.NET_OUT2_LATE n))
    let after := s.setOutS n { x with buf := x.buf.filter (fun f => decide (start + len ≤ f.idx)), next := some (start + len) }
    0 < len →
    (mine.length ≠ len → exec (.streamPacketTx n) s = .next s) ∧
    (mine.length = len → (∀ f ∈ mine, s.withheldIn f.blk = false) →
      Turns (.streamPacketTx n) s ([R.NET_OUT3_SEQ n, R.NET_OUT2_LATE n, R.NET_OUT1_PACKETS n] ++ legs.map (fun l => R.NET_TX_FRAMES_COUNT l.1)) after
        (fun t => t.sent = (legs.map line).reverse ++ s.sent ∧ counts t ∧
          t.fld (R.NET_OUT1_PACKETS n) = min (s.fld (R.NET_OUT1_PACKETS n) + 1) (2 ^ 32 - 1) ∧
          ∀ l ∈ legs, t.fld (R.NET_TX_FRAMES_COUNT l.1) = min (s.fld (R.NET_TX_FRAMES_COUNT l.1) + 1) (2 ^ 32 - 1))) ∧
    (mine.length = len → (∃ f ∈ mine, s.withheldIn f.blk = true) →
      Turns (.streamPacketTx n) s [R.NET_OUT3_SEQ n, R.NET_OUT2_LATE n] after (fun t => t.sent = s.sent ∧ counts t)))

/-- R271, R277, R284, R285, R286. A frame with a bad FCS or length is counted and goes nowhere; so is a pause frame, and one that no
function takes; a bridged pair forwards it to the other port, behind the stream packets that wait there, or counts the drop; a frame for
the host without room is a CTL_DROP. NET_SEND fetches and queues its frame, and the frame at the front of a port's queue leaves it, once
its link is up, with a record where TS asks for one. -/
def Obligations.NetworkFrames : Prop :=
  (∀ (s : State) (p : Nat) (f : List Byte) (ok full : Bool) (tm res : Nat), p < 4 → s.domainOn 9 = true → s.fld (R.NET_LINK_UP p) = 1 →
    let i := Instr.netFrameRx p f ok full tm res
    let u := s.seeTime tm
    let out := if p % 2 = 0 then p + 1 else p - 1
    let good := ok = true ∧ 60 ≤ f.length ∧ f.length ≤ 1518 ∧ udpOf f = none
    let own := beNat (f.take 6) = s.macOf p
    let bridge := s.inForce (R.NET_PORT_CFG_BRIDGE (p / 2 * 2)) = 1
    let one := fun (t : State) (g : Fld) => t.fld g = min (s.fld g + 1) (2 ^ 32 - 1)
    (ok = false ∨ f.length < 60 ∨ 1518 < f.length → Turns i s [R.NET_RX_ERR_COUNT p] u (fun t => one t (R.NET_RX_ERR_COUNT p) ∧
      t.sent = s.sent)) ∧
    (good → isPause f = true ∨ (¬ bridge ∧ s.fld (R.NET_CTL_RX_BASE_ENABLE p) = 0) → Turns i s [R.NET_RX_FRAMES_COUNT p] u (fun t =>
      one t (R.NET_RX_FRAMES_COUNT p) ∧ t.sent = s.sent)) ∧
    (good → isPause f = false → ¬ bridge → own ∨ beNat (f.take 6) = 2 ^ 48 - 1 → s.fld (R.NET_CTL_RX_BASE_ENABLE p) = 1 →
      32 ≤ s.fld R.NET_CTL_RING_RING → s.fld (R.NET_CTL_RX_FREE_COUNT p) = 0 →
      Turns i s [R.NET_RX_FRAMES_COUNT p, R.NET_CTL_DROP_COUNT p, R.NET_INT_STATUS_CTL_DROP p] u
        (fun t => one t (R.NET_RX_FRAMES_COUNT p) ∧ one t (R.NET_CTL_DROP_COUNT p) ∧ bit (t.fld (R.NET_INT_STATUS_CTL_DROP p)) 0 = 1)) ∧
    (good → isPause f = false → bridge → ¬ own → bit (f.getD 0 0).toNat 0 = 0 →
      (full = false → s.fld (R.NET_LINK_UP out) = 1 →
        let v := (u.bump (R.NET_RX_FRAMES_COUNT p)).drainPair (p / 2)
        Turns i s [R.NET_BRIDGE_FWD_COUNT out, R.NET_TX_FRAMES_COUNT out] v (fun t =>
          t.fld (R.NET_BRIDGE_FWD_COUNT out) = min (v.fld (R.NET_BRIDGE_FWD_COUNT out) + 1) (2 ^ 32 - 1) ∧
          t.fld (R.NET_TX_FRAMES_COUNT out) = min (v.fld (R.NET_TX_FRAMES_COUNT out) + 1) (2 ^ 32 - 1) ∧ t.sent = .netFrame out f :: v.sent)) ∧
      (full = true ∨ s.fld (R.NET_LINK_UP out) = 0 → Turns i s [R.NET_RX_FRAMES_COUNT p, R.NET_BRIDGE_DROP_COUNT out,
        R.NET_INT_STATUS_BRIDGE_DROP out] u (fun t => one t (R.NET_RX_FRAMES_COUNT p) ∧ one t (R.NET_BRIDGE_DROP_COUNT out) ∧
          bit (t.fld (R.NET_INT_STATUS_BRIDGE_DROP out)) 0 = 1)))) ∧
  (∀ (s : State) (port flags length addr : Nat) (resp : FetchResp),
    let i := Instr.netSend port flags length addr resp
    let h := { heldOf .net (.netSend port flags length addr) .notNeeded with id := s.heldNext }
    let queued := fun (bs : List Byte) =>
      s.net.txQ ++ (if bit flags 1 = 1 then [port / 2 * 2, port / 2 * 2 + 1] else [port]).map (fun p => (⟨p, flags, bs, h, false⟩ : TxFrame))
    let legal := port < 4 ∧ flags < 8 ∧ 60 ≤ length ∧ length ≤ 1518
    (legal → Through s (11 + port) addr → PlainDram s addr length →
      exec i s = .next { s.touch (11 + port) with heldNext := s.heldNext + 1
                                                  net := { s.net with txQ := queued (s.mem.dramRead addr length) } }) ∧
    (∀ (bs : List Byte) (a : Nat), legal → Through s (11 + port) addr → resp = .data bs → bs.length = length → s.obAddr addr = some a →
      targetOf addr = .outbound → addr % 0x10000000 + length ≤ 0x10000000 →
      Gives i s (fun t => t.heldNext = s.heldNext + 1 ∧ t.net = { s.net with txQ := queued bs })) ∧
    (¬ legal ∨ (s.passage (11 + port) addr = .refused ∧ s.hif.queue = []) → Turns i s [R.NET_CMD_REJECT_COUNT] s (fun t =>
      t.fld R.NET_CMD_REJECT_COUNT = min (s.fld R.NET_CMD_REJECT_COUNT + 1) (2 ^ 32 - 1)))) ∧
  (∀ (s : State) (port tm : Nat),
    let u := (s.seeTime tm).drainPair (port / 2)
    (∀ (l q : List TxFrame) (x : TxFrame), u.net.txQ = l ++ x :: q → (∀ y ∈ l, y.port ≠ port) → x.port = port → x.cmd.ring = none →
      u.fld (R.NET_LINK_UP port) = 1 →
      let bytes := if bit x.flags 2 = 1 then u.oneStep port tm x.frame else x.frame
      let v := (({ u with net := { u.net with txQ := l ++ q } }).bump (R.NET_TX_FRAMES_COUNT port)).emit (.netFrame port bytes)
      v.fld (R.NET_TX_FRAMES_COUNT port) = min (u.fld (R.NET_TX_FRAMES_COUNT port) + 1) (2 ^ 32 - 1) ∧
      (bit x.flags 0 = 0 → exec (.netSendDone port tm) s = .next v) ∧
      (bit x.flags 0 = 1 → exec (.netSendDone port tm) s = .next (v.postRecord (s.fld R.NET_CTL_RING_RING)
        ([0x51, 0, 0xFF, BitVec.ofNat 8 x.cmd.opcode] ++ leBytes 4 x.cmd.cookie ++ leBytes 6 s.blk.index ++ [0, 0, 0, 0] ++
          [BitVec.ofNat 8 port, 0, 0, 0] ++ stampBytes (u.portNs port (tm + s.fld (R.NET_TS_LAT_TX_NS port)))) x.cmd.irq))) ∧
    ((∀ x ∈ u.net.txQ, x.port ≠ port) ∨ u.fld (R.NET_LINK_UP port) = 0 → exec (.netSendDone port tm) s = .next u))

/-- R290, R291, R293, R294, R296. The time unit: a Delay_Req leaves and is outstanding; without Syncs the servo is in NO_PARENT and
holds its correction; a timed output drives its pulse and goes on at the next edge; a capture queues its edge, counts one that comes too
soon or finds no room, and is read oldest first; TU_TIME latches the instance's time. -/
def Obligations.TimeUnit : Prop :=
  (∀ (s : State) (n tm : Nat), n < 2 →
    let u := s.seeTime tm
    let p := s.fld (R.TU_PTP_CFG_PORT n)
    let self := (s.fld (R.TU_PTP_SELF_ID n 0) * 2 ^ 32 + s.fld (R.TU_PTP_SELF_ID n 1)) * 2 ^ 16 + s.fld (R.TU_PTP_SELF_ID n 2) % 2 ^ 16
    (s.fld (R.TU_PTP_CFG_ENABLE n) = 1 → s.fld (R.TU_PTP_CFG_MEASURE_EN n) = 1 → Gives (.ptpDelayReqTimer n tm) s (fun t =>
      t.sent = .delayReq p n (s.inst n).drSeq (s.fld (R.TU_PTP_CFG_DOMAIN n)) self :: s.sent ∧
      t.inst n = { s.inst n with drSeq := ((s.inst n).drSeq + 1) % 65536
                                 dr := some ((s.inst n).drSeq, (s.instNs n (tm + s.fld (R.NET_TS_LAT_TX_NS p)) : Rat)) } ∧
      t.fld (R.NET_TX_FRAMES_COUNT p) = min (s.fld (R.NET_TX_FRAMES_COUNT p) + 1) (2 ^ 32 - 1) ∧
      SameBut [R.NET_TX_FRAMES_COUNT p] (u.setInst n (t.inst n)) t)) ∧
    (s.fld (R.TU_PTP_CFG_ENABLE n) = 0 ∨ s.fld (R.TU_PTP_CFG_MEASURE_EN n) = 0 → exec (.ptpDelayReqTimer n tm) s = .next u) ∧
    (s.servo n = 2 ∨ s.servo n = 3 →
      let b := if n = 0 then R.TU_INT_STATUS_A_NO_PARENT else R.TU_INT_STATUS_B_NO_PARENT
      Turns (.ptpNoParentTimeout n) s [R.TU_SERVO_STATE_STATE n, b] (s.setInst n { s.inst n with run := 0 }) (fun t =>
        t.servo n = 4 ∧ bit (t.fld b) 0 = 1)) ∧
    (s.servo n ≠ 2 → s.servo n ≠ 3 → exec (.ptpNoParentTimeout n) s = .next s) ∧
    (HostReaches s (0x140C0140 + 256 * n) → ∀ x : Nat, s.instNs n tm = (x : Int) →
      HostSets (.tuTimeLatchWrite n tm) s [R.TU_TIME_SEC_HI_SEC n, R.TU_TIME_SEC_LO_SEC n, R.TU_TIME_NS_NS n] u (fun t =>
        t.fld (R.TU_TIME_SEC_HI_SEC n) = x / 1000000000 / 2 ^ 32 % 2 ^ 16 ∧ t.fld (R.TU_TIME_SEC_LO_SEC n) = x / 1000000000 % 2 ^ 32 ∧
        t.fld (R.TU_TIME_NS_NS n) = x % 1000000000))) ∧
  (∀ (s : State) (n tm : Nat), n < 8 →
    let u := s.seeTime tm
    (∀ e : Int, Tbl.find n s.tu.outs = some e →
      (e ≤ s.instNs (s.inForce (R.TU_OUT_CTRL_INST n)) tm + 2 → Gives (.tuOutEdge n tm) s (fun t =>
        t.sent = .tuPulse n e (s.inForce (R.TU_OUT_WIDTH_NS n)) (decide (s.inForce (R.TU_OUT_CTRL_POL n) = 1)) :: s.sent ∧
        Tbl.find n t.tu.outs = (if s.inForce (R.TU_OUT_PERIOD_NS n) = 0 then none else some (e + s.inForce (R.TU_OUT_PERIOD_NS n))) ∧
        (∀ k, k ≠ n → Tbl.find k t.tu.outs = Tbl.find k s.tu.outs) ∧ SameBut [] { u with tu := { u.tu with outs := t.tu.outs } } t)) ∧
      (s.instNs (s.inForce (R.TU_OUT_CTRL_INST n)) tm + 2 < e → exec (.tuOutEdge n tm) s = .next u)) ∧
    (Tbl.find n s.tu.outs = none → exec (.tuOutEdge n tm) s = .next u)) ∧
  (∀ (s : State) (n tm : Nat) (fall : Bool), n < 4 →
    let u := s.seeTime tm
    let soon := ∃ t0, Tbl.find n s.tu.capLast = some t0 ∧ tm < t0 + 100
    let on := s.fld (R.TU_CAP_CFG_ENABLE n) = 1 ∧ bit (s.fld (R.TU_CAP_CFG_EDGE n)) (flag fall) = 1
    (on → ¬ soon → (s.capQ n).length < 16 → Gives (.tuCapEdge n fall tm) s (fun t =>
      t.capQ n = s.capQ n ++ [(s.instNs (s.fld (R.TU_CAP_CFG_INST n)) tm, fall)] ∧ (∀ k, k ≠ n → t.capQ k = s.capQ k) ∧
      Tbl.find n t.tu.capLast = some tm ∧ bit (t.fld R.TU_INT_STATUS_CAP) n = 1 ∧
      SameBut [R.TU_INT_STATUS_CAP] { u with tu := { u.tu with caps := t.tu.caps, capLast := t.tu.capLast } } t)) ∧
    (on → soon ∨ 16 ≤ (s.capQ n).length → Turns (.tuCapEdge n fall tm) s [R.TU_CAP_OVF_COUNT n, R.TU_INT_STATUS_CAP_OVF] u (fun t =>
      t.fld (R.TU_CAP_OVF_COUNT n) = min (s.fld (R.TU_CAP_OVF_COUNT n) + 1) (2 ^ 32 - 1) ∧ bit (t.fld R.TU_INT_STATUS_CAP_OVF) n = 1)) ∧
    (¬ on → exec (.tuCapEdge n fall tm) s = .next u)) ∧
  (∀ (s : State) (m n : Nat), n < 4 → Reaches s m (0x140C060C + 32 * n) →
    Turns (.tuCapNsRead m n) s [R.XB_OUTSTANDING_PEAK m] { s with tu := { s.tu with caps := (s.capPop n).tu.caps } } (fun t =>
      t.capQ n = (s.capQ n).drop 1 ∧ (∀ k, k ≠ n → t.capQ k = s.capQ k) ∧
      t.sent = .response m (.data (leBytes 4 (match s.capQ n with | [] => 0 | e :: _ => (e.1 % 1000000000).toNat))) :: s.sent))

/-! ### Clave and the PLLs -/

/-- R302, R303, R304, R307, R310, R301, R305, R308, R311. A gate writes the temperature and what it measured of each slot that lost no
signal in it, disqualifies a slot beyond its hard threshold, marks one beyond its soft threshold, brings one back after three clear 1 s
gates and counts its wait; a 100 ms gate moves the output frequency, by 10 ppm per second at most; a gate in progress when the base
changed measures nothing. A selection that was decided takes effect at the next boundary, with no step of the output frequency, and
without one Clave is in HOLDOVER or FREERUN; a slot loses its signal or ends its wait; Clave locks and ends its slew; CLV_MODE and
CLV_REF_SET reach the registers or are discarded. -/
def Obligations.ClaveReferences : Prop :=
  (∀ (s : State) (long : Bool) (fs : List (Option Int)) (temp xo : Int),
    let due := s.blk.index % max 1 (if long then s.blocksPerSecond else s.blocksPerSecond / 10) = 0
    let out := ofCodeS 32 (s.fld R.CLV_OUT_FREQ_FREQ)
    let clear := fun (x : Int) (ppb : Nat) => 4 * x.natAbs ≤ 3 * 256 * ppb
    (s.cfg.isSome = true → due → Gives (.clvGateEnd long fs temp xo) s (fun t => t.fld R.CLV_TEMP_T = codeS 16 temp ∧
      (long = true → s.fld R.CLV_STATE_BASE_XO = 0 ∨ s.clv.measuring = true → t.fld R.CLV_XO_FREQ_FREQ = codeS 32 xo) ∧
      (long = true → s.fld R.CLV_STATE_STATE = 3 → t.fld R.CLV_HOLD_SECONDS_S = min (s.fld R.CLV_HOLD_SECONDS_S + 1) (2 ^ 32 - 1)) ∧
      (long = true → t.fld R.CLV_OUT_FREQ_FREQ = s.fld R.CLV_OUT_FREQ_FREQ) ∧
      (long = false → s.fld R.CLV_STATE_STATE = 0 → ∀ n ∈ [1, 2], t.fld R.CLV_OUT_FREQ_FREQ =
        codeS 32 (out + max (-256000) (min 256000 (-out))) ∧ t.fld (R.PLL_FRAC_FREQ n) = t.fld R.CLV_OUT_FREQ_FREQ) ∧
      (∀ n < 16, ∀ x, s.refState n ≠ 0 → fs.getD n none = some x → (if long then s.clv.skipLong else s.clv.skipShort) = false →
        (if long then (s.clvSlot n).losLong else (s.clvSlot n).losShort) = false → s.refDead n = false →
        t.fld (if long then R.CLV_REF_FREQ_1S_F n else R.CLV_REF_FREQ_100MS_F n) = codeS 32 x ∧
        ((s.refState n = 3 ∨ s.refState n = 4) → 256 * s.fld (R.CLV_REF_THRESH_HARD_PPB n) < x.natAbs → t.refState n = 2 ∧
          t.fld (R.CLV_REF_HIST_HARD n) = 1) ∧
        (long = true → 256 * s.fld (R.CLV_REF_THRESH_SOFT_PPB n) < x.natAbs → t.fld (R.CLV_REF_STATE_SOFT n) = 1) ∧
        (long = true → s.refState n = 1 ∨ s.refState n = 2 → clear x (s.fld (R.CLV_REF_THRESH_HARD_PPB n)) →
          if 2 ≤ (s.clvSlot n).clear then t.refState n = (if s.refState n = 1 ∧ (s.clvSlot n).qualified = false then 4 else 3)
          else t.refState n = s.refState n ∧ (t.clvSlot n).clear = (s.clvSlot n).clear + 1)) ∧
      (∀ n < 16, long = true → s.refState n = 3 → t.refState n = 3 →
        t.fld (R.CLV_REF_STATE_WTR_LEFT n) = (s.fld (R.CLV_REF_STATE_WTR_LEFT n) - 1) % 2 ^ 12) ∧
      ((if long then s.clv.skipLong else s.clv.skipShort) = true → ∀ n < 16, t.refState n = s.refState n ∧
        t.fld (if long then R.CLV_REF_FREQ_1S_F n else R.CLV_REF_FREQ_100MS_F n) =
          s.fld (if long then R.CLV_REF_FREQ_1S_F n else R.CLV_REF_FREQ_100MS_F n)))) ∧
    (s.cfg = none ∨ ¬ due → exec (.clvGateEnd long fs temp xo) s = .next s)) ∧
  ((∀ (s : State) (w : Option Nat) (at0 : Nat) (phi : Int), s.clv.want = some (w, at0) →
    (at0 < s.blk.seq → Gives (.clvSwitch phi) s (fun t => t.clv.want = none ∧ t.fld R.CLV_OUT_FREQ_FREQ = s.fld R.CLV_OUT_FREQ_FREQ ∧
      (w = none → t.fld R.CLV_STATE_SELECTED = 0x1F ∧ t.fld R.CLV_STATE_SLEWING = 0 ∧
        t.fld R.CLV_ABSORB_NS_NS = s.fld R.CLV_ABSORB_NS_NS ∧
        t.fld R.CLV_STATE_STATE = (if s.fld R.CLV_STATE_HIST_VALID = 1 ∨ s.clvMode = 2 then 3 else 0)) ∧
      (∀ n < 16, w = some n → t.fld R.CLV_STATE_SELECTED = n ∧ t.fld R.CLV_STATE_STATE = 1 ∧ t.fld (R.CLV_REF_HIST_SELECTED n) = 1 ∧
        bit (t.fld R.CLV_INT_STATUS_SELECT) 0 = 1 ∧
        t.fld R.CLV_ABSORB_NS_NS = codeS 32 (satS 32 (ofCodeS 32 (s.fld R.CLV_ABSORB_NS_NS) + reducePhase phi (s.refPeriod n))) ∧
        t.fld R.CLV_STATE_SLEWING = flag (decide (s.fld R.CLV_CTRL_PHASE_HOLD = 0 ∧
          ofCodeS 32 (s.fld R.CLV_ABSORB_NS_NS) + reducePhase phi (s.refPeriod n) ≠ 0)) ∧
        (s.fld (R.CLV_REF_CFG_TYPE n) = 1 → s.fld (R.CLV_REF_CFG_INDEX n) < 2 →
          t.fld R.TU_CTRL_SYS_INST = s.fld (R.CLV_REF_CFG_INDEX n))))) ∧
    (s.blk.seq ≤ at0 → exec (.clvSwitch phi) s = .next s)) ∧
  (∀ (s : State) (phi : Int), s.clv.want = none → exec (.clvSwitch phi) s = .next s) ∧
  (∀ (s : State) (n : Nat), n < 16 →
    (1 ≤ s.refState n → s.refLost n = true → Gives (.clvRefLos n) s (fun t => t.refState n = 1 ∧
      (t.clvSlot n).losShort = true ∧ (t.clvSlot n).losLong = true ∧ (t.clvSlot n).clear = 0 ∧
      (s.refState n ≠ 1 → t.fld (R.CLV_REF_HIST_LOS n) = 1) ∧ (s.refState n = 4 →
        t.fld (R.CLV_REF_LOSS_COUNT_COUNT n) = min (s.fld (R.CLV_REF_LOSS_COUNT_COUNT n) + 1) (2 ^ 32 - 1)))) ∧
    (s.refState n = 0 ∨ s.refLost n = false → exec (.clvRefLos n) s = .next s) ∧
    (s.refState n = 3 → s.fld (R.CLV_REF_STATE_WTR_LEFT n) = 0 → Gives (.clvWtrExpiry n) s (fun t => t.refState n = 4 ∧
      t.fld (R.CLV_REF_HIST_QUALIFIED n) = 1 ∧ (t.clvSlot n).qualified = true)) ∧
    (s.refState n ≠ 3 ∨ s.fld (R.CLV_REF_STATE_WTR_LEFT n) ≠ 0 → exec (.clvWtrExpiry n) s = .next s)) ∧
  (∀ s : State,
    (s.fld R.CLV_STATE_STATE = 1 → Turns .clvLock s [R.CLV_STATE_STATE, R.CLV_STATE_HIST_FROZEN, R.CLV_INT_STATUS_LOCKED] s (fun t =>
      t.fld R.CLV_STATE_STATE = 2 ∧ bit (t.fld R.CLV_INT_STATUS_LOCKED) 0 = 1 ∧
      (∀ n < 16, s.fld R.CLV_STATE_SELECTED = n → s.fld (R.CLV_REF_STATE_SOFT n) = 0 → t.fld R.CLV_STATE_HIST_FROZEN = 0))) ∧
    (s.fld R.CLV_STATE_STATE ≠ 1 → exec .clvLock s = .next s) ∧
    (s.fld R.CLV_STATE_SLEWING = 1 → Turns .clvSlewDone s [R.CLV_ABSORB_NS_NS, R.CLV_STATE_SLEWING, R.CLV_INT_STATUS_SLEW_DONE]
      { s with clv := { s.clv with slewed := 0 } } (fun t =>
      t.fld R.CLV_ABSORB_NS_NS = 0 ∧ t.fld R.CLV_STATE_SLEWING = 0 ∧ bit (t.fld R.CLV_INT_STATUS_SLEW_DONE) 0 = 1)) ∧
    (s.fld R.CLV_STATE_SLEWING ≠ 1 → exec .clvSlewDone s = .next s)) ∧
  (∀ (s : State) (mode slot phase enable rank wtr : Nat),
    let reject := fun i : Instr => Turns i s [R.CLV_CMD_REJECT_COUNT] s (fun t =>
      t.fld R.CLV_CMD_REJECT_COUNT = min (s.fld R.CLV_CMD_REJECT_COUNT + 1) (2 ^ 32 - 1))
    let okM := mode ≤ 2 ∧ slot ≤ 15 ∧ (phase ≤ 1 ∨ phase = 0xFF) ∧ s.fld (R.CLV_REF_CFG_TYPE slot) ≠ 0
    let okR := slot ≤ 15 ∧ s.fld (R.CLV_REF_CFG_TYPE slot) ≠ 0 ∧ (enable ≤ 1 ∨ enable = 0xFF) ∧ (rank ≤ 15 ∨ rank = 0xFF) ∧
      (wtr ≤ 3600 ∨ wtr = 0xFFFF)
    let en := if enable = 0xFF then s.fld (R.CLV_REF_CTRL_ENABLE slot) else enable
    (okM → Turns (.clvMode mode slot phase) s [R.CLV_CTRL_MODE, R.CLV_CTRL_NONREVERT, R.CLV_CTRL_PHASE_HOLD, R.CLV_CTRL_FORCE_SLOT,
      R.CLV_STATE_MODE, R.CLV_STATE_SLEWING] s (fun t => t.fld R.CLV_CTRL_MODE = mode ∧ t.fld R.CLV_STATE_MODE = mode ∧
        t.fld R.CLV_CTRL_FORCE_SLOT = slot ∧ t.fld R.CLV_CTRL_NONREVERT = s.fld R.CLV_CTRL_NONREVERT % 2 ∧
        t.fld R.CLV_CTRL_PHASE_HOLD = (if phase = 0xFF then s.fld R.CLV_CTRL_PHASE_HOLD % 2 else phase) ∧
        t.fld R.CLV_STATE_SLEWING = (if phase = 0xFF ∨ phase = s.fld R.CLV_CTRL_PHASE_HOLD then s.fld R.CLV_STATE_SLEWING
          else flag (decide (phase = 0 ∧ s.fld R.CLV_ABSORB_NS_NS ≠ 0 ∧ s.fld R.CLV_STATE_SELECTED < 16))))) ∧
    (¬ okM → reject (.clvMode mode slot phase)) ∧
    (okR → Gives (.clvRefSet slot enable rank wtr) s (fun t => t.fld (R.CLV_REF_CTRL_ENABLE slot) = en % 2 ∧
      t.fld (R.CLV_REF_CTRL_RANK slot) = (if rank = 0xFF then s.fld (R.CLV_REF_CTRL_RANK slot) else rank) % 16 ∧
      t.fld (R.CLV_REF_CTRL_WTR_S slot) = (if wtr = 0xFFFF then s.fld (R.CLV_REF_CTRL_WTR_S slot) else wtr) % 2 ^ 12 ∧
      t.refState slot = (if en = 0 then 0 else if s.refState slot = 0 then 1 else s.refState slot) ∧
      (s.refState slot = 3 → en ≠ 0 → wtr ≤ 3600 → wtr ≠ s.wtr slot → t.fld (R.CLV_REF_STATE_WTR_LEFT slot) = wtr) ∧
      (∀ n < 16, n ≠ slot → t.refState n = s.refState n))) ∧
    (¬ okR → reject (.clvRefSet slot enable rank wtr))))

/-- R310, R313, R317, R14, R315, R316, R318, R399, R400. The base clock falls to the crystal with every frequency rebased and the gates
in progress discarded, and returns after its measurement; a word clock takes an alignment edge, and without its input keeps its phase. A
PLL that loses lock searches: PLL_01 and PLL_02 go to bypass, PLL_00 to the fallback oscillator with a cause of LIMP, and PLL_03 leaves
the time unit on the crystal; what the relock brings back, 100 ms later after a loss in LOAD or TEST; a phase step of a master clock. -/
def Obligations.BaseClockWordClocksAndPlls : Prop :=
  ((∀ s : State,
    let f := fun (t : State) (g : Fld) => ofCodeS 32 (t.fld g)
    let moved := fun (t : State) (d : Int) => ∀ g ∈ [R.CLV_OUT_FREQ_FREQ, R.CLV_HOLD_FREQ_FREQ, R.PLL_FRAC_FREQ 1, R.PLL_FRAC_FREQ 2] ++
      (List.range 16).flatMap (fun n => [R.CLV_REF_FREQ_1S_F n, R.CLV_REF_FREQ_100MS_F n]), f t g = wrapS 32 (f s g + d)
    (s.fld R.CLV_STATE_BASE_XO = 0 → Gives .loInLost s (fun t => t.fld R.CLV_STATE_BASE_XO = 1 ∧ moved t (-(f s R.CLV_XO_FREQ_FREQ)) ∧
      t.clv.skipShort = true ∧ t.clv.skipLong = true ∧
      bit (t.fld R.CLV_INT_STATUS_LO_LOST) 0 = 1)) ∧
    (s.fld R.CLV_STATE_BASE_XO ≠ 0 → exec .loInLost s = .next { s with clv := { s.clv with measuring := false } }) ∧
    (∀ c, s.cfg = some c → c.clock.loHz ≠ 0 → s.fld R.CLV_STATE_BASE_XO = 1 →
      exec .loInReturn s = .next { s with clv := { s.clv with measuring := true } }) ∧
    (s.fld R.CLV_STATE_BASE_XO ≠ 1 ∨ s.cfg = none ∨ (∃ c, s.cfg = some c ∧ c.clock.loHz = 0) → exec .loInReturn s = .next s) ∧
    (s.fld R.CLV_STATE_BASE_XO = 1 → s.clv.measuring = true → Gives .loInRestore s (fun t => t.fld R.CLV_STATE_BASE_XO = 0 ∧
      moved t (f s R.CLV_XO_FREQ_FREQ) ∧ t.clv.measuring = false ∧ t.clv.skipShort = true ∧ t.clv.skipLong = true)) ∧
    (s.clv.measuring = false ∨ s.fld R.CLV_STATE_BASE_XO ≠ 1 → exec .loInRestore s = .next s)) ∧
  (∀ (s : State) (n : Nat), n < 4 → s.inForce (R.CLV_WC_CFG_ENABLE n) = 1 →
    (∀ e : Int, let half : Nat := if s.inForce (R.CLV_WC_CFG_DOMAIN_B n) = 1 then 1730 else 1589
      Turns (.wclkAlignEdge n (some e)) s [R.CLV_WC_ERR_NS_NS n, R.CLV_WC_STATE_ALIGN_STATE n] s (fun t =>
        t.fld (R.CLV_WC_ERR_NS_NS n) = codeS 32 (roundDiv e 1000) ∧
        (10 * e.natAbs ≤ half → t.fld (R.CLV_WC_STATE_ALIGN_STATE n) = 2 ∧ t.sent = s.sent) ∧
        (half < 10 * e.natAbs → t.fld (R.CLV_WC_STATE_ALIGN_STATE n) = 1 ∧ t.sent = .wcStep n (decide (e < 0)) :: s.sent))) ∧
    (s.inForce (R.CLV_WC_CFG_ALIGN n) ≠ 0 → Turns (.wclkInputMissed n) s [R.CLV_WC_STATE_ALIGN_STATE n] s (fun t =>
      t.fld (R.CLV_WC_STATE_ALIGN_STATE n) = 3)) ∧
    (s.inForce (R.CLV_WC_CFG_ALIGN n) = 0 → exec (.wclkInputMissed n) s = .next s))) ∧
  ((∀ (s : State) (n : Nat), n ≤ 3 → s.fld (R.PLL_STATUS_LOCKED n) = 1 →
    let lol := fun t : State => t.fld (R.PLL_STATUS_LOCKED n) = 0 ∧ t.fld (R.PLL_STATUS_SEARCHING n) = 1 ∧
      t.fld (R.PLL_LOL_COUNT_COUNT n) = min (s.fld (R.PLL_LOL_COUNT_COUNT n) + 1) (2 ^ 32 - 1) ∧ bit (t.fld R.PLL_INT_STATUS_LOL) n = 1
    (n = 0 → Gives (.pllLossOfLock n) s (fun t => lol t ∧ t.fld (R.PLL_STATUS_FALLBACK 0) = 1 ∧
      (∀ i < 26, 0 < i → s.islandOn i = true → t.fld (R.SYS_ISLAND_CLK_SRC i) = 1) ∧
      (s.mode = .shadow ∨ s.mode = .live ∨ s.mode = .limp → bit t.limpCauses causeClock = 1) ∧
      (s.mode = .load ∨ s.mode = .test → t.pmu.lost = true ∧ t.limpCauses = s.limpCauses))) ∧
    (n = 1 ∨ n = 2 → Turns (.pllLossOfLock n) s [R.PLL_STATUS_LOCKED n, R.PLL_STATUS_SEARCHING n, R.PLL_STATUS_BYPASS n,
      R.PLL_LOL_COUNT_COUNT n, R.PLL_INT_STATUS_LOL, R.PLL_INT_STATUS_BYPASS] s (fun t => lol t ∧ t.fld (R.PLL_STATUS_BYPASS n) = 1 ∧
        bit (t.fld R.PLL_INT_STATUS_BYPASS) n = 1)) ∧
    (n = 3 → Turns (.pllLossOfLock n) s [R.PLL_STATUS_LOCKED n, R.PLL_STATUS_SEARCHING n, R.PLL_LOL_COUNT_COUNT n, R.PLL_INT_STATUS_LOL]
      { s with tu := { s.tu with crystal := true } } lol)) ∧
  (∀ (s : State) (n : Nat), n ≤ 3 → s.fld (R.PLL_STATUS_LOCKED n) = 0 → exec (.pllLossOfLock n) s = .next s) ∧
  (∀ (s : State) (n us band : Nat), n ≤ 3 → us < 256 → band < 64 →
    (s.fld (R.PLL_STATUS_SEARCHING n) = 1 → Gives (.pllLocked n us band) s (fun t => t.fld (R.PLL_STATUS_LOCKED n) = 1 ∧
      t.fld (R.PLL_STATUS_SEARCHING n) = 0 ∧ t.fld (R.PLL_STATUS_BAND n) = band ∧ t.fld (R.PLL_RELOCK_US_US n) = us ∧
      bit (t.fld R.PLL_INT_STATUS_LOCK) n = 1 ∧
      (n = 0 → s.mode = .sentry → s.fld R.SYS_BOOT_STATUS_STAGE = 1 → t.fld R.SYS_BOOT_STATUS_STAGE = 2) ∧
      (s.pmu.lost = true ∨ bit s.limpCauses causeClock = 1 ∨ s.mode = .limp → t.fld (R.PLL_STATUS_FALLBACK 0) = s.fld (R.PLL_STATUS_FALLBACK 0)) ∧
      (n = 0 → s.mode ≠ .sentry → s.mode ≠ .limp → s.pmu.lost = false → bit s.limpCauses causeClock = 0 → s.fld (R.PLL_STATUS_FALLBACK 0) = 1 →
        t.fld (R.PLL_STATUS_FALLBACK 0) = 0 ∧ ∀ i < 26, 0 < i → s.islandOn i = true → t.fld (R.SYS_ISLAND_CLK_SRC i) = 0))) ∧
    (s.fld (R.PLL_STATUS_SEARCHING n) = 0 → exec (.pllLocked n us band) s = .next s)) ∧
  (∀ (s : State) (n : Nat), n = 1 ∨ n = 2 →
    (s.fld (R.PLL_STATUS_LOCKED n) = 1 → Turns (.pllBypassExit n) s [R.PLL_STATUS_BYPASS n] s (fun t => t.fld (R.PLL_STATUS_BYPASS n) = 0)) ∧
    (s.fld (R.PLL_STATUS_LOCKED n) ≠ 1 → exec (.pllBypassExit n) s = .next s) ∧
    (∀ v : Word, HostReaches s (0x140E0030 + 256 * n) → exec (.pllPhaseStepWrite n v) s = .next (s.answered 0 .ok
      (if v.toNat % 256 = 0 then s.touch 0 else (s.touch 0).emit (.mclkStep n (v.toNat % 256) (decide (bit v.toNat 31 = 1))))))) ∧
  (∀ s : State,
    (s.fld (R.PLL_STATUS_LOCKED 0) = 1 → s.pmu.lost = true → s.mode ≠ .limp → Gives .fallbackReturnTimer s (fun t =>
      t.fld (R.PLL_STATUS_FALLBACK 0) = 0 ∧ t.pmu.lost = false ∧ ∀ i < 26, 0 < i → s.islandOn i = true → t.fld (R.SYS_ISLAND_CLK_SRC i) = 0)) ∧
    (s.fld (R.PLL_STATUS_LOCKED 0) ≠ 1 ∨ s.pmu.lost = false ∨ s.mode = .limp → exec .fallbackReturnTimer s = .next s)) ∧
  (∀ s : State,
    (s.fld (R.PLL_STATUS_LOCKED 3) = 1 → exec .pll03Return s = .next { s with tu := { s.tu with crystal := false } }) ∧
    (s.fld (R.PLL_STATUS_LOCKED 3) ≠ 1 → exec .pll03Return s = .next s)))

/-! ### Beater -/

/-- R331, R336, R338, R339, R326, R327, R329, R330, R333, R334, R348. Beater's commands act on every channel of their range, which the
live plane must define, or are discarded and counted, at the boundary of its halves, and are held for the next one where these have
formed their state (commands given as rows, notes/assumptions/12); a diagnostic starts only where the outputs are to be driven or, on
request, in TEST; a write of BEAT_CTRL is held for the boundary; BEAT_COUNT_CLEAR clears the counts. What happens to a channel once the
state of its boundary is formed: a diagnostic ends, trips accumulate to a fault, its sense or its rail faults, it retries, ends its pre-
roll or its ramp, loses or regains presence, relocks. On a chip that takes CONTROL BEAT from its peer only trips are counted and
presence is shown. -/
def Obligations.BeaterCommandsAndEvents : Prop :=
  ((∀ (s : State) (first count mute ramp enable : Nat),
    let inRange := 1 ≤ count ∧ first + count ≤ 32 ∧ ∀ j < count, s.bdefined (first + j) = true
    let each := fun (f : Nat → Fld) => (List.range count).map (fun j => f (first + j))
    let reject := fun i : Instr => Turns i s [R.BEAT_CMD_REJECT_COUNT, R.BEAT_INT_STATUS_CMD_REJECT] s (fun t =>
      t.fld R.BEAT_CMD_REJECT_COUNT = min (s.fld R.BEAT_CMD_REJECT_COUNT + 1) (2 ^ 32 - 1) ∧ bit (t.fld R.BEAT_INT_STATUS_CMD_REJECT) 0 = 1)
    let held := fun (i : Instr) (c : Cmd) => s.beatOpen c = false → Gives i s (fun t => (∃ h, t.held = s.held ++ [h] ∧ h.eng = .beat ∧ h.cmd = c) ∧
      t = { s with held := t.held, heldNext := s.heldNext + 1 })
    held (.beatMute first count mute ramp) (.beatMute first count mute ramp) ∧
    held (.beatEnable first count enable) (.beatEnable first count enable) ∧
    held (.beatDiag first count) (.beatDiag first count) ∧ held (.beatClear first count) (.beatClear first count) ∧
    (s.beatOpen (.beatMute first count mute ramp) = true → inRange → mute ≤ 1 → ramp ≤ 1023 → Turns (.beatMute first count mute ramp) s
      (each R.BEAT_CTRL_MUTE ++ if ramp = 0 then [] else each R.BEAT_CTRL_RAMP) s (fun t => ∀ j < count,
        t.fld (R.BEAT_CTRL_MUTE (first + j)) = mute ∧ (ramp ≠ 0 → t.fld (R.BEAT_CTRL_RAMP (first + j)) = ramp))) ∧
    (s.beatOpen (.beatMute first count mute ramp) = true → ¬ inRange ∨ 1 < mute ∨ 1023 < ramp → reject (.beatMute first count mute ramp)) ∧
    (s.beatOpen (.beatEnable first count enable) = true → inRange → enable ≤ 1 → Turns (.beatEnable first count enable) s (each R.BEAT_CTRL_ENABLE) s (fun t => ∀ j < count,
      t.fld (R.BEAT_CTRL_ENABLE (first + j)) = enable)) ∧
    (s.beatOpen (.beatEnable first count enable) = true → ¬ inRange ∨ 1 < enable → reject (.beatEnable first count enable)) ∧
    (s.beatOpen (.beatDiag first count) = true → inRange → Gives (.beatDiag first count) s (fun t => ∀ j < count,
      let starts := s.bstate (first + j) = btStopped ∧ s.beatOwn = true ∧ (s.outputsLive = true ∨ s.mode = .test)
      t.bstate (first + j) = (if starts then btDiag else s.bstate (first + j)) ∧ (starts → (t.bchan (first + j)).onRequest = true) ∧
      (¬ starts → t.bchan (first + j) = s.bchan (first + j)))) ∧
    (s.beatOpen (.beatDiag first count) = true → ¬ inRange → reject (.beatDiag first count)) ∧
    (s.beatOpen (.beatClear first count) = true → inRange → Gives (.beatClear first count) s (fun t => ∀ j < count,
      let down := s.bstate (first + j) = btFault ∨ s.bstate (first + j) = btLatched
      t.bstate (first + j) = (if down ∧ s.beatOwn = true ∧ s.outputsLive = true then btDiag else s.bstate (first + j)) ∧
      (t.brail ((first + j) / 4)).fault = false ∧
      (down → t.fld (R.BEAT_STATUS_FAILS (first + j)) = 0 ∧ (t.bchan (first + j)).faults = []))) ∧
    (s.beatOpen (.beatClear first count) = true → ¬ inRange → reject (.beatClear first count))) ∧
  (∀ (s : State) (n : Nat) (v : Word), n < 32 → HostReaches s (0x14301000 + 64 * n) →
    (s.bdefined n = true → Gives (.beatCtrlWrite n v) s (fun t => t.held.length = s.held.length + 1 ∧
      (∃ h ∈ t.held, h.eng = .beat ∧ h.cmd = .regWrite (0x14301000 + 64 * n) v ∧ h.stamp = none) ∧
      t.fld (R.BEAT_CTRL_ENABLE n) = s.fld (R.BEAT_CTRL_ENABLE n) ∧ .response 0 .ok ∈ t.sent)) ∧
    (s.bdefined n = false → exec (.beatCtrlWrite n v) s = .next (s.answered 0 .ok (s.touch 0)))) ∧
  (∀ s : State, HostReaches s 0x14300010 → HostSets .beatCountClear s beatCounts s (fun t => ∀ f ∈ beatCounts, t.fld f = 0))) ∧
  (∀ (s : State) (n : Nat) (r : BeatChanRec), n < 32 → (s.bchan n).fmt = some r →
    (∀ half < 2, Tbl.get s.beat.settled half 0 = (Tbl.get s.blk.arrived (22 + half) (0, 0)).2) →
    let x := s.bchan n
    let fails := min 15 ((s.blk.seq :: x.faults).filter (fun f => decide (s.blk.seq < f + 60 * s.blocksPerSecond))).length
    let latch := 3 ≤ fails ∨ r.retryS = 0
    let faulted := fun (cls : Nat) (t : State) => t.bstate n = (if latch then btLatched else btFault) ∧ t.fld (R.BEAT_STATUS_CLASS n) = cls ∧
      t.fld (R.BEAT_STATUS_FAILS n) = fails ∧ t.fld (R.BEAT_FAULT_BLK_BLK n) = s.blk.index % 2 ^ 32 ∧
      t.fld (R.BEAT_FAULT_COUNT_COUNT n) = min (s.fld (R.BEAT_FAULT_COUNT_COUNT n) + 1) (2 ^ 32 - 1) ∧ t.fld (R.BEAT_LEVEL_LEVEL n) = 0 ∧
      (t.bchan n).level = 0 ∧ bit (t.fld (if latch then R.BEAT_INT_STATUS_LATCHED else R.BEAT_INT_STATUS_FAULT)) 0 = 1
    let toDiag := fun t : State => t.bstate n = btDiag ∧ (t.bchan n).level = 0 ∧ (t.bchan n).onRequest = false ∧ (t.bchan n).trips = []
    let trips := fun k => (true :: (List.replicate (min 16 k) false ++ x.trips)).take 16
    let eight := fun k => 8 ≤ ((trips k).filter (fun b => b)).length
    let tripped := fun t : State => t.fld (R.BEAT_TRIP_COUNT_COUNT n) = min (s.fld (R.BEAT_TRIP_COUNT_COUNT n) + 1) (2 ^ 32 - 1)
    let switching := beatSwitching (s.bstate n) = true
    let p := if r.presEn then bit (s.fld R.TAP_PRES_PRESENT) r.pres else 1
    (s.beatOwn = true →
      (∀ (vc pk : Nat) (code : Option Nat), s.bstate n = btDiag →
        let d := diagResult r vc code pk
        Gives (.beatDiagDone n vc code pk) s (fun t => t.fld (R.BEAT_DIAG_RESULT n) = d.1 ∧
          (∀ z, d.2 = some z → t.fld (R.BEAT_DIAG_Z n) = min z 65535) ∧ bit (t.fld R.BEAT_INT_STATUS_DIAG_DONE) 0 = 1 ∧
          (x.onRequest = true → t.bstate n = btStopped) ∧
          (x.onRequest = false → d.1 = 0 → t.bstate n = btPreroll ∧ t.fld (R.BEAT_STATUS_CLASS n) = 0) ∧
          (x.onRequest = false → d.1 ≠ 0 → faulted d.1 t))) ∧
      (∀ k vc vd ref : Nat,
        (s.bstate n = btDiag → Gives (.beatCurrentTrip n k vc vd ref) s (fun t => t.fld (R.BEAT_DIAG_RESULT n) = 3 ∧ tripped t ∧
          (if x.onRequest = true then t.bstate n = btStopped else faulted 3 t))) ∧
        (switching →
          (¬ eight k → Turns (.beatCurrentTrip n k vc vd ref) s [R.BEAT_TRIP_COUNT_COUNT n] (s.setBchan n { x with trips := trips k }) tripped) ∧
          (eight k → Gives (.beatCurrentTrip n k vc vd ref) s (fun t => tripped t ∧ faulted (tripClass vc vd ref) t)))) ∧
      (switching → Gives (.beatSenseFault n) s (faulted 6)) ∧
      ((s.brail (n / 4)).fmt.isSome = true → (s.brail (n / 4)).on = true → Gives (.beatRailFault (n / 4)) s (fun t =>
        t.fld (R.BEAT_RAIL_STATUS_STATE (n / 4)) = 5 ∧ t.fld (R.BEAT_RAIL_TARGET_COMMANDED (n / 4)) = 0 ∧ (t.brail (n / 4)).on = false ∧
        (t.brail (n / 4)).fault = true ∧ bit (t.fld R.BEAT_INT_STATUS_RAIL_FAULT) 0 = 1 ∧
        (beatCounted (s.bstate n) = true → faulted 7 t) ∧ (beatCounted (s.bstate n) = false → t.bstate n = s.bstate n))) ∧
      (s.bstate n = btFault → s.bpresent n = true → (s.brail (n / 4)).fault = false → s.outputsLive = true →
        r.retryS * s.blocksPerSecond ≤ s.blk.seq - x.faults.headD 0 → Gives (.beatRetry n) s toDiag) ∧
      (s.bstate n = btPreroll → Gives (.beatPrerollDone n) s (fun t => t.bstate n = btRunning ∧ (t.bchan n).level = 0)) ∧
      (s.bstate n = btStopping → x.idling = true → Gives (.beatPrerollDone n) s (fun t => t.bstate n = btStopped ∧
        (t.bchan n).idling = false)) ∧
      (x.level = 0 → x.losing = true → s.bstate n = btRunning ∨ s.bstate n = btStopping → Gives (.beatRampDone n) s (fun t =>
        t.bstate n = btUnplugged ∧ (t.bchan n).losing = false ∧ bit (t.fld R.BEAT_INT_STATUS_PRESENCE) 0 = 1)) ∧
      (x.level = 0 → x.losing = false → s.bstate n = btStopping → exec (.beatRampDone n) s = .next (s.setBchan n { x with idling := true }))) ∧
    (switching → Turns (.beatGridRelock n) s [R.BEAT_STATUS_GRID_LOCK n] s (fun t => t.fld (R.BEAT_STATUS_GRID_LOCK n) = 1)) ∧
    (¬ switching → exec (.beatSenseFault n) s = .next s ∧ exec (.beatGridRelock n) s = .next s ∧
      (s.bstate n ≠ btDiag → ∀ k vc vd ref : Nat, exec (.beatCurrentTrip n k vc vd ref) s = .next s)) ∧
    (x.level ≠ 0 → exec (.beatRampDone n) s = .next s) ∧
    (s.bstate n ≠ btFault ∨ s.bpresent n = false ∨ (s.brail (n / 4)).fault = true ∨ s.outputsLive = false → exec (.beatRetry n) s = .next s) ∧
    (s.beatOwn = false →
      (∀ k vc vd ref : Nat, switching → Turns (.beatCurrentTrip n k vc vd ref) s [R.BEAT_TRIP_COUNT_COUNT n] s tripped) ∧
      (∀ i ∈ [Instr.beatDiagDone n 0 none 0, .beatSenseFault n, .beatRailFault (n / 4), .beatRetry n, .beatPrerollDone n, .beatRampDone n],
        exec i s = .next s)) ∧
    ((p = s.fld (R.BEAT_STATUS_PRESENT n) → exec (.beatPresenceChange n) s = .next s) ∧
      (p ≠ s.fld (R.BEAT_STATUS_PRESENT n) → Gives (.beatPresenceChange n) s (fun t => t.fld (R.BEAT_STATUS_PRESENT n) = p ∧
        (s.beatOwn = false → t.bstate n = s.bstate n ∧ t.bchan n = x) ∧
        (s.beatOwn = true →
          (p = 0 → s.bstate n = btRunning ∨ s.bstate n = btStopping → (t.bchan n).losing = true ∧ t.bstate n = s.bstate n) ∧
          (p = 0 → s.bstate n = btDiag ∨ s.bstate n = btPreroll → t.bstate n = btUnplugged) ∧
          (p = 1 → s.bstate n = btUnplugged → if s.outputsLive = true then toDiag t else t.bstate n = btUnplugged))))))

/-! ### Flam -/

/-- R345, R347, R350, R357, R358. A heartbeat of the peer is recorded once, and an ACTIVE chip starts the bulk of a peer that enters
RESYNC and records one that leaves it; one that does not parse, or that is known, changes nothing; items and regions of a mirror message
wait for their block, a command or a write of a mirrored object is held for it on the chip that follows, and a chunk of the bulk waits
for its own. -/
def Obligations.FlamMessages : Prop :=
  (∀ (s : State) (link : Nat) (p : List Byte) (skew : Int), link < 2 → s.flm.operates = true →
    s.fld (if link = 0 then R.FLM_LINK_UP_00 else R.FLM_LINK_UP_01) = 1 →
    (∀ b, parseBeat s.blk.index p = some b → s.beatOf b.blk = none →
      let u := { s with flm := { s.flm with beats := (b :: s.flm.beats).take 4, ownPeer := decide (b.state = 4),
                                            selPeer := decide (b.state = 4 ∧ b.role = 1) } }
      let size := match s.cfg with | none => 0 | some c => c.mirrorSize.1
      let fs := [R.FLM_STATE_PEER_STATE, R.FLM_PEER_EVIDENCE_EVIDENCE, R.FLM_PEER_GEN_LO_GEN, R.FLM_PEER_GEN_HI_GEN, R.FLM_SKEW_NS_NS]
      let shown := fun (t : State) => t.fld R.FLM_STATE_PEER_STATE = b.state ∧ t.fld R.FLM_PEER_EVIDENCE_EVIDENCE = b.evidence ∧
        t.fld R.FLM_PEER_GEN_LO_GEN + 2 ^ 32 * t.fld R.FLM_PEER_GEN_HI_GEN = b.gen ∧ t.fld R.FLM_SKEW_NS_NS = codeS 32 skew
      let was := s.fld R.FLM_STATE_PEER_STATE
      (s.flmState ≠ 4 ∨ (b.state = 2 ↔ was = 2) ∧ (b.state = 3 → was ≠ 2) → Turns (.flmHeartbeatRx link p skew) s fs u shown) ∧
      (s.flmState = 4 → b.state = 2 → was ≠ 2 → Turns (.flmHeartbeatRx link p skew) s fs
        { u with flm := { u.flm with bulk := if s.flm.verdict = 8 then 0 else size, verdict := 0 } } shown) ∧
      (s.flmState = 4 → b.state = 3 → was = 2 → Turns (.flmHeartbeatRx link p skew) s
        (fs ++ [R.FLM_PEER_POWER_CYCLES_COUNT, R.FLM_STATE_RECORD_VALID] ++ (List.range 4).map R.FLM_PEER_SERIAL_SERIAL)
        { u with flm := { u.flm with bulk := 0, verdict := 0 } } (fun t => shown t ∧ t.fld R.FLM_STATE_RECORD_VALID = 1 ∧
          t.fld R.FLM_PEER_POWER_CYCLES_COUNT = b.cycles % 2 ^ 32 ∧ ∀ i < 4, t.fld (R.FLM_PEER_SERIAL_SERIAL i) = leAt b.serial (4 * i) 4))) ∧
    (∀ b, parseBeat s.blk.index p = some b → (s.beatOf b.blk).isSome = true → exec (.flmHeartbeatRx link p skew) s = .next s) ∧
    (parseBeat s.blk.index p = none → exec (.flmHeartbeatRx link p skew) s = .next s)) ∧
  (∀ (s : State) (blk : Nat) (items : List MirrorItem) (regions : List (Nat × List Nat)), s.flm.operates = true → s.flmState ≠ 0 →
    s.fld R.FLM_LINK_UP_00 = 1 ∨ s.fld R.FLM_LINK_UP_01 = 1 →
    (∀ i ∈ items, (∀ bs d k, i ≠ .entry bs d k) ∧ ∀ a v k, i ≠ .write a v k) →
    exec (.flmMirrorMsgRx blk items regions) s = .next { s with flm := { s.flm with
      items := s.flm.items ++ items, peer := if regions = [] then s.flm.peer else (blk, regions) :: s.flm.peer } }) ∧
  (∀ (s : State) (blk k n : Nat) (bs : List Byte) (data : Option (List Byte)) (v : Word), s.flm.operates = true → s.flmState ≠ 0 →
    s.fld R.FLM_LINK_UP_00 = 1 ∨ s.fld R.FLM_LINK_UP_01 = 1 →
    let follows := s.flmState = 2 ∨ s.flmState = 3
    let waits := fun (i : MirrorItem) (e : Engine) (c : Cmd) => Gives (.flmMirrorMsgRx blk [i] []) s (fun t =>
      (∃ h, t.held = s.held ++ [h] ∧ h.eng = e ∧ h.cmd = c ∧ h.mirrorAt = some k) ∧ t = { s with held := t.held, heldNext := s.heldNext + 1 })
    (∀ e c, follows → (descrOf bs).judge = some (.engine e c) →
      (s.mirrors (cmdObject e c) = true → waits (.entry bs data k) e c) ∧
      (s.mirrors (cmdObject e c) = false → exec (.flmMirrorMsgRx blk [.entry bs data k] []) s = .next s)) ∧
    (n < 32 → follows →
      (s.mirrors 8 = true → waits (.write (0x14301000 + 64 * n) v k) .beat (.regWrite (0x14301000 + 64 * n) v)) ∧
      (s.mirrors 8 = false → exec (.flmMirrorMsgRx blk [.write (0x14301000 + 64 * n) v k] []) s = .next s)) ∧
    (¬ follows → exec (.flmMirrorMsgRx blk [.entry bs data k, .write n v k] []) s = .next s)) ∧
  (∀ (s : State) (blk bytes : Nat) (objs : List ChunkObj) (last : Bool),
    (s.flmState = 2 → s.fld R.FLM_RESYNC_STATUS_PHASE = 1 → Turns (.flmResyncChunkRx blk bytes objs last) s [R.FLM_RESYNC_STATUS_KIB_LEFT]
      { s with flm := { s.flm with bulk := s.flm.bulk - bytes, chunks := s.flm.chunks ++ [(blk, objs, last)] } }
      (fun t => t.fld R.FLM_RESYNC_STATUS_KIB_LEFT = ceilDiv (s.flm.bulk - bytes) 1024 % 2 ^ 15)) ∧
    (s.flmState ≠ 2 ∨ s.fld R.FLM_RESYNC_STATUS_PHASE ≠ 1 → exec (.flmResyncChunkRx blk bytes objs last) s = .next s))

/-- R340, R353, R354, R355, R356, R358, R359. What the lines, the timers and the boundary T bring: a decided takeover, the chip that
takes over and the one that yields, a chip that pairs with no peer, a resync that is complete, a revert, and the links. -/
def Obligations.FlamTransitions : Prop :=
  (∀ s : State, let u := { s with flm := { s.flm with ownPeer := false } }
    (s.flmState = 3 → s.flm.operates = true → s.fld R.FLM_STATE_PEER_STATE = 4 →
      exec .flamOwnReleased s = .next { u with flm := { u.flm with plan := some (s.blk.index + 1, 1) } }) ∧
    (s.flmState = 6 → Gives .flamOwnReleased s (fun t => t.flmState = 1 ∧ t.flm.plan = none ∧ t.flm.ownPeer = false ∧
      t.fld R.FLM_RESYNC_STATUS_PHASE = 0)) ∧
    (s.flmState ≠ 6 → s.flmState ≠ 3 ∨ s.flm.operates = false ∨ s.fld R.FLM_STATE_PEER_STATE ≠ 4 → exec .flamOwnReleased s = .next u)) ∧
  (∀ s : State, let u := { s with flm := { s.flm with selPeer := false } }
    (s.flm.selPeer = true → s.flmState = 3 → s.flmSecondary = false → s.flm.plan = none →
      Turns .flamSelReleased s ((List.range 32).map R.BEAT_STATUS_OWNED) { u with flm := { u.flm with plan := some (s.blk.index + 1, 3) } }
        (fun t => ∀ n < 32, t.fld (R.BEAT_STATUS_OWNED n) = 1)) ∧
    (s.flm.selPeer = false ∨ s.flmState ≠ 3 ∨ s.flmSecondary = true ∨ s.flm.plan ≠ none → exec .flamSelReleased s = .next u)) ∧
  (∀ s : State, Turns .flmOwnWatchdog s [R.SMP_ALERT_STATUS_ALERT] { s with flm := { s.flm with ownFree := true } } (fun t =>
    (s.mode = .shadow ∨ s.mode = .live ∨ s.mode = .limp → bit (t.fld R.SMP_ALERT_STATUS_ALERT) 0 = 1) ∧
    (s.mode = .sentry ∨ s.mode = .load ∨ s.mode = .test → t.fld R.SMP_ALERT_STATUS_ALERT = s.fld R.SMP_ALERT_STATUS_ALERT))) ∧
  (∀ (s : State) (at0 cause : Nat), s.flm.plan = some (at0, cause) → at0 < 2 ^ 48 → cause < 16 →
    (s.flmState = 3 → at0 ≤ s.blk.index → Gives .flmTakeover s (fun t => t.flmState = 4 ∧ t.gate = ⟨true, none⟩ ∧ t.flm.plan = none ∧
      (s.mode ≠ .limp → t.mode = .live) ∧ t.fld R.FLM_LAST_TAKEOVER_LO_BLK + 2 ^ 32 * t.fld R.FLM_LAST_TAKEOVER_HI_BLK = at0 ∧
      t.fld R.FLM_LAST_TAKEOVER_HI_CAUSE = cause ∧ (let g := s.fld R.FLM_GEN_LO_GEN + 2 ^ 32 * s.fld R.FLM_GEN_HI_GEN + 1
        t.fld R.FLM_GEN_LO_GEN = g % 2 ^ 32 ∧ t.fld R.FLM_GEN_HI_GEN = g / 2 ^ 32 % 2 ^ 32) ∧
      t.fld R.FLM_TAKEOVER_COUNT_COUNT = min (s.fld R.FLM_TAKEOVER_COUNT_COUNT + 1) (2 ^ 32 - 1) ∧
      (∀ n < 32, t.fld (R.BEAT_STATUS_OWNED n) = 1) ∧ bit (t.fld R.FLM_INT_STATUS_TOOK_OVER) 0 = 1)) ∧
    (s.flmState ≠ 3 ∨ s.blk.index < at0 → exec .flmTakeover s = .next s) ∧
    (s.flmState = 5 → at0 + 2 ≤ s.blk.index ∨ (∃ b ∈ s.flm.beats, b.state = 4 ∧ at0 ≤ b.blk) → Gives .flmYieldEnd s (fun t => t.gate = ⟨false, none⟩ ∧ t.flm.plan = none ∧
      (s.mode ≠ .limp → t.mode = .shadow) ∧ (cause = 6 ∨ cause = 7 → t.flmState = 3) ∧
      (cause ≠ 6 → cause ≠ 7 → t.flmState = 2 ∧ t.fld R.FLM_RESYNC_STATUS_PHASE = 1 ∧ bit (t.fld R.FLM_INT_STATUS_RESYNC_START) 0 = 1) ∧
      (cause = 4 → t.fld R.FLM_RESYNC_STATUS_REASON = 8))) ∧
    (s.flmState ≠ 5 ∨ s.blk.index < at0 + 2 ∧ (∀ b ∈ s.flm.beats, b.state ≠ 4) → exec .flmYieldEnd s = .next s)) ∧
  (∀ s : State,
    let alone := if s.flmSecondary = true then s.ownHigh = true ∧ s.fld R.FLM_STATE_PEER_SEEN ≠ 1
      else s.fld R.FLM_STATE_PEER_SEEN ≠ 1 ∨ s.fld R.FLM_STATE_PEER_STATE ≠ 4
    (s.flmState = 1 → s.flm.operates = true → alone →
      Gives .flmPairingTimeout s (fun t => t.flmState = 4 ∧ t.gate = ⟨true, some (s.blk.index + 1, 1, true)⟩ ∧ t.flm.plan = none ∧
        (s.mode ≠ .limp → t.mode = .live) ∧ (∀ n < 32, t.fld (R.BEAT_STATUS_OWNED n) = 1) ∧ bit (t.fld R.FLM_INT_STATUS_TOOK_OVER) 0 = 1)) ∧
    (s.flmState ≠ 1 ∨ s.flm.operates = false ∨ ¬ alone → exec .flmPairingTimeout s = .next s)) ∧
  (∀ s : State,
    (s.flmState = 2 → 8 ≤ s.flm.agree → Gives .flmResyncComplete s (fun t => t.flmState = 3 ∧ t.fld R.FLM_RESYNC_STATUS_PHASE = 0 ∧
      t.fld R.FLM_GEN_LO_GEN = s.fld R.FLM_PEER_GEN_LO_GEN % 2 ^ 32 ∧ t.fld R.FLM_GEN_HI_GEN = s.fld R.FLM_PEER_GEN_HI_GEN % 2 ^ 32 ∧
      bit (t.fld R.FLM_INT_STATUS_RESYNC_DONE) 0 = 1)) ∧
    (s.flmState ≠ 2 ∨ s.flm.agree < 8 → exec .flmResyncComplete s = .next s) ∧
    (s.wtrRuns = true → s.flm.wtr = 0 → s.fld R.FLM_CTRL_REVERT = 1 → s.flm.plan = none →
      exec .flmWtrExpiry s = .next { s with flm := { s.flm with plan := some (s.blk.index + 2, 6) } }) ∧
    (s.wtrRuns = false ∨ s.flm.wtr ≠ 0 ∨ s.fld R.FLM_CTRL_REVERT ≠ 1 ∨ s.flm.plan ≠ none → exec .flmWtrExpiry s = .next s)) ∧
  (∀ (s : State) (link : Nat), link < 2 → let f := if link = 0 then R.FLM_LINK_UP_00 else R.FLM_LINK_UP_01
    Turns (.flmLinkDown link) s [f, R.FLM_INT_STATUS_LINK_LOST] s (fun t => t.fld f = 0 ∧ bit (t.fld R.FLM_INT_STATUS_LINK_LOST) 0 = 1) ∧
    (s.flmState ≠ 6 → Turns (.flmLinkUp link) s [f] s (fun t => t.fld f = 1)) ∧
    (s.flmState = 6 → Gives (.flmLinkUp link) s (fun t => t.fld f = 1 ∧ t.flmState = 2 ∧ t.fld R.FLM_RESYNC_STATUS_PHASE = 1 ∧
      t.flm.bulk = (match s.cfg with | none => 0 | some c => c.mirrorSize.1) ∧ bit (t.fld R.FLM_INT_STATUS_RESYNC_START) 0 = 1)))

/-- R69, R349, R360, R361. A handover is asked for where the peer is in STANDBY, and a resync by an ACTIVE chip; the two key registers
hold the same commands; a paired realignment is started with the peer, or refused; the counts clear. -/
def Obligations.FlamRequests : Prop :=
  (∀ s : State,
    (s.standbyPeer = true → exec .flmCmdHandover s = .next { s with flm := { s.flm with asked := some 0 } }) ∧
    (s.standbyPeer = false → exec .flmCmdHandover s = .next s) ∧
    (s.flmState = 4 → exec .flmCmdResync s = .next (s.emit (.flmItem (.resync 5)))) ∧
    (s.flmState ≠ 4 → exec .flmCmdResync s = .next s)) ∧
  (∀ (s : State) (v : Word),
    (Reaches s 0 0x14400070 → (v.toNat / 65536 = 0xF1A3 → Gives (.flmHandoverWrite v) s (fun t => t.held.length = s.held.length + 1 ∧
      (∃ h ∈ t.held, h.eng = .flm ∧ h.cmd = .flmHandover ∧ h.stamp = none) ∧ .response 0 .ok ∈ t.sent)) ∧
      (v.toNat / 65536 ≠ 0xF1A3 → exec (.flmHandoverWrite v) s = .next (s.answered 0 .ok (s.touch 0)))) ∧
    (Reaches s 0 0x14400074 → (v.toNat / 65536 = 0xF1A3 → Gives (.flmResyncWrite v) s (fun t => t.held.length = s.held.length + 1 ∧
      (∃ h ∈ t.held, h.eng = .flm ∧ h.cmd = .flmResync ∧ h.stamp = none) ∧ .response 0 .ok ∈ t.sent)) ∧
      (v.toNat / 65536 ≠ 0xF1A3 → exec (.flmResyncWrite v) s = .next (s.answered 0 .ok (s.touch 0)))) ∧
    (Reaches s 0 0x14400078 → v.toNat % 65536 ≠ 0xB10C ∨ s.blk.realign ≠ none → exec (.flmRealignWrite v) s = .next (s.answered 0 .ok (s.touch 0))) ∧
    (Reaches s 0 0x14400078 → v.toNat % 65536 = 0xB10C → s.blk.realign = none →
      let near := (ofCodeS 32 (s.fld R.BLK_EPOCH_ERR_ERR)).natAbs ≤ 1
      (s.swapState = swIdle → s.standbyPeer = true → ¬ near → ∃ t, exec (.flmRealignWrite v) s = .next (s.answered 0 .ok t) ∧
        t.blk.realign = some ⟨s.blk.index + 3, false⟩ ∧ t.fld R.BLK_STATE_REALIGNING = 1 ∧ t.fld R.FLM_REALIGN_STATUS_RESULT = 0 ∧
        .flmItem (.realign (s.blk.index + 3)) ∈ t.sent ∧ t.fld R.BLK_REALIGN_STATUS_BUSY = 1 ∧ (s.gate.released = true → t.gate = ⟨false, some (s.blk.index + 3, 2, false)⟩)) ∧
      (s.swapState ≠ swIdle ∨ s.standbyPeer = false ∨ near → HostSets (.flmRealignWrite v) s [R.FLM_REALIGN_STATUS_RESULT,
        R.FLM_INT_STATUS_REALIGN_DONE] s (fun t => bit (t.fld R.FLM_INT_STATUS_REALIGN_DONE) 0 = 1 ∧
          t.fld R.FLM_REALIGN_STATUS_RESULT = (if s.swapState ≠ swIdle then 2 else if s.standbyPeer = false then 3 else 5))))) ∧
  (∀ s : State, HostReaches s 0x14400068 → HostSets .flmCountClear s flmCounts s (fun t => ∀ f ∈ flmCounts, t.fld f = 0)) ∧
  (∀ (s : State) (tuSample q : Nat) (c : Cfg), Quiet { s with blk := { s.blk with realign := none } } →
    (∀ r ∈ s.roundTasks, s.hasEnded r.1.task r.2 = true) → s.cfg = some c → s.blk.realign = some ⟨q, false⟩ → q + 1 ≤ s.blk.index →
    Gives (.realignSetIndex tuSample) s (fun t => t.blk.index = tuSample / c.blockLen % 2 ^ 48 ∧ t.blk.seq = s.blk.seq + 1 ∧
      t.blk.realign = some ⟨q, true⟩ ∧ t.sxm = ⟨[], [], []⟩ ∧ t.mem = s.mem ∧
      (s.mode = .live → t.gate = ⟨true, some (tuSample / c.blockLen % 2 ^ 48 + 3, 2, true)⟩)))

/-! ### The sideband port -/

/-- R363, R364, R366, R368, R369, R367. A good frame starts its command, a bad one or one that comes while a command executes is
discarded and counted (the CMD byte of the response to it is free), 0x5A reads the response, which shows 0xFF while an SPI command
executes; a command that has its result ends on the path it came by; the host's GO starts the request in SMP_HOST_REQ (R364 is silent on
a response read while a host command executes: it shows the last SPI response, notes/assumptions/23). While CTRL is powered, a refresh
copies all 16 words of the mirror at once; with CTRL off they stay and AGE_MS alone rises. -/
def Obligations.SidebandPort : Prop :=
  ((∀ (s : State) (f : List Byte),
    let shown := s.emit (.smpResponse (responseFrame s.smp.status s.smp.cmd s.smp.payload))
    let runs := fun c : SmpCmd => s.emit (.smpResponse (responseFrame 0xFF c.cmd []))
    (∀ cmd p, f.head? ≠ some 0x5A#8 → frameRequest f = some (cmd, p) → s.smp.exec = none →
      exec (.smpRequestFrame f) s = .next { s with smp := { s.smp with
        exec := some ⟨cmd, p, false⟩, result := if cmd ∈ smpCodes then none else some (2, []), unlock := if cmd = 0x21 then s.smp.unlock else none } }) ∧
    (f.head? ≠ some 0x5A#8 → frameRequest f = none ∨ s.smp.exec.isSome = true → Gives (.smpRequestFrame f) s (fun t =>
      t.fld R.SMP_FRAME_ERR_COUNT = min (s.fld R.SMP_FRAME_ERR_COUNT + 1) (2 ^ 32 - 1) ∧ t.smp.status = 1 ∧ t.smp.payload = [] ∧
      t.smp.exec = s.smp.exec ∧ t.smp.result = s.smp.result ∧ t.smp.unlock = s.smp.unlock)) ∧
    (s.smp.exec = none → (f.head? = some 0x5A#8 → exec (.smpRequestFrame f) s = .next shown) ∧ exec .smpResponseRead s = .next shown) ∧
    (∀ c, s.smp.exec = some c →
      (c.host = true → (f.head? = some 0x5A#8 → exec (.smpRequestFrame f) s = .next shown) ∧ exec .smpResponseRead s = .next shown) ∧
      (c.host = false → (f.head? = some 0x5A#8 → exec (.smpRequestFrame f) s = .next (runs c)) ∧ exec .smpResponseRead s = .next (runs c)))) ∧
  (∀ (s : State) (c : SmpCmd) (st : Nat) (bs : List Byte), s.smp.exec = some c → s.smp.result = some (st, bs) →
    (c.host = false → Turns .smpCommandComplete s [R.SMP_ALERT_STATUS_ALERT] { s with smp := { s.smp with
        exec := none, result := none, status := st, cmd := c.cmd, payload := bs } } (fun t => bit (t.fld R.SMP_ALERT_STATUS_ALERT) 7 = 1)) ∧
    (c.host = true → st < 256 → c.cmd < 256 → bs.length < 256 → Turns .smpCommandComplete s
      (R.SMP_STATUS_HOST_DONE :: (List.range 65).map R.SMP_HOST_RSP_BYTES) { s with smp := { s.smp with exec := none, result := none } } (fun t =>
        t.fld R.SMP_STATUS_HOST_DONE = 1 ∧ t.fld (R.SMP_HOST_RSP_BYTES 0) % 2 ^ 24 = st + 256 * c.cmd + 65536 * bs.length ∧
        ∀ i < bs.length, t.fld (R.SMP_HOST_RSP_BYTES ((3 + i) / 4)) / 2 ^ (8 * ((3 + i) % 4)) % 256 = leAt bs i 1))) ∧
  (∀ s : State, s.smp.exec = none ∨ s.smp.result = none → exec .smpCommandComplete s = .next s) ∧
  (∀ (s : State) (v : Word), HostReaches s 0x15F20380 →
    let bs := (List.range 65).flatMap (fun n => leBytes 4 (s.fld (R.SMP_HOST_REQ_BYTES n)))
    let cmd := leAt bs 0 1
    (bit v.toNat 0 = 1 → s.smp.exec = none → HostSets (.smpHostGoWrite v) s [] { s with smp := { s.smp with
      exec := some ⟨cmd, slice bs 2 (leAt bs 1 1), true⟩, result := if cmd ∈ smpCodes then none else some (2, []), unlock := none } } (fun _ => True)) ∧
    (bit v.toNat 0 = 0 ∨ s.smp.exec.isSome = true → exec (.smpHostGoWrite v) s = .next (s.answered 0 .ok (s.touch 0))))) ∧
  (∀ s : State, let w := s.fld (R.SMP_MIRROR_WORD 0)
    (s.domainOn 2 = true → Turns .smpMirrorRefresh s ((List.range 16).map R.SMP_MIRROR_WORD) s (fun t =>
      t.fld (R.SMP_MIRROR_WORD 0) = (w / 65536 + 1) % 65536 * 65536 ∧ t.fld (R.SMP_MIRROR_WORD 1) = s.mode.code ∧
      ∀ p ∈ [(2, 0x14040004), (3, 0x14040008), (4, 0x14060014), (5, 0x14060018), (6, 0x14060060), (7, 0x140D0000), (8, 0x14400004), (9, 0x140E0000),
        (10, 0x140E0100), (11, 0x14300008), (12, 0x14020004), (13, 0x14040020), (14, 0x14040024), (15, 0x14010000)],
        t.fld (R.SMP_MIRROR_WORD p.1) = s.viewReg p.2 % 2 ^ 32)) ∧
    (s.domainOn 2 = false → Turns .smpMirrorRefresh s [R.SMP_MIRROR_WORD 0] s (fun t =>
      t.fld (R.SMP_MIRROR_WORD 0) = (w / 65536 * 65536 + min 65535 (w % 65536 + 1)) % 2 ^ 32)))

/-- R362, R365, R366. What a command that executes does, and its STATUS and response: identity, words of the bus, the mirror, requests
to the power manager, a reset, a load, a handover. In read-only mode a command that writes is refused on the SPI path; a payload of the
wrong length or a field out of range ends with 3. (R365 says nothing of a load or a handover that could not begin: it ends with 4,
notes/assumptions/23.) -/
def Obligations.SidebandCommands : Prop :=
  ∀ (s : State) (code : Nat) (p : List Byte) (host : Bool), s.smp.exec = some ⟨code, p, host⟩ → s.smp.result = none →
    let ended := fun (u : State) (st : Nat) (bs : List Byte) => ({ u with smp := { u.smp with result := some (st, bs) } } : State)
    let open_ := host = true ∨ s.fld R.SMP_STATUS_READ_ONLY = 0
    let a := leAt p 0 4
    let clear := fun n => a % 4 = 0 ∧ PlainDram s a (4 * n) ∧ ∀ i < n, Through s 1 (a + 4 * i)
    let peak := [R.XB_OUTSTANDING_PEAK 1]
    (code = 0x01 → p = [] → exec .getInfo s = .next (ended s 0 (serialBytes ++ leBytes 1 0xB1 ++ leBytes 1 s.mode.code ++
      leBytes 1 (s.fld R.SMP_STATUS_READ_ONLY + 2 * flag (s.domainOn 2)) ++ leBytes 1 1 ++ leBytes 4 (s.fld R.EVT_POWER_CYCLES_COUNT)))) ∧
    (code = 0x02 → p.length = 5 → ∀ (n : Nat) (exts : List FetchResp), leAt p 4 1 = n →
      (0 < n → n ≤ 60 → clear n → Turns (.read32 exts) s peak (ended s 0 (s.mem.dramRead a (4 * n))) (fun _ => True)) ∧
      (n = 0 ∨ 60 < n ∨ a % 4 ≠ 0 → exec (.read32 exts) s = .next (ended s 3 [])) ∧
      (n = 1 → a % 4 = 0 → Reaches s 1 a → let r := (s.touch 1).busRead a 4 (exts.headD .error)
        exec (.read32 exts) s = .next (match joinReads r.1 with | .data bs => ended r.2 0 bs | _ => ended r.2 6 [])) ∧
      (0 < n → n ≤ 60 → a % 4 = 0 → (∀ i < n, s.passage 1 (a + 4 * i) = .stopped) → s.hif.queue = [] → s.domainOn 2 = false →
        exec (.read32 exts) s = .next (ended s 5 [])) ∧
      (0 < n → n ≤ 60 → a % 4 = 0 → s.passage 1 a = .held → exec (.read32 exts) s = .next s)) ∧
    (code = 0x03 → open_ → ∀ n, p.length = 4 * n + 4 →
      (0 < n → n ≤ 60 → clear n → Turns .smpWrite32 s peak (ended { s with mem := s.mem.dramWrite a ((p.drop 4).map some) } 0 []) (fun t =>
        (∀ i < 4 * n, t.mem.dramByte (a + i) = p.getD (4 + i) 0) ∧ (∀ x, x < a ∨ a + 4 * n ≤ x → t.mem.dramByte x = s.mem.dramByte x))) ∧
      (n = 0 ∨ 60 < n ∨ a % 4 ≠ 0 → exec .smpWrite32 s = .next (ended s 3 []))) ∧
    (code = 0x04 → open_ → p.length = 12 → ∀ ext : FetchResp,
      (clear 1 → Gives (.rmw32 ext) s (fun t => t.smp.result = some (0, s.mem.dramRead a 4) ∧
        t.mem.dramRead a 4 = leBytes 4 (maskedWord (leNat (s.mem.dramRead a 4)) (leAt p 4 4) (leAt p 8 4)) ∧
        (∀ x, x < a ∨ a + 4 ≤ x → t.mem.dramByte x = s.mem.dramByte x) ∧ SameBut peak { s with mem := t.mem, smp := t.smp } t)) ∧
      (a % 4 ≠ 0 → exec (.rmw32 ext) s = .next (ended s 3 []))) ∧
    (code = 0x05 → p = [] →
      exec .mirrorRead s = .next (ended s 0 ((List.range 16).flatMap (fun i => leBytes 4 (s.fld (R.SMP_MIRROR_WORD i)))))) ∧
    (code = 0x10 → open_ → (∀ r ∈ [(1, Instr.sleep), (2, .wake), (3, .goLive), (4, .goShadow), (5, .limpExit), (6, .limpEnter), (8, .testExit)],
      p = leBytes 1 r.1 → ∃ u, exec r.2 s = .next u ∧ exec .pmuRequest s = .next (ended u 0 [])) ∧
      (p = leBytes 1 7 → Gives .pmuRequest s (fun t => t.smp.result = some (0, []) ∧ t.fld R.PMU_REQ_STATUS_ACTION = 7 ∧
        t.fld R.PMU_REQ_STATUS_RESULT = 5 ∧ t.mode = s.mode))) ∧
    (code = 0x11 → open_ → p.length = 2 → ∀ straps : Nat,
      (leNat p = 0x5A1D → Gives (.resetMain straps) s (fun t => t.mode = .sentry ∧ t.fld R.PMU_RESET_CAUSE_SMP = 1 ∧ t.cfg = none ∧
        t.smp.result = some (0, []) ∧ t.fld R.SYS_STRAPS_BOOT_SRC = bits straps 1 0 ∧ t.fld R.SYS_STRAPS_FLAM_ROLE = bit straps 2 ∧
        t.mem.flash = s.mem.flash ∧ (∀ d ∈ powerSequence, t.domainState d = 0) ∧ t.pmu.goal = (if bits straps 1 0 < 2 then [2, 12] else []))) ∧
      (leNat p ≠ 0x5A1D → exec (.resetMain straps) s = .next (ended s 4 []))) ∧
    (code = 0x12 → open_ → p.length = 1 →
      (leNat p ≤ 3 → s.mode = .sentry →
        (s.pmu.goal = [] → exec .loadFlash s = .next { s with pmu := { s.pmu with
          goal := [2, 12], slot := some (leNat p), tripped := false, shut := false, ptpDone := false } }) ∧
        (s.pmu.goal ≠ [] → exec .loadFlash s = .next { s with pmu := { s.pmu with slot := some (leNat p) } })) ∧
      (leNat p ≤ 3 → s.mode ≠ .sentry → s.domainOn 2 = true → s.mayLoad = true → Gives .loadFlash s (fun t => t.smp.result = some (0, []) ∧
        t.plane s.staged = plLoading ∧ t.peal.copy = some (leNat p))) ∧
      (leNat p ≤ 3 → s.mode ≠ .sentry → s.domainOn 2 = true → s.mayLoad = false → exec .loadFlash s = .next (ended s 4 [])) ∧
      (leNat p ≤ 3 → s.mode ≠ .sentry → s.domainOn 2 = false → exec .loadFlash s = .next (ended s 5 [])) ∧
      (3 < leNat p → exec .loadFlash s = .next (ended s 3 []))) ∧
    (code = 0x13 → open_ → p.length = 2 →
      (leNat p = 0xF1A3 → s.domainOn 2 = true →
        (s.flmState = 4 → exec .flamHandover s = .next (ended { s with flm := { s.flm with forced := true } } 0 [])) ∧
        (s.flmState ≠ 4 → exec .flamHandover s = .next (ended s 4 []))) ∧
      (leNat p = 0xF1A3 → s.domainOn 2 = false → exec .flamHandover s = .next (ended s 5 [])) ∧
      (leNat p ≠ 0xF1A3 → exec .flamHandover s = .next (ended s 4 []))) ∧
    (∀ (ext : FetchResp) (exts : List FetchResp) (straps : Nat) (ok : Bool),
      ∀ r ∈ [(0x01, Instr.getInfo, decide (p.length = 0)), (0x02, .read32 exts, decide (p.length = 5)), (0x04, .rmw32 ext, decide (p.length = 12)), (0x05, .mirrorRead, decide (p.length = 0)),
        (0x10, .pmuRequest, decide (p.length = 1)), (0x11, .resetMain straps, decide (p.length = 2)), (0x12, .loadFlash, decide (p.length = 1)), (0x13, .flamHandover, decide (p.length = 2)),
        (0x22, .evtSnapshot, decide (p.length = 0)), (0x30, .flashRead, decide (p.length = 5)), (0x31, .flashErase ok, decide (p.length = 4)),
        (0x32, .flashProgram ok, decide (5 ≤ p.length ∧ p.length ≤ 244)), (0x40, .attest, decide (p.length = 16)), (0x41, .otpCommand, decide (p.length = 192))],
        (code = r.1 → open_ → r.2.2 = false → exec r.2.1 s = .next (ended s 3 [])) ∧ (code ≠ r.1 → exec r.2.1 s = .next s)) ∧
    (host = false → s.fld R.SMP_STATUS_READ_ONLY = 1 → ∀ (ext : FetchResp) (straps : Nat) (ok : Bool),
      ∀ r ∈ [(0x03, Instr.smpWrite32), (0x04, .rmw32 ext), (0x10, .pmuRequest), (0x11, .resetMain straps), (0x12, .loadFlash), (0x13, .flamHandover),
        (0x20, .evtUnlock), (0x31, .flashErase ok), (0x32, .flashProgram ok), (0x41, .otpCommand)],
        code = r.1 → exec r.2 s = .next (ended s 4 []))

/-- R365, R366, R374, R379, R384, R385. The commands on the recorder, the flash and the identity: unlock, clear and snapshot, read,
erase and program, attest and OTP. (A snapshot that cannot begin waits; which byte a failed or a second program leaves is free.) -/
def Obligations.SidebandFlashRecorderAndIdentity : Prop :=
  (∀ (s : State) (code : Nat) (p : List Byte) (host : Bool), s.smp.exec = some ⟨code, p, host⟩ → s.smp.result = none →
    let ended := fun (u : State) (st : Nat) (bs : List Byte) => ({ u with smp := { u.smp with result := some (st, bs) } } : State)
    let open_ := host = true ∨ s.fld R.SMP_STATUS_READ_ONLY = 0
    let spi := host = false ∧ s.fld R.SMP_STATUS_READ_ONLY = 0
    let idle := s.evt.writing = none ∧ s.evt.erasing = none ∧ s.fld R.EVT_STATUS_RESTORING ≠ 1
    let locked : State := { s with smp := { s.smp with unlock := none } }
    let a := leAt p 0 4
    (code = 0x20 → spi →
      (p.length = 2 → leNat p = 0x0C1E → exec .evtUnlock s = .next (ended { s with freeCtr := s.freeCtr + 1, smp := { s.smp with
        unlock := some (Config.random s.freeCtr % 65536) } } 0 (leBytes 2 (Config.random s.freeCtr % 65536)))) ∧
      (p.length = 2 → leNat p ≠ 0x0C1E → exec .evtUnlock s = .next (ended s 4 [])) ∧ (p.length ≠ 2 → exec .evtUnlock s = .next (ended s 3 []))) ∧
    (host = true → (code = 0x20 → exec .evtUnlock s = .next (ended s 4 [])) ∧ (code = 0x21 → exec .evtClear s = .next (ended locked 4 []))) ∧
    (code = 0x21 → spi → p.length = 2 → s.evt.clearing = false →
      (∀ n, s.smp.unlock = some n → leNat p = n ^^^ 0x5EED →
        let shown := fun (t : State) => t.fld R.EVT_CLEAR_COUNT_COUNT = min (s.fld R.EVT_CLEAR_COUNT_COUNT + 1) (2 ^ 32 - 1) ∧
          t.fld R.EVT_CLEAR_MINUTE_MIN = s.opMinutes % 2 ^ 32
        let u : State := { locked with evt := { s.evt with bins := [], extremes := [], clearing := true } }
        (idle → Gives .evtClear s (fun t => shown t ∧ t.fld R.EVT_STATUS_WRITING = 1 ∧
          ∃ r, t.evt.writing = some (r, 4) ∧ t = { u with regs := t.regs, evt := { u.evt with writing := some (r, 4) } })) ∧
        (¬ idle → Gives .evtClear s (fun t => shown t ∧ t = { u with regs := t.regs, evt := { u.evt with due := s.evt.due ++ [4] } }))) ∧
      ((∀ n, s.smp.unlock = some n → leNat p ≠ n ^^^ 0x5EED) → exec .evtClear s = .next (ended locked 7 []))) ∧
    (code = 0x21 → spi → p.length = 2 → s.evt.clearing = true → exec .evtClear s = .next s) ∧
    (code = 0x22 → p = [] →
      (idle → Gives .evtSnapshot s (fun t => t.evt.writing = some (s.record s.evt.next 3, 3) ∧
        t.smp.result = some (0, []) ∧ t.fld R.EVT_STATUS_WRITING = 1)) ∧
      (¬ idle → exec .evtSnapshot s = .next (ended { s with evt := { s.evt with due := s.evt.due ++ [3] } } 0 []))) ∧
    (code = 0x30 → p.length = 5 → ∀ n, leAt p 4 1 = n →
      (0 < n → n ≤ 240 → a + n ≤ 0x8000000 → exec .flashRead s = .next (ended s 0 ((List.range n).map (fun j => s.flashByte (a + j))))) ∧
      (n = 0 ∨ 240 < n → exec .flashRead s = .next (ended s 3 []))) ∧
    (code = 0x31 → open_ → p.length = 4 → ∀ ok : Bool,
      (a % 0x10000 = 0 → a < 0x06000000 → Gives (.flashErase ok) s (fun t =>
        t.smp.result = some (if ok = true then 0 else 8, []) ∧ (ok = true → ∀ j < 0x10000, t.flashByte (a + j) = 0xFF#8) ∧
        (∀ x, x < a ∨ a + 0x10000 ≤ x → t.flashByte x = s.flashByte x))) ∧
      (a % 0x10000 ≠ 0 ∨ 0x06000000 ≤ a → exec (.flashErase ok) s = .next (ended s 3 []))) ∧
    (code = 0x32 → open_ → 5 ≤ p.length → p.length ≤ 244 → ∀ ok : Bool,
      (a % 256 + (p.length - 4) ≤ 256 → a < 0x06000000 → Gives (.flashProgram ok) s (fun t =>
        t.smp.result = some (if ok = true then 0 else 8, []) ∧
        (ok = true → ∀ j < p.length - 4, s.flashByte (a + j) = 0xFF#8 → t.flashByte (a + j) = p.getD (4 + j) 0) ∧
        (∀ x, x < a ∨ a + (p.length - 4) ≤ x → t.flashByte x = s.flashByte x))) ∧
      (256 < a % 256 + (p.length - 4) ∨ 0x06000000 ≤ a → exec (.flashProgram ok) s = .next (ended s 3 []))) ∧
    (code = 0x40 → p.length = 16 →
      let body := leBytes 4 0x54535441 ++ leBytes 1 1 ++ leBytes 1 0xB1 ++
      leBytes 1 s.mode.code ++ leBytes 1 (flag s.cfg.isSome + 2 * flag (decide (s.flmState ≠ 0))) ++ serialBytes ++ p ++ s.liveHash ++
      leBytes 4 (s.fld R.PEAL_GEN_LO_GEN) ++ leBytes 4 (s.fld R.PEAL_GEN_HI_GEN) ++ leBytes 4 (s.fld R.FLM_GEN_LO_GEN) ++
      leBytes 4 (s.fld R.FLM_GEN_HI_GEN) ++ leBytes 4 (s.fld R.EVT_POWER_CYCLES_COUNT) ++ leBytes 4 s.opMinutes ++
      leBytes 4 (s.fld R.OTP_ROLLBACK_MIN_MIN) ++ leBytes 1 (s.fld R.OTP_FP_STATE_PROGRAMMED + 16 * s.fld R.OTP_FP_STATE_REVOKED) ++ leBytes 3 0 ++
      identityKey ++ leBytes 7 0
      exec .attest s = .next (ended s 0 (body ++ (Config.identitySign (sha256 body)).take 64))) ∧
    (code = 0x41 → open_ → p.length = 192 →
      ((∀ e ∈ s.ident.otp, e.2 = false) →
        exec .otpCommand s = .next { s with ident := { s.ident with otp := s.ident.otp ++ [(p, true)] } }) ∧
      ((∃ e ∈ s.ident.otp, e.2 = true) → exec .otpCommand s = .next s))) ∧
  (∀ s : State, exec .evtUnlockExpiry s = .next { s with smp := { s.smp with unlock := none } })

/-! ### Recorder, panel, identity -/

/-- R370, R371, R372, R373, R374, R375, R387, R377, R378. A second counts one sample in a bin of every histogram that is fed each second
and offers each extreme its value; the main side's wait while CTRL is off; a minute counts the minute's events, tags their extreme with
the minute that has ended, and takes the periodic snapshot, or has it wait (R375). The record's layout; a record that is asked for is
taken at once or waits for the write or the pre-erase; one that is written, or fails (R374 leaves open what a failed write does to the
sequence: notes/assumptions/42); the pre-erase. The restore takes the newest valid record, or the cleared state, counts a power cycle,
starts the pre-erase of the next slot and, where BOOT_SRC has it, the wake (R393); the cursor and the window. (Words of the live bank
that only a snapshot gives are free; nor has SOURCE 1 a word where flash holds no valid record.) -/
def Obligations.EventRecorder : Prop :=
  (∀ s : State, let m := s.opMinutes
    let bin := fun (u : State) (h i : Nat) => Tbl.get u.evt.bins (32 * h + i) 0
    let hits := fun (t : State) (h b : Nat) => ∀ i < 32, bin t h i = if i = b then min 65535 (bin s h i + 1) else bin s h i
    let idle := fun (t : State) (h : Nat) => ∀ i < 32, bin t h i = bin s h i
    let high := fun (t : State) (x : Nat) (v : Int) => t.extreme x = if (s.extreme x).1 < v then (satS 32 v, m) else s.extreme x
    let low := fun (t : State) (x : Nat) (v : Int) => t.extreme x = if v < (s.extreme x).1 then (satS 32 v, m) else s.extreme x
    let log2 := fun (v : Int) => if v ≤ 0 then 0 else min 31 (Nat.log2 v.toNat + 1)
    let lin := fun (base width v : Int) => (max 0 (min 31 ((v - base) / width))).toNat
    (∀ devs : List Int, devs.length = 11 → Gives (.evtSecondTick devs) s (fun t =>
      (∀ n < 16, hits t n (lin (-40 * 128) (6 * 128) (s.tempOf n)) ∧ high t n (s.tempOf n) ∧ low t (16 + n) (s.tempOf n)) ∧
      (∀ r < 11, let d := devs.getD r 0
        hits t (16 + r) (lin (-80) 5 d) ∧ high t (32 + r) d ∧ low t (43 + r) d) ∧
      (s.domainOn 2 = true → hits t 27 (log2 (s.fld R.DPL_CONFLICT_RATE_LAST)) ∧ hits t 28 (log2 (s.fld R.XB_CONFLICT_LAST)) ∧
        (∀ r < 8, let top := s.fld (R.BEAT_RAIL_CFG_RAIL_MAX r)
          (top = 0 → idle t (77 + r)) ∧
          (top ≠ 0 → hits t (77 + r) (min 31 (32 * s.fld (R.BEAT_RAIL_TARGET_COMMANDED r) / top)))) ∧
        (∀ i < 8, hits t (85 + i) (min 31 (s.fld (R.BLK_ISL_LOAD_LAST (loadIslands.getD i 0)) * 32 / 65536))) ∧
        hits t 93 (lin (-160) 10 (ofCodeS 32 (s.fld R.CLV_OUT_FREQ_FREQ) / 256)) ∧
        hits t 94 (log2 (ofCodeS 32 (s.fld (R.TU_OFFSET_NS (s.fld R.TU_CTRL_SYS_INST)))).natAbs) ∧
        high t 55 (s.fld R.DPL_RT_USE_LAST) ∧ high t 56 (s.fld R.DPL_CONFLICT_RATE_LAST) ∧ high t 57 (s.fld R.XB_CONFLICT_LAST) ∧
        high t 58 (ofCodeS 32 (s.fld R.CLV_ABSORB_NS_NS)).natAbs ∧ high t 59 (ofCodeS 32 (s.fld R.BLK_EPOCH_ERR_ERR)).natAbs ∧
        high t 62 (s.fld R.CLV_HOLD_SECONDS_S) ∧
        (∃ v : Nat, (∀ i < 26, s.fld (R.BLK_ISL_LOAD_PEAK i) ≤ v) ∧ (∃ i, i < 26 ∧ s.fld (R.BLK_ISL_LOAD_PEAK i) = v) ∧ high t 54 v) ∧
        (∃ v : Nat, (∀ r < 8, s.fld (R.BEAT_RAIL_MEAS_MEAS r) ≤ v) ∧ (∃ r, r < 8 ∧ s.fld (R.BEAT_RAIL_MEAS_MEAS r) = v) ∧ high t 61 v)) ∧
      (s.domainOn 2 = false → (∀ h < 96, 27 ≤ h → idle t h) ∧ ∀ x < 64, 54 ≤ x → t.extreme x = s.extreme x) ∧
      (∀ h < 96, 29 ≤ h → h < 77 ∨ h = 95 → idle t h) ∧ t = { s with evt := { s.evt with bins := t.evt.bins, extremes := t.evt.extremes } })) ∧
    Gives .evtMinuteTick s (fun t => let n := fun h => Tbl.get s.evt.minute h 0
      t.fld R.EVT_OP_MINUTES_MIN = (m + 1) % 2 ^ 32 ∧ t.evt.minute = [] ∧
      (s.domainOn 2 = true → (∀ h < 96, 29 ≤ h → h < 77 ∨ h = 95 → hits t h (log2 (n h))) ∧
        ∃ v : Nat, (∀ c < 32, n (45 + c) ≤ v) ∧ (∃ c, c < 32 ∧ n (45 + c) = v) ∧ high t 60 v) ∧
      (s.domainOn 2 = false → t.evt.bins = s.evt.bins ∧ t.evt.extremes = s.evt.extremes) ∧
      (∀ h < 96, h < 29 ∨ 77 ≤ h ∧ h < 95 → idle t h) ∧
      let periodic := (m + 1) % 2 ^ 32 % max 1 (min 60 (s.fld R.EVT_CTRL_PERIOD_MIN)) = 0
      let free := s.evt.writing = none ∧ s.evt.erasing = none ∧ s.fld R.EVT_STATUS_RESTORING ≠ 1
      (¬ periodic → t.evt.writing = s.evt.writing ∧ t.evt.due = s.evt.due) ∧
      (periodic → free → t.fld R.EVT_STATUS_WRITING = 1 ∧ t.evt.due = s.evt.due ∧ ∃ bs, t.evt.writing = some (bs, 1) ∧ leAt bs 0x14 1 = 1 ∧
        leAt bs 0xC 4 = (m + 1) % 2 ^ 32) ∧
      (periodic → ¬ free → t.evt.writing = s.evt.writing ∧ t.evt.due = s.evt.due ++ [1]))) ∧
  ((∀ (s : State) (q cause : Nat), let r := s.record q cause
    r.length = 8192 ∧ leAt r 0 4 = 0x43525645 ∧ leAt r 4 2 = 1 ∧ leAt r 6 2 = 0x2000 ∧ leAt r 8 4 = q % 2 ^ 32 ∧ leAt r 0xC 4 = s.opMinutes % 2 ^ 32 ∧
    leAt r 0x10 4 = s.fld R.EVT_POWER_CYCLES_COUNT % 2 ^ 32 ∧ leAt r 0x14 1 = cause % 256 ∧ leAt r 0x15 1 = 0xB1 ∧
    leAt r 0x30 4 = s.fld R.EVT_CLEAR_COUNT_COUNT % 2 ^ 32 ∧ leAt r 0x34 4 = s.fld R.EVT_CLEAR_MINUTE_MIN % 2 ^ 32 ∧
    (∀ h < 96, leAt r (0x40 + 8 * h) 1 = h ∧ (h < 16 → leAt r (0x41 + 8 * h) 1 = 0 ∧ leAt r (0x44 + 8 * h) 2 = 0xFFD8 ∧ leAt r (0x46 + 8 * h) 2 = 6)) ∧
    (∀ i < 3072, leAt r (0x340 + 2 * i) 2 = Tbl.get s.evt.bins i 0 % 65536) ∧
    (∀ x < 64, leAt r (0x1B40 + 8 * x) 4 = codeS 32 (s.extreme x).1 ∧ leAt r (0x1B44 + 8 * x) 4 = (s.extreme x).2 % 2 ^ 32) ∧
    leAt r 0x1FFC 4 = crc32 (r.take 0x1FFC)) ∧
  (∀ (s : State) (v : Word), let free := s.evt.writing = none ∧ s.evt.erasing = none ∧ s.fld R.EVT_STATUS_RESTORING ≠ 1
    (bit v.toNat 0 = 0 → exec (.evtRequestWrite v) s = .next s) ∧
    (bit v.toNat 0 = 1 → free →
      Turns (.evtRequestWrite v) s [R.EVT_STATUS_WRITING] { s with evt := { s.evt with writing := some (s.record s.evt.next 3, 3) } }
        (fun t => t.fld R.EVT_STATUS_WRITING = 1)) ∧
    (bit v.toNat 0 = 1 → ¬ free → exec (.evtRequestWrite v) s = .next { s with evt := { s.evt with due := s.evt.due ++ [3] } })) ∧
  (∀ (s : State) (bs : List Byte) (cause us : Nat), s.evt.writing = some (bs, cause) → cause < 16 → us < 2 ^ 31 →
    let slot := s.evt.next % 2
    let longest := fun (t : State) => t.extreme 63 = if (s.extreme 63).1 < us then ((us : Int), s.opMinutes) else s.extreme 63
    let cleared := cause = 4 ∧ s.evt.clearing = true
    Gives (.evtRecordWritten true us) s (fun t => t.evt.next = s.evt.next + 1 ∧ longest t ∧
      t.fld R.EVT_SEQ_SEQ = s.evt.next % 2 ^ 32 ∧ t.fld R.EVT_STATUS_LAST_CAUSE = cause ∧ bit (t.fld R.EVT_INT_STATUS_WRITTEN) 0 = 1 ∧
      bit (t.fld R.SMP_ALERT_STATUS_ALERT) 5 = 1 ∧
      (∀ j < bs.length, t.flashByte (recordAt slot + j) = bs.getD j 0) ∧
      (∀ x, x < recordAt slot ∨ recordAt slot + bs.length ≤ x → t.flashByte x = s.flashByte x) ∧
      (cause ≠ 2 → t.evt.writing = none ∧ t.evt.erasing = some ((s.evt.next + 1) % 2) ∧ t.fld R.EVT_STATUS_WRITING = 0 ∧ t.fld R.EVT_STATUS_ERASING = 1) ∧
      (cause = 2 → t.evt.erasing = s.evt.erasing ∧ (s.evt.due = [] → t.evt.writing = none ∧ t.fld R.EVT_STATUS_WRITING = 0)) ∧
      (cleared → t.evt.clearing = false ∧ t.smp.result = some (0, [])) ∧ (¬ cleared → t.evt.clearing = s.evt.clearing ∧ t.smp = s.smp)) ∧
    Gives (.evtRecordWritten false us) s (fun t => t.evt.writing = none ∧ t.evt.next = s.evt.next + 2 ∧ longest t ∧
      t.evt.erasing = some slot ∧ t.fld R.EVT_STATUS_WRITING = 0 ∧ t.fld R.EVT_STATUS_ERASING = 1 ∧
      t.fld R.EVT_WRITE_ERR_COUNT = min (s.fld R.EVT_WRITE_ERR_COUNT + 1) (2 ^ 32 - 1) ∧
      bit (t.fld R.EVT_INT_STATUS_WRITE_ERR) 0 = 1 ∧ bit (t.fld R.SMP_ALERT_STATUS_ALERT) 6 = 1 ∧
      (∀ x, x < recordAt slot ∨ recordAt slot + 8192 ≤ x → t.flashByte x = s.flashByte x) ∧
      (cleared → t.evt.clearing = false ∧ t.smp.result = some (8, [])) ∧ (¬ cleared → t.evt.clearing = s.evt.clearing ∧ t.smp = s.smp))) ∧
  (∀ (s : State) (ok : Bool) (us : Nat), s.evt.writing = none → exec (.evtRecordWritten ok us) s = .next s) ∧
  (∀ s : State, (s.evt.erasing = none → exec .evtPreEraseDone s = .next s) ∧
    ∀ slot, s.evt.erasing = some slot → Gives .evtPreEraseDone s (fun t => t.evt.erasing = none ∧
      t.fld R.EVT_STATUS_ERASING = 0 ∧ (∀ j < 0x10000, t.flashByte (recordAt slot + j) = 0xFF#8) ∧
      (∀ x, x < recordAt slot ∨ recordAt slot + 0x10000 ≤ x → t.flashByte x = s.flashByte x) ∧
      (s.evt.due = [] → t.evt.writing = s.evt.writing ∧ t.evt.due = []) ∧
      (∀ c rest, s.evt.due = c :: rest → s.evt.writing = none → s.fld R.EVT_STATUS_RESTORING ≠ 1 → t.evt.due = rest ∧
        t.evt.writing = some (s.record s.evt.next c, c) ∧ t.fld R.EVT_STATUS_WRITING = 1)))) ∧
  ((∀ s : State,
    (s.fld R.EVT_STATUS_RESTORING ≠ 1 → exec .evtRestore s = .next s) ∧
    (s.fld R.EVT_STATUS_RESTORING = 1 → let bad := (s.slotBad 0 || s.slotBad 1) = true
      Gives .evtRestore s (fun t =>
      t.fld R.EVT_STATUS_RESTORING = 0 ∧ t.evt.erasing = some (t.evt.next % 2) ∧ t.fld R.EVT_STATUS_ERASING = 1 ∧
      bit (t.fld R.EVT_INT_STATUS_RESTORED) 0 = 1 ∧ (bad → t.fld R.EVT_STATUS_BAD_SLOT = 1) ∧
      t.evt.next = t.fld R.EVT_SEQ_SEQ + (if bad then 2 else 1) ∧
      t.pmu.goal = (if s.fld R.SYS_STRAPS_BOOT_SRC < 2 ∧ s.mode = .sentry ∧ s.pmu.goal = [] then [2, 12] else s.pmu.goal) ∧
      (s.newestRecord = none → t.evt.bins = [] ∧ t.evt.extremes = [] ∧ t.fld R.EVT_POWER_CYCLES_COUNT = 1 ∧
        ∀ f ∈ [R.EVT_OP_MINUTES_MIN, R.EVT_SEQ_SEQ, R.EVT_CLEAR_COUNT_COUNT], t.fld f = 0) ∧
      (∀ p, s.newestRecord = some p → t.fld R.EVT_OP_MINUTES_MIN = leAt p.2 0xC 4 ∧ t.fld R.EVT_SEQ_SEQ = leAt p.2 8 4 ∧
        t.fld R.EVT_CLEAR_COUNT_COUNT = leAt p.2 0x30 4 ∧ t.fld R.EVT_CLEAR_MINUTE_MIN = leAt p.2 0x34 4 ∧
        t.fld R.EVT_POWER_CYCLES_COUNT = min (leAt p.2 0x10 4 + 1) (2 ^ 32 - 1) ∧
        (∀ i < 3072, Tbl.get t.evt.bins i 0 = leAt p.2 (0x340 + 2 * i) 2) ∧
        ∀ x < 64, t.extreme x = (ofCodeS 32 (leAt p.2 (0x1B40 + 8 * x) 4), leAt p.2 (0x1B44 + 8 * x) 4))))) ∧
  (∀ s : State,
    let valid := fun k => leAt (s.slotBytes k) 0 4 = 0x43525645 ∧ leAt (s.slotBytes k) 6 2 = 0x2000 ∧
      leAt (s.slotBytes k) 0x1FFC 4 = crc32 ((s.slotBytes k).take 0x1FFC)
    (s.newestRecord = none ↔ ¬ valid 0 ∧ ¬ valid 1) ∧
    ∀ p, s.newestRecord = some p → p.1 < 2 ∧ p.2 = s.slotBytes p.1 ∧ valid p.1 ∧
      ∀ k < 2, valid k → leAt (s.slotBytes k) 8 4 ≤ leAt p.2 8 4) ∧
  (∀ (s : State) (v : Word), Turns (.evtCursorWrite v) s [R.EVT_CURSOR_SOURCE, R.EVT_CURSOR_WORD]
    { s with evt := { s.evt with cursor := if bit v.toNat 28 = 1 then s.newestRecord.map (fun p => p.1) else none } } (fun t =>
      t.fld R.EVT_CURSOR_SOURCE = bit v.toNat 28 ∧ t.fld R.EVT_CURSOR_WORD = bits v.toNat 12 2)) ∧
  (∀ (s : State) (m : Nat), Reaches s m 0x15F10034 → let w := s.fld R.EVT_CURSOR_WORD
    let next := fun (u : State) (x : Nat) => exec (.evtWindowRead m) s = .next ((u.setFld R.EVT_CURSOR_WORD ((w + 1) % 2048)).emit
      (.response m (.data (leBytes 4 x))))
    (s.fld R.EVT_STATUS_RESTORING = 1 → next (s.touch m) 0) ∧
    (s.fld R.EVT_STATUS_RESTORING ≠ 1 →
      (s.fld R.EVT_CURSOR_SOURCE = 0 → w ≠ 2 → w ≠ 5 → w ≠ 2047 → next (s.touch m) (leAt (s.record 0 0) (4 * w) 4)) ∧
      (s.fld R.EVT_CURSOR_SOURCE = 0 → w = 2 ∨ w = 5 ∨ w = 2047 → ∃ x, next (s.touch m).fresh.2 x ∧ (w = 5 → x / 256 = 0xB1)) ∧
      (s.fld R.EVT_CURSOR_SOURCE = 1 →
        (∀ slot, s.evt.cursor = some slot → slot < 2 → next (s.touch m) (leAt (s.slotBytes slot) (4 * w) 4)) ∧
        (s.evt.cursor = some 2 → next ((s.touch m).setFld R.EVT_STATUS_STALE 1) 0xFFFFFFFF) ∧
        (s.evt.cursor = none → ∃ x, next (s.touch m).fresh.2 x)))))

/-- R380, R381, R382, R388. The panel: a key and a presence input change after KEY_MS and PRES_MS samples in a row, and a key's change
sets its mute state on a chip whose keys act; a write of TAP_MUTE_KEY sets the states as a press would; on an ACTIVE chip of a pair they
go to the peer for block N + 2; an encoder counts a step whose levels were sampled twice (which direction counts up is Config.encoderUp,
notes/assumptions/2); an LED shows its source. -/
def Obligations.TapPanel : Prop :=
  (∀ (s : State) (keys pres : Nat), s.domainOn 2 = true →
    let run := fun k => Tbl.get s.panel.keyRun k 0
    let was := fun k => bit (s.fld R.TAP_KEYS_PRESSED) k
    let turned := fun k => was k ≠ bit keys k ∧ max 1 (s.fld R.TAP_DEBOUNCE_KEY_MS) ≤ run k + 1
    let now := fun p => flag (decide (bit pres p = bit (s.fld R.TAP_PRES_POL_HIGH) p))
    let shown := fun p => bit (s.fld R.TAP_PRES_PRESENT) p
    let moved := fun p => shown p ≠ now p ∧ max 1 (s.fld R.TAP_DEBOUNCE_PRES_MS) ≤ Tbl.get s.panel.presRun p 0 + 1
    let acts := s.flm.operates = false ∨ s.flmState = 0 ∨ s.flmState = 4
    let mute := fun k => bit (s.fld R.TAP_MUTE_KEY_MUTED) k
    Gives (.tapSample keys pres) s (fun t =>
      (∀ k < 16, bit (t.fld R.TAP_KEYS_PRESSED) k = (if turned k then bit keys k else was k) ∧
        Tbl.get t.panel.keyRun k 0 = (if was k = bit keys k ∨ turned k then 0 else run k + 1) ∧
        bit (t.fld R.TAP_KEY_EVT_PRESS) k = (if turned k ∧ bit keys k = 1 then 1 else bit (s.fld R.TAP_KEY_EVT_PRESS) k) ∧
        bit (t.fld R.TAP_KEY_EVT_RELEASED) k = (if turned k ∧ bit keys k = 0 then 1 else bit (s.fld R.TAP_KEY_EVT_RELEASED) k) ∧
        (turned k → bit (t.fld R.TAP_INT_STATUS_KEY) 0 = 1) ∧
        bit (t.fld R.TAP_MUTE_KEY_MUTED) k = (if acts ∧ turned k then
          (if bit (s.fld R.TAP_KEY_CFG_MOMENTARY) k = 1 then bit keys k else if bit keys k = 1 then 1 - mute k else mute k) else mute k)) ∧
      (∀ p < 32, bit (t.fld R.TAP_PRES_PRESENT) p = (if moved p then now p else shown p) ∧
        bit (t.fld R.TAP_PRES_EVT_CHANGED) p = (if moved p then 1 else bit (s.fld R.TAP_PRES_EVT_CHANGED) p) ∧
        (moved p → bit (t.fld R.TAP_INT_STATUS_PRES) 0 = 1)))) ∧
  (∀ (s : State) (keys pres levels : Nat), s.domainOn 2 = false → exec (.tapSample keys pres) s = .next s ∧
    exec (.tapEncSample levels) s = .next s) ∧
  (∀ (s : State) (levels : Nat), s.domainOn 2 = true → Gives (.tapEncSample levels) s (fun t => t.panel.encLast = levels % 256 ∧
    (∀ i < 8, bit t.panel.encLevel i = (if bit levels i = bit s.panel.encLast i then bit levels i else bit s.panel.encLevel i)) ∧
    ∀ e < 4, let place := fun w => quadrature (bit w (2 * e)) (bit w (2 * e + 1))
      let p := place s.panel.encLevel
      let q := place t.panel.encLevel
      let up := if Config.encoderUp then 1 else 65535
      let count := s.fld (R.TAP_ENC_COUNT e)
      (p = q → t.fld (R.TAP_ENC_COUNT e) = count ∧ t.fld (R.TAP_ENC_ERR e) = s.fld (R.TAP_ENC_ERR e)) ∧
      ((p + 1) % 4 = q → t.fld (R.TAP_ENC_COUNT e) = (count + up) % 65536 ∧ bit (t.fld R.TAP_INT_STATUS_ENC) 0 = 1) ∧
      ((q + 1) % 4 = p → t.fld (R.TAP_ENC_COUNT e) = (count + 65536 - up) % 65536 ∧ bit (t.fld R.TAP_INT_STATUS_ENC) 0 = 1) ∧
      ((p + 2) % 4 = q → t.fld (R.TAP_ENC_COUNT e) = count ∧ t.fld (R.TAP_ENC_ERR e) = min (s.fld (R.TAP_ENC_ERR e) + 1) 65535))) ∧
  (∀ (s : State) (v : Word), Reaches s 0 0x140F000C →
    (s.flm.operates = false → HostReaches s 0x140F000C → ∃ t, exec (.tapMuteKeyWrite v) s = .next (s.answered 0 .ok t) ∧
      t.fld R.TAP_MUTE_KEY_MUTED = v.toNat % 65536 ∧ (s.fld R.TAP_MUTE_KEY_MUTED ≠ v.toNat % 65536 → t.panel.inForce = v.toNat % 65536) ∧
      (s.fld R.TAP_MUTE_KEY_MUTED ≠ v.toNat % 65536 → s.groupWords (s.fld R.TAP_MUTE_KEY_MUTED) ≠ s.groupWords (v.toNat % 65536) →
        bit (t.fld R.TAP_INT_STATUS_GROUP) 0 = 1)) ∧
    (s.flm.operates = true → s.flmState = 4 → s.fld R.TAP_MUTE_KEY_MUTED ≠ v.toNat % 65536 → ∃ t, exec (.tapMuteKeyWrite v) s = .next (s.answered 0 .ok t) ∧
      t.fld R.TAP_MUTE_KEY_MUTED = v.toNat % 65536 ∧ t.flm.items = s.flm.items ++ [.tapKeys (v.toNat % 65536) (s.blk.index + 2)] ∧
      t.panel.inForce = s.panel.inForce) ∧
    (s.flm.operates = true → s.flmState ≠ 0 → s.flmState ≠ 4 → ∃ t, exec (.tapMuteKeyWrite v) s = .next (s.answered 0 .ok t) ∧
      t.fld R.TAP_MUTE_KEY_MUTED = s.fld R.TAP_MUTE_KEY_MUTED ∧ t.panel = s.panel ∧ t.flm = s.flm)) ∧
  (∀ s : State, let groups := fun (keys g : Nat) (c : Cfg) => c.groupOf keys (groupNumber g).1 (groupNumber g).2
    (∀ c, s.cfg = some c → ∀ (keys j b : Nat), j < 3 → b < 32 → bit (s.groupWord keys j) b = flag (groups keys (32 * j + b) c)) ∧
    (s.domainOn 2 = true → ∀ l < 8,
      let i := s.fld (R.TAP_LED_INDEX l)
      let d := s.fld (R.TAP_LED_DUTY l)
      (s.fld (R.TAP_LED_SRC l) = 0 → s.led l = (d, false)) ∧ (s.fld (R.TAP_LED_SRC l) = 3 → s.led l = (d, true)) ∧
      (s.fld (R.TAP_LED_SRC l) = 1 → i < 16 → s.led l = (if bit (s.fld R.TAP_MUTE_KEY_MUTED) i = 1 then d else 0, false)) ∧
      (s.fld (R.TAP_LED_SRC l) = 2 → s.led l = (if bit (s.fld R.TAP_PRES_PRESENT) i = 1 then d else 0, false))))

/-- R384, R385, R389. The host's attestation takes the nonce and shows its record; an OTP command is latched, run and reported on the
path it came by; a command that fails a check fuses nothing, one that passes fuses what it names. (Which of several failed checks shows
is free, as is how far a fuse that fails got.) -/
def Obligations.IdentityAndOtp : Prop :=
  (∀ (s : State) (v : Word),
    (bit v.toNat 0 = 1 → s.fld R.ID_ATTEST_STATUS_BUSY = 0 → Turns (.idAttestGoWrite v) s [R.ID_ATTEST_STATUS_BUSY]
      { s with ident := { s.ident with attest := some ((List.range 4).flatMap (fun i => leBytes 4 (s.fld (R.ID_NONCE_NONCE i)))) } }
      (fun t => t.fld R.ID_ATTEST_STATUS_BUSY = 1)) ∧
    (bit v.toNat 0 = 0 ∨ s.fld R.ID_ATTEST_STATUS_BUSY ≠ 0 → exec (.idAttestGoWrite v) s = .next s) ∧
    (v.toNat / 65536 = 0x07F5 → s.fld R.OTP_CMD_STATUS_BUSY = 0 → Turns (.otpCmdGoWrite v) s [R.OTP_CMD_STATUS_BUSY]
      { s with ident := { s.ident with otp := s.ident.otp ++ [((List.range 48).flatMap (fun i => leBytes 4 (s.fld (R.OTP_CMD_BYTES i))), false)] } }
      (fun t => t.fld R.OTP_CMD_STATUS_BUSY = 1)) ∧
    (v.toNat / 65536 ≠ 0x07F5 ∨ s.fld R.OTP_CMD_STATUS_BUSY ≠ 0 → exec (.otpCmdGoWrite v) s = .next s)) ∧
  (∀ (s : State) (nonce : List Byte), s.ident.attest = some nonce →
    Turns .attestDone s ([R.ID_ATTEST_STATUS_BUSY, R.ID_ATTEST_STATUS_DONE] ++ (List.range 60).map R.ID_ATTEST_BYTES)
      { s with ident := { s.ident with attest := none } } (fun t => t.fld R.ID_ATTEST_STATUS_BUSY = 0 ∧ t.fld R.ID_ATTEST_STATUS_DONE = 1 ∧
        ∀ i < 60, t.fld (R.ID_ATTEST_BYTES i) = leAt (s.attestRecord nonce) (4 * i) 4)) ∧
  (∀ s : State, s.ident.attest = none → exec .attestDone s = .next s) ∧
  (∀ (s : State) (bs : List Byte), let op := leAt bs 4 1
    let target := leAt bs 5 1
    let slot := leAt bs 6 1
    let first := op = 1 ∧ target = 0 ∧ slot = 255
    let key := slice bs 0x38 65
    (2 ∈ s.otpFailures bs ↔ leAt bs 0 4 ≠ 0x4350544F ∨ op = 0 ∨ 3 < op ∨ leAt bs 7 1 ≠ 0 ∨ leAt bs 0x79 7 ≠ 0 ∨
      op ≠ 1 ∧ ∃ b ∈ slice bs 0x18 32, b ≠ 0) ∧
    (3 ∈ s.otpFailures bs ↔ slice bs 8 16 ≠ serialBytes) ∧
    (4 ∈ s.otpFailures bs ↔ ¬ first ∧ s.slotUsable slot = false) ∧
    (5 ∈ s.otpFailures bs ↔ ¬ first ∧ s.slotUsable slot = true ∧ (sha256 key ≠ s.fingerprint slot ∨ onCurve key = false)) ∧
    (6 ∈ s.otpFailures bs ↔ ¬ first ∧ s.slotUsable slot = true ∧ onCurve key = true ∧
      ecdsaVerify key (sha256 (bs.take 0x80)) (beNat (slice bs 0x80 32)) (beNat (slice bs 0xA0 32)) = false) ∧
    (7 ∈ s.otpFailures bs ↔ op = 1 ∧ (3 < target ∨ bit (s.fld R.OTP_FP_STATE_PROGRAMMED) target = 1 ∨ bit (s.fld R.OTP_FP_STATE_REVOKED) target = 1) ∨
      op = 2 ∧ (3 < target ∨ bit (s.fld R.OTP_FP_STATE_REVOKED) target = 1) ∨
      op = 3 ∧ (63 < target ∨ target ≤ s.fld R.OTP_ROLLBACK_MIN_MIN)) ∧
    (8 ∈ s.otpFailures bs ↔ first ∧ s.fld R.OTP_FP_STATE_PROGRAMMED ≠ 0) ∧
    (10 ∈ s.otpFailures bs ↔ op = 2 ∧ s.slotUsable target = true ∧ ∀ i < 4, i ≠ target → s.slotUsable i = false)) ∧
  (∀ (s : State) (bs : List Byte) (viaSmp : Bool) (q : List (List Byte × Bool)) (ok : Bool), s.ident.otp = (bs, viaSmp) :: q →
    let told := if viaSmp = true then [] else [R.OTP_CMD_STATUS_BUSY, R.OTP_CMD_STATUS_RESULT]
    let u := fun (r : Nat) => ({ s with ident := { s.ident with otp := q }, smp := if viaSmp = true then { s.smp with result := some (0, leBytes 1 r) } else s.smp } : State)
    let shows := fun (t : State) (r : Nat) => viaSmp = false → t.fld R.OTP_CMD_STATUS_BUSY = 0 ∧ t.fld R.OTP_CMD_STATUS_RESULT = r
    (∀ r, s.otpFailures bs = [r] → Turns (.otpCommandDone ok) s told (u r) (fun t => shows t r)) ∧
    (2 ≤ (s.otpFailures bs).length → ∃ r ∈ s.otpFailures bs, Turns (.otpCommandDone ok) s told { u r with freeCtr := s.freeCtr + 1 }
      (fun t => shows t r)) ∧
    (s.otpFailures bs = [] → ok = true → Turns (.otpCommandDone ok) s told { u 1 with regs := (s.otpFuse bs).regs } (fun t => shows t 1)) ∧
    (s.otpFailures bs = [] → ok = false → Gives (.otpCommandDone ok) s (fun t => shows t 9 ∧ t.ident.otp = q ∧
      (viaSmp = true → t.smp.result = some (0, leBytes 1 9)) ∧ s.fld R.OTP_ROLLBACK_MIN_MIN ≤ t.fld R.OTP_ROLLBACK_MIN_MIN ∧
      ∀ i < 4, bit (s.fld R.OTP_FP_STATE_PROGRAMMED) i = 1 → bit (t.fld R.OTP_FP_STATE_PROGRAMMED) i = 1))) ∧
  (∀ (s : State) (bs : List Byte), let op := leAt bs 4 1
    let target := leAt bs 5 1
    (op = 1 → target < 4 → SameBut (R.OTP_FP_STATE_PROGRAMMED :: (List.range 8).map (R.OTP_FP_FP target)) s (s.otpFuse bs) ∧
      bit ((s.otpFuse bs).fld R.OTP_FP_STATE_PROGRAMMED) target = 1 ∧
      (∀ i < 4, i ≠ target → bit ((s.otpFuse bs).fld R.OTP_FP_STATE_PROGRAMMED) i = bit (s.fld R.OTP_FP_STATE_PROGRAMMED) i) ∧
      ∀ i < 8, (s.otpFuse bs).fld (R.OTP_FP_FP target i) = leAt bs (0x18 + 4 * i) 4) ∧
    (op = 2 → target < 4 → SameBut [R.OTP_FP_STATE_REVOKED] s (s.otpFuse bs) ∧ bit ((s.otpFuse bs).fld R.OTP_FP_STATE_REVOKED) target = 1 ∧
      ∀ i < 4, i ≠ target → bit ((s.otpFuse bs).fld R.OTP_FP_STATE_REVOKED) i = bit (s.fld R.OTP_FP_STATE_REVOKED) i) ∧
    (op = 3 → target < 64 → SameBut [R.OTP_ROLLBACK_MIN_MIN] s (s.otpFuse bs) ∧ (s.otpFuse bs).fld R.OTP_ROLLBACK_MIN_MIN = target)) ∧
  (∀ (s : State) (ok : Bool), s.ident.otp = [] → exec (.otpCommandDone ok) s = .next s)

/-! ### Modes, resets and power -/

/-- R342, R395, R396, R402, R397, R401. A request is taken in the modes that R396 gives it: it acts at once, or waits for the boundary
with RESULT 2; elsewhere it is refused with its RESULT and changes nothing else. What the token brings to a chip that runs alone: SENTRY
two blocks after a sleep is taken, LIMP where a cause is present, the request that waits, the start of the exit from LIMP once no cause
is left, and at L + 1 the mode it came from. -/
def Obligations.PowerRequests : Prop :=
  (∀ s : State,
    let fs := [R.PMU_REQ_STATUS_ACTION, R.PMU_REQ_STATUS_RESULT]
    let waits := fun (i : Instr) (a : Nat) => Turns i s fs { s with pmu := { s.pmu with ask := some a } } (fun t =>
      t.fld R.PMU_REQ_STATUS_ACTION = a ∧ t.fld R.PMU_REQ_STATUS_RESULT = 2)
    let refused := fun (i : Instr) (a r : Nat) => Turns i s (R.PMU_INT_STATUS_REQ_DONE :: fs) s (fun t =>
      t.fld R.PMU_REQ_STATUS_ACTION = a ∧ t.fld R.PMU_REQ_STATUS_RESULT = r ∧ bit (t.fld R.PMU_INT_STATUS_REQ_DONE) 0 = 1)
    let done := fun (a : Nat) (t : State) => t.fld R.PMU_REQ_STATUS_ACTION = a ∧ t.fld R.PMU_REQ_STATUS_RESULT = 1 ∧
      bit (t.fld R.PMU_INT_STATUS_REQ_DONE) 0 = 1
    let runs := s.mode = .shadow ∨ s.mode = .live ∨ s.mode = .limp
    (runs → waits .sleep 1) ∧ (s.mode = .load → Gives .sleep s (fun t => done 1 t ∧ t.mode = .sentry ∧ t.pmu.offs = s.onDomains)) ∧
    (s.mode = .sentry ∨ s.mode = .test → refused .sleep 1 3) ∧
    (s.mode = .sentry → s.pmu.goal = [] → Gives .wake s (fun t => t.pmu.goal = [2, 12] ∧ t.pmu.slot = none ∧
      t.fld R.PMU_REQ_STATUS_ACTION = 2 ∧ t.fld R.PMU_REQ_STATUS_RESULT = 2)) ∧
    (s.mode ≠ .sentry → refused .wake 2 3) ∧
    (s.flm.operates = false → (s.mode = .shadow → waits .goLive 3) ∧ (s.mode = .live → waits .goShadow 4) ∧
      (s.mode ≠ .shadow → refused .goLive 3 3) ∧ (s.mode ≠ .live → refused .goShadow 4 3)) ∧
    (s.flm.operates = true → refused .goLive 3 4 ∧ refused .goShadow 4 4) ∧
    (s.mode = .shadow ∨ s.mode = .live → Gives .limpEnter s (fun t => bit t.limpCauses causeRequest = 1 ∧
      bit (t.fld R.PMU_LIMP_STATUS_SEEN) causeRequest = 1 ∧ t.fld R.PMU_REQ_STATUS_RESULT = 2 ∧ t.mode = s.mode)) ∧
    (s.mode = .limp → Gives .limpEnter s (fun t => bit t.limpCauses causeRequest = 1 ∧ done 6 t)) ∧
    (¬ runs → refused .limpEnter 6 3) ∧
    (s.mode = .limp → Gives .limpExit s (fun t => bit t.limpCauses causeRequest = 0 ∧ t.pmu.exitAsked = true ∧
      t.fld R.PMU_REQ_STATUS_ACTION = 5 ∧ t.fld R.PMU_REQ_STATUS_RESULT = 2)) ∧
    (s.mode ≠ .limp → refused .limpExit 5 3) ∧
    (s.mode = .shadow → waits (.testEnter 0x7E5A) 7) ∧
    (s.mode = .sentry → Gives (.testEnter 0x7E5A) s (fun t => t.pmu.goal = [2, 12] ∧ t.pmu.test = true ∧ t.cfg = none ∧ t.mode = .sentry ∧
      t.fld R.PMU_REQ_STATUS_RESULT = 2)) ∧
    (∀ key, key ≠ 0x7E5A → refused (.testEnter key) 7 5) ∧
    (s.mode = .test → Gives .testExit s (fun t => done 8 t ∧ t.mode = .sentry ∧ t.pmu.offs = s.onDomains)) ∧
    (s.mode ≠ .test → refused .testExit 8 3)) ∧
  (∀ (s : State) (tu : Nat), s.fld R.BLK_STATE_RUN = 1 → s.domainOn 2 = true → s.flm.operates = false → s.flmState = 0 → s.blk.realign = none →
    let k := (s.blk.index + 1) % 2 ^ 48
    let ends := fun (a : Nat) (t : State) => s.fld R.PMU_REQ_STATUS_ACTION = a → s.fld R.PMU_REQ_STATUS_RESULT = 2 →
      t.fld R.PMU_REQ_STATUS_RESULT = 1 ∧ bit (t.fld R.PMU_INT_STATUS_REQ_DONE) 0 = 1
    (s.pmu.sleepAt = some k → Gives (.blockToken tu) s (fun t => t.mode = .sentry ∧ t.fld R.BLK_STATE_RUN = 0 ∧ t.gate = ⟨false, none⟩ ∧
      t.pmu.offs = s.onDomains ∧ t.blk.index = s.blk.index ∧ t.pmu.sleepAt = none ∧ ends 1 t)) ∧
    (s.pmu.sleepAt ≠ some k → s.limpDue = true → Gives (.blockToken tu) s (fun t => t.mode = .limp ∧ t.fld R.BLK_STATE_LIMP_SCHED = 1 ∧ t.blk.index = k ∧
      t.fld R.PMU_LIMP_STATUS_PHASE = 1 ∧ t.pmu.limpShadow = decide (s.mode = .shadow) ∧ bit (t.fld R.PMU_INT_STATUS_LIMP_ENTER) 0 = 1 ∧
      (∀ a, s.pmu.ask = some a → a ≠ 1 → t.pmu.ask = none ∧ t.fld R.PMU_REQ_STATUS_RESULT = 3))) ∧
    (s.pmu.sleepAt = none → s.limpDue = false → s.mode = .shadow ∨ s.mode = .live →
      (s.pmu.ask = some 1 → Gives (.blockToken tu) s (fun t => t.pmu.sleepAt = some (k + 2) ∧ t.pmu.ask = none ∧ t.mode = s.mode ∧ t.blk.index = k ∧
        (s.gate.released = true → t.gate = ⟨false, some (k, 2, false)⟩))) ∧
      (s.pmu.ask = some 3 → s.mode = .shadow → Gives (.blockToken tu) s (fun t => t.mode = .live ∧ t.gate = ⟨true, some (k, 1, true)⟩ ∧
        t.pmu.ask = none ∧ t.blk.index = k ∧ ends 3 t)) ∧
      (s.pmu.ask = some 4 → s.mode = .live → Gives (.blockToken tu) s (fun t => t.mode = .shadow ∧ t.gate = ⟨false, some (k, 2, false)⟩ ∧
        t.pmu.ask = none ∧ t.blk.index = k ∧ ends 4 t)) ∧
      (s.pmu.ask = some 7 → Gives (.blockToken tu) s (fun t => t.mode = .sentry ∧ t.pmu.goal = [2, 12] ∧ t.pmu.test = true ∧ t.cfg = none ∧
        ∀ d ∈ powerSequence, t.domainState d = 0))) ∧
    (s.pmu.sleepAt = none → s.mode = .limp → s.limpCauses = 0 → s.pmu.hung = [] → s.pmu.ask = none ∨ s.pmu.ask = some 1 →
      (s.fld R.PMU_LIMP_STATUS_PHASE ≠ 3 → s.pmu.exitAt = none → s.fld R.PMU_CTRL_LIMP_AUTO_EXIT = 1 ∨ s.pmu.exitAsked = true →
        Gives (.blockToken tu) s (fun t => t.mode = .limp ∧ t.fld R.PMU_LIMP_STATUS_PHASE = 2 ∧ t.pmu.exitAt = some (k + 2) ∧ t.blk.index = k ∧
          t.pmu.goal = s.pmu.goal ++ powerSequence.filter (fun d => decide (s.domainState d = 3) && !s.pmu.goal.contains d))) ∧
      (s.fld R.PMU_LIMP_STATUS_PHASE = 3 → Gives (.blockToken tu) s (fun t => t.mode = (if s.pmu.limpShadow = true then .shadow else .live) ∧
        t.fld R.BLK_STATE_LIMP_SCHED = 0 ∧ t.fld R.PMU_LIMP_STATUS_PHASE = 0 ∧ t.pmu.exitAt = none ∧ t.blk.index = k ∧
        bit (t.fld R.PMU_INT_STATUS_LIMP_EXIT) 0 = 1 ∧ ends 5 t))))

/-- R392, R399, R400, R401, R402. LIMP is entered for a cause; under THERMAL the domains without an essential task enter retention; a
cause clears on its condition; at L the islands that have the token return to PLL_00 (the others with theirs); a hang and a lost rail
are causes. -/
def Obligations.Limp : Prop :=
  (∀ s : State,
    (s.limpDue = true → Gives .limpEntry s (fun t => t.mode = .limp ∧ t.fld R.BLK_STATE_LIMP_SCHED = 1 ∧
      t.fld R.PMU_LIMP_STATUS_PHASE = 1 ∧ t.fld R.PMU_LIMP_COUNT_COUNT = min (s.fld R.PMU_LIMP_COUNT_COUNT + 1) (2 ^ 32 - 1) ∧
      t.pmu.limpShadow = decide (s.mode = .shadow) ∧ t.pmu.limpAt = s.blk.index ∧ t.fld (R.PLL_STATUS_FALLBACK 0) = 1 ∧
      bit (t.fld R.PMU_INT_STATUS_LIMP_ENTER) 0 = 1 ∧ bit (t.fld R.SMP_ALERT_STATUS_ALERT) 1 = 1)) ∧
    (s.limpDue = false → exec .limpEntry s = .next s)) ∧
  (∀ (s : State) (c : Cfg), s.cfg = some c →
    let due := s.mode = .limp ∧ bit s.limpCauses causeThermal = 1 ∧ s.pmu.limpAt + 2 ≤ s.blk.index
    (due → Gives .limpRetention s (fun t => ∀ d ∈ powerSequence, t.domainState d =
      (if d ≠ 2 ∧ s.domainState d = 2 ∧ d ∉ c.essentialDomains then 3 else s.domainState d))) ∧
    (¬ due → exec .limpRetention s = .next s)) ∧
  (∀ s : State,
    let fs := [R.PMU_LIMP_STATUS_CAUSE, R.SYS_MODE_LIMP_CAUSE]
    let clears := fun n : Nat => Turns (.limpCauseClear n) s fs s (fun t => bit t.limpCauses n = 0 ∧
      ∀ b < 5, b ≠ n → bit t.limpCauses b = bit s.limpCauses b)
    let cool := ∀ n < 16, s.tempOf n < 140 * 128
    (s.fld (R.PLL_STATUS_LOCKED 0) = 1 → clears 0) ∧ (s.fld (R.PLL_STATUS_LOCKED 0) ≠ 1 → exec (.limpCauseClear 0) s = .next s) ∧
    (cool → clears 1) ∧ (¬ cool → exec (.limpCauseClear 1) s = .next s) ∧
    (s.pmu.hung = [] → s.pmu.failed = [] → clears 2) ∧ (s.pmu.hung ≠ [] ∨ s.pmu.failed ≠ [] → exec (.limpCauseClear 2) s = .next s) ∧
    Gives (.limpCauseClear 3) s (fun t => bit t.limpCauses 3 = 0 ∧ ∀ r ∈ mainRails, bit (t.fld R.PMU_RAIL_GOOD_GOOD) r = 1) ∧
    ∀ n, 3 < n → exec (.limpCauseClear n) s = .next s) ∧
  (∀ (s : State) (l : Nat), s.pmu.exitAt = some l →
    let ready := s.mode = .limp ∧ l ≤ s.blk.index ∧ s.pmu.goal = [] ∧ s.limpCauses = 0 ∧ s.fld R.PMU_LIMP_STATUS_PHASE = 2
    (ready → Gives .limpReturn s (fun t => t.fld R.PMU_LIMP_STATUS_PHASE = 3 ∧ t.fld (R.PLL_STATUS_FALLBACK 0) = 0 ∧
      ∀ i < 26, 0 < i → s.islandOn i = true → t.fld (R.SYS_ISLAND_CLK_SRC i) =
        (if (Tbl.get s.blk.arrived i (0, 0)).2 = s.blk.seq then 0 else s.fld (R.SYS_ISLAND_CLK_SRC i)))) ∧
    (¬ ready → exec .limpReturn s = .next s)) ∧
  (∀ s : State, s.pmu.exitAt = none → exec .limpReturn s = .next s) ∧
  (∀ (s : State) (i : Nat), i < 26 → s.islandOn i = true →
    let hangs := (Tbl.get s.blk.arrived i (0, 0)).2 < s.blk.seq ∨ 16 ≤ Tbl.get s.blk.missed i 0
    (hangs → s.mode = .shadow ∨ s.mode = .live ∨ s.mode = .limp → Gives (.islandHang i) s (fun t => i ∈ t.pmu.hung ∧
      bit t.limpCauses causeIsland = 1 ∧ bit (t.fld R.PMU_LIMP_STATUS_SEEN) causeIsland = 1)) ∧
    (¬ hangs ∨ s.mode = .sentry ∨ s.mode = .load ∨ s.mode = .test → exec (.islandHang i) s = .next s)) ∧
  (∀ (s : State) (r : Nat), r ∉ mainRails → exec (.railDrop r) s = .next s) ∧
  (∀ (s : State) (r : Nat), r ∈ mainRails → Gives (.railDrop r) s (fun t => bit (t.fld R.PMU_RAIL_GOOD_GOOD) r = 0 ∧
    (s.mode = .shadow ∨ s.mode = .live ∨ s.mode = .limp → bit t.limpCauses causeRail = 1) ∧ t.mode = s.mode))

/-- R6, R390, R391, R393, R394, R406. A main-side reset by SYS_RESET or RESET_N and a reset of everything: SENTRY, every domain except
AO off, the cause shown, the straps sampled, the flash and OTP kept, and the wake that BOOT_SRC names. -/
def Obligations.Resets : Prop :=
  (∀ (s : State) (straps : Nat),
    let wakes := bits straps 1 0 < 2
    let down := fun (cause : Fld) (t : State) => t.mode = .sentry ∧ t.fld cause = 1 ∧ t.cfg = none ∧ t.old = none ∧ t.mem.flash = s.mem.flash ∧
      (∀ d ∈ powerSequence, t.domainState d = 0) ∧ (∀ i < 26, 0 < i → t.islandOn i = false) ∧ t.pmu.offs = [] ∧
      t.fld R.SYS_STRAPS_BOOT_SRC = bits straps 1 0 ∧ t.fld R.SYS_STRAPS_FLAM_ROLE = bit straps 2 ∧
      t.fld R.EVT_OP_MINUTES_MIN = s.fld R.EVT_OP_MINUTES_MIN ∧ t.fld R.EVT_POWER_CYCLES_COUNT = s.fld R.EVT_POWER_CYCLES_COUNT ∧
      t.fld R.FLM_GEN_LO_GEN = s.fld R.FLM_GEN_LO_GEN ∧ t.evt = s.evt ∧ t.pmu.goal = (if wakes then [2, 12] else [])
    Gives (.resetNAssert straps) s (down R.PMU_RESET_CAUSE_RESET_N) ∧
    (∀ v : Word, HostReaches s 0x14000004 →
      (v.toNat / 65536 = 0x5A1D → Gives (.sysResetWrite v straps) s (down R.PMU_RESET_CAUSE_SOFTWARE)) ∧
      (v.toNat / 65536 ≠ 0x5A1D → exec (.sysResetWrite v straps) s = .next (s.answered 0 .ok (s.touch 0)))) ∧
    Gives (.thermalTrip straps) s (fun t => t.mode = .sentry ∧ t.fld R.PMU_RESET_CAUSE_THERMAL = 1 ∧ t.cfg = none ∧ t.pmu.tripped = true ∧
      t.pmu.goal = [] ∧ (∀ d ∈ powerSequence, t.domainState d = 0) ∧ bit (t.fld R.PMU_INT_STATUS_THERM_TRIP) 0 = 1)) ∧
  (∀ (s : State) (por : Bool) (straps : Nat),
    let kept := fun (t : State) => (s.evt.writing = none → s.evt.erasing = none → t.mem.flash = s.mem.flash) ∧
      ∀ x, x < recordAt 0 ∨ recordAt 2 ≤ x → t.flashByte x = s.flashByte x
    s.evt.erasing = none ∨ s.evt.erasing = some 0 ∨ s.evt.erasing = some 1 →
    Gives (.aoReset por straps) s (fun t => t.mode = .sentry ∧ t.cfg = none ∧ t.mem.dram = [] ∧ kept t ∧
      t.fld (if por then R.PMU_RESET_CAUSE_POR else R.PMU_RESET_CAUSE_AO_RESET_N) = 1 ∧ t.fld R.EVT_STATUS_RESTORING = 1 ∧
      t.fld R.SYS_STRAPS_BOOT_SRC = bits straps 1 0 ∧ t.fld R.SYS_STRAPS_SMP_MODE = bit straps 3 ∧ t.fld R.SMP_STATUS_READ_ONLY = bit straps 3 ∧
      t.fld R.OTP_ROLLBACK_MIN_MIN = s.fld R.OTP_ROLLBACK_MIN_MIN ∧ t.fld R.OTP_FP_STATE_REVOKED = s.fld R.OTP_FP_STATE_REVOKED ∧
      t.held = [] ∧ t.commits = [] ∧ t.pending = s.pending) ∧
    Gives .vddAoLoss s (fun t => t.mode = .sentry ∧ t.cfg = none ∧ t.mem.dram = [] ∧ kept t ∧
      t.fld R.EVT_STATUS_RESTORING = 0 ∧ t.fld R.OTP_ROLLBACK_MIN_MIN = s.fld R.OTP_ROLLBACK_MIN_MIN ∧ t.pending = s.pending))

/-- R391, R396, R398. Domains switch on and off one at a time and in order; DRAM completes the wake; rails that do not come bring SENTRY
back; the first token of the boot, and the wait for network time. -/
def Obligations.DomainsAndBoot : Prop :=
  (∀ (s : State) (d : Nat), d ∈ powerSequence →
    (s.pmu.goal.head? = some d → s.pmu.offs = [] → d ≠ 12 → Gives (.domainOn d) s (fun t => t.pmu.goal = s.pmu.goal.tail ∧
      t.domainState d = 2 ∧ (∀ i ∈ islandsOf d, t.islandOn i = true) ∧
      (d = 2 → s.domainState d ≠ 3 → s.fld (R.PLL_STATUS_LOCKED 0) ≠ 1 → t.fld (R.PLL_STATUS_SEARCHING 0) = 1 ∧
        t.fld R.SYS_BOOT_STATUS_STAGE = 1))) ∧
    (d = 12 → s.pmu.goal.head? = some 12 → s.pmu.offs = [] → s.mode = .sentry → s.fld (R.PLL_STATUS_LOCKED 0) = 1 → s.domainState 12 ≠ 3 →
      let up := fun (t : State) => t.mem.dram = [] ∧ t.domainState 12 = 2 ∧ t.pmu.goal = s.pmu.goal.tail
      let copies := fun (t : State) (n : Nat) (boot : Bool) => t.mode = .load ∧ t.fld R.SYS_BOOT_STATUS_STAGE = 3 ∧ t.peal.copy = some n ∧ t.peal.boot = boot ∧
        t.plane t.staged = plLoading
      (s.pmu.test = true → Gives (.domainOn d) s (fun t => up t ∧ t.mode = .test ∧ t.pmu.test = false)) ∧
      (s.pmu.test = false → s.pmu.slot = none → s.fld R.SYS_STRAPS_BOOT_SRC ≠ 1 → Gives (.domainOn d) s (fun t => up t ∧ t.mode = .load ∧
        t.fld R.SYS_BOOT_STATUS_STAGE = 3 ∧ t.peal.copy = s.peal.copy)) ∧
      (s.pmu.test = false → s.pmu.slot = none → s.fld R.SYS_STRAPS_BOOT_SRC = 1 → Gives (.domainOn d) s (fun t => up t ∧ copies t 0 true)) ∧
      (∀ n, s.pmu.test = false → s.pmu.slot = some n → Gives (.domainOn d) s (fun t => up t ∧ copies t n false ∧ t.pmu.slot = none ∧
        t.fld R.SYS_BOOT_STATUS_SLOT = n % 16))) ∧
    (d = 12 → s.pmu.goal.head? = some 12 → s.pmu.offs = [] → s.domainState 12 = 3 → s.mode ≠ .sentry → Gives (.domainOn d) s (fun t =>
      t.domainState 12 = 2 ∧ t.mem = s.mem ∧ t.pmu.goal = s.pmu.goal.tail ∧ t.mode = s.mode)) ∧
    (s.pmu.goal.head? ≠ some d ∨ s.pmu.offs ≠ [] ∨ (d = 12 ∧ s.mode = .sentry ∧ s.fld (R.PLL_STATUS_LOCKED 0) ≠ 1) →
      exec (.domainOn d) s = .next s) ∧
    (s.pmu.offs.head? = some d → Gives (.domainOff d) s (fun t => t.pmu.offs = s.pmu.offs.tail ∧ t.domainState d = 0 ∧
      (∀ i ∈ islandsOf d, t.islandOn i = false) ∧ ∀ e ∈ powerSequence, e ≠ d → t.domainState e = s.domainState e)) ∧
    (s.pmu.offs.head? ≠ some d → exec (.domainOff d) s = .next s)) ∧
  (∀ s : State,
    (s.pmu.goal ≠ [] → Gives .railTimeout s (fun t => t.mode = .sentry ∧ t.pmu.goal = [] ∧ t.pmu.offs = s.onDomains ∧
      bit (t.fld R.PMU_INT_STATUS_RAIL_BAD) 0 = 1)) ∧
    (s.pmu.goal = [] → exec .railTimeout s = .next s)) ∧
  (∀ (s : State) (c : Cfg) (tuSample : Nat), s.cfg = some c →
    let k := tuSample / max 1 c.blockLen % 2 ^ 48
    let ready := s.mode = .load ∧ s.pmu.goal = [] ∧ s.fld R.BLK_STATE_RUN = 0 ∧ s.fld (R.PLL_STATUS_LOCKED 0) = 1 ∧ s.fld (R.PLL_STATUS_LOCKED 1) = 1 ∧
      (c.sys.rateB = 0 ∨ s.fld (R.PLL_STATUS_LOCKED 2) = 1) ∧
      (s.fld R.PMU_CTRL_WAIT_PTP = 0 ∨ s.pmu.ptpDone = true ∨ s.fld (R.TU_SERVO_STATE_STATE (s.fld R.TU_CTRL_SYS_INST)) = 3)
    (ready → s.flm.operates = true → Gives (.bootFirstToken tuSample) s (fun t => t.blk.index = k ∧ t.fld R.BLK_STATE_RUN = 1 ∧ t.mode = .shadow ∧
      t.gate = ⟨false, none⟩ ∧ t.flmState = 1 ∧ t.fld R.SYS_BOOT_STATUS_STAGE = 6)) ∧
    (ready → s.flm.operates = false → Gives (.bootFirstToken tuSample) s (fun t => t.flmState = 0 ∧
      t.blk.index = k ∧ t.fld R.BLK_STATE_RUN = 1 ∧ t.fld R.SYS_BOOT_STATUS_STAGE = 6 ∧ bit (t.fld R.SYS_INT_STATUS_BOOT_DONE) 0 = 1 ∧
      (c.sys.startMode = 1 → t.mode = .live ∧ t.gate = ⟨true, some (k, 1, true)⟩) ∧
      (c.sys.startMode ≠ 1 → t.mode = .shadow ∧ t.gate = ⟨false, none⟩))) ∧
    (¬ ready → exec (.bootFirstToken tuSample) s = .next s) ∧
    (s.mode = .load → s.fld R.PMU_CTRL_WAIT_PTP = 1 → s.fld R.BLK_STATE_RUN = 0 → Turns .ptpWaitTimeout s [R.SYS_BOOT_STATUS_PTP_TIMEOUT]
      { s with pmu := { s.pmu with ptpDone := true } } (fun t => t.fld R.SYS_BOOT_STATUS_PTP_TIMEOUT = 1)) ∧
    (s.mode ≠ .load ∨ s.fld R.PMU_CTRL_WAIT_PTP ≠ 1 ∨ s.fld R.BLK_STATE_RUN ≠ 0 → exec .ptpWaitTimeout s = .next s)) ∧
  (∀ (s : State) (tuSample : Nat), s.cfg = none → exec (.bootFirstToken tuSample) s = .next s ∧ exec .ptpWaitTimeout s = .next s)

/-- R36, R403, R404, R405, R435. The sensors and their warning; a power failure that is asserted, outlasts 1 ms, or ends as a glitch;
the restarts that follow a trip and a shutdown; the PCIe link. -/
def Obligations.TemperaturePowerFailureAndLink : Prop :=
  (∀ (s : State) (temps : List Int), temps.length = 16 → (∀ x ∈ temps, -5120 ≤ x ∧ x < 32768) →
    let again := ∃ n < 16, 150 * 128 ≤ temps.getD n 0 ∧ n ∈ s.pmu.hot
    Gives (.pmuTempSample temps) s (fun t =>
    (∀ n < 16, t.tempOf n = temps.getD n 0) ∧ t.fld R.PMU_TEMP_MAX_T = codeS 16 (hottest temps).2 ∧
    t.fld R.PMU_TEMP_MAX_SENSOR = (hottest temps).1 ∧ t.pmu.hot = (List.range 16).filter (fun n => decide (150 * 128 ≤ temps.getD n 0)) ∧
    ((again → s.mode = .shadow ∨ s.mode = .live ∨ s.mode = .limp → bit t.limpCauses causeThermal = 1) ∧
      (¬ again → t.limpCauses = s.limpCauses)) ∧
    (s.pmu.warn = false → s.warnAt ≤ (hottest temps).2 → t.pmu.warn = true ∧ bit (t.fld R.PMU_INT_STATUS_THERM_WARN) 0 = 1 ∧
      bit (t.fld R.SMP_ALERT_STATUS_ALERT) 2 = 1) ∧
    (s.pmu.warn = false → (hottest temps).2 < s.warnAt → t.pmu.warn = false) ∧
    (s.pmu.warn = true → t.pmu.warn = decide (s.warnAt - 640 ≤ (hottest temps).2)))) ∧
  (∀ s : State,
    (s.pmu.pwrFail = false → Gives .pwrFailAssert s (fun t => t.pmu.pwrFail = true ∧ t.pmu.handed = decide (s.flmState = 4) ∧
      (s.flmState = 4 → t.flm.forced = true) ∧ bit (t.fld R.PMU_INT_STATUS_PWR_FAIL) 0 = 1 ∧ bit (t.fld R.SMP_ALERT_STATUS_ALERT) 3 = 1 ∧
      (s.evt.writing = none → s.evt.erasing = none → s.fld R.EVT_STATUS_RESTORING ≠ 1 → ∃ bs, t.evt.writing = some (bs, 2)))) ∧
    (s.pmu.pwrFail = true → exec .pwrFailAssert s = .next s) ∧
    (s.pmu.pwrFail = true → s.mode ≠ .sentry ∨ s.pmu.goal ≠ [] → Gives .pwrFailShutdown s (fun t => t.mode = .sentry ∧ t.pmu.shut = true ∧ t.cfg = none ∧
      t.fld R.PMU_RESET_CAUSE_PWR_FAIL = 1 ∧ t.fld R.PMU_PF_COUNT_SHUTDOWN = min (s.fld R.PMU_PF_COUNT_SHUTDOWN + 1) (2 ^ 16 - 1) ∧
      ∀ d ∈ powerSequence, t.domainState d = 0)) ∧
    (s.pmu.pwrFail = false ∨ (s.mode = .sentry ∧ s.pmu.goal = []) → exec .pwrFailShutdown s = .next s) ∧
    (s.pmu.pwrFail = true → s.pmu.shut = true →
      exec .pwrFailDeassert s = .next { s with pmu := { s.pmu with pwrFail := false, handed := false } }) ∧
    (s.pmu.pwrFail = true → s.pmu.shut = false → Gives .pwrFailDeassert s (fun t => t.pmu.pwrFail = false ∧
      t.fld R.PMU_PF_COUNT_GLITCH = min (s.fld R.PMU_PF_COUNT_GLITCH + 1) (2 ^ 16 - 1) ∧
      (s.mode = .live ∨ s.mode = .limp ∧ s.pmu.limpShadow = false → s.pmu.handed = false → s.gate.released = false → t.gate = ⟨true, some (s.blk.index + 1, 2, true)⟩))) ∧
    (s.pmu.pwrFail = false → exec .pwrFailDeassert s = .next s) ∧
    (s.mode = .sentry → s.pmu.goal = [] → (s.pmu.shut = true → s.pmu.pwrFail = false → s.fld R.PMU_CTRL_PF_RESTART = 1 →
        Gives .pfRestartWake s (fun t => t.pmu.goal = [2, 12] ∧ t.pmu.shut = false ∧ ∀ r ∈ mainRails, bit (t.fld R.PMU_RAIL_GOOD_GOOD) r = 1)) ∧
      (s.pmu.tripped = true → s.fld R.PMU_CTRL_THERM_RESTART = 1 → (∀ n < 16, s.tempOf n < 120 * 128) →
        Gives .thermRestartWake s (fun t => t.pmu.goal = [2, 12] ∧ t.pmu.tripped = false))) ∧
    (s.pmu.shut = false ∨ s.pmu.pwrFail = true ∨ s.fld R.PMU_CTRL_PF_RESTART ≠ 1 → exec .pfRestartWake s = .next s) ∧
    (s.pmu.tripped = false ∨ s.fld R.PMU_CTRL_THERM_RESTART ≠ 1 ∨ (∃ n < 16, 120 * 128 ≤ s.tempOf n) → exec .thermRestartWake s = .next s)) ∧
  (∀ (s : State) (width speed : Nat) (d3 : Bool), exec (.pciePowerStateChange d3) s = .next { s with hif := { s.hif with d3hot := d3 } } ∧
    (s.domainOn 2 = true → width < 16 → speed < 16 → Turns (.pcieLinkUp width speed) s [R.HIF_LINK_UP, R.HIF_LINK_WIDTH, R.HIF_LINK_SPEED] s
      (fun t => t.fld R.HIF_LINK_UP = 1 ∧ t.fld R.HIF_LINK_WIDTH = width ∧ t.fld R.HIF_LINK_SPEED = speed)) ∧
    (s.domainOn 2 = false → exec (.pcieLinkUp width speed) s = .next s))
end

