-- ==== Sys2Proof/Laws/Table.lean ====
section
/-! SUPPORT. Sparse tables: a read after a write, and the canonical form that every write keeps. -/

namespace Sys2Proof.Machine

variable {α : Type}

/-! ### Reads after writes -/

@[simp] theorem Tbl.find_nil (k : Nat) : Tbl.find k ([] : Tbl α) = none := rfl

@[simp] theorem Tbl.get_nil (k : Nat) (d : α) : Tbl.get ([] : Tbl α) k d = d := rfl

theorem Tbl.find_erase_same (k : Nat) : ∀ t : Tbl α, Tbl.find k (Tbl.erase k t) = none
  | [] => rfl
  | (k', v) :: t => by
    unfold Tbl.erase; split
    · exact Tbl.find_erase_same k t
    · simp [Tbl.find, *, Tbl.find_erase_same k t]

theorem Tbl.find_erase_ne {k j : Nat} (h : j ≠ k) : ∀ t : Tbl α, Tbl.find j (Tbl.erase k t) = Tbl.find j t
  | [] => rfl
  | (k', v) :: t => by
    unfold Tbl.erase; split
    · next e => subst e; rw [Tbl.find_erase_ne h t]; simp [Tbl.find, Ne.symm h]
    · simp only [Tbl.find]; rw [Tbl.find_erase_ne h t]

theorem Tbl.find_ins_same (k : Nat) (v : α) : ∀ t : Tbl α, Tbl.find k t = none → Tbl.find k (Tbl.ins k v t) = some v
  | [], _ => by simp [Tbl.ins, Tbl.find]
  | (k', v') :: t, h => by
    unfold Tbl.ins; split
    · simp [Tbl.find]
    · have hk : ¬ k' = k := by intro e; simp [Tbl.find, e] at h
      simp only [Tbl.find, hk, if_false] at h ⊢
      exact Tbl.find_ins_same k v t h

theorem Tbl.find_ins_ne {k j : Nat} (v : α) (h : j ≠ k) : ∀ t : Tbl α, Tbl.find j (Tbl.ins k v t) = Tbl.find j t
  | [] => by simp [Tbl.ins, Tbl.find, Ne.symm h]
  | (k', v') :: t => by
    unfold Tbl.ins; split
    · simp [Tbl.find, Ne.symm h]
    · simp only [Tbl.find]; rw [Tbl.find_ins_ne v h t]

@[simp] theorem Tbl.get_set_same [DecidableEq α] (t : Tbl α) (k : Nat) (d v : α) : Tbl.get (Tbl.set t k d v) k d = v := by
  unfold Tbl.set Tbl.get; split
  · next e => simp [Tbl.find_erase_same, e]
  · simp [Tbl.find_ins_same k v _ (Tbl.find_erase_same k t)]

theorem Tbl.get_set_ne [DecidableEq α] (t : Tbl α) {k j : Nat} (d e v : α) (h : j ≠ k) :
    Tbl.get (Tbl.set t k d v) j e = Tbl.get t j e := by
  unfold Tbl.set Tbl.get; split
  · rw [Tbl.find_erase_ne h]
  · rw [Tbl.find_ins_ne v h, Tbl.find_erase_ne h]

@[simp] theorem Tbl.find_put_same (t : Tbl α) (k : Nat) (v : α) : Tbl.find k (Tbl.put t k v) = some v :=
  Tbl.find_ins_same k v _ (Tbl.find_erase_same k t)

theorem Tbl.find_put_ne (t : Tbl α) {k j : Nat} (v : α) (h : j ≠ k) : Tbl.find j (Tbl.put t k v) = Tbl.find j t := by
  unfold Tbl.put; rw [Tbl.find_ins_ne v h, Tbl.find_erase_ne h]

@[simp] theorem Tbl.get_put_same (t : Tbl α) (k : Nat) (d v : α) : Tbl.get (Tbl.put t k v) k d = v := by
  simp [Tbl.get]

theorem Tbl.get_put_ne (t : Tbl α) {k j : Nat} (d v : α) (h : j ≠ k) : Tbl.get (Tbl.put t k v) j d = Tbl.get t j d := by
  simp [Tbl.get, Tbl.find_put_ne t v h]

/-! ### The canonical form -/

/-- Every key of a table is larger than `k`. -/
theorem Tbl.sorted_cons {k : Nat} {v : α} {t : Tbl α} :
    Tbl.sorted ((k, v) :: t) = true ↔ Tbl.sorted t = true ∧ ∀ e ∈ t, k < e.1 := by
  induction t generalizing k v with
  | nil => simp [Tbl.sorted]
  | cons e t ih =>
    obtain ⟨k', v'⟩ := e
    simp only [Tbl.sorted, Bool.and_eq_true, decide_eq_true_eq, List.mem_cons, forall_eq_or_imp]
    constructor
    · rintro ⟨h, hs⟩
      exact ⟨hs, h, fun e he => lt_trans h ((ih.mp hs).2 e he)⟩
    · rintro ⟨hs, h, _⟩
      exact ⟨h, hs⟩

theorem Tbl.mem_erase {k : Nat} {e : Nat × α} {t : Tbl α} : e ∈ Tbl.erase k t ↔ e ∈ t ∧ e.1 ≠ k := by
  induction t with
  | nil => simp [Tbl.erase]
  | cons x t ih =>
    obtain ⟨k', v'⟩ := x
    unfold Tbl.erase; split
    · next h => subst h; rw [ih]; constructor
                · rintro ⟨a, b⟩; exact ⟨List.mem_cons_of_mem _ a, b⟩
                · rintro ⟨a, b⟩; rcases List.mem_cons.mp a with rfl | a
                  · exact absurd rfl b
                  · exact ⟨a, b⟩
    · next h => rw [List.mem_cons, ih, List.mem_cons]; constructor
                · rintro (rfl | ⟨a, b⟩)
                  · exact ⟨.inl rfl, h⟩
                  · exact ⟨.inr a, b⟩
                · rintro ⟨rfl | a, b⟩
                  · exact .inl rfl
                  · exact .inr ⟨a, b⟩

theorem Tbl.sorted_erase (k : Nat) {t : Tbl α} (h : Tbl.sorted t = true) : Tbl.sorted (Tbl.erase k t) = true := by
  induction t with
  | nil => rfl
  | cons x t ih =>
    obtain ⟨k', v'⟩ := x
    rw [Tbl.sorted_cons] at h
    unfold Tbl.erase; split
    · exact ih h.1
    · exact Tbl.sorted_cons.mpr ⟨ih h.1, fun e he => h.2 e (Tbl.mem_erase.mp he).1⟩

theorem Tbl.mem_ins {k : Nat} {v : α} {e : Nat × α} {t : Tbl α} : e ∈ Tbl.ins k v t ↔ e = (k, v) ∨ e ∈ t := by
  induction t with
  | nil => simp [Tbl.ins]
  | cons x t ih =>
    unfold Tbl.ins; split
    · simp
    · rw [List.mem_cons, ih, List.mem_cons]; tauto

theorem Tbl.sorted_ins {k : Nat} {v : α} {t : Tbl α} (h : Tbl.sorted t = true) (hk : ∀ e ∈ t, e.1 ≠ k) :
    Tbl.sorted (Tbl.ins k v t) = true := by
  induction t with
  | nil => rfl
  | cons x t ih =>
    obtain ⟨k', v'⟩ := x
    have h' := Tbl.sorted_cons.mp h
    have hne : k' ≠ k := hk _ List.mem_cons_self
    unfold Tbl.ins; split
    · next hlt =>
      refine Tbl.sorted_cons.mpr ⟨h, ?_⟩
      intro e he
      rcases List.mem_cons.mp he with rfl | he
      · exact hlt
      · exact lt_trans hlt (h'.2 e he)
    · next hlt =>
      refine Tbl.sorted_cons.mpr ⟨ih h'.1 (fun e he => hk e (List.mem_cons_of_mem _ he)), ?_⟩
      intro e he
      rcases Tbl.mem_ins.mp he with rfl | he
      · exact lt_of_le_of_ne (not_lt.mp hlt) hne
      · exact h'.2 e he

theorem Tbl.sorted_put (k : Nat) (v : α) {t : Tbl α} (h : Tbl.sorted t = true) : Tbl.sorted (Tbl.put t k v) = true :=
  Tbl.sorted_ins (Tbl.sorted_erase k h) (fun _ he => (Tbl.mem_erase.mp he).2)

theorem Tbl.sorted_set [DecidableEq α] (k : Nat) (d v : α) {t : Tbl α} (h : Tbl.sorted t = true) :
    Tbl.sorted (Tbl.set t k d v) = true := by
  unfold Tbl.set; split
  · exact Tbl.sorted_erase k h
  · exact Tbl.sorted_put k v h

theorem Tbl.sorted_filter (p : Nat × α → Bool) {t : Tbl α} (h : Tbl.sorted t = true) : Tbl.sorted (t.filter p) = true := by
  induction t with
  | nil => rfl
  | cons x t ih =>
    obtain ⟨k', v'⟩ := x
    have h' := Tbl.sorted_cons.mp h
    rw [List.filter_cons]; split
    · exact Tbl.sorted_cons.mpr ⟨ih h'.1, fun e he => h'.2 e (List.mem_filter.mp he).1⟩
    · exact ih h'.1

theorem Tbl.sorted_foldl_put {β : Type} (k : β → Nat) (v : β → α) (xs : List β) :
    ∀ {t : Tbl α}, Tbl.sorted t = true → Tbl.sorted (xs.foldl (fun r e => Tbl.put r (k e) (v e)) t) = true := by
  induction xs with
  | nil => intro t h; exact h
  | cons x xs ih => intro t h; exact ih (Tbl.sorted_put _ _ h)

theorem Tbl.wf_set [DecidableEq α] {d : Nat → α} (k : Nat) (v : α) {t : Tbl α} (h : Tbl.wf d t = true) :
    Tbl.wf d (Tbl.set t k (d k) v) = true := by
  simp only [Tbl.wf, Bool.and_eq_true, List.all_eq_true, decide_eq_true_eq] at h ⊢
  refine ⟨Tbl.sorted_set k (d k) v h.1, ?_⟩
  intro e he
  unfold Tbl.set at he; split at he
  · exact h.2 e (Tbl.mem_erase.mp he).1
  · next hv =>
    rcases Tbl.mem_ins.mp he with rfl | he
    · exact hv
    · exact h.2 e (Tbl.mem_erase.mp he).1

/-! ### The byte memories -/

/-- A write of one byte of DRAM keeps the canonical form. -/
theorem Mems.wf_setDramByte {m : Mems} (a : Nat) (b : Byte) (h : m.wf = true) : (m.setDramByte a b).wf = true := by
  simp only [Mems.wf, Bool.and_eq_true] at h ⊢
  exact ⟨Tbl.wf_set a b h.1, h.2⟩

/-- A write of a run of bytes of DRAM keeps the canonical form. -/
theorem Mems.wf_dramPut (bs : List (Option Byte)) : ∀ {m : Mems} (a : Nat), m.wf = true → (m.dramPut a bs).wf = true := by
  induction bs with
  | nil => intro m a h; exact h
  | cons b bs ih =>
    intro m a h
    cases b with
    | none => exact ih (a + 1) h
    | some b => exact ih (a + 1) (Mems.wf_setDramByte a b h)

/-- A write of DRAM keeps the canonical form. -/
theorem Mems.wf_dramWrite {m : Mems} (a : Nat) (bs : List (Option Byte)) (h : m.wf = true) : (m.dramWrite a bs).wf = true :=
  Mems.wf_dramPut bs a h

/-- A byte of DRAM reads as it was written. -/
@[simp] theorem Mems.dramByte_setDramByte_same (m : Mems) (a : Nat) (b : Byte) : (m.setDramByte a b).dramByte a = b := by
  simp [Mems.setDramByte, Mems.dramByte]

/-- A write of one byte of DRAM leaves every other byte alone. -/
theorem Mems.dramByte_setDramByte_ne (m : Mems) {a j : Nat} (b : Byte) (h : j ≠ a) : (m.setDramByte a b).dramByte j = m.dramByte j := by
  simp [Mems.setDramByte, Mems.dramByte, Tbl.get_set_ne _ _ _ _ h]

end Sys2Proof.Machine
end

