-- ==== Sys2Proof/Laws/State.lean ====
section
/-! SUPPORT. What each update of a state leaves alone, field by field, and what a register field reads after one. -/

namespace Sys2Proof.Machine

/-! ### setFld -/

@[simp] theorem State.setFld_pending (s : State) (f : Fld) (v : Nat) : (s.setFld f v).pending = s.pending := rfl
@[simp] theorem State.setFld_freeCtr (s : State) (f : Fld) (v : Nat) : (s.setFld f v).freeCtr = s.freeCtr := rfl
@[simp] theorem State.setFld_sent (s : State) (f : Fld) (v : Nat) : (s.setFld f v).sent = s.sent := rfl
@[simp] theorem State.setFld_force (s : State) (f : Fld) (v : Nat) : (s.setFld f v).force = s.force := rfl
@[simp] theorem State.setFld_commits (s : State) (f : Fld) (v : Nat) : (s.setFld f v).commits = s.commits := rfl
@[simp] theorem State.setFld_cfg (s : State) (f : Fld) (v : Nat) : (s.setFld f v).cfg = s.cfg := rfl
@[simp] theorem State.setFld_blk (s : State) (f : Fld) (v : Nat) : (s.setFld f v).blk = s.blk := rfl
@[simp] theorem State.setFld_sxm (s : State) (f : Fld) (v : Nat) : (s.setFld f v).sxm = s.sxm := rfl
@[simp] theorem State.setFld_cln (s : State) (f : Fld) (v : Nat) : (s.setFld f v).cln = s.cln := rfl
@[simp] theorem State.setFld_chm (s : State) (f : Fld) (v : Nat) : (s.setFld f v).chm = s.chm := rfl
@[simp] theorem State.setFld_dpl (s : State) (f : Fld) (v : Nat) : (s.setFld f v).dpl = s.dpl := rfl
@[simp] theorem State.setFld_mal (s : State) (f : Fld) (v : Nat) : (s.setFld f v).mal = s.mal := rfl
@[simp] theorem State.setFld_old (s : State) (f : Fld) (v : Nat) : (s.setFld f v).old = s.old := rfl
@[simp] theorem State.setFld_ports (s : State) (f : Fld) (v : Nat) : (s.setFld f v).ports = s.ports := rfl
@[simp] theorem State.setFld_mem (s : State) (f : Fld) (v : Nat) : (s.setFld f v).mem = s.mem := rfl
@[simp] theorem State.setFld_hif (s : State) (f : Fld) (v : Nat) : (s.setFld f v).hif = s.hif := rfl
@[simp] theorem State.setFld_rings (s : State) (f : Fld) (v : Nat) : (s.setFld f v).rings = s.rings := rfl
@[simp] theorem State.setFld_net (s : State) (f : Fld) (v : Nat) : (s.setFld f v).net = s.net := rfl
@[simp] theorem State.setFld_tu (s : State) (f : Fld) (v : Nat) : (s.setFld f v).tu = s.tu := rfl
@[simp] theorem State.setFld_clv (s : State) (f : Fld) (v : Nat) : (s.setFld f v).clv = s.clv := rfl
@[simp] theorem State.setFld_beat (s : State) (f : Fld) (v : Nat) : (s.setFld f v).beat = s.beat := rfl
@[simp] theorem State.setFld_gate (s : State) (f : Fld) (v : Nat) : (s.setFld f v).gate = s.gate := rfl
@[simp] theorem State.setFld_hsk (s : State) (f : Fld) (v : Nat) : (s.setFld f v).hsk = s.hsk := rfl
@[simp] theorem State.setFld_peal (s : State) (f : Fld) (v : Nat) : (s.setFld f v).peal = s.peal := rfl
@[simp] theorem State.setFld_flm (s : State) (f : Fld) (v : Nat) : (s.setFld f v).flm = s.flm := rfl
@[simp] theorem State.setFld_smp (s : State) (f : Fld) (v : Nat) : (s.setFld f v).smp = s.smp := rfl
@[simp] theorem State.setFld_evt (s : State) (f : Fld) (v : Nat) : (s.setFld f v).evt = s.evt := rfl
@[simp] theorem State.setFld_panel (s : State) (f : Fld) (v : Nat) : (s.setFld f v).panel = s.panel := rfl
@[simp] theorem State.setFld_ident (s : State) (f : Fld) (v : Nat) : (s.setFld f v).ident = s.ident := rfl
@[simp] theorem State.setFld_pmu (s : State) (f : Fld) (v : Nat) : (s.setFld f v).pmu = s.pmu := rfl
@[simp] theorem State.setFld_held (s : State) (f : Fld) (v : Nat) : (s.setFld f v).held = s.held := rfl
@[simp] theorem State.setFld_heldNext (s : State) (f : Fld) (v : Nat) : (s.setFld f v).heldNext = s.heldNext := rfl

/-! ### setForce -/

@[simp] theorem State.setForce_pending (s : State) (f : Fld) (v : Nat) : (s.setForce f v).pending = s.pending := rfl
@[simp] theorem State.setForce_freeCtr (s : State) (f : Fld) (v : Nat) : (s.setForce f v).freeCtr = s.freeCtr := rfl
@[simp] theorem State.setForce_sent (s : State) (f : Fld) (v : Nat) : (s.setForce f v).sent = s.sent := rfl
@[simp] theorem State.setForce_regs (s : State) (f : Fld) (v : Nat) : (s.setForce f v).regs = s.regs := rfl
@[simp] theorem State.setForce_commits (s : State) (f : Fld) (v : Nat) : (s.setForce f v).commits = s.commits := rfl
@[simp] theorem State.setForce_cfg (s : State) (f : Fld) (v : Nat) : (s.setForce f v).cfg = s.cfg := rfl
@[simp] theorem State.setForce_blk (s : State) (f : Fld) (v : Nat) : (s.setForce f v).blk = s.blk := rfl
@[simp] theorem State.setForce_sxm (s : State) (f : Fld) (v : Nat) : (s.setForce f v).sxm = s.sxm := rfl
@[simp] theorem State.setForce_cln (s : State) (f : Fld) (v : Nat) : (s.setForce f v).cln = s.cln := rfl
@[simp] theorem State.setForce_chm (s : State) (f : Fld) (v : Nat) : (s.setForce f v).chm = s.chm := rfl
@[simp] theorem State.setForce_dpl (s : State) (f : Fld) (v : Nat) : (s.setForce f v).dpl = s.dpl := rfl
@[simp] theorem State.setForce_mal (s : State) (f : Fld) (v : Nat) : (s.setForce f v).mal = s.mal := rfl
@[simp] theorem State.setForce_old (s : State) (f : Fld) (v : Nat) : (s.setForce f v).old = s.old := rfl
@[simp] theorem State.setForce_ports (s : State) (f : Fld) (v : Nat) : (s.setForce f v).ports = s.ports := rfl
@[simp] theorem State.setForce_mem (s : State) (f : Fld) (v : Nat) : (s.setForce f v).mem = s.mem := rfl
@[simp] theorem State.setForce_hif (s : State) (f : Fld) (v : Nat) : (s.setForce f v).hif = s.hif := rfl
@[simp] theorem State.setForce_rings (s : State) (f : Fld) (v : Nat) : (s.setForce f v).rings = s.rings := rfl
@[simp] theorem State.setForce_net (s : State) (f : Fld) (v : Nat) : (s.setForce f v).net = s.net := rfl
@[simp] theorem State.setForce_tu (s : State) (f : Fld) (v : Nat) : (s.setForce f v).tu = s.tu := rfl
@[simp] theorem State.setForce_clv (s : State) (f : Fld) (v : Nat) : (s.setForce f v).clv = s.clv := rfl
@[simp] theorem State.setForce_beat (s : State) (f : Fld) (v : Nat) : (s.setForce f v).beat = s.beat := rfl
@[simp] theorem State.setForce_gate (s : State) (f : Fld) (v : Nat) : (s.setForce f v).gate = s.gate := rfl
@[simp] theorem State.setForce_hsk (s : State) (f : Fld) (v : Nat) : (s.setForce f v).hsk = s.hsk := rfl
@[simp] theorem State.setForce_peal (s : State) (f : Fld) (v : Nat) : (s.setForce f v).peal = s.peal := rfl
@[simp] theorem State.setForce_flm (s : State) (f : Fld) (v : Nat) : (s.setForce f v).flm = s.flm := rfl
@[simp] theorem State.setForce_smp (s : State) (f : Fld) (v : Nat) : (s.setForce f v).smp = s.smp := rfl
@[simp] theorem State.setForce_evt (s : State) (f : Fld) (v : Nat) : (s.setForce f v).evt = s.evt := rfl
@[simp] theorem State.setForce_panel (s : State) (f : Fld) (v : Nat) : (s.setForce f v).panel = s.panel := rfl
@[simp] theorem State.setForce_ident (s : State) (f : Fld) (v : Nat) : (s.setForce f v).ident = s.ident := rfl
@[simp] theorem State.setForce_pmu (s : State) (f : Fld) (v : Nat) : (s.setForce f v).pmu = s.pmu := rfl
@[simp] theorem State.setForce_held (s : State) (f : Fld) (v : Nat) : (s.setForce f v).held = s.held := rfl
@[simp] theorem State.setForce_heldNext (s : State) (f : Fld) (v : Nat) : (s.setForce f v).heldNext = s.heldNext := rfl

/-! ### emit -/

@[simp] theorem State.emit_pending (s : State) (e : Emission) : (s.emit e).pending = s.pending := rfl
@[simp] theorem State.emit_freeCtr (s : State) (e : Emission) : (s.emit e).freeCtr = s.freeCtr := rfl
@[simp] theorem State.emit_regs (s : State) (e : Emission) : (s.emit e).regs = s.regs := rfl
@[simp] theorem State.emit_force (s : State) (e : Emission) : (s.emit e).force = s.force := rfl
@[simp] theorem State.emit_commits (s : State) (e : Emission) : (s.emit e).commits = s.commits := rfl
@[simp] theorem State.emit_cfg (s : State) (e : Emission) : (s.emit e).cfg = s.cfg := rfl
@[simp] theorem State.emit_blk (s : State) (e : Emission) : (s.emit e).blk = s.blk := rfl
@[simp] theorem State.emit_sxm (s : State) (e : Emission) : (s.emit e).sxm = s.sxm := rfl
@[simp] theorem State.emit_cln (s : State) (e : Emission) : (s.emit e).cln = s.cln := rfl
@[simp] theorem State.emit_chm (s : State) (e : Emission) : (s.emit e).chm = s.chm := rfl
@[simp] theorem State.emit_dpl (s : State) (e : Emission) : (s.emit e).dpl = s.dpl := rfl
@[simp] theorem State.emit_mal (s : State) (e : Emission) : (s.emit e).mal = s.mal := rfl
@[simp] theorem State.emit_old (s : State) (e : Emission) : (s.emit e).old = s.old := rfl
@[simp] theorem State.emit_ports (s : State) (e : Emission) : (s.emit e).ports = s.ports := rfl
@[simp] theorem State.emit_mem (s : State) (e : Emission) : (s.emit e).mem = s.mem := rfl
@[simp] theorem State.emit_hif (s : State) (e : Emission) : (s.emit e).hif = s.hif := rfl
@[simp] theorem State.emit_rings (s : State) (e : Emission) : (s.emit e).rings = s.rings := rfl
@[simp] theorem State.emit_net (s : State) (e : Emission) : (s.emit e).net = s.net := rfl
@[simp] theorem State.emit_tu (s : State) (e : Emission) : (s.emit e).tu = s.tu := rfl
@[simp] theorem State.emit_clv (s : State) (e : Emission) : (s.emit e).clv = s.clv := rfl
@[simp] theorem State.emit_beat (s : State) (e : Emission) : (s.emit e).beat = s.beat := rfl
@[simp] theorem State.emit_gate (s : State) (e : Emission) : (s.emit e).gate = s.gate := rfl
@[simp] theorem State.emit_hsk (s : State) (e : Emission) : (s.emit e).hsk = s.hsk := rfl
@[simp] theorem State.emit_peal (s : State) (e : Emission) : (s.emit e).peal = s.peal := rfl
@[simp] theorem State.emit_flm (s : State) (e : Emission) : (s.emit e).flm = s.flm := rfl
@[simp] theorem State.emit_smp (s : State) (e : Emission) : (s.emit e).smp = s.smp := rfl
@[simp] theorem State.emit_evt (s : State) (e : Emission) : (s.emit e).evt = s.evt := rfl
@[simp] theorem State.emit_panel (s : State) (e : Emission) : (s.emit e).panel = s.panel := rfl
@[simp] theorem State.emit_ident (s : State) (e : Emission) : (s.emit e).ident = s.ident := rfl
@[simp] theorem State.emit_pmu (s : State) (e : Emission) : (s.emit e).pmu = s.pmu := rfl
@[simp] theorem State.emit_held (s : State) (e : Emission) : (s.emit e).held = s.held := rfl
@[simp] theorem State.emit_heldNext (s : State) (e : Emission) : (s.emit e).heldNext = s.heldNext := rfl

/-! ### fresh -/

@[simp] theorem State.fresh_pending (s : State) : (s.fresh.2).pending = s.pending := rfl
@[simp] theorem State.fresh_sent (s : State) : (s.fresh.2).sent = s.sent := rfl
@[simp] theorem State.fresh_regs (s : State) : (s.fresh.2).regs = s.regs := rfl
@[simp] theorem State.fresh_force (s : State) : (s.fresh.2).force = s.force := rfl
@[simp] theorem State.fresh_commits (s : State) : (s.fresh.2).commits = s.commits := rfl
@[simp] theorem State.fresh_cfg (s : State) : (s.fresh.2).cfg = s.cfg := rfl
@[simp] theorem State.fresh_blk (s : State) : (s.fresh.2).blk = s.blk := rfl
@[simp] theorem State.fresh_sxm (s : State) : (s.fresh.2).sxm = s.sxm := rfl
@[simp] theorem State.fresh_cln (s : State) : (s.fresh.2).cln = s.cln := rfl
@[simp] theorem State.fresh_chm (s : State) : (s.fresh.2).chm = s.chm := rfl
@[simp] theorem State.fresh_dpl (s : State) : (s.fresh.2).dpl = s.dpl := rfl
@[simp] theorem State.fresh_mal (s : State) : (s.fresh.2).mal = s.mal := rfl
@[simp] theorem State.fresh_old (s : State) : (s.fresh.2).old = s.old := rfl
@[simp] theorem State.fresh_ports (s : State) : (s.fresh.2).ports = s.ports := rfl
@[simp] theorem State.fresh_mem (s : State) : (s.fresh.2).mem = s.mem := rfl
@[simp] theorem State.fresh_hif (s : State) : (s.fresh.2).hif = s.hif := rfl
@[simp] theorem State.fresh_rings (s : State) : (s.fresh.2).rings = s.rings := rfl
@[simp] theorem State.fresh_net (s : State) : (s.fresh.2).net = s.net := rfl
@[simp] theorem State.fresh_tu (s : State) : (s.fresh.2).tu = s.tu := rfl
@[simp] theorem State.fresh_clv (s : State) : (s.fresh.2).clv = s.clv := rfl
@[simp] theorem State.fresh_beat (s : State) : (s.fresh.2).beat = s.beat := rfl
@[simp] theorem State.fresh_gate (s : State) : (s.fresh.2).gate = s.gate := rfl
@[simp] theorem State.fresh_hsk (s : State) : (s.fresh.2).hsk = s.hsk := rfl
@[simp] theorem State.fresh_peal (s : State) : (s.fresh.2).peal = s.peal := rfl
@[simp] theorem State.fresh_flm (s : State) : (s.fresh.2).flm = s.flm := rfl
@[simp] theorem State.fresh_smp (s : State) : (s.fresh.2).smp = s.smp := rfl
@[simp] theorem State.fresh_evt (s : State) : (s.fresh.2).evt = s.evt := rfl
@[simp] theorem State.fresh_panel (s : State) : (s.fresh.2).panel = s.panel := rfl
@[simp] theorem State.fresh_ident (s : State) : (s.fresh.2).ident = s.ident := rfl
@[simp] theorem State.fresh_pmu (s : State) : (s.fresh.2).pmu = s.pmu := rfl
@[simp] theorem State.fresh_held (s : State) : (s.fresh.2).held = s.held := rfl
@[simp] theorem State.fresh_heldNext (s : State) : (s.fresh.2).heldNext = s.heldNext := rfl

/-! ### random -/

@[simp] theorem State.random_pending (s : State) : (s.random.2).pending = s.pending := rfl
@[simp] theorem State.random_sent (s : State) : (s.random.2).sent = s.sent := rfl
@[simp] theorem State.random_regs (s : State) : (s.random.2).regs = s.regs := rfl
@[simp] theorem State.random_force (s : State) : (s.random.2).force = s.force := rfl
@[simp] theorem State.random_commits (s : State) : (s.random.2).commits = s.commits := rfl
@[simp] theorem State.random_cfg (s : State) : (s.random.2).cfg = s.cfg := rfl
@[simp] theorem State.random_blk (s : State) : (s.random.2).blk = s.blk := rfl
@[simp] theorem State.random_sxm (s : State) : (s.random.2).sxm = s.sxm := rfl
@[simp] theorem State.random_cln (s : State) : (s.random.2).cln = s.cln := rfl
@[simp] theorem State.random_chm (s : State) : (s.random.2).chm = s.chm := rfl
@[simp] theorem State.random_dpl (s : State) : (s.random.2).dpl = s.dpl := rfl
@[simp] theorem State.random_mal (s : State) : (s.random.2).mal = s.mal := rfl
@[simp] theorem State.random_old (s : State) : (s.random.2).old = s.old := rfl
@[simp] theorem State.random_ports (s : State) : (s.random.2).ports = s.ports := rfl
@[simp] theorem State.random_mem (s : State) : (s.random.2).mem = s.mem := rfl
@[simp] theorem State.random_hif (s : State) : (s.random.2).hif = s.hif := rfl
@[simp] theorem State.random_rings (s : State) : (s.random.2).rings = s.rings := rfl
@[simp] theorem State.random_net (s : State) : (s.random.2).net = s.net := rfl
@[simp] theorem State.random_tu (s : State) : (s.random.2).tu = s.tu := rfl
@[simp] theorem State.random_clv (s : State) : (s.random.2).clv = s.clv := rfl
@[simp] theorem State.random_beat (s : State) : (s.random.2).beat = s.beat := rfl
@[simp] theorem State.random_gate (s : State) : (s.random.2).gate = s.gate := rfl
@[simp] theorem State.random_hsk (s : State) : (s.random.2).hsk = s.hsk := rfl
@[simp] theorem State.random_peal (s : State) : (s.random.2).peal = s.peal := rfl
@[simp] theorem State.random_flm (s : State) : (s.random.2).flm = s.flm := rfl
@[simp] theorem State.random_smp (s : State) : (s.random.2).smp = s.smp := rfl
@[simp] theorem State.random_evt (s : State) : (s.random.2).evt = s.evt := rfl
@[simp] theorem State.random_panel (s : State) : (s.random.2).panel = s.panel := rfl
@[simp] theorem State.random_ident (s : State) : (s.random.2).ident = s.ident := rfl
@[simp] theorem State.random_pmu (s : State) : (s.random.2).pmu = s.pmu := rfl
@[simp] theorem State.random_held (s : State) : (s.random.2).held = s.held := rfl
@[simp] theorem State.random_heldNext (s : State) : (s.random.2).heldNext = s.heldNext := rfl

/-! ### hold -/

@[simp] theorem State.hold_pending (s : State) (h : Held) : (s.hold h).pending = s.pending := rfl
@[simp] theorem State.hold_freeCtr (s : State) (h : Held) : (s.hold h).freeCtr = s.freeCtr := rfl
@[simp] theorem State.hold_sent (s : State) (h : Held) : (s.hold h).sent = s.sent := rfl
@[simp] theorem State.hold_regs (s : State) (h : Held) : (s.hold h).regs = s.regs := rfl
@[simp] theorem State.hold_force (s : State) (h : Held) : (s.hold h).force = s.force := rfl
@[simp] theorem State.hold_commits (s : State) (h : Held) : (s.hold h).commits = s.commits := rfl
@[simp] theorem State.hold_cfg (s : State) (h : Held) : (s.hold h).cfg = s.cfg := rfl
@[simp] theorem State.hold_blk (s : State) (h : Held) : (s.hold h).blk = s.blk := rfl
@[simp] theorem State.hold_sxm (s : State) (h : Held) : (s.hold h).sxm = s.sxm := rfl
@[simp] theorem State.hold_cln (s : State) (h : Held) : (s.hold h).cln = s.cln := rfl
@[simp] theorem State.hold_chm (s : State) (h : Held) : (s.hold h).chm = s.chm := rfl
@[simp] theorem State.hold_dpl (s : State) (h : Held) : (s.hold h).dpl = s.dpl := rfl
@[simp] theorem State.hold_mal (s : State) (h : Held) : (s.hold h).mal = s.mal := rfl
@[simp] theorem State.hold_old (s : State) (h : Held) : (s.hold h).old = s.old := rfl
@[simp] theorem State.hold_ports (s : State) (h : Held) : (s.hold h).ports = s.ports := rfl
@[simp] theorem State.hold_mem (s : State) (h : Held) : (s.hold h).mem = s.mem := rfl
@[simp] theorem State.hold_hif (s : State) (h : Held) : (s.hold h).hif = s.hif := rfl
@[simp] theorem State.hold_rings (s : State) (h : Held) : (s.hold h).rings = s.rings := rfl
@[simp] theorem State.hold_net (s : State) (h : Held) : (s.hold h).net = s.net := rfl
@[simp] theorem State.hold_tu (s : State) (h : Held) : (s.hold h).tu = s.tu := rfl
@[simp] theorem State.hold_clv (s : State) (h : Held) : (s.hold h).clv = s.clv := rfl
@[simp] theorem State.hold_beat (s : State) (h : Held) : (s.hold h).beat = s.beat := rfl
@[simp] theorem State.hold_gate (s : State) (h : Held) : (s.hold h).gate = s.gate := rfl
@[simp] theorem State.hold_hsk (s : State) (h : Held) : (s.hold h).hsk = s.hsk := rfl
@[simp] theorem State.hold_peal (s : State) (h : Held) : (s.hold h).peal = s.peal := rfl
@[simp] theorem State.hold_flm (s : State) (h : Held) : (s.hold h).flm = s.flm := rfl
@[simp] theorem State.hold_smp (s : State) (h : Held) : (s.hold h).smp = s.smp := rfl
@[simp] theorem State.hold_evt (s : State) (h : Held) : (s.hold h).evt = s.evt := rfl
@[simp] theorem State.hold_panel (s : State) (h : Held) : (s.hold h).panel = s.panel := rfl
@[simp] theorem State.hold_ident (s : State) (h : Held) : (s.hold h).ident = s.ident := rfl
@[simp] theorem State.hold_pmu (s : State) (h : Held) : (s.hold h).pmu = s.pmu := rfl

/-! ### setBus -/

@[simp] theorem State.setBus_pending (s : State) (k b : Nat) (v : BusBlk) : (s.setBus k b v).pending = s.pending := rfl
@[simp] theorem State.setBus_freeCtr (s : State) (k b : Nat) (v : BusBlk) : (s.setBus k b v).freeCtr = s.freeCtr := rfl
@[simp] theorem State.setBus_sent (s : State) (k b : Nat) (v : BusBlk) : (s.setBus k b v).sent = s.sent := rfl
@[simp] theorem State.setBus_regs (s : State) (k b : Nat) (v : BusBlk) : (s.setBus k b v).regs = s.regs := rfl
@[simp] theorem State.setBus_force (s : State) (k b : Nat) (v : BusBlk) : (s.setBus k b v).force = s.force := rfl
@[simp] theorem State.setBus_commits (s : State) (k b : Nat) (v : BusBlk) : (s.setBus k b v).commits = s.commits := rfl
@[simp] theorem State.setBus_cfg (s : State) (k b : Nat) (v : BusBlk) : (s.setBus k b v).cfg = s.cfg := rfl
@[simp] theorem State.setBus_blk (s : State) (k b : Nat) (v : BusBlk) : (s.setBus k b v).blk = s.blk := rfl
@[simp] theorem State.setBus_cln (s : State) (k b : Nat) (v : BusBlk) : (s.setBus k b v).cln = s.cln := rfl
@[simp] theorem State.setBus_chm (s : State) (k b : Nat) (v : BusBlk) : (s.setBus k b v).chm = s.chm := rfl
@[simp] theorem State.setBus_dpl (s : State) (k b : Nat) (v : BusBlk) : (s.setBus k b v).dpl = s.dpl := rfl
@[simp] theorem State.setBus_mal (s : State) (k b : Nat) (v : BusBlk) : (s.setBus k b v).mal = s.mal := rfl
@[simp] theorem State.setBus_old (s : State) (k b : Nat) (v : BusBlk) : (s.setBus k b v).old = s.old := rfl
@[simp] theorem State.setBus_ports (s : State) (k b : Nat) (v : BusBlk) : (s.setBus k b v).ports = s.ports := rfl
@[simp] theorem State.setBus_mem (s : State) (k b : Nat) (v : BusBlk) : (s.setBus k b v).mem = s.mem := rfl
@[simp] theorem State.setBus_hif (s : State) (k b : Nat) (v : BusBlk) : (s.setBus k b v).hif = s.hif := rfl
@[simp] theorem State.setBus_rings (s : State) (k b : Nat) (v : BusBlk) : (s.setBus k b v).rings = s.rings := rfl
@[simp] theorem State.setBus_net (s : State) (k b : Nat) (v : BusBlk) : (s.setBus k b v).net = s.net := rfl
@[simp] theorem State.setBus_tu (s : State) (k b : Nat) (v : BusBlk) : (s.setBus k b v).tu = s.tu := rfl
@[simp] theorem State.setBus_clv (s : State) (k b : Nat) (v : BusBlk) : (s.setBus k b v).clv = s.clv := rfl
@[simp] theorem State.setBus_beat (s : State) (k b : Nat) (v : BusBlk) : (s.setBus k b v).beat = s.beat := rfl
@[simp] theorem State.setBus_gate (s : State) (k b : Nat) (v : BusBlk) : (s.setBus k b v).gate = s.gate := rfl
@[simp] theorem State.setBus_hsk (s : State) (k b : Nat) (v : BusBlk) : (s.setBus k b v).hsk = s.hsk := rfl
@[simp] theorem State.setBus_peal (s : State) (k b : Nat) (v : BusBlk) : (s.setBus k b v).peal = s.peal := rfl
@[simp] theorem State.setBus_flm (s : State) (k b : Nat) (v : BusBlk) : (s.setBus k b v).flm = s.flm := rfl
@[simp] theorem State.setBus_smp (s : State) (k b : Nat) (v : BusBlk) : (s.setBus k b v).smp = s.smp := rfl
@[simp] theorem State.setBus_evt (s : State) (k b : Nat) (v : BusBlk) : (s.setBus k b v).evt = s.evt := rfl
@[simp] theorem State.setBus_panel (s : State) (k b : Nat) (v : BusBlk) : (s.setBus k b v).panel = s.panel := rfl
@[simp] theorem State.setBus_ident (s : State) (k b : Nat) (v : BusBlk) : (s.setBus k b v).ident = s.ident := rfl
@[simp] theorem State.setBus_pmu (s : State) (k b : Nat) (v : BusBlk) : (s.setBus k b v).pmu = s.pmu := rfl
@[simp] theorem State.setBus_held (s : State) (k b : Nat) (v : BusBlk) : (s.setBus k b v).held = s.held := rfl
@[simp] theorem State.setBus_heldNext (s : State) (k b : Nat) (v : BusBlk) : (s.setBus k b v).heldNext = s.heldNext := rfl

/-! ### bump -/

@[simp] theorem State.bump_pending (s : State) (f : Fld) (n : Nat) : (s.bump f n).pending = s.pending := by unfold State.bump; dsimp only; split <;> rfl
@[simp] theorem State.bump_freeCtr (s : State) (f : Fld) (n : Nat) : (s.bump f n).freeCtr = s.freeCtr := by unfold State.bump; dsimp only; split <;> rfl
@[simp] theorem State.bump_sent (s : State) (f : Fld) (n : Nat) : (s.bump f n).sent = s.sent := by unfold State.bump; dsimp only; split <;> rfl
@[simp] theorem State.bump_force (s : State) (f : Fld) (n : Nat) : (s.bump f n).force = s.force := by unfold State.bump; dsimp only; split <;> rfl
@[simp] theorem State.bump_commits (s : State) (f : Fld) (n : Nat) : (s.bump f n).commits = s.commits := by unfold State.bump; dsimp only; split <;> rfl
@[simp] theorem State.bump_cfg (s : State) (f : Fld) (n : Nat) : (s.bump f n).cfg = s.cfg := by unfold State.bump; dsimp only; split <;> rfl
@[simp] theorem State.bump_blk (s : State) (f : Fld) (n : Nat) : (s.bump f n).blk = s.blk := by unfold State.bump; dsimp only; split <;> rfl
@[simp] theorem State.bump_sxm (s : State) (f : Fld) (n : Nat) : (s.bump f n).sxm = s.sxm := by unfold State.bump; dsimp only; split <;> rfl
@[simp] theorem State.bump_cln (s : State) (f : Fld) (n : Nat) : (s.bump f n).cln = s.cln := by unfold State.bump; dsimp only; split <;> rfl
@[simp] theorem State.bump_chm (s : State) (f : Fld) (n : Nat) : (s.bump f n).chm = s.chm := by unfold State.bump; dsimp only; split <;> rfl
@[simp] theorem State.bump_dpl (s : State) (f : Fld) (n : Nat) : (s.bump f n).dpl = s.dpl := by unfold State.bump; dsimp only; split <;> rfl
@[simp] theorem State.bump_mal (s : State) (f : Fld) (n : Nat) : (s.bump f n).mal = s.mal := by unfold State.bump; dsimp only; split <;> rfl
@[simp] theorem State.bump_old (s : State) (f : Fld) (n : Nat) : (s.bump f n).old = s.old := by unfold State.bump; dsimp only; split <;> rfl
@[simp] theorem State.bump_ports (s : State) (f : Fld) (n : Nat) : (s.bump f n).ports = s.ports := by unfold State.bump; dsimp only; split <;> rfl
@[simp] theorem State.bump_mem (s : State) (f : Fld) (n : Nat) : (s.bump f n).mem = s.mem := by unfold State.bump; dsimp only; split <;> rfl
@[simp] theorem State.bump_hif (s : State) (f : Fld) (n : Nat) : (s.bump f n).hif = s.hif := by unfold State.bump; dsimp only; split <;> rfl
@[simp] theorem State.bump_rings (s : State) (f : Fld) (n : Nat) : (s.bump f n).rings = s.rings := by unfold State.bump; dsimp only; split <;> rfl
@[simp] theorem State.bump_net (s : State) (f : Fld) (n : Nat) : (s.bump f n).net = s.net := by unfold State.bump; dsimp only; split <;> rfl
@[simp] theorem State.bump_tu (s : State) (f : Fld) (n : Nat) : (s.bump f n).tu = s.tu := by unfold State.bump; dsimp only; split <;> rfl
@[simp] theorem State.bump_clv (s : State) (f : Fld) (n : Nat) : (s.bump f n).clv = s.clv := by unfold State.bump; dsimp only; split <;> rfl
@[simp] theorem State.bump_beat (s : State) (f : Fld) (n : Nat) : (s.bump f n).beat = s.beat := by unfold State.bump; dsimp only; split <;> rfl
@[simp] theorem State.bump_gate (s : State) (f : Fld) (n : Nat) : (s.bump f n).gate = s.gate := by unfold State.bump; dsimp only; split <;> rfl
@[simp] theorem State.bump_hsk (s : State) (f : Fld) (n : Nat) : (s.bump f n).hsk = s.hsk := by unfold State.bump; dsimp only; split <;> rfl
@[simp] theorem State.bump_peal (s : State) (f : Fld) (n : Nat) : (s.bump f n).peal = s.peal := by unfold State.bump; dsimp only; split <;> rfl
@[simp] theorem State.bump_flm (s : State) (f : Fld) (n : Nat) : (s.bump f n).flm = s.flm := by unfold State.bump; dsimp only; split <;> rfl
@[simp] theorem State.bump_smp (s : State) (f : Fld) (n : Nat) : (s.bump f n).smp = s.smp := by unfold State.bump; dsimp only; split <;> rfl
@[simp] theorem State.bump_panel (s : State) (f : Fld) (n : Nat) : (s.bump f n).panel = s.panel := by unfold State.bump; dsimp only; split <;> rfl
@[simp] theorem State.bump_ident (s : State) (f : Fld) (n : Nat) : (s.bump f n).ident = s.ident := by unfold State.bump; dsimp only; split <;> rfl
@[simp] theorem State.bump_pmu (s : State) (f : Fld) (n : Nat) : (s.bump f n).pmu = s.pmu := by unfold State.bump; dsimp only; split <;> rfl
@[simp] theorem State.bump_held (s : State) (f : Fld) (n : Nat) : (s.bump f n).held = s.held := by unfold State.bump; dsimp only; split <;> rfl
@[simp] theorem State.bump_heldNext (s : State) (f : Fld) (n : Nat) : (s.bump f n).heldNext = s.heldNext := by unfold State.bump; dsimp only; split <;> rfl

/-! ### peak -/

@[simp] theorem State.peak_pending (s : State) (f : Fld) (v : Nat) : (s.peak f v).pending = s.pending := by unfold State.peak; split <;> rfl
@[simp] theorem State.peak_freeCtr (s : State) (f : Fld) (v : Nat) : (s.peak f v).freeCtr = s.freeCtr := by unfold State.peak; split <;> rfl
@[simp] theorem State.peak_sent (s : State) (f : Fld) (v : Nat) : (s.peak f v).sent = s.sent := by unfold State.peak; split <;> rfl
@[simp] theorem State.peak_force (s : State) (f : Fld) (v : Nat) : (s.peak f v).force = s.force := by unfold State.peak; split <;> rfl
@[simp] theorem State.peak_commits (s : State) (f : Fld) (v : Nat) : (s.peak f v).commits = s.commits := by unfold State.peak; split <;> rfl
@[simp] theorem State.peak_cfg (s : State) (f : Fld) (v : Nat) : (s.peak f v).cfg = s.cfg := by unfold State.peak; split <;> rfl
@[simp] theorem State.peak_blk (s : State) (f : Fld) (v : Nat) : (s.peak f v).blk = s.blk := by unfold State.peak; split <;> rfl
@[simp] theorem State.peak_sxm (s : State) (f : Fld) (v : Nat) : (s.peak f v).sxm = s.sxm := by unfold State.peak; split <;> rfl
@[simp] theorem State.peak_cln (s : State) (f : Fld) (v : Nat) : (s.peak f v).cln = s.cln := by unfold State.peak; split <;> rfl
@[simp] theorem State.peak_chm (s : State) (f : Fld) (v : Nat) : (s.peak f v).chm = s.chm := by unfold State.peak; split <;> rfl
@[simp] theorem State.peak_dpl (s : State) (f : Fld) (v : Nat) : (s.peak f v).dpl = s.dpl := by unfold State.peak; split <;> rfl
@[simp] theorem State.peak_mal (s : State) (f : Fld) (v : Nat) : (s.peak f v).mal = s.mal := by unfold State.peak; split <;> rfl
@[simp] theorem State.peak_old (s : State) (f : Fld) (v : Nat) : (s.peak f v).old = s.old := by unfold State.peak; split <;> rfl
@[simp] theorem State.peak_ports (s : State) (f : Fld) (v : Nat) : (s.peak f v).ports = s.ports := by unfold State.peak; split <;> rfl
@[simp] theorem State.peak_mem (s : State) (f : Fld) (v : Nat) : (s.peak f v).mem = s.mem := by unfold State.peak; split <;> rfl
@[simp] theorem State.peak_hif (s : State) (f : Fld) (v : Nat) : (s.peak f v).hif = s.hif := by unfold State.peak; split <;> rfl
@[simp] theorem State.peak_rings (s : State) (f : Fld) (v : Nat) : (s.peak f v).rings = s.rings := by unfold State.peak; split <;> rfl
@[simp] theorem State.peak_net (s : State) (f : Fld) (v : Nat) : (s.peak f v).net = s.net := by unfold State.peak; split <;> rfl
@[simp] theorem State.peak_tu (s : State) (f : Fld) (v : Nat) : (s.peak f v).tu = s.tu := by unfold State.peak; split <;> rfl
@[simp] theorem State.peak_clv (s : State) (f : Fld) (v : Nat) : (s.peak f v).clv = s.clv := by unfold State.peak; split <;> rfl
@[simp] theorem State.peak_beat (s : State) (f : Fld) (v : Nat) : (s.peak f v).beat = s.beat := by unfold State.peak; split <;> rfl
@[simp] theorem State.peak_gate (s : State) (f : Fld) (v : Nat) : (s.peak f v).gate = s.gate := by unfold State.peak; split <;> rfl
@[simp] theorem State.peak_hsk (s : State) (f : Fld) (v : Nat) : (s.peak f v).hsk = s.hsk := by unfold State.peak; split <;> rfl
@[simp] theorem State.peak_peal (s : State) (f : Fld) (v : Nat) : (s.peak f v).peal = s.peal := by unfold State.peak; split <;> rfl
@[simp] theorem State.peak_flm (s : State) (f : Fld) (v : Nat) : (s.peak f v).flm = s.flm := by unfold State.peak; split <;> rfl
@[simp] theorem State.peak_smp (s : State) (f : Fld) (v : Nat) : (s.peak f v).smp = s.smp := by unfold State.peak; split <;> rfl
@[simp] theorem State.peak_evt (s : State) (f : Fld) (v : Nat) : (s.peak f v).evt = s.evt := by unfold State.peak; split <;> rfl
@[simp] theorem State.peak_panel (s : State) (f : Fld) (v : Nat) : (s.peak f v).panel = s.panel := by unfold State.peak; split <;> rfl
@[simp] theorem State.peak_ident (s : State) (f : Fld) (v : Nat) : (s.peak f v).ident = s.ident := by unfold State.peak; split <;> rfl
@[simp] theorem State.peak_pmu (s : State) (f : Fld) (v : Nat) : (s.peak f v).pmu = s.pmu := by unfold State.peak; split <;> rfl
@[simp] theorem State.peak_held (s : State) (f : Fld) (v : Nat) : (s.peak f v).held = s.held := by unfold State.peak; split <;> rfl
@[simp] theorem State.peak_heldNext (s : State) (f : Fld) (v : Nat) : (s.peak f v).heldNext = s.heldNext := by unfold State.peak; split <;> rfl

/-! ### touch -/

@[simp] theorem State.touch_pending (s : State) (m : Nat) : (s.touch m).pending = s.pending := by unfold State.touch State.peak; split_ifs <;> rfl
@[simp] theorem State.touch_freeCtr (s : State) (m : Nat) : (s.touch m).freeCtr = s.freeCtr := by unfold State.touch State.peak; split_ifs <;> rfl
@[simp] theorem State.touch_sent (s : State) (m : Nat) : (s.touch m).sent = s.sent := by unfold State.touch State.peak; split_ifs <;> rfl
@[simp] theorem State.touch_force (s : State) (m : Nat) : (s.touch m).force = s.force := by unfold State.touch State.peak; split_ifs <;> rfl
@[simp] theorem State.touch_commits (s : State) (m : Nat) : (s.touch m).commits = s.commits := by unfold State.touch State.peak; split_ifs <;> rfl
@[simp] theorem State.touch_cfg (s : State) (m : Nat) : (s.touch m).cfg = s.cfg := by unfold State.touch State.peak; split_ifs <;> rfl
@[simp] theorem State.touch_blk (s : State) (m : Nat) : (s.touch m).blk = s.blk := by unfold State.touch State.peak; split_ifs <;> rfl
@[simp] theorem State.touch_sxm (s : State) (m : Nat) : (s.touch m).sxm = s.sxm := by unfold State.touch State.peak; split_ifs <;> rfl
@[simp] theorem State.touch_cln (s : State) (m : Nat) : (s.touch m).cln = s.cln := by unfold State.touch State.peak; split_ifs <;> rfl
@[simp] theorem State.touch_chm (s : State) (m : Nat) : (s.touch m).chm = s.chm := by unfold State.touch State.peak; split_ifs <;> rfl
@[simp] theorem State.touch_dpl (s : State) (m : Nat) : (s.touch m).dpl = s.dpl := by unfold State.touch State.peak; split_ifs <;> rfl
@[simp] theorem State.touch_mal (s : State) (m : Nat) : (s.touch m).mal = s.mal := by unfold State.touch State.peak; split_ifs <;> rfl
@[simp] theorem State.touch_old (s : State) (m : Nat) : (s.touch m).old = s.old := by unfold State.touch State.peak; split_ifs <;> rfl
@[simp] theorem State.touch_ports (s : State) (m : Nat) : (s.touch m).ports = s.ports := by unfold State.touch State.peak; split_ifs <;> rfl
@[simp] theorem State.touch_mem (s : State) (m : Nat) : (s.touch m).mem = s.mem := by unfold State.touch State.peak; split_ifs <;> rfl
@[simp] theorem State.touch_hif (s : State) (m : Nat) : (s.touch m).hif = s.hif := by unfold State.touch State.peak; split_ifs <;> rfl
@[simp] theorem State.touch_rings (s : State) (m : Nat) : (s.touch m).rings = s.rings := by unfold State.touch State.peak; split_ifs <;> rfl
@[simp] theorem State.touch_net (s : State) (m : Nat) : (s.touch m).net = s.net := by unfold State.touch State.peak; split_ifs <;> rfl
@[simp] theorem State.touch_tu (s : State) (m : Nat) : (s.touch m).tu = s.tu := by unfold State.touch State.peak; split_ifs <;> rfl
@[simp] theorem State.touch_clv (s : State) (m : Nat) : (s.touch m).clv = s.clv := by unfold State.touch State.peak; split_ifs <;> rfl
@[simp] theorem State.touch_beat (s : State) (m : Nat) : (s.touch m).beat = s.beat := by unfold State.touch State.peak; split_ifs <;> rfl
@[simp] theorem State.touch_gate (s : State) (m : Nat) : (s.touch m).gate = s.gate := by unfold State.touch State.peak; split_ifs <;> rfl
@[simp] theorem State.touch_hsk (s : State) (m : Nat) : (s.touch m).hsk = s.hsk := by unfold State.touch State.peak; split_ifs <;> rfl
@[simp] theorem State.touch_peal (s : State) (m : Nat) : (s.touch m).peal = s.peal := by unfold State.touch State.peak; split_ifs <;> rfl
@[simp] theorem State.touch_flm (s : State) (m : Nat) : (s.touch m).flm = s.flm := by unfold State.touch State.peak; split_ifs <;> rfl
@[simp] theorem State.touch_smp (s : State) (m : Nat) : (s.touch m).smp = s.smp := by unfold State.touch State.peak; split_ifs <;> rfl
@[simp] theorem State.touch_evt (s : State) (m : Nat) : (s.touch m).evt = s.evt := by unfold State.touch State.peak; split_ifs <;> rfl
@[simp] theorem State.touch_panel (s : State) (m : Nat) : (s.touch m).panel = s.panel := by unfold State.touch State.peak; split_ifs <;> rfl
@[simp] theorem State.touch_ident (s : State) (m : Nat) : (s.touch m).ident = s.ident := by unfold State.touch State.peak; split_ifs <;> rfl
@[simp] theorem State.touch_pmu (s : State) (m : Nat) : (s.touch m).pmu = s.pmu := by unfold State.touch State.peak; split_ifs <;> rfl
@[simp] theorem State.touch_held (s : State) (m : Nat) : (s.touch m).held = s.held := by unfold State.touch State.peak; split_ifs <;> rfl
@[simp] theorem State.touch_heldNext (s : State) (m : Nat) : (s.touch m).heldNext = s.heldNext := by unfold State.touch State.peak; split_ifs <;> rfl

/-! ### msixRequest -/

@[simp] theorem State.msixRequest_pending (s : State) (v : Nat) : (s.msixRequest v).pending = s.pending := by unfold State.msixRequest; split_ifs <;> rfl
@[simp] theorem State.msixRequest_freeCtr (s : State) (v : Nat) : (s.msixRequest v).freeCtr = s.freeCtr := by unfold State.msixRequest; split_ifs <;> rfl
@[simp] theorem State.msixRequest_regs (s : State) (v : Nat) : (s.msixRequest v).regs = s.regs := by unfold State.msixRequest; split_ifs <;> rfl
@[simp] theorem State.msixRequest_force (s : State) (v : Nat) : (s.msixRequest v).force = s.force := by unfold State.msixRequest; split_ifs <;> rfl
@[simp] theorem State.msixRequest_commits (s : State) (v : Nat) : (s.msixRequest v).commits = s.commits := by unfold State.msixRequest; split_ifs <;> rfl
@[simp] theorem State.msixRequest_cfg (s : State) (v : Nat) : (s.msixRequest v).cfg = s.cfg := by unfold State.msixRequest; split_ifs <;> rfl
@[simp] theorem State.msixRequest_blk (s : State) (v : Nat) : (s.msixRequest v).blk = s.blk := by unfold State.msixRequest; split_ifs <;> rfl
@[simp] theorem State.msixRequest_sxm (s : State) (v : Nat) : (s.msixRequest v).sxm = s.sxm := by unfold State.msixRequest; split_ifs <;> rfl
@[simp] theorem State.msixRequest_cln (s : State) (v : Nat) : (s.msixRequest v).cln = s.cln := by unfold State.msixRequest; split_ifs <;> rfl
@[simp] theorem State.msixRequest_chm (s : State) (v : Nat) : (s.msixRequest v).chm = s.chm := by unfold State.msixRequest; split_ifs <;> rfl
@[simp] theorem State.msixRequest_dpl (s : State) (v : Nat) : (s.msixRequest v).dpl = s.dpl := by unfold State.msixRequest; split_ifs <;> rfl
@[simp] theorem State.msixRequest_mal (s : State) (v : Nat) : (s.msixRequest v).mal = s.mal := by unfold State.msixRequest; split_ifs <;> rfl
@[simp] theorem State.msixRequest_old (s : State) (v : Nat) : (s.msixRequest v).old = s.old := by unfold State.msixRequest; split_ifs <;> rfl
@[simp] theorem State.msixRequest_ports (s : State) (v : Nat) : (s.msixRequest v).ports = s.ports := by unfold State.msixRequest; split_ifs <;> rfl
@[simp] theorem State.msixRequest_mem (s : State) (v : Nat) : (s.msixRequest v).mem = s.mem := by unfold State.msixRequest; split_ifs <;> rfl
@[simp] theorem State.msixRequest_rings (s : State) (v : Nat) : (s.msixRequest v).rings = s.rings := by unfold State.msixRequest; split_ifs <;> rfl
@[simp] theorem State.msixRequest_net (s : State) (v : Nat) : (s.msixRequest v).net = s.net := by unfold State.msixRequest; split_ifs <;> rfl
@[simp] theorem State.msixRequest_tu (s : State) (v : Nat) : (s.msixRequest v).tu = s.tu := by unfold State.msixRequest; split_ifs <;> rfl
@[simp] theorem State.msixRequest_clv (s : State) (v : Nat) : (s.msixRequest v).clv = s.clv := by unfold State.msixRequest; split_ifs <;> rfl
@[simp] theorem State.msixRequest_beat (s : State) (v : Nat) : (s.msixRequest v).beat = s.beat := by unfold State.msixRequest; split_ifs <;> rfl
@[simp] theorem State.msixRequest_gate (s : State) (v : Nat) : (s.msixRequest v).gate = s.gate := by unfold State.msixRequest; split_ifs <;> rfl
@[simp] theorem State.msixRequest_hsk (s : State) (v : Nat) : (s.msixRequest v).hsk = s.hsk := by unfold State.msixRequest; split_ifs <;> rfl
@[simp] theorem State.msixRequest_peal (s : State) (v : Nat) : (s.msixRequest v).peal = s.peal := by unfold State.msixRequest; split_ifs <;> rfl
@[simp] theorem State.msixRequest_flm (s : State) (v : Nat) : (s.msixRequest v).flm = s.flm := by unfold State.msixRequest; split_ifs <;> rfl
@[simp] theorem State.msixRequest_smp (s : State) (v : Nat) : (s.msixRequest v).smp = s.smp := by unfold State.msixRequest; split_ifs <;> rfl
@[simp] theorem State.msixRequest_evt (s : State) (v : Nat) : (s.msixRequest v).evt = s.evt := by unfold State.msixRequest; split_ifs <;> rfl
@[simp] theorem State.msixRequest_panel (s : State) (v : Nat) : (s.msixRequest v).panel = s.panel := by unfold State.msixRequest; split_ifs <;> rfl
@[simp] theorem State.msixRequest_ident (s : State) (v : Nat) : (s.msixRequest v).ident = s.ident := by unfold State.msixRequest; split_ifs <;> rfl
@[simp] theorem State.msixRequest_pmu (s : State) (v : Nat) : (s.msixRequest v).pmu = s.pmu := by unfold State.msixRequest; split_ifs <;> rfl
@[simp] theorem State.msixRequest_held (s : State) (v : Nat) : (s.msixRequest v).held = s.held := by unfold State.msixRequest; split_ifs <;> rfl
@[simp] theorem State.msixRequest_heldNext (s : State) (v : Nat) : (s.msixRequest v).heldNext = s.heldNext := by unfold State.msixRequest; split_ifs <;> rfl

/-! ### raiseVector -/

@[simp] theorem State.raiseVector_pending (s : State) (v : Nat) : (s.raiseVector v).pending = s.pending := by unfold State.raiseVector; split_ifs <;> simp
@[simp] theorem State.raiseVector_freeCtr (s : State) (v : Nat) : (s.raiseVector v).freeCtr = s.freeCtr := by unfold State.raiseVector; split_ifs <;> simp
@[simp] theorem State.raiseVector_regs (s : State) (v : Nat) : (s.raiseVector v).regs = s.regs := by unfold State.raiseVector; split_ifs <;> simp
@[simp] theorem State.raiseVector_force (s : State) (v : Nat) : (s.raiseVector v).force = s.force := by unfold State.raiseVector; split_ifs <;> simp
@[simp] theorem State.raiseVector_commits (s : State) (v : Nat) : (s.raiseVector v).commits = s.commits := by unfold State.raiseVector; split_ifs <;> simp
@[simp] theorem State.raiseVector_cfg (s : State) (v : Nat) : (s.raiseVector v).cfg = s.cfg := by unfold State.raiseVector; split_ifs <;> simp
@[simp] theorem State.raiseVector_blk (s : State) (v : Nat) : (s.raiseVector v).blk = s.blk := by unfold State.raiseVector; split_ifs <;> simp
@[simp] theorem State.raiseVector_sxm (s : State) (v : Nat) : (s.raiseVector v).sxm = s.sxm := by unfold State.raiseVector; split_ifs <;> simp
@[simp] theorem State.raiseVector_cln (s : State) (v : Nat) : (s.raiseVector v).cln = s.cln := by unfold State.raiseVector; split_ifs <;> simp
@[simp] theorem State.raiseVector_chm (s : State) (v : Nat) : (s.raiseVector v).chm = s.chm := by unfold State.raiseVector; split_ifs <;> simp
@[simp] theorem State.raiseVector_dpl (s : State) (v : Nat) : (s.raiseVector v).dpl = s.dpl := by unfold State.raiseVector; split_ifs <;> simp
@[simp] theorem State.raiseVector_mal (s : State) (v : Nat) : (s.raiseVector v).mal = s.mal := by unfold State.raiseVector; split_ifs <;> simp
@[simp] theorem State.raiseVector_old (s : State) (v : Nat) : (s.raiseVector v).old = s.old := by unfold State.raiseVector; split_ifs <;> simp
@[simp] theorem State.raiseVector_ports (s : State) (v : Nat) : (s.raiseVector v).ports = s.ports := by unfold State.raiseVector; split_ifs <;> simp
@[simp] theorem State.raiseVector_mem (s : State) (v : Nat) : (s.raiseVector v).mem = s.mem := by unfold State.raiseVector; split_ifs <;> simp
@[simp] theorem State.raiseVector_rings (s : State) (v : Nat) : (s.raiseVector v).rings = s.rings := by unfold State.raiseVector; split_ifs <;> simp
@[simp] theorem State.raiseVector_net (s : State) (v : Nat) : (s.raiseVector v).net = s.net := by unfold State.raiseVector; split_ifs <;> simp
@[simp] theorem State.raiseVector_tu (s : State) (v : Nat) : (s.raiseVector v).tu = s.tu := by unfold State.raiseVector; split_ifs <;> simp
@[simp] theorem State.raiseVector_clv (s : State) (v : Nat) : (s.raiseVector v).clv = s.clv := by unfold State.raiseVector; split_ifs <;> simp
@[simp] theorem State.raiseVector_beat (s : State) (v : Nat) : (s.raiseVector v).beat = s.beat := by unfold State.raiseVector; split_ifs <;> simp
@[simp] theorem State.raiseVector_gate (s : State) (v : Nat) : (s.raiseVector v).gate = s.gate := by unfold State.raiseVector; split_ifs <;> simp
@[simp] theorem State.raiseVector_hsk (s : State) (v : Nat) : (s.raiseVector v).hsk = s.hsk := by unfold State.raiseVector; split_ifs <;> simp
@[simp] theorem State.raiseVector_peal (s : State) (v : Nat) : (s.raiseVector v).peal = s.peal := by unfold State.raiseVector; split_ifs <;> simp
@[simp] theorem State.raiseVector_flm (s : State) (v : Nat) : (s.raiseVector v).flm = s.flm := by unfold State.raiseVector; split_ifs <;> simp
@[simp] theorem State.raiseVector_smp (s : State) (v : Nat) : (s.raiseVector v).smp = s.smp := by unfold State.raiseVector; split_ifs <;> simp
@[simp] theorem State.raiseVector_evt (s : State) (v : Nat) : (s.raiseVector v).evt = s.evt := by unfold State.raiseVector; split_ifs <;> simp
@[simp] theorem State.raiseVector_panel (s : State) (v : Nat) : (s.raiseVector v).panel = s.panel := by unfold State.raiseVector; split_ifs <;> simp
@[simp] theorem State.raiseVector_ident (s : State) (v : Nat) : (s.raiseVector v).ident = s.ident := by unfold State.raiseVector; split_ifs <;> simp
@[simp] theorem State.raiseVector_pmu (s : State) (v : Nat) : (s.raiseVector v).pmu = s.pmu := by unfold State.raiseVector; split_ifs <;> simp
@[simp] theorem State.raiseVector_held (s : State) (v : Nat) : (s.raiseVector v).held = s.held := by unfold State.raiseVector; split_ifs <;> simp
@[simp] theorem State.raiseVector_heldNext (s : State) (v : Nat) : (s.raiseVector v).heldNext = s.heldNext := by unfold State.raiseVector; split_ifs <;> simp

/-! ### raiseAt -/

@[simp] theorem State.raiseAt_pending (s : State) (f : Fld) (i : Nat) : (s.raiseAt f i).pending = s.pending := by unfold State.raiseAt; dsimp only; split_ifs <;> simp
@[simp] theorem State.raiseAt_freeCtr (s : State) (f : Fld) (i : Nat) : (s.raiseAt f i).freeCtr = s.freeCtr := by unfold State.raiseAt; dsimp only; split_ifs <;> simp
@[simp] theorem State.raiseAt_force (s : State) (f : Fld) (i : Nat) : (s.raiseAt f i).force = s.force := by unfold State.raiseAt; dsimp only; split_ifs <;> simp
@[simp] theorem State.raiseAt_commits (s : State) (f : Fld) (i : Nat) : (s.raiseAt f i).commits = s.commits := by unfold State.raiseAt; dsimp only; split_ifs <;> simp
@[simp] theorem State.raiseAt_cfg (s : State) (f : Fld) (i : Nat) : (s.raiseAt f i).cfg = s.cfg := by unfold State.raiseAt; dsimp only; split_ifs <;> simp
@[simp] theorem State.raiseAt_blk (s : State) (f : Fld) (i : Nat) : (s.raiseAt f i).blk = s.blk := by unfold State.raiseAt; dsimp only; split_ifs <;> simp
@[simp] theorem State.raiseAt_sxm (s : State) (f : Fld) (i : Nat) : (s.raiseAt f i).sxm = s.sxm := by unfold State.raiseAt; dsimp only; split_ifs <;> simp
@[simp] theorem State.raiseAt_cln (s : State) (f : Fld) (i : Nat) : (s.raiseAt f i).cln = s.cln := by unfold State.raiseAt; dsimp only; split_ifs <;> simp
@[simp] theorem State.raiseAt_chm (s : State) (f : Fld) (i : Nat) : (s.raiseAt f i).chm = s.chm := by unfold State.raiseAt; dsimp only; split_ifs <;> simp
@[simp] theorem State.raiseAt_dpl (s : State) (f : Fld) (i : Nat) : (s.raiseAt f i).dpl = s.dpl := by unfold State.raiseAt; dsimp only; split_ifs <;> simp
@[simp] theorem State.raiseAt_mal (s : State) (f : Fld) (i : Nat) : (s.raiseAt f i).mal = s.mal := by unfold State.raiseAt; dsimp only; split_ifs <;> simp
@[simp] theorem State.raiseAt_old (s : State) (f : Fld) (i : Nat) : (s.raiseAt f i).old = s.old := by unfold State.raiseAt; dsimp only; split_ifs <;> simp
@[simp] theorem State.raiseAt_ports (s : State) (f : Fld) (i : Nat) : (s.raiseAt f i).ports = s.ports := by unfold State.raiseAt; dsimp only; split_ifs <;> simp
@[simp] theorem State.raiseAt_mem (s : State) (f : Fld) (i : Nat) : (s.raiseAt f i).mem = s.mem := by unfold State.raiseAt; dsimp only; split_ifs <;> simp
@[simp] theorem State.raiseAt_rings (s : State) (f : Fld) (i : Nat) : (s.raiseAt f i).rings = s.rings := by unfold State.raiseAt; dsimp only; split_ifs <;> simp
@[simp] theorem State.raiseAt_net (s : State) (f : Fld) (i : Nat) : (s.raiseAt f i).net = s.net := by unfold State.raiseAt; dsimp only; split_ifs <;> simp
@[simp] theorem State.raiseAt_tu (s : State) (f : Fld) (i : Nat) : (s.raiseAt f i).tu = s.tu := by unfold State.raiseAt; dsimp only; split_ifs <;> simp
@[simp] theorem State.raiseAt_clv (s : State) (f : Fld) (i : Nat) : (s.raiseAt f i).clv = s.clv := by unfold State.raiseAt; dsimp only; split_ifs <;> simp
@[simp] theorem State.raiseAt_beat (s : State) (f : Fld) (i : Nat) : (s.raiseAt f i).beat = s.beat := by unfold State.raiseAt; dsimp only; split_ifs <;> simp
@[simp] theorem State.raiseAt_gate (s : State) (f : Fld) (i : Nat) : (s.raiseAt f i).gate = s.gate := by unfold State.raiseAt; dsimp only; split_ifs <;> simp
@[simp] theorem State.raiseAt_hsk (s : State) (f : Fld) (i : Nat) : (s.raiseAt f i).hsk = s.hsk := by unfold State.raiseAt; dsimp only; split_ifs <;> simp
@[simp] theorem State.raiseAt_peal (s : State) (f : Fld) (i : Nat) : (s.raiseAt f i).peal = s.peal := by unfold State.raiseAt; dsimp only; split_ifs <;> simp
@[simp] theorem State.raiseAt_flm (s : State) (f : Fld) (i : Nat) : (s.raiseAt f i).flm = s.flm := by unfold State.raiseAt; dsimp only; split_ifs <;> simp
@[simp] theorem State.raiseAt_smp (s : State) (f : Fld) (i : Nat) : (s.raiseAt f i).smp = s.smp := by unfold State.raiseAt; dsimp only; split_ifs <;> simp
@[simp] theorem State.raiseAt_evt (s : State) (f : Fld) (i : Nat) : (s.raiseAt f i).evt = s.evt := by unfold State.raiseAt; dsimp only; split_ifs <;> simp
@[simp] theorem State.raiseAt_panel (s : State) (f : Fld) (i : Nat) : (s.raiseAt f i).panel = s.panel := by unfold State.raiseAt; dsimp only; split_ifs <;> simp
@[simp] theorem State.raiseAt_ident (s : State) (f : Fld) (i : Nat) : (s.raiseAt f i).ident = s.ident := by unfold State.raiseAt; dsimp only; split_ifs <;> simp
@[simp] theorem State.raiseAt_pmu (s : State) (f : Fld) (i : Nat) : (s.raiseAt f i).pmu = s.pmu := by unfold State.raiseAt; dsimp only; split_ifs <;> simp
@[simp] theorem State.raiseAt_held (s : State) (f : Fld) (i : Nat) : (s.raiseAt f i).held = s.held := by unfold State.raiseAt; dsimp only; split_ifs <;> simp
@[simp] theorem State.raiseAt_heldNext (s : State) (f : Fld) (i : Nat) : (s.raiseAt f i).heldNext = s.heldNext := by unfold State.raiseAt; dsimp only; split_ifs <;> simp

/-! ### raise -/

@[simp] theorem State.raise_pending (s : State) (f : Fld) : (s.raise f).pending = s.pending := by simp [State.raise]
@[simp] theorem State.raise_freeCtr (s : State) (f : Fld) : (s.raise f).freeCtr = s.freeCtr := by simp [State.raise]
@[simp] theorem State.raise_force (s : State) (f : Fld) : (s.raise f).force = s.force := by simp [State.raise]
@[simp] theorem State.raise_commits (s : State) (f : Fld) : (s.raise f).commits = s.commits := by simp [State.raise]
@[simp] theorem State.raise_cfg (s : State) (f : Fld) : (s.raise f).cfg = s.cfg := by simp [State.raise]
@[simp] theorem State.raise_blk (s : State) (f : Fld) : (s.raise f).blk = s.blk := by simp [State.raise]
@[simp] theorem State.raise_sxm (s : State) (f : Fld) : (s.raise f).sxm = s.sxm := by simp [State.raise]
@[simp] theorem State.raise_cln (s : State) (f : Fld) : (s.raise f).cln = s.cln := by simp [State.raise]
@[simp] theorem State.raise_chm (s : State) (f : Fld) : (s.raise f).chm = s.chm := by simp [State.raise]
@[simp] theorem State.raise_dpl (s : State) (f : Fld) : (s.raise f).dpl = s.dpl := by simp [State.raise]
@[simp] theorem State.raise_mal (s : State) (f : Fld) : (s.raise f).mal = s.mal := by simp [State.raise]
@[simp] theorem State.raise_old (s : State) (f : Fld) : (s.raise f).old = s.old := by simp [State.raise]
@[simp] theorem State.raise_ports (s : State) (f : Fld) : (s.raise f).ports = s.ports := by simp [State.raise]
@[simp] theorem State.raise_mem (s : State) (f : Fld) : (s.raise f).mem = s.mem := by simp [State.raise]
@[simp] theorem State.raise_rings (s : State) (f : Fld) : (s.raise f).rings = s.rings := by simp [State.raise]
@[simp] theorem State.raise_net (s : State) (f : Fld) : (s.raise f).net = s.net := by simp [State.raise]
@[simp] theorem State.raise_tu (s : State) (f : Fld) : (s.raise f).tu = s.tu := by simp [State.raise]
@[simp] theorem State.raise_clv (s : State) (f : Fld) : (s.raise f).clv = s.clv := by simp [State.raise]
@[simp] theorem State.raise_beat (s : State) (f : Fld) : (s.raise f).beat = s.beat := by simp [State.raise]
@[simp] theorem State.raise_gate (s : State) (f : Fld) : (s.raise f).gate = s.gate := by simp [State.raise]
@[simp] theorem State.raise_hsk (s : State) (f : Fld) : (s.raise f).hsk = s.hsk := by simp [State.raise]
@[simp] theorem State.raise_peal (s : State) (f : Fld) : (s.raise f).peal = s.peal := by simp [State.raise]
@[simp] theorem State.raise_flm (s : State) (f : Fld) : (s.raise f).flm = s.flm := by simp [State.raise]
@[simp] theorem State.raise_smp (s : State) (f : Fld) : (s.raise f).smp = s.smp := by simp [State.raise]
@[simp] theorem State.raise_evt (s : State) (f : Fld) : (s.raise f).evt = s.evt := by simp [State.raise]
@[simp] theorem State.raise_panel (s : State) (f : Fld) : (s.raise f).panel = s.panel := by simp [State.raise]
@[simp] theorem State.raise_ident (s : State) (f : Fld) : (s.raise f).ident = s.ident := by simp [State.raise]
@[simp] theorem State.raise_pmu (s : State) (f : Fld) : (s.raise f).pmu = s.pmu := by simp [State.raise]
@[simp] theorem State.raise_held (s : State) (f : Fld) : (s.raise f).held = s.held := by simp [State.raise]
@[simp] theorem State.raise_heldNext (s : State) (f : Fld) : (s.raise f).heldNext = s.heldNext := by simp [State.raise]

/-! ### countAndRaise -/

@[simp] theorem State.countAndRaise_pending (s : State) (c f : Fld) : (s.countAndRaise c f).pending = s.pending := by simp [State.countAndRaise]
@[simp] theorem State.countAndRaise_freeCtr (s : State) (c f : Fld) : (s.countAndRaise c f).freeCtr = s.freeCtr := by simp [State.countAndRaise]
@[simp] theorem State.countAndRaise_force (s : State) (c f : Fld) : (s.countAndRaise c f).force = s.force := by simp [State.countAndRaise]
@[simp] theorem State.countAndRaise_commits (s : State) (c f : Fld) : (s.countAndRaise c f).commits = s.commits := by simp [State.countAndRaise]
@[simp] theorem State.countAndRaise_cfg (s : State) (c f : Fld) : (s.countAndRaise c f).cfg = s.cfg := by simp [State.countAndRaise]
@[simp] theorem State.countAndRaise_blk (s : State) (c f : Fld) : (s.countAndRaise c f).blk = s.blk := by simp [State.countAndRaise]
@[simp] theorem State.countAndRaise_sxm (s : State) (c f : Fld) : (s.countAndRaise c f).sxm = s.sxm := by simp [State.countAndRaise]
@[simp] theorem State.countAndRaise_cln (s : State) (c f : Fld) : (s.countAndRaise c f).cln = s.cln := by simp [State.countAndRaise]
@[simp] theorem State.countAndRaise_chm (s : State) (c f : Fld) : (s.countAndRaise c f).chm = s.chm := by simp [State.countAndRaise]
@[simp] theorem State.countAndRaise_dpl (s : State) (c f : Fld) : (s.countAndRaise c f).dpl = s.dpl := by simp [State.countAndRaise]
@[simp] theorem State.countAndRaise_mal (s : State) (c f : Fld) : (s.countAndRaise c f).mal = s.mal := by simp [State.countAndRaise]
@[simp] theorem State.countAndRaise_old (s : State) (c f : Fld) : (s.countAndRaise c f).old = s.old := by simp [State.countAndRaise]
@[simp] theorem State.countAndRaise_ports (s : State) (c f : Fld) : (s.countAndRaise c f).ports = s.ports := by simp [State.countAndRaise]
@[simp] theorem State.countAndRaise_mem (s : State) (c f : Fld) : (s.countAndRaise c f).mem = s.mem := by simp [State.countAndRaise]
@[simp] theorem State.countAndRaise_rings (s : State) (c f : Fld) : (s.countAndRaise c f).rings = s.rings := by simp [State.countAndRaise]
@[simp] theorem State.countAndRaise_net (s : State) (c f : Fld) : (s.countAndRaise c f).net = s.net := by simp [State.countAndRaise]
@[simp] theorem State.countAndRaise_tu (s : State) (c f : Fld) : (s.countAndRaise c f).tu = s.tu := by simp [State.countAndRaise]
@[simp] theorem State.countAndRaise_clv (s : State) (c f : Fld) : (s.countAndRaise c f).clv = s.clv := by simp [State.countAndRaise]
@[simp] theorem State.countAndRaise_beat (s : State) (c f : Fld) : (s.countAndRaise c f).beat = s.beat := by simp [State.countAndRaise]
@[simp] theorem State.countAndRaise_gate (s : State) (c f : Fld) : (s.countAndRaise c f).gate = s.gate := by simp [State.countAndRaise]
@[simp] theorem State.countAndRaise_hsk (s : State) (c f : Fld) : (s.countAndRaise c f).hsk = s.hsk := by simp [State.countAndRaise]
@[simp] theorem State.countAndRaise_peal (s : State) (c f : Fld) : (s.countAndRaise c f).peal = s.peal := by simp [State.countAndRaise]
@[simp] theorem State.countAndRaise_flm (s : State) (c f : Fld) : (s.countAndRaise c f).flm = s.flm := by simp [State.countAndRaise]
@[simp] theorem State.countAndRaise_smp (s : State) (c f : Fld) : (s.countAndRaise c f).smp = s.smp := by simp [State.countAndRaise]
@[simp] theorem State.countAndRaise_panel (s : State) (c f : Fld) : (s.countAndRaise c f).panel = s.panel := by simp [State.countAndRaise]
@[simp] theorem State.countAndRaise_ident (s : State) (c f : Fld) : (s.countAndRaise c f).ident = s.ident := by simp [State.countAndRaise]
@[simp] theorem State.countAndRaise_pmu (s : State) (c f : Fld) : (s.countAndRaise c f).pmu = s.pmu := by simp [State.countAndRaise]
@[simp] theorem State.countAndRaise_held (s : State) (c f : Fld) : (s.countAndRaise c f).held = s.held := by simp [State.countAndRaise]
@[simp] theorem State.countAndRaise_heldNext (s : State) (c f : Fld) : (s.countAndRaise c f).heldNext = s.heldNext := by simp [State.countAndRaise]

/-! ### hostError -/

@[simp] theorem State.hostError_pending (s : State) (a : Nat) (r : XbResp) : (s.hostError a r).pending = s.pending := by unfold State.hostError; split <;> simp
@[simp] theorem State.hostError_freeCtr (s : State) (a : Nat) (r : XbResp) : (s.hostError a r).freeCtr = s.freeCtr := by unfold State.hostError; split <;> simp
@[simp] theorem State.hostError_force (s : State) (a : Nat) (r : XbResp) : (s.hostError a r).force = s.force := by unfold State.hostError; split <;> simp
@[simp] theorem State.hostError_commits (s : State) (a : Nat) (r : XbResp) : (s.hostError a r).commits = s.commits := by unfold State.hostError; split <;> simp
@[simp] theorem State.hostError_cfg (s : State) (a : Nat) (r : XbResp) : (s.hostError a r).cfg = s.cfg := by unfold State.hostError; split <;> simp
@[simp] theorem State.hostError_blk (s : State) (a : Nat) (r : XbResp) : (s.hostError a r).blk = s.blk := by unfold State.hostError; split <;> simp
@[simp] theorem State.hostError_sxm (s : State) (a : Nat) (r : XbResp) : (s.hostError a r).sxm = s.sxm := by unfold State.hostError; split <;> simp
@[simp] theorem State.hostError_cln (s : State) (a : Nat) (r : XbResp) : (s.hostError a r).cln = s.cln := by unfold State.hostError; split <;> simp
@[simp] theorem State.hostError_chm (s : State) (a : Nat) (r : XbResp) : (s.hostError a r).chm = s.chm := by unfold State.hostError; split <;> simp
@[simp] theorem State.hostError_dpl (s : State) (a : Nat) (r : XbResp) : (s.hostError a r).dpl = s.dpl := by unfold State.hostError; split <;> simp
@[simp] theorem State.hostError_mal (s : State) (a : Nat) (r : XbResp) : (s.hostError a r).mal = s.mal := by unfold State.hostError; split <;> simp
@[simp] theorem State.hostError_old (s : State) (a : Nat) (r : XbResp) : (s.hostError a r).old = s.old := by unfold State.hostError; split <;> simp
@[simp] theorem State.hostError_ports (s : State) (a : Nat) (r : XbResp) : (s.hostError a r).ports = s.ports := by unfold State.hostError; split <;> simp
@[simp] theorem State.hostError_mem (s : State) (a : Nat) (r : XbResp) : (s.hostError a r).mem = s.mem := by unfold State.hostError; split <;> simp
@[simp] theorem State.hostError_rings (s : State) (a : Nat) (r : XbResp) : (s.hostError a r).rings = s.rings := by unfold State.hostError; split <;> simp
@[simp] theorem State.hostError_net (s : State) (a : Nat) (r : XbResp) : (s.hostError a r).net = s.net := by unfold State.hostError; split <;> simp
@[simp] theorem State.hostError_tu (s : State) (a : Nat) (r : XbResp) : (s.hostError a r).tu = s.tu := by unfold State.hostError; split <;> simp
@[simp] theorem State.hostError_clv (s : State) (a : Nat) (r : XbResp) : (s.hostError a r).clv = s.clv := by unfold State.hostError; split <;> simp
@[simp] theorem State.hostError_beat (s : State) (a : Nat) (r : XbResp) : (s.hostError a r).beat = s.beat := by unfold State.hostError; split <;> simp
@[simp] theorem State.hostError_gate (s : State) (a : Nat) (r : XbResp) : (s.hostError a r).gate = s.gate := by unfold State.hostError; split <;> simp
@[simp] theorem State.hostError_hsk (s : State) (a : Nat) (r : XbResp) : (s.hostError a r).hsk = s.hsk := by unfold State.hostError; split <;> simp
@[simp] theorem State.hostError_peal (s : State) (a : Nat) (r : XbResp) : (s.hostError a r).peal = s.peal := by unfold State.hostError; split <;> simp
@[simp] theorem State.hostError_flm (s : State) (a : Nat) (r : XbResp) : (s.hostError a r).flm = s.flm := by unfold State.hostError; split <;> simp
@[simp] theorem State.hostError_smp (s : State) (a : Nat) (r : XbResp) : (s.hostError a r).smp = s.smp := by unfold State.hostError; split <;> simp
@[simp] theorem State.hostError_panel (s : State) (a : Nat) (r : XbResp) : (s.hostError a r).panel = s.panel := by unfold State.hostError; split <;> simp
@[simp] theorem State.hostError_ident (s : State) (a : Nat) (r : XbResp) : (s.hostError a r).ident = s.ident := by unfold State.hostError; split <;> simp
@[simp] theorem State.hostError_pmu (s : State) (a : Nat) (r : XbResp) : (s.hostError a r).pmu = s.pmu := by unfold State.hostError; split <;> simp
@[simp] theorem State.hostError_held (s : State) (a : Nat) (r : XbResp) : (s.hostError a r).held = s.held := by unfold State.hostError; split <;> simp
@[simp] theorem State.hostError_heldNext (s : State) (a : Nat) (r : XbResp) : (s.hostError a r).heldNext = s.heldNext := by unfold State.hostError; split <;> simp

/-! ### tagHeld -/

@[simp] theorem State.tagHeld_pending (s : State) (n m : Nat) : (s.tagHeld n m none).pending = s.pending := rfl
@[simp] theorem State.tagHeld_freeCtr (s : State) (n m : Nat) : (s.tagHeld n m none).freeCtr = s.freeCtr := rfl
@[simp] theorem State.tagHeld_sent (s : State) (n m : Nat) : (s.tagHeld n m none).sent = s.sent := rfl
@[simp] theorem State.tagHeld_regs (s : State) (n m : Nat) : (s.tagHeld n m none).regs = s.regs := rfl
@[simp] theorem State.tagHeld_force (s : State) (n m : Nat) : (s.tagHeld n m none).force = s.force := rfl
@[simp] theorem State.tagHeld_commits (s : State) (n m : Nat) : (s.tagHeld n m none).commits = s.commits := rfl
@[simp] theorem State.tagHeld_cfg (s : State) (n m : Nat) : (s.tagHeld n m none).cfg = s.cfg := rfl
@[simp] theorem State.tagHeld_blk (s : State) (n m : Nat) : (s.tagHeld n m none).blk = s.blk := rfl
@[simp] theorem State.tagHeld_sxm (s : State) (n m : Nat) : (s.tagHeld n m none).sxm = s.sxm := rfl
@[simp] theorem State.tagHeld_cln (s : State) (n m : Nat) : (s.tagHeld n m none).cln = s.cln := rfl
@[simp] theorem State.tagHeld_chm (s : State) (n m : Nat) : (s.tagHeld n m none).chm = s.chm := rfl
@[simp] theorem State.tagHeld_dpl (s : State) (n m : Nat) : (s.tagHeld n m none).dpl = s.dpl := rfl
@[simp] theorem State.tagHeld_mal (s : State) (n m : Nat) : (s.tagHeld n m none).mal = s.mal := rfl
@[simp] theorem State.tagHeld_old (s : State) (n m : Nat) : (s.tagHeld n m none).old = s.old := rfl
@[simp] theorem State.tagHeld_ports (s : State) (n m : Nat) : (s.tagHeld n m none).ports = s.ports := rfl
@[simp] theorem State.tagHeld_mem (s : State) (n m : Nat) : (s.tagHeld n m none).mem = s.mem := rfl
@[simp] theorem State.tagHeld_hif (s : State) (n m : Nat) : (s.tagHeld n m none).hif = s.hif := rfl
@[simp] theorem State.tagHeld_rings (s : State) (n m : Nat) : (s.tagHeld n m none).rings = s.rings := rfl
@[simp] theorem State.tagHeld_net (s : State) (n m : Nat) : (s.tagHeld n m none).net = s.net := rfl
@[simp] theorem State.tagHeld_tu (s : State) (n m : Nat) : (s.tagHeld n m none).tu = s.tu := rfl
@[simp] theorem State.tagHeld_clv (s : State) (n m : Nat) : (s.tagHeld n m none).clv = s.clv := rfl
@[simp] theorem State.tagHeld_beat (s : State) (n m : Nat) : (s.tagHeld n m none).beat = s.beat := rfl
@[simp] theorem State.tagHeld_gate (s : State) (n m : Nat) : (s.tagHeld n m none).gate = s.gate := rfl
@[simp] theorem State.tagHeld_hsk (s : State) (n m : Nat) : (s.tagHeld n m none).hsk = s.hsk := rfl
@[simp] theorem State.tagHeld_peal (s : State) (n m : Nat) : (s.tagHeld n m none).peal = s.peal := rfl
@[simp] theorem State.tagHeld_flm (s : State) (n m : Nat) : (s.tagHeld n m none).flm = s.flm := rfl
@[simp] theorem State.tagHeld_smp (s : State) (n m : Nat) : (s.tagHeld n m none).smp = s.smp := rfl
@[simp] theorem State.tagHeld_evt (s : State) (n m : Nat) : (s.tagHeld n m none).evt = s.evt := rfl
@[simp] theorem State.tagHeld_panel (s : State) (n m : Nat) : (s.tagHeld n m none).panel = s.panel := rfl
@[simp] theorem State.tagHeld_ident (s : State) (n m : Nat) : (s.tagHeld n m none).ident = s.ident := rfl
@[simp] theorem State.tagHeld_pmu (s : State) (n m : Nat) : (s.tagHeld n m none).pmu = s.pmu := rfl
@[simp] theorem State.tagHeld_heldNext (s : State) (n m : Nat) : (s.tagHeld n m none).heldNext = s.heldNext := rfl

/-! ### answer -/

@[simp] theorem State.answer_pending (s : State) (m a : Nat) (r : XbResp) : (s.answer m a r).pending = s.pending := by unfold State.answer; split_ifs <;> simp
@[simp] theorem State.answer_freeCtr (s : State) (m a : Nat) (r : XbResp) : (s.answer m a r).freeCtr = s.freeCtr := by unfold State.answer; split_ifs <;> simp
@[simp] theorem State.answer_force (s : State) (m a : Nat) (r : XbResp) : (s.answer m a r).force = s.force := by unfold State.answer; split_ifs <;> simp
@[simp] theorem State.answer_commits (s : State) (m a : Nat) (r : XbResp) : (s.answer m a r).commits = s.commits := by unfold State.answer; split_ifs <;> simp
@[simp] theorem State.answer_cfg (s : State) (m a : Nat) (r : XbResp) : (s.answer m a r).cfg = s.cfg := by unfold State.answer; split_ifs <;> simp
@[simp] theorem State.answer_blk (s : State) (m a : Nat) (r : XbResp) : (s.answer m a r).blk = s.blk := by unfold State.answer; split_ifs <;> simp
@[simp] theorem State.answer_sxm (s : State) (m a : Nat) (r : XbResp) : (s.answer m a r).sxm = s.sxm := by unfold State.answer; split_ifs <;> simp
@[simp] theorem State.answer_cln (s : State) (m a : Nat) (r : XbResp) : (s.answer m a r).cln = s.cln := by unfold State.answer; split_ifs <;> simp
@[simp] theorem State.answer_chm (s : State) (m a : Nat) (r : XbResp) : (s.answer m a r).chm = s.chm := by unfold State.answer; split_ifs <;> simp
@[simp] theorem State.answer_dpl (s : State) (m a : Nat) (r : XbResp) : (s.answer m a r).dpl = s.dpl := by unfold State.answer; split_ifs <;> simp
@[simp] theorem State.answer_mal (s : State) (m a : Nat) (r : XbResp) : (s.answer m a r).mal = s.mal := by unfold State.answer; split_ifs <;> simp
@[simp] theorem State.answer_old (s : State) (m a : Nat) (r : XbResp) : (s.answer m a r).old = s.old := by unfold State.answer; split_ifs <;> simp
@[simp] theorem State.answer_ports (s : State) (m a : Nat) (r : XbResp) : (s.answer m a r).ports = s.ports := by unfold State.answer; split_ifs <;> simp
@[simp] theorem State.answer_mem (s : State) (m a : Nat) (r : XbResp) : (s.answer m a r).mem = s.mem := by unfold State.answer; split_ifs <;> simp
@[simp] theorem State.answer_rings (s : State) (m a : Nat) (r : XbResp) : (s.answer m a r).rings = s.rings := by unfold State.answer; split_ifs <;> simp
@[simp] theorem State.answer_net (s : State) (m a : Nat) (r : XbResp) : (s.answer m a r).net = s.net := by unfold State.answer; split_ifs <;> simp
@[simp] theorem State.answer_tu (s : State) (m a : Nat) (r : XbResp) : (s.answer m a r).tu = s.tu := by unfold State.answer; split_ifs <;> simp
@[simp] theorem State.answer_clv (s : State) (m a : Nat) (r : XbResp) : (s.answer m a r).clv = s.clv := by unfold State.answer; split_ifs <;> simp
@[simp] theorem State.answer_beat (s : State) (m a : Nat) (r : XbResp) : (s.answer m a r).beat = s.beat := by unfold State.answer; split_ifs <;> simp
@[simp] theorem State.answer_gate (s : State) (m a : Nat) (r : XbResp) : (s.answer m a r).gate = s.gate := by unfold State.answer; split_ifs <;> simp
@[simp] theorem State.answer_hsk (s : State) (m a : Nat) (r : XbResp) : (s.answer m a r).hsk = s.hsk := by unfold State.answer; split_ifs <;> simp
@[simp] theorem State.answer_peal (s : State) (m a : Nat) (r : XbResp) : (s.answer m a r).peal = s.peal := by unfold State.answer; split_ifs <;> simp
@[simp] theorem State.answer_flm (s : State) (m a : Nat) (r : XbResp) : (s.answer m a r).flm = s.flm := by unfold State.answer; split_ifs <;> simp
@[simp] theorem State.answer_smp (s : State) (m a : Nat) (r : XbResp) : (s.answer m a r).smp = s.smp := by unfold State.answer; split_ifs <;> simp
@[simp] theorem State.answer_panel (s : State) (m a : Nat) (r : XbResp) : (s.answer m a r).panel = s.panel := by unfold State.answer; split_ifs <;> simp
@[simp] theorem State.answer_ident (s : State) (m a : Nat) (r : XbResp) : (s.answer m a r).ident = s.ident := by unfold State.answer; split_ifs <;> simp
@[simp] theorem State.answer_pmu (s : State) (m a : Nat) (r : XbResp) : (s.answer m a r).pmu = s.pmu := by unfold State.answer; split_ifs <;> simp
@[simp] theorem State.answer_held (s : State) (m a : Nat) (r : XbResp) : (s.answer m a r).held = s.held := by unfold State.answer; split_ifs <;> simp
@[simp] theorem State.answer_heldNext (s : State) (m a : Nat) (r : XbResp) : (s.answer m a r).heldNext = s.heldNext := by unfold State.answer; split_ifs <;> simp

@[simp] theorem State.emit_sent (s : State) (e : Emission) : (s.emit e).sent = e :: s.sent := rfl
@[simp] theorem State.fresh_freeCtr (s : State) : s.fresh.2.freeCtr = s.freeCtr + 1 := rfl
@[simp] theorem State.fresh_val (s : State) : s.fresh.1 = Config.freeValue s.freeCtr := rfl
@[simp] theorem State.random_val (s : State) : s.random.1 = Config.random s.freeCtr := rfl

/-! ### Register fields -/

@[simp] theorem State.fld_setFld_same (s : State) (f : Fld) (v : Nat) : (s.setFld f v).fld f = v % 2 ^ f.width := by
  simp [State.fld, State.setFld]

theorem State.fld_setFld_ne (s : State) {f g : Fld} (v : Nat) (h : g.key ≠ f.key) : (s.setFld f v).fld g = s.fld g := by
  simp only [State.fld, State.setFld]; exact Tbl.get_set_ne _ _ _ _ h

@[simp] theorem State.inForce_setForce_same (s : State) (f : Fld) (v : Nat) : (s.setForce f v).inForce f = v % 2 ^ f.width := by
  simp [State.inForce, State.setForce]

theorem State.inForce_setForce_ne (s : State) {f g : Fld} (v : Nat) (h : g.key ≠ f.key) :
    (s.setForce f v).inForce g = s.inForce g := by
  simp only [State.inForce, State.setForce]; exact Tbl.get_set_ne _ _ _ _ h

/-- Fields read the same in states with the same register file. -/
theorem State.fld_congr {s t : State} (h : s.regs = t.regs) (f : Fld) : s.fld f = t.fld f := by simp [State.fld, h]

/-- A field does not see an update of anything but the register file. -/
@[simp] theorem State.fld_with {s : State} {x0} {x1} {x2} {x4} {x5} {x6} {x7} {x8} {x9} {x10} {x11} {x12} {x13} {x14} {x15} {x16} {x17} {x18} {x19} {x20} {x21} {x22} {x23} {x24} {x25} {x26} {x27} {x28} {x29} {x30} {x31} {x32} (f : Fld) :
    State.fld (State.mk x0 x1 x2 s.regs x4 x5 x6 x7 x8 x9 x10 x11 x12 x13 x14 x15 x16 x17 x18 x19 x20 x21 x22 x23 x24 x25 x26 x27 x28 x29 x30 x31 x32) f = s.fld f := rfl

@[simp] theorem State.fld_emit (s : State) (e : Emission) (f : Fld) : (s.emit e).fld f = s.fld f := rfl
@[simp] theorem State.fld_setForce (s : State) (g : Fld) (v : Nat) (f : Fld) : (s.setForce g v).fld f = s.fld f := rfl
@[simp] theorem State.fld_fresh (s : State) (f : Fld) : s.fresh.2.fld f = s.fld f := rfl
@[simp] theorem State.fld_random (s : State) (f : Fld) : s.random.2.fld f = s.fld f := rfl
@[simp] theorem State.fld_hold (s : State) (h : Held) (f : Fld) : (s.hold h).fld f = s.fld f := rfl
@[simp] theorem State.fld_setBus (s : State) (k b : Nat) (v : BusBlk) (f : Fld) : (s.setBus k b v).fld f = s.fld f := rfl
@[simp] theorem State.fld_tagHeld (s : State) (n m : Nat) (f : Fld) : (s.tagHeld n m none).fld f = s.fld f := rfl

@[simp] theorem State.bump_regs (s : State) (f : Fld) (n : Nat) :
    (s.bump f n).regs = (s.setFld f (min (s.fld f + n) (2 ^ f.width - 1))).regs := by
  unfold State.bump; dsimp only; split <;> rfl

/-- A counter after it counts `n` (R86 and the like): it stops at its all-ones value. -/
@[simp] theorem State.fld_bump_same (s : State) (f : Fld) (n : Nat) : (s.bump f n).fld f = min (s.fld f + n) (2 ^ f.width - 1) := by
  rw [State.fld_congr (State.bump_regs s f n), State.fld_setFld_same]
  exact Nat.mod_eq_of_lt (lt_of_le_of_lt (min_le_right _ _) (Nat.sub_lt (by positivity) one_pos))

theorem State.fld_bump_ne (s : State) {f g : Fld} (n : Nat) (h : g.key ≠ f.key) : (s.bump f n).fld g = s.fld g := by
  rw [State.fld_congr (State.bump_regs s f n), State.fld_setFld_ne s _ h]

theorem State.fld_peak_ne (s : State) {f g : Fld} (v : Nat) (h : g.key ≠ f.key) : (s.peak f v).fld g = s.fld g := by
  unfold State.peak; split
  · exact State.fld_setFld_ne s _ h
  · rfl

theorem State.fld_touch_ne (s : State) {m : Nat} {g : Fld} (h : g.key ≠ (R.XB_OUTSTANDING_PEAK m).key) : (s.touch m).fld g = s.fld g := by
  unfold State.touch; split
  · exact State.fld_peak_ne s _ h
  · rfl

/-- Islands and domains stand as they did while a request counts as outstanding. -/
theorem State.islandOn_touch (s : State) {m : Nat} (hm : m < 24) {i : Nat} (hi : i < 26) : (s.touch m).islandOn i = s.islandOn i := by
  unfold State.islandOn
  rw [State.fld_touch_ne]
  simp [Fld.key]; omega

theorem islandsOf_lt {d i : Nat} {l : List Nat} (h : islandsOf d = i :: l) : i < 26 := by
  have : i ∈ islandsOf d := by rw [h]; exact List.mem_cons_self
  simp [islandsOf] at this
  exact this.1

theorem State.domainOn_touch (s : State) {m : Nat} (hm : m < 24) (d : Nat) : (s.touch m).domainOn d = s.domainOn d := by
  unfold State.domainOn; split
  · rfl
  · next h => exact State.islandOn_touch s hm (islandsOf_lt h)

theorem State.flmState_touch (s : State) {m : Nat} (hm : m < 24) : (s.touch m).flmState = s.flmState := by
  unfold State.flmState
  rw [State.fld_touch_ne]
  simp [Fld.key]; omega

theorem State.mode_touch (s : State) {m : Nat} (hm : m < 24) : (s.touch m).mode = s.mode := by
  unfold State.mode
  rw [State.fld_touch_ne]
  simp [Fld.key]; omega

theorem State.raiseAt_regs (s : State) (f : Fld) (i : Nat) :
    (s.raiseAt f i).regs = if bit (s.fld f) i = 1 then s.regs else (s.setFld f (s.fld f + 2 ^ i)).regs := by
  unfold State.raiseAt; dsimp only; split_ifs <;> simp

theorem State.fld_raiseAt_ne (s : State) {f g : Fld} (i : Nat) (h : g.key ≠ f.key) : (s.raiseAt f i).fld g = s.fld g := by
  have hr := State.raiseAt_regs s f i
  split_ifs at hr
  · exact State.fld_congr hr g
  · rw [State.fld_congr hr, State.fld_setFld_ne s _ h]

theorem State.fld_raise_ne (s : State) {f g : Fld} (h : g.key ≠ f.key) : (s.raise f).fld g = s.fld g := State.fld_raiseAt_ne s 0 h

/-- A one-bit status field is set once it has been raised. -/
theorem State.fld_raise_same (s : State) {f : Fld} (hw : 0 < f.width) : bit ((s.raise f).fld f) 0 = 1 := by
  have hr := State.raiseAt_regs s f 0
  unfold State.raise
  split_ifs at hr with hb
  · rw [State.fld_congr hr]; exact hb
  · rw [State.fld_congr hr, State.fld_setFld_same]
    simp only [bit, pow_zero, Nat.div_one] at hb ⊢
    obtain ⟨k, hk⟩ := Nat.exists_eq_succ_of_ne_zero hw.ne'
    have : (2 : Nat) ∣ 2 ^ f.width := by rw [hk, pow_succ]; exact Dvd.intro_left _ rfl
    rw [Nat.mod_mod_of_dvd _ this]; omega

theorem State.fld_countAndRaise_ne (s : State) {c f g : Fld} (hc : g.key ≠ c.key) (hf : g.key ≠ f.key) :
    (s.countAndRaise c f).fld g = s.fld g := by
  unfold State.countAndRaise; rw [State.fld_raise_ne _ hf, State.fld_bump_ne _ _ hc]

/-- What an event that is counted leaves in its counter. -/
theorem State.fld_countAndRaise_count (s : State) {c f : Fld} (h : c.key ≠ f.key) :
    (s.countAndRaise c f).fld c = min (s.fld c + 1) (2 ^ c.width - 1) := by
  unfold State.countAndRaise; rw [State.fld_raise_ne _ h, State.fld_bump_same]

theorem State.fld_countAndRaise_flag (s : State) {c f : Fld} (hw : 0 < f.width) : bit ((s.countAndRaise c f).fld f) 0 = 1 :=
  State.fld_raise_same _ hw

theorem State.fld_clearFlds_ne (fs : List Fld) : ∀ (s : State) {g : Fld}, (∀ f ∈ fs, g.key ≠ f.key) → (s.clearFlds fs).fld g = s.fld g := by
  induction fs with
  | nil => intro s g _; rfl
  | cons f fs ih =>
    intro s g h
    have h1 := ih (s.setFld f 0) (g := g) (fun f hf => h f (List.mem_cons_of_mem _ hf))
    have h2 := State.fld_setFld_ne s 0 (h f List.mem_cons_self)
    exact h1.trans h2

/-- A list of cleared fields reads zero. -/
theorem State.fld_clearFlds_mem (fs : List Fld) : ∀ (s : State) {g : Fld}, g ∈ fs → (s.clearFlds fs).fld g = 0 ∨
    ∃ f ∈ fs, f.key = g.key ∧ f ≠ g := by
  induction fs with
  | nil => intro s g h; cases h
  | cons f fs ih =>
    intro s g h
    by_cases hg : g ∈ fs
    · rcases ih (s.setFld f 0) hg with h0 | ⟨f', hf', hk⟩
      · exact .inl h0
      · exact .inr ⟨f', List.mem_cons_of_mem _ hf', hk⟩
    · rcases List.mem_cons.mp h with rfl | h
      · by_cases hd : ∃ f' ∈ fs, f'.key = g.key
        · obtain ⟨f', hf', hk⟩ := hd
          exact .inr ⟨f', List.mem_cons_of_mem _ hf', hk, fun e => hg (e ▸ hf')⟩
        · left
          have h1 := State.fld_clearFlds_ne fs (s.setFld g 0) (g := g) (fun f' hf' e => hd ⟨f', hf', e.symm⟩)
          exact h1.trans (by simp)
      · exact absurd h hg

end Sys2Proof.Machine
end

