-- ==== Sys2Proof/Laws/Frame.lean ====
section
/-! SUPPORT. The frame `SameBut`, step by step, and what a request that reaches its register comes to. -/

namespace Sys2Proof.Machine

variable {fs : List Fld} {u t : State}

theorem SameBut.refl (fs : List Fld) (u : State) : SameBut fs u u := ⟨fun _ _ => rfl, rfl⟩

/-- A change of the register file, messages and counts per minute alone, which leaves the fields outside `fs`. -/
theorem SameBut.step (h : SameBut fs u t) {t' : State} (he : ∀ f : Fld, (∀ g ∈ fs, f.key ≠ g.key) → t'.fld f = t.fld f)
    (hs : t' = { t with regs := t'.regs, sent := t'.sent
                        hif := { t.hif with msixPend := t'.hif.msixPend, moderated := t'.hif.moderated }
                        evt := { t.evt with minute := t'.evt.minute } }) : SameBut fs u t' := by
  refine ⟨fun f hf => (he f hf).trans (h.1 f hf), ?_⟩
  rw [hs]
  conv_lhs => rw [h.2]

theorem SameBut.setFld (h : SameBut fs u t) {f : Fld} (v : Nat) (hf : f ∈ fs) : SameBut fs u (t.setFld f v) :=
  h.step (fun _ hg => State.fld_setFld_ne _ _ (hg f hf)) rfl

theorem SameBut.emit (h : SameBut fs u t) (e : Emission) : SameBut fs u (t.emit e) := h.step (fun _ _ => rfl) rfl

theorem SameBut.bump (h : SameBut fs u t) {f : Fld} (n : Nat) (hf : f ∈ fs) : SameBut fs u (t.bump f n) := by
  refine h.step (fun _ hg => State.fld_bump_ne _ _ (hg f hf)) ?_
  unfold State.bump; dsimp only; split <;> rfl

theorem SameBut.peak (h : SameBut fs u t) {f : Fld} (v : Nat) (hf : f ∈ fs) : SameBut fs u (t.peak f v) := by
  refine h.step (fun _ hg => State.fld_peak_ne _ _ (hg f hf)) ?_
  unfold State.peak; split <;> rfl

theorem msixRequest_eq (s : State) (v : Nat) :
    s.msixRequest v = { s with sent := (s.msixRequest v).sent, hif := { s.hif with msixPend := (s.msixRequest v).hif.msixPend } } := by
  unfold State.msixRequest; split_ifs <;> rfl

theorem raiseVector_eq (s : State) (v : Nat) :
    s.raiseVector v = { s with sent := (s.raiseVector v).sent
                               hif := { s.hif with msixPend := (s.raiseVector v).hif.msixPend
                                                   moderated := (s.raiseVector v).hif.moderated } } := by
  have h := msixRequest_eq s v
  unfold State.raiseVector
  split_ifs
  · rfl
  · conv_lhs => rw [h]
  · conv_lhs => rw [h]
    rw [h]

theorem raiseAt_eq (s : State) (f : Fld) (i : Nat) :
    s.raiseAt f i = { s with regs := (s.raiseAt f i).regs, sent := (s.raiseAt f i).sent
                             hif := { s.hif with msixPend := (s.raiseAt f i).hif.msixPend
                                                 moderated := (s.raiseAt f i).hif.moderated } } := by
  unfold State.raiseAt; dsimp only
  split_ifs
  · rfl
  · have h := raiseVector_eq (s.setFld f (s.fld f + 2 ^ i)) (vectorOf f.addr)
    conv_lhs => rw [h]
    rw [State.raiseVector_regs]; rfl
  · rfl

theorem SameBut.raiseAt (h : SameBut fs u t) {f : Fld} (i : Nat) (hf : f ∈ fs) : SameBut fs u (t.raiseAt f i) := by
  refine h.step (fun _ hg => State.fld_raiseAt_ne _ i (hg f hf)) ?_
  have he : (t.raiseAt f i).evt = t.evt := State.raiseAt_evt t f i
  conv_lhs => rw [raiseAt_eq t f i]
  rw [he]

theorem SameBut.raise (h : SameBut fs u t) {f : Fld} (hf : f ∈ fs) : SameBut fs u (t.raise f) := h.raiseAt 0 hf

theorem SameBut.countAndRaise (h : SameBut fs u t) {c f : Fld} (hc : c ∈ fs) (hf : f ∈ fs) : SameBut fs u (t.countAndRaise c f) :=
  (h.bump 1 hc).raise hf

theorem SameBut.clearFlds (h : SameBut fs u t) (gs : List Fld) (hg : ∀ f ∈ gs, f ∈ fs) : SameBut fs u (t.clearFlds gs) := by
  induction gs generalizing t with
  | nil => exact h
  | cons g gs ih => exact ih (h.setFld 0 (hg g List.mem_cons_self)) (fun f hf => hg f (List.mem_cons_of_mem _ hf))

theorem SameBut.hostError (h : SameBut fs u t) (a : Nat) (r : XbResp) (h1 : R.HIF_ERR_ADDR_ADDR ∈ fs) (h2 : R.HIF_ERR_COUNT_COUNT ∈ fs)
    (h3 : R.HIF_ERR_STATUS_DECODE_ERR ∈ fs) (h4 : R.HIF_ERR_STATUS_TARGET_ERR ∈ fs) : SameBut fs u (t.hostError a r) := by
  unfold State.hostError; split
  · exact ((h.setFld _ h1).bump 1 h2).raise h3
  · exact ((h.setFld _ h1).bump 1 h2).raise h4
  · exact h
  · exact h

/-- A longer list of fields says less. -/
theorem SameBut.mono {gs : List Fld} (h : SameBut fs u t) (hs : ∀ f ∈ fs, f ∈ gs) : SameBut gs u t :=
  ⟨fun f hf => h.1 f (fun g hg => hf g (hs g hg)), h.2⟩

/-! ### Requests that reach their register -/

/-- A request that goes through at once counts as outstanding, and nothing else changes (R245). -/
theorem reach_eq {s : State} {m a : Nat} (h : Through s m a) : s.reach m a = (.forwarded, s.touch m) := by
  unfold State.reach
  simp [h.2.2, h.2.1]

theorem SameBut.touch (h : SameBut fs u t) {m : Nat} (hf : R.XB_OUTSTANDING_PEAK m ∈ fs) : SameBut fs u (t.touch m) := by
  unfold State.touch; split
  · exact h.peak _ hf
  · exact h

theorem delivered_reach {s : State} {m a : Nat} (h : Reaches s m a) (hf : s.flmState = 0) (v : Word) (f : State → XbResp × State) :
    (s.touch m).delivered m a v f = ((f (s.touch m)).1, (f (s.touch m)).2.tagHeld s.heldNext m none) := by
  unfold State.delivered
  simp [h.2.1, State.domainOn_touch s h.1.1, h.2.2, State.flmState_touch s h.1.1, hf]

/-- A write that reaches its register on a chip that does not operate in a pair: `f` performs it and the response goes out. -/
theorem through_reach {s : State} {m a : Nat} (h : Reaches s m a) (hf : s.flmState = 0) (v : Word) (f : State → XbResp × State) :
    s.through m a v f = ((f (s.touch m)).2.tagHeld s.heldNext m none).answer m a (f (s.touch m)).1 := by
  unfold State.through
  simp only [reach_eq h.1, delivered_reach h hf]

theorem answer_ok (s : State) (m a : Nat) : s.answer m a .ok = s.emit (.response m .ok) := by
  unfold State.answer State.hostError; simp

theorem answer_data (s : State) (m a : Nat) (bs : List Byte) : s.answer m a (.data bs) = s.emit (.response m (.data bs)) := by
  unfold State.answer State.hostError; simp

/-- A host write that reaches its register. -/
theorem hostSet_reach {s : State} {a : Nat} (h : HostReaches s a) (v : Word) (f : State → State) :
    s.through 0 a v (fun s => (.ok, f s)) = s.answered 0 .ok (f (s.touch 0)) := by
  rw [through_reach h.1 h.2, answer_ok]; rfl

/-- A read that reaches its register. -/
theorem throughRead_reach {s : State} {m a : Nat} (h : Reaches s m a) (f : State → Nat × State) :
    s.throughRead m a f = (f (s.touch m)).2.emit (.response m (.data (leBytes 4 (f (s.touch m)).1))) := by
  unfold State.throughRead
  simp only [reach_eq h.1, State.domainOn_touch s h.1.1]
  simp [h.2.1, h.2.2, answer_data]

end Sys2Proof.Machine
end

