-- ==== Sys2Proof/Laws/Sound.lean ====
section
/-! SUPPORT. What every operation keeps: the queue, the register file and the values in force with their keys strictly rising, and
the byte memories in their one form. Here the rules; the other files hold one lemma for each operation of a file. -/

namespace Sys2Proof.Machine

/-- The state holds queue `q`, and its register file, its values in force and its byte memories are canonical. -/
def State.Sound (s : State) (q : List Instr) : Prop :=
  s.pending = q ∧ Tbl.sorted s.regs = true ∧ Tbl.sorted s.force = true ∧ s.mem.wf = true

/-- What an operation answers, if it answers, is sound. -/
def OptSound (q : List Instr) (o : Option State) : Prop := ∀ t, o = some t → t.Sound q
def OptSoundP {α : Type} (q : List Instr) (o : Option (α × State)) : Prop := ∀ r, o = some r → r.2.Sound q
def OptExcSound (q : List Instr) (o : Option (Except Unit State)) : Prop := ∀ t, o = some (.ok t) → t.Sound q
def ExcSound (q : List Instr) (o : Except Nat State) : Prop := ∀ t, o = .ok t → t.Sound q
def NextSound (q : List Instr) (o : Host.Outcome State Fault Refusal) : Prop := ∀ t, o = .next t → t.Sound q

theorem sound_regs {q : List Instr} {s : State} (h : s.Sound q) {r : Tbl Nat} (hr : Tbl.sorted r = true) :
    State.Sound { s with regs := r } q := ⟨h.1, hr, h.2.2⟩

theorem sound_force {q : List Instr} {s : State} (h : s.Sound q) {r : Tbl Nat} (hr : Tbl.sorted r = true) :
    State.Sound { s with force := r } q := ⟨h.1, h.2.1, hr, h.2.2.2⟩

theorem sound_mem {q : List Instr} {s : State} (h : s.Sound q) {m : Mems} (hm : m.wf = true) :
    State.Sound { s with mem := m } q := ⟨h.1, h.2.1, h.2.2.1, hm⟩

theorem sound_with {q : List Instr} {s : State} {x1} {x2} {x5} {x6} {x7} {x8} {x9} {x10} {x11} {x12} {x13} {x14} {x16} {x17} {x18} {x19} {x20} {x21} {x22} {x23} {x24} {x25} {x26} {x27} {x28} {x29} {x30} {x31} {x32} (h : s.Sound q) :
    State.Sound (State.mk s.pending x1 x2 s.regs s.force x5 x6 x7 x8 x9 x10 x11 x12 x13 x14 s.mem x16 x17 x18 x19 x20 x21 x22 x23 x24 x25 x26 x27 x28 x29 x30 x31 x32) q := h

theorem sound_with_filter {q : List Instr} {s : State} {p : Nat × Nat → Bool} {x1} {x2} {x5} {x6} {x7} {x8} {x9} {x10} {x11} {x12} {x13} {x14} {x16} {x17} {x18} {x19} {x20} {x21} {x22} {x23} {x24} {x25} {x26} {x27} {x28} {x29} {x30} {x31} {x32} (h : s.Sound q) :
    State.Sound (State.mk s.pending x1 x2 (s.regs.filter p) s.force x5 x6 x7 x8 x9 x10 x11 x12 x13 x14 s.mem x16 x17 x18 x19 x20 x21 x22 x23 x24 x25 x26 x27 x28 x29 x30 x31 x32) q := ⟨h.1, Tbl.sorted_filter _ h.2.1, h.2.2⟩

theorem sound_with_filters {q : List Instr} {s : State} {p r : Nat × Nat → Bool} {x1} {x2} {x5} {x6} {x7} {x8} {x9} {x10} {x11} {x12} {x13} {x14} {x16} {x17} {x18} {x19} {x20} {x21} {x22} {x23} {x24} {x25} {x26} {x27} {x28} {x29} {x30} {x31} {x32} (h : s.Sound q) :
    State.Sound (State.mk s.pending x1 x2 (s.regs.filter p) (s.force.filter r) x5 x6 x7 x8 x9 x10 x11 x12 x13 x14 s.mem x16 x17 x18 x19 x20 x21 x22 x23 x24 x25 x26 x27 x28 x29 x30 x31 x32) q := ⟨h.1, Tbl.sorted_filter _ h.2.1, Tbl.sorted_filter _ h.2.2.1, h.2.2.2⟩

theorem sound_dram {q : List Instr} {s : State} {a : Nat} {bs : List (Option Byte)} {x1} {x2} {x5} {x6} {x7} {x8} {x9} {x10} {x11} {x12} {x13} {x14} {x16} {x17} {x18} {x19} {x20} {x21} {x22} {x23} {x24} {x25} {x26} {x27} {x28} {x29} {x30} {x31} {x32} (h : s.Sound q) :
    State.Sound (State.mk s.pending x1 x2 s.regs s.force x5 x6 x7 x8 x9 x10 x11 x12 x13 x14 (s.mem.dramWrite a bs) x16 x17 x18 x19 x20 x21 x22 x23 x24 x25 x26 x27 x28 x29 x30 x31 x32) q := ⟨h.1, h.2.1, h.2.2.1, Mems.wf_dramWrite _ _ h.2.2.2⟩

theorem sound_drams {q : List Instr} {s : State} {a c : Nat} {bs cs : List (Option Byte)} {x1} {x2} {x5} {x6} {x7} {x8} {x9} {x10} {x11} {x12} {x13} {x14} {x16} {x17} {x18} {x19} {x20} {x21} {x22} {x23} {x24} {x25} {x26} {x27} {x28} {x29} {x30} {x31} {x32} (h : s.Sound q) :
    State.Sound (State.mk s.pending x1 x2 s.regs s.force x5 x6 x7 x8 x9 x10 x11 x12 x13 x14 ((s.mem.dramWrite a bs).dramWrite c cs) x16 x17 x18 x19 x20 x21 x22 x23 x24 x25 x26 x27 x28 x29 x30 x31 x32) q := ⟨h.1, h.2.1, h.2.2.1, Mems.wf_dramWrite _ _ (Mems.wf_dramWrite _ _ h.2.2.2)⟩

theorem sound_mk {q : List Instr} {x0} {x1} {x2} {x3} {x4} {x5} {x6} {x7} {x8} {x9} {x10} {x11} {x12} {x13} {x14} {x15} {x16} {x17} {x18} {x19} {x20} {x21} {x22} {x23} {x24} {x25} {x26} {x27} {x28} {x29} {x30} {x31} {x32}
    (hp : x0 = q) (hr : Tbl.sorted x3 = true) (hf : Tbl.sorted x4 = true) (hm : x15.wf = true) :
    State.Sound (State.mk x0 x1 x2 x3 x4 x5 x6 x7 x8 x9 x10 x11 x12 x13 x14 x15 x16 x17 x18 x19 x20 x21 x22 x23 x24 x25 x26 x27 x28 x29 x30 x31 x32) q := ⟨hp, hr, hf, hm⟩

theorem sound_pending {q : List Instr} {s : State} (h : s.Sound q) : s.pending = q := h.1
theorem sound_sorted_regs {q : List Instr} {s : State} (h : s.Sound q) : Tbl.sorted s.regs = true := h.2.1
theorem sound_sorted_force {q : List Instr} {s : State} (h : s.Sound q) : Tbl.sorted s.force = true := h.2.2.1
theorem sound_mem_wf {q : List Instr} {s : State} (h : s.Sound q) : s.mem.wf = true := h.2.2.2

theorem sound_ite {q : List Instr} {c : Prop} [Decidable c] {a b : State} (ha : c → a.Sound q) (hb : ¬c → b.Sound q) :
    State.Sound (if c then a else b) q := by split <;> simp_all

theorem sound_ite_snd {α : Type} {q : List Instr} {c : Prop} [Decidable c] {a b : α × State} (ha : c → a.2.Sound q)
    (hb : ¬c → b.2.Sound q) : State.Sound (if c then a else b).2 q := by split <;> simp_all

theorem foldl_sound {q : List Instr} {α : Type} {f : State → α → State} (hf : ∀ s x, s.Sound q → (f s x).Sound q)
    (xs : List α) {s : State} (h : s.Sound q) : (xs.foldl f s).Sound q := by
  induction xs generalizing s with
  | nil => exact h
  | cons x xs ih => exact ih (hf _ _ h)

theorem foldl_wf {α : Type} {f : Mems → α → Mems} (hf : ∀ m x, m.wf = true → (f m x).wf = true)
    (xs : List α) {m : Mems} (h : m.wf = true) : (xs.foldl f m).wf = true := by
  induction xs generalizing m with
  | nil => exact h
  | cons x xs ih => exact ih (hf _ _ h)

theorem foldl_snd_sound {q : List Instr} {α β : Type} {f : β × State → α → β × State}
    (hf : ∀ p x, State.Sound p.2 q → (f p x).2.Sound q) (xs : List α) {p : β × State} (h : p.2.Sound q) :
    (xs.foldl f p).2.Sound q := by
  induction xs generalizing p with
  | nil => exact h
  | cons x xs ih => exact ih (hf _ _ h)

theorem pair_sound {α : Type} {q : List Instr} {p : α × State} {a : α} {t : State} (e : p = (a, t)) (h : p.2.Sound q) :
    t.Sound q := by subst e; exact h

theorem opt_elim {q : List Instr} {o : Option State} {t : State} (e : o = some t) (h : OptSound q o) : t.Sound q := h t e
theorem optP_elim {α : Type} {q : List Instr} {o : Option (α × State)} {r : α × State} (e : o = some r) (h : OptSoundP q o) :
    r.2.Sound q := h r e
theorem optP_elim' {α : Type} {q : List Instr} {o : Option (α × State)} {a : α} {t : State} (e : o = some (a, t)) (h : OptSoundP q o) :
    t.Sound q := h (a, t) e
theorem optExc_elim {q : List Instr} {o : Option (Except Unit State)} {t : State} (e : o = some (.ok t)) (h : OptExcSound q o) : t.Sound q := h t e
theorem exc_elim {q : List Instr} {o : Except Nat State} {t : State} (e : o = .ok t) (h : ExcSound q o) : t.Sound q := h t e

theorem opt_none {q : List Instr} : OptSound q none := by intro t h; cases h
theorem optP_none {α : Type} {q : List Instr} : OptSoundP (α := α) q none := by intro t h; cases h
theorem optS_getD {q : List Instr} {o : Option State} {s : State} (h : OptSound q o) (hs : s.Sound q) : (o.getD s).Sound q := by
  cases o
  · exact hs
  · exact h _ rfl
theorem optP_map {α : Type} {q : List Instr} {o : Option State} {f : State → α × State} (h : OptSound q o)
    (hf : ∀ s, State.Sound s q → State.Sound (f s).2 q) : OptSoundP q (o.map f) := by
  intro r e
  cases o with
  | none => cases e
  | some s => cases e; exact hf s (h s rfl)
theorem exc_error {q : List Instr} {e : Nat} : ExcSound q (.error e) := by intro t h; cases h
theorem opt_some {q : List Instr} {s : State} (h : s.Sound q) : OptSound q (some s) := by intro t e; cases e; exact h
theorem optP_some {α : Type} {q : List Instr} {r : α × State} (h : r.2.Sound q) : OptSoundP q (some r) := by intro t e; cases e; exact h
theorem exc_ok {q : List Instr} {s : State} (h : s.Sound q) : ExcSound q (.ok s) := by intro t e; cases e; exact h
theorem next_sound {q : List Instr} {s : State} (h : s.Sound q) : NextSound q (.next s) := by intro t e; cases e; exact h
theorem opt_ite {q : List Instr} {c : Prop} [Decidable c] {a b : Option State} (ha : c → OptSound q a) (hb : ¬c → OptSound q b) :
    OptSound q (if c then a else b) := by split <;> simp_all
theorem optP_ite {α : Type} {q : List Instr} {c : Prop} [Decidable c] {a b : Option (α × State)} (ha : c → OptSoundP q a)
    (hb : ¬c → OptSoundP q b) : OptSoundP q (if c then a else b) := by split <;> simp_all
theorem exc_ite {q : List Instr} {c : Prop} [Decidable c] {a b : Except Nat State} (ha : c → ExcSound q a) (hb : ¬c → ExcSound q b) :
    ExcSound q (if c then a else b) := by split <;> simp_all
theorem next_ite {q : List Instr} {c : Prop} [Decidable c] {a b : Host.Outcome State Fault Refusal} (ha : c → NextSound q a)
    (hb : ¬c → NextSound q b) : NextSound q (if c then a else b) := by split <;> simp_all

end Sys2Proof.Machine
end

