-- ==== Sys2Proof/Laws/KeepsOps.lean ====
section
/-! SUPPORT. What the operations of Machine/Ops.lean keep: one lemma each. -/

set_option linter.unusedTactic false
set_option linter.unreachableTactic false

namespace Sys2Proof.Machine

theorem State.setFld_sound {q : List Instr} (s : State) (f : Fld) (v : Nat)
    (hq : State.Sound s q) :
    State.Sound (State.setFld s f v) q := by
  exact sound_regs hq (Tbl.sorted_set _ _ _ hq.2.1)

theorem State.bump_sound {q : List Instr} (s : State) (f : Fld) (n : Nat)
    (hq : State.Sound s q) :
    State.Sound (State.bump s f n) q := by
  unfold State.bump
  repeat' first
    | (with_reducible first
      | assumption | apply State.setFld_sound | fail_if_no_progress apply sound_with | intro _
      | refine pair_sound (by assumption) ?_ | refine opt_elim (by assumption) ?_ | refine optP_elim (by assumption) ?_
      | refine optP_elim' (by assumption) ?_ | refine exc_elim (by assumption) ?_)
    | split | dsimp only

theorem State.peak_sound {q : List Instr} (s : State) (f : Fld) (v : Nat)
    (hq : State.Sound s q) :
    State.Sound (State.peak s f v) q := by
  unfold State.peak
  repeat' first
    | (with_reducible first
      | assumption | apply State.setFld_sound | apply sound_ite | apply sound_ite_snd | intro _)
    | split | dsimp only

theorem State.clearFlds_sound {q : List Instr} (s : State) (fs : List Fld)
    (hq : State.Sound s q) :
    State.Sound (State.clearFlds s fs) q := by
  unfold State.clearFlds
  repeat' first
    | (with_reducible first
      | assumption | apply State.setFld_sound | apply foldl_sound | apply foldl_snd_sound | intro _)
    | split | dsimp only

theorem State.setForce_sound {q : List Instr} (s : State) (f : Fld) (v : Nat)
    (hq : State.Sound s q) :
    State.Sound (State.setForce s f v) q := by
  exact sound_force hq (Tbl.sorted_set _ _ _ hq.2.2.1)

theorem State.emit_sound {q : List Instr} (s : State) (e : Emission)
    (hq : State.Sound s q) :
    State.Sound (State.emit s e) q := by
  unfold State.emit
  repeat' first
    | (with_reducible first
      | assumption | fail_if_no_progress apply sound_with | intro _)
    | split | dsimp only

theorem State.fresh_sound {q : List Instr} (s : State)
    (hq : State.Sound s q) :
    State.Sound (State.fresh s).2 q := by
  unfold State.fresh
  repeat' first
    | (with_reducible first
      | assumption | fail_if_no_progress apply sound_with | intro _)
    | split | dsimp only

theorem State.random_sound {q : List Instr} (s : State)
    (hq : State.Sound s q) :
    State.Sound (State.random s).2 q := by
  unfold State.random
  repeat' first
    | (with_reducible first
      | assumption | fail_if_no_progress apply sound_with | intro _)
    | split | dsimp only

theorem State.msixRequest_sound {q : List Instr} (s : State) (v : Nat)
    (hq : State.Sound s q) :
    State.Sound (State.msixRequest s v) q := by
  unfold State.msixRequest
  repeat' first
    | (with_reducible first
      | assumption | apply State.emit_sound | apply sound_ite | apply sound_ite_snd | fail_if_no_progress apply sound_with
      | intro _)
    | split | dsimp only

theorem State.raiseVector_sound {q : List Instr} (s : State) (v : Nat)
    (hq : State.Sound s q) :
    State.Sound (State.raiseVector s v) q := by
  unfold State.raiseVector
  repeat' first
    | (with_reducible first
      | assumption | apply State.msixRequest_sound | apply sound_ite | apply sound_ite_snd
      | fail_if_no_progress apply sound_with | intro _)
    | split | dsimp only

theorem State.raiseAt_sound {q : List Instr} (s : State) (f : Fld) (i : Nat)
    (hq : State.Sound s q) :
    State.Sound (State.raiseAt s f i) q := by
  unfold State.raiseAt
  repeat' first
    | (with_reducible first
      | assumption | apply State.setFld_sound | apply State.raiseVector_sound | apply sound_ite | apply sound_ite_snd
      | fail_if_no_progress apply sound_with | intro _)
    | split | dsimp only

theorem State.raise_sound {q : List Instr} (s : State) (f : Fld)
    (hq : State.Sound s q) :
    State.Sound (State.raise s f) q := by
  unfold State.raise
  repeat' first
    | (with_reducible first
      | assumption | apply State.raiseAt_sound | intro _)
    | split | dsimp only

theorem State.countAndRaise_sound {q : List Instr} (s : State) (c : Fld) (st : Fld)
    (hq : State.Sound s q) :
    State.Sound (State.countAndRaise s c st) q := by
  unfold State.countAndRaise
  repeat' first
    | (with_reducible first
      | assumption | apply State.bump_sound | apply State.raise_sound | intro _)
    | split | dsimp only

end Sys2Proof.Machine
end

