-- ==== Sys2Proof/Laws/KeepsBuses.lean ====
section
/-! SUPPORT. What the operations of Machine/Buses.lean keep: one lemma each. -/

set_option linter.unusedTactic false
set_option linter.unreachableTactic false

namespace Sys2Proof.Machine

theorem State.countDecErr_sound {q : List Instr} (s : State) (a : Nat)
    (hq : State.Sound s q) :
    State.Sound (State.countDecErr s a) q := by
  unfold State.countDecErr
  repeat' first
    | (with_reducible first
      | assumption | apply State.setFld_sound | apply State.bump_sound | apply State.raise_sound | intro _)
    | split | dsimp only

theorem State.setBus_sound {q : List Instr} (s : State) (k : Nat) (b : Nat) (v : BusBlk)
    (hq : State.Sound s q) :
    State.Sound (State.setBus s k b v) q := by
  unfold State.setBus
  repeat' first
    | (with_reducible first
      | assumption | fail_if_no_progress apply sound_with | intro _)
    | split | dsimp only

theorem State.setSwapBus_sound {q : List Instr} (s : State) (k : Nat) (b : Nat) (v : BusBlk)
    (hq : State.Sound s q) :
    State.Sound (State.setSwapBus s k b v) q := by
  unfold State.setSwapBus
  repeat' first
    | (with_reducible first
      | assumption | fail_if_no_progress apply sound_with | intro _)
    | split | dsimp only

theorem State.writeBus_sound {q : List Instr} (s : State) (c : Cfg) (k : Nat) (b : Nat) (xs : List Int)
    (hq : State.Sound s q) :
    State.Sound (State.writeBus s c k b xs) q := by
  unfold State.writeBus
  repeat' first
    | (with_reducible first
      | assumption | apply State.setBus_sound | apply sound_ite | apply sound_ite_snd | fail_if_no_progress apply sound_with
      | intro _)
    | split | dsimp only

theorem State.overrunBus_sound {q : List Instr} (s : State) (c : Cfg) (k : Nat) (b : Nat)
    (hq : State.Sound s q) :
    State.Sound (State.overrunBus s c k b) q := by
  unfold State.overrunBus
  repeat' first
    | (with_reducible first
      | assumption | apply State.setBus_sound | apply sound_ite | apply sound_ite_snd | fail_if_no_progress apply sound_with
      | intro _)
    | split | dsimp only

theorem State.missBus_sound {q : List Instr} (s : State) (c : Cfg) (k : Nat) (b : Nat)
    (hq : State.Sound s q) :
    State.Sound (State.missBus s c k b) q := by
  unfold State.missBus
  repeat' first
    | (with_reducible first
      | assumption | apply State.setBus_sound | intro _)
    | split | dsimp only

theorem State.withholdBus_sound {q : List Instr} (s : State) (c : Cfg) (k : Nat) (b : Nat)
    (hq : State.Sound s q) :
    State.Sound (State.withholdBus s c k b) q := by
  unfold State.withholdBus
  repeat' first
    | (with_reducible first
      | assumption | apply State.setBus_sound | intro _)
    | split | dsimp only

theorem State.hold_sound {q : List Instr} (s : State) (h : Held)
    (hq : State.Sound s q) :
    State.Sound (State.hold s h) q := by
  unfold State.hold
  repeat' first
    | (with_reducible first
      | assumption | fail_if_no_progress apply sound_with | intro _)
    | split | dsimp only

theorem State.unhold_sound {q : List Instr} (s : State) (id : Nat)
    (hq : State.Sound s q) :
    State.Sound (State.unhold s id) q := by
  unfold State.unhold
  repeat' first
    | (with_reducible first
      | assumption | fail_if_no_progress apply sound_with | intro _)
    | split | dsimp only

theorem State.deferHeld_sound {q : List Instr} (s : State) (h : Held) (whole : Bool)
    (hq : State.Sound s q) :
    State.Sound (State.deferHeld s h whole) q := by
  unfold State.deferHeld
  repeat' first
    | (with_reducible first
      | assumption | apply sound_ite | apply sound_ite_snd | fail_if_no_progress apply sound_with | intro _)
    | split | dsimp only

theorem State.holdLate_sound {q : List Instr} (s : State) (e : Engine) (c : Cmd)
    (hq : State.Sound s q) :
    State.Sound (State.holdLate s e c) q := by
  unfold State.holdLate
  repeat' first
    | (with_reducible first
      | assumption | apply State.hold_sound | fail_if_no_progress apply sound_with | intro _)
    | split | dsimp only

theorem State.setFetch_sound {q : List Instr} (s : State) (id : Nat) (f : Fetch)
    (hq : State.Sound s q) :
    State.Sound (State.setFetch s id f) q := by
  unfold State.setFetch
  repeat' first
    | (with_reducible first
      | assumption | apply sound_ite | apply sound_ite_snd | fail_if_no_progress apply sound_with | intro _)
    | split | dsimp only

end Sys2Proof.Machine
end

