-- ==== Sys2Proof/Laws/KeepsTasks.lean ====
section
/-! SUPPORT. What the operations of Machine/Tasks.lean keep: one lemma each. -/

set_option linter.unusedTactic false
set_option linter.unreachableTactic false

namespace Sys2Proof.Machine

theorem withTables_sorted {r t : Tbl Nat} (h : Tbl.sorted r = true) : Tbl.sorted (withTables r t) = true :=
  Tbl.sorted_foldl_put _ _ _ (Tbl.sorted_filter _ h)

theorem State.inOld_sound {q : List Instr} (s : State) (f : State → State) (hq : State.Sound s q)
    (hf : ∀ s, State.Sound s q → State.Sound (f s) q) : State.Sound (State.inOld s f) q := by
  unfold State.inOld
  split
  · exact hq
  · next o _ =>
    have h1 := hf { s with cfg := some o.cfg, cln := o.cln, chm := o.chm, dpl := o.dpl, sxm := s.sxm.exchange o.swapped,
                           blk := { s.blk with brg := o.brg }, regs := withTables s.regs o.regs } (sound_with (sound_regs hq (withTables_sorted (t := o.regs) hq.2.1)))
    exact sound_mk h1.1 (withTables_sorted (t := tablesOf s.regs) h1.2.1) h1.2.2.1 h1.2.2.2

theorem State.inVersion_sound {q : List Instr} (s : State) (old : Bool) (f : State → State)
    (hq : State.Sound s q) (hf : ∀ s, State.Sound s q → State.Sound (f s) q) :
    State.Sound (State.inVersion s old f) q := by
  unfold State.inVersion
  repeat' first
    | (with_reducible first
      | assumption | apply State.inOld_sound | apply hf | apply sound_ite | apply sound_ite_snd | intro _)
    | split | dsimp only

theorem State.countLate_sound {q : List Instr} (s : State) (overrun : Bool) (task : Nat) (island : Nat) (k : Nat)
    (hq : State.Sound s q) :
    State.Sound (State.countLate s overrun task island k) q := by
  unfold State.countLate
  repeat' first
    | (with_reducible first
      | assumption | apply State.setFld_sound | apply State.bump_sound | apply State.countAndRaise_sound | apply sound_ite
      | apply sound_ite_snd | fail_if_no_progress apply sound_with | intro _)
    | split | dsimp only

theorem State.markEnded_sound {q : List Instr} (s : State) (task : Nat) (old : Bool)
    (hq : State.Sound s q) :
    State.Sound (State.markEnded s task old) q := by
  unfold State.markEnded
  repeat' first
    | (with_reducible first
      | assumption | fail_if_no_progress apply sound_with | intro _)
    | split | dsimp only

theorem State.overrunTask_sound {q : List Instr} (s : State) (task : Nat) (old : Bool) (island : Nat) (k : Nat)
    (hq : State.Sound s q) :
    State.Sound (State.overrunTask s task old island k) q := by
  unfold State.overrunTask
  repeat' first
    | (with_reducible first
      | assumption | apply State.overrunBus_sound | apply State.inVersion_sound | apply State.countLate_sound
      | apply State.markEnded_sound | apply foldl_sound | apply foldl_snd_sound | fail_if_no_progress apply sound_with | intro _
      | refine pair_sound (by assumption) ?_ | refine opt_elim (by assumption) ?_ | refine optP_elim (by assumption) ?_
      | refine optP_elim' (by assumption) ?_ | refine exc_elim (by assumption) ?_)
    | split | dsimp only

end Sys2Proof.Machine
end

