-- ==== Sys2Proof/Laws/KeepsBeater.lean ====
section
/-! SUPPORT. What the operations of Machine/Beater.lean keep: one lemma each. -/

set_option linter.unusedTactic false
set_option linter.unreachableTactic false

namespace Sys2Proof.Machine

theorem State.setBchan_sound {q : List Instr} (s : State) (n : Nat) (x : BeatChan)
    (hq : State.Sound s q) :
    State.Sound (State.setBchan s n x) q := by
  unfold State.setBchan
  repeat' first
    | (with_reducible first
      | assumption | fail_if_no_progress apply sound_with | intro _)
    | split | dsimp only

theorem State.setBrail_sound {q : List Instr} (s : State) (r : Nat) (x : BeatRail)
    (hq : State.Sound s q) :
    State.Sound (State.setBrail s r x) q := by
  unfold State.setBrail
  repeat' first
    | (with_reducible first
      | assumption | fail_if_no_progress apply sound_with | intro _)
    | split | dsimp only

theorem State.setBstate_sound {q : List Instr} (s : State) (n : Nat) (st : Nat)
    (hq : State.Sound s q) :
    State.Sound (State.setBstate s n st) q := by
  unfold State.setBstate
  repeat' first
    | (with_reducible first
      | assumption | apply State.setFld_sound | apply State.raise_sound | apply sound_ite | apply sound_ite_snd
      | fail_if_no_progress apply sound_with | intro _)
    | split | dsimp only

theorem State.enterDiag_sound {q : List Instr} (s : State) (n : Nat) (onRequest : Bool)
    (hq : State.Sound s q) :
    State.Sound (State.enterDiag s n onRequest) q := by
  unfold State.enterDiag
  repeat' first
    | (with_reducible first
      | assumption | apply State.setBchan_sound | apply State.setBstate_sound | fail_if_no_progress apply sound_with | intro _)
    | split | dsimp only

theorem State.beatStop_sound {q : List Instr} (s : State) (n : Nat)
    (hq : State.Sound s q) :
    State.Sound (State.beatStop s n) q := by
  unfold State.beatStop
  repeat' first
    | (with_reducible first
      | assumption | apply State.setBchan_sound | apply State.setBstate_sound | fail_if_no_progress apply sound_with | intro _)
    | split | dsimp only

theorem State.beatFault_sound {q : List Instr} (s : State) (n : Nat) (cls : Nat)
    (hq : State.Sound s q) :
    State.Sound (State.beatFault s n cls) q := by
  unfold State.beatFault
  repeat' first
    | (with_reducible first
      | assumption | apply State.setFld_sound | apply State.bump_sound | apply State.emit_sound | apply State.raise_sound
      | apply State.setBchan_sound | apply State.setBstate_sound | apply sound_ite | apply sound_ite_snd
      | fail_if_no_progress apply sound_with | intro _ | refine pair_sound (by assumption) ?_
      | refine opt_elim (by assumption) ?_ | refine optP_elim (by assumption) ?_ | refine optP_elim' (by assumption) ?_
      | refine exc_elim (by assumption) ?_)
    | split | dsimp only

theorem State.beatEnable_sound {q : List Instr} (s : State) (n : Nat)
    (hq : State.Sound s q) :
    State.Sound (State.beatEnable s n) q := by
  unfold State.beatEnable
  repeat' first
    | (with_reducible first
      | assumption | apply State.setBchan_sound | apply State.setBstate_sound | apply State.enterDiag_sound
      | apply State.beatStop_sound | apply sound_ite | apply sound_ite_snd | fail_if_no_progress apply sound_with | intro _)
    | split | dsimp only

theorem State.beatEmit_sound {q : List Instr} (s : State) (c : Cfg) (n : Nat) (b : Nat) (quiet : Bool)
    (hq : State.Sound s q) :
    State.Sound (State.beatEmit s c n b quiet) q := by
  unfold State.beatEmit
  repeat' first
    | (with_reducible first
      | assumption | apply State.setFld_sound | apply State.bump_sound | apply State.peak_sound | apply State.emit_sound
      | apply State.fresh_sound | apply State.raise_sound | apply State.setBchan_sound | apply sound_ite | apply sound_ite_snd
      | fail_if_no_progress apply sound_with | intro _ | refine pair_sound (by assumption) ?_
      | refine opt_elim (by assumption) ?_ | refine optP_elim (by assumption) ?_ | refine optP_elim' (by assumption) ?_
      | refine exc_elim (by assumption) ?_)
    | split | dsimp only

theorem State.settleRail_sound {q : List Instr} (s : State) (r : Nat) (ns : Nat) (late : Bool) (quiet : Bool)
    (hq : State.Sound s q) :
    State.Sound (State.settleRail s r ns late quiet) q := by
  unfold State.settleRail
  repeat' first
    | (with_reducible first
      | assumption | apply State.setFld_sound | apply State.bump_sound | apply State.peak_sound | apply State.fresh_sound
      | apply State.setBrail_sound | apply sound_ite | apply sound_ite_snd | fail_if_no_progress apply sound_with | intro _
      | refine pair_sound (by assumption) ?_ | refine opt_elim (by assumption) ?_ | refine optP_elim (by assumption) ?_
      | refine optP_elim' (by assumption) ?_ | refine exc_elim (by assumption) ?_)
    | split | dsimp only

theorem State.beatHalt_sound {q : List Instr} (s : State) (half : Nat)
    (hq : State.Sound s q) :
    State.Sound (State.beatHalt s half) q := by
  unfold State.beatHalt
  repeat' first
    | (with_reducible first
      | assumption | apply State.beatStop_sound | apply foldl_sound | apply foldl_snd_sound | apply sound_ite
      | apply sound_ite_snd | intro _)
    | split | dsimp only

theorem State.beatSettle_sound {q : List Instr} (s : State) (half : Nat)
    (hq : State.Sound s q) :
    State.Sound (State.beatSettle s half) q := by
  unfold State.beatSettle
  repeat' first
    | (with_reducible first
      | assumption | apply State.setBchan_sound | apply State.beatEnable_sound | apply State.beatEmit_sound
      | apply State.settleRail_sound | apply State.beatHalt_sound | apply foldl_sound | apply foldl_snd_sound | apply sound_ite
      | apply sound_ite_snd | fail_if_no_progress apply sound_with | intro _ | refine pair_sound (by assumption) ?_
      | refine opt_elim (by assumption) ?_ | refine optP_elim (by assumption) ?_ | refine optP_elim' (by assumption) ?_
      | refine exc_elim (by assumption) ?_)
    | split | dsimp only

theorem State.beatSettleAll_sound {q : List Instr} (s : State)
    (hq : State.Sound s q) :
    State.Sound (State.beatSettleAll s) q := by
  unfold State.beatSettleAll
  repeat' first
    | (with_reducible first
      | assumption | apply State.beatSettle_sound | intro _)
    | split | dsimp only

theorem State.beatGive_sound {q : List Instr} (s : State) (c : Cfg) (n : Nat) (blk : BusBlk)
    (hq : State.Sound s q) :
    State.Sound (State.beatGive s c n blk) q := by
  unfold State.beatGive
  repeat' first
    | (with_reducible first
      | assumption | apply State.setFld_sound | apply State.setBchan_sound | apply State.setBrail_sound | apply sound_ite
      | apply sound_ite_snd | fail_if_no_progress apply sound_with | intro _ | refine pair_sound (by assumption) ?_
      | refine opt_elim (by assumption) ?_ | refine optP_elim (by assumption) ?_ | refine optP_elim' (by assumption) ?_
      | refine exc_elim (by assumption) ?_)
    | split | dsimp only

theorem State.diagEnd_sound {q : List Instr} (s : State) (n : Nat) (result : Nat) (z : Nat)
    (hq : State.Sound s q) :
    State.Sound (State.diagEnd s n result z) q := by
  unfold State.diagEnd
  repeat' first
    | (with_reducible first
      | assumption | apply State.setFld_sound | apply State.raise_sound | apply State.setBstate_sound
      | apply State.beatStop_sound | apply State.beatFault_sound | apply sound_ite | apply sound_ite_snd
      | fail_if_no_progress apply sound_with | intro _)
    | split | dsimp only

theorem State.beatReject_sound {q : List Instr} (s : State)
    (hq : State.Sound s q) :
    State.Sound (State.beatReject s) q := by
  unfold State.beatReject
  repeat' first
    | (with_reducible first
      | assumption | apply State.countAndRaise_sound | intro _)
    | split | dsimp only

theorem State.beatClear1_sound {q : List Instr} (s : State) (n : Nat)
    (hq : State.Sound s q) :
    State.Sound (State.beatClear1 s n) q := by
  unfold State.beatClear1
  repeat' first
    | (with_reducible first
      | assumption | apply State.setFld_sound | apply State.setBchan_sound | apply State.setBrail_sound
      | apply State.enterDiag_sound | apply sound_ite | apply sound_ite_snd | fail_if_no_progress apply sound_with | intro _)
    | split | dsimp only

theorem State.beatCtrl_sound {q : List Instr} (s : State) (n : Nat) (v : Nat)
    (hq : State.Sound s q) :
    State.Sound (State.beatCtrl s n v) q := by
  unfold State.beatCtrl
  repeat' first
    | (with_reducible first
      | assumption | apply State.setFld_sound | apply sound_ite | apply sound_ite_snd | fail_if_no_progress apply sound_with
      | intro _ | refine pair_sound (by assumption) ?_ | refine opt_elim (by assumption) ?_
      | refine optP_elim (by assumption) ?_ | refine optP_elim' (by assumption) ?_ | refine exc_elim (by assumption) ?_)
    | split | dsimp only

theorem State.beatApply_sound {q : List Instr} (s : State) (c : Cmd)
    (hq : State.Sound s q) :
    State.Sound (State.beatApply s c).2 q := by
  unfold State.beatApply
  repeat' first
    | (with_reducible first
      | assumption | apply State.setFld_sound | apply State.enterDiag_sound | apply State.beatEnable_sound
      | apply State.beatReject_sound | apply State.beatClear1_sound | apply State.beatCtrl_sound | apply foldl_sound
      | apply foldl_snd_sound | apply sound_ite | apply sound_ite_snd | fail_if_no_progress apply sound_with | intro _
      | refine pair_sound (by assumption) ?_ | refine opt_elim (by assumption) ?_ | refine optP_elim (by assumption) ?_
      | refine optP_elim' (by assumption) ?_ | refine exc_elim (by assumption) ?_)
    | split | dsimp only

theorem State.beatChanRegs_sound {q : List Instr} (s : State) (r : BeatChanRec)
    (hq : State.Sound s q) :
    State.Sound (State.beatChanRegs s r) q := by
  unfold State.beatChanRegs
  repeat' first
    | (with_reducible first
      | assumption | apply State.setFld_sound | fail_if_no_progress apply sound_with | intro _)
    | split | dsimp only

theorem State.beatTake_sound {q : List Instr} (s : State) (r : BeatChanRec)
    (hq : State.Sound s q) :
    State.Sound (State.beatTake s r) q := by
  unfold State.beatTake
  repeat' first
    | (with_reducible first
      | assumption | apply State.setFld_sound | apply State.clearFlds_sound | apply State.setBchan_sound
      | apply State.beatChanRegs_sound | apply sound_ite | apply sound_ite_snd | fail_if_no_progress apply sound_with | intro _)
    | split | dsimp only

theorem State.railTake_sound {q : List Instr} (s : State) (k : BeatRailRec)
    (hq : State.Sound s q) :
    State.Sound (State.railTake s k) q := by
  unfold State.railTake
  repeat' first
    | (with_reducible first
      | assumption | apply State.setFld_sound | apply State.setBrail_sound | apply sound_ite | apply sound_ite_snd
      | fail_if_no_progress apply sound_with | intro _)
    | split | dsimp only

theorem State.beatLoad_sound {q : List Instr} (s : State) (c : Cfg)
    (hq : State.Sound s q) :
    State.Sound (State.beatLoad s c) q := by
  unfold State.beatLoad
  repeat' first
    | (with_reducible first
      | assumption | apply State.setFld_sound | apply State.clearFlds_sound | apply State.beatTake_sound
      | apply State.railTake_sound | apply foldl_sound | apply foldl_snd_sound | fail_if_no_progress apply sound_with | intro _)
    | split | dsimp only

theorem State.beatHold_sound {q : List Instr} (s : State) (old : Cfg) (new : Cfg) (blocks : Nat)
    (hq : State.Sound s q) :
    State.Sound (State.beatHold s old new blocks) q := by
  unfold State.beatHold
  repeat' first
    | (with_reducible first
      | assumption | apply State.setBchan_sound | apply foldl_sound | apply foldl_snd_sound | apply sound_ite
      | apply sound_ite_snd | fail_if_no_progress apply sound_with | intro _)
    | split | dsimp only

theorem State.beatSwap_sound {q : List Instr} (s : State) (new : Cfg)
    (hq : State.Sound s q) :
    State.Sound (State.beatSwap s new) q := by
  unfold State.beatSwap
  repeat' first
    | (with_reducible first
      | assumption | apply State.setFld_sound | apply State.setBchan_sound | apply State.setBrail_sound
      | apply State.setBstate_sound | apply State.beatChanRegs_sound | apply State.beatTake_sound | apply State.railTake_sound
      | apply foldl_sound | apply foldl_snd_sound | apply sound_ite | apply sound_ite_snd | fail_if_no_progress apply sound_with
      | intro _)
    | split | dsimp only

theorem State.beatCommand_sound {q : List Instr} (s : State) (c : Cmd)
    (hq : State.Sound s q) :
    State.Sound (State.beatCommand s c) q := by
  unfold State.beatCommand
  repeat' first
    | (with_reducible first
      | assumption | apply State.hold_sound | apply State.beatApply_sound | apply sound_ite | apply sound_ite_snd | intro _)
    | split | dsimp only

theorem execBeatMute_sound {q : List Instr} (first : Nat) (count : Nat) (mute : Nat) (ramp : Nat) (s : State)
    (hq : State.Sound s q) :
    NextSound q (execBeatMute first count mute ramp s) := by
  unfold execBeatMute
  repeat' first
    | (with_reducible first
      | assumption | apply State.beatCommand_sound | apply next_sound | intro _)
    | split | dsimp only

theorem execBeatEnable_sound {q : List Instr} (first : Nat) (count : Nat) (enable : Nat) (s : State)
    (hq : State.Sound s q) :
    NextSound q (execBeatEnable first count enable s) := by
  unfold execBeatEnable
  repeat' first
    | (with_reducible first
      | assumption | apply State.beatEnable_sound | apply State.beatCommand_sound | apply next_sound | intro _)
    | split | dsimp only

theorem execBeatClear_sound {q : List Instr} (first : Nat) (count : Nat) (s : State)
    (hq : State.Sound s q) :
    NextSound q (execBeatClear first count s) := by
  unfold execBeatClear
  repeat' first
    | (with_reducible first
      | assumption | apply State.beatCommand_sound | apply next_sound | intro _)
    | split | dsimp only

theorem execBeatDiag_sound {q : List Instr} (first : Nat) (count : Nat) (s : State)
    (hq : State.Sound s q) :
    NextSound q (execBeatDiag first count s) := by
  unfold execBeatDiag
  repeat' first
    | (with_reducible first
      | assumption | apply State.beatCommand_sound | apply next_sound | intro _)
    | split | dsimp only

theorem execBeatDiagDone_sound {q : List Instr} (n : Nat) (vcMilli : Nat) (code : Option Nat) (vPkMv : Nat) (s : State)
    (hq : State.Sound s q) :
    NextSound q (execBeatDiagDone n vcMilli code vPkMv s) := by
  unfold execBeatDiagDone
  repeat' first
    | (with_reducible first
      | assumption | apply State.fresh_sound | apply State.beatSettleAll_sound | apply State.diagEnd_sound | apply sound_ite
      | apply sound_ite_snd | apply next_sound | apply next_ite | fail_if_no_progress apply sound_with | intro _
      | refine pair_sound (by assumption) ?_ | refine opt_elim (by assumption) ?_ | refine optP_elim (by assumption) ?_
      | refine optP_elim' (by assumption) ?_ | refine exc_elim (by assumption) ?_)
    | split | dsimp only

theorem execBeatCurrentTrip_sound {q : List Instr} (n : Nat) (cycles : Nat) (vcMilli : Nat) (vd : Nat) (ref : Nat) (s : State)
    (hq : State.Sound s q) :
    NextSound q (execBeatCurrentTrip n cycles vcMilli vd ref s) := by
  unfold execBeatCurrentTrip
  repeat' first
    | (with_reducible first
      | assumption | apply State.bump_sound | apply State.fresh_sound | apply State.setBchan_sound | apply State.beatFault_sound
      | apply State.beatSettleAll_sound | apply State.diagEnd_sound | apply sound_ite | apply sound_ite_snd | apply next_sound
      | apply next_ite | fail_if_no_progress apply sound_with | intro _)
    | split | dsimp only

theorem execBeatSenseFault_sound {q : List Instr} (n : Nat) (s : State)
    (hq : State.Sound s q) :
    NextSound q (execBeatSenseFault n s) := by
  unfold execBeatSenseFault
  repeat' first
    | (with_reducible first
      | assumption | apply State.beatFault_sound | apply State.beatSettleAll_sound | apply sound_ite | apply sound_ite_snd
      | apply next_sound | apply next_ite | fail_if_no_progress apply sound_with | intro _)
    | split | dsimp only

theorem execBeatRailFault_sound {q : List Instr} (r : Nat) (s : State)
    (hq : State.Sound s q) :
    NextSound q (execBeatRailFault r s) := by
  unfold execBeatRailFault
  repeat' first
    | (with_reducible first
      | assumption | apply State.setFld_sound | apply State.raise_sound | apply State.setBrail_sound
      | apply State.beatFault_sound | apply State.beatSettleAll_sound | apply foldl_sound | apply foldl_snd_sound
      | apply sound_ite | apply sound_ite_snd | apply next_sound | apply next_ite | fail_if_no_progress apply sound_with
      | intro _)
    | split | dsimp only

theorem execBeatRetry_sound {q : List Instr} (n : Nat) (s : State)
    (hq : State.Sound s q) :
    NextSound q (execBeatRetry n s) := by
  unfold execBeatRetry
  repeat' first
    | (with_reducible first
      | assumption | apply State.enterDiag_sound | apply State.beatSettleAll_sound | apply sound_ite | apply sound_ite_snd
      | apply next_sound | apply next_ite | fail_if_no_progress apply sound_with | intro _
      | refine pair_sound (by assumption) ?_ | refine opt_elim (by assumption) ?_ | refine optP_elim (by assumption) ?_
      | refine optP_elim' (by assumption) ?_ | refine exc_elim (by assumption) ?_)
    | split | dsimp only

theorem execBeatPrerollDone_sound {q : List Instr} (n : Nat) (s : State)
    (hq : State.Sound s q) :
    NextSound q (execBeatPrerollDone n s) := by
  unfold execBeatPrerollDone
  repeat' first
    | (with_reducible first
      | assumption | apply State.setBchan_sound | apply State.setBstate_sound | apply State.beatStop_sound
      | apply State.beatSettleAll_sound | apply sound_ite | apply sound_ite_snd | apply next_sound | apply next_ite
      | fail_if_no_progress apply sound_with | intro _)
    | split | dsimp only

theorem execBeatRampDone_sound {q : List Instr} (n : Nat) (s : State)
    (hq : State.Sound s q) :
    NextSound q (execBeatRampDone n s) := by
  unfold execBeatRampDone
  repeat' first
    | (with_reducible first
      | assumption | apply State.setBchan_sound | apply State.setBstate_sound | apply State.beatSettleAll_sound
      | apply sound_ite | apply sound_ite_snd | apply next_sound | apply next_ite | fail_if_no_progress apply sound_with
      | intro _)
    | split | dsimp only

theorem execBeatPresenceChange_sound {q : List Instr} (n : Nat) (s : State)
    (hq : State.Sound s q) :
    NextSound q (execBeatPresenceChange n s) := by
  unfold execBeatPresenceChange
  repeat' first
    | (with_reducible first
      | assumption | apply State.setFld_sound | apply State.setBchan_sound | apply State.setBstate_sound
      | apply State.enterDiag_sound | apply sound_ite | apply sound_ite_snd | apply next_sound | apply next_ite
      | fail_if_no_progress apply sound_with | intro _ | refine pair_sound (by assumption) ?_
      | refine opt_elim (by assumption) ?_ | refine optP_elim (by assumption) ?_ | refine optP_elim' (by assumption) ?_
      | refine exc_elim (by assumption) ?_)
    | split | dsimp only

theorem execBeatGridRelock_sound {q : List Instr} (n : Nat) (s : State)
    (hq : State.Sound s q) :
    NextSound q (execBeatGridRelock n s) := by
  unfold execBeatGridRelock
  repeat' first
    | (with_reducible first
      | assumption | apply State.setFld_sound | apply sound_ite | apply sound_ite_snd | apply next_sound | apply next_ite
      | intro _)
    | split | dsimp only

end Sys2Proof.Machine
end

