-- ==== Sys2Proof/Laws/KeepsMemory.lean ====
section
/-! SUPPORT. What the operations of Machine/Memory.lean keep: one lemma each. -/

set_option linter.unusedTactic false
set_option linter.unreachableTactic false

namespace Sys2Proof.Machine

theorem State.countUe_sound {q : List Instr} (s : State) (w : Nat)
    (hq : State.Sound s q) :
    State.Sound (State.countUe s w) q := by
  unfold State.countUe
  repeat' first
    | (with_reducible first
      | assumption | apply State.setFld_sound | apply State.bump_sound | apply State.raise_sound | intro _)
    | split | dsimp only

theorem State.dramFetch_sound {q : List Instr} (s : State) (a : Nat) (n : Nat)
    (hq : State.Sound s q) :
    State.Sound (State.dramFetch s a n).2 q := by
  unfold State.dramFetch
  repeat' first
    | (with_reducible first
      | assumption | apply State.countUe_sound | apply foldl_sound | apply foldl_snd_sound
      | fail_if_no_progress apply sound_with | intro _ | refine pair_sound (by assumption) ?_
      | refine opt_elim (by assumption) ?_ | refine optP_elim (by assumption) ?_ | refine optP_elim' (by assumption) ?_
      | refine exc_elim (by assumption) ?_)
    | split | dsimp only

end Sys2Proof.Machine
end

