-- ==== Sys2Proof/Laws/KeepsCarillon.lean ====
section
/-! SUPPORT. What the operations of Machine/Carillon.lean keep: one lemma each. -/

set_option linter.unusedTactic false
set_option linter.unreachableTactic false

namespace Sys2Proof.Machine

theorem State.setXp_sound {q : List Instr} (s : State) (i : Nat) (o : Nat) (x : Xp)
    (hq : State.Sound s q) :
    State.Sound (State.setXp s i o x) q := by
  unfold State.setXp
  repeat' first
    | (with_reducible first
      | assumption | fail_if_no_progress apply sound_with | intro _)
    | split | dsimp only

theorem State.setOutF_sound {q : List Instr} (s : State) (o : Nat) (x : OutFactor)
    (hq : State.Sound s q) :
    State.Sound (State.setOutF s o x) q := by
  unfold State.setOutF
  repeat' first
    | (with_reducible first
      | assumption | fail_if_no_progress apply sound_with | intro _)
    | split | dsimp only

theorem State.addChanges_sound {q : List Instr} (s : State) (n : Nat)
    (hq : State.Sound s q) :
    State.Sound (State.addChanges s n) q := by
  unfold State.addChanges
  repeat' first
    | (with_reducible first
      | assumption | apply State.bump_sound | intro _)
    | split | dsimp only

theorem State.startRamp_sound {q : List Instr} (s : State) (i : Nat) (o : Nat) (tgt : Int) (slot : Nat)
    (hq : State.Sound s q) :
    State.Sound (State.startRamp s i o tgt slot) q := by
  unfold State.startRamp
  repeat' first
    | (with_reducible first
      | assumption | apply State.peak_sound | apply State.setXp_sound | apply sound_ite | apply sound_ite_snd
      | fail_if_no_progress apply sound_with | intro _)
    | split | dsimp only

theorem State.changeXp_sound {q : List Instr} (s : State) (i : Nat) (o : Nat) (tgt : Int) (slot : Nat)
    (hq : State.Sound s q) :
    State.Sound (State.changeXp s i o tgt slot) q := by
  unfold State.changeXp
  repeat' first
    | (with_reducible first
      | assumption | apply State.setXp_sound | apply State.addChanges_sound | apply State.startRamp_sound | apply sound_ite
      | apply sound_ite_snd | fail_if_no_progress apply sound_with | intro _)
    | split | dsimp only

theorem State.serveWaits_sound {q : List Instr} (s : State)
    (hq : State.Sound s q) :
    State.Sound (State.serveWaits s) q := by
  unfold State.serveWaits
  repeat' first
    | (with_reducible first
      | assumption | apply State.addChanges_sound | apply State.startRamp_sound | apply foldl_sound | apply foldl_snd_sound
      | apply sound_ite | apply sound_ite_snd | fail_if_no_progress apply sound_with | intro _)
    | split | dsimp only

theorem State.clnReject_sound {q : List Instr} (s : State)
    (hq : State.Sound s q) :
    State.Sound (State.clnReject s) q := by
  unfold State.clnReject
  repeat' first
    | (with_reducible first
      | assumption | apply State.countAndRaise_sound | intro _)
    | split | dsimp only

theorem State.clnDefer_sound {q : List Instr} (s : State)
    (hq : State.Sound s q) :
    State.Sound (State.clnDefer s) q := by
  unfold State.clnDefer
  repeat' first
    | (with_reducible first
      | assumption | apply State.countAndRaise_sound | intro _)
    | split | dsimp only

theorem State.applyChanges_sound {q : List Instr} (s : State) (n : Nat) (cs : List (Nat × Nat × Int × Nat))
    (hq : State.Sound s q) :
    OptSound q (State.applyChanges s n cs) := by
  unfold State.applyChanges
  repeat' first
    | (with_reducible first
      | assumption | apply State.changeXp_sound | apply foldl_sound | apply foldl_snd_sound | apply sound_ite
      | apply sound_ite_snd | apply opt_ite | apply opt_none | apply opt_some | fail_if_no_progress apply sound_with | intro _)
    | split | dsimp only

theorem State.readOut_sound {q : List Instr} (s : State) (o : Nat)
    (hq : State.Sound s q) :
    State.Sound (State.readOut s o) q := by
  unfold State.readOut
  repeat' first
    | (with_reducible first
      | assumption | apply State.setOutF_sound | fail_if_no_progress apply sound_with | intro _)
    | split | dsimp only

theorem State.settleOut_sound {q : List Instr} (s : State) (o : Nat)
    (hq : State.Sound s q) :
    State.Sound (State.settleOut s o) q := by
  unfold State.settleOut
  repeat' first
    | (with_reducible first
      | assumption | apply State.setFld_sound | apply State.setOutF_sound | apply sound_ite | apply sound_ite_snd
      | fail_if_no_progress apply sound_with | intro _)
    | split | dsimp only

theorem State.clnSettle_sound {q : List Instr} (s : State)
    (hq : State.Sound s q) :
    State.Sound (State.clnSettle s) q := by
  unfold State.clnSettle
  repeat' first
    | (with_reducible first
      | assumption | apply State.settleOut_sound | apply foldl_sound | apply foldl_snd_sound | intro _)
    | split | dsimp only

theorem State.rejectEntries_sound {q : List Instr} (s : State) (n : Nat) (hq : State.Sound s q) :
    State.Sound (State.rejectEntries s n) q := by
  induction n generalizing s with
  | zero => exact hq
  | succ n ih => exact ih _ (State.clnReject_sound _ hq)

theorem State.clnApply_sound {q : List Instr} (s : State) (c : Cmd) (f : Fetch)
    (hq : State.Sound s q) :
    OptSoundP q (State.clnApply s c f) := by
  unfold State.clnApply
  repeat' first
    | (with_reducible first
      | assumption | apply State.setFld_sound | apply State.clnReject_sound | apply State.applyChanges_sound
      | apply State.clnSettle_sound | apply State.rejectEntries_sound | apply foldl_sound | apply foldl_snd_sound
      | apply sound_ite | apply sound_ite_snd | apply optP_ite | apply optP_none | apply optP_some | apply optP_map
      | fail_if_no_progress apply sound_with | intro _ | refine pair_sound (by assumption) ?_
      | refine opt_elim (by assumption) ?_ | refine optP_elim (by assumption) ?_ | refine optP_elim' (by assumption) ?_
      | refine exc_elim (by assumption) ?_)
    | split | dsimp only

theorem State.clnCommand_sound {q : List Instr} (s : State) (c : Cmd)
    (hq : State.Sound s q) :
    State.Sound (State.clnCommand s c) q := by
  unfold State.clnCommand
  repeat' first
    | (with_reducible first
      | assumption | apply State.hold_sound | apply State.holdLate_sound | apply State.clnDefer_sound
      | apply State.clnApply_sound | apply sound_ite | apply sound_ite_snd | fail_if_no_progress apply sound_with | intro _
      | refine pair_sound (by assumption) ?_ | refine opt_elim (by assumption) ?_ | refine optP_elim (by assumption) ?_
      | refine optP_elim' (by assumption) ?_ | refine exc_elim (by assumption) ?_)
    | split | dsimp only

theorem State.openOut_sound {q : List Instr} (s : State) (o : Nat)
    (hq : State.Sound s q) :
    State.Sound (State.openOut s o) q := by
  unfold State.openOut
  repeat' first
    | (with_reducible first
      | assumption | apply State.setOutF_sound | apply State.readOut_sound | fail_if_no_progress apply sound_with | intro _)
    | split | dsimp only

theorem State.countWaitingLists_sound {q : List Instr} (s : State)
    (hq : State.Sound s q) :
    State.Sound (State.countWaitingLists s) q := by
  unfold State.countWaitingLists
  repeat' first
    | (with_reducible first
      | assumption | apply State.clnDefer_sound | apply foldl_sound | apply foldl_snd_sound | intro _)
    | split | dsimp only

theorem State.countRampWaits_sound {q : List Instr} (s : State)
    (hq : State.Sound s q) :
    State.Sound (State.countRampWaits s) q := by
  unfold State.countRampWaits
  repeat' first
    | (with_reducible first
      | assumption | apply State.bump_sound | apply State.raise_sound | apply sound_ite | apply sound_ite_snd | intro _)
    | split | dsimp only

theorem State.clnBoundary_sound {q : List Instr} (s : State)
    (hq : State.Sound s q) :
    State.Sound (State.clnBoundary s) q := by
  unfold State.clnBoundary
  repeat' first
    | (with_reducible first
      | assumption | apply State.setFld_sound | apply State.serveWaits_sound | apply State.clnSettle_sound
      | apply State.openOut_sound | apply State.countWaitingLists_sound | apply State.countRampWaits_sound | apply foldl_sound
      | apply foldl_snd_sound | fail_if_no_progress apply sound_with | intro _)
    | split | dsimp only

theorem State.outsetApply_sound {q : List Instr} (s : State) (set : Tbl Nat) (atBoundary : Bool)
    (hq : State.Sound s q) :
    State.Sound (State.outsetApply s set atBoundary) q := by
  unfold State.outsetApply
  repeat' first
    | (with_reducible first
      | assumption | apply State.setFld_sound | apply State.setOutF_sound | apply State.readOut_sound
      | apply State.clnSettle_sound | apply foldl_sound | apply foldl_snd_sound | apply sound_ite | apply sound_ite_snd
      | fail_if_no_progress apply sound_with | intro _)
    | split | dsimp only

theorem State.advanceOut_sound {q : List Instr} (s : State) (o : Nat)
    (hq : State.Sound s q) :
    State.Sound (State.advanceOut s o) q := by
  unfold State.advanceOut
  repeat' first
    | (with_reducible first
      | assumption | apply State.setFld_sound | apply State.setOutF_sound | apply sound_ite | apply sound_ite_snd
      | fail_if_no_progress apply sound_with | intro _)
    | split | dsimp only

theorem State.flagOut_sound {q : List Instr} (s : State) (o : Nat) (clip : Bool) (ovf : Bool)
    (hq : State.Sound s q) :
    State.Sound (State.flagOut s o clip ovf) q := by
  unfold State.flagOut
  repeat' first
    | (with_reducible first
      | assumption | apply State.setFld_sound | apply State.bump_sound | apply State.raise_sound | apply sound_ite
      | apply sound_ite_snd | fail_if_no_progress apply sound_with | intro _)
    | split | dsimp only

theorem State.clnRunPart_sound {q : List Instr} (s : State) (c : Cfg) (geom : ClnGeom) (parts : Nat) (k : Nat) (g : Nat) (p : Nat)
    (hq : State.Sound s q) :
    State.Sound (State.clnRunPart s c geom parts k g p) q := by
  unfold State.clnRunPart
  repeat' first
    | (with_reducible first
      | assumption | apply State.writeBus_sound | apply State.advanceOut_sound | apply State.flagOut_sound | apply foldl_sound
      | apply foldl_snd_sound | apply sound_ite | apply sound_ite_snd | fail_if_no_progress apply sound_with | intro _)
    | split | dsimp only

theorem State.xpWrite_sound {q : List Instr} (s : State) (i : Nat) (o : Nat) (v : Word)
    (hq : State.Sound s q) :
    State.Sound (State.xpWrite s i o v).2 q := by
  unfold State.xpWrite
  repeat' first
    | (with_reducible first
      | assumption | apply State.raise_sound | apply State.hold_sound | apply sound_ite | apply sound_ite_snd
      | fail_if_no_progress apply sound_with | intro _ | refine pair_sound (by assumption) ?_
      | refine opt_elim (by assumption) ?_ | refine optP_elim (by assumption) ?_ | refine optP_elim' (by assumption) ?_
      | refine exc_elim (by assumption) ?_)
    | split | dsimp only

theorem State.xpWindowWrite_sound {q : List Instr} (s : State) (a : Nat) (v : Word)
    (hq : State.Sound s q) :
    State.Sound (State.xpWindowWrite s a v).2 q := by
  unfold State.xpWindowWrite
  repeat' first
    | (with_reducible first
      | assumption | apply State.xpWrite_sound | apply sound_ite | apply sound_ite_snd | fail_if_no_progress apply sound_with
      | intro _)
    | split | dsimp only

theorem State.xpAdvance_sound {q : List Instr} (s : State)
    (hq : State.Sound s q) :
    State.Sound (State.xpAdvance s) q := by
  unfold State.xpAdvance
  repeat' first
    | (with_reducible first
      | assumption | apply State.setFld_sound | apply sound_ite | apply sound_ite_snd | fail_if_no_progress apply sound_with
      | intro _)
    | split | dsimp only

theorem State.xpTgtWrite_sound {q : List Instr} (s : State) (v : Word)
    (hq : State.Sound s q) :
    State.Sound (State.xpTgtWrite s v).2 q := by
  unfold State.xpTgtWrite
  repeat' first
    | (with_reducible first
      | assumption | apply State.xpWrite_sound | apply State.xpAdvance_sound | fail_if_no_progress apply sound_with | intro _)
    | split | dsimp only

theorem State.rampSlotWrite_sound {q : List Instr} (s : State) (slot : Nat) (v : Word)
    (hq : State.Sound s q) :
    State.Sound (State.rampSlotWrite s slot v) q := by
  unfold State.rampSlotWrite
  repeat' first
    | (with_reducible first
      | assumption | apply State.setFld_sound | apply State.raise_sound | apply sound_ite | apply sound_ite_snd | intro _)
    | split | dsimp only

theorem execXpSet_sound {q : List Instr} (input : Nat) (output : Nat) (gain : Word) (slot : Nat) (s : State)
    (hq : State.Sound s q) :
    NextSound q (execXpSet input output gain slot s) := by
  unfold execXpSet
  repeat' first
    | (with_reducible first
      | assumption | apply State.clnCommand_sound | apply next_sound | intro _)
    | split | dsimp only

theorem execXpList_sound {q : List Instr} (addr : Nat) (count : Nat) (slot : Nat) (s : State)
    (hq : State.Sound s q) :
    NextSound q (execXpList addr count slot s) := by
  unfold execXpList
  repeat' first
    | (with_reducible first
      | assumption | apply State.hold_sound | apply sound_ite | apply sound_ite_snd | apply next_sound | apply next_ite
      | fail_if_no_progress apply sound_with | intro _ | refine pair_sound (by assumption) ?_
      | refine opt_elim (by assumption) ?_ | refine optP_elim (by assumption) ?_ | refine optP_elim' (by assumption) ?_
      | refine exc_elim (by assumption) ?_)
    | split | dsimp only

theorem execXpClearOut_sound {q : List Instr} (output : Nat) (slot : Nat) (s : State)
    (hq : State.Sound s q) :
    NextSound q (execXpClearOut output slot s) := by
  unfold execXpClearOut
  repeat' first
    | (with_reducible first
      | assumption | apply State.clnCommand_sound | apply next_sound | intro _)
    | split | dsimp only

theorem execXpClearIn_sound {q : List Instr} (input : Nat) (slot : Nat) (s : State)
    (hq : State.Sound s q) :
    NextSound q (execXpClearIn input slot s) := by
  unfold execXpClearIn
  repeat' first
    | (with_reducible first
      | assumption | apply State.clnCommand_sound | apply next_sound | intro _)
    | split | dsimp only

theorem execOutMute_sound {q : List Instr} (first : Nat) (count : Nat) (mute : Nat) (s : State)
    (hq : State.Sound s q) :
    NextSound q (execOutMute first count mute s) := by
  unfold execOutMute
  repeat' first
    | (with_reducible first
      | assumption | apply State.clnCommand_sound | apply next_sound | intro _)
    | split | dsimp only

theorem execXpRampEnd_sound {q : List Instr} (input : Nat) (output : Nat) (s : State)
    (hq : State.Sound s q) :
    NextSound q (execXpRampEnd input output s) := by
  unfold execXpRampEnd
  repeat' first
    | (with_reducible first
      | assumption | apply State.setXp_sound | apply sound_ite | apply sound_ite_snd | apply next_sound | apply next_ite
      | fail_if_no_progress apply sound_with | intro _)
    | split | dsimp only

theorem execOutFactorRampEnd_sound {q : List Instr} (output : Nat) (s : State)
    (hq : State.Sound s q) :
    NextSound q (execOutFactorRampEnd output s) := by
  unfold execOutFactorRampEnd
  repeat' first
    | (with_reducible first
      | assumption | apply State.setFld_sound | apply State.setOutF_sound | apply sound_ite | apply sound_ite_snd
      | apply next_sound | apply next_ite | fail_if_no_progress apply sound_with | intro _)
    | split | dsimp only

end Sys2Proof.Machine
end

