-- ==== Sys2Proof/Laws/KeepsDram.lean ====
section
/-! SUPPORT. What the operations of Machine/Dram.lean keep: one lemma each. -/

set_option linter.unusedTactic false
set_option linter.unreachableTactic false

namespace Sys2Proof.Machine

theorem State.setPlane_sound {q : List Instr} (s : State) (p : Nat) (st : Nat)
    (hq : State.Sound s q) :
    State.Sound (State.setPlane s p st) q := by
  unfold State.setPlane
  repeat' first
    | (with_reducible first
      | assumption | apply State.setFld_sound | fail_if_no_progress apply sound_with | intro _)
    | split | dsimp only

theorem State.bootStage_sound {q : List Instr} (s : State) (n : Nat)
    (hq : State.Sound s q) :
    State.Sound (State.bootStage s n) q := by
  unfold State.bootStage
  repeat' first
    | (with_reducible first
      | assumption | apply State.setFld_sound | apply sound_ite | apply sound_ite_snd | intro _)
    | split | dsimp only

theorem State.planeWrite_sound {q : List Instr} (s : State) (a : Nat) (data : List (Option Byte))
    (hq : State.Sound s q) :
    State.Sound (State.planeWrite s a data).2 q := by
  unfold State.planeWrite
  repeat' first
    | (with_reducible first
      | assumption | apply State.raise_sound | apply State.setPlane_sound | apply State.bootStage_sound | apply foldl_sound
      | apply foldl_snd_sound | apply sound_ite | apply sound_ite_snd | apply sound_dram | apply sound_drams
      | apply sound_with_filter | apply sound_with_filters | fail_if_no_progress apply sound_with | intro _)
    | split | dsimp only

theorem State.dramStore_sound {q : List Instr} (s : State) (m : Nat) (a : Nat) (data : List (Option Byte))
    (hq : State.Sound s q) :
    State.Sound (State.dramStore s m a data).2 q := by
  unfold State.dramStore
  repeat' first
    | (with_reducible first
      | assumption | apply State.raise_sound | apply State.planeWrite_sound | apply sound_ite | apply sound_ite_snd | intro _)
    | split | dsimp only

theorem State.showOutstanding_sound {q : List Instr} (s : State) (m : Nat)
    (hq : State.Sound s q) :
    State.Sound (State.showOutstanding s m) q := by
  unfold State.showOutstanding
  repeat' first
    | (with_reducible first
      | assumption | apply State.setFld_sound | apply State.peak_sound | intro _)
    | split | dsimp only

theorem State.touch_sound {q : List Instr} (s : State) (m : Nat)
    (hq : State.Sound s q) :
    State.Sound (State.touch s m) q := by
  unfold State.touch
  repeat' first
    | (with_reducible first
      | assumption | apply State.peak_sound | apply sound_ite | apply sound_ite_snd | intro _)
    | split | dsimp only

theorem State.putShared_sound {q : List Instr} (s : State) (cl : Nat) (i : Nat) (bs : List (Option Byte)) (hq : State.Sound s q) :
    State.Sound (State.putShared s cl i bs) q := by
  induction bs generalizing s i with
  | nil => exact hq
  | cons b bs ih =>
    cases b
    · exact ih _ _ hq
    · exact ih _ _ (sound_with hq)

theorem State.sxmRefuse_sound {q : List Instr} (s : State)
    (hq : State.Sound s q) :
    State.Sound (State.sxmRefuse s).2 q := by
  unfold State.sxmRefuse
  repeat' first
    | (with_reducible first
      | assumption | apply State.raise_sound | intro _)
    | split | dsimp only

theorem State.obStore_sound {q : List Instr} (s : State) (a : Nat) (data : List (Option Byte))
    (hq : State.Sound s q) :
    State.Sound (State.obStore s a data).2 q := by
  unfold State.obStore
  repeat' first
    | (with_reducible first
      | assumption | apply State.emit_sound | apply foldl_sound | apply foldl_snd_sound | fail_if_no_progress apply sound_with
      | intro _ | refine pair_sound (by assumption) ?_ | refine opt_elim (by assumption) ?_
      | refine optP_elim (by assumption) ?_ | refine optP_elim' (by assumption) ?_ | refine exc_elim (by assumption) ?_)
    | split | dsimp only

theorem State.memStore_sound {q : List Instr} (s : State) (m : Nat) (a : Nat) (data : List (Option Byte))
    (hq : State.Sound s q) :
    State.Sound (State.memStore s m a data).2 q := by
  unfold State.memStore
  repeat' first
    | (with_reducible first
      | assumption | apply State.countDecErr_sound | apply State.dramStore_sound | apply State.putShared_sound
      | apply State.sxmRefuse_sound | apply State.obStore_sound | apply sound_ite | apply sound_ite_snd
      | fail_if_no_progress apply sound_with | intro _ | refine pair_sound (by assumption) ?_
      | refine opt_elim (by assumption) ?_ | refine optP_elim (by assumption) ?_ | refine optP_elim' (by assumption) ?_
      | refine exc_elim (by assumption) ?_)
    | split | dsimp only

end Sys2Proof.Machine
end

