-- ==== Sys2Proof/Laws/KeepsChimes.lean ====
section
/-! SUPPORT. What the operations of Machine/Chimes.lean keep: one lemma each. -/

set_option linter.unusedTactic false
set_option linter.unreachableTactic false

namespace Sys2Proof.Machine

theorem State.setFilt_sound {q : List Instr} (s : State) (f : Nat) (x : ChmFilter)
    (hq : State.Sound s q) :
    State.Sound (State.setFilt s f x) q := by
  unfold State.setFilt
  repeat' first
    | (with_reducible first
      | assumption | apply State.fresh_sound | fail_if_no_progress apply sound_with | intro _)
    | split | dsimp only

theorem State.setCoefs_sound {q : List Instr} (s : State) (n : Nat) (cs : List Int)
    (hq : State.Sound s q) :
    State.Sound (State.setCoefs s n cs) q := by
  unfold State.setCoefs
  repeat' first
    | (with_reducible first
      | assumption | apply foldl_sound | apply foldl_snd_sound | fail_if_no_progress apply sound_with | intro _)
    | split | dsimp only

theorem State.pushHist_sound {q : List Instr} (s : State) (half : Nat) (part : Nat) (bus : Nat) (keep : Nat) (xs : List Int)
    (hq : State.Sound s q) :
    State.Sound (State.pushHist s half part bus keep xs) q := by
  unfold State.pushHist
  repeat' first
    | (with_reducible first
      | assumption | fail_if_no_progress apply sound_with | intro _)
    | split | dsimp only

theorem State.chmStore_sound {q : List Instr} (s : State) (c : Cfg) (parts : Nat) (k : Nat) (h : Nat) (p : Nat)
    (hq : State.Sound s q) :
    State.Sound (State.chmStore s c parts k h p) q := by
  unfold State.chmStore
  repeat' first
    | (with_reducible first
      | assumption | apply State.pushHist_sound | apply foldl_sound | apply foldl_snd_sound
      | fail_if_no_progress apply sound_with | intro _)
    | split | dsimp only

theorem State.chmRunPart_sound {q : List Instr} (s : State) (c : Cfg) (parts : Nat) (k : Nat) (h : Nat) (p : Nat)
    (hq : State.Sound s q) :
    State.Sound (State.chmRunPart s c parts k h p) q := by
  unfold State.chmRunPart
  repeat' first
    | (with_reducible first
      | assumption | apply State.setFld_sound | apply State.bump_sound | apply State.raise_sound | apply State.writeBus_sound
      | apply State.setFilt_sound | apply State.chmStore_sound | apply foldl_sound | apply foldl_snd_sound | apply sound_ite
      | apply sound_ite_snd | fail_if_no_progress apply sound_with | intro _)
    | split | dsimp only

theorem State.endFade_sound {q : List Instr} (s : State) (f : Nat)
    (hq : State.Sound s q) :
    State.Sound (State.endFade s f) q := by
  unfold State.endFade
  repeat' first
    | (with_reducible first
      | assumption | apply State.raise_sound | apply State.setFilt_sound | apply State.setCoefs_sound | apply sound_ite
      | apply sound_ite_snd | fail_if_no_progress apply sound_with | intro _ | refine pair_sound (by assumption) ?_
      | refine opt_elim (by assumption) ?_ | refine optP_elim (by assumption) ?_ | refine optP_elim' (by assumption) ?_
      | refine exc_elim (by assumption) ?_)
    | split | dsimp only

theorem State.endFades_sound {q : List Instr} (s : State)
    (hq : State.Sound s q) :
    State.Sound (State.endFades s) q := by
  unfold State.endFades
  repeat' first
    | (with_reducible first
      | assumption | apply State.endFade_sound | apply foldl_sound | apply foldl_snd_sound | intro _)
    | split | dsimp only

theorem State.chmSkipPart_sound {q : List Instr} (s : State) (c : Cfg) (parts : Nat) (h : Nat) (p : Nat) (stored : Bool) (withheld : Bool)
    (hq : State.Sound s q) :
    State.Sound (State.chmSkipPart s c parts h p stored withheld) q := by
  unfold State.chmSkipPart
  repeat' first
    | (with_reducible first
      | assumption | apply State.pushHist_sound | apply State.endFade_sound | apply foldl_sound | apply foldl_snd_sound
      | apply sound_ite | apply sound_ite_snd | fail_if_no_progress apply sound_with | intro _)
    | split | dsimp only

theorem State.selectBank_sound {q : List Instr} (s : State) (f : Nat) (b : Nat) (len : Nat)
    (hq : State.Sound s q) :
    State.Sound (State.selectBank s f b len) q := by
  unfold State.selectBank
  repeat' first
    | (with_reducible first
      | assumption | apply State.setFilt_sound | apply sound_ite | apply sound_ite_snd | fail_if_no_progress apply sound_with
      | intro _ | refine pair_sound (by assumption) ?_ | refine opt_elim (by assumption) ?_
      | refine optP_elim (by assumption) ?_ | refine optP_elim' (by assumption) ?_ | refine exc_elim (by assumption) ?_)
    | split | dsimp only

theorem State.selectAll_sound {q : List Instr} (s : State) (targets : List (Nat × Nat)) (len : Nat) (hq : State.Sound s q) :
    OptExcSound q (State.selectAll s targets len) := by
  intro t e
  unfold State.selectAll at e
  simp only [] at e
  split_ifs at e
  · cases e
  simp only [Option.some.injEq, Except.ok.injEq] at e
  subst e
  exact foldl_sound (fun s x h => State.selectBank_sound _ _ _ _ h) _ hq

theorem State.chmReject_sound {q : List Instr} (s : State)
    (hq : State.Sound s q) :
    State.Sound (State.chmReject s) q := by
  unfold State.chmReject
  repeat' first
    | (with_reducible first
      | assumption | apply State.countAndRaise_sound | intro _)
    | split | dsimp only

theorem State.chmLate_sound {q : List Instr} (s : State)
    (hq : State.Sound s q) :
    State.Sound (State.chmLate s) q := by
  unfold State.chmLate
  repeat' first
    | (with_reducible first
      | assumption | apply State.countAndRaise_sound | intro _)
    | split | dsimp only

theorem State.presetFail_sound {q : List Instr} (s : State) (result : Nat)
    (hq : State.Sound s q) :
    State.Sound (State.presetFail s result) q := by
  unfold State.presetFail
  repeat' first
    | (with_reducible first
      | assumption | apply State.setFld_sound | apply State.raise_sound | fail_if_no_progress apply sound_with | intro _)
    | split | dsimp only

theorem State.touchIdle_sound {q : List Instr} (s : State) (f : Nat)
    (hq : State.Sound s q) :
    State.Sound (State.touchIdle s f) q := by
  unfold State.touchIdle
  repeat' first
    | (with_reducible first
      | assumption | apply State.setFilt_sound | apply sound_ite | apply sound_ite_snd | fail_if_no_progress apply sound_with
      | intro _)
    | split | dsimp only

theorem State.chmApply_sound {q : List Instr} (s : State) (c : Cmd) (f : Fetch)
    (hq : State.Sound s q) :
    OptSoundP q (State.chmApply s c f) := by
  unfold State.chmApply
  repeat' first
    | (with_reducible first
      | assumption | apply State.setCoefs_sound | apply State.selectAll_sound | apply State.chmReject_sound
      | apply State.presetFail_sound | apply State.touchIdle_sound | apply sound_ite | apply sound_ite_snd | apply optP_ite
      | apply optP_none | apply optP_some | apply optP_map | fail_if_no_progress apply sound_with | intro _
      | refine pair_sound (by assumption) ?_ | refine opt_elim (by assumption) ?_ | refine optP_elim (by assumption) ?_
      | refine optP_elim' (by assumption) ?_ | refine exc_elim (by assumption) ?_ | refine optExc_elim (by assumption) ?_)
    | split | dsimp only

theorem State.chmCommand_sound {q : List Instr} (s : State) (c : Cmd)
    (hq : State.Sound s q) :
    State.Sound (State.chmCommand s c) q := by
  unfold State.chmCommand
  repeat' first
    | (with_reducible first
      | assumption | apply State.hold_sound | apply State.holdLate_sound | apply State.chmApply_sound | apply sound_ite
      | apply sound_ite_snd | fail_if_no_progress apply sound_with | intro _ | refine pair_sound (by assumption) ?_
      | refine opt_elim (by assumption) ?_ | refine optP_elim (by assumption) ?_ | refine optP_elim' (by assumption) ?_
      | refine exc_elim (by assumption) ?_)
    | split | dsimp only

theorem State.touchCoef_sound {q : List Instr} (s : State) (n : Nat)
    (hq : State.Sound s q) :
    State.Sound (State.touchCoef s n) q := by
  unfold State.touchCoef
  repeat' first
    | (with_reducible first
      | assumption | apply State.touchIdle_sound | fail_if_no_progress apply sound_with | intro _
      | refine pair_sound (by assumption) ?_ | refine opt_elim (by assumption) ?_ | refine optP_elim (by assumption) ?_
      | refine optP_elim' (by assumption) ?_ | refine exc_elim (by assumption) ?_)
    | split | dsimp only

theorem State.coefRefuse_sound {q : List Instr} (s : State)
    (hq : State.Sound s q) :
    State.Sound (State.coefRefuse s).2 q := by
  unfold State.coefRefuse
  repeat' first
    | (with_reducible first
      | assumption | apply State.countAndRaise_sound | intro _)
    | split | dsimp only

theorem State.setCoefByte_sound {q : List Instr} (s : State) (i : Nat) (b : Byte)
    (hq : State.Sound s q) :
    State.Sound (State.setCoefByte s i b) q := by
  unfold State.setCoefByte
  repeat' first
    | (with_reducible first
      | assumption | apply State.setCoefs_sound | fail_if_no_progress apply sound_with | intro _)
    | split | dsimp only

theorem State.putCoefBytes_sound {q : List Instr} (s : State) (i : Nat) (bs : List (Option Byte)) (hq : State.Sound s q) :
    State.Sound (State.putCoefBytes s i bs) q := by
  induction bs generalizing s i with
  | nil => exact hq
  | cons b bs ih =>
    cases b <;> unfold State.putCoefBytes
    · exact ih _ _ hq
    · exact ih _ _ (State.setCoefByte_sound _ _ _ hq)

theorem State.chmWindowWrite_sound {q : List Instr} (s : State) (a : Nat) (data : List (Option Byte))
    (hq : State.Sound s q) :
    State.Sound (State.chmWindowWrite s a data).2 q := by
  unfold State.chmWindowWrite
  repeat' first
    | (with_reducible first
      | assumption | apply State.touchCoef_sound | apply State.coefRefuse_sound | apply State.putCoefBytes_sound
      | apply foldl_sound | apply foldl_snd_sound | apply sound_ite | apply sound_ite_snd | fail_if_no_progress apply sound_with
      | intro _)
    | split | dsimp only

theorem State.cwAdvance_sound {q : List Instr} (s : State)
    (hq : State.Sound s q) :
    State.Sound (State.cwAdvance s) q := by
  unfold State.cwAdvance
  repeat' first
    | (with_reducible first
      | assumption | apply State.setFld_sound | apply sound_ite | apply sound_ite_snd | fail_if_no_progress apply sound_with
      | intro _ | refine pair_sound (by assumption) ?_ | refine opt_elim (by assumption) ?_
      | refine optP_elim (by assumption) ?_ | refine optP_elim' (by assumption) ?_ | refine exc_elim (by assumption) ?_)
    | split | dsimp only

theorem State.cwDataWrite_sound {q : List Instr} (s : State) (v : Word)
    (hq : State.Sound s q) :
    State.Sound (State.cwDataWrite s v).2 q := by
  unfold State.cwDataWrite
  repeat' first
    | (with_reducible first
      | assumption | apply State.setCoefs_sound | apply State.touchCoef_sound | apply State.coefRefuse_sound
      | apply State.cwAdvance_sound | apply sound_ite | apply sound_ite_snd | fail_if_no_progress apply sound_with | intro _
      | refine pair_sound (by assumption) ?_ | refine opt_elim (by assumption) ?_ | refine optP_elim (by assumption) ?_
      | refine optP_elim' (by assumption) ?_ | refine exc_elim (by assumption) ?_)
    | split | dsimp only

theorem State.popPreset_sound {q : List Instr} (s : State)
    (hq : State.Sound s q) :
    State.Sound (State.popPreset s) q := by
  unfold State.popPreset
  repeat' first
    | (with_reducible first
      | assumption | fail_if_no_progress apply sound_with | intro _)
    | split | dsimp only

theorem State.setHeadPreset_sound {q : List Instr} (s : State) (l : PresetLoad)
    (hq : State.Sound s q) :
    State.Sound (State.setHeadPreset s l) q := by
  unfold State.setHeadPreset
  repeat' first
    | (with_reducible first
      | assumption | fail_if_no_progress apply sound_with | intro _)
    | split | dsimp only

theorem State.presetFetch_sound {q : List Instr} (s : State) (a : Nat) (n : Nat)
    (hq : State.Sound s q) :
    OptSoundP q (State.presetFetch s a n) := by
  unfold State.presetFetch
  repeat' first
    | (with_reducible first
      | assumption | apply State.dramFetch_sound | apply State.touch_sound | apply optP_ite | apply optP_none | apply optP_some
      | apply optP_map | fail_if_no_progress apply sound_with | intro _ | refine pair_sound (by assumption) ?_
      | refine opt_elim (by assumption) ?_ | refine optP_elim (by assumption) ?_ | refine optP_elim' (by assumption) ?_
      | refine exc_elim (by assumption) ?_)
    | split | dsimp only

theorem State.presetHeaderDone_sound {q : List Instr} (s : State)
    (hq : State.Sound s q) :
    State.Sound (State.presetHeaderDone s) q := by
  unfold State.presetHeaderDone
  repeat' first
    | (with_reducible first
      | assumption | apply State.presetFail_sound | apply State.popPreset_sound | apply State.setHeadPreset_sound
      | apply State.presetFetch_sound | apply sound_ite | apply sound_ite_snd | fail_if_no_progress apply sound_with | intro _
      | refine pair_sound (by assumption) ?_ | refine opt_elim (by assumption) ?_ | refine optP_elim (by assumption) ?_
      | refine optP_elim' (by assumption) ?_ | refine exc_elim (by assumption) ?_)
    | split | dsimp only

theorem State.presetStart_sound {q : List Instr} (s : State)
    (hq : State.Sound s q) :
    State.Sound (State.presetStart s) q := by
  unfold State.presetStart
  repeat' first
    | (with_reducible first
      | assumption | apply State.setFld_sound | apply State.setFilt_sound | apply State.setHeadPreset_sound | apply foldl_sound
      | apply foldl_snd_sound | apply sound_ite | apply sound_ite_snd | fail_if_no_progress apply sound_with | intro _
      | refine pair_sound (by assumption) ?_ | refine opt_elim (by assumption) ?_ | refine optP_elim (by assumption) ?_
      | refine optP_elim' (by assumption) ?_ | refine exc_elim (by assumption) ?_)
    | split | dsimp only

theorem State.putPreset_sound {q : List Instr} (s : State) (cs : Nat → Int) (bs : List (Nat × Nat)) (off : Nat)
    (hq : State.Sound s q) : State.Sound (State.putPreset s cs bs off) q := by
  induction bs generalizing s off with
  | nil => exact hq
  | cons b bs ih => exact ih _ _ (State.setCoefs_sound _ _ _ hq)

theorem State.leaveLoading_sound {q : List Instr} (s : State) (first : Nat) (count : Nat) (x : IdleBank)
    (hq : State.Sound s q) :
    State.Sound (State.leaveLoading s first count x) q := by
  unfold State.leaveLoading
  repeat' first
    | (with_reducible first
      | assumption | apply State.setFilt_sound | apply foldl_sound | apply foldl_snd_sound | apply sound_ite
      | apply sound_ite_snd | fail_if_no_progress apply sound_with | intro _)
    | split | dsimp only

theorem State.presetComplete_sound {q : List Instr} (s : State)
    (hq : State.Sound s q) :
    State.Sound (State.presetComplete s) q := by
  unfold State.presetComplete
  repeat' first
    | (with_reducible first
      | assumption | apply State.setFld_sound | apply State.raise_sound | apply State.presetFail_sound
      | apply State.popPreset_sound | apply State.presetFetch_sound | apply State.putPreset_sound
      | apply State.leaveLoading_sound | apply sound_ite | apply sound_ite_snd | fail_if_no_progress apply sound_with | intro _
      | refine pair_sound (by assumption) ?_ | refine opt_elim (by assumption) ?_ | refine optP_elim (by assumption) ?_
      | refine optP_elim' (by assumption) ?_ | refine exc_elim (by assumption) ?_)
    | split | dsimp only

theorem State.presetSwapAfter_sound {q : List Instr} (s : State)
    (hq : State.Sound s q) :
    State.Sound (State.presetSwapAfter s) q := by
  unfold State.presetSwapAfter
  repeat' first
    | (with_reducible first
      | assumption | apply State.selectAll_sound | apply State.chmReject_sound | apply State.chmLate_sound | apply foldl_sound
      | apply foldl_snd_sound | apply sound_ite | apply sound_ite_snd | fail_if_no_progress apply sound_with | intro _
      | refine pair_sound (by assumption) ?_ | refine opt_elim (by assumption) ?_ | refine optP_elim (by assumption) ?_
      | refine optP_elim' (by assumption) ?_ | refine exc_elim (by assumption) ?_ | refine optExc_elim (by assumption) ?_)
    | split | dsimp only

theorem State.chmBoundary_sound {q : List Instr} (s : State)
    (hq : State.Sound s q) :
    State.Sound (State.chmBoundary s) q := by
  unfold State.chmBoundary
  repeat' first
    | (with_reducible first
      | assumption | apply State.endFades_sound | apply State.setHeadPreset_sound | apply sound_ite | apply sound_ite_snd
      | fail_if_no_progress apply sound_with | intro _ | refine pair_sound (by assumption) ?_
      | refine opt_elim (by assumption) ?_ | refine optP_elim (by assumption) ?_ | refine optP_elim' (by assumption) ?_
      | refine exc_elim (by assumption) ?_)
    | split | dsimp only

theorem State.chmArm_sound {q : List Instr} (s : State) (new : Cfg)
    (hq : State.Sound s q) :
    State.Sound (State.chmArm s new) q := by
  unfold State.chmArm
  repeat' first
    | (with_reducible first
      | assumption | apply State.setFilt_sound | apply foldl_sound | apply foldl_snd_sound | apply sound_ite
      | apply sound_ite_snd | fail_if_no_progress apply sound_with | intro _ | refine pair_sound (by assumption) ?_
      | refine opt_elim (by assumption) ?_ | refine optP_elim (by assumption) ?_ | refine optP_elim' (by assumption) ?_
      | refine exc_elim (by assumption) ?_)
    | split | dsimp only

theorem State.chmPrewrite_sound {q : List Instr} (s : State) (new : Cfg)
    (hq : State.Sound s q) :
    State.Sound (State.chmPrewrite s new) q := by
  unfold State.chmPrewrite
  repeat' first
    | (with_reducible first
      | assumption | apply State.setFilt_sound | apply State.setCoefs_sound | apply foldl_sound | apply foldl_snd_sound
      | apply sound_ite | apply sound_ite_snd | fail_if_no_progress apply sound_with | intro _)
    | split | dsimp only

theorem State.chmDisarm_sound {q : List Instr} (s : State)
    (hq : State.Sound s q) :
    State.Sound (State.chmDisarm s) q := by
  unfold State.chmDisarm
  repeat' first
    | (with_reducible first
      | assumption | apply State.fresh_sound | fail_if_no_progress apply sound_with | intro _)
    | split | dsimp only

theorem State.chmSwapFilter_sound {q : List Instr} (s0 : State) (old : Cfg) (new : Cfg) (len : Nat) (r : FilterRec)
    (hq : State.Sound s0 q) :
    State.Sound (State.chmSwapFilter s0 old new len r) q := by
  unfold State.chmSwapFilter
  repeat' first
    | (with_reducible first
      | assumption | apply State.fresh_sound | apply State.setFilt_sound | apply State.setCoefs_sound
      | apply State.endFade_sound | apply sound_ite | apply sound_ite_snd | fail_if_no_progress apply sound_with | intro _
      | refine pair_sound (by assumption) ?_ | refine opt_elim (by assumption) ?_ | refine optP_elim (by assumption) ?_
      | refine optP_elim' (by assumption) ?_ | refine exc_elim (by assumption) ?_)
    | split | dsimp only

theorem State.chmSwap_sound {q : List Instr} (s : State) (old : Cfg) (new : Cfg) (n : Nat)
    (hq : State.Sound s q) :
    State.Sound (State.chmSwap s old new n) q := by
  unfold State.chmSwap
  repeat' first
    | (with_reducible first
      | assumption | apply State.clearFlds_sound | apply State.chmPrewrite_sound | apply State.chmSwapFilter_sound
      | apply foldl_sound | apply foldl_snd_sound | fail_if_no_progress apply sound_with | intro _)
    | split | dsimp only

theorem State.chmSelectWrite_sound {q : List Instr} (s : State) (v : Word)
    (hq : State.Sound s q) :
    State.Sound (State.chmSelectWrite s v) q := by
  unfold State.chmSelectWrite
  repeat' first
    | (with_reducible first
      | assumption | apply State.hold_sound | intro _)
    | split | dsimp only

theorem State.chmPresetWrite_sound {q : List Instr} (s : State) (v : Word)
    (hq : State.Sound s q) :
    State.Sound (State.chmPresetWrite s v) q := by
  unfold State.chmPresetWrite
  repeat' first
    | (with_reducible first
      | assumption | apply State.hold_sound | apply sound_ite | apply sound_ite_snd | intro _)
    | split | dsimp only

theorem execBankSelect_sound {q : List Instr} (first : Nat) (count : Nat) (xfLen : Nat) (bank : Nat) (s : State)
    (hq : State.Sound s q) :
    NextSound q (execBankSelect first count xfLen bank s) := by
  unfold execBankSelect
  repeat' first
    | (with_reducible first
      | assumption | apply State.chmCommand_sound | apply next_sound | intro _)
    | split | dsimp only

theorem execPresetLoad_sound {q : List Instr} (array : Nat) (preset : Nat) (flags : Nat) (xfLen : Nat) (s : State)
    (hq : State.Sound s q) :
    NextSound q (execPresetLoad array preset flags xfLen s) := by
  unfold execPresetLoad
  repeat' first
    | (with_reducible first
      | assumption | apply State.chmCommand_sound | apply next_sound | intro _)
    | split | dsimp only

theorem execCoefWrite_sound {q : List Instr} (filter : Nat) (bank : Nat) (first : Nat) (count : Nat) (addr : Nat) (s : State)
    (hq : State.Sound s q) :
    NextSound q (execCoefWrite filter bank first count addr s) := by
  unfold execCoefWrite
  repeat' first
    | (with_reducible first
      | assumption | apply State.hold_sound | apply next_sound | intro _)
    | split | dsimp only

theorem execPresetHeaderFetchDone_sound {q : List Instr} (s : State)
    (hq : State.Sound s q) :
    NextSound q (execPresetHeaderFetchDone s) := by
  unfold execPresetHeaderFetchDone
  repeat' first
    | (with_reducible first
      | assumption | apply State.presetHeaderDone_sound | apply next_sound | intro _)
    | split | dsimp only

theorem execPresetLoadStart_sound {q : List Instr} (s : State)
    (hq : State.Sound s q) :
    NextSound q (execPresetLoadStart s) := by
  unfold execPresetLoadStart
  repeat' first
    | (with_reducible first
      | assumption | apply State.presetStart_sound | apply next_sound | intro _)
    | split | dsimp only

theorem execPresetLoadComplete_sound {q : List Instr} (s : State)
    (hq : State.Sound s q) :
    NextSound q (execPresetLoadComplete s) := by
  unfold execPresetLoadComplete
  repeat' first
    | (with_reducible first
      | assumption | apply State.presetComplete_sound | apply next_sound | intro _)
    | split | dsimp only

theorem execPresetSwapAfter_sound {q : List Instr} (s : State)
    (hq : State.Sound s q) :
    NextSound q (execPresetSwapAfter s) := by
  unfold execPresetSwapAfter
  repeat' first
    | (with_reducible first
      | assumption | apply State.presetSwapAfter_sound | apply next_sound | intro _)
    | split | dsimp only

theorem execBankFadeEnd_sound {q : List Instr} (filter : Nat) (s : State)
    (hq : State.Sound s q) :
    NextSound q (execBankFadeEnd filter s) := by
  unfold execBankFadeEnd
  repeat' first
    | (with_reducible first
      | assumption | apply State.endFade_sound | apply sound_ite | apply sound_ite_snd | apply next_sound | apply next_ite
      | intro _)
    | split | dsimp only

end Sys2Proof.Machine
end

