-- ==== Sys2Proof/Laws/KeepsPorts.lean ====
section
/-! SUPPORT. What the operations of Machine/Ports.lean keep: one lemma each. -/

set_option linter.unusedTactic false
set_option linter.unreachableTactic false

namespace Sys2Proof.Machine

theorem State.setUnitState_sound {q : List Instr} (s : State) (u : Nat) (st : Nat)
    (hq : State.Sound s q) :
    State.Sound (State.setUnitState s u st) q := by
  unfold State.setUnitState
  repeat' first
    | (with_reducible first
      | assumption | apply State.setFld_sound | intro _)
    | split | dsimp only

theorem State.setUnit_sound {q : List Instr} (s : State) (u : Nat) (d : PortDir)
    (hq : State.Sound s q) :
    State.Sound (State.setUnit s u d) q := by
  unfold State.setUnit
  repeat' first
    | (with_reducible first
      | assumption | fail_if_no_progress apply sound_with | intro _)
    | split | dsimp only

theorem State.enterPreroll_sound {q : List Instr} (s : State) (u : Nat)
    (hq : State.Sound s q) :
    State.Sound (State.enterPreroll s u) q := by
  unfold State.enterPreroll
  repeat' first
    | (with_reducible first
      | assumption | apply State.setUnitState_sound | apply State.setUnit_sound | fail_if_no_progress apply sound_with | intro _)
    | split | dsimp only

theorem State.enterPostroll_sound {q : List Instr} (s : State) (u : Nat)
    (hq : State.Sound s q) :
    State.Sound (State.enterPostroll s u) q := by
  unfold State.enterPostroll
  repeat' first
    | (with_reducible first
      | assumption | apply State.setUnitState_sound | apply State.setUnit_sound | fail_if_no_progress apply sound_with | intro _)
    | split | dsimp only

theorem State.toRunning_sound {q : List Instr} (s : State) (u : Nat)
    (hq : State.Sound s q) :
    State.Sound (State.toRunning s u) q := by
  unfold State.toRunning
  repeat' first
    | (with_reducible first
      | assumption | apply State.raise_sound | apply State.setUnitState_sound | apply sound_ite | apply sound_ite_snd
      | fail_if_no_progress apply sound_with | intro _)
    | split | dsimp only

theorem State.enterRunning_sound {q : List Instr} (s : State) (u : Nat)
    (hq : State.Sound s q) :
    State.Sound (State.enterRunning s u) q := by
  unfold State.enterRunning
  repeat' first
    | (with_reducible first
      | assumption | apply State.setUnit_sound | apply State.toRunning_sound | fail_if_no_progress apply sound_with | intro _)
    | split | dsimp only

theorem State.enterSyncing_sound {q : List Instr} (s : State) (u : Nat)
    (hq : State.Sound s q) :
    State.Sound (State.enterSyncing s u) q := by
  unfold State.enterSyncing
  repeat' first
    | (with_reducible first
      | assumption | apply State.setUnitState_sound | apply State.setUnit_sound | fail_if_no_progress apply sound_with | intro _)
    | split | dsimp only

theorem State.enterStopped_sound {q : List Instr} (s : State) (u : Nat)
    (hq : State.Sound s q) :
    State.Sound (State.enterStopped s u) q := by
  unfold State.enterStopped
  repeat' first
    | (with_reducible first
      | assumption | apply State.setFld_sound | apply State.raise_sound | apply State.setUnitState_sound
      | apply State.setUnit_sound | apply sound_ite | apply sound_ite_snd | fail_if_no_progress apply sound_with | intro _)
    | split | dsimp only

theorem State.startClocks_sound {q : List Instr} (s : State) (u : Nat) (f : UnitFmt)
    (hq : State.Sound s q) :
    State.Sound (State.startClocks s u f) q := by
  unfold State.startClocks
  repeat' first
    | (with_reducible first
      | assumption | apply State.setFld_sound | apply sound_ite | apply sound_ite_snd | intro _)
    | split | dsimp only

theorem State.unitStep_sound {q : List Instr} (s : State) (u : Nat) (f : UnitFmt) (enable : Bool)
    (hq : State.Sound s q) :
    State.Sound (State.unitStep s u f enable) q := by
  unfold State.unitStep
  repeat' first
    | (with_reducible first
      | assumption | apply State.setUnitState_sound | apply State.setUnit_sound | apply State.enterPreroll_sound
      | apply State.enterPostroll_sound | apply State.toRunning_sound | apply State.enterRunning_sound
      | apply State.enterSyncing_sound | apply State.enterStopped_sound | apply State.startClocks_sound | apply sound_ite
      | apply sound_ite_snd | fail_if_no_progress apply sound_with | intro _)
    | split | dsimp only

theorem State.settleUnit_sound {q : List Instr} (s : State) (u : Nat)
    (hq : State.Sound s q) :
    State.Sound (State.settleUnit s u) q := by
  unfold State.settleUnit
  repeat' first
    | (with_reducible first
      | assumption | apply State.setUnit_sound | apply State.unitStep_sound | apply sound_ite | apply sound_ite_snd
      | fail_if_no_progress apply sound_with | intro _ | refine pair_sound (by assumption) ?_
      | refine opt_elim (by assumption) ?_ | refine optP_elim (by assumption) ?_ | refine optP_elim' (by assumption) ?_
      | refine exc_elim (by assumption) ?_)
    | split | dsimp only

theorem State.xrun_sound {q : List Instr} (s : State) (u : Nat) (n : Nat)
    (hq : State.Sound s q) :
    State.Sound (State.xrun s u n) q := by
  unfold State.xrun
  repeat' first
    | (with_reducible first
      | assumption | apply State.bump_sound | apply State.raise_sound | apply sound_ite | apply sound_ite_snd
      | fail_if_no_progress apply sound_with | intro _)
    | split | dsimp only

theorem State.slip_sound {q : List Instr} (s : State) (u : Nat) (drop : Bool)
    (hq : State.Sound s q) :
    State.Sound (State.slip s u drop) q := by
  unfold State.slip
  repeat' first
    | (with_reducible first
      | assumption | apply State.bump_sound | apply State.raise_sound | apply sound_ite | apply sound_ite_snd
      | fail_if_no_progress apply sound_with | intro _)
    | split | dsimp only

theorem State.slipCheck_sound {q : List Instr} (s : State) (u : Nat) (out : Bool)
    (hq : State.Sound s q) :
    State.Sound (State.slipCheck s u out) q := by
  unfold State.slipCheck
  repeat' first
    | (with_reducible first
      | assumption | apply State.setFld_sound | apply State.setUnit_sound | apply State.slip_sound | apply sound_ite
      | apply sound_ite_snd | fail_if_no_progress apply sound_with | intro _ | refine pair_sound (by assumption) ?_
      | refine opt_elim (by assumption) ?_ | refine optP_elim (by assumption) ?_ | refine optP_elim' (by assumption) ?_
      | refine exc_elim (by assumption) ?_)
    | split | dsimp only

theorem State.portMaskPend_sound {q : List Instr} (s : State) (n : Nat) (m : Nat) (skip : Nat)
    (hq : State.Sound s q) :
    State.Sound (State.portMaskPend s n m skip) q := by
  unfold State.portMaskPend
  repeat' first
    | (with_reducible first
      | assumption | apply State.setFld_sound | apply State.setUnit_sound | fail_if_no_progress apply sound_with | intro _)
    | split | dsimp only

theorem State.maskApply_sound {q : List Instr} (s : State) (n : Nat)
    (hq : State.Sound s q) :
    State.Sound (State.maskApply s n) q := by
  unfold State.maskApply
  repeat' first
    | (with_reducible first
      | assumption | apply State.setFld_sound | apply State.raise_sound | apply State.setUnit_sound | apply sound_ite
      | apply sound_ite_snd | fail_if_no_progress apply sound_with | intro _ | refine pair_sound (by assumption) ?_
      | refine opt_elim (by assumption) ?_ | refine optP_elim (by assumption) ?_ | refine optP_elim' (by assumption) ?_
      | refine exc_elim (by assumption) ?_)
    | split | dsimp only

theorem State.maskFrame_sound {q : List Instr} (s : State) (n : Nat)
    (hq : State.Sound s q) :
    State.Sound (State.maskFrame s n) q := by
  unfold State.maskFrame
  repeat' first
    | (with_reducible first
      | assumption | apply State.setUnit_sound | apply State.maskApply_sound | fail_if_no_progress apply sound_with | intro _
      | refine pair_sound (by assumption) ?_ | refine opt_elim (by assumption) ?_ | refine optP_elim (by assumption) ?_
      | refine optP_elim' (by assumption) ?_ | refine exc_elim (by assumption) ?_)
    | split | dsimp only

theorem State.frameIn_sound {q : List Instr} (s : State) (u : Nat) (f : UnitFmt) (xs : List Int)
    (hq : State.Sound s q) :
    State.Sound (State.frameIn s u f xs) q := by
  unfold State.frameIn
  repeat' first
    | (with_reducible first
      | assumption | apply State.setUnit_sound | apply State.xrun_sound | apply sound_ite | apply sound_ite_snd
      | fail_if_no_progress apply sound_with | intro _)
    | split | dsimp only

theorem State.frameOut_sound {q : List Instr} (s : State) (u : Nat) (f : UnitFmt)
    (hq : State.Sound s q) :
    State.Sound (State.frameOut s u f).2 q := by
  unfold State.frameOut
  repeat' first
    | (with_reducible first
      | assumption | apply State.setUnit_sound | apply State.xrun_sound | apply sound_ite | apply sound_ite_snd
      | fail_if_no_progress apply sound_with | intro _ | refine pair_sound (by assumption) ?_
      | refine opt_elim (by assumption) ?_ | refine optP_elim (by assumption) ?_ | refine optP_elim' (by assumption) ?_
      | refine exc_elim (by assumption) ?_)
    | split | dsimp only

theorem State.slotFrame_sound {q : List Instr} (s : State) (n : Nat) (r : PrtRec) (f : UnitFmt) (slots : List Nat)
    (hq : State.Sound s q) :
    State.Sound (State.slotFrame s n r f slots) q := by
  unfold State.slotFrame
  repeat' first
    | (with_reducible first
      | assumption | apply State.setFld_sound | apply State.emit_sound | apply State.maskFrame_sound | apply State.frameIn_sound
      | apply State.frameOut_sound | apply sound_ite | apply sound_ite_snd | fail_if_no_progress apply sound_with | intro _)
    | split | dsimp only

theorem State.unlockedFrame_sound {q : List Instr} (s : State) (u : Nat) (good : Bool)
    (hq : State.Sound s q) :
    State.Sound (State.unlockedFrame s u good) q := by
  unfold State.unlockedFrame
  repeat' first
    | (with_reducible first
      | assumption | apply State.setUnit_sound | apply State.enterSyncing_sound | apply sound_ite | apply sound_ite_snd
      | fail_if_no_progress apply sound_with | intro _)
    | split | dsimp only

theorem State.prtFrame_sound {q : List Instr} (s : State) (n : Nat) (slots : List Nat)
    (hq : State.Sound s q) :
    State.Sound (State.prtFrame s n slots) q := by
  unfold State.prtFrame
  repeat' first
    | (with_reducible first
      | assumption | apply State.slotFrame_sound | apply State.unlockedFrame_sound | apply sound_ite | apply sound_ite_snd
      | fail_if_no_progress apply sound_with | intro _ | refine pair_sound (by assumption) ?_
      | refine opt_elim (by assumption) ?_ | refine optP_elim (by assumption) ?_ | refine optP_elim' (by assumption) ?_
      | refine exc_elim (by assumption) ?_)
    | split | dsimp only

theorem State.unitTake_sound {q : List Instr} (s : State) (c : Cfg) (u : Nat) (k : Nat)
    (hq : State.Sound s q) :
    State.Sound (State.unitTake s c u k).2 q := by
  unfold State.unitTake
  repeat' first
    | (with_reducible first
      | assumption | apply State.setUnit_sound | apply State.slipCheck_sound | apply sound_ite | apply sound_ite_snd
      | fail_if_no_progress apply sound_with | intro _ | refine pair_sound (by assumption) ?_
      | refine opt_elim (by assumption) ?_ | refine optP_elim (by assumption) ?_ | refine optP_elim' (by assumption) ?_
      | refine exc_elim (by assumption) ?_)
    | split | dsimp only

theorem State.unitIngress_sound {q : List Instr} (s : State) (c : Cfg) (u : Nat) (k : Nat)
    (hq : State.Sound s q) :
    State.Sound (State.unitIngress s c u k) q := by
  unfold State.unitIngress
  repeat' first
    | (with_reducible first
      | assumption | apply State.writeBus_sound | apply State.unitTake_sound | apply foldl_sound | apply foldl_snd_sound
      | fail_if_no_progress apply sound_with | intro _ | refine pair_sound (by assumption) ?_
      | refine opt_elim (by assumption) ?_ | refine optP_elim (by assumption) ?_ | refine optP_elim' (by assumption) ?_
      | refine exc_elim (by assumption) ?_)
    | split | dsimp only

theorem State.unitGive_sound {q : List Instr} (s : State) (c : Cfg) (u : Nat) (k : Nat) (chans : List (List Int)) (bad : List Bool)
    (hq : State.Sound s q) :
    State.Sound (State.unitGive s c u k chans bad) q := by
  unfold State.unitGive
  repeat' first
    | (with_reducible first
      | assumption | apply State.setUnit_sound | apply State.xrun_sound | apply State.slipCheck_sound | apply sound_ite
      | apply sound_ite_snd | fail_if_no_progress apply sound_with | intro _ | refine pair_sound (by assumption) ?_
      | refine opt_elim (by assumption) ?_ | refine optP_elim (by assumption) ?_ | refine optP_elim' (by assumption) ?_
      | refine exc_elim (by assumption) ?_)
    | split | dsimp only

theorem State.unitBoundary_sound {q : List Instr} (s : State) (u : Nat)
    (hq : State.Sound s q) :
    State.Sound (State.unitBoundary s u) q := by
  unfold State.unitBoundary
  repeat' first
    | (with_reducible first
      | assumption | apply State.setUnit_sound | apply State.settleUnit_sound | apply State.xrun_sound | apply sound_ite
      | apply sound_ite_snd | fail_if_no_progress apply sound_with | intro _ | refine pair_sound (by assumption) ?_
      | refine opt_elim (by assumption) ?_ | refine optP_elim (by assumption) ?_ | refine optP_elim' (by assumption) ?_
      | refine exc_elim (by assumption) ?_)
    | split | dsimp only

theorem State.prtCfg_sound {q : List Instr} (s : State) (n : Nat) (r : PrtRec)
    (hq : State.Sound s q) :
    State.Sound (State.prtCfg s n r) q := by
  unfold State.prtCfg
  repeat' first
    | (with_reducible first
      | assumption | apply State.setFld_sound | intro _)
    | split | dsimp only

theorem State.prtClear_sound {q : List Instr} (s : State) (n : Nat)
    (hq : State.Sound s q) :
    State.Sound (State.prtClear s n) q := by
  unfold State.prtClear
  repeat' first
    | (with_reducible first
      | assumption | apply State.clearFlds_sound | intro _)
    | split | dsimp only

theorem State.prtTake_sound {q : List Instr} (s : State) (r : PrtRec)
    (hq : State.Sound s q) :
    State.Sound (State.prtTake s r) q := by
  unfold State.prtTake
  repeat' first
    | (with_reducible first
      | assumption | apply State.setFld_sound | apply State.setUnitState_sound | apply State.setUnit_sound
      | apply State.prtCfg_sound | fail_if_no_progress apply sound_with | intro _)
    | split | dsimp only

theorem State.aesCfg_sound {q : List Instr} (s : State) (n : Nat) (r : AesRec)
    (hq : State.Sound s q) :
    State.Sound (State.aesCfg s n r) q := by
  unfold State.aesCfg
  repeat' first
    | (with_reducible first
      | assumption | apply State.setFld_sound | fail_if_no_progress apply sound_with | intro _)
    | split | dsimp only

theorem State.aesTake_sound {q : List Instr} (s : State) (r : AesRec)
    (hq : State.Sound s q) :
    State.Sound (State.aesTake s r) q := by
  unfold State.aesTake
  repeat' first
    | (with_reducible first
      | assumption | apply State.setFld_sound | apply State.setUnitState_sound | apply State.setUnit_sound
      | apply State.aesCfg_sound | apply sound_ite | apply sound_ite_snd | fail_if_no_progress apply sound_with | intro _)
    | split | dsimp only

theorem State.prtDrop_sound {q : List Instr} (s : State) (n : Nat)
    (hq : State.Sound s q) :
    State.Sound (State.prtDrop s n) q := by
  unfold State.prtDrop
  repeat' first
    | (with_reducible first
      | assumption | apply State.setUnitState_sound | apply State.setUnit_sound | apply State.prtClear_sound
      | fail_if_no_progress apply sound_with | intro _)
    | split | dsimp only

theorem State.aesDrop_sound {q : List Instr} (s : State) (n : Nat)
    (hq : State.Sound s q) :
    State.Sound (State.aesDrop s n) q := by
  unfold State.aesDrop
  repeat' first
    | (with_reducible first
      | assumption | apply State.clearFlds_sound | apply State.setUnitState_sound | apply State.setUnit_sound
      | fail_if_no_progress apply sound_with | intro _)
    | split | dsimp only

theorem State.prtFresh_sound {q : List Instr} (s : State) (r : PrtRec)
    (hq : State.Sound s q) :
    State.Sound (State.prtFresh s r) q := by
  unfold State.prtFresh
  repeat' first
    | (with_reducible first
      | assumption | apply State.setFld_sound | intro _)
    | split | dsimp only

theorem State.aesFresh_sound {q : List Instr} (s : State) (n : Nat)
    (hq : State.Sound s q) :
    State.Sound (State.aesFresh s n) q := by
  unfold State.aesFresh
  repeat' first
    | (with_reducible first
      | assumption | apply State.setFld_sound | intro _)
    | split | dsimp only

theorem State.takeFormat_sound {q : List Instr} (s : State) (u : Nat)
    (hq : State.Sound s q) :
    State.Sound (State.takeFormat s u) q := by
  unfold State.takeFormat
  repeat' first
    | (with_reducible first
      | assumption | apply State.prtTake_sound | apply State.aesTake_sound | apply State.prtDrop_sound
      | apply State.aesDrop_sound | apply State.prtFresh_sound | apply State.aesFresh_sound | apply sound_ite
      | apply sound_ite_snd | fail_if_no_progress apply sound_with | intro _ | refine pair_sound (by assumption) ?_
      | refine opt_elim (by assumption) ?_ | refine optP_elim (by assumption) ?_ | refine optP_elim' (by assumption) ?_
      | refine exc_elim (by assumption) ?_)
    | split | dsimp only

theorem State.setLostCause_sound {q : List Instr} (s : State) (u : Nat) (cause : Nat)
    (hq : State.Sound s q) :
    State.Sound (State.setLostCause s u cause) q := by
  unfold State.setLostCause
  repeat' first
    | (with_reducible first
      | assumption | apply State.setFld_sound | apply sound_ite | apply sound_ite_snd | intro _)
    | split | dsimp only

theorem State.setAesCap_sound {q : List Instr} (s : State) (n : Nat) (c : AesCap)
    (hq : State.Sound s q) :
    State.Sound (State.setAesCap s n c) q := by
  unfold State.setAesCap
  repeat' first
    | (with_reducible first
      | assumption | fail_if_no_progress apply sound_with | intro _)
    | split | dsimp only

theorem State.aesRestart_sound {q : List Instr} (s : State) (u : Nat)
    (hq : State.Sound s q) :
    State.Sound (State.aesRestart s u) q := by
  unfold State.aesRestart
  repeat' first
    | (with_reducible first
      | assumption | apply State.setAesCap_sound | apply sound_ite | apply sound_ite_snd | fail_if_no_progress apply sound_with
      | intro _)
    | split | dsimp only

theorem State.unitLock_sound {q : List Instr} (s : State) (u : Nat) (rate : Nat)
    (hq : State.Sound s q) :
    State.Sound (State.unitLock s u rate) q := by
  unfold State.unitLock
  repeat' first
    | (with_reducible first
      | assumption | apply State.setFld_sound | apply State.raise_sound | apply State.setUnit_sound
      | apply State.enterPreroll_sound | apply State.aesRestart_sound | apply sound_ite | apply sound_ite_snd
      | fail_if_no_progress apply sound_with | intro _ | refine pair_sound (by assumption) ?_
      | refine opt_elim (by assumption) ?_ | refine optP_elim (by assumption) ?_ | refine optP_elim' (by assumption) ?_
      | refine exc_elim (by assumption) ?_)
    | split | dsimp only

theorem State.enterLost_sound {q : List Instr} (s : State) (u : Nat) (f : UnitFmt)
    (hq : State.Sound s q) :
    State.Sound (State.enterLost s u f) q := by
  unfold State.enterLost
  repeat' first
    | (with_reducible first
      | assumption | apply State.setUnitState_sound | apply State.setUnit_sound | apply State.aesRestart_sound | apply sound_ite
      | apply sound_ite_snd | fail_if_no_progress apply sound_with | intro _)
    | split | dsimp only

theorem State.unitLost_sound {q : List Instr} (s : State) (u : Nat) (cause : Nat)
    (hq : State.Sound s q) :
    State.Sound (State.unitLost s u cause) q := by
  unfold State.unitLost
  repeat' first
    | (with_reducible first
      | assumption | apply State.setFld_sound | apply State.raise_sound | apply State.takeFormat_sound
      | apply State.setLostCause_sound | apply State.enterLost_sound | apply sound_ite | apply sound_ite_snd
      | fail_if_no_progress apply sound_with | intro _ | refine pair_sound (by assumption) ?_
      | refine opt_elim (by assumption) ?_ | refine optP_elim (by assumption) ?_ | refine optP_elim' (by assumption) ?_
      | refine exc_elim (by assumption) ?_)
    | split | dsimp only

theorem State.unitFrameError_sound {q : List Instr} (s : State) (u : Nat)
    (hq : State.Sound s q) :
    State.Sound (State.unitFrameError s u) q := by
  unfold State.unitFrameError
  repeat' first
    | (with_reducible first
      | assumption | apply State.bump_sound | apply State.raise_sound | apply State.setUnit_sound | apply State.frameIn_sound
      | apply State.unlockedFrame_sound | apply State.unitLost_sound | apply sound_ite | apply sound_ite_snd
      | fail_if_no_progress apply sound_with | intro _ | refine pair_sound (by assumption) ?_
      | refine opt_elim (by assumption) ?_ | refine optP_elim (by assumption) ?_ | refine optP_elim' (by assumption) ?_
      | refine exc_elim (by assumption) ?_)
    | split | dsimp only

theorem State.prerollDone_sound {q : List Instr} (s : State) (u : Nat)
    (hq : State.Sound s q) :
    State.Sound (State.prerollDone s u) q := by
  unfold State.prerollDone
  repeat' first
    | (with_reducible first
      | assumption | apply State.enterRunning_sound | apply sound_ite | apply sound_ite_snd
      | fail_if_no_progress apply sound_with | intro _ | refine pair_sound (by assumption) ?_
      | refine opt_elim (by assumption) ?_ | refine optP_elim (by assumption) ?_ | refine optP_elim' (by assumption) ?_
      | refine exc_elim (by assumption) ?_)
    | split | dsimp only

theorem State.stopRampDone_sound {q : List Instr} (s : State) (u : Nat)
    (hq : State.Sound s q) :
    State.Sound (State.stopRampDone s u) q := by
  unfold State.stopRampDone
  repeat' first
    | (with_reducible first
      | assumption | apply State.enterPostroll_sound | apply sound_ite | apply sound_ite_snd | intro _)
    | split | dsimp only

theorem State.postrollDone_sound {q : List Instr} (s : State) (u : Nat)
    (hq : State.Sound s q) :
    State.Sound (State.postrollDone s u) q := by
  unfold State.postrollDone
  repeat' first
    | (with_reducible first
      | assumption | apply State.enterStopped_sound | apply State.takeFormat_sound | apply sound_ite | apply sound_ite_snd
      | fail_if_no_progress apply sound_with | intro _)
    | split | dsimp only

theorem State.setBytes48_sound {q : List Instr} (s : State) (f : Nat → Fld) (bs : List Byte)
    (hq : State.Sound s q) :
    State.Sound (State.setBytes48 s f bs) q := by
  unfold State.setBytes48
  repeat' first
    | (with_reducible first
      | assumption | apply State.setFld_sound | apply foldl_sound | apply foldl_snd_sound | intro _)
    | split | dsimp only

theorem State.csBlockComplete_sound {q : List Instr} (s : State) (n : Nat)
    (hq : State.Sound s q) :
    State.Sound (State.csBlockComplete s n) q := by
  unfold State.csBlockComplete
  repeat' first
    | (with_reducible first
      | assumption | apply State.setFld_sound | apply State.bump_sound | apply State.raise_sound | apply State.setAesCap_sound
      | apply State.setBytes48_sound | apply foldl_sound | apply foldl_snd_sound | apply sound_ite | apply sound_ite_snd
      | fail_if_no_progress apply sound_with | intro _ | apply optS_getD)
    | split | dsimp only

theorem State.aesSub_sound {q : List Instr} (s : State) (n : Nat) (vPolicy : Nat) (x : AesSub) (prev : Int)
    (hq : State.Sound s q) :
    State.Sound (State.aesSub s n vPolicy x prev).2 q := by
  unfold State.aesSub
  repeat' first
    | (with_reducible first
      | assumption | apply State.bump_sound | apply State.raise_sound | apply sound_ite | apply sound_ite_snd
      | fail_if_no_progress apply sound_with | intro _)
    | split | dsimp only

theorem State.aesUnlocked_sound {q : List Instr} (s : State) (n : Nat) (z : Bool)
    (hq : State.Sound s q) :
    State.Sound (State.aesUnlocked s n z) q := by
  unfold State.aesUnlocked
  repeat' first
    | (with_reducible first
      | assumption | apply State.setUnit_sound | apply State.enterSyncing_sound | apply foldl_sound | apply foldl_snd_sound
      | apply sound_ite | apply sound_ite_snd | fail_if_no_progress apply sound_with | intro _
      | refine pair_sound (by assumption) ?_ | refine opt_elim (by assumption) ?_ | refine optP_elim (by assumption) ?_
      | refine optP_elim' (by assumption) ?_ | refine exc_elim (by assumption) ?_)
    | split | dsimp only

theorem State.aesFrameRx_sound {q : List Instr} (s : State) (n : Nat) (z : Bool) (subs : List AesSub)
    (hq : State.Sound s q) :
    State.Sound (State.aesFrameRx s n z subs) q := by
  unfold State.aesFrameRx
  repeat' first
    | (with_reducible first
      | assumption | apply State.frameIn_sound | apply State.setAesCap_sound | apply State.csBlockComplete_sound
      | apply State.aesSub_sound | apply State.aesUnlocked_sound | apply sound_ite | apply sound_ite_snd
      | fail_if_no_progress apply sound_with | intro _ | refine pair_sound (by assumption) ?_
      | refine opt_elim (by assumption) ?_ | refine optP_elim (by assumption) ?_ | refine optP_elim' (by assumption) ?_
      | refine exc_elim (by assumption) ?_)
    | split | dsimp only

theorem State.aesFrameTx_sound {q : List Instr} (s : State) (n : Nat)
    (hq : State.Sound s q) :
    State.Sound (State.aesFrameTx s n) q := by
  unfold State.aesFrameTx
  repeat' first
    | (with_reducible first
      | assumption | apply State.emit_sound | apply State.frameOut_sound | apply sound_ite | apply sound_ite_snd
      | fail_if_no_progress apply sound_with | intro _ | refine pair_sound (by assumption) ?_
      | refine opt_elim (by assumption) ?_ | refine optP_elim (by assumption) ?_ | refine optP_elim' (by assumption) ?_
      | refine exc_elim (by assumption) ?_)
    | split | dsimp only

theorem State.prtReject_sound {q : List Instr} (s : State)
    (hq : State.Sound s q) :
    State.Sound (State.prtReject s) q := by
  unfold State.prtReject
  repeat' first
    | (with_reducible first
      | assumption | apply State.bump_sound | intro _)
    | split | dsimp only

theorem State.maskCommand_sound {q : List Instr} (s : State) (n : Nat) (m : Nat)
    (hq : State.Sound s q) :
    State.Sound (State.maskCommand s n m) q := by
  unfold State.maskCommand
  repeat' first
    | (with_reducible first
      | assumption | apply State.portMaskPend_sound | apply sound_ite | apply sound_ite_snd
      | fail_if_no_progress apply sound_with | intro _)
    | split | dsimp only

theorem State.muteCommand_sound {q : List Instr} (s : State) (kind : Nat) (n : Nat) (mute : Nat) (ramp : Nat)
    (hq : State.Sound s q) :
    State.Sound (State.muteCommand s kind n mute ramp) q := by
  unfold State.muteCommand
  repeat' first
    | (with_reducible first
      | assumption | apply State.setFld_sound | apply State.setUnit_sound | apply sound_ite | apply sound_ite_snd
      | fail_if_no_progress apply sound_with | intro _)
    | split | dsimp only

theorem State.prtApply_sound {q : List Instr} (s : State) (c : Cmd)
    (hq : State.Sound s q) :
    State.Sound (State.prtApply s c).2 q := by
  unfold State.prtApply
  repeat' first
    | (with_reducible first
      | assumption | apply State.prtReject_sound | apply State.maskCommand_sound | apply State.muteCommand_sound
      | apply foldl_sound | apply foldl_snd_sound | apply sound_ite | apply sound_ite_snd | fail_if_no_progress apply sound_with
      | intro _ | refine pair_sound (by assumption) ?_ | refine opt_elim (by assumption) ?_
      | refine optP_elim (by assumption) ?_ | refine optP_elim' (by assumption) ?_ | refine exc_elim (by assumption) ?_)
    | split | dsimp only

theorem State.prtCtrlWrite_sound {q : List Instr} (s : State) (n : Nat) (v : Nat)
    (hq : State.Sound s q) :
    State.Sound (State.prtCtrlWrite s n v) q := by
  unfold State.prtCtrlWrite
  repeat' first
    | (with_reducible first
      | assumption | apply State.setFld_sound | apply State.setUnit_sound | apply sound_ite | apply sound_ite_snd
      | fail_if_no_progress apply sound_with | intro _)
    | split | dsimp only

theorem State.aesCtrlWrite_sound {q : List Instr} (s : State) (n : Nat) (v : Nat)
    (hq : State.Sound s q) :
    State.Sound (State.aesCtrlWrite s n v) q := by
  unfold State.aesCtrlWrite
  repeat' first
    | (with_reducible first
      | assumption | apply State.setFld_sound | apply State.setUnit_sound | apply sound_ite | apply sound_ite_snd
      | fail_if_no_progress apply sound_with | intro _)
    | split | dsimp only

theorem State.prtMaskWrite_sound {q : List Instr} (s : State) (n : Nat) (v : Nat) (inGuard : Bool)
    (hq : State.Sound s q) :
    State.Sound (State.prtMaskWrite s n v inGuard) q := by
  unfold State.prtMaskWrite
  repeat' first
    | (with_reducible first
      | assumption | apply State.setUnit_sound | apply State.portMaskPend_sound | apply sound_ite | apply sound_ite_snd
      | fail_if_no_progress apply sound_with | intro _)
    | split | dsimp only

theorem State.clearMasked_sound {q : List Instr} (s : State) (n : Nat) (mask : Nat) (fs : Nat → List Fld)
    (hq : State.Sound s q) :
    State.Sound (State.clearMasked s n mask fs) q := by
  unfold State.clearMasked
  repeat' first
    | (with_reducible first
      | assumption | apply State.clearFlds_sound | apply foldl_sound | apply foldl_snd_sound | apply sound_ite
      | apply sound_ite_snd | intro _)
    | split | dsimp only

theorem State.portsLoad_sound {q : List Instr} (s : State) (c : Cfg)
    (hq : State.Sound s q) :
    State.Sound (State.portsLoad s c) q := by
  unfold State.portsLoad
  repeat' first
    | (with_reducible first
      | assumption | apply State.setFld_sound | apply State.prtTake_sound | apply State.aesTake_sound | apply foldl_sound
      | apply foldl_snd_sound | fail_if_no_progress apply sound_with | intro _)
    | split | dsimp only

theorem State.unitLeaves_sound {q : List Instr} (s : State) (new : Cfg) (u : Nat)
    (hq : State.Sound s q) :
    State.Sound (State.unitLeaves s new u) q := by
  unfold State.unitLeaves
  repeat' first
    | (with_reducible first
      | assumption | apply State.setUnit_sound | apply State.enterPostroll_sound | apply State.enterStopped_sound
      | apply sound_ite | apply sound_ite_snd | fail_if_no_progress apply sound_with | intro _)
    | split | dsimp only

theorem State.portsSwap_sound {q : List Instr} (s : State) (new : Cfg)
    (hq : State.Sound s q) :
    State.Sound (State.portsSwap s new) q := by
  unfold State.portsSwap
  repeat' first
    | (with_reducible first
      | assumption | apply State.takeFormat_sound | apply State.unitLeaves_sound | apply foldl_sound | apply foldl_snd_sound
      | apply sound_ite | apply sound_ite_snd | fail_if_no_progress apply sound_with | intro _)
    | split | dsimp only

theorem execPrtMaskApply_sound {q : List Instr} (port : Nat) (s : State)
    (hq : State.Sound s q) :
    NextSound q (execPrtMaskApply port s) := by
  unfold execPrtMaskApply
  repeat' first
    | (with_reducible first
      | assumption | apply State.maskApply_sound | apply next_sound | intro _)
    | split | dsimp only

theorem State.prtCommand_sound {q : List Instr} (s : State) (c : Cmd)
    (hq : State.Sound s q) :
    State.Sound (State.prtCommand s c) q := by
  unfold State.prtCommand
  repeat' first
    | (with_reducible first
      | assumption | apply State.hold_sound | apply State.prtApply_sound | apply sound_ite | apply sound_ite_snd | intro _)
    | split | dsimp only

theorem execPrtMask_sound {q : List Instr} (port : Nat) (mask : Word) (s : State)
    (hq : State.Sound s q) :
    NextSound q (execPrtMask port mask s) := by
  unfold execPrtMask
  repeat' first
    | (with_reducible first
      | assumption | apply State.prtCommand_sound | apply next_sound | intro _)
    | split | dsimp only

theorem execPortMute_sound {q : List Instr} (kind : Nat) (first : Nat) (count : Nat) (mute : Nat) (ramp : Nat) (s : State)
    (hq : State.Sound s q) :
    NextSound q (execPortMute kind first count mute ramp s) := by
  unfold execPortMute
  repeat' first
    | (with_reducible first
      | assumption | apply State.prtCommand_sound | apply next_sound | intro _)
    | split | dsimp only

theorem execPortFrame_sound {q : List Instr} (port : Nat) (slots : List Nat) (s : State)
    (hq : State.Sound s q) :
    NextSound q (execPortFrame port slots s) := by
  unfold execPortFrame
  repeat' first
    | (with_reducible first
      | assumption | apply State.prtFrame_sound | apply next_sound | intro _)
    | split | dsimp only

theorem execPortLock_sound {q : List Instr} (unit : Nat) (rateMhz : Nat) (s : State)
    (hq : State.Sound s q) :
    NextSound q (execPortLock unit rateMhz s) := by
  unfold execPortLock
  repeat' first
    | (with_reducible first
      | assumption | apply State.unitLock_sound | apply next_sound | intro _)
    | split | dsimp only

theorem execPortLost_sound {q : List Instr} (unit : Nat) (cause : Nat) (s : State)
    (hq : State.Sound s q) :
    NextSound q (execPortLost unit cause s) := by
  unfold execPortLost
  repeat' first
    | (with_reducible first
      | assumption | apply State.unitLost_sound | apply next_sound | intro _)
    | split | dsimp only

theorem execPortFrameError_sound {q : List Instr} (unit : Nat) (s : State)
    (hq : State.Sound s q) :
    NextSound q (execPortFrameError unit s) := by
  unfold execPortFrameError
  repeat' first
    | (with_reducible first
      | assumption | apply State.unitFrameError_sound | apply next_sound | intro _)
    | split | dsimp only

theorem execPortPrerollDone_sound {q : List Instr} (unit : Nat) (s : State)
    (hq : State.Sound s q) :
    NextSound q (execPortPrerollDone unit s) := by
  unfold execPortPrerollDone
  repeat' first
    | (with_reducible first
      | assumption | apply State.prerollDone_sound | apply next_sound | intro _)
    | split | dsimp only

theorem execPortStopRampDone_sound {q : List Instr} (unit : Nat) (s : State)
    (hq : State.Sound s q) :
    NextSound q (execPortStopRampDone unit s) := by
  unfold execPortStopRampDone
  repeat' first
    | (with_reducible first
      | assumption | apply State.stopRampDone_sound | apply next_sound | intro _)
    | split | dsimp only

theorem execPortPostrollDone_sound {q : List Instr} (unit : Nat) (s : State)
    (hq : State.Sound s q) :
    NextSound q (execPortPostrollDone unit s) := by
  unfold execPortPostrollDone
  repeat' first
    | (with_reducible first
      | assumption | apply State.postrollDone_sound | apply next_sound | intro _)
    | split | dsimp only

theorem execAesFrameRx_sound {q : List Instr} (n : Nat) (z : Bool) (subs : List AesSub) (s : State)
    (hq : State.Sound s q) :
    NextSound q (execAesFrameRx n z subs s) := by
  unfold execAesFrameRx
  repeat' first
    | (with_reducible first
      | assumption | apply State.aesFrameRx_sound | apply next_sound | intro _)
    | split | dsimp only

theorem execAesCsBlockComplete_sound {q : List Instr} (n : Nat) (s : State)
    (hq : State.Sound s q) :
    NextSound q (execAesCsBlockComplete n s) := by
  unfold execAesCsBlockComplete
  repeat' first
    | (with_reducible first
      | assumption | apply State.csBlockComplete_sound | apply next_sound | intro _)
    | split | dsimp only

theorem execAesFrameTx_sound {q : List Instr} (n : Nat) (s : State)
    (hq : State.Sound s q) :
    NextSound q (execAesFrameTx n s) := by
  unfold execAesFrameTx
  repeat' first
    | (with_reducible first
      | assumption | apply State.aesFrameTx_sound | apply next_sound | intro _)
    | split | dsimp only

end Sys2Proof.Machine
end

