-- ==== Sys2Proof/Laws/KeepsTime.lean ====
section
/-! SUPPORT. What the operations of Machine/Time.lean keep: one lemma each. -/

set_option linter.unusedTactic false
set_option linter.unreachableTactic false

namespace Sys2Proof.Machine

theorem State.seeTime_sound {q : List Instr} (s : State) (t : Nat)
    (hq : State.Sound s q) :
    State.Sound (State.seeTime s t) q := by
  unfold State.seeTime
  repeat' first
    | (with_reducible first
      | assumption | fail_if_no_progress apply sound_with | intro _)
    | split | dsimp only

theorem State.someTime_sound {q : List Instr} (s : State)
    (hq : State.Sound s q) :
    State.Sound (State.someTime s).2 q := by
  unfold State.someTime
  repeat' first
    | (with_reducible first
      | assumption | apply State.fresh_sound | apply State.seeTime_sound | fail_if_no_progress apply sound_with | intro _)
    | split | dsimp only

theorem State.setInst_sound {q : List Instr} (s : State) (i : Nat) (p : PtpInst)
    (hq : State.Sound s q) :
    State.Sound (State.setInst s i p) q := by
  unfold State.setInst
  repeat' first
    | (with_reducible first
      | assumption | fail_if_no_progress apply sound_with | intro _)
    | split | dsimp only

theorem State.setTuErr_sound {q : List Instr} (s : State) (n : Nat) (code : Nat)
    (hq : State.Sound s q) :
    State.Sound (State.setTuErr s n code) q := by
  unfold State.setTuErr
  repeat' first
    | (with_reducible first
      | assumption | apply State.setFld_sound | fail_if_no_progress apply sound_with | intro _)
    | split | dsimp only

theorem State.tuProgram_sound {q : List Instr} (s : State) (n : Nat) (t : Nat)
    (hq : State.Sound s q) :
    State.Sound (State.tuProgram s n t) q := by
  unfold State.tuProgram
  repeat' first
    | (with_reducible first
      | assumption | apply sound_ite | apply sound_ite_snd | fail_if_no_progress apply sound_with | intro _)
    | split | dsimp only

theorem State.tuPulse_sound {q : List Instr} (s : State) (n : Nat) (edge : Int)
    (hq : State.Sound s q) :
    State.Sound (State.tuPulse s n edge) q := by
  unfold State.tuPulse
  repeat' first
    | (with_reducible first
      | assumption | apply State.emit_sound | apply sound_ite | apply sound_ite_snd | fail_if_no_progress apply sound_with
      | intro _)
    | split | dsimp only

theorem State.outsAfterStep_sound {q : List Instr} (s : State) (i : Nat) (t : Nat)
    (hq : State.Sound s q) :
    State.Sound (State.outsAfterStep s i t) q := by
  unfold State.outsAfterStep
  repeat' first
    | (with_reducible first
      | assumption | apply State.raise_sound | apply State.tuPulse_sound | apply foldl_sound | apply foldl_snd_sound
      | apply sound_ite | apply sound_ite_snd | fail_if_no_progress apply sound_with | intro _
      | refine pair_sound (by assumption) ?_ | refine opt_elim (by assumption) ?_ | refine optP_elim (by assumption) ?_
      | refine optP_elim' (by assumption) ?_ | refine exc_elim (by assumption) ?_)
    | split | dsimp only

theorem State.setServo_sound {q : List Instr} (s : State) (i : Nat) (st : Nat)
    (hq : State.Sound s q) :
    State.Sound (State.setServo s i st) q := by
  unfold State.setServo
  repeat' first
    | (with_reducible first
      | assumption | apply State.setFld_sound | apply State.raise_sound | apply sound_ite | apply sound_ite_snd
      | fail_if_no_progress apply sound_with | intro _)
    | split | dsimp only

theorem State.setPpb_sound {q : List Instr} (s : State) (i : Nat) (t : Nat) (ppb : Rat)
    (hq : State.Sound s q) :
    State.Sound (State.setPpb s i t ppb) q := by
  unfold State.setPpb
  repeat' first
    | (with_reducible first
      | assumption | apply State.setFld_sound | apply State.setInst_sound | fail_if_no_progress apply sound_with | intro _)
    | split | dsimp only

theorem State.clvAbsorb_sound {q : List Instr} (s : State) (slot : Nat) (phi : Int)
    (hq : State.Sound s q) :
    State.Sound (State.clvAbsorb s slot phi) q := by
  unfold State.clvAbsorb
  repeat' first
    | (with_reducible first
      | assumption | apply State.setFld_sound | apply State.raise_sound | apply sound_ite | apply sound_ite_snd
      | fail_if_no_progress apply sound_with | intro _ | refine pair_sound (by assumption) ?_
      | refine opt_elim (by assumption) ?_ | refine optP_elim (by assumption) ?_ | refine optP_elim' (by assumption) ?_
      | refine exc_elim (by assumption) ?_)
    | split | dsimp only

theorem State.stepInst_sound {q : List Instr} (s : State) (i : Nat) (t : Nat) (by_ : Rat)
    (hq : State.Sound s q) :
    State.Sound (State.stepInst s i t by_) q := by
  unfold State.stepInst
  repeat' first
    | (with_reducible first
      | assumption | apply State.setInst_sound | apply State.outsAfterStep_sound | apply State.clvAbsorb_sound | apply sound_ite
      | apply sound_ite_snd | fail_if_no_progress apply sound_with | intro _)
    | split | dsimp only

theorem State.lockOffset_sound {q : List Instr} (s : State) (i : Nat) (o : Rat)
    (hq : State.Sound s q) :
    State.Sound (State.lockOffset s i o) q := by
  unfold State.lockOffset
  repeat' first
    | (with_reducible first
      | assumption | apply State.setInst_sound | apply State.setServo_sound | apply sound_ite | apply sound_ite_snd
      | fail_if_no_progress apply sound_with | intro _)
    | split | dsimp only

theorem State.trackOffset_sound {q : List Instr} (s : State) (i : Nat) (t : Nat) (o : Rat)
    (hq : State.Sound s q) :
    State.Sound (State.trackOffset s i t o) q := by
  unfold State.trackOffset
  repeat' first
    | (with_reducible first
      | assumption | apply State.setInst_sound | apply State.setPpb_sound | apply sound_ite | apply sound_ite_snd
      | fail_if_no_progress apply sound_with | intro _)
    | split | dsimp only

theorem State.servoOffset_sound {q : List Instr} (s : State) (i : Nat) (t : Nat) (o : Rat)
    (hq : State.Sound s q) :
    State.Sound (State.servoOffset s i t o) q := by
  unfold State.servoOffset
  repeat' first
    | (with_reducible first
      | assumption | apply State.setFld_sound | apply State.bump_sound | apply State.raise_sound | apply State.setInst_sound
      | apply State.setServo_sound | apply State.setPpb_sound | apply State.stepInst_sound | apply State.lockOffset_sound
      | apply State.trackOffset_sound | apply sound_ite | apply sound_ite_snd | fail_if_no_progress apply sound_with | intro _
      | refine pair_sound (by assumption) ?_ | refine opt_elim (by assumption) ?_ | refine optP_elim (by assumption) ?_
      | refine optP_elim' (by assumption) ?_ | refine exc_elim (by assumption) ?_)
    | split | dsimp only

theorem State.takeSync_sound {q : List Instr} (s : State) (i : Nat) (t : Nat) (t1 : Rat) (t2 : Rat)
    (hq : State.Sound s q) :
    State.Sound (State.takeSync s i t t1 t2) q := by
  unfold State.takeSync
  repeat' first
    | (with_reducible first
      | assumption | apply State.setInst_sound | apply State.servoOffset_sound | fail_if_no_progress apply sound_with | intro _)
    | split | dsimp only

theorem State.takeDelayResp_sound {q : List Instr} (s : State) (i : Nat) (t4 : Rat)
    (hq : State.Sound s q) :
    State.Sound (State.takeDelayResp s i t4) q := by
  unfold State.takeDelayResp
  repeat' first
    | (with_reducible first
      | assumption | apply State.setFld_sound | apply State.setInst_sound | fail_if_no_progress apply sound_with | intro _
      | refine pair_sound (by assumption) ?_ | refine opt_elim (by assumption) ?_ | refine optP_elim (by assumption) ?_
      | refine optP_elim' (by assumption) ?_ | refine exc_elim (by assumption) ?_)
    | split | dsimp only

theorem State.ptpMessage_sound {q : List Instr} (s : State) (i : Nat) (port : Nat) (t : Nat) (ts : Int) (m : List Byte)
    (hq : State.Sound s q) :
    State.Sound (State.ptpMessage s i port t ts m) q := by
  unfold State.ptpMessage
  repeat' first
    | (with_reducible first
      | assumption | apply State.setInst_sound | apply State.takeSync_sound | apply State.takeDelayResp_sound | apply sound_ite
      | apply sound_ite_snd | fail_if_no_progress apply sound_with | intro _ | refine pair_sound (by assumption) ?_
      | refine opt_elim (by assumption) ?_ | refine optP_elim (by assumption) ?_ | refine optP_elim' (by assumption) ?_
      | refine exc_elim (by assumption) ?_)
    | split | dsimp only

theorem State.ptpCfgWrite_sound {q : List Instr} (s : State) (i : Nat) (v : Nat)
    (hq : State.Sound s q) :
    State.Sound (State.ptpCfgWrite s i v) q := by
  unfold State.ptpCfgWrite
  repeat' first
    | (with_reducible first
      | assumption | apply State.setFld_sound | apply State.setServo_sound | apply sound_ite | apply sound_ite_snd
      | fail_if_no_progress apply sound_with | intro _)
    | split | dsimp only

theorem State.latchTime_sound {q : List Instr} (s : State) (i : Nat) (t : Nat)
    (hq : State.Sound s q) :
    State.Sound (State.latchTime s i t) q := by
  unfold State.latchTime
  repeat' first
    | (with_reducible first
      | assumption | apply State.setFld_sound | fail_if_no_progress apply sound_with | intro _)
    | split | dsimp only

theorem State.capPop_sound {q : List Instr} (s : State) (n : Nat)
    (hq : State.Sound s q) :
    State.Sound (State.capPop s n) q := by
  unfold State.capPop
  repeat' first
    | (with_reducible first
      | assumption | fail_if_no_progress apply sound_with | intro _)
    | split | dsimp only

theorem State.capEdge_sound {q : List Instr} (s : State) (n : Nat) (fall : Bool) (t : Nat)
    (hq : State.Sound s q) :
    State.Sound (State.capEdge s n fall t) q := by
  unfold State.capEdge
  repeat' first
    | (with_reducible first
      | assumption | apply State.bump_sound | apply State.raiseAt_sound | apply sound_ite | apply sound_ite_snd
      | fail_if_no_progress apply sound_with | intro _ | refine pair_sound (by assumption) ?_
      | refine opt_elim (by assumption) ?_ | refine optP_elim (by assumption) ?_ | refine optP_elim' (by assumption) ?_
      | refine exc_elim (by assumption) ?_)
    | split | dsimp only

theorem execPtpDelayReqTimer_sound {q : List Instr} (inst : Nat) (t : Nat) (s : State)
    (hq : State.Sound s q) :
    NextSound q (execPtpDelayReqTimer inst t s) := by
  unfold execPtpDelayReqTimer
  repeat' first
    | (with_reducible first
      | assumption | apply State.bump_sound | apply State.emit_sound | apply State.seeTime_sound | apply State.setInst_sound
      | apply sound_ite | apply sound_ite_snd | apply next_sound | apply next_ite | fail_if_no_progress apply sound_with
      | intro _)
    | split | dsimp only

theorem execPtpNoParentTimeout_sound {q : List Instr} (inst : Nat) (s : State)
    (hq : State.Sound s q) :
    NextSound q (execPtpNoParentTimeout inst s) := by
  unfold execPtpNoParentTimeout
  repeat' first
    | (with_reducible first
      | assumption | apply State.setInst_sound | apply State.setServo_sound | apply sound_ite | apply sound_ite_snd
      | apply next_sound | apply next_ite | fail_if_no_progress apply sound_with | intro _)
    | split | dsimp only

theorem execTuOutEdge_sound {q : List Instr} (n : Nat) (t : Nat) (s : State)
    (hq : State.Sound s q) :
    NextSound q (execTuOutEdge n t s) := by
  unfold execTuOutEdge
  repeat' first
    | (with_reducible first
      | assumption | apply State.seeTime_sound | apply State.tuPulse_sound | apply sound_ite | apply sound_ite_snd
      | apply next_sound | apply next_ite | fail_if_no_progress apply sound_with | intro _
      | refine pair_sound (by assumption) ?_ | refine opt_elim (by assumption) ?_ | refine optP_elim (by assumption) ?_
      | refine optP_elim' (by assumption) ?_ | refine exc_elim (by assumption) ?_)
    | split | dsimp only

theorem execTuCapEdge_sound {q : List Instr} (n : Nat) (fall : Bool) (t : Nat) (s : State)
    (hq : State.Sound s q) :
    NextSound q (execTuCapEdge n fall t s) := by
  unfold execTuCapEdge
  repeat' first
    | (with_reducible first
      | assumption | apply State.seeTime_sound | apply State.capEdge_sound | apply next_sound | intro _)
    | split | dsimp only

end Sys2Proof.Machine
end

