-- ==== Sys2Proof/Laws/KeepsClave.lean ====
section
/-! SUPPORT. What the operations of Machine/Clave.lean keep: one lemma each. -/

set_option linter.unusedTactic false
set_option linter.unreachableTactic false

namespace Sys2Proof.Machine

theorem State.setClvSlot_sound {q : List Instr} (s : State) (n : Nat) (x : ClvSlot)
    (hq : State.Sound s q) :
    State.Sound (State.setClvSlot s n x) q := by
  unfold State.setClvSlot
  repeat' first
    | (with_reducible first
      | assumption | apply State.fresh_sound | fail_if_no_progress apply sound_with | intro _)
    | split | dsimp only

theorem State.refHist_sound {q : List Instr} (s : State) (f : Fld)
    (hq : State.Sound s q) :
    State.Sound (State.refHist s f) q := by
  unfold State.refHist
  repeat' first
    | (with_reducible first
      | assumption | apply State.setFld_sound | apply State.raise_sound | intro _)
    | split | dsimp only

theorem State.setRef_sound {q : List Instr} (s : State) (n : Nat) (st : Nat)
    (hq : State.Sound s q) :
    State.Sound (State.setRef s n st) q := by
  unfold State.setRef
  repeat' first
    | (with_reducible first
      | assumption | apply State.setFld_sound | apply State.bump_sound | apply State.setClvSlot_sound
      | apply State.refHist_sound | apply sound_ite | apply sound_ite_snd | fail_if_no_progress apply sound_with | intro _
      | refine pair_sound (by assumption) ?_ | refine opt_elim (by assumption) ?_ | refine optP_elim (by assumption) ?_
      | refine optP_elim' (by assumption) ?_ | refine exc_elim (by assumption) ?_)
    | split | dsimp only

theorem State.refSoft_sound {q : List Instr} (s : State) (n : Nat) (x : Int)
    (hq : State.Sound s q) :
    State.Sound (State.refSoft s n x) q := by
  unfold State.refSoft
  repeat' first
    | (with_reducible first
      | assumption | apply State.setFld_sound | apply State.setClvSlot_sound | apply State.refHist_sound | apply sound_ite
      | apply sound_ite_snd | fail_if_no_progress apply sound_with | intro _)
    | split | dsimp only

theorem State.refClear_sound {q : List Instr} (s : State) (n : Nat) (x : Int)
    (hq : State.Sound s q) :
    State.Sound (State.refClear s n x) q := by
  unfold State.refClear
  repeat' first
    | (with_reducible first
      | assumption | apply State.setClvSlot_sound | apply State.setRef_sound | apply sound_ite | apply sound_ite_snd
      | fail_if_no_progress apply sound_with | intro _)
    | split | dsimp only

theorem State.wtrSecond_sound {q : List Instr} (s : State) (n : Nat)
    (hq : State.Sound s q) :
    State.Sound (State.wtrSecond s n) q := by
  unfold State.wtrSecond
  repeat' first
    | (with_reducible first
      | assumption | apply State.setFld_sound | intro _)
    | split | dsimp only

theorem State.refGate_sound {q : List Instr} (s : State) (long : Bool) (n : Nat) (f0 : Option Int)
    (hq : State.Sound s q) :
    State.Sound (State.refGate s long n f0) q := by
  unfold State.refGate
  repeat' first
    | (with_reducible first
      | assumption | apply State.setFld_sound | apply State.setClvSlot_sound | apply State.setRef_sound
      | apply State.refSoft_sound | apply State.refClear_sound | apply State.wtrSecond_sound | apply sound_ite
      | apply sound_ite_snd | fail_if_no_progress apply sound_with | intro _ | refine pair_sound (by assumption) ?_
      | refine opt_elim (by assumption) ?_ | refine optP_elim (by assumption) ?_ | refine optP_elim' (by assumption) ?_
      | refine exc_elim (by assumption) ?_)
    | split | dsimp only

theorem State.breakTie_sound {q : List Instr} (s : State) (sel : Option Nat) (cands : List Nat)
    (hq : State.Sound s q) :
    State.Sound (State.breakTie s sel cands).2 q := by
  unfold State.breakTie
  repeat' first
    | (with_reducible first
      | assumption | apply State.raise_sound | apply State.refHist_sound | apply foldl_sound | apply foldl_snd_sound
      | apply sound_ite | apply sound_ite_snd | fail_if_no_progress apply sound_with | intro _
      | refine pair_sound (by assumption) ?_ | refine opt_elim (by assumption) ?_ | refine optP_elim (by assumption) ?_
      | refine optP_elim' (by assumption) ?_ | refine exc_elim (by assumption) ?_)
    | split | dsimp only

theorem State.clvSelect_sound {q : List Instr} (s : State)
    (hq : State.Sound s q) :
    State.Sound (State.clvSelect s).2 q := by
  unfold State.clvSelect
  repeat' first
    | (with_reducible first
      | assumption | apply State.breakTie_sound | apply sound_ite | apply sound_ite_snd | fail_if_no_progress apply sound_with
      | intro _ | refine pair_sound (by assumption) ?_ | refine opt_elim (by assumption) ?_
      | refine optP_elim (by assumption) ?_ | refine optP_elim' (by assumption) ?_ | refine exc_elim (by assumption) ?_)
    | split | dsimp only

theorem State.clvEvaluate_sound {q : List Instr} (s : State)
    (hq : State.Sound s q) :
    State.Sound (State.clvEvaluate s) q := by
  unfold State.clvEvaluate
  repeat' first
    | (with_reducible first
      | assumption | apply State.clvSelect_sound | apply sound_ite | apply sound_ite_snd | fail_if_no_progress apply sound_with
      | intro _)
    | split | dsimp only

theorem State.clvReselect_sound {q : List Instr} (s : State)
    (hq : State.Sound s q) :
    State.Sound (State.clvReselect s) q := by
  unfold State.clvReselect
  repeat' first
    | (with_reducible first
      | assumption | apply State.clvEvaluate_sound | fail_if_no_progress apply sound_with | intro _)
    | split | dsimp only

theorem State.setOutFreq_sound {q : List Instr} (s : State) (f : Int)
    (hq : State.Sound s q) :
    State.Sound (State.setOutFreq s f) q := by
  unfold State.setOutFreq
  repeat' first
    | (with_reducible first
      | assumption | apply State.setFld_sound | intro _)
    | split | dsimp only

theorem State.rampOutFreq_sound {q : List Instr} (s : State) (f : Int)
    (hq : State.Sound s q) :
    State.Sound (State.rampOutFreq s f) q := by
  unfold State.rampOutFreq
  repeat' first
    | (with_reducible first
      | assumption | apply State.setOutFreq_sound | fail_if_no_progress apply sound_with | intro _)
    | split | dsimp only

theorem State.clvOutput_sound {q : List Instr} (s : State)
    (hq : State.Sound s q) :
    State.Sound (State.clvOutput s) q := by
  unfold State.clvOutput
  repeat' first
    | (with_reducible first
      | assumption | apply State.fresh_sound | apply State.rampOutFreq_sound | fail_if_no_progress apply sound_with | intro _
      | refine pair_sound (by assumption) ?_ | refine opt_elim (by assumption) ?_ | refine optP_elim (by assumption) ?_
      | refine optP_elim' (by assumption) ?_ | refine exc_elim (by assumption) ?_)
    | split | dsimp only

theorem State.clvFreeze_sound {q : List Instr} (s : State)
    (hq : State.Sound s q) :
    State.Sound (State.clvFreeze s) q := by
  unfold State.clvFreeze
  repeat' first
    | (with_reducible first
      | assumption | apply State.setFld_sound | fail_if_no_progress apply sound_with | intro _)
    | split | dsimp only

theorem State.clvHistory_sound {q : List Instr} (s : State) (f : Option Int)
    (hq : State.Sound s q) :
    State.Sound (State.clvHistory s f) q := by
  unfold State.clvHistory
  repeat' first
    | (with_reducible first
      | assumption | apply State.setFld_sound | apply State.clvFreeze_sound | apply sound_ite | apply sound_ite_snd
      | fail_if_no_progress apply sound_with | intro _ | refine pair_sound (by assumption) ?_
      | refine opt_elim (by assumption) ?_ | refine optP_elim (by assumption) ?_ | refine optP_elim' (by assumption) ?_
      | refine exc_elim (by assumption) ?_)
    | split | dsimp only

theorem State.slewEnd_sound {q : List Instr} (s : State)
    (hq : State.Sound s q) :
    State.Sound (State.slewEnd s) q := by
  unfold State.slewEnd
  repeat' first
    | (with_reducible first
      | assumption | apply State.setFld_sound | apply State.raise_sound | fail_if_no_progress apply sound_with | intro _)
    | split | dsimp only

theorem State.clvSlew_sound {q : List Instr} (s : State)
    (hq : State.Sound s q) :
    State.Sound (State.clvSlew s) q := by
  unfold State.clvSlew
  repeat' first
    | (with_reducible first
      | assumption | apply State.setFld_sound | apply State.slewEnd_sound | apply sound_ite | apply sound_ite_snd
      | fail_if_no_progress apply sound_with | intro _)
    | split | dsimp only

theorem State.clvSecond_sound {q : List Instr} (s : State) (f : Option Int) (xo : Int)
    (hq : State.Sound s q) :
    State.Sound (State.clvSecond s f xo) q := by
  unfold State.clvSecond
  repeat' first
    | (with_reducible first
      | assumption | apply State.setFld_sound | apply State.bump_sound | apply State.clvHistory_sound | apply sound_ite
      | apply sound_ite_snd | fail_if_no_progress apply sound_with | intro _)
    | split | dsimp only

theorem State.slotGates_sound {q : List Instr} (s : State) (long : Bool) (fs : List (Option Int))
    (hq : State.Sound s q) :
    State.Sound (State.slotGates s long fs) q := by
  unfold State.slotGates
  repeat' first
    | (with_reducible first
      | assumption | apply State.wtrSecond_sound | apply State.refGate_sound | apply foldl_sound | apply foldl_snd_sound
      | apply sound_ite | apply sound_ite_snd | fail_if_no_progress apply sound_with | intro _)
    | split | dsimp only

theorem State.clvGateEnd_sound {q : List Instr} (s : State) (long : Bool) (fs : List (Option Int)) (temp : Int) (xo : Int)
    (hq : State.Sound s q) :
    State.Sound (State.clvGateEnd s long fs temp xo) q := by
  unfold State.clvGateEnd
  repeat' first
    | (with_reducible first
      | assumption | apply State.setFld_sound | apply State.clvEvaluate_sound | apply State.clvOutput_sound
      | apply State.clvSlew_sound | apply State.clvSecond_sound | apply State.slotGates_sound | apply sound_ite
      | apply sound_ite_snd | fail_if_no_progress apply sound_with | intro _)
    | split | dsimp only

theorem State.clvLose_sound {q : List Instr} (s : State)
    (hq : State.Sound s q) :
    State.Sound (State.clvLose s) q := by
  unfold State.clvLose
  repeat' first
    | (with_reducible first
      | assumption | apply State.setFld_sound | apply State.raise_sound | apply sound_ite | apply sound_ite_snd
      | fail_if_no_progress apply sound_with | intro _)
    | split | dsimp only

theorem State.clvTake_sound {q : List Instr} (s : State) (n : Nat) (phi : Int)
    (hq : State.Sound s q) :
    State.Sound (State.clvTake s n phi) q := by
  unfold State.clvTake
  repeat' first
    | (with_reducible first
      | assumption | apply State.setFld_sound | apply State.raise_sound | apply State.clvAbsorb_sound
      | apply State.refHist_sound | apply sound_ite | apply sound_ite_snd | fail_if_no_progress apply sound_with | intro _)
    | split | dsimp only

theorem State.clvSwitch_sound {q : List Instr} (s : State) (phi : Int)
    (hq : State.Sound s q) :
    State.Sound (State.clvSwitch s phi) q := by
  unfold State.clvSwitch
  repeat' first
    | (with_reducible first
      | assumption | apply State.clvLose_sound | apply State.clvTake_sound | apply sound_ite | apply sound_ite_snd
      | fail_if_no_progress apply sound_with | intro _ | refine pair_sound (by assumption) ?_
      | refine opt_elim (by assumption) ?_ | refine optP_elim (by assumption) ?_ | refine optP_elim' (by assumption) ?_
      | refine exc_elim (by assumption) ?_)
    | split | dsimp only

theorem State.refCtrl_sound {q : List Instr} (s : State) (n : Nat) (enable : Nat) (rank : Nat) (wtr : Nat)
    (hq : State.Sound s q) :
    State.Sound (State.refCtrl s n enable rank wtr) q := by
  unfold State.refCtrl
  repeat' first
    | (with_reducible first
      | assumption | apply State.setFld_sound | apply State.setRef_sound | apply sound_ite | apply sound_ite_snd
      | fail_if_no_progress apply sound_with | intro _)
    | split | dsimp only

theorem State.clvCtrl_sound {q : List Instr} (s : State) (mode : Nat) (nonrevert : Nat) (hold : Nat) (force : Nat)
    (hq : State.Sound s q) :
    State.Sound (State.clvCtrl s mode nonrevert hold force) q := by
  unfold State.clvCtrl
  repeat' first
    | (with_reducible first
      | assumption | apply State.setFld_sound | apply State.hold_sound | apply sound_ite | apply sound_ite_snd
      | fail_if_no_progress apply sound_with | intro _)
    | split | dsimp only

theorem State.clvReject_sound {q : List Instr} (s : State)
    (hq : State.Sound s q) :
    State.Sound (State.clvReject s) q := by
  unfold State.clvReject
  repeat' first
    | (with_reducible first
      | assumption | apply State.bump_sound | intro _)
    | split | dsimp only

theorem State.clvApply_sound {q : List Instr} (s : State) (c : Cmd)
    (hq : State.Sound s q) :
    State.Sound (State.clvApply s c).2 q := by
  unfold State.clvApply
  repeat' first
    | (with_reducible first
      | assumption | apply State.refCtrl_sound | apply State.clvCtrl_sound | apply State.clvReject_sound | apply sound_ite
      | apply sound_ite_snd | fail_if_no_progress apply sound_with | intro _ | refine pair_sound (by assumption) ?_
      | refine opt_elim (by assumption) ?_ | refine optP_elim (by assumption) ?_ | refine optP_elim' (by assumption) ?_
      | refine exc_elim (by assumption) ?_)
    | split | dsimp only

theorem State.rebaseAll_sound {q : List Instr} (s : State) (d : Int)
    (hq : State.Sound s q) :
    State.Sound (State.rebaseAll s d) q := by
  unfold State.rebaseAll
  repeat' first
    | (with_reducible first
      | assumption | apply State.setFld_sound | apply foldl_sound | apply foldl_snd_sound | fail_if_no_progress apply sound_with
      | intro _)
    | split | dsimp only

theorem State.setWcErr_sound {q : List Instr} (s : State) (n : Nat) (code : Nat)
    (hq : State.Sound s q) :
    State.Sound (State.setWcErr s n code) q := by
  unfold State.setWcErr
  repeat' first
    | (with_reducible first
      | assumption | apply State.setFld_sound | fail_if_no_progress apply sound_with | intro _)
    | split | dsimp only

theorem State.wcStart_sound {q : List Instr} (s : State) (n : Nat)
    (hq : State.Sound s q) :
    State.Sound (State.wcStart s n) q := by
  unfold State.wcStart
  repeat' first
    | (with_reducible first
      | assumption | apply State.setFld_sound | intro _)
    | split | dsimp only

theorem State.wcAlign_sound {q : List Instr} (s : State) (n : Nat) (err : Option Int)
    (hq : State.Sound s q) :
    State.Sound (State.wcAlign s n err) q := by
  unfold State.wcAlign
  repeat' first
    | (with_reducible first
      | assumption | apply State.setFld_sound | apply State.emit_sound | apply sound_ite | apply sound_ite_snd
      | fail_if_no_progress apply sound_with | intro _ | refine pair_sound (by assumption) ?_
      | refine opt_elim (by assumption) ?_ | refine optP_elim (by assumption) ?_ | refine optP_elim' (by assumption) ?_
      | refine exc_elim (by assumption) ?_)
    | split | dsimp only

theorem State.refTake_sound {q : List Instr} (s : State) (n : Nat) (r : RefRec)
    (hq : State.Sound s q) :
    State.Sound (State.refTake s n r) q := by
  unfold State.refTake
  repeat' first
    | (with_reducible first
      | assumption | apply State.setFld_sound | apply State.bump_sound | apply State.fresh_sound | apply State.setClvSlot_sound
      | apply State.refHist_sound | apply sound_ite | apply sound_ite_snd | fail_if_no_progress apply sound_with | intro _)
    | split | dsimp only

theorem State.refCtrlTake_sound {q : List Instr} (s : State) (n : Nat) (r : RefRec)
    (hq : State.Sound s q) :
    State.Sound (State.refCtrlTake s n r) q := by
  unfold State.refCtrlTake
  repeat' first
    | (with_reducible first
      | assumption | apply State.refCtrl_sound | intro _)
    | split | dsimp only

theorem State.clvCtrlTake_sound {q : List Instr} (s : State) (k : ClockRec)
    (hq : State.Sound s q) :
    State.Sound (State.clvCtrlTake s k) q := by
  unfold State.clvCtrlTake
  repeat' first
    | (with_reducible first
      | assumption | apply State.setFld_sound | apply State.clvCtrl_sound | intro _)
    | split | dsimp only

theorem State.wcTake_sound {q : List Instr} (s : State) (n : Nat) (r : WcRec)
    (hq : State.Sound s q) :
    State.Sound (State.wcTake s n r) q := by
  unfold State.wcTake
  repeat' first
    | (with_reducible first
      | assumption | apply State.setFld_sound | apply State.setForce_sound | apply State.wcStart_sound | apply foldl_sound
      | apply foldl_snd_sound | fail_if_no_progress apply sound_with | intro _)
    | split | dsimp only

theorem State.clvLoad_sound {q : List Instr} (s : State) (k : ClockRec)
    (hq : State.Sound s q) :
    State.Sound (State.clvLoad s k) q := by
  unfold State.clvLoad
  repeat' first
    | (with_reducible first
      | assumption | apply State.setFld_sound | apply State.refTake_sound | apply State.refCtrlTake_sound
      | apply State.clvCtrlTake_sound | apply State.wcTake_sound | apply foldl_sound | apply foldl_snd_sound
      | fail_if_no_progress apply sound_with | intro _)
    | split | dsimp only

theorem State.clvSwap_sound {q : List Instr} (s : State) (old : ClockRec) (new : ClockRec)
    (hq : State.Sound s q) :
    State.Sound (State.clvSwap s old new) q := by
  unfold State.clvSwap
  repeat' first
    | (with_reducible first
      | assumption | apply State.setFld_sound | apply State.clvReselect_sound | apply State.refTake_sound
      | apply State.refCtrlTake_sound | apply State.clvCtrlTake_sound | apply State.wcTake_sound | apply foldl_sound
      | apply foldl_snd_sound | apply sound_ite | apply sound_ite_snd | fail_if_no_progress apply sound_with | intro _
      | refine pair_sound (by assumption) ?_ | refine opt_elim (by assumption) ?_ | refine optP_elim (by assumption) ?_
      | refine optP_elim' (by assumption) ?_ | refine exc_elim (by assumption) ?_)
    | split | dsimp only

theorem execClvGateEnd_sound {q : List Instr} (long : Bool) (fs : List (Option Int)) (temp : Int) (xo : Int) (s : State)
    (hq : State.Sound s q) :
    NextSound q (execClvGateEnd long fs temp xo s) := by
  unfold execClvGateEnd
  repeat' first
    | (with_reducible first
      | assumption | apply State.clvGateEnd_sound | apply next_sound | intro _)
    | split | dsimp only

theorem execClvSwitch_sound {q : List Instr} (phi : Int) (s : State)
    (hq : State.Sound s q) :
    NextSound q (execClvSwitch phi s) := by
  unfold execClvSwitch
  repeat' first
    | (with_reducible first
      | assumption | apply State.clvSwitch_sound | apply next_sound | intro _)
    | split | dsimp only

theorem execClvRefLos_sound {q : List Instr} (slot : Nat) (s : State)
    (hq : State.Sound s q) :
    NextSound q (execClvRefLos slot s) := by
  unfold execClvRefLos
  repeat' first
    | (with_reducible first
      | assumption | apply State.setClvSlot_sound | apply State.setRef_sound | apply sound_ite | apply sound_ite_snd
      | apply next_sound | apply next_ite | fail_if_no_progress apply sound_with | intro _)
    | split | dsimp only

theorem execClvWtrExpiry_sound {q : List Instr} (slot : Nat) (s : State)
    (hq : State.Sound s q) :
    NextSound q (execClvWtrExpiry slot s) := by
  unfold execClvWtrExpiry
  repeat' first
    | (with_reducible first
      | assumption | apply State.setRef_sound | apply sound_ite | apply sound_ite_snd | apply next_sound | apply next_ite
      | intro _)
    | split | dsimp only

theorem State.clvThaw_sound {q : List Instr} (s : State)
    (hq : State.Sound s q) :
    State.Sound (State.clvThaw s) q := by
  unfold State.clvThaw
  repeat' first
    | (with_reducible first
      | assumption | apply State.setFld_sound | apply sound_ite | apply sound_ite_snd | fail_if_no_progress apply sound_with
      | intro _ | refine pair_sound (by assumption) ?_ | refine opt_elim (by assumption) ?_
      | refine optP_elim (by assumption) ?_ | refine optP_elim' (by assumption) ?_ | refine exc_elim (by assumption) ?_)
    | split | dsimp only

theorem execClvLock_sound {q : List Instr} (s : State)
    (hq : State.Sound s q) :
    NextSound q (execClvLock s) := by
  unfold execClvLock
  repeat' first
    | (with_reducible first
      | assumption | apply State.setFld_sound | apply State.raise_sound | apply State.clvThaw_sound | apply sound_ite
      | apply sound_ite_snd | apply next_sound | apply next_ite | intro _)
    | split | dsimp only

theorem execClvSlewDone_sound {q : List Instr} (s : State)
    (hq : State.Sound s q) :
    NextSound q (execClvSlewDone s) := by
  unfold execClvSlewDone
  repeat' first
    | (with_reducible first
      | assumption | apply State.slewEnd_sound | apply sound_ite | apply sound_ite_snd | apply next_sound | apply next_ite
      | intro _)
    | split | dsimp only

theorem execLoInLost_sound {q : List Instr} (s : State)
    (hq : State.Sound s q) :
    NextSound q (execLoInLost s) := by
  unfold execLoInLost
  repeat' first
    | (with_reducible first
      | assumption | apply State.setFld_sound | apply State.raise_sound | apply State.rebaseAll_sound | apply sound_ite
      | apply sound_ite_snd | apply next_sound | apply next_ite | fail_if_no_progress apply sound_with | intro _)
    | split | dsimp only

theorem execLoInReturn_sound {q : List Instr} (s : State)
    (hq : State.Sound s q) :
    NextSound q (execLoInReturn s) := by
  unfold execLoInReturn
  repeat' first
    | (with_reducible first
      | assumption | apply sound_ite | apply sound_ite_snd | apply next_sound | apply next_ite
      | fail_if_no_progress apply sound_with | intro _ | refine pair_sound (by assumption) ?_
      | refine opt_elim (by assumption) ?_ | refine optP_elim (by assumption) ?_ | refine optP_elim' (by assumption) ?_
      | refine exc_elim (by assumption) ?_)
    | split | dsimp only

theorem execLoInRestore_sound {q : List Instr} (s : State)
    (hq : State.Sound s q) :
    NextSound q (execLoInRestore s) := by
  unfold execLoInRestore
  repeat' first
    | (with_reducible first
      | assumption | apply State.setFld_sound | apply State.rebaseAll_sound | apply sound_ite | apply sound_ite_snd
      | apply next_sound | apply next_ite | fail_if_no_progress apply sound_with | intro _)
    | split | dsimp only

theorem execClvMode_sound {q : List Instr} (mode : Nat) (forceSlot : Nat) (phase : Nat) (s : State)
    (hq : State.Sound s q) :
    NextSound q (execClvMode mode forceSlot phase s) := by
  unfold execClvMode
  repeat' first
    | (with_reducible first
      | assumption | apply State.clvApply_sound | apply next_sound | intro _)
    | split | dsimp only

theorem execClvRefSet_sound {q : List Instr} (slot : Nat) (enable : Nat) (rank : Nat) (wtr : Nat) (s : State)
    (hq : State.Sound s q) :
    NextSound q (execClvRefSet slot enable rank wtr s) := by
  unfold execClvRefSet
  repeat' first
    | (with_reducible first
      | assumption | apply State.clvApply_sound | apply next_sound | intro _)
    | split | dsimp only

theorem execWclkAlignEdge_sound {q : List Instr} (n : Nat) (errPs : Option Int) (s : State)
    (hq : State.Sound s q) :
    NextSound q (execWclkAlignEdge n errPs s) := by
  unfold execWclkAlignEdge
  repeat' first
    | (with_reducible first
      | assumption | apply State.wcAlign_sound | apply next_sound | intro _)
    | split | dsimp only

theorem execWclkInputMissed_sound {q : List Instr} (n : Nat) (s : State)
    (hq : State.Sound s q) :
    NextSound q (execWclkInputMissed n s) := by
  unfold execWclkInputMissed
  repeat' first
    | (with_reducible first
      | assumption | apply State.wcAlign_sound | apply next_sound | intro _)
    | split | dsimp only

end Sys2Proof.Machine
end

