-- ==== Sys2Proof/Laws/KeepsDelayPool.lean ====
section
/-! SUPPORT. What the operations of Machine/DelayPool.lean keep: one lemma each. -/

set_option linter.unusedTactic false
set_option linter.unreachableTactic false

namespace Sys2Proof.Machine

theorem State.setLine_sound {q : List Instr} (s : State) (l : Nat) (x : DplLine)
    (hq : State.Sound s q) :
    State.Sound (State.setLine s l x) q := by
  unfold State.setLine
  repeat' first
    | (with_reducible first
      | assumption | fail_if_no_progress apply sound_with | intro _)
    | split | dsimp only

theorem State.putSample_sound {q : List Instr} (s : State) (r : LineRec) (i : Nat) (x : Int)
    (hq : State.Sound s q) :
    State.Sound (State.putSample s r i x) q := by
  unfold State.putSample
  repeat' first
    | (with_reducible first
      | assumption | apply sound_dram | apply sound_drams | apply sound_with_filter | apply sound_with_filters
      | fail_if_no_progress apply sound_with | intro _)
    | split | dsimp only

theorem State.countBadUnits_sound {q : List Instr} (s : State) (r : LineRec) (xs : List Nat)
    (hq : State.Sound s q) :
    State.Sound (State.countBadUnits s r xs) q := by
  unfold State.countBadUnits
  repeat' first
    | (with_reducible first
      | assumption | apply State.setFld_sound | apply State.countUe_sound | apply foldl_sound | apply foldl_snd_sound | intro _)
    | split | dsimp only

theorem State.setDelay_sound {q : List Instr} (s : State) (l : Nat) (d : Nat) (len : Nat)
    (hq : State.Sound s q) :
    State.Sound (State.setDelay s l d len) q := by
  unfold State.setDelay
  repeat' first
    | (with_reducible first
      | assumption | apply State.setFld_sound | apply State.countAndRaise_sound | apply State.setLine_sound | apply sound_ite
      | apply sound_ite_snd | fail_if_no_progress apply sound_with | intro _)
    | split | dsimp only

theorem State.endDelayFade_sound {q : List Instr} (s : State) (l : Nat)
    (hq : State.Sound s q) :
    State.Sound (State.endDelayFade s l) q := by
  unfold State.endDelayFade
  repeat' first
    | (with_reducible first
      | assumption | apply State.setLine_sound | fail_if_no_progress apply sound_with | intro _)
    | split | dsimp only

theorem State.applyPending_sound {q : List Instr} (s : State) (l : Nat)
    (hq : State.Sound s q) :
    State.Sound (State.applyPending s l) q := by
  unfold State.applyPending
  repeat' first
    | (with_reducible first
      | assumption | apply State.setFld_sound | apply State.setDelay_sound | apply sound_ite | apply sound_ite_snd
      | fail_if_no_progress apply sound_with | intro _)
    | split | dsimp only

theorem State.dplReject_sound {q : List Instr} (s : State)
    (hq : State.Sound s q) :
    State.Sound (State.dplReject s) q := by
  unfold State.dplReject
  repeat' first
    | (with_reducible first
      | assumption | apply State.countAndRaise_sound | intro _)
    | split | dsimp only

theorem State.dplRejectEntries_sound {q : List Instr} (s : State) (n : Nat) (hq : State.Sound s q) :
    State.Sound (State.dplRejectEntries s n) q := by
  induction n generalizing s with
  | zero => exact hq
  | succ n ih => exact ih _ (State.dplReject_sound _ hq)

theorem State.dplLate_sound {q : List Instr} (s : State)
    (hq : State.Sound s q) :
    State.Sound (State.dplLate s) q := by
  unfold State.dplLate
  repeat' first
    | (with_reducible first
      | assumption | apply State.countAndRaise_sound | intro _)
    | split | dsimp only

theorem State.dplApply_sound {q : List Instr} (s : State) (c : Cmd) (f : Fetch)
    (hq : State.Sound s q) :
    OptSoundP q (State.dplApply s c f) := by
  unfold State.dplApply
  repeat' first
    | (with_reducible first
      | assumption | apply State.setDelay_sound | apply State.dplReject_sound | apply State.dplRejectEntries_sound
      | apply foldl_sound | apply foldl_snd_sound | apply sound_ite | apply sound_ite_snd | apply optP_ite | apply optP_none
      | apply optP_some | apply optP_map | fail_if_no_progress apply sound_with | intro _ | refine pair_sound (by assumption) ?_
      | refine opt_elim (by assumption) ?_ | refine optP_elim (by assumption) ?_ | refine optP_elim' (by assumption) ?_
      | refine exc_elim (by assumption) ?_)
    | split | dsimp only

theorem State.delaySetWrite_sound {q : List Instr} (s : State) (v : Word)
    (hq : State.Sound s q) :
    State.Sound (State.delaySetWrite s v) q := by
  unfold State.delaySetWrite
  repeat' first
    | (with_reducible first
      | assumption | apply State.setFld_sound | apply State.hold_sound | intro _)
    | split | dsimp only

theorem State.runLine_sound {q : List Instr} (s : State) (c : Cfg) (k : Nat) (r : LineRec)
    (hq : State.Sound s q) :
    State.Sound (State.runLine s c k r) q := by
  unfold State.runLine
  repeat' first
    | (with_reducible first
      | assumption | apply State.setFld_sound | apply State.raise_sound | apply State.writeBus_sound | apply State.setLine_sound
      | apply State.putSample_sound | apply State.countBadUnits_sound | apply foldl_sound | apply foldl_snd_sound
      | apply sound_ite | apply sound_ite_snd | fail_if_no_progress apply sound_with | intro _)
    | split | dsimp only

theorem State.dplRunPart_sound {q : List Instr} (s : State) (c : Cfg) (parts : Nat) (k : Nat) (p : Nat)
    (hq : State.Sound s q) :
    State.Sound (State.dplRunPart s c parts k p) q := by
  unfold State.dplRunPart
  repeat' first
    | (with_reducible first
      | assumption | apply State.runLine_sound | apply foldl_sound | apply foldl_snd_sound | intro _)
    | split | dsimp only

theorem State.dplSkipPart_sound {q : List Instr} (s : State) (c : Cfg) (parts : Nat) (p : Nat)
    (hq : State.Sound s q) :
    State.Sound (State.dplSkipPart s c parts p) q := by
  unfold State.dplSkipPart
  repeat' first
    | (with_reducible first
      | assumption | apply State.setLine_sound | apply foldl_sound | apply foldl_snd_sound
      | fail_if_no_progress apply sound_with | intro _)
    | split | dsimp only

theorem State.dplBoundary_sound {q : List Instr} (s : State)
    (hq : State.Sound s q) :
    State.Sound (State.dplBoundary s) q := by
  unfold State.dplBoundary
  repeat' first
    | (with_reducible first
      | assumption | apply State.setFld_sound | apply State.peak_sound | apply State.fresh_sound
      | apply State.endDelayFade_sound | apply State.applyPending_sound | apply foldl_sound | apply foldl_snd_sound
      | fail_if_no_progress apply sound_with | intro _)
    | split | dsimp only

theorem State.shareUse_sound {q : List Instr} (s : State) (r : RegionRec) (n : Nat)
    (hq : State.Sound s q) :
    State.Sound (State.shareUse s r n) q := by
  unfold State.shareUse
  repeat' first
    | (with_reducible first
      | assumption | apply State.bump_sound | apply State.raise_sound | apply sound_ite | apply sound_ite_snd
      | fail_if_no_progress apply sound_with | intro _)
    | split | dsimp only

theorem State.regionAccess_sound {q : List Instr} (s : State) (cluster : Nat) (a : Nat) (n : Nat)
    (hq : State.Sound s q) :
    State.Sound (State.regionAccess s cluster a n) q := by
  unfold State.regionAccess
  repeat' first
    | (with_reducible first
      | assumption | apply State.shareUse_sound | apply foldl_sound | apply foldl_snd_sound | apply sound_ite
      | apply sound_ite_snd | fail_if_no_progress apply sound_with | intro _ | refine pair_sound (by assumption) ?_
      | refine opt_elim (by assumption) ?_ | refine optP_elim (by assumption) ?_ | refine optP_elim' (by assumption) ?_
      | refine exc_elim (by assumption) ?_)
    | split | dsimp only

theorem State.lineEntry_sound {q : List Instr} (s : State) (r : LineRec)
    (hq : State.Sound s q) :
    State.Sound (State.lineEntry s r) q := by
  unfold State.lineEntry
  repeat' first
    | (with_reducible first
      | assumption | apply State.setFld_sound | intro _)
    | split | dsimp only

theorem State.clearLineEntry_sound {q : List Instr} (s : State) (l : Nat)
    (hq : State.Sound s q) :
    State.Sound (State.clearLineEntry s l) q := by
  unfold State.clearLineEntry
  repeat' first
    | (with_reducible first
      | assumption | apply State.clearFlds_sound | intro _)
    | split | dsimp only

theorem State.newLine_sound {q : List Instr} (s : State) (r : LineRec)
    (hq : State.Sound s q) :
    State.Sound (State.newLine s r) q := by
  unfold State.newLine
  repeat' first
    | (with_reducible first
      | assumption | apply State.setFld_sound | apply State.setLine_sound | apply State.lineEntry_sound
      | apply State.clearLineEntry_sound | intro _)
    | split | dsimp only

theorem State.fillLine_sound {q : List Instr} (s : State) (n : Nat) (k : Nat) (r : LineRec)
    (hq : State.Sound s q) :
    State.Sound (State.fillLine s n k r) q := by
  unfold State.fillLine
  repeat' first
    | (with_reducible first
      | assumption | apply State.putSample_sound | apply foldl_sound | apply foldl_snd_sound
      | fail_if_no_progress apply sound_with | intro _)
    | split | dsimp only

theorem State.filledLine_sound {q : List Instr} (s : State) (r : LineRec)
    (hq : State.Sound s q) :
    State.Sound (State.filledLine s r) q := by
  unfold State.filledLine
  repeat' first
    | (with_reducible first
      | assumption | apply State.setLine_sound | apply State.newLine_sound | intro _)
    | split | dsimp only

theorem State.dplSwap_sound {q : List Instr} (s : State) (old : Cfg) (new : Cfg)
    (hq : State.Sound s q) :
    State.Sound (State.dplSwap s old new) q := by
  unfold State.dplSwap
  repeat' first
    | (with_reducible first
      | assumption | apply State.setLine_sound | apply State.setDelay_sound | apply State.lineEntry_sound
      | apply State.clearLineEntry_sound | apply State.filledLine_sound | apply foldl_sound | apply foldl_snd_sound
      | apply sound_ite | apply sound_ite_snd | fail_if_no_progress apply sound_with | intro _
      | refine pair_sound (by assumption) ?_ | refine opt_elim (by assumption) ?_ | refine optP_elim (by assumption) ?_
      | refine optP_elim' (by assumption) ?_ | refine exc_elim (by assumption) ?_)
    | split | dsimp only

theorem State.hashSeedWrite_sound {q : List Instr} (s : State) (v : Word)
    (hq : State.Sound s q) :
    State.Sound (State.hashSeedWrite s v) q := by
  unfold State.hashSeedWrite
  split
  · refine sound_mk hq.1 hq.2.1 hq.2.2.1 ?_
    have h := hq.2.2.2
    simp only [Mems.wf, Tbl.wf, Bool.and_eq_true] at h ⊢
    exact ⟨⟨rfl, rfl⟩, h.2⟩
  · exact hq

theorem State.dplCommand_sound {q : List Instr} (s : State) (c : Cmd)
    (hq : State.Sound s q) :
    State.Sound (State.dplCommand s c) q := by
  unfold State.dplCommand
  repeat' first
    | (with_reducible first
      | assumption | apply State.hold_sound | apply State.dplApply_sound | apply sound_ite | apply sound_ite_snd
      | fail_if_no_progress apply sound_with | intro _ | refine pair_sound (by assumption) ?_
      | refine opt_elim (by assumption) ?_ | refine optP_elim (by assumption) ?_ | refine optP_elim' (by assumption) ?_
      | refine exc_elim (by assumption) ?_)
    | split | dsimp only

theorem execDelaySet_sound {q : List Instr} (line : Nat) (xf : Nat) (delay : Nat) (s : State)
    (hq : State.Sound s q) :
    NextSound q (execDelaySet line xf delay s) := by
  unfold execDelaySet
  repeat' first
    | (with_reducible first
      | assumption | apply State.dplCommand_sound | apply next_sound | intro _)
    | split | dsimp only

theorem execDelayList_sound {q : List Instr} (count : Nat) (xf : Nat) (addr : Nat) (s : State)
    (hq : State.Sound s q) :
    NextSound q (execDelayList count xf addr s) := by
  unfold execDelayList
  repeat' first
    | (with_reducible first
      | assumption | apply State.hold_sound | apply next_sound | intro _)
    | split | dsimp only

theorem execDelayFadeEnd_sound {q : List Instr} (line : Nat) (s : State)
    (hq : State.Sound s q) :
    NextSound q (execDelayFadeEnd line s) := by
  unfold execDelayFadeEnd
  repeat' first
    | (with_reducible first
      | assumption | apply State.endDelayFade_sound | apply sound_ite | apply sound_ite_snd | apply next_sound | apply next_ite
      | intro _)
    | split | dsimp only

theorem State.scrubRead_sound {q : List Instr} (s : State) (addr : Nat) (err : EccErr)
    (hq : State.Sound s q) :
    State.Sound (State.scrubRead s addr err) q := by
  unfold State.scrubRead
  split
  · exact hq
  · split
    · exact hq
    · exact State.countAndRaise_sound _ _ _ hq
    · exact State.countUe_sound _ _ (sound_mem hq hq.2.2.2)

theorem execScrubRead_sound {q : List Instr} (addr : Nat) (err : EccErr) (s : State)
    (hq : State.Sound s q) :
    NextSound q (execScrubRead addr err s) := by
  unfold execScrubRead
  repeat' first
    | (with_reducible first
      | assumption | apply State.scrubRead_sound | apply next_sound | intro _)
    | split | dsimp only

end Sys2Proof.Machine
end

