-- ==== Sys2Proof/Laws/KeepsMalletCore.lean ====
section
/-! SUPPORT. What the operations of Machine/MalletCore.lean keep: one lemma each. -/

set_option linter.unusedTactic false
set_option linter.unreachableTactic false

namespace Sys2Proof.Machine

theorem State.setCore_sound {q : List Instr} (s : State) (g : Nat) (c : Core)
    (hq : State.Sound s q) :
    State.Sound (State.setCore s g c) q := by
  unfold State.setCore
  repeat' first
    | (with_reducible first
      | assumption | fail_if_no_progress apply sound_with | intro _)
    | split | dsimp only

theorem State.pendSource_sound {q : List Instr} (s : State) (g : Nat) (src : Nat)
    (hq : State.Sound s q) :
    State.Sound (State.pendSource s g src) q := by
  unfold State.pendSource
  repeat' first
    | (with_reducible first
      | assumption | apply State.setFld_sound | intro _)
    | split | dsimp only

theorem State.endWait_sound {q : List Instr} (s : State) (g : Nat)
    (hq : State.Sound s q) :
    State.Sound (State.endWait s g) q := by
  unfold State.endWait
  repeat' first
    | (with_reducible first
      | assumption | apply State.setCore_sound | apply sound_ite | apply sound_ite_snd | fail_if_no_progress apply sound_with
      | intro _)
    | split | dsimp only

theorem State.addCycles_sound {q : List Instr} (s : State) (g : Nat) (n : Nat)
    (hq : State.Sound s q) :
    State.Sound (State.addCycles s g n) q := by
  unfold State.addCycles
  repeat' first
    | (with_reducible first
      | assumption | apply State.setFld_sound | apply State.bump_sound | apply State.pendSource_sound
      | apply State.endWait_sound | apply sound_ite | apply sound_ite_snd | fail_if_no_progress apply sound_with | intro _)
    | split | dsimp only

theorem State.raiseSource_sound {q : List Instr} (s : State) (g : Nat) (src : Nat)
    (hq : State.Sound s q) :
    State.Sound (State.raiseSource s g src) q := by
  unfold State.raiseSource
  repeat' first
    | (with_reducible first
      | assumption | apply State.fresh_sound | apply State.pendSource_sound | apply State.endWait_sound
      | apply State.addCycles_sound | apply sound_ite | apply sound_ite_snd | fail_if_no_progress apply sound_with | intro _)
    | split | dsimp only

theorem State.raiseMask_sound {q : List Instr} (s : State) (cl : Nat) (src : Nat) (mask : Nat)
    (hq : State.Sound s q) :
    State.Sound (State.raiseMask s cl src mask) q := by
  unfold State.raiseMask
  repeat' first
    | (with_reducible first
      | assumption | apply State.raiseSource_sound | apply foldl_sound | apply foldl_snd_sound | apply sound_ite
      | apply sound_ite_snd | intro _)
    | split | dsimp only

theorem State.dmaCtrlWrite_sound {q : List Instr} (s : State) (g : Nat) (i : Nat) (v : Nat)
    (hq : State.Sound s q) :
    State.Sound (State.dmaCtrlWrite s g i v) q := by
  unfold State.dmaCtrlWrite
  repeat' first
    | (with_reducible first
      | assumption | apply State.setFld_sound | apply State.setCore_sound | apply sound_ite | apply sound_ite_snd
      | fail_if_no_progress apply sound_with | intro _)
    | split | dsimp only

theorem State.ccrWrite_sound {q : List Instr} (s : State) (g : Nat) (i : Nat) (v : Nat)
    (hq : State.Sound s q) :
    State.Sound (State.ccrWrite s g i v) q := by
  unfold State.ccrWrite
  repeat' first
    | (with_reducible first
      | assumption | apply State.setFld_sound | apply State.raise_sound | apply State.raiseSource_sound
      | apply State.raiseMask_sound | apply State.dmaCtrlWrite_sound | apply foldl_sound | apply foldl_snd_sound
      | apply sound_ite | apply sound_ite_snd | fail_if_no_progress apply sound_with | intro _
      | refine pair_sound (by assumption) ?_ | refine opt_elim (by assumption) ?_ | refine optP_elim (by assumption) ?_
      | refine optP_elim' (by assumption) ?_ | refine exc_elim (by assumption) ?_)
    | split | dsimp only

theorem State.landOne_sound {q : List Instr} (s : State) (g : Nat) (p : PWrite)
    (hq : State.Sound s q) :
    State.Sound (State.landOne s g p) q := by
  unfold State.landOne
  repeat' first
    | (with_reducible first
      | assumption | apply State.setCore_sound | apply State.ccrWrite_sound | apply sound_ite | apply sound_ite_snd
      | fail_if_no_progress apply sound_with | intro _)
    | split | dsimp only

theorem State.age_sound {q : List Instr} (s : State) (g : Nat)
    (hq : State.Sound s q) :
    State.Sound (State.age s g) q := by
  unfold State.age
  repeat' first
    | (with_reducible first
      | assumption | apply State.setCore_sound | apply State.landOne_sound | apply foldl_sound | apply foldl_snd_sound
      | fail_if_no_progress apply sound_with | intro _)
    | split | dsimp only

theorem State.drain_sound {q : List Instr} (s : State) (g : Nat)
    (hq : State.Sound s q) :
    State.Sound (State.drain s g) q := by
  unfold State.drain
  repeat' first
    | (with_reducible first
      | assumption | apply State.setCore_sound | apply State.landOne_sound | apply foldl_sound | apply foldl_snd_sound
      | fail_if_no_progress apply sound_with | intro _)
    | split | dsimp only

theorem State.gateFault_sound {q : List Instr} (s : State) (g : Nat) (cause : Nat) (b : Nat)
    (hq : State.Sound s q) :
    State.Sound (State.gateFault s g cause b) q := by
  unfold State.gateFault
  repeat' first
    | (with_reducible first
      | assumption | apply State.setFld_sound | apply State.bump_sound | apply State.raise_sound | apply State.raiseSource_sound
      | fail_if_no_progress apply sound_with | intro _)
    | split | dsimp only

theorem State.setData_sound {q : List Instr} (s : State) (g : Nat) (w : Nat) (v : Nat)
    (hq : State.Sound s q) :
    State.Sound (State.setData s g w v) q := by
  unfold State.setData
  repeat' first
    | (with_reducible first
      | assumption | fail_if_no_progress apply sound_with | intro _)
    | split | dsimp only

theorem State.putData_sound {q : List Instr} (s : State) (g : Nat) (w : Nat) (vs : List Nat) (hq : State.Sound s q) :
    State.Sound (State.putData s g w vs) q := by
  induction vs generalizing s w with
  | nil => exact hq
  | cons v vs ih => exact ih _ _ (State.setData_sound _ _ _ _ hq)

theorem State.loadLocal_sound {q : List Instr} (s : State) (g : Nat) (w : Nat)
    (hq : State.Sound s q) :
    State.Sound (State.loadLocal s g w).2 q := by
  unfold State.loadLocal
  repeat' first
    | (with_reducible first
      | assumption | apply State.fresh_sound | apply sound_ite | apply sound_ite_snd | fail_if_no_progress apply sound_with
      | intro _ | apply optS_getD | refine pair_sound (by assumption) ?_ | refine opt_elim (by assumption) ?_
      | refine optP_elim (by assumption) ?_ | refine optP_elim' (by assumption) ?_ | refine exc_elim (by assumption) ?_)
    | split | dsimp only

theorem State.storeWord_sound {q : List Instr} (s : State) (g : Nat) (a : DataAddr) (v : Nat)
    (hq : State.Sound s q) :
    State.Sound (State.storeWord s g a v) q := by
  unfold State.storeWord
  repeat' first
    | (with_reducible first
      | assumption | apply State.putShared_sound | apply State.setData_sound | fail_if_no_progress apply sound_with | intro _
      | refine pair_sound (by assumption) ?_ | refine opt_elim (by assumption) ?_ | refine optP_elim (by assumption) ?_
      | refine optP_elim' (by assumption) ?_ | refine exc_elim (by assumption) ?_)
    | split | dsimp only

theorem State.takeSlow_sound {q : List Instr} (s : State) (g : Nat) (l : Nat × Nat × Option Nat)
    (hq : State.Sound s q) :
    State.Sound (State.takeSlow s g l) q := by
  unfold State.takeSlow
  repeat' first
    | (with_reducible first
      | assumption | apply State.setCore_sound | apply sound_ite | apply sound_ite_snd | fail_if_no_progress apply sound_with
      | intro _ | refine pair_sound (by assumption) ?_ | refine opt_elim (by assumption) ?_
      | refine optP_elim (by assumption) ?_ | refine optP_elim' (by assumption) ?_ | refine exc_elim (by assumption) ?_)
    | split | dsimp only

theorem State.leaveTask_sound {q : List Instr} (s : State) (g : Nat) (dropPosted : Bool)
    (hq : State.Sound s q) :
    State.Sound (State.leaveTask s g dropPosted) q := by
  unfold State.leaveTask
  repeat' first
    | (with_reducible first
      | assumption | apply State.setCore_sound | apply State.drain_sound | apply State.takeSlow_sound | apply foldl_sound
      | apply foldl_snd_sound | apply sound_ite | apply sound_ite_snd | fail_if_no_progress apply sound_with | intro _)
    | split | dsimp only

theorem State.setTaskHist_sound {q : List Instr} (s : State) (task : Nat) (old : Bool) (cause : Nat) (gap : Bool)
    (hq : State.Sound s q) :
    State.Sound (State.setTaskHist s task old cause gap) q := by
  unfold State.setTaskHist
  repeat' first
    | (with_reducible first
      | assumption | fail_if_no_progress apply sound_with | intro _)
    | split | dsimp only

theorem State.stopTask_sound {q : List Instr} (s : State) (g : Nat) (cause : Nat)
    (hq : State.Sound s q) :
    State.Sound (State.stopTask s g cause) q := by
  unfold State.stopTask
  repeat' first
    | (with_reducible first
      | assumption | apply State.overrunTask_sound | apply State.leaveTask_sound | apply State.setTaskHist_sound
      | fail_if_no_progress apply sound_with | intro _ | refine pair_sound (by assumption) ?_
      | refine opt_elim (by assumption) ?_ | refine optP_elim (by assumption) ?_ | refine optP_elim' (by assumption) ?_
      | refine exc_elim (by assumption) ?_)
    | split | dsimp only

theorem State.malException_sound {q : List Instr} (s : State) (g : Nat) (cause : Nat)
    (hq : State.Sound s q) :
    State.Sound (State.malException s g cause) q := by
  unfold State.malException
  repeat' first
    | (with_reducible first
      | assumption | apply State.setFld_sound | apply State.bump_sound | apply State.raise_sound | apply State.stopTask_sound
      | fail_if_no_progress apply sound_with | intro _)
    | split | dsimp only

theorem State.finishTask_sound {q : List Instr} (s : State) (g : Nat)
    (hq : State.Sound s q) :
    State.Sound (State.finishTask s g) q := by
  unfold State.finishTask
  repeat' first
    | (with_reducible first
      | assumption | apply State.writeBus_sound | apply State.inVersion_sound | apply State.markEnded_sound
      | apply State.gateFault_sound | apply State.leaveTask_sound | apply State.setTaskHist_sound | apply foldl_sound
      | apply foldl_snd_sound | fail_if_no_progress apply sound_with | intro _ | refine pair_sound (by assumption) ?_
      | refine opt_elim (by assumption) ?_ | refine optP_elim (by assumption) ?_ | refine optP_elim' (by assumption) ?_
      | refine exc_elim (by assumption) ?_)
    | split | dsimp only

theorem State.tryFinish_sound {q : List Instr} (s : State) (g : Nat)
    (hq : State.Sound s q) :
    State.Sound (State.tryFinish s g) q := by
  unfold State.tryFinish
  repeat' first
    | (with_reducible first
      | assumption | apply State.setCore_sound | apply State.finishTask_sound | apply sound_ite | apply sound_ite_snd
      | fail_if_no_progress apply sound_with | intro _)
    | split | dsimp only

end Sys2Proof.Machine
end

