-- ==== Sys2Proof/Laws/KeepsMallet.lean ====
section
/-! SUPPORT. What the operations of Machine/Mallet.lean keep: one lemma each. -/

set_option linter.unusedTactic false
set_option linter.unreachableTactic false

namespace Sys2Proof.Machine

theorem State.openLoop_sound {q : List Instr} (s : State) (g : Nat) (len : Nat) (count : Nat) (la : Nat)
    (hq : State.Sound s q) :
    ExcSound q (State.openLoop s g len count la) := by
  unfold State.openLoop
  repeat' first
    | (with_reducible first
      | assumption | apply State.setCore_sound | apply sound_ite | apply sound_ite_snd | apply exc_ite | apply exc_error
      | apply exc_ok | fail_if_no_progress apply sound_with | intro _)
    | split | dsimp only

theorem State.callTo_sound {q : List Instr} (s : State) (g : Nat) (cc : Nat) (t : Nat)
    (hq : State.Sound s q) :
    ExcSound q (State.callTo s g cc t) := by
  unfold State.callTo
  repeat' first
    | (with_reducible first
      | assumption | apply State.setCore_sound | apply sound_ite | apply sound_ite_snd | apply exc_ite | apply exc_error
      | apply exc_ok | fail_if_no_progress apply sound_with | intro _)
    | split | dsimp only

theorem State.postBus_sound {q : List Instr} (s : State) (g : Nat) (kind : Nat) (p : Nat) (rb : Bool) (pm : Nat) (bus : Nat)
    (hq : State.Sound s q) :
    ExcSound q (State.postBus s g kind p rb pm bus) := by
  unfold State.postBus
  repeat' first
    | (with_reducible first
      | assumption | apply State.setCore_sound | apply State.gateFault_sound | apply sound_ite | apply sound_ite_snd
      | apply exc_ite | apply exc_error | apply exc_ok | fail_if_no_progress apply sound_with | intro _
      | refine pair_sound (by assumption) ?_ | refine opt_elim (by assumption) ?_ | refine optP_elim (by assumption) ?_
      | refine optP_elim' (by assumption) ?_ | refine exc_elim (by assumption) ?_)
    | split | dsimp only

theorem State.doLoads_sound {q : List Instr} (s : State) (g : Nat) (ds : List (Slot × DataAddr)) (hq : State.Sound s q) :
    State.Sound (State.doLoads s g ds) q := by
  induction ds generalizing s with
  | nil => exact hq
  | cons d ds ih =>
    obtain ⟨sl, a⟩ := d
    unfold State.doLoads; split
    · exact ih _ hq
    · split
      · exact ih _ (State.setCore_sound _ _ _ (State.loadLocal_sound _ _ _ hq))
      · exact ih _ (State.setCore_sound _ _ _ hq)
      · exact ih _ hq

theorem State.doStores_sound {q : List Instr} (s : State) (g : Nat) (c0 : Core) (ds : List (Slot × DataAddr))
    (hq : State.Sound s q) : State.Sound (State.doStores s g c0 ds) q := by
  induction ds generalizing s with
  | nil => exact hq
  | cons d ds ih =>
    obtain ⟨sl, a⟩ := d
    unfold State.doStores; split
    · exact ih _ (State.setCore_sound _ _ _ (State.storeWord_sound _ _ _ _ hq))
    · exact ih _ hq

theorem State.holdOld_sound {q : List Instr} (s : State) (g : Nat) (ds : List (Slot × DataAddr))
    (hq : State.Sound s q) :
    State.Sound (State.holdOld s g ds) q := by
  unfold State.holdOld
  repeat' first
    | (with_reducible first
      | assumption | apply State.setCore_sound | apply sound_ite | apply sound_ite_snd | fail_if_no_progress apply sound_with
      | intro _ | refine pair_sound (by assumption) ?_ | refine opt_elim (by assumption) ?_
      | refine optP_elim (by assumption) ?_ | refine optP_elim' (by assumption) ?_ | refine exc_elim (by assumption) ?_)
    | split | dsimp only

theorem State.withSlots_sound {q : List Instr} (s : State) (g : Nat) (slots : List Slot) (op : Core → Core)
    (hq : State.Sound s q) :
    ExcSound q (State.withSlots s g slots op) := by
  unfold State.withSlots
  repeat' first
    | (with_reducible first
      | assumption | apply State.setCore_sound | apply State.doLoads_sound | apply State.doStores_sound
      | apply State.holdOld_sound | apply sound_ite | apply sound_ite_snd | apply exc_ite | apply exc_error | apply exc_ok
      | fail_if_no_progress apply sound_with | intro _ | refine pair_sound (by assumption) ?_
      | refine opt_elim (by assumption) ?_ | refine optP_elim (by assumption) ?_ | refine optP_elim' (by assumption) ?_
      | refine exc_elim (by assumption) ?_)
    | split | dsimp only

theorem State.runBundle_sound {q : List Instr} (s : State) (g : Nat) (b : Bundle)
    (hq : State.Sound s q) :
    ExcSound q (State.runBundle s g b) := by
  unfold State.runBundle
  repeat' first
    | (with_reducible first
      | assumption | apply State.setCore_sound | apply State.openLoop_sound | apply State.callTo_sound
      | apply State.postBus_sound | apply State.withSlots_sound | apply sound_ite | apply sound_ite_snd | apply exc_ite
      | apply exc_error | apply exc_ok | fail_if_no_progress apply sound_with | intro _ | refine pair_sound (by assumption) ?_
      | refine opt_elim (by assumption) ?_ | refine optP_elim (by assumption) ?_ | refine optP_elim' (by assumption) ?_
      | refine exc_elim (by assumption) ?_)
    | split | dsimp only

theorem State.afterSlots_sound {q : List Instr} (s : State) (g : Nat) (a : AfterSlots)
    (hq : State.Sound s q) :
    State.Sound (State.afterSlots s g a) q := by
  unfold State.afterSlots
  repeat' first
    | (with_reducible first
      | assumption | apply State.setCore_sound | apply State.tryFinish_sound | fail_if_no_progress apply sound_with | intro _
      | refine pair_sound (by assumption) ?_ | refine opt_elim (by assumption) ?_ | refine optP_elim (by assumption) ?_
      | refine optP_elim' (by assumption) ?_ | refine exc_elim (by assumption) ?_)
    | split | dsimp only

theorem State.resume_sound {q : List Instr} (s : State) (g : Nat)
    (hq : State.Sound s q) :
    State.Sound (State.resume s g) q := by
  unfold State.resume
  repeat' first
    | (with_reducible first
      | assumption | apply State.setCore_sound | apply State.afterSlots_sound | apply sound_ite | apply sound_ite_snd
      | fail_if_no_progress apply sound_with | intro _)
    | split | dsimp only

theorem State.afterIssue_sound {q : List Instr} (s : State) (g : Nat) (pc : Nat) (len : Nat) (slots0 : Nat) (rpt0 : Nat) (a0 : AfterSlots)
    (hq : State.Sound s q) :
    State.Sound (State.afterIssue s g pc len slots0 rpt0 a0) q := by
  unfold State.afterIssue
  repeat' first
    | (with_reducible first
      | assumption | apply State.setCore_sound | apply State.resume_sound | apply sound_ite | apply sound_ite_snd
      | fail_if_no_progress apply sound_with | intro _)
    | split | dsimp only

theorem State.malIssue_sound {q : List Instr} (s : State) (g : Nat) (kind : MalKind)
    (hq : State.Sound s q) :
    State.Sound (State.malIssue s g kind) q := by
  unfold State.malIssue
  repeat' first
    | (with_reducible first
      | assumption | apply State.setCore_sound | apply State.addCycles_sound | apply State.age_sound
      | apply State.malException_sound | apply State.runBundle_sound | apply State.afterIssue_sound | apply sound_ite
      | apply sound_ite_snd | fail_if_no_progress apply sound_with | intro _ | refine pair_sound (by assumption) ?_
      | refine opt_elim (by assumption) ?_ | refine optP_elim (by assumption) ?_ | refine optP_elim' (by assumption) ?_
      | refine exc_elim (by assumption) ?_)
    | split | dsimp only

theorem State.malStart_sound {q : List Instr} (s : State) (g : Nat) (cf : Cfg) (r : TaskRec) (old : Bool) (k : Nat)
    (hq : State.Sound s q) :
    State.Sound (State.malStart s g cf r old k) q := by
  unfold State.malStart
  repeat' first
    | (with_reducible first
      | assumption | apply State.setFld_sound | apply State.setCore_sound | fail_if_no_progress apply sound_with | intro _
      | refine pair_sound (by assumption) ?_ | refine opt_elim (by assumption) ?_ | refine optP_elim (by assumption) ?_
      | refine optP_elim' (by assumption) ?_ | refine exc_elim (by assumption) ?_)
    | split | dsimp only

theorem State.busComplete_sound {q : List Instr} (s : State) (g : Nat) (cycles : Nat)
    (hq : State.Sound s q) :
    State.Sound (State.busComplete s g cycles) q := by
  unfold State.busComplete
  repeat' first
    | (with_reducible first
      | assumption | apply State.writeBus_sound | apply State.inVersion_sound | apply State.setCore_sound
      | apply State.addCycles_sound | apply State.putData_sound | apply State.finishTask_sound | apply State.resume_sound
      | apply sound_ite | apply sound_ite_snd | fail_if_no_progress apply sound_with | intro _
      | refine pair_sound (by assumption) ?_ | refine opt_elim (by assumption) ?_ | refine optP_elim (by assumption) ?_
      | refine optP_elim' (by assumption) ?_ | refine exc_elim (by assumption) ?_)
    | split | dsimp only

theorem State.slowDone_sound {q : List Instr} (s : State) (g : Nat) (cycles : Nat)
    (hq : State.Sound s q) :
    State.Sound (State.slowDone s g cycles) q := by
  unfold State.slowDone
  repeat' first
    | (with_reducible first
      | assumption | apply State.setCore_sound | apply State.addCycles_sound | apply State.takeSlow_sound
      | apply State.resume_sound | apply sound_ite | apply sound_ite_snd | fail_if_no_progress apply sound_with | intro _
      | refine pair_sound (by assumption) ?_ | refine opt_elim (by assumption) ?_ | refine optP_elim (by assumption) ?_
      | refine optP_elim' (by assumption) ?_ | refine exc_elim (by assumption) ?_)
    | split | dsimp only

theorem State.takeSource_sound {q : List Instr} (s : State) (g : Nat) (src : Nat)
    (hq : State.Sound s q) :
    State.Sound (State.takeSource s g src) q := by
  unfold State.takeSource
  repeat' first
    | (with_reducible first
      | assumption | apply State.setFld_sound | intro _)
    | split | dsimp only

theorem State.fastAccept_sound {q : List Instr} (s : State) (g : Nat)
    (hq : State.Sound s q) :
    State.Sound (State.fastAccept s g) q := by
  unfold State.fastAccept
  repeat' first
    | (with_reducible first
      | assumption | apply State.setFld_sound | apply State.setCore_sound | apply State.addCycles_sound
      | apply State.drain_sound | apply State.takeSource_sound | fail_if_no_progress apply sound_with | intro _
      | refine pair_sound (by assumption) ?_ | refine opt_elim (by assumption) ?_ | refine optP_elim (by assumption) ?_
      | refine optP_elim' (by assumption) ?_ | refine exc_elim (by assumption) ?_)
    | split | dsimp only

theorem State.normalAccept_sound {q : List Instr} (s : State) (g : Nat)
    (hq : State.Sound s q) :
    State.Sound (State.normalAccept s g) q := by
  unfold State.normalAccept
  repeat' first
    | (with_reducible first
      | assumption | apply State.setCore_sound | apply State.addCycles_sound | apply State.drain_sound
      | apply State.malException_sound | apply State.takeSource_sound | apply sound_ite | apply sound_ite_snd
      | fail_if_no_progress apply sound_with | intro _ | refine pair_sound (by assumption) ?_
      | refine opt_elim (by assumption) ?_ | refine optP_elim (by assumption) ?_ | refine optP_elim' (by assumption) ?_
      | refine exc_elim (by assumption) ?_)
    | split | dsimp only

theorem State.timerExpiry_sound {q : List Instr} (s : State) (g : Nat)
    (hq : State.Sound s q) :
    State.Sound (State.timerExpiry s g) q := by
  unfold State.timerExpiry
  repeat' first
    | (with_reducible first
      | assumption | apply State.addCycles_sound | apply sound_ite | apply sound_ite_snd | fail_if_no_progress apply sound_with
      | intro _)
    | split | dsimp only

theorem State.costReached_sound {q : List Instr} (s : State) (g : Nat)
    (hq : State.Sound s q) :
    State.Sound (State.costReached s g) q := by
  unfold State.costReached
  repeat' first
    | (with_reducible first
      | assumption | apply State.addCycles_sound | apply State.stopTask_sound | apply sound_ite | apply sound_ite_snd | intro _)
    | split | dsimp only

theorem State.malRefuse_sound {q : List Instr} (s : State) (cl : Nat)
    (hq : State.Sound s q) :
    State.Sound (State.malRefuse s cl) q := by
  unfold State.malRefuse
  repeat' first
    | (with_reducible first
      | assumption | apply State.countAndRaise_sound | intro _)
    | split | dsimp only

theorem State.malDefer_sound {q : List Instr} (s : State) (cl : Nat)
    (hq : State.Sound s q) :
    State.Sound (State.malDefer s cl) q := by
  unfold State.malDefer
  repeat' first
    | (with_reducible first
      | assumption | apply State.countAndRaise_sound | intro _)
    | split | dsimp only

theorem State.putParams_sound {q : List Instr} (s : State) (g : Nat) (ws : List (Nat × Nat))
    (hq : State.Sound s q) :
    OptSound q (State.putParams s g ws) := by
  unfold State.putParams
  repeat' first
    | (with_reducible first
      | assumption | apply State.setData_sound | apply foldl_sound | apply foldl_snd_sound | apply sound_ite
      | apply sound_ite_snd | apply opt_ite | apply opt_none | apply opt_some | fail_if_no_progress apply sound_with | intro _)
    | split | dsimp only

theorem State.malApply_sound {q : List Instr} (s : State) (cl : Nat) (c : Cmd) (f : Fetch)
    (hq : State.Sound s q) :
    OptSoundP q (State.malApply s cl c f) := by
  unfold State.malApply
  repeat' first
    | (with_reducible first
      | assumption | apply State.malRefuse_sound | apply State.putParams_sound | apply sound_ite | apply sound_ite_snd
      | apply optP_ite | apply optP_none | apply optP_some | apply optP_map | fail_if_no_progress apply sound_with | intro _
      | refine pair_sound (by assumption) ?_ | refine opt_elim (by assumption) ?_ | refine optP_elim (by assumption) ?_
      | refine optP_elim' (by assumption) ?_ | refine exc_elim (by assumption) ?_)
    | split | dsimp only

theorem State.malBoundary_sound {q : List Instr} (s : State) (cl : Nat)
    (hq : State.Sound s q) :
    State.Sound (State.malBoundary s cl) q := by
  unfold State.malBoundary
  repeat' first
    | (with_reducible first
      | assumption | fail_if_no_progress apply sound_with | intro _)
    | split | dsimp only

theorem State.dataWindowWrite_sound {q : List Instr} (s : State) (cl : Nat) (w : Nat) (v : Word)
    (hq : State.Sound s q) :
    State.Sound (State.dataWindowWrite s cl w v).2 q := by
  unfold State.dataWindowWrite
  repeat' first
    | (with_reducible first
      | assumption | apply State.hold_sound | apply State.putShared_sound | apply State.malRefuse_sound | apply sound_ite
      | apply sound_ite_snd | fail_if_no_progress apply sound_with | intro _ | refine pair_sound (by assumption) ?_
      | refine opt_elim (by assumption) ?_ | refine optP_elim (by assumption) ?_ | refine optP_elim' (by assumption) ?_
      | refine exc_elim (by assumption) ?_)
    | split | dsimp only

theorem State.mboxInWrite_sound {q : List Instr} (s : State) (g : Nat) (v : Word)
    (hq : State.Sound s q) :
    State.Sound (State.mboxInWrite s g v) q := by
  unfold State.mboxInWrite
  repeat' first
    | (with_reducible first
      | assumption | apply State.setFld_sound | apply State.raiseSource_sound | intro _)
    | split | dsimp only

theorem State.mboxOutRead_sound {q : List Instr} (s : State) (g : Nat)
    (hq : State.Sound s q) :
    State.Sound (State.mboxOutRead s g).2 q := by
  unfold State.mboxOutRead
  repeat' first
    | (with_reducible first
      | assumption | apply State.setFld_sound | fail_if_no_progress apply sound_with | intro _)
    | split | dsimp only

theorem State.malCommand_sound {q : List Instr} (s : State) (cl : Nat) (c : Cmd)
    (hq : State.Sound s q) :
    State.Sound (State.malCommand s cl c) q := by
  unfold State.malCommand
  repeat' first
    | (with_reducible first
      | assumption | apply State.hold_sound | apply State.holdLate_sound | apply State.malDefer_sound
      | apply State.malApply_sound | apply sound_ite | apply sound_ite_snd | fail_if_no_progress apply sound_with | intro _
      | refine pair_sound (by assumption) ?_ | refine opt_elim (by assumption) ?_ | refine optP_elim (by assumption) ?_
      | refine optP_elim' (by assumption) ?_ | refine exc_elim (by assumption) ?_)
    | split | dsimp only

theorem execNop_sound {q : List Instr} (core : Nat) (s : State)
    (hq : State.Sound s q) :
    NextSound q (execNop core s) := by
  unfold execNop
  repeat' first
    | (with_reducible first
      | assumption | apply State.malIssue_sound | apply next_sound | intro _)
    | split | dsimp only

theorem execBra_sound {q : List Instr} (core : Nat) (s : State)
    (hq : State.Sound s q) :
    NextSound q (execBra core s) := by
  unfold execBra
  repeat' first
    | (with_reducible first
      | assumption | apply State.malIssue_sound | apply next_sound | intro _)
    | split | dsimp only

theorem execCall_sound {q : List Instr} (core : Nat) (s : State)
    (hq : State.Sound s q) :
    NextSound q (execCall core s) := by
  unfold execCall
  repeat' first
    | (with_reducible first
      | assumption | apply State.malIssue_sound | apply next_sound | intro _)
    | split | dsimp only

theorem execRet_sound {q : List Instr} (core : Nat) (s : State)
    (hq : State.Sound s q) :
    NextSound q (execRet core s) := by
  unfold execRet
  repeat' first
    | (with_reducible first
      | assumption | apply State.malIssue_sound | apply next_sound | intro _)
    | split | dsimp only

theorem execJmp_sound {q : List Instr} (core : Nat) (s : State)
    (hq : State.Sound s q) :
    NextSound q (execJmp core s) := by
  unfold execJmp
  repeat' first
    | (with_reducible first
      | assumption | apply State.malIssue_sound | apply next_sound | intro _)
    | split | dsimp only

theorem execCallr_sound {q : List Instr} (core : Nat) (s : State)
    (hq : State.Sound s q) :
    NextSound q (execCallr core s) := by
  unfold execCallr
  repeat' first
    | (with_reducible first
      | assumption | apply State.malIssue_sound | apply next_sound | intro _)
    | split | dsimp only

theorem execRtif_sound {q : List Instr} (core : Nat) (s : State)
    (hq : State.Sound s q) :
    NextSound q (execRtif core s) := by
  unfold execRtif
  repeat' first
    | (with_reducible first
      | assumption | apply State.malIssue_sound | apply next_sound | intro _)
    | split | dsimp only

theorem execRtin_sound {q : List Instr} (core : Nat) (s : State)
    (hq : State.Sound s q) :
    NextSound q (execRtin core s) := by
  unfold execRtin
  repeat' first
    | (with_reducible first
      | assumption | apply State.malIssue_sound | apply next_sound | intro _)
    | split | dsimp only

theorem execTend_sound {q : List Instr} (core : Nat) (s : State)
    (hq : State.Sound s q) :
    NextSound q (execTend core s) := by
  unfold execTend
  repeat' first
    | (with_reducible first
      | assumption | apply State.malIssue_sound | apply next_sound | intro _)
    | split | dsimp only

theorem execLoopi_sound {q : List Instr} (core : Nat) (s : State)
    (hq : State.Sound s q) :
    NextSound q (execLoopi core s) := by
  unfold execLoopi
  repeat' first
    | (with_reducible first
      | assumption | apply State.malIssue_sound | apply next_sound | intro _)
    | split | dsimp only

theorem execLoopr_sound {q : List Instr} (core : Nat) (s : State)
    (hq : State.Sound s q) :
    NextSound q (execLoopr core s) := by
  unfold execLoopr
  repeat' first
    | (with_reducible first
      | assumption | apply State.malIssue_sound | apply next_sound | intro _)
    | split | dsimp only

theorem execLoopl_sound {q : List Instr} (core : Nat) (s : State)
    (hq : State.Sound s q) :
    NextSound q (execLoopl core s) := by
  unfold execLoopl
  repeat' first
    | (with_reducible first
      | assumption | apply State.malIssue_sound | apply next_sound | intro _)
    | split | dsimp only

theorem execLoopClose_sound {q : List Instr} (core : Nat) (s : State)
    (hq : State.Sound s q) :
    NextSound q (execLoopClose core s) := by
  unfold execLoopClose
  repeat' first
    | (with_reducible first
      | assumption | apply State.setCore_sound | apply sound_ite | apply sound_ite_snd | apply next_sound | apply next_ite
      | fail_if_no_progress apply sound_with | intro _)
    | split | dsimp only

theorem execLeave_sound {q : List Instr} (core : Nat) (s : State)
    (hq : State.Sound s q) :
    NextSound q (execLeave core s) := by
  unfold execLeave
  repeat' first
    | (with_reducible first
      | assumption | apply State.malIssue_sound | apply next_sound | intro _)
    | split | dsimp only

theorem execRpti_sound {q : List Instr} (core : Nat) (s : State)
    (hq : State.Sound s q) :
    NextSound q (execRpti core s) := by
  unfold execRpti
  repeat' first
    | (with_reducible first
      | assumption | apply State.malIssue_sound | apply next_sound | intro _)
    | split | dsimp only

theorem execRptr_sound {q : List Instr} (core : Nat) (s : State)
    (hq : State.Sound s q) :
    NextSound q (execRptr core s) := by
  unfold execRptr
  repeat' first
    | (with_reducible first
      | assumption | apply State.malIssue_sound | apply next_sound | intro _)
    | split | dsimp only

theorem execBsync_sound {q : List Instr} (core : Nat) (s : State)
    (hq : State.Sound s q) :
    NextSound q (execBsync core s) := by
  unfold execBsync
  repeat' first
    | (with_reducible first
      | assumption | apply State.malIssue_sound | apply next_sound | intro _)
    | split | dsimp only

theorem execWait_sound {q : List Instr} (core : Nat) (s : State)
    (hq : State.Sound s q) :
    NextSound q (execWait core s) := by
  unfold execWait
  repeat' first
    | (with_reducible first
      | assumption | apply State.malIssue_sound | apply next_sound | intro _)
    | split | dsimp only

theorem execBin_sound {q : List Instr} (core : Nat) (s : State)
    (hq : State.Sound s q) :
    NextSound q (execBin core s) := by
  unfold execBin
  repeat' first
    | (with_reducible first
      | assumption | apply State.malIssue_sound | apply next_sound | intro _)
    | split | dsimp only

theorem execBinp_sound {q : List Instr} (core : Nat) (s : State)
    (hq : State.Sound s q) :
    NextSound q (execBinp core s) := by
  unfold execBinp
  repeat' first
    | (with_reducible first
      | assumption | apply State.malIssue_sound | apply next_sound | intro _)
    | split | dsimp only

theorem execBout_sound {q : List Instr} (core : Nat) (s : State)
    (hq : State.Sound s q) :
    NextSound q (execBout core s) := by
  unfold execBout
  repeat' first
    | (with_reducible first
      | assumption | apply State.malIssue_sound | apply next_sound | intro _)
    | split | dsimp only

theorem execBusTransferComplete_sound {q : List Instr} (core : Nat) (cycles : Nat) (s : State)
    (hq : State.Sound s q) :
    NextSound q (execBusTransferComplete core cycles s) := by
  unfold execBusTransferComplete
  repeat' first
    | (with_reducible first
      | assumption | apply State.busComplete_sound | apply next_sound | intro _)
    | split | dsimp only

theorem execMla2_sound {q : List Instr} (core : Nat) (s : State)
    (hq : State.Sound s q) :
    NextSound q (execMla2 core s) := by
  unfold execMla2
  repeat' first
    | (with_reducible first
      | assumption | apply State.malIssue_sound | apply next_sound | intro _)
    | split | dsimp only

theorem execMlas_sound {q : List Instr} (core : Nat) (s : State)
    (hq : State.Sound s q) :
    NextSound q (execMlas core s) := by
  unfold execMlas
  repeat' first
    | (with_reducible first
      | assumption | apply State.malIssue_sound | apply next_sound | intro _)
    | split | dsimp only

theorem execMul2_sound {q : List Instr} (core : Nat) (s : State)
    (hq : State.Sound s q) :
    NextSound q (execMul2 core s) := by
  unfold execMul2
  repeat' first
    | (with_reducible first
      | assumption | apply State.malIssue_sound | apply next_sound | intro _)
    | split | dsimp only

theorem execMls2_sound {q : List Instr} (core : Nat) (s : State)
    (hq : State.Sound s q) :
    NextSound q (execMls2 core s) := by
  unfold execMls2
  repeat' first
    | (with_reducible first
      | assumption | apply State.malIssue_sound | apply next_sound | intro _)
    | split | dsimp only

theorem execAluNop_sound {q : List Instr} (core : Nat) (s : State)
    (hq : State.Sound s q) :
    NextSound q (execAluNop core s) := by
  unfold execAluNop
  repeat' first
    | (with_reducible first
      | assumption | apply State.malIssue_sound | apply next_sound | intro _)
    | split | dsimp only

theorem execZero_sound {q : List Instr} (core : Nat) (s : State)
    (hq : State.Sound s q) :
    NextSound q (execZero core s) := by
  unfold execZero
  repeat' first
    | (with_reducible first
      | assumption | apply State.malIssue_sound | apply next_sound | intro _)
    | split | dsimp only

theorem execCopy_sound {q : List Instr} (core : Nat) (s : State)
    (hq : State.Sound s q) :
    NextSound q (execCopy core s) := by
  unfold execCopy
  repeat' first
    | (with_reducible first
      | assumption | apply State.malIssue_sound | apply next_sound | intro _)
    | split | dsimp only

theorem execAdds_sound {q : List Instr} (core : Nat) (s : State)
    (hq : State.Sound s q) :
    NextSound q (execAdds core s) := by
  unfold execAdds
  repeat' first
    | (with_reducible first
      | assumption | apply State.malIssue_sound | apply next_sound | intro _)
    | split | dsimp only

theorem execSubs_sound {q : List Instr} (core : Nat) (s : State)
    (hq : State.Sound s q) :
    NextSound q (execSubs core s) := by
  unfold execSubs
  repeat' first
    | (with_reducible first
      | assumption | apply State.malIssue_sound | apply next_sound | intro _)
    | split | dsimp only

theorem execNegt_sound {q : List Instr} (core : Nat) (s : State)
    (hq : State.Sound s q) :
    NextSound q (execNegt core s) := by
  unfold execNegt
  repeat' first
    | (with_reducible first
      | assumption | apply State.malIssue_sound | apply next_sound | intro _)
    | split | dsimp only

theorem execMagn_sound {q : List Instr} (core : Nat) (s : State)
    (hq : State.Sound s q) :
    NextSound q (execMagn core s) := by
  unfold execMagn
  repeat' first
    | (with_reducible first
      | assumption | apply State.malIssue_sound | apply next_sound | intro _)
    | split | dsimp only

theorem execShla_sound {q : List Instr} (core : Nat) (s : State)
    (hq : State.Sound s q) :
    NextSound q (execShla core s) := by
  unfold execShla
  repeat' first
    | (with_reducible first
      | assumption | apply State.malIssue_sound | apply next_sound | intro _)
    | split | dsimp only

theorem execShra_sound {q : List Instr} (core : Nat) (s : State)
    (hq : State.Sound s q) :
    NextSound q (execShra core s) := by
  unfold execShra
  repeat' first
    | (with_reducible first
      | assumption | apply State.malIssue_sound | apply next_sound | intro _)
    | split | dsimp only

theorem execRndh_sound {q : List Instr} (core : Nat) (s : State)
    (hq : State.Sound s q) :
    NextSound q (execRndh core s) := by
  unfold execRndh
  repeat' first
    | (with_reducible first
      | assumption | apply State.malIssue_sound | apply next_sound | intro _)
    | split | dsimp only

theorem execMaxs_sound {q : List Instr} (core : Nat) (s : State)
    (hq : State.Sound s q) :
    NextSound q (execMaxs core s) := by
  unfold execMaxs
  repeat' first
    | (with_reducible first
      | assumption | apply State.malIssue_sound | apply next_sound | intro _)
    | split | dsimp only

theorem execMins_sound {q : List Instr} (core : Nat) (s : State)
    (hq : State.Sound s q) :
    NextSound q (execMins core s) := by
  unfold execMins
  repeat' first
    | (with_reducible first
      | assumption | apply State.malIssue_sound | apply next_sound | intro _)
    | split | dsimp only

theorem execComp_sound {q : List Instr} (core : Nat) (s : State)
    (hq : State.Sound s q) :
    NextSound q (execComp core s) := by
  unfold execComp
  repeat' first
    | (with_reducible first
      | assumption | apply State.malIssue_sound | apply next_sound | intro _)
    | split | dsimp only

theorem execTest_sound {q : List Instr} (core : Nat) (s : State)
    (hq : State.Sound s q) :
    NextSound q (execTest core s) := by
  unfold execTest
  repeat' first
    | (with_reducible first
      | assumption | apply State.malIssue_sound | apply next_sound | intro _)
    | split | dsimp only

theorem execAnd_sound {q : List Instr} (core : Nat) (s : State)
    (hq : State.Sound s q) :
    NextSound q (execAnd core s) := by
  unfold execAnd
  repeat' first
    | (with_reducible first
      | assumption | apply State.malIssue_sound | apply next_sound | intro _)
    | split | dsimp only

theorem execIor_sound {q : List Instr} (core : Nat) (s : State)
    (hq : State.Sound s q) :
    NextSound q (execIor core s) := by
  unfold execIor
  repeat' first
    | (with_reducible first
      | assumption | apply State.malIssue_sound | apply next_sound | intro _)
    | split | dsimp only

theorem execXor_sound {q : List Instr} (core : Nat) (s : State)
    (hq : State.Sound s q) :
    NextSound q (execXor core s) := by
  unfold execXor
  repeat' first
    | (with_reducible first
      | assumption | apply State.malIssue_sound | apply next_sound | intro _)
    | split | dsimp only

theorem execMul_sound {q : List Instr} (core : Nat) (s : State)
    (hq : State.Sound s q) :
    NextSound q (execMul core s) := by
  unfold execMul
  repeat' first
    | (with_reducible first
      | assumption | apply State.malIssue_sound | apply next_sound | intro _)
    | split | dsimp only

theorem execMula_sound {q : List Instr} (core : Nat) (s : State)
    (hq : State.Sound s q) :
    NextSound q (execMula core s) := by
  unfold execMula
  repeat' first
    | (with_reducible first
      | assumption | apply State.malIssue_sound | apply next_sound | intro _)
    | split | dsimp only

theorem execMuls_sound {q : List Instr} (core : Nat) (s : State)
    (hq : State.Sound s q) :
    NextSound q (execMuls core s) := by
  unfold execMuls
  repeat' first
    | (with_reducible first
      | assumption | apply State.malIssue_sound | apply next_sound | intro _)
    | split | dsimp only

theorem execLdi_sound {q : List Instr} (core : Nat) (s : State)
    (hq : State.Sound s q) :
    NextSound q (execLdi core s) := by
  unfold execLdi
  repeat' first
    | (with_reducible first
      | assumption | apply State.malIssue_sound | apply next_sound | intro _)
    | split | dsimp only

theorem execLdl_sound {q : List Instr} (core : Nat) (s : State)
    (hq : State.Sound s q) :
    NextSound q (execLdl core s) := by
  unfold execLdl
  repeat' first
    | (with_reducible first
      | assumption | apply State.malIssue_sound | apply next_sound | intro _)
    | split | dsimp only

theorem execMove_sound {q : List Instr} (core : Nat) (s : State)
    (hq : State.Sound s q) :
    NextSound q (execMove core s) := by
  unfold execMove
  repeat' first
    | (with_reducible first
      | assumption | apply State.malIssue_sound | apply next_sound | intro _)
    | split | dsimp only

theorem execAddp_sound {q : List Instr} (core : Nat) (s : State)
    (hq : State.Sound s q) :
    NextSound q (execAddp core s) := by
  unfold execAddp
  repeat' first
    | (with_reducible first
      | assumption | apply State.malIssue_sound | apply next_sound | intro _)
    | split | dsimp only

theorem execAddpl_sound {q : List Instr} (core : Nat) (s : State)
    (hq : State.Sound s q) :
    NextSound q (execAddpl core s) := by
  unfold execAddpl
  repeat' first
    | (with_reducible first
      | assumption | apply State.malIssue_sound | apply next_sound | intro _)
    | split | dsimp only

theorem execMovcFromCcr_sound {q : List Instr} (core : Nat) (s : State)
    (hq : State.Sound s q) :
    NextSound q (execMovcFromCcr core s) := by
  unfold execMovcFromCcr
  repeat' first
    | (with_reducible first
      | assumption | apply State.malIssue_sound | apply next_sound | intro _)
    | split | dsimp only

theorem execMovcToCcr_sound {q : List Instr} (core : Nat) (s : State)
    (hq : State.Sound s q) :
    NextSound q (execMovcToCcr core s) := by
  unfold execMovcToCcr
  repeat' first
    | (with_reducible first
      | assumption | apply State.malIssue_sound | apply next_sound | intro _)
    | split | dsimp only

theorem execLdr_sound {q : List Instr} (core : Nat) (s : State)
    (hq : State.Sound s q) :
    NextSound q (execLdr core s) := by
  unfold execLdr
  repeat' first
    | (with_reducible first
      | assumption | apply State.malIssue_sound | apply next_sound | intro _)
    | split | dsimp only

theorem execStr_sound {q : List Instr} (core : Nat) (s : State)
    (hq : State.Sound s q) :
    NextSound q (execStr core s) := by
  unfold execStr
  repeat' first
    | (with_reducible first
      | assumption | apply State.malIssue_sound | apply next_sound | intro _)
    | split | dsimp only

theorem execMov2_sound {q : List Instr} (core : Nat) (s : State)
    (hq : State.Sound s q) :
    NextSound q (execMov2 core s) := by
  unfold execMov2
  repeat' first
    | (with_reducible first
      | assumption | apply State.malIssue_sound | apply next_sound | intro _)
    | split | dsimp only

theorem execBfly_sound {q : List Instr} (core : Nat) (s : State)
    (hq : State.Sound s q) :
    NextSound q (execBfly core s) := by
  unfold execBfly
  repeat' first
    | (with_reducible first
      | assumption | apply State.malIssue_sound | apply next_sound | intro _)
    | split | dsimp only

theorem execBexp_sound {q : List Instr} (core : Nat) (s : State)
    (hq : State.Sound s q) :
    NextSound q (execBexp core s) := by
  unfold execBexp
  repeat' first
    | (with_reducible first
      | assumption | apply State.malIssue_sound | apply next_sound | intro _)
    | split | dsimp only

theorem execBscale_sound {q : List Instr} (core : Nat) (s : State)
    (hq : State.Sound s q) :
    NextSound q (execBscale core s) := by
  unfold execBscale
  repeat' first
    | (with_reducible first
      | assumption | apply State.malIssue_sound | apply next_sound | intro _)
    | split | dsimp only

theorem execBeclr_sound {q : List Instr} (core : Nat) (s : State)
    (hq : State.Sound s q) :
    NextSound q (execBeclr core s) := by
  unfold execBeclr
  repeat' first
    | (with_reducible first
      | assumption | apply State.malIssue_sound | apply next_sound | intro _)
    | split | dsimp only

theorem execSlowPathLoadDone_sound {q : List Instr} (core : Nat) (cycles : Nat) (s : State)
    (hq : State.Sound s q) :
    NextSound q (execSlowPathLoadDone core cycles s) := by
  unfold execSlowPathLoadDone
  repeat' first
    | (with_reducible first
      | assumption | apply State.slowDone_sound | apply next_sound | intro _)
    | split | dsimp only

theorem execFastAccept_sound {q : List Instr} (core : Nat) (s : State)
    (hq : State.Sound s q) :
    NextSound q (execFastAccept core s) := by
  unfold execFastAccept
  repeat' first
    | (with_reducible first
      | assumption | apply State.fastAccept_sound | apply next_sound | intro _)
    | split | dsimp only

theorem execNormalAccept_sound {q : List Instr} (core : Nat) (s : State)
    (hq : State.Sound s q) :
    NextSound q (execNormalAccept core s) := by
  unfold execNormalAccept
  repeat' first
    | (with_reducible first
      | assumption | apply State.normalAccept_sound | apply next_sound | intro _)
    | split | dsimp only

theorem execTimerExpiry_sound {q : List Instr} (core : Nat) (s : State)
    (hq : State.Sound s q) :
    NextSound q (execTimerExpiry core s) := by
  unfold execTimerExpiry
  repeat' first
    | (with_reducible first
      | assumption | apply State.timerExpiry_sound | apply next_sound | intro _)
    | split | dsimp only

theorem execDmaStart_sound {q : List Instr} (core : Nat) (channel : Nat) (value : Word) (s : State)
    (hq : State.Sound s q) :
    NextSound q (execDmaStart core channel value s) := by
  unfold execDmaStart
  repeat' first
    | (with_reducible first
      | assumption | apply State.dmaCtrlWrite_sound | apply next_sound | intro _)
    | split | dsimp only

theorem execParamSet_sound {q : List Instr} (core : Nat) (count : Nat) (start : Nat) (values : List Word) (s : State)
    (hq : State.Sound s q) :
    NextSound q (execParamSet core count start values s) := by
  unfold execParamSet
  repeat' first
    | (with_reducible first
      | assumption | apply State.malCommand_sound | apply next_sound | intro _)
    | split | dsimp only

theorem execParamList_sound {q : List Instr} (core : Nat) (count : Nat) (addr : Nat) (s : State)
    (hq : State.Sound s q) :
    NextSound q (execParamList core count addr s) := by
  unfold execParamList
  repeat' first
    | (with_reducible first
      | assumption | apply State.hold_sound | apply next_sound | intro _)
    | split | dsimp only

end Sys2Proof.Machine
end

