-- ==== Sys2Proof/Laws/KeepsRings.lean ====
section
/-! SUPPORT. What the operations of Machine/Rings.lean keep: one lemma each. -/

set_option linter.unusedTactic false
set_option linter.unreachableTactic false

namespace Sys2Proof.Machine

theorem State.breakLock_sound {q : List Instr} (s : State) (m : Nat) (target : Nat) (cause : Nat)
    (hq : State.Sound s q) :
    State.Sound (State.breakLock s m target cause) q := by
  unfold State.breakLock
  repeat' first
    | (with_reducible first
      | assumption | apply State.setFld_sound | apply State.bump_sound | apply State.raise_sound
      | fail_if_no_progress apply sound_with | intro _)
    | split | dsimp only

theorem State.breakLocks_sound {q : List Instr} (s : State) (m : Nat) (cause : Nat)
    (hq : State.Sound s q) :
    State.Sound (State.breakLocks s m cause) q := by
  unfold State.breakLocks
  repeat' first
    | (with_reducible first
      | assumption | apply State.breakLock_sound | apply foldl_sound | apply foldl_snd_sound
      | fail_if_no_progress apply sound_with | intro _)
    | split | dsimp only

theorem State.retire_sound {q : List Instr} (s : State) (m : Nat)
    (hq : State.Sound s q) :
    State.Sound (State.retire s m) q := by
  unfold State.retire
  repeat' first
    | (with_reducible first
      | assumption | apply State.showOutstanding_sound | apply sound_ite | apply sound_ite_snd
      | fail_if_no_progress apply sound_with | intro _)
    | split | dsimp only

theorem State.resetMaster_sound {q : List Instr} (s : State) (m : Nat)
    (hq : State.Sound s q) :
    State.Sound (State.resetMaster s m) q := by
  unfold State.resetMaster
  repeat' first
    | (with_reducible first
      | assumption | apply State.setFld_sound | apply State.breakLocks_sound | apply State.retire_sound | apply sound_ite
      | apply sound_ite_snd | fail_if_no_progress apply sound_with | intro _)
    | split | dsimp only

theorem State.setRing_sound {q : List Instr} (s : State) (n : Nat) (r : Ring)
    (hq : State.Sound s q) :
    State.Sound (State.setRing s n r) q := by
  unfold State.setRing
  repeat' first
    | (with_reducible first
      | assumption | fail_if_no_progress apply sound_with | intro _)
    | split | dsimp only

theorem State.haltRing_sound {q : List Instr} (s : State) (n : Nat)
    (hq : State.Sound s q) :
    State.Sound (State.haltRing s n) q := by
  unfold State.haltRing
  repeat' first
    | (with_reducible first
      | assumption | apply State.setFld_sound | apply State.raise_sound | apply State.setRing_sound
      | fail_if_no_progress apply sound_with | intro _)
    | split | dsimp only

theorem State.recordPosted_sound {q : List Instr} (s : State) (n : Nat) (irq : Bool)
    (hq : State.Sound s q) :
    State.Sound (State.recordPosted s n irq) q := by
  unfold State.recordPosted
  repeat' first
    | (with_reducible first
      | assumption | apply State.setFld_sound | apply State.bump_sound | apply State.raiseVector_sound
      | apply State.setRing_sound | apply sound_ite | apply sound_ite_snd | fail_if_no_progress apply sound_with | intro _)
    | split | dsimp only

theorem State.keepRecord_sound {q : List Instr} (s : State) (n : Nat) (bs : List Byte) (irq : Bool)
    (hq : State.Sound s q) :
    State.Sound (State.keepRecord s n bs irq) q := by
  unfold State.keepRecord
  repeat' first
    | (with_reducible first
      | assumption | apply State.setRing_sound | fail_if_no_progress apply sound_with | intro _)
    | split | dsimp only

theorem State.putRecord_sound {q : List Instr} (s : State) (n : Nat) (bs : List Byte) (irq : Bool)
    (hq : State.Sound s q) :
    State.Sound (State.putRecord s n bs irq) q := by
  unfold State.putRecord
  repeat' first
    | (with_reducible first
      | assumption | apply State.touch_sound | apply State.memStore_sound | apply State.haltRing_sound
      | apply State.recordPosted_sound | apply State.keepRecord_sound | apply sound_ite | apply sound_ite_snd
      | fail_if_no_progress apply sound_with | intro _ | refine pair_sound (by assumption) ?_
      | refine opt_elim (by assumption) ?_ | refine optP_elim (by assumption) ?_ | refine optP_elim' (by assumption) ?_
      | refine exc_elim (by assumption) ?_)
    | split | dsimp only

theorem State.postRecord_sound {q : List Instr} (s : State) (n : Nat) (bs : List Byte) (irq : Bool)
    (hq : State.Sound s q) :
    State.Sound (State.postRecord s n bs irq) q := by
  unfold State.postRecord
  repeat' first
    | (with_reducible first
      | assumption | apply State.keepRecord_sound | apply State.putRecord_sound | apply sound_ite | apply sound_ite_snd
      | intro _)
    | split | dsimp only

theorem State.flushRecords_sound {q : List Instr} (s : State) (n : Nat)
    (hq : State.Sound s q) :
    State.Sound (State.flushRecords s n) q := by
  unfold State.flushRecords
  repeat' first
    | (with_reducible first
      | assumption | apply State.setRing_sound | apply State.postRecord_sound | apply foldl_sound | apply foldl_snd_sound
      | fail_if_no_progress apply sound_with | intro _)
    | split | dsimp only

theorem State.flushAll_sound {q : List Instr} (s : State)
    (hq : State.Sound s q) :
    State.Sound (State.flushAll s) q := by
  unfold State.flushAll
  repeat' first
    | (with_reducible first
      | assumption | apply State.flushRecords_sound | apply foldl_sound | apply foldl_snd_sound | intro _)
    | split | dsimp only

theorem State.completeAt_sound {q : List Instr} (s : State) (h : Held) (status : Nat) (blk : Nat)
    (hq : State.Sound s q) :
    State.Sound (State.completeAt s h status blk) q := by
  unfold State.completeAt
  repeat' first
    | (with_reducible first
      | assumption | apply State.bump_sound | apply State.countAndRaise_sound | apply State.setRing_sound
      | apply State.postRecord_sound | apply sound_ite | apply sound_ite_snd | fail_if_no_progress apply sound_with | intro _
      | refine pair_sound (by assumption) ?_ | refine opt_elim (by assumption) ?_ | refine optP_elim (by assumption) ?_
      | refine optP_elim' (by assumption) ?_ | refine exc_elim (by assumption) ?_)
    | split | dsimp only

theorem State.complete_sound {q : List Instr} (s : State) (h : Held) (status : Nat)
    (hq : State.Sound s q) :
    State.Sound (State.complete s h status) q := by
  unfold State.complete
  repeat' first
    | (with_reducible first
      | assumption | apply State.completeAt_sound | intro _)
    | split | dsimp only

theorem State.completeNow_sound {q : List Instr} (s : State) (h : Held) (status : Nat)
    (hq : State.Sound s q) :
    State.Sound (State.completeNow s h status) q := by
  unfold State.completeNow
  repeat' first
    | (with_reducible first
      | assumption | apply State.completeAt_sound | intro _)
    | split | dsimp only

theorem State.discardStale_sound {q : List Instr} (s : State) (h : Held)
    (hq : State.Sound s q) :
    State.Sound (State.discardStale s h) q := by
  unfold State.discardStale
  repeat' first
    | (with_reducible first
      | assumption | apply State.bump_sound | apply State.raise_sound | apply State.complete_sound | intro _)
    | split | dsimp only

theorem State.discardHeld_sound {q : List Instr} (s : State) (d : Nat)
    (hq : State.Sound s q) :
    State.Sound (State.discardHeld s d) q := by
  unfold State.discardHeld
  repeat' first
    | (with_reducible first
      | assumption | apply State.completeNow_sound | apply State.discardStale_sound | apply foldl_sound | apply foldl_snd_sound
      | apply sound_ite | apply sound_ite_snd | fail_if_no_progress apply sound_with | intro _)
    | split | dsimp only

theorem State.resolveFences_sound {q : List Instr} (s : State) (n : Nat)
    (hq : State.Sound s q) :
    State.Sound (State.resolveFences s n) q := by
  unfold State.resolveFences
  repeat' first
    | (with_reducible first
      | assumption | apply sound_ite | apply sound_ite_snd | fail_if_no_progress apply sound_with | intro _
      | refine pair_sound (by assumption) ?_ | refine opt_elim (by assumption) ?_ | refine optP_elim (by assumption) ?_
      | refine optP_elim' (by assumption) ?_ | refine exc_elim (by assumption) ?_)
    | split | dsimp only

theorem State.takeEntry_sound {q : List Instr} (s : State) (n : Nat)
    (hq : State.Sound s q) :
    State.Sound (State.takeEntry s n).2 q := by
  unfold State.takeEntry
  repeat' first
    | (with_reducible first
      | assumption | apply State.setFld_sound | apply State.setRing_sound | apply sound_ite | apply sound_ite_snd
      | fail_if_no_progress apply sound_with | intro _ | refine pair_sound (by assumption) ?_
      | refine opt_elim (by assumption) ?_ | refine optP_elim (by assumption) ?_ | refine optP_elim' (by assumption) ?_
      | refine exc_elim (by assumption) ?_)
    | split | dsimp only

theorem State.startFence_sound {q : List Instr} (s : State) (n : Nat) (rq : Nat × Nat) (cpl : Bool) (irq : Bool) (cookie : Nat) (waitRing : Nat) (waitEn : Bool) (waitIndex : Nat)
    (hq : State.Sound s q) :
    State.Sound (State.startFence s n rq cpl irq cookie waitRing waitEn waitIndex) q := by
  unfold State.startFence
  repeat' first
    | (with_reducible first
      | assumption | apply State.setRing_sound | apply State.complete_sound | apply sound_ite | apply sound_ite_snd
      | fail_if_no_progress apply sound_with | intro _)
    | split | dsimp only

theorem State.releaseFence_sound {q : List Instr} (s : State) (n : Nat)
    (hq : State.Sound s q) :
    State.Sound (State.releaseFence s n) q := by
  unfold State.releaseFence
  repeat' first
    | (with_reducible first
      | assumption | apply State.setRing_sound | apply State.complete_sound | apply sound_ite | apply sound_ite_snd
      | fail_if_no_progress apply sound_with | intro _ | refine pair_sound (by assumption) ?_
      | refine opt_elim (by assumption) ?_ | refine optP_elim (by assumption) ?_ | refine optP_elim' (by assumption) ?_
      | refine exc_elim (by assumption) ?_)
    | split | dsimp only

theorem State.restartRing_sound {q : List Instr} (s : State) (n : Nat)
    (hq : State.Sound s q) :
    State.Sound (State.restartRing s n) q := by
  unfold State.restartRing
  repeat' first
    | (with_reducible first
      | assumption | apply State.setFld_sound | apply State.setRing_sound | fail_if_no_progress apply sound_with | intro _)
    | split | dsimp only

theorem State.ringCtrlWrite_sound {q : List Instr} (s : State) (n : Nat) (v : Word)
    (hq : State.Sound s q) :
    State.Sound (State.ringCtrlWrite s n v) q := by
  unfold State.ringCtrlWrite
  repeat' first
    | (with_reducible first
      | assumption | apply State.setFld_sound | apply State.raiseVector_sound | apply State.raise_sound
      | apply State.setRing_sound | apply State.restartRing_sound | apply sound_ite | apply sound_ite_snd
      | fail_if_no_progress apply sound_with | intro _)
    | split | dsimp only

theorem State.ringCfgWrite_sound {q : List Instr} (s : State) (n : Nat) (v : Word)
    (hq : State.Sound s q) :
    State.Sound (State.ringCfgWrite s n v) q := by
  unfold State.ringCfgWrite
  repeat' first
    | (with_reducible first
      | assumption | apply State.setFld_sound | apply State.raise_sound | apply sound_ite | apply sound_ite_snd | intro _)
    | split | dsimp only

theorem State.ringTailWrite_sound {q : List Instr} (s : State) (n : Nat) (v : Word)
    (hq : State.Sound s q) :
    State.Sound (State.ringTailWrite s n v) q := by
  unfold State.ringTailWrite
  repeat' first
    | (with_reducible first
      | assumption | apply State.setFld_sound | apply State.raise_sound | apply State.resolveFences_sound | apply sound_ite
      | apply sound_ite_snd | fail_if_no_progress apply sound_with | intro _)
    | split | dsimp only

theorem State.ringHeadWrite_sound {q : List Instr} (s : State) (n : Nat) (v : Word)
    (hq : State.Sound s q) :
    State.Sound (State.ringHeadWrite s n v) q := by
  unfold State.ringHeadWrite
  repeat' first
    | (with_reducible first
      | assumption | apply State.setFld_sound | apply State.raise_sound | apply State.flushRecords_sound | apply sound_ite
      | apply sound_ite_snd | fail_if_no_progress apply sound_with | intro _)
    | split | dsimp only

theorem State.ringResize_sound {q : List Instr} (s : State) (n : Nat) (v : Word)
    (hq : State.Sound s q) :
    State.Sound (State.ringResize s n v) q := by
  unfold State.ringResize
  repeat' first
    | (with_reducible first
      | assumption | apply State.raise_sound | apply State.setRing_sound | apply sound_ite | apply sound_ite_snd
      | fail_if_no_progress apply sound_with | intro _)
    | split | dsimp only

theorem State.abandonResize_sound {q : List Instr} (s : State) (n : Nat)
    (hq : State.Sound s q) :
    State.Sound (State.abandonResize s n) q := by
  unfold State.abandonResize
  repeat' first
    | (with_reducible first
      | assumption | apply State.setRing_sound | apply State.flushRecords_sound | fail_if_no_progress apply sound_with | intro _)
    | split | dsimp only

theorem State.ringResizeWrite_sound {q : List Instr} (s : State) (n : Nat) (v : Word)
    (hq : State.Sound s q) :
    State.Sound (State.ringResizeWrite s n v) q := by
  unfold State.ringResizeWrite
  repeat' first
    | (with_reducible first
      | assumption | apply State.ringResize_sound | apply State.abandonResize_sound | apply sound_ite | apply sound_ite_snd
      | intro _)
    | split | dsimp only

theorem State.ringResizeApply_sound {q : List Instr} (s : State) (n : Nat)
    (hq : State.Sound s q) :
    State.Sound (State.ringResizeApply s n) q := by
  unfold State.ringResizeApply
  repeat' first
    | (with_reducible first
      | assumption | apply State.setFld_sound | apply State.raise_sound | apply State.setRing_sound
      | apply State.flushRecords_sound | apply State.restartRing_sound | apply sound_ite | apply sound_ite_snd
      | fail_if_no_progress apply sound_with | intro _ | refine pair_sound (by assumption) ?_
      | refine opt_elim (by assumption) ?_ | refine optP_elim (by assumption) ?_ | refine optP_elim' (by assumption) ?_
      | refine exc_elim (by assumption) ?_)
    | split | dsimp only

theorem State.countHoldWaits_sound {q : List Instr} (s : State)
    (hq : State.Sound s q) :
    State.Sound (State.countHoldWaits s) q := by
  unfold State.countHoldWaits
  repeat' first
    | (with_reducible first
      | assumption | apply State.countAndRaise_sound | apply foldl_sound | apply foldl_snd_sound | intro _)
    | split | dsimp only

theorem State.msixTableWrite_sound {q : List Instr} (s : State) (w : Nat) (v : Nat)
    (hq : State.Sound s q) :
    State.Sound (State.msixTableWrite s w v) q := by
  unfold State.msixTableWrite
  repeat' first
    | (with_reducible first
      | assumption | apply State.msixRequest_sound | apply sound_ite | apply sound_ite_snd
      | fail_if_no_progress apply sound_with | intro _)
    | split | dsimp only

theorem State.moderationEnd_sound {q : List Instr} (s : State) (n : Nat)
    (hq : State.Sound s q) :
    State.Sound (State.moderationEnd s n) q := by
  unfold State.moderationEnd
  repeat' first
    | (with_reducible first
      | assumption | apply State.raiseVector_sound | apply sound_ite | apply sound_ite_snd
      | fail_if_no_progress apply sound_with | intro _ | refine pair_sound (by assumption) ?_
      | refine opt_elim (by assumption) ?_ | refine optP_elim (by assumption) ?_ | refine optP_elim' (by assumption) ?_
      | refine exc_elim (by assumption) ?_)
    | split | dsimp only

theorem State.barrierWrite_sound {q : List Instr} (s : State) (m : Nat) (token : Nat)
    (hq : State.Sound s q) :
    State.Sound (State.barrierWrite s m token).2 q := by
  unfold State.barrierWrite
  repeat' first
    | (with_reducible first
      | assumption | apply State.setFld_sound | apply sound_ite | apply sound_ite_snd | fail_if_no_progress apply sound_with
      | intro _)
    | split | dsimp only

theorem State.barrierDone_sound {q : List Instr} (s : State) (m : Nat)
    (hq : State.Sound s q) :
    State.Sound (State.barrierDone s m) q := by
  unfold State.barrierDone
  repeat' first
    | (with_reducible first
      | assumption | apply State.setFld_sound | apply State.raiseAt_sound | apply sound_ite | apply sound_ite_snd
      | fail_if_no_progress apply sound_with | intro _ | refine pair_sound (by assumption) ?_
      | refine opt_elim (by assumption) ?_ | refine optP_elim (by assumption) ?_ | refine optP_elim' (by assumption) ?_
      | refine exc_elim (by assumption) ?_)
    | split | dsimp only

theorem State.pcieReset_sound {q : List Instr} (s : State) (kind : PcieResetKind)
    (hq : State.Sound s q) :
    State.Sound (State.pcieReset s kind) q := by
  unfold State.pcieReset
  repeat' first
    | (with_reducible first
      | assumption | apply State.setFld_sound | apply State.resetMaster_sound | apply sound_dram | apply sound_drams
      | apply sound_with_filter | apply sound_with_filters | fail_if_no_progress apply sound_with | intro _
      | refine pair_sound (by assumption) ?_ | refine opt_elim (by assumption) ?_ | refine optP_elim (by assumption) ?_
      | refine optP_elim' (by assumption) ?_ | refine exc_elim (by assumption) ?_)
    | split | dsimp only

theorem State.masterResetWrite_sound {q : List Instr} (s : State) (v : Word)
    (hq : State.Sound s q) :
    State.Sound (State.masterResetWrite s v) q := by
  unfold State.masterResetWrite
  repeat' first
    | (with_reducible first
      | assumption | apply State.resetMaster_sound | apply sound_ite | apply sound_ite_snd | intro _)
    | split | dsimp only

theorem execMsixModerationExpiry_sound {q : List Instr} (ring : Nat) (s : State)
    (hq : State.Sound s q) :
    NextSound q (execMsixModerationExpiry ring s) := by
  unfold execMsixModerationExpiry
  repeat' first
    | (with_reducible first
      | assumption | apply State.moderationEnd_sound | apply next_sound | intro _)
    | split | dsimp only

theorem execRingResizeApply_sound {q : List Instr} (ring : Nat) (s : State)
    (hq : State.Sound s q) :
    NextSound q (execRingResizeApply ring s) := by
  unfold execRingResizeApply
  repeat' first
    | (with_reducible first
      | assumption | apply State.ringResizeApply_sound | apply next_sound | intro _)
    | split | dsimp only

theorem execRingResizeTimeout_sound {q : List Instr} (ring : Nat) (s : State)
    (hq : State.Sound s q) :
    NextSound q (execRingResizeTimeout ring s) := by
  unfold execRingResizeTimeout
  repeat' first
    | (with_reducible first
      | assumption | apply State.raise_sound | apply State.abandonResize_sound | apply sound_ite | apply sound_ite_snd
      | apply next_sound | apply next_ite | intro _)
    | split | dsimp only

theorem State.takeNop_sound {q : List Instr} (s : State) (ring : Nat) (cookie : Nat) (cpl : Bool) (irq : Bool) (stamp : Option Nat)
    (hq : State.Sound s q) :
    State.Sound (State.takeNop s ring cookie cpl irq stamp) q := by
  unfold State.takeNop
  repeat' first
    | (with_reducible first
      | assumption | apply State.complete_sound | apply State.takeEntry_sound | fail_if_no_progress apply sound_with | intro _)
    | split | dsimp only

theorem execRingNop_sound {q : List Instr} (ring : Nat) (cookie : Nat) (flags : CmdFlags) (stamp : Option Nat) (s : State)
    (hq : State.Sound s q) :
    NextSound q (execRingNop ring cookie flags stamp s) := by
  unfold execRingNop
  repeat' first
    | (with_reducible first
      | assumption | apply State.takeNop_sound | apply sound_ite | apply sound_ite_snd | apply next_sound | apply next_ite
      | intro _)
    | split | dsimp only

theorem execFence_sound {q : List Instr} (ring : Nat) (cookie : Nat) (cpl : Bool) (irq : Bool) (waitRing : Nat) (waitEn : Bool) (waitIndex : Nat) (s : State)
    (hq : State.Sound s q) :
    NextSound q (execFence ring cookie cpl irq waitRing waitEn waitIndex s) := by
  unfold execFence
  repeat' first
    | (with_reducible first
      | assumption | apply State.takeEntry_sound | apply State.startFence_sound | apply sound_ite | apply sound_ite_snd
      | apply next_sound | apply next_ite | fail_if_no_progress apply sound_with | intro _)
    | split | dsimp only

theorem execFenceRelease_sound {q : List Instr} (ring : Nat) (s : State)
    (hq : State.Sound s q) :
    NextSound q (execFenceRelease ring s) := by
  unfold execFenceRelease
  repeat' first
    | (with_reducible first
      | assumption | apply State.releaseFence_sound | apply next_sound | intro _)
    | split | dsimp only

theorem execBarrierDone_sound {q : List Instr} (master : Nat) (s : State)
    (hq : State.Sound s q) :
    NextSound q (execBarrierDone master s) := by
  unfold execBarrierDone
  repeat' first
    | (with_reducible first
      | assumption | apply State.barrierDone_sound | apply next_sound | intro _)
    | split | dsimp only

theorem execPcieReset_sound {q : List Instr} (kind : PcieResetKind) (s : State)
    (hq : State.Sound s q) :
    NextSound q (execPcieReset kind s) := by
  unfold execPcieReset
  repeat' first
    | (with_reducible first
      | assumption | apply State.pcieReset_sound | apply next_sound | intro _)
    | split | dsimp only

end Sys2Proof.Machine
end

