-- ==== Sys2Proof/Laws/KeepsMedia.lean ====
section
/-! SUPPORT. What the operations of Machine/Media.lean keep: one lemma each. -/

set_option linter.unusedTactic false
set_option linter.unreachableTactic false

namespace Sys2Proof.Machine

theorem State.setInS_sound {q : List Instr} (s : State) (n : Nat) (x : InStream)
    (hq : State.Sound s q) :
    State.Sound (State.setInS s n x) q := by
  unfold State.setInS
  repeat' first
    | (with_reducible first
      | assumption | fail_if_no_progress apply sound_with | intro _)
    | split | dsimp only

theorem State.setOutS_sound {q : List Instr} (s : State) (n : Nat) (x : OutStream)
    (hq : State.Sound s q) :
    State.Sound (State.setOutS s n x) q := by
  unfold State.setOutS
  repeat' first
    | (with_reducible first
      | assumption | fail_if_no_progress apply sound_with | intro _)
    | split | dsimp only

theorem State.countLateFlag_sound {q : List Instr} (s : State) (n : Nat) (p : List Byte)
    (hq : State.Sound s q) :
    State.Sound (State.countLateFlag s n p) q := by
  unfold State.countLateFlag
  repeat' first
    | (with_reducible first
      | assumption | apply State.setInS_sound | apply sound_ite | apply sound_ite_snd | fail_if_no_progress apply sound_with
      | intro _)
    | split | dsimp only

theorem State.badPkt_sound {q : List Instr} (s : State) (n : Nat)
    (hq : State.Sound s q) :
    State.Sound (State.badPkt s n) q := by
  unfold State.badPkt
  repeat' first
    | (with_reducible first
      | assumption | apply State.bump_sound | intro _)
    | split | dsimp only

theorem State.margin_sound {q : List Instr} (s : State) (n : Nat) (m : Int)
    (hq : State.Sound s q) :
    State.Sound (State.margin s n m) q := by
  unfold State.margin
  repeat' first
    | (with_reducible first
      | assumption | apply State.setFld_sound | apply sound_ite | apply sound_ite_snd | intro _)
    | split | dsimp only

theorem State.placePkt_sound {q : List Instr} (s : State) (c : Cfg) (n : Nat) (leg : Nat) (t : Nat) (r : StreamRec) (p : Pkt)
    (hq : State.Sound s q) :
    State.Sound (State.placePkt s c n leg t r p) q := by
  unfold State.placePkt
  repeat' first
    | (with_reducible first
      | assumption | apply State.bump_sound | apply State.setInS_sound | apply State.badPkt_sound | apply State.margin_sound
      | apply foldl_sound | apply foldl_snd_sound | apply sound_ite | apply sound_ite_snd | fail_if_no_progress apply sound_with
      | intro _ | apply optS_getD)
    | split | dsimp only

theorem State.streamRx_sound {q : List Instr} (s : State) (n : Nat) (leg : Nat) (t : Nat) (p : List Byte)
    (hq : State.Sound s q) :
    State.Sound (State.streamRx s n leg t p) q := by
  unfold State.streamRx
  repeat' first
    | (with_reducible first
      | assumption | apply State.countLateFlag_sound | apply State.badPkt_sound | apply State.placePkt_sound | apply sound_ite
      | apply sound_ite_snd | fail_if_no_progress apply sound_with | intro _ | refine pair_sound (by assumption) ?_
      | refine opt_elim (by assumption) ?_ | refine optP_elim (by assumption) ?_ | refine optP_elim' (by assumption) ?_
      | refine exc_elim (by assumption) ?_)
    | split | dsimp only

theorem State.streamIngress_sound {q : List Instr} (s : State) (c : Cfg) (n : Nat) (k : Nat)
    (hq : State.Sound s q) :
    State.Sound (State.streamIngress s c n k) q := by
  unfold State.streamIngress
  repeat' first
    | (with_reducible first
      | assumption | apply State.bump_sound | apply State.raise_sound | apply State.writeBus_sound
      | apply State.overrunBus_sound | apply State.setInS_sound | apply foldl_sound | apply foldl_snd_sound | apply sound_ite
      | apply sound_ite_snd | fail_if_no_progress apply sound_with | intro _ | refine pair_sound (by assumption) ?_
      | refine opt_elim (by assumption) ?_ | refine optP_elim (by assumption) ?_ | refine optP_elim' (by assumption) ?_
      | refine exc_elim (by assumption) ?_)
    | split | dsimp only

theorem State.netIngress_sound {q : List Instr} (s : State) (c : Cfg) (port : Nat) (k : Nat)
    (hq : State.Sound s q) :
    State.Sound (State.netIngress s c port k) q := by
  unfold State.netIngress
  repeat' first
    | (with_reducible first
      | assumption | apply State.streamIngress_sound | apply foldl_sound | apply foldl_snd_sound
      | fail_if_no_progress apply sound_with | intro _ | refine pair_sound (by assumption) ?_
      | refine opt_elim (by assumption) ?_ | refine optP_elim (by assumption) ?_ | refine optP_elim' (by assumption) ?_
      | refine exc_elim (by assumption) ?_)
    | split | dsimp only

theorem State.outDrop_sound {q : List Instr} (s : State) (n : Nat)
    (hq : State.Sound s q) :
    State.Sound (State.outDrop s n) q := by
  unfold State.outDrop
  repeat' first
    | (with_reducible first
      | assumption | apply State.clearFlds_sound | apply State.setOutS_sound | intro _)
    | split | dsimp only

theorem State.settleStream_sound {q : List Instr} (s : State) (c : Cfg) (n : Nat) (b : Nat)
    (hq : State.Sound s q) :
    State.Sound (State.settleStream s c n b) q := by
  unfold State.settleStream
  repeat' first
    | (with_reducible first
      | assumption | apply State.setFld_sound | apply State.setOutS_sound | apply State.outDrop_sound | apply foldl_sound
      | apply foldl_snd_sound | apply sound_ite | apply sound_ite_snd | fail_if_no_progress apply sound_with | intro _
      | refine pair_sound (by assumption) ?_ | refine opt_elim (by assumption) ?_ | refine optP_elim (by assumption) ?_
      | refine optP_elim' (by assumption) ?_ | refine exc_elim (by assumption) ?_)
    | split | dsimp only

theorem State.streamGive_sound {q : List Instr} (s : State) (c : Cfg) (n : Nat) (k : Nat) (chans : List (List Int)) (bad : Bool)
    (hq : State.Sound s q) :
    State.Sound (State.streamGive s c n k chans bad) q := by
  unfold State.streamGive
  repeat' first
    | (with_reducible first
      | assumption | apply State.setOutS_sound | fail_if_no_progress apply sound_with | intro _
      | refine pair_sound (by assumption) ?_ | refine opt_elim (by assumption) ?_ | refine optP_elim (by assumption) ?_
      | refine optP_elim' (by assumption) ?_ | refine exc_elim (by assumption) ?_)
    | split | dsimp only

theorem State.sendLeg_sound {q : List Instr} (s : State) (r : StreamRec) (port : Nat) (l : LegRec) (pkt : List Byte)
    (hq : State.Sound s q) :
    State.Sound (State.sendLeg s r port l pkt) q := by
  unfold State.sendLeg
  repeat' first
    | (with_reducible first
      | assumption | apply State.bump_sound | apply State.emit_sound | apply sound_ite | apply sound_ite_snd
      | fail_if_no_progress apply sound_with | intro _)
    | split | dsimp only

theorem State.sendPacket_sound {q : List Instr} (s : State) (c : Cfg) (n : Nat)
    (hq : State.Sound s q) :
    OptSound q (State.sendPacket s c n) := by
  unfold State.sendPacket
  repeat' first
    | (with_reducible first
      | assumption | apply State.setFld_sound | apply State.bump_sound | apply State.setOutS_sound | apply State.sendLeg_sound
      | apply sound_ite | apply sound_ite_snd | apply opt_ite | apply opt_none | apply opt_some
      | fail_if_no_progress apply sound_with | intro _ | refine pair_sound (by assumption) ?_
      | refine opt_elim (by assumption) ?_ | refine optP_elim (by assumption) ?_ | refine optP_elim' (by assumption) ?_
      | refine exc_elim (by assumption) ?_)
    | split | dsimp only

theorem State.drainStream_sound {q : List Instr} (s : State) (c : Cfg) (n : Nat)
    (hq : State.Sound s q) :
    State.Sound (State.drainStream s c n) q := by
  unfold State.drainStream
  repeat' first
    | (with_reducible first
      | assumption | apply State.settleStream_sound | apply State.sendPacket_sound | apply foldl_sound | apply foldl_snd_sound
      | fail_if_no_progress apply sound_with | intro _ | apply optS_getD)
    | split | dsimp only

theorem State.drainBelow_sound {q : List Instr} (s : State) (pair : Nat) (n : Nat)
    (hq : State.Sound s q) :
    State.Sound (State.drainBelow s pair n) q := by
  unfold State.drainBelow
  repeat' first
    | (with_reducible first
      | assumption | apply State.drainStream_sound | apply foldl_sound | apply foldl_snd_sound
      | fail_if_no_progress apply sound_with | intro _ | refine pair_sound (by assumption) ?_
      | refine opt_elim (by assumption) ?_ | refine optP_elim (by assumption) ?_ | refine optP_elim' (by assumption) ?_
      | refine exc_elim (by assumption) ?_)
    | split | dsimp only

theorem State.drainPair_sound {q : List Instr} (s : State) (pair : Nat)
    (hq : State.Sound s q) :
    State.Sound (State.drainPair s pair) q := by
  unfold State.drainPair
  repeat' first
    | (with_reducible first
      | assumption | apply State.drainBelow_sound | intro _)
    | split | dsimp only

theorem State.drainStreams_sound {q : List Instr} (s : State)
    (hq : State.Sound s q) :
    State.Sound (State.drainStreams s) q := by
  unfold State.drainStreams
  repeat' first
    | (with_reducible first
      | assumption | apply State.drainPair_sound | intro _)
    | split | dsimp only

theorem State.streamTx_sound {q : List Instr} (s : State) (n : Nat)
    (hq : State.Sound s q) :
    State.Sound (State.streamTx s n) q := by
  unfold State.streamTx
  repeat' first
    | (with_reducible first
      | assumption | apply State.settleStream_sound | apply State.sendPacket_sound | apply State.drainBelow_sound
      | fail_if_no_progress apply sound_with | intro _ | apply optS_getD | refine pair_sound (by assumption) ?_
      | refine opt_elim (by assumption) ?_ | refine optP_elim (by assumption) ?_ | refine optP_elim' (by assumption) ?_
      | refine exc_elim (by assumption) ?_)
    | split | dsimp only

theorem State.ctlDrop_sound {q : List Instr} (s : State) (port : Nat)
    (hq : State.Sound s q) :
    State.Sound (State.ctlDrop s port) q := by
  unfold State.ctlDrop
  repeat' first
    | (with_reducible first
      | assumption | apply State.bump_sound | apply State.raise_sound | intro _)
    | split | dsimp only

theorem State.slotWrite_sound {q : List Instr} (s : State) (port : Nat) (a : Nat) (f : List Byte)
    (hq : State.Sound s q) :
    OptSound q (State.slotWrite s port a f) := by
  unfold State.slotWrite
  repeat' first
    | (with_reducible first
      | assumption | apply State.touch_sound | apply State.memStore_sound | apply sound_ite | apply sound_ite_snd
      | apply opt_ite | apply opt_none | apply opt_some | fail_if_no_progress apply sound_with | intro _
      | refine pair_sound (by assumption) ?_ | refine opt_elim (by assumption) ?_ | refine optP_elim (by assumption) ?_
      | refine optP_elim' (by assumption) ?_ | refine exc_elim (by assumption) ?_)
    | split | dsimp only

theorem State.hostDeliver_sound {q : List Instr} (s : State) (port : Nat) (f : List Byte) (ts : Int)
    (hq : State.Sound s q) :
    State.Sound (State.hostDeliver s port f ts) q := by
  unfold State.hostDeliver
  repeat' first
    | (with_reducible first
      | assumption | apply State.setFld_sound | apply State.postRecord_sound | apply State.ctlDrop_sound
      | apply State.slotWrite_sound | apply sound_ite | apply sound_ite_snd | fail_if_no_progress apply sound_with | intro _
      | refine pair_sound (by assumption) ?_ | refine opt_elim (by assumption) ?_ | refine optP_elim (by assumption) ?_
      | refine optP_elim' (by assumption) ?_ | refine exc_elim (by assumption) ?_)
    | split | dsimp only

theorem State.forward_sound {q : List Instr} (s : State) (port : Nat) (f : List Byte) (u : Option UdpPkt) (full : Bool) (residence : Nat)
    (hq : State.Sound s q) :
    State.Sound (State.forward s port f u full residence) q := by
  unfold State.forward
  repeat' first
    | (with_reducible first
      | assumption | apply State.bump_sound | apply State.emit_sound | apply State.raise_sound | apply State.drainPair_sound
      | apply sound_ite | apply sound_ite_snd | fail_if_no_progress apply sound_with | intro _
      | refine pair_sound (by assumption) ?_ | refine opt_elim (by assumption) ?_ | refine optP_elim (by assumption) ?_
      | refine optP_elim' (by assumption) ?_ | refine exc_elim (by assumption) ?_)
    | split | dsimp only

theorem State.frameRx_sound {q : List Instr} (s : State) (port : Nat) (f : List Byte) (ok : Bool) (full : Bool) (t : Nat) (residence : Nat)
    (hq : State.Sound s q) :
    State.Sound (State.frameRx s port f ok full t residence) q := by
  unfold State.frameRx
  repeat' first
    | (with_reducible first
      | assumption | apply State.bump_sound | apply State.seeTime_sound | apply State.ptpMessage_sound
      | apply State.streamRx_sound | apply State.hostDeliver_sound | apply State.forward_sound | apply foldl_sound
      | apply foldl_snd_sound | apply sound_ite | apply sound_ite_snd | fail_if_no_progress apply sound_with | intro _
      | refine pair_sound (by assumption) ?_ | refine opt_elim (by assumption) ?_ | refine optP_elim (by assumption) ?_
      | refine optP_elim' (by assumption) ?_ | refine exc_elim (by assumption) ?_)
    | split | dsimp only

theorem State.netReject_sound {q : List Instr} (s : State)
    (hq : State.Sound s q) :
    State.Sound (State.netReject s) q := by
  unfold State.netReject
  repeat' first
    | (with_reducible first
      | assumption | apply State.bump_sound | intro _)
    | split | dsimp only

theorem State.netQueue_sound {q : List Instr} (s : State) (h : Held) (late : Bool) (port : Nat) (flags : Nat) (length : Nat) (bs : Option (List Byte))
    (hq : State.Sound s q) :
    OptSound q (State.netQueue s h late port flags length bs) := by
  unfold State.netQueue
  repeat' first
    | (with_reducible first
      | assumption | apply sound_ite | apply sound_ite_snd | apply opt_ite | apply opt_none | apply opt_some
      | fail_if_no_progress apply sound_with | intro _ | refine pair_sound (by assumption) ?_
      | refine opt_elim (by assumption) ?_ | refine optP_elim (by assumption) ?_ | refine optP_elim' (by assumption) ?_
      | refine exc_elim (by assumption) ?_)
    | split | dsimp only

theorem State.streamMute_sound {q : List Instr} (s : State) (first : Nat) (count : Nat) (mute : Nat) (ramp : Nat)
    (hq : State.Sound s q) :
    State.Sound (State.streamMute s first count mute ramp).2 q := by
  unfold State.streamMute
  repeat' first
    | (with_reducible first
      | assumption | apply State.setFld_sound | apply State.setOutS_sound | apply State.netReject_sound | apply foldl_sound
      | apply foldl_snd_sound | apply sound_ite | apply sound_ite_snd | fail_if_no_progress apply sound_with | intro _)
    | split | dsimp only

theorem State.netSent_sound {q : List Instr} (s : State) (port : Nat) (t : Nat)
    (hq : State.Sound s q) :
    State.Sound (State.netSent s port t) q := by
  unfold State.netSent
  repeat' first
    | (with_reducible first
      | assumption | apply State.bump_sound | apply State.emit_sound | apply State.seeTime_sound | apply State.postRecord_sound
      | apply State.complete_sound | apply State.drainPair_sound | apply sound_ite | apply sound_ite_snd
      | fail_if_no_progress apply sound_with | intro _ | refine pair_sound (by assumption) ?_
      | refine opt_elim (by assumption) ?_ | refine optP_elim (by assumption) ?_ | refine optP_elim' (by assumption) ?_
      | refine exc_elim (by assumption) ?_)
    | split | dsimp only

theorem State.linkDown_sound {q : List Instr} (s : State) (n : Nat)
    (hq : State.Sound s q) :
    State.Sound (State.linkDown s n) q := by
  unfold State.linkDown
  repeat' first
    | (with_reducible first
      | assumption | apply State.clearFlds_sound | apply State.raise_sound | apply sound_ite | apply sound_ite_snd | intro _)
    | split | dsimp only

theorem State.netApplySet_sound {q : List Instr} (s : State) (n : Nat) (set : Tbl Nat)
    (hq : State.Sound s q) :
    State.Sound (State.netApplySet s n set) q := by
  unfold State.netApplySet
  repeat' first
    | (with_reducible first
      | assumption | apply State.setForce_sound | apply State.linkDown_sound | apply foldl_sound | apply foldl_snd_sound
      | apply sound_ite | apply sound_ite_snd | fail_if_no_progress apply sound_with | intro _)
    | split | dsimp only

theorem State.linkUp_sound {q : List Instr} (s : State) (n : Nat)
    (hq : State.Sound s q) :
    State.Sound (State.linkUp s n) q := by
  unfold State.linkUp
  repeat' first
    | (with_reducible first
      | assumption | apply State.setFld_sound | apply State.raise_sound | apply sound_ite | apply sound_ite_snd | intro _)
    | split | dsimp only

theorem State.ctlRelease_sound {q : List Instr} (s : State) (n : Nat) (count : Nat)
    (hq : State.Sound s q) :
    State.Sound (State.ctlRelease s n count) q := by
  unfold State.ctlRelease
  repeat' first
    | (with_reducible first
      | assumption | apply State.setFld_sound | apply sound_ite | apply sound_ite_snd | intro _)
    | split | dsimp only

theorem State.netCountClear_sound {q : List Instr} (s : State) (v : Nat)
    (hq : State.Sound s q) :
    State.Sound (State.netCountClear s v) q := by
  unfold State.netCountClear
  repeat' first
    | (with_reducible first
      | assumption | apply State.setFld_sound | apply State.clearFlds_sound | apply State.clearMasked_sound | apply foldl_sound
      | apply foldl_snd_sound | apply sound_ite | apply sound_ite_snd | fail_if_no_progress apply sound_with | intro _)
    | split | dsimp only

theorem State.inTake_sound {q : List Instr} (s : State) (r : StreamRec)
    (hq : State.Sound s q) :
    State.Sound (State.inTake s r) q := by
  unfold State.inTake
  repeat' first
    | (with_reducible first
      | assumption | apply State.setFld_sound | apply State.setBus_sound | apply State.setInS_sound | apply foldl_sound
      | apply foldl_snd_sound | fail_if_no_progress apply sound_with | intro _)
    | split | dsimp only

theorem State.outTake_sound {q : List Instr} (s : State) (c : Cfg) (r : StreamRec) (quiet : Nat) (settled : Nat)
    (hq : State.Sound s q) :
    State.Sound (State.outTake s c r quiet settled) q := by
  unfold State.outTake
  repeat' first
    | (with_reducible first
      | assumption | apply State.setFld_sound | apply State.random_sound | apply State.setOutS_sound | apply sound_ite
      | apply sound_ite_snd | fail_if_no_progress apply sound_with | intro _)
    | split | dsimp only

theorem State.netLoad_sound {q : List Instr} (s : State) (c : Cfg)
    (hq : State.Sound s q) :
    State.Sound (State.netLoad s c) q := by
  unfold State.netLoad
  repeat' first
    | (with_reducible first
      | assumption | apply State.inTake_sound | apply State.outTake_sound | apply foldl_sound | apply foldl_snd_sound
      | apply sound_ite | apply sound_ite_snd | intro _)
    | split | dsimp only

theorem State.netStop_sound {q : List Instr} (s : State) (new : Cfg) (swapAt : Nat)
    (hq : State.Sound s q) :
    State.Sound (State.netStop s new swapAt) q := by
  unfold State.netStop
  repeat' first
    | (with_reducible first
      | assumption | apply State.setOutS_sound | apply foldl_sound | apply foldl_snd_sound
      | fail_if_no_progress apply sound_with | intro _ | refine pair_sound (by assumption) ?_
      | refine opt_elim (by assumption) ?_ | refine optP_elim (by assumption) ?_ | refine optP_elim' (by assumption) ?_
      | refine exc_elim (by assumption) ?_)
    | split | dsimp only

theorem State.netSwap_sound {q : List Instr} (s : State) (new : Cfg)
    (hq : State.Sound s q) :
    State.Sound (State.netSwap s new) q := by
  unfold State.netSwap
  repeat' first
    | (with_reducible first
      | assumption | apply State.clearFlds_sound | apply State.setInS_sound | apply State.setOutS_sound
      | apply State.inTake_sound | apply State.outTake_sound | apply foldl_sound | apply foldl_snd_sound | apply sound_ite
      | apply sound_ite_snd | fail_if_no_progress apply sound_with | intro _)
    | split | dsimp only

theorem execNetFrameRx_sound {q : List Instr} (port : Nat) (frame : List Byte) (ok : Bool) (full : Bool) (t : Nat) (residence : Nat) (s : State)
    (hq : State.Sound s q) :
    NextSound q (execNetFrameRx port frame ok full t residence s) := by
  unfold execNetFrameRx
  repeat' first
    | (with_reducible first
      | assumption | apply State.frameRx_sound | apply next_sound | intro _)
    | split | dsimp only

theorem execRtpPacketRx_sound {q : List Instr} (stream : Nat) (leg : Nat) (packet : List Byte) (t : Nat) (s : State)
    (hq : State.Sound s q) :
    NextSound q (execRtpPacketRx stream leg packet t s) := by
  unfold execRtpPacketRx
  repeat' first
    | (with_reducible first
      | assumption | apply State.seeTime_sound | apply State.streamRx_sound | apply sound_ite | apply sound_ite_snd
      | apply next_sound | apply next_ite | fail_if_no_progress apply sound_with | intro _
      | refine pair_sound (by assumption) ?_ | refine opt_elim (by assumption) ?_ | refine optP_elim (by assumption) ?_
      | refine optP_elim' (by assumption) ?_ | refine exc_elim (by assumption) ?_)
    | split | dsimp only

theorem execLlPacketRx_sound {q : List Instr} (stream : Nat) (leg : Nat) (packet : List Byte) (t : Nat) (s : State)
    (hq : State.Sound s q) :
    NextSound q (execLlPacketRx stream leg packet t s) := by
  unfold execLlPacketRx
  repeat' first
    | (with_reducible first
      | assumption | apply State.seeTime_sound | apply State.streamRx_sound | apply sound_ite | apply sound_ite_snd
      | apply next_sound | apply next_ite | fail_if_no_progress apply sound_with | intro _
      | refine pair_sound (by assumption) ?_ | refine opt_elim (by assumption) ?_ | refine optP_elim (by assumption) ?_
      | refine optP_elim' (by assumption) ?_ | refine exc_elim (by assumption) ?_)
    | split | dsimp only

theorem execStreamPacketTx_sound {q : List Instr} (stream : Nat) (s : State)
    (hq : State.Sound s q) :
    NextSound q (execStreamPacketTx stream s) := by
  unfold execStreamPacketTx
  repeat' first
    | (with_reducible first
      | assumption | apply State.streamTx_sound | apply next_sound | intro _)
    | split | dsimp only

theorem execNetSendDone_sound {q : List Instr} (port : Nat) (t : Nat) (s : State)
    (hq : State.Sound s q) :
    NextSound q (execNetSendDone port t s) := by
  unfold execNetSendDone
  repeat' first
    | (with_reducible first
      | assumption | apply State.netSent_sound | apply next_sound | intro _)
    | split | dsimp only

theorem execStreamMute_sound {q : List Instr} (first : Nat) (count : Nat) (mute : Nat) (ramp : Nat) (s : State)
    (hq : State.Sound s q) :
    NextSound q (execStreamMute first count mute ramp s) := by
  unfold execStreamMute
  repeat' first
    | (with_reducible first
      | assumption | apply State.hold_sound | apply State.streamMute_sound | apply sound_ite | apply sound_ite_snd
      | apply next_sound | apply next_ite | intro _)
    | split | dsimp only

theorem execNetLinkUp_sound {q : List Instr} (port : Nat) (s : State)
    (hq : State.Sound s q) :
    NextSound q (execNetLinkUp port s) := by
  unfold execNetLinkUp
  repeat' first
    | (with_reducible first
      | assumption | apply State.linkUp_sound | apply next_sound | intro _)
    | split | dsimp only

theorem execNetLinkDown_sound {q : List Instr} (port : Nat) (s : State)
    (hq : State.Sound s q) :
    NextSound q (execNetLinkDown port s) := by
  unfold execNetLinkDown
  repeat' first
    | (with_reducible first
      | assumption | apply State.linkDown_sound | apply next_sound | intro _)
    | split | dsimp only

end Sys2Proof.Machine
end

