-- ==== Sys2Proof/Laws/KeepsModes.lean ====
section
/-! SUPPORT. What the operations of Machine/Modes.lean keep: one lemma each. -/

set_option linter.unusedTactic false
set_option linter.unreachableTactic false

namespace Sys2Proof.Machine

theorem State.alert_sound {q : List Instr} (s : State) (i : Nat)
    (hq : State.Sound s q) :
    State.Sound (State.alert s i) q := by
  unfold State.alert
  repeat' first
    | (with_reducible first
      | assumption | apply State.setFld_sound | intro _)
    | split | dsimp only

theorem State.quietDomain_sound {q : List Instr} (s : State) (d : Nat)
    (hq : State.Sound s q) :
    State.Sound (State.quietDomain s d) q := by
  unfold State.quietDomain
  repeat' first
    | (with_reducible first
      | assumption | apply State.resetMaster_sound | apply State.discardHeld_sound | apply foldl_sound | apply foldl_snd_sound
      | apply sound_ite | apply sound_ite_snd | fail_if_no_progress apply sound_with | intro _)
    | split | dsimp only

theorem State.resetDomain_sound {q : List Instr} (s : State) (d : Nat)
    (hq : State.Sound s q) :
    State.Sound (State.resetDomain s d) q := by
  unfold State.resetDomain
  repeat' first
    | (with_reducible first
      | assumption | apply State.clearFlds_sound | apply State.quietDomain_sound | apply sound_ite | apply sound_ite_snd
      | apply sound_dram | apply sound_drams | apply sound_with_filter | apply sound_with_filters
      | fail_if_no_progress apply sound_with | intro _ | refine pair_sound (by assumption) ?_
      | refine opt_elim (by assumption) ?_ | refine optP_elim (by assumption) ?_ | refine optP_elim' (by assumption) ?_
      | refine exc_elim (by assumption) ?_)
    | split | dsimp only

theorem State.setDomainState_sound {q : List Instr} (s : State) (d : Nat) (v : Nat)
    (hq : State.Sound s q) :
    State.Sound (State.setDomainState s d v) q := by
  unfold State.setDomainState
  repeat' first
    | (with_reducible first
      | assumption | apply State.setFld_sound | fail_if_no_progress apply sound_with | intro _)
    | split | dsimp only

theorem State.islandUp_sound {q : List Instr} (s : State) (i : Nat)
    (hq : State.Sound s q) :
    State.Sound (State.islandUp s i) q := by
  unfold State.islandUp
  repeat' first
    | (with_reducible first
      | assumption | apply State.setFld_sound | apply sound_ite | apply sound_ite_snd | fail_if_no_progress apply sound_with
      | intro _)
    | split | dsimp only

theorem State.islandDown_sound {q : List Instr} (s : State) (i : Nat)
    (hq : State.Sound s q) :
    State.Sound (State.islandDown s i) q := by
  unfold State.islandDown
  repeat' first
    | (with_reducible first
      | assumption | apply State.setFld_sound | intro _)
    | split | dsimp only

theorem State.dropFlights_sound {q : List Instr} (s : State) (d : Nat)
    (hq : State.Sound s q) :
    State.Sound (State.dropFlights s d) q := by
  unfold State.dropFlights
  repeat' first
    | (with_reducible first
      | assumption | apply sound_ite | apply sound_ite_snd | fail_if_no_progress apply sound_with | intro _)
    | split | dsimp only

theorem State.gatesLow_sound {q : List Instr} (s : State)
    (hq : State.Sound s q) :
    State.Sound (State.gatesLow s) q := by
  unfold State.gatesLow
  repeat' first
    | (with_reducible first
      | assumption | apply State.emit_sound | apply foldl_sound | apply foldl_snd_sound | apply sound_ite | apply sound_ite_snd
      | intro _)
    | split | dsimp only

theorem State.domainDown_sound {q : List Instr} (s : State) (d : Nat)
    (hq : State.Sound s q) :
    State.Sound (State.domainDown s d) q := by
  unfold State.domainDown
  repeat' first
    | (with_reducible first
      | assumption | apply State.resetDomain_sound | apply State.setDomainState_sound | apply State.islandDown_sound
      | apply State.gatesLow_sound | apply foldl_sound | apply foldl_snd_sound | apply sound_ite | apply sound_ite_snd
      | fail_if_no_progress apply sound_with | intro _)
    | split | dsimp only

theorem State.markWithheld_sound {q : List Instr} (s : State)
    (hq : State.Sound s q) :
    State.Sound (State.markWithheld s) q := by
  unfold State.markWithheld
  repeat' first
    | (with_reducible first
      | assumption | apply State.setFld_sound | intro _)
    | split | dsimp only

theorem State.setMode_sound {q : List Instr} (s : State) (m : Mode)
    (hq : State.Sound s q) :
    State.Sound (State.setMode s m) q := by
  unfold State.setMode
  repeat' first
    | (with_reducible first
      | assumption | apply State.setFld_sound | apply State.raise_sound | apply State.markWithheld_sound | apply sound_ite
      | apply sound_ite_snd | intro _)
    | split | dsimp only

theorem State.rampOutputs_sound {q : List Instr} (s : State) (k : Nat) (n : Nat) (up : Bool) (released : Bool)
    (hq : State.Sound s q) :
    State.Sound (State.rampOutputs s k n up released) q := by
  unfold State.rampOutputs
  repeat' first
    | (with_reducible first
      | assumption | fail_if_no_progress apply sound_with | intro _)
    | split | dsimp only

theorem State.setGate_sound {q : List Instr} (s : State) (released : Bool)
    (hq : State.Sound s q) :
    State.Sound (State.setGate s released) q := by
  unfold State.setGate
  repeat' first
    | (with_reducible first
      | assumption | fail_if_no_progress apply sound_with | intro _)
    | split | dsimp only

theorem State.gateBoundary_sound {q : List Instr} (s : State) (k : Nat)
    (hq : State.Sound s q) :
    State.Sound (State.gateBoundary s k) q := by
  unfold State.gateBoundary
  repeat' first
    | (with_reducible first
      | assumption | apply sound_ite | apply sound_ite_snd | fail_if_no_progress apply sound_with | intro _
      | refine pair_sound (by assumption) ?_ | refine opt_elim (by assumption) ?_ | refine optP_elim (by assumption) ?_
      | refine optP_elim' (by assumption) ?_ | refine exc_elim (by assumption) ?_)
    | split | dsimp only

theorem State.toFallback_sound {q : List Instr} (s : State)
    (hq : State.Sound s q) :
    State.Sound (State.toFallback s) q := by
  unfold State.toFallback
  repeat' first
    | (with_reducible first
      | assumption | apply State.setFld_sound | apply State.raiseMask_sound | apply foldl_sound | apply foldl_snd_sound
      | apply sound_ite | apply sound_ite_snd | fail_if_no_progress apply sound_with | intro _)
    | split | dsimp only

theorem State.fromFallback_sound {q : List Instr} (s : State)
    (hq : State.Sound s q) :
    State.Sound (State.fromFallback s) q := by
  unfold State.fromFallback
  repeat' first
    | (with_reducible first
      | assumption | apply State.setFld_sound | apply foldl_sound | apply foldl_snd_sound | intro _)
    | split | dsimp only

theorem State.islandReturn_sound {q : List Instr} (s : State) (i : Nat)
    (hq : State.Sound s q) :
    State.Sound (State.islandReturn s i) q := by
  unfold State.islandReturn
  repeat' first
    | (with_reducible first
      | assumption | apply State.setFld_sound | apply sound_ite | apply sound_ite_snd | intro _)
    | split | dsimp only

theorem State.pllSearch_sound {q : List Instr} (s : State) (n : Nat)
    (hq : State.Sound s q) :
    State.Sound (State.pllSearch s n) q := by
  unfold State.pllSearch
  repeat' first
    | (with_reducible first
      | assumption | apply State.setFld_sound | intro _)
    | split | dsimp only

theorem State.setCauses_sound {q : List Instr} (s : State) (v : Nat)
    (hq : State.Sound s q) :
    State.Sound (State.setCauses s v) q := by
  unfold State.setCauses
  repeat' first
    | (with_reducible first
      | assumption | apply State.setFld_sound | apply sound_ite | apply sound_ite_snd | fail_if_no_progress apply sound_with
      | intro _)
    | split | dsimp only

theorem State.addCause_sound {q : List Instr} (s : State) (b : Nat)
    (hq : State.Sound s q) :
    State.Sound (State.addCause s b) q := by
  unfold State.addCause
  repeat' first
    | (with_reducible first
      | assumption | apply State.setFld_sound | apply State.setCauses_sound | apply sound_ite | apply sound_ite_snd
      | fail_if_no_progress apply sound_with | intro _ | refine pair_sound (by assumption) ?_
      | refine opt_elim (by assumption) ?_ | refine optP_elim (by assumption) ?_ | refine optP_elim' (by assumption) ?_
      | refine exc_elim (by assumption) ?_)
    | split | dsimp only

theorem State.dropCause_sound {q : List Instr} (s : State) (b : Nat)
    (hq : State.Sound s q) :
    State.Sound (State.dropCause s b) q := by
  unfold State.dropCause
  repeat' first
    | (with_reducible first
      | assumption | apply State.setCauses_sound | intro _)
    | split | dsimp only

theorem State.pllLoss_sound {q : List Instr} (s : State) (n : Nat)
    (hq : State.Sound s q) :
    State.Sound (State.pllLoss s n) q := by
  unfold State.pllLoss
  repeat' first
    | (with_reducible first
      | assumption | apply State.setFld_sound | apply State.bump_sound | apply State.raiseAt_sound
      | apply State.toFallback_sound | apply State.pllSearch_sound | apply State.addCause_sound | apply sound_ite
      | apply sound_ite_snd | fail_if_no_progress apply sound_with | intro _ | refine pair_sound (by assumption) ?_
      | refine opt_elim (by assumption) ?_ | refine optP_elim (by assumption) ?_ | refine optP_elim' (by assumption) ?_
      | refine exc_elim (by assumption) ?_)
    | split | dsimp only

theorem State.pllLock_sound {q : List Instr} (s : State) (n : Nat) (us : Nat) (band : Nat)
    (hq : State.Sound s q) :
    State.Sound (State.pllLock s n us band) q := by
  unfold State.pllLock
  repeat' first
    | (with_reducible first
      | assumption | apply State.setFld_sound | apply State.raiseAt_sound | apply State.fromFallback_sound | apply sound_ite
      | apply sound_ite_snd | fail_if_no_progress apply sound_with | intro _)
    | split | dsimp only

theorem State.bypassExit_sound {q : List Instr} (s : State) (n : Nat)
    (hq : State.Sound s q) :
    State.Sound (State.bypassExit s n) q := by
  unfold State.bypassExit
  repeat' first
    | (with_reducible first
      | assumption | apply State.setFld_sound | apply sound_ite | apply sound_ite_snd | intro _)
    | split | dsimp only

theorem State.fallbackReturn_sound {q : List Instr} (s : State)
    (hq : State.Sound s q) :
    State.Sound (State.fallbackReturn s) q := by
  unfold State.fallbackReturn
  repeat' first
    | (with_reducible first
      | assumption | apply State.fromFallback_sound | apply sound_ite | apply sound_ite_snd
      | fail_if_no_progress apply sound_with | intro _)
    | split | dsimp only

theorem State.phaseStep_sound {q : List Instr} (s : State) (n : Nat) (v : Nat)
    (hq : State.Sound s q) :
    State.Sound (State.phaseStep s n v) q := by
  unfold State.phaseStep
  repeat' first
    | (with_reducible first
      | assumption | apply State.emit_sound | apply sound_ite | apply sound_ite_snd | intro _)
    | split | dsimp only

theorem execPllLossOfLock_sound {q : List Instr} (n : Nat) (s : State)
    (hq : State.Sound s q) :
    NextSound q (execPllLossOfLock n s) := by
  unfold execPllLossOfLock
  repeat' first
    | (with_reducible first
      | assumption | apply State.pllLoss_sound | apply next_sound | intro _)
    | split | dsimp only

theorem execPllLocked_sound {q : List Instr} (n : Nat) (us : Nat) (band : Nat) (s : State)
    (hq : State.Sound s q) :
    NextSound q (execPllLocked n us band s) := by
  unfold execPllLocked
  repeat' first
    | (with_reducible first
      | assumption | apply State.pllLock_sound | apply next_sound | intro _)
    | split | dsimp only

theorem execPllBypassExit_sound {q : List Instr} (n : Nat) (s : State)
    (hq : State.Sound s q) :
    NextSound q (execPllBypassExit n s) := by
  unfold execPllBypassExit
  repeat' first
    | (with_reducible first
      | assumption | apply State.bypassExit_sound | apply next_sound | intro _)
    | split | dsimp only

theorem execFallbackReturnTimer_sound {q : List Instr} (s : State)
    (hq : State.Sound s q) :
    NextSound q (execFallbackReturnTimer s) := by
  unfold execFallbackReturnTimer
  repeat' first
    | (with_reducible first
      | assumption | apply State.fallbackReturn_sound | apply next_sound | intro _)
    | split | dsimp only

theorem execPll03Return_sound {q : List Instr} (s : State)
    (hq : State.Sound s q) :
    NextSound q (execPll03Return s) := by
  unfold execPll03Return
  repeat' first
    | (with_reducible first
      | assumption | apply sound_ite | apply sound_ite_snd | apply next_sound | apply next_ite
      | fail_if_no_progress apply sound_with | intro _)
    | split | dsimp only

end Sys2Proof.Machine
end

