-- ==== Sys2Proof/Laws/KeepsLoad.lean ====
section
/-! SUPPORT. What the operations of Machine/Load.lean keep: one lemma each. -/

set_option linter.unusedTactic false
set_option linter.unreachableTactic false

namespace Sys2Proof.Machine

theorem State.clnRegs_sound {q : List Instr} (s : State) (c : Cfg)
    (hq : State.Sound s q) :
    State.Sound (State.clnRegs s c) q := by
  unfold State.clnRegs
  repeat' first
    | (with_reducible first
      | assumption | apply State.setFld_sound | apply State.clearFlds_sound | apply foldl_sound | apply foldl_snd_sound
      | fail_if_no_progress apply sound_with | intro _ | refine pair_sound (by assumption) ?_
      | refine opt_elim (by assumption) ?_ | refine optP_elim (by assumption) ?_ | refine optP_elim' (by assumption) ?_
      | refine exc_elim (by assumption) ?_)
    | split | dsimp only

theorem State.startOut_sound {q : List Instr} (s : State) (g : ClnGeom) (o : Nat)
    (hq : State.Sound s q) :
    State.Sound (State.startOut s g o) q := by
  unfold State.startOut
  repeat' first
    | (with_reducible first
      | assumption | apply State.setFld_sound | apply State.setOutF_sound | apply State.settleOut_sound
      | fail_if_no_progress apply sound_with | intro _)
    | split | dsimp only

theorem State.clnLoad_sound {q : List Instr} (s : State) (c : Cfg)
    (hq : State.Sound s q) :
    State.Sound (State.clnLoad s c) q := by
  unfold State.clnLoad
  repeat' first
    | (with_reducible first
      | assumption | apply State.clnRegs_sound | apply State.startOut_sound | apply foldl_sound | apply foldl_snd_sound
      | fail_if_no_progress apply sound_with | intro _ | refine pair_sound (by assumption) ?_
      | refine opt_elim (by assumption) ?_ | refine optP_elim (by assumption) ?_ | refine optP_elim' (by assumption) ?_
      | refine exc_elim (by assumption) ?_)
    | split | dsimp only

theorem State.clnSwap_sound {q : List Instr} (s : State) (old : Cfg) (new : Cfg)
    (hq : State.Sound s q) :
    State.Sound (State.clnSwap s old new) q := by
  unfold State.clnSwap
  repeat' first
    | (with_reducible first
      | assumption | apply State.changeXp_sound | apply State.clnRegs_sound | apply State.clnLoad_sound | apply foldl_sound
      | apply foldl_snd_sound | apply sound_ite | apply sound_ite_snd | fail_if_no_progress apply sound_with | intro _)
    | split | dsimp only

theorem State.chmRegs_sound {q : List Instr} (s : State) (c : Cfg)
    (hq : State.Sound s q) :
    State.Sound (State.chmRegs s c) q := by
  unfold State.chmRegs
  repeat' first
    | (with_reducible first
      | assumption | apply State.setFld_sound | apply foldl_sound | apply foldl_snd_sound | intro _)
    | split | dsimp only

theorem State.chmLoad_sound {q : List Instr} (s : State) (c : Cfg)
    (hq : State.Sound s q) :
    State.Sound (State.chmLoad s c) q := by
  unfold State.chmLoad
  repeat' first
    | (with_reducible first
      | assumption | apply State.setCoefs_sound | apply State.chmRegs_sound | fail_if_no_progress apply sound_with | intro _)
    | split | dsimp only

theorem State.putProg_sound {q : List Instr} (s : State) (p : MalProg)
    (hq : State.Sound s q) :
    State.Sound (State.putProg s p) q := by
  unfold State.putProg
  repeat' first
    | (with_reducible first
      | assumption | apply foldl_sound | apply foldl_snd_sound | fail_if_no_progress apply sound_with | intro _)
    | split | dsimp only

theorem State.putDatas_sound {q : List Instr} (s : State) (d : MalData)
    (hq : State.Sound s q) :
    State.Sound (State.putDatas s d) q := by
  unfold State.putDatas
  repeat' first
    | (with_reducible first
      | assumption | apply foldl_sound | apply foldl_snd_sound | fail_if_no_progress apply sound_with | intro _)
    | split | dsimp only

theorem State.putCluster_sound {q : List Instr} (s : State) (m : ClusterRec)
    (hq : State.Sound s q) :
    State.Sound (State.putCluster s m) q := by
  unfold State.putCluster
  repeat' first
    | (with_reducible first
      | assumption | apply foldl_sound | apply foldl_snd_sound | fail_if_no_progress apply sound_with | intro _)
    | split | dsimp only

theorem State.malLoad_sound {q : List Instr} (s : State) (c : Cfg) (cl : Nat)
    (hq : State.Sound s q) :
    State.Sound (State.malLoad s c cl) q := by
  unfold State.malLoad
  repeat' first
    | (with_reducible first
      | assumption | apply State.setFld_sound | apply State.putProg_sound | apply State.putDatas_sound
      | apply State.putCluster_sound | apply foldl_sound | apply foldl_snd_sound | apply sound_dram | apply sound_drams
      | apply sound_with_filter | apply sound_with_filters | fail_if_no_progress apply sound_with | intro _)
    | split | dsimp only

theorem State.malWrite_sound {q : List Instr} (s : State) (old : Cfg) (new : Cfg)
    (hq : State.Sound s q) :
    State.Sound (State.malWrite s old new) q := by
  unfold State.malWrite
  repeat' first
    | (with_reducible first
      | assumption | apply State.putProg_sound | apply State.putDatas_sound | apply State.putCluster_sound | apply foldl_sound
      | apply foldl_snd_sound | apply sound_ite | apply sound_ite_snd | fail_if_no_progress apply sound_with | intro _
      | refine pair_sound (by assumption) ?_ | refine opt_elim (by assumption) ?_ | refine optP_elim (by assumption) ?_
      | refine optP_elim' (by assumption) ?_ | refine exc_elim (by assumption) ?_)
    | split | dsimp only

theorem State.paramSwap_sound {q : List Instr} (s : State) (old : Cfg) (new : Cfg)
    (hq : State.Sound s q) :
    State.Sound (State.paramSwap s old new) q := by
  unfold State.paramSwap
  repeat' first
    | (with_reducible first
      | assumption | apply foldl_sound | apply foldl_snd_sound | apply sound_ite | apply sound_ite_snd
      | fail_if_no_progress apply sound_with | intro _)
    | split | dsimp only

theorem State.malSwap_sound {q : List Instr} (s : State) (old : Cfg) (new : Cfg) (changed : List Nat)
    (hq : State.Sound s q) :
    State.Sound (State.malSwap s old new changed) q := by
  unfold State.malSwap
  repeat' first
    | (with_reducible first
      | assumption | apply State.setFld_sound | apply State.setTaskHist_sound | apply State.paramSwap_sound | apply foldl_sound
      | apply foldl_snd_sound | fail_if_no_progress apply sound_with | intro _)
    | split | dsimp only

theorem State.dplRegs_sound {q : List Instr} (s : State) (c : Cfg)
    (hq : State.Sound s q) :
    State.Sound (State.dplRegs s c) q := by
  unfold State.dplRegs
  repeat' first
    | (with_reducible first
      | assumption | apply State.setFld_sound | apply foldl_sound | apply foldl_snd_sound | intro _)
    | split | dsimp only

theorem State.dplLoad_sound {q : List Instr} (s : State) (c : Cfg)
    (hq : State.Sound s q) :
    State.Sound (State.dplLoad s c) q := by
  unfold State.dplLoad
  repeat' first
    | (with_reducible first
      | assumption | apply State.clearFlds_sound | apply State.newLine_sound | apply State.dplRegs_sound | apply foldl_sound
      | apply foldl_snd_sound | fail_if_no_progress apply sound_with | intro _)
    | split | dsimp only

theorem State.putInits_sound {q : List Instr} (s : State) (is : List InitRec)
    (hq : State.Sound s q) :
    State.Sound (State.putInits s is) q := by
  exact sound_mem hq (foldl_wf (fun m i h => Mems.wf_dramWrite _ _ h) _ hq.2.2.2)

theorem State.brgTake_sound {q : List Instr} (s : State) (c : Cfg) (keep : List Nat)
    (hq : State.Sound s q) :
    State.Sound (State.brgTake s c keep) q := by
  unfold State.brgTake
  repeat' first
    | (with_reducible first
      | assumption | apply State.setFld_sound | apply foldl_sound | apply foldl_snd_sound | apply sound_ite
      | apply sound_ite_snd | fail_if_no_progress apply sound_with | intro _)
    | split | dsimp only

theorem State.blkRegs_sound {q : List Instr} (s : State) (c : Cfg)
    (hq : State.Sound s q) :
    State.Sound (State.blkRegs s c) q := by
  unfold State.blkRegs
  repeat' first
    | (with_reducible first
      | assumption | apply State.setFld_sound | apply foldl_sound | apply foldl_snd_sound | apply sound_ite
      | apply sound_ite_snd | fail_if_no_progress apply sound_with | intro _)
    | split | dsimp only

theorem State.pllRegs_sound {q : List Instr} (s : State) (c : Cfg) (mclk : Bool)
    (hq : State.Sound s q) :
    State.Sound (State.pllRegs s c mclk) q := by
  unfold State.pllRegs
  repeat' first
    | (with_reducible first
      | assumption | apply State.setFld_sound | apply State.setForce_sound | apply foldl_sound | apply foldl_snd_sound
      | apply sound_ite | apply sound_ite_snd | fail_if_no_progress apply sound_with | intro _)
    | split | dsimp only

theorem State.flmRegs_sound {q : List Instr} (s : State) (c : Cfg)
    (hq : State.Sound s q) :
    State.Sound (State.flmRegs s c) q := by
  unfold State.flmRegs
  repeat' first
    | (with_reducible first
      | assumption | apply State.setFld_sound | intro _)
    | split | dsimp only

theorem State.dividers_sound {q : List Instr} (s : State) (c : Cfg)
    (hq : State.Sound s q) :
    State.Sound (State.dividers s c) q := by
  unfold State.dividers
  repeat' first
    | (with_reducible first
      | assumption | apply State.setFld_sound | apply foldl_sound | apply foldl_snd_sound | apply sound_ite
      | apply sound_ite_snd | intro _)
    | split | dsimp only

theorem State.domainLoad_sound {q : List Instr} (s : State) (c : Cfg) (d : Nat)
    (hq : State.Sound s q) :
    State.Sound (State.domainLoad s c d) q := by
  unfold State.domainLoad
  repeat' first
    | (with_reducible first
      | assumption | apply State.beatLoad_sound | apply State.portsLoad_sound | apply State.netLoad_sound
      | apply State.clnLoad_sound | apply State.chmLoad_sound | apply State.malLoad_sound | apply State.dplLoad_sound
      | apply State.brgTake_sound | fail_if_no_progress apply sound_with | intro _ | refine pair_sound (by assumption) ?_
      | refine opt_elim (by assumption) ?_ | refine optP_elim (by assumption) ?_ | refine optP_elim' (by assumption) ?_
      | refine exc_elim (by assumption) ?_)
    | split | dsimp only

theorem State.loadAll_sound {q : List Instr} (s : State) (c : Cfg)
    (hq : State.Sound s q) :
    State.Sound (State.loadAll s c) q := by
  unfold State.loadAll
  repeat' first
    | (with_reducible first
      | assumption | apply State.setFld_sound | apply State.clvLoad_sound | apply State.putInits_sound
      | apply State.blkRegs_sound | apply State.pllRegs_sound | apply State.flmRegs_sound | apply State.dividers_sound
      | apply State.domainLoad_sound | apply foldl_sound | apply foldl_snd_sound | fail_if_no_progress apply sound_with
      | intro _)
    | split | dsimp only

end Sys2Proof.Machine
end

