-- ==== Sys2Proof/Laws/KeepsCommit.lean ====
section
/-! SUPPORT. What the operations of Machine/Commit.lean keep: one lemma each. -/

set_option linter.unusedTactic false
set_option linter.unreachableTactic false

namespace Sys2Proof.Machine

theorem State.commitRefused_sound {q : List Instr} (s : State) (b : CommitBlk) (tag : Nat) (code : Nat)
    (hq : State.Sound s q) :
    State.Sound (State.commitRefused s b tag code) q := by
  unfold State.commitRefused
  repeat' first
    | (with_reducible first
      | assumption | apply State.setFld_sound | intro _)
    | split | dsimp only

theorem State.dropCommit_sound {q : List Instr} (s : State) (b : CommitBlk)
    (hq : State.Sound s q) :
    State.Sound (State.dropCommit s b) q := by
  unfold State.dropCommit
  repeat' first
    | (with_reducible first
      | assumption | apply State.setFld_sound | fail_if_no_progress apply sound_with | intro _)
    | split | dsimp only

theorem State.commitFails_sound {q : List Instr} (s : State) (b : CommitBlk) (tag : Nat) (code : Nat)
    (hq : State.Sound s q) :
    State.Sound (State.commitFails s b tag code) q := by
  unfold State.commitFails
  repeat' first
    | (with_reducible first
      | assumption | apply State.commitRefused_sound | apply State.dropCommit_sound | intro _)
    | split | dsimp only

theorem State.commitDone_sound {q : List Instr} (s : State) (b : CommitBlk) (tag : Nat)
    (hq : State.Sound s q) :
    State.Sound (State.commitDone s b tag) q := by
  unfold State.commitDone
  repeat' first
    | (with_reducible first
      | assumption | apply State.setFld_sound | apply State.dropCommit_sound | intro _)
    | split | dsimp only

theorem State.putSet_sound {q : List Instr} (s : State) (b : CommitBlk) (set : Tbl Nat)
    (hq : State.Sound s q) :
    State.Sound (State.putSet s b set) q := by
  unfold State.putSet
  repeat' first
    | (with_reducible first
      | assumption | apply State.setForce_sound | apply foldl_sound | apply foldl_snd_sound | intro _)
    | split | dsimp only

theorem State.blankTemplate_sound {q : List Instr} (s : State) (b : CommitBlk) (hq : State.Sound s q) :
    State.Sound (State.blankTemplate s b) q := by
  cases b
  case aes n => exact foldl_sound (fun s f h => State.setForce_sound _ _ _ h) _ hq
  all_goals exact hq

theorem State.swapCommits_sound {q : List Instr} (s : State) (swapAt : Nat)
    (hq : State.Sound s q) :
    State.Sound (State.swapCommits s swapAt) q := by
  unfold State.swapCommits
  repeat' first
    | (with_reducible first
      | assumption | apply State.setFld_sound | apply State.commitFails_sound | apply State.blankTemplate_sound
      | apply foldl_sound | apply foldl_snd_sound | fail_if_no_progress apply sound_with | intro _)
    | split | dsimp only

end Sys2Proof.Machine
end

