-- ==== Sys2Proof/Laws/KeepsPeal.lean ====
section
/-! SUPPORT. What the operations of Machine/Peal.lean keep: one lemma each. -/

set_option linter.unusedTactic false
set_option linter.unreachableTactic false

namespace Sys2Proof.Machine

theorem State.setHash_sound {q : List Instr} (s : State) (f : Nat → Fld) (h : List Byte)
    (hq : State.Sound s q) :
    State.Sound (State.setHash s f h) q := by
  unfold State.setHash
  repeat' first
    | (with_reducible first
      | assumption | apply State.setFld_sound | apply foldl_sound | apply foldl_snd_sound | intro _)
    | split | dsimp only

theorem State.bumpGen_sound {q : List Instr} (s : State)
    (hq : State.Sound s q) :
    State.Sound (State.bumpGen s) q := by
  unfold State.bumpGen
  repeat' first
    | (with_reducible first
      | assumption | apply State.setFld_sound | fail_if_no_progress apply sound_with | intro _)
    | split | dsimp only

theorem State.pick_sound {q : List Instr} {α : Type} (s : State) (xs : List α) (hq : State.Sound s q) :
    State.Sound (State.pick s xs).2 q := by
  unfold State.pick
  split
  · exact hq
  · exact State.fresh_sound _ hq

theorem State.movePll00_sound {q : List Instr} (s : State) (fromKhz : Nat) (toKhz : Nat)
    (hq : State.Sound s q) :
    State.Sound (State.movePll00 s fromKhz toKhz) q := by
  unfold State.movePll00
  repeat' first
    | (with_reducible first
      | assumption | apply State.toFallback_sound | apply State.pllSearch_sound | apply sound_ite | apply sound_ite_snd
      | fail_if_no_progress apply sound_with | intro _)
    | split | dsimp only

theorem State.startPll_sound {q : List Instr} (s : State) (n : Nat)
    (hq : State.Sound s q) :
    State.Sound (State.startPll s n) q := by
  unfold State.startPll
  repeat' first
    | (with_reducible first
      | assumption | apply State.pllSearch_sound | apply sound_ite | apply sound_ite_snd | intro _)
    | split | dsimp only

theorem State.bootGoesOn_sound {q : List Instr} (s : State) (c : Cfg)
    (hq : State.Sound s q) :
    State.Sound (State.bootGoesOn s c) q := by
  unfold State.bootGoesOn
  repeat' first
    | (with_reducible first
      | assumption | apply State.setFld_sound | apply State.movePll00_sound | apply State.startPll_sound | apply sound_ite
      | apply sound_ite_snd | fail_if_no_progress apply sound_with | intro _)
    | split | dsimp only

theorem State.reportFailure_sound {q : List Instr} (s : State) (f : Failure)
    (hq : State.Sound s q) :
    State.Sound (State.reportFailure s f) q := by
  unfold State.reportFailure
  repeat' first
    | (with_reducible first
      | assumption | apply State.setFld_sound | apply State.raise_sound | intro _)
    | split | dsimp only

theorem State.startCopy_sound {q : List Instr} (s : State) (slot : Nat) (boot : Bool)
    (hq : State.Sound s q) :
    State.Sound (State.startCopy s slot boot) q := by
  unfold State.startCopy
  repeat' first
    | (with_reducible first
      | assumption | apply State.setFld_sound | apply State.setPlane_sound | apply State.bootStage_sound | apply sound_ite
      | apply sound_ite_snd | fail_if_no_progress apply sound_with | intro _)
    | split | dsimp only

theorem State.rejectStaged_sound {q : List Instr} (s : State) (f : Failure)
    (hq : State.Sound s q) :
    State.Sound (State.rejectStaged s f) q := by
  unfold State.rejectStaged
  repeat' first
    | (with_reducible first
      | assumption | apply State.setFld_sound | apply State.raise_sound | apply State.setPlane_sound
      | apply State.bootStage_sound | apply State.reportFailure_sound | apply State.startCopy_sound | apply sound_ite
      | apply sound_ite_snd | fail_if_no_progress apply sound_with | intro _)
    | split | dsimp only

theorem State.loadHost_sound {q : List Instr} (s : State)
    (hq : State.Sound s q) :
    State.Sound (State.loadHost s) q := by
  unfold State.loadHost
  repeat' first
    | (with_reducible first
      | assumption | apply State.setPlane_sound | apply State.bootStage_sound | apply sound_ite | apply sound_ite_snd
      | fail_if_no_progress apply sound_with | intro _)
    | split | dsimp only

theorem State.loadFlash_sound {q : List Instr} (s : State) (slot : Nat)
    (hq : State.Sound s q) :
    State.Sound (State.loadFlash s slot) q := by
  unfold State.loadFlash
  repeat' first
    | (with_reducible first
      | assumption | apply State.reportFailure_sound | apply State.startCopy_sound | apply sound_ite | apply sound_ite_snd
      | intro _)
    | split | dsimp only

theorem State.loadAbort_sound {q : List Instr} (s : State)
    (hq : State.Sound s q) :
    State.Sound (State.loadAbort s) q := by
  unfold State.loadAbort
  repeat' first
    | (with_reducible first
      | assumption | apply State.fresh_sound | apply State.setPlane_sound | apply State.bootStage_sound | apply sound_ite
      | apply sound_ite_snd | apply sound_dram | apply sound_drams | apply sound_with_filter | apply sound_with_filters
      | fail_if_no_progress apply sound_with | intro _)
    | split | dsimp only

theorem State.copyDone_sound {q : List Instr} (s : State)
    (hq : State.Sound s q) :
    State.Sound (State.copyDone s) q := by
  unfold State.copyDone
  repeat' first
    | (with_reducible first
      | assumption | apply State.setPlane_sound | apply State.bootStage_sound | apply State.pick_sound
      | apply State.rejectStaged_sound | apply sound_ite | apply sound_ite_snd | apply sound_dram | apply sound_drams
      | apply sound_with_filter | apply sound_with_filters | fail_if_no_progress apply sound_with | intro _
      | refine pair_sound (by assumption) ?_ | refine opt_elim (by assumption) ?_ | refine optP_elim (by assumption) ?_
      | refine optP_elim' (by assumption) ?_ | refine exc_elim (by assumption) ?_)
    | split | dsimp only

theorem State.makeLive_sound {q : List Instr} (s : State) (p : Nat) (c : Cfg) (hash : List Byte)
    (hq : State.Sound s q) :
    State.Sound (State.makeLive s p c hash) q := by
  unfold State.makeLive
  repeat' first
    | (with_reducible first
      | assumption | apply State.setFld_sound | apply State.setPlane_sound | apply State.loadAll_sound
      | apply State.setHash_sound | apply State.bumpGen_sound | apply State.bootGoesOn_sound
      | fail_if_no_progress apply sound_with | intro _)
    | split | dsimp only

theorem State.putComposed_sound {q : List Instr} (s : State) (p : Nat) (bs : Option (List Byte)) (hq : State.Sound s q) :
    State.Sound (State.putComposed s p bs) q := by
  cases bs
  · exact hq
  · exact sound_mem hq (Mems.wf_dramWrite _ _ hq.2.2.2)

theorem State.verifyDone_sound {q : List Instr} (s : State)
    (hq : State.Sound s q) :
    State.Sound (State.verifyDone s) q := by
  unfold State.verifyDone
  repeat' first
    | (with_reducible first
      | assumption | apply State.setFld_sound | apply State.fresh_sound | apply State.raise_sound | apply State.countUe_sound
      | apply State.setPlane_sound | apply State.setHash_sound | apply State.pick_sound | apply State.rejectStaged_sound
      | apply State.makeLive_sound | apply State.putComposed_sound | apply sound_ite | apply sound_ite_snd
      | fail_if_no_progress apply sound_with | intro _ | refine pair_sound (by assumption) ?_
      | refine opt_elim (by assumption) ?_ | refine optP_elim (by assumption) ?_ | refine optP_elim' (by assumption) ?_
      | refine exc_elim (by assumption) ?_)
    | split | dsimp only

theorem State.setSwap_sound {q : List Instr} (s : State) (st : Nat)
    (hq : State.Sound s q) :
    State.Sound (State.setSwap s st) q := by
  unfold State.setSwap
  repeat' first
    | (with_reducible first
      | assumption | apply State.setFld_sound | intro _)
    | split | dsimp only

theorem State.swapRefused_sound {q : List Instr} (s : State) (detail : Nat)
    (hq : State.Sound s q) :
    State.Sound (State.swapRefused s detail) q := by
  unfold State.swapRefused
  repeat' first
    | (with_reducible first
      | assumption | apply State.setFld_sound | apply State.raise_sound | intro _)
    | split | dsimp only

theorem State.swapWork_sound {q : List Instr} (s : State) (old : Cfg) (new : Cfg)
    (hq : State.Sound s q) :
    State.Sound (State.swapWork s old new).2 q := by
  unfold State.swapWork
  repeat' first
    | (with_reducible first
      | assumption | apply State.fresh_sound | apply foldl_sound | apply foldl_snd_sound | apply sound_ite | apply sound_ite_snd
      | fail_if_no_progress apply sound_with | intro _)
    | split | dsimp only

theorem State.swapCheck_sound {q : List Instr} (s : State) (set : Tbl Nat) (at_ : Nat)
    (hq : State.Sound s q) :
    State.Sound (State.swapCheck s set at_).2 q := by
  unfold State.swapCheck
  repeat' first
    | (with_reducible first
      | assumption | apply State.fresh_sound | apply State.pick_sound | apply State.swapWork_sound | apply sound_ite
      | apply sound_ite_snd | fail_if_no_progress apply sound_with | intro _ | refine pair_sound (by assumption) ?_
      | refine opt_elim (by assumption) ?_ | refine optP_elim (by assumption) ?_ | refine optP_elim' (by assumption) ?_
      | refine exc_elim (by assumption) ?_)
    | split | dsimp only

theorem State.swapDenied_sound {q : List Instr} (s : State) (detail : Nat)
    (hq : State.Sound s q) :
    State.Sound (State.swapDenied s detail) q := by
  unfold State.swapDenied
  repeat' first
    | (with_reducible first
      | assumption | apply State.raise_sound | apply State.countUe_sound | apply State.setPlane_sound
      | apply State.swapRefused_sound | apply sound_ite | apply sound_ite_snd | fail_if_no_progress apply sound_with | intro _
      | refine pair_sound (by assumption) ?_ | refine opt_elim (by assumption) ?_ | refine optP_elim (by assumption) ?_
      | refine optP_elim' (by assumption) ?_ | refine exc_elim (by assumption) ?_)
    | split | dsimp only

theorem State.swapStops_sound {q : List Instr} (s : State) (a : Armed) (left : Nat)
    (hq : State.Sound s q) :
    State.Sound (State.swapStops s a left) q := by
  unfold State.swapStops
  repeat' first
    | (with_reducible first
      | assumption | apply State.beatHold_sound | apply State.netStop_sound | apply sound_ite | apply sound_ite_snd
      | fail_if_no_progress apply sound_with | intro _ | refine pair_sound (by assumption) ?_
      | refine opt_elim (by assumption) ?_ | refine optP_elim (by assumption) ?_ | refine optP_elim' (by assumption) ?_
      | refine exc_elim (by assumption) ?_)
    | split | dsimp only

theorem State.swapArm_sound {q : List Instr} (s : State) (a : Armed) (work : Nat)
    (hq : State.Sound s q) :
    State.Sound (State.swapArm s a work) q := by
  unfold State.swapArm
  repeat' first
    | (with_reducible first
      | assumption | apply State.setFld_sound | apply State.raise_sound | apply State.setPlane_sound | apply State.chmArm_sound
      | apply State.setSwap_sound | apply State.swapStops_sound | apply sound_ite | apply sound_ite_snd
      | fail_if_no_progress apply sound_with | intro _ | refine pair_sound (by assumption) ?_
      | refine opt_elim (by assumption) ?_ | refine optP_elim (by assumption) ?_ | refine optP_elim' (by assumption) ?_
      | refine exc_elim (by assumption) ?_)
    | split | dsimp only

theorem State.swapWrite_sound {q : List Instr} (s : State)
    (hq : State.Sound s q) :
    State.Sound (State.swapWrite s) q := by
  unfold State.swapWrite
  repeat' first
    | (with_reducible first
      | assumption | apply State.chmPrewrite_sound | apply State.malWrite_sound | apply State.putInits_sound | apply sound_ite
      | apply sound_ite_snd | fail_if_no_progress apply sound_with | intro _ | refine pair_sound (by assumption) ?_
      | refine opt_elim (by assumption) ?_ | refine optP_elim (by assumption) ?_ | refine optP_elim' (by assumption) ?_
      | refine exc_elim (by assumption) ?_)
    | split | dsimp only

theorem State.swapCancel_sound {q : List Instr} (s : State) (toState : Nat)
    (hq : State.Sound s q) :
    State.Sound (State.swapCancel s toState) q := by
  unfold State.swapCancel
  repeat' first
    | (with_reducible first
      | assumption | apply State.setFld_sound | apply State.setBchan_sound | apply State.setPlane_sound
      | apply State.chmDisarm_sound | apply State.setUnit_sound | apply State.setOutS_sound | apply State.setSwap_sound
      | apply foldl_sound | apply foldl_snd_sound | apply sound_ite | apply sound_ite_snd | fail_if_no_progress apply sound_with
      | intro _ | refine pair_sound (by assumption) ?_ | refine opt_elim (by assumption) ?_
      | refine optP_elim (by assumption) ?_ | refine optP_elim' (by assumption) ?_ | refine exc_elim (by assumption) ?_)
    | split | dsimp only

theorem State.swapSpoilt_sound {q : List Instr} (s : State) (w : Nat)
    (hq : State.Sound s q) :
    State.Sound (State.swapSpoilt s w) q := by
  unfold State.swapSpoilt
  repeat' first
    | (with_reducible first
      | assumption | apply State.countUe_sound | apply State.swapRefused_sound | apply State.swapCancel_sound | intro _)
    | split | dsimp only

theorem State.swapPrepared_sound {q : List Instr} (s : State)
    (hq : State.Sound s q) :
    State.Sound (State.swapPrepared s) q := by
  unfold State.swapPrepared
  repeat' first
    | (with_reducible first
      | assumption | apply State.setFld_sound | apply State.setSwap_sound | apply State.swapWrite_sound
      | apply State.swapSpoilt_sound | apply sound_ite | apply sound_ite_snd | fail_if_no_progress apply sound_with | intro _
      | refine pair_sound (by assumption) ?_ | refine opt_elim (by assumption) ?_ | refine optP_elim (by assumption) ?_
      | refine optP_elim' (by assumption) ?_ | refine exc_elim (by assumption) ?_)
    | split | dsimp only

theorem State.swapAbort_sound {q : List Instr} (s : State)
    (hq : State.Sound s q) :
    State.Sound (State.swapAbort s) q := by
  unfold State.swapAbort
  repeat' first
    | (with_reducible first
      | assumption | apply State.swapCancel_sound | apply sound_ite | apply sound_ite_snd | fail_if_no_progress apply sound_with
      | intro _ | refine pair_sound (by assumption) ?_ | refine opt_elim (by assumption) ?_
      | refine optP_elim (by assumption) ?_ | refine optP_elim' (by assumption) ?_ | refine exc_elim (by assumption) ?_)
    | split | dsimp only

theorem State.flmOff_sound {q : List Instr} (s : State)
    (hq : State.Sound s q) :
    State.Sound (State.flmOff s) q := by
  unfold State.flmOff
  repeat' first
    | (with_reducible first
      | assumption | apply State.setFld_sound | apply State.alert_sound | apply foldl_sound | apply foldl_snd_sound
      | fail_if_no_progress apply sound_with | intro _)
    | split | dsimp only

theorem State.takePlane_sound {q : List Instr} (s : State) (old : Cfg) (a : Armed)
    (hq : State.Sound s q) :
    State.Sound (State.takePlane s old a) q := by
  unfold State.takePlane
  repeat' first
    | (with_reducible first
      | assumption | apply State.beatSwap_sound | apply State.chmSwap_sound | apply State.portsSwap_sound
      | apply State.clvSwap_sound | apply State.dplSwap_sound | apply State.netSwap_sound | apply State.clnSwap_sound
      | apply State.chmRegs_sound | apply State.malWrite_sound | apply State.malSwap_sound | apply State.dplRegs_sound
      | apply State.brgTake_sound | apply State.blkRegs_sound | apply State.pllRegs_sound | apply State.flmRegs_sound
      | apply State.dividers_sound | apply State.swapCommits_sound | apply State.swapWrite_sound | apply State.flmOff_sound
      | apply sound_ite | apply sound_ite_snd | fail_if_no_progress apply sound_with | intro _)
    | split | dsimp only

theorem State.restartPorts_sound {q : List Instr} (s : State)
    (hq : State.Sound s q) :
    State.Sound (State.restartPorts s) q := by
  unfold State.restartPorts
  repeat' first
    | (with_reducible first
      | assumption | apply State.enterPreroll_sound | apply foldl_sound | apply foldl_snd_sound | apply sound_ite
      | apply sound_ite_snd | intro _)
    | split | dsimp only

theorem State.changeClocks_sound {q : List Instr} (s : State) (old : Cfg) (new : Cfg)
    (hq : State.Sound s q) :
    State.Sound (State.changeClocks s old new) q := by
  unfold State.changeClocks
  repeat' first
    | (with_reducible first
      | assumption | apply State.movePll00_sound | apply State.startPll_sound | apply State.restartPorts_sound | apply sound_ite
      | apply sound_ite_snd | fail_if_no_progress apply sound_with | intro _)
    | split | dsimp only

theorem State.swapStart_sound {q : List Instr} (s : State)
    (hq : State.Sound s q) :
    State.Sound (State.swapStart s) q := by
  unfold State.swapStart
  repeat' first
    | (with_reducible first
      | assumption | apply State.setFld_sound | apply State.raise_sound | apply State.setPlane_sound | apply State.setHash_sound
      | apply State.bumpGen_sound | apply State.setSwap_sound | apply State.swapSpoilt_sound | apply State.takePlane_sound
      | apply State.changeClocks_sound | apply sound_ite | apply sound_ite_snd | fail_if_no_progress apply sound_with | intro _
      | refine pair_sound (by assumption) ?_ | refine opt_elim (by assumption) ?_ | refine optP_elim (by assumption) ?_
      | refine optP_elim' (by assumption) ?_ | refine exc_elim (by assumption) ?_)
    | split | dsimp only

theorem State.swapHoldEnd_sound {q : List Instr} (s : State)
    (hq : State.Sound s q) :
    State.Sound (State.swapHoldEnd s) q := by
  unfold State.swapHoldEnd
  repeat' first
    | (with_reducible first
      | assumption | apply State.hold_sound | apply State.setSwap_sound | apply sound_ite | apply sound_ite_snd
      | fail_if_no_progress apply sound_with | intro _ | refine pair_sound (by assumption) ?_
      | refine opt_elim (by assumption) ?_ | refine optP_elim (by assumption) ?_ | refine optP_elim' (by assumption) ?_
      | refine exc_elim (by assumption) ?_)
    | split | dsimp only

theorem State.xfadeFinish_sound {q : List Instr} (s : State)
    (hq : State.Sound s q) :
    State.Sound (State.xfadeFinish s) q := by
  unfold State.xfadeFinish
  repeat' first
    | (with_reducible first
      | assumption | apply State.raise_sound | apply State.setPlane_sound | apply State.setSwap_sound | apply sound_ite
      | apply sound_ite_snd | fail_if_no_progress apply sound_with | intro _ | refine pair_sound (by assumption) ?_
      | refine opt_elim (by assumption) ?_ | refine optP_elim (by assumption) ?_ | refine optP_elim' (by assumption) ?_
      | refine exc_elim (by assumption) ?_)
    | split | dsimp only

theorem State.xfadeEnd_sound {q : List Instr} (s : State)
    (hq : State.Sound s q) :
    State.Sound (State.xfadeEnd s) q := by
  unfold State.xfadeEnd
  repeat' first
    | (with_reducible first
      | assumption | apply State.xfadeFinish_sound | apply sound_ite | apply sound_ite_snd
      | fail_if_no_progress apply sound_with | intro _ | refine pair_sound (by assumption) ?_
      | refine opt_elim (by assumption) ?_ | refine optP_elim (by assumption) ?_ | refine optP_elim' (by assumption) ?_
      | refine exc_elim (by assumption) ?_)
    | split | dsimp only

theorem State.swapLimp_sound {q : List Instr} (s : State)
    (hq : State.Sound s q) :
    State.Sound (State.swapLimp s) q := by
  unfold State.swapLimp
  repeat' first
    | (with_reducible first
      | assumption | apply State.swapRefused_sound | apply State.swapCancel_sound | apply State.xfadeFinish_sound
      | apply sound_ite | apply sound_ite_snd | fail_if_no_progress apply sound_with | intro _
      | refine pair_sound (by assumption) ?_ | refine opt_elim (by assumption) ?_ | refine optP_elim (by assumption) ?_
      | refine optP_elim' (by assumption) ?_ | refine exc_elim (by assumption) ?_)
    | split | dsimp only

theorem State.swapBoundary_sound {q : List Instr} (s : State) (k : Nat)
    (hq : State.Sound s q) :
    State.Sound (State.swapBoundary s k) q := by
  unfold State.swapBoundary
  repeat' first
    | (with_reducible first
      | assumption | apply State.setFld_sound | apply State.swapStops_sound | apply sound_ite | apply sound_ite_snd
      | fail_if_no_progress apply sound_with | intro _ | refine pair_sound (by assumption) ?_
      | refine opt_elim (by assumption) ?_ | refine optP_elim (by assumption) ?_ | refine optP_elim' (by assumption) ?_
      | refine exc_elim (by assumption) ?_)
    | split | dsimp only

theorem State.swapFill_sound {q : List Instr} (s : State) (k : Nat)
    (hq : State.Sound s q) :
    State.Sound (State.swapFill s k) q := by
  unfold State.swapFill
  repeat' first
    | (with_reducible first
      | assumption | apply State.fillLine_sound | apply foldl_sound | apply foldl_snd_sound | apply sound_ite
      | apply sound_ite_snd | fail_if_no_progress apply sound_with | intro _ | refine pair_sound (by assumption) ?_
      | refine opt_elim (by assumption) ?_ | refine optP_elim (by assumption) ?_ | refine optP_elim' (by assumption) ?_
      | refine exc_elim (by assumption) ?_)
    | split | dsimp only

theorem execFlashCopyDone_sound {q : List Instr} (s : State)
    (hq : State.Sound s q) :
    NextSound q (execFlashCopyDone s) := by
  unfold execFlashCopyDone
  repeat' first
    | (with_reducible first
      | assumption | apply State.copyDone_sound | apply next_sound | intro _)
    | split | dsimp only

theorem execVerifyDone_sound {q : List Instr} (s : State)
    (hq : State.Sound s q) :
    NextSound q (execVerifyDone s) := by
  unfold execVerifyDone
  repeat' first
    | (with_reducible first
      | assumption | apply State.verifyDone_sound | apply next_sound | intro _)
    | split | dsimp only

theorem execSwapPrepared_sound {q : List Instr} (s : State)
    (hq : State.Sound s q) :
    NextSound q (execSwapPrepared s) := by
  unfold execSwapPrepared
  repeat' first
    | (with_reducible first
      | assumption | apply State.swapPrepared_sound | apply next_sound | intro _)
    | split | dsimp only

theorem execSwapHoldEnd_sound {q : List Instr} (s : State)
    (hq : State.Sound s q) :
    NextSound q (execSwapHoldEnd s) := by
  unfold execSwapHoldEnd
  repeat' first
    | (with_reducible first
      | assumption | apply State.swapHoldEnd_sound | apply next_sound | intro _)
    | split | dsimp only

theorem execSwapXfadeEnd_sound {q : List Instr} (s : State)
    (hq : State.Sound s q) :
    NextSound q (execSwapXfadeEnd s) := by
  unfold execSwapXfadeEnd
  repeat' first
    | (with_reducible first
      | assumption | apply State.xfadeEnd_sound | apply next_sound | intro _)
    | split | dsimp only

end Sys2Proof.Machine
end

