-- ==== Sys2Proof/Laws/KeepsFlam.lean ====
section
/-! SUPPORT. What the operations of Machine/Flam.lean keep: one lemma each. -/

set_option linter.unusedTactic false
set_option linter.unreachableTactic false

namespace Sys2Proof.Machine

theorem State.setFlm_sound {q : List Instr} (s : State) (st : Nat)
    (hq : State.Sound s q) :
    State.Sound (State.setFlm s st) q := by
  unfold State.setFlm
  repeat' first
    | (with_reducible first
      | assumption | apply State.setFld_sound | apply State.alert_sound | apply foldl_sound | apply foldl_snd_sound
      | apply sound_ite | apply sound_ite_snd | fail_if_no_progress apply sound_with | intro _)
    | split | dsimp only

theorem State.bumpMirrorGen_sound {q : List Instr} (s : State)
    (hq : State.Sound s q) :
    State.Sound (State.bumpMirrorGen s) q := by
  unfold State.bumpMirrorGen
  repeat' first
    | (with_reducible first
      | assumption | apply State.setFld_sound | fail_if_no_progress apply sound_with | intro _)
    | split | dsimp only

theorem State.mirrorApplied_sound {q : List Instr} (s : State) (k : Nat)
    (hq : State.Sound s q) :
    State.Sound (State.mirrorApplied s k) q := by
  unfold State.mirrorApplied
  repeat' first
    | (with_reducible first
      | assumption | apply State.bumpMirrorGen_sound | apply sound_ite | apply sound_ite_snd
      | fail_if_no_progress apply sound_with | intro _)
    | split | dsimp only

theorem State.flmWithhold_sound {q : List Instr} (s : State)
    (hq : State.Sound s q) :
    State.Sound (State.flmWithhold s) q := by
  unfold State.flmWithhold
  repeat' first
    | (with_reducible first
      | assumption | apply State.markWithheld_sound | apply State.setMode_sound | apply State.setGate_sound | apply sound_ite
      | apply sound_ite_snd | fail_if_no_progress apply sound_with | intro _)
    | split | dsimp only

theorem State.flmRelease_sound {q : List Instr} (s : State)
    (hq : State.Sound s q) :
    State.Sound (State.flmRelease s) q := by
  unfold State.flmRelease
  repeat' first
    | (with_reducible first
      | assumption | apply State.markWithheld_sound | apply State.setMode_sound | apply sound_ite | apply sound_ite_snd
      | fail_if_no_progress apply sound_with | intro _)
    | split | dsimp only

theorem State.flmPairing_sound {q : List Instr} (s : State)
    (hq : State.Sound s q) :
    State.Sound (State.flmPairing s) q := by
  unfold State.flmPairing
  repeat' first
    | (with_reducible first
      | assumption | apply State.setFld_sound | apply State.setFlm_sound | fail_if_no_progress apply sound_with | intro _)
    | split | dsimp only

theorem State.enterResync_sound {q : List Instr} (s : State) (reason : Nat) (empty : Bool)
    (hq : State.Sound s q) :
    State.Sound (State.enterResync s reason empty) q := by
  unfold State.enterResync
  repeat' first
    | (with_reducible first
      | assumption | apply State.setFld_sound | apply State.raise_sound | apply State.setFlm_sound | apply sound_ite
      | apply sound_ite_snd | fail_if_no_progress apply sound_with | intro _ | refine pair_sound (by assumption) ?_
      | refine opt_elim (by assumption) ?_ | refine optP_elim (by assumption) ?_ | refine optP_elim' (by assumption) ?_
      | refine exc_elim (by assumption) ?_)
    | split | dsimp only

theorem State.pairWrite_sound {q : List Instr} (s : State) (m : MirrorRec) (off : Nat) (xs : List Nat)
    (hq : State.Sound s q) :
    State.Sound (State.pairWrite s m off xs) q := by
  unfold State.pairWrite
  repeat' first
    | (with_reducible first
      | assumption | apply State.putShared_sound | apply State.putData_sound | apply sound_ite | apply sound_ite_snd | intro _)
    | split | dsimp only

theorem State.flmRegionsAt_sound {q : List Instr} (s : State) (k : Nat)
    (hq : State.Sound s q) :
    State.Sound (State.flmRegionsAt s k) q := by
  unfold State.flmRegionsAt
  repeat' first
    | (with_reducible first
      | assumption | apply State.pairWrite_sound | apply foldl_sound | apply foldl_snd_sound
      | fail_if_no_progress apply sound_with | intro _ | refine pair_sound (by assumption) ?_
      | refine opt_elim (by assumption) ?_ | refine optP_elim (by assumption) ?_ | refine optP_elim' (by assumption) ?_
      | refine exc_elim (by assumption) ?_)
    | split | dsimp only

theorem State.sendRegions_sound {q : List Instr} (s : State) (k : Nat)
    (hq : State.Sound s q) :
    State.Sound (State.sendRegions s k) q := by
  unfold State.sendRegions
  repeat' first
    | (with_reducible first
      | assumption | apply State.emit_sound | apply sound_ite | apply sound_ite_snd | fail_if_no_progress apply sound_with
      | intro _ | refine pair_sound (by assumption) ?_ | refine opt_elim (by assumption) ?_
      | refine optP_elim (by assumption) ?_ | refine optP_elim' (by assumption) ?_ | refine exc_elim (by assumption) ?_)
    | split | dsimp only

theorem State.evidenceNow_sound {q : List Instr} (s : State)
    (hq : State.Sound s q) :
    State.Sound (State.evidenceNow s).2 q := by
  unfold State.evidenceNow
  repeat' first
    | (with_reducible first
      | assumption | apply State.fresh_sound | apply State.hold_sound | apply foldl_sound | apply foldl_snd_sound
      | apply sound_ite | apply sound_ite_snd | fail_if_no_progress apply sound_with | intro _
      | refine pair_sound (by assumption) ?_ | refine opt_elim (by assumption) ?_ | refine optP_elim (by assumption) ?_
      | refine optP_elim' (by assumption) ?_ | refine exc_elim (by assumption) ?_)
    | split | dsimp only

theorem State.flmEvidence_sound {q : List Instr} (s : State)
    (hq : State.Sound s q) :
    State.Sound (State.flmEvidence s) q := by
  unfold State.flmEvidence
  repeat' first
    | (with_reducible first
      | assumption | apply State.setFld_sound | apply State.evidenceNow_sound | apply foldl_sound | apply foldl_snd_sound
      | fail_if_no_progress apply sound_with | intro _)
    | split | dsimp only

theorem State.recordPeer_sound {q : List Instr} (s : State) (b : Heartbeat)
    (hq : State.Sound s q) :
    State.Sound (State.recordPeer s b) q := by
  unfold State.recordPeer
  repeat' first
    | (with_reducible first
      | assumption | apply State.setFld_sound | apply foldl_sound | apply foldl_snd_sound | intro _)
    | split | dsimp only

theorem State.heartbeatRx_sound {q : List Instr} (s : State) (payload : List Byte) (skew : Int)
    (hq : State.Sound s q) :
    State.Sound (State.heartbeatRx s payload skew) q := by
  unfold State.heartbeatRx
  repeat' first
    | (with_reducible first
      | assumption | apply State.setFld_sound | apply State.recordPeer_sound | apply sound_ite | apply sound_ite_snd
      | fail_if_no_progress apply sound_with | intro _ | refine pair_sound (by assumption) ?_
      | refine opt_elim (by assumption) ?_ | refine optP_elim (by assumption) ?_ | refine optP_elim' (by assumption) ?_
      | refine exc_elim (by assumption) ?_)
    | split | dsimp only

theorem State.releaseLevels_sound {q : List Instr} (s : State)
    (hq : State.Sound s q) :
    State.Sound (State.releaseLevels s) q := by
  unfold State.releaseLevels
  repeat' first
    | (with_reducible first
      | assumption | fail_if_no_progress apply sound_with | intro _)
    | split | dsimp only

theorem State.flmTakeover_sound {q : List Instr} (s : State)
    (hq : State.Sound s q) :
    State.Sound (State.flmTakeover s) q := by
  unfold State.flmTakeover
  repeat' first
    | (with_reducible first
      | assumption | apply State.setFld_sound | apply State.bump_sound | apply State.raise_sound | apply State.setGate_sound
      | apply State.setFlm_sound | apply State.bumpMirrorGen_sound | apply State.flmRelease_sound
      | apply State.releaseLevels_sound | apply sound_ite | apply sound_ite_snd | fail_if_no_progress apply sound_with | intro _
      | refine pair_sound (by assumption) ?_ | refine opt_elim (by assumption) ?_ | refine optP_elim (by assumption) ?_
      | refine optP_elim' (by assumption) ?_ | refine exc_elim (by assumption) ?_)
    | split | dsimp only

theorem State.flmYield_sound {q : List Instr} (s : State) (k : Nat)
    (hq : State.Sound s q) :
    State.Sound (State.flmYield s k) q := by
  unfold State.flmYield
  repeat' first
    | (with_reducible first
      | assumption | apply State.raise_sound | apply State.setFlm_sound | apply sound_ite | apply sound_ite_snd
      | fail_if_no_progress apply sound_with | intro _ | refine pair_sound (by assumption) ?_
      | refine opt_elim (by assumption) ?_ | refine optP_elim (by assumption) ?_ | refine optP_elim' (by assumption) ?_
      | refine exc_elim (by assumption) ?_)
    | split | dsimp only

theorem State.flmYieldEnd_sound {q : List Instr} (s : State)
    (hq : State.Sound s q) :
    State.Sound (State.flmYieldEnd s) q := by
  unfold State.flmYieldEnd
  repeat' first
    | (with_reducible first
      | assumption | apply State.fresh_sound | apply State.setFlm_sound | apply State.flmWithhold_sound
      | apply State.enterResync_sound | apply sound_ite | apply sound_ite_snd | fail_if_no_progress apply sound_with | intro _
      | refine pair_sound (by assumption) ?_ | refine opt_elim (by assumption) ?_ | refine optP_elim (by assumption) ?_
      | refine optP_elim' (by assumption) ?_ | refine exc_elim (by assumption) ?_)
    | split | dsimp only

theorem State.flmResyncComplete_sound {q : List Instr} (s : State)
    (hq : State.Sound s q) :
    State.Sound (State.flmResyncComplete s) q := by
  unfold State.flmResyncComplete
  repeat' first
    | (with_reducible first
      | assumption | apply State.setFld_sound | apply State.raise_sound | apply State.setFlm_sound
      | apply State.recordPeer_sound | apply sound_ite | apply sound_ite_snd | fail_if_no_progress apply sound_with | intro _
      | refine pair_sound (by assumption) ?_ | refine opt_elim (by assumption) ?_ | refine optP_elim (by assumption) ?_
      | refine optP_elim' (by assumption) ?_ | refine exc_elim (by assumption) ?_)
    | split | dsimp only

theorem State.flmWtrExpiry_sound {q : List Instr} (s : State)
    (hq : State.Sound s q) :
    State.Sound (State.flmWtrExpiry s) q := by
  unfold State.flmWtrExpiry
  repeat' first
    | (with_reducible first
      | assumption | apply sound_ite | apply sound_ite_snd | fail_if_no_progress apply sound_with | intro _)
    | split | dsimp only

theorem State.flmSettle_sound {q : List Instr} (s : State)
    (hq : State.Sound s q) :
    State.Sound (State.flmSettle s) q := by
  unfold State.flmSettle
  repeat' first
    | (with_reducible first
      | assumption | apply State.flmTakeover_sound | apply State.flmYieldEnd_sound | apply State.flmResyncComplete_sound
      | apply State.flmWtrExpiry_sound | intro _)
    | split | dsimp only

theorem State.flmMissing_sound {q : List Instr} (s : State) (k : Nat)
    (hq : State.Sound s q) :
    State.Sound (State.flmMissing s k) q := by
  unfold State.flmMissing
  repeat' first
    | (with_reducible first
      | assumption | apply State.setFld_sound | apply State.bump_sound | apply State.raise_sound | apply State.setFlm_sound
      | apply State.flmPairing_sound | apply sound_ite | apply sound_ite_snd | fail_if_no_progress apply sound_with | intro _)
    | split | dsimp only

theorem State.flmCompare_sound {q : List Instr} (s : State) (k : Nat)
    (hq : State.Sound s q) :
    State.Sound (State.flmCompare s k) q := by
  unfold State.flmCompare
  repeat' first
    | (with_reducible first
      | assumption | apply State.setFld_sound | apply State.bump_sound | apply foldl_sound | apply foldl_snd_sound
      | apply sound_ite | apply sound_ite_snd | fail_if_no_progress apply sound_with | intro _
      | refine pair_sound (by assumption) ?_ | refine opt_elim (by assumption) ?_ | refine optP_elim (by assumption) ?_
      | refine optP_elim' (by assumption) ?_ | refine exc_elim (by assumption) ?_)
    | split | dsimp only

theorem State.flmDecide_sound {q : List Instr} (s : State) (k : Nat)
    (hq : State.Sound s q) :
    State.Sound (State.flmDecide s k) q := by
  unfold State.flmDecide
  repeat' first
    | (with_reducible first
      | assumption | apply State.raise_sound | apply State.enterResync_sound | apply sound_ite | apply sound_ite_snd
      | fail_if_no_progress apply sound_with | intro _ | refine pair_sound (by assumption) ?_
      | refine opt_elim (by assumption) ?_ | refine optP_elim (by assumption) ?_ | refine optP_elim' (by assumption) ?_
      | refine exc_elim (by assumption) ?_)
    | split | dsimp only

theorem State.flmForced_sound {q : List Instr} (s : State)
    (hq : State.Sound s q) :
    State.Sound (State.flmForced s) q := by
  unfold State.flmForced
  repeat' first
    | (with_reducible first
      | assumption | apply State.flmWithhold_sound | apply State.flmPairing_sound | apply sound_ite | apply sound_ite_snd
      | intro _)
    | split | dsimp only

theorem State.flmPair_sound {q : List Instr} (s : State) (k : Nat)
    (hq : State.Sound s q) :
    State.Sound (State.flmPair s k) q := by
  unfold State.flmPair
  repeat' first
    | (with_reducible first
      | assumption | apply State.setFld_sound | apply State.raise_sound | apply State.enterResync_sound | apply sound_ite
      | apply sound_ite_snd | fail_if_no_progress apply sound_with | intro _ | refine pair_sound (by assumption) ?_
      | refine opt_elim (by assumption) ?_ | refine optP_elim (by assumption) ?_ | refine optP_elim' (by assumption) ?_
      | refine exc_elim (by assumption) ?_)
    | split | dsimp only

theorem State.installObj_sound {q : List Instr} (s : State) (o : ChunkObj) (hq : State.Sound s q) :
    State.Sound (State.installObj s o) q := by
  cases o with
  | field k v => exact sound_regs hq (Tbl.sorted_set _ _ _ hq.2.1)
  | force k v => exact sound_force hq (Tbl.sorted_set _ _ _ hq.2.2.1)
  | crosspoint => exact sound_with hq
  | factor => exact State.setOutF_sound _ _ _ hq
  | coef => exact State.setCoefs_sound _ _ _ hq
  | filter => exact State.setFilt_sound _ _ _ hq
  | line => exact State.setLine_sound _ _ _ hq
  | param => exact State.setData_sound _ _ _ _ hq
  | region n w =>
    simp only [State.installObj]
    repeat' split
    · exact hq
    · exact hq
    · exact State.pairWrite_sound _ _ _ _ hq

theorem State.installChunks_sound {q : List Instr} (s : State) (k : Nat)
    (hq : State.Sound s q) :
    State.Sound (State.installChunks s k) q := by
  unfold State.installChunks
  repeat' first
    | (with_reducible first
      | assumption | apply State.setFld_sound | apply State.mirrorApplied_sound | apply State.installObj_sound
      | apply foldl_sound | apply foldl_snd_sound | apply sound_ite | apply sound_ite_snd | fail_if_no_progress apply sound_with
      | intro _)
    | split | dsimp only

theorem State.armMirrored_sound {q : List Instr} (s : State) (swapBlk : Nat) (xfade : Nat) (mode : Nat) (k : Nat)
    (hq : State.Sound s q) :
    State.Sound (State.armMirrored s swapBlk xfade mode k) q := by
  unfold State.armMirrored
  repeat' first
    | (with_reducible first
      | assumption | apply State.swapWork_sound | apply State.swapArm_sound | apply sound_ite | apply sound_ite_snd
      | fail_if_no_progress apply sound_with | intro _ | refine pair_sound (by assumption) ?_
      | refine opt_elim (by assumption) ?_ | refine optP_elim (by assumption) ?_ | refine optP_elim' (by assumption) ?_
      | refine exc_elim (by assumption) ?_)
    | split | dsimp only

theorem State.startRealign_sound {q : List Instr} (s : State) (rq : Nat)
    (hq : State.Sound s q) :
    State.Sound (State.startRealign s rq) q := by
  unfold State.startRealign
  repeat' first
    | (with_reducible first
      | assumption | apply State.setFld_sound | apply State.rampOutputs_sound | apply sound_ite | apply sound_ite_snd
      | fail_if_no_progress apply sound_with | intro _)
    | split | dsimp only

theorem State.applyItem_sound {q : List Instr} (s : State) (k : Nat) (i : MirrorItem)
    (hq : State.Sound s q) :
    State.Sound (State.applyItem s k i) q := by
  unfold State.applyItem
  repeat' first
    | (with_reducible first
      | assumption | apply State.setFld_sound | apply State.setBchan_sound | apply State.setBstate_sound
      | apply State.swapArm_sound | apply State.swapCancel_sound | apply State.swapAbort_sound | apply State.mirrorApplied_sound
      | apply State.enterResync_sound | apply State.armMirrored_sound | apply State.startRealign_sound | apply sound_ite
      | apply sound_ite_snd | fail_if_no_progress apply sound_with | intro _ | refine pair_sound (by assumption) ?_
      | refine opt_elim (by assumption) ?_ | refine optP_elim (by assumption) ?_ | refine optP_elim' (by assumption) ?_
      | refine exc_elim (by assumption) ?_)
    | split | dsimp only

theorem State.applyItems_sound {q : List Instr} (s : State) (k : Nat)
    (hq : State.Sound s q) :
    State.Sound (State.applyItems s k) q := by
  unfold State.applyItems
  repeat' first
    | (with_reducible first
      | assumption | apply State.applyItem_sound | apply foldl_sound | apply foldl_snd_sound | apply sound_ite
      | apply sound_ite_snd | fail_if_no_progress apply sound_with | intro _)
    | split | dsimp only

theorem State.mirrorBlock_sound {q : List Instr} (s : State) (k : Nat)
    (hq : State.Sound s q) :
    State.Sound (State.mirrorBlock s k) q := by
  unfold State.mirrorBlock
  repeat' first
    | (with_reducible first
      | assumption | apply State.emit_sound | apply foldl_sound | apply foldl_snd_sound | apply sound_ite | apply sound_ite_snd
      | fail_if_no_progress apply sound_with | intro _)
    | split | dsimp only

theorem State.sendBulk_sound {q : List Instr} (s : State) (k : Nat)
    (hq : State.Sound s q) :
    State.Sound (State.sendBulk s k) q := by
  unfold State.sendBulk
  repeat' first
    | (with_reducible first
      | assumption | apply State.setFld_sound | apply State.emit_sound | apply sound_ite | apply sound_ite_snd
      | fail_if_no_progress apply sound_with | intro _ | refine pair_sound (by assumption) ?_
      | refine opt_elim (by assumption) ?_ | refine optP_elim (by assumption) ?_ | refine optP_elim' (by assumption) ?_
      | refine exc_elim (by assumption) ?_)
    | split | dsimp only

theorem State.flmPresets_sound {q : List Instr} (s : State) (k : Nat)
    (hq : State.Sound s q) :
    State.Sound (State.flmPresets s k) q := by
  unfold State.flmPresets
  repeat' first
    | (with_reducible first
      | assumption | apply State.emit_sound | apply State.hold_sound | apply State.enterResync_sound | apply foldl_sound
      | apply foldl_snd_sound | apply sound_ite | apply sound_ite_snd | fail_if_no_progress apply sound_with | intro _
      | refine pair_sound (by assumption) ?_ | refine opt_elim (by assumption) ?_ | refine optP_elim (by assumption) ?_
      | refine optP_elim' (by assumption) ?_ | refine exc_elim (by assumption) ?_)
    | split | dsimp only

theorem State.flmWtr_sound {q : List Instr} (s : State)
    (hq : State.Sound s q) :
    State.Sound (State.flmWtr s) q := by
  unfold State.flmWtr
  repeat' first
    | (with_reducible first
      | assumption | apply sound_ite | apply sound_ite_snd | fail_if_no_progress apply sound_with | intro _)
    | split | dsimp only

theorem State.flmRealigned_sound {q : List Instr} (s : State) (k : Nat)
    (hq : State.Sound s q) :
    State.Sound (State.flmRealigned s k) q := by
  unfold State.flmRealigned
  repeat' first
    | (with_reducible first
      | assumption | apply State.enterResync_sound | apply sound_ite | apply sound_ite_snd
      | fail_if_no_progress apply sound_with | intro _ | refine pair_sound (by assumption) ?_
      | refine opt_elim (by assumption) ?_ | refine optP_elim (by assumption) ?_ | refine optP_elim' (by assumption) ?_
      | refine exc_elim (by assumption) ?_)
    | split | dsimp only

theorem State.flmDigests_sound {q : List Instr} (s : State) (k : Nat)
    (hq : State.Sound s q) :
    State.Sound (State.flmDigests s k) q := by
  unfold State.flmDigests
  repeat' first
    | (with_reducible first
      | assumption | fail_if_no_progress apply sound_with | intro _ | refine pair_sound (by assumption) ?_
      | refine opt_elim (by assumption) ?_ | refine optP_elim (by assumption) ?_ | refine optP_elim' (by assumption) ?_
      | refine exc_elim (by assumption) ?_)
    | split | dsimp only

theorem State.flmBoundary_sound {q : List Instr} (s : State) (k : Nat)
    (hq : State.Sound s q) :
    State.Sound (State.flmBoundary s k) q := by
  unfold State.flmBoundary
  repeat' first
    | (with_reducible first
      | assumption | apply State.flmRegionsAt_sound | apply State.flmEvidence_sound | apply State.flmYield_sound
      | apply State.flmMissing_sound | apply State.flmCompare_sound | apply State.flmDecide_sound | apply State.flmForced_sound
      | apply State.flmPair_sound | apply State.installChunks_sound | apply State.applyItems_sound
      | apply State.flmPresets_sound | apply State.flmWtr_sound | apply State.flmRealigned_sound | apply State.flmDigests_sound
      | apply sound_ite | apply sound_ite_snd | fail_if_no_progress apply sound_with | intro _)
    | split | dsimp only

theorem State.flmSend_sound {q : List Instr} (s : State)
    (hq : State.Sound s q) :
    State.Sound (State.flmSend s) q := by
  unfold State.flmSend
  repeat' first
    | (with_reducible first
      | assumption | apply State.emit_sound | apply State.sendRegions_sound | apply State.mirrorBlock_sound
      | apply State.sendBulk_sound | apply sound_ite | apply sound_ite_snd | fail_if_no_progress apply sound_with | intro _)
    | split | dsimp only

theorem State.flmApply_sound {q : List Instr} (s : State) (c : Cmd) (stamp : Option Nat)
    (hq : State.Sound s q) :
    State.Sound (State.flmApply s c stamp).2 q := by
  unfold State.flmApply
  repeat' first
    | (with_reducible first
      | assumption | apply State.emit_sound | apply sound_ite | apply sound_ite_snd | fail_if_no_progress apply sound_with
      | intro _ | refine pair_sound (by assumption) ?_ | refine opt_elim (by assumption) ?_
      | refine optP_elim (by assumption) ?_ | refine optP_elim' (by assumption) ?_ | refine exc_elim (by assumption) ?_)
    | split | dsimp only

theorem execFlmHeartbeatRx_sound {q : List Instr} (link : Nat) (payload : List Byte) (skew : Int) (s : State)
    (hq : State.Sound s q) :
    NextSound q (execFlmHeartbeatRx link payload skew s) := by
  unfold execFlmHeartbeatRx
  repeat' first
    | (with_reducible first
      | assumption | apply State.heartbeatRx_sound | apply sound_ite | apply sound_ite_snd | apply next_sound | apply next_ite
      | fail_if_no_progress apply sound_with | intro _)
    | split | dsimp only

theorem execFlmResyncChunkRx_sound {q : List Instr} (blk : Nat) (bytes : Nat) (objs : List ChunkObj) (last : Bool) (s : State)
    (hq : State.Sound s q) :
    NextSound q (execFlmResyncChunkRx blk bytes objs last s) := by
  unfold execFlmResyncChunkRx
  repeat' first
    | (with_reducible first
      | assumption | apply State.setFld_sound | apply sound_ite | apply sound_ite_snd | apply next_sound | apply next_ite
      | fail_if_no_progress apply sound_with | intro _)
    | split | dsimp only

theorem execFlamOwnReleased_sound {q : List Instr} (s : State)
    (hq : State.Sound s q) :
    NextSound q (execFlamOwnReleased s) := by
  unfold execFlamOwnReleased
  repeat' first
    | (with_reducible first
      | assumption | apply State.flmPairing_sound | apply sound_ite | apply sound_ite_snd | apply next_sound | apply next_ite
      | fail_if_no_progress apply sound_with | intro _)
    | split | dsimp only

theorem execFlamSelReleased_sound {q : List Instr} (s : State)
    (hq : State.Sound s q) :
    NextSound q (execFlamSelReleased s) := by
  unfold execFlamSelReleased
  repeat' first
    | (with_reducible first
      | assumption | apply State.setFld_sound | apply foldl_sound | apply foldl_snd_sound | apply sound_ite
      | apply sound_ite_snd | apply next_sound | apply next_ite | fail_if_no_progress apply sound_with | intro _)
    | split | dsimp only

theorem execFlmOwnWatchdog_sound {q : List Instr} (s : State)
    (hq : State.Sound s q) :
    NextSound q (execFlmOwnWatchdog s) := by
  unfold execFlmOwnWatchdog
  repeat' first
    | (with_reducible first
      | assumption | apply State.alert_sound | apply next_sound | fail_if_no_progress apply sound_with | intro _
      | refine pair_sound (by assumption) ?_ | refine opt_elim (by assumption) ?_ | refine optP_elim (by assumption) ?_
      | refine optP_elim' (by assumption) ?_ | refine exc_elim (by assumption) ?_)
    | split | dsimp only

theorem execFlmTakeover_sound {q : List Instr} (s : State)
    (hq : State.Sound s q) :
    NextSound q (execFlmTakeover s) := by
  unfold execFlmTakeover
  repeat' first
    | (with_reducible first
      | assumption | apply State.flmTakeover_sound | apply next_sound | intro _)
    | split | dsimp only

theorem execFlmYieldEnd_sound {q : List Instr} (s : State)
    (hq : State.Sound s q) :
    NextSound q (execFlmYieldEnd s) := by
  unfold execFlmYieldEnd
  repeat' first
    | (with_reducible first
      | assumption | apply State.flmYieldEnd_sound | apply next_sound | intro _)
    | split | dsimp only

theorem execFlmPairingTimeout_sound {q : List Instr} (s : State)
    (hq : State.Sound s q) :
    NextSound q (execFlmPairingTimeout s) := by
  unfold execFlmPairingTimeout
  repeat' first
    | (with_reducible first
      | assumption | apply State.raise_sound | apply State.beatHalt_sound | apply State.rampOutputs_sound
      | apply State.restartPorts_sound | apply State.setFlm_sound | apply State.flmRelease_sound
      | apply State.releaseLevels_sound | apply sound_ite | apply sound_ite_snd | apply next_sound | apply next_ite
      | fail_if_no_progress apply sound_with | intro _)
    | split | dsimp only

theorem execFlmResyncComplete_sound {q : List Instr} (s : State)
    (hq : State.Sound s q) :
    NextSound q (execFlmResyncComplete s) := by
  unfold execFlmResyncComplete
  repeat' first
    | (with_reducible first
      | assumption | apply State.flmResyncComplete_sound | apply next_sound | intro _)
    | split | dsimp only

theorem execFlmWtrExpiry_sound {q : List Instr} (s : State)
    (hq : State.Sound s q) :
    NextSound q (execFlmWtrExpiry s) := by
  unfold execFlmWtrExpiry
  repeat' first
    | (with_reducible first
      | assumption | apply State.flmWtrExpiry_sound | apply next_sound | intro _)
    | split | dsimp only

theorem execFlmCmdHandover_sound {q : List Instr} (s : State)
    (hq : State.Sound s q) :
    NextSound q (execFlmCmdHandover s) := by
  unfold execFlmCmdHandover
  repeat' first
    | (with_reducible first
      | assumption | apply State.flmApply_sound | apply next_sound | intro _)
    | split | dsimp only

theorem execFlmCmdResync_sound {q : List Instr} (s : State)
    (hq : State.Sound s q) :
    NextSound q (execFlmCmdResync s) := by
  unfold execFlmCmdResync
  repeat' first
    | (with_reducible first
      | assumption | apply State.flmApply_sound | apply next_sound | intro _)
    | split | dsimp only

theorem State.flmHandoverWrite_sound {q : List Instr} (s : State) (v : Word)
    (hq : State.Sound s q) :
    State.Sound (State.flmHandoverWrite s v) q := by
  unfold State.flmHandoverWrite
  repeat' first
    | (with_reducible first
      | assumption | apply State.hold_sound | apply sound_ite | apply sound_ite_snd | intro _)
    | split | dsimp only

theorem State.flmResyncWrite_sound {q : List Instr} (s : State) (v : Word)
    (hq : State.Sound s q) :
    State.Sound (State.flmResyncWrite s v) q := by
  unfold State.flmResyncWrite
  repeat' first
    | (with_reducible first
      | assumption | apply State.hold_sound | apply sound_ite | apply sound_ite_snd | intro _)
    | split | dsimp only

theorem execFlmLinkDown_sound {q : List Instr} (link : Nat) (s : State)
    (hq : State.Sound s q) :
    NextSound q (execFlmLinkDown link s) := by
  unfold execFlmLinkDown
  repeat' first
    | (with_reducible first
      | assumption | apply State.setFld_sound | apply State.raise_sound | apply sound_ite | apply sound_ite_snd
      | apply next_sound | apply next_ite | intro _)
    | split | dsimp only

theorem execFlmLinkUp_sound {q : List Instr} (link : Nat) (s : State)
    (hq : State.Sound s q) :
    NextSound q (execFlmLinkUp link s) := by
  unfold execFlmLinkUp
  repeat' first
    | (with_reducible first
      | assumption | apply State.setFld_sound | apply State.fresh_sound | apply State.enterResync_sound | apply sound_ite
      | apply sound_ite_snd | apply next_sound | apply next_ite | fail_if_no_progress apply sound_with | intro _)
    | split | dsimp only

end Sys2Proof.Machine
end

