-- ==== Sys2Proof/Laws/KeepsSequencer.lean ====
section
/-! SUPPORT. What the operations of Machine/Sequencer.lean keep: one lemma each. -/

set_option linter.unusedTactic false
set_option linter.unreachableTactic false

namespace Sys2Proof.Machine

theorem State.setLoad_sound {q : List Instr} (s : State) (i : Nat) (load : Nat)
    (hq : State.Sound s q) :
    State.Sound (State.setLoad s i load) q := by
  unfold State.setLoad
  repeat' first
    | (with_reducible first
      | assumption | apply State.setFld_sound | apply State.peak_sound | intro _)
    | split | dsimp only

theorem State.brgPush_sound {q : List Instr} (s : State) (outBus : Nat) (xs : List Int)
    (hq : State.Sound s q) :
    State.Sound (State.brgPush s outBus xs) q := by
  unfold State.brgPush
  repeat' first
    | (with_reducible first
      | assumption | fail_if_no_progress apply sound_with | intro _)
    | split | dsimp only

theorem State.brgBlock_sound {q : List Instr} (s : State) (c : Cfg) (k : Nat) (n : Nat) (r : BridgeRec)
    (hq : State.Sound s q) :
    State.Sound (State.brgBlock s c k n r).2 q := by
  unfold State.brgBlock
  repeat' first
    | (with_reducible first
      | assumption | apply State.fresh_sound | apply sound_ite | apply sound_ite_snd | fail_if_no_progress apply sound_with
      | intro _)
    | split | dsimp only

theorem State.brgMoved_sound {q : List Instr} (s : State) (c : Cfg) (src : Nat)
    (hq : State.Sound s q) :
    State.Sound (State.brgMoved s c src).2 q := by
  unfold State.brgMoved
  repeat' first
    | (with_reducible first
      | assumption | apply State.fresh_sound | fail_if_no_progress apply sound_with | intro _)
    | split | dsimp only

theorem State.bridgeChannel_sound {q : List Instr} (s0 : State) (c : Cfg) (k : Nat) (r : BridgeRec)
    (hq : State.Sound s0 q) :
    State.Sound (State.bridgeChannel s0 c k r) q := by
  unfold State.bridgeChannel
  repeat' first
    | (with_reducible first
      | assumption | apply State.setBus_sound | apply State.writeBus_sound | apply State.brgPush_sound
      | apply State.brgBlock_sound | apply State.brgMoved_sound | apply sound_ite | apply sound_ite_snd
      | fail_if_no_progress apply sound_with | intro _)
    | split | dsimp only

theorem State.bridgeSkip_sound {q : List Instr} (s : State) (c : Cfg) (k : Nat) (kind : Nat)
    (hq : State.Sound s q) :
    State.Sound (State.bridgeSkip s c k kind) q := by
  unfold State.bridgeSkip
  repeat' first
    | (with_reducible first
      | assumption | apply State.brgPush_sound | apply foldl_sound | apply foldl_snd_sound | intro _)
    | split | dsimp only

theorem State.bridgeRun_sound {q : List Instr} (s : State) (c : Cfg) (k : Nat) (kind : Nat)
    (hq : State.Sound s q) :
    State.Sound (State.bridgeRun s c k kind) q := by
  unfold State.bridgeRun
  repeat' first
    | (with_reducible first
      | assumption | apply State.bridgeChannel_sound | apply foldl_sound | apply foldl_snd_sound
      | fail_if_no_progress apply sound_with | intro _)
    | split | dsimp only

theorem State.takeEgress_sound {q : List Instr} (s : State) (c : Cfg) (held : Bool) (i : Nat) (k : Nat) (b : Nat)
    (hq : State.Sound s q) :
    State.Sound (State.takeEgress s c held i k b).2 q := by
  unfold State.takeEgress
  repeat' first
    | (with_reducible first
      | assumption | apply State.bump_sound | apply sound_ite | apply sound_ite_snd | fail_if_no_progress apply sound_with
      | intro _)
    | split | dsimp only

theorem State.takeAll_sound {q : List Instr} (s : State) (c : Cfg) (held : Bool) (i : Nat) (k : Nat) (bs : List Nat)
    (hq : State.Sound s q) :
    State.Sound (State.takeAll s c held i k bs).2 q := by
  unfold State.takeAll
  repeat' first
    | (with_reducible first
      | assumption | apply State.takeEgress_sound | apply foldl_sound | apply foldl_snd_sound
      | fail_if_no_progress apply sound_with | intro _)
    | split | dsimp only

theorem State.egressRun_sound {q : List Instr} (s : State) (c : Cfg) (held : Bool) (t : TaskRec) (k : Nat)
    (hq : State.Sound s q) :
    State.Sound (State.egressRun s c held t k) q := by
  unfold State.egressRun
  repeat' first
    | (with_reducible first
      | assumption | apply State.beatGive_sound | apply State.unitGive_sound | apply State.streamGive_sound
      | apply State.takeAll_sound | apply foldl_sound | apply foldl_snd_sound | apply sound_ite | apply sound_ite_snd
      | fail_if_no_progress apply sound_with | intro _ | refine pair_sound (by assumption) ?_
      | refine opt_elim (by assumption) ?_ | refine optP_elim (by assumption) ?_ | refine optP_elim' (by assumption) ?_
      | refine exc_elim (by assumption) ?_)
    | split | dsimp only

theorem State.ingressRun_sound {q : List Instr} (s : State) (c : Cfg) (t : TaskRec) (k : Nat)
    (hq : State.Sound s q) :
    State.Sound (State.ingressRun s c t k) q := by
  unfold State.ingressRun
  repeat' first
    | (with_reducible first
      | assumption | apply State.unitIngress_sound | apply State.netIngress_sound | apply sound_ite | apply sound_ite_snd
      | intro _)
    | split | dsimp only

theorem State.taskRun_sound {q : List Instr} (s : State) (c : Cfg) (t : TaskRec) (k : Nat)
    (hq : State.Sound s q) :
    State.Sound (State.taskRun s c t k) q := by
  unfold State.taskRun
  repeat' first
    | (with_reducible first
      | assumption | apply State.clnRunPart_sound | apply State.chmRunPart_sound | apply State.dplRunPart_sound
      | apply State.bridgeRun_sound | apply State.egressRun_sound | apply State.ingressRun_sound
      | fail_if_no_progress apply sound_with | intro _ | refine pair_sound (by assumption) ?_
      | refine opt_elim (by assumption) ?_ | refine optP_elim (by assumption) ?_ | refine optP_elim' (by assumption) ?_
      | refine exc_elim (by assumption) ?_)
    | split | dsimp only

theorem State.dispatch_sound {q : List Instr} (s : State) (task : Nat) (old : Bool) (load : Nat)
    (hq : State.Sound s q) :
    State.Sound (State.dispatch s task old load) q := by
  unfold State.dispatch
  repeat' first
    | (with_reducible first
      | assumption | apply State.inVersion_sound | apply State.markEnded_sound | apply State.chmStore_sound
      | apply State.malStart_sound | apply State.setLoad_sound | apply State.taskRun_sound | apply sound_ite
      | apply sound_ite_snd | fail_if_no_progress apply sound_with | intro _ | refine pair_sound (by assumption) ?_
      | refine opt_elim (by assumption) ?_ | refine optP_elim (by assumption) ?_ | refine optP_elim' (by assumption) ?_
      | refine exc_elim (by assumption) ?_)
    | split | dsimp only

theorem execTaskDispatch_sound {q : List Instr} (task : Nat) (old : Bool) (load : Nat) (s : State)
    (hq : State.Sound s q) :
    NextSound q (execTaskDispatch task old load s) := by
  unfold execTaskDispatch
  repeat' first
    | (with_reducible first
      | assumption | apply State.dispatch_sound | apply next_sound | intro _)
    | split | dsimp only

theorem execTaskOverrun_sound {q : List Instr} (core : Nat) (s : State)
    (hq : State.Sound s q) :
    NextSound q (execTaskOverrun core s) := by
  unfold execTaskOverrun
  repeat' first
    | (with_reducible first
      | assumption | apply State.costReached_sound | apply next_sound | intro _)
    | split | dsimp only

theorem State.abandon_sound {q : List Instr} (s : State) (t : TaskRec) (old : Bool)
    (hq : State.Sound s q) :
    State.Sound (State.abandon s t old) q := by
  unfold State.abandon
  repeat' first
    | (with_reducible first
      | assumption | apply State.missBus_sound | apply State.inVersion_sound | apply State.countLate_sound
      | apply State.markEnded_sound | apply State.chmSkipPart_sound | apply State.dplSkipPart_sound
      | apply State.leaveTask_sound | apply State.setTaskHist_sound | apply State.bridgeSkip_sound | apply foldl_sound
      | apply foldl_snd_sound | apply sound_ite | apply sound_ite_snd | fail_if_no_progress apply sound_with | intro _
      | refine pair_sound (by assumption) ?_ | refine opt_elim (by assumption) ?_ | refine optP_elim (by assumption) ?_
      | refine optP_elim' (by assumption) ?_ | refine exc_elim (by assumption) ?_)
    | split | dsimp only

theorem State.withhold_sound {q : List Instr} (s : State) (t : TaskRec)
    (hq : State.Sound s q) :
    State.Sound (State.withhold s t) q := by
  unfold State.withhold
  repeat' first
    | (with_reducible first
      | assumption | apply State.withholdBus_sound | apply foldl_sound | apply foldl_snd_sound
      | fail_if_no_progress apply sound_with | intro _ | refine pair_sound (by assumption) ?_
      | refine opt_elim (by assumption) ?_ | refine optP_elim (by assumption) ?_ | refine optP_elim' (by assumption) ?_
      | refine exc_elim (by assumption) ?_)
    | split | dsimp only

theorem State.skip_sound {q : List Instr} (s : State) (t : TaskRec)
    (hq : State.Sound s q) :
    State.Sound (State.skip s t) q := by
  unfold State.skip
  repeat' first
    | (with_reducible first
      | assumption | apply State.chmSkipPart_sound | apply State.dplSkipPart_sound | apply State.setTaskHist_sound
      | apply State.bridgeSkip_sound | apply State.egressRun_sound | apply sound_ite | apply sound_ite_snd
      | fail_if_no_progress apply sound_with | intro _ | refine pair_sound (by assumption) ?_
      | refine opt_elim (by assumption) ?_ | refine optP_elim (by assumption) ?_ | refine optP_elim' (by assumption) ?_
      | refine exc_elim (by assumption) ?_)
    | split | dsimp only

theorem State.markLimp_sound {q : List Instr} (s : State)
    (hq : State.Sound s q) :
    State.Sound (State.markLimp s) q := by
  unfold State.markLimp
  repeat' first
    | (with_reducible first
      | assumption | apply State.setBus_sound | apply foldl_sound | apply foldl_snd_sound | apply sound_ite
      | apply sound_ite_snd | fail_if_no_progress apply sound_with | intro _ | refine pair_sound (by assumption) ?_
      | refine opt_elim (by assumption) ?_ | refine optP_elim (by assumption) ?_ | refine optP_elim' (by assumption) ?_
      | refine exc_elim (by assumption) ?_)
    | split | dsimp only

theorem State.endRound_sound {q : List Instr} (s : State)
    (hq : State.Sound s q) :
    State.Sound (State.endRound s) q := by
  unfold State.endRound
  repeat' first
    | (with_reducible first
      | assumption | apply State.fresh_sound | apply State.setLoad_sound | apply State.abandon_sound | apply State.skip_sound
      | apply foldl_sound | apply foldl_snd_sound | fail_if_no_progress apply sound_with | intro _)
    | split | dsimp only

theorem State.setEpoch_sound {q : List Instr} (s : State) (tuSample : Nat)
    (hq : State.Sound s q) :
    State.Sound (State.setEpoch s tuSample) q := by
  unfold State.setEpoch
  repeat' first
    | (with_reducible first
      | assumption | apply State.setFld_sound | apply State.raise_sound | apply sound_ite | apply sound_ite_snd
      | fail_if_no_progress apply sound_with | intro _ | refine pair_sound (by assumption) ?_
      | refine opt_elim (by assumption) ?_ | refine optP_elim (by assumption) ?_ | refine optP_elim' (by assumption) ?_
      | refine exc_elim (by assumption) ?_)
    | split | dsimp only

theorem State.issueToken_sound {q : List Instr} (s : State) (k : Nat) (tuSample : Nat)
    (hq : State.Sound s q) :
    State.Sound (State.issueToken s k tuSample) q := by
  unfold State.issueToken
  repeat' first
    | (with_reducible first
      | assumption | apply State.withhold_sound | apply State.markLimp_sound | apply State.setEpoch_sound | apply foldl_sound
      | apply foldl_snd_sound | apply sound_ite | apply sound_ite_snd | fail_if_no_progress apply sound_with | intro _
      | refine pair_sound (by assumption) ?_ | refine opt_elim (by assumption) ?_ | refine optP_elim (by assumption) ?_
      | refine optP_elim' (by assumption) ?_ | refine exc_elim (by assumption) ?_)
    | split | dsimp only

theorem State.realignRequest_sound {q : List Instr} (s : State) (key : Nat)
    (hq : State.Sound s q) :
    State.Sound (State.realignRequest s key) q := by
  unfold State.realignRequest
  repeat' first
    | (with_reducible first
      | assumption | apply State.setFld_sound | apply State.raise_sound | apply State.startRealign_sound | apply sound_ite
      | apply sound_ite_snd | fail_if_no_progress apply sound_with | intro _)
    | split | dsimp only

theorem State.flmRealignWrite_sound {q : List Instr} (s : State) (v : Nat)
    (hq : State.Sound s q) :
    State.Sound (State.flmRealignWrite s v) q := by
  unfold State.flmRealignWrite
  repeat' first
    | (with_reducible first
      | assumption | apply State.setFld_sound | apply State.emit_sound | apply State.raise_sound
      | apply State.startRealign_sound | apply sound_ite | apply sound_ite_snd | fail_if_no_progress apply sound_with | intro _)
    | split | dsimp only

theorem State.stepIndex_sound {q : List Instr} (s : State) (tuSample : Nat)
    (hq : State.Sound s q) :
    State.Sound (State.stepIndex s tuSample) q := by
  unfold State.stepIndex
  repeat' first
    | (with_reducible first
      | assumption | apply State.rampOutputs_sound | apply State.restartPorts_sound | apply State.endRound_sound
      | apply State.issueToken_sound | apply sound_ite | apply sound_ite_snd | fail_if_no_progress apply sound_with | intro _
      | refine pair_sound (by assumption) ?_ | refine opt_elim (by assumption) ?_ | refine optP_elim (by assumption) ?_
      | refine optP_elim' (by assumption) ?_ | refine exc_elim (by assumption) ?_)
    | split | dsimp only

theorem State.realignEnd_sound {q : List Instr} (s : State)
    (hq : State.Sound s q) :
    State.Sound (State.realignEnd s) q := by
  unfold State.realignEnd
  repeat' first
    | (with_reducible first
      | assumption | apply State.setFld_sound | apply State.raise_sound | apply sound_ite | apply sound_ite_snd
      | fail_if_no_progress apply sound_with | intro _ | refine pair_sound (by assumption) ?_
      | refine opt_elim (by assumption) ?_ | refine optP_elim (by assumption) ?_ | refine optP_elim' (by assumption) ?_
      | refine exc_elim (by assumption) ?_)
    | split | dsimp only

theorem execBlkTick_sound {q : List Instr} (s : State)
    (hq : State.Sound s q) :
    NextSound q (execBlkTick s) := by
  unfold execBlkTick
  repeat' first
    | (with_reducible first
      | assumption | apply State.raise_sound | apply sound_ite | apply sound_ite_snd | apply next_sound | apply next_ite
      | fail_if_no_progress apply sound_with | intro _)
    | split | dsimp only

theorem State.indexLoRead_sound {q : List Instr} (s : State)
    (hq : State.Sound s q) :
    State.Sound (State.indexLoRead s).2 q := by
  unfold State.indexLoRead
  repeat' first
    | (with_reducible first
      | assumption | apply State.setFld_sound | intro _)
    | split | dsimp only

theorem State.brgLeave_sound {q : List Instr} (s : State) (n : Nat) (st : Nat)
    (hq : State.Sound s q) :
    State.Sound (State.brgLeave s n st) q := by
  unfold State.brgLeave
  repeat' first
    | (with_reducible first
      | assumption | apply State.setFld_sound | apply State.bump_sound | apply State.raise_sound | apply sound_ite
      | apply sound_ite_snd | fail_if_no_progress apply sound_with | intro _)
    | split | dsimp only

theorem execBrgSourceLock_sound {q : List Instr} (source : Nat) (ratio : Nat) (s : State)
    (hq : State.Sound s q) :
    NextSound q (execBrgSourceLock source ratio s) := by
  unfold execBrgSourceLock
  repeat' first
    | (with_reducible first
      | assumption | apply State.setFld_sound | apply State.raise_sound | apply sound_ite | apply sound_ite_snd
      | apply next_sound | apply next_ite | fail_if_no_progress apply sound_with | intro _)
    | split | dsimp only

theorem execBrgOutOfRange_sound {q : List Instr} (source : Nat) (s : State)
    (hq : State.Sound s q) :
    NextSound q (execBrgOutOfRange source s) := by
  unfold execBrgOutOfRange
  repeat' first
    | (with_reducible first
      | assumption | apply State.brgLeave_sound | apply sound_ite | apply sound_ite_snd | apply next_sound | apply next_ite
      | intro _)
    | split | dsimp only

theorem execBrgNoClock_sound {q : List Instr} (source : Nat) (s : State)
    (hq : State.Sound s q) :
    NextSound q (execBrgNoClock source s) := by
  unfold execBrgNoClock
  repeat' first
    | (with_reducible first
      | assumption | apply State.brgLeave_sound | apply sound_ite | apply sound_ite_snd | apply next_sound | apply next_ite
      | intro _)
    | split | dsimp only

theorem execBrgAcquire_sound {q : List Instr} (source : Nat) (s : State)
    (hq : State.Sound s q) :
    NextSound q (execBrgAcquire source s) := by
  unfold execBrgAcquire
  repeat' first
    | (with_reducible first
      | assumption | apply State.brgLeave_sound | apply sound_ite | apply sound_ite_snd | apply next_sound | apply next_ite
      | intro _)
    | split | dsimp only

theorem execHandshakeWord_sound {q : List Instr} (src : Nat) (dst : Nat) (send : Option Word) (s : State)
    (hq : State.Sound s q) :
    NextSound q (execHandshakeWord src dst send s) := by
  unfold execHandshakeWord
  repeat' first
    | (with_reducible first
      | assumption | apply sound_ite | apply sound_ite_snd | apply next_sound | apply next_ite
      | fail_if_no_progress apply sound_with | intro _ | refine pair_sound (by assumption) ?_
      | refine opt_elim (by assumption) ?_ | refine optP_elim (by assumption) ?_ | refine optP_elim' (by assumption) ?_
      | refine exc_elim (by assumption) ?_)
    | split | dsimp only

theorem State.swapAtS_sound {q : List Instr} (s : State)
    (hq : State.Sound s q) :
    State.Sound (State.swapAtS s) q := by
  unfold State.swapAtS
  repeat' first
    | (with_reducible first
      | assumption | apply State.swapStart_sound | apply State.swapFill_sound | apply State.enterResync_sound | apply sound_ite
      | apply sound_ite_snd | fail_if_no_progress apply sound_with | intro _ | refine pair_sound (by assumption) ?_
      | refine opt_elim (by assumption) ?_ | refine optP_elim (by assumption) ?_ | refine optP_elim' (by assumption) ?_
      | refine exc_elim (by assumption) ?_)
    | split | dsimp only

theorem execSwapStart_sound {q : List Instr} (s : State)
    (hq : State.Sound s q) :
    NextSound q (execSwapStart s) := by
  unfold execSwapStart
  repeat' first
    | (with_reducible first
      | assumption | apply State.swapAtS_sound | apply next_sound | intro _)
    | split | dsimp only

theorem State.swapAbortWrite_sound {q : List Instr} (s : State)
    (hq : State.Sound s q) :
    State.Sound (State.swapAbortWrite s) q := by
  unfold State.swapAbortWrite
  repeat' first
    | (with_reducible first
      | assumption | apply State.emit_sound | apply State.swapAbort_sound | apply sound_ite | apply sound_ite_snd
      | fail_if_no_progress apply sound_with | intro _)
    | split | dsimp only

end Sys2Proof.Machine
end

