-- ==== Sys2Proof/Laws/KeepsCommitPair.lean ====
section
/-! SUPPORT. What the operations of Machine/CommitPair.lean keep: one lemma each. -/

set_option linter.unusedTactic false
set_option linter.unreachableTactic false

namespace Sys2Proof.Machine

theorem State.applyPeal_sound {q : List Instr} (s : State) (p : PendingCommit)
    (hq : State.Sound s q) :
    State.Sound (State.applyPeal s p) q := by
  unfold State.applyPeal
  repeat' first
    | (with_reducible first
      | assumption | apply State.emit_sound | apply State.commitFails_sound | apply State.commitDone_sound
      | apply State.putSet_sound | apply State.swapCheck_sound | apply State.swapDenied_sound | apply State.swapArm_sound
      | apply State.armMirrored_sound | apply sound_ite | apply sound_ite_snd | fail_if_no_progress apply sound_with | intro _
      | refine pair_sound (by assumption) ?_ | refine opt_elim (by assumption) ?_ | refine optP_elim (by assumption) ?_
      | refine optP_elim' (by assumption) ?_ | refine exc_elim (by assumption) ?_)
    | split | dsimp only

theorem State.applyCommit_sound {q : List Instr} (s : State) (p : PendingCommit)
    (hq : State.Sound s q) :
    State.Sound (State.applyCommit s p) q := by
  unfold State.applyCommit
  repeat' first
    | (with_reducible first
      | assumption | apply State.setFld_sound | apply State.outsetApply_sound | apply State.someTime_sound
      | apply State.setTuErr_sound | apply State.tuProgram_sound | apply State.setWcErr_sound | apply State.wcStart_sound
      | apply State.netApplySet_sound | apply State.commitFails_sound | apply State.commitDone_sound | apply State.putSet_sound
      | apply State.mirrorApplied_sound | apply State.applyPeal_sound | apply sound_ite | apply sound_ite_snd
      | fail_if_no_progress apply sound_with | intro _ | refine pair_sound (by assumption) ?_
      | refine opt_elim (by assumption) ?_ | refine optP_elim (by assumption) ?_ | refine optP_elim' (by assumption) ?_
      | refine exc_elim (by assumption) ?_)
    | split | dsimp only

theorem State.commitGo_sound {q : List Instr} (s : State) (b : CommitBlk) (tag : Nat) (whenCode : Nat) (m : Nat)
    (hq : State.Sound s q) :
    State.Sound (State.commitGo s b tag whenCode m) q := by
  unfold State.commitGo
  repeat' first
    | (with_reducible first
      | assumption | apply State.setFld_sound | apply State.emit_sound | apply State.commitRefused_sound
      | apply State.applyCommit_sound | apply sound_ite | apply sound_ite_snd | fail_if_no_progress apply sound_with | intro _)
    | split | dsimp only

theorem State.commitCancel_sound {q : List Instr} (s : State) (b : CommitBlk)
    (hq : State.Sound s q) :
    State.Sound (State.commitCancel s b) q := by
  unfold State.commitCancel
  repeat' first
    | (with_reducible first
      | assumption | apply State.setFld_sound | apply State.dropCommit_sound | fail_if_no_progress apply sound_with | intro _
      | refine pair_sound (by assumption) ?_ | refine opt_elim (by assumption) ?_ | refine optP_elim (by assumption) ?_
      | refine optP_elim' (by assumption) ?_ | refine exc_elim (by assumption) ?_)
    | split | dsimp only

theorem State.commitWrite_sound {q : List Instr} (s : State) (b : CommitBlk) (v : Nat) (m : Nat)
    (hq : State.Sound s q) :
    State.Sound (State.commitWrite s b v m) q := by
  unfold State.commitWrite
  repeat' first
    | (with_reducible first
      | assumption | apply State.commitGo_sound | apply State.commitCancel_sound | apply sound_ite | apply sound_ite_snd
      | intro _)
    | split | dsimp only

theorem State.commitApply_sound {q : List Instr} (s : State) (b : CommitBlk)
    (hq : State.Sound s q) :
    State.Sound (State.commitApply s b) q := by
  unfold State.commitApply
  repeat' first
    | (with_reducible first
      | assumption | apply State.applyCommit_sound | apply sound_ite | apply sound_ite_snd
      | fail_if_no_progress apply sound_with | intro _ | refine pair_sound (by assumption) ?_
      | refine opt_elim (by assumption) ?_ | refine optP_elim (by assumption) ?_ | refine optP_elim' (by assumption) ?_
      | refine exc_elim (by assumption) ?_)
    | split | dsimp only

theorem execCommitApply_sound {q : List Instr} (b : CommitBlk) (s : State)
    (hq : State.Sound s q) :
    NextSound q (execCommitApply b s) := by
  unfold execCommitApply
  repeat' first
    | (with_reducible first
      | assumption | apply State.commitApply_sound | apply next_sound | intro _)
    | split | dsimp only

end Sys2Proof.Machine
end

