-- ==== Sys2Proof/Laws/KeepsRecorder.lean ====
section
/-! SUPPORT. What the operations of Machine/Recorder.lean keep: one lemma each. -/

set_option linter.unusedTactic false
set_option linter.unreachableTactic false

namespace Sys2Proof.Machine

theorem State.binAdd_sound {q : List Instr} (s : State) (h : Nat) (i : Nat)
    (hq : State.Sound s q) :
    State.Sound (State.binAdd s h i) q := by
  unfold State.binAdd
  repeat' first
    | (with_reducible first
      | assumption | fail_if_no_progress apply sound_with | intro _)
    | split | dsimp only

theorem State.offer_sound {q : List Instr} (s : State) (x : Nat) (v : Int) (minute : Nat)
    (hq : State.Sound s q) :
    State.Sound (State.offer s x v minute) q := by
  unfold State.offer
  repeat' first
    | (with_reducible first
      | assumption | apply sound_ite | apply sound_ite_snd | fail_if_no_progress apply sound_with | intro _)
    | split | dsimp only

theorem State.samplePmu_sound {q : List Instr} (s : State) (devs : List Int)
    (hq : State.Sound s q) :
    State.Sound (State.samplePmu s devs) q := by
  unfold State.samplePmu
  repeat' first
    | (with_reducible first
      | assumption | apply State.binAdd_sound | apply State.offer_sound | apply foldl_sound | apply foldl_snd_sound
      | fail_if_no_progress apply sound_with | intro _ | refine pair_sound (by assumption) ?_
      | refine opt_elim (by assumption) ?_ | refine optP_elim (by assumption) ?_ | refine optP_elim' (by assumption) ?_
      | refine exc_elim (by assumption) ?_)
    | split | dsimp only

theorem State.sampleBins_sound {q : List Instr} (s : State)
    (hq : State.Sound s q) :
    State.Sound (State.sampleBins s) q := by
  unfold State.sampleBins
  repeat' first
    | (with_reducible first
      | assumption | apply State.binAdd_sound | apply foldl_sound | apply foldl_snd_sound | fail_if_no_progress apply sound_with
      | intro _ | refine pair_sound (by assumption) ?_ | refine opt_elim (by assumption) ?_
      | refine optP_elim (by assumption) ?_ | refine optP_elim' (by assumption) ?_ | refine exc_elim (by assumption) ?_)
    | split | dsimp only

theorem State.sampleExtremes_sound {q : List Instr} (s : State)
    (hq : State.Sound s q) :
    State.Sound (State.sampleExtremes s) q := by
  unfold State.sampleExtremes
  repeat' first
    | (with_reducible first
      | assumption | apply State.offer_sound | fail_if_no_progress apply sound_with | intro _)
    | split | dsimp only

theorem State.secondTick_sound {q : List Instr} (s : State) (devs : List Int)
    (hq : State.Sound s q) :
    State.Sound (State.secondTick s devs) q := by
  unfold State.secondTick
  repeat' first
    | (with_reducible first
      | assumption | apply State.samplePmu_sound | apply State.sampleBins_sound | apply State.sampleExtremes_sound
      | apply sound_ite | apply sound_ite_snd | fail_if_no_progress apply sound_with | intro _)
    | split | dsimp only

theorem State.sampleMinute_sound {q : List Instr} (s : State)
    (hq : State.Sound s q) :
    State.Sound (State.sampleMinute s) q := by
  unfold State.sampleMinute
  repeat' first
    | (with_reducible first
      | assumption | apply State.binAdd_sound | apply State.offer_sound | apply foldl_sound | apply foldl_snd_sound
      | apply sound_ite | apply sound_ite_snd | fail_if_no_progress apply sound_with | intro _)
    | split | dsimp only

theorem State.flashErase_sound {q : List Instr} (s : State) (a : Nat) (n : Nat)
    (hq : State.Sound s q) :
    State.Sound (State.flashErase s a n) q := by
  refine sound_mem hq ?_
  have h := hq.2.2.2
  simp only [Mems.wf, Tbl.wf, Bool.and_eq_true, List.all_eq_true] at h ⊢
  exact ⟨h.1, Tbl.sorted_filter _ h.2.1, fun e he => h.2.2 e (List.mem_filter.mp he).1⟩

theorem flashPut_wf (bs : List Byte) : ∀ {t : Tbl Byte} (a : Nat), Tbl.wf (fun _ => 0xFF#8) t = true →
    Tbl.wf (fun _ => 0xFF#8) (flashPut t a bs) = true := by
  induction bs with
  | nil => intro t a h; exact h
  | cons b bs ih => intro t a h; exact ih (a + 1) (Tbl.wf_set (d := fun _ => 0xFF#8) a b h)

theorem State.flashWrite_sound {q : List Instr} (s : State) (a : Nat) (bs : List Byte)
    (hq : State.Sound s q) :
    State.Sound (State.flashWrite s a bs) q := by
  refine sound_mem hq ?_
  have h := hq.2.2.2
  simp only [Mems.wf, Bool.and_eq_true] at h ⊢
  exact ⟨h.1, flashPut_wf bs a h.2⟩

theorem State.freeBytes_sound {q : List Instr} (s : State) (n : Nat)
    (hq : State.Sound s q) :
    State.Sound (State.freeBytes s n).2 q := by
  unfold State.freeBytes
  repeat' first
    | (with_reducible first
      | assumption | apply State.fresh_sound | fail_if_no_progress apply sound_with | intro _)
    | split | dsimp only

theorem State.flashSpoil_sound {q : List Instr} (s : State) (a : Nat) (n : Nat)
    (hq : State.Sound s q) :
    State.Sound (State.flashSpoil s a n) q := by
  unfold State.flashSpoil
  repeat' first
    | (with_reducible first
      | assumption | apply State.flashWrite_sound | apply State.freeBytes_sound | fail_if_no_progress apply sound_with | intro _)
    | split | dsimp only

theorem State.snapshot_sound {q : List Instr} (s : State) (cause : Nat)
    (hq : State.Sound s q) :
    State.Sound (State.snapshot s cause) q := by
  unfold State.snapshot
  repeat' first
    | (with_reducible first
      | assumption | apply State.setFld_sound | apply sound_ite | apply sound_ite_snd | fail_if_no_progress apply sound_with
      | intro _)
    | split | dsimp only

theorem State.dueSnapshot_sound {q : List Instr} (s : State)
    (hq : State.Sound s q) :
    State.Sound (State.dueSnapshot s) q := by
  unfold State.dueSnapshot
  repeat' first
    | (with_reducible first
      | assumption | apply State.snapshot_sound | fail_if_no_progress apply sound_with | intro _
      | refine pair_sound (by assumption) ?_ | refine opt_elim (by assumption) ?_ | refine optP_elim (by assumption) ?_
      | refine optP_elim' (by assumption) ?_ | refine exc_elim (by assumption) ?_)
    | split | dsimp only

theorem State.startErase_sound {q : List Instr} (s : State) (slot : Nat)
    (hq : State.Sound s q) :
    State.Sound (State.startErase s slot) q := by
  unfold State.startErase
  repeat' first
    | (with_reducible first
      | assumption | apply State.setFld_sound | apply sound_ite | apply sound_ite_snd | fail_if_no_progress apply sound_with
      | intro _)
    | split | dsimp only

theorem State.recordWritten_sound {q : List Instr} (s : State) (ok : Bool) (us : Nat)
    (hq : State.Sound s q) :
    State.Sound (State.recordWritten s ok us) q := by
  unfold State.recordWritten
  repeat' first
    | (with_reducible first
      | assumption | apply State.setFld_sound | apply State.bump_sound | apply State.raise_sound | apply State.alert_sound
      | apply State.offer_sound | apply State.flashWrite_sound | apply State.flashSpoil_sound | apply State.dueSnapshot_sound
      | apply State.startErase_sound | apply sound_ite | apply sound_ite_snd | fail_if_no_progress apply sound_with | intro _
      | refine pair_sound (by assumption) ?_ | refine opt_elim (by assumption) ?_ | refine optP_elim (by assumption) ?_
      | refine optP_elim' (by assumption) ?_ | refine exc_elim (by assumption) ?_)
    | split | dsimp only

theorem State.preEraseDone_sound {q : List Instr} (s : State)
    (hq : State.Sound s q) :
    State.Sound (State.preEraseDone s) q := by
  unfold State.preEraseDone
  repeat' first
    | (with_reducible first
      | assumption | apply State.setFld_sound | apply State.flashErase_sound | apply State.dueSnapshot_sound
      | fail_if_no_progress apply sound_with | intro _ | refine pair_sound (by assumption) ?_
      | refine opt_elim (by assumption) ?_ | refine optP_elim (by assumption) ?_ | refine optP_elim' (by assumption) ?_
      | refine exc_elim (by assumption) ?_)
    | split | dsimp only

theorem State.recorderPowerFail_sound {q : List Instr} (s : State)
    (hq : State.Sound s q) :
    State.Sound (State.recorderPowerFail s) q := by
  unfold State.recorderPowerFail
  repeat' first
    | (with_reducible first
      | assumption | apply State.setFld_sound | apply State.sampleMinute_sound | apply State.flashSpoil_sound
      | apply State.snapshot_sound | apply sound_ite | apply sound_ite_snd | fail_if_no_progress apply sound_with | intro _
      | refine pair_sound (by assumption) ?_ | refine opt_elim (by assumption) ?_ | refine optP_elim (by assumption) ?_
      | refine optP_elim' (by assumption) ?_ | refine exc_elim (by assumption) ?_)
    | split | dsimp only

theorem State.minuteTick_sound {q : List Instr} (s : State)
    (hq : State.Sound s q) :
    State.Sound (State.minuteTick s) q := by
  unfold State.minuteTick
  repeat' first
    | (with_reducible first
      | assumption | apply State.setFld_sound | apply State.sampleMinute_sound | apply State.snapshot_sound | apply sound_ite
      | apply sound_ite_snd | fail_if_no_progress apply sound_with | intro _)
    | split | dsimp only

theorem State.clearBins_sound {q : List Instr} (s : State)
    (hq : State.Sound s q) :
    State.Sound (State.clearBins s) q := by
  unfold State.clearBins
  repeat' first
    | (with_reducible first
      | assumption | fail_if_no_progress apply sound_with | intro _)
    | split | dsimp only

theorem State.recorderClear_sound {q : List Instr} (s : State)
    (hq : State.Sound s q) :
    State.Sound (State.recorderClear s) q := by
  unfold State.recorderClear
  repeat' first
    | (with_reducible first
      | assumption | apply State.setFld_sound | apply State.bump_sound | apply State.snapshot_sound
      | apply State.clearBins_sound | fail_if_no_progress apply sound_with | intro _)
    | split | dsimp only

theorem State.takeRecord_sound {q : List Instr} (s : State) (bs : List Byte)
    (hq : State.Sound s q) :
    State.Sound (State.takeRecord s bs) q := by
  unfold State.takeRecord
  repeat' first
    | (with_reducible first
      | assumption | apply State.setFld_sound | apply sound_ite | apply sound_ite_snd | fail_if_no_progress apply sound_with
      | intro _)
    | split | dsimp only

theorem State.noRecord_sound {q : List Instr} (s : State)
    (hq : State.Sound s q) :
    State.Sound (State.noRecord s) q := by
  unfold State.noRecord
  repeat' first
    | (with_reducible first
      | assumption | apply State.clearFlds_sound | apply State.clearBins_sound | intro _)
    | split | dsimp only

theorem State.restore_sound {q : List Instr} (s : State)
    (hq : State.Sound s q) :
    State.Sound (State.restore s) q := by
  unfold State.restore
  repeat' first
    | (with_reducible first
      | assumption | apply State.setFld_sound | apply State.bump_sound | apply State.raise_sound | apply State.startErase_sound
      | apply State.takeRecord_sound | apply State.noRecord_sound | apply sound_ite | apply sound_ite_snd
      | fail_if_no_progress apply sound_with | intro _ | refine pair_sound (by assumption) ?_
      | refine opt_elim (by assumption) ?_ | refine optP_elim (by assumption) ?_ | refine optP_elim' (by assumption) ?_
      | refine exc_elim (by assumption) ?_)
    | split | dsimp only

theorem State.cursorWrite_sound {q : List Instr} (s : State) (v : Nat)
    (hq : State.Sound s q) :
    State.Sound (State.cursorWrite s v) q := by
  unfold State.cursorWrite
  repeat' first
    | (with_reducible first
      | assumption | apply State.setFld_sound | apply sound_ite | apply sound_ite_snd | fail_if_no_progress apply sound_with
      | intro _)
    | split | dsimp only

theorem State.windowWord_sound {q : List Instr} (s : State)
    (hq : State.Sound s q) :
    State.Sound (State.windowWord s).2 q := by
  unfold State.windowWord
  repeat' first
    | (with_reducible first
      | assumption | apply State.setFld_sound | apply State.fresh_sound | apply sound_ite | apply sound_ite_snd
      | fail_if_no_progress apply sound_with | intro _ | refine pair_sound (by assumption) ?_
      | refine opt_elim (by assumption) ?_ | refine optP_elim (by assumption) ?_ | refine optP_elim' (by assumption) ?_
      | refine exc_elim (by assumption) ?_)
    | split | dsimp only

theorem State.windowRead_sound {q : List Instr} (s : State)
    (hq : State.Sound s q) :
    State.Sound (State.windowRead s).2 q := by
  unfold State.windowRead
  repeat' first
    | (with_reducible first
      | assumption | apply State.setFld_sound | apply State.windowWord_sound | fail_if_no_progress apply sound_with | intro _)
    | split | dsimp only

theorem execEvtSecondTick_sound {q : List Instr} (devs : List Int) (s : State)
    (hq : State.Sound s q) :
    NextSound q (execEvtSecondTick devs s) := by
  unfold execEvtSecondTick
  repeat' first
    | (with_reducible first
      | assumption | apply State.secondTick_sound | apply next_sound | intro _)
    | split | dsimp only

theorem execEvtMinuteTick_sound {q : List Instr} (s : State)
    (hq : State.Sound s q) :
    NextSound q (execEvtMinuteTick s) := by
  unfold execEvtMinuteTick
  repeat' first
    | (with_reducible first
      | assumption | apply State.minuteTick_sound | apply next_sound | intro _)
    | split | dsimp only

theorem State.requestWrite_sound {q : List Instr} (s : State) (v : Nat)
    (hq : State.Sound s q) :
    State.Sound (State.requestWrite s v) q := by
  unfold State.requestWrite
  repeat' first
    | (with_reducible first
      | assumption | apply State.snapshot_sound | apply sound_ite | apply sound_ite_snd | intro _)
    | split | dsimp only

theorem execEvtRequestWrite_sound {q : List Instr} (value : Word) (s : State)
    (hq : State.Sound s q) :
    NextSound q (execEvtRequestWrite value s) := by
  unfold execEvtRequestWrite
  repeat' first
    | (with_reducible first
      | assumption | apply State.requestWrite_sound | apply next_sound | intro _)
    | split | dsimp only

theorem execEvtRecordWritten_sound {q : List Instr} (ok : Bool) (us : Nat) (s : State)
    (hq : State.Sound s q) :
    NextSound q (execEvtRecordWritten ok us s) := by
  unfold execEvtRecordWritten
  repeat' first
    | (with_reducible first
      | assumption | apply State.recordWritten_sound | apply next_sound | intro _)
    | split | dsimp only

theorem execEvtPreEraseDone_sound {q : List Instr} (s : State)
    (hq : State.Sound s q) :
    NextSound q (execEvtPreEraseDone s) := by
  unfold execEvtPreEraseDone
  repeat' first
    | (with_reducible first
      | assumption | apply State.preEraseDone_sound | apply next_sound | intro _)
    | split | dsimp only

theorem execEvtCursorWrite_sound {q : List Instr} (value : Word) (s : State)
    (hq : State.Sound s q) :
    NextSound q (execEvtCursorWrite value s) := by
  unfold execEvtCursorWrite
  repeat' first
    | (with_reducible first
      | assumption | apply State.cursorWrite_sound | apply next_sound | intro _)
    | split | dsimp only

end Sys2Proof.Machine
end

