-- ==== Sys2Proof/Laws/KeepsIdent.lean ====
section
/-! SUPPORT. What the operations of Machine/Ident.lean keep: one lemma each. -/

set_option linter.unusedTactic false
set_option linter.unreachableTactic false

namespace Sys2Proof.Machine

theorem State.attestGo_sound {q : List Instr} (s : State) (v : Nat)
    (hq : State.Sound s q) :
    State.Sound (State.attestGo s v) q := by
  unfold State.attestGo
  repeat' first
    | (with_reducible first
      | assumption | apply State.setFld_sound | apply sound_ite | apply sound_ite_snd | fail_if_no_progress apply sound_with
      | intro _)
    | split | dsimp only

theorem State.attestDone_sound {q : List Instr} (s : State)
    (hq : State.Sound s q) :
    State.Sound (State.attestDone s) q := by
  unfold State.attestDone
  repeat' first
    | (with_reducible first
      | assumption | apply State.setFld_sound | apply State.raiseVector_sound | apply foldl_sound | apply foldl_snd_sound
      | apply sound_ite | apply sound_ite_snd | fail_if_no_progress apply sound_with | intro _
      | refine pair_sound (by assumption) ?_ | refine opt_elim (by assumption) ?_ | refine optP_elim (by assumption) ?_
      | refine optP_elim' (by assumption) ?_ | refine exc_elim (by assumption) ?_)
    | split | dsimp only

theorem State.otpFuse_sound {q : List Instr} (s : State) (bs : List Byte)
    (hq : State.Sound s q) :
    State.Sound (State.otpFuse s bs) q := by
  unfold State.otpFuse
  repeat' first
    | (with_reducible first
      | assumption | apply State.setFld_sound | apply foldl_sound | apply foldl_snd_sound | fail_if_no_progress apply sound_with
      | intro _ | refine pair_sound (by assumption) ?_ | refine opt_elim (by assumption) ?_
      | refine optP_elim (by assumption) ?_ | refine optP_elim' (by assumption) ?_ | refine exc_elim (by assumption) ?_)
    | split | dsimp only

theorem State.otpSpoil_sound {q : List Instr} (s : State) (bs : List Byte)
    (hq : State.Sound s q) :
    State.Sound (State.otpSpoil s bs) q := by
  unfold State.otpSpoil
  repeat' first
    | (with_reducible first
      | assumption | apply State.setFld_sound | apply State.fresh_sound | apply foldl_sound | apply foldl_snd_sound
      | apply sound_ite | apply sound_ite_snd | fail_if_no_progress apply sound_with | intro _
      | refine pair_sound (by assumption) ?_ | refine opt_elim (by assumption) ?_ | refine optP_elim (by assumption) ?_
      | refine optP_elim' (by assumption) ?_ | refine exc_elim (by assumption) ?_)
    | split | dsimp only

theorem State.otpRun_sound {q : List Instr} (s : State) (bs : List Byte) (fuseOk : Bool)
    (hq : State.Sound s q) :
    State.Sound (State.otpRun s bs fuseOk).2 q := by
  unfold State.otpRun
  repeat' first
    | (with_reducible first
      | assumption | apply State.fresh_sound | apply State.otpFuse_sound | apply State.otpSpoil_sound | apply sound_ite
      | apply sound_ite_snd | fail_if_no_progress apply sound_with | intro _ | apply optS_getD
      | refine pair_sound (by assumption) ?_ | refine opt_elim (by assumption) ?_ | refine optP_elim (by assumption) ?_
      | refine optP_elim' (by assumption) ?_ | refine exc_elim (by assumption) ?_)
    | split | dsimp only

theorem State.otpGo_sound {q : List Instr} (s : State) (v : Nat)
    (hq : State.Sound s q) :
    State.Sound (State.otpGo s v) q := by
  unfold State.otpGo
  repeat' first
    | (with_reducible first
      | assumption | apply State.setFld_sound | apply sound_ite | apply sound_ite_snd | fail_if_no_progress apply sound_with
      | intro _)
    | split | dsimp only

theorem State.otpDone_sound {q : List Instr} (s : State) (fuseOk : Bool)
    (hq : State.Sound s q) :
    State.Sound (State.otpDone s fuseOk) q := by
  unfold State.otpDone
  repeat' first
    | (with_reducible first
      | assumption | apply State.setFld_sound | apply State.otpRun_sound | apply sound_ite | apply sound_ite_snd
      | fail_if_no_progress apply sound_with | intro _ | refine pair_sound (by assumption) ?_
      | refine opt_elim (by assumption) ?_ | refine optP_elim (by assumption) ?_ | refine optP_elim' (by assumption) ?_
      | refine exc_elim (by assumption) ?_)
    | split | dsimp only

theorem execIdAttestGoWrite_sound {q : List Instr} (value : Word) (s : State)
    (hq : State.Sound s q) :
    NextSound q (execIdAttestGoWrite value s) := by
  unfold execIdAttestGoWrite
  repeat' first
    | (with_reducible first
      | assumption | apply State.attestGo_sound | apply next_sound | intro _)
    | split | dsimp only

theorem execAttestDone_sound {q : List Instr} (s : State)
    (hq : State.Sound s q) :
    NextSound q (execAttestDone s) := by
  unfold execAttestDone
  repeat' first
    | (with_reducible first
      | assumption | apply State.attestDone_sound | apply next_sound | intro _)
    | split | dsimp only

theorem execOtpCmdGoWrite_sound {q : List Instr} (value : Word) (s : State)
    (hq : State.Sound s q) :
    NextSound q (execOtpCmdGoWrite value s) := by
  unfold execOtpCmdGoWrite
  repeat' first
    | (with_reducible first
      | assumption | apply State.otpGo_sound | apply next_sound | intro _)
    | split | dsimp only

theorem execOtpCommandDone_sound {q : List Instr} (fuseOk : Bool) (s : State)
    (hq : State.Sound s q) :
    NextSound q (execOtpCommandDone fuseOk s) := by
  unfold execOtpCommandDone
  repeat' first
    | (with_reducible first
      | assumption | apply State.otpDone_sound | apply next_sound | intro _)
    | split | dsimp only

end Sys2Proof.Machine
end

