-- ==== Sys2Proof/Laws/KeepsTap.lean ====
section
/-! SUPPORT. What the operations of Machine/Tap.lean keep: one lemma each. -/

set_option linter.unusedTactic false
set_option linter.unreachableTactic false

namespace Sys2Proof.Machine

theorem State.setKeyMutes_sound {q : List Instr} (s : State) (keys : Nat)
    (hq : State.Sound s q) :
    State.Sound (State.setKeyMutes s keys) q := by
  unfold State.setKeyMutes
  repeat' first
    | (with_reducible first
      | assumption | apply State.setFld_sound | apply State.emit_sound | apply State.raise_sound
      | apply State.beatSettleAll_sound | apply sound_ite | apply sound_ite_snd | fail_if_no_progress apply sound_with | intro _)
    | split | dsimp only

theorem State.keyChanged_sound {q : List Instr} (s : State) (k : Nat) (down : Bool)
    (hq : State.Sound s q) :
    State.Sound (State.keyChanged s k down) q := by
  unfold State.keyChanged
  repeat' first
    | (with_reducible first
      | assumption | apply State.setFld_sound | apply State.raise_sound | apply State.setKeyMutes_sound | apply sound_ite
      | apply sound_ite_snd | fail_if_no_progress apply sound_with | intro _)
    | split | dsimp only

theorem State.sampleKey_sound {q : List Instr} (s : State) (keys : Nat) (k : Nat)
    (hq : State.Sound s q) :
    State.Sound (State.sampleKey s keys k) q := by
  unfold State.sampleKey
  repeat' first
    | (with_reducible first
      | assumption | apply State.keyChanged_sound | apply sound_ite | apply sound_ite_snd | fail_if_no_progress apply sound_with
      | intro _)
    | split | dsimp only

theorem State.samplePres_sound {q : List Instr} (s : State) (pres : Nat) (p : Nat)
    (hq : State.Sound s q) :
    State.Sound (State.samplePres s pres p) q := by
  unfold State.samplePres
  repeat' first
    | (with_reducible first
      | assumption | apply State.setFld_sound | apply State.raise_sound | apply sound_ite | apply sound_ite_snd
      | fail_if_no_progress apply sound_with | intro _)
    | split | dsimp only

theorem State.panelSample_sound {q : List Instr} (s : State) (keys : Nat) (pres : Nat)
    (hq : State.Sound s q) :
    State.Sound (State.panelSample s keys pres) q := by
  unfold State.panelSample
  repeat' first
    | (with_reducible first
      | assumption | apply State.sampleKey_sound | apply State.samplePres_sound | apply foldl_sound | apply foldl_snd_sound
      | apply sound_ite | apply sound_ite_snd | intro _)
    | split | dsimp only

theorem State.encoderStep_sound {q : List Instr} (s : State) (e : Nat) (was : Nat) (now : Nat)
    (hq : State.Sound s q) :
    State.Sound (State.encoderStep s e was now) q := by
  unfold State.encoderStep
  repeat' first
    | (with_reducible first
      | assumption | apply State.setFld_sound | apply State.bump_sound | apply State.raise_sound | apply sound_ite
      | apply sound_ite_snd | fail_if_no_progress apply sound_with | intro _)
    | split | dsimp only

theorem State.encoderSample_sound {q : List Instr} (s : State) (levels : Nat)
    (hq : State.Sound s q) :
    State.Sound (State.encoderSample s levels) q := by
  unfold State.encoderSample
  repeat' first
    | (with_reducible first
      | assumption | apply State.encoderStep_sound | apply foldl_sound | apply foldl_snd_sound | apply sound_ite
      | apply sound_ite_snd | fail_if_no_progress apply sound_with | intro _)
    | split | dsimp only

theorem execTapSample_sound {q : List Instr} (keys : Nat) (pres : Nat) (s : State)
    (hq : State.Sound s q) :
    NextSound q (execTapSample keys pres s) := by
  unfold execTapSample
  repeat' first
    | (with_reducible first
      | assumption | apply State.panelSample_sound | apply next_sound | intro _)
    | split | dsimp only

theorem execTapEncSample_sound {q : List Instr} (levels : Nat) (s : State)
    (hq : State.Sound s q) :
    NextSound q (execTapEncSample levels s) := by
  unfold execTapEncSample
  repeat' first
    | (with_reducible first
      | assumption | apply State.encoderSample_sound | apply next_sound | intro _)
    | split | dsimp only

theorem State.muteKeyWrite_sound {q : List Instr} (s : State) (v : Nat)
    (hq : State.Sound s q) :
    State.Sound (State.muteKeyWrite s v) q := by
  unfold State.muteKeyWrite
  repeat' first
    | (with_reducible first
      | assumption | apply State.setKeyMutes_sound | intro _)
    | split | dsimp only

end Sys2Proof.Machine
end

