-- ==== Sys2Proof/Laws/KeepsPower.lean ====
section
/-! SUPPORT. What the operations of Machine/Power.lean keep: one lemma each. -/

set_option linter.unusedTactic false
set_option linter.unreachableTactic false

namespace Sys2Proof.Machine

theorem State.railsGood_sound {q : List Instr} (s : State) (rs : List Nat)
    (hq : State.Sound s q) :
    State.Sound (State.railsGood s rs) q := by
  unfold State.railsGood
  repeat' first
    | (with_reducible first
      | assumption | apply State.setFld_sound | apply foldl_sound | apply foldl_snd_sound | intro _)
    | split | dsimp only

theorem State.drainFlights_sound {q : List Instr} (s : State) (d : Nat)
    (hq : State.Sound s q) :
    State.Sound (State.drainFlights s d) q := by
  unfold State.drainFlights
  repeat' first
    | (with_reducible first
      | assumption | apply sound_ite | apply sound_ite_snd | fail_if_no_progress apply sound_with | intro _)
    | split | dsimp only

theorem State.requestEnd_sound {q : List Instr} (s : State) (result : Nat)
    (hq : State.Sound s q) :
    State.Sound (State.requestEnd s result) q := by
  unfold State.requestEnd
  repeat' first
    | (with_reducible first
      | assumption | apply State.setFld_sound | apply State.raise_sound | intro _)
    | split | dsimp only

theorem State.requestDone_sound {q : List Instr} (s : State) (action : Nat)
    (hq : State.Sound s q) :
    State.Sound (State.requestDone s action) q := by
  unfold State.requestDone
  repeat' first
    | (with_reducible first
      | assumption | apply State.requestEnd_sound | apply sound_ite | apply sound_ite_snd | intro _)
    | split | dsimp only

theorem State.toSentry_sound {q : List Instr} (s : State)
    (hq : State.Sound s q) :
    State.Sound (State.toSentry s) q := by
  unfold State.toSentry
  repeat' first
    | (with_reducible first
      | assumption | apply State.setFld_sound | apply State.setMode_sound | apply State.setGate_sound
      | apply State.setCauses_sound | fail_if_no_progress apply sound_with | intro _)
    | split | dsimp only

theorem State.wake_sound {q : List Instr} (s : State) (slot : Option Nat)
    (hq : State.Sound s q) :
    State.Sound (State.wake s slot) q := by
  unfold State.wake
  repeat' first
    | (with_reducible first
      | assumption | apply sound_ite | apply sound_ite_snd | fail_if_no_progress apply sound_with | intro _)
    | split | dsimp only

theorem State.wakeByStrap_sound {q : List Instr} (s : State)
    (hq : State.Sound s q) :
    State.Sound (State.wakeByStrap s) q := by
  unfold State.wakeByStrap
  repeat' first
    | (with_reducible first
      | assumption | apply State.wake_sound | apply sound_ite | apply sound_ite_snd | intro _)
    | split | dsimp only

theorem State.ctrlOn_sound {q : List Instr} (s : State)
    (hq : State.Sound s q) :
    State.Sound (State.ctrlOn s) q := by
  unfold State.ctrlOn
  repeat' first
    | (with_reducible first
      | assumption | apply State.setFld_sound | apply State.startPll_sound | fail_if_no_progress apply sound_with | intro _)
    | split | dsimp only

theorem wf_dramFill {m : Mems} (h : m.wf = true) : Mems.wf { m with dram := [], dramEpoch := 0, dramBad := [] } = true := by
  simp only [Mems.wf, Tbl.wf, Bool.and_eq_true] at h ⊢
  exact ⟨⟨rfl, rfl⟩, h.2⟩

theorem State.dramOn_sound {q : List Instr} (s : State) (hq : State.Sound s q) : State.Sound (State.dramOn s) q := by
  have hr := State.random_sound _ hq
  unfold State.dramOn
  repeat' first
    | with_reducible assumption
    | with_reducible apply State.setFld_sound
    | with_reducible apply State.startCopy_sound
    | with_reducible apply State.requestDone_sound
    | with_reducible apply State.setMode_sound
    | with_reducible apply sound_ite
    | with_reducible fail_if_no_progress apply sound_with
    | with_reducible intro _
    | split
    | dsimp only
    | exact sound_mk hr.1 hr.2.1 hr.2.2.1 (wf_dramFill hr.2.2.2)

theorem State.domainUp_sound {q : List Instr} (s : State) (d : Nat)
    (hq : State.Sound s q) :
    State.Sound (State.domainUp s d) q := by
  unfold State.domainUp
  repeat' first
    | (with_reducible first
      | assumption | apply State.setFld_sound | apply State.setDomainState_sound | apply State.islandUp_sound
      | apply State.railsGood_sound | apply State.ctrlOn_sound | apply State.dramOn_sound | apply foldl_sound
      | apply foldl_snd_sound | apply sound_ite | apply sound_ite_snd | fail_if_no_progress apply sound_with | intro _)
    | split | dsimp only

theorem State.domainOffNext_sound {q : List Instr} (s : State) (d : Nat)
    (hq : State.Sound s q) :
    State.Sound (State.domainOffNext s d) q := by
  unfold State.domainOffNext
  repeat' first
    | (with_reducible first
      | assumption | apply State.domainDown_sound | apply State.drainFlights_sound | apply sound_ite | apply sound_ite_snd
      | fail_if_no_progress apply sound_with | intro _)
    | split | dsimp only

theorem State.railTimeout_sound {q : List Instr} (s : State)
    (hq : State.Sound s q) :
    State.Sound (State.railTimeout s) q := by
  unfold State.railTimeout
  repeat' first
    | (with_reducible first
      | assumption | apply State.fresh_sound | apply State.raise_sound | apply State.requestEnd_sound
      | apply State.toSentry_sound | apply sound_ite | apply sound_ite_snd | fail_if_no_progress apply sound_with | intro _
      | refine pair_sound (by assumption) ?_ | refine opt_elim (by assumption) ?_ | refine optP_elim (by assumption) ?_
      | refine optP_elim' (by assumption) ?_ | refine exc_elim (by assumption) ?_)
    | split | dsimp only

theorem State.sampleStraps_sound {q : List Instr} (s : State) (straps : Nat)
    (hq : State.Sound s q) :
    State.Sound (State.sampleStraps s straps) q := by
  unfold State.sampleStraps
  repeat' first
    | (with_reducible first
      | assumption | apply State.setFld_sound | fail_if_no_progress apply sound_with | intro _)
    | split | dsimp only

theorem State.mainOff_sound {q : List Instr} (s : State)
    (hq : State.Sound s q) :
    State.Sound (State.mainOff s) q := by
  unfold State.mainOff
  repeat' first
    | (with_reducible first
      | assumption | apply State.alert_sound | apply State.dropFlights_sound | apply State.domainDown_sound
      | apply State.toSentry_sound | apply foldl_sound | apply foldl_snd_sound | apply sound_ite | apply sound_ite_snd
      | fail_if_no_progress apply sound_with | intro _)
    | split | dsimp only

theorem State.mainReset_sound {q : List Instr} (s : State) (cause : Fld) (straps : Nat)
    (hq : State.Sound s q) :
    State.Sound (State.mainReset s cause straps) q := by
  unfold State.mainReset
  repeat' first
    | (with_reducible first
      | assumption | apply State.setFld_sound | apply State.sampleStraps_sound | apply State.mainOff_sound | intro _)
    | split | dsimp only

theorem State.wiped_sound {q : List Instr} (s : State)
    (hq : State.Sound s q) :
    State.Sound (State.wiped s) q := by
  have key : ∀ s : State, s.Sound q → Mems.wf { State.reset.mem with flash := s.mem.flash } = true := by
    intro s h
    have h := h.2.2.2
    simp only [Mems.wf, Bool.and_eq_true] at h ⊢
    exact ⟨by rfl, h.2⟩
  have fin : ∀ s : State, s.Sound q → State.Sound { State.reset with
      pending := s.pending
      freeCtr := s.freeCtr
      sent := s.sent
      regs := s.regs.filter (fun (e : Nat × Nat) => decide (0x15F80400 * 32 ≤ e.1 ∧ e.1 < 0x15F80488 * 32))
      mem := { State.reset.mem with flash := s.mem.flash }
      flm := { Flm.idle with ownPeer := s.flm.ownPeer, selPeer := s.flm.selPeer } } q :=
    fun s h => sound_mk h.1 (Tbl.sorted_filter _ h.2.1) rfl (key s h)
  refine fin _ ?_
  split
  · refine State.flashSpoil_sound _ _ _ ?_
    split
    · exact State.flashSpoil_sound _ _ _ hq
    · exact hq
  · split
    · exact State.flashSpoil_sound _ _ _ hq
    · exact hq

theorem State.aoReset_sound {q : List Instr} (s : State) (por : Bool) (straps : Nat)
    (hq : State.Sound s q) :
    State.Sound (State.aoReset s por straps) q := by
  unfold State.aoReset
  repeat' first
    | (with_reducible first
      | assumption | apply State.setFld_sound | apply State.sampleStraps_sound | apply State.wiped_sound | apply sound_ite
      | apply sound_ite_snd | fail_if_no_progress apply sound_with | intro _)
    | split | dsimp only

theorem State.aoLoss_sound {q : List Instr} (s : State)
    (hq : State.Sound s q) :
    State.Sound (State.aoLoss s) q := by
  unfold State.aoLoss
  repeat' first
    | (with_reducible first
      | assumption | apply State.setFld_sound | apply State.wiped_sound | intro _)
    | split | dsimp only

theorem State.sysReset_sound {q : List Instr} (s : State) (v : Nat) (straps : Nat)
    (hq : State.Sound s q) :
    State.Sound (State.sysReset s v straps) q := by
  unfold State.sysReset
  repeat' first
    | (with_reducible first
      | assumption | apply State.wakeByStrap_sound | apply State.mainReset_sound | apply sound_ite | apply sound_ite_snd
      | intro _)
    | split | dsimp only

theorem State.startTest_sound {q : List Instr} (s : State)
    (hq : State.Sound s q) :
    State.Sound (State.startTest s) q := by
  unfold State.startTest
  repeat' first
    | (with_reducible first
      | assumption | apply State.mainOff_sound | fail_if_no_progress apply sound_with | intro _)
    | split | dsimp only

theorem State.actionTaken_sound {q : List Instr} (s : State) (action : Nat)
    (hq : State.Sound s q) :
    State.Sound (State.actionTaken s action) q := by
  unfold State.actionTaken
  repeat' first
    | (with_reducible first
      | assumption | apply State.addCause_sound | apply State.dropCause_sound | apply State.requestDone_sound
      | apply State.toSentry_sound | apply State.wake_sound | apply State.startTest_sound | apply sound_ite
      | apply sound_ite_snd | fail_if_no_progress apply sound_with | intro _ | refine pair_sound (by assumption) ?_
      | refine opt_elim (by assumption) ?_ | refine optP_elim (by assumption) ?_ | refine optP_elim' (by assumption) ?_
      | refine exc_elim (by assumption) ?_)
    | split | dsimp only

theorem State.pmuRequest_sound {q : List Instr} (s : State) (action : Nat) (key : Nat)
    (hq : State.Sound s q) :
    State.Sound (State.pmuRequest s action key) q := by
  unfold State.pmuRequest
  repeat' first
    | (with_reducible first
      | assumption | apply State.setFld_sound | apply State.requestEnd_sound | apply State.actionTaken_sound | apply sound_ite
      | apply sound_ite_snd | fail_if_no_progress apply sound_with | intro _)
    | split | dsimp only

theorem State.restartDomain_sound {q : List Instr} (s : State) (d : Nat)
    (hq : State.Sound s q) :
    State.Sound (State.restartDomain s d) q := by
  unfold State.restartDomain
  repeat' first
    | (with_reducible first
      | assumption | apply State.raise_sound | apply State.countUe_sound | apply State.resetDomain_sound
      | apply State.dropFlights_sound | apply State.domainLoad_sound | apply sound_ite | apply sound_ite_snd
      | fail_if_no_progress apply sound_with | intro _ | refine pair_sound (by assumption) ?_
      | refine opt_elim (by assumption) ?_ | refine optP_elim (by assumption) ?_ | refine optP_elim' (by assumption) ?_
      | refine exc_elim (by assumption) ?_)
    | split | dsimp only

theorem State.restartHung_sound {q : List Instr} (s : State)
    (hq : State.Sound s q) :
    State.Sound (State.restartHung s) q := by
  unfold State.restartHung
  repeat' first
    | (with_reducible first
      | assumption | apply State.restartDomain_sound | apply foldl_sound | apply foldl_snd_sound
      | fail_if_no_progress apply sound_with | intro _)
    | split | dsimp only

theorem State.limpEnter_sound {q : List Instr} (s : State) (k : Nat)
    (hq : State.Sound s q) :
    State.Sound (State.limpEnter s k) q := by
  unfold State.limpEnter
  repeat' first
    | (with_reducible first
      | assumption | apply State.setFld_sound | apply State.bump_sound | apply State.raise_sound | apply State.alert_sound
      | apply State.setMode_sound | apply State.toFallback_sound | apply State.swapLimp_sound | apply State.requestEnd_sound
      | apply State.requestDone_sound | apply State.restartHung_sound | apply sound_ite | apply sound_ite_snd
      | fail_if_no_progress apply sound_with | intro _ | refine pair_sound (by assumption) ?_
      | refine opt_elim (by assumption) ?_ | refine optP_elim (by assumption) ?_ | refine optP_elim' (by assumption) ?_
      | refine exc_elim (by assumption) ?_)
    | split | dsimp only

theorem State.gatesLowOf_sound {q : List Instr} (s : State) (d : Nat)
    (hq : State.Sound s q) :
    State.Sound (State.gatesLowOf s d) q := by
  unfold State.gatesLowOf
  repeat' first
    | (with_reducible first
      | assumption | apply State.gatesLow_sound | apply sound_ite | apply sound_ite_snd | intro _)
    | split | dsimp only

theorem State.limpRetention_sound {q : List Instr} (s : State)
    (hq : State.Sound s q) :
    State.Sound (State.limpRetention s) q := by
  unfold State.limpRetention
  repeat' first
    | (with_reducible first
      | assumption | apply State.setDomainState_sound | apply State.islandDown_sound | apply State.drainFlights_sound
      | apply State.gatesLowOf_sound | apply foldl_sound | apply foldl_snd_sound | apply sound_ite | apply sound_ite_snd
      | fail_if_no_progress apply sound_with | intro _ | refine pair_sound (by assumption) ?_
      | refine opt_elim (by assumption) ?_ | refine optP_elim (by assumption) ?_ | refine optP_elim' (by assumption) ?_
      | refine exc_elim (by assumption) ?_)
    | split | dsimp only

theorem State.limpExitStart_sound {q : List Instr} (s : State) (k : Nat)
    (hq : State.Sound s q) :
    State.Sound (State.limpExitStart s k) q := by
  unfold State.limpExitStart
  repeat' first
    | (with_reducible first
      | assumption | apply State.setFld_sound | apply sound_ite | apply sound_ite_snd | fail_if_no_progress apply sound_with
      | intro _)
    | split | dsimp only

theorem State.limpReturn_sound {q : List Instr} (s : State)
    (hq : State.Sound s q) :
    State.Sound (State.limpReturn s) q := by
  unfold State.limpReturn
  repeat' first
    | (with_reducible first
      | assumption | apply State.setFld_sound | apply State.islandReturn_sound | apply foldl_sound | apply foldl_snd_sound
      | apply sound_ite | apply sound_ite_snd | fail_if_no_progress apply sound_with | intro _
      | refine pair_sound (by assumption) ?_ | refine opt_elim (by assumption) ?_ | refine optP_elim (by assumption) ?_
      | refine optP_elim' (by assumption) ?_ | refine exc_elim (by assumption) ?_)
    | split | dsimp only

theorem State.limpLeave_sound {q : List Instr} (s : State)
    (hq : State.Sound s q) :
    State.Sound (State.limpLeave s) q := by
  unfold State.limpLeave
  repeat' first
    | (with_reducible first
      | assumption | apply State.setFld_sound | apply State.raise_sound | apply State.setMode_sound
      | apply State.requestDone_sound | apply sound_ite | apply sound_ite_snd | fail_if_no_progress apply sound_with | intro _)
    | split | dsimp only

theorem State.causeClear_sound {q : List Instr} (s : State) (cause : Nat)
    (hq : State.Sound s q) :
    State.Sound (State.causeClear s cause) q := by
  unfold State.causeClear
  repeat' first
    | (with_reducible first
      | assumption | apply State.dropCause_sound | apply State.railsGood_sound | apply sound_ite | apply sound_ite_snd
      | fail_if_no_progress apply sound_with | intro _ | refine pair_sound (by assumption) ?_
      | refine opt_elim (by assumption) ?_ | refine optP_elim (by assumption) ?_ | refine optP_elim' (by assumption) ?_
      | refine exc_elim (by assumption) ?_)
    | split | dsimp only

theorem State.islandHang_sound {q : List Instr} (s : State) (i : Nat)
    (hq : State.Sound s q) :
    State.Sound (State.islandHang s i) q := by
  unfold State.islandHang
  repeat' first
    | (with_reducible first
      | assumption | apply State.addCause_sound | apply sound_ite | apply sound_ite_snd | fail_if_no_progress apply sound_with
      | intro _ | refine pair_sound (by assumption) ?_ | refine opt_elim (by assumption) ?_
      | refine optP_elim (by assumption) ?_ | refine optP_elim' (by assumption) ?_ | refine exc_elim (by assumption) ?_)
    | split | dsimp only

theorem State.railDrop_sound {q : List Instr} (s : State) (rail : Nat)
    (hq : State.Sound s q) :
    State.Sound (State.railDrop s rail) q := by
  unfold State.railDrop
  repeat' first
    | (with_reducible first
      | assumption | apply State.setFld_sound | apply State.addCause_sound | apply sound_ite | apply sound_ite_snd | intro _)
    | split | dsimp only

theorem State.pmuBoundary_sound {q : List Instr} (s : State) (k : Nat)
    (hq : State.Sound s q) :
    State.Sound (State.pmuBoundary s k) q := by
  unfold State.pmuBoundary
  repeat' first
    | (with_reducible first
      | assumption | apply State.setMode_sound | apply State.rampOutputs_sound | apply State.requestEnd_sound
      | apply State.requestDone_sound | apply State.toSentry_sound | apply State.startTest_sound | apply State.restartHung_sound
      | apply State.limpEnter_sound | apply State.limpExitStart_sound | apply State.limpLeave_sound | apply sound_ite
      | apply sound_ite_snd | fail_if_no_progress apply sound_with | intro _ | refine pair_sound (by assumption) ?_
      | refine opt_elim (by assumption) ?_ | refine optP_elim (by assumption) ?_ | refine optP_elim' (by assumption) ?_
      | refine exc_elim (by assumption) ?_)
    | split | dsimp only

theorem State.firstToken_sound {q : List Instr} (s : State) (tuSample : Nat)
    (hq : State.Sound s q) :
    State.Sound (State.firstToken s tuSample) q := by
  unfold State.firstToken
  repeat' first
    | (with_reducible first
      | assumption | apply State.setFld_sound | apply State.raise_sound | apply State.setMode_sound
      | apply State.rampOutputs_sound | apply State.setGate_sound | apply State.setFlm_sound | apply State.flmPairing_sound
      | apply State.issueToken_sound | apply sound_ite | apply sound_ite_snd | fail_if_no_progress apply sound_with | intro _
      | refine pair_sound (by assumption) ?_ | refine opt_elim (by assumption) ?_ | refine optP_elim (by assumption) ?_
      | refine optP_elim' (by assumption) ?_ | refine exc_elim (by assumption) ?_)
    | split | dsimp only

theorem State.ptpTimeout_sound {q : List Instr} (s : State)
    (hq : State.Sound s q) :
    State.Sound (State.ptpTimeout s) q := by
  unfold State.ptpTimeout
  repeat' first
    | (with_reducible first
      | assumption | apply State.setFld_sound | apply sound_ite | apply sound_ite_snd | fail_if_no_progress apply sound_with
      | intro _)
    | split | dsimp only

theorem State.tempSample_sound {q : List Instr} (s : State) (temps : List Int)
    (hq : State.Sound s q) :
    State.Sound (State.tempSample s temps) q := by
  unfold State.tempSample
  repeat' first
    | (with_reducible first
      | assumption | apply State.setFld_sound | apply State.raise_sound | apply State.alert_sound | apply State.addCause_sound
      | apply foldl_sound | apply foldl_snd_sound | apply sound_ite | apply sound_ite_snd | fail_if_no_progress apply sound_with
      | intro _)
    | split | dsimp only

theorem State.thermalTrip_sound {q : List Instr} (s : State) (straps : Nat)
    (hq : State.Sound s q) :
    State.Sound (State.thermalTrip s straps) q := by
  unfold State.thermalTrip
  repeat' first
    | (with_reducible first
      | assumption | apply State.raise_sound | apply State.mainReset_sound | fail_if_no_progress apply sound_with | intro _)
    | split | dsimp only

theorem State.pwrFailAssert_sound {q : List Instr} (s : State)
    (hq : State.Sound s q) :
    State.Sound (State.pwrFailAssert s) q := by
  unfold State.pwrFailAssert
  repeat' first
    | (with_reducible first
      | assumption | apply State.raise_sound | apply State.alert_sound | apply State.recorderPowerFail_sound | apply sound_ite
      | apply sound_ite_snd | fail_if_no_progress apply sound_with | intro _)
    | split | dsimp only

theorem State.pwrFailShutdown_sound {q : List Instr} (s : State)
    (hq : State.Sound s q) :
    State.Sound (State.pwrFailShutdown s) q := by
  unfold State.pwrFailShutdown
  repeat' first
    | (with_reducible first
      | assumption | apply State.setFld_sound | apply State.bump_sound | apply State.mainOff_sound | apply sound_ite
      | apply sound_ite_snd | fail_if_no_progress apply sound_with | intro _)
    | split | dsimp only

theorem State.pwrFailDeassert_sound {q : List Instr} (s : State)
    (hq : State.Sound s q) :
    State.Sound (State.pwrFailDeassert s) q := by
  unfold State.pwrFailDeassert
  repeat' first
    | (with_reducible first
      | assumption | apply State.bump_sound | apply State.rampOutputs_sound | apply sound_ite | apply sound_ite_snd
      | fail_if_no_progress apply sound_with | intro _)
    | split | dsimp only

theorem State.pcieUp_sound {q : List Instr} (s : State) (width : Nat) (speed : Nat)
    (hq : State.Sound s q) :
    State.Sound (State.pcieUp s width speed) q := by
  unfold State.pcieUp
  repeat' first
    | (with_reducible first
      | assumption | apply State.setFld_sound | apply sound_ite | apply sound_ite_snd | intro _)
    | split | dsimp only

theorem execSleep_sound {q : List Instr} (s : State)
    (hq : State.Sound s q) :
    NextSound q (execSleep s) := by
  unfold execSleep
  repeat' first
    | (with_reducible first
      | assumption | apply State.pmuRequest_sound | apply next_sound | intro _)
    | split | dsimp only

theorem execWake_sound {q : List Instr} (s : State)
    (hq : State.Sound s q) :
    NextSound q (execWake s) := by
  unfold execWake
  repeat' first
    | (with_reducible first
      | assumption | apply State.pmuRequest_sound | apply next_sound | intro _)
    | split | dsimp only

theorem execGoLive_sound {q : List Instr} (s : State)
    (hq : State.Sound s q) :
    NextSound q (execGoLive s) := by
  unfold execGoLive
  repeat' first
    | (with_reducible first
      | assumption | apply State.pmuRequest_sound | apply next_sound | intro _)
    | split | dsimp only

theorem execGoShadow_sound {q : List Instr} (s : State)
    (hq : State.Sound s q) :
    NextSound q (execGoShadow s) := by
  unfold execGoShadow
  repeat' first
    | (with_reducible first
      | assumption | apply State.pmuRequest_sound | apply next_sound | intro _)
    | split | dsimp only

theorem execLimpEnter_sound {q : List Instr} (s : State)
    (hq : State.Sound s q) :
    NextSound q (execLimpEnter s) := by
  unfold execLimpEnter
  repeat' first
    | (with_reducible first
      | assumption | apply State.pmuRequest_sound | apply next_sound | intro _)
    | split | dsimp only

theorem execLimpExit_sound {q : List Instr} (s : State)
    (hq : State.Sound s q) :
    NextSound q (execLimpExit s) := by
  unfold execLimpExit
  repeat' first
    | (with_reducible first
      | assumption | apply State.pmuRequest_sound | apply next_sound | intro _)
    | split | dsimp only

theorem execTestEnter_sound {q : List Instr} (key : Nat) (s : State)
    (hq : State.Sound s q) :
    NextSound q (execTestEnter key s) := by
  unfold execTestEnter
  repeat' first
    | (with_reducible first
      | assumption | apply State.pmuRequest_sound | apply next_sound | intro _)
    | split | dsimp only

theorem execTestExit_sound {q : List Instr} (s : State)
    (hq : State.Sound s q) :
    NextSound q (execTestExit s) := by
  unfold execTestExit
  repeat' first
    | (with_reducible first
      | assumption | apply State.pmuRequest_sound | apply next_sound | intro _)
    | split | dsimp only

theorem execLimpEntry_sound {q : List Instr} (s : State)
    (hq : State.Sound s q) :
    NextSound q (execLimpEntry s) := by
  unfold execLimpEntry
  repeat' first
    | (with_reducible first
      | assumption | apply State.limpEnter_sound | apply sound_ite | apply sound_ite_snd | apply next_sound | apply next_ite
      | intro _)
    | split | dsimp only

theorem execLimpRetention_sound {q : List Instr} (s : State)
    (hq : State.Sound s q) :
    NextSound q (execLimpRetention s) := by
  unfold execLimpRetention
  repeat' first
    | (with_reducible first
      | assumption | apply State.limpRetention_sound | apply next_sound | intro _)
    | split | dsimp only

theorem execLimpCauseClear_sound {q : List Instr} (cause : Nat) (s : State)
    (hq : State.Sound s q) :
    NextSound q (execLimpCauseClear cause s) := by
  unfold execLimpCauseClear
  repeat' first
    | (with_reducible first
      | assumption | apply State.causeClear_sound | apply next_sound | intro _)
    | split | dsimp only

theorem execLimpReturn_sound {q : List Instr} (s : State)
    (hq : State.Sound s q) :
    NextSound q (execLimpReturn s) := by
  unfold execLimpReturn
  repeat' first
    | (with_reducible first
      | assumption | apply State.limpReturn_sound | apply next_sound | intro _)
    | split | dsimp only

theorem execIslandHang_sound {q : List Instr} (island : Nat) (s : State)
    (hq : State.Sound s q) :
    NextSound q (execIslandHang island s) := by
  unfold execIslandHang
  repeat' first
    | (with_reducible first
      | assumption | apply State.islandHang_sound | apply next_sound | intro _)
    | split | dsimp only

theorem execRailDrop_sound {q : List Instr} (rail : Nat) (s : State)
    (hq : State.Sound s q) :
    NextSound q (execRailDrop rail s) := by
  unfold execRailDrop
  repeat' first
    | (with_reducible first
      | assumption | apply State.railDrop_sound | apply next_sound | intro _)
    | split | dsimp only

theorem execResetNAssert_sound {q : List Instr} (straps : Nat) (s : State)
    (hq : State.Sound s q) :
    NextSound q (execResetNAssert straps s) := by
  unfold execResetNAssert
  repeat' first
    | (with_reducible first
      | assumption | apply State.wakeByStrap_sound | apply State.mainReset_sound | apply next_sound | intro _)
    | split | dsimp only

theorem execAoReset_sound {q : List Instr} (por : Bool) (straps : Nat) (s : State)
    (hq : State.Sound s q) :
    NextSound q (execAoReset por straps s) := by
  unfold execAoReset
  repeat' first
    | (with_reducible first
      | assumption | apply State.aoReset_sound | apply next_sound | intro _)
    | split | dsimp only

theorem execDomainOn_sound {q : List Instr} (d : Nat) (s : State)
    (hq : State.Sound s q) :
    NextSound q (execDomainOn d s) := by
  unfold execDomainOn
  repeat' first
    | (with_reducible first
      | assumption | apply State.domainUp_sound | apply next_sound | intro _)
    | split | dsimp only

theorem execDomainOff_sound {q : List Instr} (d : Nat) (s : State)
    (hq : State.Sound s q) :
    NextSound q (execDomainOff d s) := by
  unfold execDomainOff
  repeat' first
    | (with_reducible first
      | assumption | apply State.domainOffNext_sound | apply next_sound | intro _)
    | split | dsimp only

theorem execRailTimeout_sound {q : List Instr} (s : State)
    (hq : State.Sound s q) :
    NextSound q (execRailTimeout s) := by
  unfold execRailTimeout
  repeat' first
    | (with_reducible first
      | assumption | apply State.railTimeout_sound | apply next_sound | intro _)
    | split | dsimp only

theorem execBootFirstToken_sound {q : List Instr} (tuSample : Nat) (s : State)
    (hq : State.Sound s q) :
    NextSound q (execBootFirstToken tuSample s) := by
  unfold execBootFirstToken
  repeat' first
    | (with_reducible first
      | assumption | apply State.firstToken_sound | apply next_sound | intro _)
    | split | dsimp only

theorem execPtpWaitTimeout_sound {q : List Instr} (s : State)
    (hq : State.Sound s q) :
    NextSound q (execPtpWaitTimeout s) := by
  unfold execPtpWaitTimeout
  repeat' first
    | (with_reducible first
      | assumption | apply State.ptpTimeout_sound | apply next_sound | intro _)
    | split | dsimp only

theorem execPmuTempSample_sound {q : List Instr} (temps : List Int) (s : State)
    (hq : State.Sound s q) :
    NextSound q (execPmuTempSample temps s) := by
  unfold execPmuTempSample
  repeat' first
    | (with_reducible first
      | assumption | apply State.tempSample_sound | apply next_sound | intro _)
    | split | dsimp only

theorem execThermalTrip_sound {q : List Instr} (straps : Nat) (s : State)
    (hq : State.Sound s q) :
    NextSound q (execThermalTrip straps s) := by
  unfold execThermalTrip
  repeat' first
    | (with_reducible first
      | assumption | apply State.thermalTrip_sound | apply next_sound | intro _)
    | split | dsimp only

theorem execThermRestartWake_sound {q : List Instr} (s : State)
    (hq : State.Sound s q) :
    NextSound q (execThermRestartWake s) := by
  unfold execThermRestartWake
  repeat' first
    | (with_reducible first
      | assumption | apply State.wake_sound | apply sound_ite | apply sound_ite_snd | apply next_sound | apply next_ite
      | intro _)
    | split | dsimp only

theorem execPwrFailAssert_sound {q : List Instr} (s : State)
    (hq : State.Sound s q) :
    NextSound q (execPwrFailAssert s) := by
  unfold execPwrFailAssert
  repeat' first
    | (with_reducible first
      | assumption | apply State.pwrFailAssert_sound | apply next_sound | intro _)
    | split | dsimp only

theorem execPwrFailShutdown_sound {q : List Instr} (s : State)
    (hq : State.Sound s q) :
    NextSound q (execPwrFailShutdown s) := by
  unfold execPwrFailShutdown
  repeat' first
    | (with_reducible first
      | assumption | apply State.pwrFailShutdown_sound | apply next_sound | intro _)
    | split | dsimp only

theorem execPwrFailDeassert_sound {q : List Instr} (s : State)
    (hq : State.Sound s q) :
    NextSound q (execPwrFailDeassert s) := by
  unfold execPwrFailDeassert
  repeat' first
    | (with_reducible first
      | assumption | apply State.pwrFailDeassert_sound | apply next_sound | intro _)
    | split | dsimp only

theorem execPfRestartWake_sound {q : List Instr} (s : State)
    (hq : State.Sound s q) :
    NextSound q (execPfRestartWake s) := by
  unfold execPfRestartWake
  repeat' first
    | (with_reducible first
      | assumption | apply State.railsGood_sound | apply State.wake_sound | apply sound_ite | apply sound_ite_snd
      | apply next_sound | apply next_ite | intro _)
    | split | dsimp only

theorem execPcieLinkUp_sound {q : List Instr} (width : Nat) (speed : Nat) (s : State)
    (hq : State.Sound s q) :
    NextSound q (execPcieLinkUp width speed s) := by
  unfold execPcieLinkUp
  repeat' first
    | (with_reducible first
      | assumption | apply State.pcieUp_sound | apply next_sound | intro _)
    | split | dsimp only

theorem execPciePowerStateChange_sound {q : List Instr} (d3 : Bool) (s : State)
    (hq : State.Sound s q) :
    NextSound q (execPciePowerStateChange d3 s) := by
  unfold execPciePowerStateChange
  repeat' first
    | (with_reducible first
      | assumption | apply next_sound | fail_if_no_progress apply sound_with | intro _)
    | split | dsimp only

theorem execVddAoLoss_sound {q : List Instr} (s : State)
    (hq : State.Sound s q) :
    NextSound q (execVddAoLoss s) := by
  unfold execVddAoLoss
  repeat' first
    | (with_reducible first
      | assumption | apply State.aoLoss_sound | apply next_sound | intro _)
    | split | dsimp only

theorem execEvtRestore_sound {q : List Instr} (s : State)
    (hq : State.Sound s q) :
    NextSound q (execEvtRestore s) := by
  unfold execEvtRestore
  repeat' first
    | (with_reducible first
      | assumption | apply State.restore_sound | apply State.wakeByStrap_sound | apply sound_ite | apply sound_ite_snd
      | apply next_sound | apply next_ite | intro _)
    | split | dsimp only

end Sys2Proof.Machine
end

