-- ==== Sys2Proof/Laws/KeepsBus.lean ====
section
/-! SUPPORT. What the operations of Machine/Bus.lean keep: one lemma each. -/

set_option linter.unusedTactic false
set_option linter.unreachableTactic false

namespace Sys2Proof.Machine

theorem State.settleFor_sound {q : List Instr} (s : State) (a : Nat)
    (hq : State.Sound s q) :
    State.Sound (State.settleFor s a) q := by
  unfold State.settleFor
  repeat' first
    | (with_reducible first
      | assumption | apply State.beatSettleAll_sound | apply sound_ite | apply sound_ite_snd | intro _)
    | split | dsimp only

theorem State.malRead_sound {q : List Instr} (s : State) (a : Nat)
    (hq : State.Sound s q) :
    State.Sound (State.malRead s a).2 q := by
  unfold State.malRead
  simp only []
  split_ifs
  all_goals first | exact hq | exact State.mboxOutRead_sound _ _ hq

theorem State.readReg_sound {q : List Instr} (s : State) (a : Nat)
    (hq : State.Sound s q) :
    State.Sound (State.readReg s a).2 q := by
  unfold State.readReg
  repeat' first
    | (with_reducible first
      | assumption | apply State.capPop_sound | apply State.indexLoRead_sound | apply State.windowRead_sound
      | apply State.settleFor_sound | apply State.malRead_sound | apply sound_ite | apply sound_ite_snd | intro _)
    | split | dsimp only

theorem State.writeFld_sound {q : List Instr} (s : State) (x : Nat) (p : Fld × Access)
    (hq : State.Sound s q) :
    State.Sound (State.writeFld s x p) q := by
  unfold State.writeFld
  repeat' first
    | (with_reducible first
      | assumption | apply State.setFld_sound | fail_if_no_progress apply sound_with | intro _
      | refine pair_sound (by assumption) ?_ | refine opt_elim (by assumption) ?_ | refine optP_elim (by assumption) ?_
      | refine optP_elim' (by assumption) ?_ | refine exc_elim (by assumption) ?_)
    | split | dsimp only

theorem State.enableRise_sound {q : List Instr} (s : State) (a : Nat) (before : Nat)
    (hq : State.Sound s q) :
    State.Sound (State.enableRise s a before) q := by
  unfold State.enableRise
  repeat' first
    | (with_reducible first
      | assumption | apply State.raiseVector_sound | apply foldl_sound | apply foldl_snd_sound | apply sound_ite
      | apply sound_ite_snd | fail_if_no_progress apply sound_with | intro _)
    | split | dsimp only

theorem State.writeGeneric_sound {q : List Instr} (s : State) (a : Nat) (x : Nat)
    (hq : State.Sound s q) :
    State.Sound (State.writeGeneric s a x) q := by
  unfold State.writeGeneric
  repeat' first
    | (with_reducible first
      | assumption | apply State.setFld_sound | apply State.writeFld_sound | apply State.enableRise_sound | apply foldl_sound
      | apply foldl_snd_sound | apply sound_ite | apply sound_ite_snd | fail_if_no_progress apply sound_with | intro _
      | refine pair_sound (by assumption) ?_ | refine opt_elim (by assumption) ?_ | refine optP_elim (by assumption) ?_
      | refine optP_elim' (by assumption) ?_ | refine exc_elim (by assumption) ?_)
    | split | dsimp only

theorem State.pealLoadWrite_sound {q : List Instr} (s : State) (x : Nat)
    (hq : State.Sound s q) :
    State.Sound (State.pealLoadWrite s x) q := by
  unfold State.pealLoadWrite
  repeat' first
    | (with_reducible first
      | assumption | apply State.loadHost_sound | apply State.loadFlash_sound | apply State.loadAbort_sound | apply sound_ite
      | apply sound_ite_snd | intro _)
    | split | dsimp only

theorem State.smpAccept_sound {q : List Instr} (s : State) (c : SmpCmd)
    (hq : State.Sound s q) :
    State.Sound (State.smpAccept s c) q := by
  unfold State.smpAccept
  repeat' first
    | (with_reducible first
      | assumption | apply sound_ite | apply sound_ite_snd | fail_if_no_progress apply sound_with | intro _)
    | split | dsimp only

theorem State.smpHostGo_sound {q : List Instr} (s : State) (v : Nat)
    (hq : State.Sound s q) :
    State.Sound (State.smpHostGo s v) q := by
  unfold State.smpHostGo
  repeat' first
    | (with_reducible first
      | assumption | apply State.smpAccept_sound | apply sound_ite | apply sound_ite_snd | fail_if_no_progress apply sound_with
      | intro _)
    | split | dsimp only

theorem State.malWriteWord_sound {q : List Instr} (s : State) (a : Nat) (v : Word)
    (hq : State.Sound s q) :
    State.Sound (State.malWriteWord s a v).2 q := by
  unfold State.malWriteWord
  repeat' first
    | (with_reducible first
      | assumption | apply State.clearFlds_sound | apply State.raiseMask_sound | apply State.malRefuse_sound
      | apply State.dataWindowWrite_sound | apply State.mboxInWrite_sound | apply State.writeGeneric_sound | apply sound_ite
      | apply sound_ite_snd | fail_if_no_progress apply sound_with | intro _)
    | split | dsimp only

theorem State.ringRegWrite_sound {q : List Instr} (s : State) (a : Nat) (v : Word)
    (hq : State.Sound s q) :
    State.Sound (State.ringRegWrite s a v) q := by
  unfold State.ringRegWrite
  repeat' first
    | (with_reducible first
      | assumption | apply State.ringCtrlWrite_sound | apply State.ringCfgWrite_sound | apply State.ringTailWrite_sound
      | apply State.ringHeadWrite_sound | apply State.ringResizeWrite_sound | apply State.writeGeneric_sound
      | fail_if_no_progress apply sound_with | intro _ | refine pair_sound (by assumption) ?_
      | refine opt_elim (by assumption) ?_ | refine optP_elim (by assumption) ?_ | refine optP_elim' (by assumption) ?_
      | refine exc_elim (by assumption) ?_)
    | split | dsimp only

theorem State.portRegWrite_sound {q : List Instr} (s : State) (m : Nat) (a : Nat) (v : Word)
    (hq : State.Sound s q) :
    State.Sound (State.portRegWrite s m a v) q := by
  unfold State.portRegWrite
  repeat' first
    | (with_reducible first
      | assumption | apply State.fresh_sound | apply State.prtCtrlWrite_sound | apply State.aesCtrlWrite_sound
      | apply State.prtMaskWrite_sound | apply State.clearMasked_sound | apply State.writeGeneric_sound | apply sound_ite
      | apply sound_ite_snd | fail_if_no_progress apply sound_with | intro _)
    | split | dsimp only

theorem State.timeRegWrite_sound {q : List Instr} (s : State) (a : Nat) (v : Word)
    (hq : State.Sound s q) :
    State.Sound (State.timeRegWrite s a v) q := by
  unfold State.timeRegWrite
  repeat' first
    | (with_reducible first
      | assumption | apply State.hold_sound | apply State.someTime_sound | apply State.ptpCfgWrite_sound
      | apply State.latchTime_sound | apply State.phaseStep_sound | apply State.writeGeneric_sound | apply sound_ite
      | apply sound_ite_snd | fail_if_no_progress apply sound_with | intro _)
    | split | dsimp only

theorem State.engineRegWrite_sound {q : List Instr} (s : State) (a : Nat) (v : Word)
    (hq : State.Sound s q) :
    State.Sound (State.engineRegWrite s a v).2 q := by
  unfold State.engineRegWrite
  repeat' first
    | (with_reducible first
      | assumption | apply State.clearFlds_sound | apply State.hold_sound | apply State.xpTgtWrite_sound
      | apply State.rampSlotWrite_sound | apply State.cwDataWrite_sound | apply State.chmSelectWrite_sound
      | apply State.chmPresetWrite_sound | apply State.delaySetWrite_sound | apply State.hashSeedWrite_sound
      | apply State.writeGeneric_sound | apply sound_ite | apply sound_ite_snd | fail_if_no_progress apply sound_with | intro _)
    | split | dsimp only

theorem State.systemRegWrite_sound {q : List Instr} (s : State) (m : Nat) (a : Nat) (v : Word)
    (hq : State.Sound s q) :
    State.Sound (State.systemRegWrite s m a v).2 q := by
  unfold State.systemRegWrite
  repeat' first
    | (with_reducible first
      | assumption | apply State.clearFlds_sound | apply State.fresh_sound | apply State.msixTableWrite_sound
      | apply State.barrierWrite_sound | apply State.masterResetWrite_sound | apply State.ctlRelease_sound
      | apply State.netCountClear_sound | apply State.flmHandoverWrite_sound | apply State.flmResyncWrite_sound
      | apply State.realignRequest_sound | apply State.flmRealignWrite_sound | apply State.swapAbortWrite_sound
      | apply State.cursorWrite_sound | apply State.requestWrite_sound | apply State.attestGo_sound | apply State.otpGo_sound
      | apply State.muteKeyWrite_sound | apply State.sysReset_sound | apply State.pmuRequest_sound
      | apply State.writeGeneric_sound | apply State.pealLoadWrite_sound | apply State.smpHostGo_sound
      | apply State.ringRegWrite_sound | apply sound_ite | apply sound_ite_snd | fail_if_no_progress apply sound_with | intro _)
    | split | dsimp only

theorem State.writeReg_sound {q : List Instr} (s : State) (m : Nat) (a : Nat) (v : Word)
    (hq : State.Sound s q) :
    State.Sound (State.writeReg s m a v).2 q := by
  unfold State.writeReg
  repeat' first
    | (with_reducible first
      | assumption | apply State.xpWindowWrite_sound | apply State.commitWrite_sound | apply State.malWriteWord_sound
      | apply State.portRegWrite_sound | apply State.timeRegWrite_sound | apply State.engineRegWrite_sound
      | apply State.systemRegWrite_sound | apply sound_ite | apply sound_ite_snd | fail_if_no_progress apply sound_with
      | intro _ | refine pair_sound (by assumption) ?_ | refine opt_elim (by assumption) ?_
      | refine optP_elim (by assumption) ?_ | refine optP_elim' (by assumption) ?_ | refine exc_elim (by assumption) ?_)
    | split | dsimp only

theorem State.tagHeld_sound {q : List Instr} (s : State) (from_ : Nat) (m : Nat) (at_ : Option Nat)
    (hq : State.Sound s q) :
    State.Sound (State.tagHeld s from_ m at_) q := by
  unfold State.tagHeld
  repeat' first
    | (with_reducible first
      | assumption | apply State.emit_sound | apply foldl_sound | apply foldl_snd_sound | apply sound_ite | apply sound_ite_snd
      | fail_if_no_progress apply sound_with | intro _ | refine pair_sound (by assumption) ?_
      | refine opt_elim (by assumption) ?_ | refine optP_elim (by assumption) ?_ | refine optP_elim' (by assumption) ?_
      | refine exc_elim (by assumption) ?_)
    | split | dsimp only

theorem State.cwDataMirrored_sound {q : List Instr} (s : State) (m : Nat) (k : Nat) (v : Word)
    (hq : State.Sound s q) :
    State.Sound (State.cwDataMirrored s m k v).2 q := by
  unfold State.cwDataMirrored
  repeat' first
    | (with_reducible first
      | assumption | apply State.emit_sound | apply State.hold_sound | apply State.coefRefuse_sound
      | apply State.cwAdvance_sound | apply sound_ite | apply sound_ite_snd | fail_if_no_progress apply sound_with | intro _
      | refine pair_sound (by assumption) ?_ | refine opt_elim (by assumption) ?_ | refine optP_elim (by assumption) ?_
      | refine optP_elim' (by assumption) ?_ | refine exc_elim (by assumption) ?_)
    | split | dsimp only

theorem State.writeMirrored_sound {q : List Instr} (s : State) (o : Nat) (m : Nat) (a : Nat) (v : Word)
    (hq : State.Sound s q) :
    State.Sound (State.writeMirrored s o m a v).2 q := by
  unfold State.writeMirrored
  repeat' first
    | (with_reducible first
      | assumption | apply State.emit_sound | apply State.hold_sound | apply State.writeReg_sound | apply State.tagHeld_sound
      | apply State.cwDataMirrored_sound | apply sound_ite | apply sound_ite_snd | fail_if_no_progress apply sound_with
      | intro _)
    | split | dsimp only

theorem State.delivered_sound {q : List Instr} (s : State) (m : Nat) (a : Nat) (v : Word) (f : State → XbResp × State)
    (hq : State.Sound s q) (hf : ∀ s, State.Sound s q → State.Sound (f s).2 q) :
    State.Sound (State.delivered s m a v f).2 q := by
  unfold State.delivered
  repeat' first
    | (with_reducible first
      | assumption | apply State.bump_sound | apply State.countDecErr_sound | apply State.tagHeld_sound
      | apply State.writeMirrored_sound | apply hf | apply sound_ite | apply sound_ite_snd
      | fail_if_no_progress apply sound_with | intro _)
    | split | dsimp only

theorem State.writeWord_sound {q : List Instr} (s : State) (m : Nat) (a : Nat) (v : Word)
    (hq : State.Sound s q) :
    State.Sound (State.writeWord s m a v).2 q := by
  unfold State.writeWord
  repeat' first
    | (with_reducible first
      | assumption | apply State.writeReg_sound | apply State.delivered_sound | intro _)
    | split | dsimp only

theorem State.readWord_sound {q : List Instr} (s : State) (a : Nat)
    (hq : State.Sound s q) :
    State.Sound (State.readWord s a).2 q := by
  unfold State.readWord
  repeat' first
    | (with_reducible first
      | assumption | apply State.countDecErr_sound | apply State.readReg_sound | apply sound_ite | apply sound_ite_snd
      | fail_if_no_progress apply sound_with | intro _)
    | split | dsimp only

theorem State.laneWrite_sound {q : List Instr} (s : State) (m : Nat) (w : Nat) (lanes : List (Option Byte))
    (hq : State.Sound s q) :
    State.Sound (State.laneWrite s m w lanes).2 q := by
  unfold State.laneWrite
  repeat' first
    | (with_reducible first
      | assumption | apply State.countDecErr_sound | apply State.writeWord_sound | apply sound_ite | apply sound_ite_snd
      | intro _)
    | split | dsimp only

theorem State.targetWrite_sound {q : List Instr} (s : State) (m : Nat) (a : Nat) (data : List (Option Byte))
    (hq : State.Sound s q) :
    State.Sound (State.targetWrite s m a data).2 q := by
  unfold State.targetWrite
  repeat' first
    | (with_reducible first
      | assumption | apply State.bump_sound | apply State.memStore_sound | apply State.chmWindowWrite_sound
      | apply State.laneWrite_sound | apply foldl_sound | apply foldl_snd_sound | apply sound_ite | apply sound_ite_snd
      | fail_if_no_progress apply sound_with | intro _)
    | split | dsimp only

theorem State.busWrite_sound {q : List Instr} (s : State) (m : Nat) (a : Nat) (data : List (Option Byte))
    (hq : State.Sound s q) :
    State.Sound (State.busWrite s m a data).2 q := by
  unfold State.busWrite
  repeat' first
    | (with_reducible first
      | assumption | apply State.targetWrite_sound | apply foldl_sound | apply foldl_snd_sound
      | fail_if_no_progress apply sound_with | intro _)
    | split | dsimp only

theorem State.outboundRequests_sound {q : List Instr} (s : State) (h : Nat) (n : Nat)
    (hq : State.Sound s q) :
    State.Sound (State.outboundRequests s h n) q := by
  unfold State.outboundRequests
  repeat' first
    | (with_reducible first
      | assumption | apply State.emit_sound | apply foldl_sound | apply foldl_snd_sound | intro _)
    | split | dsimp only

theorem State.memRead_sound {q : List Instr} (s : State) (a : Nat) (n : Nat) (ext : FetchResp)
    (hq : State.Sound s q) :
    State.Sound (State.memRead s a n ext).2 q := by
  unfold State.memRead
  repeat' first
    | (with_reducible first
      | assumption | apply State.raise_sound | apply State.dramFetch_sound | apply State.outboundRequests_sound
      | apply sound_ite | apply sound_ite_snd | fail_if_no_progress apply sound_with | intro _
      | refine pair_sound (by assumption) ?_ | refine opt_elim (by assumption) ?_ | refine optP_elim (by assumption) ?_
      | refine optP_elim' (by assumption) ?_ | refine exc_elim (by assumption) ?_)
    | split | dsimp only

theorem State.targetRead_sound {q : List Instr} (s : State) (a : Nat) (n : Nat) (ext : FetchResp)
    (hq : State.Sound s q) :
    State.Sound (State.targetRead s a n ext).2 q := by
  unfold State.targetRead
  repeat' first
    | (with_reducible first
      | assumption | apply State.countDecErr_sound | apply State.readWord_sound | apply State.memRead_sound | apply foldl_sound
      | apply foldl_snd_sound | apply sound_ite | apply sound_ite_snd | fail_if_no_progress apply sound_with | intro _
      | refine pair_sound (by assumption) ?_ | refine opt_elim (by assumption) ?_ | refine optP_elim (by assumption) ?_
      | refine optP_elim' (by assumption) ?_ | refine exc_elim (by assumption) ?_)
    | split | dsimp only

theorem State.busRead_sound {q : List Instr} (s : State) (a : Nat) (n : Nat) (ext : FetchResp)
    (hq : State.Sound s q) :
    State.Sound (State.busRead s a n ext).2 q := by
  unfold State.busRead
  repeat' first
    | (with_reducible first
      | assumption | apply State.targetRead_sound | apply foldl_sound | apply foldl_snd_sound
      | fail_if_no_progress apply sound_with | intro _)
    | split | dsimp only

end Sys2Proof.Machine
end

