-- ==== Sys2Proof/Laws/KeepsXbar.lean ====
section
/-! SUPPORT. What the operations of Machine/Xbar.lean keep: one lemma each. -/

set_option linter.unusedTactic false
set_option linter.unreachableTactic false

namespace Sys2Proof.Machine

theorem State.hostError_sound {q : List Instr} (s : State) (a : Nat) (r : XbResp)
    (hq : State.Sound s q) :
    State.Sound (State.hostError s a r) q := by
  unfold State.hostError
  repeat' first
    | (with_reducible first
      | assumption | apply State.setFld_sound | apply State.bump_sound | apply State.raise_sound
      | fail_if_no_progress apply sound_with | intro _ | refine pair_sound (by assumption) ?_
      | refine opt_elim (by assumption) ?_ | refine optP_elim (by assumption) ?_ | refine optP_elim' (by assumption) ?_
      | refine exc_elim (by assumption) ?_)
    | split | dsimp only

theorem State.corrected_sound {q : List Instr} (s : State)
    (hq : State.Sound s q) :
    State.Sound (State.corrected s) q := by
  unfold State.corrected
  repeat' first
    | (with_reducible first
      | assumption | apply State.emit_sound | apply sound_ite | apply sound_ite_snd | fail_if_no_progress apply sound_with
      | intro _)
    | split | dsimp only

theorem State.hostReturn_sound {q : List Instr} (s : State) (a : Nat) (rs : List (Nat × Nat × XbResp))
    (hq : State.Sound s q) :
    State.Sound (State.hostReturn s a rs) q := by
  unfold State.hostReturn
  repeat' first
    | (with_reducible first
      | assumption | apply State.emit_sound | apply State.hostError_sound | apply State.corrected_sound | apply foldl_sound
      | apply foldl_snd_sound | apply sound_ite | apply sound_ite_snd | fail_if_no_progress apply sound_with | intro _)
    | split | dsimp only

theorem State.atomicRun_sound {q : List Instr} (s : State) (a : Nat) (op : AtomicOp) (n : Nat) (operand : Nat) (compare : Nat)
    (hq : State.Sound s q) :
    State.Sound (State.atomicRun s a op n operand compare) q := by
  unfold State.atomicRun
  repeat' first
    | (with_reducible first
      | assumption | apply State.emit_sound | apply State.busWrite_sound | apply State.busRead_sound
      | apply State.hostError_sound | apply foldl_sound | apply foldl_snd_sound | fail_if_no_progress apply sound_with | intro _
      | refine pair_sound (by assumption) ?_ | refine opt_elim (by assumption) ?_ | refine optP_elim (by assumption) ?_
      | refine optP_elim' (by assumption) ?_ | refine exc_elim (by assumption) ?_)
    | split | dsimp only

theorem State.answer_sound {q : List Instr} (s : State) (m : Nat) (a : Nat) (r : XbResp)
    (hq : State.Sound s q) :
    State.Sound (State.answer s m a r) q := by
  unfold State.answer
  repeat' first
    | (with_reducible first
      | assumption | apply State.emit_sound | apply State.hostError_sound | apply sound_ite | apply sound_ite_snd | intro _)
    | split | dsimp only

theorem State.enqueue_sound {q : List Instr} (s : State) (m : Nat) (tag : Nat) (k : XbKind) (a : Nat) (age : Nat) (lock : Option Bool) (resp : FetchResp)
    (hq : State.Sound s q) :
    State.Sound (State.enqueue s m tag k a age lock resp) q := by
  unfold State.enqueue
  repeat' first
    | (with_reducible first
      | assumption | apply State.age_sound | fail_if_no_progress apply sound_with | intro _)
    | split | dsimp only

theorem State.setReq_sound {q : List Instr} (s : State) (id : Nat) (f : XbReq → XbReq)
    (hq : State.Sound s q) :
    State.Sound (State.setReq s id f) q := by
  unfold State.setReq
  repeat' first
    | (with_reducible first
      | assumption | apply sound_ite | apply sound_ite_snd | fail_if_no_progress apply sound_with | intro _)
    | split | dsimp only

theorem State.admit_sound {q : List Instr} (s : State)
    (hq : State.Sound s q) :
    State.Sound (State.letIn s) q := by
  unfold State.letIn
  repeat' first
    | (with_reducible first
      | assumption | apply State.showOutstanding_sound | apply State.setReq_sound | apply foldl_sound | apply foldl_snd_sound
      | apply sound_ite | apply sound_ite_snd | fail_if_no_progress apply sound_with | intro _)
    | split | dsimp only

theorem State.oneBeat_sound {q : List Instr} (s : State) (r : XbReq) (i : Nat)
    (hq : State.Sound s q) :
    State.Sound (State.oneBeat s r i).2 q := by
  unfold State.oneBeat
  repeat' first
    | (with_reducible first
      | assumption | apply State.busWrite_sound | apply State.busRead_sound | apply sound_ite | apply sound_ite_snd
      | fail_if_no_progress apply sound_with | intro _ | refine pair_sound (by assumption) ?_
      | refine opt_elim (by assumption) ?_ | refine optP_elim (by assumption) ?_ | refine optP_elim' (by assumption) ?_
      | refine exc_elim (by assumption) ?_)
    | split | dsimp only

theorem State.grantBeats_sound {q : List Instr} (s : State) (id n : Nat) (hq : State.Sound s q) :
    State.Sound (State.grantBeats s id n) q := by
  induction n generalizing s with
  | zero => exact hq
  | succ n ih =>
    unfold State.grantBeats
    split
    · exact hq
    · split
      · exact ih _ (State.setReq_sound _ _ _ (State.oneBeat_sound _ _ _ hq))
      · exact hq

theorem State.reAge_sound {q : List Instr} (s : State) (id : Nat)
    (hq : State.Sound s q) :
    State.Sound (State.reAge s id) q := by
  unfold State.reAge
  repeat' first
    | (with_reducible first
      | assumption | apply State.age_sound | apply State.answer_sound | apply sound_ite | apply sound_ite_snd
      | fail_if_no_progress apply sound_with | intro _ | refine pair_sound (by assumption) ?_
      | refine opt_elim (by assumption) ?_ | refine optP_elim (by assumption) ?_ | refine optP_elim' (by assumption) ?_
      | refine exc_elim (by assumption) ?_)
    | split | dsimp only

theorem State.grantLocked_sound {q : List Instr} (s : State) (t : Nat) (r : XbReq) (last : Bool)
    (hq : State.Sound s q) :
    State.Sound (State.grantLocked s t r last) q := by
  unfold State.grantLocked
  repeat' first
    | (with_reducible first
      | assumption | apply State.breakLock_sound | apply State.answer_sound | apply State.setReq_sound
      | apply State.grantBeats_sound | apply sound_ite | apply sound_ite_snd | fail_if_no_progress apply sound_with | intro _
      | refine pair_sound (by assumption) ?_ | refine opt_elim (by assumption) ?_ | refine optP_elim (by assumption) ?_
      | refine optP_elim' (by assumption) ?_ | refine exc_elim (by assumption) ?_)
    | split | dsimp only

theorem State.grantHost_sound {q : List Instr} (s : State) (r : XbReq)
    (hq : State.Sound s q) :
    State.Sound (State.grantHost s r) q := by
  unfold State.grantHost
  repeat' first
    | (with_reducible first
      | assumption | apply State.showOutstanding_sound | apply State.busWrite_sound | apply State.busRead_sound
      | apply State.hostError_sound | apply State.hostReturn_sound | apply State.atomicRun_sound | apply foldl_sound
      | apply foldl_snd_sound | apply sound_ite | apply sound_ite_snd | fail_if_no_progress apply sound_with | intro _
      | refine pair_sound (by assumption) ?_ | refine opt_elim (by assumption) ?_ | refine optP_elim (by assumption) ?_
      | refine optP_elim' (by assumption) ?_ | refine exc_elim (by assumption) ?_)
    | split | dsimp only

theorem State.returnOne_sound {q : List Instr} (s : State) (r : XbReq)
    (hq : State.Sound s q) :
    State.Sound (State.returnOne s r) q := by
  unfold State.returnOne
  repeat' first
    | (with_reducible first
      | assumption | apply State.showOutstanding_sound | apply State.answer_sound | apply sound_ite | apply sound_ite_snd
      | fail_if_no_progress apply sound_with | intro _ | refine pair_sound (by assumption) ?_
      | refine opt_elim (by assumption) ?_ | refine optP_elim (by assumption) ?_ | refine optP_elim' (by assumption) ?_
      | refine exc_elim (by assumption) ?_)
    | split | dsimp only

theorem State.returnAll_sound {q : List Instr} (s : State)
    (hq : State.Sound s q) :
    State.Sound (State.returnAll s) q := by
  unfold State.returnAll
  repeat' first
    | (with_reducible first
      | assumption | apply State.returnOne_sound | apply foldl_sound | apply foldl_snd_sound | intro _)
    | split | dsimp only

theorem State.countWaits_sound {q : List Instr} (s : State) (t : Nat) (id : Nat)
    (hq : State.Sound s q) :
    State.Sound (State.countWaits s t id) q := by
  unfold State.countWaits
  repeat' first
    | (with_reducible first
      | assumption | apply State.answer_sound | apply sound_ite | apply sound_ite_snd | fail_if_no_progress apply sound_with
      | intro _)
    | split | dsimp only

theorem State.xbRound_sound {q : List Instr} (s : State) (t : Nat)
    (hq : State.Sound s q) :
    State.Sound (State.xbRound s t) q := by
  unfold State.xbRound
  repeat' first
    | (with_reducible first
      | assumption | apply State.admit_sound | apply State.grantBeats_sound | apply State.reAge_sound
      | apply State.grantLocked_sound | apply State.grantHost_sound | apply State.returnAll_sound | apply State.countWaits_sound
      | apply sound_ite | apply sound_ite_snd | fail_if_no_progress apply sound_with | intro _
      | refine pair_sound (by assumption) ?_ | refine opt_elim (by assumption) ?_ | refine optP_elim (by assumption) ?_
      | refine optP_elim' (by assumption) ?_ | refine exc_elim (by assumption) ?_)
    | split | dsimp only

theorem State.xbRounds_sound {q : List Instr} (s : State) (t n : Nat) (hq : State.Sound s q) :
    State.Sound (State.xbRounds s t n) q := by
  induction n generalizing s with
  | zero => exact hq
  | succ n ih =>
    unfold State.xbRounds
    split
    · exact State.admit_sound _ hq
    · exact ih _ (State.xbRound_sound _ _ hq)

theorem State.xbRun_sound {q : List Instr} (s : State) (n : Nat)
    (hq : State.Sound s q) :
    State.Sound (State.xbRun s n) q := by
  unfold State.xbRun
  repeat' first
    | (with_reducible first
      | assumption | apply State.xbRounds_sound | apply foldl_sound | apply foldl_snd_sound | intro _)
    | split | dsimp only

theorem State.xbDrain_sound {q : List Instr} (s : State)
    (hq : State.Sound s q) :
    State.Sound (State.xbDrain s) q := by
  unfold State.xbDrain
  repeat' first
    | (with_reducible first
      | assumption | apply State.xbRun_sound | intro _)
    | split | dsimp only

theorem State.reach_sound {q : List Instr} (s : State) (m : Nat) (a : Nat)
    (hq : State.Sound s q) :
    State.Sound (State.reach s m a).2 q := by
  unfold State.reach
  repeat' first
    | (with_reducible first
      | assumption | apply State.touch_sound | apply State.xbRounds_sound | apply sound_ite | apply sound_ite_snd
      | fail_if_no_progress apply sound_with | intro _ | refine pair_sound (by assumption) ?_
      | refine opt_elim (by assumption) ?_ | refine optP_elim (by assumption) ?_ | refine optP_elim' (by assumption) ?_
      | refine exc_elim (by assumption) ?_)
    | split | dsimp only

theorem execXbRequest_sound {q : List Instr} (master : Nat) (tag : Nat) (addr : Nat) (len : Nat) (data : Option (List (Option Byte))) (age : Nat) (rounds : Nat) (lock : Option Bool) (resp : FetchResp) (s : State)
    (hq : State.Sound s q) :
    NextSound q (execXbRequest master tag addr len data age rounds lock resp s) := by
  unfold execXbRequest
  repeat' first
    | (with_reducible first
      | assumption | apply State.age_sound | apply State.answer_sound | apply State.enqueue_sound | apply State.xbRun_sound
      | apply sound_ite | apply sound_ite_snd | apply next_sound | apply next_ite | fail_if_no_progress apply sound_with
      | intro _ | refine pair_sound (by assumption) ?_ | refine opt_elim (by assumption) ?_
      | refine optP_elim (by assumption) ?_ | refine optP_elim' (by assumption) ?_ | refine exc_elim (by assumption) ?_)
    | split | dsimp only

theorem State.failReq_sound {q : List Instr} (s : State) (r : XbReq)
    (hq : State.Sound s q) :
    State.Sound (State.failReq s r) q := by
  unfold State.failReq
  repeat' first
    | (with_reducible first
      | assumption | apply State.emit_sound | apply State.hostError_sound | apply State.hostReturn_sound
      | apply State.answer_sound | apply sound_ite | apply sound_ite_snd | fail_if_no_progress apply sound_with | intro _
      | refine pair_sound (by assumption) ?_ | refine opt_elim (by assumption) ?_ | refine optP_elim (by assumption) ?_
      | refine optP_elim' (by assumption) ?_ | refine exc_elim (by assumption) ?_)
    | split | dsimp only

theorem State.quarantine_sound {q : List Instr} (s : State) (m : Nat)
    (hq : State.Sound s q) :
    State.Sound (State.quarantine s m) q := by
  unfold State.quarantine
  repeat' first
    | (with_reducible first
      | assumption | apply State.setFld_sound | apply State.bump_sound | apply State.raise_sound | apply State.breakLocks_sound
      | apply State.retire_sound | apply State.failReq_sound | apply foldl_sound | apply foldl_snd_sound
      | fail_if_no_progress apply sound_with | intro _)
    | split | dsimp only

theorem State.masterResetDone_sound {q : List Instr} (s : State) (m : Nat)
    (hq : State.Sound s q) :
    State.Sound (State.masterResetDone s m) q := by
  unfold State.masterResetDone
  repeat' first
    | (with_reducible first
      | assumption | apply State.flushAll_sound | apply State.xbDrain_sound | apply sound_ite | apply sound_ite_snd
      | fail_if_no_progress apply sound_with | intro _)
    | split | dsimp only

theorem execMasterResetDone_sound {q : List Instr} (master : Nat) (s : State)
    (hq : State.Sound s q) :
    NextSound q (execMasterResetDone master s) := by
  unfold execMasterResetDone
  repeat' first
    | (with_reducible first
      | assumption | apply State.masterResetDone_sound | apply next_sound | intro _)
    | split | dsimp only

end Sys2Proof.Machine
end

