-- ==== Sys2Proof/Laws/KeepsHostPort.lean ====
section
/-! SUPPORT. What the operations of Machine/HostPort.lean keep: one lemma each. -/

set_option linter.unusedTactic false
set_option linter.unreachableTactic false

namespace Sys2Proof.Machine

theorem State.holdHost_sound {q : List Instr} (s : State) (k : XbKind) (a : Nat)
    (hq : State.Sound s q) :
    State.Sound (State.holdHost s k a) q := by
  unfold State.holdHost
  repeat' first
    | (with_reducible first
      | assumption | apply State.enqueue_sound | intro _)
    | split | dsimp only

theorem State.hostRead_sound {q : List Instr} (s : State) (a : Nat) (n : Nat)
    (hq : State.Sound s q) :
    State.Sound (State.hostRead s a n) q := by
  unfold State.hostRead
  repeat' first
    | (with_reducible first
      | assumption | apply State.busRead_sound | apply State.hostReturn_sound | apply State.reach_sound
      | apply State.holdHost_sound | fail_if_no_progress apply sound_with | intro _ | refine pair_sound (by assumption) ?_
      | refine opt_elim (by assumption) ?_ | refine optP_elim (by assumption) ?_ | refine optP_elim' (by assumption) ?_
      | refine exc_elim (by assumption) ?_)
    | split | dsimp only

theorem State.hostWrite_sound {q : List Instr} (s : State) (a : Nat) (data : List (Option Byte))
    (hq : State.Sound s q) :
    State.Sound (State.hostWrite s a data) q := by
  unfold State.hostWrite
  repeat' first
    | (with_reducible first
      | assumption | apply State.busWrite_sound | apply State.hostError_sound | apply State.reach_sound
      | apply State.holdHost_sound | apply foldl_sound | apply foldl_snd_sound | fail_if_no_progress apply sound_with | intro _
      | refine pair_sound (by assumption) ?_ | refine opt_elim (by assumption) ?_ | refine optP_elim (by assumption) ?_
      | refine optP_elim' (by assumption) ?_ | refine exc_elim (by assumption) ?_)
    | split | dsimp only

theorem execHostRead_sound {q : List Instr} (bar2 : Bool) (off : Nat) (len : Nat) (s : State)
    (hq : State.Sound s q) :
    NextSound q (execHostRead bar2 off len s) := by
  unfold execHostRead
  repeat' first
    | (with_reducible first
      | assumption | apply State.hostRead_sound | apply sound_ite | apply sound_ite_snd | apply next_sound | apply next_ite
      | fail_if_no_progress apply sound_with | intro _ | refine pair_sound (by assumption) ?_
      | refine opt_elim (by assumption) ?_ | refine optP_elim (by assumption) ?_ | refine optP_elim' (by assumption) ?_
      | refine exc_elim (by assumption) ?_)
    | split | dsimp only

theorem execHostWrite_sound {q : List Instr} (bar2 : Bool) (off : Nat) (data : List (Option Byte)) (s : State)
    (hq : State.Sound s q) :
    NextSound q (execHostWrite bar2 off data s) := by
  unfold execHostWrite
  repeat' first
    | (with_reducible first
      | assumption | apply State.hostWrite_sound | apply sound_ite | apply sound_ite_snd | apply next_sound | apply next_ite
      | fail_if_no_progress apply sound_with | intro _ | refine pair_sound (by assumption) ?_
      | refine opt_elim (by assumption) ?_ | refine optP_elim (by assumption) ?_ | refine optP_elim' (by assumption) ?_
      | refine exc_elim (by assumption) ?_)
    | split | dsimp only

theorem State.atomic_sound {q : List Instr} (s : State) (a : Nat) (op : AtomicOp) (n : Nat) (operand : Nat) (compare : Nat)
    (hq : State.Sound s q) :
    State.Sound (State.atomic s a op n operand compare) q := by
  unfold State.atomic
  repeat' first
    | (with_reducible first
      | assumption | apply State.emit_sound | apply State.hostError_sound | apply State.atomicRun_sound
      | apply State.reach_sound | apply State.holdHost_sound | fail_if_no_progress apply sound_with | intro _
      | refine pair_sound (by assumption) ?_ | refine opt_elim (by assumption) ?_ | refine optP_elim (by assumption) ?_
      | refine optP_elim' (by assumption) ?_ | refine exc_elim (by assumption) ?_)
    | split | dsimp only

theorem execAtomicOp_sound {q : List Instr} (bar2 : Bool) (off : Nat) (op : AtomicOp) (wide : Bool) (operand : Nat) (compare : Nat) (s : State)
    (hq : State.Sound s q) :
    NextSound q (execAtomicOp bar2 off op wide operand compare s) := by
  unfold execAtomicOp
  repeat' first
    | (with_reducible first
      | assumption | apply State.emit_sound | apply State.raise_sound | apply State.atomic_sound | apply sound_ite
      | apply sound_ite_snd | apply next_sound | apply next_ite | fail_if_no_progress apply sound_with | intro _
      | refine pair_sound (by assumption) ?_ | refine opt_elim (by assumption) ?_ | refine optP_elim (by assumption) ?_
      | refine optP_elim' (by assumption) ?_ | refine exc_elim (by assumption) ?_)
    | split | dsimp only

theorem State.holdWord_sound {q : List Instr} (s : State) (m : Nat) (a : Nat) (k : XbKind)
    (hq : State.Sound s q) :
    State.Sound (State.holdWord s m a k) q := by
  unfold State.holdWord
  repeat' first
    | (with_reducible first
      | assumption | apply State.enqueue_sound | intro _)
    | split | dsimp only

theorem State.through_sound {q : List Instr} (s : State) (m : Nat) (a : Nat) (v : Word) (f : State → XbResp × State)
    (hq : State.Sound s q) (hf : ∀ s, State.Sound s q → State.Sound (f s).2 q) :
    State.Sound (State.through s m a v f) q := by
  unfold State.through
  repeat' first
    | (with_reducible first
      | assumption | apply State.delivered_sound | apply State.answer_sound | apply State.reach_sound
      | apply State.holdWord_sound | apply hf | fail_if_no_progress apply sound_with | intro _
      | refine pair_sound (by assumption) ?_ | refine opt_elim (by assumption) ?_ | refine optP_elim (by assumption) ?_
      | refine optP_elim' (by assumption) ?_ | refine exc_elim (by assumption) ?_)
    | split | dsimp only

theorem State.throughRead_sound {q : List Instr} (s : State) (m : Nat) (a : Nat) (f : State → Nat × State)
    (hq : State.Sound s q) (hf : ∀ s, State.Sound s q → State.Sound (f s).2 q) :
    State.Sound (State.throughRead s m a f) q := by
  unfold State.throughRead
  repeat' first
    | (with_reducible first
      | assumption | apply State.countDecErr_sound | apply State.answer_sound | apply State.reach_sound
      | apply State.holdWord_sound | apply hf | apply sound_ite | apply sound_ite_snd | fail_if_no_progress apply sound_with
      | intro _ | refine pair_sound (by assumption) ?_ | refine opt_elim (by assumption) ?_
      | refine optP_elim (by assumption) ?_ | refine optP_elim' (by assumption) ?_ | refine exc_elim (by assumption) ?_)
    | split | dsimp only

theorem State.throughBytes_sound {q : List Instr} (s : State) (m : Nat) (a : Nat) (data : List (Option Byte))
    (hq : State.Sound s q) :
    State.Sound (State.throughBytes s m a data) q := by
  unfold State.throughBytes
  repeat' first
    | (with_reducible first
      | assumption | apply State.busWrite_sound | apply State.answer_sound | apply State.reach_sound
      | apply State.holdWord_sound | fail_if_no_progress apply sound_with | intro _ | refine pair_sound (by assumption) ?_
      | refine opt_elim (by assumption) ?_ | refine optP_elim (by assumption) ?_ | refine optP_elim' (by assumption) ?_
      | refine exc_elim (by assumption) ?_)
    | split | dsimp only

theorem execRegisterWrite_sound {q : List Instr} (master : Nat) (addr : Nat) (value : Word) (s : State)
    (hq : State.Sound s q) :
    NextSound q (execRegisterWrite master addr value s) := by
  unfold execRegisterWrite
  repeat' first
    | (with_reducible first
      | assumption | apply State.throughBytes_sound | apply next_sound | intro _)
    | split | dsimp only

theorem State.conflictRoll_sound {q : List Instr} (s : State)
    (hq : State.Sound s q) :
    State.Sound (State.conflictRoll s) q := by
  unfold State.conflictRoll
  repeat' first
    | (with_reducible first
      | assumption | apply State.setFld_sound | apply State.peak_sound | fail_if_no_progress apply sound_with | intro _)
    | split | dsimp only

theorem State.dmaEnd_sound {q : List Instr} (s : State) (g : Nat) (ch : Nat) (err : Bool) (left : Nat)
    (hq : State.Sound s q) :
    State.Sound (State.dmaEnd s g ch err left) q := by
  unfold State.dmaEnd
  repeat' first
    | (with_reducible first
      | assumption | apply State.setFld_sound | apply State.countAndRaise_sound | apply State.setCore_sound
      | apply State.raiseSource_sound | apply sound_ite | apply sound_ite_snd | fail_if_no_progress apply sound_with | intro _)
    | split | dsimp only

theorem State.dmaOut_sound {q : List Instr} (s : State) (m a : Nat) (bs : List (List Byte)) (hq : State.Sound s q) :
    State.Sound (State.dmaOut s m a bs).2.2 q := by
  induction bs generalizing s a with
  | nil => exact hq
  | cons b bs ih =>
    have h1 := State.reach_sound s m a hq
    have h2 := State.busWrite_sound _ m a (b.map some) h1
    unfold State.dmaOut
    simp only []
    split
    · split
      · exact ih _ _ h2
      · exact h2
    · exact h1

theorem State.dmaIn_sound {q : List Instr} (s : State) (m a : Nat) (ext : List Byte) (ok : Bool) (n : Nat) (hq : State.Sound s q) :
    State.Sound (State.dmaIn s m a ext ok n).2.2 q := by
  induction n generalizing s a ext with
  | zero => exact hq
  | succ n ih =>
    have h1 := State.reach_sound s m a hq
    have h2 := State.busRead_sound _ a 4 (if ok then .data (ext.take 4) else .error) h1
    unfold State.dmaIn
    simp only []
    split
    · split
      · exact ih _ _ _ h2
      · exact h2
    · exact h1

theorem State.dmaRun_sound {q : List Instr} (s : State) (g : Nat) (ch : Nat) (d : Dma) (resp : FetchResp)
    (hq : State.Sound s q) :
    State.Sound (State.dmaRun s g ch d resp) q := by
  unfold State.dmaRun
  repeat' first
    | (with_reducible first
      | assumption | apply State.regionAccess_sound | apply State.putData_sound | apply State.dmaEnd_sound
      | apply State.dmaOut_sound | apply State.dmaIn_sound | apply sound_ite | apply sound_ite_snd
      | fail_if_no_progress apply sound_with | intro _ | refine pair_sound (by assumption) ?_
      | refine opt_elim (by assumption) ?_ | refine optP_elim (by assumption) ?_ | refine optP_elim' (by assumption) ?_
      | refine exc_elim (by assumption) ?_)
    | split | dsimp only

theorem execDmaComplete_sound {q : List Instr} (core : Nat) (channel : Nat) (resp : FetchResp) (s : State)
    (hq : State.Sound s q) :
    NextSound q (execDmaComplete core channel resp s) := by
  unfold execDmaComplete
  repeat' first
    | (with_reducible first
      | assumption | apply State.dmaRun_sound | apply next_sound | fail_if_no_progress apply sound_with | intro _
      | refine pair_sound (by assumption) ?_ | refine opt_elim (by assumption) ?_ | refine optP_elim (by assumption) ?_
      | refine optP_elim' (by assumption) ?_ | refine exc_elim (by assumption) ?_)
    | split | dsimp only

end Sys2Proof.Machine
end

