-- ==== Sys2Proof/Laws/KeepsFetch.lean ====
section
/-! SUPPORT. What the operations of Machine/Fetch.lean keep: one lemma each. -/

set_option linter.unusedTactic false
set_option linter.unreachableTactic false

namespace Sys2Proof.Machine

theorem State.masterFetch_sound {q : List Instr} (s : State) (m : Nat) (a : Nat) (n : Nat) (resp : FetchResp)
    (hq : State.Sound s q) :
    OptSoundP q (State.masterFetch s m a n resp) := by
  unfold State.masterFetch
  repeat' first
    | (with_reducible first
      | assumption | apply State.busRead_sound | apply State.reach_sound | apply sound_ite | apply sound_ite_snd
      | apply optP_ite | apply optP_none | apply optP_some | apply optP_map | fail_if_no_progress apply sound_with | intro _
      | refine pair_sound (by assumption) ?_ | refine opt_elim (by assumption) ?_ | refine optP_elim (by assumption) ?_
      | refine optP_elim' (by assumption) ?_ | refine exc_elim (by assumption) ?_)
    | split | dsimp only

theorem State.fetchDone_sound {q : List Instr} (s : State) (id : Nat) (resp : FetchResp) (p : Cmd → Bool)
    (hq : State.Sound s q) :
    State.Sound (State.fetchDone s id resp p) q := by
  unfold State.fetchDone
  repeat' first
    | (with_reducible first
      | assumption | apply State.setFetch_sound | apply State.masterFetch_sound | apply sound_ite | apply sound_ite_snd
      | fail_if_no_progress apply sound_with | intro _ | refine pair_sound (by assumption) ?_
      | refine opt_elim (by assumption) ?_ | refine optP_elim (by assumption) ?_ | refine optP_elim' (by assumption) ?_
      | refine exc_elim (by assumption) ?_)
    | split | dsimp only

theorem execXpListFetchDone_sound {q : List Instr} (id : Nat) (resp : FetchResp) (s : State)
    (hq : State.Sound s q) :
    NextSound q (execXpListFetchDone id resp s) := by
  unfold execXpListFetchDone
  repeat' first
    | (with_reducible first
      | assumption | apply State.fetchDone_sound | apply next_sound | fail_if_no_progress apply sound_with | intro _
      | refine pair_sound (by assumption) ?_ | refine opt_elim (by assumption) ?_ | refine optP_elim (by assumption) ?_
      | refine optP_elim' (by assumption) ?_ | refine exc_elim (by assumption) ?_)
    | split | dsimp only

theorem execCoefWriteFetchDone_sound {q : List Instr} (id : Nat) (resp : FetchResp) (s : State)
    (hq : State.Sound s q) :
    NextSound q (execCoefWriteFetchDone id resp s) := by
  unfold execCoefWriteFetchDone
  repeat' first
    | (with_reducible first
      | assumption | apply State.fetchDone_sound | apply next_sound | fail_if_no_progress apply sound_with | intro _
      | refine pair_sound (by assumption) ?_ | refine opt_elim (by assumption) ?_ | refine optP_elim (by assumption) ?_
      | refine optP_elim' (by assumption) ?_ | refine exc_elim (by assumption) ?_)
    | split | dsimp only

theorem execParamListFetchDone_sound {q : List Instr} (id : Nat) (resp : FetchResp) (s : State)
    (hq : State.Sound s q) :
    NextSound q (execParamListFetchDone id resp s) := by
  unfold execParamListFetchDone
  repeat' first
    | (with_reducible first
      | assumption | apply State.fetchDone_sound | apply next_sound | fail_if_no_progress apply sound_with | intro _
      | refine pair_sound (by assumption) ?_ | refine opt_elim (by assumption) ?_ | refine optP_elim (by assumption) ?_
      | refine optP_elim' (by assumption) ?_ | refine exc_elim (by assumption) ?_)
    | split | dsimp only

theorem execDelayListFetchDone_sound {q : List Instr} (id : Nat) (resp : FetchResp) (s : State)
    (hq : State.Sound s q) :
    NextSound q (execDelayListFetchDone id resp s) := by
  unfold execDelayListFetchDone
  repeat' first
    | (with_reducible first
      | assumption | apply State.fetchDone_sound | apply next_sound | fail_if_no_progress apply sound_with | intro _
      | refine pair_sound (by assumption) ?_ | refine opt_elim (by assumption) ?_ | refine optP_elim (by assumption) ?_
      | refine optP_elim' (by assumption) ?_ | refine exc_elim (by assumption) ?_)
    | split | dsimp only

theorem execNetSend_sound {q : List Instr} (port : Nat) (flags : Nat) (length : Nat) (addr : Nat) (resp : FetchResp) (s : State)
    (hq : State.Sound s q) :
    NextSound q (execNetSend port flags length addr resp s) := by
  unfold execNetSend
  repeat' first
    | (with_reducible first
      | assumption | apply State.netReject_sound | apply State.netQueue_sound | apply State.masterFetch_sound | apply sound_ite
      | apply sound_ite_snd | apply next_sound | apply next_ite | fail_if_no_progress apply sound_with | intro _
      | refine pair_sound (by assumption) ?_ | refine opt_elim (by assumption) ?_ | refine optP_elim (by assumption) ?_
      | refine optP_elim' (by assumption) ?_ | refine exc_elim (by assumption) ?_)
    | split | dsimp only

theorem State.failFetches_sound {q : List Instr} (s : State) (m : Nat)
    (hq : State.Sound s q) :
    State.Sound (State.failFetches s m) q := by
  unfold State.failFetches
  repeat' first
    | (with_reducible first
      | assumption | apply State.setFetch_sound | apply State.dmaEnd_sound | apply foldl_sound | apply foldl_snd_sound
      | apply sound_ite | apply sound_ite_snd | fail_if_no_progress apply sound_with | intro _)
    | split | dsimp only

theorem execXbWatchdogQuarantine_sound {q : List Instr} (master : Nat) (nanos : Nat) (s : State)
    (hq : State.Sound s q) :
    NextSound q (execXbWatchdogQuarantine master nanos s) := by
  unfold execXbWatchdogQuarantine
  repeat' first
    | (with_reducible first
      | assumption | apply State.quarantine_sound | apply State.failFetches_sound | apply sound_ite | apply sound_ite_snd
      | apply next_sound | apply next_ite | intro _)
    | split | dsimp only

theorem State.obTimeout_sound {q : List Instr} (s : State) (m : Nat)
    (hq : State.Sound s q) :
    State.Sound (State.obTimeout s m) q := by
  unfold State.obTimeout
  repeat' first
    | (with_reducible first
      | assumption | apply State.emit_sound | apply State.raise_sound | apply State.setFetch_sound | apply State.answer_sound
      | apply State.setReq_sound | apply State.xbRounds_sound | fail_if_no_progress apply sound_with | intro _
      | refine pair_sound (by assumption) ?_ | refine opt_elim (by assumption) ?_ | refine optP_elim (by assumption) ?_
      | refine optP_elim' (by assumption) ?_ | refine exc_elim (by assumption) ?_)
    | split | dsimp only

theorem execObTimeout_sound {q : List Instr} (master : Nat) (s : State)
    (hq : State.Sound s q) :
    NextSound q (execObTimeout master s) := by
  unfold execObTimeout
  repeat' first
    | (with_reducible first
      | assumption | apply State.obTimeout_sound | apply next_sound | intro _)
    | split | dsimp only

end Sys2Proof.Machine
end

