-- ==== Sys2Proof/Laws/KeepsApply.lean ====
section
/-! SUPPORT. What the operations of Machine/Apply.lean keep: one lemma each. -/

set_option linter.unusedTactic false
set_option linter.unreachableTactic false

namespace Sys2Proof.Machine

theorem State.doWrite32_sound {q : List Instr} (s : State) (a : Nat) (value : Word) (mask : Word) (ext : FetchResp)
    (hq : State.Sound s q) :
    OptSoundP q (State.doWrite32 s a value mask ext) := by
  unfold State.doWrite32
  repeat' first
    | (with_reducible first
      | assumption | apply State.busWrite_sound | apply State.busRead_sound | apply State.reach_sound | apply sound_ite
      | apply sound_ite_snd | apply optP_ite | apply optP_none | apply optP_some | apply optP_map
      | fail_if_no_progress apply sound_with | intro _ | refine pair_sound (by assumption) ?_
      | refine opt_elim (by assumption) ?_ | refine optP_elim (by assumption) ?_ | refine optP_elim' (by assumption) ?_
      | refine exc_elim (by assumption) ?_)
    | split | dsimp only

theorem State.issueWrite32_sound {q : List Instr} (s : State) (h : Held) (a : Nat) (value : Word) (mask : Word) (ext : FetchResp)
    (hq : State.Sound s q) :
    OptSound q (State.issueWrite32 s h a value mask ext) := by
  unfold State.issueWrite32
  repeat' first
    | (with_reducible first
      | assumption | apply State.complete_sound | apply State.doWrite32_sound | apply sound_ite | apply sound_ite_snd
      | apply opt_ite | apply opt_none | apply opt_some | fail_if_no_progress apply sound_with | intro _
      | refine pair_sound (by assumption) ?_ | refine opt_elim (by assumption) ?_ | refine optP_elim (by assumption) ?_
      | refine optP_elim' (by assumption) ?_ | refine exc_elim (by assumption) ?_)
    | split | dsimp only

theorem State.toEngine_sound {q : List Instr} (s : State) (h : Held)
    (hq : State.Sound s q) :
    State.Sound (State.toEngine s h) q := by
  unfold State.toEngine
  repeat' first
    | (with_reducible first
      | assumption | apply State.bump_sound | apply State.emit_sound | apply State.hold_sound | apply State.completeNow_sound
      | apply sound_ite | apply sound_ite_snd | fail_if_no_progress apply sound_with | intro _)
    | split | dsimp only

theorem State.handOver_sound {q : List Instr} (s : State) (n : Nat) (bs : List Byte)
    (hq : State.Sound s q) :
    State.Sound (State.handOver s n bs) q := by
  unfold State.handOver
  repeat' first
    | (with_reducible first
      | assumption | apply State.hold_sound | apply State.setRing_sound | apply State.complete_sound
      | apply State.takeEntry_sound | apply State.startFence_sound | apply State.takeNop_sound | apply State.toEngine_sound
      | apply sound_ite | apply sound_ite_snd | fail_if_no_progress apply sound_with | intro _
      | refine pair_sound (by assumption) ?_ | refine opt_elim (by assumption) ?_ | refine optP_elim (by assumption) ?_
      | refine optP_elim' (by assumption) ?_ | refine exc_elim (by assumption) ?_)
    | split | dsimp only

theorem State.fetchFailed_sound {q : List Instr} (s : State) (n : Nat)
    (hq : State.Sound s q) :
    State.Sound (State.fetchFailed s n) q := by
  unfold State.fetchFailed
  repeat' first
    | (with_reducible first
      | assumption | apply State.fresh_sound | apply State.haltRing_sound | apply State.complete_sound
      | apply State.takeEntry_sound | fail_if_no_progress apply sound_with | intro _)
    | split | dsimp only

theorem State.ringFetch_sound {q : List Instr} (s : State) (n : Nat) (resp : FetchResp)
    (hq : State.Sound s q) :
    State.Sound (State.ringFetch s n resp) q := by
  unfold State.ringFetch
  repeat' first
    | (with_reducible first
      | assumption | apply State.masterFetch_sound | apply State.handOver_sound | apply State.fetchFailed_sound
      | apply sound_ite | apply sound_ite_snd | fail_if_no_progress apply sound_with | intro _
      | refine pair_sound (by assumption) ?_ | refine opt_elim (by assumption) ?_ | refine optP_elim (by assumption) ?_
      | refine optP_elim' (by assumption) ?_ | refine exc_elim (by assumption) ?_)
    | split | dsimp only

theorem execRingFetch_sound {q : List Instr} (ring : Nat) (resp : FetchResp) (s : State)
    (hq : State.Sound s q) :
    NextSound q (execRingFetch ring resp s) := by
  unfold execRingFetch
  repeat' first
    | (with_reducible first
      | assumption | apply State.ringFetch_sound | apply next_sound | intro _)
    | split | dsimp only

theorem execWrite32_sound {q : List Instr} (ring : Nat) (cookie : Nat) (cpl : Bool) (irq : Bool) (stamp : Option Nat) (addr : Nat) (value : Word) (mask : Word) (resp : FetchResp) (s : State)
    (hq : State.Sound s q) :
    NextSound q (execWrite32 ring cookie cpl irq stamp addr value mask resp s) := by
  unfold execWrite32
  repeat' first
    | (with_reducible first
      | assumption | apply State.hold_sound | apply State.complete_sound | apply State.takeEntry_sound
      | apply State.issueWrite32_sound | apply sound_ite | apply sound_ite_snd | apply next_sound | apply next_ite
      | fail_if_no_progress apply sound_with | intro _ | apply optS_getD)
    | split | dsimp only

theorem State.applyRegWrite_sound {q : List Instr} (s : State) (h : Held) (a : Nat) (v : Word)
    (hq : State.Sound s q) :
    State.Sound (State.applyRegWrite s h a v) q := by
  unfold State.applyRegWrite
  repeat' first
    | (with_reducible first
      | assumption | apply State.unhold_sound | apply State.beatApply_sound | apply State.chmWindowWrite_sound
      | apply State.settleUnit_sound | apply State.clvApply_sound | apply State.writeReg_sound | apply foldl_sound
      | apply foldl_snd_sound | apply sound_ite | apply sound_ite_snd | fail_if_no_progress apply sound_with | intro _)
    | split | dsimp only

theorem State.applyCmd_sound {q : List Instr} (s : State) (h : Held)
    (hq : State.Sound s q) :
    OptSoundP q (State.applyCmd s h) := by
  unfold State.applyCmd
  repeat' first
    | (with_reducible first
      | assumption | apply State.beatApply_sound | apply State.clnApply_sound | apply State.chmApply_sound
      | apply State.prtApply_sound | apply State.clvApply_sound | apply State.dplApply_sound | apply State.malApply_sound
      | apply State.netReject_sound | apply State.streamMute_sound | apply State.flmApply_sound
      | apply State.applyRegWrite_sound | apply optP_ite | apply optP_none | apply optP_some | apply optP_map
      | fail_if_no_progress apply sound_with | intro _ | refine pair_sound (by assumption) ?_
      | refine opt_elim (by assumption) ?_ | refine optP_elim (by assumption) ?_ | refine optP_elim' (by assumption) ?_
      | refine exc_elim (by assumption) ?_)
    | split | dsimp only

theorem State.countDefer_sound {q : List Instr} (s : State) (h : Held) (n : Nat)
    (hq : State.Sound s q) :
    State.Sound (State.countDefer s h n) q := by
  unfold State.countDefer
  repeat' first
    | (with_reducible first
      | assumption | apply State.clnDefer_sound | apply State.malDefer_sound | apply foldl_sound | apply foldl_snd_sound
      | apply sound_ite | apply sound_ite_snd | fail_if_no_progress apply sound_with | intro _
      | refine pair_sound (by assumption) ?_ | refine opt_elim (by assumption) ?_ | refine optP_elim (by assumption) ?_
      | refine optP_elim' (by assumption) ?_ | refine exc_elim (by assumption) ?_)
    | split | dsimp only

theorem State.letWait_sound {q : List Instr} (s : State) (h : Held)
    (hq : State.Sound s q) :
    State.Sound (State.letWait s h) q := by
  unfold State.letWait
  repeat' first
    | (with_reducible first
      | assumption | apply State.deferHeld_sound | apply State.countDefer_sound | intro _)
    | split | dsimp only

theorem State.countLateCmd_sound {q : List Instr} (s : State) (h : Held) (status : Nat)
    (hq : State.Sound s q) :
    State.Sound (State.countLateCmd s h status) q := by
  unfold State.countLateCmd
  repeat' first
    | (with_reducible first
      | assumption | apply State.bump_sound | apply State.countAndRaise_sound | apply State.chmLate_sound
      | apply State.dplLate_sound | apply sound_ite | apply sound_ite_snd | fail_if_no_progress apply sound_with | intro _
      | refine pair_sound (by assumption) ?_ | refine opt_elim (by assumption) ?_ | refine optP_elim (by assumption) ?_
      | refine optP_elim' (by assumption) ?_ | refine exc_elim (by assumption) ?_)
    | split | dsimp only

theorem State.nextList_sound {q : List Instr} (s : State)
    (hq : State.Sound s q) :
    State.Sound (State.nextList s) q := by
  unfold State.nextList
  repeat' first
    | (with_reducible first
      | assumption | apply State.setFetch_sound | fail_if_no_progress apply sound_with | intro _
      | refine pair_sound (by assumption) ?_ | refine opt_elim (by assumption) ?_ | refine optP_elim (by assumption) ?_
      | refine optP_elim' (by assumption) ?_ | refine exc_elim (by assumption) ?_)
    | split | dsimp only

theorem State.finishCmd_sound {q : List Instr} (s : State) (h : Held) (status : Nat)
    (hq : State.Sound s q) :
    State.Sound (State.finishCmd s h status) q := by
  unfold State.finishCmd
  repeat' first
    | (with_reducible first
      | assumption | apply State.unhold_sound | apply State.complete_sound | apply State.mirrorApplied_sound
      | apply State.countLateCmd_sound | apply State.nextList_sound | apply sound_ite | apply sound_ite_snd
      | fail_if_no_progress apply sound_with | intro _ | refine pair_sound (by assumption) ?_
      | refine opt_elim (by assumption) ?_ | refine optP_elim (by assumption) ?_ | refine optP_elim' (by assumption) ?_
      | refine exc_elim (by assumption) ?_)
    | split | dsimp only

theorem State.applySend_sound {q : List Instr} (s : State) (h : Held) (port : Nat) (flags : Nat) (length : Nat) (addr : Nat) (resp : FetchResp)
    (hq : State.Sound s q) :
    State.Sound (State.applySend s h port flags length addr resp) q := by
  unfold State.applySend
  repeat' first
    | (with_reducible first
      | assumption | apply State.unhold_sound | apply State.complete_sound | apply State.netReject_sound
      | apply State.netQueue_sound | apply State.masterFetch_sound | apply sound_ite | apply sound_ite_snd
      | fail_if_no_progress apply sound_with | intro _ | apply optS_getD | refine pair_sound (by assumption) ?_
      | refine opt_elim (by assumption) ?_ | refine optP_elim (by assumption) ?_ | refine optP_elim' (by assumption) ?_
      | refine exc_elim (by assumption) ?_)
    | split | dsimp only

theorem State.engineApply_sound {q : List Instr} (s : State) (e : Engine) (resp : FetchResp)
    (hq : State.Sound s q) :
    State.Sound (State.engineApply s e resp) q := by
  unfold State.engineApply
  repeat' first
    | (with_reducible first
      | assumption | apply State.unhold_sound | apply State.discardStale_sound | apply State.applyCmd_sound
      | apply State.letWait_sound | apply State.finishCmd_sound | apply State.applySend_sound | apply sound_ite
      | apply sound_ite_snd | fail_if_no_progress apply sound_with | intro _ | refine pair_sound (by assumption) ?_
      | refine opt_elim (by assumption) ?_ | refine optP_elim (by assumption) ?_ | refine optP_elim' (by assumption) ?_
      | refine exc_elim (by assumption) ?_)
    | split | dsimp only

theorem State.ringApply_sound {q : List Instr} (s : State) (resp : FetchResp)
    (hq : State.Sound s q) :
    State.Sound (State.ringApply s resp) q := by
  unfold State.ringApply
  repeat' first
    | (with_reducible first
      | assumption | apply State.unhold_sound | apply State.issueWrite32_sound | fail_if_no_progress apply sound_with | intro _
      | apply optS_getD | refine pair_sound (by assumption) ?_ | refine opt_elim (by assumption) ?_
      | refine optP_elim (by assumption) ?_ | refine optP_elim' (by assumption) ?_ | refine exc_elim (by assumption) ?_)
    | split | dsimp only

theorem execCmdApply_sound {q : List Instr} (e : Engine) (resp : FetchResp) (s : State)
    (hq : State.Sound s q) :
    NextSound q (execCmdApply e resp s) := by
  unfold execCmdApply
  repeat' first
    | (with_reducible first
      | assumption | apply State.engineApply_sound | apply State.ringApply_sound | apply sound_ite | apply sound_ite_snd
      | apply next_sound | apply next_ite | intro _)
    | split | dsimp only

theorem State.mirrorEntry_sound {q : List Instr} (s : State) (bs : List Byte) (data : Option (List Byte)) (blk : Nat)
    (hq : State.Sound s q) :
    State.Sound (State.mirrorEntry s bs data blk) q := by
  unfold State.mirrorEntry
  repeat' first
    | (with_reducible first
      | assumption | apply State.hold_sound | apply sound_ite | apply sound_ite_snd | fail_if_no_progress apply sound_with
      | intro _ | refine pair_sound (by assumption) ?_ | refine opt_elim (by assumption) ?_
      | refine optP_elim (by assumption) ?_ | refine optP_elim' (by assumption) ?_ | refine exc_elim (by assumption) ?_)
    | split | dsimp only

theorem State.mirrorWrite_sound {q : List Instr} (s : State) (a : Nat) (v : Word) (blk : Nat)
    (hq : State.Sound s q) :
    State.Sound (State.mirrorWrite s a v blk) q := by
  unfold State.mirrorWrite
  repeat' first
    | (with_reducible first
      | assumption | apply State.hold_sound | apply State.commitWrite_sound | apply State.writeReg_sound | apply sound_ite
      | apply sound_ite_snd | fail_if_no_progress apply sound_with | intro _ | refine pair_sound (by assumption) ?_
      | refine opt_elim (by assumption) ?_ | refine optP_elim (by assumption) ?_ | refine optP_elim' (by assumption) ?_
      | refine exc_elim (by assumption) ?_)
    | split | dsimp only

theorem State.mirrorMsg_sound {q : List Instr} (s : State) (blk : Nat) (items : List MirrorItem) (regions : List (Nat × List Nat))
    (hq : State.Sound s q) :
    State.Sound (State.mirrorMsg s blk items regions) q := by
  unfold State.mirrorMsg
  repeat' first
    | (with_reducible first
      | assumption | apply State.mirrorEntry_sound | apply State.mirrorWrite_sound | apply foldl_sound | apply foldl_snd_sound
      | apply sound_ite | apply sound_ite_snd | fail_if_no_progress apply sound_with | intro _
      | refine pair_sound (by assumption) ?_ | refine opt_elim (by assumption) ?_ | refine optP_elim (by assumption) ?_
      | refine optP_elim' (by assumption) ?_ | refine exc_elim (by assumption) ?_)
    | split | dsimp only

theorem execFlmMirrorMsgRx_sound {q : List Instr} (blk : Nat) (items : List MirrorItem) (regions : List (Nat × List Nat)) (s : State)
    (hq : State.Sound s q) :
    NextSound q (execFlmMirrorMsgRx blk items regions s) := by
  unfold execFlmMirrorMsgRx
  repeat' first
    | (with_reducible first
      | assumption | apply State.mirrorMsg_sound | apply sound_ite | apply sound_ite_snd | apply next_sound | apply next_ite
      | intro _)
    | split | dsimp only

end Sys2Proof.Machine
end

