-- ==== Sys2Proof/Laws/KeepsRegCommands.lean ====
section
/-! SUPPORT. What the operations of Machine/RegCommands.lean keep: one lemma each. -/

set_option linter.unusedTactic false
set_option linter.unreachableTactic false

namespace Sys2Proof.Machine

theorem State.hostSet_sound {q : List Instr} (s : State) (a : Nat) (v : Word) (f : State → State)
    (hq : State.Sound s q) (hf : ∀ s, State.Sound s q → State.Sound (f s) q) :
    State.Sound (State.hostSet s a v f) q := by
  unfold State.hostSet
  repeat' first
    | (with_reducible first
      | assumption | apply State.through_sound | apply hf | intro _)
    | split | dsimp only

theorem State.hostClear_sound {q : List Instr} (s : State) (a : Nat) (fs : List Fld)
    (hq : State.Sound s q) :
    State.Sound (State.hostClear s a fs) q := by
  unfold State.hostClear
  repeat' first
    | (with_reducible first
      | assumption | apply State.clearFlds_sound | apply State.hostSet_sound | intro _)
    | split | dsimp only

theorem execCommitGo_sound {q : List Instr} (b : CommitBlk) (tag : Nat) (whenCode : Nat) (s : State)
    (hq : State.Sound s q) :
    NextSound q (execCommitGo b tag whenCode s) := by
  unfold execCommitGo
  repeat' first
    | (with_reducible first
      | assumption | apply State.commitGo_sound | apply State.hostSet_sound | apply next_sound | intro _)
    | split | dsimp only

theorem execCommitCancel_sound {q : List Instr} (b : CommitBlk) (s : State)
    (hq : State.Sound s q) :
    NextSound q (execCommitCancel b s) := by
  unfold execCommitCancel
  repeat' first
    | (with_reducible first
      | assumption | apply State.commitCancel_sound | apply State.hostSet_sound | apply next_sound | intro _)
    | split | dsimp only

theorem execPealLoadHost_sound {q : List Instr} (s : State)
    (hq : State.Sound s q) :
    NextSound q (execPealLoadHost s) := by
  unfold execPealLoadHost
  repeat' first
    | (with_reducible first
      | assumption | apply State.loadHost_sound | apply State.hostSet_sound | apply next_sound | intro _)
    | split | dsimp only

theorem execPealLoadFlash_sound {q : List Instr} (slot : Nat) (s : State)
    (hq : State.Sound s q) :
    NextSound q (execPealLoadFlash slot s) := by
  unfold execPealLoadFlash
  repeat' first
    | (with_reducible first
      | assumption | apply State.loadFlash_sound | apply State.hostSet_sound | apply next_sound | intro _)
    | split | dsimp only

theorem execPealLoadAbort_sound {q : List Instr} (s : State)
    (hq : State.Sound s q) :
    NextSound q (execPealLoadAbort s) := by
  unfold execPealLoadAbort
  repeat' first
    | (with_reducible first
      | assumption | apply State.loadAbort_sound | apply State.hostSet_sound | apply next_sound | intro _)
    | split | dsimp only

theorem execPlaneWrite_sound {q : List Instr} (master : Nat) (addr : Nat) (data : List (Option Byte)) (s : State)
    (hq : State.Sound s q) :
    NextSound q (execPlaneWrite master addr data s) := by
  unfold execPlaneWrite
  repeat' first
    | (with_reducible first
      | assumption | apply State.throughBytes_sound | apply sound_ite | apply sound_ite_snd | apply next_sound | apply next_ite
      | intro _)
    | split | dsimp only

theorem execSwapAbort_sound {q : List Instr} (s : State)
    (hq : State.Sound s q) :
    NextSound q (execSwapAbort s) := by
  unfold execSwapAbort
  repeat' first
    | (with_reducible first
      | assumption | apply State.swapAbortWrite_sound | apply State.hostSet_sound | apply next_sound | intro _)
    | split | dsimp only

theorem execRealignRequest_sound {q : List Instr} (key : Nat) (s : State)
    (hq : State.Sound s q) :
    NextSound q (execRealignRequest key s) := by
  unfold execRealignRequest
  repeat' first
    | (with_reducible first
      | assumption | apply State.realignRequest_sound | apply State.hostSet_sound | apply next_sound | intro _)
    | split | dsimp only

theorem execBlkIndexLoRead_sound {q : List Instr} (master : Nat) (s : State)
    (hq : State.Sound s q) :
    NextSound q (execBlkIndexLoRead master s) := by
  unfold execBlkIndexLoRead
  repeat' first
    | (with_reducible first
      | assumption | apply State.indexLoRead_sound | apply State.throughRead_sound | apply next_sound | intro _)
    | split | dsimp only

theorem execBlkCountClear_sound {q : List Instr} (s : State)
    (hq : State.Sound s q) :
    NextSound q (execBlkCountClear s) := by
  unfold execBlkCountClear
  repeat' first
    | (with_reducible first
      | assumption | apply State.hostClear_sound | apply next_sound | intro _)
    | split | dsimp only

theorem execSxmWriteRefused_sound {q : List Instr} (master : Nat) (addr : Nat) (s : State)
    (hq : State.Sound s q) :
    NextSound q (execSxmWriteRefused master addr s) := by
  unfold execSxmWriteRefused
  repeat' first
    | (with_reducible first
      | assumption | apply State.sxmRefuse_sound | apply State.through_sound | apply sound_ite | apply sound_ite_snd
      | apply next_sound | apply next_ite | intro _)
    | split | dsimp only

theorem execXpWindowWrite_sound {q : List Instr} (master : Nat) (addr : Nat) (value : Word) (s : State)
    (hq : State.Sound s q) :
    NextSound q (execXpWindowWrite master addr value s) := by
  unfold execXpWindowWrite
  repeat' first
    | (with_reducible first
      | assumption | apply State.xpWindowWrite_sound | apply State.through_sound | apply sound_ite | apply sound_ite_snd
      | apply next_sound | apply next_ite | intro _)
    | split | dsimp only

theorem execClnXpTgtWrite_sound {q : List Instr} (value : Word) (s : State)
    (hq : State.Sound s q) :
    NextSound q (execClnXpTgtWrite value s) := by
  unfold execClnXpTgtWrite
  repeat' first
    | (with_reducible first
      | assumption | apply State.xpTgtWrite_sound | apply State.through_sound | apply next_sound | intro _)
    | split | dsimp only

theorem execClnRampSlotWrite_sound {q : List Instr} (slot : Nat) (value : Word) (s : State)
    (hq : State.Sound s q) :
    NextSound q (execClnRampSlotWrite slot value s) := by
  unfold execClnRampSlotWrite
  repeat' first
    | (with_reducible first
      | assumption | apply State.rampSlotWrite_sound | apply State.hostSet_sound | apply sound_ite | apply sound_ite_snd
      | apply next_sound | apply next_ite | intro _)
    | split | dsimp only

theorem execClnCountClear_sound {q : List Instr} (s : State)
    (hq : State.Sound s q) :
    NextSound q (execClnCountClear s) := by
  unfold execClnCountClear
  repeat' first
    | (with_reducible first
      | assumption | apply State.hostClear_sound | apply next_sound | intro _)
    | split | dsimp only

theorem execChmSelectWrite_sound {q : List Instr} (value : Word) (s : State)
    (hq : State.Sound s q) :
    NextSound q (execChmSelectWrite value s) := by
  unfold execChmSelectWrite
  repeat' first
    | (with_reducible first
      | assumption | apply State.chmSelectWrite_sound | apply State.hostSet_sound | apply next_sound | intro _)
    | split | dsimp only

theorem execChmPresetReqWrite_sound {q : List Instr} (value : Word) (s : State)
    (hq : State.Sound s q) :
    NextSound q (execChmPresetReqWrite value s) := by
  unfold execChmPresetReqWrite
  repeat' first
    | (with_reducible first
      | assumption | apply State.chmPresetWrite_sound | apply State.hostSet_sound | apply next_sound | intro _)
    | split | dsimp only

theorem execChmCoefWindowWrite_sound {q : List Instr} (master : Nat) (addr : Nat) (data : List (Option Byte)) (s : State)
    (hq : State.Sound s q) :
    NextSound q (execChmCoefWindowWrite master addr data s) := by
  unfold execChmCoefWindowWrite
  repeat' first
    | (with_reducible first
      | assumption | apply State.throughBytes_sound | apply sound_ite | apply sound_ite_snd | apply next_sound | apply next_ite
      | intro _)
    | split | dsimp only

theorem execChmCwDataWrite_sound {q : List Instr} (value : Word) (s : State)
    (hq : State.Sound s q) :
    NextSound q (execChmCwDataWrite value s) := by
  unfold execChmCwDataWrite
  repeat' first
    | (with_reducible first
      | assumption | apply State.cwDataWrite_sound | apply State.through_sound | apply next_sound | intro _)
    | split | dsimp only

theorem execChmCountClear_sound {q : List Instr} (s : State)
    (hq : State.Sound s q) :
    NextSound q (execChmCountClear s) := by
  unfold execChmCountClear
  repeat' first
    | (with_reducible first
      | assumption | apply State.hostClear_sound | apply next_sound | intro _)
    | split | dsimp only

theorem execMboxInWrite_sound {q : List Instr} (core : Nat) (value : Word) (s : State)
    (hq : State.Sound s q) :
    NextSound q (execMboxInWrite core value s) := by
  unfold execMboxInWrite
  repeat' first
    | (with_reducible first
      | assumption | apply State.mboxInWrite_sound | apply State.hostSet_sound | apply sound_ite | apply sound_ite_snd
      | apply next_sound | apply next_ite | intro _)
    | split | dsimp only

theorem execMboxOutRead_sound {q : List Instr} (master : Nat) (core : Nat) (s : State)
    (hq : State.Sound s q) :
    NextSound q (execMboxOutRead master core s) := by
  unfold execMboxOutRead
  repeat' first
    | (with_reducible first
      | assumption | apply State.mboxOutRead_sound | apply State.throughRead_sound | apply sound_ite | apply sound_ite_snd
      | apply next_sound | apply next_ite | intro _)
    | split | dsimp only

theorem execMalClBroadcastWrite_sound {q : List Instr} (cluster : Nat) (value : Word) (s : State)
    (hq : State.Sound s q) :
    NextSound q (execMalClBroadcastWrite cluster value s) := by
  unfold execMalClBroadcastWrite
  repeat' first
    | (with_reducible first
      | assumption | apply State.raiseMask_sound | apply State.hostSet_sound | apply sound_ite | apply sound_ite_snd
      | apply next_sound | apply next_ite | intro _)
    | split | dsimp only

theorem execMalProgramCcrWrite_sound {q : List Instr} (master : Nat) (addr : Nat) (s : State)
    (hq : State.Sound s q) :
    NextSound q (execMalProgramCcrWrite master addr s) := by
  unfold execMalProgramCcrWrite
  repeat' first
    | (with_reducible first
      | assumption | apply State.malRefuse_sound | apply State.through_sound | apply sound_ite | apply sound_ite_snd
      | apply next_sound | apply next_ite | intro _)
    | split | dsimp only

theorem execMalDataWindowWrite_sound {q : List Instr} (master : Nat) (cluster : Nat) (word : Nat) (value : Word) (s : State)
    (hq : State.Sound s q) :
    NextSound q (execMalDataWindowWrite master cluster word value s) := by
  unfold execMalDataWindowWrite
  repeat' first
    | (with_reducible first
      | assumption | apply State.dataWindowWrite_sound | apply State.through_sound | apply sound_ite | apply sound_ite_snd
      | apply next_sound | apply next_ite | intro _)
    | split | dsimp only

theorem execMalClCountClear_sound {q : List Instr} (cluster : Nat) (s : State)
    (hq : State.Sound s q) :
    NextSound q (execMalClCountClear cluster s) := by
  unfold execMalClCountClear
  repeat' first
    | (with_reducible first
      | assumption | apply State.hostClear_sound | apply sound_ite | apply sound_ite_snd | apply next_sound | apply next_ite
      | intro _)
    | split | dsimp only

theorem execDplDelaySetWrite_sound {q : List Instr} (value : Word) (s : State)
    (hq : State.Sound s q) :
    NextSound q (execDplDelaySetWrite value s) := by
  unfold execDplDelaySetWrite
  repeat' first
    | (with_reducible first
      | assumption | apply State.delaySetWrite_sound | apply State.hostSet_sound | apply next_sound | intro _)
    | split | dsimp only

theorem execLineStorageWrite_sound {q : List Instr} (master : Nat) (addr : Nat) (s : State)
    (hq : State.Sound s q) :
    NextSound q (execLineStorageWrite master addr s) := by
  unfold execLineStorageWrite
  repeat' first
    | (with_reducible first
      | assumption | apply State.raise_sound | apply State.through_sound | apply sound_ite | apply sound_ite_snd
      | apply next_sound | apply next_ite | intro _)
    | split | dsimp only

theorem execDplHashSeedWrite_sound {q : List Instr} (value : Word) (s : State)
    (hq : State.Sound s q) :
    NextSound q (execDplHashSeedWrite value s) := by
  unfold execDplHashSeedWrite
  repeat' first
    | (with_reducible first
      | assumption | apply State.hashSeedWrite_sound | apply State.hostSet_sound | apply next_sound | intro _)
    | split | dsimp only

theorem execDplCountClear_sound {q : List Instr} (s : State)
    (hq : State.Sound s q) :
    NextSound q (execDplCountClear s) := by
  unfold execDplCountClear
  repeat' first
    | (with_reducible first
      | assumption | apply State.hostClear_sound | apply next_sound | intro _)
    | split | dsimp only

theorem execXbMasterReset_sound {q : List Instr} (master : Nat) (value : Word) (s : State)
    (hq : State.Sound s q) :
    NextSound q (execXbMasterReset master value s) := by
  unfold execXbMasterReset
  repeat' first
    | (with_reducible first
      | assumption | apply State.masterResetWrite_sound | apply State.through_sound | apply next_sound | intro _)
    | split | dsimp only

theorem execXbCountClear_sound {q : List Instr} (s : State)
    (hq : State.Sound s q) :
    NextSound q (execXbCountClear s) := by
  unfold execXbCountClear
  repeat' first
    | (with_reducible first
      | assumption | apply State.hostClear_sound | apply next_sound | intro _)
    | split | dsimp only

theorem execMsixTableWrite_sound {q : List Instr} (word : Nat) (value : Word) (s : State)
    (hq : State.Sound s q) :
    NextSound q (execMsixTableWrite word value s) := by
  unfold execMsixTableWrite
  repeat' first
    | (with_reducible first
      | assumption | apply State.msixTableWrite_sound | apply State.hostSet_sound | apply sound_ite | apply sound_ite_snd
      | apply next_sound | apply next_ite | intro _)
    | split | dsimp only

theorem State.ringSet_sound {q : List Instr} (s : State) (ring : Nat) (reg : Nat) (value : Word) (f : State → State)
    (hq : State.Sound s q) (hf : ∀ s, State.Sound s q → State.Sound (f s) q) :
    State.Sound (State.ringSet s ring reg value f) q := by
  unfold State.ringSet
  repeat' first
    | (with_reducible first
      | assumption | apply State.hostSet_sound | apply hf | apply sound_ite | apply sound_ite_snd | intro _)
    | split | dsimp only

theorem execRingEnable_sound {q : List Instr} (ring : Nat) (value : Word) (s : State)
    (hq : State.Sound s q) :
    NextSound q (execRingEnable ring value s) := by
  unfold execRingEnable
  repeat' first
    | (with_reducible first
      | assumption | apply State.ringCtrlWrite_sound | apply State.ringSet_sound | apply next_sound | intro _)
    | split | dsimp only

theorem execRingDisable_sound {q : List Instr} (ring : Nat) (value : Word) (s : State)
    (hq : State.Sound s q) :
    NextSound q (execRingDisable ring value s) := by
  unfold execRingDisable
  repeat' first
    | (with_reducible first
      | assumption | apply State.ringCtrlWrite_sound | apply State.ringSet_sound | apply next_sound | intro _)
    | split | dsimp only

theorem execRingCfgWrite_sound {q : List Instr} (ring : Nat) (value : Word) (s : State)
    (hq : State.Sound s q) :
    NextSound q (execRingCfgWrite ring value s) := by
  unfold execRingCfgWrite
  repeat' first
    | (with_reducible first
      | assumption | apply State.ringCfgWrite_sound | apply State.ringSet_sound | apply next_sound | intro _)
    | split | dsimp only

theorem execRingTailWrite_sound {q : List Instr} (ring : Nat) (value : Word) (s : State)
    (hq : State.Sound s q) :
    NextSound q (execRingTailWrite ring value s) := by
  unfold execRingTailWrite
  repeat' first
    | (with_reducible first
      | assumption | apply State.ringTailWrite_sound | apply State.ringSet_sound | apply next_sound | intro _)
    | split | dsimp only

theorem execRingHeadWrite_sound {q : List Instr} (ring : Nat) (value : Word) (s : State)
    (hq : State.Sound s q) :
    NextSound q (execRingHeadWrite ring value s) := by
  unfold execRingHeadWrite
  repeat' first
    | (with_reducible first
      | assumption | apply State.ringHeadWrite_sound | apply State.ringSet_sound | apply next_sound | intro _)
    | split | dsimp only

theorem execRingResizeRequest_sound {q : List Instr} (ring : Nat) (value : Word) (s : State)
    (hq : State.Sound s q) :
    NextSound q (execRingResizeRequest ring value s) := by
  unfold execRingResizeRequest
  repeat' first
    | (with_reducible first
      | assumption | apply State.ringResize_sound | apply State.ringSet_sound | apply next_sound | intro _)
    | split | dsimp only

theorem execRingResizeCancel_sound {q : List Instr} (ring : Nat) (s : State)
    (hq : State.Sound s q) :
    NextSound q (execRingResizeCancel ring s) := by
  unfold execRingResizeCancel
  repeat' first
    | (with_reducible first
      | assumption | apply State.abandonResize_sound | apply State.ringSet_sound | apply sound_ite | apply sound_ite_snd
      | apply next_sound | apply next_ite | intro _)
    | split | dsimp only

theorem execRngCountClear_sound {q : List Instr} (s : State)
    (hq : State.Sound s q) :
    NextSound q (execRngCountClear s) := by
  unfold execRngCountClear
  repeat' first
    | (with_reducible first
      | assumption | apply State.hostClear_sound | apply next_sound | intro _)
    | split | dsimp only

theorem execSysBarrierWrite_sound {q : List Instr} (master : Nat) (token : Nat) (s : State)
    (hq : State.Sound s q) :
    NextSound q (execSysBarrierWrite master token s) := by
  unfold execSysBarrierWrite
  repeat' first
    | (with_reducible first
      | assumption | apply State.barrierWrite_sound | apply State.through_sound | apply next_sound | intro _)
    | split | dsimp only

theorem execSysResetWrite_sound {q : List Instr} (value : Word) (straps : Nat) (s : State)
    (hq : State.Sound s q) :
    NextSound q (execSysResetWrite value straps s) := by
  unfold execSysResetWrite
  repeat' first
    | (with_reducible first
      | assumption | apply State.sysReset_sound | apply State.hostSet_sound | apply next_sound | intro _)
    | split | dsimp only

theorem execPrtCtrlWrite_sound {q : List Instr} (port : Nat) (value : Word) (s : State)
    (hq : State.Sound s q) :
    NextSound q (execPrtCtrlWrite port value s) := by
  unfold execPrtCtrlWrite
  repeat' first
    | (with_reducible first
      | assumption | apply State.portRegWrite_sound | apply State.hostSet_sound | apply sound_ite | apply sound_ite_snd
      | apply next_sound | apply next_ite | intro _)
    | split | dsimp only

theorem execAesCtrlWrite_sound {q : List Instr} (n : Nat) (value : Word) (s : State)
    (hq : State.Sound s q) :
    NextSound q (execAesCtrlWrite n value s) := by
  unfold execAesCtrlWrite
  repeat' first
    | (with_reducible first
      | assumption | apply State.portRegWrite_sound | apply State.hostSet_sound | apply sound_ite | apply sound_ite_snd
      | apply next_sound | apply next_ite | intro _)
    | split | dsimp only

theorem execPrtMaskWrite_sound {q : List Instr} (port : Nat) (mask : Word) (inGuard : Bool) (s : State)
    (hq : State.Sound s q) :
    NextSound q (execPrtMaskWrite port mask inGuard s) := by
  unfold execPrtMaskWrite
  repeat' first
    | (with_reducible first
      | assumption | apply State.prtMaskWrite_sound | apply State.hostSet_sound | apply sound_ite | apply sound_ite_snd
      | apply next_sound | apply next_ite | intro _)
    | split | dsimp only

theorem execPrtCountClear_sound {q : List Instr} (ports : Nat) (s : State)
    (hq : State.Sound s q) :
    NextSound q (execPrtCountClear ports s) := by
  unfold execPrtCountClear
  repeat' first
    | (with_reducible first
      | assumption | apply State.clearMasked_sound | apply State.hostSet_sound | apply next_sound | intro _)
    | split | dsimp only

theorem execAesCountClear_sound {q : List Instr} (xcvrs : Nat) (s : State)
    (hq : State.Sound s q) :
    NextSound q (execAesCountClear xcvrs s) := by
  unfold execAesCountClear
  repeat' first
    | (with_reducible first
      | assumption | apply State.clearMasked_sound | apply State.hostSet_sound | apply next_sound | intro _)
    | split | dsimp only

theorem execNetCtlRxReleaseWrite_sound {q : List Instr} (port : Nat) (value : Word) (s : State)
    (hq : State.Sound s q) :
    NextSound q (execNetCtlRxReleaseWrite port value s) := by
  unfold execNetCtlRxReleaseWrite
  repeat' first
    | (with_reducible first
      | assumption | apply State.ctlRelease_sound | apply State.hostSet_sound | apply sound_ite | apply sound_ite_snd
      | apply next_sound | apply next_ite | intro _)
    | split | dsimp only

theorem execNetCountClear_sound {q : List Instr} (value : Word) (s : State)
    (hq : State.Sound s q) :
    NextSound q (execNetCountClear value s) := by
  unfold execNetCountClear
  repeat' first
    | (with_reducible first
      | assumption | apply State.netCountClear_sound | apply State.hostSet_sound | apply next_sound | intro _)
    | split | dsimp only

theorem execTuTimeLatchWrite_sound {q : List Instr} (inst : Nat) (t : Nat) (s : State)
    (hq : State.Sound s q) :
    NextSound q (execTuTimeLatchWrite inst t s) := by
  unfold execTuTimeLatchWrite
  repeat' first
    | (with_reducible first
      | assumption | apply State.seeTime_sound | apply State.latchTime_sound | apply State.hostSet_sound | apply sound_ite
      | apply sound_ite_snd | apply next_sound | apply next_ite | intro _)
    | split | dsimp only

theorem execTuCapNsRead_sound {q : List Instr} (master : Nat) (n : Nat) (s : State)
    (hq : State.Sound s q) :
    NextSound q (execTuCapNsRead master n s) := by
  unfold execTuCapNsRead
  repeat' first
    | (with_reducible first
      | assumption | apply State.capPop_sound | apply State.throughRead_sound | apply sound_ite | apply sound_ite_snd
      | apply next_sound | apply next_ite | intro _)
    | split | dsimp only

theorem execPllPhaseStepWrite_sound {q : List Instr} (n : Nat) (value : Word) (s : State)
    (hq : State.Sound s q) :
    NextSound q (execPllPhaseStepWrite n value s) := by
  unfold execPllPhaseStepWrite
  repeat' first
    | (with_reducible first
      | assumption | apply State.phaseStep_sound | apply State.hostSet_sound | apply sound_ite | apply sound_ite_snd
      | apply next_sound | apply next_ite | intro _)
    | split | dsimp only

theorem execBeatCtrlWrite_sound {q : List Instr} (n : Nat) (value : Word) (s : State)
    (hq : State.Sound s q) :
    NextSound q (execBeatCtrlWrite n value s) := by
  unfold execBeatCtrlWrite
  repeat' first
    | (with_reducible first
      | assumption | apply State.hold_sound | apply State.hostSet_sound | apply sound_ite | apply sound_ite_snd
      | apply next_sound | apply next_ite | intro _)
    | split | dsimp only

theorem execBeatCountClear_sound {q : List Instr} (s : State)
    (hq : State.Sound s q) :
    NextSound q (execBeatCountClear s) := by
  unfold execBeatCountClear
  repeat' first
    | (with_reducible first
      | assumption | apply State.hostClear_sound | apply next_sound | intro _)
    | split | dsimp only

theorem execFlmHandoverWrite_sound {q : List Instr} (value : Word) (s : State)
    (hq : State.Sound s q) :
    NextSound q (execFlmHandoverWrite value s) := by
  unfold execFlmHandoverWrite
  repeat' first
    | (with_reducible first
      | assumption | apply State.flmHandoverWrite_sound | apply State.hostSet_sound | apply next_sound | intro _)
    | split | dsimp only

theorem execFlmResyncWrite_sound {q : List Instr} (value : Word) (s : State)
    (hq : State.Sound s q) :
    NextSound q (execFlmResyncWrite value s) := by
  unfold execFlmResyncWrite
  repeat' first
    | (with_reducible first
      | assumption | apply State.flmResyncWrite_sound | apply State.hostSet_sound | apply next_sound | intro _)
    | split | dsimp only

theorem execFlmRealignWrite_sound {q : List Instr} (value : Word) (s : State)
    (hq : State.Sound s q) :
    NextSound q (execFlmRealignWrite value s) := by
  unfold execFlmRealignWrite
  repeat' first
    | (with_reducible first
      | assumption | apply State.flmRealignWrite_sound | apply State.hostSet_sound | apply next_sound | intro _)
    | split | dsimp only

theorem execFlmCountClear_sound {q : List Instr} (s : State)
    (hq : State.Sound s q) :
    NextSound q (execFlmCountClear s) := by
  unfold execFlmCountClear
  repeat' first
    | (with_reducible first
      | assumption | apply State.hostClear_sound | apply next_sound | intro _)
    | split | dsimp only

theorem execTapMuteKeyWrite_sound {q : List Instr} (value : Word) (s : State)
    (hq : State.Sound s q) :
    NextSound q (execTapMuteKeyWrite value s) := by
  unfold execTapMuteKeyWrite
  repeat' first
    | (with_reducible first
      | assumption | apply State.muteKeyWrite_sound | apply State.hostSet_sound | apply next_sound | intro _)
    | split | dsimp only

theorem execEvtWindowRead_sound {q : List Instr} (master : Nat) (s : State)
    (hq : State.Sound s q) :
    NextSound q (execEvtWindowRead master s) := by
  unfold execEvtWindowRead
  repeat' first
    | (with_reducible first
      | assumption | apply State.windowRead_sound | apply State.throughRead_sound | apply next_sound | intro _)
    | split | dsimp only

theorem execSmpHostGoWrite_sound {q : List Instr} (value : Word) (s : State)
    (hq : State.Sound s q) :
    NextSound q (execSmpHostGoWrite value s) := by
  unfold execSmpHostGoWrite
  repeat' first
    | (with_reducible first
      | assumption | apply State.smpHostGo_sound | apply State.hostSet_sound | apply next_sound | intro _)
    | split | dsimp only

end Sys2Proof.Machine
end

