-- ==== Sys2Proof/Laws/KeepsToken.lean ====
section
/-! SUPPORT. What the operations of Machine/Token.lean keep: one lemma each. -/

set_option linter.unusedTactic false
set_option linter.unreachableTactic false

namespace Sys2Proof.Machine

theorem State.afterToken_sound {q : List Instr} (s : State) (stepped : Bool)
    (hq : State.Sound s q) :
    State.Sound (State.afterToken s stepped) q := by
  unfold State.afterToken
  repeat' first
    | (with_reducible first
      | assumption | apply State.flushAll_sound | apply State.countHoldWaits_sound | apply State.gateBoundary_sound
      | apply State.swapBoundary_sound | apply State.flmBoundary_sound | apply State.realignEnd_sound
      | apply State.xbDrain_sound | apply State.conflictRoll_sound | apply sound_ite | apply sound_ite_snd
      | fail_if_no_progress apply sound_with | intro _)
    | split | dsimp only

theorem State.blockToken_sound {q : List Instr} (s : State) (tuSample : Nat)
    (hq : State.Sound s q) :
    State.Sound (State.blockToken s tuSample) q := by
  unfold State.blockToken
  repeat' first
    | (with_reducible first
      | assumption | apply State.drainStreams_sound | apply State.endRound_sound | apply State.issueToken_sound
      | apply State.stepIndex_sound | apply State.pmuBoundary_sound | apply State.afterToken_sound | apply sound_ite
      | apply sound_ite_snd | fail_if_no_progress apply sound_with | intro _)
    | split | dsimp only

theorem execBlockToken_sound {q : List Instr} (tuSample : Nat) (s : State)
    (hq : State.Sound s q) :
    NextSound q (execBlockToken tuSample s) := by
  unfold execBlockToken
  repeat' first
    | (with_reducible first
      | assumption | apply State.blockToken_sound | apply next_sound | intro _)
    | split | dsimp only

theorem execRealignSetIndex_sound {q : List Instr} (tuSample : Nat) (s : State)
    (hq : State.Sound s q) :
    NextSound q (execRealignSetIndex tuSample s) := by
  unfold execRealignSetIndex
  repeat' first
    | (with_reducible first
      | assumption | apply State.blockToken_sound | apply sound_ite | apply sound_ite_snd | apply next_sound | apply next_ite
      | intro _)
    | split | dsimp only

theorem State.islandBoundary_sound {q : List Instr} (s : State) (i : Nat) (first : Bool) (last : Bool)
    (hq : State.Sound s q) :
    State.Sound (State.islandBoundary s i first last) q := by
  unfold State.islandBoundary
  repeat' first
    | (with_reducible first
      | assumption | apply State.clnBoundary_sound | apply State.chmBoundary_sound | apply State.unitBoundary_sound
      | apply State.dplBoundary_sound | apply State.malBoundary_sound | apply State.swapFill_sound | apply State.flmSettle_sound
      | apply State.flmSend_sound | apply foldl_sound | apply foldl_snd_sound | apply sound_ite | apply sound_ite_snd | intro _)
    | split | dsimp only

theorem State.tokenArrival_sound {q : List Instr} (s : State) (i : Nat)
    (hq : State.Sound s q) :
    State.Sound (State.tokenArrival s i) q := by
  unfold State.tokenArrival
  repeat' first
    | (with_reducible first
      | assumption | apply State.beatSettle_sound | apply State.islandReturn_sound | apply State.swapAtS_sound
      | apply State.islandBoundary_sound | apply sound_ite | apply sound_ite_snd | fail_if_no_progress apply sound_with
      | intro _)
    | split | dsimp only

theorem execTokenArrival_sound {q : List Instr} (island : Nat) (s : State)
    (hq : State.Sound s q) :
    NextSound q (execTokenArrival island s) := by
  unfold execTokenArrival
  repeat' first
    | (with_reducible first
      | assumption | apply State.tokenArrival_sound | apply next_sound | intro _)
    | split | dsimp only

end Sys2Proof.Machine
end

