-- ==== Sys2Proof/Laws/KeepsSmp.lean ====
section
/-! SUPPORT. What the operations of Machine/Smp.lean keep: one lemma each. -/

set_option linter.unusedTactic false
set_option linter.unreachableTactic false

namespace Sys2Proof.Machine

theorem State.smpRespond_sound {q : List Instr} (s : State)
    (hq : State.Sound s q) :
    State.Sound (State.smpRespond s) q := by
  unfold State.smpRespond
  repeat' first
    | (with_reducible first
      | assumption | apply State.emit_sound | apply sound_ite | apply sound_ite_snd | fail_if_no_progress apply sound_with
      | intro _ | refine pair_sound (by assumption) ?_ | refine opt_elim (by assumption) ?_
      | refine optP_elim (by assumption) ?_ | refine optP_elim' (by assumption) ?_ | refine exc_elim (by assumption) ?_)
    | split | dsimp only

theorem State.smpDiscard_sound {q : List Instr} (s : State)
    (hq : State.Sound s q) :
    State.Sound (State.smpDiscard s) q := by
  unfold State.smpDiscard
  repeat' first
    | (with_reducible first
      | assumption | apply State.bump_sound | apply State.fresh_sound | fail_if_no_progress apply sound_with | intro _)
    | split | dsimp only

theorem State.smpFrame_sound {q : List Instr} (s : State) (frame : List Byte)
    (hq : State.Sound s q) :
    State.Sound (State.smpFrame s frame) q := by
  unfold State.smpFrame
  repeat' first
    | (with_reducible first
      | assumption | apply State.smpAccept_sound | apply State.smpRespond_sound | apply State.smpDiscard_sound | apply sound_ite
      | apply sound_ite_snd | fail_if_no_progress apply sound_with | intro _ | refine pair_sound (by assumption) ?_
      | refine opt_elim (by assumption) ?_ | refine optP_elim (by assumption) ?_ | refine optP_elim' (by assumption) ?_
      | refine exc_elim (by assumption) ?_)
    | split | dsimp only

theorem State.hostResponse_sound {q : List Instr} (s : State) (bs : List Byte)
    (hq : State.Sound s q) :
    State.Sound (State.hostResponse s bs) q := by
  unfold State.hostResponse
  repeat' first
    | (with_reducible first
      | assumption | apply State.setFld_sound | apply foldl_sound | apply foldl_snd_sound | fail_if_no_progress apply sound_with
      | intro _)
    | split | dsimp only

theorem State.smpComplete_sound {q : List Instr} (s : State)
    (hq : State.Sound s q) :
    State.Sound (State.smpComplete s) q := by
  unfold State.smpComplete
  repeat' first
    | (with_reducible first
      | assumption | apply State.setFld_sound | apply State.raiseVector_sound | apply State.alert_sound
      | apply State.hostResponse_sound | apply sound_ite | apply sound_ite_snd | fail_if_no_progress apply sound_with | intro _
      | refine pair_sound (by assumption) ?_ | refine opt_elim (by assumption) ?_ | refine optP_elim (by assumption) ?_
      | refine optP_elim' (by assumption) ?_ | refine exc_elim (by assumption) ?_)
    | split | dsimp only

theorem State.smpEnd_sound {q : List Instr} (s : State) (status : Nat) (bs : List Byte)
    (hq : State.Sound s q) :
    State.Sound (State.smpEnd s status bs) q := by
  unfold State.smpEnd
  repeat' first
    | (with_reducible first
      | assumption | fail_if_no_progress apply sound_with | intro _)
    | split | dsimp only

theorem State.smpRun_sound {q : List Instr} (s : State) (code : Nat) (w : Bool) (fits : Nat → Bool) (act : List Byte → State)
    (hq : State.Sound s q) (hf : ∀ x, State.Sound (act x) q) :
    State.Sound (State.smpRun s code w fits act) q := by
  unfold State.smpRun
  repeat' first
    | (with_reducible first
      | assumption | apply State.smpEnd_sound | apply hf | apply sound_ite | apply sound_ite_snd
      | fail_if_no_progress apply sound_with | intro _ | refine pair_sound (by assumption) ?_
      | refine opt_elim (by assumption) ?_ | refine optP_elim (by assumption) ?_ | refine optP_elim' (by assumption) ?_
      | refine exc_elim (by assumption) ?_)
    | split | dsimp only

theorem State.smpGetInfo_sound {q : List Instr} (s : State)
    (hq : State.Sound s q) :
    State.Sound (State.smpGetInfo s) q := by
  unfold State.smpGetInfo
  repeat' first
    | (with_reducible first
      | assumption | apply State.smpEnd_sound | apply State.smpRun_sound | intro _)
    | split | dsimp only

theorem State.smpStopped_sound {q : List Instr} (s : State)
    (hq : State.Sound s q) :
    State.Sound (State.smpStopped s) q := by
  unfold State.smpStopped
  repeat' first
    | (with_reducible first
      | assumption | apply State.smpEnd_sound | apply sound_ite | apply sound_ite_snd | intro _)
    | split | dsimp only

theorem State.smpReadWords_sound {q : List Instr} (n : Nat) (s : State) (a : Nat) (ext : List FetchResp) (got : List Byte)
    (hq : State.Sound s q) : State.Sound (State.smpReadWords n s a ext got) q := by
  induction n generalizing s a ext got with
  | zero => exact State.smpEnd_sound _ _ _ hq
  | succ n ih =>
    have h1 := State.reach_sound s 1 a hq
    have h2 := State.busRead_sound _ a 4 (ext.headD .error) h1
    unfold State.smpReadWords; simp only []; split
    · exact State.smpStopped_sound _ h1
    · exact State.smpStopped_sound _ h1
    · exact State.smpEnd_sound _ _ _ h1
    · split
      · exact ih _ _ _ _ h2
      · exact State.smpEnd_sound _ _ _ h2

theorem State.smpWriteWords_sound {q : List Instr} (n : Nat) (s : State) (a : Nat) (bs : List Byte)
    (hq : State.Sound s q) : State.Sound (State.smpWriteWords n s a bs) q := by
  induction n generalizing s a bs with
  | zero => exact State.smpEnd_sound _ _ _ hq
  | succ n ih =>
    have h1 := State.reach_sound s 1 a hq
    have h2 := State.busWrite_sound _ 1 a ((bs.take 4).map some) h1
    unfold State.smpWriteWords; simp only []; split
    · exact State.smpStopped_sound _ h1
    · exact State.smpStopped_sound _ h1
    · exact State.smpEnd_sound _ _ _ h1
    · split
      · exact ih _ _ _ h2
      · exact State.smpEnd_sound _ _ _ h2

theorem State.smpRead_sound {q : List Instr} (s : State) (ext : List FetchResp)
    (hq : State.Sound s q) :
    State.Sound (State.smpRead s ext) q := by
  unfold State.smpRead
  repeat' first
    | (with_reducible first
      | assumption | apply State.smpEnd_sound | apply State.smpRun_sound | apply State.smpReadWords_sound | apply sound_ite
      | apply sound_ite_snd | fail_if_no_progress apply sound_with | intro _)
    | split | dsimp only

theorem State.smpWrite_sound {q : List Instr} (s : State)
    (hq : State.Sound s q) :
    State.Sound (State.smpWrite s) q := by
  unfold State.smpWrite
  repeat' first
    | (with_reducible first
      | assumption | apply State.smpEnd_sound | apply State.smpRun_sound | apply State.smpWriteWords_sound | apply sound_ite
      | apply sound_ite_snd | fail_if_no_progress apply sound_with | intro _)
    | split | dsimp only

theorem State.smpRmw_sound {q : List Instr} (s : State) (ext : FetchResp)
    (hq : State.Sound s q) :
    State.Sound (State.smpRmw s ext) q := by
  unfold State.smpRmw
  repeat' first
    | (with_reducible first
      | assumption | apply State.busWrite_sound | apply State.busRead_sound | apply State.reach_sound | apply State.smpEnd_sound
      | apply State.smpRun_sound | apply State.smpStopped_sound | apply sound_ite | apply sound_ite_snd
      | fail_if_no_progress apply sound_with | intro _ | refine pair_sound (by assumption) ?_
      | refine opt_elim (by assumption) ?_ | refine optP_elim (by assumption) ?_ | refine optP_elim' (by assumption) ?_
      | refine exc_elim (by assumption) ?_)
    | split | dsimp only

theorem State.smpMirrorRead_sound {q : List Instr} (s : State)
    (hq : State.Sound s q) :
    State.Sound (State.smpMirrorRead s) q := by
  unfold State.smpMirrorRead
  repeat' first
    | (with_reducible first
      | assumption | apply State.smpEnd_sound | apply State.smpRun_sound | intro _)
    | split | dsimp only

theorem State.smpPmu_sound {q : List Instr} (s : State)
    (hq : State.Sound s q) :
    State.Sound (State.smpPmu s) q := by
  unfold State.smpPmu
  repeat' first
    | (with_reducible first
      | assumption | apply State.pmuRequest_sound | apply State.smpEnd_sound | apply State.smpRun_sound | intro _)
    | split | dsimp only

theorem State.smpResetMain_sound {q : List Instr} (s : State) (straps : Nat)
    (hq : State.Sound s q) :
    State.Sound (State.smpResetMain s straps) q := by
  unfold State.smpResetMain
  repeat' first
    | (with_reducible first
      | assumption | apply State.wakeByStrap_sound | apply State.mainReset_sound | apply State.smpEnd_sound
      | apply State.smpRun_sound | apply sound_ite | apply sound_ite_snd | intro _)
    | split | dsimp only

theorem State.smpLoadFlash_sound {q : List Instr} (s : State)
    (hq : State.Sound s q) :
    State.Sound (State.smpLoadFlash s) q := by
  unfold State.smpLoadFlash
  repeat' first
    | (with_reducible first
      | assumption | apply State.loadFlash_sound | apply State.wake_sound | apply State.smpEnd_sound | apply State.smpRun_sound
      | apply sound_ite | apply sound_ite_snd | fail_if_no_progress apply sound_with | intro _)
    | split | dsimp only

theorem State.smpHandover_sound {q : List Instr} (s : State)
    (hq : State.Sound s q) :
    State.Sound (State.smpHandover s) q := by
  unfold State.smpHandover
  repeat' first
    | (with_reducible first
      | assumption | apply State.smpEnd_sound | apply State.smpRun_sound | apply sound_ite | apply sound_ite_snd
      | fail_if_no_progress apply sound_with | intro _)
    | split | dsimp only

theorem State.smpUnlock_sound {q : List Instr} (s : State)
    (hq : State.Sound s q) :
    State.Sound (State.smpUnlock s) q := by
  unfold State.smpUnlock
  repeat' first
    | (with_reducible first
      | assumption | apply State.random_sound | apply State.smpEnd_sound | apply sound_ite | apply sound_ite_snd
      | fail_if_no_progress apply sound_with | intro _ | refine pair_sound (by assumption) ?_
      | refine opt_elim (by assumption) ?_ | refine optP_elim (by assumption) ?_ | refine optP_elim' (by assumption) ?_
      | refine exc_elim (by assumption) ?_)
    | split | dsimp only

theorem State.smpClear_sound {q : List Instr} (s : State)
    (hq : State.Sound s q) :
    State.Sound (State.smpClear s) q := by
  unfold State.smpClear
  repeat' first
    | (with_reducible first
      | assumption | apply State.recorderClear_sound | apply State.smpEnd_sound | apply sound_ite | apply sound_ite_snd
      | fail_if_no_progress apply sound_with | intro _ | refine pair_sound (by assumption) ?_
      | refine opt_elim (by assumption) ?_ | refine optP_elim (by assumption) ?_ | refine optP_elim' (by assumption) ?_
      | refine exc_elim (by assumption) ?_)
    | split | dsimp only

theorem State.smpSnapshot_sound {q : List Instr} (s : State)
    (hq : State.Sound s q) :
    State.Sound (State.smpSnapshot s) q := by
  unfold State.smpSnapshot
  repeat' first
    | (with_reducible first
      | assumption | apply State.snapshot_sound | apply State.smpEnd_sound | apply State.smpRun_sound | intro _)
    | split | dsimp only

theorem State.smpFlashRead_sound {q : List Instr} (s : State)
    (hq : State.Sound s q) :
    State.Sound (State.smpFlashRead s) q := by
  unfold State.smpFlashRead
  repeat' first
    | (with_reducible first
      | assumption | apply State.smpEnd_sound | apply State.smpRun_sound | apply sound_ite | apply sound_ite_snd
      | fail_if_no_progress apply sound_with | intro _)
    | split | dsimp only

theorem State.smpFlashErase_sound {q : List Instr} (s : State) (ok : Bool)
    (hq : State.Sound s q) :
    State.Sound (State.smpFlashErase s ok) q := by
  unfold State.smpFlashErase
  repeat' first
    | (with_reducible first
      | assumption | apply State.flashErase_sound | apply State.flashSpoil_sound | apply State.smpEnd_sound
      | apply State.smpRun_sound | apply sound_ite | apply sound_ite_snd | fail_if_no_progress apply sound_with | intro _)
    | split | dsimp only

theorem State.flashProgram_sound {q : List Instr} (s : State) (o : Nat) (bs : List Byte) (hq : State.Sound s q) :
    State.Sound (State.flashProgram s o bs) q := by
  induction bs generalizing s o with
  | nil => exact hq
  | cons b bs ih =>
    unfold State.flashProgram; split
    · exact ih _ _ (State.flashWrite_sound _ _ _ hq)
    · exact ih _ _ (State.flashSpoil_sound _ _ _ hq)

theorem State.smpFlashProgram_sound {q : List Instr} (s : State) (ok : Bool)
    (hq : State.Sound s q) :
    State.Sound (State.smpFlashProgram s ok) q := by
  unfold State.smpFlashProgram
  repeat' first
    | (with_reducible first
      | assumption | apply State.flashSpoil_sound | apply State.smpEnd_sound | apply State.smpRun_sound
      | apply State.flashProgram_sound | apply sound_ite | apply sound_ite_snd | fail_if_no_progress apply sound_with | intro _)
    | split | dsimp only

theorem State.smpAttest_sound {q : List Instr} (s : State)
    (hq : State.Sound s q) :
    State.Sound (State.smpAttest s) q := by
  unfold State.smpAttest
  repeat' first
    | (with_reducible first
      | assumption | apply State.smpEnd_sound | apply State.smpRun_sound | intro _)
    | split | dsimp only

theorem State.smpOtp_sound {q : List Instr} (s : State)
    (hq : State.Sound s q) :
    State.Sound (State.smpOtp s) q := by
  unfold State.smpOtp
  repeat' first
    | (with_reducible first
      | assumption | apply State.smpRun_sound | apply sound_ite | apply sound_ite_snd | fail_if_no_progress apply sound_with
      | intro _)
    | split | dsimp only

theorem State.mirrorRefresh_sound {q : List Instr} (s : State)
    (hq : State.Sound s q) :
    State.Sound (State.mirrorRefresh s) q := by
  unfold State.mirrorRefresh
  repeat' first
    | (with_reducible first
      | assumption | apply State.setFld_sound | apply foldl_sound | apply foldl_snd_sound | apply sound_ite
      | apply sound_ite_snd | fail_if_no_progress apply sound_with | intro _)
    | split | dsimp only

theorem execSmpRequestFrame_sound {q : List Instr} (frame : List Byte) (s : State)
    (hq : State.Sound s q) :
    NextSound q (execSmpRequestFrame frame s) := by
  unfold execSmpRequestFrame
  repeat' first
    | (with_reducible first
      | assumption | apply State.smpFrame_sound | apply next_sound | intro _)
    | split | dsimp only

theorem execSmpResponseRead_sound {q : List Instr} (s : State)
    (hq : State.Sound s q) :
    NextSound q (execSmpResponseRead s) := by
  unfold execSmpResponseRead
  repeat' first
    | (with_reducible first
      | assumption | apply State.smpRespond_sound | apply next_sound | intro _)
    | split | dsimp only

theorem execSmpCommandComplete_sound {q : List Instr} (s : State)
    (hq : State.Sound s q) :
    NextSound q (execSmpCommandComplete s) := by
  unfold execSmpCommandComplete
  repeat' first
    | (with_reducible first
      | assumption | apply State.smpComplete_sound | apply next_sound | intro _)
    | split | dsimp only

theorem execGetInfo_sound {q : List Instr} (s : State)
    (hq : State.Sound s q) :
    NextSound q (execGetInfo s) := by
  unfold execGetInfo
  repeat' first
    | (with_reducible first
      | assumption | apply State.smpGetInfo_sound | apply next_sound | intro _)
    | split | dsimp only

theorem execRead32_sound {q : List Instr} (ext : List FetchResp) (s : State)
    (hq : State.Sound s q) :
    NextSound q (execRead32 ext s) := by
  unfold execRead32
  repeat' first
    | (with_reducible first
      | assumption | apply State.smpRead_sound | apply next_sound | intro _)
    | split | dsimp only

theorem execSmpWrite32_sound {q : List Instr} (s : State)
    (hq : State.Sound s q) :
    NextSound q (execSmpWrite32 s) := by
  unfold execSmpWrite32
  repeat' first
    | (with_reducible first
      | assumption | apply State.smpWrite_sound | apply next_sound | intro _)
    | split | dsimp only

theorem execRmw32_sound {q : List Instr} (ext : FetchResp) (s : State)
    (hq : State.Sound s q) :
    NextSound q (execRmw32 ext s) := by
  unfold execRmw32
  repeat' first
    | (with_reducible first
      | assumption | apply State.smpRmw_sound | apply next_sound | intro _)
    | split | dsimp only

theorem execMirrorRead_sound {q : List Instr} (s : State)
    (hq : State.Sound s q) :
    NextSound q (execMirrorRead s) := by
  unfold execMirrorRead
  repeat' first
    | (with_reducible first
      | assumption | apply State.smpMirrorRead_sound | apply next_sound | intro _)
    | split | dsimp only

theorem execPmuRequest_sound {q : List Instr} (s : State)
    (hq : State.Sound s q) :
    NextSound q (execPmuRequest s) := by
  unfold execPmuRequest
  repeat' first
    | (with_reducible first
      | assumption | apply State.smpPmu_sound | apply next_sound | intro _)
    | split | dsimp only

theorem execResetMain_sound {q : List Instr} (straps : Nat) (s : State)
    (hq : State.Sound s q) :
    NextSound q (execResetMain straps s) := by
  unfold execResetMain
  repeat' first
    | (with_reducible first
      | assumption | apply State.smpResetMain_sound | apply next_sound | intro _)
    | split | dsimp only

theorem execLoadFlash_sound {q : List Instr} (s : State)
    (hq : State.Sound s q) :
    NextSound q (execLoadFlash s) := by
  unfold execLoadFlash
  repeat' first
    | (with_reducible first
      | assumption | apply State.smpLoadFlash_sound | apply next_sound | intro _)
    | split | dsimp only

theorem execFlamHandover_sound {q : List Instr} (s : State)
    (hq : State.Sound s q) :
    NextSound q (execFlamHandover s) := by
  unfold execFlamHandover
  repeat' first
    | (with_reducible first
      | assumption | apply State.smpHandover_sound | apply next_sound | intro _)
    | split | dsimp only

theorem execEvtUnlock_sound {q : List Instr} (s : State)
    (hq : State.Sound s q) :
    NextSound q (execEvtUnlock s) := by
  unfold execEvtUnlock
  repeat' first
    | (with_reducible first
      | assumption | apply State.smpUnlock_sound | apply next_sound | intro _)
    | split | dsimp only

theorem execEvtUnlockExpiry_sound {q : List Instr} (s : State)
    (hq : State.Sound s q) :
    NextSound q (execEvtUnlockExpiry s) := by
  unfold execEvtUnlockExpiry
  repeat' first
    | (with_reducible first
      | assumption | apply next_sound | fail_if_no_progress apply sound_with | intro _)
    | split | dsimp only

theorem execEvtClear_sound {q : List Instr} (s : State)
    (hq : State.Sound s q) :
    NextSound q (execEvtClear s) := by
  unfold execEvtClear
  repeat' first
    | (with_reducible first
      | assumption | apply State.smpClear_sound | apply next_sound | intro _)
    | split | dsimp only

theorem execEvtSnapshot_sound {q : List Instr} (s : State)
    (hq : State.Sound s q) :
    NextSound q (execEvtSnapshot s) := by
  unfold execEvtSnapshot
  repeat' first
    | (with_reducible first
      | assumption | apply State.smpSnapshot_sound | apply next_sound | intro _)
    | split | dsimp only

theorem execFlashRead_sound {q : List Instr} (s : State)
    (hq : State.Sound s q) :
    NextSound q (execFlashRead s) := by
  unfold execFlashRead
  repeat' first
    | (with_reducible first
      | assumption | apply State.smpFlashRead_sound | apply next_sound | intro _)
    | split | dsimp only

theorem execFlashErase_sound {q : List Instr} (ok : Bool) (s : State)
    (hq : State.Sound s q) :
    NextSound q (execFlashErase ok s) := by
  unfold execFlashErase
  repeat' first
    | (with_reducible first
      | assumption | apply State.smpFlashErase_sound | apply next_sound | intro _)
    | split | dsimp only

theorem execFlashProgram_sound {q : List Instr} (ok : Bool) (s : State)
    (hq : State.Sound s q) :
    NextSound q (execFlashProgram ok s) := by
  unfold execFlashProgram
  repeat' first
    | (with_reducible first
      | assumption | apply State.smpFlashProgram_sound | apply next_sound | intro _)
    | split | dsimp only

theorem execAttest_sound {q : List Instr} (s : State)
    (hq : State.Sound s q) :
    NextSound q (execAttest s) := by
  unfold execAttest
  repeat' first
    | (with_reducible first
      | assumption | apply State.smpAttest_sound | apply next_sound | intro _)
    | split | dsimp only

theorem execOtpCommand_sound {q : List Instr} (s : State)
    (hq : State.Sound s q) :
    NextSound q (execOtpCommand s) := by
  unfold execOtpCommand
  repeat' first
    | (with_reducible first
      | assumption | apply State.smpOtp_sound | apply next_sound | intro _)
    | split | dsimp only

theorem execSmpMirrorRefresh_sound {q : List Instr} (s : State)
    (hq : State.Sound s q) :
    NextSound q (execSmpMirrorRefresh s) := by
  unfold execSmpMirrorRefresh
  repeat' first
    | (with_reducible first
      | assumption | apply State.mirrorRefresh_sound | apply next_sound | intro _)
    | split | dsimp only

end Sys2Proof.Machine
end

