-- ==== Sys2Proof/WellFormed.lean ====
section
/-! DEFINITION. Which commands name things that exist: unit numbers within the counts the spec gives, fields within their widths. The
meanings are total and do not assume it. -/

namespace Sys2Proof

/-- `n` is one of the first `k`. -/
def below (n k : Nat) : Bool := decide (n < k)

/-- The commit block exists (R24). -/
def CommitBlk.wf : CommitBlk → Bool
  | .peal | .cln => true
  | .aes n | .tuOut n => below n 8
  | .net n | .wc n => below n 4
  | .pll n => decide (n = 1 ∨ n = 2)

/-- The engine exists (R231). -/
def Engine.wf : Engine → Bool
  | .mal c => below c 4
  | .ring | .cln | .chm | .dpl | .prt | .net | .clv | .beat | .flm => true

/-- Every operand of the command names something that exists. -/
def Instr.wf : Instr → Bool
  | .blockToken _ | .taskDispatch _ _ _ | .hostRead _ _ _ | .hostWrite _ _ _ | .atomicOp _ _ _ _ _ _ | .pcieReset _
  | .pealLoadHost | .pealLoadAbort | .flashCopyDone | .verifyDone | .swapPrepared | .swapAbort | .swapStart
  | .swapHoldEnd | .swapXfadeEnd | .realignSetIndex _ | .blkTick | .blkCountClear | .xpListFetchDone _ _
  | .outMute _ _ _ | .clnXpTgtWrite _ | .clnCountClear | .coefWriteFetchDone _ _ | .chmSelectWrite _
  | .chmPresetReqWrite _ | .chmCwDataWrite _ | .presetHeaderFetchDone | .presetLoadStart | .presetLoadComplete
  | .presetSwapAfter | .chmCountClear | .paramListFetchDone _ _ | .delayListFetchDone _ _ | .dplDelaySetWrite _
  | .dplHashSeedWrite _ | .scrubRead _ _ | .dplCountClear | .xbCountClear | .rngCountClear
  | .prtCountClear _ | .aesCountClear _ | .streamMute _ _ _ _ | .netCountClear _ | .clvGateEnd _ _ _ _ | .clvSwitch _
  | .clvLock | .clvSlewDone | .loInLost | .loInRestore | .clvMode _ _ _ | .fallbackReturnTimer | .beatCountClear
  | .flmMirrorMsgRx _ _ _ | .flmResyncChunkRx _ _ _ _ | .flamOwnReleased | .flamSelReleased | .flmOwnWatchdog
  | .flmTakeover | .flmYieldEnd | .flmPairingTimeout | .flmResyncComplete | .flmWtrExpiry | .flmCmdHandover
  | .flmCmdResync | .flmHandoverWrite _ | .flmResyncWrite _ | .flmRealignWrite _ | .flmCountClear | .smpRequestFrame _
  | .smpResponseRead | .smpCommandComplete | .getInfo | .read32 _ | .smpWrite32 | .rmw32 _ | .mirrorRead | .pmuRequest
  | .loadFlash | .flamHandover | .evtUnlock | .evtUnlockExpiry | .evtClear | .evtSnapshot | .flashRead | .flashErase _
  | .flashProgram _ | .attest | .otpCommand | .smpHostGoWrite _ | .smpMirrorRefresh | .evtSecondTick _
  | .evtMinuteTick | .evtRequestWrite _ | .evtRecordWritten _ _ | .evtPreEraseDone | .evtRestore | .evtCursorWrite _
  | .tapSample _ _ | .tapEncSample _ | .tapMuteKeyWrite _ | .idAttestGoWrite _ | .attestDone | .otpCmdGoWrite _
  | .otpCommandDone _ | .sleep | .wake | .goLive | .goShadow | .limpEnter | .limpExit | .testExit | .limpEntry
  | .limpRetention | .limpReturn | .railTimeout | .bootFirstToken _ | .ptpWaitTimeout | .pmuTempSample _
  | .thermRestartWake | .pwrFailAssert | .pwrFailShutdown | .pwrFailDeassert | .pfRestartWake | .pcieLinkUp _ _
  | .pciePowerStateChange _ | .pll03Return | .loInReturn | .vddAoLoss => true
  | .tokenArrival island | .islandHang island => below island 26
  | .taskOverrun core | .nop core | .bra core | .call core | .ret core | .jmp core | .callr core | .rtif core
  | .rtin core | .tend core | .loopi core | .loopr core | .loopl core | .loopClose core | .leave core | .rpti core
  | .rptr core | .bsync core | .wait core | .bin core | .binp core | .bout core | .busTransferComplete core _
  | .mla2 core | .mlas core | .mul2 core | .mls2 core | .aluNop core | .zero core | .copy core | .adds core
  | .subs core | .negt core | .magn core | .shla core | .shra core | .rndh core | .maxs core | .mins core | .comp core
  | .test core | .and core | .ior core | .xor core | .mul core | .mula core | .muls core | .ldi core | .ldl core
  | .move core | .addp core | .addpl core | .movcFromCcr core | .movcToCcr core | .ldr core | .str core | .mov2 core
  | .bfly core | .bexp core | .bscale core | .beclr core | .slowPathLoadDone core _ | .fastAccept core
  | .normalAccept core | .timerExpiry core | .mboxInWrite core _ | .paramSet core _ _ _ => below core 64
  | .handshakeWord src dst _ => below src 26 && below dst 26
  | .commitGo b tag whenCode => b.wf && below tag 256 && below whenCode 4
  | .commitCancel b | .commitApply b => b.wf
  | .registerWrite master addr _ | .planeWrite master addr _ | .sxmWriteRefused master addr
  | .xpWindowWrite master addr _ | .chmCoefWindowWrite master addr _ | .malProgramCcrWrite master addr
  | .lineStorageWrite master addr | .xbRequest master _ addr _ _ _ _ _ _ => below master 24 && below addr 0x100000000
  | .pealLoadFlash slot => below slot 256
  | .realignRequest key | .testEnter key => below key 0x10000
  | .blkIndexLoRead master | .xbWatchdogQuarantine master _ | .xbMasterReset master _ | .masterResetDone master | .obTimeout master
  | .barrierDone master | .evtWindowRead master => below master 24
  | .brgSourceLock source _ | .brgOutOfRange source | .brgNoClock source | .brgAcquire source => below source 24
  | .xpSet input output _ slot => below input 2048 && below output 1024 && below slot 16
  | .xpList addr _ slot => below addr 0x100000000 && below slot 16
  | .xpClearOut output slot => below output 1024 && below slot 16
  | .xpClearIn input slot => below input 2048 && below slot 16
  | .clnRampSlotWrite slot _ | .clvRefLos slot | .clvWtrExpiry slot => below slot 16
  | .xpRampEnd input output => below input 2048 && below output 1024
  | .outFactorRampEnd output => below output 1024
  | .bankSelect _ _ _ bank => below bank 2
  | .presetLoad array preset _ _ => below array 64 && below preset 16
  | .coefWrite filter bank _ _ addr => below filter 512 && below bank 2 && below addr 0x100000000
  | .bankFadeEnd filter => below filter 512
  | .dmaStart core channel _ | .dmaComplete core channel _ => below core 64 && below channel 4
  | .mboxOutRead master core => below master 24 && below core 64
  | .malClBroadcastWrite cluster _ | .malClCountClear cluster => below cluster 4
  | .malDataWindowWrite master cluster word _ => below master 24 && below cluster 4 && below word 0x10000
  | .paramList core _ addr => below core 64 && below addr 0x100000000
  | .delaySet line _ _ | .delayFadeEnd line => below line 2048
  | .delayList _ _ addr => below addr 0x100000000
  | .msixTableWrite word _ => below word 512
  | .msixModerationExpiry ring | .ringEnable ring _ | .ringDisable ring _ | .ringCfgWrite ring _
  | .ringTailWrite ring _ | .ringHeadWrite ring _ | .ringResizeRequest ring _ | .ringResizeCancel ring
  | .ringResizeApply ring | .ringResizeTimeout ring | .ringFetch ring _ | .fenceRelease ring => below ring 64
  | .ringNop ring cookie _ _ => below ring 64 && below cookie 0x100000000
  | .fence ring cookie _ _ waitRing _ waitIndex => below ring 64 && below cookie 0x100000000 && below waitRing 64 && below waitIndex 4096
  | .write32 ring cookie _ _ _ addr _ _ _ => below ring 64 && below cookie 0x100000000 && below addr 0x100000000
  | .cmdApply e _ => e.wf
  | .sysBarrierWrite master token => below master 24 && below token 0x10000
  | .prtCtrlWrite port _ | .prtMaskWrite port _ _ | .prtMaskApply port | .prtMask port _ | .portFrame port _ => below port 16
  | .aesCtrlWrite n _ | .aesFrameRx n _ _ | .aesCsBlockComplete n | .aesFrameTx n | .tuOutEdge n _ => below n 8
  | .portMute kind _ _ _ ramp => below kind 4 && below ramp 256
  | .portLock unit _ | .portFrameError unit | .portPrerollDone unit | .portStopRampDone unit | .portPostrollDone unit => below unit 32
  | .portLost unit cause => below unit 32 && below cause 16
  | .netFrameRx port _ _ _ _ _ | .netSendDone port _ | .netCtlRxReleaseWrite port _ | .netLinkUp port
  | .netLinkDown port => below port 4
  | .rtpPacketRx stream leg _ _ | .llPacketRx stream leg _ _ => below stream 256 && below leg 2
  | .streamPacketTx stream => below stream 256
  | .netSend port _ _ addr _ => below port 4 && below addr 0x100000000
  | .ptpDelayReqTimer inst _ | .ptpNoParentTimeout inst | .tuTimeLatchWrite inst _ => below inst 2
  | .tuCapEdge n _ _ | .wclkAlignEdge n _ | .pllLossOfLock n | .pllLocked n _ _ | .pllBypassExit n
  | .wclkInputMissed n => below n 4
  | .tuCapNsRead master n => below master 24 && below n 4
  | .clvRefSet slot enable _ _ => below slot 16 && below enable 2
  | .pllPhaseStepWrite n _ => decide (n = 1 ∨ n = 2)
  | .beatMute first _ _ _ | .beatEnable first _ _ | .beatClear first _ | .beatDiag first _ => below first 32
  | .beatCtrlWrite n _ | .beatDiagDone n _ _ _ | .beatCurrentTrip n _ _ _ _ | .beatSenseFault n | .beatRetry n
  | .beatPrerollDone n | .beatRampDone n | .beatPresenceChange n | .beatGridRelock n => below n 32
  | .beatRailFault r => below r 8
  | .flmHeartbeatRx link _ _ | .flmLinkDown link | .flmLinkUp link => below link 2
  | .resetMain straps | .sysResetWrite _ straps | .resetNAssert straps | .aoReset _ straps | .thermalTrip straps => below straps 16
  | .limpCauseClear cause => below cause 5
  | .railDrop rail => below rail 11
  | .domainOn d | .domainOff d => below d 13

end Sys2Proof
end

