-- ==== Sys2Proof/Tests/Slice0.lean ====
section
/-! SUPPORT. The model's own tests: ill-formed commands that WellFormed refuses, values the manual gives, and for each statement
concrete states and operands that meet its hypotheses. -/

namespace Sys2Proof.Machine.Tests

open Sys2Proof Sys2Proof.Machine

set_option Elab.async false

/-- Fields set one after the other. -/
def put (s : State) (fs : List (Fld × Nat)) : State := fs.foldl (fun s p => s.setFld p.1 p.2) s

/-- A structure of an image with nothing in it but SYSTEM at 96 kHz and blocks of 6. -/
def labCfg : Cfg where
  sys := ⟨6, 1, 0, 0, 2000000, 0, 1, 0, List.replicate 26 8⟩
  buses := []
  tasks := []
  geom := none
  gains := []
  filters := []
  coeffs := []
  presets := []
  progs := []
  datas := []
  clusters := []
  lines := []
  regions := []
  inits := []
  prts := []
  aess := []
  streams := []
  bridges := []
  clock := ⟨[], 0, 0, 0, 0, 0, 0, 0, 0, 0, 0, 0, 0, [], 0, 0⟩
  beatChans := []
  beatRails := []
  gridDiv := none
  mirror := none
  taps := []
  hotCarry := []

/-- A chip in LIVE with every island powered and the PCIe link up. -/
def lab : State :=
  { put State.reset ((List.range 26).map (fun i => (R.SYS_ISLAND_POWERED i, 1)) ++ (List.range 4).map (fun n => (R.PLL_STATUS_LOCKED n, 1)) ++
      [(R.HIF_LINK_UP, 1), (R.SYS_MODE_MODE, 3), (R.BLK_STATE_RUN, 1), (R.PMU_DOMAIN_STATE_STATE, 0xAAAAAA)]) with
    cfg := some labCfg
    blk := { Blk.idle with index := 100, seq := 7 } }

/-- The lab in another mode. -/
def inMode (m : Nat) : State := put lab [(R.SYS_MODE_MODE, m)]

/-- The lab with the token arrived at every island. -/
def here : State := { lab with blk := { lab.blk with arrived := (List.range 26).map (fun i => (i, (100, 7))) } }


/-- The lab with bytes of DRAM from `a`. -/
def withDram (s : State) (a : Nat) (bs : List Byte) : State := { s with mem := s.mem.dramWrite a (bs.map some) }

/-- The lab with the live structure `c`. -/
def withCfg (c : Cfg) : State := { here with cfg := some c }

/-- A command that engine `e` holds, for now. -/
def held1 (e : Engine) (c : Cmd) : Held := ⟨0, e, c, none, false, false, 0, 0, none, 0, 0, 0, 0, .notNeeded, false, none, false, false⟩
/-! ### The machine and the rules stated whole -/

theorem meets_EveryStepKeepsTheCanonicalForm : lab.canonical = true ∧ step lab = .next lab := ⟨by decide +kernel, rfl⟩

theorem meets_EveryCommandAnswersAndKeepsTheQueue : ({ lab with pending := [.wake] } : State).pending ≠ [] := by decide

/-- A commit that waits, of TAG `tag`. -/
def waiting (b : CommitBlk) (tag whenCode : Nat) : PendingCommit := ⟨b, tag, whenCode, [], 0, 0, 0, none⟩

theorem meets_CommitWhilePending : ∀ b ∈ [CommitBlk.cln, .aes 7, .pll 2, .peal],
    let s := { lab with commits := [waiting b 255 1] }
    commitPresent b = true ∧ s.domainOn (commitDomain b) = true ∧ HostReaches s (commitReg b) ∧ s.pendingOf b = some (waiting b 255 1) := by
  unfold HostReaches Reaches Through; decide +kernel

theorem meets_DefaultTarget : (∀ a ∈ [0x10200000, 0x14410000, 0x15EFFFFC, 0x7FFFFFFC], targetDomain a = 0 ∧ a % 4 = 0 ∧ Through lab 22 a) ∧ lab.domainOn 2 = true ∧ lab.hif.locks = [] ∧
    0x14410000 = 0x14000000 + 0x410000 ∧ 0x410000 + 4 ≤ 0x2000000 ∧ lab.hostReaches = true ∧ Through lab 0 0x14410000 := by
  unfold Through; decide +kernel

theorem test_defaultTarget : (match exec (.hostRead false 0x410000 4) lab with
    | .next t => t.sent.contains (.hostData [0xC0, 0xDE, 0xC0, 0xDE]) | _ => false) = true := by decide +kernel

theorem meets_PortWords : ∀ w ∈ [16, 20, 24], w ≤ 24 ∧ ∀ r ∈ [(⟨0, 0, false, 0, 0, 24, w, 0, 0, 0, 0, 0, false, false, 0, 0, 0⟩ : PrtRec)],
    slotToSample r (0x800000 + 2 ^ (24 - w) - 1) = -8388608 ∧ sampleToSlot r 8388607 = 0x800000 - 2 ^ (24 - w) := by decide +kernel

theorem test_crc8Check : crc8 [0x31, 0x32, 0x33, 0x34, 0x35, 0x36, 0x37, 0x38, 0x39] = 0xF4#8 := by decide +kernel

theorem meets_RequestFrames : frameRequest [0xA5, 0x01, 0x00, crc8 [0xA5, 0x01, 0x00]] = some (1, []) ∧ lab.smp.exec = none ∧
    ({ lab with smp := { lab.smp with exec := some ⟨1, [], false⟩ } } : State).smp.exec.isSome = true ∧
    crc8 [0xA5, 0x01, 0x00] ≠ 0x00#8 := by decide +kernel

/-! ### The block sequencer, tokens, tasks and commits -/

theorem meets_SequencerRegisterCommands :
    let s := put { lab with blk := { lab.blk with ticks := 3 } } [(R.BLK_TICK_DIV_DIV, 3), (R.BLK_EPOCH_ERR_ERR, 2)]
    0 < s.fld R.BLK_TICK_DIV_DIV ∧ s.fld R.BLK_TICK_DIV_DIV ≤ s.blk.ticks ∧ Reaches s 1 0x14040008 ∧ HostReaches s 0x14040040 ∧
    Reaches s 22 0x10000000 ∧ Reaches s 0 0x101FFFFF ∧ s.flmState = 0 ∧ HostReaches s 0x14040014 ∧ s.blk.realign = none ∧
    s.swapState = swIdle ∧ s.mode = .live ∧ 1 < (ofCodeS 32 (s.fld R.BLK_EPOCH_ERR_ERR)).natAbs ∧
    (ofCodeS 32 ((put s [(R.BLK_EPOCH_ERR_ERR, 2 ^ 32 - 1)]).fld R.BLK_EPOCH_ERR_ERR)).natAbs ≤ 1 ∧
    (put s [(R.PEAL_SWAP_STATUS_STATE, 1)]).swapState ≠ swIdle ∧ (inMode 4).mode ≠ .live ∧ (inMode 4).mode ≠ .shadow := by
  unfold HostReaches Reaches Through; decide +kernel

theorem meets_HandshakeAndBridgeEvents : lab.islandOn 25 = true ∧ lab.islandOn 0 = true ∧
    ({ lab with hsk := [(25 * 26, ⟨[1#32, 2#32], []⟩)] } : State).channel 25 0 = ⟨[1#32, 2#32], []⟩ ∧
    (∀ k ∈ [1, 2, 3, 4], (put lab [(R.BRG_SRC_STATE_STATE 23, k)]).brgState 23 = k) := by decide +kernel

theorem meets_TokenCountsBlocks : Quiet lab ∧ ∀ r ∈ lab.roundTasks, lab.hasEnded r.1.task r.2 = true := by
  refine ⟨?_, by decide +kernel⟩
  unfold Quiet
  refine ⟨by decide +kernel, by decide +kernel, by decide +kernel, by decide +kernel, by decide +kernel, rfl, rfl, rfl, rfl, by decide +kernel, rfl, rfl, rfl, ?_,
    rfl, by decide +kernel, rfl, rfl, rfl, rfl, by decide⟩
  rintro c ⟨⟩; decide +kernel

theorem meets_TokenAndTaskCommands :
    (∀ i ∈ [0, 1, 8, 11, 21, 24, 25], lab.islandOn i = true ∧ lab.fld R.BLK_STATE_RUN = 1 ∧ lab.arrivedSeq i < lab.blk.seq ∧
      lab.peal.armed = none ∧ lab.fld (R.SYS_ISLAND_CLK_SRC i) ≠ 1 ∧
      (let s := put lab [(R.SYS_ISLAND_CLK_SRC i, 1)]; s.fld (R.SYS_ISLAND_CLK_SRC i) = 1 ∧ s.fld (R.PLL_STATUS_FALLBACK 0) = 0)) ∧
    (∀ h < 2, ({ lab with cfg := none } : State).islandOn (22 + h) = true ∧ lab.arrivedSeq (22 + h) < lab.blk.seq) ∧
    (∀ t ∈ [(⟨0, 8, 1, 100, 0, true, false, []⟩ : TaskRec), ⟨0, 25, 4, 100, 0, true, false, []⟩],
      let c := { labCfg with tasks := [t] }
      let s := { lab with cfg := some c, blk := { lab.blk with arrived := [(t.island, (100, 7))] } }
      s.verCfg false = some c ∧ c.task? 0 = some t ∧ s.mayStart c t false = true ∧ s.dueOn t.island = false) ∧
    (let s := put (lab.setCore 63 { lab.core 63 with task := some ⟨0, false, 100, 99⟩ }) [(R.CCR_CYCLES_COUNT 63, 100)];
      (s.core 63).task = some ⟨0, false, 100, 99⟩ ∧ (s.core 63).pend = [] ∧ (s.core 63).stall = .none ∧ s.cfg = some labCfg ∧
      100 ≤ s.fld (R.CCR_CYCLES_COUNT 63)) := by decide +kernel

theorem meets_CommitsAreTakenAndEnd :
    (∀ b ∈ [CommitBlk.cln, .peal, .pll 1, .wc 3, .aes 0, .net 3, .tuOut 7], commitPresent b = true ∧ lab.domainOn (commitDomain b) = true ∧
      HostReaches lab (commitReg b) ∧ lab.pendingOf b = none) ∧
    commitFrame .cln = false ∧ commitFrame (.pll 1) = true ∧ commitAtOnce (.pll 1) = true ∧ commitAtOnce (.aes 0) = false ∧
    (let s := { here with commits := [waiting .cln 9 1] };
      s.pendingOf .cln = some (waiting .cln 9 1) ∧ s.commitPoint (waiting .cln 9 1) = true) ∧
    (∀ n ∈ [1, 2],
      let s := { here with commits := [waiting (.pll n) 9 0] }
      s.pendingOf (.pll n) = some (waiting (.pll n) 9 0) ∧ s.commitPoint (waiting (.pll n) 9 0) = true ∧
      s.pllCheck n (waiting (.pll n) 9 0).set = 0) := by
  unfold HostReaches Reaches Through; decide +kernel

/-! ### The host, the crossbar and the rings -/

theorem meets_AccessesToDram : (lab.hostReaches = true ∧ lab.hif.locks = []) ∧
    (∀ m ∈ [0, 17, 22], ∀ a ∈ [0, 0x0CFFFFF8], Through lab m a ∧ PlainDram lab a 8 ∧ PlainDram lab a 4 ∧ burstOk a 8 = true ∧ burstOk a 4 = true ∧
      beatsOf a 4 = 1) ∧ mayLock 0 = true ∧ burstOk 0 64 = true ∧
    ∀ a ∈ [0x14000000, 0x14020004, 0x140B1000, 0x15F80100], Reaches lab 0 a ∧ lab.flmState = 0 ∧
      (lab.touch 0).writeReg 0 a 5#32 = (.ok, (lab.touch 0).writeGeneric a 5) := by
  unfold Reaches Through PlainDram; decide +kernel

theorem test_bar0Read : (match exec (.hostRead false 0 4) lab with
    | .next t => t.sent.contains (.hostData (leBytes 4 (lab.viewReg 0x14000000))) | _ => false) = true := by decide +kernel

theorem meets_WindowsMessagesBarriersAndResets :
    (∀ n ∈ [0, 7], Reaches lab 1 (0x14010100 + 4 * n)) ∧ lab.hif.d3hot = false ∧
    (∀ v ∈ [0, 127], HostReaches lab (0x14018000 + 4 * (4 * v + 3)) ∧ v ∈ ({ lab.hif with msixPend := [0, 127] } : Hif).msixPend) ∧
    (let s := { lab with hif := { lab.hif with moderated := [(127, true)], msixTable := [(4 * 127 + 3, 0)] } };
      s.hif.moderated = [(64 + 63, true)] ∧ s.msixMasked (64 + 63) = false) ∧
    ({ lab with hif := { lab.hif with moderated := [(127, false)] } } : State).hif.moderated = [(64 + 63, false)] ∧
    (put lab [(R.HIF_LINK_UP, 1), (R.HIF_LINK_WIDTH, 15), (R.HIF_LINK_SPEED, 5)]).fld R.HIF_LINK_WIDTH < 16 ∧ (∀ l ∈ lab.hif.locks, l.master ≠ 0) ∧
    Reaches lab 22 0x14000040 ∧
    (let s := put { lab with hif := { lab.hif with barriers := List.replicate 4 ⟨22, 65535, 0⟩ } } [(R.SYS_BARRIER_DONE_PENDING 22, 4)];
      (s.hif.barriers.filter (fun b => b.master == 22)).length = 4 ∧ s.hif.barriers.find? (fun b => b.master == 22) = some ⟨22, 65535, 0⟩ ∧
      s.barrierMet ⟨22, 65535, 0⟩ = true ∧ s.fld (R.SYS_BARRIER_DONE_PENDING 22) = 4) := by
  unfold HostReaches Reaches Through; decide +kernel

theorem meets_RegisterWrites : ∀ a ∈ [0x14010010, 0x14060014, 0x140F0104, 0x14400000, 0x15F10008], ∀ m ∈ [0, 22], Reaches lab m a ∧
    lab.flmState = 0 ∧ regFields a ≠ [] ∧ ∀ p ∈ regFields a, p.2 ≠ .wo := by unfold Reaches Through; decide +kernel

/-- A read of 8 bytes that master `m` has issued, and a fetch of list `c` that runs for engine `e`. -/
def waitingRead (m : Nat) : XbReq := ⟨1, m, 0, .read 8, 0x40, 0, none, .error, false, 0, [], none, false, false⟩
def fetching (e : Engine) (c : Cmd) : Held := { held1 e c with fetch := .running }

theorem meets_QuarantineAndMasterReset :
    (∀ m ∈ [0, 17, 22], lab.xbPort m = .opened ∧ lab.held = [] ∧ lab.hif.queue = [] ∧ lab.hif.locks = [] ∧
      (let s := { lab with hif := { lab.hif with locks := [⟨15, m, 4⟩] } }; s.hif.locks = [⟨15, m, 4⟩] ∧ s.xbPort m = .opened) ∧
      (let s := { lab with hif := { lab.hif with queue := [waitingRead m] } };
        s.hif.queue = [waitingRead m] ∧ (waitingRead m).master = m ∧ (waitingRead m).dead = false ∧ (waitingRead m).kind = .read 8 ∧
        s.xbPort m = .opened)) ∧
    (∀ e ∈ [(4, fetching .cln (.xpList 0x80000000 4 0)), (10, fetching .dpl (.delayList 4 1 0x80000000))],
      let s := { withCfg { labCfg with geom := some ⟨8, 4, 0, 16, 4, 0, 0⟩, regions := [⟨0, 0, 0, 0, 0, 0⟩] } with held := [e.2] }
      s.xbPort e.1 = .opened ∧ s.held = [e.2] ∧ e.2.fetch = .running ∧ fetchMaster e.2.eng e.2.cmd = e.1 ∧ s.hif.queue = [] ∧
      s.held.find? (fun h => decide (h.fetch = .running ∧ targetOf h.cmd.range.1 = .outbound) && fetchMaster h.eng h.cmd == e.1) = some e.2) ∧
    lab.held.find? (fun h => decide (h.fetch = .running ∧ targetOf h.cmd.range.1 = .outbound) && fetchMaster h.eng h.cmd == 4) = none ∧
    (∀ w ∈ [0, 1, 22], Reaches lab w 0x14020008) ∧ lab.flmState = 0 ∧ (0xC1050016#32).toNat / 65536 = 0xC105 ∧ (0xC1050016#32).toNat % 32 = 22 ∧
    (let s := { lab with hif := { lab.hif with resetting := [22] } };
      22 ∈ s.hif.resetting ∧ s.hif.queue = [] ∧ bit (s.fld R.XB_QUARANTINE_MASTER) 22 = 0 ∧ ∀ e ∈ s.rings, e.2.recs = []) ∧
    HostReaches lab 0x14020028 := by
  unfold HostReaches Reaches Through; decide +kernel

/-- R227: after 4 µs, and no sooner, master 22 is quarantined. -/
theorem test_watchdogQuarantinesAfter4us : exec (.xbWatchdogQuarantine 22 3999) lab = .next lab ∧
    ∃ t, exec (.xbWatchdogQuarantine 22 4000) lab = .next t ∧ t.xbPort 22 = .quarantined := by
  refine ⟨rfl, _, rfl, ?_⟩
  decide +kernel

/-- Ring `n` of 16 entries, at 0x1000. -/
def ringing (s : State) (n head tail : Nat) : State :=
  put s [(R.RNG_CTRL_ENABLE n, 1), (R.RNG_CFG_LOG2 n, 4), (R.RNG_CFG_BASE n, 64), (R.RNG_HEAD_INDEX n, head), (R.RNG_TAIL_INDEX n, tail)]

theorem meets_RingRegisters :
    (∀ n ∈ [0, 31, 32, 63], HostReaches lab (0x14030004 + 32 * n) ∧ lab.fld (R.RNG_CTRL_ENABLE n) = 0 ∧ HostReaches lab (0x14030000 + 32 * n) ∧
      (∀ k ∈ [4, 12], (put lab [(R.RNG_CFG_LOG2 n, k)]).fld (R.RNG_CFG_LOG2 n) = k) ∧ (put lab [(R.RNG_CFG_LOG2 n, 3)]).fld (R.RNG_CFG_LOG2 n) < 4 ∧
      12 < (put lab [(R.RNG_CFG_LOG2 n, 13)]).fld (R.RNG_CFG_LOG2 n)) ∧
    (∀ n ∈ [0, 31], HostReaches (ringing lab n 0 0) (0x1403000C + 32 * n) ∧ (ringing lab n 0 0).fld (R.RNG_CTRL_ENABLE n) = 1 ∧
      (ringing lab n 0 0).ringSize n = 16) ∧
    (∀ n ∈ [32, 63], HostReaches (ringing lab n 0 0) (0x14030008 + 32 * n) ∧ (ringing lab n 0 0).fld (R.RNG_CTRL_ENABLE n) = 1 ∧
      (ringing lab n 0 0).ringSize n = 16) ∧
    (let s := (ringing lab 63 5 5).setRing 63 { Ring.idle with resize := some (1, 12) };
      HostReaches s (0x14030010 + 32 * 63) ∧ s.ringOn 63 = true ∧ (s.ring 63).resize = some (1, 12) ∧ (s.ring 63).recs = [] ∧ s.ringUsed 63 = 0 ∧
      (s.ring 63).flight = []) := by
  unfold HostReaches Reaches Through; decide +kernel

/-- The descriptor of an XP_SET of crosspoint (1, 2) to unity with slot 3, on request. -/
def xpSetEntry : List Byte :=
  [0x20, 0, 0, 0] ++ List.replicate 12 0 ++ [1, 0, 2, 0, 0, 0, 0x40, 0, 3] ++ List.replicate 7 0

theorem test_xpSetEntry : (descrOf xpSetEntry).judge = some (.engine .cln (.xpSet 1 2 0x400000#32 3)) := by decide +kernel

/-- A matrix of 8 inputs and 4 outputs. -/
def crossCfg : Cfg := { labCfg with geom := some ⟨8, 4, 0, 16, 4, 0, 0⟩ }
def cross : State := put (withCfg crossCfg) [(R.CLN_GEOM_INPUTS, 8), (R.CLN_GEOM_OUTPUTS, 4)]

theorem meets_RingCommands :
    (∀ n ∈ [0, 31], (ringing lab n 15 0).mayFetch n = true ∧ (ringing lab n 15 0).fld (R.RNG_HEAD_INDEX n) < (ringing lab n 15 0).ringSize n ∧
      (ringing lab n 15 0).ringSize n ≤ 4096 ∧ (ringing lab n 15 0).cplRing n = none ∧ (ringing lab n 15 0).holdFull .ring = false) ∧
    (let s := (ringing lab 31 0 1).setRing 31 { Ring.idle with fences := [⟨0, 0, false, false, 0, none⟩] };
      (s.ring 31).fences = [⟨0, 0, false, false, 0, none⟩] ∧ s.fenceMet 31 ⟨0, 0, false, false, 0, none⟩ = true) ∧
    (let s := withDram (ringing (withCfg crossCfg) 0 15 0) 0x11E0 xpSetEntry;
      s.mayFetch 0 = true ∧ 0x11E0 = s.ringAddr 0 (s.fld (R.RNG_HEAD_INDEX 0)) ∧ PlainDram s 0x11E0 32 ∧ Through s 18 0x11E0 ∧
      (descrOf (s.mem.dramRead 0x11E0 32)).judge = some (.engine .cln (.xpSet 1 2 0x400000#32 3)) ∧ s.holdFull .cln = false ∧
      s.domainOn (engineDomain .cln) = true ∧ s.beyond (descrOf (s.mem.dramRead 0x11E0 32)).stamp = false ∧ s.flmState = 0 ∧
      s.firstFetch (.xpSet 1 2 0x400000#32 3) = .notNeeded) ∧
    (let h := held1 .cln (.xpWrite 7 3 0 15);
      let s := { cross with held := [h] };
      h.whole = false ∧ h.stamp = none ∧ h.mirrorAt = none ∧ s.due h = true ∧ s.commitFirst .cln = false ∧ s.stale h = false ∧ s.clnWide = false ∧
      s.xpIn 7 3 = true ∧ s.changesFit 1 = true ∧ s.cln.waitQ.length ≤ 65536 ∧
      (let k := { h with known := true }
       let u := { withCfg labCfg with held := [k] }
       u.due k = true ∧ u.commitFirst .cln = false ∧ u.stale k = true)) ∧
    (∀ m ∈ [0, 31], PlainDram lab 0x0CFFFFFC 4 ∧ Through lab 18 0x0CFFFFFC ∧ (ringing lab m 15 0).holdFull .ring = false) ∧
    (∀ b ∈ [102, 100 + 2 ^ 24], (ringing lab 31 0 2).blk.index + 1 < b ∧ b ≤ (ringing lab 31 0 2).blk.index + 2 ^ 24) ∧
    HostReaches lab 0x1403100C := by
  unfold HostReaches Reaches Through PlainDram; decide +kernel

/-! ### Carillon -/

/-- The matrix with its four groups' tasks, and the same where the first of them has ended its block. -/
def crossed : State := { cross with cfg := some { crossCfg with tasks := (List.range 4).map (fun i => ⟨i, i + 2, 2, 100, 0, true, false, []⟩) } }
def crossedLate : State := { crossed with blk := { crossed.blk with ended := [(0, false)] } }

theorem meets_CrosspointCommands : crossed.cln.waitQ.length ≤ 65535 ∧ crossed.clnInputs = 8 ∧ crossed.clnOutputs = 4 ∧ crossed.clnWide = false ∧
    crossed.clnOpen = true ∧ crossedLate.clnOpen = false ∧ (∀ p ∈ [(0, 0), (7, 3)], crossed.xpIn p.1 p.2 = true) ∧
    signExt24 0xFF800000#32 = true ∧ signExt24 0x007FFFFF#32 = true ∧ signExt24 0x00800000#32 = false ∧
    crossed.changesFit 8 = true ∧ 3 + 1 ≤ crossed.clnOutputs := by decide +kernel

/-- Wide storage whose ramp table is full. -/
def fullRamps : State :=
  { put crossed [(R.CLN_MODE_WIDE, 1)] with
    cln := { crossed.cln with xp := (List.range 16384).map (fun k => (xpKey 1 0 + k, ⟨0, 1, 1, 0, true, false⟩)) } }

theorem meets_fullRamps : fullRamps.clnWide = true ∧ fullRamps.clnOpen = true ∧ fullRamps.xpIn 0 0 = true ∧ fullRamps.changesFit 1 = true ∧
    fullRamps.cln.waitQ = [] ∧ fullRamps.clnInputs ≤ 2048 ∧
    (fullRamps.xp 0 0).entry = false ∧ (fullRamps.xp 0 0).cur ≠ low24 1#32 ∧ 16384 ≤ fullRamps.rampUsed := by decide +kernel

/-- A state that holds command `c` alone, its list being fetched. -/
def fetches (e : Engine) (c : Cmd) : State :=
  { withCfg { crossCfg with filters := [⟨0, 4, 0, 1, 0, 4⟩], regions := [⟨0, 0, false, 0x100000, 64, 0⟩] } with held := [fetching e c] }

theorem meets_CarillonListsWindowAndFetches :
    ((List.replicate 4 (held1 .cln (.xpList 0 1 0))).filter (fun h => match h.cmd with | .xpList .. => true | _ => false)).length = 4 ∧
    cross.flmState = 0 ∧ Reaches cross 0 (0x11000004 + 8 * (1024 * 1023 + 1023)) ∧ cross.xpIn 1023 1023 = false ∧
    Reaches cross 1 (0x11000004 + 8 * (1024 * 3 + 7)) ∧ Reaches cross 1 (0x11000000 + 8 * (1024 * 3 + 7)) ∧ cross.xpIn 7 3 = true ∧
    (let w := put cross [(R.CLN_MODE_WIDE, 1)]; w.clnWide = true ∧ Reaches w 22 (0x11000000 + 4 * (2048 * 1023 + 2047)) ∧ w.xpIn 2047 1023 = false ∧
      Reaches w 22 (0x11000000 + 4 * (2048 * 3 + 7)) ∧ w.xpIn 7 3 = true) ∧
    (∀ p ∈ [(6, 3, 1), (7, 2, 1), (7, 3, 1), (7, 3, 0)],
      let s := put cross [(R.CLN_XP_SEL_INPUT, p.1), (R.CLN_XP_SEL_OUTPUT, p.2.1), (R.CLN_XP_SEL_AUTOINC, p.2.2)]
      HostReaches s 0x14100108 ∧ s.xpIn (s.fld R.CLN_XP_SEL_INPUT) (s.fld R.CLN_XP_SEL_OUTPUT) = true ∧
      s.fld R.CLN_XP_SEL_AUTOINC = p.2.2 ∧ s.fld R.CLN_XP_SEL_INPUT = p.1 ∧ s.fld R.CLN_XP_SEL_OUTPUT = p.2.1 ∧
      s.clnInputs = 8 ∧ s.clnOutputs = 4) ∧
    (∀ n ∈ [1, 15], HostReaches cross (0x14100040 + 4 * n) ∧ cross.slotInUse n = false ∧
      (cross.setXp 0 0 ⟨0, 1, 1, n, true, false⟩).slotInUse n = true) ∧
    HostReaches cross 0x1410031C := by
  unfold HostReaches Reaches Through; decide +kernel

theorem meets_ListFetches : ∀ e ∈ [(Engine.cln, Cmd.xpList 64 2 0), (.chm, .coefWrite 0 1 0 2 64), (.mal 3, .paramList 0 2 64), (.dpl, .delayList 2 0 64)],
      let s := fetches e.1 e.2
      let q := put s [(R.XB_QUARANTINE_MASTER, 2 ^ 24 - 1)]
      (fetching e.1 e.2).fetch = .running ∧ Through s (fetchMaster e.1 e.2) 64 ∧ PlainDram s 64 16 ∧
      q.passage (fetchMaster e.1 e.2) 64 = .refused ∧ q.hif.queue = [] := by
  unfold Through PlainDram; decide +kernel

theorem meets_RampsEndOnTheirTarget : (cross.xp 0 0).remain = 0 ∧ (cross.outF 0).remain = 0 ∧ rampEnd (-8388608) 8388607 1 1023 1 = -8388608 := by
  decide +kernel

/-! ### Chimes -/

/-- Two filters of four taps, and preset (63, 15) of filter 511 at 0x40. -/
def firCfg : Cfg := { labCfg with
  filters := [⟨0, 4, 0, 1, 0, 4⟩, ⟨511, 4, 0, 2, 8, 12⟩], presets := [⟨63, 15, 64, 4⟩]
  tasks := (List.range 2).map (fun i => ⟨i, i + 6, 3, 100, 0, true, false, []⟩) }

/-- The header of that preset: its magic, (63, 15), one filter from 511, and a CRC. -/
def presetHead : List Byte := [0x43, 0x48, 0x49, 0x4D, 63, 0, 15, 0, 0xFF, 0x01, 1, 0, 0, 0, 0, 0]

def fir : State := withDram (withCfg firCfg) 64 presetHead

/-- A load of that preset that heads the queue, the same with its header fetched, and the same under way. -/
def firLoad : PresetLoad := ⟨63, 15, false, 16, none, (64, 4), some 0, none, [], []⟩
def firHeaded : PresetLoad := { firLoad with header := some (511, 1, 0) }
def firRuns (crc : Nat) : PresetLoad := { firHeaded with header := some (511, 1, crc), startAt := some 3, spans := [(12, 4)], banks := [1] }

/-- Chimes with the loads `l` in its queue. -/
def firQueue (l : List PresetLoad) : State := { fir with chm := { fir.chm with queue := l } }

theorem meets_BankSelects : fir.chmPresent = true ∧ fir.atBoundary .chm 3 = true ∧
    ({ fir with blk := { fir.blk with ended := [(0, false)] } } : State).atBoundary .chm 3 = false ∧
    (here.chmPresent = false ∧ here.atBoundary .chm 3 = true) ∧ fir.filtersIn 511 2 = false ∧
    (∀ f ∈ [0, 511], fir.filtersIn f 1 = true ∧ (fir.filt f).locked = 0 ∧
      (fir.filt f).fade = none ∧ (fir.filt f).idle = .ready ∧ (fir.filt f).active ≠ 1) ∧
    (let s := fir.setFilt 511 ⟨0, .loading, none, 0⟩
     s.atBoundary .chm 3 = true ∧ (s.filt 511).idle = .loading ∧ (s.filt 511).locked = 0 ∧ (s.filt 511).fade = none ∧ (s.filt 511).active ≠ 1) ∧
    ((fir.setFilt 0 ⟨0, .ready, none, 1⟩).filt 0).locked ≠ 0 ∧
    ((fir.setFilt 0 ⟨0, .busy, some (1024, 1024, false), 0⟩).filt 0) = ⟨0, .busy, some (1024, 1024, false), 0⟩ ∧
    ((fir.setFilt 0 ⟨0, .busy, some (0, 1024, true), 0⟩).filt 0) = ⟨0, .busy, some (0, 1024, true), 0⟩ ∧
    HostReaches fir 0x14200020 := by
  unfold HostReaches Reaches Through; decide +kernel

theorem meets_PresetLoads :
    fir.presetWaiting < 4 ∧ (fir.cfg.bind (fun c => c.presets.find? (fun r => r.array == 63 && r.preset == 15))).isSome = true ∧
    (fir.cfg.bind (fun c => c.presets.find? (fun r => r.array == 0 && r.preset == 0))).isSome = false ∧
    4 ≤ (firQueue (List.replicate 4 firLoad)).presetWaiting ∧ (firQueue (List.replicate 4 firLoad)).atBoundary .chm 3 = true ∧
    (let s := firQueue [firLoad]
     s.cfg.bind (fun c => c.presets.find? (fun r => r.array == 63 && r.preset == 15)) = some ⟨63, 15, 64, 4⟩ ∧
     s.passage 5 64 = .forwarded ∧ s.mem.firstBad 64 16 = none ∧ s.presetHeader ⟨63, 15, 64, 4⟩ (s.mem.dramRead 64 16) = some (511, 1, 0) ∧
     (withDram s 64 [0]).presetHeader ⟨63, 15, 64, 4⟩ ((withDram s 64 [0]).mem.dramRead 64 16) = none ∧
     (put s [(R.XB_QUARANTINE_MASTER, 32)]).passage 5 64 = .refused) ∧ HostReaches fir 0x14200024 ∧ (0x00000001#32).toNat % 2 = 1 := by
  unfold HostReaches Reaches Through; decide +kernel

/-- A bank select that a finished load owes, on a filter locked as `k` says. -/
def firOwes (k : Nat) : State := ({ fir with chm := { fir.chm with owed := [(511, [1], 100, 2, false)] } } : State).setFilt 511 ⟨0, .ready, none, k⟩

theorem meets_presetStarts :
    (let s := firQueue [firHeaded, firLoad]
     firHeaded.headAt = some 0 ∧ firHeaded.startAt = none ∧ firHeaded.header = some (511, 1, 0) ∧ 0 < (s.boundary .chm).2 ∧
     (s.filt 511).fade = none ∧ (s.filt 511).locked = 0) := by decide +kernel

theorem meets_presetRuns :
    (∀ crc ∈ [0, crc32 (fir.mem.dramRead 80 12)],
      let s := (firQueue [firRuns crc]).setFilt 511 ⟨0, .loading, none, 0⟩
      s.chm.queue = [firRuns crc] ∧ (firRuns crc).spans = [((⟨511, 4, 0, 2, 8, 12⟩ : FilterRec).bankBase 1, 4)] ∧
      (s.filt 511).idle = .loading ∧ s.passage 5 (64 + 16) = .forwarded ∧ s.mem.firstBad (64 + 16) 12 = none) := by decide +kernel

theorem meets_presetOwes :
    (∀ k ∈ [0, 1],
      let s := firOwes k
      s.mirrors 2 = false ∧ s.chm.owed = [(511, [1], 100, 2, false)] ∧ 2 < (s.boundary .chm).2 ∧ (s.filterRec? 511).isSome = true ∧
      (s.filt 511).fade = none ∧ (s.filt 511).active ≠ 1 ∧ (s.filt 511).idle = .ready ∧ (s.filt 511).locked = k) := by
  decide +kernel

theorem meets_CoefficientWrites : (∀ n ∈ [4, 0xFFFFF], Reaches fir 1 (0x12000000 + 3 * n) ∧ fir.coefWritable n = true ∧
      3 * n / 2 ^ 20 = (3 * n + 2) / 2 ^ 20) ∧ fir.flmState = 0 ∧ fir.coefWritable 0 = false ∧
    (∀ p ∈ [(3, 1, 1), (2, 1, 1), (3, 0, 1), (3, 1, 0)],
      let s := put fir [(R.CHM_CW_SEL_FILTER, 511), (R.CHM_CW_SEL_BANK, p.2.2), (R.CHM_CW_SEL_TAP, p.1), (R.CHM_CW_SEL_AUTOINC, p.2.1)]
      HostReaches s 0x14200014 ∧ s.cwIndex = some (8 + 4 * p.2.2 + p.1) ∧
      s.filterRec? (s.fld R.CHM_CW_SEL_FILTER) = some ⟨511, 4, 0, 2, 8, 12⟩ ∧ s.coefWritable (8 + 4 * p.2.2 + p.1) = decide (p.2.2 = 1) ∧
      s.fld R.CHM_CW_SEL_AUTOINC = p.2.1 ∧ s.fld R.CHM_CW_SEL_TAP = p.1) ∧ HostReaches fir 0x14200110 := by
  unfold HostReaches Reaches Through; decide +kernel
/-! ### Peal planes and swaps -/

/-- A section of a test image. -/
def imgSec (type count size : Nat) (data : List Byte) : Sec := ⟨type, 0, 0, data.length, count, size, 1, crc32 data, data⟩

/-- SYSTEM, BUSES, SCHEDULE and CLOCK of a small image (R41, R42, R299): 96 kHz, blocks of 6, PLL_00 at 3 GHz, CTRL and DRAM powered, no
task. -/
def imgSecs : List Sec :=
  [imgSec 1 1 128 (leBytes 4 0x000106 ++ leBytes 4 3000000 ++ leBytes 2 0x803 ++ leBytes 1 0 ++ leBytes 1 1 ++
      (List.range 26).map (fun i => if i = 1 ∨ i = 25 ∨ i = 12 then (6 : Byte) else if i = 24 then 15 else 0) ++ leBytes 90 0),
   imgSec 2 0 8 [], imgSec 3 0 32 [],
   imgSec 0x60 1 512 (leBytes 0x104 0 ++ leBytes 2 1 ++ leBytes 2 10 ++ leBytes 16 0 ++ leBytes 2 1 ++ leBytes 0xE6 0)]

/-- Their bytes up to the signature block, with the header of R38 and the table of R39. -/
def imgHead : List Byte :=
  leBytes 4 0x4C414550 ++ leBytes 2 1 ++ leBytes 2 0x100 ++ leBytes 2 0x1024 ++ leBytes 1 0xB1 ++ leBytes 1 0 ++ leBytes 4 (0x400 + 0xC0) ++
    leBytes 4 0x100 ++ leBytes 2 4 ++ leBytes 2 0 ++ leBytes 4 0x400 ++ leBytes 0xE0 0

def imgBody : List Byte :=
  imgHead ++ leBytes 4 (crc32 imgHead) ++ (placeSecs 0x180 imgSecs).flatMap Sec.entry ++ (imgSecs.flatMap (fun x => x.data))

/-- A P-256 key (R43): its private half is 3. -/
def imgKey : List Byte :=
  4 :: beBytes 32 0x5ecbe4d1a6330a44c8f7ef951d4bf165e6c6b721efada985fb41661bc6e7fd6c ++
    beBytes 32 0x8734640c4998ff7e374b06ce1a64a2ecd82ab036384fb83d9a79b127a27d5032

/-- The image with its signature block. -/
def img : List Byte :=
  imgBody ++ leBytes 4 0x4E474953 ++ leBytes 4 0 ++ imgKey ++ leBytes 7 0 ++
    beBytes 32 0x51590b7a515140d2d784c85608668fdfef8c82fd1f5be52421554a0dc3d033ed ++
    beBytes 32 0x33146f5b7da95491905c539c96c8f3d0daf9fa9e926b3a3980bc6d0bc1f4cf1e ++ leBytes 48 0

/-- Bytes as cells of a memory from `a` on. -/
def cells : Nat → List Byte → Tbl Byte
  | _, [] => []
  | a, b :: bs => (a, b) :: cells (a + 1) bs

theorem find_cells (bs : List Byte) (a i : Nat) : Tbl.find (a + i) (cells a bs) = bs[i]? := by
  induction bs generalizing a i with
  | nil => simp [cells, Tbl.find]
  | cons b bs ih =>
    cases i with
    | zero => simp [cells, Tbl.find]
    | succ i =>
      have h := ih (a + 1) i
      rw [show a + 1 + i = a + (i + 1) by omega] at h
      simp [cells, Tbl.find, h]

theorem read_cells (m : Mems) (bs : List Byte) (a n : Nat) (h : m.dram = cells a bs) (hn : n ≤ bs.length) : m.dramRead a n = bs.take n := by
  apply List.ext_getElem
  · simp [Mems.dramRead, hn]
  · intro i h1 h2
    simp [Mems.dramRead] at h1
    simp [Mems.dramRead, Mems.dramByte, Tbl.get, h, find_cells, List.getElem?_eq_getElem (show i < bs.length by omega)]

theorem image_cells (s : State) (base : Nat) (h : s.mem.dram = cells base img) : s.imageAt base = img := by
  have l : img.length = 1216 := by decide +kernel
  have r : ∀ n, n ≤ 1216 → s.mem.dramRead base n = img.take n := fun n hn => read_cells _ img base n h (by omega)
  have k : leAt (img.take 0x10) 0x0C 4 = 1216 := by decide +kernel
  rw [State.imageAt, r 0x10 (by decide), k, r _ (by decide), show min (max 0x100 1216) 0x1800000 = img.length by rw [l]; decide, List.take_length]

/-- The chip with that image in plane B, in state VERIFYING, and the key's fingerprint in OTP slot 0 where `fused`. -/
def judging (fused : Bool) : State :=
  let s := put lab ((R.PEAL_STATUS_PLANE_A, plLive) :: (R.PEAL_STATUS_PLANE_B, plVerifying) :: (R.OTP_FP_STATE_PROGRAMMED, flag fused) ::
    (List.range 8).map (fun i => (R.OTP_FP_FP 0 i, leAt (sha256 imgKey) (4 * i) 4)))
  { s with mem := { s.mem with dram := cells 0x0E800000 img } }

/-- The chip in LOAD with that image in plane A. -/
def loading : State :=
  let s := put (judging true) [(R.SYS_MODE_MODE, 1), (R.PEAL_STATUS_PLANE_A, plVerifying), (R.PEAL_STATUS_PLANE_B, 0)]
  { s with cfg := none, mem := { s.mem with dram := cells 0x0D000000 img } }

set_option maxRecDepth 50000 in
theorem img_form : formatFailures img 0xB1 = [] ∧ (∀ b, integrityFailures img b [] = []) ∧ isDelta img = false ∧ ruleFailures (sectionsOf img) = [] := by
  have h : (indexed (sectionsOf img)).flatMap (fun p => failIf (crc32 p.2.data != p.2.crc) 0x0201 p.1 0) = [] := by decide +kernel
  exact ⟨by decide +kernel, fun b => by simp [integrityFailures, h], by decide +kernel, by decide +kernel⟩

set_option maxRecDepth 50000 in
theorem img_signed : (judging true).signatureFailures img = [] ∧ (judging false).signatureFailures img = [⟨0x0302, 0, 0⟩] ∧
    loading.signatureFailures img = [] := by decide +kernel

theorem judging_state : ∀ f, (judging f).plane (judging f).staged = plVerifying ∧ (judging f).staged = 1 ∧ (judging f).peal.delta = false ∧
    (judging f).mode ≠ .load ∧ (judging f).peal.boot = false ∧ (judging f).mem.dramBad = [] := by
  intro f; cases f <;> decide +kernel

theorem loading_state : loading.plane loading.staged = plVerifying ∧ loading.staged = 0 ∧ loading.peal.delta = false ∧ loading.mode = .load ∧
    loading.cfg = none ∧ loading.mem.dramBad = [] := by decide +kernel

theorem verdict_passes (s : State) (base : Nat) (im : List Byte) (a : s.imageAt base = im) (f1 : formatFailures im 0xB1 = [])
    (f2 : integrityFailures im base s.mem.dramBad = []) (g : s.signatureFailures im = []) (f3 : isDelta im = false)
    (f4 : ruleFailures (sectionsOf im) = []) : (s.verdictFull base).cfg = some (cfgOf (sectionsOf im)) := by
  have o : s.ownFailures base im = [] := by
    unfold State.ownFailures
    rw [f1, f2, g]; rfl
  unfold State.verdictFull
  rw [a]
  dsimp only
  rw [o, f4, f3]
  rfl

theorem verdict_fails (s : State) (base : Nat) (im : List Byte) (f : Failure) (a : s.imageAt base = im) (f1 : formatFailures im 0xB1 = [])
    (f2 : integrityFailures im base s.mem.dramBad = []) (g : s.signatureFailures im = [f]) : s.verdictFull base = Verdict.no [f] := by
  have o : s.ownFailures base im = [f] := by
    unfold State.ownFailures
    rw [f1, f2, g]; rfl
  unfold State.verdictFull
  rw [a]
  dsimp only
  rw [o]

theorem meets_Verdicts : ((judging true).verdictFull (planeBase (judging true).staged)).cfg = some (cfgOf (sectionsOf img)) ∧
    (loading.verdictFull (planeBase loading.staged)).cfg = some (cfgOf (sectionsOf img)) ∧
    (judging false).verdictFull (planeBase (judging false).staged) = Verdict.no [⟨0x0302, 0, 0⟩] := by
  obtain ⟨f1, f2, f3, f4⟩ := img_form
  rw [(judging_state true).2.1, (judging_state false).2.1, loading_state.2.1, show planeBase 1 = 0x0E800000 from by decide,
    show planeBase 0 = 0x0D000000 from by decide]
  exact ⟨verdict_passes _ _ _ (image_cells _ _ rfl) f1 (by rw [(judging_state true).2.2.2.2.2]; exact f2 _) img_signed.1 f3 f4,
    verdict_passes _ _ _ (image_cells _ _ rfl) f1 (by rw [loading_state.2.2.2.2.2]; exact f2 _) img_signed.2.2 f3 f4,
    verdict_fails _ _ _ _ (image_cells _ _ rfl) f1 (by rw [(judging_state false).2.2.2.2.2]; exact f2 _) img_signed.2.1⟩

/-- Plane A live, and plane B in state `k`. -/
def planeB (k : Nat) : State := put lab [(R.PEAL_STATUS_PLANE_A, plLive), (R.PEAL_STATUS_PLANE_B, k)]

set_option maxRecDepth 50000 in
theorem meets_PealLoads : HostReaches lab 0x14060010 ∧ lab.mayLoad = true ∧
    (∀ k ∈ [plLoading, plVerifying], HostReaches (planeB k) 0x14060010 ∧ (planeB k).staged = 1 ∧ (planeB k).plane 1 = k ∧
      (planeB k).passage 2 0x18000000 = .forwarded) ∧
    ({ lab.peal with copy := some 3 } : Peal).copy = some 3 ∧
    headerFailures ((List.range 0x100).map (fun i => Tbl.get (cells (0x1800000 * 3) (imgBody.take 0x100)) (0x1800000 * 3 + i) (0xFF : Byte))) 0xB1 = [] := by
  unfold HostReaches Reaches Through; decide +kernel

theorem meets_PlaneWrites : planeBase 1 ≤ 0x0FFFFFFF ∧ 0x0FFFFFFF + 1 ≤ planeBase 1 + 0x1800000 ∧ planeBase 0 = 0x0D000000 ∧
    (∀ a ∈ [0x0D000000, 0x0FFFFFFF], Through lab 0 a ∧ lab.lineProtected a = false) ∧ lab.domainOn 12 = true ∧
    (∀ k ∈ [plLive, plArmed, plSwapping, plLoading, plEmpty, plVerifying, plVerified, plRejected, plModified], ∀ p < 2,
      (put lab [(planeFld p, k)]).plane p = k) := by unfold Through; decide +kernel

/-- A swap armed for block `at`, and the fade of one under way. -/
def swapArmed (dip : Bool) (at_ : Nat) : State :=
  { put (planeB plArmed) [(R.PEAL_SWAP_STATUS_STATE, swFill), (R.PEAL_FILL_REMAIN_BLOCKS, 2)] with
    peal := { lab.peal with armed := some ⟨at_, 4, dip, labCfg, 90, false, false⟩ } }
def fading (swap : Nat) (hold : Bool) : State :=
  { put (planeB plSwapping) [(R.PEAL_SWAP_STATUS_STATE, swap)] with
    peal := { lab.peal with fade := some ⟨96, 4, 96, hold, hold, [], [], false⟩ } }

/-- The same with an uncorrectable error in the staged image. -/
def swapSpoilt : State :=
  let s := withDram (swapArmed false 110) (planeBase 1) (leBytes 12 0 ++ leBytes 4 1216)
  { s with mem := { s.mem with dramBad := [planeBase 1 / 8] } }

theorem meets_PlaneSwaps : (∀ d, (swapArmed d 100).cfg = some labCfg ∧ (swapArmed d 100).peal.armed = some ⟨100, 4, d, labCfg, 90, false, false⟩ ∧
      100 ≤ (swapArmed d 100).blk.index ∧ (swapArmed d 100).stagedError = none ∧ (swapArmed d 100).livePlane < 2) ∧
    (∀ n ∈ [102, 103], HostReaches (swapArmed false n) 0x140600A8 ∧
      (swapArmed false n).peal.armed = some ⟨n, 4, false, labCfg, 90, false, false⟩) ∧
    (swapArmed false 102).blk.index + 2 = 102 ∧
    (∀ s ∈ [swapArmed false 110, swapSpoilt], s.swapState = swFill ∧ s.fld R.PEAL_FILL_REMAIN_BLOCKS = 2 ∧ s.chmIdleForSwap = true ∧
      s.peal.armed.isSome = true ∧ s.cfg.isSome = true) ∧
    (swapArmed false 110).stagedError = none ∧ swapSpoilt.stagedError.isSome = true ∧
    (let s := fading swHold true
     s.peal.fade = some ⟨96, 4, 96, true, true, [], [], false⟩ ∧ s.swapState = swHold ∧ s.cfg = some labCfg ∧
      s.fld (R.PLL_STATUS_LOCKED 0) = 1 ∧ s.fld (R.PLL_STATUS_LOCKED 1) = 1 ∧ labCfg.sys.rateB = 0 ∧ (∀ u < 32, s.unitState u ≠ stPreroll)) ∧
    (let s := fading swXfade false
     s.peal.fade = some ⟨96, 4, 96, false, false, [], [], false⟩ ∧ s.swapState = swXfade ∧ 96 + 4 ≤ s.blk.index ∧
      s.plane (1 - s.livePlane) = plSwapping) := by
  unfold HostReaches Reaches Through; decide +kernel

/-! ### Mallet -/

/-- Core `g` in a task of cost 2,000 in block 99, at the bundle of words `w`, `imm` at address 100. -/
def mallet (g w imm : Nat) (f : Core → Core) : State :=
  let s := here.setCore g (f { Core.idle with pc := 100, task := some ⟨0, false, 2000, 99⟩ })
  { s with mal := { s.mal with prog := [(16384 * g + 100, w), (16384 * g + 101, imm)] } }

/-- Whether a task is running with fewer cycles than its cost. -/
def inCost (o : Option RunTask) (n : Nat) : Bool := match o with | none => false | some t => decide (n < t.cost)

theorem inCost_iff (o : Option RunTask) (n : Nat) : (∃ t, o = some t ∧ n < t.cost) ↔ inCost o n = true := by
  cases o <;> simp [inCost]

/-- `Runs`, to evaluate. -/
def running (s : State) (g : Nat) (b : Bundle) : Bool :=
  let c := s.core g
  decide (inCost c.task (s.fld (R.CCR_CYCLES_COUNT g)) = true ∧ c.stall = .none ∧ c.closing = none ∧ (c.loops = [] ∨ c.rd 49 ≠ c.pc) ∧
    c.waited = false ∧ c.pend = [] ∧ s.fld (R.CCR_TIMER_COUNT g) = 0 ∧
    decodeBundle (s.progWord g c.pc) (s.progWord g (c.pc + 1)) = some b)

theorem runs_iff (s : State) (g : Nat) (b : Bundle) : Runs s g b ↔ running s g b = true := by
  unfold Runs running; simp only [inCost_iff, decide_eq_true_eq]

/-- A CTL bundle of code `op` with the bits `x`. -/
def ctl (op x : Nat) : Nat := op * 2 ^ 24 + x

theorem meets_ControlTransfers : ∀ g ∈ [0, 63], g < 64 ∧ ∀ cc ∈ [0, 12],
    Ready (mallet g (ctl 1 (cc * 2 ^ 20 + 16383)) 0 id) g (.bra cc 16383) ∧
    Ready (mallet g (ctl 4 (cc * 2 ^ 20 + 15 * 2 ^ 16)) 0 id) g (.jmp cc 15) ∧
    (∀ w ∈ [(ctl 2 (cc * 2 ^ 20 + 16383), Bundle.call cc 16383), (ctl 5 (cc * 2 ^ 20 + 15 * 2 ^ 16), .callr cc 15)],
      Ready (mallet g w.1 0 fun c => { c with stack := List.replicate 15 (1, 2) }) g w.2) ∧
    (∀ w ∈ [(ctl 3 (cc * 2 ^ 20), Bundle.ret cc), (ctl 7 0, .rtin)],
      Ready (mallet g w.1 0 fun c => { c with stack := [(16383, 0xFFF)] }) g w.2) ∧
    Ready (mallet g (ctl 6 0) 0 id) g .rtif ∧ Ready (mallet g (ctl 8 0) 0 id) g .tend := by
  unfold Ready; simp -zeta only [runs_iff]; decide +kernel

theorem meets_SlotsLoopsRepeatsAndWaits : ∀ g ∈ [0, 63], g < 64 ∧
    (∀ k ∈ [(0, 0), (2, 0), (1, 0), (0, 2), (0, 1)], Runs (mallet g 0 0 fun c => { c with slots := k.1, rpt := k.2 }) g .nop) ∧
    (∀ a ∈ [AfterSlots.jump 16383, .fall, .rtin 16383 65535, .rtif 16383 0xFFFF, .tend],
      let s := mallet g 0 0 fun c => { c with slots := 1, after := a, shadow := [(5, 8), (18, 10)] }
      Runs s g .nop ∧ (s.core g).slots = 1 ∧ (s.core g).rpt = 0 ∧ (s.core g).after = a ∧ Tbl.sorted (s.core g).regs = true ∧
      Tbl.sorted (s.core g).shadow = true ∧ (s.core g).posted = [] ∧ (s.core g).task = some ⟨0, false, 2000, 99⟩ ∧ s.cfg = some labCfg) ∧
    (∀ b ∈ labCfg.taskBuses 0, b ∈ ([] : List Nat)) ∧
    (let c := (mallet g 0xE0000000 0 id).core g
     c.stall = .none ∧ c.closing = none ∧ c.slots = 0 ∧ c.rpt = 0 ∧ c.waited = false ∧ c.pend = [] ∧ c.loops = [] ∧ c.pc < 16384) ∧
    decodeBundle ((mallet g 0xE0000000 0 id).progWord g 100) ((mallet g 0xE0000000 0 id).progWord g 101) = none := by
  simp -zeta only [runs_iff]; decide +kernel

theorem meets_loops : ∀ g ∈ [0, 63],
    (∀ la ∈ [101, 250], ∀ n ∈ [1, 1024], (mallet g (ctl 9 ((n - 1) * 2 ^ 14 + la)) 0 id).walkTo g la 16384 101 = la ∧
      Ready (mallet g (ctl 9 ((n - 1) * 2 ^ 14 + la)) 0 id) g (.loopi n la)) ∧
    (let s := mallet g (ctl 10 (3 * 2 ^ 18 + 101)) 0 fun c => (c.wr 3 65535);
      s.walkTo g 101 16384 101 = 101 ∧ Ready s g (.loopr 3 101) ∧ 0 < (s.core g).rd 3 % 65536) ∧
    (let s := mallet g (6 * 2 ^ 29 + 2 ^ 24 + 102) 65535 id;
      s.walkTo g 102 16384 102 = 102 ∧ Ready s g (.loopl 65536 102)) ∧
    Ready (mallet g (ctl 11 0) 0 fun c => { c.wr 49 200 with loops := [(0, 0, 90)] }) g .leave ∧
    (∀ n ∈ [1, 7],
      let c := (mallet g 0 0 fun c => { (c.wr 49 99).wr 48 n with closing := some 99, loops := [(0, 102, 90)] }).core g
      c.task.isSome = true ∧ c.slots = 0 ∧ c.stall = .none ∧ c.closing = some 99 ∧ c.loops = [(0, 102, 90)] ∧ c.rd 49 = 99 ∧ c.rd 48 = n) ∧
    Ready (mallet g (ctl 11 0) 0 fun c => { c.wr 49 200 with loops := [(0, 0, 90)] }) g .leave := by
  unfold Ready; simp -zeta only [runs_iff]; decide +kernel

theorem meets_repeatsAndWaits : ∀ g ∈ [0, 63],
    (∀ n ∈ [1, 256], Ready (mallet g (ctl 12 (n - 1)) 0 id) g (.rpti n)) ∧ Ready (mallet g (ctl 13 (3 * 2 ^ 18)) 0 id) g (.rptr 3) ∧
    (∀ ps ∈ [[], [⟨0, 0, 0, false, false, 0, false, 99⟩]], Ready (mallet g (ctl 14 0) 0 fun c => { c with posted := ps }) g .bsync) ∧
    Ready (mallet g (ctl 15 0) 0 id) g .wait := by
  unfold Ready; simp -zeta only [runs_iff]; decide +kernel

/-- Bus 8191 of domain A, written by task 0. -/
def busCfg : Cfg := { labCfg with buses := [⟨8191, 0, false, false, 0⟩] }

/-- The slots `sls` have their addresses, `near` of them in local memory, and at most one stores. -/
def addressed (s : State) (g near : Nat) (sls : List Slot) : Bool :=
  decide ((match (s.core g).slotAddrs sls with
    | .error _ => false
    | .ok (ds, _) => (ds.filter fun d => match d.2 with | .loc _ => true | _ => false).length == near) = true ∧
  (s.core g).posted = [] ∧ (sls.filter (·.store)).length ≤ 1)

theorem meets_BusTransfers : (∀ g ∈ [0, 63], ∀ kind ∈ [0, 1, 2],
      let s0 := mallet g (ctl (16 + kind) (15 * 2 ^ 20 + 8191)) 0 fun c => (c.wr 31 0xFFFF);
      let s1 := mallet g (ctl (16 + kind) (15 * 2 ^ 20 + 2 ^ 19 + 2 ^ 15 + 8191)) 0 fun c => ((c.wr 31 0xFFFF).wr 17 8192);
      Ready s0 g (.bus kind 15 false 0 8191) ∧ labCfg.bus? 8191 = none ∧
      Ready s1 g (.bus kind 15 true 1 8191) ∧ (8191 + (s1.core g).rd 17 % 8192) % 8192 = 8191 ∧
      ∀ s2 ∈ [s0, s1],
        let s := { s2 with cfg := some busCfg, blk := { s2.blk with ended := [(0, false)] } };
        (Ready s g (.bus kind 15 false 0 8191) ∨ Ready s g (.bus kind 15 true 1 8191)) ∧
        busCfg.bus? 8191 = some ⟨8191, 0, false, false, 0⟩ ∧ s.writerEnded false 8191 = true ∧ (s.core g).rd 31 < 0x10000 ∧
        (s.core g).posted.length < 8) := by
  unfold Ready; simp -zeta only [runs_iff]; decide +kernel

theorem meets_transfersDone :
    (∀ g ∈ [0, 63], ∀ kind ∈ [0, 1, 2],
      let q : Posted := ⟨kind, 8191, 0xFFF9, false, false, 0, false, 99⟩
      let s := { mallet g 0 0 (fun c => { c with posted := [q, q] }) with cfg := some busCfg }
      (s.core g).posted = [q, q] ∧ (s.core g).stall = .none ∧ (s.binWords q).length = 7) := by
  decide +kernel

/-- The exception cause that the slots `sls` raise by their addresses; 0 where they raise none. -/
def refusing (c : Core) (sls : List Slot) : Nat := match c.slotAddrs sls with | .error e => e | .ok _ => 0

/-- A MAC2 bundle of operation `op`, X0 times Y1 and X3 times Y2, into the accumulators 0 and 7, with the slot bits `x`. -/
def mac (op x : Nat) : Nat := 2 ^ 29 + op * 2 ^ 27 + 1 * 2 ^ 23 + 3 * 2 ^ 21 + 2 * 2 ^ 19 + 7 * 2 ^ 13 + x

/-- P0 to P7 at the edges of local and shared memory. -/
def pointing (c : Core) : Core := (((c.wr 16 0xFFFF).wr 17 0x400000).wr 18 0x43FFFF).wr 22 0

theorem meets_DualMultiplies : ∀ g ∈ [0, 63],
    ∀ e ∈ [(0, MacOp.mla2), (1, .mlas), (2, .mul2), (3, .mls2)],
      Ready (mallet g (mac e.1 (7 * 2 ^ 7 + 7)) 0 id) g (.mac2 e.2 0 1 3 2 0 7 none none) ∧
      Ready (mallet g (mac e.1 (7 * 2 ^ 10 + 6 * 2 ^ 7 + 1 * 2 ^ 3 + 2)) 0 pointing) g
        (.mac2 e.2 0 1 3 2 0 7 (some ⟨false, 7, 6, 3⟩) (some ⟨false, 1, 2, 3⟩)) ∧
      addressed (mallet g 0 0 pointing) g 1 [⟨false, 7, 6, 3⟩, ⟨false, 1, 2, 3⟩] = true ∧
      Ready (mallet g (mac e.1 (7 * 2 ^ 10 + 1 * 2 ^ 7 + 64 + 7 * 2 ^ 3)) 0 pointing) g
        (.mac2 e.2 0 1 3 2 0 7 (some ⟨false, 7, 1, 3⟩) (some ⟨true, 15, 0, 3⟩)) ∧
      addressed (mallet g 0 0 pointing) g 1 [⟨false, 7, 1, 3⟩, ⟨true, 15, 0, 3⟩] = true := by
  unfold Ready; simp -zeta only [runs_iff]; decide +kernel

/-- An ALU bundle of operation `op` with the source bits `src`, into accumulator 7 under the condition `cc`, with the slot bits `x`. -/
def alu (op src cc x : Nat) : Nat := 2 * 2 ^ 29 + op * 2 ^ 24 + 7 * 2 ^ 21 + src * 2 ^ 16 + cc + x

theorem meets_AccumulatorOperations : ∀ g ∈ [0, 63],
    ((Core.idle).cond 0 = true ∧ (Core.idle).cond 1 = false) ∧ (∀ cc ∈ [0, 1],
      ∀ e ∈ [(0, 0, AluOp.nop), (1, 0, .zero), (2, 24, .copy 6), (3, 27, .adds 6 3), (4, 24, .subs 6 0), (5, 24, .negt 6), (6, 24, .magn 6),
          (7, 31, .shla 31), (8, 1, .shra 1), (9, 0, .rndh), (10, 24, .maxs 6), (11, 24, .mins 6), (12, 24, .comp 6), (13, 0, .test),
          (14, 24, .and 6), (15, 24, .ior 6), (16, 24, .xor 6), (17, 14, .mul 1 3), (18, 24, .mula 3 0), (19, 0, .muls 0 0)],
        Ready (mallet g (alu e.1 e.2.1 cc 0) 0 id) g (.alu e.2.2 7 none cc) ∧
        Ready (mallet g (alu e.1 e.2.1 cc (2 ^ 15 + 2 ^ 14 + 15 * 2 ^ 10 + 2 * 2 ^ 6 + 2 ^ 4)) 0 pointing) g
          (.alu e.2.2 7 (some ⟨true, 15, 2, 1⟩) cc) ∧
        Ready (mallet g (alu e.1 e.2.1 cc (2 ^ 15 + 14 * 2 ^ 10 + 6 * 2 ^ 6 + 2 * 2 ^ 4)) 0 pointing) g
          (.alu e.2.2 7 (some ⟨false, 14, 6, 2⟩) cc)) ∧
    addressed (mallet g 0 0 pointing) g 0 [⟨true, 15, 2, 1⟩] = true ∧ addressed (mallet g 0 0 pointing) g 1 [⟨false, 14, 6, 2⟩] = true := by
  unfold Ready; simp -zeta only [runs_iff]; decide +kernel

theorem meets_MovesLoadsAndStores : ∀ g ∈ [0, 63],
    (∀ rd ∈ [0, 7, 8, 15, 16, 50, 51], ∀ imm ∈ [0, 65535],
      Ready (mallet g (3 * 2 ^ 29 + rd * 2 ^ 20 + imm) 0 id) g (.ldi rd imm) ∧
      Ready (mallet g (6 * 2 ^ 29 + rd * 2 ^ 18) (65536 * imm) id) g (.ldl rd (65536 * imm)) ∧
      Ready (mallet g (3 * 2 ^ 29 + 2 ^ 26 + rd * 2 ^ 20 + 9 * 2 ^ 14) 0 id) g (.move rd 9)) ∧
    (∀ p ∈ [0, 7], Ready (mallet g (3 * 2 ^ 29 + 2 * 2 ^ 26 + p * 2 ^ 22 + 0x8000) 0 id) g (.addp p (-32768)) ∧
      Ready (mallet g (6 * 2 ^ 29 + 2 * 2 ^ 24 + p * 2 ^ 20) 0xFFFFFF id) g (.addpl p 0xFFFFFF)) ∧
    (∀ i ∈ [0, 16, 32, 63], ccrDefined i = true ∧ ∀ a ∈ [0, 7],
      Ready (mallet g (3 * 2 ^ 29 + 3 * 2 ^ 26 + a * 2 ^ 22 + i * 2 ^ 14) 0 id) g (.movcFrom a i) ∧
      Ready (mallet g (3 * 2 ^ 29 + 3 * 2 ^ 26 + 2 ^ 25 + a * 2 ^ 22 + i * 2 ^ 14) 0 id) g (.movcTo a i)) := by
  unfold Ready; simp -zeta only [runs_iff]; decide +kernel

theorem meets_loadsAndStores : ∀ g ∈ [0, 63],
    (∀ p ∈ [0, 1, 2, 6], ∀ mod ∈ [0, 3], ∀ r ∈ [0, 15, 16, 51],
      Ready (mallet g (3 * 2 ^ 29 + 4 * 2 ^ 26 + r * 2 ^ 19 + p * 2 ^ 15 + mod * 2 ^ 13) 0 pointing) g (.ldr r p mod) ∧
      Ready (mallet g (3 * 2 ^ 29 + 4 * 2 ^ 26 + 2 ^ 25 + r * 2 ^ 19 + p * 2 ^ 15 + mod * 2 ^ 13) 0 pointing) g (.str r p mod) ∧
      ∀ st ∈ [false, true], addressed (mallet g 0 0 pointing) g (if p = 0 ∨ p = 6 then 1 else 0) [⟨st, r, p, mod⟩] = true) ∧
    (let s := mallet g (3 * 2 ^ 29 + 4 * 2 ^ 26 + 7 * 2 ^ 15) 0 fun c => (c.wr 23 0x10000);
      refusing (s.core g) [⟨false, 0, 7, 0⟩] = 6 ∧ Ready s g (.ldr 0 7 0)) ∧
    Ready (mallet g (3 * 2 ^ 29 + 5 * 2 ^ 26 + 7 * 2 ^ 23 + 2 ^ 16 + 2 ^ 15 + 15 * 2 ^ 11 + 7 * 2 ^ 5 + 2 ^ 7) 0 pointing) g
      (.mov2 ⟨false, 7, 0, 0⟩ (some ⟨true, 15, 2, 3⟩)) ∧
    addressed (mallet g 0 0 pointing) g 1 [⟨false, 7, 0, 0⟩, ⟨true, 15, 2, 3⟩] = true ∧
    (∀ r ∈ [15, 51, 0x40], ∀ held ∈ [none, some 0x801234], let s := mallet g 0 0 fun c => { c with stall := .slow [(r, 0x3FFFF, held)] };
      (s.core g).stall = .slow [(r, 0x3FFFF, held)] ∧ (s.core g).after = .fall ∧ s.fld (R.CCR_TIMER_COUNT g) = 0) ∧
    (let q : Posted := ⟨0, 8191, 0xFFF9, false, false, 0, false, 99⟩
     let s := { mallet g (3 * 2 ^ 29 + 4 * 2 ^ 26) 0 (fun c => { pointing c with posted := [q] }) with cfg := some busCfg }
     (s.core g).posted = [q] ∧ Ready s g (.ldr 0 0 0) ∧ q.word ≤ (s.core g).rd 16 ∧ (s.core g).rd 16 < q.word + (s.binWords q).length) := by
  unfold Ready; simp -zeta only [runs_iff]; decide +kernel

theorem meets_scaling : ∀ g ∈ [0, 63],
    Ready (mallet g (4 * 2 ^ 29 + 2 ^ 26 + 6 * 2 ^ 23 + 1 * 2 ^ 20) 0 pointing) g (.bexp (some 6) (some 1)) ∧
    addressed (mallet g 0 0 pointing) g 1 [⟨false, 0x40, 6, 3⟩, ⟨false, 0x40, 1, 3⟩] = true ∧
    Ready (mallet g (4 * 2 ^ 29 + 2 * 2 ^ 26) 0 id) g .bscale ∧ Ready (mallet g (4 * 2 ^ 29 + 3 * 2 ^ 26) 0 id) g .beclr ∧
    Ready (mallet g (4 * 2 ^ 29 + 7 * 2 ^ 23 + 7 * 2 ^ 20 + 3 * 2 ^ 18 + 7 * 2 ^ 15 + 6 * 2 ^ 12 + 15 * 2 ^ 8 + 1 * 2 ^ 5) 0 pointing) g
      (.bfly 7 7 3 (some ⟨false, 7, 6, 3⟩) (some ⟨true, 15, 1, 3⟩)) ∧
    addressed (mallet g 0 0 pointing) g 1 [⟨false, 7, 6, 3⟩, ⟨true, 15, 1, 3⟩] = true := by
  unfold Ready; simp -zeta only [runs_iff]; decide +kernel

/-- The MUL2 bundle of the manual's worked butterfly (07_mallet_instructions.md). -/
theorem test_mul2_word : decodeBundle 0x300824D3 0 =
    some (.mac2 .mul2 0 0 0 1 0 1 (some ⟨false, 1, 1, 3⟩) (some ⟨true, 10, 3, 3⟩)) := by decide +kernel

/-- Core `g` in a task with source `src` pending and enabled, fast where `fast`, and SR at `sr`. -/
def interrupted (g src fast sr : Nat) : State :=
  put (here.setCore g { Core.idle.wr 50 sr with pc := 16383, task := some ⟨0, false, 2000, 99⟩, stack := List.replicate 15 (1, 2) })
    [(R.CCR_INT_PEND_PEND g, 2 ^ src), (R.CCR_INT_EN_EN g, 2 ^ src), (R.CCR_INT_FAST_FAST g, fast * 2 ^ src)]

/-- A core stalled as `st` says, with TIMER at `n` and CYCLES at `k`. -/
def stalled (g : Nat) (st : Stall) (n k : Nat) : State :=
  put (mallet g 0 0 (fun c => { c with stall := st })) [(R.CCR_TIMER_COUNT g, n), (R.CCR_CYCLES_COUNT g, k), (R.CCR_INT_EN_EN g, 0x340)]

/-- Task data of core 3 that PARAMETER words at 0xFFFE and 0xFFFF hold, and a task on that core. -/
def paramCfg : Cfg := { labCfg with datas := [⟨3, true, false, 0xFFFE, [1#24, 2#24], false⟩], tasks := [⟨0, 8, 1, 100, 3, true, false, []⟩] }

theorem meets_MalletInterruptsDmaAndParameters :
    (∀ g ∈ [0, 63], ∀ src ∈ [0, 15], let s := interrupted g src 1 0x8000;
      s.acceptable g = some (true, src) ∧ (s.core g).pend = [] ∧ (s.core g).closing = none ∧ s.fld (R.CCR_TIMER_COUNT g) = 0 ∧
      (s.core g).pc < 16384 ∧ (s.core g).rd 50 < 65536 ∧ Tbl.sorted (s.core g).shadow = true ∧ Tbl.sorted (s.core g).regs = true) ∧
    (∀ g ∈ [0, 63], ∀ src ∈ [0, 15], let s := interrupted g src 0 0x4000;
      s.acceptable g = some (false, src) ∧ (s.core g).pend = [] ∧ (s.core g).closing = none ∧ s.fld (R.CCR_TIMER_COUNT g) = 0 ∧
      (s.core g).stack.length < 16 ∧ (s.core g).rd 50 < 65536) ∧
    (∀ g ∈ [0, 63], HostReaches lab (ccrAddr g 0x0F) ∧ ∀ m ∈ [0, 1], Reaches lab m (ccrAddr g 0x10)) ∧
    (∀ cl ∈ [0, 3], HostReaches lab (0x14800008 + 0x400000 * cl)) := by
  unfold HostReaches Reaches Through; decide +kernel

theorem meets_timers : ∀ g ∈ [0, 63], Ready (mallet g 0 0 id) g .nop ∧ HostReaches (stalled g .wait 5 10) (ccrAddr g 0x0F) ∧
    ∀ st ∈ [Stall.wait, .bsync, .busFull, .tend], ∀ p ∈ [(5, 1995), (1, 0)],
      let s := stalled g st p.1 p.2
      (s.core g).task = some ⟨0, false, 2000, 99⟩ ∧ (s.core g).stall = st ∧ s.fld (R.CCR_TIMER_COUNT g) = p.1 ∧
      s.fld (R.CCR_CYCLES_COUNT g) = p.2 ∧ (∀ b ∈ [6, 8, 9], bit (s.fld (R.CCR_INT_EN_EN g)) b = 1) := by
  unfold HostReaches Reaches Through Ready; simp -zeta only [runs_iff]; decide +kernel

/-- Core 63 with channel 3 carrying out the transfer `d`. -/
def copying (d : Dma) : State := here.setCore 63 { Core.idle with dma := [(3, d)] }

theorem meets_malletDma :
    bit (0xFFFFFFFF#32).toNat 31 = 1 ∧ lab.fld (R.CCR_DMA_STATUS_BUSY 63 3) = 0 ∧
    (∀ d ∈ [Dma.mk 0xFFFD 0x0CFFFFF4 false false 3, ⟨0, 0, true, false, 1⟩, ⟨0xFFFB, 0x100, false, true, 5⟩, ⟨0, 0x104, true, true, 5⟩],
      let n := (if d.pack then 3 else 4) * d.count
      Tbl.find 3 ((copying d).core 63).dma = some d ∧ d.local0 + d.count ≤ 0x10000 ∧ PlainDram (copying d) d.ext (4 * ((n + 3) / 4)) ∧
      ∀ i < (n + 3) / 4, Through (copying d) 9 (d.ext + 4 * i)) ∧
    (let s := put (copying ⟨0, 0, true, false, 1⟩) [(R.XB_QUARANTINE_MASTER, 0x3C0)];
      s.hif.queue = [] ∧ ∀ i < 1, s.passage 9 (4 * i) = .refused) := by
  unfold Through PlainDram; decide +kernel

/-- The data window of clusters 0 and 3 aimed at target `k` and page `p`. -/
def windowed (k p : Nat) : State := put (withCfg paramCfg) [(R.MAL_CL_DWIN_SEL_TARGET 0, k), (R.MAL_CL_DWIN_SEL_TARGET 3, k), (R.MAL_CL_DWIN_SEL_PAGE 3, p)]

theorem meets_malletParameters :
    (∀ k ∈ [0, 62, 63], let s := withCfg paramCfg; let t := { s with mal := { s.mal with applied := [(3, k)] } };
      t.atBoundary (.mal 0) 1 = true ∧ (∀ j < 2, t.isParam 3 (0xFFFE + j) = true) ∧ Tbl.get t.mal.applied 3 0 = k ∧ t.isParam 3 0xFFFD = false) ∧
    (let s := withCfg paramCfg; ({ s with blk := { s.blk with ended := [(0, false)] } } : State).atBoundary (.mal 0) 1 = false) ∧
    (∀ m ∈ [0, 1], Reaches (windowed 3 0) m (0x14B00000 + 4 * 0xFFFF)) ∧
    (windowed 3 0).fld (R.MAL_CL_DWIN_SEL_TARGET 0) = 3 ∧ (windowed 3 0).isParam 3 0xFFFF = true ∧ (windowed 3 0).isParam 3 0 = false ∧
    (windowed 3 0).held = [] ∧ (windowed 16 3).fld (R.MAL_CL_DWIN_SEL_TARGET 3) = 16 ∧ (windowed 16 3).fld (R.MAL_CL_DWIN_SEL_PAGE 3) < 4 ∧
    16 < (windowed 17 0).fld (R.MAL_CL_DWIN_SEL_TARGET 3) ∧ lab.flmState = 0 ∧
    (let s := { windowed 3 0 with held := List.replicate 256 (held1 (.mal 0) (.paramWrite 3 0xFFFE 1)), heldNext := 5 };
      256 ≤ (s.held.filter (fun h => h.eng == .mal 0 && (match h.cmd with | .paramWrite .. => true | _ => false))).length ∧
      (∀ h ∈ s.held, h.id < s.heldNext)) ∧
    (∀ a ∈ [0x14900000, 0x14A00000, 0x156FFFFC, 0x1560F3FC], Reaches lab 0 a) ∧ ∀ cl ∈ [0, 3], HostReaches lab (0x14800024 + 0x400000 * cl) := by
  unfold HostReaches Reaches Through; decide +kernel

/-! ### The delay pool -/

/-- Line 2047 of capacity 8 units of the pool, at 0x100000, and the pool's task. -/
def lineCfg : Cfg := { labCfg with lines := [⟨2047, 0, 1, 0x100000, 8, 0, 0⟩], tasks := [⟨0, 12, 4, 100, 0, true, false, []⟩] }

/-- Line 2047 with a fade that has run. -/
def lineFades : State := (withCfg lineCfg).setLine 2047 ⟨9, 0, some (0, 16, 16), 0⟩

theorem meets_DelayPoolCommands : (withCfg lineCfg).dplPresent = true ∧ lab.dplPresent = false ∧ here.atBoundary .dpl 4 = true ∧
    (withCfg lineCfg).atBoundary .dpl 4 = true ∧ lineFades.atBoundary .dpl 4 = true ∧
    ({ withCfg lineCfg with blk := { (withCfg lineCfg).blk with ended := [(0, false)] } } : State).atBoundary .dpl 4 = false ∧
    (∀ d ∈ [0, 256, 319, 192], (withCfg lineCfg).delayOk 2047 d = true ∧ lineFades.delayOk 2047 d = true) ∧
    (∀ d ∈ [1, 320], (withCfg lineCfg).delayOk 2047 d = false) ∧
    (withCfg lineCfg).delayOk 0 0 = false ∧ ((withCfg lineCfg).lineSt 2047).fade = none ∧ (withCfg lineCfg).fld (R.DPL_LINE1_DELAY 2047) = 0 ∧
    (lineFades.lineSt 2047).fade = some (0, 16, 16) ∧
    (put lineFades [(R.DPL_LINE0_PENDING 2047, 1)]).fld (R.DPL_LINE0_PENDING 2047) = 1 ∧
    HostReaches lab 0x14080014 ∧ HostReaches lab 0x14080044 ∧ (inMode 3).mode ≠ .test ∧ HostReaches (inMode 3) 0x1408000C ∧
    (inMode 5).mode = .test ∧ HostReaches (inMode 5) 0x1408000C ∧ lab.fld R.DPL_SCRUB_CTRL_PERIOD ≠ 0 ∧ lab.domainOn 12 = true ∧
    (put lab [(R.DPL_SCRUB_CTRL_PERIOD, 0)]).fld R.DPL_SCRUB_CTRL_PERIOD = 0 ∧
    (∀ m ∈ [0, 1], Reaches (withCfg lineCfg) m 0x100000) ∧ (withCfg lineCfg).flmState = 0 ∧ (withCfg lineCfg).lineProtected 0x100000 = true := by
  unfold HostReaches Reaches Through; decide +kernel

/-! ### Serial ports and AES3 transceivers -/

/-- Port `n`: TDM of 8 slots, `out`, of `clocking` and `domain`; transceiver `n` clocked as `clk` says. -/
def portRec (n : Nat) (out : Bool) (clocking domain : Nat) : PrtRec :=
  ⟨n, 100, out, 0, 8, 32, 24, clocking, domain, 0, 96000, n, true, false, 16, 16, 0xFF⟩
def aesRec (n clk : Nat) : AesRec := ⟨n, 200, true, clk, 0, 0, true, if clk = 1 then 2 else 0, 0, n, 202, 96000, 16, 16⟩

def portCfg (r : PrtRec) : Cfg := { labCfg with prts := [r] }

/-- A unit's record in force, its state, and how it runs. -/
def ported (r : PrtRec) (st : Nat) (d : PortDir) : State :=
  let s := (put (withCfg (portCfg r)) [(R.PRT_CFG_PRESENT r.index, 1), (R.PRT_MASK_ACTIVE_MASK r.index, 0x55)]).setUnit r.index d
  { s with gate := ⟨true, none⟩, ports := { s.ports with prtFmt := [(r.index, r)] } }.setUnitState r.index st

/-- A unit that has run at level 1 with frames of blocks around 100 in its buffer. -/
def playing : PortDir := { PortDir.idle with level := 1, ramp := 4, buf := [⟨600, [1, -2, 3, 4, 5, 6, 7, 8], []⟩, ⟨601, [1, -2, 3, 4, 5, 6, 7, 8], []⟩] }

/-- The lab with port 15 and transceiver 7 defined, and units that `f` changes. -/
def portLab (f : PortDir → PortDir) : State :=
  let s := put (withCfg { labCfg with prts := [portRec 15 true 0 0], aess := [aesRec 7 0] })
    [(R.PRT_CFG_PRESENT 15, 1), (R.AES_CFG_RX_PRESENT 7, 1), (R.AES_CFG_TX_PRESENT 7, 1)]
  (s.setUnit 15 (f (s.unit 15))).setUnit 31 (f (s.unit 31))

theorem meets_PortControl :
    (∀ n ∈ [0, 15], HostReaches lab (0x14090008 + 256 * n) ∧ HostReaches lab (0x14090010 + 256 * n) ∧
      lab.fld (R.PRT_CFG_PRESENT n) ≠ 1 ∧ (put lab [(R.PRT_CFG_PRESENT n, 1)]).fld (R.PRT_CFG_PRESENT n) = 1) ∧
    (∀ n ∈ [0, 7], HostReaches lab (0x140A0008 + 512 * n) ∧ (put lab [(R.AES_CFG_TX_PRESENT n, 1)]).fld (R.AES_CFG_TX_PRESENT n) = 1) ∧
    (let s := ported (portRec 15 false 0 0) stRunning { PortDir.idle with pendMask := some (0xFFFFFFFF, 0), count := 7 };
      (s.unit 15).pendMask = some (0xFFFFFFFF, 0) ∧ clocksRun (s.unitState 15) = true) := by
  unfold HostReaches Reaches Through; decide +kernel

theorem meets_portCommands :
    ((portLab id).cfg.bind (fun c => c.prt? 15)).isSome = true ∧ (portLab id).cfg.bind (fun c => c.prt? 14) = none ∧
    (∀ e ∈ [(portLab id, true), (portLab fun d => { d with pos := 3 }, false), (portLab fun d => { d with maskSince := true }, true),
        (portLab fun d => { d with maskBefore := true, pendMask := some (1, 0) }, true), (portLab fun d => { d with ctrlBefore := true }, true),
        (portLab fun d => { d with ctrlSince := true }, true)],
      e.1.prtOpen (.prtMask 15 0xFFFFFFFF#32) = e.2 ∧ e.1.prtOpen (.portMute 0 15 1 1 64) = e.2 ∧ e.1.prtOpen (.portMute 1 7 1 1 64) = e.2 ∧
      ∀ c ∈ e.1.cfg, (c.prt? 15).isSome = true ∧ ∀ r ∈ c.aes? 7, r.txEn = true) ∧
    (portLab id).prtOpen (.portMute 2 0 0 2 65) = true ∧ (portLab id).prtOpen (.prtMask 14 0) = true := by decide +kernel

theorem meets_PortFramesAndStates : (∀ n ∈ [0, 15], ∀ out ∈ [false, true], ∀ cd ∈ [(0, 0), (1, 1), (2, 2)],
    ∀ st ∈ [stPreroll, stRunning, stStopping, stPostroll, stSyncing], ∀ d ∈ [playing, { playing with buf := List.replicate 48 ⟨0, [], []⟩ }],
      let r := portRec n out cd.1 cd.2
      let s := ported r st d
      s.prtFmt? n = some r ∧ (s.unit n).pendMask = none ∧ s.cfg = some (portCfg r) ∧ 0 < (portCfg r).blockLen ∧ 0 < (s.unit n).ramp ∧
      s.unitState n = st ∧ (s.unit n).level = 1 ∧ (s.unit n).mute = false ∧ (s.unit n).entering = false ∧ (s.unit n).stopLen = 0 ∧
      (s.unit n).gap = false ∧ s.gate = ⟨true, none⟩) ∧
    (let s := ported (portRec 15 true 0 0) stRunning playing
     let f : UnitFmt := ⟨true, 0, 0, 100, 8⟩
     s.unitFmt? 15 = some f ∧ (s.outEntry 15 f).1 = some ⟨600, [1, -2, 3, 4, 5, 6, 7, 8], []⟩ ∧
     ((s.setUnit 15 { playing with buf := [] }).outEntry 15 f).1 = none) := by decide +kernel

theorem meets_portStates : ∀ n ∈ [0, 15],
    (∀ c ∈ [1, 2], let s := ported (portRec n false c 1) stSyncing { playing with good := 4, pos := 2 };
      s.unitFmt? n = some ⟨false, c, 1, 100, 8⟩ ∧ s.unitState n = stSyncing ∧ s.mayLock n = true) ∧
    (∀ st ∈ [stPreroll, stRunning, stStopping, stPostroll], ∀ b ∈ [false, true],
      let s := ported (portRec n false 1 1) st { playing with badRun := b }
      clocksRun (s.unitState n) = true ∧ (s.unit n).leaving = false ∧ (s.unit n).badRun = b ∧ s.unitFmt? n = some ⟨false, 1, 1, 100, 8⟩) ∧
    (∀ dom ∈ [0, 2], let s := ported (portRec n true 0 dom) stPreroll { playing with roll := 16, rollN := 16 };
      s.unitState n = stPreroll ∧ (s.unit n).rollN ≤ (s.unit n).roll ∧ (s.unit n).pos = 0 ∧ s.unitFmt? n = some ⟨true, 0, dom, 100, 8⟩) ∧
    (let s := ported (portRec n true 0 0) stStopping PortDir.idle; s.unitState n = stStopping ∧ (s.unit n).level = 0 ∧ (s.unit n).leaving = false) ∧
    (∀ b ∈ [false, true], ∀ c ∈ [labCfg, portCfg (portRec n false 0 0)],
      let s := { ported (portRec n true 0 0) stPostroll { PortDir.idle with roll := 16, rollN := 16, leaving := b } with cfg := some c }
      s.unitFmt? n = some ⟨true, 0, 0, 100, 8⟩ ∧ s.unitState n = stPostroll ∧ (s.unit n).rollN ≤ (s.unit n).roll ∧ (s.unit n).leaving = b ∧
      s.prtFmt? n ≠ c.prt? n) := by decide +kernel

/-- Transceiver `n` in state `st` with 96 kHz frames, its receiver with `bits` taken. -/
def aesRunning (n clk st : Nat) (d : PortDir) (bits : List (Bool × Bool × Bool × Bool)) : State :=
  let s := (({ withCfg { labCfg with aess := [aesRec n clk] } with gate := ⟨true, none⟩ }.setUnit (16 + n) d).setUnit (24 + n) d).setAesCap n ⟨bits, 5, 6, []⟩
  ({ s with ports := { s.ports with aesFmt := [(n, aesRec n clk)] } }.setUnitState (16 + n) st).setUnitState (24 + n) st

/-- A transceiver's unit at level 1 with the frame that carries sample 3 of block 100. -/
def aesPlaying : PortDir := { PortDir.idle with level := 1, pos := 3, ramp := 4, sinceZ := 192, good := 3, buf := [⟨603, [123, -456], [true, false]⟩] }

theorem meets_aesStates : ∀ n ∈ [0, 7],
    (let s := aesRunning n 1 stSyncing aesPlaying []
     s.unitFmt? (16 + n) = some ⟨false, 1, 0, 200, 2⟩ ∧ s.unitState (16 + n) = stSyncing ∧ s.mayLock (16 + n) = true ∧
     ∀ st ∈ [stPreroll, stRunning, stStopping, stPostroll], clocksRun ((aesRunning n 1 st aesPlaying []).unitState (16 + n)) = true) := by
  decide +kernel

theorem meets_Aes3Frames :
    (∀ n ∈ [0, 7], ∀ k ∈ [0, 191], ∀ clk ∈ [0, 1], let s := aesRunning n clk stRunning aesPlaying (List.replicate k (true, false, true, true));
      s.aesFmt? n = some (aesRec n clk) ∧ s.unitFmt? (16 + n) = some ⟨false, clk, 0, 200, 2⟩ ∧
      s.unitState (16 + n) = stRunning ∧ (s.unit (16 + n)).level = 1 ∧ (s.unit (16 + n)).mute = false ∧ (s.unit (16 + n)).entering = false ∧
      (s.unit (16 + n)).buf.length < 48 ∧ (s.aesCap n).bits.length < 192 ∧ clocksRun (s.unitState (24 + n)) = true ∧
      (s.unit (24 + n)).gap = false ∧ s.gate = ⟨true, none⟩ ∧ s.inForce (R.AES_TX_CTRL_V_SRC n) < 2) ∧
    (let s := aesRunning 7 0 stRunning aesPlaying []
     let f : UnitFmt := ⟨true, 0, 0, 202, 2⟩
     s.unitFmt? 31 = some f ∧ (s.outEntry 31 f).1 = some ⟨603, [123, -456], [true, false]⟩) ∧
    (aesRunning 7 1 stSyncing aesPlaying []).unitState 23 = stSyncing ∧
    ({ lab with force := [((R.AES_TX_CTRL_V_SRC 7).key, 2)] } : State).inForce (R.AES_TX_CTRL_V_SRC 7) = 2 ∧
    ((aesRunning 7 0 stRunning aesPlaying (List.replicate 192 (true, false, true, true))).aesCap 7).bits.length = 192 ∧
    HostReaches lab 0x14091004 ∧ HostReaches lab 0x140A1004 := by
  unfold HostReaches Reaches Through; decide +kernel

/-! ### The network ports and the time unit -/

/-- Bytes of `x`, highest first. -/
def be (n x : Nat) : List Byte := (List.range n).map (fun i => BitVec.ofNat 8 (x / 2 ^ (8 * (n - 1 - i))))

/-- A stream of one channel on bus 300, `out`, with format `fmt`. -/
def streamRec (out : Bool) (fmt : Nat) (prot : Bool) : StreamRec :=
  ⟨255, out, 3, 300, 1, fmt, 5004, 34, 98, 6, prot, 0, 0, 10, 0, 64, ⟨0, 0, 5004, 0, 0⟩, ⟨0, 0, 5004, 0, 0⟩⟩

/-- The lab with bus 300 of domain A, stream 255 in and out, and port 3 up. -/
def streaming (fmt : Nat) (prot : Bool) : State :=
  let s := put (withCfg { labCfg with buses := [⟨300, 0, false, false, 0⟩], streams := [streamRec false fmt prot] }) [(R.NET_LINK_UP 3, 1)]
  s.setInS 255 { InStream.none with fmt := some (streamRec false fmt prot) }

/-- An RTP packet of six samples at time `ts`. -/
def rtp (ts : Nat) : List Byte := [0x80, 98, 0, 1] ++ be 4 ts ++ [0, 0, 0, 0] ++ List.replicate 18 0x7F

/-- A low-latency packet of six samples at index `i`. -/
def lowLatency (i : Nat) : List Byte :=
  let h := [0x5D, 0x31, 1, 1, 0, 0, 0, 0] ++ be 6 i ++ [6, 0, 0, 0, 0, 0]
  let pay := List.replicate 18 0x7F
  h ++ be 4 (crc32 (h ++ pay)) ++ pay

/-- Stream 255 as an output, with the frames `b` in its buffer. -/
def sending (b : List SFrame) : State :=
  let s := put (withCfg { labCfg with buses := [⟨300, 0, false, false, 0⟩], streams := [streamRec true 0 false] }) [(R.NET_LINK_UP 3, 1)]
  { s with gate := ⟨true, none⟩ }.setOutS 255
    { OutStream.none with fmt := some (streamRec true 0 false), settled := 100, next := some 600, buf := b }

/-- Frames 600 and on of block `blk`, of an egress abandoned where `gone`. -/
def outFrames (n blk : Nat) (gone : Bool) : List SFrame := (List.range n).map (fun i => ⟨600 + i, blk, [5], gone, gone, true⟩)

theorem meets_streamMute : ((sending []).outS 255).fmt.isSome = true ∧ ((sending []).outS 254).fmt.isSome = false ∧
    (let s := (sending []).setOutS 255 { (sending []).outS 255 with settled := 99 }
     s.streamsOpen 255 1 1 64 = true ∧ (s.outS 255).fmt.isSome = true) ∧ here.streamsOpen 254 2 1 64 = true ∧
    (sending []).streamsOpen 255 1 1 64 = false := by decide +kernel

theorem meets_NetworkControl : (∀ n ∈ [0, 3], HostReaches lab (0x140B002C + 1024 * n)) ∧ HostReaches lab 0x140B1008 ∧
    (64#32).toNat % 128 ≤ 64 ∧ (128#32).toNat % 128 ≤ 64 ∧ 64 < (65#32).toNat % 128 := by
  unfold HostReaches Reaches Through; decide +kernel

theorem meets_networkLinks : ∀ n ∈ [0, 3], let s := lab.setForce (R.NET_PORT_CFG_ENABLE n) 1;
    s.domainOn 9 = true ∧ s.inForce (R.NET_PORT_CFG_ENABLE n) = 1 ∧ s.fld (R.NET_LINK_UP n) = 0 ∧
    (∀ v ∈ [0, 3], (s.setForce (R.NET_PORT_CFG_SPEED n) v).inForce (R.NET_PORT_CFG_SPEED n) < 4) ∧
    (put lab [(R.NET_LINK_UP n, 1)]).fld (R.NET_LINK_UP n) = 1 := by
  decide +kernel

/-- What reads of the packet of samples 610 to 615 and of 700 to 705 depend on: what of it is there, and which legs have brought it. -/
def received (b : Tbl (List Int)) (k : Tbl (Bool × Bool)) : State :=
  let s := streaming 0 true
  s.setInS 255 { s.inS 255 with buf := b, pkts := k }

theorem meets_StreamPackets :
    (∀ f ∈ [0, 1], ∀ prot ∈ [false, true], let s := streaming f prot; (s.inS 255).fmt = some (streamRec false f prot) ∧ s.cfg.isSome = true) ∧
    (∀ tm ∈ [0, 248000, 248001],
      let s := streaming 0 true;
      ∀ c ∈ s.cfg, s.rtpCheck c (streamRec false 0 true) tm [0x80] = none ∧
        s.rtpCheck c (streamRec false 0 true) tm (rtp 610) = some (610, List.replicate 18 0x7F) ∧
        610 + 10 ≤ s.captureNow c (c.streamDomain (streamRec false 0 true)) tm + 10 + 2 * 6 ∧
        s.rtpCheck c (streamRec false 0 true) tm (rtp 800) = some (800, List.replicate 18 0x7F) ∧
        s.captureNow c (c.streamDomain (streamRec false 0 true)) tm + 10 + 2 * 6 < 800 + 10 ∧
        (let m := s.tokenTime c (c.blockOf (c.streamDomain (streamRec false 0 true)) 620 + 1) - (tm : Int) - 2000;
          if tm = 248001 then m < 0 else 0 ≤ m)) ∧
    (∀ e ∈ [(received [] [], true, false), (received ((List.range 6).map fun j => (620 + j, [5])) [(620, (false, true))], false, true),
        (received [] [(620, (false, true))], true, true)],
      (e.1.inS 255).fmt = some (streamRec false 0 true) ∧ (Tbl.find 620 (e.1.inS 255).buf).isNone = e.2.1 ∧
      (Tbl.find 620 (e.1.inS 255).pkts).isSome = e.2.2) ∧
    llCheck (streamRec false 1 false) (lowLatency 610) = some (610, List.replicate 18 0x7F) ∧
    llCheck (streamRec false 1 false) (lowLatency 610).tail = none := by
  decide +kernel

theorem meets_StreamPacketsOut :
    (∀ e ∈ [(sending (outFrames 6 100 false), 6), (sending (outFrames 6 100 true), 6), (sending (outFrames 5 100 false), 5)],
      (e.1.outS 255).fmt = some (streamRec true 0 false) ∧ e.1.drainBelow 1 255 = e.1 ∧ e.1.blk.index ≤ (e.1.outS 255).settled ∧
      (e.1.outS 255).next = some 600 ∧ (((e.1.outS 255).buf.filter (·.done)).filter (fun f => decide (600 ≤ f.idx ∧ f.idx < 606))).length = e.2 ∧
      ∀ f ∈ (e.1.outS 255).buf, e.1.withheldIn f.blk = false) ∧
    (let s := { sending (outFrames 6 100 false) with gate := ⟨false, none⟩ }
     s.drainBelow 1 255 = s ∧ (s.outS 255).buf.length = 6 ∧ ∀ f ∈ (s.outS 255).buf, s.withheldIn f.blk = true) := by
  decide +kernel

/-- A frame of `n` bytes to the address of six bytes `b`. -/
def frameTo (b : Byte) (n : Nat) : List Byte := List.replicate 6 b ++ List.replicate (n - 6) 0

def pauseFrame : List Byte := [1, 0x80, 0xC2, 0, 0, 1] ++ List.replicate 6 3 ++ [0x88, 8, 0, 1] ++ List.replicate 44 0

theorem meets_NetworkFrames :
    (∀ p ∈ [0, 3], let s := put lab [(R.NET_LINK_UP p, 1)]; s.domainOn 9 = true ∧ s.fld (R.NET_LINK_UP p) = 1 ∧
      (∀ n ∈ [60, 1518], 60 ≤ (frameTo 2 n).length ∧ (frameTo 2 n).length ≤ 1518 ∧ udpOf (frameTo 2 n) = none) ∧
      s.inForce (R.NET_PORT_CFG_BRIDGE (p / 2 * 2)) ≠ 1 ∧ s.fld (R.NET_CTL_RX_BASE_ENABLE p) = 0 ∧
      (∀ b ∈ [0, 0xFF], beNat ((frameTo b 60).take 6) = s.macOf p ∨ beNat ((frameTo b 60).take 6) = 2 ^ 48 - 1) ∧
      (put s [(R.NET_CTL_RX_BASE_ENABLE p, 1)]).fld (R.NET_CTL_RX_BASE_ENABLE p) = 1 ∧
      32 ≤ (put s [(R.NET_CTL_RING_RING, 32)]).fld R.NET_CTL_RING_RING ∧
      (put s [(R.NET_CTL_RX_FREE_COUNT p, 0)]).fld (R.NET_CTL_RX_FREE_COUNT p) = 0 ∧
      (let t := s.setForce (R.NET_PORT_CFG_BRIDGE (p / 2 * 2)) 1; t.inForce (R.NET_PORT_CFG_BRIDGE (p / 2 * 2)) = 1 ∧
        beNat ((frameTo 2 60).take 6) ≠ t.macOf p ∧ bit ((frameTo 2 60).getD 0 0).toNat 0 = 0 ∧
        t.fld (R.NET_LINK_UP (if p % 2 = 0 then p + 1 else p - 1)) = 0 ∧
        (put t [(R.NET_LINK_UP (if p % 2 = 0 then p + 1 else p - 1), 1)]).fld (R.NET_LINK_UP (if p % 2 = 0 then p + 1 else p - 1)) = 1)) ∧
    (frameTo 2 59).length < 60 ∧ 1518 < (frameTo 2 1519).length ∧ isPause (frameTo 2 60) = false ∧ isPause pauseFrame = true ∧
    pauseFrame.length = 60 ∧ udpOf pauseFrame = none := by
  decide +kernel

/-- The queue of port 3 with a frame to send, with the flags `f`, behind one of port 0. -/
def toSend (f : Nat) : TxFrame := ⟨3, f, frameTo 2 60, heldOf .net (.netSend 3 2 60 0x20000000) .notNeeded, false⟩
def sendQueue (f : Nat) : State :=
  let s := put lab [(R.NET_LINK_UP 3, 1)]
  { s with net := { s.net with txQ := [{ toSend 0 with port := 0 }, toSend f] } }

theorem meets_netSend :
    (∀ p ∈ [0, 3], ∀ n ∈ [60, 1518], p < 4 ∧ Through lab (11 + p) 0x0CFFFA12 ∧ PlainDram lab 0x0CFFFA12 n) ∧
    (let s := put lab [(R.HIF_OB_ENABLE 0, 1), (R.HIF_OB_HOST_BASE 0, 3)]
     Through s 14 0x80000100 ∧ s.obAddr 0x80000100 = some 0x30000100 ∧ targetOf 0x80000100 = .outbound ∧ (List.replicate 60 (9 : Byte)).length = 60) ∧
    (let s := put lab [(R.XB_QUARANTINE_MASTER, 2 ^ 14)]; s.passage 14 0 = .refused ∧ s.hif.queue = []) ∧
    (∀ f ∈ [0, 1, 4, 5], let u := ((sendQueue f).seeTime 5).drainPair 1
      u.net.txQ = [{ toSend 0 with port := 0 }] ++ toSend f :: [] ∧ (toSend f).port = 3 ∧ (toSend f).cmd.ring = none ∧ u.fld (R.NET_LINK_UP 3) = 1) ∧
    (let u := (lab.seeTime 5).drainPair 1; u.net.txQ = [] ∧ u.fld (R.NET_LINK_UP 3) = 0) := by
  unfold Through PlainDram; decide +kernel

theorem meets_TimeUnit :
    (∀ n ∈ [0, 1], (let s := put lab [(R.TU_PTP_CFG_ENABLE n, 1), (R.TU_PTP_CFG_MEASURE_EN n, 1)];
        s.fld (R.TU_PTP_CFG_ENABLE n) = 1 ∧ s.fld (R.TU_PTP_CFG_MEASURE_EN n) = 1) ∧
      (put lab [(R.TU_PTP_CFG_MEASURE_EN n, 0)]).fld (R.TU_PTP_CFG_MEASURE_EN n) = 0 ∧
      (∀ st ∈ [2, 3], (put lab [(R.TU_SERVO_STATE_STATE n, st)]).servo n = st) ∧ lab.servo n ≠ 2 ∧ lab.servo n ≠ 3 ∧
      HostReaches lab (0x140C0140 + 256 * n) ∧ lab.instNs n 1999999999 = 1999999999) ∧
    (∀ n ∈ [0, 7], let s := { lab with tu := { lab.tu with outs := [(n, 1000)] } };
      Tbl.find n s.tu.outs = some 1000 ∧ (1000 : Int) ≤ s.instNs (s.inForce (R.TU_OUT_CTRL_INST n)) 998 + 2 ∧
      s.instNs (s.inForce (R.TU_OUT_CTRL_INST n)) 997 + 2 < 1000 ∧ Tbl.find n lab.tu.outs = none) ∧
    (∀ n ∈ [0, 3], let on := put lab [(R.TU_CAP_CFG_ENABLE n, 1), (R.TU_CAP_CFG_EDGE n, 3)];
      let s := { on with tu := { on.tu with capLast := [(n, 1000)] } };
      on.fld (R.TU_CAP_CFG_ENABLE n) = 1 ∧ (∀ fall ∈ [false, true], bit (on.fld (R.TU_CAP_CFG_EDGE n)) (flag fall) = 1) ∧
      (Tbl.find n s.tu.capLast = some 1000 ∧ 1099 < 1000 + 100 ∧ ¬(1100 < 1000 + 100)) ∧ (s.capQ n).length < 16 ∧
      16 ≤ ({ s with tu := { s.tu with caps := [(n, List.replicate 16 (5, true))] } }.capQ n).length ∧ lab.fld (R.TU_CAP_CFG_ENABLE n) ≠ 1 ∧
      ∀ m ∈ [0, 1], Reaches lab m (0x140C060C + 32 * n)) := by
  unfold HostReaches Reaches Through; decide +kernel
/-! ### Clave, the PLLs and the word clocks -/

/-- The lab at block `k`, with slots 0 and 15 in state `st`, thresholds of 10 and 5 ppb, and the fields `fs`. -/
def atBlock (k : Nat) : State := { here with blk := { here.blk with index := k } }
def slots (k st : Nat) (fs : List (Fld × Nat)) (x : ClvSlot) : State :=
  [0, 15].foldl (fun s n => s.setClvSlot n x) (put (atBlock k) (([0, 15].flatMap fun n => [(R.CLV_REF_STATE_STATE n, st),
    (R.CLV_REF_THRESH_HARD_PPB n, 10), (R.CLV_REF_THRESH_SOFT_PPB n, 5), (R.CLV_REF_CFG_TYPE n, 2), (R.CLV_REF_CTRL_ENABLE n, 1)]) ++ fs))

theorem meets_ClaveGates :
    (∀ k ∈ [0, 16000], (atBlock k).blk.index % max 1 (atBlock k).blocksPerSecond = 0) ∧
    (∀ k ∈ [1600, 3200], (atBlock k).blk.index % max 1 ((atBlock k).blocksPerSecond / 10) = 0) ∧ (atBlock 1600).cfg.isSome = true ∧
    (atBlock 1601).blk.index % max 1 ((atBlock 1601).blocksPerSecond / 10) ≠ 0 ∧ State.reset.cfg = none ∧
    (∀ st ∈ [0, 3], (put (atBlock 16000) [(R.CLV_STATE_STATE, st)]).fld R.CLV_STATE_STATE = st) ∧
    (∀ n ∈ [0, 15], ∀ st ∈ [1, 2, 3, 4], ∀ k ∈ [0, 2], let s := slots 16000 st [] { ClvSlot.fresh with clear := k };
      s.refState n = st ∧ (s.clvSlot n).losLong = false ∧ (s.clvSlot n).losShort = false ∧ s.refDead n = false ∧ (s.clvSlot n).clear = k ∧
      (s.clvSlot n).qualified = false ∧ s.clv.skipLong = false ∧ s.clv.skipShort = false ∧
      256 * s.fld (R.CLV_REF_THRESH_HARD_PPB n) < (2561 : Int).natAbs ∧ 256 * s.fld (R.CLV_REF_THRESH_SOFT_PPB n) < (1281 : Int).natAbs ∧
      4 * (1920 : Int).natAbs ≤ 3 * 256 * s.fld (R.CLV_REF_THRESH_HARD_PPB n)) ∧
    ({ atBlock 16000 with clv := { Clv.idle with skipShort := true, skipLong := true, measuring := true } } : State).clv.skipLong = true ∧
    (List.replicate 16 (some (2561 : Int))).getD 15 none = some 2561 := by decide +kernel

theorem meets_ClaveReferences :
    (∀ w ∈ [none, some 0, some 15], ∀ a ∈ [6, 7], let s := { lab with clv := { lab.clv with want := some (w, a) } };
      s.clv.want = some (w, a) ∧ s.blk.seq = 7) ∧ lab.clv.want = none ∧
    (let s := put lab [(R.CLV_REF_CFG_TYPE 15, 1), (R.CLV_REF_CFG_INDEX 15, 1)];
      s.fld (R.CLV_REF_CFG_TYPE 15) = 1 ∧ s.fld (R.CLV_REF_CFG_INDEX 15) < 2) ∧
    (∀ n ∈ [0, 15], ∀ st ∈ [1, 2, 3, 4], let s := slots 100 st [] .fresh; 1 ≤ s.refState n ∧ s.refState n = st ∧ s.refLost n = true) ∧
    lab.refState 0 = 0 ∧ lab.refLost 0 = false ∧
    (∀ n ∈ [0, 15], ∀ k ∈ [0, 7], let s := put lab [(R.CLV_REF_STATE_STATE n, 3), (R.CLV_REF_STATE_WTR_LEFT n, k)];
      s.refState n = 3 ∧ s.fld (R.CLV_REF_STATE_WTR_LEFT n) = k) ∧
    (∀ st ∈ [0, 1], (put lab [(R.CLV_STATE_STATE, st)]).fld R.CLV_STATE_STATE = st) ∧
    (∀ st ∈ [0, 1], (put lab [(R.CLV_STATE_SLEWING, st)]).fld R.CLV_STATE_SLEWING = st) ∧
    (put lab [(R.CLV_REF_CFG_TYPE 15, 1)]).fld (R.CLV_REF_CFG_TYPE 15) ≠ 0 ∧ lab.fld (R.CLV_REF_CFG_TYPE 0) = 0 := by
  decide +kernel

theorem meets_BaseClockWordClocksAndPlls :
    lab.fld R.CLV_STATE_BASE_XO = 0 ∧ (put lab [(R.CLV_STATE_BASE_XO, 1)]).fld R.CLV_STATE_BASE_XO = 1 ∧
    { labCfg with clock := { labCfg.clock with loHz := 10000000 } }.clock.loHz ≠ 0 ∧ labCfg.clock.loHz = 0 ∧ lab.cfg = some labCfg ∧
    { lab.clv with measuring := true }.measuring = true ∧ lab.clv.measuring = false ∧
    (∀ n ∈ [0, 3], ∀ k ∈ [0, 1], let s := (lab.setForce (R.CLV_WC_CFG_ENABLE n) 1).setForce (R.CLV_WC_CFG_ALIGN n) k;
      s.inForce (R.CLV_WC_CFG_ENABLE n) = 1 ∧ s.inForce (R.CLV_WC_CFG_ALIGN n) = k) ∧
    (10 * (158 : Int).natAbs ≤ 1589 ∧ 1589 < 10 * (159 : Int).natAbs ∧ 10 * (-173 : Int).natAbs ≤ 1730 ∧ 1730 < 10 * (-174 : Int).natAbs) := by
  decide +kernel

theorem meets_plls :
    (∀ n ∈ [0, 1, 2, 3], (∀ m ∈ [0, 1, 2, 3, 4, 5], (inMode m).fld (R.PLL_STATUS_LOCKED n) = 1) ∧
      (put lab [(R.PLL_STATUS_LOCKED n, 0)]).fld (R.PLL_STATUS_LOCKED n) = 0 ∧ lab.fld (R.PLL_STATUS_SEARCHING n) = 0 ∧
      (put lab [(R.PLL_STATUS_SEARCHING n, 1)]).fld (R.PLL_STATUS_SEARCHING n) = 1) ∧
    ((inMode 3).mode = .live ∧ (inMode 2).mode = .shadow ∧ (inMode 4).mode = .limp ∧ (inMode 1).mode = .load ∧ (inMode 5).mode = .test ∧
      (inMode 0).mode = .sentry) ∧ lab.pmu.lost = false ∧ bit lab.limpCauses causeClock = 0 ∧
    (put lab [(R.PLL_STATUS_FALLBACK 0, 1)]).fld (R.PLL_STATUS_FALLBACK 0) = 1 ∧
    bit (put lab [(R.PMU_LIMP_STATUS_CAUSE, 2 ^ causeClock)]).limpCauses causeClock = 1 ∧
    (put (inMode 0) [(R.SYS_BOOT_STATUS_STAGE, 1)]).fld R.SYS_BOOT_STATUS_STAGE = 1 ∧
    (∀ m ∈ [1, 3, 5], let s := { inMode m with pmu := { lab.pmu with lost := true } }; s.fld (R.PLL_STATUS_LOCKED 0) = 1 ∧ s.pmu.lost = true ∧
      s.mode ≠ .limp) ∧
    ∀ n ∈ [1, 2], HostReaches lab (0x140E0030 + 256 * n) := by
  unfold HostReaches Reaches Through; decide +kernel

/-! ### Beater -/

/-- Channel `n` of Beater, retrying after `retry` seconds, or latching at its first fault where that is 0, with a presence sense where `pe`. -/
def chanRec (n retry : Nat) (pe : Bool) : BeatChanRec := ⟨n, true, pe, false, 400, 0, n, 1000, 20, 256, 256, 800, 10, 5, retry, 16, 64, 0, 100⟩

/-- Channel `n` in state `st`, its half settled; the same before its boundary's state is formed; on a chip that takes CONTROL BEAT from its
peer. -/
def beating (n retry : Nat) (pe : Bool) (st : Nat) (f : BeatChan → BeatChan) : State :=
  let s := (put here [(R.BEAT_STATUS_STATE n, st), (R.BEAT_STATUS_PRESENT n, 1)]).setBchan n (f { BeatChan.none with fmt := some (chanRec n retry pe) })
  let t := s.setBrail (n / 4) { BeatRail.none with fmt := some ⟨n / 4, false, 160, 800, 8, 0, 10, 10, 100, 400, 20⟩, on := true }
  { t with beat := { t.beat with settled := [(0, 7), (1, 7)] } }
def unsettled (s : State) : State := { s with beat := { s.beat with settled := [] } }
def following (s : State) : State :=
  { put s [(R.FLM_STATE_STATE, 3)] with cfg := some { labCfg with mirror := some [⟨1, 8, 0, 0⟩] }, flm := { s.flm with operates := true } }

theorem meets_BeaterCommandsAndEvents : (∀ n ∈ [0, 31], ∀ st ∈ [btStopped, btRunning, btFault, btLatched],
      let s := unsettled (beating n 1 false st id)
      (∀ j < 1, s.bdefined (n + j) = true) ∧ s.bstate n = st ∧ s.beatOwn = true ∧ s.outputsLive = true ∧
      s.beatOpen (.beatMute n 1 1 1023) = true ∧ s.beatOpen (.beatEnable n 1 1) = true ∧ s.beatOpen (.beatDiag n 1) = true ∧
      s.beatOpen (.beatClear n 1) = true) ∧
    (let s := beating 31 1 false btStopped id
     s.beatOpen (.beatMute 31 1 1 1023) = false ∧ s.beatOpen (.beatEnable 31 1 1) = false ∧ s.beatOpen (.beatDiag 31 1) = false ∧
     s.beatOpen (.beatClear 31 1) = false) ∧
    (let s := unsettled (beating 31 1 false btStopped id)
     s.beatOpen (.beatMute 31 2 2 1024) = true ∧ s.beatOpen (.beatEnable 31 0 1) = true ∧ s.beatOpen (.beatDiag 31 2) = true ∧
     s.beatOpen (.beatClear 30 1) = true ∧ s.bdefined 30 = false) ∧
    (put (unsettled (beating 31 1 false btStopped id)) [(R.SYS_MODE_MODE, 5)]).mode = .test ∧
    (unsettled (following (beating 31 1 false btStopped id))).beatOwn = false := by
  decide +kernel

theorem meets_beaterRegisters : ∀ n ∈ [0, 31], HostReaches (beating n 1 false btStopped id) (0x14301000 + 64 * n) ∧
    (beating n 1 false btStopped id).bdefined n = true ∧ HostReaches lab (0x14301000 + 64 * n) ∧ lab.bdefined n = false ∧
    HostReaches lab 0x14300010 := by
  unfold HostReaches Reaches Through; decide +kernel

theorem meets_beaterEvents : ∀ n ∈ [0, 31],
    (∀ e ∈ [(beating n 1 true, true), (fun st f => following (beating n 1 true st f), false)],
      ∀ st ∈ [btStopped, btDiag, btPreroll, btRunning, btStopping, btFault, btUnplugged], let s := e.1 st id;
      (s.bchan n).fmt = some (chanRec n 1 true) ∧ s.bstate n = st ∧ s.beatOwn = e.2 ∧ (s.brail (n / 4)).fmt.isSome = true ∧
      (s.brail (n / 4)).on = true ∧ s.fld (R.BEAT_STATUS_PRESENT n) = 1 ∧ bit (s.fld R.TAP_PRES_PRESENT) n = 0 ∧
      (∀ half < 2, Tbl.get s.beat.settled half 0 = (Tbl.get s.blk.arrived (22 + half) (0, 0)).2)) ∧
    (let s := put (beating n 0 false btUnplugged id) [(R.BEAT_STATUS_PRESENT n, 0)]
     s.fld (R.BEAT_STATUS_PRESENT n) = 0 ∧ s.outputsLive = true ∧ s.bstate n = btUnplugged) ∧
    beatSwitching btRunning = true ∧ beatSwitching btStopped = false ∧ beatCounted btRunning = true ∧ beatCounted btStopped = false ∧
    (∀ k ∈ [0, 9], ∀ x ∈ [List.replicate 15 true, []],
      8 ≤ (((true :: (List.replicate (min 16 k) false ++ x)).take 16).filter (fun b => b)).length ↔ k = 0 ∧ x ≠ []) := by
  decide +kernel

theorem meets_beaterRamps : ∀ n ∈ [0, 31],
    (let s0 := beating n 1 false btFault fun x => { x with faults := [7] };
      let s := { s0 with blk := { s0.blk with seq := 16007, arrived := (List.range 26).map (fun i => (i, (100, 16007))) }
                         beat := { s0.beat with settled := [(0, 16007), (1, 16007)] } };
      s.bstate n = btFault ∧ s.bpresent n = true ∧ (s.brail (n / 4)).fault = false ∧ s.outputsLive = true ∧ s.beatOwn = true ∧
      (chanRec n 1 false).retryS * s.blocksPerSecond ≤ s.blk.seq - (s.bchan n).faults.headD 0) ∧
    ((beating n 1 false btStopping fun x => { x with idling := true }).bchan n).idling = true ∧
    (∀ b, ((beating n 1 false btDiag fun x => { x with onRequest := b }).bchan n).onRequest = b) ∧
    (∀ st ∈ [btRunning, btStopping], let s := beating n 1 false st fun x => { x with losing := true };
      (s.bchan n).level = 0 ∧ (s.bchan n).losing = true ∧ s.bstate n = st) ∧
    ((beating n 1 false btStopping id).bchan n).losing = false ∧
    ((beating n 1 false btStopping fun x => { x with level := 1 }).bchan n).level ≠ 0 := by
  decide +kernel

/-! ### Flam -/

/-- A heartbeat of block 100 from a chip of state and role `a`. -/
def heartbeat (a : Nat) : List Byte :=
  let h := [0x4D, 0x46, 1, 1] ++ leBytes 6 100 ++ leBytes 1 a ++ List.replicate 69 0
  h ++ leBytes 4 (crc32 h)

/-- A chip that operates in a pair, in Flam state `st` with its peer in `peer`; CONTROL BEAT and CLAVE are mirrored. -/
def paired (st peer : Nat) : State :=
  let s := put here [(R.FLM_STATE_STATE, st), (R.FLM_STATE_PEER_STATE, peer), (R.FLM_STATE_PEER_SEEN, 1), (R.FLM_LINK_UP_00, 1), (R.FLM_LINK_UP_01, 1)]
  { s with flm := { s.flm with operates := true } }
def mirroring (st peer : Nat) : State := { paired st peer with cfg := some { labCfg with mirror := some [⟨1, 8, 0, 0⟩, ⟨1, 1, 0, 0⟩] } }

set_option maxRecDepth 50000 in
theorem meets_FlamMessages : (∀ a ∈ [0x04, 0x13, 2, 3], (parseBeat 100 (heartbeat a)).isSome = true) ∧ parseBeat 100 (heartbeat 4).tail = none ∧
    (∀ a ∈ [2, 3], ∀ b ∈ parseBeat 100 (heartbeat a), b.state = a) ∧
    (∀ b ∈ parseBeat 100 (heartbeat 4), b.blk = 100 ∧ (paired 3 4).beatOf b.blk = none ∧
      ({ (paired 3 4) with flm := { (paired 3 4).flm with beats := [b] } } : State).beatOf 100 = some b) ∧
    (∀ st ∈ [2, 3, 4], ∀ peer ∈ [2, 3, 4], (paired st peer).flm.operates = true ∧ (paired st peer).flmState = st ∧
      (paired st peer).fld R.FLM_STATE_PEER_STATE = peer ∧ (paired st peer).fld R.FLM_LINK_UP_00 = 1 ∧ (paired st peer).fld R.FLM_LINK_UP_01 = 1) := by
  decide +kernel

theorem meets_flamObjects : (∀ st ∈ [2, 3], (mirroring st 4).flmState = st ∧ (mirroring st 4).mirrors 8 = true ∧ (paired st 4).mirrors 8 = false ∧
      (mirroring st 4).mirrors (cmdObject .cln (.xpSet 1 2 0x400000#32 3)) = true ∧
      (paired st 4).mirrors (cmdObject .cln (.xpSet 1 2 0x400000#32 3)) = false) ∧ (descrOf xpSetEntry).judge = some (.engine .cln (.xpSet 1 2 0x400000#32 3)) ∧
    (∀ k ∈ [0, 1], (put (paired 2 4) [(R.FLM_RESYNC_STATUS_PHASE, k)]).fld R.FLM_RESYNC_STATUS_PHASE = k) := by
  decide +kernel

theorem meets_flamItems : ∀ i ∈ [MirrorItem.clave 31 0 100, .tapKeys 0xFFFF 100], (∀ bs d k, i ≠ .entry bs d k) ∧ ∀ a v k, i ≠ .write a v k := by
  simp

set_option maxRecDepth 50000 in
theorem meets_FlamTransitions :
    (∀ st ∈ [1, 2, 3, 4, 5, 6], (paired st 4).flmState = st ∧ (paired st 4).flm.operates = true ∧ (paired st 4).fld R.FLM_STATE_PEER_STATE = 4) ∧
    (let s := { paired 3 4 with flm := { (paired 3 4).flm with selPeer := true } }; s.flm.selPeer = true ∧ s.flmSecondary = false ∧ s.flm.plan = none) ∧
    (put (paired 3 4) [(R.FLM_CFG_ROLE, 1)]).flmSecondary = true ∧ (∀ m ∈ [0, 1, 2, 3, 4, 5], (inMode m).mode.code = m) ∧
    (∀ st ∈ [3, 5], ∀ at0 ∈ [98, 100, 101], let s := { paired st 4 with flm := { (paired st 4).flm with plan := some (at0, 15) } };
      s.flm.plan = some (at0, 15) ∧ s.flmState = st ∧ at0 < 2 ^ 48 ∧ s.flm.beats = [] ∧ (at0 ≤ s.blk.index ↔ at0 ≠ 101) ∧
      (at0 + 2 ≤ s.blk.index ↔ at0 = 98)) ∧
    (∀ b ∈ parseBeat 100 (heartbeat 4), b.state = 4 ∧ 100 ≤ b.blk) ∧
    (let s := put (paired 1 0) [(R.FLM_STATE_PEER_SEEN, 0)]; s.flmState = 1 ∧ s.flmSecondary = false ∧ s.fld R.FLM_STATE_PEER_SEEN = 0) ∧
    (let s := put (paired 1 0) [(R.FLM_STATE_PEER_SEEN, 0), (R.FLM_CFG_ROLE, 1)]; s.flmSecondary = true ∧ s.ownHigh = true) := by
  decide +kernel

theorem meets_flamTimers :
    (∀ k ∈ [7, 8], ({ (paired 2 4).flm with agree := k } : Flm).agree = k) ∧
    (let s := put (paired 3 4) [(R.FLM_CTRL_REVERT, 1)]; s.wtrRuns = true ∧ s.flm.wtr = 0 ∧ s.fld R.FLM_CTRL_REVERT = 1 ∧ s.flm.plan = none) ∧
    (paired 2 4).wtrRuns = false ∧ (put (paired 3 4) [(R.FLM_CTRL_REVERT, 0)]).fld R.FLM_CTRL_REVERT = 0 := by
  decide +kernel

theorem meets_FlamRequests : (paired 4 3).standbyPeer = true ∧ (paired 4 2).standbyPeer = false ∧ (paired 4 3).flmState = 4 ∧ (paired 3 4).flmState ≠ 4 ∧
    (∀ a ∈ [0x14400070, 0x14400074, 0x14400078], Reaches (paired 4 3) 0 a) ∧ HostReaches lab 0x14400068 ∧
    (0xF1A30000#32).toNat / 65536 = 0xF1A3 ∧ (0xF1A2FFFF#32).toNat / 65536 ≠ 0xF1A3 ∧ (0x0000B10C#32).toNat % 65536 = 0xB10C ∧
    (let s := put (paired 4 3) [(R.BLK_EPOCH_ERR_ERR, 2)]; s.blk.realign = none ∧ s.swapState = swIdle ∧ s.standbyPeer = true ∧
      1 < (ofCodeS 32 (s.fld R.BLK_EPOCH_ERR_ERR)).natAbs) ∧
    (ofCodeS 32 ((put (paired 4 3) [(R.BLK_EPOCH_ERR_ERR, 2 ^ 32 - 1)]).fld R.BLK_EPOCH_ERR_ERR)).natAbs ≤ 1 ∧
    (put (paired 4 3) [(R.PEAL_SWAP_STATUS_STATE, 1)]).swapState ≠ swIdle := by
  unfold HostReaches Reaches Through; decide +kernel

/-- A realignment that waits for block 99. -/
def realigning : State := { lab with blk := { lab.blk with realign := some ⟨99, false⟩ } }

theorem meets_realignment : Quiet { realigning with blk := { realigning.blk with realign := none } } ∧
    (∀ r ∈ realigning.roundTasks, realigning.hasEnded r.1.task r.2 = true) ∧ realigning.cfg = some labCfg ∧
    realigning.blk.realign = some ⟨99, false⟩ ∧ 99 + 1 ≤ realigning.blk.index := by
  refine ⟨?_, by decide +kernel, rfl, rfl, by decide +kernel⟩
  unfold Quiet
  refine ⟨by decide +kernel, by decide +kernel, by decide +kernel, by decide +kernel, by decide +kernel, rfl, rfl, rfl, rfl, by decide +kernel, rfl, rfl, rfl, ?_,
    rfl, by decide +kernel, rfl, rfl, rfl, rfl, by decide⟩
  rintro c ⟨⟩; decide +kernel

/-! ### The sideband port -/

/-- The lab with SMP command `code` executing with payload `p`; a chip with CTRL off. -/
def commanded (code : Nat) (p : List Byte) (host : Bool) (s : State) : State := { s with smp := { s.smp with exec := some ⟨code, p, host⟩ } }
def ctrlOff (s : State) : State := put s [(R.SYS_ISLAND_POWERED 1, 0), (R.SYS_ISLAND_POWERED 0, 0), (R.SYS_ISLAND_POWERED 2, 0)]

theorem meets_SidebandPort :
    frameRequest [0xA5, 0x01, 0x00, crc8 [0xA5, 0x01, 0x00]] = some (1, []) ∧ [0xA5#8, 0x01, 0x00].head? ≠ some 0x5A#8 ∧
    [0x5A#8].head? = some 0x5A#8 ∧ frameRequest [0xA5, 0x01] = none ∧ lab.smp.exec = none ∧ lab.smp.result = none ∧
    (∀ host ∈ [false, true], let s := commanded 255 [] host { lab with smp := { lab.smp with result := some (255, List.replicate 240 7) } };
      s.smp.exec = some ⟨255, [], host⟩ ∧ s.smp.result = some (255, List.replicate 240 7)) ∧
    HostReaches lab 0x15F20380 ∧ HostReaches (commanded 1 [] true lab) 0x15F20380 ∧ lab.domainOn 2 = true ∧ (ctrlOff lab).domainOn 2 = false := by
  unfold HostReaches Reaches Through; decide +kernel

theorem meets_SidebandCommands :
    (let s := commanded 0x01 [] false lab; s.smp.exec = some ⟨0x01, [], false⟩ ∧ s.smp.result = none ∧ s.fld R.SMP_STATUS_READ_ONLY = 0) ∧
    (∀ n ∈ [1, 60], let p := leBytes 4 (0x0D000000 - 4 * n) ++ leBytes 1 n;
      p.length = 5 ∧ leAt p 4 1 = n ∧ leAt p 0 4 % 4 = 0 ∧ PlainDram lab (leAt p 0 4) (4 * n) ∧
      (∀ i < n, Through lab 1 (leAt p 0 4 + 4 * i)) ∧ ∀ i < n, (ctrlOff lab).passage 1 (leAt p 0 4 + 4 * i) = .stopped) ∧
    (ctrlOff lab).hif.queue = [] ∧ Reaches lab 1 0x14020004 ∧
    ({ lab with hif := { lab.hif with resetting := [1] } } : State).passage 1 0 = .held ∧
    (∀ n ∈ [1, 60], (leBytes 4 (0x0D000000 - 4 * n) ++ List.replicate (4 * n) 7).length = 4 * n + 4) ∧
    (leBytes 4 0 ++ leBytes 4 1 ++ leBytes 4 2).length = 12 ∧ (leBytes 4 2).length = 4 ∧ leAt (leBytes 4 2 ++ leBytes 1 1) 0 4 % 4 ≠ 0 := by
  unfold Reaches Through PlainDram; decide +kernel

theorem meets_sidebandRequests :
    (leBytes 2 0x5A1D).length = 2 ∧ leNat (leBytes 2 0x5A1D) = 0x5A1D ∧ (leBytes 2 0xF1A3).length = 2 ∧ leNat (leBytes 2 0xF1A3) = 0xF1A3 ∧
    (∀ k ∈ [0, 3], (leBytes 1 k).length = 1 ∧ leNat (leBytes 1 k) ≤ 3) ∧ 3 < leNat (leBytes 1 4) ∧ (inMode 0).mode = .sentry ∧ (inMode 0).pmu.goal = [] ∧
    ({ inMode 0 with pmu := { lab.pmu with goal := [12] } } : State).pmu.goal ≠ [] ∧
    lab.mode ≠ .sentry ∧ lab.domainOn 2 = true ∧ (ctrlOff lab).mode ≠ .sentry ∧ (ctrlOff lab).domainOn 2 = false ∧ lab.mayLoad = true ∧
    (lab.setPlane lab.staged plLoading).mayLoad = false ∧ (paired 4 3).flmState = 4 ∧ lab.flmState ≠ 4 ∧
    (put lab [(R.SMP_STATUS_READ_ONLY, 1)]).fld R.SMP_STATUS_READ_ONLY = 1 := by
  decide +kernel

theorem meets_SidebandFlashRecorderAndIdentity : lab.fld R.SMP_STATUS_READ_ONLY = 0 ∧
    (leBytes 2 0x0C1E).length = 2 ∧ leNat (leBytes 2 0x0C1E) = 0x0C1E ∧ lab.evt.clearing = false ∧
    ({ lab.smp with unlock := some 0x1234 } : Smp).unlock = some 0x1234 ∧ leNat (leBytes 2 (0x1234 ^^^ 0x5EED)) = 0x1234 ^^^ 0x5EED ∧
    (lab.evt.writing = none ∧ lab.evt.erasing = none ∧ (put lab [(R.EVT_STATUS_RESTORING, 0)]).fld R.EVT_STATUS_RESTORING ≠ 1) ∧
    (let p := leBytes 4 (0x8000000 - 240) ++ leBytes 1 240; p.length = 5 ∧ leAt p 4 1 = 240 ∧ leAt p 0 4 + 240 ≤ 0x8000000) ∧
    (let p := leBytes 4 (imageSlots - 0x10000); p.length = 4 ∧ leAt p 0 4 % 0x10000 = 0 ∧ leAt p 0 4 < imageSlots) ∧
    (let p := leBytes 4 (imageSlots - 240) ++ List.replicate 240 7; p.length = 244 ∧ leAt p 0 4 % 256 + 240 ≤ 256 ∧ leAt p 0 4 < imageSlots ∧
      ∀ j < 240, lab.flashByte (leAt p 0 4 + j) = 0xFF#8) ∧ imageSlots = 0x06000000 ∧
    ({ lab.evt with clearing := true } : Evt).clearing = true ∧ ({ lab.evt with writing := some ([], 1) } : Evt).writing ≠ none ∧
    256 < 0xFF + 2 ∧
    (List.replicate 16 (0 : Byte)).length = 16 ∧ (List.replicate 192 (0 : Byte)).length = 192 ∧ (∀ e ∈ lab.ident.otp, e.2 = false) ∧
    (∃ e ∈ [(([] : List Byte), true)], e.2 = true) := by
  decide +kernel

/-! ### The event recorder, the panel and identity -/

/-- The bytes `bs` of flash from `a`. -/
def flashAt (a : Nat) : List Byte → Tbl Byte
  | [] => []
  | b :: bs => (a, b) :: flashAt (a + 1) bs

theorem find_flashAt (bs : List Byte) : ∀ a i, Tbl.find (a + i) (flashAt a bs) = bs[i]? := by
  induction bs with
  | nil => intro a i; simp [flashAt, Tbl.find]
  | cons b bs ih =>
    intro a i
    cases i with
    | zero => simp [flashAt, Tbl.find]
    | succ i =>
      have h := ih (a + 1) i
      rw [show a + 1 + i = a + (i + 1) by omega] at h
      simpa [flashAt, Tbl.find] using h

theorem find_before (bs : List Byte) : ∀ a x, x < a → Tbl.find x (flashAt a bs) = none := by
  induction bs with
  | nil => intros; rfl
  | cons b bs ih =>
    intro a x hx
    have h := ih (a + 1) x (by omega)
    simp [flashAt, Tbl.find, show ¬a = x by omega, h]

/-- The lab with `bs` in record slot 1, and the restore still to be made. -/
def recorded (bs : List Byte) : State :=
  put { lab with mem := { lab.mem with flash := flashAt (recordAt 1) bs } } [(R.EVT_STATUS_RESTORING, 1)]

/-- The fill of a record after its first twelve bytes. -/
def fill : List Byte := List.replicate 8176 0

theorem fill_length : fill.length = 8176 := List.length_replicate

/-- The body of a record of SEQUENCE 8, and the record. -/
def body8 : List Byte := [0x45, 0x56, 0x52, 0x43, 0, 0, 0, 0x20, 8, 0, 0, 0] ++ fill
def record8 : List Byte := body8 ++ leBytes 4 (crc32 body8)

theorem body8_length : body8.length = 0x1FFC := by
  unfold body8; rw [List.length_append, fill_length]; rfl

theorem record8_length : record8.length = 8192 := by
  unfold record8; rw [List.length_append, body8_length]; rfl

theorem leNat_leBytes_four (x : Nat) (h : x < 2 ^ 32) : leNat (leBytes 4 x) = x := by
  simp [leBytes, leNat]; omega

theorem take_leBytes (x : Nat) : (leBytes 4 x).take 4 = leBytes 4 x := rfl

theorem crc32_lt (bs : List Byte) : crc32 bs < 2 ^ 32 := BitVec.isLt _

theorem body8_append (r : List Byte) : body8 ++ r = 0x45 :: 0x56 :: 0x52 :: 0x43 :: 0 :: 0 :: 0 :: 0x20 :: 8 :: 0 :: 0 :: 0 :: (fill ++ r) := by
  unfold body8; rw [List.append_assoc]; rfl

theorem valid_of (b r : List Byte) (hb : b.length = 0x1FFC)
    (h : b ++ leBytes 4 (crc32 b) = 0x45 :: 0x56 :: 0x52 :: 0x43 :: 0 :: 0 :: 0 :: 0x20 :: r) : recordValid (b ++ leBytes 4 (crc32 b)) = true := by
  have h1 : (b ++ leBytes 4 (crc32 b)).take 0x1FFC = b := List.take_left' hb
  have h2 : leAt (b ++ leBytes 4 (crc32 b)) 0x1FFC 4 = crc32 b := by
    unfold leAt slice
    rw [List.drop_left' hb, take_leBytes, leNat_leBytes_four _ (crc32_lt b)]
  have h4 : leAt (b ++ leBytes 4 (crc32 b)) 0 4 = 0x43525645 := by rw [h]; simp [leAt, slice, leNat]
  have h5 : leAt (b ++ leBytes 4 (crc32 b)) 6 2 = 0x2000 := by rw [h]; simp [leAt, slice, leNat]
  simp only [recordValid, h1, h2, h4, h5, beq_self_eq_true, Bool.and_true]

theorem record8_valid : recordValid record8 = true := valid_of body8 _ body8_length (body8_append _)

theorem recorded_flash (bs : List Byte) : (recorded bs).mem.flash = flashAt (recordAt 1) bs := rfl

theorem read_flashAt (bs : List Byte) (a : Nat) (d : Byte) :
    (List.range bs.length).map (fun i => Tbl.get (flashAt a bs) (a + i) d) = bs := by
  apply List.ext_getElem
  · rw [List.length_map, List.length_range]
  · intro i h1 h2
    rw [List.getElem_map, List.getElem_range, Tbl.get, find_flashAt, List.getElem?_eq_getElem h2]; rfl

theorem slotBytes_one (bs : List Byte) (h : bs.length = 8192) : (recorded bs).slotBytes 1 = bs := by
  have h1 := read_flashAt bs (recordAt 1) 0xFF#8
  rw [h] at h1
  unfold State.slotBytes
  rw [recorded_flash]; exact h1

theorem map_range_succ (n : Nat) (f : Nat → Byte) : (List.range (n + 1)).map f = f 0 :: ((List.range n).map Nat.succ).map f := by
  rw [List.range_succ_eq_map, List.map_cons]

theorem not_valid (l : List Byte) : recordValid (0xFF#8 :: l) = false := by
  have h : leAt (0xFF#8 :: l) 0 4 = 255 + 256 * leNat (l.take 3) := rfl
  have h1 : (leAt (0xFF#8 :: l) 0 4 == 0x43525645) = false := by rw [h, beq_eq_false_iff_ne]; omega
  unfold recordValid; rw [h1]; rfl

theorem slotBytes_zero (bs : List Byte) : recordValid ((recorded bs).slotBytes 0) = false := by
  have h : ∃ l, (recorded bs).slotBytes 0 = 0xFF#8 :: l := by
    have h1 := map_range_succ 8191 (fun i => Tbl.get (flashAt (recordAt 1) bs) (recordAt 0 + i) 0xFF#8)
    have h2 : Tbl.get (flashAt (recordAt 1) bs) (recordAt 0 + 0) 0xFF#8 = 0xFF#8 := by
      rw [Tbl.get, find_before _ _ _ (by decide)]; rfl
    rw [h2] at h1
    unfold State.slotBytes
    rw [recorded_flash]; exact ⟨_, h1⟩
  obtain ⟨l, h⟩ := h
  rw [h, not_valid]

theorem recorded_restoring (bs : List Byte) : (recorded bs).fld R.EVT_STATUS_RESTORING = 1 := rfl

theorem newest_of (bs : List Byte) (h : bs.length = 8192) (hv : recordValid bs = true) : (recorded bs).newestRecord = some (1, bs) := by
  have h0 := slotBytes_zero bs
  have h1 := slotBytes_one bs h
  unfold State.newestRecord
  rw [h1]
  generalize (recorded bs).slotBytes 0 = x at h0
  simp only [h0, hv]

theorem meets_restore : (recorded record8).newestRecord = some (1, record8) ∧ (recorded record8).fld R.EVT_STATUS_RESTORING = 1 :=
  ⟨newest_of _ record8_length record8_valid, recorded_restoring _⟩

/-- The recorder that has restored, changed by `f`. -/
def restored (f : Evt → Evt) : State :=
  let s := put lab [(R.EVT_STATUS_RESTORING, 0)]
  { s with evt := f s.evt }

theorem meets_EventRecorder :
    [-200, -80, -76, -75, -1, 0, 4, 5, 79, 80, (2000 : Int)].length = 11 ∧ lab.domainOn 2 = true ∧ (ctrlOff lab).domainOn 2 = false ∧
    (∀ r ∈ [0, 7], lab.fld (R.BEAT_RAIL_CFG_RAIL_MAX r) = 0 ∧ (put lab [(R.BEAT_RAIL_CFG_RAIL_MAX r, 90)]).fld (R.BEAT_RAIL_CFG_RAIL_MAX r) ≠ 0) ∧
    (∀ k ∈ [0, 1], ∀ e ∈ [(restored id, true), (restored fun e => { e with erasing := some 1 }, false)],
      let s := put e.1 [(R.EVT_CTRL_PERIOD_MIN, 2), (R.EVT_OP_MINUTES_MIN, k)]
      ((s.opMinutes + 1) % 2 ^ 32 % max 1 (min 60 (s.fld R.EVT_CTRL_PERIOD_MIN)) = 0 ↔ k = 1) ∧
      (s.evt.writing = none ∧ s.evt.erasing = none ∧ s.fld R.EVT_STATUS_RESTORING ≠ 1 ↔ e.2 = true)) := by
  decide +kernel

theorem meets_recorderRecords :
    bit (1#32).toNat 0 = 1 ∧ bit (0xFFFFFFFE#32).toNat 0 = 0 ∧ (restored id).evt.writing = none ∧ (restored id).evt.erasing = none ∧
    (restored id).fld R.EVT_STATUS_RESTORING ≠ 1 ∧
    (∀ c ∈ [1, 2, 3, 4], ∀ b ∈ [false, true], ∀ due ∈ [[], [1]],
      let s := restored fun e => { e with writing := some ([1, 2], c), next := 2 ^ 32 - 1, clearing := b, due := due };
      s.evt.writing = some ([1, 2], c) ∧ c < 16 ∧ s.evt.clearing = b ∧ s.evt.due = due) ∧
    (∀ slot ∈ [0, 1], ∀ due ∈ [[], [1, 3]], let s := restored fun e => { e with erasing := some slot, due := due };
      s.evt.erasing = some slot ∧ s.evt.due = due ∧ s.evt.writing = none ∧ s.fld R.EVT_STATUS_RESTORING ≠ 1) := by
  decide +kernel

/-- The window's cursor at word `w` of source `src`, on the record in `slot`. -/
def cursorAt (src w : Nat) (slot : Option Nat) : State := put (restored fun e => { e with cursor := slot }) [(R.EVT_CURSOR_SOURCE, src), (R.EVT_CURSOR_WORD, w)]

theorem meets_recorderRestoreAndWindow :
    (let s := put (inMode 0) [(R.EVT_STATUS_RESTORING, 1)]
     s.fld R.EVT_STATUS_RESTORING = 1 ∧ (s.slotBad 0 || s.slotBad 1) = false ∧ s.newestRecord = none ∧ s.fld R.SYS_STRAPS_BOOT_SRC < 2 ∧
     s.mode = .sentry ∧ s.pmu.goal = []) ∧
    ({ lab with mem := { lab.mem with flash := [(recordAt 0, 0)] } } : State).slotBad 0 = true ∧ (restored id).fld R.EVT_STATUS_RESTORING ≠ 1 ∧
    (∀ m ∈ [0, 1], Reaches (put lab [(R.EVT_STATUS_RESTORING, 1)]) m 0x15F10034 ∧
      ∀ w ∈ [0, 2, 5, 2047], ∀ e ∈ [(0, none), (1, some 0), (1, some 1), (1, some 2), (1, none)], let s := cursorAt e.1 w e.2
      Reaches s m 0x15F10034 ∧ s.fld R.EVT_STATUS_RESTORING ≠ 1 ∧ s.fld R.EVT_CURSOR_SOURCE = e.1 ∧ s.fld R.EVT_CURSOR_WORD = w ∧
      s.evt.cursor = e.2) := by
  unfold Reaches Through; decide +kernel

theorem meets_TapPanel : lab.domainOn 2 = true ∧ (ctrlOff lab).domainOn 2 = false ∧ HostReaches lab 0x140F000C ∧
    lab.flm.operates = false ∧ Reaches (paired 4 3) 0 0x140F000C ∧ (paired 4 3).flm.operates = true ∧ (paired 4 3).flmState = 4 ∧
    (paired 4 3).fld R.TAP_MUTE_KEY_MUTED ≠ (3#32).toNat % 65536 ∧ Reaches (paired 3 4) 0 0x140F000C ∧ (paired 3 4).flmState = 3 ∧
    (let s := { lab with cfg := some { labCfg with taps := [⟨0, 0⟩, ⟨1, 64⟩, ⟨3, 0xC3⟩] } }
     s.fld R.TAP_MUTE_KEY_MUTED = 0 ∧ s.groupWords 0 ≠ s.groupWords 3) ∧
    (∀ k ∈ [0, 1, 2, 3], (put lab [(R.TAP_LED_SRC 7, k), (R.TAP_LED_INDEX 7, 15)]).fld (R.TAP_LED_SRC 7) = k) := by
  unfold HostReaches Reaches Through; decide +kernel

/-- An OTP command of operation `op`, target `t` and slot 255. -/
def otpBytes (op t : Nat) : List Byte :=
  leBytes 4 0x4350544F ++ leBytes 1 op ++ leBytes 1 t ++ [0xFF, 0] ++ serialBytes ++ List.replicate 168 0

theorem meets_otp : (put lab [(R.OTP_FP_STATE_PROGRAMMED, 0), (R.OTP_FP_STATE_REVOKED, 0)]).otpFailures (otpBytes 1 0) = [] ∧
    (put lab [(R.OTP_FP_STATE_PROGRAMMED, 2), (R.OTP_FP_STATE_REVOKED, 0)]).otpFailures (otpBytes 1 0) = [8] ∧
    leAt (otpBytes 1 0) 4 1 = 1 ∧ leAt (otpBytes 2 3) 4 1 = 2 ∧ leAt (otpBytes 2 3) 5 1 < 4 ∧ leAt (otpBytes 3 63) 4 1 = 3 ∧
    leAt (otpBytes 3 63) 5 1 < 64 := by
  have h : slice (otpBytes 1 0) 8 16 = serialBytes := rfl
  have h1 : (slice (otpBytes 1 0) 8 16 != serialBytes) = false := by rw [h]; exact bne_self_eq_false _
  refine ⟨?_, ?_, rfl, rfl, by decide +kernel, rfl, by decide +kernel⟩ <;>
  · unfold State.otpFailures
    simp only [h1]
    decide +kernel

theorem meets_IdentityAndOtp : bit (1#32).toNat 0 = 1 ∧ lab.fld R.ID_ATTEST_STATUS_BUSY = 0 ∧
    (put lab [(R.ID_ATTEST_STATUS_BUSY, 1)]).fld R.ID_ATTEST_STATUS_BUSY = 1 ∧ (0x07F50000#32).toNat / 65536 = 0x07F5 ∧
    (0x07F4FFFF#32).toNat / 65536 ≠ 0x07F5 ∧ lab.fld R.OTP_CMD_STATUS_BUSY = 0 ∧
    (put lab [(R.OTP_CMD_STATUS_BUSY, 1)]).fld R.OTP_CMD_STATUS_BUSY = 1 ∧ lab.ident.attest = none ∧ lab.ident.otp = [] ∧
    ({ lab.ident with attest := some (List.replicate 16 5) } : Ident).attest = some (List.replicate 16 5) ∧
    (∀ viaSmp, ({ lab.ident with otp := [(otpBytes 1 0, viaSmp)] } : Ident).otp = (otpBytes 1 0, viaSmp) :: []) ∧
    2 ≤ (lab.otpFailures []).length := by
  refine ⟨by decide +kernel, by decide +kernel, by decide +kernel, by decide +kernel, by decide +kernel, by decide +kernel, by decide +kernel, rfl, rfl, rfl,
    fun _ => rfl, by decide +kernel⟩

/-! ### Modes, resets and power -/

/-- The lab in mode `m` with another power manager. -/
def powered (m : Nat) (f : Pmu → Pmu) : State := { inMode m with pmu := f (inMode m).pmu }

theorem meets_PowerRequests : ((inMode 0).mode = .sentry ∧ (inMode 1).mode = .load ∧ (inMode 2).mode = .shadow ∧ (inMode 3).mode = .live ∧
      (inMode 4).mode = .limp ∧ (inMode 5).mode = .test) ∧ (inMode 0).pmu.goal = [] ∧ lab.flm.operates = false ∧ (paired 3 4).flm.operates = true := by
  decide +kernel

/-- The lab in mode `m` with request `a` waiting (none: 0), another power manager and further fields. -/
def asking (m a : Nat) (f : Pmu → Pmu) (fs : List (Fld × Nat)) : State :=
  let s := put (inMode m) ([(R.PMU_REQ_STATUS_ACTION, a), (R.PMU_REQ_STATUS_RESULT, 2)] ++ fs)
  { s with pmu := f { s.pmu with ask := if a = 0 then none else some a } }

/-- What every clause of PowerBoundary asks. -/
def awaits (s : State) : Bool :=
  decide (s.fld R.BLK_STATE_RUN = 1) && s.domainOn 2 && !s.flm.operates && decide (s.flmState = 0) && s.blk.realign.isNone

theorem meets_PowerBoundary :
    (let s := asking 3 1 (fun p => { p with sleepAt := some 101, ask := none }) [];
      awaits s = true ∧ s.pmu.sleepAt = some ((s.blk.index + 1) % 2 ^ 48) ∧ s.fld R.PMU_REQ_STATUS_ACTION = 1 ∧
      s.fld R.PMU_REQ_STATUS_RESULT = 2) ∧
    (∀ m ∈ [2, 3], ∀ sl ∈ ([none, some 102] : List (Option Nat)), let s := asking m 3 (fun p => { p with sleepAt := sl }) [(R.PMU_LIMP_STATUS_CAUSE, 16)];
      awaits s = true ∧ s.pmu.sleepAt ≠ some ((s.blk.index + 1) % 2 ^ 48) ∧ s.limpDue = true ∧ s.pmu.ask = some 3) ∧
    (∀ m ∈ [2, 3], ∀ a ∈ [1, 3, 4, 7], ∀ r ∈ [true, false], let s := { asking m a id [] with gate := ⟨r, none⟩ };
      awaits s = true ∧ s.pmu.sleepAt = none ∧ s.limpDue = false ∧ (s.mode = .shadow ∧ m = 2 ∨ s.mode = .live ∧ m = 3) ∧
      s.pmu.ask = some a ∧ s.gate.released = r ∧ s.fld R.PMU_REQ_STATUS_ACTION = a ∧ s.fld R.PMU_REQ_STATUS_RESULT = 2) := by
  decide +kernel

theorem meets_limpExit : (∀ a ∈ [0, 1], ∀ c ∈ [0, 1], ∀ sh ∈ [true, false], ∀ ph ∈ [1, 3],
      let s := asking 4 a (fun p => { p with exitAsked := c == 0, limpShadow := sh, exitAt := if ph = 3 then some 99 else none })
        [(R.PMU_CTRL_LIMP_AUTO_EXIT, c), (R.PMU_LIMP_STATUS_PHASE, ph), (R.PMU_REQ_STATUS_ACTION, 5)];
      awaits s = true ∧ s.pmu.sleepAt = none ∧ s.mode = .limp ∧ s.limpCauses = 0 ∧ s.pmu.hung = [] ∧
      (s.pmu.ask = none ∨ s.pmu.ask = some 1) ∧ s.fld R.PMU_LIMP_STATUS_PHASE = ph ∧ (s.pmu.exitAt = none ↔ ph = 1) ∧
      (s.fld R.PMU_CTRL_LIMP_AUTO_EXIT = 1 ∨ s.pmu.exitAsked = true) ∧ s.pmu.limpShadow = sh ∧ s.fld R.PMU_REQ_STATUS_ACTION = 5 ∧
      s.fld R.PMU_REQ_STATUS_RESULT = 2) := by
  decide +kernel

/-- An essential task on island 8. -/
def essentialCfg : Cfg := { labCfg with tasks := [⟨0, 8, 1, 100, 0, true, false, []⟩] }

theorem meets_Limp :
    (∀ m ∈ [2, 3], let s := put (inMode m) [(R.PMU_LIMP_STATUS_CAUSE, 16)]; s.limpDue = true ∧ s.pmu.hung = []) ∧ lab.limpDue = false ∧
    (let s := { put (powered 4 fun p => { p with limpAt := 98 }) [(R.PMU_LIMP_STATUS_CAUSE, 2)] with cfg := some essentialCfg };
      s.mode = .limp ∧ bit s.limpCauses causeThermal = 1 ∧ s.pmu.limpAt + 2 ≤ s.blk.index ∧ essentialCfg.essentialDomains ≠ [] ∧
      (∀ d ∈ powerSequence, s.domainState d = 2)) ∧
    (put lab [(R.PLL_STATUS_LOCKED 0, 1)]).fld (R.PLL_STATUS_LOCKED 0) = 1 ∧ (put lab [(R.PLL_STATUS_LOCKED 0, 0)]).fld (R.PLL_STATUS_LOCKED 0) ≠ 1 ∧
    (∀ n < 16, (put lab [(R.PMU_TEMP_T n, 140 * 128 - 1)]).tempOf n < 140 * 128) ∧ ¬((put lab [(R.PMU_TEMP_T 15, 140 * 128)]).tempOf 15 < 140 * 128) ∧
    (powered 4 fun p => { p with hung := [8] }).pmu.hung ≠ [] ∧ (powered 4 fun p => { p with failed := [8] }).pmu.failed ≠ [] ∧
    lab.pmu.hung = [] ∧ lab.pmu.failed = [] ∧ lab.pmu.exitAt = none ∧ 4 ∈ mainRails ∧ 99 ∉ mainRails ∧
    (∀ l ∈ [100, 101], let s := put (powered 4 fun p => { p with exitAt := some l }) [(R.PMU_LIMP_STATUS_PHASE, 2)];
      s.pmu.exitAt = some l ∧ s.mode = .limp ∧ (l ≤ s.blk.index ↔ l = 100) ∧ s.pmu.goal = [] ∧ s.limpCauses = 0 ∧ s.fld R.PMU_LIMP_STATUS_PHASE = 2) ∧
    (∀ i ∈ [0, 25], lab.islandOn i = true ∧ (Tbl.get lab.blk.arrived i (0, 0)).2 < lab.blk.seq ∧ ¬((Tbl.get here.blk.arrived i (0, 0)).2 < here.blk.seq) ∧
      Tbl.get here.blk.missed i 0 < 16 ∧ 16 ≤ Tbl.get { here.blk with missed := [(i, 16)] }.missed i 0) := by
  decide +kernel

theorem meets_Resets : HostReaches lab 0x14000004 ∧ (0x5A1D0000#32).toNat / 65536 = 0x5A1D ∧ (0x5A1CFFFF#32).toNat / 65536 ≠ 0x5A1D ∧
    lab.evt.writing = none ∧ lab.evt.erasing = none ∧ (∀ w ∈ [0, 1, 2, 3], (bits w 1 0 < 2 ↔ w < 2)) ∧
    (∀ k ∈ [0, 1], ({ lab with evt := { lab.evt with erasing := some k } } : State).evt.erasing = some k) ∧ ¬(recordAt 2 - 1 < recordAt 0) := by
  unfold HostReaches Reaches Through; decide +kernel

theorem meets_DomainsAndBoot :
    (∀ d ∈ powerSequence, let s := powered 0 fun p => { p with goal := [d, 12] }; s.pmu.goal.head? = some d ∧ s.pmu.offs = []) ∧
    (let s := put (powered 0 fun p => { p with goal := [2, 12] }) [(R.PLL_STATUS_LOCKED 0, 0), (R.PMU_DOMAIN_STATE_STATE, 0)];
      s.domainState 2 ≠ 3 ∧ s.fld (R.PLL_STATUS_LOCKED 0) ≠ 1) ∧
    (∀ b ∈ [0, 1, 2, 3], ∀ sl ∈ ([none, some 3] : List (Option Nat)), ∀ te ∈ [true, false],
      let s := put (powered 0 fun p => { p with goal := [12], slot := sl, test := te }) [(R.SYS_STRAPS_BOOT_SRC, b)];
      s.pmu.goal.head? = some 12 ∧ s.pmu.offs = [] ∧ s.mode = .sentry ∧ s.fld (R.PLL_STATUS_LOCKED 0) = 1 ∧ s.domainState 12 ≠ 3 ∧
      s.pmu.test = te ∧ s.pmu.slot = sl ∧ (s.fld R.SYS_STRAPS_BOOT_SRC = 1 ↔ b = 1)) ∧
    (let s := put (powered 4 fun p => { p with goal := [12] }) [(R.PMU_DOMAIN_STATE_STATE, 0xFFFFFF)];
      s.pmu.goal.head? = some 12 ∧ s.pmu.offs = [] ∧ s.domainState 12 = 3 ∧ s.mode ≠ .sentry) ∧
    (let s := put (powered 0 fun p => { p with goal := [12] }) [(R.PLL_STATUS_LOCKED 0, 0)];
      s.mode = .sentry ∧ s.fld (R.PLL_STATUS_LOCKED 0) ≠ 1) ∧
    (∀ d ∈ powerSequence, (powered 0 fun p => { p with offs := [d, 2] }).pmu.offs.head? = some d) ∧ lab.pmu.offs.head? = none ∧ lab.pmu.goal = [] := by
  decide +kernel

/-- A structure whose START_MODE is `m` and whose RATE_B is `b`. -/
def startCfg (m b : Nat) : Cfg := { labCfg with sys := { labCfg.sys with startMode := m, rateB := b } }

/-- The lab in LOAD before its first token, waiting for network time or not. -/
def booting (c : Cfg) (op done : Bool) (wait : Nat) (servo : Nat) : State :=
  let s := put (powered 1 fun p => { p with ptpDone := done }) [(R.BLK_STATE_RUN, 0), (R.PMU_CTRL_WAIT_PTP, wait), (R.TU_SERVO_STATE_STATE 0, servo)]
  { s with cfg := some c, flm := { s.flm with operates := op } }

theorem meets_firstToken : (∀ m ∈ [0, 1], ∀ b ∈ [0, 1], ∀ op ∈ [true, false],
      ∀ w ∈ [(0, false, 0), (1, true, 0), (1, false, 3)], let s := booting (startCfg m b) op w.2.1 w.1 w.2.2;
      s.cfg = some (startCfg m b) ∧ s.mode = .load ∧ s.pmu.goal = [] ∧ s.fld R.BLK_STATE_RUN = 0 ∧ s.fld (R.PLL_STATUS_LOCKED 0) = 1 ∧
      s.fld (R.PLL_STATUS_LOCKED 1) = 1 ∧ s.fld (R.PLL_STATUS_LOCKED 2) = 1 ∧ ((startCfg m b).sys.rateB = 0 ↔ b = 0) ∧
      ((startCfg m b).sys.startMode = 1 ↔ m = 1) ∧ s.flm.operates = op ∧ (s.fld R.PMU_CTRL_WAIT_PTP = 0 ↔ w.1 = 0) ∧ s.pmu.ptpDone = w.2.1 ∧
      (s.fld (R.TU_SERVO_STATE_STATE (s.fld R.TU_CTRL_SYS_INST)) = 3 ↔ w.2.2 = 3)) ∧
    lab.mode ≠ .load ∧ ({ lab with cfg := none } : State).cfg = none := by
  decide +kernel

theorem meets_temperatures :
    (∀ x ∈ [-5120, 150 * 128 - 1, 150 * 128, 32767], (List.replicate 16 (x : Int)).length = 16 ∧
      (∀ y ∈ List.replicate 16 (x : Int), -5120 ≤ y ∧ y < 32768) ∧
      ((∃ n < 16, 150 * 128 ≤ (List.replicate 16 (x : Int)).getD n 0 ∧ n ∈ (powered 3 fun p => { p with hot := [15] }).pmu.hot) ↔ 150 * 128 ≤ x)) ∧
    ∀ m ∈ [2, 3, 4], (inMode m).mode = .shadow ∨ (inMode m).mode = .live ∨ (inMode m).mode = .limp := by decide +kernel

theorem meets_TemperaturePowerFailureAndLink : lab.pmu.warn = false ∧ lab.warnAt ≤ (hottest (List.replicate 16 lab.warnAt)).2 ∧
    (hottest (List.replicate 16 (lab.warnAt - 1))).2 < lab.warnAt ∧ (powered 3 fun p => { p with warn := true }).pmu.warn = true ∧
    lab.pmu.pwrFail = false ∧ (paired 4 3).flmState = 4 ∧
    (put lab [(R.EVT_STATUS_RESTORING, 0)]).fld R.EVT_STATUS_RESTORING ≠ 1 ∧ lab.evt.writing = none ∧ lab.evt.erasing = none ∧
    (let s := powered 3 fun p => { p with pwrFail := true }; s.pmu.pwrFail = true ∧ s.mode ≠ .sentry ∧ s.pmu.shut = false ∧ s.mode = .live ∧
      s.pmu.handed = false ∧ s.gate.released = false) ∧
    (let s := powered 4 fun p => { p with pwrFail := true, limpShadow := false }; s.pmu.pwrFail = true ∧ s.pmu.shut = false ∧ s.mode = .limp ∧
      s.pmu.limpShadow = false ∧ s.pmu.handed = false ∧ s.gate.released = false) ∧
    (powered 0 fun p => { p with pwrFail := true, goal := [2] }).pmu.goal ≠ [] ∧
    (put lab [(R.PMU_TEMP_T 15, 120 * 128)]).tempOf 15 = 120 * 128 ∧ (put lab [(R.PMU_CTRL_PF_RESTART, 0)]).fld R.PMU_CTRL_PF_RESTART ≠ 1 ∧
    (put lab [(R.PMU_CTRL_THERM_RESTART, 0)]).fld R.PMU_CTRL_THERM_RESTART ≠ 1 ∧
    (powered 0 fun p => { p with pwrFail := true, shut := true }).pmu.shut = true ∧
    (let s := put (powered 0 fun p => { p with shut := true, tripped := true }) [(R.PMU_CTRL_PF_RESTART, 1), (R.PMU_CTRL_THERM_RESTART, 1)];
      s.mode = .sentry ∧ s.pmu.goal = [] ∧ s.pmu.shut = true ∧ s.pmu.pwrFail = false ∧ s.fld R.PMU_CTRL_PF_RESTART = 1 ∧ s.pmu.tripped = true ∧
      s.fld R.PMU_CTRL_THERM_RESTART = 1 ∧ (∀ n < 16, s.tempOf n < 120 * 128)) ∧ lab.pmu.shut = false ∧ lab.pmu.tripped = false ∧
    lab.domainOn 2 = true ∧ (put lab [(R.SYS_ISLAND_POWERED 1, 0), (R.SYS_ISLAND_POWERED 0, 0)]).domainOn 2 = false := by
  decide +kernel

/-! ### Ill-formed commands, and single steps -/

theorem test_illFormed : ∀ i ∈ [Instr.tokenArrival 26, .islandHang 26, .adds 64, .mul2 64, .handshakeWord 26 0 none, .handshakeWord 0 26 none,
    .commitGo (.aes 8) 0 0, .commitGo .cln 256 0, .commitGo .cln 0 4, .commitCancel (.net 4), .commitApply (.pll 0), .commitApply (.pll 3),
    .registerWrite 24 0 0, .registerWrite 0 0x100000000 0, .pealLoadFlash 256, .realignRequest 0x10000, .testEnter 0x10000, .masterResetDone 24,
    .brgOutOfRange 24, .xpSet 2048 0 0 0, .xpSet 0 1024 0 0, .xpSet 0 0 0 16, .xpList 0x100000000 1 0, .xpClearOut 1024 0, .xpClearIn 2048 0,
    .clvRefLos 16, .xpRampEnd 2048 0, .outFactorRampEnd 1024, .bankSelect 0 1 0 2, .presetLoad 64 0 0 0, .presetLoad 0 16 0 0,
    .coefWrite 512 0 0 1 0, .coefWrite 0 2 0 1 0, .bankFadeEnd 512, .dmaStart 64 0 0, .dmaStart 0 4 0, .mboxOutRead 24 0, .mboxOutRead 0 64,
    .malClCountClear 4, .malDataWindowWrite 0 4 0 0, .malDataWindowWrite 0 0 0x10000 0, .paramList 64 0 1, .delaySet 2048 0 0, .delayFadeEnd 2048,
    .msixTableWrite 512 0, .fenceRelease 64, .cmdApply (.mal 4) .error, .sysBarrierWrite 24 0, .sysBarrierWrite 0 0x10000, .prtMaskApply 16,
    .aesFrameTx 8, .portMute 4 0 1 0 1, .portMute 0 0 1 0 256, .portFrameError 32, .portLost 32 1, .portLost 0 16, .netLinkUp 4,
    .streamPacketTx 256, .rtpPacketRx 0 2 [] 0, .netSend 4 0 60 0 .error, .ptpNoParentTimeout 2, .pllLossOfLock 4, .tuCapNsRead 24 0,
    .clvRefSet 16 0 0 0, .clvRefSet 0 2 0 0, .pllPhaseStepWrite 0 0, .beatClear 32 1, .beatRetry 32, .beatRailFault 8, .flmLinkUp 2,
    .resetNAssert 16, .limpCauseClear 5, .railDrop 11, .domainOn 13], i.wf = false := by decide +kernel

theorem test_wellFormed : ∀ i ∈ [Instr.tokenArrival 25, .adds 63, .commitGo (.aes 7) 255 3, .commitApply (.pll 2), .registerWrite 23 0xFFFFFFFF 0,
    .xpSet 2047 1023 0 15, .presetLoad 63 15 0 0, .coefWrite 511 1 0 1 0xFFFFFFFF, .malDataWindowWrite 23 3 0xFFFF 0, .delaySet 2047 0 0,
    .portLost 31 15, .beatRetry 31, .limpCauseClear 4, .railDrop 10, .domainOn 12, .wake], i.wf = true := by decide +kernel

theorem test_step_takesFront : (match step { lab with pending := [.goShadow, .sleep] } with | .next t => t.pending | _ => []) = [.sleep] := by
  decide +kernel

/-- That bundle with X0 and Y0 one half: their product is exact at 56 bits (R148). -/
theorem test_mul2_product : (match exec (.mul2 0) (mallet 0 0x300824D3 0 fun c => (((c.wr 0 0x400000).wr 4 0x400000).wr 17 5).wr 19 9) with
    | .next t => ((t.core 0).pend.head?.map (fun p => (p.reg, p.val)), (t.core 0).pc) | _ => (none, 0)) = (some (8, 2 ^ 45), 101) := by
  decide +kernel

/-- BSCALE of the same pass: BE was left at 0x1901, and becomes 0x1D17 (R163). -/
theorem test_bscale_worked : (match exec (.bscale 0) (mallet 0 (4 * 2 ^ 29 + 2 * 2 ^ 26) 0 fun c => ((c.wr 51 0x1901).wr 50 0x800)) with
    | .next t => (t.core 0).rd 51 | _ => 0) = 0x1D17 := by decide +kernel

end Sys2Proof.Machine.Tests
end

section
namespace Sys2Proof.Machine

/-! ### The invariant of a whole command and of a step -/

/-- Whatever the command, the state it answers holds the same queue, and its stores stand in their one form. -/
theorem exec_sound {q : List Instr} (i : Instr) (s : State) (h : s.Sound q) : NextSound q (exec i s) :=
  match i with
  | .blockToken tuSample => execBlockToken_sound tuSample s h
  | .tokenArrival island => execTokenArrival_sound island s h
  | .taskDispatch task old load => execTaskDispatch_sound task old load s h
  | .taskOverrun core => execTaskOverrun_sound core s h
  | .handshakeWord src dst send => execHandshakeWord_sound src dst send s h
  | .commitGo b tag whenCode => execCommitGo_sound b tag whenCode s h
  | .commitCancel b => execCommitCancel_sound b s h
  | .commitApply b => execCommitApply_sound b s h
  | .registerWrite master addr value => execRegisterWrite_sound master addr value s h
  | .hostRead bar2 off len => execHostRead_sound bar2 off len s h
  | .hostWrite bar2 off data => execHostWrite_sound bar2 off data s h
  | .atomicOp bar2 off op wide operand compare => execAtomicOp_sound bar2 off op wide operand compare s h
  | .pcieReset kind => execPcieReset_sound kind s h
  | .pealLoadHost => execPealLoadHost_sound s h
  | .pealLoadFlash slot => execPealLoadFlash_sound slot s h
  | .pealLoadAbort => execPealLoadAbort_sound s h
  | .flashCopyDone => execFlashCopyDone_sound s h
  | .verifyDone => execVerifyDone_sound s h
  | .planeWrite master addr data => execPlaneWrite_sound master addr data s h
  | .swapPrepared => execSwapPrepared_sound s h
  | .swapAbort => execSwapAbort_sound s h
  | .swapStart => execSwapStart_sound s h
  | .swapHoldEnd => execSwapHoldEnd_sound s h
  | .swapXfadeEnd => execSwapXfadeEnd_sound s h
  | .realignRequest key => execRealignRequest_sound key s h
  | .realignSetIndex tuSample => execRealignSetIndex_sound tuSample s h
  | .blkTick => execBlkTick_sound s h
  | .blkIndexLoRead master => execBlkIndexLoRead_sound master s h
  | .blkCountClear => execBlkCountClear_sound s h
  | .sxmWriteRefused master addr => execSxmWriteRefused_sound master addr s h
  | .brgSourceLock source ratio => execBrgSourceLock_sound source ratio s h
  | .brgOutOfRange source => execBrgOutOfRange_sound source s h
  | .brgNoClock source => execBrgNoClock_sound source s h
  | .brgAcquire source => execBrgAcquire_sound source s h
  | .xpSet input output gain slot => execXpSet_sound input output gain slot s h
  | .xpList addr count slot => execXpList_sound addr count slot s h
  | .xpListFetchDone id resp => execXpListFetchDone_sound id resp s h
  | .xpClearOut output slot => execXpClearOut_sound output slot s h
  | .xpClearIn input slot => execXpClearIn_sound input slot s h
  | .outMute first count mute => execOutMute_sound first count mute s h
  | .xpWindowWrite master addr value => execXpWindowWrite_sound master addr value s h
  | .clnXpTgtWrite value => execClnXpTgtWrite_sound value s h
  | .clnRampSlotWrite slot value => execClnRampSlotWrite_sound slot value s h
  | .xpRampEnd input output => execXpRampEnd_sound input output s h
  | .outFactorRampEnd output => execOutFactorRampEnd_sound output s h
  | .clnCountClear => execClnCountClear_sound s h
  | .bankSelect first count xfLen bank => execBankSelect_sound first count xfLen bank s h
  | .presetLoad array preset flags xfLen => execPresetLoad_sound array preset flags xfLen s h
  | .coefWrite filter bank first count addr => execCoefWrite_sound filter bank first count addr s h
  | .coefWriteFetchDone id resp => execCoefWriteFetchDone_sound id resp s h
  | .chmSelectWrite value => execChmSelectWrite_sound value s h
  | .chmPresetReqWrite value => execChmPresetReqWrite_sound value s h
  | .chmCoefWindowWrite master addr data => execChmCoefWindowWrite_sound master addr data s h
  | .chmCwDataWrite value => execChmCwDataWrite_sound value s h
  | .presetHeaderFetchDone => execPresetHeaderFetchDone_sound s h
  | .presetLoadStart => execPresetLoadStart_sound s h
  | .presetLoadComplete => execPresetLoadComplete_sound s h
  | .presetSwapAfter => execPresetSwapAfter_sound s h
  | .bankFadeEnd filter => execBankFadeEnd_sound filter s h
  | .chmCountClear => execChmCountClear_sound s h
  | .nop core => execNop_sound core s h
  | .bra core => execBra_sound core s h
  | .call core => execCall_sound core s h
  | .ret core => execRet_sound core s h
  | .jmp core => execJmp_sound core s h
  | .callr core => execCallr_sound core s h
  | .rtif core => execRtif_sound core s h
  | .rtin core => execRtin_sound core s h
  | .tend core => execTend_sound core s h
  | .loopi core => execLoopi_sound core s h
  | .loopr core => execLoopr_sound core s h
  | .loopl core => execLoopl_sound core s h
  | .loopClose core => execLoopClose_sound core s h
  | .leave core => execLeave_sound core s h
  | .rpti core => execRpti_sound core s h
  | .rptr core => execRptr_sound core s h
  | .bsync core => execBsync_sound core s h
  | .wait core => execWait_sound core s h
  | .bin core => execBin_sound core s h
  | .binp core => execBinp_sound core s h
  | .bout core => execBout_sound core s h
  | .busTransferComplete core cycles => execBusTransferComplete_sound core cycles s h
  | .mla2 core => execMla2_sound core s h
  | .mlas core => execMlas_sound core s h
  | .mul2 core => execMul2_sound core s h
  | .mls2 core => execMls2_sound core s h
  | .aluNop core => execAluNop_sound core s h
  | .zero core => execZero_sound core s h
  | .copy core => execCopy_sound core s h
  | .adds core => execAdds_sound core s h
  | .subs core => execSubs_sound core s h
  | .negt core => execNegt_sound core s h
  | .magn core => execMagn_sound core s h
  | .shla core => execShla_sound core s h
  | .shra core => execShra_sound core s h
  | .rndh core => execRndh_sound core s h
  | .maxs core => execMaxs_sound core s h
  | .mins core => execMins_sound core s h
  | .comp core => execComp_sound core s h
  | .test core => execTest_sound core s h
  | .and core => execAnd_sound core s h
  | .ior core => execIor_sound core s h
  | .xor core => execXor_sound core s h
  | .mul core => execMul_sound core s h
  | .mula core => execMula_sound core s h
  | .muls core => execMuls_sound core s h
  | .ldi core => execLdi_sound core s h
  | .ldl core => execLdl_sound core s h
  | .move core => execMove_sound core s h
  | .addp core => execAddp_sound core s h
  | .addpl core => execAddpl_sound core s h
  | .movcFromCcr core => execMovcFromCcr_sound core s h
  | .movcToCcr core => execMovcToCcr_sound core s h
  | .ldr core => execLdr_sound core s h
  | .str core => execStr_sound core s h
  | .mov2 core => execMov2_sound core s h
  | .bfly core => execBfly_sound core s h
  | .bexp core => execBexp_sound core s h
  | .bscale core => execBscale_sound core s h
  | .beclr core => execBeclr_sound core s h
  | .slowPathLoadDone core cycles => execSlowPathLoadDone_sound core cycles s h
  | .fastAccept core => execFastAccept_sound core s h
  | .normalAccept core => execNormalAccept_sound core s h
  | .timerExpiry core => execTimerExpiry_sound core s h
  | .dmaStart core channel value => execDmaStart_sound core channel value s h
  | .dmaComplete core channel resp => execDmaComplete_sound core channel resp s h
  | .mboxInWrite core value => execMboxInWrite_sound core value s h
  | .mboxOutRead master core => execMboxOutRead_sound master core s h
  | .malClBroadcastWrite cluster value => execMalClBroadcastWrite_sound cluster value s h
  | .malProgramCcrWrite master addr => execMalProgramCcrWrite_sound master addr s h
  | .malDataWindowWrite master cluster word value => execMalDataWindowWrite_sound master cluster word value s h
  | .paramSet core count start values => execParamSet_sound core count start values s h
  | .paramList core count addr => execParamList_sound core count addr s h
  | .paramListFetchDone id resp => execParamListFetchDone_sound id resp s h
  | .malClCountClear cluster => execMalClCountClear_sound cluster s h
  | .delaySet line xf delay => execDelaySet_sound line xf delay s h
  | .delayList count xf addr => execDelayList_sound count xf addr s h
  | .delayListFetchDone id resp => execDelayListFetchDone_sound id resp s h
  | .dplDelaySetWrite value => execDplDelaySetWrite_sound value s h
  | .delayFadeEnd line => execDelayFadeEnd_sound line s h
  | .lineStorageWrite master addr => execLineStorageWrite_sound master addr s h
  | .dplHashSeedWrite value => execDplHashSeedWrite_sound value s h
  | .scrubRead addr err => execScrubRead_sound addr err s h
  | .dplCountClear => execDplCountClear_sound s h
  | .xbRequest master tag addr len data age rounds lock resp => execXbRequest_sound master tag addr len data age rounds lock resp s h
  | .xbWatchdogQuarantine master nanos => execXbWatchdogQuarantine_sound master nanos s h
  | .xbMasterReset master value => execXbMasterReset_sound master value s h
  | .masterResetDone master => execMasterResetDone_sound master s h
  | .obTimeout master => execObTimeout_sound master s h
  | .xbCountClear => execXbCountClear_sound s h
  | .msixTableWrite word value => execMsixTableWrite_sound word value s h
  | .msixModerationExpiry ring => execMsixModerationExpiry_sound ring s h
  | .ringEnable ring value => execRingEnable_sound ring value s h
  | .ringDisable ring value => execRingDisable_sound ring value s h
  | .ringCfgWrite ring value => execRingCfgWrite_sound ring value s h
  | .ringTailWrite ring value => execRingTailWrite_sound ring value s h
  | .ringHeadWrite ring value => execRingHeadWrite_sound ring value s h
  | .ringResizeRequest ring value => execRingResizeRequest_sound ring value s h
  | .ringResizeCancel ring => execRingResizeCancel_sound ring s h
  | .ringResizeApply ring => execRingResizeApply_sound ring s h
  | .ringResizeTimeout ring => execRingResizeTimeout_sound ring s h
  | .ringFetch ring resp => execRingFetch_sound ring resp s h
  | .ringNop ring cookie flags stamp => execRingNop_sound ring cookie flags stamp s h
  | .fence ring cookie cpl irq waitRing waitEn waitIndex => execFence_sound ring cookie cpl irq waitRing waitEn waitIndex s h
  | .fenceRelease ring => execFenceRelease_sound ring s h
  | .write32 ring cookie cpl irq stamp addr value mask resp => execWrite32_sound ring cookie cpl irq stamp addr value mask resp s h
  | .cmdApply e resp => execCmdApply_sound e resp s h
  | .rngCountClear => execRngCountClear_sound s h
  | .sysBarrierWrite master token => execSysBarrierWrite_sound master token s h
  | .barrierDone master => execBarrierDone_sound master s h
  | .prtCtrlWrite port value => execPrtCtrlWrite_sound port value s h
  | .aesCtrlWrite n value => execAesCtrlWrite_sound n value s h
  | .prtMaskWrite port mask inGuard => execPrtMaskWrite_sound port mask inGuard s h
  | .prtMaskApply port => execPrtMaskApply_sound port s h
  | .prtMask port mask => execPrtMask_sound port mask s h
  | .portMute kind first count mute ramp => execPortMute_sound kind first count mute ramp s h
  | .portFrame port slots => execPortFrame_sound port slots s h
  | .portLock unit rateMhz => execPortLock_sound unit rateMhz s h
  | .portLost unit cause => execPortLost_sound unit cause s h
  | .portFrameError unit => execPortFrameError_sound unit s h
  | .portPrerollDone unit => execPortPrerollDone_sound unit s h
  | .portStopRampDone unit => execPortStopRampDone_sound unit s h
  | .portPostrollDone unit => execPortPostrollDone_sound unit s h
  | .aesFrameRx n z subs => execAesFrameRx_sound n z subs s h
  | .aesCsBlockComplete n => execAesCsBlockComplete_sound n s h
  | .aesFrameTx n => execAesFrameTx_sound n s h
  | .prtCountClear ports => execPrtCountClear_sound ports s h
  | .aesCountClear xcvrs => execAesCountClear_sound xcvrs s h
  | .netFrameRx port frame ok full t residence => execNetFrameRx_sound port frame ok full t residence s h
  | .rtpPacketRx stream leg packet t => execRtpPacketRx_sound stream leg packet t s h
  | .llPacketRx stream leg packet t => execLlPacketRx_sound stream leg packet t s h
  | .streamPacketTx stream => execStreamPacketTx_sound stream s h
  | .netSend port flags length addr resp => execNetSend_sound port flags length addr resp s h
  | .netSendDone port t => execNetSendDone_sound port t s h
  | .streamMute first count mute ramp => execStreamMute_sound first count mute ramp s h
  | .netCtlRxReleaseWrite port value => execNetCtlRxReleaseWrite_sound port value s h
  | .netLinkUp port => execNetLinkUp_sound port s h
  | .netLinkDown port => execNetLinkDown_sound port s h
  | .netCountClear value => execNetCountClear_sound value s h
  | .ptpDelayReqTimer inst t => execPtpDelayReqTimer_sound inst t s h
  | .ptpNoParentTimeout inst => execPtpNoParentTimeout_sound inst s h
  | .tuTimeLatchWrite inst t => execTuTimeLatchWrite_sound inst t s h
  | .tuOutEdge n t => execTuOutEdge_sound n t s h
  | .tuCapEdge n fall t => execTuCapEdge_sound n fall t s h
  | .tuCapNsRead master n => execTuCapNsRead_sound master n s h
  | .clvGateEnd long fs temp xo => execClvGateEnd_sound long fs temp xo s h
  | .clvSwitch phi => execClvSwitch_sound phi s h
  | .clvRefLos slot => execClvRefLos_sound slot s h
  | .clvWtrExpiry slot => execClvWtrExpiry_sound slot s h
  | .clvLock => execClvLock_sound s h
  | .clvSlewDone => execClvSlewDone_sound s h
  | .loInLost => execLoInLost_sound s h
  | .loInRestore => execLoInRestore_sound s h
  | .clvMode mode forceSlot phase => execClvMode_sound mode forceSlot phase s h
  | .clvRefSet slot enable rank wtr => execClvRefSet_sound slot enable rank wtr s h
  | .wclkAlignEdge n errPs => execWclkAlignEdge_sound n errPs s h
  | .pllLossOfLock n => execPllLossOfLock_sound n s h
  | .pllLocked n us band => execPllLocked_sound n us band s h
  | .fallbackReturnTimer => execFallbackReturnTimer_sound s h
  | .pllBypassExit n => execPllBypassExit_sound n s h
  | .pllPhaseStepWrite n value => execPllPhaseStepWrite_sound n value s h
  | .beatMute first count mute ramp => execBeatMute_sound first count mute ramp s h
  | .beatEnable first count enable => execBeatEnable_sound first count enable s h
  | .beatClear first count => execBeatClear_sound first count s h
  | .beatDiag first count => execBeatDiag_sound first count s h
  | .beatCtrlWrite n value => execBeatCtrlWrite_sound n value s h
  | .beatDiagDone n vcMilli code vPkMv => execBeatDiagDone_sound n vcMilli code vPkMv s h
  | .beatCurrentTrip n cycles vcMilli vd ref => execBeatCurrentTrip_sound n cycles vcMilli vd ref s h
  | .beatSenseFault n => execBeatSenseFault_sound n s h
  | .beatRailFault r => execBeatRailFault_sound r s h
  | .beatRetry n => execBeatRetry_sound n s h
  | .beatPrerollDone n => execBeatPrerollDone_sound n s h
  | .beatRampDone n => execBeatRampDone_sound n s h
  | .beatPresenceChange n => execBeatPresenceChange_sound n s h
  | .beatGridRelock n => execBeatGridRelock_sound n s h
  | .beatCountClear => execBeatCountClear_sound s h
  | .flmHeartbeatRx link payload skew => execFlmHeartbeatRx_sound link payload skew s h
  | .flmMirrorMsgRx blk items regions => execFlmMirrorMsgRx_sound blk items regions s h
  | .flmResyncChunkRx blk bytes objs last => execFlmResyncChunkRx_sound blk bytes objs last s h
  | .flamOwnReleased => execFlamOwnReleased_sound s h
  | .flamSelReleased => execFlamSelReleased_sound s h
  | .flmOwnWatchdog => execFlmOwnWatchdog_sound s h
  | .flmTakeover => execFlmTakeover_sound s h
  | .flmYieldEnd => execFlmYieldEnd_sound s h
  | .flmPairingTimeout => execFlmPairingTimeout_sound s h
  | .flmResyncComplete => execFlmResyncComplete_sound s h
  | .flmWtrExpiry => execFlmWtrExpiry_sound s h
  | .flmCmdHandover => execFlmCmdHandover_sound s h
  | .flmCmdResync => execFlmCmdResync_sound s h
  | .flmHandoverWrite value => execFlmHandoverWrite_sound value s h
  | .flmResyncWrite value => execFlmResyncWrite_sound value s h
  | .flmRealignWrite value => execFlmRealignWrite_sound value s h
  | .flmCountClear => execFlmCountClear_sound s h
  | .smpRequestFrame frame => execSmpRequestFrame_sound frame s h
  | .smpResponseRead => execSmpResponseRead_sound s h
  | .smpCommandComplete => execSmpCommandComplete_sound s h
  | .getInfo => execGetInfo_sound s h
  | .read32 ext => execRead32_sound ext s h
  | .smpWrite32 => execSmpWrite32_sound s h
  | .rmw32 ext => execRmw32_sound ext s h
  | .mirrorRead => execMirrorRead_sound s h
  | .pmuRequest => execPmuRequest_sound s h
  | .resetMain straps => execResetMain_sound straps s h
  | .loadFlash => execLoadFlash_sound s h
  | .flamHandover => execFlamHandover_sound s h
  | .evtUnlock => execEvtUnlock_sound s h
  | .evtUnlockExpiry => execEvtUnlockExpiry_sound s h
  | .evtClear => execEvtClear_sound s h
  | .evtSnapshot => execEvtSnapshot_sound s h
  | .flashRead => execFlashRead_sound s h
  | .flashErase ok => execFlashErase_sound ok s h
  | .flashProgram ok => execFlashProgram_sound ok s h
  | .attest => execAttest_sound s h
  | .otpCommand => execOtpCommand_sound s h
  | .smpHostGoWrite value => execSmpHostGoWrite_sound value s h
  | .smpMirrorRefresh => execSmpMirrorRefresh_sound s h
  | .evtSecondTick devs => execEvtSecondTick_sound devs s h
  | .evtMinuteTick => execEvtMinuteTick_sound s h
  | .evtRequestWrite value => execEvtRequestWrite_sound value s h
  | .evtRecordWritten ok us => execEvtRecordWritten_sound ok us s h
  | .evtPreEraseDone => execEvtPreEraseDone_sound s h
  | .evtRestore => execEvtRestore_sound s h
  | .evtCursorWrite value => execEvtCursorWrite_sound value s h
  | .evtWindowRead master => execEvtWindowRead_sound master s h
  | .tapSample keys pres => execTapSample_sound keys pres s h
  | .tapEncSample levels => execTapEncSample_sound levels s h
  | .tapMuteKeyWrite value => execTapMuteKeyWrite_sound value s h
  | .idAttestGoWrite value => execIdAttestGoWrite_sound value s h
  | .attestDone => execAttestDone_sound s h
  | .otpCmdGoWrite value => execOtpCmdGoWrite_sound value s h
  | .otpCommandDone fuseOk => execOtpCommandDone_sound fuseOk s h
  | .sleep => execSleep_sound s h
  | .wake => execWake_sound s h
  | .goLive => execGoLive_sound s h
  | .goShadow => execGoShadow_sound s h
  | .limpEnter => execLimpEnter_sound s h
  | .limpExit => execLimpExit_sound s h
  | .testEnter key => execTestEnter_sound key s h
  | .testExit => execTestExit_sound s h
  | .limpEntry => execLimpEntry_sound s h
  | .limpRetention => execLimpRetention_sound s h
  | .limpCauseClear cause => execLimpCauseClear_sound cause s h
  | .limpReturn => execLimpReturn_sound s h
  | .islandHang island => execIslandHang_sound island s h
  | .railDrop rail => execRailDrop_sound rail s h
  | .sysResetWrite value straps => execSysResetWrite_sound value straps s h
  | .resetNAssert straps => execResetNAssert_sound straps s h
  | .aoReset por straps => execAoReset_sound por straps s h
  | .domainOn d => execDomainOn_sound d s h
  | .domainOff d => execDomainOff_sound d s h
  | .railTimeout => execRailTimeout_sound s h
  | .bootFirstToken tuSample => execBootFirstToken_sound tuSample s h
  | .ptpWaitTimeout => execPtpWaitTimeout_sound s h
  | .pmuTempSample temps => execPmuTempSample_sound temps s h
  | .thermalTrip straps => execThermalTrip_sound straps s h
  | .thermRestartWake => execThermRestartWake_sound s h
  | .pwrFailAssert => execPwrFailAssert_sound s h
  | .pwrFailShutdown => execPwrFailShutdown_sound s h
  | .pwrFailDeassert => execPwrFailDeassert_sound s h
  | .pfRestartWake => execPfRestartWake_sound s h
  | .pcieLinkUp width speed => execPcieLinkUp_sound width speed s h
  | .pciePowerStateChange d3 => execPciePowerStateChange_sound d3 s h
  | .flmLinkDown link => execFlmLinkDown_sound link s h
  | .flmLinkUp link => execFlmLinkUp_sound link s h
  | .pll03Return => execPll03Return_sound s h
  | .loInReturn => execLoInReturn_sound s h
  | .wclkInputMissed n => execWclkInputMissed_sound n s h
  | .vddAoLoss => execVddAoLoss_sound s h

/-- The canonical form is soundness with the state's own queue. -/
theorem State.canonical_iff_sound (s : State) : s.canonical = true ↔ s.Sound s.pending := by
  simp [State.canonical, State.Sound, and_assoc]

/-- Settles O3: a step is a command on the state with the rest of the queue, and every command keeps the stores in their form. -/
theorem everyStepKeepsTheCanonicalForm : Obligations.EveryStepKeepsTheCanonicalForm := by
  intro s t hs hstep
  rw [State.canonical_iff_sound] at hs ⊢
  obtain ⟨-, hstores⟩ := hs
  unfold step at hstep
  split at hstep
  · cases hstep
    exact ⟨rfl, hstores⟩
  · next c cs _ =>
    obtain ⟨-, hkept⟩ := exec_sound (q := cs) c { s with pending := cs } ⟨rfl, hstores⟩ t hstep
    exact ⟨rfl, hkept⟩

/-! ### The state after the power-on reset -/

/-- A field that the power-on reset lists nothing of stands at its reset value. -/
theorem State.fld_reset {f : Fld} (h1 : f.key ≠ R.PMU_RAIL_GOOD_GOOD.key) (h2 : f.key ≠ R.PMU_RESET_CAUSE_POR.key) :
    State.reset.fld f = f.rst := by
  simp [State.fld, State.reset, Tbl.get, Tbl.find, Ne.symm h1, Ne.symm h2]

/-- Settles O4: every clause is read off the list of what stands after the reset. -/
theorem stateAfterReset : Obligations.StateAfterReset := by
  refine ⟨by decide, rfl, by decide, rfl, rfl, rfl, by decide, by decide, by decide, rfl, rfl, rfl, fun _ => State.fld_reset,
    fun _ => rfl, rfl, rfl, rfl⟩

end Sys2Proof.Machine
end

section
namespace Sys2Proof.Machine

/-! ### Numbers as bytes (R7) -/

@[simp] theorem length_leBytes (n x : Nat) : (leBytes n x).length = n := by
  induction n generalizing x with
  | zero => rfl
  | succ n ih => simp [leBytes, ih]

/-- The number of the bytes of `x` is `x`, cut to as many bytes. -/
theorem leNat_leBytes (n x : Nat) : leNat (leBytes n x) = x % 256 ^ n := by
  induction n generalizing x with
  | zero => simp [leBytes, leNat, Nat.mod_one]
  | succ n ih => rw [leBytes, leNat, ih, pow_succ', Nat.mod_mul]; simp

/-- A list of bytes is the bytes of its number. -/
theorem leBytes_leNat (bs : List Byte) : leBytes bs.length (leNat bs) = bs := by
  induction bs with
  | nil => rfl
  | cons b bs ih =>
    have hb : (b.toNat + 256 * leNat bs) / 256 = leNat bs := by have := b.isLt; omega
    simp only [List.length_cons, leNat, leBytes, hb, ih]
    congr 1
    apply BitVec.eq_of_toNat_eq
    have := b.isLt
    simp only [BitVec.toNat_ofNat]; omega

/-- Bytes do not see what lies above them. -/
theorem leBytes_mod (n x : Nat) : leBytes n (x % 256 ^ n) = leBytes n x := by
  rw [← leNat_leBytes]
  conv_lhs => rw [← length_leBytes n x, length_leBytes n x]
  have h := leBytes_leNat (leBytes n x)
  rwa [length_leBytes] at h

/-- A word is the number of its four bytes. -/
theorem ofNat_leNat_leBytes (v : Word) : BitVec.ofNat 32 (leNat (leBytes 4 v.toNat)) = v := by
  have := v.isLt
  rw [leNat_leBytes, Nat.mod_eq_of_lt (by omega), BitVec.ofNat_toNat, BitVec.setWidth_eq]

/-! ### Aligned words on the bus (R217) -/

/-- An aligned word lies in one span. -/
theorem spans_word {a : Nat} (ha : a % 4 = 0) : spans a 4 = [(a, 4)] := by
  unfold spans
  rw [if_pos]
  omega

/-- An aligned word touches itself alone. -/
theorem spanWords_word {a : Nat} (ha : a % 4 = 0) : spanWords a 4 = [a] := by
  have h1 : (a + 3) / 4 - a / 4 = 0 := by omega
  have h2 : 4 * (a / 4) = a := by omega
  simp [spanWords, h1, h2, List.range_succ]

/-- The four lanes of an aligned word that is written whole. -/
theorem laneBytes_word (a x : Nat) : laneBytes a ((leBytes 4 x).map some) a = (leBytes 4 x).map some := by
  simp [laneBytes, leBytes, List.range_succ]

section
variable {s : State} {a : Nat} (ha : a % 4 = 0) (ht : targetOf a = .words) (hd : targetDomain a ≠ 0)
  (ho : s.domainOn (targetDomain a) = true)
include ha ht hd ho

/-- A whole word that a master writes to a powered block is one write of the register. -/
theorem busWrite_word (m : Nat) (v : Word) :
    s.busWrite m a ((leBytes 4 v.toNat).map some) = ([(a, (s.writeWord m a v).1)], (s.writeWord m a v).2) := by
  have hf : ((leBytes 4 v.toNat).map some).filterMap (fun b => b) = leBytes 4 v.toNat := by simp [List.filterMap_map]
  have hl : s.laneWrite m a ((leBytes 4 v.toNat).map some) = s.writeWord m a v := by
    unfold State.laneWrite
    rw [if_neg (by simp [hd, ho]), if_pos (by simp), hf, ofNat_leNat_leBytes]
  simp [State.busWrite, State.targetWrite, spans_word ha, spanWords_word ha, ht, laneBytes_word, hl, List.take_of_length_le]

/-- A whole word that is read from a powered block is one read of the register. -/
theorem busRead_word (ext : FetchResp) :
    s.busRead a 4 ext = ([(a, 4, .data (leBytes 4 (s.readReg a).1))], (s.readReg a).2) := by
  have hl : slice (leBytes 4 (s.readReg a).1) 0 4 = leBytes 4 (s.readReg a).1 := by simp [slice, List.take_of_length_le]
  simp [State.busRead, State.targetRead, State.readWord, spans_word ha, spanWords_word ha, ht, hd, ho, hl]
end

/-- A register write that reaches a register and is taken there, on a chip that does not operate in a pair. -/
theorem execRegisterWrite_reach {s u : State} {m a : Nat} {v : Word} (h : Reaches s m a) (hf : s.flmState = 0) (ha : a % 4 = 0)
    (ht : targetOf a = .words) (hw : (s.touch m).writeReg m a v = (.ok, u)) :
    exec (.registerWrite m a v) s = .next (s.answered m .ok u) := by
  have ho : (s.touch m).domainOn (targetDomain a) = true := by rw [State.domainOn_touch s h.1.1]; exact h.2.2
  have hd : (s.touch m).writeWord m a v = (.ok, u.tagHeld s.heldNext m none) := by
    unfold State.writeWord
    rw [delivered_reach h hf, hw]
  change Host.Outcome.next (s.throughBytes m a ((leBytes 4 v.toNat).map some)) = _
  unfold State.throughBytes
  simp [reach_eq h.1, busWrite_word ha ht h.2.1 ho, hd, joinWrites, answer_ok, State.answered]

/-! ### A register whose write does more than its fields' access types say -/

/-- A machine with CTRL on whose last commit of the peal block was refused with code 3 (R25, R29). -/
def commitRefused : State :=
  ((State.reset.setFld (R.SYS_ISLAND_POWERED 1) 1).setFld (commitErr .peal) 1).setFld (commitCode .peal) 3

/-- The host reaches PEAL_COMMIT_STATUS of that machine. -/
theorem commitRefused_reaches : Reaches commitRefused 0 (commitAddr .peal) := by
  unfold Reaches Through; decide

/-- A write of PEAL_COMMIT_STATUS that clears COMMIT_ERR is taken there, and ERR_CODE falls with it (R25). -/
theorem commitRefused_write : (commitRefused.touch 0).writeReg 0 (commitAddr .peal) 2 =
    (.ok, (commitRefused.touch 0).writeGeneric (commitAddr .peal) 2) ∧
    ((commitRefused.touch 0).writeGeneric (commitAddr .peal) 2).fld (commitCode .peal) = 0 := by
  decide

/-- Refutes O15: PEAL_COMMIT_STATUS.ERR_CODE is read-only and still changes with a write that clears COMMIT_ERR (R25), where the
statement has a write change no field that is read-only. -/
theorem not_windowsMessagesBarriersAndResets : ¬ Obligations.WindowsMessagesBarriersAndResets := by
  rintro ⟨⟨hwrite, -⟩, -⟩
  obtain ⟨hw, hcode⟩ := commitRefused_write
  obtain ⟨t, hexec, hsame, -⟩ := hwrite commitRefused 0 (commitAddr .peal) 2 commitRefused_reaches (by decide) (by decide) (by decide)
    (by decide) (by decide)
  rw [execRegisterWrite_reach commitRefused_reaches (by decide) (by decide) (by decide) hw] at hexec
  have hkept : t.fld (commitCode .peal) = commitRefused.fld (commitCode .peal) := hsame.1 _ (by decide)
  have heq := congrArg (fun u => State.fld u (commitCode .peal)) (Host.Outcome.next.inj hexec)
  simp only [State.answered, State.fld_emit, State.fld_tagHeld] at heq
  rw [hcode, hkept] at heq
  exact absurd heq (by decide)

end Sys2Proof.Machine
end

section
namespace Sys2Proof.Machine

/-! ### Cutting a range into pieces -/

/-- The pieces `l`, each a start and a length, follow each other from `a` to `b`. -/
def Tiles : Nat → List (Nat × Nat) → Nat → Prop
  | a, [], b => a = b
  | a, x :: l, b => x.1 = a ∧ Tiles (a + x.2) l b

theorem Tiles.le {a b : Nat} {l : List (Nat × Nat)} (h : Tiles a l b) : a ≤ b := by
  induction l generalizing a with
  | nil => exact le_of_eq h
  | cons x l ih => have := ih h.2; omega

theorem Tiles.append {a b c : Nat} {l r : List (Nat × Nat)} (h : Tiles a l b) (h' : Tiles b r c) : Tiles a (l ++ r) c := by
  induction l generalizing a with
  | nil => cases h; exact h'
  | cons x l ih => exact ⟨h.1, ih h.2⟩

/-- Piece `i` of the `n` bytes at `a` cut at the multiples of `M`: its address and its length. -/
def piece (M a n i : Nat) : Nat × Nat :=
  let lo := max a (M * (a / M + i))
  (lo, min (a + n) (M * (a / M + i + 1)) - lo)

/-- The pieces of a range follow each other from its start to its end. -/
theorem tiles_piece {M a n : Nat} (hM : 0 < M) (hn : 0 < n) :
    Tiles a ((List.range ((a + n - 1) / M - a / M + 1)).map (piece M a n)) (a + n) := by
  have hlo : M * (a / M) ≤ a := Nat.mul_div_le a M
  have hhi : a < M * (a / M + 1) := by rw [Nat.mul_comm]; exact Nat.lt_mul_of_div_lt (Nat.lt_succ_self _) hM
  have hlast : M * ((a + n - 1) / M) ≤ a + n - 1 := Nat.mul_div_le _ M
  have hend : a + n - 1 < M * ((a + n - 1) / M + 1) := by
    rw [Nat.mul_comm]; exact Nat.lt_mul_of_div_lt (Nat.lt_succ_self _) hM
  have hq : a / M ≤ (a + n - 1) / M := Nat.div_le_div_right (by omega)
  have upTo : ∀ j ≤ (a + n - 1) / M - a / M,
      Tiles a ((List.range (j + 1)).map (piece M a n)) (min (a + n) (M * (a / M + j + 1))) := by
    intro j hj
    induction j with
    | zero =>
      refine ⟨?_, ?_⟩ <;> simp only [piece, Nat.add_zero, Nat.max_eq_left hlo, List.map_nil, Tiles]
      omega
    | succ j ih =>
      have h1 : M * (a / M + 1) ≤ M * (a / M + j + 1) := Nat.mul_le_mul_left M (by omega)
      have h2 : M * (a / M + j + 1) ≤ M * ((a + n - 1) / M) := Nat.mul_le_mul_left M (by omega)
      have h3 : M * (a / M + j + 1) ≤ M * (a / M + (j + 1) + 1) := Nat.mul_le_mul_left M (by omega)
      rw [List.range_succ, List.map_append]
      refine (ih (by omega)).append ⟨?_, ?_⟩ <;> simp only [piece, ← Nat.add_assoc, List.map_nil, Tiles] at h3 ⊢ <;> omega
  have := upTo _ le_rfl
  rwa [show a / M + ((a + n - 1) / M - a / M) + 1 = (a + n - 1) / M + 1 by omega, Nat.min_eq_left (by omega)] at this

/-- The spans of an access follow each other from its start to its end. -/
theorem tiles_spans (a n : Nat) : Tiles a (spans a n) (a + n) := by
  unfold spans
  split
  · exact ⟨rfl, rfl⟩
  · next h =>
    push Not at h
    exact tiles_piece (by norm_num) (Nat.pos_of_ne_zero h.1)

/-! ### Bytes of DRAM that are read and written (R194) -/

theorem Mems.length_dramRead (m : Mems) (a n : Nat) : (m.dramRead a n).length = n := by simp [Mems.dramRead]

theorem Mems.dramRead_add (m : Mems) (a n k : Nat) : m.dramRead a (n + k) = m.dramRead a n ++ m.dramRead (a + n) k := by
  simp [Mems.dramRead, List.range_add, Function.comp_def, Nat.add_assoc]

/-- The bytes of pieces that follow each other are the bytes of the whole. -/
theorem Mems.dramRead_tiles (m : Mems) {a b : Nat} {l : List (Nat × Nat)} (h : Tiles a l b) :
    l.flatMap (fun x => m.dramRead x.1 x.2) = m.dramRead a (b - a) := by
  induction l generalizing a with
  | nil => cases h; simp [Mems.dramRead]
  | cons x l ih =>
    obtain ⟨rfl, h⟩ := h
    have := h.le
    rw [List.flatMap_cons, ih h, ← Mems.dramRead_add]
    congr 1; omega

/-- What a write of `data` at `a` brings to the byte at `x`. -/
def laneAt (a : Nat) (data : List (Option Byte)) (x : Nat) : Option Byte := if a ≤ x then data.getD (x - a) none else none

theorem laneAt_nil (a x : Nat) : laneAt a [] x = none := by simp [laneAt]

theorem laneAt_cons (a x : Nat) (b : Option Byte) (bs : List (Option Byte)) :
    laneAt a (b :: bs) x = if x = a then b else laneAt (a + 1) bs x := by
  unfold laneAt
  rcases Nat.lt_trichotomy x a with h | rfl | h
  · rw [if_neg (by omega), if_neg (by omega), if_neg (by omega)]
  · simp
  · rw [if_pos h.le, if_neg (by omega), if_pos (by omega)]
    obtain ⟨k, rfl⟩ := Nat.exists_eq_add_of_lt h
    simp [show a + k + 1 - a = k + 1 by omega, show a + k + 1 - (a + 1) = k by omega]

theorem laneAt_append (a x : Nat) (bs cs : List (Option Byte)) :
    laneAt a (bs ++ cs) x = if x < a + bs.length then laneAt a bs x else laneAt (a + bs.length) cs x := by
  unfold laneAt
  split_ifs with h1 h2 h3 <;> try omega
  · rw [List.getD_append _ _ _ _ (by omega)]
  · rw [List.getD_append_right _ _ _ _ (by omega)]; congr 1; omega
  · rfl

theorem laneAt_eq_none {a x : Nat} {data : List (Option Byte)} (h : x < a ∨ a + data.length ≤ x) : laneAt a data x = none := by
  unfold laneAt
  split
  · exact List.getD_eq_default _ _ (by omega)
  · rfl

/-- `m'` is `m` once the bytes that `data` carries stand at `a`: every other byte reads as it did, and no word comes to hold an error. -/
structure Mems.Stored (m : Mems) (a : Nat) (data : List (Option Byte)) (m' : Mems) : Prop where
  byte : ∀ x, m'.dramByte x = (laneAt a data x).getD (m.dramByte x)
  bad : ∀ w ∈ m'.dramBad, w ∈ m.dramBad

theorem Mems.Stored.nil (m : Mems) (a : Nat) : m.Stored a [] m := ⟨fun x => by simp [laneAt_nil], fun _ h => h⟩

/-- Two writes in a row are one. -/
theorem Mems.Stored.append {m m' m'' : Mems} {a : Nat} {bs cs : List (Option Byte)} (h : m.Stored a bs m')
    (h' : m'.Stored (a + bs.length) cs m'') : m.Stored a (bs ++ cs) m'' where
  byte x := by
    rw [h'.byte, h.byte, laneAt_append]
    split
    · next hx => rw [laneAt_eq_none (a := a + bs.length) (.inl hx)]; rfl
    · next hx => rw [laneAt_eq_none (data := bs) (.inr (by omega))]; rfl
  bad w hw := h.bad w (h'.bad w hw)

theorem Mems.dramByte_dramPut (bs : List (Option Byte)) (m : Mems) (a x : Nat) :
    (m.dramPut a bs).dramByte x = (laneAt a bs x).getD (m.dramByte x) := by
  induction bs generalizing m a with
  | nil => simp [Mems.dramPut, laneAt_nil]
  | cons b bs ih =>
    rw [laneAt_cons]
    cases b with
    | none =>
      rw [Mems.dramPut, ih]
      split
      · next h => rw [laneAt_eq_none (.inl (by omega))]
      · rfl
    | some b =>
      rw [Mems.dramPut, ih]
      split
      · next h => rw [laneAt_eq_none (.inl (by omega))]; simp [h]
      · next h => rw [Mems.dramByte_setDramByte_ne _ _ h]

theorem Mems.dramBad_dramPut (bs : List (Option Byte)) (m : Mems) (a : Nat) : (m.dramPut a bs).dramBad = m.dramBad := by
  induction bs generalizing m a with
  | nil => rfl
  | cons b bs ih => cases b <;> exact ih _ _

/-- What a write of DRAM leaves (R194, R211). -/
theorem Mems.stored_dramWrite (m : Mems) (a : Nat) (bs : List (Option Byte)) : m.Stored a bs (m.dramWrite a bs) where
  byte x := Mems.dramByte_dramPut bs m a x
  bad _ hw := (List.mem_filter.mp hw).1

/-- Within the bytes of a write, byte by byte. -/
theorem Mems.Stored.inside {m m' : Mems} {a : Nat} {data : List (Option Byte)} (h : m.Stored a data m') (i : Nat) :
    m'.dramByte (a + i) = (data.getD i none).getD (m.dramByte (a + i)) := by
  rw [h.byte, laneAt, if_pos (by omega), Nat.add_sub_cancel_left]

theorem Mems.Stored.outside {m m' : Mems} {a : Nat} {data : List (Option Byte)} (h : m.Stored a data m') {x : Nat}
    (hx : x < a ∨ a + data.length ≤ x) : m'.dramByte x = m.dramByte x := by
  rw [h.byte, laneAt_eq_none hx]; rfl

/-- Bytes that are written whole read back. -/
theorem Mems.Stored.read {m m' : Mems} {a : Nat} {bs : List Byte} (h : m.Stored a (bs.map some) m') : m'.dramRead a bs.length = bs := by
  apply List.ext_getElem (Mems.length_dramRead ..)
  intro i _ hi
  simp [Mems.dramRead, h.inside, List.getD_eq_getElem?_getD, hi]

/-! ### Accesses of a master to plain DRAM (R194, R195, R211, R217) -/

section
variable {s : State} {a n : Nat}

/-- A part of plain DRAM is plain. -/
theorem PlainDram.part (h : PlainDram s a n) {x k : Nat} (hx : a ≤ x) (hk : x + k ≤ a + n) : PlainDram s x k := by
  obtain ⟨hend, hon, hline, hbad⟩ := h
  refine ⟨by omega, hon, fun b h1 h2 => hline b (by omega) (by omega), ?_⟩
  simp only [Mems.firstBad, List.find?_eq_none, decide_eq_true_eq] at hbad ⊢
  exact fun w hw hb => hbad w hw (by omega)

/-- Plain DRAM stays plain when bytes of it are written. -/
theorem PlainDram.stored (h : PlainDram s a n) {b : Nat} {data : List (Option Byte)} {m : Mems} (hm : s.mem.Stored b data m) :
    PlainDram { s with mem := m } a n := by
  obtain ⟨hend, hon, hline, hbad⟩ := h
  refine ⟨hend, hon, hline, ?_⟩
  simp only [Mems.firstBad, List.find?_eq_none] at hbad ⊢
  exact fun _ hw => hbad _ (hm.bad _ hw)

theorem PlainDram.target (h : PlainDram s a n) : targetOf a = .dram := by
  have := h.1
  unfold targetOf; rw [if_pos (by omega)]

theorem PlainDram.domain (h : PlainDram s a n) : targetDomain a = 12 := by simp [targetDomain, h.target]

/-- A range of plain DRAM in one span reads as its bytes. -/
theorem targetRead_plain (h : PlainDram s a n) (ext : FetchResp) :
    s.targetRead a n ext = ([(a, n, .data (s.mem.dramRead a n))], s) := by
  have hbad : s.mem.badWords a n = [] := by
    have := h.2.2.2
    simp only [Mems.firstBad, List.find?_eq_none] at this
    exact List.filter_eq_nil_iff.mpr this
  simp [State.targetRead, h.target, h.domain, h.2.1, State.memRead, State.dramFetch, hbad]

/-- Plain DRAM reads as its bytes, span by span. -/
theorem busRead_plain (h : PlainDram s a n) (ext : FetchResp) :
    s.busRead a n ext = ((spans a n).map (fun x => (x.1, x.2, .data (s.mem.dramRead x.1 x.2))), s) := by
  have go : ∀ (l : List (Nat × Nat)) (c : Nat) (acc : List (Nat × Nat × XbResp)), a ≤ c → Tiles c l (a + n) →
      l.foldl (fun (p : List (Nat × Nat × XbResp) × State) x =>
        let r := p.2.targetRead x.1 x.2 (respFrom (x.1 - a) ext)
        (p.1 ++ r.1, r.2)) (acc, s) = (acc ++ l.map (fun x => (x.1, x.2, .data (s.mem.dramRead x.1 x.2))), s) := by
    intro l
    induction l with
    | nil => intros; simp
    | cons x l ih =>
      rintro c acc hc ⟨rfl, hl⟩
      rw [List.foldl_cons, targetRead_plain (h.part hc hl.le)]
      exact (ih _ _ (by omega) hl).trans (by simp)
  exact go _ a [] le_rfl (tiles_spans a n)

theorem joinReads_data {l : List (Nat × Nat)} (f : Nat × Nat → List Byte) :
    joinReads (l.map (fun x => (x.1, x.2, .data (f x)))) = .data (l.flatMap f) := by
  unfold joinReads
  split
  · next r hr =>
    obtain ⟨x, -, rfl⟩ := List.mem_map.mp (List.mem_of_find?_eq_some hr)
    cases List.find?_some hr
  · simp [List.flatMap_map]

theorem joinReads_plain (h : PlainDram s a n) (ext : FetchResp) :
    joinReads (s.busRead a n ext).1 = .data (s.mem.dramRead a n) := by
  rw [busRead_plain h, joinReads_data, Mems.dramRead_tiles _ (tiles_spans a n), Nat.add_sub_cancel_left]

theorem mem_writtenAddrs {b : Nat} {data : List (Option Byte)} (h : b ∈ writtenAddrs a data) : a ≤ b ∧ b < a + data.length := by
  induction data generalizing a with
  | nil => cases h
  | cons d data ih =>
    cases d with
    | none => have := ih h; simp only [List.length_cons]; omega
    | some d =>
      rcases List.mem_cons.mp h with rfl | h
      · simp
      · have := ih h; simp only [List.length_cons]; omega

/-- A write into one span of plain DRAM puts its bytes there and changes nothing else. -/
theorem targetWrite_plain {data : List (Option Byte)} (h : PlainDram s a data.length) (m : Nat) :
    s.targetWrite m a data = ([(a, .ok)], { s with mem := s.mem.dramWrite a data }) := by
  obtain ⟨hend, hon, hline, -⟩ := id h
  have hfree : ((writtenAddrs a data).any fun b => s.lineProtected b) = false := by
    simp only [List.any_eq_false, Bool.not_eq_true]
    exact fun b hb => hline b (mem_writtenAddrs hb).1 (mem_writtenAddrs hb).2
  have hplane : [0, 1].filter (fun p => decide (a < planeBase p + 0x1800000 ∧ planeBase p < a + data.length)) = [] := by
    simp [planeBase]; omega
  have hstore : s.memStore m a data = (.ok, { s with mem := s.mem.dramWrite a data }) := by
    simp only [State.memStore, h.domain, h.target, hon, State.dramStore, hfree, State.planeWrite, hplane]
    simp
  simp [State.targetWrite, h.target, hstore]

/-- A write into plain DRAM is answered with OK, puts its bytes there and changes nothing else. -/
theorem busWrite_plain {data : List (Option Byte)} (h : PlainDram s a data.length) (m : Nat) :
    ∃ m', s.mem.Stored a data m' ∧
      s.busWrite m a data = ((spans a data.length).map (fun x => (x.1, .ok)), { s with mem := m' }) := by
  have go : ∀ (l : List (Nat × Nat)) (c : Nat) (acc : List (Nat × XbResp)) (u : State), a ≤ c → Tiles c l (a + data.length) →
      PlainDram u a data.length → ∃ m', u.mem.Stored c (data.drop (c - a)) m' ∧
      l.foldl (fun (p : List (Nat × XbResp) × State) x =>
        let r := p.2.targetWrite m x.1 ((data.drop (x.1 - a)).take x.2)
        (p.1 ++ r.1, r.2)) (acc, u) = (acc ++ l.map (fun x => (x.1, .ok)), { u with mem := m' }) := by
    intro l
    induction l with
    | nil =>
      rintro c acc u hc rfl hu
      refine ⟨u.mem, ?_, by simp⟩
      rw [Nat.add_sub_cancel_left, List.drop_length]
      exact .nil _ _
    | cons x l ih =>
      rintro c acc u hc ⟨rfl, hl⟩ hu
      have hend := hl.le
      have hlen : ((data.drop (x.1 - a)).take x.2).length = x.2 := by simp; omega
      have hfirst := u.mem.stored_dramWrite x.1 ((data.drop (x.1 - a)).take x.2)
      obtain ⟨m', hm, hrest⟩ := ih _ (acc ++ [(x.1, .ok)]) _ (by omega) hl (hu.stored hfirst)
      refine ⟨m', ?_, ?_⟩
      · have hrec := hfirst.append (cs := data.drop (x.1 + x.2 - a)) (by rwa [hlen])
        rwa [show x.1 + x.2 - a = x.1 - a + x.2 by omega, ← List.drop_drop, List.take_append_drop] at hrec
      · rw [List.foldl_cons, targetWrite_plain (by rw [hlen]; exact hu.part hc hend)]
        exact hrest.trans (by simp)
  obtain ⟨m', hm, he⟩ := go _ a [] s le_rfl (tiles_spans a _) h
  exact ⟨m', by simpa using hm, he⟩

theorem joinWrites_ok (l : List (Nat × Nat)) : joinWrites (l.map (fun x => (x.1, XbResp.ok))) = .ok := by
  unfold joinWrites
  split
  · next r hr =>
    obtain ⟨x, -, rfl⟩ := List.mem_map.mp (List.mem_of_find?_eq_some hr)
    cases List.find?_some hr
  · rfl

end

end Sys2Proof.Machine
end

section
namespace Sys2Proof.Machine

/-! ### The host's accesses (R215, R216) -/

/-- What plain DRAM depends on. -/
theorem PlainDram.congr {s t : State} {a n : Nat} (h : PlainDram s a n) (hcfg : t.cfg = s.cfg) (hpeal : t.peal = s.peal)
    (hold : t.old = s.old) (hmem : t.mem = s.mem) (hlive : t.livePlane = s.livePlane) (hon : t.domainOn 12 = s.domainOn 12) :
    PlainDram t a n := by
  unfold PlainDram State.lineProtected at h ⊢
  rw [hcfg, hpeal, hold, hmem, hlive, hon]
  exact h

theorem PlainDram.touch {s : State} {a n m : Nat} (h : PlainDram s a n) (hm : m < 24) : PlainDram (s.touch m) a n := by
  refine h.congr (by simp) (by simp) (by simp) (by simp) (State.fld_touch_ne s ?_) (State.domainOn_touch s hm 12)
  simp [Fld.key]; omega

/-- Data goes back to the host as it is (R216). -/
theorem hostReturn_data (s : State) (a : Nat) (l : List (Nat × Nat)) (f : Nat × Nat → List Byte) :
    s.hostReturn a (l.map (fun x => (x.1, x.2, .data (f x)))) = s.emit (.hostData (l.flatMap f)) := by
  have hquiet : ∀ u : State, (l.map (fun x => (x.1, x.2, XbResp.data (f x)))).foldl (fun s x => s.hostError x.1 x.2.2) u = u := by
    intro u
    induction l with
    | nil => rfl
    | cons x l ih => exact ih
  simp [State.hostReturn, hquiet, XbResp.isErr, List.flatMap_map, hostBytes]

/-- Writes that are answered with OK leave no error. -/
theorem foldl_hostError_ok (s : State) (l : List (Nat × Nat)) :
    (l.map (fun x => (x.1, XbResp.ok))).foldl (fun s x => s.hostError x.1 x.2) s = s := by
  induction l with
  | nil => rfl
  | cons x l ih => exact ih

/-- What an AtomicOp stores: the bytes of the new word, or nothing where a compare fails. -/
def atomicStores (op : AtomicOp) (n old operand compare : Nat) : List (Option Byte) :=
  (atomicResult op (8 * n) old operand compare).elim [] fun v => (leBytes n v).map some

/-- An AtomicOp on plain DRAM: the old word goes back to the host, and the new one, if there is one, is stored. -/
theorem atomicRun_plain {s : State} {a n : Nat} (h : PlainDram s a n) (op : AtomicOp) (operand compare : Nat) :
    ∃ m', s.mem.Stored a (atomicStores op n (leNat (s.mem.dramRead a n)) operand compare) m' ∧
      s.atomicRun a op n operand compare = { s with mem := m' }.emit (.hostData (s.mem.dramRead a n)) := by
  have hjoin := joinReads_plain h .error
  unfold State.atomicRun atomicStores
  simp only [busRead_plain h] at hjoin ⊢
  simp only [hjoin]
  cases atomicResult op (8 * n) (leNat (s.mem.dramRead a n)) operand compare with
  | none => exact ⟨s.mem, .nil _ _, rfl⟩
  | some v =>
    obtain ⟨m', hm, hw⟩ := busWrite_plain (data := (leBytes n v).map some) (by simpa using h) 0
    refine ⟨m', hm, ?_⟩
    simp only [hw, foldl_hostError_ok]

section
variable {s : State} {a : Nat} (hh : s.hostReaches = true) (hp : Through s 0 a)
include hh hp

theorem execHostRead_plain {n : Nat} (h : PlainDram s a n) :
    exec (.hostRead true a n) s = .next ((s.touch 0).emit (.hostData (s.mem.dramRead a n))) := by
  have hbar : barAddr true a n = some a := by have := h.1; simp [barAddr]; omega
  change execHostRead true a n s = _
  simp only [execHostRead, hbar, hh, if_true, State.hostRead, reach_eq hp, busRead_plain (h.touch hp.1), hostReturn_data]
  rw [Mems.dramRead_tiles _ (tiles_spans a n), Nat.add_sub_cancel_left, State.touch_mem]

theorem execHostWrite_plain {data : List (Option Byte)} (h : PlainDram s a data.length) :
    ∃ m', s.mem.Stored a data m' ∧ exec (.hostWrite true a data) s = .next { s.touch 0 with mem := m' } := by
  have hbar : barAddr true a data.length = some a := by have := h.1; simp [barAddr]; omega
  obtain ⟨m', hm, hw⟩ := busWrite_plain (h.touch hp.1) 0
  refine ⟨m', by simpa using hm, ?_⟩
  change execHostWrite true a data s = _
  simp only [execHostWrite, hbar, hh, if_true, State.hostWrite, reach_eq hp, hw, foldl_hostError_ok]

/-- An AtomicOp is carried out on plain DRAM like a read and a write by the host. -/
theorem execAtomicOp_plain {wide : Bool} {n : Nat} (hn : (if wide then 8 else 4) = n) (op : AtomicOp) (operand compare : Nat)
    (ha : a % n = 0) (h : PlainDram s a n) :
    exec (.atomicOp true a op wide operand compare) s = .next ((s.touch 0).atomicRun a op n operand compare) := by
  have hbar : barAddr true a n = some a := by have := h.1; simp [barAddr]; omega
  change execAtomicOp true a op wide operand compare s = _
  simp only [execAtomicOp, hn, hbar, hh, ha, State.atomic, reach_eq hp]
  simp

end
end Sys2Proof.Machine
end

section
namespace Sys2Proof.Machine

/-! ### AtomicOps, value by value (R215) -/

/-- What an AtomicOp leaves in a word that stood at `old`, before it is cut to the word. -/
def atomicLeaves (op : AtomicOp) (n old operand compare : Nat) : Nat :=
  match op with
  | .fetchAdd => old + operand
  | .swap => operand
  | .cas => if old = compare % 2 ^ (8 * n) then operand else old

theorem leBytes_mod_two_pow (n x : Nat) : leBytes n (x % 2 ^ (8 * n)) = leBytes n x := by
  rw [pow_mul]; exact leBytes_mod n x

/-- An AtomicOp stores the bytes of what it leaves, or leaves the word as it is. -/
theorem atomicStores_cases (op : AtomicOp) (n old operand compare : Nat) :
    atomicStores op n old operand compare = (leBytes n (atomicLeaves op n old operand compare)).map some ∨
    atomicStores op n old operand compare = [] ∧ atomicLeaves op n old operand compare = old := by
  unfold atomicStores atomicResult atomicLeaves
  cases op with
  | fetchAdd => left; simp [leBytes_mod_two_pow]
  | swap => left; simp [leBytes_mod_two_pow]
  | cas =>
    by_cases h : old = compare % 2 ^ (8 * n)
    · left; simp [if_pos h, leBytes_mod_two_pow]
    · right; simp [if_neg h]

/-- The word after an AtomicOp, and the bytes around it. -/
theorem stored_atomicStores {m m' : Mems} {op : AtomicOp} {a n operand compare : Nat}
    (h : m.Stored a (atomicStores op n (leNat (m.dramRead a n)) operand compare) m') :
    m'.dramRead a n = leBytes n (atomicLeaves op n (leNat (m.dramRead a n)) operand compare) ∧
    ∀ x, x < a ∨ a + n ≤ x → m'.dramByte x = m.dramByte x := by
  rcases atomicStores_cases op n (leNat (m.dramRead a n)) operand compare with hs | ⟨hs, hv⟩ <;> rw [hs] at h
  · refine ⟨?_, fun x hx => h.outside (by simpa using hx)⟩
    simpa using h.read
  · have hbyte : ∀ x, m'.dramByte x = m.dramByte x := fun x => h.outside (by simp; omega)
    refine ⟨?_, fun x _ => hbyte x⟩
    have := leBytes_leNat (m.dramRead a n)
    rw [Mems.length_dramRead] at this
    rw [hv, this]
    simp [Mems.dramRead, hbyte]

/-! ### Registers of the host's own window (R4, R215) -/

theorem exec_hostRead_eq (bar2 : Bool) (off len : Nat) (s : State) :
    exec (.hostRead bar2 off len) s = execHostRead bar2 off len s := rfl

theorem exec_hostWrite_eq (bar2 : Bool) (off : Nat) (data : List (Option Byte)) (s : State) :
    exec (.hostWrite bar2 off data) s = execHostWrite bar2 off data s := rfl

/-- A register whose read has no effect of its own and shows the block as it stands. -/
def PlainRead (a : Nat) : Prop :=
  0x14000000 ≤ a ∧ a < 0x16000000 ∧ a ≠ 0x14040008 ∧ a ≠ 0x15F10034 ∧ ¬ (0x140C0600 ≤ a ∧ a < 0x140C0680) ∧
  ¬ (0x14300000 ≤ a ∧ a < 0x14400000) ∧ ¬ (0x14800000 ≤ a ∧ a < 0x15800000)

theorem readReg_plain {a : Nat} (h : PlainRead a) (s : State) : s.readReg a = (s.viewReg a, s) := by
  obtain ⟨hlo, hhi, hidx, hwin, hcap, hbeat, hmal⟩ := h
  unfold State.readReg State.settleFor
  rw [if_neg (by omega), if_neg hidx, if_neg hwin, if_neg (by tauto), if_neg hmal, if_neg hbeat]

theorem PlainRead.target {a : Nat} (h : PlainRead a) : targetOf a = .words := by
  obtain ⟨hlo, hhi, -⟩ := h
  unfold targetOf
  repeat rw [if_neg (by omega)]
  rw [if_pos hhi]

/-- The host's window shows a register at its offset from the window's start. -/
theorem PlainRead.bar {a : Nat} (h : PlainRead a) (ha : a % 4 = 0) : barAddr false (a - 0x14000000) 4 = some a := by
  obtain ⟨hlo, hhi, -⟩ := h
  simp [barAddr]; omega

section
variable {s : State} {a : Nat} (hh : s.hostReaches = true) (hr : Reaches s 0 a) (ha : a % 4 = 0) (hp : PlainRead a)
include hh hr ha hp

theorem execHostRead_word : exec (.hostRead false (a - 0x14000000) 4) s =
    .next ((s.touch 0).emit (.hostData (leBytes 4 ((s.touch 0).viewReg a)))) := by
  obtain ⟨hthrough, hd, ho⟩ := hr
  rw [← State.domainOn_touch s (m := 0) (by omega)] at ho
  have hhost : s.hostRead a 4 = (s.touch 0).emit (.hostData (leBytes 4 ((s.touch 0).viewReg a))) := by
    simp only [State.hostRead, reach_eq hthrough, busRead_word ha hp.target hd ho, readReg_plain hp]
    exact (hostReturn_data (s.touch 0) a [(a, 4)] fun _ => leBytes 4 ((s.touch 0).viewReg a)).trans (by simp)
  rw [exec_hostRead_eq, execHostRead, hp.bar ha]
  simp only [hh, if_true, hhost]

theorem execHostWrite_word {v : Word} {u : State} (hf : s.flmState = 0) (hw : (s.touch 0).writeReg 0 a v = (.ok, u)) :
    exec (.hostWrite false (a - 0x14000000) ((leBytes 4 v.toNat).map some)) s = .next (u.tagHeld s.heldNext 0 none) := by
  have ho := hr.2.2
  rw [← State.domainOn_touch s (m := 0) (by omega)] at ho
  have hword : (s.touch 0).writeWord 0 a v = (.ok, u.tagHeld s.heldNext 0 none) := by
    unfold State.writeWord
    rw [delivered_reach hr hf, hw]
  have hbus := busWrite_word ha hp.target hr.2.1 ho 0 v
  rw [hword] at hbus
  have hhost : s.hostWrite a ((leBytes 4 v.toNat).map some) = u.tagHeld s.heldNext 0 none := by
    simp only [State.hostWrite, reach_eq hr.1, hbus, List.foldl_cons, List.foldl_nil, State.hostError]
  have hbar : barAddr false (a - 0x14000000) ((leBytes 4 v.toNat).map some).length = some a := by
    rw [List.length_map, length_leBytes]; exact hp.bar ha
  rw [exec_hostWrite_eq, execHostWrite, hbar]
  simp only [hh, if_true, hhost]

end
end Sys2Proof.Machine
end

section
namespace Sys2Proof.Machine

/-! ### Beats of a burst (R222) -/

theorem Tiles.unique {a b c : Nat} {l : List (Nat × Nat)} (h : Tiles a l b) (h' : Tiles a l c) : b = c := by
  induction l generalizing a with
  | nil => exact h.symm.trans h'
  | cons x l ih => exact ih h.2 h'.2

theorem Tiles.split {a b : Nat} {l r : List (Nat × Nat)} (h : Tiles a (l ++ r) b) : ∃ c, Tiles a l c ∧ Tiles c r b := by
  induction l generalizing a with
  | nil => exact ⟨a, rfl, h⟩
  | cons x l ih =>
    obtain ⟨hx, h⟩ := h
    obtain ⟨c, hl, hr⟩ := ih h
    exact ⟨c, ⟨hx, hl⟩, hr⟩

/-- The first `i` beats of a span. -/
def beatSpans (a n i : Nat) : List (Nat × Nat) := (List.range i).map (beatSpan a n)

theorem beatSpans_succ (a n i : Nat) : beatSpans a n (i + 1) = beatSpans a n i ++ [beatSpan a n i] := by
  simp [beatSpans, List.range_succ]

section
variable {a n : Nat} (hn : 0 < n)
include hn

/-- The beats of a burst follow each other from its start to its end. -/
theorem tiles_beats : Tiles a (beatSpans a n (beatsOf a n)) (a + n) := by
  rw [beatsOf, if_neg hn.ne']
  exact tiles_piece (by norm_num) hn

/-- Where a beat of a burst stands. -/
theorem beatSpan_place {i : Nat} (hi : i < beatsOf a n) : ∃ c, Tiles a (beatSpans a n i) c ∧ (beatSpan a n i).1 = c ∧
    Tiles a (beatSpans a n (i + 1)) (c + (beatSpan a n i).2) ∧ c + (beatSpan a n i).2 ≤ a + n := by
  obtain ⟨j, hj⟩ := Nat.exists_eq_add_of_lt hi
  have h := tiles_beats (a := a) hn
  rw [hj, beatSpans, Nat.add_right_comm, List.range_add, List.map_append] at h
  obtain ⟨d, hd, hrest⟩ := h.split
  change Tiles a (beatSpans a n (i + 1)) d at hd
  have hsucc := hd
  rw [beatSpans_succ] at hd
  obtain ⟨c, hc, hx, he⟩ := hd.split
  simp only [Tiles] at he
  subst he
  exact ⟨c, hc, hx, hsucc, hrest.le⟩

end

/-! ### One request alone at the crossbar (R222-R225) -/

/-- The fields that show what a master has outstanding (R245). -/
def portFlds (m : Nat) : List Fld := [R.XB_OUTSTANDING_NOW m, R.XB_OUTSTANDING_PEAK m]

/-- Two register files that agree but for what master `m` has outstanding. -/
def RegsBut (m : Nat) (r r' : Tbl Nat) : Prop :=
  ∀ f : Fld, (∀ g ∈ portFlds m, f.key ≠ g.key) → Tbl.get r' f.key f.rst = Tbl.get r f.key f.rst

theorem RegsBut.refl (m : Nat) (r : Tbl Nat) : RegsBut m r r := fun _ _ => rfl

theorem RegsBut.trans {m : Nat} {r r' r'' : Tbl Nat} (h : RegsBut m r r') (h' : RegsBut m r' r'') : RegsBut m r r'' :=
  fun f hf => (h' f hf).trans (h f hf)

/-- `s` while it serves a request that has come in: the register file, the memories, the queue and the locks are as given. -/
def State.serving (s : State) (r : Tbl Nat) (mem : Mems) (q : List XbReq) (locks : List XbLock) : State :=
  { s with heldNext := s.heldNext + 1, regs := r, mem := mem, hif := { s.hif with queue := q, locks := locks } }

section
variable {s : State} {r : Tbl Nat} {mem : Mems} {locks : List XbLock}

/-- XB_OUTSTANDING of the one master whose request is about follows its requests, and shows none once there are none. -/
theorem serving_showOutstanding (q : List XbReq) (m : Nat) : ∃ r', RegsBut m r r' ∧
    (s.serving r mem q locks).showOutstanding m = s.serving r' mem q locks ∧
    (q = [] → Tbl.get r' (R.XB_OUTSTANDING_NOW m).key 0 = 0) := by
  have hkeys : (R.XB_OUTSTANDING_NOW m).key ≠ (R.XB_OUTSTANDING_PEAK m).key := by simp [Fld.key]
  unfold State.showOutstanding State.peak
  split
  · refine ⟨_, fun f hf => ?_, rfl, ?_⟩
    · rw [Tbl.get_set_ne _ _ _ _ (hf _ (by simp [portFlds]))]
      exact Tbl.get_set_ne _ _ _ _ (hf _ (by simp [portFlds]))
    · rintro rfl
      exact (Tbl.get_set_ne _ _ _ _ hkeys).trans (Tbl.get_set_same r _ 0 0)
  · refine ⟨Tbl.set r (R.XB_OUTSTANDING_NOW m).key 0 _, fun f hf => Tbl.get_set_ne _ _ _ _ (hf _ (by simp [portFlds])), rfl, ?_⟩
    rintro rfl
    exact Tbl.get_set_same r _ 0 0

/-- Plain DRAM is plain to the requests that are served. -/
theorem PlainDram.serving {a n m b : Nat} (h : PlainDram s a n) (hm : m < 24) (hr : RegsBut m s.regs r) {data : List (Option Byte)}
    (hs : s.mem.Stored b data mem) (q : List XbReq) : PlainDram (s.serving r mem q locks) a n := by
  refine (h.stored hs).congr rfl rfl rfl rfl (hr R.PEAL_STATUS_LIVE_PLANE ?_) ?_
  · simp [portFlds, Fld.key]; omega
  · have := hr (R.SYS_ISLAND_POWERED 12) (by simp [portFlds, Fld.key]; omega)
    exact congrArg (fun v => decide (v = 1)) this

end

/-- A request as it reaches the crossbar (R222): a read or a write of a device master, of which nothing has been served. -/
structure XbReq.Fresh (q : XbReq) : Prop where
  kind : (∃ n, q.kind = .read n) ∨ (∃ data, q.kind = .write data)
  admitted : q.admitted = false
  sent : q.sent = 0
  got : q.got = []
  answer : q.answer = none
  waited : q.waited = false
  dead : q.dead = false

/-- The request once its target has admitted it and served `i` of its beats, with the responses `got`. -/
def XbReq.after (q : XbReq) (age i : Nat) (got : List XbResp) : XbReq :=
  { q with admitted := true, age := age, sent := i, got := got, answer := if q.beats ≤ i then some (joinBeats q.kind got) else none }

/-- One request `q` alone, which came to `s`; what its first `i` beats leave is `P i`: the memories, and the responses. -/
structure Serve (s : State) (q : XbReq) (P : Nat → Mems → List XbResp → Prop) (ans : XbResp) : Prop where
  fresh : q.Fresh
  beats : 0 < q.beats
  port : s.xbPort q.master = .opened
  start : P 0 s.mem []
  step : ∀ i < q.beats, ∀ mem got, P i mem got → ∀ r locks age, RegsBut q.master s.regs r → ∃ mem' x,
    (s.serving r mem [q.after age i got] locks).oneBeat (q.after age i got) i = (x, s.serving r mem' [q.after age i got] locks) ∧
    P (i + 1) mem' (got ++ [x])
  result : ∀ mem got, P q.beats mem got → joinBeats q.kind got = ans
  good : ans.isErr = false

/-- `i` beats of `q` have been served. -/
def Serve.Going (s : State) (q : XbReq) (P : Nat → Mems → List XbResp → Prop) (locks : List XbLock) (i : Nat) (u : State) : Prop :=
  i ≤ q.beats ∧ ∃ age r mem got, RegsBut q.master s.regs r ∧ P i mem got ∧ u = s.serving r mem [q.after age i got] locks

/-- `q` has had its answer. -/
def Serve.Done (s : State) (q : XbReq) (P : Nat → Mems → List XbResp → Prop) (ans : XbResp) (locks : List XbLock) (u : State) : Prop :=
  ∃ r mem got, RegsBut q.master s.regs r ∧ P q.beats mem got ∧ Tbl.get r (R.XB_OUTSTANDING_NOW q.master).key 0 = 0 ∧
    u = (s.serving r mem [] locks).emit (.response q.master ans)

theorem find_after (s : State) (r : Tbl Nat) (mem : Mems) (q : XbReq) (age i : Nat) (got : List XbResp) (locks : List XbLock) :
    (s.serving r mem [q.after age i got] locks).hif.queue.find? (fun x => x.id == q.id) = some (q.after age i got) := by
  simp [State.serving, XbReq.after]

/-- A request that is served to its end is granted no more. -/
theorem grantBeats_ended (s : State) (r : Tbl Nat) (mem : Mems) {q : XbReq} (age : Nat) {i : Nat} (hi : q.beats ≤ i) (got : List XbResp)
    (locks : List XbLock) (n : Nat) :
    (s.serving r mem [q.after age i got] locks).grantBeats q.id n = s.serving r mem [q.after age i got] locks := by
  cases n with
  | zero => rfl
  | succ n =>
    have hend : ¬ (q.after age i got).sent < (q.after age i got).beats := Nat.not_lt.mpr hi
    simp only [State.grantBeats, find_after, if_neg hend]

section
variable {s : State} {q : XbReq} {P : Nat → Mems → List XbResp → Prop} {ans : XbResp} (h : Serve s q P ans)
include h

/-- A grant of one beat. -/
theorem Serve.grantBeats_one {i : Nat} (hi : i < q.beats) {mem : Mems} {got : List XbResp} (hP : P i mem got) {r : Tbl Nat}
    (hr : RegsBut q.master s.regs r) (age : Nat) (locks : List XbLock) (n : Nat) : ∃ mem' x, P (i + 1) mem' (got ++ [x]) ∧
    (s.serving r mem [q.after age i got] locks).grantBeats q.id (n + 1) =
      (s.serving r mem' [q.after age (i + 1) (got ++ [x])] locks).grantBeats q.id n := by
  obtain ⟨mem', x, hone, hP'⟩ := h.step i hi mem got hP r locks age hr
  refine ⟨mem', x, hP', ?_⟩
  have hlt : (q.after age i got).sent < (q.after age i got).beats := hi
  rw [State.grantBeats, find_after]
  simp only [if_pos hlt]
  rw [show (q.after age i got).sent = i from rfl, hone]
  congr 1
  simp only [State.setReq, State.serving, XbReq.after, List.map_cons, List.map_nil, if_true]
  congr 4
  exact if_congr decide_eq_true_iff rfl rfl

/-- As many beats as a grant allows are served, and no more than there are. -/
theorem Serve.grantBeats {locks : List XbLock} {i : Nat} (n : Nat) {u : State} (hu : Serve.Going s q P locks i u) :
    Serve.Going s q P locks (min q.beats (i + n)) (u.grantBeats q.id n) := by
  induction n generalizing i u with
  | zero =>
    rw [Nat.add_zero, Nat.min_eq_right hu.1]
    exact hu
  | succ n ih =>
    obtain ⟨hi, age, r, mem, got, hr, hP, rfl⟩ := id hu
    by_cases hlt : i < q.beats
    · obtain ⟨mem', x, hP', he⟩ := h.grantBeats_one hlt hP hr age locks n
      rw [he, show i + (n + 1) = i + 1 + n by omega]
      exact ih ⟨hlt, age, r, mem', _, hr, hP', rfl⟩
    · rw [grantBeats_ended s r mem age (by omega), Nat.min_eq_left (by omega), ← Nat.le_antisymm hi (by omega)]
      exact hu

end

end Sys2Proof.Machine
end

section
namespace Sys2Proof.Machine

/-! ### Rounds of the crossbar with one request about (R224, R225) -/

section
variable (s : State) (r : Tbl Nat) (mem : Mems) (q : XbReq) (age : Nat) (got : List XbResp) (locks : List XbLock)

theorem letIn_after (i : Nat) :
    (s.serving r mem [q.after age i got] locks).letIn = s.serving r mem [q.after age i got] locks := by
  simp [State.letIn, State.mayAdmit, State.serving, XbReq.after]

theorem countWaits_after (i t : Nat) :
    (s.serving r mem [q.after age i got] locks).countWaits t q.id = s.serving r mem [q.after age i got] locks := by
  simp [State.countWaits, State.serving, XbReq.after]

/-- A request with beats left is granted by its own target, and by no other. -/
theorem nextGrant_after {i : Nat} (hi : i < q.beats) (t : Nat) :
    (s.serving r mem [q.after age i got] []).nextGrant t =
      if s.targetNumber q.addr = t then some (q.after age i got) else none := by
  have ht : (s.serving r mem [q.after age i got] []).targetNumber q.addr = s.targetNumber q.addr := rfl
  have hq : (s.serving r mem [q.after age i got] []).hif.queue = [q.after age i got] := rfl
  have hl : (s.serving r mem [q.after age i got] []).hif.locks = [] := rfl
  have hg : (s.serving r mem [q.after age i got] []).grantable t (q.after age i got) = decide (s.targetNumber q.addr = t) := by
    unfold State.grantable
    rw [hq, hl, show (q.after age i got).addr = q.addr from rfl, ht]
    simp [XbReq.after, Nat.not_le.mpr hi, beq_eq_decide]
  rw [State.nextGrant, hq, List.find?_cons, hg]
  split_ifs with h <;> simp [h]

/-- A request with beats left has no answer to return. -/
theorem returnAll_after {i : Nat} (hi : i < q.beats) :
    (s.serving r mem [q.after age i got] locks).returnAll = s.serving r mem [q.after age i got] locks := by
  have hq : (s.serving r mem [q.after age i got] locks).hif.queue = [q.after age i got] := rfl
  rw [State.returnAll, hq, List.insertionSort_cons, List.insertionSort_nil, List.orderedInsert_nil, List.foldl_cons, List.foldl_nil]
  simp [State.returnOne, State.mayReturn, XbReq.after, Nat.not_le.mpr hi]

end

theorem xbRounds_succ (u : State) (t n : Nat) :
    u.xbRounds t (n + 1) = if (u.letIn.nextGrant t).isNone then u.letIn else (u.xbRound t).xbRounds t n := rfl

/-- Rounds begin with what the targets take in, which may as well stand there before. -/
theorem xbRounds_letIn {u : State} (h : u.letIn.letIn = u.letIn) (t n : Nat) : u.xbRounds t (n + 1) = u.letIn.xbRounds t (n + 1) := by
  have hround : u.letIn.xbRound t = u.xbRound t := by simp only [State.xbRound, h]
  rw [xbRounds_succ, xbRounds_succ, h, hround]

/-- With no request about, rounds change nothing. -/
theorem xbRounds_nil {u : State} (h : u.hif.queue = []) (t n : Nat) : u.xbRounds t n = u := by
  have hl : u.letIn = u := by simp [State.letIn, h]
  cases n with
  | zero => rfl
  | succ n => simp [State.xbRounds, hl, State.nextGrant, h]

theorem answer_good (u : State) (m a : Nat) {x : XbResp} (hx : x.isErr = false) : u.answer m a x = u.emit (.response m x) := by
  unfold State.answer State.hostError
  cases x <;> simp_all [XbResp.isErr]

section
variable {s : State} {q : XbReq} {P : Nat → Mems → List XbResp → Prop} {ans : XbResp}

theorem Serve.done_queue {locks : List XbLock} {u : State} (hu : Serve.Done s q P ans locks u) : u.hif.queue = [] := by
  obtain ⟨r, mem, got, -, -, -, rfl⟩ := hu
  rfl

/-- A request that takes its place behind the others stays as it is but for its age. -/
theorem Serve.reAge_going {i : Nat} {u : State} (hu : Serve.Going s q P [] i u) : Serve.Going s q P [] i (u.reAge q.id) := by
  obtain ⟨hi, age, r, mem, got, hr, hP, rfl⟩ := id hu
  rw [State.reAge, find_after]
  dsimp only
  split
  · exact hu
  · refine ⟨hi, (s.serving r mem [q.after age i got] []).ageNow, r, mem, got, hr, hP, ?_⟩
    have hq : (s.serving r mem [q.after age i got] []).hif.queue = [q.after age i got] := rfl
    rw [hq]
    simp [State.serving, XbReq.after]

variable (h : Serve s q P ans)
include h

/-- The answer of a request that is served to its end returns. -/
theorem Serve.returnAll_done {locks : List XbLock} {u : State} (hu : Serve.Going s q P locks q.beats u) :
    Serve.Done s q P ans locks u.returnAll := by
  obtain ⟨-, age, r, mem, got, hr, hP, rfl⟩ := hu
  obtain ⟨r', hr', hshow, hnow⟩ := serving_showOutstanding (s := s) (r := r) (mem := mem) (locks := locks) [] q.master
  refine ⟨r', mem, got, hr.trans hr', hP, hnow rfl, ?_⟩
  have hq : (s.serving r mem [q.after age q.beats got] locks).hif.queue = [q.after age q.beats got] := rfl
  have hdrop : ({ s.serving r mem [q.after age q.beats got] locks with hif :=
      { (s.serving r mem [q.after age q.beats got] locks).hif with queue := [q.after age q.beats got].filter (fun x => x.id != q.id) } } :
      State) = s.serving r mem [] locks := by simp [State.serving, XbReq.after]
  have hmay : (s.serving r mem [q.after age q.beats got] locks).mayReturn (q.after age q.beats got) = true := by
    unfold State.mayReturn
    rw [hq]
    simp [XbReq.after]
  rw [State.returnAll, hq, List.insertionSort_cons, List.insertionSort_nil, List.orderedInsert_nil, List.foldl_cons, List.foldl_nil,
    State.returnOne, if_pos hmay, hq]
  simp only [show (q.after age q.beats got).id = q.id from rfl, hdrop, show (q.after age q.beats got).master = q.master from rfl, hshow]
  simp only [XbReq.after, le_refl, if_true, h.fresh.dead, h.result mem got hP]
  exact answer_good _ _ _ h.good

/-- What a round of the target leaves of a request that has `i` beats behind it (R223, R225). -/
theorem Serve.xbRound_going (hlock : q.lock = none) {i : Nat} (hi : i < q.beats) {u : State} (hu : Serve.Going s q P [] i u) :
    (∃ j, i < j ∧ j < q.beats ∧ Serve.Going s q P [] j (u.xbRound (s.targetNumber q.addr))) ∨
    Serve.Done s q P ans [] (u.xbRound (s.targetNumber q.addr)) := by
  have hround : ∃ j, i < j ∧ ∃ v, Serve.Going s q P [] j v ∧ u.xbRound (s.targetNumber q.addr) = v.returnAll := by
    obtain ⟨-, age, r, mem, got, hr, hP, rfl⟩ := id hu
    have hstep : (s.serving r mem [q.after age i got] []).xbRound (s.targetNumber q.addr) =
        (if (s.serving r mem [q.after age i got] []).xbProfile = 0 then
          (s.serving r mem [q.after age i got] []).grantBeats q.id q.beats
        else ((s.serving r mem [q.after age i got] []).grantBeats q.id 1).reAge q.id).returnAll := by
      simp only [State.xbRound, letIn_after, nextGrant_after s r mem q age got hi, if_true]
      rw [show (q.after age i got).id = q.id from rfl, countWaits_after, show (q.after age i got).lock = none from hlock,
        show (q.after age i got).beats = q.beats from rfl]
      rcases h.fresh.kind with ⟨n, hk⟩ | ⟨d, hk⟩ <;> rw [show (q.after age i got).kind = q.kind from rfl, hk]
    rw [hstep]
    split
    · exact ⟨_, by omega, _, h.grantBeats q.beats hu, rfl⟩
    · exact ⟨_, by omega, _, Serve.reAge_going (h.grantBeats 1 hu), rfl⟩
  obtain ⟨j, hij, v, hv, he⟩ := hround
  rw [he]
  by_cases hj : j < q.beats
  · left
    obtain ⟨-, age, r, mem, got, -, -, rfl⟩ := id hv
    exact ⟨j, hij, hj, by rw [returnAll_after s r mem q age got [] hj]; exact hv⟩
  · right
    obtain rfl : j = q.beats := by have := hv.1; omega
    exact h.returnAll_done hv

/-- Rounds enough for the beats that are left serve the request. -/
theorem Serve.xbRounds_going (hlock : q.lock = none) {i : Nat} (hi : i < q.beats) {n : Nat} (hn : q.beats ≤ i + n) {u : State}
    (hu : Serve.Going s q P [] i u) : Serve.Done s q P ans [] (u.xbRounds (s.targetNumber q.addr) n) := by
  induction n generalizing i u with
  | zero => omega
  | succ n ih =>
    have hgo : u.xbRounds (s.targetNumber q.addr) (n + 1) =
        (u.xbRound (s.targetNumber q.addr)).xbRounds (s.targetNumber q.addr) n := by
      obtain ⟨-, age, r, mem, got, -, -, rfl⟩ := hu
      rw [State.xbRounds, letIn_after, nextGrant_after s r mem q age got hi]
      simp
    rw [hgo]
    rcases h.xbRound_going hlock hi hu with ⟨j, hij, hj, hgoing⟩ | hdone
    · exact ih hj (by omega) hgoing
    · rw [xbRounds_nil (Serve.done_queue hdone)]
      exact hdone

/-- The target takes the request in where nothing else is about (R225, R227). -/
theorem Serve.letIn_fresh (locks : List XbLock) : Serve.Going s q P locks 0 ((s.serving s.regs s.mem [q] locks).letIn) := by
  have hport : (s.serving s.regs s.mem [q] locks).xbPort q.master = .opened := h.port
  have hq : (s.serving s.regs s.mem [q] locks).hif.queue = [q] := rfl
  have hmay : (s.serving s.regs s.mem [q] locks).mayAdmit q = true := by
    unfold State.mayAdmit State.outstanding State.admittedAt
    rw [hq]
    simp [h.fresh.admitted, hport]
  have hset : (s.serving s.regs s.mem [q] locks).setReq q.id (fun x => { x with admitted := true }) =
      s.serving s.regs s.mem [q.after q.age 0 []] locks := by
    obtain ⟨-, -, hsent, hgot, hans, -, -⟩ := h.fresh
    have hq0 : ({ q with admitted := true } : XbReq) = q.after q.age 0 [] := by
      simp only [XbReq.after, hsent, hgot, hans, if_neg (Nat.not_le.mpr h.beats)]
    rw [← hq0]
    simp [State.setReq, State.serving]
  obtain ⟨r, hr, hshow, -⟩ := serving_showOutstanding (s := s) (r := s.regs) (mem := s.mem) (locks := locks) [q.after q.age 0 []] q.master
  refine ⟨Nat.zero_le _, q.age, r, s.mem, [], hr, h.start, ?_⟩
  rw [State.letIn, hq, List.foldl_cons, List.foldl_nil, if_pos hmay, hset, hshow]

/-- A locked beat alone locks its target for its master, and the last one of its sequence releases it (R224). -/
theorem Serve.xbRounds_locked {last : Bool} (hlock : q.lock = some last) (hone : q.beats = 1) (n : Nat) {u : State}
    (hu : Serve.Going s q P [] 0 u) : Serve.Done s q P ans (if last then [] else [⟨s.targetNumber q.addr, q.master, 1⟩])
      (u.xbRounds (s.targetNumber q.addr) (n + 1)) := by
  obtain ⟨-, age', r', mem', got', hr', hP', hgrant⟩ := h.grantBeats 1 hu
  rw [show min q.beats (0 + 1) = q.beats by omega] at hgrant hP'
  obtain ⟨-, age, r, mem, got, -, -, rfl⟩ := hu
  have hlt : 0 < q.beats := h.beats
  have hl : (s.serving r mem [q.after age 0 got] []).hif.locks = [] := rfl
  have hround : (s.serving r mem [q.after age 0 got] []).xbRound (s.targetNumber q.addr) =
      ((s.serving r mem [q.after age 0 got] []).grantLocked (s.targetNumber q.addr) (q.after age 0 got) last).returnAll := by
    simp only [State.xbRound, letIn_after, nextGrant_after s r mem q age got hlt, if_true]
    rw [show (q.after age 0 got).id = q.id from rfl, countWaits_after, show (q.after age 0 got).lock = some last from hlock]
    rcases h.fresh.kind with ⟨n, hk⟩ | ⟨d, hk⟩ <;> rw [show (q.after age 0 got).kind = q.kind from rfl, hk]
  have hgoing : Serve.Going s q P (if last then [] else [⟨s.targetNumber q.addr, q.master, 1⟩]) q.beats
      ((s.serving r mem [q.after age 0 got] []).grantLocked (s.targetNumber q.addr) (q.after age 0 got) last) := by
    refine ⟨le_rfl, age', r', mem', got', hr', hP', ?_⟩
    rw [State.grantLocked, hl, show (q.after age 0 got).id = q.id from rfl, hgrant]
    simp [State.serving, XbReq.after]
  have hdone := h.returnAll_done hgoing
  rw [State.xbRounds, letIn_after, nextGrant_after s r mem q age got hlt, if_pos rfl, hround]
  simp only [Option.isNone_some, Bool.false_eq_true, if_false]
  rwa [xbRounds_nil (Serve.done_queue hdone)]

/-- However many rounds go by, at every target in turn: the request is served once its own target has served it. -/
theorem Serve.xbRun_done {locks : List XbLock} {n : Nat} (hn : 0 < n) (ht : s.targetNumber q.addr < 17)
    (hserve : ∀ u, Serve.Going s q P [] 0 u → Serve.Done s q P ans locks (u.xbRounds (s.targetNumber q.addr) n)) :
    Serve.Done s q P ans locks ((s.serving s.regs s.mem [q] []).xbRun n) := by
  obtain ⟨n, rfl⟩ := Nat.exists_eq_add_one_of_ne_zero hn.ne'
  have hin := h.letIn_fresh []
  have hstay : (s.serving s.regs s.mem [q] []).letIn.letIn = (s.serving s.regs s.mem [q] []).letIn := by
    obtain ⟨-, age, r, mem, got, -, -, he⟩ := hin
    rw [he, letIn_after]
  have hother : ∀ t, t ≠ s.targetNumber q.addr → (s.serving s.regs s.mem [q] []).letIn.nextGrant t = none := by
    intro t ht
    obtain ⟨-, age, r, mem, got, -, -, he⟩ := hin
    rw [he, nextGrant_after s r mem q age got h.beats, if_neg ht.symm]
  have hbefore : ∀ (l : List Nat) (u : State), s.targetNumber q.addr ∉ l → u.letIn = (s.serving s.regs s.mem [q] []).letIn →
      (l.foldl (fun s t => s.xbRounds t (n + 1)) u).letIn = (s.serving s.regs s.mem [q] []).letIn := by
    intro l
    induction l with
    | nil => exact fun u _ hu => hu
    | cons t l ih =>
      intro u hl hu
      obtain ⟨htn, hl⟩ := not_or.mp (fun h => hl (List.mem_cons.mpr h))
      refine ih _ hl ?_
      change (u.xbRounds t (n + 1)).letIn = _
      rw [xbRounds_succ, hu, hother t (Ne.symm htn)]
      exact hstay
  have hafter : ∀ (l : List Nat) (u : State), Serve.Done s q P ans locks u →
      l.foldl (fun s t => s.xbRounds t (n + 1)) u = u := by
    intro l
    induction l with
    | nil => exact fun _ _ => rfl
    | cons t l ih =>
      intro u hu
      rw [List.foldl_cons, xbRounds_nil (Serve.done_queue hu)]
      exact ih u hu
  obtain ⟨l, l', hl, hnot⟩ := List.eq_append_cons_of_mem (List.mem_range.mpr ht)
  have hu := hbefore l _ hnot rfl
  rw [State.xbRun, hl, List.foldl_append, List.foldl_cons, xbRounds_letIn (by rw [hu, hstay]), hu]
  have hdone := hserve _ hin
  rw [hafter l' _ hdone]
  exact hdone

end

end Sys2Proof.Machine
end

section
namespace Sys2Proof.Machine

/-! ### Bursts to plain DRAM (R222, R225) -/

theorem bit_lt_two (n i : Nat) : bit n i < 2 := Nat.mod_lt _ (by norm_num)

theorem foldBits_lt_two (mask x : Nat) : foldBits mask x < 2 := by
  have go : ∀ (l : List Nat) (p : Nat), p < 2 → l.foldl (fun p i => p ^^^ (bit mask i * bit x i)) p < 2 := by
    intro l
    induction l with
    | nil => exact fun p hp => hp
    | cons i l ih =>
      intro p hp
      have h1 := bit_lt_two mask i
      have h2 := bit_lt_two x i
      have h3 : bit mask i * bit x i < 2 := by
        have := Nat.mul_le_mul (Nat.le_of_lt_succ h1) (Nat.le_of_lt_succ h2)
        omega
      exact ih _ (Nat.xor_lt_two_pow (n := 1) hp h3)
  exact go _ 0 (by norm_num)

/-- DRAM has four channels, each a target of its own (R206, R221). -/
theorem dramChannel_lt (seed a : Nat) : dramChannel seed a < 4 := by
  have h1 := foldBits_lt_two (Config.hashMask 0) (bits a 27 12 + 2 ^ 16 * (seed % 2 ^ 32))
  have h2 := foldBits_lt_two (Config.hashMask 1) (bits a 27 12 + 2 ^ 16 * (seed % 2 ^ 32))
  refine Nat.xor_lt_two_pow (n := 2) (Nat.mod_lt _ (by norm_num)) ?_
  omega

/-- A request as its master issues it (R222). -/
def arriving (s : State) (m tag : Nat) (k : XbKind) (a age : Nat) (lock : Option Bool) (resp : FetchResp) : XbReq :=
  ⟨s.heldNext, m, tag % 256, k, a, age, lock, resp, false, 0, [], none, false, false⟩

/-- With nothing else about, a request that is issued is the one that is served. -/
theorem enqueue_alone {s : State} (hq : s.hif.queue = []) (hl : s.hif.locks = []) (m tag : Nat) (k : XbKind) (a age : Nat)
    (lock : Option Bool) (resp : FetchResp) :
    s.enqueue m (tag % 256) k a age lock resp = s.serving s.regs s.mem [arriving s m tag k a age lock resp] [] := by
  simp [State.enqueue, State.serving, arriving, hq, hl, insertReq]

theorem joinBeats_read {n : Nat} (l : List (Nat × Nat)) (f : Nat × Nat → List Byte) :
    joinBeats (.read n) (l.map (fun x => .data (f x))) = .data (l.flatMap f) := by
  unfold joinBeats
  split
  · next e he =>
    obtain ⟨x, -, rfl⟩ := List.mem_map.mp (List.mem_of_find?_eq_some he)
    cases List.find?_some he
  · simp [XbKind.writes, List.flatMap_map]

theorem joinBeats_write (data : List (Option Byte)) (i : Nat) : joinBeats (.write data) (List.replicate i .ok) = .ok := by
  unfold joinBeats
  split
  · next e he =>
    obtain rfl := List.eq_of_mem_replicate (List.mem_of_find?_eq_some he)
    cases List.find?_some he
  · simp [XbKind.writes]

/-- A beat of a read of plain DRAM. -/
theorem oneBeat_read {u : State} {q : XbReq} {n i : Nat} (hk : q.kind = .read n)
    (h : PlainDram u (beatSpan q.addr n i).1 (beatSpan q.addr n i).2) :
    u.oneBeat q i = (.data (u.mem.dramRead (beatSpan q.addr n i).1 (beatSpan q.addr n i).2), u) := by
  have hbus := fun ext => congrArg Prod.snd (busRead_plain h ext)
  simp only [State.oneBeat, hk, XbKind.len, joinReads_plain h, hbus]

/-- A beat of a write of plain DRAM. -/
theorem oneBeat_write {u : State} {q : XbReq} {data : List (Option Byte)} {i : Nat} (hk : q.kind = .write data) (hd : q.dead = false)
    (h : PlainDram u (beatSpan q.addr data.length i).1
      ((data.drop ((beatSpan q.addr data.length i).1 - q.addr)).take (beatSpan q.addr data.length i).2).length) :
    ∃ mem', u.mem.Stored (beatSpan q.addr data.length i).1
      ((data.drop ((beatSpan q.addr data.length i).1 - q.addr)).take (beatSpan q.addr data.length i).2) mem' ∧
      u.oneBeat q i = (.ok, { u with mem := mem' }) := by
  obtain ⟨mem', hmem, hw⟩ := busWrite_plain h q.master
  refine ⟨mem', hmem, ?_⟩
  simp only [State.oneBeat, hk, XbKind.len, hd, Bool.false_eq_true, if_false, hw, joinWrites_ok]

section
variable {s : State} {m a : Nat} (hp : Through s m a) (hl : s.hif.locks = [])

/-- A request that goes through to an address below the registers comes from a master whose port is open, with CTRL on (R227). -/
theorem Through.port_opened (hp : Through s m a) (ha : a < 0x10000000) : s.domainOn 2 = true ∧ s.xbPort m = .opened := by
  have h := hp.2.1
  unfold State.passage at h
  split at h
  · next hon =>
    refine ⟨hon, ?_⟩
    split at h
    case h_1 hport => exact hport
    all_goals cases h
  · rw [if_neg (by omega)] at h
    cases h

theorem beatsOf_pos (a n : Nat) : 0 < beatsOf a n := by
  unfold beatsOf; split <;> omega

include hp

/-- Every beat of a read of plain DRAM brings its bytes. -/
theorem serve_read {n : Nat} (h : PlainDram s a n) (hn : 0 < n) (tag age : Nat) (lock : Option Bool) (resp : FetchResp) :
    Serve s (arriving s m tag (.read n) a age lock resp)
      (fun i mem got => mem = s.mem ∧ got = (beatSpans a n i).map (fun x => .data (s.mem.dramRead x.1 x.2)))
      (.data (s.mem.dramRead a n)) where
  fresh := ⟨.inl ⟨n, rfl⟩, rfl, rfl, rfl, rfl, rfl, rfl⟩
  beats := beatsOf_pos a n
  port := (hp.port_opened (by have := h.1; omega)).2
  start := ⟨rfl, rfl⟩
  step := by
    rintro i hi mem got ⟨rfl, rfl⟩ r locks age' hr
    obtain ⟨c, hc, hx, -, hend⟩ := beatSpan_place (a := a) hn hi
    have hplain : ∀ q, PlainDram (s.serving r s.mem [q] locks) (beatSpan a n i).1 (beatSpan a n i).2 := fun q =>
      (h.serving hp.1 hr (.nil s.mem a) [q]).part (hx ▸ hc.le) (hx ▸ hend)
    refine ⟨s.mem, _, oneBeat_read rfl (hplain _), rfl, ?_⟩
    rw [beatSpans_succ, List.map_append]; rfl
  result := by
    rintro mem got ⟨-, rfl⟩
    change joinBeats (.read n) _ = _
    rw [joinBeats_read]
    change XbResp.data ((beatSpans a n (beatsOf a n)).flatMap _) = _
    rw [Mems.dramRead_tiles _ (tiles_beats hn), Nat.add_sub_cancel_left]
  good := rfl

/-- Every beat of a write of plain DRAM stores its bytes. -/
theorem serve_write {data : List (Option Byte)} (h : PlainDram s a data.length) (hn : 0 < data.length) (tag age : Nat)
    (lock : Option Bool) (resp : FetchResp) :
    Serve s (arriving s m tag (.write data) a age lock resp)
      (fun i mem got => (∃ c, Tiles a (beatSpans a data.length i) c ∧ s.mem.Stored a (data.take (c - a)) mem) ∧ got = List.replicate i .ok)
      .ok where
  fresh := ⟨.inr ⟨data, rfl⟩, rfl, rfl, rfl, rfl, rfl, rfl⟩
  beats := beatsOf_pos a _
  port := (hp.port_opened (by have := h.1; omega)).2
  start := ⟨⟨a, rfl, by rw [Nat.sub_self]; exact .nil _ _⟩, rfl⟩
  step := by
    rintro i hi mem got ⟨⟨c, hc, hmem⟩, rfl⟩ r locks age' hr
    obtain ⟨c', hc', hx, hnext, hend⟩ := beatSpan_place (a := a) hn hi
    obtain rfl := hc.unique hc'
    have hle := hc.le
    have hlen : ((data.drop (c - a)).take (beatSpan a data.length i).2).length = (beatSpan a data.length i).2 := by
      simp; omega
    have hplain : ∀ q, PlainDram (s.serving r mem [q] locks) (beatSpan a data.length i).1
        ((data.drop ((beatSpan a data.length i).1 - a)).take (beatSpan a data.length i).2).length := by
      intro q
      rw [hx, hlen]
      exact (h.serving hp.1 hr hmem [q]).part hle hend
    obtain ⟨mem', hmem', hone⟩ := oneBeat_write (q := (arriving s m tag (.write data) a age lock resp).after age' i _) rfl rfl (hplain _)
    refine ⟨mem', .ok, hone, ⟨_, hnext, ?_⟩, List.replicate_succ'.symm⟩
    have htaken : (data.take (c - a)).length = c - a := by simp; omega
    have hboth := hmem.append (cs := (data.drop (c - a)).take (beatSpan a data.length i).2) (m'' := mem') (by
      rw [htaken, show a + (c - a) = c by omega]
      change (s.serving r mem _ locks).mem.Stored (beatSpan a data.length i).1
        ((data.drop ((beatSpan a data.length i).1 - a)).take (beatSpan a data.length i).2) mem' at hmem'
      rwa [hx] at hmem')
    rwa [← List.take_add, show c - a + (beatSpan a data.length i).2 = c + (beatSpan a data.length i).2 - a by omega] at hboth
  result := by
    rintro mem got ⟨-, rfl⟩
    exact joinBeats_write data _
  good := rfl

end
theorem burstOk_iff_left {a n : Nat} (h : burstOk a n = true) : 0 < n ∧ beatsOf a n ≤ 16 := by
  have := of_decide_eq_true h
  exact ⟨this.1, this.2.1⟩

section
variable {s : State} {m a : Nat} (hp : Through s m a) (hl : s.hif.locks = [])
include hp hl

/-- A read that its master may issue reaches the crossbar. -/
theorem exec_xbRequest_read {n : Nat} (h : PlainDram s a n) (hb : burstOk a n = true) (tag age rounds : Nat) {lock : Option Bool}
    (hlock : lock = none ∨ mayLock m = true ∧ beatsOf a n = 1) (resp : FetchResp) :
    exec (.xbRequest m tag a n none age rounds lock resp) s =
      .next ((s.serving s.regs s.mem [arriving s m tag (.read n) a age lock resp] []).xbRun rounds) := by
  obtain ⟨hon, hport⟩ := hp.port_opened (by have := h.1; have := (burstOk_iff_left hb).1; omega)
  have hcond : m < 24 ∧ burstOk a (XbKind.read n).len = true ∧
      (lock = none ∨ mayLock m = true ∧ beatsOf a (XbKind.read n).len = 1) ∧ s.domainOn 2 = true := ⟨hp.1, hb, hlock, hon⟩
  change execXbRequest m tag a n none age rounds lock resp s = _
  simp only [execXbRequest, if_pos hcond, hport, enqueue_alone hp.2.2 hl]

/-- A write that its master may issue reaches the crossbar. -/
theorem exec_xbRequest_write {data : List (Option Byte)} (h : PlainDram s a data.length) (hb : burstOk a data.length = true)
    (tag age rounds : Nat) {lock : Option Bool} (hlock : lock = none ∨ mayLock m = true ∧ beatsOf a data.length = 1) (resp : FetchResp) :
    exec (.xbRequest m tag a data.length (some data) age rounds lock resp) s =
      .next ((s.serving s.regs s.mem [arriving s m tag (.write data) a age lock resp] []).xbRun rounds) := by
  obtain ⟨hon, hport⟩ := hp.port_opened (by have := h.1; have := (burstOk_iff_left hb).1; omega)
  have hcond : m < 24 ∧ burstOk a (XbKind.write data).len = true ∧
      (lock = none ∨ mayLock m = true ∧ beatsOf a (XbKind.write data).len = 1) ∧ s.domainOn 2 = true := ⟨hp.1, hb, hlock, hon⟩
  change execXbRequest m tag a data.length (some data) age rounds lock resp s = _
  simp only [execXbRequest, if_pos hcond, hport, enqueue_alone hp.2.2 hl]

end

section
variable {s : State} {q : XbReq} {P : Nat → Mems → List XbResp → Prop} {ans : XbResp}

/-- What a request that was alone leaves of the state it came to. -/
theorem Serve.Done.frame (hq : s.hif.queue = []) {locks : List XbLock} {t : State} (hd : Serve.Done s q P ans locks t) :
    SameBut (portFlds q.master) { s with mem := t.mem, heldNext := s.heldNext + 1, hif := { s.hif with locks := locks } } t ∧
    t.fld (R.XB_OUTSTANDING_NOW q.master) = 0 ∧ t.sent = .response q.master ans :: s.sent ∧ ∃ got, P q.beats t.mem got := by
  obtain ⟨r, mem, got, hr, hP, hnow, rfl⟩ := hd
  refine ⟨⟨hr, ?_⟩, hnow, rfl, got, hP⟩
  have hqueue : s.serving r mem [] locks = s.serving r mem s.hif.queue locks := by rw [hq]
  rw [hqueue]
  rfl

/-- A burst outside locked sequences leaves no lock either. -/
theorem Serve.Done.frame_unlocked (hq : s.hif.queue = []) (hl : s.hif.locks = []) {t : State} (hd : Serve.Done s q P ans [] t) :
    SameBut (portFlds q.master) { s with mem := t.mem, heldNext := s.heldNext + 1 } t ∧
    t.fld (R.XB_OUTSTANDING_NOW q.master) = 0 ∧ t.sent = .response q.master ans :: s.sent ∧ ∃ got, P q.beats t.mem got := by
  rw [← hl] at hd
  exact hd.frame hq

theorem targetNumber_lt {a : Nat} (ha : a < 0x10000000) : s.targetNumber a < 17 := by
  have ht : targetOf a = .dram := by unfold targetOf; rw [if_pos ha]
  have := dramChannel_lt s.dpl.seed a
  simp only [State.targetNumber, ht]; omega

/-- A request to DRAM that is alone is served once as many rounds go by as it has beats. -/
theorem Serve.xbRun_burst (h : Serve s q P ans) (ha : q.addr < 0x10000000) (hlock : q.lock = none) {rounds : Nat}
    (hr : q.beats ≤ rounds) : Serve.Done s q P ans [] ((s.serving s.regs s.mem [q] []).xbRun rounds) := by
  have hbeats := h.beats
  refine h.xbRun_done (by omega) (targetNumber_lt ha) fun u hu => ?_
  exact h.xbRounds_going hlock hbeats (by omega) hu

/-- A locked beat to DRAM that is alone is served by the first round. -/
theorem Serve.xbRun_locked (h : Serve s q P ans) (ha : q.addr < 0x10000000) {last : Bool} (hlock : q.lock = some last)
    (hone : q.beats = 1) {rounds : Nat} (hr : 0 < rounds) :
    Serve.Done s q P ans (if last then [] else [⟨s.targetNumber q.addr, q.master, 1⟩])
      ((s.serving s.regs s.mem [q] []).xbRun rounds) := by
  refine h.xbRun_done hr (targetNumber_lt ha) fun u hu => ?_
  obtain ⟨n, rfl⟩ := Nat.exists_eq_add_one_of_ne_zero hr.ne'
  exact h.xbRounds_locked hlock hone n hu

end

/-! ### The statement -/

section
variable {s : State} {a : Nat} (hh : s.hostReaches = true) (hp : Through s 0 a)
include hh hp

theorem hostWrite_dram {data : List (Option Byte)} (h : PlainDram s a data.length) : Gives (.hostWrite true a data) s (fun t =>
    (∀ i < data.length, t.mem.dramByte (a + i) = (data.getD i none).getD (s.mem.dramByte (a + i))) ∧
    (∀ x, x < a ∨ a + data.length ≤ x → t.mem.dramByte x = s.mem.dramByte x) ∧ t = { s.touch 0 with mem := t.mem }) := by
  obtain ⟨m', hm, he⟩ := execHostWrite_plain hh hp h
  exact ⟨_, he, fun i _ => hm.inside i, fun _ hx => hm.outside hx, rfl⟩

theorem atomicOp_dram (op : AtomicOp) {wide : Bool} {n : Nat} (hn : (if wide then 8 else 4) = n) (operand compare : Nat)
    (ha : a % n = 0) (h : PlainDram s a n) : Gives (.atomicOp true a op wide operand compare) s (fun t =>
    t.sent = .hostData (s.mem.dramRead a n) :: s.sent ∧
    t.mem.dramRead a n = leBytes n (atomicLeaves op n (leNat (s.mem.dramRead a n)) operand compare) ∧
    (∀ x, x < a ∨ a + n ≤ x → t.mem.dramByte x = s.mem.dramByte x) ∧ t = { s.touch 0 with mem := t.mem, sent := t.sent }) := by
  obtain ⟨m', hm, he⟩ := atomicRun_plain (h.touch hp.1) op operand compare
  rw [State.touch_mem] at hm he
  obtain ⟨hword, haround⟩ := stored_atomicStores hm
  refine ⟨_, (execAtomicOp_plain hh hp hn op operand compare ha h).trans (congrArg _ he), ?_, hword, haround, rfl⟩
  rw [State.emit_sent]
  exact congrArg _ (State.touch_sent s 0)

end

/-- A register in the blocks that the statement names has a plain read. -/
theorem plainRead_of_range {a : Nat} (h1 : a ≠ 0x14040008) (h2 : a ≠ 0x15F10034)
    (h : ∃ r ∈ [(0x14000000, 0x14018000), (0x14020000, 0x14030000), (0x14040000, 0x14080000), (0x140B0000, 0x140B8000),
      (0x140F0000, 0x140F1000), (0x15F00000, 0x16000000)], r.1 ≤ a ∧ a < r.2) : PlainRead a := by
  obtain ⟨r, hr, hlo, hhi⟩ := h
  simp only [List.mem_cons, List.not_mem_nil, or_false] at hr
  unfold PlainRead
  rcases hr with rfl | rfl | rfl | rfl | rfl | rfl <;> dsimp only at hlo hhi <;> omega

section
variable {s : State} {m a : Nat} (hp : Through s m a) (hl : s.hif.locks = []) (tag age : Nat) {rounds : Nat} (hr : 16 ≤ rounds)
  (resp : FetchResp)
include hp hl hr

theorem readBurst_dram {n : Nat} (hb : burstOk a n = true) (h : PlainDram s a n) :
    Turns (.xbRequest m tag a n none age rounds none resp) s (portFlds m) { s with heldNext := s.heldNext + 1 } (fun t =>
      t.fld (R.XB_OUTSTANDING_NOW m) = 0 ∧ t.sent = .response m (.data (s.mem.dramRead a n)) :: s.sent) := by
  obtain ⟨hn, hbeats⟩ := burstOk_iff_left hb
  have hserve := serve_read hp h hn tag age none resp
  have hdone := hserve.xbRun_burst (by have := h.1; change a < _; omega) rfl (hbeats.trans hr)
  obtain ⟨hsame, hnow, hsent, got, hmem, -⟩ := hdone.frame_unlocked hp.2.2 hl
  rw [hmem] at hsame
  exact ⟨_, exec_xbRequest_read hp hl h hb tag age rounds (.inl rfl) resp, hsame, hnow, hsent⟩

theorem writeBurst_dram {data : List (Option Byte)} (hb : burstOk a data.length = true) (h : PlainDram s a data.length) :
    Gives (.xbRequest m tag a data.length (some data) age rounds none resp) s (fun t =>
      SameBut (portFlds m) { s with mem := t.mem, heldNext := s.heldNext + 1 } t ∧
      (∀ i < data.length, t.mem.dramByte (a + i) = (data.getD i none).getD (s.mem.dramByte (a + i))) ∧
      (∀ x, x < a ∨ a + data.length ≤ x → t.mem.dramByte x = s.mem.dramByte x) ∧
      t.fld (R.XB_OUTSTANDING_NOW m) = 0 ∧ t.sent = .response m .ok :: s.sent) := by
  obtain ⟨hn, hbeats⟩ := burstOk_iff_left hb
  have hserve := serve_write hp h hn tag age none resp
  have hdone := hserve.xbRun_burst (by have := h.1; change a < _; omega) rfl (hbeats.trans hr)
  obtain ⟨hsame, hnow, hsent, got, ⟨c, hc, hmem⟩, -⟩ := hdone.frame_unlocked hp.2.2 hl
  obtain rfl := hc.unique (tiles_beats hn)
  rw [Nat.add_sub_cancel_left, List.take_length] at hmem
  exact ⟨_, exec_xbRequest_write hp hl h hb tag age rounds (.inl rfl) resp, hsame, fun i _ => hmem.inside i,
    fun _ hx => hmem.outside hx, hnow, hsent⟩

theorem lockedBeat_dram {n : Nat} (last : Bool) (hm : mayLock m = true) (hb : burstOk a n = true) (hone : beatsOf a n = 1)
    (h : PlainDram s a n) :
    Turns (.xbRequest m tag a n none age rounds (some last) resp) s (portFlds m)
      { s with heldNext := s.heldNext + 1
               hif := { s.hif with locks := if last then [] else [⟨s.targetNumber a, m, 1⟩] } } (fun t =>
        t.sent = .response m (.data (s.mem.dramRead a n)) :: s.sent) := by
  obtain ⟨hn, -⟩ := burstOk_iff_left hb
  have hserve := serve_read hp h hn tag age (some last) resp
  have hdone := hserve.xbRun_locked (by have := h.1; change a < _; omega) rfl hone (by omega : 0 < rounds)
  obtain ⟨hsame, -, hsent, got, hmem, -⟩ := hdone.frame hp.2.2
  rw [hmem] at hsame
  exact ⟨_, exec_xbRequest_read hp hl h hb tag age rounds (.inr ⟨hm, hone⟩) resp, hsame, hsent⟩

end

/-- Settles O14: the host's accesses span by span, and a burst that is alone round by round. -/
theorem accessesToDram : Obligations.AccessesToDram := by
  refine ⟨fun s a hh hp => ⟨fun n => execHostRead_plain hh hp, fun data => hostWrite_dram hh hp, ?_, ?_⟩,
    fun s m tag a age rounds resp hp hl hr => ⟨fun n => readBurst_dram hp hl tag age hr resp, fun data =>
      writeBurst_dram hp hl tag age hr resp, fun n last => lockedBeat_dram hp hl tag age hr resp last⟩⟩
  · intro op wide operand compare n old new ha h
    exact atomicOp_dram hh hp op rfl operand compare ha h
  · intro hreach ha h1 h2 hrange
    have hplain := plainRead_of_range h1 h2 hrange
    exact ⟨execHostRead_word hh hreach ha hplain, fun v hw hf => execHostWrite_word hh hreach ha hplain hf hw⟩

end Sys2Proof.Machine
end

section
namespace Sys2Proof.Machine

/-! ### Tables that lose entries -/

theorem Tbl.find_filter_of_keep {α : Type} {p : Nat × α → Bool} {k : Nat} (h : ∀ v, p (k, v) = true) (t : Tbl α) :
    Tbl.find k (t.filter p) = Tbl.find k t := by
  induction t with
  | nil => rfl
  | cons e t ih =>
    obtain ⟨k', v⟩ := e
    rw [List.filter_cons]
    by_cases hk : k' = k
    · subst hk; simp [h, Tbl.find]
    · split <;> simp [Tbl.find, hk, ih]

theorem Tbl.find_filter_of_drop {α : Type} {p : Nat × α → Bool} {k : Nat} (h : ∀ v, p (k, v) = false) (t : Tbl α) :
    Tbl.find k (t.filter p) = none := by
  induction t with
  | nil => rfl
  | cons e t ih =>
    obtain ⟨k', v⟩ := e
    rw [List.filter_cons]
    split
    · next hp =>
      have hk : k' ≠ k := by rintro rfl; rw [h] at hp; cases hp
      simp [Tbl.find, hk, ih]
    · exact ih

/-! ### Domain states as base-4 digits (R407) -/

/-- A number whose digit `i` to base 4 is taken away. -/
def clearDigit (w i : Nat) : Nat := w - w / 4 ^ i % 4 * 4 ^ i

theorem clearDigit_same (w i : Nat) : clearDigit w i / 4 ^ i % 4 = 0 := by
  have hpos : 0 < 4 ^ i := by positivity
  have hw : clearDigit w i = 4 ^ i * (w / 4 ^ i - w / 4 ^ i % 4) + w % 4 ^ i := by
    have h1 := Nat.div_add_mod w (4 ^ i)
    have h2 := Nat.mod_le (w / 4 ^ i) 4
    have h3 := Nat.mul_le_mul_left (4 ^ i) h2
    rw [clearDigit, Nat.mul_sub, Nat.mul_comm (w / 4 ^ i % 4)]
    omega
  rw [hw, Nat.mul_add_div hpos, Nat.div_eq_of_lt (Nat.mod_lt _ hpos)]
  omega

theorem clearDigit_other {i j : Nat} (h : i ≠ j) (w : Nat) : clearDigit w i / 4 ^ j % 4 = w / 4 ^ j % 4 := by
  have hpos : ∀ k, 0 < 4 ^ k := fun k => by positivity
  have hle : w / 4 ^ i % 4 * 4 ^ i ≤ w := (Nat.mul_le_mul_right _ (Nat.mod_le _ 4)).trans (Nat.div_mul_le_self w _)
  rcases Nat.lt_or_gt_of_ne h with hij | hij
  · obtain ⟨k, rfl⟩ := Nat.exists_eq_add_of_lt hij
    have hd : ∀ x, x / 4 ^ (i + k + 1) = x / 4 ^ i / 4 / 4 ^ k := fun x => by
      rw [Nat.div_div_eq_div_mul, Nat.div_div_eq_div_mul, show i + k + 1 = i + 1 + k by omega, pow_add, pow_succ, Nat.mul_assoc]
    have hi : clearDigit w i / 4 ^ i = w / 4 ^ i - w / 4 ^ i % 4 := by
      rw [clearDigit, Nat.mul_comm, Nat.sub_mul_div_of_le _ _ _ (by rwa [Nat.mul_comm])]
    have hq : (w / 4 ^ i - w / 4 ^ i % 4) / 4 = w / 4 ^ i / 4 := by
      generalize w / 4 ^ i = x
      omega
    rw [hd, hd, hi, hq]
  · obtain ⟨k, rfl⟩ := Nat.exists_eq_add_of_lt hij
    have hi : clearDigit w (j + k + 1) = w - 4 ^ j * (4 * (w / 4 ^ (j + k + 1) % 4 * 4 ^ k)) := by
      rw [clearDigit, show j + k + 1 = k + 1 + j by omega, pow_add, pow_succ]; ring_nf
    have hle' : 4 ^ j * (4 * (w / 4 ^ (j + k + 1) % 4 * 4 ^ k)) ≤ w := by
      refine le_trans (le_of_eq ?_) hle
      rw [show j + k + 1 = k + 1 + j by omega, pow_add, pow_succ]; ring
    rw [hi, Nat.sub_mul_div_of_le _ _ _ hle']
    have : 4 * (w / 4 ^ (j + k + 1) % 4 * 4 ^ k) ≤ w / 4 ^ j := (Nat.le_div_iff_mul_le (hpos j)).mpr (by rwa [Nat.mul_comm])
    omega

/-- The low 24 bits of a number hold its first twelve digits to base 4. -/
theorem digit_mod {i : Nat} (hi : i < 12) (x : Nat) : x % 2 ^ 24 / 4 ^ i % 4 = x / 4 ^ i % 4 := by
  have h24 : 2 ^ 24 = 4 ^ i * 4 ^ (12 - i) := by rw [← pow_add, show i + (12 - i) = 12 by omega]; norm_num
  rw [h24, Nat.mod_mul_right_div_self, Nat.mod_mod_of_dvd _ (dvd_pow_self 4 (by omega))]

theorem State.domainState_setDomainState_zero (s : State) {d e : Nat} (he : 0 < e) (he' : e ≤ 12) :
    (s.setDomainState d 0).domainState e = clearDigit (s.fld R.PMU_DOMAIN_STATE_STATE) (d - 1) / 4 ^ (e - 1) % 4 := by
  simp only [State.setDomainState, State.domainState, State.fld_setFld_same, Nat.zero_mul, Nat.add_zero, clearDigit]
  exact digit_mod (by omega) _

theorem State.fld_setDomainState_ne (s : State) {f : Fld} (h : f.key ≠ R.PMU_DOMAIN_STATE_STATE.key) (d v : Nat) :
    (s.setDomainState d v).fld f = s.fld f := s.fld_setFld_ne _ h

/-! ### What a switched-off domain leaves (R391, R393) -/

/-- Fields that the reset of a domain other than AO leaves, by their key. -/
def staysKey (k : Nat) : Bool := addrDomain (k / 32) == 1 || keptKey k

/-- Fields that a domain other than AO leaves when it is switched off: those its reset leaves, but for the state shown for the
domain and for its islands. -/
def abidesKey (k : Nat) : Bool :=
  staysKey k && !(k / 32 == 0x15F0000C) && !decide (0x14000100 ≤ k / 32 ∧ k / 32 < 0x14000168)

theorem key_ne_of_bool {p : Nat → Bool} {k j : Nat} (hk : p k = true) (hj : p j = false) : k ≠ j := by
  rintro rfl; rw [hk] at hj; cases hj

theorem State.quietDomain_off {s : State} {d : Nat} (h : d = 2 ∨ s.domainOn 2 = false) :
    s.quietDomain d = { s with held := s.held.filter (fun h => engineDomain h.eng != d) } := by
  unfold State.quietDomain
  rw [if_neg]
  rintro ⟨hon, hd⟩
  rcases h with h | h
  · exact hd h
  · rw [h] at hon; cases hon

/-- What the reset of a domain leaves, while CTRL is off or is the domain itself. -/
structure ResetLeaves (d : Nat) (s t : State) : Prop where
  mem : t.mem = s.mem
  evt : t.evt = s.evt
  pmu : t.pmu = s.pmu
  cfg : t.cfg = s.cfg ∨ t.cfg = none
  old : t.old = s.old ∨ t.old = none
  regs : ∀ f : Fld, f.key ∉ [R.PEAL_STATUS_PLANE_A.key, R.PEAL_STATUS_PLANE_B.key, R.PEAL_STATUS_LIVE_PLANE.key, R.PEAL_STATUS_BUSY.key] →
    t.fld f = Tbl.get (s.regs.filter (fun e => !(addrDomain (e.1 / 32) == d && !keptKey e.1))) f.key f.rst

theorem State.resetDomain_leaves {s : State} {d : Nat} (h : d = 2 ∨ s.domainOn 2 = false) : ResetLeaves d s (s.resetDomain d) := by
  unfold State.resetDomain
  dsimp only
  rw [State.quietDomain_off h]
  split
  case h_7 =>
    refine ⟨rfl, rfl, rfl, .inr rfl, .inr rfl, fun f hf => ?_⟩
    rw [State.fld_clearFlds_ne]
    · rfl
    · simpa using hf
  case h_8 => split <;> exact ⟨rfl, rfl, rfl, .inl rfl, .inl rfl, fun _ _ => rfl⟩
  case h_1 => exact ⟨rfl, rfl, rfl, .inr rfl, .inr rfl, fun _ _ => rfl⟩
  all_goals exact ⟨rfl, rfl, rfl, .inl rfl, .inl rfl, fun _ _ => rfl⟩

theorem ResetLeaves.stays {s t : State} {d : Nat} (h : ResetLeaves d s t) (hd : d ≠ 1) {f : Fld} (hf : staysKey f.key = true) :
    t.fld f = s.fld f := by
  rw [h.regs]
  · rw [Tbl.get, Tbl.find_filter_of_keep]
    · rfl
    · intro v
      simp only [staysKey, Bool.or_eq_true, beq_iff_eq] at hf
      rcases hf with hf | hf
      · simp [hf, hd.symm]
      · simp [hf]
  · have hp : ∀ j ∈ [R.PEAL_STATUS_PLANE_A.key, R.PEAL_STATUS_PLANE_B.key, R.PEAL_STATUS_LIVE_PLANE.key, R.PEAL_STATUS_BUSY.key],
      staysKey j = false := by decide
    exact fun hmem => key_ne_of_bool hf (hp _ hmem) rfl

theorem State.domainState_congr {s t : State} (h : t.fld R.PMU_DOMAIN_STATE_STATE = s.fld R.PMU_DOMAIN_STATE_STATE) (d : Nat) :
    t.domainState d = s.domainState d := by simp only [State.domainState, h]

theorem State.islandOn_congr {s t : State} {i : Nat} (h : t.fld (R.SYS_ISLAND_POWERED i) = s.fld (R.SYS_ISLAND_POWERED i)) :
    t.islandOn i = s.islandOn i := by simp only [State.islandOn, h]

/-- A step on the way down: the domains `ds` are switched off. What stays and what is off stays off. -/
structure Down (ds : List Nat) (s t : State) : Prop where
  mem : t.mem = s.mem
  evt : t.evt = s.evt
  pmu : t.pmu = s.pmu
  cfg : t.cfg = s.cfg ∨ t.cfg = none
  old : t.old = s.old ∨ t.old = none
  fld : ∀ f : Fld, abidesKey f.key = true → t.fld f = s.fld f
  power : ∀ e, 0 < e → e ≤ 12 → e ∈ ds ∨ s.domainState e = 0 → t.domainState e = 0
  island : ∀ j < 26, domainOf j ∈ ds ∨ s.islandOn j = false → t.islandOn j = false

theorem Down.same {s t : State} (hm : t.mem = s.mem) (he : t.evt = s.evt) (hp : t.pmu = s.pmu) (hc : t.cfg = s.cfg) (ho : t.old = s.old)
    (hr : t.regs = s.regs) : Down [] s t where
  mem := hm
  evt := he
  pmu := hp
  cfg := .inl hc
  old := .inl ho
  fld f _ := State.fld_congr hr f
  power e _ _ h := by
    rw [State.domainState_congr (State.fld_congr hr _)]
    simpa using h
  island j _ h := by
    rw [State.islandOn_congr (State.fld_congr hr _)]
    simpa using h

theorem Down.trans {ds es : List Nat} {s t u : State} (h : Down ds s t) (h' : Down es t u) : Down (ds ++ es) s u where
  mem := h'.mem.trans h.mem
  evt := h'.evt.trans h.evt
  pmu := h'.pmu.trans h.pmu
  cfg := h'.cfg.elim (fun e => h.cfg.imp e.trans e.trans) .inr
  old := h'.old.elim (fun e => h.old.imp e.trans e.trans) .inr
  fld f hf := (h'.fld f hf).trans (h.fld f hf)
  power e h0 h12 he := by
    rw [List.mem_append, or_assoc, or_left_comm] at he
    exact h'.power e h0 h12 (he.imp_right (h.power e h0 h12))
  island j hj hoff := by
    rw [List.mem_append, or_assoc, or_left_comm] at hoff
    exact h'.island j hj (hoff.imp_right (h.island j hj))

theorem Down.foldl_nil {α : Type} {f : State → α → State} (xs : List α) (h : ∀ s, ∀ x ∈ xs, Down [] s (f s x)) (s : State) :
    Down [] s (xs.foldl f s) := by
  induction xs generalizing s with
  | nil => exact .same rfl rfl rfl rfl rfl rfl
  | cons x xs ih =>
    exact (h s x List.mem_cons_self).trans (ih (fun s y hy => h s y (List.mem_cons_of_mem x hy)) _)

theorem State.gatesLow_down (s : State) : Down [] s s.gatesLow := by
  refine Down.foldl_nil _ (fun s n _ => ?_) s
  split <;> exact .same rfl rfl rfl rfl rfl rfl

theorem State.dropFlights_down (s : State) (d : Nat) : Down [] s (s.dropFlights d) := .same rfl rfl rfl rfl rfl rfl

theorem mem_islandsOf {d i : Nat} (h : i ∈ islandsOf d) : i < 26 := List.mem_range.mp (List.mem_filter.mp h).1

theorem State.fld_islandDown_ne (s : State) {i : Nat} {f : Fld} (h : f.key / 32 ≠ 0x14000100 + 4 * i) : (s.islandDown i).fld f = s.fld f := by
  have hne : ∀ g : Fld, g.addr = 0x14000100 + 4 * i → g.lo < 32 → f.key ≠ g.key := by
    intro g hg hlo hk
    rw [hk] at h
    simp only [Fld.key, hg] at h
    omega
  unfold State.islandDown
  rw [State.fld_setFld_ne _ _ (hne _ rfl (show 16 < 32 by decide)), State.fld_setFld_ne _ _ (hne _ rfl (show 10 < 32 by decide)),
    State.fld_setFld_ne _ _ (hne _ rfl (show 8 < 32 by decide))]

theorem State.islandOn_islandDown (s : State) (i : Nat) : (s.islandDown i).islandOn i = false := by
  have h : (s.islandDown i).fld (R.SYS_ISLAND_POWERED i) = 0 := by
    unfold State.islandDown
    rw [State.fld_setFld_ne _ _ (by simp [Fld.key]), State.fld_setFld_ne _ _ (by simp [Fld.key]), State.fld_setFld_same]
    rfl
  simp [State.islandOn, h]

theorem State.islandOn_islandDown_ne (s : State) {i j : Nat} (h : j ≠ i) : (s.islandDown i).islandOn j = s.islandOn j :=
  State.islandOn_congr (s.fld_islandDown_ne (by simp only [Fld.key]; omega))

theorem State.islandDown_down (s : State) {i : Nat} (hi : i < 26) : Down [] s (s.islandDown i) where
  mem := rfl
  evt := rfl
  pmu := rfl
  cfg := .inl rfl
  old := .inl rfl
  fld f hf := by
    refine s.fld_islandDown_ne fun hk => ?_
    simp only [abidesKey, Bool.and_eq_true, Bool.not_eq_true', decide_eq_false_iff_not] at hf
    exact hf.2 (by omega)
  power e _ _ h := by
    rw [State.domainState_congr (s.fld_islandDown_ne (by simp only [Fld.key]; omega))]
    simpa only [List.not_mem_nil, false_or] using h
  island j hj hoff := by
    by_cases hij : j = i
    · subst hij; exact s.islandOn_islandDown j
    · rw [s.islandOn_islandDown_ne hij]
      simpa only [List.not_mem_nil, false_or] using hoff

/-- The islands of a list stopped. -/
def State.islandsDown (s : State) (xs : List Nat) : State := xs.foldl (fun s i => s.islandDown i) s

theorem State.islandOn_islandsDown {xs : List Nat} {s : State} {j : Nat} (h : j ∈ xs ∨ s.islandOn j = false) :
    (s.islandsDown xs).islandOn j = false := by
  induction xs generalizing s with
  | nil => simpa [State.islandsDown] using h
  | cons x xs ih =>
    refine ih ?_
    by_cases hx : j = x
    · subst hx; exact .inr (s.islandOn_islandDown j)
    · rw [s.islandOn_islandDown_ne hx]
      exact h.imp_left fun hm => (List.mem_cons.mp hm).resolve_left hx

/-- The islands of a domain stopped: with its state shown as off, the domain is down. -/
theorem State.islandsDown_down {d : Nat} {r s : State} (h : Down [] r s) (hd : 0 < d) :
    Down [d] r ((s.setDomainState d 0).islandsDown (islandsOf d)) := by
  have hi : Down [] (s.setDomainState d 0) ((s.setDomainState d 0).islandsDown (islandsOf d)) :=
    Down.foldl_nil _ (fun s _ hi => s.islandDown_down (mem_islandsOf hi)) _
  exact {
    mem := hi.mem.trans h.mem
    evt := hi.evt.trans h.evt
    pmu := hi.pmu.trans h.pmu
    cfg := hi.cfg.elim (fun e => h.cfg.imp e.trans e.trans) .inr
    old := hi.old.elim (fun e => h.old.imp e.trans e.trans) .inr
    fld := fun f hf => (hi.fld f hf).trans ((s.fld_setDomainState_ne (key_ne_of_bool hf (by decide)) d 0).trans (h.fld f hf))
    power := fun e h0 h12 he => by
      refine hi.power e h0 h12 (.inr ?_)
      rw [State.domainState_setDomainState_zero s h0 h12]
      by_cases hed : e = d
      · subst hed; exact clearDigit_same _ _
      · rw [clearDigit_other (by omega)]
        exact h.power e h0 h12 (.inr (he.resolve_left (by simpa using hed)))
    island := fun j hj hoff => by
      refine State.islandOn_islandsDown (hoff.imp (fun hm => ?_) fun hs => ?_)
      · exact List.mem_filter.mpr ⟨List.mem_range.mpr hj, by simpa using hm⟩
      · rw [State.islandOn_congr (s.fld_setDomainState_ne (by simp only [Fld.key]; omega) d 0)]
        exact h.island j hj (.inr hs) }

theorem staysKey_powered : ∀ j < 26, staysKey (R.SYS_ISLAND_POWERED j).key = true := by decide

theorem ResetLeaves.down {s t : State} {d : Nat} (h : ResetLeaves d s t) (hd : d ≠ 1) : Down [] s t where
  mem := h.mem
  evt := h.evt
  pmu := h.pmu
  cfg := h.cfg
  old := h.old
  fld f hf := by
    simp only [abidesKey, Bool.and_eq_true] at hf
    exact h.stays hd hf.1.1
  power e _ _ he := by
    rw [State.domainState_congr (h.stays hd (by decide))]
    simpa only [List.not_mem_nil, false_or] using he
  island j hj hoff := by
    rw [State.islandOn_congr (h.stays hd (staysKey_powered j hj))]
    simpa only [List.not_mem_nil, false_or] using hoff

theorem State.domainOn_ctrl (s : State) : s.domainOn 2 = s.islandOn 1 := rfl

/-- A domain other than AO is switched off, CTRL before the others. -/
theorem State.domainDown_down {s : State} {d : Nat} (hd : 1 < d) (h : d = 2 ∨ s.domainOn 2 = false) : Down [d] s (s.domainDown d) := by
  have hg : Down [] s (if d = 11 then s.gatesLow else s) := by
    split
    · exact s.gatesLow_down
    · exact .same rfl rfl rfl rfl rfl rfl
  have hr := State.resetDomain_leaves (h.imp_right fun hoff => hg.island 1 (by decide) (.inr hoff))
  exact State.islandsDown_down (hg.trans (hr.down (by omega))) (by omega)

/-- CTRL off: no image is live. -/
structure CtrlOff (t : State) : Prop where
  cfg : t.cfg = none
  old : t.old = none
  off : t.domainOn 2 = false

theorem CtrlOff.down {ds : List Nat} {s t : State} (h : CtrlOff s) (hd : Down ds s t) : CtrlOff t where
  cfg := hd.cfg.elim (fun e => e.trans h.cfg) id
  old := hd.old.elim (fun e => e.trans h.old) id
  off := hd.island 1 (by decide) (.inr h.off)

theorem State.resetDomain_ctrl_planes (s : State) : (s.resetDomain 2).cfg = none ∧ (s.resetDomain 2).old = none := by
  simp only [State.resetDomain, and_self]

theorem State.domainDown_ctrl (s : State) : CtrlOff (s.domainDown 2) := by
  obtain ⟨hcfg, hold⟩ := s.resetDomain_ctrl_planes
  have hd : Down [2] (s.resetDomain 2) (s.domainDown 2) := State.islandsDown_down (.same rfl rfl rfl rfl rfl rfl) (by decide)
  exact {
    cfg := hd.cfg.elim (fun e => e.trans hcfg) id
    old := hd.old.elim (fun e => e.trans hold) id
    off := hd.island 1 (by decide) (.inl (by decide)) }

/-- Switch domains off, in the order given, with the words in flight discarded. -/
def State.switchOff (s : State) (ds : List Nat) : State := ds.foldl (fun s d => (s.dropFlights d).domainDown d) s

theorem State.switchOff_down {ds : List Nat} (hds : ∀ d ∈ ds, 1 < d) {s : State} (h : CtrlOff s) : Down ds s (s.switchOff ds) := by
  induction ds generalizing s with
  | nil => exact .same rfl rfl rfl rfl rfl rfl
  | cons d ds ih =>
    have hdrop := s.dropFlights_down d
    have hd := hdrop.trans (State.domainDown_down (hds d List.mem_cons_self) (.inr (h.down hdrop).off))
    exact hd.trans (ih (fun e he => hds e (List.mem_cons_of_mem d he)) (h.down hd))

theorem State.powerOff_down (s : State) : Down powerSequence s (s.switchOff powerSequence) ∧ CtrlOff (s.switchOff powerSequence) := by
  have hd : Down [2] s ((s.dropFlights 2).domainDown 2) := (s.dropFlights_down 2).trans (State.domainDown_down (by decide) (.inl rfl))
  have hc := State.domainDown_ctrl (s.dropFlights 2)
  have hr := State.switchOff_down (ds := [12, 9, 10, 3, 4, 5, 6, 7, 8, 11]) (by decide) hc
  rw [show s.switchOff powerSequence = State.switchOff ((s.dropFlights 2).domainDown 2) [12, 9, 10, 3, 4, 5, 6, 7, 8, 11] from
    List.foldl_cons ..]
  exact ⟨hd.trans hr, hc.down hr⟩

end Sys2Proof.Machine
end

section
namespace Sys2Proof.Machine

/-! ### Entering SENTRY and the main side off (R391, R393) -/

/-- The fields that entering SENTRY, with its alert, may change. -/
def sentryFlds : List Fld :=
  [R.SYS_MODE_MODE, R.SYS_MODE_WITHHELD, R.SYS_INT_STATUS_MODE_CHANGE, R.BLK_STATE_RUN, R.PMU_LIMP_STATUS_CAUSE, R.PMU_LIMP_STATUS_PHASE,
    R.SYS_MODE_LIMP_CAUSE, R.SMP_ALERT_STATUS_ALERT]

theorem State.fld_setMode_ne (s : State) (m : Mode) {f : Fld} (h : ∀ g ∈ sentryFlds, f.key ≠ g.key) : (s.setMode m).fld f = s.fld f := by
  unfold State.setMode
  split
  · rfl
  · rw [State.fld_raise_ne _ (h _ (by decide)), State.markWithheld, State.fld_setFld_ne _ _ (h _ (by decide)),
      State.fld_setFld_ne _ _ (h _ (by decide))]

theorem State.fld_setCauses_ne (s : State) (v : Nat) {f : Fld} (h : ∀ g ∈ sentryFlds, f.key ≠ g.key) :
    (s.setCauses v).fld f = s.fld f := by
  unfold State.setCauses
  dsimp only
  split
  · rw [State.fld_setFld_ne _ _ (h _ (by decide)), State.fld_setFld_ne _ _ (h _ (by decide))]
  · rw [State.fld_setFld_ne _ _ (h _ (by decide))]

theorem State.setMode_mem (s : State) (m : Mode) : (s.setMode m).mem = s.mem := by
  unfold State.setMode State.markWithheld; split <;> simp

theorem State.setMode_evt (s : State) (m : Mode) : (s.setMode m).evt = s.evt := by
  unfold State.setMode State.markWithheld; split <;> simp

theorem State.setCauses_frame (s : State) (v : Nat) : (s.setCauses v).mem = s.mem ∧ (s.setCauses v).evt = s.evt := by
  unfold State.setCauses; dsimp only; split <;> exact ⟨rfl, rfl⟩

theorem State.mode_eq_sentry {s : State} (h : s.fld R.SYS_MODE_MODE = 0) : s.mode = .sentry := by
  simp only [State.mode, h]

theorem State.mode_congr {s t : State} (h : t.fld R.SYS_MODE_MODE = s.fld R.SYS_MODE_MODE) : t.mode = s.mode := by
  simp only [State.mode, h]

theorem State.mode_setMode_sentry (s : State) : (s.setMode .sentry).mode = .sentry := by
  unfold State.setMode
  split
  · assumption
  · apply State.mode_eq_sentry
    rw [State.fld_raise_ne _ (by decide), State.markWithheld, State.fld_setFld_ne _ _ (by decide), State.fld_setFld_same]
    rfl

/-- SENTRY entered: the mode, the goal given up, and what stays. -/
structure InSentry (s t : State) : Prop where
  mode : t.mode = .sentry
  goal : t.pmu.goal = []
  mem : t.mem = s.mem
  evt : t.evt = s.evt
  fld : ∀ f : Fld, (∀ g ∈ sentryFlds, f.key ≠ g.key) → t.fld f = s.fld f

/-- What entering SENTRY does outside the power manager's own state. -/
def State.sentryShown (s : State) : State :=
  ((((s.setMode .sentry).setFld R.BLK_STATE_RUN 0).setGate false).setCauses 0).setFld R.PMU_LIMP_STATUS_PHASE 0

theorem State.toSentry_eq (s : State) : ∃ p : Pmu, p.goal = [] ∧ s.toSentry = { s.sentryShown with pmu := p } := ⟨_, rfl, rfl⟩

theorem State.fld_sentryShown_ne (s : State) {f : Fld} (h : ∀ g ∈ sentryFlds, f.key ≠ g.key) : s.sentryShown.fld f = s.fld f := by
  unfold State.sentryShown
  rw [State.fld_setFld_ne _ _ (h _ (by decide)), State.fld_setCauses_ne _ _ h, State.setGate, State.fld_with,
    State.fld_setFld_ne _ _ (h _ (by decide)), State.fld_setMode_ne _ _ h]

theorem State.setCauses_mode (s : State) (v : Nat) : (s.setCauses v).mode = s.mode := by
  apply State.mode_congr
  unfold State.setCauses
  dsimp only
  split
  · rw [State.fld_setFld_ne _ _ (by decide), State.fld_setFld_ne _ _ (by decide)]
  · rw [State.fld_setFld_ne _ _ (by decide)]

theorem State.sentryShown_mode (s : State) : s.sentryShown.mode = .sentry := by
  have hset : ∀ (t : State) (f : Fld), f.key ≠ R.SYS_MODE_MODE.key → (t.setFld f 0).mode = t.mode :=
    fun t f hf => State.mode_congr (t.fld_setFld_ne 0 hf.symm)
  have hgate : ∀ (t : State), (t.setGate false).mode = t.mode := fun _ => rfl
  unfold State.sentryShown
  rw [hset _ _ (by decide), State.setCauses_mode, hgate, hset _ _ (by decide), State.mode_setMode_sentry]

theorem State.sentryShown_mem (s : State) : s.sentryShown.mem = s.mem := by
  unfold State.sentryShown
  rw [State.setFld_mem, (State.setCauses_frame _ _).1, State.setGate, State.setFld_mem, State.setMode_mem]

theorem State.sentryShown_evt (s : State) : s.sentryShown.evt = s.evt := by
  unfold State.sentryShown
  rw [State.setFld_evt, (State.setCauses_frame _ _).2, State.setGate, State.setFld_evt, State.setMode_evt]

theorem State.toSentry_inSentry (s : State) : InSentry s s.toSentry := by
  obtain ⟨p, hp, heq⟩ := s.toSentry_eq
  have hmode := s.sentryShown_mode
  have hmem := s.sentryShown_mem
  have hevt := s.sentryShown_evt
  have hfld : ∀ f : Fld, (∀ g ∈ sentryFlds, f.key ≠ g.key) → s.sentryShown.fld f = s.fld f := fun f hf => s.fld_sentryShown_ne hf
  rw [heq]
  generalize s.sentryShown = u at hmode hmem hevt hfld
  exact ⟨hmode, hp, hmem, hevt, hfld⟩

end Sys2Proof.Machine
end

section
namespace Sys2Proof.Machine

/-! ### The main side off, and its resets (R393) -/

/-- The fields that every main-side reset must keep. -/
def keptFlds : List Fld := [R.EVT_OP_MINUTES_MIN, R.EVT_POWER_CYCLES_COUNT, R.FLM_GEN_LO_GEN]

theorem keptFlds_abide : ∀ f ∈ keptFlds, abidesKey f.key = true ∧ ∀ g ∈ sentryFlds, f.key ≠ g.key := by decide

/-- The main side is off: what it has lost, and what is kept. -/
structure MainDown (s t : State) : Prop where
  mode : t.mode = .sentry
  cfg : t.cfg = none
  old : t.old = none
  mem : t.mem = s.mem
  evt : t.evt = s.evt
  power : ∀ d ∈ powerSequence, t.domainState d = 0
  island : ∀ j < 26, 0 < j → t.islandOn j = false
  offs : t.pmu.offs = []
  kept : ∀ f ∈ keptFlds, t.fld f = s.fld f

/-- The domains that wait to be switched off forgotten. -/
def State.offsDone (t : State) : State := { t with pmu := { t.pmu with offs := [] } }

theorem State.offsDone_goal (t : State) : t.offsDone.pmu.goal = t.pmu.goal := rfl

theorem State.mainOff_eq (s : State) :
    s.mainOff = ((if s.domainOn 2 then s.alert 0 else s).toSentry.switchOff powerSequence).offsDone := rfl

theorem InSentry.mainDown {s u t : State} (hs : InSentry s u) (hd : Down powerSequence u t) (hc : CtrlOff t) : MainDown s t.offsDone where
  mode := (State.mode_congr (hd.fld _ (by decide))).trans hs.mode
  cfg := hc.cfg
  old := hc.old
  mem := hd.mem.trans hs.mem
  evt := hd.evt.trans hs.evt
  power d h := by
    have hpow : ∀ d ∈ powerSequence, 0 < d ∧ d ≤ 12 := by decide
    obtain ⟨h0, h12⟩ := hpow d h
    exact hd.power d h0 h12 (.inl h)
  island j hj h0 := by
    have hdom : ∀ j < 26, 0 < j → domainOf j ∈ powerSequence := by decide
    exact hd.island j hj (.inl (hdom j hj h0))
  offs := rfl
  kept f hf := by
    obtain ⟨ha, hn⟩ := keptFlds_abide f hf
    exact (hd.fld f ha).trans (hs.fld f hn)

/-- The alert of a side that goes down shows in nothing that a reset keeps. -/
theorem InSentry.of_alert {s u : State} (h : InSentry (if s.domainOn 2 then s.alert 0 else s) u) : InSentry s u where
  mode := h.mode
  goal := h.goal
  mem := by rw [h.mem]; split <;> rfl
  evt := by rw [h.evt]; split <;> rfl
  fld f hf := by
    rw [h.fld f hf]
    split
    · exact s.fld_setFld_ne _ (hf _ (by decide))
    · rfl

theorem InSentry.switchOff {s u : State} (hs : InSentry s u) :
    MainDown s (u.switchOff powerSequence).offsDone ∧ (u.switchOff powerSequence).offsDone.pmu.goal = [] := by
  obtain ⟨hd, hc⟩ := u.powerOff_down
  exact ⟨hs.mainDown hd hc, (State.offsDone_goal _).trans ((congrArg Pmu.goal hd.pmu).trans hs.goal)⟩

theorem State.mainOff_down (s : State) : MainDown s s.mainOff ∧ s.mainOff.pmu.goal = [] := by
  rw [State.mainOff_eq]
  exact (InSentry.of_alert (State.toSentry_inSentry _)).switchOff

/-- Registers of the resets' own: their causes, the straps and PMU's events. -/
def resetRegs : List Nat := [0x15F00018, 0x14000008, 0x15F00100]

theorem MainDown.frame {s t u : State} (h : MainDown s t) (hcfg : u.cfg = t.cfg) (hold : u.old = t.old) (hmem : u.mem = t.mem)
    (hevt : u.evt = t.evt) (hoffs : u.pmu.offs = t.pmu.offs) (hfld : ∀ f : Fld, f.key / 32 ∉ resetRegs → u.fld f = t.fld f) :
    MainDown s u where
  mode := (State.mode_congr (hfld _ (by decide))).trans h.mode
  cfg := hcfg.trans h.cfg
  old := hold.trans h.old
  mem := hmem.trans h.mem
  evt := hevt.trans h.evt
  power d hd := (State.domainState_congr (hfld _ (by decide)) d).trans (h.power d hd)
  island j hj h0 := by
    have hreg : ∀ j < 26, (R.SYS_ISLAND_POWERED j).key / 32 ∉ resetRegs := by decide
    exact (State.islandOn_congr (hfld _ (hreg j hj))).trans (h.island j hj h0)
  offs := hoffs.trans h.offs
  kept f hf := by
    have hreg : ∀ f ∈ keptFlds, f.key / 32 ∉ resetRegs := by decide
    exact (hfld f (hreg f hf)).trans (h.kept f hf)

theorem MainDown.setFld {s t : State} (h : MainDown s t) {g : Fld} (hg : g.key / 32 ∈ resetRegs) (v : Nat) : MainDown s (t.setFld g v) :=
  h.frame rfl rfl rfl rfl rfl fun _ hf => t.fld_setFld_ne v fun he => hf (he ▸ hg)

theorem MainDown.raise {s t : State} (h : MainDown s t) {g : Fld} (hg : g.key / 32 ∈ resetRegs) : MainDown s (t.raise g) :=
  h.frame (State.raise_cfg ..) (State.raise_old ..) (State.raise_mem ..) (State.raise_evt ..) (congrArg Pmu.offs (State.raise_pmu ..))
    fun _ hf => t.fld_raise_ne fun he => hf (he ▸ hg)

theorem MainDown.withPmu {s t : State} (h : MainDown s t) {p : Pmu} (hp : p.offs = t.pmu.offs) : MainDown s { t with pmu := p } :=
  h.frame rfl rfl rfl rfl hp fun _ _ => rfl

/-! ### Straps sampled -/

theorem State.fld_sampleStraps_ne (s : State) (straps : Nat) {f : Fld} (hb : f.key ≠ R.SYS_STRAPS_BOOT_SRC.key)
    (hr : f.key ≠ R.SYS_STRAPS_FLAM_ROLE.key) : (s.sampleStraps straps).fld f = s.fld f := by
  unfold State.sampleStraps
  dsimp only
  rw [State.fld_with, State.fld_setFld_ne _ _ hr, State.fld_setFld_ne _ _ hb]

theorem State.sampleStraps_goal (s : State) (straps : Nat) : (s.sampleStraps straps).pmu.goal = s.pmu.goal := rfl

theorem bits_one_zero_lt (n : Nat) : bits n 1 0 < 2 ^ 2 := Nat.mod_lt _ (by norm_num)

theorem State.fld_sampleStraps_bootSrc (s : State) (straps : Nat) :
    (s.sampleStraps straps).fld R.SYS_STRAPS_BOOT_SRC = bits straps 1 0 := by
  unfold State.sampleStraps
  dsimp only
  rw [State.fld_with, State.fld_setFld_ne _ _ (by decide), State.fld_setFld_same]
  exact Nat.mod_eq_of_lt (bits_one_zero_lt straps)

theorem State.fld_sampleStraps_flamRole (s : State) (straps : Nat) :
    (s.sampleStraps straps).fld R.SYS_STRAPS_FLAM_ROLE = bit straps 2 := by
  unfold State.sampleStraps
  dsimp only
  rw [State.fld_with, State.fld_setFld_same]
  exact Nat.mod_eq_of_lt (bit_lt_two straps 2)

theorem MainDown.sampleStraps {s t : State} (h : MainDown s t) (straps : Nat) : MainDown s (t.sampleStraps straps) :=
  ((h.setFld (g := R.SYS_STRAPS_BOOT_SRC) (by decide) _).setFld (g := R.SYS_STRAPS_FLAM_ROLE) (by decide) _).withPmu rfl

/-- A main-side reset: its cause and the straps show, and nothing waits to be switched on. -/
structure MainReset (cause : Fld) (straps : Nat) (s t : State) : Prop where
  down : MainDown s t
  cause : t.fld cause = 1
  bootSrc : t.fld R.SYS_STRAPS_BOOT_SRC = bits straps 1 0
  flamRole : t.fld R.SYS_STRAPS_FLAM_ROLE = bit straps 2
  goal : t.pmu.goal = []

/-- The causes of a main-side reset. -/
def mainCauses : List Fld := [R.PMU_RESET_CAUSE_RESET_N, R.PMU_RESET_CAUSE_SOFTWARE, R.PMU_RESET_CAUSE_THERMAL]

theorem mainCauses_place : ∀ c ∈ mainCauses, c.key / 32 ∈ resetRegs ∧ c.key ≠ R.SYS_STRAPS_BOOT_SRC.key ∧
    c.key ≠ R.SYS_STRAPS_FLAM_ROLE.key ∧ c.width = 1 := by decide

theorem State.mainReset_shows (s : State) (straps : Nat) {cause : Fld} (hc : cause ∈ mainCauses) :
    MainReset cause straps s (s.mainReset cause straps) := by
  obtain ⟨hr, hb, hf, hw⟩ := mainCauses_place cause hc
  obtain ⟨hd, hg⟩ := s.mainOff_down
  unfold State.mainReset
  exact {
    down := (hd.setFld hr 1).sampleStraps straps
    cause := by rw [State.fld_sampleStraps_ne _ _ hb hf, State.fld_setFld_same, hw]; rfl
    bootSrc := State.fld_sampleStraps_bootSrc _ _
    flamRole := State.fld_sampleStraps_flamRole _ _
    goal := (State.sampleStraps_goal _ _).trans ((congrArg Pmu.goal (State.setFld_pmu ..)).trans hg) }

/-! ### The wake that BOOT_SRC names (R393, R394) -/

/-- What a state shows after a main-side reset of `s` with the wake of its straps. -/
def ShowsReset (s : State) (straps : Nat) (cause : Fld) (t : State) : Prop :=
  t.mode = .sentry ∧ t.fld cause = 1 ∧ t.cfg = none ∧ t.old = none ∧ t.mem.flash = s.mem.flash ∧
    (∀ d ∈ powerSequence, t.domainState d = 0) ∧ (∀ i < 26, 0 < i → t.islandOn i = false) ∧ t.pmu.offs = [] ∧
    t.fld R.SYS_STRAPS_BOOT_SRC = bits straps 1 0 ∧ t.fld R.SYS_STRAPS_FLAM_ROLE = bit straps 2 ∧
    t.fld R.EVT_OP_MINUTES_MIN = s.fld R.EVT_OP_MINUTES_MIN ∧ t.fld R.EVT_POWER_CYCLES_COUNT = s.fld R.EVT_POWER_CYCLES_COUNT ∧
    t.fld R.FLM_GEN_LO_GEN = s.fld R.FLM_GEN_LO_GEN ∧ t.evt = s.evt ∧ t.pmu.goal = (if bits straps 1 0 < 2 then [2, 12] else [])

theorem MainDown.shows {s t : State} (h : MainDown s t) {cause : Fld} {straps : Nat} (hc : t.fld cause = 1)
    (hb : t.fld R.SYS_STRAPS_BOOT_SRC = bits straps 1 0) (hr : t.fld R.SYS_STRAPS_FLAM_ROLE = bit straps 2)
    (hg : t.pmu.goal = if bits straps 1 0 < 2 then [2, 12] else []) : ShowsReset s straps cause t :=
  ⟨h.mode, hc, h.cfg, h.old, congrArg Mems.flash h.mem, h.power, h.island, h.offs, hb, hr, h.kept _ (by decide), h.kept _ (by decide),
    h.kept _ (by decide), h.evt, hg⟩

theorem State.wake_sentry {s : State} (hm : s.mode = .sentry) (hg : s.pmu.goal = []) (slot : Option Nat) :
    ∃ p : Pmu, s.wake slot = { s with pmu := p } ∧ p.goal = [2, 12] ∧ p.offs = s.pmu.offs :=
  ⟨_, if_pos ⟨hm, hg⟩, rfl, rfl⟩

theorem MainReset.wakeByStrap {s t : State} {cause : Fld} {straps : Nat} (h : MainReset cause straps s t) :
    ShowsReset s straps cause t.wakeByStrap := by
  have hw : t.bootSrc < 2 ↔ bits straps 1 0 < 2 := by simp only [State.bootSrc, h.bootSrc]; omega
  unfold State.wakeByStrap
  split
  · next hlt =>
    obtain ⟨p, heq, hp, ho⟩ := State.wake_sentry h.down.mode h.goal none
    rw [heq]
    exact (h.down.withPmu ho).shows h.cause h.bootSrc h.flamRole (hp.trans (if_pos (hw.mp hlt)).symm)
  · next hlt => exact h.down.shows h.cause h.bootSrc h.flamRole (h.goal.trans (if_neg (mt hw.mpr hlt)).symm)

/-- The reset of a state whose request has been counted shows what the reset of the state before does. -/
theorem ShowsReset.of_touch {s t : State} {straps : Nat} {cause : Fld} (h : ShowsReset (s.touch 0) straps cause t) :
    ShowsReset s straps cause t := by
  have hf : ∀ f ∈ keptFlds, f.key ≠ (R.XB_OUTSTANDING_PEAK 0).key := by decide
  unfold ShowsReset at h ⊢
  rwa [State.touch_mem, State.touch_evt, s.fld_touch_ne (hf R.EVT_OP_MINUTES_MIN (by decide)),
    s.fld_touch_ne (hf R.EVT_POWER_CYCLES_COUNT (by decide)), s.fld_touch_ne (hf R.FLM_GEN_LO_GEN (by decide))] at h

theorem ShowsReset.answered {s t : State} {straps : Nat} {cause : Fld} (h : ShowsReset s straps cause t) (u : State) (m : Nat) (r : XbResp) :
    ShowsReset s straps cause (u.answered m r t) := h

theorem resetNAssert_shows (s : State) (straps : Nat) : Gives (.resetNAssert straps) s (ShowsReset s straps R.PMU_RESET_CAUSE_RESET_N) :=
  ⟨_, rfl, (s.mainReset_shows straps (by decide)).wakeByStrap⟩

theorem exec_sysResetWrite {s : State} (h : HostReaches s 0x14000004) (v : Word) (straps : Nat) :
    exec (.sysResetWrite v straps) s = .next (s.answered 0 .ok ((s.touch 0).sysReset v.toNat straps)) :=
  congrArg Host.Outcome.next (hostSet_reach h v _)

theorem sysResetWrite_shows {s : State} (h : HostReaches s 0x14000004) {v : Word} (straps : Nat) (hv : v.toNat / 65536 = 0x5A1D) :
    Gives (.sysResetWrite v straps) s (ShowsReset s straps R.PMU_RESET_CAUSE_SOFTWARE) := by
  refine ⟨_, exec_sysResetWrite h v straps, ShowsReset.answered ?_ s 0 .ok⟩
  rw [State.sysReset, if_pos hv]
  exact ((s.touch 0).mainReset_shows straps (by decide)).wakeByStrap.of_touch

theorem sysResetWrite_other {s : State} (h : HostReaches s 0x14000004) {v : Word} (straps : Nat) (hv : v.toNat / 65536 ≠ 0x5A1D) :
    exec (.sysResetWrite v straps) s = .next (s.answered 0 .ok (s.touch 0)) := by
  rw [exec_sysResetWrite h, State.sysReset, if_neg hv]

theorem thermalTrip_shows (s : State) (straps : Nat) : Gives (.thermalTrip straps) s (fun t =>
    t.mode = .sentry ∧ t.fld R.PMU_RESET_CAUSE_THERMAL = 1 ∧ t.cfg = none ∧ t.pmu.tripped = true ∧
      t.pmu.goal = [] ∧ (∀ d ∈ powerSequence, t.domainState d = 0) ∧ bit (t.fld R.PMU_INT_STATUS_THERM_TRIP) 0 = 1) := by
  have h := s.mainReset_shows straps (cause := R.PMU_RESET_CAUSE_THERMAL) (by decide)
  refine ⟨_, rfl, ?_⟩
  unfold State.thermalTrip
  generalize s.mainReset R.PMU_RESET_CAUSE_THERMAL straps = t at h ⊢
  have hd : MainDown s (t.raise R.PMU_INT_STATUS_THERM_TRIP) := h.down.raise (by decide)
  exact ⟨hd.mode, (t.fld_raise_ne (by decide)).trans h.cause, hd.cfg, rfl, (congrArg Pmu.goal (State.raise_pmu ..)).trans h.goal, hd.power,
    t.fld_raise_same (by decide)⟩

end Sys2Proof.Machine
end

section
namespace Sys2Proof.Machine

/-! ### Flash that an operation cut short leaves in doubt (R340, R393) -/

theorem get_flashPut_outside (bs : List Byte) (t : Tbl Byte) {a x : Nat} (h : x < a ∨ a + bs.length ≤ x) :
    Tbl.get (flashPut t a bs) x 0xFF = Tbl.get t x 0xFF := by
  induction bs generalizing t a with
  | nil => rfl
  | cons b bs ih =>
    rw [List.length_cons] at h
    rw [flashPut, ih _ (by omega), Tbl.get_set_ne _ _ _ _ (by omega)]

/-- No erase runs but that of a record. -/
abbrev ErasesRecord (s : State) : Prop := s.evt.erasing = none ∨ s.evt.erasing = some 0 ∨ s.evt.erasing = some 1

/-- Flash may have changed at the records, and nothing of the registers and of the commands that wait. -/
structure Spoiled (s t : State) : Prop where
  pending : t.pending = s.pending
  regs : t.regs = s.regs
  flash : ∀ x, x < recordAt 0 ∨ recordAt 2 ≤ x → t.flashByte x = s.flashByte x

theorem Spoiled.refl (s : State) : Spoiled s s := ⟨rfl, rfl, fun _ _ => rfl⟩

theorem Spoiled.flashSpoil {s t : State} (h : Spoiled s t) {slot n : Nat} (hs : slot < 2) (hn : n ≤ 0x10000) :
    Spoiled s (t.flashSpoil (recordAt slot) n) where
  pending := h.pending
  regs := h.regs
  flash x hx := by
    refine Eq.trans ?_ (h.flash x hx)
    refine get_flashPut_outside _ t.mem.flash ?_
    simp only [recordAt] at hx ⊢
    change _ ∨ _ + (leBytes n _).length ≤ x
    rw [length_leBytes]
    omega

/-- Flash as a reset of everything leaves it: the record being written and the one being erased are in doubt. -/
def State.spoiled (s : State) : State :=
  let s0 : State := match s.evt.writing with
    | some _ => s.flashSpoil (recordAt (s.evt.next % 2)) 8192
    | none => s
  match s.evt.erasing with
  | some slot => s0.flashSpoil (recordAt slot) 0x10000
  | none => s0

theorem State.spoiled_of_idle {s : State} (hw : s.evt.writing = none) (he : s.evt.erasing = none) : s.spoiled = s := by
  simp only [State.spoiled, hw, he]

theorem State.spoiled_spoiled {s : State} (he : ErasesRecord s) :
    Spoiled s s.spoiled := by
  have h0 : Spoiled s (match s.evt.writing with
      | some _ => s.flashSpoil (recordAt (s.evt.next % 2)) 8192
      | none => s) := by
    split
    · exact (Spoiled.refl s).flashSpoil (Nat.mod_lt _ (by decide)) (by decide)
    · exact .refl s
  unfold State.spoiled
  rcases he with he | he | he
  · rw [he]; exact h0
  · rw [he]; exact h0.flashSpoil (by decide) le_rfl
  · rw [he]; exact h0.flashSpoil (by decide) le_rfl

/-! ### A reset of everything (R393) -/

/-- Fields of OTP, by their key. -/
def otpKey (k : Nat) : Bool := decide (0x15F80400 * 32 ≤ k ∧ k < 0x15F80488 * 32)

theorem State.wiped_eq (s : State) : s.wiped =
    { State.reset with
      pending := s.spoiled.pending
      freeCtr := s.spoiled.freeCtr
      sent := s.spoiled.sent
      regs := s.spoiled.regs.filter (fun e => otpKey e.1)
      mem := { State.reset.mem with flash := s.spoiled.mem.flash }
      flm := { Flm.idle with ownPeer := s.spoiled.flm.ownPeer, selPeer := s.spoiled.flm.selPeer } } := rfl

/-- Flash stands, but for a record whose write or erase is cut short. -/
abbrev FlashKept (s t : State) : Prop := (s.evt.writing = none → s.evt.erasing = none → t.mem.flash = s.mem.flash) ∧
  ∀ x, x < recordAt 0 ∨ recordAt 2 ≤ x → t.flashByte x = s.flashByte x

/-- What a reset of everything leaves, in memories and queues. -/
structure Wiped (s t : State) : Prop where
  cfg : t.cfg = none
  dram : t.mem.dram = []
  pending : t.pending = s.pending
  held : t.held = []
  commits : t.commits = []
  flash : FlashKept s t

theorem State.wiped_wiped {s : State} (he : ErasesRecord s) : Wiped s s.wiped := by
  have hs := State.spoiled_spoiled he
  have hi : s.evt.writing = none → s.evt.erasing = none → s.spoiled.mem.flash = s.mem.flash :=
    fun hw he => congrArg (·.mem.flash) (State.spoiled_of_idle hw he)
  rw [State.wiped_eq]
  generalize s.spoiled = u at hs hi ⊢
  exact ⟨rfl, rfl, hs.pending, rfl, rfl, hi, hs.flash⟩

theorem State.fld_wiped (s : State) (f : Fld) :
    s.wiped.fld f = Tbl.get (s.spoiled.regs.filter (fun e => otpKey e.1)) f.key f.rst := by rw [State.wiped_eq]; rfl

theorem State.fld_wiped_rst (s : State) {f : Fld} (h : otpKey f.key = false) : s.wiped.fld f = f.rst := by
  rw [State.fld_wiped, Tbl.get, Tbl.find_filter_of_drop fun _ => h, Option.getD_none]

theorem State.fld_wiped_otp {s : State} (he : ErasesRecord s) {f : Fld}
    (h : otpKey f.key = true) : s.wiped.fld f = s.fld f := by
  rw [State.fld_wiped, Tbl.get, Tbl.find_filter_of_keep fun _ => h, (State.spoiled_spoiled he).regs]
  rfl

/-- The fields that the reset of everything sets after it has wiped the state. -/
def aoFlds : List Fld :=
  [R.PMU_RAIL_GOOD_GOOD, R.PMU_RESET_CAUSE_POR, R.PMU_RESET_CAUSE_AO_RESET_N, R.SYS_STRAPS_BOOT_SRC, R.SYS_STRAPS_FLAM_ROLE,
    R.SYS_STRAPS_SMP_MODE, R.SMP_STATUS_READ_ONLY]

/-- The cause that a reset of everything shows. -/
def aoCause (por : Bool) : Fld := if por then R.PMU_RESET_CAUSE_POR else R.PMU_RESET_CAUSE_AO_RESET_N

theorem aoCause_place : ∀ por, aoCause por ∈ aoFlds ∧ (aoCause por).width = 1 ∧
    ∀ g ∈ [R.SYS_STRAPS_BOOT_SRC, R.SYS_STRAPS_FLAM_ROLE, R.SYS_STRAPS_SMP_MODE, R.SMP_STATUS_READ_ONLY], (aoCause por).key ≠ g.key := by
  decide

theorem State.aoReset_eq (s : State) (por : Bool) (straps : Nat) : ∃ rails, s.aoReset por straps =
    ((((s.wiped.setFld R.PMU_RAIL_GOOD_GOOD rails).setFld (aoCause por) 1).sampleStraps straps).setFld R.SYS_STRAPS_SMP_MODE
      (bit straps 3)).setFld R.SMP_STATUS_READ_ONLY (bit straps 3) := ⟨_, rfl⟩

theorem State.fld_aoReset_ne (s : State) (por : Bool) (straps : Nat) {f : Fld} (h : ∀ g ∈ aoFlds, f.key ≠ g.key) :
    (s.aoReset por straps).fld f = s.wiped.fld f := by
  obtain ⟨rails, heq⟩ := s.aoReset_eq por straps
  rw [heq, State.fld_setFld_ne _ _ (h _ (by decide)), State.fld_setFld_ne _ _ (h _ (by decide)),
    State.fld_sampleStraps_ne _ _ (h _ (by decide)) (h _ (by decide)), State.fld_setFld_ne _ _ (h _ (aoCause_place por).1),
    State.fld_setFld_ne _ _ (h _ (by decide))]

theorem State.fld_aoReset_cause (s : State) (por : Bool) (straps : Nat) : (s.aoReset por straps).fld (aoCause por) = 1 := by
  obtain ⟨rails, heq⟩ := s.aoReset_eq por straps
  obtain ⟨_, hw, hne⟩ := aoCause_place por
  rw [heq, State.fld_setFld_ne _ _ (hne _ (by decide)), State.fld_setFld_ne _ _ (hne _ (by decide)),
    State.fld_sampleStraps_ne _ _ (hne _ (by decide)) (hne _ (by decide)), State.fld_setFld_same, hw]
  rfl

theorem State.fld_aoReset_straps (s : State) (por : Bool) (straps : Nat) :
    (s.aoReset por straps).fld R.SYS_STRAPS_BOOT_SRC = bits straps 1 0 ∧
      (s.aoReset por straps).fld R.SYS_STRAPS_SMP_MODE = bit straps 3 ∧
      (s.aoReset por straps).fld R.SMP_STATUS_READ_ONLY = bit straps 3 := by
  obtain ⟨rails, heq⟩ := s.aoReset_eq por straps
  have hbit : bit straps 3 % 2 ^ 1 = bit straps 3 := Nat.mod_eq_of_lt (bit_lt_two straps 3)
  rw [heq]
  refine ⟨?_, ?_, ?_⟩
  · rw [State.fld_setFld_ne _ _ (by decide), State.fld_setFld_ne _ _ (by decide), State.fld_sampleStraps_bootSrc]
  · rw [State.fld_setFld_ne _ _ (by decide), State.fld_setFld_same]
    exact hbit
  · rw [State.fld_setFld_same]
    exact hbit

theorem Wiped.setFld {s t : State} (h : Wiped s t) (f : Fld) (v : Nat) : Wiped s (t.setFld f v) :=
  ⟨h.cfg, h.dram, h.pending, h.held, h.commits, h.flash⟩

theorem Wiped.sampleStraps {s t : State} (h : Wiped s t) (straps : Nat) : Wiped s (t.sampleStraps straps) :=
  ⟨h.cfg, h.dram, h.pending, h.held, h.commits, h.flash⟩

theorem State.aoReset_wiped {s : State} (he : ErasesRecord s) (por : Bool)
    (straps : Nat) : Wiped s (s.aoReset por straps) := by
  obtain ⟨rails, heq⟩ := s.aoReset_eq por straps
  rw [heq]
  exact ((((State.wiped_wiped he).setFld _ _).setFld _ _).sampleStraps _ |>.setFld _ _).setFld _ _

/-! ### What the resets of everything show, and the obligation -/

theorem aoReset_shows {s : State} (he : ErasesRecord s) (por : Bool)
    (straps : Nat) : Gives (.aoReset por straps) s (fun t => t.mode = .sentry ∧ t.cfg = none ∧ t.mem.dram = [] ∧
      FlashKept s t ∧
      t.fld (aoCause por) = 1 ∧ t.fld R.EVT_STATUS_RESTORING = 1 ∧
      t.fld R.SYS_STRAPS_BOOT_SRC = bits straps 1 0 ∧ t.fld R.SYS_STRAPS_SMP_MODE = bit straps 3 ∧ t.fld R.SMP_STATUS_READ_ONLY = bit straps 3 ∧
      t.fld R.OTP_ROLLBACK_MIN_MIN = s.fld R.OTP_ROLLBACK_MIN_MIN ∧ t.fld R.OTP_FP_STATE_REVOKED = s.fld R.OTP_FP_STATE_REVOKED ∧
      t.held = [] ∧ t.commits = [] ∧ t.pending = s.pending) := by
  have h := State.aoReset_wiped he por straps
  obtain ⟨hboot, hmode, hro⟩ := s.fld_aoReset_straps por straps
  have hrst : ∀ f : Fld, (∀ g ∈ aoFlds, f.key ≠ g.key) → otpKey f.key = false → (s.aoReset por straps).fld f = f.rst :=
    fun f hne hk => (s.fld_aoReset_ne por straps hne).trans (s.fld_wiped_rst hk)
  have hotp : ∀ f : Fld, (∀ g ∈ aoFlds, f.key ≠ g.key) → otpKey f.key = true → (s.aoReset por straps).fld f = s.fld f :=
    fun f hne hk => (s.fld_aoReset_ne por straps hne).trans (State.fld_wiped_otp he hk)
  exact ⟨_, rfl, State.mode_eq_sentry (hrst _ (by decide) (by decide)), h.cfg, h.dram, h.flash, s.fld_aoReset_cause por straps,
    hrst _ (by decide) (by decide), hboot, hmode, hro, hotp _ (by decide) (by decide), hotp _ (by decide) (by decide), h.held, h.commits,
    h.pending⟩

theorem vddAoLoss_shows {s : State} (he : ErasesRecord s) :
    Gives .vddAoLoss s (fun t => t.mode = .sentry ∧ t.cfg = none ∧ t.mem.dram = [] ∧
      FlashKept s t ∧
      t.fld R.EVT_STATUS_RESTORING = 0 ∧ t.fld R.OTP_ROLLBACK_MIN_MIN = s.fld R.OTP_ROLLBACK_MIN_MIN ∧ t.pending = s.pending) := by
  have h : Wiped s s.aoLoss := (State.wiped_wiped he).setFld _ _
  have hne : ∀ f : Fld, f.key ≠ R.EVT_STATUS_RESTORING.key → s.aoLoss.fld f = s.wiped.fld f := fun f hf => s.wiped.fld_setFld_ne 0 hf
  exact ⟨_, rfl, State.mode_eq_sentry ((hne _ (by decide)).trans (s.fld_wiped_rst (by decide))), h.cfg, h.dram, h.flash,
    s.wiped.fld_setFld_same _ 0, (hne _ (by decide)).trans (State.fld_wiped_otp he (by decide)), h.pending⟩

/-- Settles O58: the fields that the resets of the domains leave are told by their key, and with CTRL, the first domain to go
down, every domain switched off after it shows off at the end; a reset of everything keeps OTP's registers, and flash but for the
records that an operation cut short leaves in doubt. -/
theorem resets : Obligations.Resets := by
  unfold Obligations.Resets
  refine ⟨fun s straps => ⟨resetNAssert_shows s straps, fun v h => ⟨sysResetWrite_shows h straps, sysResetWrite_other h straps⟩,
    thermalTrip_shows s straps⟩, fun s por straps => ?_⟩
  intro kept he
  exact ⟨aoReset_shows he por straps, vddAoLoss_shows he⟩

end Sys2Proof.Machine
end

section
namespace Sys2Proof.Machine

/-! ### An island of Beater on the fallback oscillator (R402) -/

/-- A machine with no live image whose first Beater island stands on the fallback oscillator while PLL_00 is in use again, with a
token on its way to it. -/
def beaterOnFallback : State :=
  let s := ((State.reset.setFld R.BLK_STATE_RUN 1).setFld (R.SYS_ISLAND_POWERED 22) 1).setFld (R.SYS_ISLAND_CLK_SRC 22) 1
  { s with blk := { s.blk with seq := 1 } }

/-- The token takes the island back to PLL_00. -/
theorem beaterOnFallback_returns : (beaterOnFallback.tokenArrival 22).fld (R.SYS_ISLAND_CLK_SRC 22) = 0 := by decide

/-- Refutes O12: the token takes a Beater island that is on the fallback oscillator back to PLL_00 (R402), where the statement has a
token without a live image change nothing but the island's arrival. -/
theorem not_tokenAndTaskCommands : ¬ Obligations.TokenAndTaskCommands := by
  unfold Obligations.TokenAndTaskCommands
  rintro ⟨-, hbeater, -⟩
  have hexec := hbeater beaterOnFallback 22 0 rfl (by decide) (by decide) (by decide) (by decide) rfl
  have hsrc := congrArg (fun u => State.fld u (R.SYS_ISLAND_CLK_SRC 22)) (Host.Outcome.next.inj hexec)
  have hkept : beaterOnFallback.fld (R.SYS_ISLAND_CLK_SRC 22) = 1 := by decide
  exact absurd (beaterOnFallback_returns.symm.trans (hsrc.trans hkept)) (by decide)

end Sys2Proof.Machine
end

section
namespace Sys2Proof.Machine

/-! ### Commit pairs (R24-R29) -/

theorem commitAddr_ge (b : CommitBlk) : 0x14060090 ≤ commitAddr b := by
  cases b <;> simp only [commitAddr] <;> omega

/-- The request that writes xxx_COMMIT counts in no field of the status register. -/
theorem State.fld_touch_commit (s : State) {b : CommitBlk} {f : Fld} (hf : f.addr = commitAddr b) : (s.touch 0).fld f = s.fld f := by
  have := commitAddr_ge b
  refine s.fld_touch_ne ?_
  simp only [Fld.key, hf]
  omega

theorem State.pendingOf_congr {s t : State} (h : t.commits = s.commits) (b : CommitBlk) : t.pendingOf b = s.pendingOf b := by
  simp only [State.pendingOf, h]

theorem State.dropCommit_commits (s : State) (b : CommitBlk) :
    (s.dropCommit b).commits = s.commits.filter (fun p => decide (p.blk ≠ b)) := rfl

theorem State.pendingOf_dropCommit_same (s : State) (b : CommitBlk) : (s.dropCommit b).pendingOf b = none := by
  simp [State.pendingOf, State.dropCommit_commits]

theorem State.pendingOf_dropCommit_ne (s : State) {b b' : CommitBlk} (h : b' ≠ b) :
    (s.dropCommit b).pendingOf b' = s.pendingOf b' := by
  unfold State.pendingOf
  rw [State.dropCommit_commits, List.find?_filter]
  congr 1
  funext p
  by_cases hp : p.blk = b' <;> simp [hp, h]

theorem State.pendingOf_blk {s : State} {b : CommitBlk} {p : PendingCommit} (h : s.pendingOf b = some p) : p.blk = b := by
  simpa using List.find?_some h

/-- What a refusal shows (R25, R26). -/
theorem State.commitRefused_shows (s : State) (b : CommitBlk) (tag code : Nat) :
    (s.commitRefused b tag code).fld (commitErr b) = 1 ∧ (s.commitRefused b tag code).fld (commitCode b) = code % 16 ∧
      (s.commitRefused b tag code).fld (commitTag b) = tag % 256 := by
  unfold State.commitRefused
  refine ⟨?_, ?_, State.fld_setFld_same ..⟩
  · rw [State.fld_setFld_ne _ _ (by simp [commitErr, commitTag]), State.fld_setFld_ne _ _ (by simp [commitErr, commitCode]),
      State.fld_setFld_same]
    rfl
  · rw [State.fld_setFld_ne _ _ (by simp [commitCode, commitTag]), State.fld_setFld_same]
    rfl

theorem SameBut.commitRefused {fs : List Fld} {u t : State} (h : SameBut fs u t) (b : CommitBlk) (tag code : Nat)
    (hfs : ∀ f ∈ [commitErr b, commitCode b, commitTag b], f ∈ fs) : SameBut fs u (t.commitRefused b tag code) :=
  ((h.setFld _ (hfs _ (by simp))).setFld _ (hfs _ (by simp))).setFld _ (hfs _ (by simp))

theorem SameBut.withCommits {fs : List Fld} {u t : State} (h : SameBut fs u t) (cs : List PendingCommit) :
    SameBut fs { u with commits := cs } { t with commits := cs } := by
  refine ⟨h.1, ?_⟩
  conv_lhs => rw [h.2]

theorem HostSets.imp {i : Instr} {s u : State} {fs : List Fld} {p q : State → Prop} (h : HostSets i s fs u p) (hpq : ∀ t, p t → q t) :
    HostSets i s fs u q := by
  obtain ⟨t, he, hs, hp⟩ := h
  exact ⟨t, he, hs, hpq t hp⟩

/-! ### GO (R24, R26, R29) -/

theorem exec_commitGo {s : State} {b : CommitBlk} (h : HostReaches s (commitReg b)) {tag whenCode : Nat} (ht : tag < 256)
    (hw : whenCode < 4) :
    exec (.commitGo b tag whenCode) s = .next (s.answered 0 .ok ((s.touch 0).commitGo b tag whenCode 0)) := by
  refine (congrArg Host.Outcome.next (hostSet_reach h (goWord tag whenCode)
    (fun s => s.commitGo b (tag % 256) (whenCode % 4) 0))).trans ?_
  rw [Nat.mod_eq_of_lt ht, Nat.mod_eq_of_lt hw]

/-- The code with which GO is refused (R26, R29): a fault of WHEN goes before the rule of the pending commit. -/
def goRefusal (b : CommitBlk) (whenCode : Nat) : Nat :=
  if whenCode = 3 then 1 else if whenCode = 2 ∧ commitFrame b = false then 2 else 3

theorem goRefusal_lt (b : CommitBlk) (whenCode : Nat) : goRefusal b whenCode < 16 := by
  unfold goRefusal
  split_ifs <;> decide

/-- The cases in which GO is refused. -/
def GoRefused (s : State) (b : CommitBlk) (whenCode : Nat) : Prop :=
  whenCode = 3 ∨ (whenCode = 2 ∧ commitFrame b = false) ∨ (s.pendingOf b).isSome = true

theorem State.commitGo_refused {s : State} {b : CommitBlk} {tag whenCode m : Nat} (hp : commitPresent b = true)
    (hd : s.domainOn (commitDomain b) = true) (hr : GoRefused s b whenCode) :
    s.commitGo b tag whenCode m = s.commitRefused b tag (goRefusal b whenCode) := by
  unfold State.commitGo goRefusal
  rw [if_pos (by simp [hp, hd])]
  by_cases h3 : whenCode = 3
  · simp only [if_pos h3]
  · simp only [if_neg h3]
    by_cases h2 : whenCode = 2 ∧ commitFrame b = false
    · simp only [if_pos h2]
    · simp only [if_neg h2, if_pos ((hr.resolve_left h3).resolve_left h2)]

section
variable {s : State} {b : CommitBlk} {tag whenCode : Nat} (hp : commitPresent b = true) (hd : s.domainOn (commitDomain b) = true)
  (h : HostReaches s (commitReg b)) (ht : tag < 256)
include hp hd h ht

/-- A GO that is refused shows its code and its TAG, and changes nothing else. -/
theorem commitGo_refused_sets (hw : whenCode < 4) (hr : GoRefused s b whenCode) :
    HostSets (.commitGo b tag whenCode) s [commitErr b, commitCode b, commitTag b] s (fun u =>
      u.fld (commitErr b) = 1 ∧ u.commits = s.commits ∧ u.fld (commitCode b) = goRefusal b whenCode ∧ u.fld (commitTag b) = tag) := by
  have hgo : (s.touch 0).commitGo b tag whenCode 0 = (s.touch 0).commitRefused b tag (goRefusal b whenCode) := by
    refine State.commitGo_refused hp ((s.domainOn_touch (by decide) _).trans hd) ?_
    rwa [GoRefused, State.pendingOf_congr (s.touch_commits 0)]
  obtain ⟨herr, hcode, htag⟩ := (s.touch 0).commitRefused_shows b tag (goRefusal b whenCode)
  refine ⟨_, exec_commitGo h ht hw, ?_, ?_⟩
  · rw [hgo]
    exact ((SameBut.refl _ s).touch (by simp)).commitRefused b _ _ (by simp)
  · rw [hgo]
    exact ⟨herr, s.touch_commits 0, hcode.trans (Nat.mod_eq_of_lt (goRefusal_lt b whenCode)), htag.trans (Nat.mod_eq_of_lt ht)⟩
end

/-! ### CANCEL (R29) -/

/-- The pending commit `p` of a block is dropped and its TAG shown. -/
def State.cancelled (s : State) (p : PendingCommit) : State := (s.dropCommit p.blk).setFld (commitTag p.blk) p.tag

theorem exec_commitCancel {s : State} {b : CommitBlk} {p : PendingCommit} (h : HostReaches s (commitReg b)) (hp : s.pendingOf b = some p) :
    exec (.commitCancel b) s = .next (s.answered 0 .ok ((s.touch 0).cancelled p)) := by
  have hc : (s.touch 0).commitCancel b = (s.touch 0).cancelled p := by
    unfold State.commitCancel State.cancelled
    rw [State.pendingOf_congr (s.touch_commits 0), hp, State.pendingOf_blk hp]
  rw [← hc]
  exact congrArg Host.Outcome.next (hostSet_reach h 2 (fun s => s.commitCancel b))

theorem State.cancelled_commits (s : State) (p : PendingCommit) : (s.cancelled p).commits = (s.dropCommit p.blk).commits := rfl

theorem State.fld_cancelled_pend (s : State) (p : PendingCommit) : (s.cancelled p).fld (commitPend p.blk) = 0 := by
  rw [State.cancelled, State.fld_setFld_ne _ _ (by simp [commitPend, commitTag]), State.dropCommit, State.fld_setFld_same]
  rfl

theorem State.fld_cancelled_tag (s : State) (p : PendingCommit) : (s.cancelled p).fld (commitTag p.blk) = p.tag % 256 :=
  State.fld_setFld_same ..

theorem State.fld_cancelled_ne (s : State) (p : PendingCommit) {f : Fld} (ht : f.key ≠ (commitTag p.blk).key)
    (hp : f.key ≠ (commitPend p.blk).key) : (s.cancelled p).fld f = s.fld f := by
  rw [State.cancelled, State.fld_setFld_ne _ _ ht, State.dropCommit, State.fld_setFld_ne _ _ hp, State.fld_with]

theorem SameBut.cancelled {fs : List Fld} {u t : State} (h : SameBut fs u t) (p : PendingCommit) (hc : t.commits = u.commits)
    (hfs : ∀ f ∈ [commitPend p.blk, commitTag p.blk], f ∈ fs) :
    SameBut fs { u with commits := u.commits.filter (fun q => decide (q.blk ≠ p.blk)) } (t.cancelled p) := by
  rw [← hc]
  exact ((h.withCommits _).setFld 0 (hfs _ (by simp))).setFld p.tag (hfs _ (by simp))

/-- Settles O5: GO is refused with the code of its WHEN, and CANCEL drops the pending commit of its own block alone. -/
theorem commitWhilePending : Obligations.CommitWhilePending := by
  intro s b p hpres hdom h hp
  have hcommits : (s.touch 0).commits = s.commits := s.touch_commits 0
  refine ⟨fun tag whenCode ht hw => commitGo_refused_sets hpres hdom h ht hw (.inr (.inr (by rw [hp]; rfl))), ?_⟩
  have hexec := exec_commitCancel h hp
  obtain rfl := State.pendingOf_blk hp
  refine ⟨_, hexec, ((SameBut.refl _ s).touch (by simp)).cancelled p hcommits (by simp), ?_, State.fld_cancelled_pend .., State.fld_cancelled_tag ..,
    ?_, ?_, fun b' hb => ?_⟩
  · exact (State.pendingOf_congr (State.cancelled_commits ..) _).trans (State.pendingOf_dropCommit_same ..)
  · rw [State.fld_cancelled_ne _ _ (by simp [commitApplied, commitTag]) (by simp [commitApplied, commitPend])]
    exact s.fld_touch_commit rfl
  · rw [State.fld_cancelled_ne _ _ (by simp [commitErr, commitTag]) (by simp [commitErr, commitPend])]
    exact s.fld_touch_commit rfl
  · rw [State.pendingOf_congr (State.cancelled_commits ..), State.pendingOf_dropCommit_ne _ hb, State.pendingOf_congr hcommits]

end Sys2Proof.Machine
end

section
namespace Sys2Proof.Machine

/-! ### The end of a commit (R27, R28) -/

/-- The status registers of the blocks that exist lie below the output table of Carillon and the registers of Flam. -/
theorem commitAddr_lt {b : CommitBlk} (h : commitPresent b = true) : commitAddr b < 0x14100400 := by
  cases b <;> simp only [commitPresent, decide_eq_true_eq] at h <;> simp only [commitAddr] <;> omega

/-- What an operation after the end of a commit leaves alone: commits, memories, the values in force and the status register. -/
structure CommitKept (b : CommitBlk) (s t : State) : Prop where
  commits : t.commits = s.commits
  mem : t.mem = s.mem
  force : t.force = s.force
  fld : ∀ f : Fld, f.key / 32 = commitAddr b → t.fld f = s.fld f

theorem CommitKept.refl (b : CommitBlk) (s : State) : CommitKept b s s := ⟨rfl, rfl, rfl, fun _ _ => rfl⟩

theorem CommitKept.trans {b : CommitBlk} {s t u : State} (h : CommitKept b s t) (h' : CommitKept b t u) : CommitKept b s u :=
  ⟨h'.commits.trans h.commits, h'.mem.trans h.mem, h'.force.trans h.force, fun f hf => (h'.fld f hf).trans (h.fld f hf)⟩

theorem CommitKept.same {b : CommitBlk} {s t : State} (hc : t.commits = s.commits) (hm : t.mem = s.mem) (hf : t.force = s.force)
    (hr : t.regs = s.regs) : CommitKept b s t := ⟨hc, hm, hf, fun f _ => State.fld_congr hr f⟩

theorem CommitKept.setFld {b : CommitBlk} {s t : State} (h : CommitKept b s t) {g : Fld} (hg : g.key / 32 ≠ commitAddr b) (v : Nat) :
    CommitKept b s (t.setFld g v) :=
  h.trans ⟨rfl, rfl, rfl, fun _ hf => t.fld_setFld_ne v fun he => hg (he ▸ hf)⟩

theorem CommitKept.foldl {α : Type} {b : CommitBlk} {f : State → α → State} (xs : List α) (hf : ∀ s, ∀ x ∈ xs, CommitKept b s (f s x))
    (s : State) : CommitKept b s (xs.foldl f s) := by
  induction xs generalizing s with
  | nil => exact .refl b s
  | cons x xs ih => exact (hf s x List.mem_cons_self).trans (ih (fun s y hy => hf s y (List.mem_cons_of_mem x hy)) _)

/-! ### What applies beside the fields in force (R119, R293, R313, R357) -/

theorem State.mirrorApplied_kept {b : CommitBlk} (h : commitPresent b = true) (s : State) (k : Nat) :
    CommitKept b s (s.mirrorApplied k) := by
  have hlt := commitAddr_lt h
  unfold State.mirrorApplied
  split
  · exact .refl b s
  · have hgen : CommitKept b s s.bumpMirrorGen :=
      ((CommitKept.refl b s).setFld (by simp only [Fld.key]; omega) _).setFld (by simp only [Fld.key]; omega) _
    exact hgen.trans (.same rfl rfl rfl rfl)

/-- The output table lies above the status register of Carillon. -/
theorem clnOut_ne {o lo : Nat} (h : lo < 32) (w r : Nat) : (Fld.mk (0x14180000 + 0x8 * o) lo w r).key / 32 ≠ commitAddr .cln := by
  simp only [Fld.key, commitAddr]
  omega

theorem State.settleOut_kept (s : State) (o : Nat) : CommitKept .cln s (s.settleOut o) := by
  have hset : ∀ n h r : Nat, CommitKept .cln s
      (((s.setFld (R.CLN_OUT0_ACTIVE o) n).setFld (R.CLN_OUT0_SHIFT o) h).setFld (R.CLN_OUT0_RAMPING o) r) := fun n h r =>
    (((CommitKept.refl _ s).setFld (clnOut_ne (by decide) _ _) n).setFld (clnOut_ne (by decide) _ _) h).setFld
      (clnOut_ne (by decide) _ _) r
  exact (hset _ _ _).trans (.same rfl rfl rfl rfl)

theorem State.clnSettle_kept (s : State) : CommitKept .cln s s.clnSettle := .foldl _ (fun s o _ => s.settleOut_kept o) s

/-- Output `o` takes MODE, SHIFT and SLOT of the OUTSET set. -/
def State.setOut (s : State) (mode shift slot o : Nat) : State :=
  ((s.setOutF o { s.outF o with shiftSet := shift }).setFld (R.CLN_OUT0_MODE o) mode).setFld (R.CLN_OUT0_SLOT o) slot

theorem State.setOut_kept (s : State) (mode shift slot o : Nat) : CommitKept .cln s (s.setOut mode shift slot o) :=
  have hfactor : CommitKept .cln s (s.setOutF o { s.outF o with shiftSet := shift }) := .same rfl rfl rfl rfl
  (hfactor.setFld (clnOut_ne (by decide) _ _) _).setFld (clnOut_ne (by decide) _ _) _

theorem State.readOut_kept (s : State) (o : Nat) : CommitKept .cln s (s.readOut o) := .same rfl rfl rfl rfl

theorem State.outsetApply_kept (s : State) (set : Tbl Nat) (atBoundary : Bool) : CommitKept .cln s (s.outsetApply set atBoundary) := by
  have hset : ∀ (mode shift slot : Nat) (outs : List Nat), CommitKept .cln s (outs.foldl (fun s o => s.setOut mode shift slot o) s) :=
    fun mode shift slot outs => .foldl outs (fun s o _ => s.setOut_kept mode shift slot o) s
  unfold State.outsetApply
  dsimp only
  split
  · exact ((hset ..).trans (.foldl _ (fun s o _ => s.readOut_kept o) _)).trans (State.clnSettle_kept _)
  · exact hset ..

theorem State.tuProgram_kept (s : State) (b : CommitBlk) (n t : Nat) : CommitKept b s (s.tuProgram n t) := .same rfl rfl rfl rfl

theorem State.wcStart_kept (s : State) (n : Nat) : CommitKept (.wc n) s (s.wcStart n) :=
  (CommitKept.refl _ s).setFld (by simp only [Fld.key, commitAddr]; omega) _

/-! ### A commit at its point (R27) -/

/-- A commit of a block and TAG, pending in `s`, is gone in `t`: applied, or failed with code 4 with no field in force changed. -/
structure CommitEnded (b : CommitBlk) (tag : Nat) (s t : State) : Prop where
  gone : t.pendingOf b = none
  pend : t.fld (commitPend b) = 0
  tag : t.fld (commitTag b) = tag % 256
  result : t.fld (commitApplied b) = 1 ∨ (t.fld (commitErr b) = 1 ∧ t.fld (commitCode b) = 4 ∧ t.force = s.force)
  mem : t.mem = s.mem

theorem CommitEnded.kept {b : CommitBlk} {tag : Nat} {s t u : State} (h : CommitEnded b tag s t) (hk : CommitKept b t u) :
    CommitEnded b tag s u := by
  have hfld : ∀ f : Fld, f.addr = commitAddr b → f.lo < 32 → u.fld f = t.fld f :=
    fun f ha hl => hk.fld f (by simp only [Fld.key, ha]; omega)
  refine ⟨(State.pendingOf_congr hk.commits b).trans h.gone, (hfld _ rfl (show 2 < 32 by decide)).trans h.pend,
    (hfld _ rfl (show 16 < 32 by decide)).trans h.tag, ?_, hk.mem.trans h.mem⟩
  rw [hfld _ rfl (show 0 < 32 by decide), hfld _ rfl (show 1 < 32 by decide), hfld _ rfl (show 8 < 32 by decide), hk.force]
  exact h.result

theorem State.dropCommit_pend (s : State) (b : CommitBlk) : (s.dropCommit b).fld (commitPend b) = 0 := State.fld_setFld_same ..

theorem State.fld_commitDone_applied (s : State) (b : CommitBlk) (tag : Nat) : (s.commitDone b tag).fld (commitApplied b) = 1 := by
  rw [State.commitDone, State.fld_setFld_ne _ _ (by simp [commitApplied, commitTag]), State.fld_setFld_same]
  rfl

theorem State.commitDone_ended {s u : State} (hm : u.mem = s.mem) (b : CommitBlk) (tag : Nat) :
    CommitEnded b tag s (u.commitDone b tag) where
  gone := (State.pendingOf_congr rfl b).trans (u.pendingOf_dropCommit_same b)
  pend := by
    rw [State.commitDone, State.fld_setFld_ne _ _ (by simp [commitPend, commitTag]),
      State.fld_setFld_ne _ _ (by simp [commitPend, commitApplied]), State.dropCommit_pend]
  tag := State.fld_setFld_same ..
  result := .inl (u.fld_commitDone_applied b tag)
  mem := hm

theorem State.commitFails_ended {s u : State} (hm : u.mem = s.mem) (hf : u.force = s.force) (b : CommitBlk) (tag : Nat) :
    CommitEnded b tag s (u.commitFails b tag 4) := by
  obtain ⟨herr, hcode, htag⟩ := (u.dropCommit b).commitRefused_shows b tag 4
  refine ⟨(State.pendingOf_congr rfl b).trans (u.pendingOf_dropCommit_same b), ?_, htag, .inr ⟨herr, hcode, hf⟩, hm⟩
  rw [State.commitFails, State.commitRefused, State.fld_setFld_ne _ _ (by simp [commitPend, commitTag]),
    State.fld_setFld_ne _ _ (by simp [commitPend, commitCode]), State.fld_setFld_ne _ _ (by simp [commitPend, commitErr]),
    State.dropCommit_pend]

theorem State.foldl_setForce_mem (s : State) (fs : List Fld) (v : Fld → Nat) : (fs.foldl (fun s f => s.setForce f (v f)) s).mem = s.mem := by
  induction fs generalizing s with
  | nil => rfl
  | cons f fs ih => exact ih (s.setForce f (v f))

theorem State.clearFlds_mem (s : State) (fs : List Fld) : (s.clearFlds fs).mem = s.mem := by
  induction fs generalizing s with
  | nil => rfl
  | cons f fs ih => exact ih (s.setFld f 0)

theorem State.linkDown_mem (s : State) (n : Nat) : (s.linkDown n).mem = s.mem := by
  unfold State.linkDown
  split
  · rw [State.raise_mem, State.clearFlds_mem]
  · rfl

theorem State.netApplySet_mem (s : State) (n : Nat) (set : Tbl Nat) : (s.netApplySet n set).mem = s.mem := by
  unfold State.netApplySet
  dsimp only
  split
  · rw [State.linkDown_mem, State.foldl_setForce_mem]
  · rw [State.foldl_setForce_mem]

/-- A commit that passes its check puts its set in force; a mirrored one raises MIRROR_GEN (R27, R357). -/
def State.commitPut (s : State) (p : PendingCommit) : State :=
  let t := (s.putSet p.blk p.set).commitDone p.blk p.tag
  if p.mirrorAt.isSome then t.mirrorApplied s.blk.index else t

theorem State.commitPut_kept (s : State) {p : PendingCommit} (hp : commitPresent p.blk = true) :
    CommitKept p.blk ((s.putSet p.blk p.set).commitDone p.blk p.tag) (s.commitPut p) := by
  unfold State.commitPut
  dsimp only
  split
  · exact State.mirrorApplied_kept hp _ _
  · exact .refl _ _

theorem State.commitPut_ended {s u : State} {p : PendingCommit} (hp : commitPresent p.blk = true) (hm : u.mem = s.mem) :
    CommitEnded p.blk p.tag s (u.commitPut p) :=
  (State.commitDone_ended ((u.foldl_setForce_mem _ _).trans hm) p.blk p.tag).kept (u.commitPut_kept hp)

/-- A commit is refused where its check finds a fault. -/
theorem CommitEnded.checked {b : CommitBlk} {tag : Nat} {s u v : State} {c : Prop} [Decidable c] (hm : u.mem = s.mem)
    (hf : u.force = s.force) (hv : CommitEnded b tag s v) : CommitEnded b tag s (if c then u.commitFails b tag 4 else v) := by
  split
  · exact State.commitFails_ended hm hf b tag
  · exact hv

/-- A commit of a block other than PEAL ends at its point. -/
theorem State.applyCommit_ended (s : State) {p : PendingCommit} (hp : commitPresent p.blk = true) (hb : p.blk ≠ .peal) :
    CommitEnded p.blk p.tag s (s.applyCommit p) := by
  have hput : ∀ u : State, u.mem = s.mem → CommitEnded p.blk p.tag s (u.commitPut p) := fun u => State.commitPut_ended hp
  obtain ⟨b, tag, whenCode, set, arr, master, id, mirrorAt⟩ := p
  cases b with
  | peal => exact absurd rfl hb
  | cln => exact .checked (by rfl) (by rfl) ((hput s rfl).kept (State.outsetApply_kept ..))
  | aes n => exact .checked (by rfl) (by rfl) (hput s rfl)
  | net n => exact .checked (by rfl) (by rfl) (State.commitDone_ended (State.netApplySet_mem ..) _ _)
  | tuOut n => exact .checked (by rfl) (by rfl) ((hput s.someTime.2 rfl).kept (State.tuProgram_kept ..))
  | wc n => exact .checked (by rfl) (by rfl) ((hput s rfl).kept (State.wcStart_kept ..))
  | pll n => exact .checked (by rfl) (by rfl) (hput s rfl)

theorem exec_commitApply {s : State} {b : CommitBlk} {p : PendingCommit} (hp : s.pendingOf b = some p) (hpt : s.commitPoint p = true) :
    exec (.commitApply b) s = .next (s.applyCommit p) := by
  have h : s.commitApply b = s.applyCommit p := by
    unfold State.commitApply
    simp only [hp]
    exact if_pos hpt
  exact congrArg Host.Outcome.next h

theorem commitApply_ends {s : State} {b : CommitBlk} {p : PendingCommit} (hb : commitPresent b = true) (hne : b ≠ .peal)
    (hp : s.pendingOf b = some p) (hpt : s.commitPoint p = true) : Gives (.commitApply b) s (CommitEnded b p.tag s) := by
  refine ⟨_, exec_commitApply hp hpt, ?_⟩
  obtain rfl := State.pendingOf_blk hp
  exact s.applyCommit_ended hb hne

/-! ### The set of a PLL in force (R318) -/

theorem State.putSet_pll (s : State) (n : Nat) (set : Tbl Nat) :
    ∀ f ∈ pllSetFlds n, (s.putSet (.pll n) set).inForce f = Tbl.get set f.key f.rst % 2 ^ f.width := by
  intro f hf
  simp only [pllSetFlds, List.mem_cons, List.not_mem_nil, or_false] at hf
  rcases hf with rfl | rfl
  · exact (State.inForce_setForce_ne _ _ (by simp [Fld.key])).trans (State.inForce_setForce_same ..)
  · exact State.inForce_setForce_same ..

theorem State.applyCommit_pll {s : State} {n : Nat} {p : PendingCommit} (hb : p.blk = .pll n) (hc : s.pllCheck n p.set = 0) :
    s.applyCommit p = s.commitPut p := by
  obtain ⟨b, tag, whenCode, set, arr, master, id, mirrorAt⟩ := p
  cases hb
  exact if_neg (not_not.mpr hc)

/-- A PLL's set that passes its check is applied, and in force field by field. -/
theorem commitApply_pll {s : State} {n : Nat} {p : PendingCommit} (hn : commitPresent (.pll n) = true) (hp : s.pendingOf (.pll n) = some p)
    (hpt : s.commitPoint p = true) (hc : s.pllCheck n p.set = 0) :
    Gives (.commitApply (.pll n)) s (fun t => t.fld (commitApplied (.pll n)) = 1 ∧
      ∀ f ∈ pllSetFlds n, t.inForce f = Tbl.get p.set f.key f.rst % 2 ^ f.width) := by
  have hb := State.pendingOf_blk hp
  refine ⟨_, exec_commitApply hp hpt, ?_⟩
  have hkept := s.commitPut_kept (hb ▸ hn)
  rw [State.applyCommit_pll hb hc]
  rw [hb] at hkept
  refine ⟨?_, fun f hf => ?_⟩
  · exact (hkept.fld _ (by simp only [Fld.key, commitApplied]; omega)).trans (State.fld_commitDone_applied ..)
  · rw [← s.putSet_pll n p.set f hf, State.inForce, hkept.force]
    rfl

/-! ### GO takes a set (R24, R27, R28) -/

/-- The commit that a GO by master `m` makes of the shadow set on a chip that does not mirror it. -/
def State.newCommit (s : State) (b : CommitBlk) (tag whenCode m : Nat) : PendingCommit :=
  ⟨b, tag, whenCode, s.shadowSet b, s.commitMark b whenCode, m, s.heldNext, none⟩

/-- A commit joins the pending ones. -/
def State.takeCommit (s : State) (p : PendingCommit) : State := { s with commits := s.commits ++ [p], heldNext := s.heldNext + 1 }

/-- The fields of a set lie above those that the crossbar counts in. -/
theorem commitFlds_addr (b : CommitBlk) : ∀ f ∈ commitFlds b, 0x14060000 ≤ f.addr := by
  cases b <;> simp [commitFlds, aesSetFlds, netSetFlds, tuSetFlds, wcSetFlds, pllSetFlds, or_imp, forall_and, Nat.le_add_right_of_le]

theorem State.shadowSet_touch (s : State) (b : CommitBlk) : (s.touch 0).shadowSet b = s.shadowSet b := by
  have h : ∀ f ∈ commitFlds b, (s.touch 0).fld f = s.fld f := fun f hf => by
    have := commitFlds_addr b f hf
    refine s.fld_touch_ne ?_
    simp only [Fld.key]
    omega
  unfold State.shadowSet
  exact List.foldl_ext _ _ _ fun t f hf => by rw [h f hf]

theorem State.commitMark_touch (s : State) (b : CommitBlk) (whenCode : Nat) : (s.touch 0).commitMark b whenCode = s.commitMark b whenCode := by
  simp only [State.commitMark, State.commitSeq, State.boundary, State.reached, State.wholeSecond, State.islandIndex, State.blocksPerSecond,
    State.touch_blk, State.touch_cfg]

theorem State.newCommit_touch (s : State) (b : CommitBlk) (tag whenCode m : Nat) :
    (s.touch 0).newCommit b tag whenCode m = s.newCommit b tag whenCode m := by
  simp only [State.newCommit, State.shadowSet_touch, State.commitMark_touch, State.touch_heldNext]

theorem State.commitGo_taken {s : State} {b : CommitBlk} {tag whenCode m : Nat} (hp : commitPresent b = true)
    (hd : s.domainOn (commitDomain b) = true) (hf : s.flmState = 0) (hr : ¬ GoRefused s b whenCode) :
    s.commitGo b tag whenCode m =
      let p := s.newCommit b tag whenCode m
      if (s.takeCommit p).commitPoint p ∧ whenCode = 0 ∧ commitAtOnce b then (s.takeCommit p).applyCommit p
      else (s.takeCommit p).setFld (commitPend b) 1 := by
  simp only [GoRefused, not_or] at hr
  obtain ⟨h3, h2, hpend⟩ := hr
  have hmirror : (s.mirrors (commitObject b) && decide (s.flmState = 4 ∨ s.flmState = 5)) = false := by simp [hf]
  unfold State.commitGo
  rw [if_pos (by simp [hp, hd]), if_neg h3, if_neg h2, if_neg hpend]
  simp only [hmirror]
  rfl

/-- An immediate commit of a block that waits for no boundary stands at its point at once (R28). -/
theorem State.commitPoint_atOnce (s : State) {p : PendingCommit} (hb : commitAtOnce p.blk = true) (hw : p.whenCode = 0)
    (hm : p.mirrorAt = none) : s.commitPoint p = true := by
  obtain ⟨b, tag, whenCode, set, arr, master, id, mirrorAt⟩ := p
  cases hw
  cases hm
  cases b with
  | peal => cases hb
  | aes n => cases hb
  | wc n => cases hb
  | cln => simp [State.commitPoint]
  | net n => simp [State.commitPoint]
  | tuOut n => simp [State.commitPoint]
  | pll n => simp [State.commitPoint]

theorem SameBut.takeCommit {fs : List Fld} {u t : State} (h : SameBut fs u t) (p : PendingCommit) :
    SameBut fs (u.takeCommit p) (t.takeCommit p) := by
  refine ⟨h.1, ?_⟩
  unfold State.takeCommit
  conv_lhs => rw [h.2]

theorem not_goRefused {s : State} {b : CommitBlk} {whenCode : Nat} (hn : s.pendingOf b = none) (h3 : whenCode ≠ 3)
    (h2 : whenCode = 2 → commitFrame b = true) : ¬ GoRefused s b whenCode := by
  rintro (h | ⟨hw, hf⟩ | h)
  · exact h3 h
  · rw [h2 hw] at hf
    cases hf
  · rw [hn] at h
    cases h

section
variable {s : State} {b : CommitBlk} {tag whenCode : Nat} (hp : commitPresent b = true) (hd : s.domainOn (commitDomain b) = true)
  (h : HostReaches s (commitReg b)) (ht : tag < 256) (hr : ¬ GoRefused s b whenCode)
include hp hd h hr

theorem State.commitGo_touch_taken :
    let p := s.newCommit b tag whenCode 0
    (s.touch 0).commitGo b tag whenCode 0 =
      if ((s.touch 0).takeCommit p).commitPoint p ∧ whenCode = 0 ∧ commitAtOnce b then ((s.touch 0).takeCommit p).applyCommit p
      else ((s.touch 0).takeCommit p).setFld (commitPend b) 1 := by
  rw [State.commitGo_taken hp ((s.domainOn_touch (by decide) _).trans hd) ((s.flmState_touch (by decide)).trans h.2)
    (by rwa [GoRefused, State.pendingOf_congr (s.touch_commits 0)]), State.newCommit_touch]

include ht

/-- A GO that is taken for a later point makes a pending commit, and shows that it is pending. -/
theorem commitGo_waits (hw : whenCode < 4) (hlater : ¬ (whenCode = 0 ∧ commitAtOnce b = true)) :
    HostSets (.commitGo b tag whenCode) s [commitPend b] (s.takeCommit (s.newCommit b tag whenCode 0)) (fun u => u.fld (commitPend b) = 1) := by
  have hgo := (State.commitGo_touch_taken (tag := tag) hp hd h hr).trans (if_neg fun hc => hlater hc.2)
  refine ⟨_, exec_commitGo h ht hw, ?_, ?_⟩
  · rw [hgo]
    exact (((SameBut.refl _ s).touch (by simp)).takeCommit _).setFld 1 (by simp)
  · rw [hgo]
    exact State.fld_setFld_same ..

/-- An immediate GO to a set that waits for no boundary ends at once. -/
theorem commitGo_ends (hw : whenCode = 0) (hb : commitAtOnce b = true) :
    ∃ u, exec (.commitGo b tag whenCode) s = .next (s.answered 0 .ok u) ∧ CommitEnded b tag (s.touch 0) u := by
  subst hw
  have hpoint := State.commitPoint_atOnce ((s.touch 0).takeCommit (s.newCommit b tag 0 0)) (p := s.newCommit b tag 0 0) hb rfl rfl
  have hgo := (State.commitGo_touch_taken (tag := tag) hp hd h hr).trans (if_pos ⟨hpoint, rfl, hb⟩)
  have hne : b ≠ .peal := by rintro rfl; cases hb
  have hend := ((s.touch 0).takeCommit (s.newCommit b tag 0 0)).applyCommit_ended (p := s.newCommit b tag 0 0) hp hne
  refine ⟨_, exec_commitGo h ht (by decide), ?_⟩
  rw [hgo]
  exact ⟨hend.gone, hend.pend, hend.tag, hend.result, hend.mem⟩
end

/-- Settles O13: a GO is refused, or makes a pending commit, or ends at once; and whatever a block's check finds at the commit's
point, the commit is gone and has either put its set in force or shows code 4. -/
theorem commitsAreTakenAndEnd : Obligations.CommitsAreTakenAndEnd := by
  refine ⟨fun s b tag whenCode hp hd h ht hw => ⟨fun hr => ?_, fun hlater hn => ?_, fun hw0 hb hn => ?_⟩, fun s b p hb hne hp hpt => ?_,
    fun s n p hn hp hpt hc => ?_⟩
  · exact (commitGo_refused_sets hp hd h ht hw hr).imp fun _ ⟨herr, _, hcode, htag⟩ => ⟨herr, hcode, htag⟩
  · rcases hlater with rfl | ⟨rfl, hf⟩ | ⟨rfl, hb⟩
    · exact commitGo_waits hp hd h ht (not_goRefused hn (by decide) (by simp)) hw (by simp)
    · exact commitGo_waits hp hd h ht (not_goRefused hn (by decide) fun _ => hf) hw (by simp)
    · exact commitGo_waits hp hd h ht (not_goRefused hn (by decide) (by simp)) hw (by simp [hb])
  · have hr : ¬ GoRefused s b whenCode := not_goRefused hn (by omega) (by omega)
    obtain ⟨u, hexec, hgone, hpend, htag, hresult, -⟩ := commitGo_ends hp hd h ht hr hw0 hb
    rw [s.touch_force] at hresult
    exact ⟨u, hexec, hgone, hpend, htag.trans (Nat.mod_eq_of_lt ht), hresult⟩
  · obtain ⟨t, hexec, hgone, hpend, htag, hresult, hmem⟩ := commitApply_ends hb hne hp hpt
    exact ⟨t, hexec, hgone, hpend, htag, hresult, hmem⟩
  · exact commitApply_pll (decide_eq_true hn) hp hpt hc

end Sys2Proof.Machine
end

section
namespace Sys2Proof.Machine

/-! ### Handshake channels (R15) -/

/-- A channel between two islands takes a new content. -/
def State.setChannel (s : State) (src dst : Nat) (c : Channel) : State := { s with hsk := Tbl.set s.hsk (26 * src + dst) .empty c }

theorem State.channel_setChannel_same (s : State) (src dst : Nat) (c : Channel) : (s.setChannel src dst c).channel src dst = c :=
  Tbl.get_set_same ..

theorem State.channel_setChannel_ne (s : State) {src dst i j : Nat} (c : Channel) (hd : dst < 26) (hj : j < 26)
    (h : (i, j) ≠ (src, dst)) : (s.setChannel src dst c).channel i j = s.channel i j := by
  refine Tbl.get_set_ne _ _ _ _ fun hk => h ?_
  rw [Prod.mk.injEq]
  omega

section
variable {s : State} {src dst : Nat} (hs : src < 26) (hd : dst < 26) (hson : s.islandOn src = true) (hdon : s.islandOn dst = true)
include hs hd hson hdon

theorem exec_handshakeWord_send (w : Word) : exec (.handshakeWord src dst (some w)) s = .next (s.setChannel src dst
    { s.channel src dst with flight := (s.channel src dst).flight ++ [w] }) :=
  if_pos ⟨hs, hd, hson, hdon⟩

theorem exec_handshakeWord_deliver {w : Word} {ws : List Word} (hf : (s.channel src dst).flight = w :: ws) :
    exec (.handshakeWord src dst none) s = .next (s.setChannel src dst ⟨ws, w :: (s.channel src dst).taken⟩) := by
  refine (if_pos ⟨hs, hd, hson, hdon⟩).trans ?_
  simp only [hf]
  rfl
end

/-! ### Bridge sources (R78, R92) -/

/-- The channels of a source no longer wait to ramp in. -/
def State.brgForget (s : State) (n : Nat) : State := { s with blk := { s.blk with locking := s.blk.locking.filter (fun p => p.2 != n) } }

theorem State.brgLeave_locked {s : State} {n : Nat} (h : s.brgState n = 2) (st : Nat) : s.brgLeave n st =
    ((s.brgForget n).setFld (R.BRG_SRC_STATE_STATE n) st).countAndRaise (R.BRG_SRC_UNLOCK_COUNT n) R.BRG_INT_STATUS_UNLOCK := if_pos h

theorem State.brgLeave_other {s : State} {n : Nat} (h : s.brgState n ≠ 2) (st : Nat) :
    s.brgLeave n st = s.setFld (R.BRG_SRC_STATE_STATE n) st := if_neg h

theorem State.brgState_setFld (s : State) (n : Nat) {st : Nat} (hst : st < 16) : (s.setFld (R.BRG_SRC_STATE_STATE n) st).brgState n = st :=
  (State.fld_setFld_same ..).trans (Nat.mod_eq_of_lt hst)

/-- What an exit from LOCKED to the state `st` leaves: it is counted and shown, and the source's channels no longer wait to ramp in. -/
def BrgUnlocked (s : State) (n st : Nat) (t : State) : Prop :=
  t.brgState n = st ∧ t.fld (R.BRG_SRC_UNLOCK_COUNT n) = min (s.fld (R.BRG_SRC_UNLOCK_COUNT n) + 1) (2 ^ 32 - 1) ∧
    bit (t.fld R.BRG_INT_STATUS_UNLOCK) 0 = 1 ∧ (∀ p ∈ t.blk.locking, p.2 ≠ n) ∧
    SameBut [R.BRG_SRC_STATE_STATE n, R.BRG_SRC_UNLOCK_COUNT n, R.BRG_INT_STATUS_UNLOCK]
      { s with blk := { s.blk with locking := t.blk.locking } } t

theorem State.brgLeave_unlocked {s : State} {n st : Nat} (hn : n < 24) (hst : st < 16) (h : s.brgState n = 2) :
    BrgUnlocked s n st (s.brgLeave n st) := by
  have hlocking : (s.brgLeave n st).blk.locking = (s.brgForget n).blk.locking := by
    rw [State.brgLeave_locked h, State.countAndRaise_blk, State.setFld_blk]
  have hcount : (R.BRG_SRC_UNLOCK_COUNT n).key ≠ R.BRG_INT_STATUS_UNLOCK.key := by simp only [Fld.key]; omega
  have hne : (R.BRG_SRC_STATE_STATE n).key ≠ (R.BRG_SRC_UNLOCK_COUNT n).key := by simp only [Fld.key]; omega
  unfold BrgUnlocked
  rw [hlocking]
  rw [State.brgLeave_locked h]
  refine ⟨?_, ?_, State.fld_countAndRaise_flag _ (by decide), ?_, ?_⟩
  · exact (State.fld_countAndRaise_ne _ hne (by simp only [Fld.key]; omega)).trans (State.brgState_setFld _ n hst)
  · rw [State.fld_countAndRaise_count _ hcount, State.fld_setFld_ne _ _ hne.symm]
    rfl
  · intro p hp
    simpa using (List.mem_filter.mp hp).2
  · exact ((SameBut.refl _ _).setFld st (by simp)).countAndRaise (by simp) (by simp)

theorem State.brgLeave_quiet {s : State} {n st : Nat} (hst : st < 16) (h : s.brgState n ≠ 2) :
    (s.brgLeave n st).brgState n = st ∧ SameBut [R.BRG_SRC_STATE_STATE n] s (s.brgLeave n st) := by
  rw [State.brgLeave_other h]
  exact ⟨s.brgState_setFld n hst, (SameBut.refl _ s).setFld st (by simp)⟩

section
variable {s : State} {n : Nat} (hn : n < 24)
include hn

theorem exec_brgOutOfRange (h : s.brgState n = 1 ∨ s.brgState n = 2) : exec (.brgOutOfRange n) s = .next (s.brgLeave n 3) :=
  if_pos ⟨hn, h⟩

theorem exec_brgNoClock (h : s.brgState n ≠ 0) : exec (.brgNoClock n) s = .next (s.brgLeave n 4) := if_pos ⟨hn, h⟩

theorem exec_brgAcquire (h : s.brgState n = 3 ∨ s.brgState n = 4) : exec (.brgAcquire n) s = .next (s.brgLeave n 1) := if_pos ⟨hn, h⟩

/-- A source that has settled is LOCKED, with its ratio, and its channels are to ramp in. -/
theorem brgSourceLock_locks {ratio : Nat} (h : s.brgState n = 1) (hr : ratio < 2 ^ 32) :
    Gives (.brgSourceLock n ratio) s (fun t => t.brgState n = 2 ∧ t.fld (R.BRG_SRC_RATIO_RATIO n) = ratio ∧
      bit (t.fld R.BRG_INT_STATUS_LOCK) 0 = 1 ∧
      SameBut [R.BRG_SRC_STATE_STATE n, R.BRG_SRC_RATIO_RATIO n, R.BRG_INT_STATUS_LOCK]
        { s with blk := { s.blk with locking := (1, n) :: (2, n) :: s.blk.locking } } t) := by
  have hlock : (R.BRG_SRC_STATE_STATE n).key ≠ R.BRG_INT_STATUS_LOCK.key := by simp only [Fld.key]; omega
  have hratio : (R.BRG_SRC_RATIO_RATIO n).key ≠ R.BRG_INT_STATUS_LOCK.key := by simp only [Fld.key]; omega
  have hne : (R.BRG_SRC_STATE_STATE n).key ≠ (R.BRG_SRC_RATIO_RATIO n).key := by simp only [Fld.key]; omega
  refine ⟨_, if_pos ⟨hn, h⟩, ?_, ?_, State.fld_raise_same _ (by decide), ?_⟩
  · exact (State.fld_raise_ne _ hlock).trans ((State.fld_setFld_ne _ _ hne).trans (State.brgState_setFld s n (by decide)))
  · exact (State.fld_raise_ne _ hratio).trans ((State.fld_setFld_same ..).trans (Nat.mod_eq_of_lt hr))
  · let u : State := { s with blk := { s.blk with locking := (1, n) :: (2, n) :: s.blk.locking } }
    exact (((SameBut.refl _ u).setFld 2 (by simp)).setFld ratio (by simp)).raise (by simp)
end

/-- Settles O10: a channel's word goes in behind those in flight, and the oldest comes out; a bridge source moves by one rule for
every exit from a state, which counts only an exit from LOCKED. -/
theorem handshakeAndBridgeEvents : Obligations.HandshakeAndBridgeEvents := by
  refine ⟨fun s src dst hs hd hson hdon => ⟨fun w => ?_, fun w ws hf => ?_⟩, fun s n ratio hn h hr => brgSourceLock_locks hn h hr,
    fun s n hn => ⟨fun h => ?_, fun h => ?_, fun h => ?_⟩⟩
  · refine ⟨_, exec_handshakeWord_send hs hd hson hdon w, ?_, ?_, fun i j hj hne => s.channel_setChannel_ne _ hd hj hne, rfl⟩
    all_goals rw [State.channel_setChannel_same]
  · refine ⟨_, exec_handshakeWord_deliver hs hd hson hdon hf, ?_, ?_, fun i j hj hne => s.channel_setChannel_ne _ hd hj hne, rfl⟩
    all_goals rw [State.channel_setChannel_same]
  · exact ⟨⟨_, exec_brgOutOfRange hn (.inr h), State.brgLeave_unlocked hn (by decide) h⟩,
      ⟨_, exec_brgNoClock hn (by omega), State.brgLeave_unlocked hn (by decide) h⟩⟩
  · exact ⟨⟨_, exec_brgOutOfRange hn (.inl h), State.brgLeave_quiet (by decide) (by omega)⟩,
      ⟨_, exec_brgNoClock hn (by omega), State.brgLeave_quiet (by decide) (by omega)⟩⟩
  · exact ⟨_, exec_brgAcquire hn h, State.brgLeave_quiet (by decide) (by omega)⟩

end Sys2Proof.Machine
end

section
namespace Sys2Proof.Machine

/-! ### What a token leaves alone beside the round (R16) -/

/-- `t` is `s` but for the sequencer, registers, messages to the host, and the model's counter of free values; the crossbar's requests
stand. -/
structure RoundOnly (s t : State) : Prop where
  rest : t = { s with blk := t.blk, regs := t.regs, sent := t.sent, freeCtr := t.freeCtr, hif := t.hif }
  queue : t.hif.queue = s.hif.queue

theorem RoundOnly.refl (s : State) : RoundOnly s s := ⟨rfl, rfl⟩

theorem RoundOnly.trans {s t u : State} (h : RoundOnly s t) (h' : RoundOnly t u) : RoundOnly s u := by
  refine ⟨?_, h'.queue.trans h.queue⟩
  conv_lhs => rw [h'.rest, h.rest]

/-- Such a change that leaves the sequencer alone too. -/
structure ShowsOnly (s t : State) : Prop extends RoundOnly s t where
  blk : t.blk = s.blk

theorem ShowsOnly.refl (s : State) : ShowsOnly s s := ⟨.refl s, rfl⟩

theorem ShowsOnly.trans {s t u : State} (h : ShowsOnly s t) (h' : ShowsOnly t u) : ShowsOnly s u :=
  ⟨h.toRoundOnly.trans h'.toRoundOnly, h'.blk.trans h.blk⟩

theorem ShowsOnly.setFld {s t : State} (h : ShowsOnly s t) (f : Fld) (v : Nat) : ShowsOnly s (t.setFld f v) := h.trans ⟨⟨rfl, rfl⟩, rfl⟩

theorem ShowsOnly.peak {s t : State} (h : ShowsOnly s t) (f : Fld) (v : Nat) : ShowsOnly s (t.peak f v) := by
  unfold State.peak
  split
  · exact h.setFld f _
  · exact h

theorem ShowsOnly.raise {s t : State} (h : ShowsOnly s t) (f : Fld) : ShowsOnly s (t.raise f) := by
  refine h.trans ⟨⟨?_, ?_⟩, State.raise_blk ..⟩
  · unfold State.raise
    conv_lhs => rw [raiseAt_eq]
    rw [State.raiseAt_freeCtr, State.raiseAt_blk, raiseAt_eq]
  · unfold State.raise
    rw [raiseAt_eq]

/-! ### The round that ends (R84, R89) -/

theorem State.withheldTasks_nil {s : State} (hl : s.blk.limpNow = false) (hf : s.pmu.failed = []) : s.withheldTasks = [] := by
  have hd : ∀ t, s.dispatched t = true := fun t => by simp [State.dispatched, hl, hf]
  unfold State.withheldTasks
  split
  · rfl
  · exact List.filter_eq_nil_iff.mpr fun t _ => by simp [hd t]

/-- Loads of islands that the spec does not time are shown. -/
def State.freeLoads (s : State) (is : List Nat) : State := is.foldl (fun s i => let f := s.fresh; f.2.setLoad i (f.1 % 65535)) s

theorem State.freeLoads_shows (s : State) (is : List Nat) : ShowsOnly s (s.freeLoads is) := by
  induction is generalizing s with
  | nil => exact .refl s
  | cons i is ih =>
    have hfresh : ShowsOnly s s.fresh.2 := ⟨⟨rfl, rfl⟩, rfl⟩
    exact ((hfresh.setFld _ _).peak _ _).trans (ih _)

/-- The registers of the loads lie above those of the sequencer's state. -/
theorem State.fld_freeLoads (s : State) (is : List Nat) {f : Fld} (hf : f.key < (R.BLK_ISL_LOAD_LAST 0).key) :
    (s.freeLoads is).fld f = s.fld f := by
  simp only [Fld.key] at hf
  induction is generalizing s with
  | nil => rfl
  | cons i is ih =>
    refine (ih _).trans ?_
    unfold State.setLoad
    rw [State.fld_peak_ne _ _ (by simp only [Fld.key]; omega), State.fld_setFld_ne _ _ (by simp only [Fld.key]; omega), State.fld_fresh]

/-- A round whose tasks have all ended leaves the loads of its islands to show, and no island late. -/
theorem State.endRound_quiet {s : State} (hl : s.blk.limpNow = false) (hf : s.pmu.failed = [])
    (hend : ∀ r ∈ s.roundTasks, s.hasEnded r.1.task r.2 = true) :
    RoundOnly s s.endRound ∧ s.endRound.blk = { s.blk with missed := [] } ∧
      ∀ f : Fld, f.key < (R.BLK_ISL_LOAD_LAST 0).key → s.endRound.fld f = s.fld f := by
  have hlate : s.roundTasks.filter (fun r => !s.hasEnded r.1.task r.2) = [] :=
    List.filter_eq_nil_iff.mpr fun r hr => by simp [hend r hr]
  obtain ⟨is, hround⟩ : ∃ is, s.endRound = { s.freeLoads is with blk := { (s.freeLoads is).blk with missed := [] } } := by
    unfold State.endRound
    simp only [hlate, State.withheldTasks_nil hl hf, List.map_nil, List.dedup_nil, List.foldl_nil]
    exact ⟨_, rfl⟩
  have hloads := s.freeLoads_shows is
  have hfld : ∀ f : Fld, f.key < (R.BLK_ISL_LOAD_LAST 0).key → (s.freeLoads is).fld f = s.fld f := fun f => s.fld_freeLoads is
  rw [hround]
  generalize s.freeLoads is = t at hloads hfld
  exact ⟨hloads.toRoundOnly.trans ⟨rfl, rfl⟩, by rw [← hloads.blk], hfld⟩

/-! ### The round that begins (R16, R68) -/

theorem State.setEpoch_shows (s : State) (tuSample : Nat) : ShowsOnly s (s.setEpoch tuSample) := by
  unfold State.setEpoch
  split
  · exact .refl s
  · dsimp only
    split
    · exact (((ShowsOnly.refl s).setFld _ _).setFld _ _).raise _
    · exact ((ShowsOnly.refl s).setFld _ _).setFld _ _

theorem State.markLimp_quiet {s : State} (hl : s.blk.limpNow = false) : s.markLimp = s := by
  unfold State.markLimp
  split
  · rfl
  · exact if_neg (by simp [hl])

/-- Token `k` issued, a block of `ns` later: a round with no task ended or running, of which LIMP withholds none. -/
def State.issued (s : State) (k ns : Nat) : State :=
  { s with blk := { s.blk with
      index := k, ticks := if s.fld R.BLK_TICK_DIV_DIV = 0 then 0 else s.blk.ticks + 1, seq := s.blk.seq + 1, ended := [], running := []
      tokenNs := s.blk.tokenNs + ns, limpPrev := s.blk.limpNow, limpNow := false } }

theorem State.issued_round (s : State) (k ns : Nat) : RoundOnly s (s.issued k ns) := ⟨rfl, rfl⟩

theorem State.issueToken_quiet {s : State} (k tuSample : Nat) (hl : s.fld R.BLK_STATE_LIMP_SCHED = 0) (hf : s.pmu.failed = []) :
    ∃ ns, s.issueToken k tuSample = (s.issued k ns).setEpoch tuSample := by
  obtain ⟨ns, hns⟩ : ∃ ns, s.issueToken k tuSample =
      (s.issued k ns).withheldTasks.foldl (fun s t => s.withhold t) ((s.issued k ns).setEpoch tuSample).markLimp := by
    unfold State.issueToken
    simp only [hl]
    exact ⟨_, rfl⟩
  have hepoch : ((s.issued k ns).setEpoch tuSample).blk.limpNow = false := by rw [(State.setEpoch_shows _ _).blk]; rfl
  have hwith : (s.issued k ns).withheldTasks = [] := State.withheldTasks_nil rfl hf
  refine ⟨ns, hns.trans ?_⟩
  rw [hwith, State.markLimp_quiet hepoch]
  rfl

/-! ### After the token (R225, R232, R245, R347) -/

/-- Nothing of the outputs, the swap, Flam, realignment and the rings is due after a token. -/
structure NothingDue (s : State) : Prop where
  ramp : s.gate.ramp = none
  armed : s.peal.armed = none
  fade : s.peal.fade = none
  operates : s.flm.operates = false
  pairs : ∀ c, s.cfg = some c → c.regionPairs = []
  realign : s.blk.realign = none
  queue : s.hif.queue = []
  rings : ∀ e ∈ s.rings, e.2.holdWait = false ∧ e.2.recs = []

/-- With no swap on its way, the swap machine counts FILL down at most. -/
theorem State.swapBoundary_quiet {s : State} (ha : s.peal.armed = none) (hf : s.peal.fade = none) (k : Nat) :
    ShowsOnly s (s.swapBoundary k) := by
  unfold State.swapBoundary
  split
  · simp only [State.setFld_peal, ha, hf]
    exact (ShowsOnly.refl s).setFld _ _
  · simp only [ha, hf]
    exact .refl s

theorem State.flmBoundary_quiet {s : State} (ho : s.flm.operates = false) (hp : ∀ c, s.cfg = some c → c.regionPairs = []) (k : Nat) :
    s.flmBoundary k = s := by
  have hr : s.flmRegionsAt k = s := by
    unfold State.flmRegionsAt
    split
    · rfl
    · next c hc => rw [hp c hc]
  unfold State.flmBoundary
  rw [hr]
  exact if_neg (by simp [ho])

theorem State.flushAll_quiet {s : State} (h : ∀ e ∈ s.rings, e.2.recs = []) : s.flushAll = s := by
  unfold State.flushAll
  rw [List.filter_eq_nil_iff.mpr fun e he => by simp [h e he]]
  rfl

theorem State.countHoldWaits_quiet {s : State} (h : ∀ e ∈ s.rings, e.2.holdWait = false) : s.countHoldWaits = s := by
  unfold State.countHoldWaits
  rw [List.filter_eq_nil_iff.mpr fun e he => by simp [h e he]]
  rfl

theorem State.conflictRoll_shows (s : State) : ShowsOnly s s.conflictRoll :=
  (((ShowsOnly.refl s).setFld _ _).peak _ _).trans ⟨⟨rfl, rfl⟩, rfl⟩

theorem NothingDue.of_round {s t : State} (h : NothingDue s) (hr : RoundOnly s t) (hb : t.blk.realign = s.blk.realign) : NothingDue t where
  ramp := by rw [hr.rest]; exact h.ramp
  armed := by rw [hr.rest]; exact h.armed
  fade := by rw [hr.rest]; exact h.fade
  operates := by rw [hr.rest]; exact h.operates
  pairs := by rw [hr.rest]; exact h.pairs
  realign := hb.trans h.realign
  queue := hr.queue.trans h.queue
  rings := by rw [hr.rest]; exact h.rings

theorem State.afterToken_quiet {s : State} (h : NothingDue s) : ShowsOnly s (s.afterToken false) := by
  have hgate : s.gateBoundary s.blk.index = s := by simp only [State.gateBoundary, h.ramp]
  have hswap := State.swapBoundary_quiet h.armed h.fade s.blk.index
  have ht := h.of_round hswap.toRoundOnly (by rw [hswap.blk])
  unfold State.afterToken
  dsimp only
  rw [hgate]
  generalize s.swapBoundary s.blk.index = t at hswap ht
  have hrealign : t.realignEnd = t := by simp only [State.realignEnd, ht.realign]
  have hqueue : t.hif.queue.isEmpty = true := by rw [ht.queue]; rfl
  rw [State.flmBoundary_quiet ht.operates ht.pairs, if_neg Bool.false_ne_true, hrealign, if_pos hqueue,
    State.flushAll_quiet fun e he => (ht.rings e he).2, State.countHoldWaits_quiet fun e he => (ht.rings e he).1]
  exact (hswap.trans t.conflictRoll_shows).trans ⟨⟨rfl, rfl⟩, rfl⟩

/-! ### The token (R16, R67) -/

theorem Quiet.nothingDue {s : State} (h : Quiet s) : NothingDue s := by
  obtain ⟨-, -, -, -, -, -, -, -, hramp, -, harmed, hfade, hop, hpairs, hrealign, -, -, -, -, hqueue, hrings⟩ := h
  exact ⟨hramp, harmed, hfade, hop, hpairs, hrealign, hqueue, hrings⟩

theorem State.drainStreams_quiet {s : State} (h : s.net.outs = []) : s.drainStreams = s := by
  have hbelow : ∀ pair n, s.drainBelow pair n = s := by
    intro pair n
    unfold State.drainBelow State.streamsBelow
    rw [h]
    split <;> rfl
  unfold State.drainStreams State.drainPair
  rw [hbelow, hbelow]

theorem Pmu.asked_nothing {p : Pmu} (hs : p.sleepAt = none) (ha : p.ask = none) (hp : p.pwrFail = false) :
    { p with ask := none, sleepAt := none, pwrFail := false } = p := by
  cases p
  subst hs ha hp
  rfl

theorem State.pmuBoundary_quiet {s : State} (hm : s.mode ≠ .limp) (hd : s.limpDue = false) (hs : s.pmu.sleepAt = none) (ha : s.pmu.ask = none)
    (hp : s.pmu.pwrFail = false) (k : Nat) : s.pmuBoundary k = s := by
  have hleave : s.limpLeave = s := if_neg fun h => hm h.1
  have hexit : s.limpExitStart k = s := if_neg fun h => hm h.1
  unfold State.pmuBoundary
  simp only [hs, hd, hm, hleave, hexit, hp, ha, reduceCtorEq, Bool.false_eq_true, false_and, if_false, Option.isSome_none]
  exact congrArg (fun p => { s with pmu := p }) (Pmu.asked_nothing hs ha hp)

theorem State.blockToken_quiet {s : State} (h : Quiet s) (tuSample : Nat) :
    s.blockToken tuSample = (s.endRound.issueToken ((s.blk.index + 1) % 2 ^ 48) tuSample).afterToken false := by
  obtain ⟨hrun, hon, hsentry, hlimp, hdue, hsleep, hask, hpwr, -, -, -, -, -, -, hrealign, -, -, -, houts, -, -⟩ := h
  have hstep : s.stepDue = false := by simp only [State.stepDue, hrealign]
  unfold State.blockToken
  dsimp only
  rw [if_pos ⟨hrun, hon⟩, State.drainStreams_quiet houts, State.pmuBoundary_quiet hlimp hdue hsleep hask hpwr]
  refine (if_neg ?_).trans (if_neg ?_)
  · rintro (hm | hr)
    · exact hsentry hm
    · rw [hrun] at hr; cases hr
  · rw [hstep]
    exact Bool.false_ne_true

/-- Settles O11: with nothing else due, a token ends the round, issues the next one and counts, and every step but the second changes
registers at most. -/
theorem tokenCountsBlocks : Obligations.TokenCountsBlocks := by
  intro s tuSample hq hend
  have hdue := hq.nothingDue
  have htoken := State.blockToken_quiet hq tuSample
  obtain ⟨-, -, -, -, -, -, -, -, -, -, -, -, -, -, -, hsched, hlimp, hfailed, -, -, -⟩ := hq
  obtain ⟨hround, hblk, hfld⟩ := State.endRound_quiet hlimp hfailed hend
  generalize s.endRound = e at hround hblk hfld htoken
  obtain ⟨ns, hissue⟩ := State.issueToken_quiet (s := e) ((s.blk.index + 1) % 2 ^ 48) tuSample ((hfld _ (by decide)).trans hsched)
    (by rw [hround.rest]; exact hfailed)
  have hepoch := State.setEpoch_shows (e.issued ((s.blk.index + 1) % 2 ^ 48) ns) tuSample
  have hnew := (hround.trans (e.issued_round _ ns)).trans hepoch.toRoundOnly
  rw [hissue] at htoken
  generalize (e.issued ((s.blk.index + 1) % 2 ^ 48) ns).setEpoch tuSample = u at hepoch hnew htoken
  have hafter := State.afterToken_quiet (hdue.of_round hnew (by rw [hepoch.blk, State.issued, hblk]))
  have hall := hnew.trans hafter.toRoundOnly
  have hb := hafter.blk.trans hepoch.blk
  refine ⟨_, congrArg Host.Outcome.next htoken, ?_⟩
  generalize u.afterToken false = t at hall hb
  rw [hb, State.issued, hblk, hfld _ (by decide), hall.rest]
  exact ⟨rfl, rfl, rfl, rfl, rfl, rfl, rfl, rfl, rfl, rfl, rfl, rfl⟩

end Sys2Proof.Machine
end

section
namespace Sys2Proof.Machine

/-! ### Codes and bits of the power manager's fields -/

theorem satS_of_range {x : Int} (h : -5120 ≤ x ∧ x < 32768) : satS 16 x = x := by
  have hp : ((2 ^ (16 - 1) : Nat) : Int) = 32768 := by norm_num
  simp only [satS, hp]
  rw [if_neg (by omega), if_neg (by omega)]

theorem codeS_lt (x : Int) : codeS 16 x < 2 ^ 16 := by
  have hp : ((2 ^ 16 : Nat) : Int) = 65536 := by norm_num
  simp only [codeS, hp]
  omega

theorem ofCodeS_codeS {x : Int} (h : -5120 ≤ x ∧ x < 32768) : ofCodeS 16 (codeS 16 x) = x := by
  have hp : ((2 ^ 16 : Nat) : Int) = 65536 := by norm_num
  have hh : ((2 ^ (16 - 1) : Nat) : Int) = 32768 := by norm_num
  simp only [ofCodeS, codeS, wrapS, hp, hh]
  split <;> omega

theorem bit_withBit_same (n i : Nat) : bit (withBit n i) i = 1 := by
  unfold withBit
  split
  · assumption
  · next h =>
    unfold bit at h ⊢
    rw [Nat.add_div_right _ (by positivity)]
    omega

/-- To set a bit that is clear carries into no other bit. -/
theorem bit_add_two_pow_ne {n i j : Nat} (hi : bit n i ≠ 1) (hj : j ≠ i) : bit (n + 2 ^ i) j = bit n j := by
  unfold bit at hi ⊢
  rcases Nat.lt_or_gt_of_ne hj with hlt | hgt
  · obtain ⟨k, rfl⟩ := Nat.exists_eq_add_of_lt hlt
    rw [show 2 ^ (j + k + 1) = 2 ^ j * (2 ^ k * 2) by ring, Nat.add_mul_div_left _ _ (by positivity), Nat.add_mul_mod_self_right]
  · obtain ⟨k, rfl⟩ := Nat.exists_eq_add_of_lt hgt
    have hup : (n + 2 ^ i) / 2 ^ i / 2 = n / 2 ^ i / 2 := by
      rw [Nat.add_div_right _ (by positivity)]
      omega
    rw [show 2 ^ (i + k + 1) = 2 ^ i * 2 * 2 ^ k by ring]
    simp only [← Nat.div_div_eq_div_mul, hup]

theorem bit_withBit_of_set {n j : Nat} (h : bit n j = 1) (i : Nat) : bit (withBit n i) j = 1 := by
  unfold withBit
  split
  · exact h
  · next hi => rwa [bit_add_two_pow_ne hi fun he => hi (he ▸ h)]

theorem bit_mod {n w i : Nat} (h : i < w) : bit (n % 2 ^ w) i = bit n i := by
  obtain ⟨k, rfl⟩ : ∃ k, w = i + (k + 1) := ⟨w - i - 1, by omega⟩
  unfold bit
  rw [pow_add, Nat.mod_mul_right_div_self, Nat.mod_mod_of_dvd _ (Dvd.intro_left _ (pow_succ 2 k).symm)]

theorem bit_foldl_withBit {is : List Nat} {j : Nat} : ∀ {n : Nat}, (j ∈ is ∨ bit n j = 1) → bit (is.foldl withBit n) j = 1 := by
  induction is with
  | nil => intro n h; simpa using h
  | cons i is ih =>
    intro n h
    refine ih ?_
    rcases h with h | h
    · rcases List.mem_cons.mp h with rfl | h
      · exact .inr (bit_withBit_same n j)
      · exact .inl h
    · exact .inr (bit_withBit_of_set h i)

end Sys2Proof.Machine
end

section
namespace Sys2Proof.Machine

/-! ### The readings of the sensors (R404) -/

/-- The registers of the sensors from the `k`-th show `ts`. -/
def State.showTemps (s : State) (ts : List Int) (k : Nat) : State :=
  (ts.zipIdx k).foldl (fun s p => s.setFld (R.PMU_TEMP_T p.2) (codeS 16 p.1)) s

theorem State.showTemps_cons (s : State) (x : Int) (ts : List Int) (k : Nat) :
    s.showTemps (x :: ts) k = (s.setFld (R.PMU_TEMP_T k) (codeS 16 x)).showTemps ts (k + 1) := rfl

theorem State.showTemps_pmu (ts : List Int) : ∀ (s : State) (k : Nat), (s.showTemps ts k).pmu = s.pmu := by
  induction ts with
  | nil => exact fun _ _ => rfl
  | cons x ts ih =>
    intro s k
    rw [State.showTemps_cons, ih]
    rfl

theorem State.fld_showTemps_ne {f : Fld} (ts : List Int) : ∀ (s : State) (k : Nat),
    (∀ n, k ≤ n → n < k + ts.length → f.key ≠ (R.PMU_TEMP_T n).key) → (s.showTemps ts k).fld f = s.fld f := by
  induction ts with
  | nil => exact fun _ _ _ => rfl
  | cons x ts ih =>
    intro s k h
    rw [List.length_cons] at h
    rw [State.showTemps_cons, ih _ _ fun n hk hn => h n (by omega) (by omega), State.fld_setFld_ne _ _ (h k le_rfl (by omega))]

theorem State.fld_showTemps_get (ts : List Int) : ∀ (s : State) (k n : Nat), n < ts.length →
    (s.showTemps ts k).fld (R.PMU_TEMP_T (k + n)) = codeS 16 (ts.getD n 0) := by
  induction ts with
  | nil => exact fun _ _ _ h => absurd h (Nat.not_lt_zero _)
  | cons x ts ih =>
    intro s k n h
    rw [State.showTemps_cons]
    cases n with
    | zero =>
      rw [State.fld_showTemps_ne _ _ _ fun m hm _ => by simp only [Fld.key]; omega, Nat.add_zero, State.fld_setFld_same]
      exact Nat.mod_eq_of_lt (codeS_lt x)
    | succ n =>
      rw [show k + (n + 1) = k + 1 + n by omega, ih _ _ _ (Nat.lt_of_succ_lt_succ h)]
      rfl

/-- Readings in the range of a sensor are shown as they are. -/
theorem map_satS_temps {temps : List Int} (hl : temps.length = 16) (hr : ∀ x ∈ temps, -5120 ≤ x ∧ x < 32768) :
    (List.range 16).map (fun n => satS 16 (temps.getD n 0)) = temps := by
  refine List.ext_getElem (by simp [hl]) fun n h _ => ?_
  have hn : n < temps.length := by simpa [hl] using h
  rw [List.getElem_map, List.getElem_range, List.getD_eq_getElem _ _ hn, satS_of_range (hr _ (List.getElem_mem hn))]

theorem hottest_fst_lt {temps : List Int} (h : 0 < temps.length) : (hottest temps).1 < temps.length := by
  unfold hottest
  refine List.foldlRecOn (motive := fun m : Nat × Int => m.1 < temps.length) temps.zipIdx _ h fun m hm p hp => ?_
  split
  · exact (List.mem_zipIdx' hp).1
  · exact hm

/-! ### The three steps of a sample (R404, R405) -/

/-- The readings and the hottest of them shown. -/
def State.tempShown (s : State) (ts : List Int) : State :=
  ((s.showTemps ts 0).setFld R.PMU_TEMP_MAX_SENSOR (hottest ts).1).setFld R.PMU_TEMP_MAX_T (codeS 16 (hottest ts).2)

/-- The sensors at 150 °C or above. -/
def hotSensors (ts : List Int) : List Nat := (List.range 16).filter (fun n => decide (150 * 128 ≤ ts.getD n 0))

/-- The hot sensors noted, with the cause of LIMP where one of them was hot before. -/
def State.noteHot (s : State) (hot : List Nat) (again : Bool) : State :=
  let s1 : State := { s with pmu := { s.pmu with hot := hot } }
  if again then s1.addCause causeThermal else s1

/-- The warning follows the hottest reading. -/
def State.thermWarn (s : State) (m : Int) : State :=
  if s.pmu.warn then
    if m < s.warnAt - 5 * 128 then { s with pmu := { s.pmu with warn := false } } else s
  else if s.warnAt ≤ m then
    ((({ s with pmu := { s.pmu with warn := true } } : State).raise R.PMU_INT_STATUS_THERM_WARN).alert 2)
  else s

theorem State.tempSample_eq {temps : List Int} (hl : temps.length = 16) (hr : ∀ x ∈ temps, -5120 ≤ x ∧ x < 32768) (s : State) :
    s.tempSample temps = ((s.tempShown temps).noteHot (hotSensors temps) ((hotSensors temps).any fun n => s.pmu.hot.contains n)).thermWarn
      (hottest temps).2 := by
  conv_rhs => rw [← map_satS_temps hl hr]
  rfl

theorem any_hotSensors (ts : List Int) (hot : List Nat) :
    (hotSensors ts).any (fun n => hot.contains n) = true ↔ ∃ n < 16, 150 * 128 ≤ ts.getD n 0 ∧ n ∈ hot := by
  simp only [hotSensors, List.any_eq_true, List.mem_filter, List.mem_range, decide_eq_true_eq, List.contains_iff_mem, and_assoc]

theorem State.tempShown_pmu (s : State) (ts : List Int) : (s.tempShown ts).pmu = s.pmu := s.showTemps_pmu ts 0

theorem State.fld_tempShown_ne (s : State) {ts : List Int} (hl : ts.length = 16) {f : Fld}
    (h : f.key / 32 < 0x15F00020 ∨ 0x15F00080 ≤ f.key / 32) : (s.tempShown ts).fld f = s.fld f := by
  have hne : ∀ g : Fld, 0x15F00020 ≤ g.key / 32 ∧ g.key / 32 < 0x15F00080 → f.key ≠ g.key := fun g hg he => by
    rw [he] at h; omega
  unfold State.tempShown
  rw [State.fld_setFld_ne _ _ (hne _ (by decide)), State.fld_setFld_ne _ _ (hne _ (by decide)),
    State.fld_showTemps_ne _ _ _ fun n _ hn => hne _ (by simp only [Fld.key]; omega)]

/-- What a sample shows of the readings `ts`. -/
structure ShowsTemps (ts : List Int) (t : State) : Prop where
  temps : ∀ n < 16, t.fld (R.PMU_TEMP_T n) = codeS 16 (ts.getD n 0)
  maxT : t.fld R.PMU_TEMP_MAX_T = codeS 16 (hottest ts).2
  sensor : t.fld R.PMU_TEMP_MAX_SENSOR = (hottest ts).1

theorem State.tempShown_shows (s : State) {ts : List Int} (hl : ts.length = 16) : ShowsTemps ts (s.tempShown ts) where
  temps n hn := by
    unfold State.tempShown
    rw [State.fld_setFld_ne _ _ (by simp only [Fld.key]; omega), State.fld_setFld_ne _ _ (by simp only [Fld.key]; omega)]
    simpa using s.fld_showTemps_get ts 0 n (hl ▸ hn)
  maxT := (State.fld_setFld_same ..).trans (Nat.mod_eq_of_lt (codeS_lt _))
  sensor := by
    have hlt : (hottest ts).1 < 16 := hl ▸ hottest_fst_lt (by omega)
    unfold State.tempShown
    rw [State.fld_setFld_ne _ _ (by decide), State.fld_setFld_same]
    exact Nat.mod_eq_of_lt hlt

/-! ### A cause of LIMP that arises (R400, R402) -/

/-- The fields that a cause of LIMP may change. -/
def causeFlds : List Fld := R.PMU_LIMP_STATUS_SEEN :: sentryFlds

theorem State.setCauses_pmu (s : State) (v : Nat) : (s.setCauses v).pmu = s.pmu := by
  unfold State.setCauses; dsimp only; split <;> rfl

theorem State.limpCauses_setCauses (s : State) (v : Nat) : (s.setCauses v).limpCauses = v % 2 ^ 5 := by
  unfold State.setCauses State.limpCauses
  dsimp only
  split
  · rw [State.fld_setFld_ne _ _ (by decide), State.fld_setFld_same]
  · rw [State.fld_setFld_same]

/-- What a cause of LIMP leaves alone. -/
structure CauseAdded (s t : State) : Prop where
  fld : ∀ f : Fld, (∀ g ∈ causeFlds, f.key ≠ g.key) → t.fld f = s.fld f
  hot : t.pmu.hot = s.pmu.hot
  warn : t.pmu.warn = s.pmu.warn

theorem CauseAdded.refl (s : State) : CauseAdded s s := ⟨fun _ _ => rfl, rfl, rfl⟩

theorem CauseAdded.setFld {s t : State} (h : CauseAdded s t) {g : Fld} (hg : g ∈ causeFlds) (v : Nat) : CauseAdded s (t.setFld g v) :=
  ⟨fun f hf => (t.fld_setFld_ne v (hf g hg)).trans (h.fld f hf), h.hot, h.warn⟩

theorem CauseAdded.setCauses {s t : State} (h : CauseAdded s t) (v : Nat) : CauseAdded s (t.setCauses v) where
  fld f hf := (t.fld_setCauses_ne v fun g hg => hf g (List.mem_cons_of_mem _ hg)).trans (h.fld f hf)
  hot := (congrArg Pmu.hot (t.setCauses_pmu v)).trans h.hot
  warn := (congrArg Pmu.warn (t.setCauses_pmu v)).trans h.warn

theorem CauseAdded.exitAt {s t : State} (h : CauseAdded s t) (k : Option Nat) :
    CauseAdded s { t with pmu := { t.pmu with exitAt := k } } := ⟨h.fld, h.hot, h.warn⟩

/-- The cause shown among those present and those seen. -/
def State.causeShown (s : State) (b : Nat) : State :=
  (s.setCauses (withBit s.limpCauses b)).setFld R.PMU_LIMP_STATUS_SEEN (withBit (s.fld R.PMU_LIMP_STATUS_SEEN) b)

/-- An exit from LIMP abandoned. -/
def State.exitAbandoned (s : State) : State :=
  if s.pmu.exitAt.isSome ∧ s.fld R.PMU_LIMP_STATUS_PHASE ≠ 3 then
    ({ s with pmu := { s.pmu with exitAt := none } }).setFld R.PMU_LIMP_STATUS_PHASE 1
  else s

theorem State.addCause_eq (s : State) (b : Nat) : s.addCause b =
    match s.mode with
    | .shadow | .live | .limp => (s.causeShown b).exitAbandoned
    | _ => s := rfl

theorem State.addCause_added (s : State) (b : Nat) : CauseAdded s (s.addCause b) := by
  have hshow : CauseAdded s (s.causeShown b) := ((CauseAdded.refl s).setCauses _).setFld (by decide) _
  have hexit : CauseAdded s (s.causeShown b).exitAbandoned := by
    unfold State.exitAbandoned
    split
    · exact (hshow.exitAt none).setFld (by decide) 1
    · exact hshow
  rw [State.addCause_eq]
  split
  · exact hexit
  · exact hexit
  · exact hexit
  · exact .refl s

theorem State.bit_addCause {s : State} (hm : s.mode = .shadow ∨ s.mode = .live ∨ s.mode = .limp) {b : Nat} (hb : b < 5) :
    bit (s.addCause b).limpCauses b = 1 := by
  have hshow : bit (s.causeShown b).limpCauses b = 1 := by
    unfold State.causeShown
    rw [State.limpCauses, State.fld_setFld_ne _ _ (by decide), ← State.limpCauses, State.limpCauses_setCauses, bit_mod hb, bit_withBit_same]
  have hexit : bit (s.causeShown b).exitAbandoned.limpCauses b = 1 := by
    unfold State.exitAbandoned
    split
    · rwa [State.limpCauses, State.fld_setFld_ne _ _ (by decide)]
    · exact hshow
  rw [State.addCause_eq]
  rcases hm with hm | hm | hm <;> rw [hm] <;> exact hexit

theorem State.noteHot_added (s : State) (hot : List Nat) (again : Bool) :
    CauseAdded { s with pmu := { s.pmu with hot := hot } } (s.noteHot hot again) := by
  unfold State.noteHot
  dsimp only
  split
  · exact State.addCause_added _ _
  · exact .refl _

theorem State.limpCauses_noteHot_false (s : State) (hot : List Nat) : (s.noteHot hot false).limpCauses = s.limpCauses := rfl

theorem State.bit_noteHot_true {s : State} (hm : s.mode = .shadow ∨ s.mode = .live ∨ s.mode = .limp) (hot : List Nat) :
    bit (s.noteHot hot true).limpCauses causeThermal = 1 :=
  State.bit_addCause (s := { s with pmu := { s.pmu with hot := hot } }) hm (by decide)

/-! ### The warning (R407) -/

/-- What the warning leaves alone. -/
structure Warned (s t : State) : Prop where
  fld : ∀ f : Fld, f.key ≠ R.PMU_INT_STATUS_THERM_WARN.key → f.key ≠ R.SMP_ALERT_STATUS_ALERT.key → t.fld f = s.fld f
  hot : t.pmu.hot = s.pmu.hot

/-- The warning raised, with its alert. -/
def State.warnRaised (s : State) : State :=
  (({ s with pmu := { s.pmu with warn := true } } : State).raise R.PMU_INT_STATUS_THERM_WARN).alert 2

theorem State.warnRaised_warned (s : State) : Warned s s.warnRaised where
  fld f hw ha := by
    unfold State.warnRaised State.alert
    rw [State.fld_setFld_ne _ _ ha, State.fld_raise_ne _ hw]
    rfl
  hot := (congrArg Pmu.hot (State.raise_pmu ..) : _)

theorem State.fld_alert_same (s : State) {i : Nat} (hi : i < 8) : bit ((s.alert i).fld R.SMP_ALERT_STATUS_ALERT) i = 1 := by
  rw [State.alert, State.fld_setFld_same, bit_mod hi, bit_withBit_same]

theorem State.warnRaised_shows (s : State) : s.warnRaised.pmu.warn = true ∧ bit (s.warnRaised.fld R.PMU_INT_STATUS_THERM_WARN) 0 = 1 ∧
    bit (s.warnRaised.fld R.SMP_ALERT_STATUS_ALERT) 2 = 1 := by
  refine ⟨congrArg Pmu.warn (State.raise_pmu ..), ?_, State.fld_alert_same _ (by decide)⟩
  unfold State.warnRaised State.alert
  rw [State.fld_setFld_ne _ _ (by decide)]
  exact State.fld_raise_same _ (by decide)

theorem State.thermWarn_raised {s : State} (h : s.pmu.warn = false) {m : Int} (hm : s.warnAt ≤ m) : s.thermWarn m = s.warnRaised := by
  unfold State.thermWarn
  rw [if_neg (by simp [h]), if_pos hm]
  rfl

theorem State.thermWarn_cool {s : State} (h : s.pmu.warn = false) {m : Int} (hm : m < s.warnAt) : s.thermWarn m = s := by
  unfold State.thermWarn
  rw [if_neg (by simp [h]), if_neg (not_le.mpr hm)]

theorem State.thermWarn_ending {s : State} (h : s.pmu.warn = true) (m : Int) :
    s.thermWarn m = { s with pmu := { s.pmu with warn := decide (s.warnAt - 640 ≤ m) } } := by
  unfold State.thermWarn
  rw [if_pos h]
  by_cases hm : m < s.warnAt - 5 * 128
  · rw [if_pos hm, decide_eq_false (by omega)]
  · rw [if_neg hm, decide_eq_true (by omega), ← h]

theorem State.thermWarn_warned (s : State) (m : Int) : Warned s (s.thermWarn m) := by
  cases h : s.pmu.warn with
  | true => rw [State.thermWarn_ending h]; exact ⟨fun _ _ _ => rfl, rfl⟩
  | false =>
    rcases le_or_gt s.warnAt m with hm | hm
    · rw [State.thermWarn_raised h hm]; exact s.warnRaised_warned
    · rw [State.thermWarn_cool h hm]; exact ⟨fun _ _ _ => rfl, rfl⟩

/-! ### A sample (R404, R405, R407) -/

/-- A sensor at 150 °C or above was so in the sample before (R405). -/
abbrev HotAgain (s : State) (temps : List Int) : Prop := ∃ n < 16, 150 * 128 ≤ temps.getD n 0 ∧ n ∈ s.pmu.hot

/-- What a sample of the sensors shows. -/
def SampleShows (s : State) (temps : List Int) (t : State) : Prop :=
  (∀ n < 16, t.tempOf n = temps.getD n 0) ∧ t.fld R.PMU_TEMP_MAX_T = codeS 16 (hottest temps).2 ∧
  t.fld R.PMU_TEMP_MAX_SENSOR = (hottest temps).1 ∧ t.pmu.hot = hotSensors temps ∧
  ((HotAgain s temps → s.mode = .shadow ∨ s.mode = .live ∨ s.mode = .limp → bit t.limpCauses causeThermal = 1) ∧
    (¬ HotAgain s temps → t.limpCauses = s.limpCauses)) ∧
  (s.pmu.warn = false → s.warnAt ≤ (hottest temps).2 → t.pmu.warn = true ∧ bit (t.fld R.PMU_INT_STATUS_THERM_WARN) 0 = 1 ∧
    bit (t.fld R.SMP_ALERT_STATUS_ALERT) 2 = 1) ∧
  (s.pmu.warn = false → (hottest temps).2 < s.warnAt → t.pmu.warn = false) ∧
  (s.pmu.warn = true → t.pmu.warn = decide (s.warnAt - 640 ≤ (hottest temps).2))

theorem ShowsTemps.congr {ts : List Int} {s t : State} (h : ShowsTemps ts s)
    (hf : ∀ f : Fld, 0x15F00020 ≤ f.key / 32 ∧ f.key / 32 < 0x15F00080 → t.fld f = s.fld f) : ShowsTemps ts t where
  temps n hn := (hf _ (by simp only [Fld.key]; omega)).trans (h.temps n hn)
  maxT := (hf _ (by decide)).trans h.maxT
  sensor := (hf _ (by decide)).trans h.sensor

theorem ShowsTemps.tempOf {ts : List Int} {t : State} (h : ShowsTemps ts t) (hr : ∀ x ∈ ts, -5120 ≤ x ∧ x < 32768) (hl : ts.length = 16)
    {n : Nat} (hn : n < 16) : t.tempOf n = ts.getD n 0 := by
  have hn' : n < ts.length := hl ▸ hn
  rw [State.tempOf, h.temps n hn, List.getD_eq_getElem _ _ hn', ofCodeS_codeS (hr _ (List.getElem_mem hn'))]

/-- The registers of the sensors lie apart from those of LIMP and of the warning. -/
theorem temps_apart : ∀ g ∈ R.PMU_INT_STATUS_THERM_WARN :: causeFlds, ¬ (0x15F00020 ≤ g.key / 32 ∧ g.key / 32 < 0x15F00080) := by decide

/-- The readings shown and the hot sensors noted; the warning stands as it was. -/
structure TempNoted (s : State) (temps : List Int) (t : State) : Prop where
  shows : ShowsTemps temps t
  hot : t.pmu.hot = hotSensors temps
  warn : t.pmu.warn = s.pmu.warn
  warnAt : t.warnAt = s.warnAt
  cause : HotAgain s temps → s.mode = .shadow ∨ s.mode = .live ∨ s.mode = .limp → bit t.limpCauses causeThermal = 1
  noCause : ¬ HotAgain s temps → t.limpCauses = s.limpCauses

theorem State.noteHot_noted {s u : State} {temps : List Int} (hshow : ShowsTemps temps u) (hpmu : u.pmu = s.pmu)
    (hkeep : ∀ f : Fld, f.key / 32 < 0x15F00020 ∨ 0x15F00080 ≤ f.key / 32 → u.fld f = s.fld f) {again : Bool}
    (hagain : again = true ↔ HotAgain s temps) : TempNoted s temps (u.noteHot (hotSensors temps) again) := by
  have hadd := u.noteHot_added (hotSensors temps) again
  have hmode : u.mode = s.mode := State.mode_congr (hkeep _ (by decide))
  have hwarn : u.pmu.warn = s.pmu.warn := congrArg Pmu.warn hpmu
  refine ⟨hshow.congr fun f hf => hadd.fld f fun g hg he => ?_, hadd.hot, hadd.warn.trans hwarn, ?_, fun ha hm => ?_,
    fun ha => ?_⟩
  · exact temps_apart g (List.mem_cons_of_mem _ hg) (he ▸ hf)
  · simp only [State.warnAt, hadd.fld R.PMU_THERM_CFG_WARN_C (by decide)]
    exact congrArg (fun n : Nat => 128 * ((max 60 (min 140 n) : Nat) : Int)) (hkeep _ (by decide))
  · obtain rfl := hagain.mpr ha
    exact State.bit_noteHot_true (hmode ▸ hm) _
  · obtain rfl : again = false := Bool.eq_false_iff.mpr (mt hagain.mp ha)
    exact (u.limpCauses_noteHot_false _).trans (hkeep _ (by decide))

theorem TempNoted.thermWarn {s t : State} {temps : List Int} (hl : temps.length = 16) (hr : ∀ x ∈ temps, -5120 ≤ x ∧ x < 32768)
    (h : TempNoted s temps t) : SampleShows s temps (t.thermWarn (hottest temps).2) := by
  have hw := t.thermWarn_warned (hottest temps).2
  have hshow : ShowsTemps temps (t.thermWarn (hottest temps).2) := h.shows.congr fun f hf => hw.fld f
    (fun he => temps_apart _ List.mem_cons_self (he ▸ hf)) (fun he => temps_apart R.SMP_ALERT_STATUS_ALERT (by decide) (he ▸ hf))
  have hcause : (t.thermWarn (hottest temps).2).limpCauses = t.limpCauses := hw.fld _ (by decide) (by decide)
  refine ⟨fun n hn => hshow.tempOf hr hl hn, hshow.maxT, hshow.sensor, hw.hot.trans h.hot,
    ⟨fun ha hm => hcause ▸ h.cause ha hm, fun ha => hcause.trans (h.noCause ha)⟩, fun hc hm => ?_, fun hc hm => ?_, fun hc => ?_⟩
  · rw [State.thermWarn_raised (h.warn.trans hc) (h.warnAt ▸ hm)]
    exact t.warnRaised_shows
  · rw [State.thermWarn_cool (h.warn.trans hc) (h.warnAt ▸ hm)]
    exact h.warn.trans hc
  · rw [State.thermWarn_ending (h.warn.trans hc), ← h.warnAt]

theorem tempSample_shows {temps : List Int} (hl : temps.length = 16) (hr : ∀ x ∈ temps, -5120 ≤ x ∧ x < 32768) (s : State) :
    SampleShows s temps (s.tempSample temps) := by
  rw [State.tempSample_eq hl hr]
  exact (State.noteHot_noted (s.tempShown_shows hl) (s.tempShown_pmu temps) (fun f hf => s.fld_tempShown_ne hl hf)
    (any_hotSensors temps s.pmu.hot)).thermWarn hl hr

end Sys2Proof.Machine
end

section
namespace Sys2Proof.Machine

/-! ### Power failure (R376, R403) -/

/-- The recorder changes its own state, flash and its status register alone. -/
structure Recorded (s t : State) : Prop where
  fld : ∀ f : Fld, f.key / 32 ≠ R.EVT_STATUS_WRITING.addr → t.fld f = s.fld f
  flm : t.flm = s.flm
  pmu : t.pmu = s.pmu

theorem Recorded.trans {s t u : State} (h : Recorded s t) (h' : Recorded t u) : Recorded s u :=
  ⟨fun f hf => (h'.fld f hf).trans (h.fld f hf), h'.flm.trans h.flm, h'.pmu.trans h.pmu⟩

theorem Recorded.refl (s : State) : Recorded s s := ⟨fun _ _ => rfl, rfl, rfl⟩

theorem Recorded.setFld {s t : State} (h : Recorded s t) {g : Fld} (hg : g.key / 32 = R.EVT_STATUS_WRITING.addr) (v : Nat) :
    Recorded s (t.setFld g v) :=
  h.trans ⟨fun _ hf => t.fld_setFld_ne v fun he => hf (he ▸ hg), rfl, rfl⟩

theorem Recorded.withEvt {s t : State} (h : Recorded s t) (e : Evt) : Recorded s { t with evt := e } :=
  h.trans ⟨fun _ _ => rfl, rfl, rfl⟩

/-- The samples of the minute change the counts and the extremes alone. -/
structure Sampled (s t : State) : Prop where
  eq : t = { s with evt := t.evt }
  writing : t.evt.writing = s.evt.writing
  erasing : t.evt.erasing = s.evt.erasing

theorem Sampled.trans {s t u : State} (h : Sampled s t) (h' : Sampled t u) : Sampled s u :=
  ⟨by rw [h'.eq, h.eq], h'.writing.trans h.writing, h'.erasing.trans h.erasing⟩

theorem State.offer_sampled (s : State) (x : Nat) (v : Int) (minute : Nat) : Sampled s (s.offer x v minute) := by
  unfold State.offer
  dsimp only
  generalize (if lowExtreme x then decide (v < (s.extreme x).1) else decide ((s.extreme x).1 < v)) = beyond
  cases beyond <;> exact ⟨rfl, rfl, rfl⟩

theorem Sampled.binAdds {hs : List Nat} (n : Nat → Nat) : ∀ s : State,
    Sampled s (hs.foldl (fun (s : State) (h : Nat) => s.binAdd h (log2Bin (n h))) s) := by
  induction hs with
  | nil => exact fun _ => ⟨rfl, rfl, rfl⟩
  | cons h hs ih => exact fun s => Sampled.trans (t := s.binAdd h (log2Bin (n h))) ⟨rfl, rfl, rfl⟩ (ih _)

theorem State.sampleMinute_sampled (s : State) : Sampled s s.sampleMinute := by
  unfold State.sampleMinute
  dsimp only
  split
  · exact ((Sampled.binAdds _ s).trans (State.offer_sampled ..)).trans ⟨rfl, rfl, rfl⟩
  · exact ⟨rfl, rfl, rfl⟩

theorem Sampled.recorded {s t : State} (h : Sampled s t) : Recorded s t := by
  rw [h.eq]
  exact (Recorded.refl s).withEvt _

theorem State.snapshot_recorded (s : State) (cause : Nat) : Recorded s (s.snapshot cause) := by
  unfold State.snapshot
  split
  · exact (Recorded.refl s).withEvt _
  · exact ((Recorded.refl s).setFld (g := R.EVT_STATUS_WRITING) (by decide) 1).withEvt _

theorem State.recorderPowerFail_recorded (s : State) : Recorded s s.recorderPowerFail := by
  have h := s.sampleMinute_sampled.recorded
  unfold State.recorderPowerFail
  dsimp only
  generalize s.sampleMinute = t at h ⊢
  split
  · next slot _ =>
    have hspoil : Recorded t (t.flashSpoil (recordAt slot) 0x10000) := ⟨fun _ _ => rfl, rfl, rfl⟩
    exact ((h.trans hspoil).setFld (g := R.EVT_STATUS_ERASING) (by decide) 0).withEvt _
  · split
    · exact h
    · exact h.trans (t.snapshot_recorded 2)

/-- An idle recorder begins a record with the cause of a power failure. -/
theorem State.recorderPowerFail_writes {s : State} (hw : s.evt.writing = none) (he : s.evt.erasing = none)
    (hr : s.fld R.EVT_STATUS_RESTORING ≠ 1) : ∃ bs, s.recorderPowerFail.evt.writing = some (bs, 2) := by
  have h := s.sampleMinute_sampled
  unfold State.recorderPowerFail
  dsimp only
  generalize s.sampleMinute = t at h ⊢
  have htw : t.evt.writing = none := h.writing.trans hw
  have hte : t.evt.erasing = none := h.erasing.trans he
  have htr : t.fld R.EVT_STATUS_RESTORING ≠ 1 := by rw [h.eq]; exact hr
  rw [hte, State.snapshot, if_neg (by simp [htw, htr]), if_neg (by simp [htw, hte, htr])]
  exact ⟨_, rfl⟩

/-- PWR_FAIL_N shown, with its event and its alert. -/
def State.pwrFailShown (s : State) : State := ((s.recorderPowerFail).raise R.PMU_INT_STATUS_PWR_FAIL).alert 3

theorem State.pwrFailShown_flmState (s : State) : s.pwrFailShown.flmState = s.flmState := by
  unfold State.pwrFailShown State.alert State.flmState
  rw [State.fld_setFld_ne _ _ (by decide), State.fld_raise_ne _ (by decide)]
  exact s.recorderPowerFail_recorded.fld _ (by decide)

theorem State.pwrFailShown_evt (s : State) : s.pwrFailShown.evt = s.recorderPowerFail.evt := State.raise_evt ..

theorem State.bit_pwrFailShown (s : State) : bit (s.pwrFailShown.fld R.PMU_INT_STATUS_PWR_FAIL) 0 = 1 ∧
    bit (s.pwrFailShown.fld R.SMP_ALERT_STATUS_ALERT) 3 = 1 := by
  refine ⟨?_, State.fld_alert_same _ (by decide)⟩
  unfold State.pwrFailShown State.alert
  rw [State.fld_setFld_ne _ _ (by decide)]
  exact State.fld_raise_same _ (by decide)

theorem pwrFailAssert_first {s : State} (h : s.pmu.pwrFail = false) : Gives .pwrFailAssert s (fun t =>
    t.pmu.pwrFail = true ∧ t.pmu.handed = decide (s.flmState = 4) ∧ (s.flmState = 4 → t.flm.forced = true) ∧
      bit (t.fld R.PMU_INT_STATUS_PWR_FAIL) 0 = 1 ∧ bit (t.fld R.SMP_ALERT_STATUS_ALERT) 3 = 1 ∧
      (s.evt.writing = none → s.evt.erasing = none → s.fld R.EVT_STATUS_RESTORING ≠ 1 → ∃ bs, t.evt.writing = some (bs, 2))) := by
  refine ⟨_, rfl, ?_⟩
  unfold State.pwrFailAssert
  rw [if_neg (by simp [h])]
  obtain ⟨hint, halert⟩ := s.bit_pwrFailShown
  have hflm := s.pwrFailShown_flmState
  have hevt := s.pwrFailShown_evt
  change _ ∧ decide (s.pwrFailShown.flmState = 4) = _ ∧ (_ → (s.pwrFailShown.flm.forced || decide (s.pwrFailShown.flmState = 4)) = true) ∧
    bit (s.pwrFailShown.fld _) 0 = 1 ∧ bit (s.pwrFailShown.fld _) 3 = 1 ∧ (_ → _ → _ → ∃ bs, s.pwrFailShown.evt.writing = some (bs, 2))
  rw [hflm, hevt]
  exact ⟨rfl, rfl, fun h4 => by simp [h4], hint, halert, State.recorderPowerFail_writes⟩

theorem pwrFailAssert_again {s : State} (h : s.pmu.pwrFail = true) : exec .pwrFailAssert s = .next s :=
  congrArg Host.Outcome.next (if_pos h)

/-! ### The end of a power failure (R376, R403) -/

theorem State.fld_offsDone (t : State) (f : Fld) : t.offsDone.fld f = t.fld f := rfl

theorem State.fld_mainOff {f : Fld} (s : State) (ha : abidesKey f.key = true) (hs : ∀ g ∈ sentryFlds, f.key ≠ g.key) :
    s.mainOff.fld f = s.fld f := by
  have hin : InSentry s (if s.domainOn 2 then s.alert 0 else s).toSentry := InSentry.of_alert (State.toSentry_inSentry _)
  rw [State.mainOff_eq, State.fld_offsDone]
  generalize (if s.domainOn 2 then s.alert 0 else s).toSentry = u at hin ⊢
  exact (u.powerOff_down.1.fld f ha).trans (hin.fld f hs)

/-- The shutdown counted, its cause shown, and what the power manager notes of it. -/
def State.shutCounted (s : State) : State :=
  let s1 := (s.bump R.PMU_PF_COUNT_SHUTDOWN).setFld R.PMU_RESET_CAUSE_PWR_FAIL 1
  { s1 with pmu := { s1.pmu with shut := true, handed := false } }

theorem State.fld_shutCounted (s : State) (f : Fld) :
    s.shutCounted.fld f = ((s.bump R.PMU_PF_COUNT_SHUTDOWN).setFld R.PMU_RESET_CAUSE_PWR_FAIL 1).fld f := rfl

theorem State.fld_shutCounted_ne (s : State) {f : Fld} (hc : f.key ≠ R.PMU_PF_COUNT_SHUTDOWN.key) (hr : f.key ≠ R.PMU_RESET_CAUSE_PWR_FAIL.key) :
    s.shutCounted.fld f = s.fld f := by
  rw [State.fld_shutCounted, State.fld_setFld_ne _ _ hr, State.fld_bump_ne _ _ hc]

/-- What a shutdown for want of power shows. -/
def ShutShows (s t : State) : Prop :=
  t.mode = .sentry ∧ t.pmu.shut = true ∧ t.cfg = none ∧ t.fld R.PMU_RESET_CAUSE_PWR_FAIL = 1 ∧
    t.fld R.PMU_PF_COUNT_SHUTDOWN = min (s.fld R.PMU_PF_COUNT_SHUTDOWN + 1) (2 ^ 16 - 1) ∧ ∀ d ∈ powerSequence, t.domainState d = 0

theorem MainDown.shutCounted {s t : State} (hd : MainDown s t) (hcount : t.fld R.PMU_PF_COUNT_SHUTDOWN = s.fld R.PMU_PF_COUNT_SHUTDOWN) :
    ShutShows s t.shutCounted := by
  have hcause : t.shutCounted.fld R.PMU_RESET_CAUSE_PWR_FAIL = 1 := by
    rw [State.fld_shutCounted, State.fld_setFld_same]; rfl
  refine ⟨(State.mode_congr (t.fld_shutCounted_ne (by decide) (by decide))).trans hd.mode, rfl, hd.cfg, hcause, ?_, fun d hmem =>
    (State.domainState_congr (t.fld_shutCounted_ne (by decide) (by decide)) d).trans (hd.power d hmem)⟩
  rw [State.fld_shutCounted, State.fld_setFld_ne _ _ (by decide), State.fld_bump_same, hcount]

theorem State.pwrFailShutdown_eq {s : State} (h : s.pmu.pwrFail = true) (hm : s.mode ≠ .sentry ∨ s.pmu.goal ≠ []) :
    s.pwrFailShutdown = s.mainOff.shutCounted := if_pos ⟨h, hm⟩

theorem pwrFailShutdown_down {s : State} (h : s.pmu.pwrFail = true) (hm : s.mode ≠ .sentry ∨ s.pmu.goal ≠ []) :
    Gives .pwrFailShutdown s (ShutShows s) :=
  ⟨_, rfl, State.pwrFailShutdown_eq h hm ▸ s.mainOff_down.1.shutCounted (s.fld_mainOff (by decide) (by decide))⟩

theorem pwrFailShutdown_idle {s : State} (h : s.pmu.pwrFail = false ∨ (s.mode = .sentry ∧ s.pmu.goal = [])) :
    exec .pwrFailShutdown s = .next s := by
  refine congrArg Host.Outcome.next (if_neg ?_)
  rintro ⟨hp, hm⟩
  rcases h with h | ⟨hmode, hgoal⟩
  · rw [h] at hp; cases hp
  · exact hm.elim (absurd hmode) (absurd hgoal)

/-- PWR_FAIL_N is released. -/
def State.pwrFailEnded (s : State) : State := { s with pmu := { s.pmu with pwrFail := false, handed := false } }

theorem pwrFailDeassert_shut {s : State} (h : s.pmu.pwrFail = true) (hs : s.pmu.shut = true) :
    exec .pwrFailDeassert s = .next s.pwrFailEnded :=
  congrArg Host.Outcome.next ((if_pos h).trans (if_pos hs))

theorem State.outputsLive_iff (s : State) : s.outputsLive = true ↔ s.mode = .live ∨ s.mode = .limp ∧ s.pmu.limpShadow = false :=
  decide_eq_true_iff

theorem pwrFailDeassert_glitch {s : State} (h : s.pmu.pwrFail = true) (hs : s.pmu.shut = false) : Gives .pwrFailDeassert s (fun t =>
    t.pmu.pwrFail = false ∧ t.fld R.PMU_PF_COUNT_GLITCH = min (s.fld R.PMU_PF_COUNT_GLITCH + 1) (2 ^ 16 - 1) ∧
      (s.mode = .live ∨ s.mode = .limp ∧ s.pmu.limpShadow = false → s.pmu.handed = false → s.gate.released = false →
        t.gate = ⟨true, some (s.blk.index + 1, 2, true)⟩)) := by
  have heq : s.pwrFailDeassert = (let u := s.pwrFailEnded.bump R.PMU_PF_COUNT_GLITCH
      if s.pmu.handed = false ∧ u.outputsLive ∧ u.gate.released = false then u.rampOutputs (u.blk.index + 1) 2 true true else u) :=
    (if_pos h).trans (if_neg (by simp [hs]))
  have hcount : (s.pwrFailEnded.bump R.PMU_PF_COUNT_GLITCH).fld R.PMU_PF_COUNT_GLITCH = _ := State.fld_bump_same ..
  have hmode : (s.pwrFailEnded.bump R.PMU_PF_COUNT_GLITCH).mode = s.mode := State.mode_congr (State.fld_bump_ne _ _ (by decide))
  refine ⟨_, congrArg Host.Outcome.next heq, ?_⟩
  dsimp only
  split
  · exact ⟨rfl, hcount, fun _ _ _ => rfl⟩
  · next hn =>
    refine ⟨rfl, hcount, fun hlive hh hg => absurd ⟨hh, ?_, hg⟩ hn⟩
    rwa [State.outputsLive_iff, hmode]

theorem pwrFailDeassert_idle {s : State} (h : s.pmu.pwrFail = false) : exec .pwrFailDeassert s = .next s :=
  congrArg Host.Outcome.next (if_neg (by simp [h]))

/-! ### The restarts (R403, R405) -/

theorem State.wake_pmu {s : State} (hm : s.mode = .sentry) (hg : s.pmu.goal = []) (slot : Option Nat) : s.wake slot =
    { s with pmu := { s.pmu with goal := [2, 12], slot := slot, tripped := false, shut := false, ptpDone := false } } :=
  if_pos ⟨hm, hg⟩

theorem State.bit_railsGood (s : State) {rs : List Nat} {r : Nat} (hr : r ∈ rs) (hw : r < 11) :
    bit ((s.railsGood rs).fld R.PMU_RAIL_GOOD_GOOD) r = 1 := by
  rw [State.railsGood, State.fld_setFld_same, bit_mod hw, bit_foldl_withBit (.inl hr)]

theorem pfRestartWake_wakes {s : State} (hm : s.mode = .sentry) (hg : s.pmu.goal = []) (hs : s.pmu.shut = true) (hp : s.pmu.pwrFail = false)
    (hr : s.fld R.PMU_CTRL_PF_RESTART = 1) : Gives .pfRestartWake s (fun t =>
      t.pmu.goal = [2, 12] ∧ t.pmu.shut = false ∧ ∀ r ∈ mainRails, bit (t.fld R.PMU_RAIL_GOOD_GOOD) r = 1) := by
  have hmode : (s.railsGood mainRails).mode = .sentry := (State.mode_congr (s.fld_setFld_ne _ (by decide))).trans hm
  have hrails : ∀ r ∈ mainRails, r < 11 := by decide
  refine ⟨_, (if_pos ⟨hs, hp, hr⟩).trans (congrArg Host.Outcome.next (State.wake_pmu hmode hg none)), rfl, rfl, fun r hmem => ?_⟩
  exact s.bit_railsGood hmem (hrails r hmem)

theorem pfRestartWake_idle {s : State} (h : s.pmu.shut = false ∨ s.pmu.pwrFail = true ∨ s.fld R.PMU_CTRL_PF_RESTART ≠ 1) :
    exec .pfRestartWake s = .next s := by
  refine if_neg ?_
  rintro ⟨hs, hp, hr⟩
  simp [hs, hp, hr] at h

theorem thermRestartWake_wakes {s : State} (hm : s.mode = .sentry) (hg : s.pmu.goal = []) (ht : s.pmu.tripped = true)
    (hr : s.fld R.PMU_CTRL_THERM_RESTART = 1) (hcool : ∀ n < 16, s.tempOf n < 120 * 128) :
    Gives .thermRestartWake s (fun t => t.pmu.goal = [2, 12] ∧ t.pmu.tripped = false) :=
  have hall : (List.range 16).all (fun n => decide (s.tempOf n < 120 * 128)) = true := by simpa using hcool
  ⟨_, (if_pos ⟨ht, hr, hall⟩).trans (congrArg Host.Outcome.next (State.wake_pmu hm hg none)), rfl, rfl⟩

theorem thermRestartWake_idle {s : State}
    (h : s.pmu.tripped = false ∨ s.fld R.PMU_CTRL_THERM_RESTART ≠ 1 ∨ (∃ n < 16, 120 * 128 ≤ s.tempOf n)) :
    exec .thermRestartWake s = .next s := by
  refine if_neg ?_
  rintro ⟨ht, hr, hall⟩
  rcases h with h | h | ⟨n, hn, hhot⟩
  · rw [h] at ht; cases ht
  · exact h hr
  · have hcool := of_decide_eq_true (List.all_eq_true.mp hall n (List.mem_range.mpr hn))
    omega

/-! ### The PCIe link (R435) -/

theorem pcieLinkUp_shows {s : State} (h : s.domainOn 2 = true) {width speed : Nat} (hw : width < 16) (hs : speed < 16) :
    Turns (.pcieLinkUp width speed) s [R.HIF_LINK_UP, R.HIF_LINK_WIDTH, R.HIF_LINK_SPEED] s
      (fun t => t.fld R.HIF_LINK_UP = 1 ∧ t.fld R.HIF_LINK_WIDTH = width ∧ t.fld R.HIF_LINK_SPEED = speed) := by
  refine ⟨_, congrArg Host.Outcome.next (if_pos h),
    (((SameBut.refl _ s).setFld 1 (by simp)).setFld width (by simp)).setFld speed (by simp), ?_, ?_, ?_⟩
  · rw [State.fld_setFld_ne _ _ (by decide), State.fld_setFld_ne _ _ (by decide), State.fld_setFld_same]; rfl
  · rw [State.fld_setFld_ne _ _ (by decide), State.fld_setFld_same]; exact Nat.mod_eq_of_lt hw
  · rw [State.fld_setFld_same]; exact Nat.mod_eq_of_lt hs

theorem pcieLinkUp_off {s : State} (h : s.domainOn 2 = false) (width speed : Nat) : exec (.pcieLinkUp width speed) s = .next s :=
  congrArg Host.Outcome.next (if_neg (by simp [h]))

/-- Settles O60: a sample by its three steps, and power failure, restarts and link command by command. -/
theorem temperaturePowerFailureAndLink : Obligations.TemperaturePowerFailureAndLink := by
  refine ⟨fun s temps hl hr => ⟨_, rfl, tempSample_shows hl hr s⟩, fun s => ?_, fun s width speed d3 => ?_⟩
  · exact ⟨pwrFailAssert_first, pwrFailAssert_again, pwrFailShutdown_down, pwrFailShutdown_idle, pwrFailDeassert_shut, pwrFailDeassert_glitch,
      pwrFailDeassert_idle, fun hm hg => ⟨pfRestartWake_wakes hm hg, thermRestartWake_wakes hm hg⟩, pfRestartWake_idle, thermRestartWake_idle⟩
  · exact ⟨rfl, fun h hw hs => pcieLinkUp_shows h hw hs, fun h => pcieLinkUp_off h width speed⟩

end Sys2Proof.Machine
end

section
namespace Sys2Proof.Machine

/-! ### The states of the planes (R47, R48) -/

/-- A field other than the two plane states, by its key. -/
theorem planeFld_ne {f : Fld} (ha : f.key ≠ R.PEAL_STATUS_PLANE_A.key) (hb : f.key ≠ R.PEAL_STATUS_PLANE_B.key) (p : Nat) :
    f.key ≠ (planeFld p).key := by
  unfold planeFld
  split
  · exact ha
  · exact hb

theorem planeFld_other {p q : Nat} (h : p = 0 ↔ q ≠ 0) : (planeFld q).key ≠ (planeFld p).key := by
  unfold planeFld
  by_cases hq : q = 0
  · rw [if_pos hq, if_neg (fun hp => h.mp hp hq)]; decide
  · rw [if_neg hq, if_pos (h.mpr hq)]; decide

theorem planeFld_busy (p : Nat) : (planeFld p).key ≠ R.PEAL_STATUS_BUSY.key := Ne.symm (planeFld_ne (by decide) (by decide) p)

theorem planeFld_stage (p : Nat) : (planeFld p).key ≠ R.SYS_BOOT_STATUS_STAGE.key := Ne.symm (planeFld_ne (by decide) (by decide) p)

theorem planeFld_width (p : Nat) : (planeFld p).width = 4 := by
  unfold planeFld; split <;> rfl

theorem State.staged_cases (s : State) : s.staged = 0 ∨ s.staged = 1 := by
  unfold State.staged; split <;> omega

theorem State.staged_other (s : State) : s.staged = 0 ↔ 1 - s.staged ≠ 0 := by
  rcases s.staged_cases with h | h <;> simp [h]

theorem State.fld_setPlane_ne (s : State) {f : Fld} {p : Nat} (hf : f.key ≠ (planeFld p).key) (hb : f.key ≠ R.PEAL_STATUS_BUSY.key)
    (st : Nat) : (s.setPlane p st).fld f = s.fld f := by
  unfold State.setPlane
  rw [State.fld_setFld_ne _ _ hb, State.fld_setFld_ne _ _ hf]

theorem State.plane_setPlane_same (s : State) (p : Nat) {st : Nat} (hst : st < 16) : (s.setPlane p st).plane p = st := by
  unfold State.setPlane State.plane
  rw [State.fld_setFld_ne _ _ (planeFld_busy p), State.fld_setFld_same, planeFld_width]
  exact Nat.mod_eq_of_lt hst

theorem State.plane_setPlane_other (s : State) {p q : Nat} (h : p = 0 ↔ q ≠ 0) (st : Nat) : (s.setPlane p st).plane q = s.plane q :=
  s.fld_setPlane_ne (planeFld_other h) (planeFld_busy q) st

/-- BUSY while a plane is being loaded or verified (R65). -/
theorem State.busy_setPlane (s : State) {p st : Nat} (hp : p = 0 ∨ p = 1) (hst : st = plLoading ∨ st = plVerifying) :
    (s.setPlane p st).fld R.PEAL_STATUS_BUSY = 1 := by
  have hshown : (s.setFld (planeFld p) st).plane p = st := by
    rw [State.plane, State.fld_setFld_same, planeFld_width]
    rcases hst with rfl | rfl <;> rfl
  unfold State.setPlane
  dsimp only
  rw [State.fld_setFld_same, decide_eq_true]
  · rfl
  · rcases hp with rfl | rfl <;> rcases hst with rfl | rfl <;> simp [hshown]

theorem State.fld_bootStage_ne (s : State) {f : Fld} (hf : f.key ≠ R.SYS_BOOT_STATUS_STAGE.key) (n : Nat) : (s.bootStage n).fld f = s.fld f := by
  unfold State.bootStage
  split
  · exact State.fld_setFld_ne _ _ hf
  · rfl

/-! ### The staged plane goes to a state, and the boot to a stage (R48, R398) -/

/-- The staged plane shown in state `st`, and the boot at `stage` where it is the one that loads. -/
def State.turnStaged (s : State) (st stage : Nat) : State := (s.setPlane s.staged st).bootStage stage

section
variable (s : State)

theorem State.bootStage_eq (n : Nat) : s.bootStage n = { s with regs := (s.bootStage n).regs } := by
  unfold State.bootStage; split <;> rfl

theorem State.turnStaged_eq (st stage : Nat) : s.turnStaged st stage = { s with regs := (s.turnStaged st stage).regs } :=
  State.bootStage_eq _ stage

@[simp] theorem State.turnStaged_peal (st stage : Nat) : (s.turnStaged st stage).peal = s.peal := by rw [State.turnStaged_eq]
@[simp] theorem State.turnStaged_cfg (st stage : Nat) : (s.turnStaged st stage).cfg = s.cfg := by rw [State.turnStaged_eq]
@[simp] theorem State.turnStaged_mem (st stage : Nat) : (s.turnStaged st stage).mem = s.mem := by rw [State.turnStaged_eq]

theorem State.fld_turnStaged_ne {f : Fld} (ha : f.key ≠ R.PEAL_STATUS_PLANE_A.key) (hb : f.key ≠ R.PEAL_STATUS_PLANE_B.key)
    (hbusy : f.key ≠ R.PEAL_STATUS_BUSY.key) (hstage : f.key ≠ R.SYS_BOOT_STATUS_STAGE.key) (st stage : Nat) :
    (s.turnStaged st stage).fld f = s.fld f :=
  (State.fld_bootStage_ne _ hstage stage).trans (s.fld_setPlane_ne (planeFld_ne ha hb _) hbusy st)

theorem State.plane_turnStaged {st : Nat} (hst : st < 16) (stage : Nat) : (s.turnStaged st stage).plane s.staged = st :=
  (State.fld_bootStage_ne _ (planeFld_stage _) stage).trans (s.plane_setPlane_same s.staged hst)

theorem State.plane_turnStaged_other (st stage : Nat) : (s.turnStaged st stage).plane (1 - s.staged) = s.plane (1 - s.staged) :=
  (State.fld_bootStage_ne _ (planeFld_stage _) stage).trans (s.plane_setPlane_other s.staged_other st)

theorem State.busy_turnStaged {st : Nat} (hst : st = plLoading ∨ st = plVerifying) (stage : Nat) :
    (s.turnStaged st stage).fld R.PEAL_STATUS_BUSY = 1 :=
  (State.fld_bootStage_ne _ (by decide) stage).trans (s.busy_setPlane s.staged_cases hst)

end

section
variable {fs : List Fld} {u t : State}

theorem SameBut.turnStaged (h : SameBut fs u t) {p : Nat} (hp : t.staged = p) (hplane : planeFld p ∈ fs) (hbusy : R.PEAL_STATUS_BUSY ∈ fs)
    (hstage : R.SYS_BOOT_STATUS_STAGE ∈ fs) (st stage : Nat) : SameBut fs u (t.turnStaged st stage) := by
  subst hp
  have hset : SameBut fs u (t.setPlane t.staged st) := (h.setFld st hplane).setFld _ hbusy
  unfold State.turnStaged State.bootStage
  split
  · exact hset.setFld stage hstage
  · exact hset

theorem SameBut.withPeal (h : SameBut fs u t) (p : Peal) : SameBut fs { u with peal := p } { t with peal := p } := by
  refine ⟨h.1, ?_⟩
  conv_lhs => rw [h.2]

theorem SameBut.withMem (h : SameBut fs u t) (m : Mems) (c : Nat) :
    SameBut fs { u with mem := m, freeCtr := c } { t with mem := m, freeCtr := c } := by
  refine ⟨h.1, ?_⟩
  conv_lhs => rw [h.2]

end

/-! ### The host's requests, as the peal loader gets them (R49, R65) -/

section
variable (s : State)

theorem State.plane_touch (p : Nat) : (s.touch 0).plane p = s.plane p :=
  s.fld_touch_ne (Ne.symm (planeFld_ne (by decide) (by decide) p))

theorem State.staged_touch : (s.touch 0).staged = s.staged := by
  unfold State.staged State.livePlane
  rw [State.touch_cfg, s.fld_touch_ne (by decide)]

theorem State.mayLoad_touch : (s.touch 0).mayLoad = s.mayLoad := by
  unfold State.mayLoad
  rw [State.staged_touch, State.plane_touch, State.domainOn_touch s (by decide)]

end

/-- The fields that a load changes, with the host's outstanding requests. -/
def loadFlds (p : Nat) : List Fld := [R.XB_OUTSTANDING_PEAK 0, planeFld p, R.PEAL_STATUS_BUSY, R.SYS_BOOT_STATUS_STAGE]

theorem SameBut.touchStaged (s : State) (st stage : Nat) : SameBut (loadFlds s.staged) s ((s.touch 0).turnStaged st stage) :=
  ((SameBut.refl (loadFlds s.staged) s).touch (by simp [loadFlds])).turnStaged s.staged_touch (by simp [loadFlds]) (by simp [loadFlds])
    (by simp [loadFlds]) st stage

theorem State.plane_touchStaged (s : State) {st : Nat} (hst : st < 16) (stage : Nat) : ((s.touch 0).turnStaged st stage).plane s.staged = st := by
  have h := (s.touch 0).plane_turnStaged hst stage
  rwa [s.staged_touch] at h

/-! ### Loads by the host (R46, R49, R51, R53) -/

section
variable {s : State}

/-- A delta stands in plane `p` (R53). -/
def State.deltaIn (s : State) (p : Nat) : Bool :=
  let d := s.mem.dramRead (planeBase p + 0x1000000) 12
  decide (leAt d 0 4 = 0x4C414550 ∧ leAt d 11 1 = 1)

theorem State.loadHost_eq (h : s.mayLoad = true) : s.loadHost =
    let t := s.turnStaged plVerifying 4
    { t with peal := { t.peal with boot := false, delta := s.deltaIn s.staged } } := if_pos h

theorem State.startCopy_eq (s : State) (slot : Nat) : s.startCopy slot false =
    let t := s.turnStaged plLoading 3
    { t with peal := { t.peal with copy := some slot, boot := false } } := rfl

theorem pealLoadHost_verifies (h : HostReaches s 0x14060010) (hl : s.mayLoad = true) :
    ∃ t, exec .pealLoadHost s = .next (s.answered 0 .ok t) ∧ SameBut (loadFlds s.staged) { s with peal := t.peal } t ∧
      t.plane s.staged = plVerifying ∧ t.fld R.PEAL_STATUS_BUSY = 1 ∧
      t.peal = { s.peal with boot := false, delta := s.deltaIn s.staged } := by
  refine ⟨_, congrArg Host.Outcome.next (hostSet_reach h 1 (fun s => s.loadHost)), ?_⟩
  rw [State.loadHost_eq (s.mayLoad_touch.trans hl)]
  refine ⟨(SameBut.touchStaged s plVerifying 4).withPeal _, s.plane_touchStaged (by decide) 4, (s.touch 0).busy_turnStaged (.inr rfl) 4, ?_⟩
  simp only [State.turnStaged_peal, State.touch_peal, State.deltaIn, State.touch_mem, State.staged_touch]

theorem pealLoadFlash_copies (h : HostReaches s 0x14060010) (hl : s.mayLoad = true) {slot : Nat} (hs : slot < 4) :
    ∃ t, exec (.pealLoadFlash slot) s = .next (s.answered 0 .ok t) ∧ SameBut (loadFlds s.staged) { s with peal := t.peal } t ∧
      t.plane s.staged = plLoading ∧ t.fld R.PEAL_STATUS_BUSY = 1 ∧ t.peal = { s.peal with copy := some slot, boot := false } := by
  have hload : (s.touch 0).loadFlash (slot % 256) = (s.touch 0).startCopy slot false := by
    rw [Nat.mod_eq_of_lt (by omega)]
    exact (if_pos (s.mayLoad_touch.trans hl)).trans (if_neg (by omega))
  refine ⟨_, congrArg Host.Outcome.next (hostSet_reach h _ (fun s => s.loadFlash (slot % 256))), ?_⟩
  rw [hload, State.startCopy_eq]
  refine ⟨(SameBut.touchStaged s plLoading 3).withPeal _, s.plane_touchStaged (by decide) 3, (s.touch 0).busy_turnStaged (.inl rfl) 3, ?_⟩
  simp only [State.turnStaged_peal, State.touch_peal]

theorem State.err_reportFailure (s : State) {f : Failure} (hc : f.code < 2 ^ 16) :
    (s.reportFailure f).fld R.PEAL_VERIFY_RESULT_ERR = f.code := by
  rw [State.reportFailure, State.fld_raise_ne _ (by decide), State.fld_setFld_ne _ _ (by decide), State.fld_setFld_ne _ _ (by decide),
    State.fld_setFld_same]
  exact Nat.mod_eq_of_lt hc

theorem State.detail_reportFailure (s : State) {f : Failure} (hd : f.detail < 2 ^ 32) :
    (s.reportFailure f).fld R.PEAL_VERIFY_DETAIL_DETAIL = f.detail := by
  rw [State.reportFailure, State.fld_raise_ne _ (by decide), State.fld_setFld_same]
  exact Nat.mod_eq_of_lt hd

theorem State.flag_reportFailure (s : State) (f : Failure) : bit ((s.reportFailure f).fld R.PEAL_INT_STATUS_REJECTED) 0 = 1 :=
  State.fld_raise_same _ (by decide)

theorem pealLoadFlash_noSlot (h : HostReaches s 0x14060010) (hl : s.mayLoad = true) {slot : Nat} (hs : slot < 256) (hn : 3 < slot) :
    HostSets (.pealLoadFlash slot) s [R.PEAL_VERIFY_RESULT_ERR, R.PEAL_VERIFY_RESULT_INDEX, R.PEAL_VERIFY_DETAIL_DETAIL,
      R.PEAL_INT_STATUS_REJECTED] s (fun t => t.fld R.PEAL_VERIFY_RESULT_ERR = 0x0701 ∧ t.fld R.PEAL_VERIFY_DETAIL_DETAIL = slot ∧
        bit (t.fld R.PEAL_INT_STATUS_REJECTED) 0 = 1) := by
  have hload : (s.touch 0).loadFlash (slot % 256) = (s.touch 0).reportFailure ⟨0x0701, 0, slot⟩ := by
    rw [Nat.mod_eq_of_lt hs]
    exact (if_pos (s.mayLoad_touch.trans hl)).trans (if_pos hn)
  refine ⟨_, congrArg Host.Outcome.next (hostSet_reach h _ (fun s => s.loadFlash (slot % 256))), ?_⟩
  rw [hload]
  refine ⟨?_, State.err_reportFailure _ (show 0x0701 < 2 ^ 16 by decide), State.detail_reportFailure _ (show slot < 2 ^ 32 by omega),
    State.flag_reportFailure _ _⟩
  unfold State.reportFailure
  exact (((((SameBut.refl _ s).touch (by simp)).setFld _ (by simp)).setFld _ (by simp)).setFld _ (by simp)).raise (by simp)

end

/-! ### A load that is aborted (R48) -/

theorem State.bootStage_withMem (s : State) (m : Mems) (c n : Nat) :
    ({ s with mem := m, freeCtr := c } : State).bootStage n = { s.bootStage n with mem := m, freeCtr := c } := by
  have hmode : ({ s with mem := m, freeCtr := c } : State).mode = s.mode := rfl
  unfold State.bootStage
  rw [hmode]
  split <;> rfl

theorem State.turnStaged_withMem (s : State) (m : Mems) (c st stage : Nat) :
    ({ s with mem := m, freeCtr := c } : State).turnStaged st stage = { s.turnStaged st stage with mem := m, freeCtr := c } :=
  (s.setPlane s.staged st).bootStage_withMem m c stage

theorem State.loadAbort_loading {s : State} (h : s.plane s.staged = plLoading) : ∃ m, s.loadAbort =
    let t := s.turnStaged plModified 3
    { t with mem := m, freeCtr := s.freeCtr + 1, peal := { t.peal with copy := none, boot := false } } :=
  ⟨_, (if_pos h).trans (congrArg (fun t : State => { t with peal := { t.peal with copy := none, boot := false } })
    (s.turnStaged_withMem _ (s.freeCtr + 1) plModified 3))⟩

theorem State.loadAbort_verifying {s : State} (h : s.plane s.staged = plVerifying) : s.loadAbort =
    let t := s.turnStaged plModified 3
    { t with peal := { t.peal with boot := false } } :=
  (if_neg (by rw [h]; decide)).trans (if_pos h)

/-- An abort leaves the staged plane MODIFIED, and but for the bytes that had been copied nothing of it is seen elsewhere. -/
structure LoadAborted (s t : State) : Prop where
  staged : t.plane s.staged = plModified
  other : t.plane (1 - s.staged) = s.plane (1 - s.staged)
  boot : t.peal.boot = false
  cfgs : t.peal.cfgs = s.peal.cfgs
  mem : s.plane s.staged = plVerifying → t.mem = s.mem
  frame : SameBut (loadFlds s.staged) { s with peal := t.peal, mem := t.mem, freeCtr := t.freeCtr } t

theorem LoadAborted.of_turn (s : State) {m : Mems} (c : Nat) (hm : s.plane s.staged = plVerifying → m = s.mem) {p : Peal}
    (hboot : p.boot = false) (hcfgs : p.cfgs = s.peal.cfgs) :
    LoadAborted s { (s.touch 0).turnStaged plModified 3 with mem := m, freeCtr := c, peal := p } where
  staged := s.plane_touchStaged (by decide) 3
  other := by
    have h := (s.touch 0).plane_turnStaged_other plModified 3
    rw [s.staged_touch, s.plane_touch] at h
    exact h
  boot := hboot
  cfgs := hcfgs
  mem := hm
  frame := ((SameBut.touchStaged s plModified 3).withMem m c).withPeal p

theorem State.loadAbort_aborted {s : State} (h : s.plane s.staged = plLoading ∨ s.plane s.staged = plVerifying) :
    LoadAborted s (s.touch 0).loadAbort := by
  have hstaged : ∀ st, s.plane s.staged = st → (s.touch 0).plane (s.touch 0).staged = st := fun st hst => by
    rwa [s.staged_touch, s.plane_touch]
  rcases h with h | h
  · obtain ⟨m, hm⟩ := State.loadAbort_loading (hstaged _ h)
    rw [hm]
    exact .of_turn s _ (fun hv => absurd (h.symm.trans hv) (by decide)) rfl (by simp)
  · rw [State.loadAbort_verifying (hstaged _ h)]
    have hmem : ((s.touch 0).turnStaged plModified 3).mem = s.mem := by simp
    have hpeal : ((s.touch 0).turnStaged plModified 3).peal = s.peal := by simp
    exact .of_turn s _ (fun _ => hmem) (p := { ((s.touch 0).turnStaged plModified 3).peal with boot := false }) rfl
      (congrArg (·.cfgs) hpeal)

theorem pealLoadAbort_modifies {s : State} (h : HostReaches s 0x14060010) (hl : s.plane s.staged = plLoading ∨ s.plane s.staged = plVerifying) :
    ∃ t, exec .pealLoadAbort s = .next (s.answered 0 .ok t) ∧ LoadAborted s t :=
  ⟨_, congrArg Host.Outcome.next (hostSet_reach h 2 (fun s => s.loadAbort)), State.loadAbort_aborted hl⟩

/-! ### The end of a flash copy (R46) -/

/-- Byte `i` of a flash slot. -/
def State.slotImageByte (s : State) (slot i : Nat) : Byte := Tbl.get s.mem.flash (0x1800000 * slot + i) 0xFF

/-- The first `n` bytes of a flash slot. -/
def State.slotImage (s : State) (slot n : Nat) : List Byte := (List.range n).map (s.slotImageByte slot)

/-- The memory once `n` bytes of a flash slot are copied into the staged plane. -/
def State.copied (s : State) (slot n : Nat) : Mems := s.mem.dramWrite (planeBase s.staged) ((s.slotImage slot n).map some)

theorem State.dramByte_copied (s : State) (slot n : Nat) :
    (∀ i < n, (s.copied slot n).dramByte (planeBase s.staged + i) = s.slotImageByte slot i) ∧
    (∀ x, x < planeBase s.staged ∨ planeBase s.staged + n ≤ x → (s.copied slot n).dramByte x = s.mem.dramByte x) := by
  have hstored : s.mem.Stored (planeBase s.staged) ((s.slotImage slot n).map some) (s.copied slot n) := Mems.stored_dramWrite ..
  refine ⟨fun i hi => ?_, fun x hx => hstored.outside (by simpa [State.slotImage] using hx)⟩
  rw [hstored.inside]
  simp [State.slotImage, List.getD_eq_getElem?_getD, hi]

section
variable {s : State} {slot : Nat}

theorem State.copyDone_eq (hc : s.peal.copy = some slot) (hp : s.plane s.staged = plLoading) (hw : s.passage 2 0x18000000 = .forwarded)
    (hh : headerFailures (s.slotImage slot 0x100) 0xB1 = []) : s.copyDone =
      let t := s.turnStaged plVerifying 4
      { t with mem := s.copied slot (leAt (s.slotImage slot 0x100) 12 4), freeCtr := s.freeCtr,
               peal := { t.peal with copy := none, delta := false } } := by
  have hturn := s.turnStaged_withMem (s.copied slot (leAt (s.slotImage slot 0x100) 12 4)) s.freeCtr plVerifying 4
  unfold State.copyDone
  simp only [hc]
  rw [if_pos ⟨hp, hw⟩]
  split
  · exact congrArg (fun t : State => { t with peal := { t.peal with copy := none, delta := false } }) hturn
  · next hne => exact absurd hh hne

theorem flashCopyDone_verifies (hc : s.peal.copy = some slot) (hp : s.plane s.staged = plLoading)
    (hw : s.passage 2 0x18000000 = .forwarded) (hh : headerFailures (s.slotImage slot 0x100) 0xB1 = []) :
    Gives .flashCopyDone s (fun t => t.plane s.staged = plVerifying ∧ t.peal = { s.peal with copy := none, delta := false } ∧
      (∀ i : Nat, i < leAt (s.slotImage slot 0x100) 12 4 → t.mem.dramByte (planeBase s.staged + i) = s.slotImageByte slot i) ∧
      (∀ x : Nat, x < planeBase s.staged ∨ planeBase s.staged + leAt (s.slotImage slot 0x100) 12 4 ≤ x →
        t.mem.dramByte x = s.mem.dramByte x) ∧
      SameBut [planeFld s.staged, R.PEAL_STATUS_BUSY, R.SYS_BOOT_STATUS_STAGE] { s with peal := t.peal, mem := t.mem } t) := by
  obtain ⟨hin, hout⟩ := s.dramByte_copied slot (leAt (s.slotImage slot 0x100) 12 4)
  refine ⟨_, rfl, ?_⟩
  rw [State.copyDone_eq hc hp hw hh]
  refine ⟨s.plane_turnStaged (by decide) 4, ?_, hin, hout, ?_⟩
  · simp only [State.turnStaged_peal]
  · have hframe := (SameBut.refl [planeFld s.staged, R.PEAL_STATUS_BUSY, R.SYS_BOOT_STATUS_STAGE] s).turnStaged rfl (by simp) (by simp)
      (by simp) plVerifying 4
    exact (hframe.withMem _ s.freeCtr).withPeal _

end

/-- Settles O25: every load turns the staged plane to one state, and changes nothing else but the loader's own record and, by a copy,
memory. -/
theorem pealLoads : Obligations.PealLoads := by
  refine ⟨fun s hr hl => ⟨pealLoadHost_verifies hr hl, fun slot => pealLoadFlash_copies hr hl, fun slot => pealLoadFlash_noSlot hr hl⟩,
    fun s hr hl => ?_, fun s slot hc hp hw => flashCopyDone_verifies hc hp hw⟩
  obtain ⟨t, hexec, ha⟩ := pealLoadAbort_modifies hr hl
  exact ⟨t, hexec, ha.staged, ha.other, ha.boot, ha.cfgs, ha.mem, ha.frame⟩

end Sys2Proof.Machine
end

section
namespace Sys2Proof.Machine

/-! ### What an engine that takes a plane leaves alone (R47, R65) -/

/-- The live structure and PEAL_STATUS are in `t` as in `s`. -/
structure PlanesKept (s t : State) : Prop where
  cfg : t.cfg = s.cfg
  status : ∀ f : Fld, f.key / 32 = 0x14060014 → t.fld f = s.fld f

namespace PlanesKept

theorem refl (s : State) : PlanesKept s s := ⟨rfl, fun _ _ => rfl⟩

variable {s t u : State}

theorem trans (h : PlanesKept s t) (h' : PlanesKept t u) : PlanesKept s u :=
  ⟨h'.cfg.trans h.cfg, fun f hf => (h'.status f hf).trans (h.status f hf)⟩

/-- A change beside the structure and the register file. -/
theorem congr (h : PlanesKept s t) (hc : u.cfg = t.cfg) (hr : u.regs = t.regs) : PlanesKept s u :=
  h.trans ⟨hc, fun f _ => State.fld_congr hr f⟩

/-- Two fields of different registers. -/
theorem addr_apart {f g : Fld} (hf : f.key / 32 = 0x14060014) (hg : 0x14070000 ≤ g.addr) : f.key ≠ g.key := by
  simp only [Fld.key] at *
  omega

/-- The registers of the engines lie above those of the peal loader (R35). -/
theorem setFld (h : PlanesKept s t) {g : Fld} (v : Nat) (hg : 0x14070000 ≤ g.addr) : PlanesKept s (t.setFld g v) :=
  h.trans ⟨rfl, fun _ hf => State.fld_setFld_ne _ _ (addr_apart hf hg)⟩

/-- Those of the islands, of the boot and of the block sequencer lie below. -/
theorem setFld_below (h : PlanesKept s t) {g : Fld} (v : Nat) (hg : g.addr < 0x14060000 ∧ g.lo < 32) : PlanesKept s (t.setFld g v) :=
  h.trans ⟨rfl, fun f hf => State.fld_setFld_ne _ _ (by simp only [Fld.key] at *; omega)⟩

theorem bump (h : PlanesKept s t) {g : Fld} (n : Nat) (hg : 0x14070000 ≤ g.addr) : PlanesKept s (t.bump g n) :=
  h.trans ⟨State.bump_cfg .., fun _ hf => State.fld_bump_ne _ _ (addr_apart hf hg)⟩

theorem raise (h : PlanesKept s t) {g : Fld} (hg : 0x14070000 ≤ g.addr) : PlanesKept s (t.raise g) :=
  h.trans ⟨State.raise_cfg .., fun _ hf => State.fld_raise_ne _ (addr_apart hf hg)⟩

theorem foldl {α : Type} {f : State → α → State} (h : PlanesKept s t) (xs : List α) (hf : ∀ u, ∀ x ∈ xs, PlanesKept u (f u x)) :
    PlanesKept s (xs.foldl f t) :=
  List.foldlRecOn (motive := PlanesKept s) xs f h fun u hu x hx => hu.trans (hf u x hx)

theorem setFlds (h : PlanesKept s t) (l : List (Fld × Nat)) (hl : ∀ p ∈ l, 0x14070000 ≤ p.1.addr) :
    PlanesKept s (l.foldl (fun s p => s.setFld p.1 p.2) t) :=
  h.foldl l fun u p hp => (refl u).setFld p.2 (hl p hp)

theorem clearFlds (h : PlanesKept s t) (l : List Fld) (hl : ∀ f ∈ l, 0x14070000 ≤ f.addr) : PlanesKept s (t.clearFlds l) :=
  h.foldl l fun u f hf => (refl u).setFld 0 (hl f hf)

theorem ite {c : Prop} [Decidable c] (ht : PlanesKept s t) (hu : PlanesKept s u) : PlanesKept s (if c then t else u) := by
  split
  · exact ht
  · exact hu

/-! What stands beside the structure and the register file, one store at a time. -/

variable (h : PlanesKept s t)
include h

theorem setForce (f : Fld) (v : Nat) : PlanesKept s (t.setForce f v) := h.congr rfl rfl
theorem random : PlanesKept s t.random.2 := h.congr rfl rfl
theorem setBus (k b : Nat) (v : BusBlk) : PlanesKept s (t.setBus k b v) := h.congr rfl rfl
theorem setOutF (o : Nat) (x : OutFactor) : PlanesKept s (t.setOutF o x) := h.congr rfl rfl
theorem setCoefs (n : Nat) (cs : List Int) : PlanesKept s (t.setCoefs n cs) := h.congr rfl rfl
theorem setCore (g : Nat) (x : Core) : PlanesKept s (t.setCore g x) := h.congr rfl rfl
theorem putProg (p : MalProg) : PlanesKept s (t.putProg p) := h.congr rfl rfl
theorem putDatas (d : MalData) : PlanesKept s (t.putDatas d) := h.congr rfl rfl
theorem putCluster (m : ClusterRec) : PlanesKept s (t.putCluster m) := h.congr rfl rfl
theorem setInS (n : Nat) (x : InStream) : PlanesKept s (t.setInS n x) := h.congr rfl rfl
theorem setOutS (n : Nat) (x : OutStream) : PlanesKept s (t.setOutS n x) := h.congr rfl rfl
theorem setUnit (u : Nat) (d : PortDir) : PlanesKept s (t.setUnit u d) := h.congr rfl rfl
theorem setBchan (n : Nat) (x : BeatChan) : PlanesKept s (t.setBchan n x) := h.congr rfl rfl
theorem setBrail (r : Nat) (x : BeatRail) : PlanesKept s (t.setBrail r x) := h.congr rfl rfl
theorem setLine (l : Nat) (x : DplLine) : PlanesKept s (t.setLine l x) := h.congr rfl rfl
theorem setClvSlot (n : Nat) (x : ClvSlot) : PlanesKept s (t.setClvSlot n x) := h.congr rfl rfl
theorem putInits (is : List InitRec) : PlanesKept s (t.putInits is) := h.congr rfl rfl
theorem withCln (x : Cln) : PlanesKept s { t with cln := x } := h.congr rfl rfl
theorem withChm (x : Chm) : PlanesKept s { t with chm := x } := h.congr rfl rfl
theorem withPorts (x : Ports) : PlanesKept s { t with ports := x } := h.congr rfl rfl
theorem withFlm (x : Flm) : PlanesKept s { t with flm := x } := h.congr rfl rfl
theorem withPmu (x : Pmu) : PlanesKept s { t with pmu := x } := h.congr rfl rfl

end PlanesKept

section
variable (s : State) (c : Cfg)
open PlanesKept

/-! ### Carillon and Chimes (R93, R100, R108, R125, R128) -/

theorem State.clnRegs_planes : PlanesKept s (s.clnRegs c) := by
  unfold State.clnRegs
  split
  · exact (refl s).clearFlds _ (by decide)
  · exact (refl s).setFlds _ (by simp)

theorem State.settleOut_planes (o : Nat) : PlanesKept s (s.settleOut o) := by
  refine ((((refl s).setFld _ ?_).setFld _ ?_).setFld _ ?_).setOutF _ _
  all_goals dsimp only; omega

theorem State.startOut_planes (g : ClnGeom) (o : Nat) : PlanesKept s (s.startOut g o) := by
  refine ((((((refl s).setFld _ ?_).setFld _ ?_).setFld _ ?_).setOutF _ _).trans (State.settleOut_planes _ o)).setOutF _ _ |>.setFld _ ?_
  all_goals dsimp only; omega

theorem State.clnLoad_planes : PlanesKept s (s.clnLoad c) := by
  unfold State.clnLoad
  dsimp only
  split
  · exact (s.clnRegs_planes c).withCln _
  · exact ((s.clnRegs_planes c).withCln _).foldl _ fun u o _ => u.startOut_planes _ o

theorem State.chmRegs_planes : PlanesKept s (s.chmRegs c) := by
  refine (refl s).setFlds _ ?_
  simp

theorem State.chmLoad_planes : PlanesKept s (s.chmLoad c) := ((s.chmRegs_planes c).withChm _).setCoefs 0 c.coeffs

/-! ### Mallet (R139, R140, R156, R173) -/

/-- A cluster's core registers do not hold those of the peal loader. -/
theorem State.fld_filter_ccr (cl : Nat) {f : Fld} (hf : f.key / 32 = 0x14060014) :
    Tbl.get (s.regs.filter (fun e => !ccrKey cl e.1)) f.key f.rst = s.fld f := by
  have hkeep : ccrKey cl f.key = false := decide_eq_false (by rw [hf]; omega)
  rw [Tbl.get, Tbl.find_filter_of_keep fun _ => by simp only [hkeep, Bool.not_false]]
  rfl

theorem State.malLoad_planes (cl : Nat) : PlanesKept s (s.malLoad c cl) := by
  unfold State.malLoad
  refine PlanesKept.setFld (.foldl (.foldl (.foldl ?_ _ fun u p _ => (refl u).putProg p) _ fun u d _ => (refl u).putDatas d) _
    fun u m _ => (refl u).putCluster m) _ (Nat.le_add_right_of_le (by decide))
  exact ⟨rfl, fun f hf => s.fld_filter_ccr cl hf⟩

theorem State.endWait_planes (g : Nat) : PlanesKept s (s.endWait g) := ((refl s).setCore _ _).ite (refl s)

theorem State.addCycles_planes (g n : Nat) : PlanesKept s (s.addCycles g n) := by
  have hcounted := (refl s).bump (g := R.CCR_CYCLES_COUNT g) n (by dsimp only; omega)
  unfold State.addCycles
  refine hcounted.ite ((((hcounted.setFld _ ?_).setFld _ ?_).trans (State.endWait_planes _ g)).ite (hcounted.setFld _ ?_))
  all_goals dsimp only; omega

theorem State.raiseSource_planes (g src : Nat) : PlanesKept s (s.raiseSource g src) := by
  have hpend : PlanesKept s (s.pendSource g src) := (refl s).setFld _ (by dsimp only; omega)
  have hdrawn : PlanesKept s (s.pendSource g src).fresh.2 := hpend.congr rfl rfl
  unfold State.raiseSource
  exact ((hdrawn.trans (State.addCycles_planes _ g _)).trans (State.endWait_planes _ g)).ite hpend

theorem State.raiseMask_planes (cl src mask : Nat) : PlanesKept s (s.raiseMask cl src mask) :=
  (refl s).foldl _ fun u n _ => (u.raiseSource_planes (16 * cl + n) src).ite (refl u)

/-! ### The network (R275, R283) -/

theorem State.inTake_planes (r : StreamRec) : PlanesKept s (s.inTake r) := by
  unfold State.inTake
  refine ((((refl s).setInS _ _).foldl _ fun u ch _ => ((refl u).setBus _ _ _).setBus _ _ _).setFld _ ?_).setFld _ ?_
  all_goals dsimp only; omega

theorem State.outTake_planes (r : StreamRec) (quiet settled : Nat) : PlanesKept s (s.outTake c r quiet settled) := by
  unfold State.outTake
  refine ((((((refl s).random.setOutS _ _).setFld _ ?_).setFld _ ?_).setFld _ ?_).setFld _ ?_).setFld _ ?_
  all_goals dsimp only; omega

theorem State.netLoad_planes : PlanesKept s (s.netLoad c) :=
  (refl s).foldl _ fun u r _ => (u.outTake_planes c r _ _).ite (u.inTake_planes r)

/-! ### Ports and bridges (R78, R258) -/

theorem stateFld_addr (u : Nat) : 0x14070000 ≤ (stateFld u).addr := by
  unfold stateFld
  split
  · dsimp only; omega
  · split <;> (dsimp only; omega)

theorem PlanesKept.setUnitState {s t : State} (h : PlanesKept s t) (u st : Nat) : PlanesKept s (t.setUnitState u st) :=
  h.setFld st (stateFld_addr u)

theorem State.prtCfg_planes (n : Nat) (r : PrtRec) : PlanesKept s (s.prtCfg n r) := by
  unfold State.prtCfg
  refine (((((((((refl s).setFld _ ?_).setFld _ ?_).setFld _ ?_).setFld _ ?_).setFld _ ?_).setFld _ ?_).setFld _ ?_).setFld _ ?_).setFld _ ?_
  all_goals dsimp only; omega

theorem State.aesCfg_planes (n : Nat) (r : AesRec) : PlanesKept s (s.aesCfg n r) := by
  unfold State.aesCfg
  refine PlanesKept.setFld (.setFld (.setFld (.setFld (.setFld (.setFld (.setFld (.setFld (.setFld (.setFld (refl s) _ ?_) _ ?_) _ ?_)
    _ ?_) _ ?_) _ ?_) _ ?_) _ ?_) _ ?_) _ ?_
  all_goals dsimp only; omega

theorem State.prtTake_planes (r : PrtRec) : PlanesKept s (s.prtTake r) := by
  unfold State.prtTake
  refine (((((((refl s).withPorts _).trans (State.prtCfg_planes _ _ r)).setFld _ ?_).setFld _ ?_).setFld _ ?_).setFld _ ?_).setUnit _ _
    |>.setUnitState _ _
  all_goals dsimp only; omega

theorem State.aesTake_planes (r : AesRec) : PlanesKept s (s.aesTake r) := by
  unfold State.aesTake
  refine ((((((refl s).withPorts _).trans (State.aesCfg_planes _ _ r)).setFld _ ?_).setFld _ ?_).setUnit _ _).setUnitState _ _
    |>.setUnit _ _ |>.setUnitState _ _
  all_goals dsimp only; omega

theorem State.portsLoad_planes : PlanesKept s (s.portsLoad c) := by
  unfold State.portsLoad
  refine ((refl s).foldl _ fun u r _ => (u.prtTake_planes r).setFld _ ?_).foldl _ fun u r _ =>
    ((u.aesTake_planes r).setFld _ ?_).setFld _ ?_
  all_goals dsimp only; omega

theorem State.brgTake_planes (keep : List Nat) : PlanesKept s (s.brgTake c keep) := by
  unfold State.brgTake
  refine ((((refl s).setFld _ (by decide)).setFld _ (by decide)).setFld _ (by decide)).foldl _ fun u i _ => ?_
  refine PlanesKept.ite (((refl u).setFld _ ?_).setFld _ ?_) ((((refl u).setFld _ ?_).setFld _ ?_).setFld _ ?_)
  all_goals dsimp only; omega

/-! ### Beater (R321, R339) -/

theorem beatChanZero_addr (n : Nat) : ∀ f ∈ beatChanZero n, 0x14070000 ≤ f.addr := by
  simp only [beatChanZero, List.forall_mem_cons, List.not_mem_nil, false_imp_iff, implies_true, and_true]
  omega

theorem State.beatChanRegs_planes (r : BeatChanRec) : PlanesKept s (s.beatChanRegs r) := by
  unfold State.beatChanRegs
  refine ((((((((refl s).setFld _ ?_).setFld _ ?_).setFld _ ?_).setFld _ ?_).setFld _ ?_).setFld _ ?_).setFld _ ?_).setFld _ ?_
  all_goals dsimp only; omega

theorem State.beatTake_planes (r : BeatChanRec) : PlanesKept s (s.beatTake r) := by
  unfold State.beatTake
  refine (((((refl s).setBchan _ _).clearFlds _ (beatChanZero_addr _)).trans (State.beatChanRegs_planes _ r)).setFld _ ?_).setFld _ ?_
    |>.setFld _ ?_ |>.setFld _ ?_
  all_goals dsimp only; omega

/-- A rail's record shown in its registers. -/
theorem State.railShown_planes (r : Nat) (x : BeatRail) (hi lo cap margin rise fall rails : Nat) :
    PlanesKept s ((((((((s.setBrail r x).setFld (R.BEAT_RAIL_CFG_RAIL_MAX r) hi).setFld (R.BEAT_RAIL_CFG_RAIL_MIN r) lo).setFld
      (R.BEAT_RAIL_MARGIN_FAULT_CAP r) cap).setFld (R.BEAT_RAIL_MARGIN_MARGIN r) margin).setFld (R.BEAT_RAIL_SLEW_RISE r) rise).setFld
      (R.BEAT_RAIL_SLEW_FALL r) fall).setFld R.BEAT_GRID_RAILS rails) := by
  refine ((((((((refl s).setBrail _ x).setFld _ ?_).setFld _ ?_).setFld _ ?_).setFld _ ?_).setFld _ ?_).setFld _ ?_).setFld _ ?_
  all_goals dsimp only; omega

theorem State.railTake_planes (k : BeatRailRec) : PlanesKept s (s.railTake k) := by
  unfold State.railTake
  exact ((s.railShown_planes ..).setFld _ (Nat.le_add_right_of_le (by decide))).ite (s.railShown_planes ..)

theorem State.beatLoad_planes : PlanesKept s (s.beatLoad c) := by
  have hnone : PlanesKept s { s with beat := ⟨[], [], []⟩ } := (refl s).congr rfl rfl
  unfold State.beatLoad
  exact (((hnone.clearFlds _ (by decide)).foldl _ fun u r _ => u.beatTake_planes r).foldl _ fun u k _ => u.railTake_planes k).setFld _
    (by decide)

/-! ### The delay pool (R201, R214) -/

theorem State.clearLineEntry_planes (l : Nat) : PlanesKept s (s.clearLineEntry l) := by
  refine (refl s).clearFlds _ ?_
  simp only [List.forall_mem_cons, List.not_mem_nil, false_imp_iff, implies_true, and_true]
  omega

theorem State.newLine_planes (r : LineRec) : PlanesKept s (s.newLine r) := by
  unfold State.newLine State.lineEntry
  refine (((((s.clearLineEntry_planes _).setFld _ ?_).setFld _ ?_).setFld _ ?_).setFld _ ?_).setLine _ _ |>.setFld _ ?_
  all_goals dsimp only; omega

theorem State.dplRegs_planes : PlanesKept s (s.dplRegs c) := by
  refine (refl s).setFlds _ ?_
  simp

theorem State.dplLoad_planes : PlanesKept s (s.dplLoad c) := by
  have hnone : PlanesKept s { s with dpl := { s.dpl with lines := [], filling := [], rtUsed := [] } } := (refl s).congr rfl rfl
  unfold State.dplLoad
  refine ((hnone.clearFlds _ fun f hf => ?_).trans (State.dplRegs_planes _ c)).foldl _ fun u r _ => u.newLine_planes r
  obtain ⟨l, -, rfl⟩ := List.mem_map.mp hf
  exact Nat.le_add_right_of_le (by decide)

theorem State.domainLoad_planes (d : Nat) : PlanesKept s (s.domainLoad c d) := by
  unfold State.domainLoad
  split
  · exact s.clnLoad_planes c
  · exact s.chmLoad_planes c
  · exact s.malLoad_planes c 0
  · exact s.malLoad_planes c 1
  · exact s.malLoad_planes c 2
  · exact s.malLoad_planes c 3
  · exact s.netLoad_planes c
  · exact (s.portsLoad_planes c).trans (State.brgTake_planes _ c [])
  · exact s.beatLoad_planes c
  · exact s.dplLoad_planes c
  · exact refl s

/-! ### Clave (R299, R303, R312, R313) -/

theorem PlanesKept.refHist {s t : State} (h : PlanesKept s t) (f : Fld) (hf : 0x14070000 ≤ f.addr) : PlanesKept s (t.refHist f) :=
  (h.setFld 1 hf).raise (by decide)

theorem State.setRef_planes (n st : Nat) : PlanesKept s (s.setRef n st) := by
  have hshown := ((refl s).setFld (g := R.CLV_REF_STATE_STATE n) st (by dsimp only; omega)).setClvSlot n { s.clvSlot n with clear := 0 }
  have hcounted := (hshown.bump (g := R.CLV_REF_LOSS_COUNT_COUNT n) 1 (by dsimp only; omega)).ite (c := s.refState n = 4) hshown
  have hrestart := (hcounted.refHist (R.CLV_REF_HIST_WTR_RESTART n) (by dsimp only; omega)).ite
    (c := s.refState n = 3 ∧ (st = 1 ∨ st = 2)) hcounted
  have hleft := fun v => hrestart.setFld (g := R.CLV_REF_STATE_WTR_LEFT n) v (by dsimp only; omega)
  unfold State.setRef
  dsimp only
  refine (refl s).ite ?_
  split
  · exact (hleft _).refHist _ (by dsimp only; omega)
  · exact (hleft _).refHist _ (by dsimp only; omega)
  · exact ((hleft _).setClvSlot _ _).refHist _ (by dsimp only; omega)
  · exact hleft _

theorem State.refCtrl_planes (n enable rank wtr : Nat) : PlanesKept s (s.refCtrl n enable rank wtr) := by
  have hleft : ∀ (p : Prop) [Decidable p] (v : Nat), PlanesKept s
      (let t := ((s.setFld (R.CLV_REF_CTRL_ENABLE n) enable).setFld (R.CLV_REF_CTRL_RANK n) rank).setFld (R.CLV_REF_CTRL_WTR_S n) wtr
       if p then t.setFld (R.CLV_REF_STATE_WTR_LEFT n) v else t) := fun p _ v => by
    refine PlanesKept.ite ((((refl s).setFld _ ?_).setFld _ ?_).setFld _ ?_ |>.setFld _ ?_) ((((refl s).setFld _ ?_).setFld _ ?_).setFld _ ?_)
    all_goals dsimp only; omega
  unfold State.refCtrl
  exact ((hleft _ _).trans (State.setRef_planes _ n 0)).ite (((hleft _ _).trans (State.setRef_planes _ n 1)).ite (hleft _ _))

theorem State.refTake_planes (n : Nat) (r : RefRec) : PlanesKept s (s.refTake n r) := by
  have hcfg : PlanesKept s ((((((s.setFld (R.CLV_REF_CFG_TYPE n) r.type).setFld (R.CLV_REF_CFG_INDEX n) r.index).setFld
      (R.CLV_REF_CFG_BW n) r.bw).setFld (R.CLV_REF_CFG_DOMAIN n) r.domainB).setFld (R.CLV_REF_THRESH_HARD_PPB n) r.hardPpb).setFld
      (R.CLV_REF_THRESH_SOFT_PPB n) r.softPpb) := by
    refine ((((((refl s).setFld _ ?_).setFld _ ?_).setFld _ ?_).setFld _ ?_).setFld _ ?_).setFld _ ?_
    all_goals dsimp only; omega
  have hcounted := (hcfg.bump (g := R.CLV_REF_LOSS_COUNT_COUNT n) 1 (by dsimp only; omega)).ite (c := s.refState n = 4) hcfg
  have hstate := fun st x => ((((hcounted.setFld (g := R.CLV_REF_STATE_SOFT n) 0 (by dsimp only; omega)).setFld
    (g := R.CLV_REF_STATE_STATE n) st (by dsimp only; omega)).setFld (g := R.CLV_REF_STATE_WTR_LEFT n) 0 (by dsimp only; omega)).setClvSlot
    n x)
  unfold State.refTake
  exact (hstate _ _).ite ((hstate _ _).refHist _ (by dsimp only; omega))

theorem State.clvCtrl_planes (mode nonrevert hold force : Nat) : PlanesKept s (s.clvCtrl mode nonrevert hold force) := by
  have hset : ∀ v, PlanesKept s (((((s.setFld R.CLV_CTRL_MODE mode).setFld R.CLV_CTRL_NONREVERT nonrevert).setFld R.CLV_CTRL_PHASE_HOLD
      hold).setFld R.CLV_CTRL_FORCE_SLOT force).setFld R.CLV_STATE_MODE v) := fun v => by
    refine (((((refl s).setFld _ ?_).setFld _ ?_).setFld _ ?_).setFld _ ?_).setFld _ ?_
    all_goals decide
  unfold State.clvCtrl
  exact (hset _).ite ((hset _).setFld _ (by decide))

theorem State.clvCtrlTake_planes (k : ClockRec) : PlanesKept s (s.clvCtrlTake k) :=
  (s.clvCtrl_planes k.mode k.nonrevert k.phaseHold k.forceSlot).setFld _ (by decide)

theorem wcSetFlds_addr (n : Nat) : ∀ f ∈ wcSetFlds n, 0x14070000 ≤ f.addr := by
  simp only [wcSetFlds, List.forall_mem_cons, List.not_mem_nil, false_imp_iff, implies_true, and_true]
  omega

theorem State.wcTake_planes (n : Nat) (r : WcRec) : PlanesKept s (s.wcTake n r) := by
  unfold State.wcTake State.wcStart
  refine PlanesKept.setFld ((refl s).foldl _ fun u p hp => ?_) _ (by dsimp only; omega)
  exact ((refl u).setFld _ (wcSetFlds_addr n p.1 (List.of_mem_zip hp).1)).setForce _ _

theorem State.clvLoad_planes (k : ClockRec) : PlanesKept s (s.clvLoad k) := by
  have hnone : PlanesKept s { s with clv := ⟨[], none, 0, [], 0, 0, 0, false, false, false, 0⟩ } := (refl s).congr rfl rfl
  unfold State.clvLoad
  refine PlanesKept.foldl ?_ _ fun u p _ => u.wcTake_planes p.2 p.1
  refine ((((((((PlanesKept.trans ?_ (State.clvCtrlTake_planes _ k)).setFld _ ?_).setFld _ ?_).setFld _ ?_).setFld _ ?_).setFld _ ?_).setFld _
    ?_).setFld _ ?_).setFld _ ?_
  · exact hnone.foldl _ fun u p _ => (u.refTake_planes p.2 p.1).trans (State.refCtrl_planes _ _ _ _ _)
  all_goals decide

/-! ### The block sequencer, the PLLs, Flam and the islands (R13, R14, R89, R317, R318, R320) -/

theorem State.blkRegs_planes : PlanesKept s (s.blkRegs c) := by
  unfold State.blkRegs
  refine ((((refl s).setFld_below _ (by decide)).setFld_below _ (by decide)).setFld_below _ (by decide)).foldl _ fun u i hi => ?_
  have hlt := List.mem_range.mp hi
  refine ((refl u).setFld_below _ ?_).setFld_below _ ?_
  all_goals dsimp only; omega

theorem State.pllRegs_planes (mclk : Bool) : PlanesKept s (s.pllRegs c mclk) := by
  have hvco : PlanesKept s ([(0, c.sys.pll00Khz), (1, 3145728), (2, 2890138), (3, 2000000)].foldl
      (fun s p => s.setFld (R.PLL_VCO_KHZ_KHZ p.1) p.2) s) :=
    (refl s).foldl _ fun u p _ => (refl u).setFld _ (Nat.le_add_right_of_le (by decide))
  unfold State.pllRegs
  refine PlanesKept.ite (hvco.foldl _ fun u p _ => ?_) hvco
  refine ((((refl u).setFld _ ?_).setForce _ _).setFld _ ?_).setForce _ _
  all_goals dsimp only; omega

theorem State.flmRegs_planes : PlanesKept s (s.flmRegs c) :=
  (((refl s).setFld _ (by decide)).setFld _ (by decide)).setFld _ (by decide)

theorem State.dividers_planes : PlanesKept s (s.dividers c) := by
  refine (refl s).foldl _ fun u i hi => ?_
  have hlt := List.mem_range.mp hi
  exact ((refl u).setFld_below _ (by dsimp only; omega)).ite (refl u)

theorem State.toFallback_planes : PlanesKept s s.toFallback := by
  unfold State.toFallback
  refine PlanesKept.setFld ((refl s).foldl _ fun u i hi => ?_) _ (by decide)
  have hlt := List.mem_range.mp (List.mem_filter.mp hi).1
  have hsrc := ((refl u).setFld_below (g := R.SYS_ISLAND_CLK_SRC i) 1 (by dsimp only; omega)).setFld_below
    (g := R.SYS_ISLAND_FALLBACK_SEEN i) 1 (by dsimp only; omega)
  exact (refl u).ite ((hsrc.trans (State.raiseMask_planes _ _ _ _)).ite hsrc)

theorem State.pllSearch_planes (n : Nat) : PlanesKept s (s.pllSearch n) :=
  ((refl s).setFld _ (Nat.le_add_right_of_le (by decide))).setFld _ (Nat.le_add_right_of_le (by decide))

theorem State.startPll_planes (n : Nat) : PlanesKept s (s.startPll n) := (refl s).ite (s.pllSearch_planes n)

theorem State.movePll00_planes (fromKhz toKhz : Nat) : PlanesKept s (s.movePll00 fromKhz toKhz) := by
  unfold State.movePll00
  exact ((s.toFallback_planes.trans (State.pllSearch_planes _ 0)).withPmu _).ite (refl s)

/-! ### Every engine takes the plane, and the boot goes on (R47, R398) -/

theorem State.loadAll_planes : PlanesKept { s with cfg := some c } (s.loadAll c) := by
  have hpanel : PlanesKept { s with cfg := some c } { s with cfg := some c, panel := { s.panel with inForce := 0 } } := (refl _).congr rfl rfl
  have hinits := ((hpanel.setFld (g := R.TAP_MUTE_KEY_MUTED) 0 (by decide)).putInits c.inits).trans (State.dividers_planes _ c)
  have hdomains := hinits.foldl (List.range 13) (f := fun s d => s.domainLoad c d) fun u d _ => u.domainLoad_planes c d
  unfold State.loadAll
  exact ((((hdomains.trans (State.clvLoad_planes _ c.clock)).trans (State.blkRegs_planes _ c)).trans
    (State.pllRegs_planes _ c true)).trans (State.flmRegs_planes _ c)).withFlm _

theorem State.bootGoesOn_planes : PlanesKept s (s.bootGoesOn c) := by
  have hstage := (refl s).setFld_below (g := R.SYS_BOOT_STATUS_STAGE) 5 (by decide)
  have hpll := fun p => ((hstage.withPmu p).trans (State.movePll00_planes _ 2000000 c.sys.pll00Khz)).trans (State.startPll_planes _ 1)
  unfold State.bootGoesOn
  exact (hpll _).ite ((hpll _).trans (State.startPll_planes _ 2))

end

end Sys2Proof.Machine
end

section
namespace Sys2Proof.Machine

/-! ### A hash as the loader shows it (R65) -/

section
variable (s : State) (f : Nat → Fld) (h : List Byte)

theorem State.setHash_keeps {α : Type} (p : State → α) (hp : ∀ (u : State) (g : Fld) (v : Nat), p (u.setFld g v) = p u) :
    p (s.setHash f h) = p s :=
  List.foldlRecOn (motive := fun t => p t = p s) (List.range 8) _ rfl fun u hu _ _ => (hp u _ _).trans hu

@[simp] theorem State.setHash_cfg : (s.setHash f h).cfg = s.cfg := s.setHash_keeps f h (·.cfg) fun _ _ _ => rfl
@[simp] theorem State.setHash_mem : (s.setHash f h).mem = s.mem := s.setHash_keeps f h (·.mem) fun _ _ _ => rfl
@[simp] theorem State.setHash_peal : (s.setHash f h).peal = s.peal := s.setHash_keeps f h (·.peal) fun _ _ _ => rfl

theorem State.fld_setHash_ne {g : Fld} (hg : ∀ n < 8, g.key ≠ (f n).key) : (s.setHash f h).fld g = s.fld g :=
  List.foldlRecOn (motive := fun t => State.fld t g = s.fld g) (List.range 8) _ rfl fun u hu n hn =>
    (State.fld_setFld_ne u _ (hg n (List.mem_range.mp hn))).trans hu

end

/-! ### An image that passes (R47, R50) -/

/-- The staged plane shown as VERIFIED, with no failure. -/
def State.passCleared (s : State) : State :=
  (((s.setPlane s.staged plVerified).setFld R.PEAL_VERIFY_RESULT_ERR 0).setFld R.PEAL_VERIFY_RESULT_INDEX 0).setFld
    R.PEAL_VERIFY_DETAIL_DETAIL 0

/-- The same with the image's hash, and the status bit set. -/
def State.passShown (s : State) (hash : List Byte) : State :=
  (s.passCleared.setHash R.PEAL_STAGED_HASH_HASH hash).raise R.PEAL_INT_STATUS_VERIFIED

/-- The same with the structure that the verifier found. -/
def State.verifiedAs (s : State) (c : Cfg) (hash : List Byte) : State :=
  let t := s.passShown hash
  { t with peal := { t.peal with cfgs := Tbl.put t.peal.cfgs s.staged (some c) } }

theorem State.verdictFull_bytes (s : State) (base : Nat) : (s.verdictFull base).bytes = none := by
  unfold State.verdictFull
  dsimp only
  split
  · split
    · rfl
    · split <;> rfl
  · rfl

section
variable {s : State}

theorem State.verifyDone_passes (hp : s.plane s.staged = plVerifying) (hd : s.peal.delta = false) {c : Cfg}
    (hc : (s.verdictFull (planeBase s.staged)).cfg = some c) :
    s.verifyDone =
      let hash := (s.verdictFull (planeBase s.staged)).hash
      let t := s.verifiedAs c hash
      if s.mode = .load ∧ s.cfg.isNone then t.makeLive s.staged c hash else { t with peal := { t.peal with boot := false } } := by
  unfold State.verifyDone
  simp only [hp, hd, if_true, Bool.false_eq_true, if_false, hc, State.verdictFull_bytes]
  rfl

/-- What a verified plane shows. -/
structure VerifiedShown (s : State) (c : Cfg) (t : State) : Prop where
  plane : t.plane s.staged = plVerified
  err : t.fld R.PEAL_VERIFY_RESULT_ERR = 0
  flag : bit (t.fld R.PEAL_INT_STATUS_VERIFIED) 0 = 1
  found : Tbl.get t.peal.cfgs s.staged none = some c
  cfg : t.cfg = s.cfg
  mem : t.mem = s.mem

theorem State.passCleared_shows (s : State) : s.passCleared.plane s.staged = plVerified ∧ s.passCleared.fld R.PEAL_VERIFY_RESULT_ERR = 0 := by
  have hne : ∀ g ∈ [R.PEAL_VERIFY_RESULT_ERR, R.PEAL_VERIFY_RESULT_INDEX, R.PEAL_VERIFY_DETAIL_DETAIL], (planeFld s.staged).key ≠ g.key := by
    unfold planeFld
    split <;> decide
  unfold State.passCleared
  constructor
  · unfold State.plane
    rw [State.fld_setFld_ne _ _ (hne _ (by simp)), State.fld_setFld_ne _ _ (hne _ (by simp)), State.fld_setFld_ne _ _ (hne _ (by simp))]
    exact s.plane_setPlane_same s.staged (by decide)
  · rw [State.fld_setFld_ne _ _ (by decide), State.fld_setFld_ne _ _ (by decide), State.fld_setFld_same]
    rfl

/-- The states of the planes and the result stand below the hashes and their status bit. -/
theorem State.fld_passShown (s : State) (hash : List Byte) {f : Fld} (hf : 0x14060014 ≤ f.key / 32 ∧ f.key / 32 < 0x14060020) :
    (s.passShown hash).fld f = s.passCleared.fld f := by
  have hne : ∀ g : Fld, ¬ (0x14060014 ≤ g.key / 32 ∧ g.key / 32 < 0x14060020) → f.key ≠ g.key := fun g hg hk => hg (hk ▸ hf)
  exact (State.fld_raise_ne _ (hne _ (by decide))).trans (State.fld_setHash_ne _ _ _ fun n _ => hne _ (by simp only [Fld.key]; omega))

theorem State.setPlane_cfg (s : State) (p st : Nat) : (s.setPlane p st).cfg = s.cfg := rfl
theorem State.setPlane_mem (s : State) (p st : Nat) : (s.setPlane p st).mem = s.mem := rfl

theorem State.passShown_cfg (s : State) (hash : List Byte) : (s.passShown hash).cfg = s.cfg := by
  simp only [State.passShown, State.raise_cfg, State.setHash_cfg, State.passCleared, State.setFld_cfg, State.setPlane_cfg]

theorem State.passShown_mem (s : State) (hash : List Byte) : (s.passShown hash).mem = s.mem := by
  simp only [State.passShown, State.raise_mem, State.setHash_mem, State.passCleared, State.setFld_mem, State.setPlane_mem]

theorem planeFld_place (p : Nat) : 0x14060014 ≤ (planeFld p).key / 32 ∧ (planeFld p).key / 32 < 0x14060020 := by
  unfold planeFld; split <;> decide

theorem State.verifiedAs_shown (s : State) (c : Cfg) (hash : List Byte) : VerifiedShown s c (s.verifiedAs c hash) where
  plane := (s.fld_passShown hash (planeFld_place _)).trans s.passCleared_shows.1
  err := (s.fld_passShown hash (by decide)).trans s.passCleared_shows.2
  flag := State.fld_raise_same _ (by decide)
  found := Tbl.get_put_same ..
  cfg := s.passShown_cfg hash
  mem := s.passShown_mem hash

theorem verifyDone_verifies (hp : s.plane s.staged = plVerifying) (hd : s.peal.delta = false) {c : Cfg}
    (hc : (s.verdictFull (planeBase s.staged)).cfg = some c) (hlive : s.mode ≠ .load ∨ s.cfg.isSome = true) :
    Gives .verifyDone s (VerifiedShown s c) := by
  have hnot : ¬ (s.mode = .load ∧ s.cfg.isNone = true) := by
    rintro ⟨hm, hn⟩
    exact hlive.elim (absurd hm) fun hsome => by simp [Option.isNone_iff_eq_none.mp hn] at hsome
  have hshown := s.verifiedAs_shown c (s.verdictFull (planeBase s.staged)).hash
  refine ⟨_, congrArg Host.Outcome.next ((State.verifyDone_passes hp hd hc).trans (if_neg hnot)), ?_⟩
  exact ⟨hshown.plane, hshown.err, hshown.flag, hshown.found, hshown.cfg, hshown.mem⟩

/-! ### An image that is live at once (R47, R398) -/

/-- Plane A shown as the live one. -/
def State.shownLive (s : State) (hash : List Byte) : State :=
  (((s.setPlane 0 plLive).setPlane 1 plEmpty).setFld R.PEAL_STATUS_LIVE_PLANE 0).bumpGen.setHash R.PEAL_LIVE_HASH_HASH hash

theorem State.fld_shownLive (s : State) (hash : List Byte) {f : Fld} (hf : f.key / 32 = 0x14060014) :
    (s.shownLive hash).fld f = (((s.setPlane 0 plLive).setPlane 1 plEmpty).setFld R.PEAL_STATUS_LIVE_PLANE 0).fld f := by
  have hgen : ∀ g : Fld, g.key / 32 ≠ 0x14060014 → f.key ≠ g.key := fun g hg hk => hg (hk ▸ hf)
  refine (State.fld_setHash_ne _ _ _ fun n _ => hgen _ (by simp only [Fld.key]; omega)).trans ?_
  unfold State.bumpGen
  rw [State.fld_setFld_ne _ _ (hgen _ (by decide)), State.fld_setFld_ne _ _ (hgen _ (by decide))]

theorem State.shownLive_shows (s : State) (hash : List Byte) :
    (s.shownLive hash).plane 0 = plLive ∧ (s.shownLive hash).fld R.PEAL_STATUS_LIVE_PLANE = 0 := by
  refine ⟨(s.fld_shownLive hash (by decide)).trans ?_, (s.fld_shownLive hash (by decide)).trans (State.fld_setFld_same ..)⟩
  rw [State.fld_setFld_ne _ _ (by decide)]
  exact (State.plane_setPlane_other _ (by decide) _).trans (s.plane_setPlane_same 0 (by decide))

/-- The load of plane A has ended. -/
def State.bootEnded (s : State) : State := { s with peal := { s.peal with boot := false } }

theorem State.makeLive_eq (s : State) (c : Cfg) (hash : List Byte) :
    s.makeLive 0 c hash = ((s.shownLive hash).bootEnded.loadAll c).bootGoesOn c := rfl

theorem State.fld_bootEnded (s : State) (c : Option Cfg) (f : Fld) : ({ s.bootEnded with cfg := c } : State).fld f = s.fld f := rfl

theorem State.makeLive_shows (s : State) (c : Cfg) (hash : List Byte) : let t := s.makeLive 0 c hash
    t.cfg = some c ∧ t.plane 0 = plLive ∧ t.fld R.PEAL_STATUS_LIVE_PLANE = 0 := by
  obtain ⟨hplane, hlive⟩ := s.shownLive_shows hash
  have hkept := ((s.shownLive hash).bootEnded.loadAll_planes c).trans (State.bootGoesOn_planes _ c)
  have hstatus : ∀ f : Fld, f.key / 32 = 0x14060014 → (s.makeLive 0 c hash).fld f = (s.shownLive hash).fld f := fun f hf =>
    (hkept.status f hf).trans (State.fld_bootEnded ..)
  exact ⟨hkept.cfg, (hstatus _ (by decide)).trans hplane, (hstatus _ (by decide)).trans hlive⟩

theorem verifyDone_goesLive (hp : s.plane s.staged = plVerifying) (hd : s.peal.delta = false) {c : Cfg}
    (hc : (s.verdictFull (planeBase s.staged)).cfg = some c) (hm : s.mode = .load) (hn : s.cfg = none) :
    Gives .verifyDone s (fun t => t.cfg = some c ∧ t.plane 0 = plLive ∧ t.fld R.PEAL_STATUS_LIVE_PLANE = 0) := by
  have hstaged : s.staged = 0 := if_pos (by simp [hn])
  refine ⟨_, congrArg Host.Outcome.next ((State.verifyDone_passes hp hd hc).trans (if_pos ⟨hm, by simp [hn]⟩)), ?_⟩
  rw [hstaged]
  exact State.makeLive_shows _ c _

/-! ### An image that fails (R48, R51) -/

theorem State.fld_reportFailure_ne (s : State) (f : Failure) {g : Fld} (hg : g.key / 32 = 0x14060014) : (s.reportFailure f).fld g = s.fld g := by
  have hne : ∀ k : Fld, k.key / 32 ≠ 0x14060014 → g.key ≠ k.key := fun k hk he => hk (he ▸ hg)
  unfold State.reportFailure
  rw [State.fld_raise_ne _ (hne _ (by decide)), State.fld_setFld_ne _ _ (hne _ (by decide)), State.fld_setFld_ne _ _ (hne _ (by decide)),
    State.fld_setFld_ne _ _ (hne _ (by decide))]

theorem State.reportFailure_cfg (s : State) (f : Failure) : (s.reportFailure f).cfg = s.cfg := State.raise_cfg ..
theorem State.reportFailure_mem (s : State) (f : Failure) : (s.reportFailure f).mem = s.mem := State.raise_mem ..

theorem State.staged_reportFailure (s : State) (f : Failure) : (s.reportFailure f).staged = s.staged := by
  unfold State.staged State.livePlane
  rw [s.reportFailure_cfg, s.fld_reportFailure_ne f (by decide)]

theorem State.rejectStaged_eq {s : State} (hb : s.peal.boot = false) (f : Failure) : s.rejectStaged f =
    let t := (s.reportFailure f).turnStaged plRejected 3
    { t with peal := { t.peal with boot := false, copy := none, cfgs := Tbl.erase s.staged t.peal.cfgs } } := by
  unfold State.rejectStaged State.turnStaged
  rw [s.staged_reportFailure f]
  exact if_neg (by simp [hb])

/-- What a rejected plane shows. -/
structure RejectedShown (s : State) (f : Failure) (t : State) : Prop where
  plane : t.plane s.staged = plRejected
  err : t.fld R.PEAL_VERIFY_RESULT_ERR = f.code
  flag : bit (t.fld R.PEAL_INT_STATUS_REJECTED) 0 = 1
  gone : Tbl.get t.peal.cfgs s.staged none = none
  cfg : t.cfg = s.cfg
  mem : t.mem = s.mem

theorem Tbl.get_erase_same {α : Type} (t : Tbl α) (k : Nat) (d : α) : Tbl.get (Tbl.erase k t) k d = d := by
  simp [Tbl.get, Tbl.find_erase_same]

/-- An image that the boot did not load is rejected, and nothing else follows. -/
theorem State.rejectStaged_shown (hb : s.peal.boot = false) {f : Failure} (hc : f.code < 2 ^ 16) :
    RejectedShown s f (s.rejectStaged f) := by
  rw [State.rejectStaged_eq hb]
  refine ⟨?_, ?_, ?_, Tbl.get_erase_same .., ?_, ?_⟩
  · have h := (s.reportFailure f).plane_turnStaged (st := plRejected) (by decide) 3
    rwa [s.staged_reportFailure] at h
  · exact (State.fld_turnStaged_ne _ (by decide) (by decide) (by decide) (by decide) _ _).trans (s.err_reportFailure hc)
  · rw [← s.flag_reportFailure f]
    exact congrArg (bit · 0) (State.fld_turnStaged_ne _ (by decide) (by decide) (by decide) (by decide) _ _)
  · exact (State.turnStaged_cfg ..).trans (s.reportFailure_cfg f)
  · exact (State.turnStaged_mem ..).trans (s.reportFailure_mem f)

theorem State.pick_one {α : Type} (s : State) (x : α) : s.pick [x] = (some x, s.fresh.2) := by
  simp [State.pick, Nat.mod_one]

theorem State.verifyDone_fails (hp : s.plane s.staged = plVerifying) (hd : s.peal.delta = false) {f : Failure}
    (hf : s.verdictFull (planeBase s.staged) = Verdict.no [f]) (hue : f.code ≠ 0x0202) (hcold : f.code ≠ 0x0604) :
    s.verifyDone = s.fresh.2.rejectStaged f := by
  unfold State.verifyDone
  simp only [hp, hd, if_true, Bool.false_eq_true, if_false, hf, Verdict.no, State.putComposed, State.pick_one, if_neg hue, if_neg hcold]

end

/-- Settles O26: a verdict that finds a structure turns the staged plane to VERIFIED, or makes it live with every engine loaded from it,
which leaves PEAL_STATUS as it stands; a failure turns it to REJECTED. -/
theorem verdicts : Obligations.Verdicts := by
  intro s hp hd
  refine ⟨fun c hc => ⟨fun hlive => ?_, verifyDone_goesLive hp hd hc⟩, fun f hf hue hcold hcode hb => ?_⟩
  · obtain ⟨t, hexec, h⟩ := verifyDone_verifies hp hd hc hlive
    exact ⟨t, hexec, h.plane, h.err, h.flag, h.found, h.cfg, h.mem⟩
  · have h := s.fresh.2.rejectStaged_shown hb hcode
    exact ⟨_, congrArg Host.Outcome.next (State.verifyDone_fails hp hd hf hue hcold), h.plane, h.err, h.flag, h.gone, h.cfg, h.mem⟩

end Sys2Proof.Machine
end

section
namespace Sys2Proof.Machine

/-! ### A line that fills inside the staged plane (R57, R212) -/

/-- A plane with blocks of 6 samples at 96 kHz and nothing else. -/
def barePlane : Cfg where
  sys := ⟨6, 1, 0, 0, 2000000, 0, 1, 4, []⟩
  buses := []
  tasks := []
  geom := none
  gains := []
  filters := []
  coeffs := []
  presets := []
  progs := []
  datas := []
  clusters := []
  lines := []
  regions := []
  inits := []
  prts := []
  aess := []
  streams := []
  bridges := []
  clock := ⟨[], 0, 0, 0, 0, 0, 0, 0, 0, 0, 0, 0, 0, [], 0, 0⟩
  beatChans := []
  beatRails := []
  gridDiv := none
  mirror := none
  taps := []
  hotCarry := []

/-- The same with a delay line whose storage begins where plane B does. -/
def lineInPlaneB : Cfg := { barePlane with lines := [⟨0, 0, 0, planeBase 1, 64, 0, 0⟩] }

/-- The swap from the one to the other. -/
def overlappingSwap : Armed := ⟨2, 4, false, lineInPlaneB, 0, false, false⟩

/-- Token S = 2 of that swap has come and not yet reached the delay pool's island. IMAGE_SIZE of plane B reads 0, an uncorrectable
error stands 64 bytes into it, and the line's input bus carries sound. -/
def overlappingFill : State :=
  { State.reset with
    cfg := some barePlane
    peal := { Peal.idle with armed := some overlappingSwap }
    blk := { Blk.idle with index := 2, seq := 1 }
    sxm := ⟨[(slotKey 0 0, ⟨List.replicate 6 0x010101, false, false⟩)], [], []⟩
    mem := ⟨(List.range 4).map (fun i => (planeBase 1 + 0x0C + i, 0#8)), 0, [planeBase 1 / 8 + 8], []⟩ }

/-- The samples that the line fills with enlarge IMAGE_SIZE, so that the image then holds the error. -/
theorem overlappingFill_spoils : overlappingFill.stagedError = none ∧
    (overlappingFill.swapFill 2).stagedError = some (planeBase 1 / 8 + 8) := by decide +kernel

theorem overlappingFill_cancels : overlappingFill.swapAtS.swapState = swIdle := by decide +kernel

/-- Refutes O28: at S the new plane's lines fill before the staged image is read (R57), and the statement has no premise that keeps their
storage apart from the planes, as the verifier does (0x0407, R51): here the samples enlarge IMAGE_SIZE so that the image reaches an
uncorrectable error, which cancels the swap (R212). -/
theorem not_planeSwaps : ¬ Obligations.PlaneSwaps := by
  rintro ⟨-, hstart, -⟩
  obtain ⟨t, hexec, -, -, -, -, hswap, -⟩ := hstart overlappingFill barePlane overlappingSwap rfl rfl (by decide)
    (.inr overlappingFill_spoils.1) (by decide) rfl rfl
  have hidle := overlappingFill_cancels
  rw [Host.Outcome.next.inj hexec, hswap] at hidle
  exact absurd hidle (by decide)

end Sys2Proof.Machine
end

section
namespace Sys2Proof.Machine

/-! ### What stands beside the registers of a frame -/

theorem SameBut.blk {fs : List Fld} {u t : State} (h : SameBut fs u t) : t.blk = u.blk := (congrArg State.blk h.2 :)
theorem SameBut.sxm {fs : List Fld} {u t : State} (h : SameBut fs u t) : t.sxm = u.sxm := (congrArg State.sxm h.2 :)
theorem SameBut.gate {fs : List Fld} {u t : State} (h : SameBut fs u t) : t.gate = u.gate := (congrArg State.gate h.2 :)

/-! ### Counts that the host clears -/

/-- Cleared fields of different places all read zero. -/
theorem State.fld_clearFlds_zero {fs : List Fld} (hn : (fs.map Fld.key).Nodup) (s : State) {f : Fld} (hf : f ∈ fs) :
    (s.clearFlds fs).fld f = 0 :=
  (State.fld_clearFlds_mem fs s hf).resolve_right fun ⟨_, hg, hk, hne⟩ => hne (List.inj_on_of_nodup_map hn hg hf hk)

/-- A CLEAR bit that the host sets leaves the block's counts at zero and changes nothing else. -/
theorem hostClear_sets {s : State} {i : Instr} {a : Nat} {fs : List Fld} (h : HostReaches s a) (hi : exec i s = .next (s.hostClear a fs))
    (hn : (fs.map Fld.key).Nodup) : HostSets i s fs s (fun t => ∀ f ∈ fs, t.fld f = 0) :=
  ⟨_, hi.trans (congrArg Host.Outcome.next (hostSet_reach h 1 (fun s => s.clearFlds fs))),
    ((SameBut.refl _ s).touch (by simp)).clearFlds fs fun _ hf => List.mem_cons_of_mem _ hf, fun _ hf => State.fld_clearFlds_zero hn _ hf⟩

theorem blkCounts_nodup : (blkCounts.map Fld.key).Nodup := by decide +kernel

theorem flmCounts_nodup : (flmCounts.map Fld.key).Nodup := by decide

/-! ### Ticks, the read of the index, and writes into SXM (R74, R90, R430) -/

theorem blkTick_ticks {s : State} (h0 : 0 < s.fld R.BLK_TICK_DIV_DIV) (h : s.fld R.BLK_TICK_DIV_DIV ≤ s.blk.ticks) :
    Gives .blkTick s (fun t => bit (t.fld R.BLK_INT_STATUS_TICK) 0 = 1 ∧
      SameBut [R.BLK_INT_STATUS_TICK] { s with blk := { s.blk with ticks := s.blk.ticks - s.fld R.BLK_TICK_DIV_DIV } } t) :=
  ⟨_, if_pos ⟨h0, h⟩, State.fld_raise_same _ (by decide), (SameBut.refl _ _).raise (by simp)⟩

theorem exec_blkIndexLoRead {s : State} {m : Nat} (h : Reaches s m 0x14040008) :
    exec (.blkIndexLoRead m) s = .next (((s.touch m).setFld R.BLK_INDEX_HI_INDEX (s.blk.index / 2 ^ 32)).emit
      (.response m (.data (leBytes 4 (s.blk.index % 2 ^ 32))))) := by
  refine (congrArg Host.Outcome.next (throughRead_reach h (fun s => s.indexLoRead))).trans ?_
  simp only [State.indexLoRead, State.touch_blk]

theorem sxmWriteRefused_refuses {s : State} {m a : Nat} (hlo : 0x10000000 ≤ a) (hhi : a < 0x10200000) (h : Reaches s m a) (hf : s.flmState = 0) :
    ∃ u, exec (.sxmWriteRefused m a) s = .next ((u.tagHeld s.heldNext m none).answer m a .targetErr) ∧
      bit (u.fld R.SXM_INT_STATUS_WRITE_REFUSED) 0 = 1 ∧ u.sxm = s.sxm ∧
      SameBut [R.XB_OUTSTANDING_PEAK m, R.SXM_INT_STATUS_WRITE_REFUSED] s u := by
  have hexec : exec (.sxmWriteRefused m a) s = .next (s.through m a 0 fun s => s.sxmRefuse) := if_pos ⟨hlo, hhi⟩
  have hsame : SameBut [R.XB_OUTSTANDING_PEAK m, R.SXM_INT_STATUS_WRITE_REFUSED] s ((s.touch m).raise R.SXM_INT_STATUS_WRITE_REFUSED) :=
    ((SameBut.refl _ s).touch (by simp)).raise (by simp)
  exact ⟨_, hexec.trans (congrArg Host.Outcome.next (through_reach h hf 0 _)), State.fld_raise_same _ (by decide), hsame.sxm,
    hsame⟩

/-! ### A realignment begins (R69, R349) -/

/-- A realignment with token `q` is under way, and outputs that stand released dip over blocks `q` and `q` + 1. -/
def State.realignTaken (s : State) (q : Nat) : State :=
  { s with blk := { s.blk with realign := some ⟨q, false⟩ }
           gate := if s.gate.released then ⟨false, some (q, 2, false)⟩ else s.gate }

/-- The registers that show it. -/
def State.realignShown (s : State) : State :=
  ((s.setFld R.BLK_STATE_REALIGNING 1).setFld R.BLK_REALIGN_STATUS_BUSY 1).setFld R.BLK_REALIGN_STATUS_RESULT 0

def realignFlds : List Fld := [R.BLK_STATE_REALIGNING, R.BLK_REALIGN_STATUS_BUSY, R.BLK_REALIGN_STATUS_RESULT]

theorem State.startRealign_eq (s : State) (q : Nat) : s.startRealign q = s.realignShown.realignTaken q := by
  by_cases h : s.gate.released = true
  · have hgate : s.realignShown.gate.released = true := h
    rw [State.realignTaken, if_pos hgate]
    exact if_pos h
  · have hgate : ¬ s.realignShown.gate.released = true := h
    rw [State.realignTaken, if_neg hgate]
    exact if_neg h

theorem State.startRealign_shows (s : State) (q : Nat) : (s.startRealign q).fld R.BLK_STATE_REALIGNING = 1 ∧
    (s.startRealign q).fld R.BLK_REALIGN_STATUS_BUSY = 1 ∧ (s.startRealign q).fld R.BLK_REALIGN_STATUS_RESULT = 0 := by
  rw [State.startRealign_eq]
  unfold State.realignTaken State.realignShown
  simp only [State.fld_with]
  refine ⟨?_, ?_, State.fld_setFld_same ..⟩
  · rw [State.fld_setFld_ne _ _ (by decide), State.fld_setFld_ne _ _ (by decide), State.fld_setFld_same]
    rfl
  · rw [State.fld_setFld_ne _ _ (by decide), State.fld_setFld_same]
    rfl

/-- What stands beside registers, messages and counts moves with the frame. -/
theorem SameBut.realignTaken {fs : List Fld} {u t : State} (h : SameBut fs u t) (q : Nat) :
    SameBut fs (u.realignTaken q) (t.realignTaken q) := by
  unfold State.realignTaken
  rw [h.blk, h.gate]
  refine ⟨h.1, ?_⟩
  conv_lhs => rw [h.2]

theorem SameBut.startRealign {fs : List Fld} {u t : State} (h : SameBut fs u t) (q : Nat) (hfs : ∀ f ∈ realignFlds, f ∈ fs) :
    SameBut fs (u.realignTaken q) (t.startRealign q) := by
  rw [State.startRealign_eq]
  exact (((h.setFld 1 (hfs _ (by simp [realignFlds]))).setFld 1 (hfs _ (by simp [realignFlds]))).setFld 0
    (hfs _ (by simp [realignFlds]))).realignTaken q

/-! ### Requests of a realignment (R69, R90) -/

theorem State.swapState_touch (s : State) : (s.touch 0).swapState = s.swapState := s.fld_touch_ne (by decide)

theorem State.epochErr_touch (s : State) : (s.touch 0).fld R.BLK_EPOCH_ERR_ERR = s.fld R.BLK_EPOCH_ERR_ERR := s.fld_touch_ne (by decide)

theorem State.realignRefusal_touch (s : State) : (s.touch 0).realignRefusal = s.realignRefusal := by
  unfold State.realignRefusal
  rw [State.swapState_touch, State.mode_touch _ (by decide), State.flmState_touch _ (by decide), State.epochErr_touch]

theorem exec_realignRequest {s : State} {key : Nat} (h : HostReaches s 0x14040014) (hk : key % 65536 = 0xB10C) (hn : s.blk.realign = none) :
    exec (.realignRequest key) s = .next (s.answered 0 .ok (if s.realignRefusal = 0 then (s.touch 0).startRealign (s.blk.index + 1)
      else ((s.touch 0).setFld R.BLK_REALIGN_STATUS_RESULT s.realignRefusal).raise R.BLK_INT_STATUS_REALIGN_DONE)) := by
  refine (congrArg Host.Outcome.next (hostSet_reach h (BitVec.ofNat 32 key) (fun s => s.realignRequest (key % 65536)))).trans ?_
  unfold State.realignRequest
  rw [if_pos ⟨by rw [Nat.mod_mod, hk], by rw [State.touch_blk, hn]⟩, State.realignRefusal_touch, State.touch_blk]

/-- A refusal shows its code and ends at once (R69), wherever the block shows results. -/
theorem SameBut.refusalShown {fs : List Fld} {u t : State} (h : SameBut fs u t) {f d : Fld} (hf : f ∈ fs) (hd : d ∈ fs) (r : Nat) :
    SameBut fs u ((t.setFld f r).raise d) := (h.setFld r hf).raise hd

theorem State.refusalShown_shows (s : State) {f d : Fld} (hne : f.key ≠ d.key) (hw : 0 < d.width) {r : Nat} (hr : r < 2 ^ f.width) :
    ((s.setFld f r).raise d).fld f = r ∧ bit (((s.setFld f r).raise d).fld d) 0 = 1 :=
  ⟨by rw [State.fld_raise_ne _ hne, State.fld_setFld_same, Nat.mod_eq_of_lt hr], State.fld_raise_same _ hw⟩

section
variable {s : State} {key : Nat} (h : HostReaches s 0x14040014) (hk : key % 65536 = 0xB10C) (hn : s.blk.realign = none)
include h hk hn

theorem realignRequest_starts (hr : s.realignRefusal = 0) :
    HostSets (.realignRequest key) s realignFlds (s.realignTaken (s.blk.index + 1)) (fun u =>
      u.fld R.BLK_STATE_REALIGNING = 1 ∧ u.fld R.BLK_REALIGN_STATUS_BUSY = 1 ∧ u.fld R.BLK_REALIGN_STATUS_RESULT = 0) := by
  refine ⟨_, exec_realignRequest h hk hn, ?_⟩
  rw [if_pos hr]
  exact ⟨((SameBut.refl _ s).touch (by simp)).startRealign _ fun _ hf => List.mem_cons_of_mem _ hf, State.startRealign_shows ..⟩

theorem realignRequest_refused {r : Nat} (hr : s.realignRefusal = r) (h0 : r ≠ 0) (hlt : r < 16) :
    HostSets (.realignRequest key) s [R.BLK_REALIGN_STATUS_RESULT, R.BLK_INT_STATUS_REALIGN_DONE] s (fun u =>
      u.fld R.BLK_REALIGN_STATUS_RESULT = r ∧ bit (u.fld R.BLK_INT_STATUS_REALIGN_DONE) 0 = 1) := by
  refine ⟨_, exec_realignRequest h hk hn, ?_⟩
  rw [hr, if_neg h0]
  exact ⟨((SameBut.refl _ s).touch (by simp)).refusalShown (by simp) (by simp) _, State.refusalShown_shows _ (by decide) (by decide) hlt⟩
end

/-- The four cases of R69's table, in its order. -/
theorem State.realignRefusal_unpaired {s : State} (hf : s.flmState = 0) : s.realignRefusal =
    if s.swapState ≠ swIdle then 2 else if s.mode ≠ .live ∧ s.mode ≠ .shadow then 3
      else if (ofCodeS 32 (s.fld R.BLK_EPOCH_ERR_ERR)).natAbs ≤ 1 then 5 else 0 := by
  unfold State.realignRefusal
  simp only [hf, ne_eq, not_true_eq_false, if_false]

/-- Where the first three cases do not hold, a realignment is refused for want of an error to put right. -/
def State.realignCode (s : State) : Nat := if s.swapState ≠ swIdle then 2 else if s.mode ≠ .live ∧ s.mode ≠ .shadow then 3 else 5

theorem State.realignRefusal_of_refused {s : State} (hf : s.flmState = 0)
    (h5 : s.realignCode = 5 → (ofCodeS 32 (s.fld R.BLK_EPOCH_ERR_ERR)).natAbs ≤ 1) :
    s.realignRefusal = s.realignCode ∧ s.realignCode ≠ 0 ∧ s.realignCode < 16 := by
  rw [State.realignRefusal_unpaired hf]
  unfold State.realignCode at h5 ⊢
  split_ifs at h5 ⊢ with hs hm hnear
  · decide
  · decide
  · decide
  · exact absurd (h5 rfl) hnear

/-- Settles O9: each command is its one update behind the request that counts as outstanding, and a realignment is taken where
R69 refuses none. -/
theorem sequencerRegisterCommands : Obligations.SequencerRegisterCommands := by
  refine ⟨⟨fun s h0 h => blkTick_ticks h0 h, fun s m h => exec_blkIndexLoRead h, fun s h => ?_,
    fun s m a hlo hhi h hf => sxmWriteRefused_refuses hlo hhi h hf, fun s key h hk hn hs hm he => ?_⟩, fun s key h hk hn => ?_⟩
  · refine (hostClear_sets h rfl blkCounts_nodup).imp fun t ht => ?_
    have hfirst : ∀ f ∈ [R.BLK_LATE_TOTAL_COUNT, R.BLK_OVERRUN_TOTAL_COUNT, R.BLK_LATE_LAST_OVERRUN, R.BLK_LATE_LAST_TASK,
        R.BLK_LATE_LAST_BLK_LO_BLK, R.BLK_FADED_BUSES_COUNT], t.fld f = 0 :=
      fun f hf => ht f (List.mem_append_left _ (List.mem_append_left _ hf))
    exact ⟨hfirst _ (by simp), hfirst _ (by simp), hfirst _ (by simp), hfirst _ (by simp), hfirst _ (by simp), hfirst _ (by simp),
      fun n hn => ⟨ht _ (List.mem_append_left _ (List.mem_append_right _ (List.mem_map_of_mem (List.mem_range.mpr hn)))),
        ht _ (List.mem_append_right _ (List.mem_map_of_mem (List.mem_range.mpr hn)))⟩⟩
  · refine realignRequest_starts h hk hn ?_
    rw [State.realignRefusal_unpaired h.2, if_neg (not_not.mpr hs), if_neg fun hne => hm.elim hne.1 hne.2, if_neg (Nat.not_le.mpr he)]
  · intro r hr
    obtain ⟨hrefusal, h0, hlt⟩ := State.realignRefusal_of_refused h.2 hr
    exact realignRequest_refused h hk hn hrefusal h0 hlt

end Sys2Proof.Machine
end

section
namespace Sys2Proof.Machine

/-! ### Writes outside the mirrored blocks (R345, R361) -/

/-- A host write to a register that no mirror takes reaches it whatever the state of the pair. -/
theorem hostSet_unmirrored {s : State} {a : Nat} (h : Reaches s 0 a) (ho : ∀ u : State, u.mirrorObject a = 0) (v : Word) (f : State → State) :
    s.hostSet a v f = s.answered 0 .ok (f (s.touch 0)) := by
  have hdelivered : (s.touch 0).delivered 0 a v (fun s => (.ok, f s)) = (.ok, (f (s.touch 0)).tagHeld s.heldNext 0 none) := by
    unfold State.delivered
    rw [if_pos ⟨h.2.1, (s.domainOn_touch h.1.1 _).trans h.2.2⟩, ho]
    simp only [bne_self_eq_false, Bool.and_false, Bool.false_and, Bool.false_eq_true, if_false, State.touch_heldNext]
  unfold State.hostSet State.through
  simp only [reach_eq h.1, hdelivered, answer_ok]
  rfl

theorem mirrorObject_flm {a : Nat} (hlo : 0x14400000 ≤ a) (hhi : a < 0x14800000) (hen : isIntEnable a = false) (s : State) :
    s.mirrorObject a = 0 := by
  unfold State.mirrorObject
  rw [hen, if_neg Bool.false_ne_true]
  repeat rw [if_neg (by omega)]

/-! ### Commands that wait at Flam (R361) -/

theorem State.answered_hold {s u : State} (hu : u.held = s.held) (c : Held) : let t := s.answered 0 .ok (u.hold c)
    t.held.length = s.held.length + 1 ∧ (∃ h ∈ t.held, h.eng = c.eng ∧ h.cmd = c.cmd ∧ h.stamp = c.stamp) ∧ .response 0 .ok ∈ t.sent := by
  refine ⟨?_, ?_, List.mem_cons_self⟩
  · simp [State.answered, State.tagHeld, State.hold, hu]
  · refine ⟨_, List.mem_map_of_mem (List.mem_append_right _ List.mem_cons_self), ?_⟩
    dsimp only
    split <;> exact ⟨rfl, rfl, rfl⟩

/-- The two key registers take a word with the key in as their command, and any other word does nothing. -/
theorem flmKeyWrite {s : State} {i : Instr} {a : Nat} {v : Word} {c : Cmd} (h : Reaches s 0 a) (ho : ∀ u : State, u.mirrorObject a = 0)
    (hi : exec i s = .next (s.hostSet a v fun s => if v.toNat / 65536 = 0xF1A3 then s.hold (heldOf .flm c .notNeeded) else s)) :
    (v.toNat / 65536 = 0xF1A3 → Gives i s (fun t => t.held.length = s.held.length + 1 ∧
      (∃ h ∈ t.held, h.eng = .flm ∧ h.cmd = c ∧ h.stamp = none) ∧ .response 0 .ok ∈ t.sent)) ∧
    (v.toNat / 65536 ≠ 0xF1A3 → exec i s = .next (s.answered 0 .ok (s.touch 0))) := by
  rw [hostSet_unmirrored h ho] at hi
  refine ⟨fun hk => ?_, fun hk => ?_⟩
  · rw [if_pos hk] at hi
    exact ⟨_, hi, State.answered_hold (s.touch_held 0) _⟩
  · rw [hi, if_neg hk]

theorem exec_flmHandoverWrite (s : State) (v : Word) : exec (.flmHandoverWrite v) s = .next (s.hostSet 0x14400070 v fun s =>
    if v.toNat / 65536 = 0xF1A3 then s.hold (heldOf .flm .flmHandover .notNeeded) else s) := by
  change Host.Outcome.next (s.hostSet 0x14400070 v fun s => s.flmHandoverWrite v.toNat) = _
  simp only [State.flmHandoverWrite, BitVec.natCast_eq_ofNat, BitVec.ofNat_toNat, BitVec.setWidth_eq]

theorem exec_flmResyncWrite (s : State) (v : Word) : exec (.flmResyncWrite v) s = .next (s.hostSet 0x14400074 v fun s =>
    if v.toNat / 65536 = 0xF1A3 then s.hold (heldOf .flm .flmResync .notNeeded) else s) := by
  change Host.Outcome.next (s.hostSet 0x14400074 v fun s => s.flmResyncWrite v.toNat) = _
  simp only [State.flmResyncWrite, BitVec.natCast_eq_ofNat, BitVec.ofNat_toNat, BitVec.setWidth_eq]

/-! ### A paired realignment (R349) -/

theorem State.standbyPeer_touch (s : State) : (s.touch 0).standbyPeer = s.standbyPeer := by
  unfold State.standbyPeer
  rw [State.flmState_touch _ (by decide), State.fld_touch_ne _ (by decide), State.fld_touch_ne _ (by decide)]

/-- The refusal of a paired realignment, 0 where it is accepted. -/
def State.pairRefusal (s : State) : Nat :=
  if s.swapState ≠ swIdle then 2 else if s.standbyPeer = false then 3
    else if (ofCodeS 32 (s.fld R.BLK_EPOCH_ERR_ERR)).natAbs ≤ 1 then 5 else 0

theorem State.pairRefusal_touch (s : State) : (s.touch 0).pairRefusal = s.pairRefusal := by
  unfold State.pairRefusal
  rw [State.swapState_touch, State.standbyPeer_touch, State.epochErr_touch]

/-- The chip tells its peer of the realignment and begins its own. -/
def State.pairRealigns (s : State) : State :=
  ((s.setFld R.FLM_REALIGN_STATUS_RESULT 0).startRealign (s.blk.index + 3)).emit (.flmItem (.realign (s.blk.index + 3)))

theorem State.flmRealignWrite_other {s : State} {v : Nat} (h : v % 65536 ≠ 0xB10C ∨ s.blk.realign ≠ none) : s.flmRealignWrite v = s :=
  if_neg fun ⟨hk, hn⟩ => h.elim (· hk) (· hn)

theorem State.flmRealignWrite_key {s : State} {v : Nat} (hk : v % 65536 = 0xB10C) (hn : s.blk.realign = none) : s.flmRealignWrite v =
    if s.pairRefusal = 0 then s.pairRealigns
    else (s.setFld R.FLM_REALIGN_STATUS_RESULT s.pairRefusal).raise R.FLM_INT_STATUS_REALIGN_DONE := if_pos ⟨hk, hn⟩

theorem State.fld_startRealign_ne (s : State) (q : Nat) {f : Fld} (hf : ∀ g ∈ realignFlds, f.key ≠ g.key) :
    (s.startRealign q).fld f = s.fld f :=
  ((SameBut.refl _ s).startRealign q fun _ h => h).1 f hf

theorem State.pairRealigns_shows (s : State) : s.pairRealigns.blk.realign = some ⟨s.blk.index + 3, false⟩ ∧
    s.pairRealigns.fld R.BLK_STATE_REALIGNING = 1 ∧ s.pairRealigns.fld R.FLM_REALIGN_STATUS_RESULT = 0 ∧
    .flmItem (.realign (s.blk.index + 3)) ∈ s.pairRealigns.sent ∧ s.pairRealigns.fld R.BLK_REALIGN_STATUS_BUSY = 1 ∧
    (s.gate.released = true → s.pairRealigns.gate = ⟨false, some (s.blk.index + 3, 2, false)⟩) := by
  obtain ⟨hon, hbusy, -⟩ := State.startRealign_shows (s.setFld R.FLM_REALIGN_STATUS_RESULT 0) (s.blk.index + 3)
  have hframe := (SameBut.refl realignFlds (s.setFld R.FLM_REALIGN_STATUS_RESULT 0)).startRealign (s.blk.index + 3) fun _ h => h
  refine ⟨congrArg Blk.realign hframe.blk, hon, ?_, List.mem_cons_self, hbusy, fun hg => hframe.gate.trans (if_pos hg)⟩
  exact (State.fld_startRealign_ne _ _ (by decide)).trans (State.fld_setFld_same ..)

section
variable {s : State} {v : Word} (h : Reaches s 0 0x14400078)
include h

theorem exec_flmRealignWrite : exec (.flmRealignWrite v) s = .next (s.answered 0 .ok ((s.touch 0).flmRealignWrite v.toNat)) :=
  congrArg Host.Outcome.next (hostSet_unmirrored h (mirrorObject_flm (by decide) (by decide) (by decide)) v fun s => s.flmRealignWrite v.toNat)

theorem exec_flmRealignWrite_other (ho : v.toNat % 65536 ≠ 0xB10C ∨ s.blk.realign ≠ none) :
    exec (.flmRealignWrite v) s = .next (s.answered 0 .ok (s.touch 0)) := by
  rw [exec_flmRealignWrite h, State.flmRealignWrite_other (by rwa [State.touch_blk])]

variable (hk : v.toNat % 65536 = 0xB10C) (hn : s.blk.realign = none)
include hk hn

theorem exec_flmRealignWrite_key : exec (.flmRealignWrite v) s = .next (s.answered 0 .ok (if s.pairRefusal = 0 then (s.touch 0).pairRealigns
    else ((s.touch 0).setFld R.FLM_REALIGN_STATUS_RESULT s.pairRefusal).raise R.FLM_INT_STATUS_REALIGN_DONE)) := by
  rw [exec_flmRealignWrite h, State.flmRealignWrite_key hk (by rw [State.touch_blk, hn]), State.pairRefusal_touch]

theorem flmRealignWrite_starts (hr : s.pairRefusal = 0) : ∃ t, exec (.flmRealignWrite v) s = .next (s.answered 0 .ok t) ∧
    t.blk.realign = some ⟨s.blk.index + 3, false⟩ ∧ t.fld R.BLK_STATE_REALIGNING = 1 ∧ t.fld R.FLM_REALIGN_STATUS_RESULT = 0 ∧
    .flmItem (.realign (s.blk.index + 3)) ∈ t.sent ∧ t.fld R.BLK_REALIGN_STATUS_BUSY = 1 ∧
    (s.gate.released = true → t.gate = ⟨false, some (s.blk.index + 3, 2, false)⟩) := by
  have hshows := (s.touch 0).pairRealigns_shows
  rw [State.touch_blk, State.touch_gate] at hshows
  have hexec := exec_flmRealignWrite_key h hk hn
  rw [if_pos hr] at hexec
  exact ⟨_, hexec, hshows⟩

theorem flmRealignWrite_refused {r : Nat} (hr : s.pairRefusal = r) (h0 : r ≠ 0) (hlt : r < 16) :
    HostSets (.flmRealignWrite v) s [R.FLM_REALIGN_STATUS_RESULT, R.FLM_INT_STATUS_REALIGN_DONE] s (fun t =>
      bit (t.fld R.FLM_INT_STATUS_REALIGN_DONE) 0 = 1 ∧ t.fld R.FLM_REALIGN_STATUS_RESULT = r) := by
  refine ⟨_, exec_flmRealignWrite_key h hk hn, ?_⟩
  rw [hr, if_neg h0]
  exact ⟨((SameBut.refl _ s).touch (by simp)).refusalShown (by simp) (by simp) _,
    (State.refusalShown_shows _ (by decide) (by decide) hlt).symm⟩
end

/-- The code with which a paired realignment is refused, where it is. -/
def State.pairCode (s : State) : Nat := if s.swapState ≠ swIdle then 2 else if s.standbyPeer = false then 3 else 5

theorem State.pairRefusal_of_refused {s : State} (h : s.swapState ≠ swIdle ∨ s.standbyPeer = false ∨
    (ofCodeS 32 (s.fld R.BLK_EPOCH_ERR_ERR)).natAbs ≤ 1) : s.pairRefusal = s.pairCode ∧ s.pairCode ≠ 0 ∧ s.pairCode < 16 := by
  unfold State.pairRefusal State.pairCode
  split_ifs with hs hp hnear
  · decide
  · decide
  · decide
  · exact absurd h (not_or.mpr ⟨hs, not_or.mpr ⟨hp, hnear⟩⟩)

end Sys2Proof.Machine
end

section
namespace Sys2Proof.Machine

/-! ### Ports that restart (R52, R69) -/

/-- `t` is `s` but for the ports and their registers. -/
structure PortsOnly (s t : State) : Prop where
  rest : t = { s with regs := t.regs, ports := t.ports }
  fld : ∀ f : Fld, f.key < 32 * 0x14070000 → t.fld f = s.fld f

theorem PortsOnly.refl (s : State) : PortsOnly s s := ⟨rfl, fun _ _ => rfl⟩

theorem PortsOnly.trans {s t u : State} (h : PortsOnly s t) (h' : PortsOnly t u) : PortsOnly s u := by
  refine ⟨?_, fun f hf => (h'.fld f hf).trans (h.fld f hf)⟩
  conv_lhs => rw [h'.rest, h.rest]

theorem State.enterPreroll_ports (s : State) (u : Nat) : PortsOnly s (s.enterPreroll u) := by
  refine ⟨rfl, fun f hf => State.fld_setFld_ne _ _ ?_⟩
  have := stateFld_addr u
  simp only [Fld.key] at hf ⊢
  omega

theorem State.restartPorts_ports (s : State) : PortsOnly s s.restartPorts := by
  unfold State.restartPorts
  generalize List.range 32 = us
  induction us generalizing s with
  | nil => exact .refl s
  | cons u us ih =>
    refine PortsOnly.trans ?_ (ih _)
    dsimp only
    split
    · exact s.enterPreroll_ports u
    · exact .refl s

/-! ### The index step (R69) -/

theorem State.fld_setEpoch_ne (s : State) (tuSample : Nat) {f : Fld} (hf : ∀ g ∈ [R.BLK_EPOCH_ERR_ERR, R.BLK_STATE_EPOCH_OK,
    R.BLK_INT_STATUS_EPOCH_ERR], f.key ≠ g.key) : (s.setEpoch tuSample).fld f = s.fld f := by
  unfold State.setEpoch
  split
  · rfl
  · dsimp only
    split
    · rw [State.fld_raise_ne _ (hf _ (by simp)), State.fld_setFld_ne _ _ (hf _ (by simp)), State.fld_setFld_ne _ _ (hf _ (by simp))]
    · rw [State.fld_setFld_ne _ _ (hf _ (by simp)), State.fld_setFld_ne _ _ (hf _ (by simp))]

/-- The round that has begun carries the index step of the realignment `q`; streams, Flam and Beater forget what was on its way. -/
def State.indexStepped (u : State) (q : Nat) (net : Net) (flm : Flm) (beat : Beat) : State :=
  { u with blk := { u.blk with realign := some ⟨q, true⟩, restart := 5, brg := [] }, sxm := ⟨[], [], []⟩, net := net, flm := flm, beat := beat }

/-- Outputs that are to be driven ramp in over 2 blocks from `k`. -/
def State.rampIn (s : State) (k : Nat) : State := if s.outputsLive then s.rampOutputs k 2 true true else s

theorem State.stepIndex_eq {s : State} {c : Cfg} {q tuSample k : Nat} (hc : s.cfg = some c) (hr : s.blk.realign = some ⟨q, false⟩)
    (hk : tuSample / c.blockLen % 2 ^ 48 = k) : let u := s.endRound.issueToken k tuSample
    ∃ (net : Net) (flm : Flm) (beat : Beat) (ports : Ports),
      s.stepIndex tuSample = ({ (u.indexStepped q net flm beat).restartPorts with ports := ports } : State).rampIn (k + 3) ∧
      flm.operates = u.flm.operates := by
  unfold State.stepIndex
  rw [hc, hr]
  dsimp only
  simp only [hk]
  generalize s.endRound.issueToken k tuSample = u
  exact ⟨_, _, _, _, rfl, rfl⟩

theorem State.rampIn_eq (s : State) (k : Nat) :
    s.rampIn k = { s with gate := if s.outputsLive then ⟨true, some (k, 2, true)⟩ else s.gate } := by
  unfold State.rampIn
  split <;> rfl

/-- A ramp that is still to begin stands at its boundary. -/
theorem State.gateBoundary_later {s : State} {k : Nat}
    (h : s.gate.ramp = none ∨ ∃ up, s.gate.ramp = some (k + 3, 2, up)) : s.gateBoundary k = s := by
  unfold State.gateBoundary
  obtain h | ⟨up, h⟩ := h
  · rw [h]
  · rw [h]
    exact if_neg (by omega)

/-- The index stands at `k` and the step of the realignment `q` is done: what the token leaves of `s`. -/
structure IndexSet (s : State) (k q : Nat) (t : State) : Prop where
  index : t.blk.index = k
  seq : t.blk.seq = s.blk.seq + 1
  realign : t.blk.realign = some ⟨q, true⟩
  sxm : t.sxm = ⟨[], [], []⟩
  mem : t.mem = s.mem
  gate : t.gate = if s.outputsLive then ⟨true, some (k + 3, 2, true)⟩ else s.gate

/-- The state as it stands but for the realignment. -/
def State.aligned (s : State) : State := { s with blk := { s.blk with realign := none } }

/-- The same with no ramp of the outputs. -/
def State.atRest (s : State) : State := { s.aligned with gate := ⟨s.gate.released, none⟩ }

theorem IndexSet.of_shows {s t u : State} {k q : Nat} (h : IndexSet s k q t) (hs : ShowsOnly t u) : IndexSet s k q u where
  index := by rw [hs.blk, h.index]
  seq := by rw [hs.blk, h.seq]
  realign := by rw [hs.blk, h.realign]
  sxm := by rw [hs.rest, ← h.sxm]
  mem := by rw [hs.rest, ← h.mem]
  gate := by rw [hs.rest, ← h.gate]

/-- After the token of the index step, nothing is due but what shows (R225, R232, R245, R347). -/
theorem State.afterToken_stepped {s : State} (hgate : s.gateBoundary s.blk.index = s) (h : NothingDue s.atRest) :
    ShowsOnly s (s.afterToken true) := by
  have hswap := State.swapBoundary_quiet (s := s) h.armed h.fade s.blk.index
  unfold State.afterToken
  dsimp only
  rw [hgate]
  generalize s.swapBoundary s.blk.index = t at hswap
  have hop : t.flm.operates = false := by rw [hswap.rest]; exact h.operates
  have hpairs : ∀ c, t.cfg = some c → c.regionPairs = [] := by rw [hswap.rest]; exact h.pairs
  have hrings : ∀ e ∈ t.rings, e.2.holdWait = false ∧ e.2.recs = [] := by rw [hswap.rest]; exact h.rings
  have hqueue : t.hif.queue.isEmpty = true := by rw [hswap.queue]; exact List.isEmpty_iff.mpr h.queue
  rw [State.flmBoundary_quiet hop hpairs, if_pos rfl, if_pos hqueue, State.flushAll_quiet fun e he => (hrings e he).2,
    State.countHoldWaits_quiet fun e he => (hrings e he).1]
  exact (hswap.trans t.conflictRoll_shows).trans ⟨⟨rfl, rfl⟩, rfl⟩

theorem State.stepIndex_sets {s : State} {c : Cfg} {q tuSample k : Nat} (hq : Quiet s.aligned)
    (hend : ∀ r ∈ s.roundTasks, s.hasEnded r.1.task r.2 = true) (hc : s.cfg = some c) (hr : s.blk.realign = some ⟨q, false⟩)
    (hk : tuSample / c.blockLen % 2 ^ 48 = k) :
    IndexSet s k q (s.stepIndex tuSample) ∧ NothingDue (s.stepIndex tuSample).atRest := by
  have hdue := hq.nothingDue
  obtain ⟨-, -, -, -, -, -, -, -, -, -, -, -, -, -, -, hsched, hlimp, hfailed, -, -, -⟩ := hq
  obtain ⟨net, flm, beat, ports, hstep, hop⟩ := State.stepIndex_eq hc hr hk
  obtain ⟨hround, hblk, hfld⟩ := State.endRound_quiet (s := s) hlimp hfailed hend
  generalize s.endRound = e at hround hblk hfld hstep hop
  obtain ⟨ns, hissue⟩ := State.issueToken_quiet (s := e) k tuSample ((hfld _ (by decide)).trans hsched) (by rw [hround.rest]; exact hfailed)
  rw [hissue] at hstep hop
  have hepoch := State.setEpoch_shows (e.issued k ns) tuSample
  have hmode : ((e.issued k ns).setEpoch tuSample).fld R.SYS_MODE_MODE = s.fld R.SYS_MODE_MODE :=
    (State.fld_setEpoch_ne _ _ (by decide)).trans (hfld _ (by decide))
  have hnew := (hround.trans (e.issued_round k ns)).trans hepoch.toRoundOnly
  have hb : ((e.issued k ns).setEpoch tuSample).blk = (e.issued k ns).blk := hepoch.blk
  generalize (e.issued k ns).setEpoch tuSample = u at hstep hop hmode hnew hb
  have hports := (u.indexStepped q net flm beat).restartPorts_ports
  generalize (u.indexStepped q net flm beat).restartPorts = v at hstep hports
  have hlive : ({ v with ports := ports } : State).outputsLive = s.outputsLive := by
    have hvm : v.mode = s.mode := State.mode_congr ((hports.fld _ (by decide)).trans hmode)
    have hvp : v.pmu = s.pmu := (congrArg State.pmu hports.rest :).trans (congrArg State.pmu hnew.rest :)
    change decide (v.mode = .live ∨ (v.mode = .limp ∧ v.pmu.limpShadow = false)) = _
    rw [hvm, hvp]
    rfl
  rw [State.rampIn_eq, hlive] at hstep
  have hw : s.stepIndex tuSample = { s with
      blk := { u.blk with realign := some ⟨q, true⟩, restart := 5, brg := [] }, regs := v.regs, sent := u.sent, freeCtr := u.freeCtr
      hif := u.hif, sxm := ⟨[], [], []⟩, net := net, flm := flm, beat := beat, ports := ports
      gate := if s.outputsLive then ⟨true, some (k + 3, 2, true)⟩ else s.gate } := by
    rw [hstep]
    conv_lhs => rw [hports.rest, State.indexStepped, hnew.rest]
  have hflm : flm.operates = false := by rw [hop, hnew.rest]; exact hdue.operates
  have hqueue : u.hif.queue = [] := hnew.queue.trans hdue.queue
  rw [hw]
  exact ⟨⟨by rw [hb]; rfl, by rw [hb, State.issued, hblk], rfl, rfl, rfl, rfl⟩,
    ⟨rfl, hdue.armed, hdue.fade, hflm, hdue.pairs, rfl, hqueue, hdue.rings⟩⟩

/-- With nothing else due, the command issues token Q + 2 of the realignment with token `q` (R69). -/
theorem exec_realignSetIndex {s : State} {q : Nat} (h : Quiet s.aligned) (hr : s.blk.realign = some ⟨q, false⟩) (hdue : q + 1 ≤ s.blk.index)
    (tuSample : Nat) : exec (.realignSetIndex tuSample) s = .next ((s.stepIndex tuSample).afterToken true) := by
  obtain ⟨hrun, hon, hsentry, hlimp, hlimpDue, hsleep, hask, hpwr, -, -, -, -, -, -, -, -, -, -, houts, -, -⟩ := h
  have hstep : s.stepDue = true := by
    unfold State.stepDue
    rw [hr]
    exact decide_eq_true hdue
  have hpmu := State.pmuBoundary_quiet (s := s) hlimp hlimpDue hsleep hask hpwr ((s.blk.index + 1) % 2 ^ 48)
  have htoken : s.blockToken tuSample = (s.stepIndex tuSample).afterToken true := by
    unfold State.blockToken
    dsimp only
    rw [if_pos ⟨hrun, hon⟩, State.drainStreams_quiet (s := s) houts, hpmu]
    refine (if_neg ?_).trans (if_pos hstep)
    rintro (hm | hstopped)
    · exact hsentry hm
    · exact absurd (hrun.symm.trans hstopped) (by decide)
  exact congrArg Host.Outcome.next ((if_pos hstep).trans htoken)

theorem realignSetIndex_sets {s : State} {c : Cfg} {q tuSample k : Nat} (hq : Quiet s.aligned)
    (hend : ∀ r ∈ s.roundTasks, s.hasEnded r.1.task r.2 = true) (hc : s.cfg = some c) (hr : s.blk.realign = some ⟨q, false⟩)
    (hdue : q + 1 ≤ s.blk.index) (hk : tuSample / c.blockLen % 2 ^ 48 = k) : Gives (.realignSetIndex tuSample) s (IndexSet s k q) := by
  obtain ⟨hset, hrest⟩ := State.stepIndex_sets hq hend hc hr hk
  have hramp := hq.nothingDue.ramp
  have hgate : (s.stepIndex tuSample).gateBoundary (s.stepIndex tuSample).blk.index = s.stepIndex tuSample := by
    rw [hset.index]
    refine State.gateBoundary_later ?_
    rw [hset.gate]
    split
    · exact .inr ⟨true, rfl⟩
    · exact .inl hramp
  exact ⟨_, exec_realignSetIndex hq hr hdue tuSample, hset.of_shows (State.afterToken_stepped hgate hrest)⟩

/-! ### The requests of a pair, and the obligation -/

theorem execFlmCmdHandover_eq (s : State) : exec .flmCmdHandover s =
    .next (if s.standbyPeer then { s with flm := { s.flm with asked := some 0 } } else s) := by
  change Host.Outcome.next (s.flmApply .flmHandover none).2 = _
  unfold State.flmApply
  dsimp only
  split <;> rfl

theorem execFlmCmdResync_eq (s : State) : exec .flmCmdResync s = .next (if s.flmState = 4 then s.emit (.flmItem (.resync 5)) else s) := by
  change Host.Outcome.next (s.flmApply .flmResync none).2 = _
  unfold State.flmApply
  dsimp only
  split <;> rfl

/-- Settles O49: Flam's registers lie outside the mirror set, so that each write reaches its register in every state of the pair; and the
token of the index step sets the index, with nothing else due. -/
theorem flamRequests : Obligations.FlamRequests := by
  refine ⟨fun s => ⟨fun h => ?_, fun h => ?_, fun h => ?_, fun h => ?_⟩,
    fun s v => ⟨fun h => ?_, fun h => ?_, fun h ho => ?_, fun h hk hn => ⟨?_, ?_⟩⟩, fun s h => hostClear_sets h rfl flmCounts_nodup,
    fun s tuSample q c hq hend hc hr hdue => ?_⟩
  · rw [execFlmCmdHandover_eq, if_pos h]
  · rw [execFlmCmdHandover_eq, if_neg (by simp [h])]
  · rw [execFlmCmdResync_eq, if_pos h]
  · rw [execFlmCmdResync_eq, if_neg h]
  · exact flmKeyWrite h (mirrorObject_flm (by decide) (by decide) (by decide)) (exec_flmHandoverWrite s v)
  · exact flmKeyWrite h (mirrorObject_flm (by decide) (by decide) (by decide)) (exec_flmResyncWrite s v)
  · exact exec_flmRealignWrite_other h ho
  · intro hs hp hnear
    refine flmRealignWrite_starts h hk hn ?_
    rw [State.pairRefusal, if_neg (not_not.mpr hs), if_neg (by simp [hp]), if_neg hnear]
  · intro hrefused
    obtain ⟨hcode, h0, hlt⟩ := State.pairRefusal_of_refused hrefused
    exact flmRealignWrite_refused h hk hn hcode h0 hlt
  · obtain ⟨t, hexec, ht⟩ := realignSetIndex_sets hq hend hc hr hdue rfl
    exact ⟨t, hexec, ht.index, ht.seq, ht.realign, ht.sxm, ht.mem, fun hm => ht.gate.trans (if_pos (decide_eq_true (.inl hm)))⟩

end Sys2Proof.Machine
end

section
namespace Sys2Proof.Machine

/-! ### Frames one after the other -/

theorem SameBut.trans {fs : List Fld} {s t u : State} (h : SameBut fs s t) (h' : SameBut fs t u) : SameBut fs s u := by
  refine ⟨fun f hf => (h'.1 f hf).trans (h.1 f hf), ?_⟩
  rw [h'.2]
  conv_lhs => rw [h.2]

theorem SameBut.withCln {fs : List Fld} {u t : State} (h : SameBut fs u t) (c : Cln) :
    SameBut fs { u with cln := c } { t with cln := c } := by
  refine ⟨h.1, ?_⟩
  conv_lhs => rw [h.2]

/-! ### Crosspoints and factors as they are written (R100, R108) -/

theorem xpKey_ne {i o j p : Nat} (hi : i < 2048) (hj : j < 2048) (h : (j, p) ≠ (i, o)) : xpKey j p ≠ xpKey i o := by
  simp only [xpKey, ne_eq, Prod.mk.injEq] at h ⊢
  omega

theorem State.xp_setXp_same (s : State) (i o : Nat) (x : Xp) : (s.setXp i o x).xp i o = x := Tbl.get_set_same ..

theorem State.xp_setXp_ne (s : State) {i o j p : Nat} (x : Xp) (h : xpKey j p ≠ xpKey i o) : (s.setXp i o x).xp j p = s.xp j p :=
  Tbl.get_set_ne _ _ _ _ h

theorem State.outF_setOutF_same (s : State) (o : Nat) (x : OutFactor) : (s.setOutF o x).outF o = x := Tbl.get_set_same ..

theorem State.outF_setOutF_ne (s : State) {o p : Nat} (x : OutFactor) (h : p ≠ o) : (s.setOutF o x).outF p = s.outF p :=
  Tbl.get_set_ne _ _ _ _ h

/-! ### The last block of a ramp (R104, R105) -/

theorem roundDiv_zero (den : Nat) : roundDiv 0 den = 0 := by
  obtain rfl | hden := Nat.eq_zero_or_pos den
  · rfl
  · unfold roundDiv
    rw [if_neg (by decide)]
    exact Int.ediv_eq_zero_of_lt (by omega) (by omega)

/-- A whole multiple of the divisor needs no rounding. -/
theorem roundDiv_mul_right (x : Int) {n : Nat} (hn : 0 < n) : roundDiv (x * n) n = x := by
  have hn' : (0 : Int) < n := by exact_mod_cast hn
  have hhalf : ∀ y : Int, (2 * (y * n) + n) / (2 * n) = y := fun y => by
    rw [Int.ediv_eq_iff_of_pos (by omega)]
    constructor <;> nlinarith
  unfold roundDiv
  split
  · rw [← Int.neg_mul, hhalf, neg_neg]
  · exact hhalf x

/-- The shape function is 0 before a ramp begins to move. -/
theorem shapeN_zero (profile len : Nat) : shapeN profile len 0 = 0 := by
  unfold shapeN; split <;> simp

theorem rampEnd_last (tgt cur : Int) (profile len : Nat) : rampEnd tgt cur profile len 1 = tgt := by
  simp [rampEnd, shapeN_zero, roundDiv_zero]

theorem rampSample_last (cur gEnd : Int) {n : Nat} (hn : 0 < n) : rampSample cur gEnd (n - 1) n = gEnd := by
  rw [rampSample, Nat.sub_add_cancel hn, roundDiv_mul_right _ hn]
  omega

/-! ### The end of a ramp (R101, R109) -/

theorem xpRampEnd_frees {s : State} {i o : Nat} (h : (s.xp i o).remain = 0) : Gives (.xpRampEnd i o) s (fun t =>
    (t.xp i o).cur = (s.xp i o).tgt ∧ (t.xp i o).entry = false ∧
    (∀ j < 2048, ∀ p, i < 2048 → (j, p) ≠ (i, o) → t.xp j p = s.xp j p) ∧ t = { s with cln := t.cln }) := by
  refine ⟨_, if_pos h, ?_, ?_, fun j hj p hi hne => s.xp_setXp_ne _ (xpKey_ne hi hj hne), rfl⟩
  all_goals rw [State.xp_setXp_same]

theorem outFactorRampEnd_ends {s : State} {o : Nat} (h : (s.outF o).remain = 0) : Gives (.outFactorRampEnd o) s (fun t =>
    (t.outF o).f = (s.outF o).target ∧ t.fld (R.CLN_OUT0_RAMPING o) = 0 ∧ (∀ p, p ≠ o → t.outF p = s.outF p) ∧
    SameBut [R.CLN_OUT0_RAMPING o] { s with cln := t.cln } t) := by
  refine ⟨_, if_pos h, ?_, State.fld_setFld_same .., fun p hp => s.outF_setOutF_ne _ hp, (SameBut.refl _ _).setFld 0 (by simp)⟩
  exact congrArg OutFactor.f (s.outF_setOutF_same o _)

/-- Settles O21: at the last block the shape function stands at 0 before the target, and the ramp's end writes its own crosspoint or factor
alone. -/
theorem rampsEndOnTheirTarget : Obligations.RampsEndOnTheirTarget :=
  ⟨rampEnd_last, fun cur gEnd _ hn => rampSample_last cur gEnd hn, fun _ _ _ h => xpRampEnd_frees h, fun _ _ h => outFactorRampEnd_ends h⟩

end Sys2Proof.Machine
end

section
namespace Sys2Proof.Machine

/-! ### The commands of a write that has reached its register (R115, R134, R345) -/

theorem SameBut.withHeld {fs : List Fld} {u t : State} (h : SameBut fs u t) (hs : List Held) (n : Nat) :
    SameBut fs { u with held := hs, heldNext := n } { t with held := hs, heldNext := n } := by
  refine ⟨h.1, ?_⟩
  conv_lhs => rw [h.2]

/-- A command taken in by a write bears its master and its number. -/
theorem State.held_tagHeld_hold (s : State) (c : Held) (m : Nat) : ∃ h ∈ ((s.hold c).tagHeld s.heldNext m none).held,
    h.cmd = c.cmd ∧ h.stamp = c.stamp ∧ h.master = m ∧ h.id = s.heldNext := by
  refine ⟨_, List.mem_map_of_mem (List.mem_append_right _ List.mem_cons_self), ?_⟩
  dsimp only
  rw [if_pos le_rfl]
  exact ⟨rfl, rfl, rfl, rfl⟩

/-- Commands taken in earlier stay as they were. -/
theorem State.mem_held_tagHeld {s : State} {h : Held} (hh : h ∈ s.held) {n : Nat} (hid : h.id < n) (m : Nat) :
    h ∈ (s.tagHeld n m none).held :=
  List.mem_map.mpr ⟨h, hh, if_neg (by omega)⟩

theorem State.length_held_tagHeld (s : State) (n m : Nat) : (s.tagHeld n m none).held.length = s.held.length := List.length_map ..

theorem State.cmds_tagHeld (s : State) (n m : Nat) : (s.tagHeld n m none).held.map (·.cmd) = s.held.map (·.cmd) := by
  simp only [State.tagHeld, List.map_map]
  refine List.map_congr_left fun h _ => ?_
  simp only [Function.comp_apply]
  split <;> rfl

theorem SameBut.tagHeld {fs : List Fld} {u t : State} (h : SameBut fs u t) (n m : Nat) :
    SameBut fs { u with held := (t.tagHeld n m none).held } (t.tagHeld n m none) := by
  have hn : t.heldNext = u.heldNext := (congrArg State.heldNext h.2 :)
  have hframe := h.withHeld (t.tagHeld n m none).held u.heldNext
  rw [← hn] at hframe ⊢
  exact hframe

/-- What a write leaves that takes one command in, beside the fields it has counted in; `hs` are the commands that were held before. -/
theorem SameBut.holdTagged {fs : List Fld} {s u : State} (h : SameBut fs s u) (hn : u.heldNext = s.heldNext) (hs : List Held) (c : Held)
    (m : Nat) : let t := (({ u with held := hs } : State).hold c).tagHeld s.heldNext m none
      SameBut fs { s with held := t.held, heldNext := s.heldNext + 1 } t := by
  have hframe := h.withHeld ((({ u with held := hs } : State).hold c).tagHeld s.heldNext m none).held (s.heldNext + 1)
  rwa [← hn] at hframe ⊢

end Sys2Proof.Machine
end

section
namespace Sys2Proof.Machine

/-! ### One filter's bank is selected (R129) -/

theorem State.filt_setFilt_same (s : State) (f : Nat) (x : ChmFilter) : (s.setFilt f x).filt f = x := Tbl.get_set_same ..

theorem State.filt_setFilt_ne (s : State) {f g : Nat} (x : ChmFilter) (h : g ≠ f) : (s.setFilt f x).filt g = s.filt g :=
  Tbl.get_set_ne _ _ _ _ h

/-- A filter without a fade, once bank `b` is selected: its fade to the other bank starts, where that is `b`. -/
def ChmFilter.picks (x : ChmFilter) (b len : Nat) : ChmFilter :=
  if x.active = b then x else { x with active := b, idle := .busy, fade := some (0, len, false) }

theorem State.selectBank_still {s : State} {f : Nat} (h : (s.filt f).fade = none) (b len : Nat) :
    s.selectBank f b len = if b = (s.filt f).active then s
      else s.setFilt f { s.filt f with active := b, idle := .busy, fade := some (0, len, false) } := by
  unfold State.selectBank
  dsimp only
  rw [h]

theorem State.filt_selectBank {s : State} {f : Nat} (h : (s.filt f).fade = none) (b len g : Nat) :
    (s.selectBank f b len).filt g = if g = f then (s.filt f).picks b len else s.filt g := by
  rw [State.selectBank_still h, ChmFilter.picks]
  by_cases hb : b = (s.filt f).active
  · rw [if_pos hb, if_pos hb.symm]
    split
    · next hg => rw [hg]
    · rfl
  · rw [if_neg hb, if_neg (Ne.symm hb)]
    split
    · next hg => rw [hg, State.filt_setFilt_same]
    · next hg => exact s.filt_setFilt_ne _ hg

/-- `t` differs from `s` in the banks of Chimes' filters alone. -/
def BanksOnly (s t : State) : Prop := t = { s with chm := { s.chm with filters := t.chm.filters } }

theorem BanksOnly.trans {s t u : State} (h : BanksOnly s t) (h' : BanksOnly t u) : BanksOnly s u := by
  unfold BanksOnly at *
  rw [h', h]

theorem BanksOnly.ite {s t u : State} {c : Prop} [Decidable c] (ht : BanksOnly s t) (hu : BanksOnly s u) :
    BanksOnly s (if c then t else u) := by
  split
  · exact ht
  · exact hu

theorem State.selectBank_banks (s : State) (f b len : Nat) : BanksOnly s (s.selectBank f b len) := by
  unfold State.selectBank
  dsimp only
  split
  · exact .ite rfl rfl
  · exact .ite rfl rfl

/-! ### A range of filters (R129, R135) -/

/-- Bank `b` is selected on `n` filters from `first`. -/
def State.selectRange (s : State) (first b len n : Nat) : State := (List.range n).foldl (fun s j => s.selectBank (first + j) b len) s

theorem State.selectRange_succ (s : State) (first b len n : Nat) :
    s.selectRange first b len (n + 1) = (s.selectRange first b len n).selectBank (first + n) b len := by
  simp [State.selectRange, List.range_succ]

theorem State.selectRange_banks (s : State) (first b len n : Nat) : BanksOnly s (s.selectRange first b len n) :=
  List.foldlRecOn (motive := BanksOnly s) (List.range n) _ rfl fun _ h _ _ => h.trans (State.selectBank_banks ..)

theorem State.filt_selectRange {s : State} {first n : Nat} (h : ∀ j < n, (s.filt (first + j)).fade = none) (b len g : Nat) :
    (s.selectRange first b len n).filt g = if first ≤ g ∧ g < first + n then (s.filt g).picks b len else s.filt g := by
  induction n generalizing g with
  | zero => rw [if_neg (by omega)]; rfl
  | succ n ih =>
    have ih := ih fun j hj => h j (by omega)
    have hlast : (s.selectRange first b len n).filt (first + n) = s.filt (first + n) := by rw [ih, if_neg (by omega)]
    rw [State.selectRange_succ, State.filt_selectBank (by rw [hlast]; exact h n (by omega)), hlast, ih]
    by_cases hg : g = first + n
    · rw [if_pos hg, if_pos (by omega), hg]
    · rw [if_neg hg]
      exact if_congr (by omega) rfl rfl

/-! ### Whether a request goes, waits or is discarded (R129, R135, R136) -/

/-- The filters of a request with the bank that it selects. -/
def selectTargets (first count bank : Nat) : List (Nat × Nat) := (List.range count).map fun j => (first + j, bank)

theorem forall_selectTargets {first count bank : Nat} {p : Nat × Nat → Prop} :
    (∀ t ∈ selectTargets first count bank, p t) ↔ ∀ j < count, p (first + j, bank) := by
  simp [selectTargets]

theorem exists_selectTargets {first count bank : Nat} {p : Nat × Nat → Prop} :
    (∃ t ∈ selectTargets first count bank, p t) ↔ ∃ j < count, p (first + j, bank) := by
  simp [selectTargets]

/-- Filter `f` is defined and not locked by a swap. -/
def State.unlocked (s : State) (f : Nat) : Prop := (s.filterRec? f).isSome = true ∧ (s.filt f).locked = 0

theorem State.selectAll_discards {s : State} {ts : List (Nat × Nat)} (h : ∃ t ∈ ts, ¬ s.unlocked t.1) (len : Nat) :
    s.selectAll ts len = some (.error ()) := by
  obtain ⟨t, ht, hlocked⟩ := h
  refine if_pos (List.any_eq_true.mpr ⟨t, ht, ?_⟩)
  obtain hundef | hlock := not_and_or.mp hlocked
  · simp [Option.not_isSome_iff_eq_none.mp hundef]
  · simp [hlock]

section
variable {s : State} {ts : List (Nat × Nat)} (hu : ∀ t ∈ ts, s.unlocked t.1) (hi : ∀ t ∈ ts, (s.filt t.1).idle ≠ .invalid)
include hu hi

theorem State.selectAll_legal (len : Nat) : s.selectAll ts len =
    if ts.any (fun t => decide ((s.filt t.1).fade = none ∧ (s.filt t.1).active ≠ t.2) && decide ((s.filt t.1).idle = .loading)) then none
    else some (.ok (ts.foldl (fun s t => s.selectBank t.1 t.2 len) s)) := by
  refine if_neg fun hany => ?_
  obtain ⟨t, ht, hbad⟩ := List.any_eq_true.mp hany
  obtain ⟨hdef, hlock⟩ := hu t ht
  have hidle := hi t ht
  simp [hlock, hidle, Option.isSome_iff_ne_none.mp hdef] at hbad

theorem State.selectAll_waits (len : Nat)
    (hw : ∃ t ∈ ts, (s.filt t.1).fade = none ∧ (s.filt t.1).active ≠ t.2 ∧ (s.filt t.1).idle = .loading) : s.selectAll ts len = none := by
  obtain ⟨t, ht, hfade, hact, hload⟩ := hw
  rw [State.selectAll_legal hu hi, if_pos (List.any_eq_true.mpr ⟨t, ht, by simp [hfade, hact, hload]⟩)]

theorem State.selectAll_goes (len : Nat) (hr : ∀ t ∈ ts, (s.filt t.1).idle ≠ .loading) :
    s.selectAll ts len = some (.ok (ts.foldl (fun s t => s.selectBank t.1 t.2 len) s)) := by
  rw [State.selectAll_legal hu hi, if_neg]
  rw [List.any_eq_true]
  rintro ⟨t, ht, hload⟩
  simp [hr t ht] at hload

end

/-! ### Bank selects given as a row (R134, R135) -/

theorem exec_bankSelect_later {s : State} (h : s.atBoundary .chm 3 = false) (first count len bank : Nat) :
    exec (.bankSelect first count len bank) s = .next (s.hold (heldOf .chm (.bankSelect first count len bank) .notNeeded)) :=
  congrArg Host.Outcome.next (if_neg (by simp [h]))

/-- A request that R134 and R135 let stand. -/
def SelectLegal (s : State) (count len bank : Nat) : Prop :=
  s.chmPresent = true ∧ 1 ≤ count ∧ count ≤ 512 ∧ 16 ≤ len ∧ len ≤ 1024 ∧ bank ≤ 1

section
variable {s : State} {first count len bank : Nat}

theorem exec_bankSelect_applies (hb : s.atBoundary .chm 3 = true) {k : Nat} {t : State}
    (h : s.chmApply (.bankSelect first count len bank) .notNeeded = some (k, t)) : exec (.bankSelect first count len bank) s = .next t := by
  change Host.Outcome.next (s.chmCommand _) = _
  rw [State.chmCommand, if_pos hb, h]

theorem exec_bankSelect_waits (hb : s.atBoundary .chm 3 = true)
    (h : s.chmApply (.bankSelect first count len bank) .notNeeded = none) :
    exec (.bankSelect first count len bank) s = .next (s.holdLate .chm (.bankSelect first count len bank)) := by
  change Host.Outcome.next (s.chmCommand _) = _
  rw [State.chmCommand, if_pos hb, h]

theorem State.chmApply_bankSelect_illegal (h : ¬ SelectLegal s count len bank) :
    s.chmApply (.bankSelect first count len bank) .notNeeded = some (2, s.chmReject) := by
  refine if_neg fun hlegal => h ?_
  simpa [SelectLegal] using hlegal

/-- A legal request does what its filters let it. -/
theorem State.chmApply_bankSelect (h : SelectLegal s count len bank) {r : Option (Except Unit State)}
    (hr : s.selectAll (selectTargets first count bank) len = r) : s.chmApply (.bankSelect first count len bank) .notNeeded =
      r.map (fun e => e.toOption.elim (2, s.chmReject) (fun t => (0, t))) := by
  obtain ⟨hp, hlegal⟩ := h
  subst hr
  refine (if_pos (by simp only [hp, hlegal, Bool.true_and, and_self, decide_true])).trans ?_
  change _ = (s.selectAll ((List.range count).map fun j => (first + j, bank)) len).map _
  rcases s.selectAll _ len with _ | _ | _ <;> rfl

theorem State.chmReject_shows (s : State) : SameBut [R.CHM_CMD_REJECT_COUNT, R.CHM_INT_STATUS_CMD_REJECT] s s.chmReject ∧
    s.chmReject.fld R.CHM_CMD_REJECT_COUNT = min (s.fld R.CHM_CMD_REJECT_COUNT + 1) (2 ^ 32 - 1) ∧
    bit (s.chmReject.fld R.CHM_INT_STATUS_CMD_REJECT) 0 = 1 :=
  ⟨(SameBut.refl _ s).countAndRaise (by simp) (by simp), State.fld_countAndRaise_count s (by decide),
    State.fld_countAndRaise_flag s (by decide)⟩

/-- A request is discarded that is not legal, or of which a filter is undefined or locked. -/
theorem bankSelect_refused (hb : s.atBoundary .chm 3 = true)
    (h : ¬ SelectLegal s count len bank ∨ ∃ j < count, ¬ s.unlocked (first + j)) :
    Turns (.bankSelect first count len bank) s [R.CHM_CMD_REJECT_COUNT, R.CHM_INT_STATUS_CMD_REJECT] s (fun t =>
      t.fld R.CHM_CMD_REJECT_COUNT = min (s.fld R.CHM_CMD_REJECT_COUNT + 1) (2 ^ 32 - 1) ∧ bit (t.fld R.CHM_INT_STATUS_CMD_REJECT) 0 = 1) := by
  refine ⟨_, exec_bankSelect_applies (k := 2) hb ?_, s.chmReject_shows⟩
  by_cases hl : SelectLegal s count len bank
  · have hfilter : ∃ t ∈ selectTargets first count bank, ¬ s.unlocked t.1 := exists_selectTargets.mpr (h.resolve_left (not_not.mpr hl))
    exact State.chmApply_bankSelect hl (State.selectAll_discards hfilter len)
  · exact State.chmApply_bankSelect_illegal hl

section
variable (hb : s.atBoundary .chm 3 = true) (hl : SelectLegal s count len bank) (hu : ∀ j < count, s.unlocked (first + j))
include hb hl hu

theorem bankSelect_fades (hs : ∀ j < count, (s.filt (first + j)).fade = none ∧ (s.filt (first + j)).idle = .ready) :
    exec (.bankSelect first count len bank) s = .next (s.selectRange first bank len count) := by
  have hgoes := State.selectAll_goes (ts := selectTargets first count bank) (forall_selectTargets.mpr hu)
    (forall_selectTargets.mpr fun j hj => by rw [(hs j hj).2]; decide) len
    (forall_selectTargets.mpr fun j hj => by rw [(hs j hj).2]; decide)
  have hfold : (selectTargets first count bank).foldl (fun s t => s.selectBank t.1 t.2 len) s = s.selectRange first bank len count :=
    List.foldl_map
  rw [hfold] at hgoes
  exact exec_bankSelect_applies hb (State.chmApply_bankSelect hl hgoes)

theorem bankSelect_waits (hi : ∀ j < count, (s.filt (first + j)).idle ≠ .invalid)
    (hw : ∃ j < count, (s.filt (first + j)).fade = none ∧ (s.filt (first + j)).active ≠ bank ∧ (s.filt (first + j)).idle = .loading) :
    exec (.bankSelect first count len bank) s = .next (s.holdLate .chm (.bankSelect first count len bank)) := by
  have hwaits := State.selectAll_waits (ts := selectTargets first count bank) (forall_selectTargets.mpr hu) (forall_selectTargets.mpr hi)
    len (exists_selectTargets.mpr hw)
  exact exec_bankSelect_waits hb (State.chmApply_bankSelect hl hwaits)

end
end

theorem State.filtersIn_iff (s : State) (first count : Nat) :
    s.filtersIn first count = true ↔ ∀ j < count, (s.filterRec? (first + j)).isSome = true := by
  simp [State.filtersIn]

/-! ### The end of a fade, and CHM_SELECT (R129, R137) -/

theorem exec_bankFadeEnd {s : State} {f a len k : Nat} {rev : Bool} {idle : IdleBank} (h : s.filt f = ⟨a, idle, some (k, len, rev), 0⟩)
    (hin : rev = false → k = len) (hout : rev = true → k = 0) : exec (.bankFadeEnd f) s =
      .next ((s.setFilt f ⟨if rev then 1 - a else a, .ready, none, 0⟩).raise R.CHM_INT_STATUS_XFADE_DONE) := by
  have hend : (s.filt f).fadeAtEnd = true := by
    rw [h]
    cases rev
    · exact decide_eq_true (hin rfl)
    · exact decide_eq_true (hout rfl)
  refine (if_pos hend).trans (congrArg Host.Outcome.next ?_)
  unfold State.endFade
  rw [h]
  rfl

theorem bankFadeEnd_readies {s : State} {f a len k : Nat} {rev : Bool} {idle : IdleBank} (h : s.filt f = ⟨a, idle, some (k, len, rev), 0⟩)
    (hin : rev = false → k = len) (hout : rev = true → k = 0) : Turns (.bankFadeEnd f) s [R.CHM_INT_STATUS_XFADE_DONE]
      { s with chm := (s.setFilt f ⟨if rev then 1 - a else a, .ready, none, 0⟩).chm }
      (fun t => t.filt f = ⟨if rev then 1 - a else a, .ready, none, 0⟩ ∧ bit (t.fld R.CHM_INT_STATUS_XFADE_DONE) 0 = 1) := by
  refine ⟨_, exec_bankFadeEnd h hin hout, (SameBut.refl _ _).raise (by simp), ?_, State.fld_raise_same _ (by decide)⟩
  unfold State.filt
  rw [State.raise_chm]
  exact s.filt_setFilt_same f _

theorem chmSelectWrite_holds {s : State} (h : HostReaches s 0x14200020) (v : Word) : Gives (.chmSelectWrite v) s (fun t =>
    (∃ c ∈ t.held, c.id = s.heldNext ∧ c.stamp = none ∧ c.cmd = chmSelectCmd v) ∧ t.held.length = s.held.length + 1 ∧
    SameBut [R.XB_OUTSTANDING_PEAK 0] { s with held := t.held, heldNext := s.heldNext + 1 } t) := by
  have hnext : (s.touch 0).heldNext = s.heldNext := State.touch_heldNext ..
  obtain ⟨c, hc, hcmd, hstamp, -, hid⟩ := (s.touch 0).held_tagHeld_hold (heldOf .chm (chmSelectCmd v) .notNeeded) 0
  rw [hnext] at hc hid
  refine ⟨_, congrArg Host.Outcome.next (hostSet_reach h v fun s => s.chmSelectWrite v), ⟨c, hc, hid, hstamp, hcmd⟩, ?_, ?_⟩
  · rw [State.answered, State.emit_held, State.length_held_tagHeld]
    simp [State.chmSelectWrite, State.hold]
  · exact (((SameBut.refl _ s).touch (by simp)).holdTagged hnext (s.touch 0).held _ 0).emit _

/-- Settles O22: a request whose filters are all defined and unlocked fades them one by one, each filter's fade being its own; a filter
whose bank is LOADING holds it whole, and a filter that is undefined or locked discards it. -/
theorem bankSelects : Obligations.BankSelects := by
  refine ⟨fun s first count len bank => ⟨fun hb => ?_, fun hb hp hin h0 hcount h16 hlen hbank => ?_, fun hb hbad => ?_⟩,
    fun s f a len k rev idle h hin hout => bankFadeEnd_readies h hin hout, fun s v h => chmSelectWrite_holds h v⟩
  · exact ⟨_, exec_bankSelect_later hb first count len bank, ⟨_, rfl, rfl, rfl⟩, rfl⟩
  · have hl : SelectLegal s count len bank := ⟨hp, h0, hcount, h16, hlen, by omega⟩
    have hdef := (s.filtersIn_iff first count).mp hin
    refine ⟨fun hready => ?_, fun hfree hw => ?_⟩
    · have hstill : ∀ j < count, (s.filt (first + j)).fade = none := fun j hj => (hready j hj).2.1
      refine ⟨_, bankSelect_fades hb hl (fun j hj => ⟨hdef j hj, (hready j hj).1⟩) fun j hj => (hready j hj).2, fun j hj => ?_,
        fun f hf => ?_, s.selectRange_banks first bank len count⟩
      · rw [State.filt_selectRange hstill, if_pos (by omega), ChmFilter.picks, (hready j hj).1]
      · rw [State.filt_selectRange hstill, if_neg (by omega)]
    · have hunlocked : ∀ j < count, s.unlocked (first + j) := fun j hj => ⟨hdef j hj, (hfree j hj).1⟩
      exact ⟨_, bankSelect_waits hb hl hunlocked (fun j hj => (hfree j hj).2) hw, ⟨_, rfl, rfl, rfl⟩, rfl⟩
  · refine bankSelect_refused hb ?_
    rw [or_iff_not_imp_left, not_not]
    rintro ⟨hp, h1, h512, h16, h1024, hbank⟩
    obtain h | h | h | h | h | h | h | ⟨j, hj, hlock⟩ := hbad
    · cases hp.symm.trans h
    iterate 5 · omega
    · by_contra hall
      have hin := (s.filtersIn_iff first count).mpr fun j hj => (not_not.mp fun hu => hall ⟨j, hj, hu⟩).1
      cases hin.symm.trans h
    · exact ⟨j, hj, fun hu => hlock hu.2⟩

end Sys2Proof.Machine
end

section
namespace Sys2Proof.Machine

/-! ### What changes of crosspoints leave (R101, R103, R108) -/

/-- `t` is `s` but for the register fields `fs`, the crosspoints, and the targets and ramps of the outputs' factors. -/
structure Retargets (fs : List Fld) (s t : State) : Prop where
  cln : t.cln = { s.cln with xp := t.cln.xp, outs := t.cln.outs }
  factor : ∀ o, (t.outF o).f = (s.outF o).f
  frame : SameBut fs { s with cln := t.cln } t

namespace Retargets

variable {fs gs : List Fld} {s t u : State}

theorem refl (fs : List Fld) (s : State) : Retargets fs s s := ⟨rfl, fun _ => rfl, .refl _ _⟩

theorem trans (h : Retargets fs s t) (h' : Retargets fs t u) : Retargets fs s u where
  cln := by rw [h'.cln, h.cln]
  factor o := (h'.factor o).trans (h.factor o)
  frame := (h.frame.withCln u.cln).trans h'.frame

theorem mono (h : Retargets fs s t) (hs : ∀ f ∈ fs, f ∈ gs) : Retargets gs s t := ⟨h.cln, h.factor, h.frame.mono hs⟩

theorem setFld (h : Retargets fs s t) {f : Fld} (v : Nat) (hf : f ∈ fs) : Retargets fs s (t.setFld f v) :=
  h.trans ⟨rfl, fun _ => rfl, (SameBut.refl fs t).setFld v hf⟩

theorem bump (h : Retargets fs s t) {f : Fld} (n : Nat) (hf : f ∈ fs) : Retargets fs s (t.bump f n) := by
  refine h.trans ⟨?_, fun o => ?_, ?_⟩
  · rw [State.bump_cln]
  · rw [State.outF, State.bump_cln]; rfl
  · rw [State.bump_cln]
    exact (SameBut.refl fs t).bump n hf

theorem setXp (h : Retargets fs s t) (i o : Nat) (x : Xp) : Retargets fs s (t.setXp i o x) :=
  h.trans ⟨rfl, fun _ => rfl, .refl _ _⟩

theorem setOutF (h : Retargets fs s t) {o : Nat} {x : OutFactor} (hx : x.f = (t.outF o).f) : Retargets fs s (t.setOutF o x) := by
  refine h.trans ⟨rfl, fun p => ?_, .refl _ _⟩
  by_cases hp : p = o
  · rw [hp, State.outF_setOutF_same, hx]
  · rw [t.outF_setOutF_ne x hp]

theorem foldl {α : Type} {f : State → α → State} (xs : List α) (hf : ∀ u, ∀ x ∈ xs, Retargets fs u (f u x)) (s : State) :
    Retargets fs s (xs.foldl f s) :=
  List.foldlRecOn (motive := Retargets fs s) xs f (refl fs s) fun u hu x hx => hu.trans (hf u x hx)

/-- A field beside those that change stands as it did. -/
theorem fld (h : Retargets fs s t) {f : Fld} (hf : ∀ g ∈ fs, f.key ≠ g.key) : t.fld f = s.fld f := h.frame.1 f hf

end Retargets

/-! ### The outputs' targets are formed anew (R108, R109) -/

/-- The fields that show output `o`'s factor. -/
def outFlds (o : Nat) : List Fld := [R.CLN_OUT0_ACTIVE o, R.CLN_OUT0_SHIFT o, R.CLN_OUT0_RAMPING o]

/-- Those of the first `n` outputs. -/
def outsFlds (n : Nat) : List Fld := (List.range n).flatMap outFlds

theorem State.settleOut_retargets (s : State) (o : Nat) : Retargets (outFlds o) s (s.settleOut o) := by
  refine ((((Retargets.refl _ s).setFld _ ?_).setFld _ ?_).setFld _ ?_).setOutF ?_
  iterate 3 simp [outFlds]
  exact (apply_ite OutFactor.f _ _ _).trans (ite_self _)

theorem State.clnSettle_retargets (s : State) : Retargets (outsFlds s.clnOutputs) s s.clnSettle :=
  .foldl _ (fun u o ho => (u.settleOut_retargets o).mono fun _ hf => List.mem_flatMap.mpr ⟨o, ho, hf⟩) s

theorem State.clnSettle_xp (s : State) : s.clnSettle.cln.xp = s.cln.xp :=
  List.foldlRecOn (motive := fun t => (State.cln t).xp = s.cln.xp) (List.range s.clnOutputs) _ rfl fun _ hu _ _ => hu

/-- Changes of fields that are not the geometry, and the outputs formed anew from them. -/
theorem Retargets.settled {fs : List Fld} {s t : State} (h : Retargets fs s t) (hg : ∀ g ∈ fs, R.CLN_GEOM_OUTPUTS.key ≠ g.key) :
    Retargets (fs ++ outsFlds s.clnOutputs) s t.clnSettle := by
  have hsettle := t.clnSettle_retargets
  rw [State.clnOutputs, h.fld hg] at hsettle
  exact (h.mono fun _ hf => List.mem_append_left _ hf).trans (hsettle.mono fun _ hf => List.mem_append_right _ hf)

/-- A field that shows no output's factor stands while the outputs are formed anew. -/
theorem State.fld_clnSettle_ne (s : State) {f : Fld} (h : ∀ o, ∀ g ∈ outFlds o, f.key ≠ g.key) : s.clnSettle.fld f = s.fld f := by
  refine s.clnSettle_retargets.fld fun g hg => ?_
  obtain ⟨o, -, ho⟩ := List.mem_flatMap.mp hg
  exact h o g ho

/-! ### Changes of crosspoints in standard storage (R101, R103) -/

/-- A crosspoint that starts for `g` over `len` blocks under `slot`. -/
def Xp.aimed (x : Xp) (g : Int) (len slot : Nat) : Xp := { x with tgt := g, remain := len, slot := slot, entry := true }

theorem Xp.aimed_aimed (x : Xp) (g : Int) (len slot : Nat) : (x.aimed g len slot).aimed g len slot = x.aimed g len slot := rfl

theorem State.changeXp_standard {s : State} (h : s.clnWide = false) (i o : Nat) (g : Int) (slot : Nat) :
    s.changeXp i o g slot = (s.setXp i o ((s.xp i o).aimed g (s.slotLen slot) slot)).bump R.CLN_CHANGES_LAST_COUNT 1 := by
  unfold State.changeXp State.startRamp
  simp only [h, Bool.false_eq_true, if_false]
  rfl

/-- The crosspoints `ps`, each an input and an output, start for `g` under `slot`. -/
def State.retargetAll (s : State) (ps : List (Nat × Nat)) (g : Int) (slot : Nat) : State :=
  ps.foldl (fun s p => s.changeXp p.1 p.2 g slot) s

section
variable {s : State} (hw : s.clnWide = false)
include hw

theorem State.changeXp_retargets (i o : Nat) (g : Int) (slot : Nat) : Retargets [R.CLN_CHANGES_LAST_COUNT] s (s.changeXp i o g slot) := by
  rw [State.changeXp_standard hw]
  exact ((Retargets.refl _ s).setXp _ _ _).bump 1 (by simp)

theorem State.xp_changeXp (i o : Nat) (g : Int) (slot j p : Nat) : (s.changeXp i o g slot).xp j p =
    if xpKey j p = xpKey i o then (s.xp j p).aimed g (s.slotLen slot) slot else s.xp j p := by
  rw [State.changeXp_standard hw, State.xp, State.bump_cln]
  split
  · next h =>
    rw [h]
    refine (s.xp_setXp_same i o _).trans ?_
    rw [State.xp, State.xp, h]
  · next h => exact s.xp_setXp_ne _ h

end

theorem State.retargetAll_retargets {s : State} (hw : s.clnWide = false) (ps : List (Nat × Nat)) (g : Int) (slot : Nat) :
    Retargets [R.CLN_CHANGES_LAST_COUNT] s (s.retargetAll ps g slot) := by
  induction ps generalizing s with
  | nil => exact .refl _ s
  | cons p ps ih =>
    have hp := State.changeXp_retargets hw p.1 p.2 g slot
    refine hp.trans (ih ?_)
    rw [State.clnWide, hp.fld (by decide)]
    exact hw

/-- Each crosspoint of `ps` starts for `g`, and no other changes. -/
theorem State.xp_retargetAll {s : State} (hw : s.clnWide = false) (ps : List (Nat × Nat)) (g : Int) {slot : Nat} (hs : slot < 16)
    (j p : Nat) : (s.retargetAll ps g slot).xp j p =
      if ∃ q ∈ ps, xpKey j p = xpKey q.1 q.2 then (s.xp j p).aimed g (s.slotLen slot) slot else s.xp j p := by
  induction ps generalizing s with
  | nil => simp [State.retargetAll]
  | cons q ps ih =>
    have hq := State.changeXp_retargets hw q.1 q.2 g slot
    have hwide : (s.changeXp q.1 q.2 g slot).clnWide = false := by
      rw [State.clnWide, hq.fld (by decide)]
      exact hw
    have hlen : (s.changeXp q.1 q.2 g slot).slotLen slot = s.slotLen slot := by
      rw [State.slotLen, hq.fld (by simp [Fld.key]; omega)]
      rfl
    change ((s.changeXp q.1 q.2 g slot).retargetAll ps g slot).xp j p = _
    rw [ih hwide, State.xp_changeXp hw, hlen]
    simp only [List.mem_cons, exists_eq_or_imp]
    by_cases hhead : xpKey j p = xpKey q.1 q.2
    · rw [if_pos hhead, Xp.aimed_aimed, ite_self, if_pos (.inl hhead)]
    · rw [if_neg hhead]
      exact if_congr (by simp [hhead]) rfl rfl

end Sys2Proof.Machine
end

section
namespace Sys2Proof.Machine

/-! ### Crosspoint commands while no part of the block has begun (R112, R114, R115) -/

theorem State.clnCommand_applies {s t : State} {c : Cmd} {k : Nat} (ho : s.clnOpen = true) (h : s.clnApply c .notNeeded = some (k, t)) :
    s.clnCommand c = t := by
  rw [State.clnCommand, if_pos ho, h]

theorem State.clnCommand_later {s : State} (ho : s.clnOpen = false) (c : Cmd) : s.clnCommand c = s.hold (heldOf .cln c .notNeeded) :=
  if_neg (by simp [ho])

theorem State.retargetAll_settled {s : State} (hw : s.clnWide = false) (ps : List (Nat × Nat)) (g : Int) (slot : Nat) :
    Retargets (R.CLN_CHANGES_LAST_COUNT :: outsFlds s.clnOutputs) s (s.retargetAll ps g slot).clnSettle :=
  (State.retargetAll_retargets hw ps g slot).settled (by decide)

section
variable {s : State} (hw : s.clnWide = false) {ps : List (Nat × Nat)} (g : Int) {slot : Nat} (hs : slot < 16)
include hw hs

theorem State.xp_retargetAll_mem {j p : Nat} (h : (j, p) ∈ ps) :
    (s.retargetAll ps g slot).clnSettle.xp j p = (s.xp j p).aimed g (s.slotLen slot) slot := by
  rw [State.xp, State.clnSettle_xp]
  exact (State.xp_retargetAll hw ps g hs j p).trans (if_pos ⟨(j, p), h, rfl⟩)

theorem State.xp_retargetAll_other (hps : ∀ q ∈ ps, q.1 < 2048) {j p : Nat} (hj : j < 2048) (h : (j, p) ∉ ps) :
    (s.retargetAll ps g slot).clnSettle.xp j p = s.xp j p := by
  rw [State.xp, State.clnSettle_xp]
  refine (State.xp_retargetAll hw ps g hs j p).trans (if_neg ?_)
  rintro ⟨q, hq, he⟩
  exact xpKey_ne (hps q hq) hj (fun hne => h (hne ▸ hq)) he

end

/-- In standard storage a set of changes to one gain that fits is applied whole. -/
theorem State.applyChanges_standard {s : State} (hw : s.clnWide = false) {n : Nat} (hfit : s.changesFit n = true)
    (hq : s.cln.waitQ.length ≤ 65535) (ps : List (Nat × Nat)) (g : Int) (slot : Nat) :
    s.applyChanges n (ps.map fun p => (p.1, p.2, g, slot)) = some (s.retargetAll ps g slot) := by
  have hfold : (ps.map fun p => (p.1, p.2, g, slot)).foldl (fun s c => s.changeXp c.1 c.2.1 c.2.2.1 c.2.2.2) s = s.retargetAll ps g slot :=
    List.foldl_map
  have hwait : (s.retargetAll ps g slot).cln.waitQ = s.cln.waitQ := by
    rw [(State.retargetAll_retargets hw ps g slot).cln]
  unfold State.applyChanges
  dsimp only
  rw [if_pos hfit, hfold, hwait, if_pos (by omega)]

/-- `s` with a change that joins the ramp-wait queue. -/
def State.waitChange (s : State) (i o : Nat) (g : Int) (slot : Nat) : State :=
  { s with cln := { s.cln with waitQ := s.cln.waitQ ++ [(xpKey i o, g, slot)] } }

theorem State.changeXp_full {s : State} {i o : Nat} {g : Int} (hw : s.clnWide = true) (hq : s.cln.waitQ = []) (he : (s.xp i o).entry = false)
    (hc : (s.xp i o).cur ≠ g) (hfull : 16384 ≤ s.rampUsed) (slot : Nat) : s.changeXp i o g slot = s.waitChange i o g slot := by
  unfold State.changeXp State.waitChange
  simp only [hw, hq, he, Ne.symm hc, Nat.not_lt.mpr hfull, List.any_nil, Bool.false_eq_true, if_true, if_false]

section
variable {s : State} (ho : s.clnOpen = true)
include ho

section
variable (hw : s.clnWide = false) (hq : s.cln.waitQ.length ≤ 65535) {slot : Nat} (hs : slot < 16)
include hw hq hs

theorem exec_xpSet_standard {i o : Nat} {gain : Word} (hin : s.xpIn i o = true) (hg : signExt24 gain = true) (hfit : s.changesFit 1 = true) :
    exec (.xpSet i o gain slot) s = .next (s.retargetAll [(i, o)] (low24 gain) slot).clnSettle := by
  refine congrArg Host.Outcome.next (State.clnCommand_applies (k := 0) ho ?_)
  refine (if_pos (by simp [hin, hg]; omega)).trans ?_
  exact congrArg (Option.map _) (State.applyChanges_standard hw hfit hq [(i, o)] (low24 gain) slot)

theorem exec_xpClearOut_standard {o : Nat} (h0 : 0 < s.clnInputs) (hout : o < s.clnOutputs) (hfit : s.changesFit s.clnInputs = true) :
    exec (.xpClearOut o slot) s = .next (s.retargetAll ((List.range s.clnInputs).map fun j => (j, o)) 0 slot).clnSettle := by
  refine congrArg Host.Outcome.next (State.clnCommand_applies (k := 0) ho ?_)
  refine (if_pos (decide_eq_true ⟨h0.ne', hout, by omega⟩)).trans ?_
  have happly := State.applyChanges_standard hw hfit hq ((List.range s.clnInputs).map fun j => (j, o)) 0 slot
  rw [List.map_map] at happly
  exact congrArg (Option.map _) happly

theorem exec_xpClearIn_standard {i : Nat} (hin : i < s.clnInputs) (hfit : s.changesFit s.clnOutputs = true) :
    exec (.xpClearIn i slot) s = .next (s.retargetAll ((List.range s.clnOutputs).map fun p => (i, p)) 0 slot).clnSettle := by
  refine congrArg Host.Outcome.next (State.clnCommand_applies (k := 0) ho ?_)
  refine (if_pos (decide_eq_true ⟨hin, by omega⟩)).trans ?_
  have happly := State.applyChanges_standard hw hfit hq ((List.range s.clnOutputs).map fun p => (i, p)) 0 slot
  rw [List.map_map] at happly
  exact congrArg (Option.map _) happly

end

/-! ### Commands that are discarded, and changes that find no ramp entry (R101, R113) -/

theorem xpSet_discards (i o slot : Nat) {gain : Word} (hg : signExt24 gain = false) :
    Turns (.xpSet i o gain slot) s [R.CLN_CMD_REJECT_COUNT, R.CLN_INT_STATUS_CMD_REJECT] s (fun t =>
      t.fld R.CLN_CMD_REJECT_COUNT = min (s.fld R.CLN_CMD_REJECT_COUNT + 1) (2 ^ 32 - 1) ∧ bit (t.fld R.CLN_INT_STATUS_CMD_REJECT) 0 = 1) :=
  ⟨s.clnReject, congrArg Host.Outcome.next (State.clnCommand_applies (k := 2) ho (if_neg (by simp [hg]))),
    (SameBut.refl _ s).countAndRaise (by simp) (by simp), State.fld_countAndRaise_count s (by decide),
    State.fld_countAndRaise_flag s (by decide)⟩

theorem exec_xpSet_full {i o slot : Nat} {gain : Word} (hin : s.xpIn i o = true) (hs : slot < 16) (hg : signExt24 gain = true)
    (hfit : s.changesFit 1 = true) (hq : s.cln.waitQ = []) (hfull : s.changeXp i o (low24 gain) slot = s.waitChange i o (low24 gain) slot) :
    exec (.xpSet i o gain slot) s = .next (s.waitChange i o (low24 gain) slot).clnSettle := by
  refine congrArg Host.Outcome.next (State.clnCommand_applies (k := 0) ho ?_)
  refine (if_pos (by simp [hin, hg]; omega)).trans ?_
  have happly : s.applyChanges 1 [(i, o, low24 gain, slot)] = some (s.waitChange i o (low24 gain) slot) := by
    unfold State.applyChanges
    simp only [List.foldl_cons, List.foldl_nil, hfit, if_true, hfull]
    exact if_pos (by simp [State.waitChange, hq])
  exact congrArg (Option.map _) happly

theorem xpSet_waits {i o slot : Nat} {gain : Word} (hw : s.clnWide = true) (hin : s.xpIn i o = true) (hs : slot < 16)
    (hg : signExt24 gain = true) (hfit : s.changesFit 1 = true) (hq : s.cln.waitQ = []) (he : (s.xp i o).entry = false)
    (hc : (s.xp i o).cur ≠ low24 gain) (hfull : 16384 ≤ s.rampUsed) : Gives (.xpSet i o gain slot) s (fun t =>
      t.cln.waitQ = [(xpKey i o, low24 gain, slot)] ∧ t.cln.xp = s.cln.xp ∧ SameBut (outsFlds s.clnOutputs) { s with cln := t.cln } t) := by
  have hsettle := (s.waitChange i o (low24 gain) slot).clnSettle_retargets
  refine ⟨_, exec_xpSet_full ho hin hs hg hfit hq (State.changeXp_full hw hq he hc hfull slot), ?_, State.clnSettle_xp _, hsettle.frame⟩
  rw [hsettle.cln]
  simp [State.waitChange, hq]

end

/-! ### Mutes of outputs (R108, R112) -/

/-- `n` outputs from `first` take the mute `m`. -/
def State.muteRange (s : State) (first m n : Nat) : State :=
  (List.range n).foldl (fun s j => s.setFld (R.CLN_OUT0_MUTED (first + j)) m) s

/-- The fields of their mutes. -/
def muteFlds (first n : Nat) : List Fld := (List.range n).map fun j => R.CLN_OUT0_MUTED (first + j)

theorem State.muteRange_retargets (s : State) (first m n : Nat) : Retargets (muteFlds first n) s (s.muteRange first m n) :=
  .foldl _ (fun u _ hj => (Retargets.refl _ u).setFld m (List.mem_map_of_mem hj)) s

theorem State.fld_muteRange (s : State) (first : Nat) {m : Nat} (hm : m < 2) {n j : Nat} (hj : j < n) :
    (s.muteRange first m n).fld (R.CLN_OUT0_MUTED (first + j)) = m := by
  induction n with
  | zero => omega
  | succ n ih =>
    have hlast : s.muteRange first m (n + 1) = (s.muteRange first m n).setFld (R.CLN_OUT0_MUTED (first + n)) m := by
      simp [State.muteRange, List.range_succ]
    rw [hlast]
    by_cases hjn : j = n
    · rw [hjn, State.fld_setFld_same]
      exact Nat.mod_eq_of_lt hm
    · rw [State.fld_setFld_ne _ _ (by simp [Fld.key]; omega), ih (by omega)]

theorem outMute_mutes {s : State} (ho : s.clnOpen = true) {first count mute : Nat} (h0 : 0 < count) (hc : count ≤ 1024) (hm : mute < 2)
    (hin : first + count ≤ s.clnOutputs) : ∃ t, exec (.outMute first count mute) s = .next t ∧
      (∀ j < count, t.fld (R.CLN_OUT0_MUTED (first + j)) = mute) ∧ t.cln.xp = s.cln.xp ∧
      Retargets (muteFlds first count ++ outsFlds s.clnOutputs) s t := by
  refine ⟨(s.muteRange first mute count).clnSettle, congrArg Host.Outcome.next (State.clnCommand_applies (k := 0) ho
    (if_pos (decide_eq_true ⟨h0, hc, by omega, hin⟩))), fun j hj => ?_, ?_, (s.muteRange_retargets first mute count).settled ?_⟩
  · rw [State.fld_clnSettle_ne, s.fld_muteRange first hm hj]
    simp [outFlds, Fld.key]
    omega
  · rw [State.clnSettle_xp]
    exact List.foldlRecOn (motive := fun t => (State.cln t).xp = s.cln.xp) (List.range count) _ rfl fun _ hu _ _ => hu
  · simp [muteFlds, Fld.key]
    omega

/-- Settles O19: the crosspoints of a command start one by one, each in its own entry, and the outputs are formed anew after them. -/
theorem crosspointCommands : Obligations.CrosspointCommands := by
  intro s hq hin
  dsimp only
  refine ⟨fun ho hw i o slot hs => ⟨fun gain hxp hg hfit => ?_, fun h0 hout hfit => ?_, fun hi hfit => ?_⟩,
    fun first count mute ho h0 hc hm hr => ?_, fun i o slot gain ho hg => xpSet_discards ho i o slot hg,
    fun i o slot gain ho hw hxp hs hg hfit hq he hc hfull => xpSet_waits ho hw hxp hs hg hfit hq he hc hfull, fun ho => ?_⟩
  · have hi : i < 2048 := by have := (of_decide_eq_true hxp).1; omega
    have ht := State.retargetAll_settled hw [(i, o)] (low24 gain) slot
    exact ⟨_, exec_xpSet_standard ho hw hq hs hxp hg hfit, State.xp_retargetAll_mem hw _ hs (by simp),
      fun j hj p hne => State.xp_retargetAll_other hw _ hs (by simpa using hi) hj (by simpa using hne), ⟨ht.cln, ht.factor⟩, ht.frame⟩
  · have ht := State.retargetAll_settled hw ((List.range s.clnInputs).map fun j => (j, o)) 0 slot
    exact ⟨_, exec_xpClearOut_standard ho hw hq hs h0 hout hfit, fun j hj => State.xp_retargetAll_mem hw _ hs (by simpa using hj),
      fun j hj p hne => State.xp_retargetAll_other hw _ hs (by simp; omega) hj (by simp [Ne.symm hne]), ⟨ht.cln, ht.factor⟩, ht.frame⟩
  · have ht := State.retargetAll_settled hw ((List.range s.clnOutputs).map fun p => (i, p)) 0 slot
    exact ⟨_, exec_xpClearIn_standard ho hw hq hs hi hfit, fun p hp => State.xp_retargetAll_mem hw _ hs (by simpa using hp),
      fun j hj p hne => State.xp_retargetAll_other hw _ hs (by simp; omega) hj (by simp [Ne.symm hne]), ⟨ht.cln, ht.factor⟩, ht.frame⟩
  · obtain ⟨t, hexec, hmuted, hxp, ht⟩ := outMute_mutes ho h0 hc hm hr
    exact ⟨t, hexec, hmuted, hxp, ⟨ht.cln, ht.factor⟩, ht.frame⟩
  · refine ⟨fun i o slot gain => ?_, fun o slot => ?_, fun i slot => ?_, fun first count mute => ?_⟩
    all_goals exact ⟨_, congrArg Host.Outcome.next (State.clnCommand_later ho _), ⟨_, rfl, rfl, rfl, rfl, rfl⟩, rfl⟩

end Sys2Proof.Machine
end

section
namespace Sys2Proof.Machine

/-! ### Fetches of lists (R115, R134, R171, R204, R220, R227) -/

/-- Plain DRAM is fetched as its bytes. -/
theorem masterFetch_plain {s : State} {m a n : Nat} (hp : Through s m a) (h : PlainDram s a n) (resp : FetchResp) :
    s.masterFetch m a n resp = some (some (s.mem.dramRead a n), s.touch m) := by
  have ht := h.touch hp.1
  unfold State.masterFetch
  simp only [reach_eq hp, joinReads_plain ht, State.touch_mem, Mems.length_dramRead, if_true]
  rw [busRead_plain ht]

/-- A fetch through a port that is quarantined ends with an error. -/
theorem masterFetch_refused {s : State} {m a : Nat} (hp : s.passage m a = .refused) (hq : s.hif.queue = []) (n : Nat) (resp : FetchResp) :
    s.masterFetch m a n resp = some (none, s) := by
  simp [State.masterFetch, State.reach, hp, hq]

section
variable {s : State} {h : Held} (hh : s.held = [h]) (hr : h.fetch = .running) {p : Cmd → Bool} (hp : p h.cmd = true) {a n : Nat}
  (hrange : h.cmd.range = (a, n)) (resp : FetchResp)
include hh hr hp hrange

theorem State.fetchDone_plain (ht : Through s (fetchMaster h.eng h.cmd) a) (hd : PlainDram s a n) : s.fetchDone h.id resp p =
    { s.touch (fetchMaster h.eng h.cmd) with held := [{ h with fetch := .done (s.mem.dramRead a n) }] } := by
  unfold State.fetchDone
  simp [hh, hr, hp, hrange, masterFetch_plain ht hd, State.setFetch]

theorem State.fetchDone_refused (ht : s.passage (fetchMaster h.eng h.cmd) a = .refused) (hq : s.hif.queue = []) :
    s.fetchDone h.id resp p = { s with held := [{ h with fetch := .failed }] } := by
  unfold State.fetchDone
  simp [hh, hr, hp, hrange, masterFetch_refused ht hq, State.setFetch]

/-- The end of the fetch of the one command that is held. -/
theorem fetchDone_ends {i : Instr} (hi : exec i s = .next (s.fetchDone h.id resp p)) :
    (Through s (fetchMaster h.eng h.cmd) a → PlainDram s a n →
      exec i s = .next { s.touch (fetchMaster h.eng h.cmd) with held := [{ h with fetch := .done (s.mem.dramRead a n) }] }) ∧
    (s.passage (fetchMaster h.eng h.cmd) a = .refused → s.hif.queue = [] → exec i s = .next { s with held := [{ h with fetch := .failed }] }) :=
  ⟨fun ht hd => hi.trans (congrArg _ (State.fetchDone_plain hh hr hp hrange resp ht hd)),
    fun ht hq => hi.trans (congrArg _ (State.fetchDone_refused hh hr hp hrange resp ht hq))⟩

end

end Sys2Proof.Machine
end

section
namespace Sys2Proof.Machine

/-! ### Carillon's registers while a request is on its way (R93, R245) -/

theorem State.fld_touch_cln (s : State) {m : Nat} (hm : m < 24) {f : Fld} (hf : 0x14100000 ≤ f.addr) : (s.touch m).fld f = s.fld f :=
  s.fld_touch_ne (by simp only [Fld.key]; omega)

theorem State.clnWide_touch (s : State) {m : Nat} (hm : m < 24) : (s.touch m).clnWide = s.clnWide := by
  rw [State.clnWide, s.fld_touch_cln hm (by decide)]
  rfl

theorem State.xpIn_touch (s : State) {m : Nat} (hm : m < 24) (i o : Nat) : (s.touch m).xpIn i o = s.xpIn i o := by
  rw [State.xpIn, State.clnInputs, State.clnOutputs, s.fld_touch_cln hm (by decide), s.fld_touch_cln hm (by decide)]
  rfl

/-! ### Writes of TARGET and SLOT (R103, R115, R117) -/

/-- The change that a write of TARGET and SLOT becomes. -/
def xpChange (i o : Nat) (v : Word) : Held := heldOf .cln (.xpWrite i o (low24 v) (v.toNat / 2 ^ 28)) .notNeeded

/-- Within the geometry a write is held; of the commands held before, changes of the same crosspoint alone are gone. -/
theorem State.xpWrite_in {s : State} {i o : Nat} (h : s.xpIn i o = true) (v : Word) : ∃ hs : List Held,
    (∀ g ∈ s.held, (∀ x y, g.cmd ≠ .xpWrite i o x y) → g ∈ hs) ∧
    s.xpWrite i o v = (.ok, ({ s with held := hs } : State).hold (xpChange i o v)) := by
  refine ⟨_, fun g hg hne => ?_, if_pos h⟩
  refine List.mem_filter.mpr ⟨hg, ?_⟩
  split
  · next i' o' x y hc =>
    have hother : ¬ i' = i ∨ ¬ o' = o := not_and_or.mp fun ⟨hi, ho⟩ => hne x y (hi ▸ ho ▸ hc)
    simpa using hother
  · rfl

theorem State.xpWrite_out {s : State} {i o : Nat} (h : s.xpIn i o = false) (v : Word) :
    s.xpWrite i o v = (.targetErr, s.raise R.CLN_INT_STATUS_XP_RANGE) := if_neg (by simp [h])

/-! ### The crosspoint window (R116, R117) -/

/-- The window's word with TARGET and SLOT of a crosspoint. -/
def State.xpAddr (s : State) (i o : Nat) : Nat :=
  if s.clnWide then 0x11000000 + 4 * (2048 * o + i) else 0x11000004 + 8 * (1024 * o + i)

/-- The inputs that the window has room for. -/
def State.xpRoom (s : State) (i : Nat) : Prop := i < 1024 ∨ (s.clnWide = true ∧ i < 2048)

theorem State.xpRoom_touch (s : State) {m : Nat} (hm : m < 24) (i : Nat) : (s.touch m).xpRoom i ↔ s.xpRoom i := by
  rw [State.xpRoom, State.xpRoom, s.clnWide_touch hm]

theorem State.xpAddr_touch (s : State) {m : Nat} (hm : m < 24) (i o : Nat) : (s.touch m).xpAddr i o = s.xpAddr i o := by
  rw [State.xpAddr, State.xpAddr, s.clnWide_touch hm]

section
variable {s : State} {i o : Nat}

theorem State.xpAddr_lt (hi : s.xpRoom i) (ho : o < 1024) : 0x11000000 ≤ s.xpAddr i o ∧ s.xpAddr i o < 0x11800000 := by
  unfold State.xpRoom at hi
  unfold State.xpAddr
  cases hw : s.clnWide
  · simp only [hw, Bool.false_eq_true, if_false, false_and, or_false] at hi ⊢
    omega
  · simp only [hw, if_true, true_and] at hi ⊢
    omega

theorem State.xpOfAddr_target (hi : s.xpRoom i) : s.xpOfAddr (s.xpAddr i o) = (i, o, !s.clnWide) := by
  unfold State.xpRoom at hi
  unfold State.xpOfAddr State.xpAddr
  cases hw : s.clnWide
  · simp [hw] at hi ⊢
    omega
  · simp [hw] at hi ⊢
    omega

theorem State.xpOfAddr_current (hw : s.clnWide = false) (hi : i < 1024) : s.xpOfAddr (s.xpAddr i o - 4) = (i, o, false) := by
  unfold State.xpOfAddr State.xpAddr
  simp [hw]
  omega

theorem State.xpWindowWrite_target (hi : s.xpRoom i) (v : Word) : s.xpWindowWrite (s.xpAddr i o) v = s.xpWrite i o v := by
  unfold State.xpWindowWrite
  rw [State.xpOfAddr_target hi]
  exact if_pos (by simp)

/-- The word with CURRENT is read-only. -/
theorem State.xpWindowWrite_current (hw : s.clnWide = false) (hi : i < 1024) (hin : s.xpIn i o = true) (v : Word) :
    s.xpWindowWrite (s.xpAddr i o - 4) v = (.ok, s) := by
  unfold State.xpWindowWrite
  rw [State.xpOfAddr_current hw hi]
  exact if_neg (by simp [hw, hin])

theorem exec_xpWindowWrite {m a : Nat} (h : Reaches s m a) (hf : s.flmState = 0) (ha : 0x11000000 ≤ a ∧ a < 0x11800000) {v : Word}
    {r : XbResp} {u : State} (hw : (s.touch m).xpWindowWrite a v = (r, u)) :
    exec (.xpWindowWrite m a v) s = .next ((u.tagHeld s.heldNext m none).answer m a r) := by
  refine (if_pos ha).trans (congrArg Host.Outcome.next ?_)
  rw [through_reach h hf, hw]

end

end Sys2Proof.Machine
end

section
namespace Sys2Proof.Machine

/-! ### What a response leaves (R216, R244) -/

/-- The fields in which the host port records an error. -/
def hostErrFlds : List Fld := [R.HIF_ERR_ADDR_ADDR, R.HIF_ERR_COUNT_COUNT, R.HIF_ERR_STATUS_DECODE_ERR, R.HIF_ERR_STATUS_TARGET_ERR]

theorem State.answer_frame (s : State) (m a : Nat) (r : XbResp) : SameBut hostErrFlds s (s.answer m a r) := by
  unfold State.answer
  split
  · exact ((SameBut.refl _ s).hostError a r (by simp [hostErrFlds]) (by simp [hostErrFlds]) (by simp [hostErrFlds])
      (by simp [hostErrFlds])).emit _
  · exact (SameBut.refl _ s).emit _

theorem SameBut.cln {fs : List Fld} {u t : State} (h : SameBut fs u t) : t.cln = u.cln := (congrArg State.cln h.2 :)
theorem SameBut.held {fs : List Fld} {u t : State} (h : SameBut fs u t) : t.held = u.held := (congrArg State.held h.2 :)

/-! ### Writes into the crosspoint window (R115, R116, R117) -/

section
variable {s : State} {m i o : Nat} (hi : s.xpRoom i) (ho : o < 1024) (hf : s.flmState = 0) (v : Word)
include hi ho hf

theorem xpWindowWrite_holds (h : Reaches s m (s.xpAddr i o)) (hin : s.xpIn i o = true) : Gives (.xpWindowWrite m (s.xpAddr i o) v) s (fun t =>
    (∃ c ∈ t.held, c.cmd = .xpWrite i o (low24 v) (v.toNat / 2 ^ 28) ∧ c.master = m ∧ c.id = s.heldNext) ∧
    (∀ c ∈ s.held, c.id < s.heldNext → (∀ x y, c.cmd ≠ .xpWrite i o x y) → c ∈ t.held) ∧
    SameBut [R.XB_OUTSTANDING_PEAK m] { s with held := t.held, heldNext := s.heldNext + 1 } t ∧ t.sent = .response m .ok :: s.sent) := by
  have hm := h.1.1
  have hnext : (s.touch m).heldNext = s.heldNext := State.touch_heldNext ..
  obtain ⟨hs, hkept, hwrite⟩ := State.xpWrite_in (s := s.touch m) (i := i) (o := o) (by rwa [s.xpIn_touch hm]) v
  rw [← State.xpWindowWrite_target ((s.xpRoom_touch hm i).mpr hi), s.xpAddr_touch hm] at hwrite
  obtain ⟨c, hc, hcmd, -, hmaster, hid⟩ := ({ s.touch m with held := hs } : State).held_tagHeld_hold (xpChange i o v) m
  refine ⟨_, exec_xpWindowWrite h hf (State.xpAddr_lt hi ho) hwrite, ?_⟩
  rw [answer_ok]
  refine ⟨⟨c, by rwa [hnext] at hc, hcmd, hmaster, hid.trans hnext⟩, fun g hg hlt hne => ?_,
    (((SameBut.refl _ s).touch (by simp)).holdTagged hnext hs _ m).emit _, ?_⟩
  · refine State.mem_held_tagHeld (List.mem_append_left _ (hkept g ?_ hne)) hlt m
    rwa [State.touch_held]
  · exact congrArg _ (s.touch_sent m)

theorem xpWindowWrite_outside (h : Reaches s m (s.xpAddr i o)) (hin : s.xpIn i o = false) :
    Gives (.xpWindowWrite m (s.xpAddr i o) v) s (fun t => bit (t.fld R.CLN_INT_STATUS_XP_RANGE) 0 = 1 ∧
      .response m .targetErr ∈ t.sent ∧ t.cln = s.cln ∧ t.held.map (·.cmd) = s.held.map (·.cmd)) := by
  have hm := h.1.1
  have hwrite := State.xpWrite_out (s := s.touch m) (i := i) (o := o) (by rwa [s.xpIn_touch hm]) v
  rw [← State.xpWindowWrite_target ((s.xpRoom_touch hm i).mpr hi), s.xpAddr_touch hm] at hwrite
  have hframe := (((s.touch m).raise R.CLN_INT_STATUS_XP_RANGE).tagHeld s.heldNext m none).answer_frame m (s.xpAddr i o) .targetErr
  refine ⟨_, exec_xpWindowWrite h hf (State.xpAddr_lt hi ho) hwrite, ?_, List.mem_cons_self, ?_, ?_⟩
  · rw [hframe.1 _ (by decide), State.fld_tagHeld]
    exact State.fld_raise_same _ (by decide)
  · rw [hframe.cln]
    exact (State.raise_cln ..).trans (State.touch_cln ..)
  · rw [hframe.held, State.cmds_tagHeld, State.raise_held, State.touch_held]

theorem xpWindowWrite_ignored (hw : s.clnWide = false) (h : Reaches s m (s.xpAddr i o - 4)) (hin : s.xpIn i o = true) :
    Gives (.xpWindowWrite m (s.xpAddr i o - 4) v) s (fun t => SameBut [R.XB_OUTSTANDING_PEAK m] { s with held := t.held } t ∧
      t.held.map (·.cmd) = s.held.map (·.cmd) ∧ t.sent = .response m .ok :: s.sent) := by
  have hm := h.1.1
  have hi' : i < 1024 := hi.resolve_right (by simp [hw])
  have hwrite := State.xpWindowWrite_current (s := s.touch m) (by rwa [s.clnWide_touch hm]) hi' (by rwa [s.xpIn_touch hm]) v
  have hrange : 0x11000000 ≤ s.xpAddr i o - 4 ∧ s.xpAddr i o - 4 < 0x11800000 := by
    have := State.xpAddr_lt hi ho
    simp only [State.xpAddr, hw, Bool.false_eq_true, if_false] at this ⊢
    omega
  rw [s.xpAddr_touch hm] at hwrite
  refine ⟨_, exec_xpWindowWrite h hf hrange hwrite, ?_⟩
  rw [answer_ok]
  refine ⟨?_, ?_, congrArg _ (s.touch_sent m)⟩
  · exact (((SameBut.refl _ s).touch (by simp)).tagHeld s.heldNext m).emit _
  · rw [State.emit_held, State.cmds_tagHeld, State.touch_held]

end

/-! ### The selector (R118) -/

theorem SameBut.xpAdvance {fs : List Fld} {u t : State} (h : SameBut fs u t) (hi : R.CLN_XP_SEL_INPUT ∈ fs)
    (ho : R.CLN_XP_SEL_OUTPUT ∈ fs) : SameBut fs u t.xpAdvance := by
  unfold State.xpAdvance
  dsimp only
  split
  · split
    · exact h.setFld _ hi
    · exact (h.setFld _ hi).setFld _ ho
  · exact h

theorem State.xpAdvance_tagHeld (s : State) (n m : Nat) : s.xpAdvance.tagHeld n m none = (s.tagHeld n m none).xpAdvance := by
  unfold State.xpAdvance
  dsimp only
  by_cases ha : s.fld R.CLN_XP_SEL_AUTOINC = 1
  · rw [if_pos ha, if_pos (show (s.tagHeld n m none).fld _ = 1 from ha)]
    by_cases hi : s.fld R.CLN_XP_SEL_INPUT + 1 < s.clnInputs
    · rw [if_pos hi, if_pos (show (s.tagHeld n m none).fld _ + 1 < (s.tagHeld n m none).clnInputs from hi)]
      rfl
    · rw [if_neg hi, if_neg (show ¬ (s.tagHeld n m none).fld _ + 1 < (s.tagHeld n m none).clnInputs from hi)]
      rfl
  · rw [if_neg ha, if_neg (show ¬ (s.tagHeld n m none).fld _ = 1 from ha)]

section
variable {s : State}

theorem State.xpAdvance_next (ha : s.fld R.CLN_XP_SEL_AUTOINC = 1) (hin : s.clnInputs ≤ 2048)
    (h : s.fld R.CLN_XP_SEL_INPUT + 1 < s.clnInputs) : s.xpAdvance.fld R.CLN_XP_SEL_INPUT = s.fld R.CLN_XP_SEL_INPUT + 1 ∧
      s.xpAdvance.fld R.CLN_XP_SEL_OUTPUT = s.fld R.CLN_XP_SEL_OUTPUT := by
  have heq : s.xpAdvance = s.setFld R.CLN_XP_SEL_INPUT (s.fld R.CLN_XP_SEL_INPUT + 1) := by
    rw [State.xpAdvance, if_pos ha]
    exact if_pos h
  rw [heq, State.fld_setFld_same, State.fld_setFld_ne _ _ (by decide)]
  exact ⟨Nat.mod_eq_of_lt (show _ < 2 ^ 11 by omega), rfl⟩

theorem State.xpAdvance_wraps (ha : s.fld R.CLN_XP_SEL_AUTOINC = 1) (hout : s.clnOutputs ≤ 1024)
    (h : s.fld R.CLN_XP_SEL_INPUT + 1 = s.clnInputs) : s.xpAdvance.fld R.CLN_XP_SEL_INPUT = 0 ∧
      s.xpAdvance.fld R.CLN_XP_SEL_OUTPUT = if s.fld R.CLN_XP_SEL_OUTPUT + 1 < s.clnOutputs then s.fld R.CLN_XP_SEL_OUTPUT + 1 else 0 := by
  have heq : s.xpAdvance = (s.setFld R.CLN_XP_SEL_INPUT 0).setFld R.CLN_XP_SEL_OUTPUT
      (if s.fld R.CLN_XP_SEL_OUTPUT + 1 < s.clnOutputs then s.fld R.CLN_XP_SEL_OUTPUT + 1 else 0) := by
    rw [State.xpAdvance, if_pos ha]
    exact if_neg (by omega)
  rw [heq, State.fld_setFld_same, State.fld_setFld_ne _ _ (by decide), State.fld_setFld_same]
  refine ⟨rfl, Nat.mod_eq_of_lt (show _ < 2 ^ 10 from ?_)⟩
  split <;> omega

theorem State.xpAdvance_stays (ha : ¬ s.fld R.CLN_XP_SEL_AUTOINC = 1) : s.xpAdvance = s := if_neg ha

end

end Sys2Proof.Machine
end

section
namespace Sys2Proof.Machine

/-! ### Writes of CLN_XP_TGT (R118) -/

theorem State.xpAdvance_held (s : State) : s.xpAdvance.held = s.held := ((SameBut.refl [R.CLN_XP_SEL_INPUT, R.CLN_XP_SEL_OUTPUT] s).xpAdvance
  (by simp) (by simp)).held

/-- `s` with the write of crosspoint (i, o) taken in as a change, `hs` being the commands that stay. -/
def State.xpTaken (s : State) (hs : List Held) (i o : Nat) (v : Word) : State :=
  (({ s.touch 0 with held := hs } : State).hold (xpChange i o v)).tagHeld s.heldNext 0 none

theorem State.fld_xpTaken (s : State) (hs : List Held) (i o : Nat) (v : Word) {f : Fld} (hf : 0x14100000 ≤ f.addr) :
    (s.xpTaken hs i o v).fld f = s.fld f := s.fld_touch_cln (m := 0) (by decide) hf

theorem exec_clnXpTgtWrite {s : State} (h : HostReaches s 0x14100108)
    (hin : s.xpIn (s.fld R.CLN_XP_SEL_INPUT) (s.fld R.CLN_XP_SEL_OUTPUT) = true) (v : Word) : ∃ hs, exec (.clnXpTgtWrite v) s =
      .next ((s.xpTaken hs (s.fld R.CLN_XP_SEL_INPUT) (s.fld R.CLN_XP_SEL_OUTPUT) v).xpAdvance.emit (.response 0 .ok)) := by
  obtain ⟨hs, -, hwrite⟩ := State.xpWrite_in (s := s.touch 0) (i := s.fld R.CLN_XP_SEL_INPUT) (o := s.fld R.CLN_XP_SEL_OUTPUT)
    (by rwa [s.xpIn_touch (by decide)]) v
  refine ⟨hs, congrArg Host.Outcome.next ?_⟩
  rw [through_reach h.1 h.2, State.xpTgtWrite]
  dsimp only
  rw [s.fld_touch_cln (by decide) (by decide), s.fld_touch_cln (by decide) (by decide), hwrite, answer_ok, State.xpAdvance_tagHeld]
  rfl

theorem clnXpTgtWrite_holds {s : State} (hinputs : s.clnInputs ≤ 2048) (houtputs : s.clnOutputs ≤ 1024) (h : HostReaches s 0x14100108)
    (hin : s.xpIn (s.fld R.CLN_XP_SEL_INPUT) (s.fld R.CLN_XP_SEL_OUTPUT) = true) (v : Word) :
    let i := s.fld R.CLN_XP_SEL_INPUT
    let o := s.fld R.CLN_XP_SEL_OUTPUT
    let auto := s.fld R.CLN_XP_SEL_AUTOINC = 1
    Gives (.clnXpTgtWrite v) s (fun t => (∃ c ∈ t.held, c.cmd = .xpWrite i o (low24 v) (v.toNat / 2 ^ 28) ∧ c.id = s.heldNext) ∧
      (auto → i + 1 < s.clnInputs → t.fld R.CLN_XP_SEL_INPUT = i + 1 ∧ t.fld R.CLN_XP_SEL_OUTPUT = o) ∧
      (auto → i + 1 = s.clnInputs → t.fld R.CLN_XP_SEL_INPUT = 0 ∧ t.fld R.CLN_XP_SEL_OUTPUT = if o + 1 < s.clnOutputs then o + 1 else 0) ∧
      (¬auto → t.fld R.CLN_XP_SEL_INPUT = i ∧ t.fld R.CLN_XP_SEL_OUTPUT = o) ∧
      SameBut [R.CLN_XP_SEL_INPUT, R.CLN_XP_SEL_OUTPUT, R.XB_OUTSTANDING_PEAK 0] { s with held := t.held, heldNext := s.heldNext + 1 } t) := by
  intro i o auto
  have hnext : (s.touch 0).heldNext = s.heldNext := State.touch_heldNext ..
  obtain ⟨hs, hexec⟩ := exec_clnXpTgtWrite h hin v
  have hfld := fun f (hf : 0x14100000 ≤ f.addr) => s.fld_xpTaken hs i o v (f := f) hf
  have hi := hfld R.CLN_XP_SEL_INPUT (by decide)
  have ho := hfld R.CLN_XP_SEL_OUTPUT (by decide)
  have ha := hfld R.CLN_XP_SEL_AUTOINC (by decide)
  have hins : (s.xpTaken hs i o v).clnInputs = s.clnInputs := hfld _ (by decide)
  have houts : (s.xpTaken hs i o v).clnOutputs = s.clnOutputs := hfld _ (by decide)
  refine ⟨_, hexec, ?_, fun hauto hlt => ?_, fun hauto heq => ?_, fun hauto => ?_, ?_⟩
  · obtain ⟨c, hc, hcmd, -, -, hid⟩ := ({ s.touch 0 with held := hs } : State).held_tagHeld_hold (xpChange i o v) 0
    rw [hnext] at hc
    refine ⟨c, ?_, hcmd, hid.trans hnext⟩
    rwa [State.emit_held, State.xpAdvance_held]
  · have hsel := State.xpAdvance_next (ha.trans hauto) (hins.trans_le hinputs) (by rw [hi, hins]; exact hlt)
    rwa [hi, ho] at hsel
  · have hsel := State.xpAdvance_wraps (ha.trans hauto) (houts.trans_le houtputs) (by rw [hi, hins]; exact heq)
    rwa [ho, houts] at hsel
  · rw [State.fld_emit, State.fld_emit, State.xpAdvance_stays (by rwa [ha])]
    exact ⟨hi, ho⟩
  · rw [State.emit_held, State.xpAdvance_held]
    exact ((((SameBut.refl _ s).touch (by simp)).holdTagged hnext hs _ 0).xpAdvance (by simp) (by simp)).emit _

/-! ### Ramp slots (R102) -/

theorem State.slotInUse_touch (s : State) (m slot : Nat) : (s.touch m).slotInUse slot = s.slotInUse slot := by
  simp only [State.slotInUse, State.touch_cln]

section
variable {s : State} {slot : Nat} (h0 : 0 < slot) (h16 : slot < 16) (h : HostReaches s (0x14100040 + 4 * slot)) (v : Word)
include h0 h16 h

theorem exec_clnRampSlotWrite :
    exec (.clnRampSlotWrite slot v) s = .next (s.answered 0 .ok ((s.touch 0).rampSlotWrite slot v)) :=
  (if_pos ⟨h0, h16⟩).trans (congrArg Host.Outcome.next (hostSet_reach h v fun s => s.rampSlotWrite slot v))

theorem rampSlotWrite_sets (hu : s.slotInUse slot = false) :
    HostSets (.clnRampSlotWrite slot v) s [R.CLN_RAMP_SLOT_PROFILE slot, R.CLN_RAMP_SLOT_LEN slot] s (fun t =>
      t.fld (R.CLN_RAMP_SLOT_PROFILE slot) = v.toNat / 2 ^ 16 % 2 ∧ t.fld (R.CLN_RAMP_SLOT_LEN slot) = v.toNat % 1024) := by
  have heq : (s.touch 0).rampSlotWrite slot v = ((s.touch 0).setFld (R.CLN_RAMP_SLOT_PROFILE slot) (bit v.toNat 16)).setFld
      (R.CLN_RAMP_SLOT_LEN slot) (bits v.toNat 9 0) := by
    rw [State.rampSlotWrite, if_neg (by omega), s.slotInUse_touch, if_neg (by simp [hu])]
  refine ⟨_, exec_clnRampSlotWrite h0 h16 h v, ?_⟩
  rw [heq]
  refine ⟨(((SameBut.refl _ s).touch (by simp)).setFld _ (by simp)).setFld _ (by simp), ?_, ?_⟩
  · rw [State.fld_setFld_ne _ _ (by simp [Fld.key]), State.fld_setFld_same]
    exact Nat.mod_eq_of_lt (Nat.mod_lt _ (by decide))
  · rw [State.fld_setFld_same]
    simp [bits]

theorem rampSlotWrite_busy (hu : s.slotInUse slot = true) :
    HostSets (.clnRampSlotWrite slot v) s [R.CLN_INT_STATUS_RAMP_SLOT_BUSY] s (fun t => bit (t.fld R.CLN_INT_STATUS_RAMP_SLOT_BUSY) 0 = 1) := by
  have heq : (s.touch 0).rampSlotWrite slot v = (s.touch 0).raise R.CLN_INT_STATUS_RAMP_SLOT_BUSY := by
    rw [State.rampSlotWrite, if_neg (by omega), s.slotInUse_touch, if_pos hu]
  refine ⟨_, exec_clnRampSlotWrite h0 h16 h v, ?_⟩
  rw [heq]
  exact ⟨((SameBut.refl _ s).touch (by simp)).raise (by simp), State.fld_raise_same _ (by decide)⟩

end

/-! ### The counters, and the obligation (R115, R120) -/

theorem clnCounts_nodup : (clnCounts.map Fld.key).Nodup := by decide

/-- Settles O20: a list is held with its fetch begun or not, a write of TARGET and SLOT is held as a change of its crosspoint wherever it
comes from, and each engine's fetch is the same end of a fetch by its own master. -/
theorem carillonListsWindowAndFetches : Obligations.CarillonListsWindowAndFetches := by
  refine ⟨⟨fun s a n slot => ⟨_, rfl, ⟨_, rfl, rfl, rfl, rfl⟩, rfl⟩,
    fun s m i o v hi ho hf => ⟨fun h hin => xpWindowWrite_holds hi ho hf v h hin, fun h hin => xpWindowWrite_outside hi ho hf v h hin,
      fun hw h hin => xpWindowWrite_ignored hi ho hf v hw h hin⟩,
    fun s v h hin hinputs houtputs => clnXpTgtWrite_holds hinputs houtputs h hin v,
    fun s slot v h0 h16 h => ⟨rampSlotWrite_sets h0 h16 h v, rampSlotWrite_busy h0 h16 h v⟩, fun s h => ?_⟩, fun s h a n resp hh hr => ?_⟩
  · refine (hostClear_sets h rfl clnCounts_nodup).imp fun t ht => ?_
    simpa [clnCounts] using ht
  · refine ⟨fun slot hc => ?_, fun f b k hc => ?_, fun core hc => ?_, fun xf hc => ?_⟩
    all_goals exact fetchDone_ends hh hr (by rw [hc]) (by rw [hc]; rfl) resp rfl

end Sys2Proof.Machine
end

section
namespace Sys2Proof.Machine

/-! ### What stands beside the registers of Chimes' frames -/

theorem SameBut.chm {fs : List Fld} {u t : State} (h : SameBut fs u t) : t.chm = u.chm := (congrArg State.chm h.2 :)
theorem SameBut.cfg {fs : List Fld} {u t : State} (h : SameBut fs u t) : t.cfg = u.cfg := (congrArg State.cfg h.2 :)

theorem SameBut.withChm {fs : List Fld} {u t : State} (h : SameBut fs u t) (c : Chm) :
    SameBut fs { u with chm := c } { t with chm := c } := by
  refine ⟨h.1, ?_⟩
  conv_lhs => rw [h.2]

/-! ### Coefficients and banks as they are written (R128, R130) -/

/-- Values that lie from index `n` on in a table. -/
theorem Tbl.get_foldl_set (cs : List Int) (t : Tbl Int) (n k m : Nat) :
    Tbl.get ((cs.zipIdx m).foldl (fun t p => Tbl.set t (n + p.2) 0 p.1) t) k 0 =
      if n + m ≤ k ∧ k < n + m + cs.length then cs.getD (k - (n + m)) 0 else Tbl.get t k 0 := by
  induction cs generalizing t m with
  | nil => rw [if_neg (by simp)]; rfl
  | cons c cs ih =>
    rw [List.zipIdx_cons, List.foldl_cons, ih, List.length_cons]
    by_cases hk : k = n + m
    · subst hk
      rw [if_neg (by omega), if_pos (by omega), Nat.sub_self, List.getD_cons_zero]
      exact Tbl.get_set_same ..
    · rw [Tbl.get_set_ne _ _ _ _ hk]
      by_cases hin : n + m ≤ k ∧ k < n + m + (cs.length + 1)
      · rw [if_pos (by omega), if_pos hin, show k - (n + m) = k - (n + (m + 1)) + 1 by omega, List.getD_cons_succ]
      · rw [if_neg (by omega), if_neg hin]

theorem State.coef_setCoefs (s : State) (n : Nat) (cs : List Int) (k : Nat) :
    (s.setCoefs n cs).coef k = if n ≤ k ∧ k < n + cs.length then cs.getD (k - n) 0 else s.coef k :=
  Tbl.get_foldl_set cs s.chm.coefs n k 0

theorem State.coef_setCoefs_same (s : State) (n : Nat) (c : Int) : (s.setCoefs n [c]).coef n = c := by
  rw [State.coef_setCoefs, if_pos (by simp), Nat.sub_self, List.getD_cons_zero]

theorem State.coef_setCoefs_ne (s : State) {n k : Nat} (c : Int) (h : k ≠ n) : (s.setCoefs n [c]).coef k = s.coef k := by
  rw [State.coef_setCoefs, if_neg (by simp; omega)]

/-- `t` differs from `s` in coefficient memory and in the banks of Chimes' filters alone. -/
def CoefsOnly (s t : State) : Prop := t = { s with chm := { s.chm with coefs := t.chm.coefs, filters := t.chm.filters } }

theorem State.setCoefs_coefs (s : State) (n : Nat) (cs : List Int) : CoefsOnly s (s.setCoefs n cs) := rfl

theorem CoefsOnly.trans {s t u : State} (h : CoefsOnly s t) (h' : CoefsOnly t u) : CoefsOnly s u := by
  unfold CoefsOnly at *
  rw [h', h]

theorem BanksOnly.coefs {s t : State} (h : BanksOnly s t) : CoefsOnly s t := by
  unfold CoefsOnly BanksOnly at *
  rw [h]

theorem BanksOnly.coef {s t : State} (h : BanksOnly s t) (k : Nat) : t.coef k = s.coef k := by
  unfold BanksOnly at h
  rw [h]
  rfl

/-- A write of coefficients stays within the frame of what was done before it. -/
theorem SameBut.coefs {fs : List Fld} {s u t : State} (h : SameBut fs s u) (h' : CoefsOnly u t) :
    SameBut fs { s with chm := { s.chm with coefs := t.chm.coefs, filters := t.chm.filters } } t := by
  have hframe := h.withChm { s.chm with coefs := t.chm.coefs, filters := t.chm.filters }
  unfold CoefsOnly at h'
  rw [h.chm] at h'
  rwa [← h'] at hframe

theorem State.touchIdle_banks (s : State) (f : Nat) : BanksOnly s (s.touchIdle f) := BanksOnly.ite rfl rfl

theorem State.touchCoef_banks (s : State) (n : Nat) : BanksOnly s (s.touchCoef n) := by
  unfold State.touchCoef
  split
  · rfl
  · exact s.touchIdle_banks _

/-! ### The bytes of a coefficient (R130) -/

theorem codeS_24_lt (x : Int) : codeS 24 x < 2 ^ 24 := by
  have hp : ((2 ^ 24 : Nat) : Int) = 16777216 := by norm_num
  simp only [codeS, hp]
  omega

theorem codeS_24_ofCodeS {n : Nat} (h : n < 2 ^ 24) : codeS 24 (ofCodeS 24 n) = n := by
  have hp : ((2 ^ 24 : Nat) : Int) = 16777216 := by norm_num
  have hh : ((2 ^ (24 - 1) : Nat) : Int) = 8388608 := by norm_num
  simp only [codeS, ofCodeS, wrapS, hp, hh]
  split <;> omega

/-- A 24-bit code with its byte `j` replaced. -/
def withByte (c j : Nat) (b : Byte) : Nat := c - c / 256 ^ j % 256 * 256 ^ j + b.toNat * 256 ^ j

theorem withByte_lt {c : Nat} (h : c < 2 ^ 24) {j : Nat} (hj : j < 3) (b : Byte) : withByte c j b < 2 ^ 24 := by
  have hb := b.isLt
  unfold withByte
  interval_cases j <;> omega

/-- Three bytes make a code of their own, whatever stood there. -/
theorem withByte_three {c : Nat} (h : c < 2 ^ 24) (b0 b1 b2 : Byte) :
    withByte (withByte (withByte c 0 b0) 1 b1) 2 b2 = b0.toNat + 256 * b1.toNat + 65536 * b2.toNat := by
  have hb0 := b0.isLt
  have hb1 := b1.isLt
  unfold withByte
  omega

theorem State.setCoefByte_eq (s : State) (n : Nat) {j : Nat} (hj : j < 3) (b : Byte) :
    s.setCoefByte (3 * n + j) b = s.setCoefs n [ofCodeS 24 (withByte (codeS 24 (s.coef n)) j b)] := by
  have hdiv : (3 * n + j) / 3 = n := by omega
  have hmod : (3 * n + j) % 3 = j := by omega
  unfold State.setCoefByte withByte
  rw [hdiv, hmod]

theorem State.code_setCoefByte (s : State) (n : Nat) {j : Nat} (hj : j < 3) (b : Byte) :
    codeS 24 ((s.setCoefByte (3 * n + j) b).coef n) = withByte (codeS 24 (s.coef n)) j b := by
  rw [s.setCoefByte_eq n hj, State.coef_setCoefs_same, codeS_24_ofCodeS (withByte_lt (codeS_24_lt _) hj b)]

theorem State.putCoefBytes_three (s : State) (n : Nat) (b0 b1 b2 : Byte) : s.putCoefBytes (3 * n) [some b0, some b1, some b2] =
    ((s.setCoefByte (3 * n + 0) b0).setCoefByte (3 * n + 1) b1).setCoefByte (3 * n + 2) b2 := rfl

theorem State.setCoefByte_coefs (s : State) (i : Nat) (b : Byte) : CoefsOnly s (s.setCoefByte i b) := by
  unfold State.setCoefByte
  exact s.setCoefs_coefs _ _

theorem State.putCoefBytes_coefs (s : State) (n : Nat) (b0 b1 b2 : Byte) :
    CoefsOnly s (s.putCoefBytes (3 * n) [some b0, some b1, some b2]) := by
  rw [State.putCoefBytes_three]
  exact ((State.setCoefByte_coefs ..).trans (State.setCoefByte_coefs ..)).trans (State.setCoefByte_coefs ..)

theorem State.coef_putCoefBytes_same (s : State) (n : Nat) (b0 b1 b2 : Byte) :
    (s.putCoefBytes (3 * n) [some b0, some b1, some b2]).coef n = ofCodeS 24 (b0.toNat + 256 * b1.toNat + 65536 * b2.toNat) := by
  rw [State.putCoefBytes_three, State.setCoefByte_eq _ n (j := 2) (by decide), State.coef_setCoefs_same,
    State.code_setCoefByte _ n (j := 1) (by decide), State.code_setCoefByte _ n (j := 0) (by decide), withByte_three (codeS_24_lt _)]

theorem State.coef_putCoefBytes_ne (s : State) {n k : Nat} (h : k ≠ n) (b0 b1 b2 : Byte) :
    (s.putCoefBytes (3 * n) [some b0, some b1, some b2]).coef k = s.coef k := by
  rw [State.putCoefBytes_three, State.setCoefByte_eq _ n (by decide), State.coef_setCoefs_ne _ _ h, State.setCoefByte_eq _ n (by decide),
    State.coef_setCoefs_ne _ _ h, State.setCoefByte_eq _ n (by decide), State.coef_setCoefs_ne _ _ h]

end Sys2Proof.Machine
end

section
namespace Sys2Proof.Machine

/-! ### Coefficients that may be written, and refusals (R128, R130) -/

theorem State.coefWritable_touch (s : State) (m n : Nat) : (s.touch m).coefWritable n = s.coefWritable n := by
  have hfilt : (s.touch m).filt = s.filt := funext fun f => by rw [State.filt, State.touch_chm]; rfl
  unfold State.coefWritable
  rw [hfilt, State.touch_cfg]

theorem State.coefRefuse_chm (s : State) : s.coefRefuse.2.chm = s.chm := State.countAndRaise_chm ..

/-- A refusal as its counter and its flag show it once it is answered. -/
theorem State.answer_coefRefuse (s : State) (m a : Nat) : let t := s.coefRefuse.2.answer m a .targetErr
    t.chm = s.chm ∧ .response m .targetErr ∈ t.sent ∧ t.fld R.CHM_COEF_REFUSED_COUNT = min (s.fld R.CHM_COEF_REFUSED_COUNT + 1) (2 ^ 32 - 1) ∧
      bit (t.fld R.CHM_INT_STATUS_COEF_REFUSED) 0 = 1 := by
  have hframe := s.coefRefuse.2.answer_frame m a .targetErr
  refine ⟨hframe.chm.trans s.coefRefuse_chm, List.mem_cons_self, ?_, ?_⟩
  · rw [hframe.1 _ (by decide)]
    exact State.fld_countAndRaise_count s (by decide)
  · rw [hframe.1 _ (by decide)]
    exact State.fld_countAndRaise_flag s (by decide)

/-! ### The coefficient window (R130) -/

section
variable {s : State} {m n : Nat} (b0 b1 b2 : Byte) (hn : n < 0x100000)
include hn

/-- The three bytes of one coefficient are taken or refused together. -/
theorem State.chmWindowWrite_coef (s : State) : s.chmWindowWrite (0x12000000 + 3 * n) [some b0, some b1, some b2] =
    if s.coefWritable n then (.ok, (s.putCoefBytes (3 * n) [some b0, some b1, some b2]).touchCoef n) else s.coefRefuse := by
  have h0 : 3 * n / 3 = n := by omega
  have h1 : (3 * n + 1) / 3 = n := by omega
  have h2 : (3 * n + 2) / 3 = n := by omega
  unfold State.chmWindowWrite
  rw [if_pos (by omega), Nat.add_sub_cancel_left]
  simp [List.range_succ, h0, h1, h2]

theorem exec_chmCoefWindowWrite (hspan : 3 * n / 2 ^ 20 = (3 * n + 2) / 2 ^ 20) (h : Reaches s m (0x12000000 + 3 * n)) (hf : s.flmState = 0)
    {r : XbResp} {u : State} (hr : r = .ok ∨ r = .targetErr)
    (hw : (s.touch m).chmWindowWrite (0x12000000 + 3 * n) [some b0, some b1, some b2] = (r, u)) :
    exec (.chmCoefWindowWrite m (0x12000000 + 3 * n) [some b0, some b1, some b2]) s = .next (u.answer m (0x12000000 + 3 * n) r) := by
  obtain ⟨hthrough, -, hon⟩ := h
  have ht : targetOf (0x12000000 + 3 * n) = .coefs := by
    unfold targetOf
    iterate 5 rw [if_neg (by omega)]
    rw [if_pos (by omega)]
  have hfirst : (0x12000000 + 3 * n) / 2 ^ 20 = 288 + 3 * n / 2 ^ 20 := by omega
  have hlast : (0x12000000 + 3 * n + 3 - 1) / 2 ^ 20 = 288 + (3 * n + 2) / 2 ^ 20 := by omega
  have hone : spans (0x12000000 + 3 * n) 3 = [(0x12000000 + 3 * n, 3)] := if_pos (.inr (by rw [hfirst, hlast, hspan]))
  have hbus : (s.touch m).busWrite m (0x12000000 + 3 * n) [some b0, some b1, some b2] = ([(0x12000000 + 3 * n, r)], u) := by
    simp [State.busWrite, State.targetWrite, hone, ht, s.domainOn_touch hthrough.1, hon, s.flmState_touch hthrough.1, hf, hw]
  refine (if_pos ht).trans (congrArg Host.Outcome.next ?_)
  unfold State.throughBytes
  simp only [reach_eq hthrough, hbus]
  obtain rfl | rfl := hr <;> rfl

theorem chmCoefWindowWrite_writes (hspan : 3 * n / 2 ^ 20 = (3 * n + 2) / 2 ^ 20) (h : Reaches s m (0x12000000 + 3 * n)) (hf : s.flmState = 0)
    (hw : s.coefWritable n = true) : Gives (.chmCoefWindowWrite m (0x12000000 + 3 * n) [some b0, some b1, some b2]) s (fun t =>
      t.coef n = ofCodeS 24 (b0.toNat + 256 * b1.toNat + 65536 * b2.toNat) ∧ (∀ k, k ≠ n → t.coef k = s.coef k) ∧ .response m .ok ∈ t.sent ∧
      SameBut [R.XB_OUTSTANDING_PEAK m] { s with chm := { s.chm with coefs := t.chm.coefs, filters := t.chm.filters } } t) := by
  have hwrite := (s.touch m).chmWindowWrite_coef b0 b1 b2 hn
  rw [s.coefWritable_touch, if_pos hw] at hwrite
  have hbanks := ((s.touch m).putCoefBytes (3 * n) [some b0, some b1, some b2]).touchCoef_banks n
  refine ⟨_, exec_chmCoefWindowWrite b0 b1 b2 hn hspan h hf (.inl rfl) hwrite, ?_⟩
  rw [answer_ok]
  refine ⟨(hbanks.coef n).trans (State.coef_putCoefBytes_same ..), fun k hk => ?_, List.mem_cons_self, ?_⟩
  · refine (hbanks.coef k).trans ((State.coef_putCoefBytes_ne _ hk b0 b1 b2).trans ?_)
    simp only [State.coef, State.touch_chm]
  · exact (((SameBut.refl _ s).touch (by simp)).coefs ((State.putCoefBytes_coefs ..).trans hbanks.coefs)).emit _

theorem chmCoefWindowWrite_refused (hspan : 3 * n / 2 ^ 20 = (3 * n + 2) / 2 ^ 20) (h : Reaches s m (0x12000000 + 3 * n))
    (hf : s.flmState = 0) (hw : s.coefWritable n = false) :
    Gives (.chmCoefWindowWrite m (0x12000000 + 3 * n) [some b0, some b1, some b2]) s (fun t =>
      t.chm = s.chm ∧ .response m .targetErr ∈ t.sent ∧
      t.fld R.CHM_COEF_REFUSED_COUNT = min (s.fld R.CHM_COEF_REFUSED_COUNT + 1) (2 ^ 32 - 1) ∧
      bit (t.fld R.CHM_INT_STATUS_COEF_REFUSED) 0 = 1) := by
  have hwrite := (s.touch m).chmWindowWrite_coef b0 b1 b2 hn
  rw [s.coefWritable_touch, if_neg (by simp [hw])] at hwrite
  have hshows := (s.touch m).answer_coefRefuse m (0x12000000 + 3 * n)
  rw [s.fld_touch_cln h.1.1 (by decide), s.touch_chm] at hshows
  exact ⟨_, exec_chmCoefWindowWrite b0 b1 b2 hn hspan h hf (.inr rfl) hwrite, hshows⟩

end

/-! ### CHM_CW_DATA and its selector (R130, R137) -/

/-- The fields of CHM_CW_SEL. -/
def cwSelFlds : List Fld := [R.CHM_CW_SEL_AUTOINC, R.CHM_CW_SEL_BANK, R.CHM_CW_SEL_FILTER, R.CHM_CW_SEL_TAP]

/-- `t` has the live plane and CHM_CW_SEL of `s`. -/
def SameCwSel (s t : State) : Prop := t.cfg = s.cfg ∧ ∀ f ∈ cwSelFlds, t.fld f = s.fld f

theorem State.cwSel_touch (s : State) {m : Nat} (hm : m < 24) : SameCwSel s (s.touch m) :=
  ⟨s.touch_cfg m, fun f hf => s.fld_touch_cln hm ((by decide : ∀ f ∈ cwSelFlds, 0x14100000 ≤ f.addr) f hf)⟩

theorem SameBut.cwSel {fs : List Fld} {s t : State} (h : SameBut fs s t) (hfs : ∀ f ∈ cwSelFlds, ∀ g ∈ fs, f.key ≠ g.key) :
    SameCwSel s t := ⟨h.cfg, fun f hf => h.1 f (hfs f hf)⟩

theorem SameCwSel.trans {s t u : State} (h : SameCwSel s t) (h' : SameCwSel t u) : SameCwSel s u :=
  ⟨h'.1.trans h.1, fun f hf => (h'.2 f hf).trans (h.2 f hf)⟩

theorem SameCwSel.filterRec {s t : State} (h : SameCwSel s t) :
    t.filterRec? (t.fld R.CHM_CW_SEL_FILTER) = s.filterRec? (s.fld R.CHM_CW_SEL_FILTER) := by
  rw [h.2 R.CHM_CW_SEL_FILTER (by decide), State.filterRec?, h.1]
  rfl

theorem SameCwSel.cwIndex {s t : State} (h : SameCwSel s t) : t.cwIndex = s.cwIndex := by
  unfold State.cwIndex
  rw [h.filterRec, h.2 R.CHM_CW_SEL_TAP (by decide), h.2 R.CHM_CW_SEL_BANK (by decide)]

/-- A selected coefficient lies within its filter. -/
theorem State.cwIndex_tap {s : State} {n : Nat} {r : FilterRec} (hi : s.cwIndex = some n)
    (hr : s.filterRec? (s.fld R.CHM_CW_SEL_FILTER) = some r) : s.fld R.CHM_CW_SEL_TAP < r.taps := by
  by_contra hlt
  simp [State.cwIndex, hr, hlt] at hi

theorem State.fld_cwAdvance {s : State} {n : Nat} {r : FilterRec} (hi : s.cwIndex = some n)
    (hr : s.filterRec? (s.fld R.CHM_CW_SEL_FILTER) = some r) (h8 : r.taps ≤ 8192) : s.cwAdvance.fld R.CHM_CW_SEL_TAP =
      if s.fld R.CHM_CW_SEL_AUTOINC = 1 then if s.fld R.CHM_CW_SEL_TAP + 1 = r.taps then 0 else s.fld R.CHM_CW_SEL_TAP + 1
      else s.fld R.CHM_CW_SEL_TAP := by
  have htap := State.cwIndex_tap hi hr
  unfold State.cwAdvance
  dsimp only
  rw [hi, hr]
  dsimp only
  split
  · rw [State.fld_setFld_same]
    by_cases hlast : s.fld R.CHM_CW_SEL_TAP + 1 = r.taps
    · have hwraps : ¬ s.fld R.CHM_CW_SEL_TAP < r.taps - 1 := by omega
      rw [if_neg hwraps, if_pos hlast]
      rfl
    · have hnext : s.fld R.CHM_CW_SEL_TAP < r.taps - 1 := by omega
      rw [if_pos hnext, if_neg hlast]
      exact Nat.mod_eq_of_lt (show _ < 2 ^ 13 by omega)
  · rfl

theorem SameBut.cwAdvance {fs : List Fld} {u t : State} (h : SameBut fs u t) (ht : R.CHM_CW_SEL_TAP ∈ fs) : SameBut fs u t.cwAdvance := by
  unfold State.cwAdvance
  dsimp only
  split
  · exact h.setFld _ ht
  · exact h

theorem State.cwAdvance_chm (s : State) : s.cwAdvance.chm = s.chm := ((SameBut.refl [R.CHM_CW_SEL_TAP] s).cwAdvance (by simp)).chm

/-- The selector moves as it stood at `s`, whatever the write did beside it. -/
theorem SameCwSel.fld_cwAdvance {s t : State} (h : SameCwSel s t) {n : Nat} {r : FilterRec} (hi : s.cwIndex = some n)
    (hr : s.filterRec? (s.fld R.CHM_CW_SEL_FILTER) = some r) (h8 : r.taps ≤ 8192) : t.cwAdvance.fld R.CHM_CW_SEL_TAP =
      if s.fld R.CHM_CW_SEL_AUTOINC = 1 then if s.fld R.CHM_CW_SEL_TAP + 1 = r.taps then 0 else s.fld R.CHM_CW_SEL_TAP + 1
      else s.fld R.CHM_CW_SEL_TAP := by
  rw [State.fld_cwAdvance (h.cwIndex.trans hi) (h.filterRec.trans hr) h8, h.2 R.CHM_CW_SEL_AUTOINC (by decide),
    h.2 R.CHM_CW_SEL_TAP (by decide)]

section
variable {s : State} {n : Nat} (h : HostReaches s 0x14200014) (hi : s.cwIndex = some n) (v : Word)
include h hi

/-- The write reaches CHM_CW_DATA and does `w`; then its selector advances. -/
theorem exec_chmCwDataWrite {w : XbResp × State}
    (hw : (if signExt24 v && s.coefWritable n then (.ok, ((s.touch 0).setCoefs n [low24 v]).touchCoef n) else (s.touch 0).coefRefuse) = w) :
    exec (.chmCwDataWrite v) s = .next ((w.2.cwAdvance.tagHeld s.heldNext 0 none).answer 0 0x14200014 w.1) := by
  subst hw
  refine congrArg Host.Outcome.next ?_
  rw [through_reach h.1 h.2, State.cwDataWrite]
  dsimp only
  rw [(s.cwSel_touch (by decide)).cwIndex, hi]
  dsimp only
  rw [s.coefWritable_touch]

section
variable {r : FilterRec} (hr : s.filterRec? (s.fld R.CHM_CW_SEL_FILTER) = some r) (h8 : r.taps ≤ 8192)
include hr h8

theorem chmCwDataWrite_writes (hw : s.coefWritable n = true) (hv : signExt24 v = true) : Gives (.chmCwDataWrite v) s (fun t =>
    t.coef n = low24 v ∧ (∀ k, k ≠ n → t.coef k = s.coef k) ∧
    (t.fld R.CHM_CW_SEL_TAP = if s.fld R.CHM_CW_SEL_AUTOINC = 1 then
      (if s.fld R.CHM_CW_SEL_TAP + 1 = r.taps then 0 else s.fld R.CHM_CW_SEL_TAP + 1) else s.fld R.CHM_CW_SEL_TAP) ∧
    .response 0 .ok ∈ t.sent ∧ SameBut [R.CHM_CW_SEL_TAP, R.XB_OUTSTANDING_PEAK 0]
      { s with chm := { s.chm with coefs := t.chm.coefs, filters := t.chm.filters }, held := t.held } t) := by
  have hexec := exec_chmCwDataWrite h hi v (if_pos (by simp [hw, hv]))
  rw [answer_ok] at hexec
  have hbanks := ((s.touch 0).setCoefs n [low24 v]).touchCoef_banks n
  have hframe := ((SameBut.refl [R.XB_OUTSTANDING_PEAK 0] s).touch (by simp)).coefs
    (((s.touch 0).setCoefs_coefs n [low24 v]).trans hbanks.coefs)
  have hsel : SameCwSel s (((s.touch 0).setCoefs n [low24 v]).touchCoef n) := hframe.cwSel (by decide)
  have hcoef : ∀ k, (((s.touch 0).setCoefs n [low24 v]).touchCoef n).cwAdvance.coef k = ((s.touch 0).setCoefs n [low24 v]).coef k :=
    fun k => (congrArg (fun c => Tbl.get (Chm.coefs c) k 0) (State.cwAdvance_chm _)).trans (hbanks.coef k)
  refine ⟨_, hexec, (hcoef n).trans (State.coef_setCoefs_same ..), fun k hk => ?_, hsel.fld_cwAdvance hi hr h8, List.mem_cons_self, ?_⟩
  · refine (hcoef k).trans ((State.coef_setCoefs_ne _ _ hk).trans ?_)
    simp only [State.coef, State.touch_chm]
  · rw [State.emit_chm, State.tagHeld_chm, State.cwAdvance_chm, State.emit_held]
    exact (((hframe.mono (by simp)).cwAdvance (by simp)).tagHeld s.heldNext 0).emit _

theorem chmCwDataWrite_refused (hw : s.coefWritable n = false ∨ signExt24 v = false) : Gives (.chmCwDataWrite v) s (fun t => t.chm = s.chm ∧
    (t.fld R.CHM_CW_SEL_TAP = if s.fld R.CHM_CW_SEL_AUTOINC = 1 then
      (if s.fld R.CHM_CW_SEL_TAP + 1 = r.taps then 0 else s.fld R.CHM_CW_SEL_TAP + 1) else s.fld R.CHM_CW_SEL_TAP) ∧
    .response 0 .targetErr ∈ t.sent ∧ t.fld R.CHM_COEF_REFUSED_COUNT = min (s.fld R.CHM_COEF_REFUSED_COUNT + 1) (2 ^ 32 - 1)) := by
  have hexec := exec_chmCwDataWrite h hi v (if_neg (by obtain h | h := hw <;> simp [h]))
  have hrefuse : SameBut [R.CHM_COEF_REFUSED_COUNT, R.CHM_INT_STATUS_COEF_REFUSED] (s.touch 0) (s.touch 0).coefRefuse.2 :=
    (SameBut.refl _ _).countAndRaise (by simp) (by simp)
  have hsel := (s.cwSel_touch (m := 0) (by decide)).trans (hrefuse.cwSel (by decide))
  have hadvance := (SameBut.refl [R.CHM_CW_SEL_TAP] (s.touch 0).coefRefuse.2).cwAdvance (by simp)
  have hanswer := ((s.touch 0).coefRefuse.2.cwAdvance.tagHeld s.heldNext 0 none).answer_frame 0 0x14200014 (s.touch 0).coefRefuse.1
  refine ⟨_, hexec, ?_, ?_, List.mem_cons_self, ?_⟩
  · exact hanswer.chm.trans (hadvance.chm.trans (hrefuse.chm.trans (s.touch_chm 0)))
  · rw [hanswer.1 _ (by decide), State.fld_tagHeld]
    exact hsel.fld_cwAdvance hi hr h8
  · rw [hanswer.1 _ (by decide), State.fld_tagHeld, hadvance.1 _ (by decide)]
    refine (State.fld_countAndRaise_count _ (by decide)).trans ?_
    rw [s.fld_touch_cln (by decide) (by decide)]

end
end

/-! ### The statement -/

theorem chmCounts_nodup : (chmCounts.map Fld.key).Nodup := by decide

/-- Settles O24: the three bytes of a coefficient replace its code byte by byte, and a write of CHM_CW_DATA moves its selector whether it
is taken or refused. -/
theorem coefficientWrites : Obligations.CoefficientWrites := by
  refine ⟨fun s f bank first n a => ⟨_, rfl, ⟨_, rfl, rfl, rfl, rfl⟩, rfl⟩,
    fun s m n b0 b1 b2 hn hspan h hf => ⟨fun hw => chmCoefWindowWrite_writes b0 b1 b2 hn hspan h hf hw,
      fun hw => chmCoefWindowWrite_refused b0 b1 b2 hn hspan h hf hw⟩,
    fun s v n r h hi hr h8 => ⟨fun hw hv => chmCwDataWrite_writes h hi v hr h8 hw hv, fun hw => chmCwDataWrite_refused h hi v hr h8 hw⟩,
    fun s h => ?_⟩
  refine (hostClear_sets h rfl chmCounts_nodup).imp fun t ht => ?_
  simpa [chmCounts] using ht

end Sys2Proof.Machine
end

section
namespace Sys2Proof.Machine

/-! ### The queue of preset loads (R133) -/

/-- A load that fails shows its result, raises PRESET_FAIL, and Flam learns of it. -/
theorem SameBut.presetFail {fs : List Fld} {u t : State} (h : SameBut fs u t) (hr : R.CHM_PRESET_STATUS_RESULT ∈ fs)
    (hf : R.CHM_INT_STATUS_PRESET_FAIL ∈ fs) (result : Nat) :
    SameBut fs { u with chm := { t.chm with failed := true } } (t.presetFail result) :=
  ((h.setFld result hr).raise hf).withChm _

theorem State.presetFail_shows (s : State) {result : Nat} (h : result < 16) :
    (s.presetFail result).fld R.CHM_PRESET_STATUS_RESULT = result ∧ bit ((s.presetFail result).fld R.CHM_INT_STATUS_PRESET_FAIL) 0 = 1 := by
  refine ⟨?_, State.fld_raise_same _ (by decide)⟩
  refine (State.fld_raise_ne _ (by decide)).trans ((State.fld_setFld_same ..).trans ?_)
  exact Nat.mod_eq_of_lt h

/-- A preset load as it joins the queue. -/
def State.presetOf (s : State) (array preset flags len : Nat) : PresetLoad :=
  ⟨array, preset, decide (flags % 2 = 1), len, none, (0, 0), if s.chm.queue = [] then some (s.boundary .chm).2 else none, none, [], []⟩

/-- `s` with a load at the end of its queue. -/
def State.enqueuePreset (s : State) (l : PresetLoad) : State := { s with chm := { s.chm with queue := s.chm.queue ++ [l] } }

/-- The record of a preset in the live plane. -/
def State.presetRec? (s : State) (array preset : Nat) : Option PresetRec :=
  s.cfg.bind (fun c => c.presets.find? (fun r => r.array == array && r.preset == preset))

/-- At Chimes' boundary a command that need not wait is done. -/
theorem State.chmCommand_applies {s t : State} {c : Cmd} {k : Nat} (hb : s.atBoundary .chm 3 = true)
    (h : s.chmApply c .notNeeded = some (k, t)) : s.chmCommand c = t := by
  rw [State.chmCommand, if_pos hb, h]

section
variable {s : State} {array preset flags len : Nat} (hp : s.chmPresent = true) (h16 : 16 ≤ len) (hlen : len ≤ 1024)
include hp h16 hlen

theorem State.chmApply_presetLoad : s.chmApply (.presetLoad array preset flags len) .notNeeded =
    if s.presetWaiting < 4 ∧ (s.presetRec? array preset).isSome then some (0, s.enqueuePreset (s.presetOf array preset flags len))
    else some (2, s.presetFail 5) := if_pos (by simp [hp, h16, hlen])

theorem exec_presetLoad_queues (hb : s.atBoundary .chm 3 = true) (hw : s.presetWaiting < 4) (hk : (s.presetRec? array preset).isSome = true) :
    exec (.presetLoad array preset flags len) s = .next (s.enqueuePreset (s.presetOf array preset flags len)) :=
  congrArg Host.Outcome.next (State.chmCommand_applies hb ((State.chmApply_presetLoad hp h16 hlen).trans (if_pos ⟨hw, hk⟩)))

theorem exec_presetLoad_fails (hb : s.atBoundary .chm 3 = true)
    (hbad : 4 ≤ s.presetWaiting ∨ (s.presetRec? array preset).isSome = false) :
    exec (.presetLoad array preset flags len) s = .next (s.presetFail 5) := by
  have hnot : ¬ (s.presetWaiting < 4 ∧ (s.presetRec? array preset).isSome = true) := by
    rintro ⟨hw, hk⟩
    exact hbad.elim (fun h => by omega) fun h => by simp [hk] at h
  exact congrArg Host.Outcome.next (State.chmCommand_applies hb ((State.chmApply_presetLoad hp h16 hlen).trans (if_neg hnot)))

end

/-! ### The header of a load (R132, R133) -/

section
variable {s : State} {a n : Nat}

/-- Preset data without an uncorrectable error is fetched as its bytes. -/
theorem State.presetFetch_forwarded (hp : s.passage 5 a = .forwarded) (hbad : s.mem.firstBad a n = none) :
    s.presetFetch a n = some (some (s.mem.dramRead a n), s.touch 5) := by
  have hnone : s.mem.badWords a n = [] := by
    simp only [Mems.firstBad, List.find?_eq_none] at hbad
    exact List.filter_eq_nil_iff.mpr hbad
  unfold State.presetFetch
  rw [hp]
  simp only [State.dramFetch, State.touch_mem, hnone]

theorem State.presetFetch_refused (hp : s.passage 5 a = .refused) : s.presetFetch a n = some (none, s) := by
  unfold State.presetFetch
  rw [hp]

end

theorem State.presetHeader_touch (s : State) (m : Nat) (rec : PresetRec) (bs : List Byte) :
    (s.touch m).presetHeader rec bs = s.presetHeader rec bs := by
  have hrec : (s.touch m).filterRec? = s.filterRec? := funext fun f => by rw [State.filterRec?, State.touch_cfg]; rfl
  unfold State.presetHeader State.filtersIn
  rw [hrec]

section
variable {s u : State} {l : PresetLoad} {ls : List PresetLoad} {h : Nat} {rec : PresetRec} (hq : s.chm.queue = l :: ls)
  (hh : l.headAt = some h) (hn : l.header = none) (hr : s.presetRec? l.array l.preset = some rec)
include hq hh hn hr

theorem State.presetHeaderDone_fails (hf : s.presetFetch rec.addr 16 = some (none, u)) : s.presetHeaderDone = u.popPreset.presetFail 4 := by
  unfold State.presetRec? at hr
  simp [State.presetHeaderDone, hq, hh, hn, hr, hf]

theorem State.presetHeaderDone_bytes {bs : List Byte} (hf : s.presetFetch rec.addr 16 = some (some bs, u)) :
    s.presetHeaderDone = (u.presetHeader rec bs).elim (u.popPreset.presetFail 3)
      (fun x => u.setHeadPreset { l with header := some x, src := (rec.addr, rec.words) }) := by
  unfold State.presetRec? at hr
  simp only [State.presetHeaderDone, hq, hh, hn, hr, hf]
  cases u.presetHeader rec bs <;> rfl

end

/-- The fields in which a load shows that its header could not be used. -/
def presetHeadFlds : List Fld := [R.CHM_PRESET_STATUS_RESULT, R.CHM_INT_STATUS_PRESET_FAIL, R.XB_OUTSTANDING_PEAK 5]

/-- A load leaves the queue with RESULT `n`; `u` is what the fetch of its header has left. -/
theorem presetHeaderFetchDone_fails {s u : State} {l : PresetLoad} {ls : List PresetLoad} (hq : s.chm.queue = l :: ls)
    (hu : SameBut presetHeadFlds s u) {n : Nat} (hn : n < 16) (hdone : s.presetHeaderDone = u.popPreset.presetFail n) :
    Turns .presetHeaderFetchDone s presetHeadFlds { s with chm := { s.chm with queue := ls, failed := true } } (fun t =>
      t.fld R.CHM_PRESET_STATUS_RESULT = n ∧ bit (t.fld R.CHM_INT_STATUS_PRESET_FAIL) 0 = 1) := by
  have hpop : u.popPreset.chm = { s.chm with queue := ls } := by
    rw [State.popPreset, hu.chm, hq]
    rfl
  have hframe : SameBut presetHeadFlds { s with chm := u.popPreset.chm } u.popPreset := hu.withChm _
  have hfail := hframe.presetFail (by decide) (by decide) n
  rw [hpop] at hfail
  exact ⟨_, congrArg Host.Outcome.next hdone, hfail, State.presetFail_shows _ hn⟩

section
variable {s : State} {l : PresetLoad} {ls : List PresetLoad} {h : Nat} {rec : PresetRec} (hq : s.chm.queue = l :: ls)
  (hh : l.headAt = some h) (hn : l.header = none) (hr : s.presetRec? l.array l.preset = some rec)
include hq hh hn hr

theorem presetHeaderFetchDone_refused (hp : s.passage 5 rec.addr = .refused) :
    Turns .presetHeaderFetchDone s presetHeadFlds { s with chm := { s.chm with queue := ls, failed := true } } (fun t =>
      t.fld R.CHM_PRESET_STATUS_RESULT = 4 ∧ bit (t.fld R.CHM_INT_STATUS_PRESET_FAIL) 0 = 1) :=
  presetHeaderFetchDone_fails hq (SameBut.refl _ s) (by decide)
    (State.presetHeaderDone_fails hq hh hn hr (State.presetFetch_refused hp))

section
variable (hp : s.passage 5 rec.addr = .forwarded) (hbad : s.mem.firstBad rec.addr 16 = none)
include hp hbad

theorem State.presetHeaderDone_forwarded {o : Option (Nat × Nat × Nat)}
    (ho : s.presetHeader rec (s.mem.dramRead rec.addr 16) = o) : s.presetHeaderDone = o.elim ((s.touch 5).popPreset.presetFail 3)
      (fun x => (s.touch 5).setHeadPreset { l with header := some x, src := (rec.addr, rec.words) }) := by
  rw [State.presetHeaderDone_bytes hq hh hn hr (State.presetFetch_forwarded hp hbad), s.presetHeader_touch, ho]

theorem presetHeaderFetchDone_rejected (ho : s.presetHeader rec (s.mem.dramRead rec.addr 16) = none) :
    Turns .presetHeaderFetchDone s presetHeadFlds { s with chm := { s.chm with queue := ls, failed := true } } (fun t =>
      t.fld R.CHM_PRESET_STATUS_RESULT = 3 ∧ bit (t.fld R.CHM_INT_STATUS_PRESET_FAIL) 0 = 1) :=
  presetHeaderFetchDone_fails hq ((SameBut.refl _ s).touch (by decide)) (by decide)
    (State.presetHeaderDone_forwarded hq hh hn hr hp hbad ho)

theorem exec_presetHeaderFetchDone_passes {x : Nat × Nat × Nat} (ho : s.presetHeader rec (s.mem.dramRead rec.addr 16) = some x) :
    exec .presetHeaderFetchDone s = .next { s.touch 5 with
      chm := { s.chm with queue := { l with header := some x, src := (rec.addr, rec.words) } :: ls } } := by
  refine congrArg Host.Outcome.next ((State.presetHeaderDone_forwarded hq hh hn hr hp hbad ho).trans ?_)
  rw [Option.elim_some, State.setHeadPreset, State.touch_chm, hq]
  rfl

end
end

end Sys2Proof.Machine
end

section
namespace Sys2Proof.Machine

/-! ### A load starts (R133) -/

/-- The idle banks of the filters `fs` go to LOADING. -/
def State.loadBanks (s : State) (fs : List Nat) : State := fs.foldl (fun s f => s.setFilt f { s.filt f with idle := .loading }) s

theorem State.loadBanks_banks (s : State) (fs : List Nat) : BanksOnly s (s.loadBanks fs) :=
  List.foldlRecOn (motive := BanksOnly s) fs _ rfl fun _ h _ _ => h.trans rfl

theorem State.filt_loadBanks (s : State) (fs : List Nat) (g : Nat) :
    (s.loadBanks fs).filt g = if g ∈ fs then { s.filt g with idle := .loading } else s.filt g := by
  induction fs generalizing s with
  | nil => rfl
  | cons f fs ih =>
    have hrest : s.loadBanks (f :: fs) = (s.setFilt f { s.filt f with idle := .loading }).loadBanks fs := rfl
    rw [hrest, ih]
    by_cases hg : g = f
    · subst hg
      rw [State.filt_setFilt_same, if_pos List.mem_cons_self]
      exact ite_self _
    · rw [s.filt_setFilt_ne _ hg]
      simp [hg]

/-- The filters of a load. -/
def coveredFilters (first count : Nat) : List Nat := (List.range count).map (· + first)

theorem mem_coveredFilters {first count f : Nat} : f ∈ coveredFilters first count ↔ first ≤ f ∧ f < first + count := by
  simp only [coveredFilters, List.mem_map, List.mem_range]
  constructor
  · rintro ⟨j, hj, rfl⟩
    omega
  · exact fun hf => ⟨f - first, by omega, by omega⟩

/-- The load at the head of the queue as its start leaves it: it keeps the banks that it writes and where they lie. -/
def State.startedLoad (s : State) (l : PresetLoad) (first count : Nat) : PresetLoad :=
  let banks := (coveredFilters first count).map (fun f => 1 - (s.filt f).active)
  { l with startAt := some (s.boundary .chm).2, banks := banks
           spans := ((coveredFilters first count).zip banks).map (fun p =>
             match s.filterRec? p.1 with | none => (0, 0) | some r => (r.bankBase p.2, r.taps)) }

/-- CHM_PRESET_STATUS as the start of a load of preset (array, preset) leaves it. -/
def State.showPreset (s : State) (array preset : Nat) : State :=
  ((((s.setFld R.CHM_PRESET_STATUS_BUSY 1).setFld R.CHM_PRESET_STATUS_RESULT 0).setFld R.CHM_PRESET_STATUS_BLOCKS 0).setFld
    R.CHM_PRESET_STATUS_ARRAY array).setFld R.CHM_PRESET_STATUS_PRESET preset

/-- The fields of CHM_PRESET_STATUS that a start sets. -/
def presetStartFlds : List Fld := [R.CHM_PRESET_STATUS_BUSY, R.CHM_PRESET_STATUS_RESULT, R.CHM_PRESET_STATUS_BLOCKS, R.CHM_PRESET_STATUS_ARRAY,
  R.CHM_PRESET_STATUS_PRESET]

theorem State.showPreset_frame (s : State) (array preset : Nat) : SameBut presetStartFlds s (s.showPreset array preset) :=
  (((((SameBut.refl _ s).setFld _ (by decide)).setFld _ (by decide)).setFld _ (by decide)).setFld _ (by decide)).setFld _ (by decide)

theorem State.showPreset_shows (s : State) {array preset : Nat} (ha : array < 64) (hp : preset < 16) : let t := s.showPreset array preset
    t.fld R.CHM_PRESET_STATUS_BUSY = 1 ∧ t.fld R.CHM_PRESET_STATUS_RESULT = 0 ∧ t.fld R.CHM_PRESET_STATUS_ARRAY = array ∧
      t.fld R.CHM_PRESET_STATUS_PRESET = preset := by
  unfold State.showPreset
  refine ⟨?_, ?_, ?_, ?_⟩
  · rw [State.fld_setFld_ne _ _ (by decide), State.fld_setFld_ne _ _ (by decide), State.fld_setFld_ne _ _ (by decide),
      State.fld_setFld_ne _ _ (by decide), State.fld_setFld_same]
    rfl
  · rw [State.fld_setFld_ne _ _ (by decide), State.fld_setFld_ne _ _ (by decide), State.fld_setFld_ne _ _ (by decide),
      State.fld_setFld_same]
    rfl
  · rw [State.fld_setFld_ne _ _ (by decide), State.fld_setFld_same]
    exact Nat.mod_eq_of_lt ha
  · rw [State.fld_setFld_same]
    exact Nat.mod_eq_of_lt hp

/-- The load at the head of the queue has started: its banks are LOADING. -/
def State.presetBegun (s : State) (l : PresetLoad) (first count : Nat) : State :=
  (s.setHeadPreset (s.startedLoad l first count)).loadBanks (coveredFilters first count)

theorem State.filt_presetBegun (s : State) (l : PresetLoad) (first count g : Nat) : (s.presetBegun l first count).filt g =
    if first ≤ g ∧ g < first + count then { s.filt g with idle := .loading } else s.filt g := by
  rw [State.presetBegun, State.filt_loadBanks]
  exact if_congr mem_coveredFilters rfl rfl

theorem State.presetBegun_eq {s : State} {l : PresetLoad} {ls : List PresetLoad} (hq : s.chm.queue = l :: ls) (first count : Nat) :
    s.presetBegun l first count = { s with chm := { s.chm with queue := s.startedLoad l first count :: ls
                                                               filters := (s.presetBegun l first count).chm.filters } } := by
  have hbanks : BanksOnly (s.setHeadPreset (s.startedLoad l first count)) (s.presetBegun l first count) := State.loadBanks_banks ..
  unfold BanksOnly State.setHeadPreset at hbanks
  rwa [hq] at hbanks

section
variable {s : State} {l : PresetLoad} {ls : List PresetLoad} {h first count crc : Nat} (hq : s.chm.queue = l :: ls)
  (hh : l.headAt = some h) (hs : l.startAt = none) (hd : l.header = some (first, count, crc)) (hlt : h < (s.boundary .chm).2)
  (hfree : ∀ j < count, (s.filt (first + j)).fade = none ∧ (s.filt (first + j)).locked = 0)
include hq hh hs hd hlt hfree

theorem State.presetStart_eq : s.presetStart = (s.presetBegun l first count).showPreset l.array l.preset := by
  have hall : (coveredFilters first count).all (fun f => (s.filt f).fade.isNone && (s.filt f).locked == 0) = true := by
    simp only [List.all_eq_true, mem_coveredFilters]
    rintro f ⟨hlo, hhi⟩
    obtain ⟨hfade, hlock⟩ := hfree (f - first) (by omega)
    rw [Nat.add_sub_cancel' hlo] at hfade hlock
    simp [hfade, hlock]
  unfold State.presetStart
  simp only [hq, hh, hs, hd]
  rw [if_pos ⟨hlt, hall⟩]
  simp only [State.presetBegun, State.startedLoad, hd, hh]
  rfl

theorem presetLoadStart_starts (ha : l.array < 64) (hp : l.preset < 16) : Gives .presetLoadStart s (fun t =>
    (∀ j < count, t.filt (first + j) = { s.filt (first + j) with idle := .loading }) ∧
    (∀ f, f < first ∨ first + count ≤ f → t.filt f = s.filt f) ∧ t.fld R.CHM_PRESET_STATUS_BUSY = 1 ∧
    t.fld R.CHM_PRESET_STATUS_RESULT = 0 ∧ t.fld R.CHM_PRESET_STATUS_ARRAY = l.array ∧ t.fld R.CHM_PRESET_STATUS_PRESET = l.preset ∧
    t.chm.queue.tail = ls ∧ t.chm.queue.head?.map (·.startAt) = some (some (s.boundary .chm).2) ∧
    SameBut presetStartFlds { s with chm := { s.chm with queue := t.chm.queue, filters := t.chm.filters } } t) := by
  have hframe := (s.presetBegun l first count).showPreset_frame l.array l.preset
  have hbegun := State.presetBegun_eq hq first count
  have hfilt := s.filt_presetBegun l first count
  have hqueue : (s.presetBegun l first count).chm.queue = s.startedLoad l first count :: ls := (congrArg (fun u => (State.chm u).queue) hbegun :)
  obtain ⟨hbusy, hresult, harray, hpreset⟩ := (s.presetBegun l first count).showPreset_shows ha hp
  refine ⟨_, congrArg Host.Outcome.next (State.presetStart_eq hq hh hs hd hlt hfree), fun j hj => ?_, fun f hf => ?_, hbusy, hresult, harray,
    hpreset, ?_⟩
  · exact (hfilt (first + j)).trans (if_pos (by omega))
  · exact (hfilt f).trans (if_neg (by omega))
  · rw [hframe.chm, hqueue, ← hbegun]
    exact ⟨rfl, rfl, hframe⟩

end

end Sys2Proof.Machine
end

section
namespace Sys2Proof.Machine

/-! ### Chimes' port while its registers change (R227) -/

/-- Chimes' own registers do not bear on what becomes of its requests. -/
theorem State.passage_setFld_chm (s : State) {f : Fld} (hf : 0x14200000 ≤ f.addr) (v a : Nat) :
    (s.setFld f v).passage 5 a = s.passage 5 a := by
  have hfld : ∀ g : Fld, g.key < 32 * 0x14200000 → (s.setFld f v).fld g = s.fld g := fun g hg =>
    s.fld_setFld_ne v (by simp only [Fld.key] at hg ⊢; omega)
  have hon : (s.setFld f v).domainOn 2 = s.domainOn 2 := by
    unfold State.domainOn
    split
    · rfl
    · next i _ hi =>
      have hlt := islandsOf_lt hi
      unfold State.islandOn
      rw [hfld _ (by simp only [Fld.key]; omega)]
  have hport : (s.setFld f v).xbPort 5 = s.xbPort 5 := by
    unfold State.xbPort
    rw [hfld _ (by decide)]
    rfl
  unfold State.passage
  rw [hon, hport]
  rfl

/-! ### The end of a load (R132, R133) -/

theorem State.putPreset_one (s : State) (cs : Nat → Int) (base taps : Nat) :
    s.putPreset cs [(base, taps)] 0 = s.setCoefs base ((List.range taps).map cs) := by
  simp [State.putPreset]

theorem State.leaveLoading_one {s : State} {f : Nat} (h : (s.filt f).idle = .loading) (x : IdleBank) :
    s.leaveLoading f 1 x = s.setFilt f { s.filt f with idle := x } := if_pos h

/-- The queue's head is gone, and CHM_PRESET_STATUS shows that it has run `n` blocks. -/
def State.presetOver (s : State) (n : Nat) : State :=
  (s.popPreset.setFld R.CHM_PRESET_STATUS_BUSY 0).setFld R.CHM_PRESET_STATUS_BLOCKS n

/-- A load whose data `bs` has come through Chimes' port, with its coefficients in the bank at `base`. -/
def State.presetIn (s : State) (n base taps : Nat) (bs : List Byte) : State :=
  ((s.presetOver n).touch 5).setCoefs base ((List.range taps).map (presetCoef bs))

/-- The fields in which a load shows its end. -/
def presetEndFlds : List Fld := [R.CHM_PRESET_STATUS_BUSY, R.CHM_PRESET_STATUS_BLOCKS, R.CHM_PRESET_STATUS_RESULT,
  R.CHM_INT_STATUS_PRESET_DONE, R.CHM_INT_STATUS_PRESET_FAIL, R.XB_OUTSTANDING_PEAK 5]

/-- Filter `f`'s idle bank has left LOADING with its CRC right: READY and RESULT 1. -/
def State.presetDone (s : State) (f : Nat) : State :=
  ((s.setFilt f { s.filt f with idle := .ready }).setFld R.CHM_PRESET_STATUS_RESULT 1).raise R.CHM_INT_STATUS_PRESET_DONE

/-- Filter `f`'s idle bank has left LOADING with its CRC wrong: INVALID and RESULT 2. -/
def State.presetBad (s : State) (f : Nat) : State := (s.setFilt f { s.filt f with idle := .invalid }).presetFail 2

/-- The fields in which the verdict on a load's CRC shows. -/
def presetVerdictFlds : List Fld := [R.CHM_PRESET_STATUS_RESULT, R.CHM_INT_STATUS_PRESET_DONE, R.CHM_INT_STATUS_PRESET_FAIL]

/-- With the CRC right, whatever bank selects are then owed. -/
theorem State.presetDone_shows (s : State) (f : Nat) (o : List (Nat × List Nat × Nat × Nat × Bool)) :
    let t : State := { s.presetDone f with chm := { (s.presetDone f).chm with owed := o } }
    SameBut presetVerdictFlds { s with chm := t.chm } t ∧ (t.filt f).idle = .ready ∧ t.fld R.CHM_PRESET_STATUS_RESULT = 1 ∧
      bit (t.fld R.CHM_INT_STATUS_PRESET_DONE) 0 = 1 ∧ t.chm.coefs = s.chm.coefs ∧ t.chm.queue = s.chm.queue := by
  intro t
  have hframe : SameBut presetVerdictFlds (s.setFilt f { s.filt f with idle := .ready }) (s.presetDone f) :=
    ((SameBut.refl _ _).setFld 1 (by decide)).raise (by decide)
  have hfilt : t.filt f = { s.filt f with idle := .ready } := by
    change Tbl.get (s.presetDone f).chm.filters f .fresh = _
    rw [hframe.chm]
    exact s.filt_setFilt_same f _
  refine ⟨hframe.withChm t.chm, congrArg ChmFilter.idle hfilt, ?_, State.fld_raise_same _ (by decide), (congrArg Chm.coefs hframe.chm :),
    (congrArg Chm.queue hframe.chm :)⟩
  exact (State.fld_raise_ne _ (by decide)).trans (State.fld_setFld_same ..)

/-- With the CRC wrong. -/
theorem State.presetBad_shows (s : State) (f : Nat) : let t := s.presetBad f
    SameBut presetVerdictFlds { s with chm := t.chm } t ∧ (t.filt f).idle = .invalid ∧ t.fld R.CHM_PRESET_STATUS_RESULT = 2 ∧
      bit (t.fld R.CHM_INT_STATUS_PRESET_FAIL) 0 = 1 ∧ t.chm.coefs = s.chm.coefs ∧ t.chm.queue = s.chm.queue := by
  intro t
  obtain ⟨hresult, hflag⟩ := (s.setFilt f { s.filt f with idle := .invalid }).presetFail_shows (result := 2) (by decide)
  have hframe : SameBut presetVerdictFlds _ t :=
    (SameBut.refl _ (s.setFilt f { s.filt f with idle := .invalid })).presetFail (by decide) (by decide) 2
  exact ⟨hframe.withChm t.chm, congrArg ChmFilter.idle (s.filt_setFilt_same f _), hresult, hflag, rfl, rfl⟩

theorem State.passage_presetOver (s : State) (n a : Nat) : (s.presetOver n).passage 5 a = s.passage 5 a := by
  unfold State.presetOver
  rw [State.passage_setFld_chm _ (by decide), State.passage_setFld_chm _ (by decide)]
  rfl

section
variable (s : State) (n base taps : Nat) (bs : List Byte)

theorem State.filt_presetIn (f : Nat) : (s.presetIn n base taps bs).filt f = s.filt f := by
  change Tbl.get ((s.presetOver n).touch 5).chm.filters f .fresh = _
  rw [State.touch_chm]
  rfl

theorem State.presetIn_queue : (s.presetIn n base taps bs).chm.queue = s.chm.queue.drop 1 := by
  change ((s.presetOver n).touch 5).chm.queue = _
  rw [State.touch_chm]
  rfl

theorem State.coef_presetIn (i : Nat) : (s.presetIn n base taps bs).coef i =
    if base ≤ i ∧ i < base + taps then presetCoef bs (i - base) else s.coef i := by
  have hkept : ((s.presetOver n).touch 5).coef i = s.coef i := by
    rw [State.coef, State.touch_chm]
    rfl
  rw [State.presetIn, State.coef_setCoefs, hkept, List.length_map, List.length_range]
  refine if_ctx_congr Iff.rfl (fun hi => ?_) fun _ => rfl
  rw [List.getD_eq_getElem _ _ (by simp; omega), List.getElem_map, List.getElem_range]

theorem State.presetIn_frame :
    SameBut [R.CHM_PRESET_STATUS_BUSY, R.CHM_PRESET_STATUS_BLOCKS, R.XB_OUTSTANDING_PEAK 5]
      { s with chm := (s.presetIn n base taps bs).chm } (s.presetIn n base taps bs) :=
  ((((SameBut.refl _ s.popPreset).setFld 0 (by simp)).setFld n (by simp)).touch (by simp)).withChm (s.presetIn n base taps bs).chm

theorem State.fld_presetIn_busy : (s.presetIn n base taps bs).fld R.CHM_PRESET_STATUS_BUSY = 0 := by
  change ((s.presetOver n).touch 5).fld _ = 0
  rw [State.fld_touch_cln _ (by decide) (by decide), State.presetOver, State.fld_setFld_ne _ _ (by decide), State.fld_setFld_same]
  rfl

end

/-- What the verdict on a load's CRC leaves as the load's data left it. -/
theorem SameBut.presetIn {s t : State} {n base taps : Nat} {bs : List Byte}
    (h : SameBut presetVerdictFlds { s.presetIn n base taps bs with chm := t.chm } t)
    (hcoefs : t.chm.coefs = (s.presetIn n base taps bs).chm.coefs) (hqueue : t.chm.queue = (s.presetIn n base taps bs).chm.queue) :
    t.chm.queue = s.chm.queue.drop 1 ∧ t.fld R.CHM_PRESET_STATUS_BUSY = 0 ∧ (∀ j < taps, t.coef (base + j) = presetCoef bs j) ∧
      (∀ i, i < base ∨ base + taps ≤ i → t.coef i = s.coef i) ∧ SameBut presetEndFlds { s with chm := t.chm } t := by
  have hcoef : ∀ i, t.coef i = (s.presetIn n base taps bs).coef i := fun i => by rw [State.coef, hcoefs]; rfl
  refine ⟨hqueue.trans (s.presetIn_queue ..), (h.1 _ (by decide)).trans (s.fld_presetIn_busy n base taps bs), fun j hj => ?_, fun i hi => ?_, ?_⟩
  · rw [hcoef, State.coef_presetIn, if_pos (by omega), Nat.add_sub_cancel_left]
  · rw [hcoef, State.coef_presetIn, if_neg (by omega)]
  · exact (((s.presetIn_frame n base taps bs).withChm t.chm).mono (by simp [presetEndFlds])).trans
      (h.mono (by simp [presetVerdictFlds, presetEndFlds]))

section
variable {s : State} {l : PresetLoad} {f crc k : Nat} {base taps : Nat} (hq : s.chm.queue = [l]) (hd : l.header = some (f, 1, crc))
  (hs : l.startAt = some k) (hspan : l.spans = [(base, taps)]) (hsrc : l.src.2 = taps) (hload : (s.filt f).idle = .loading)
  (hp : s.passage 5 (l.src.1 + 16) = .forwarded) (hbad : s.mem.firstBad (l.src.1 + 16) (3 * taps) = none)
include hq hd hs hspan hsrc hload hp hbad

/-- A load whose data are in ends by their CRC; with SWAP_AFTER a bank select is owed. -/
theorem State.presetComplete_ends : ∃ n o,
    let bs := s.mem.dramRead (l.src.1 + 16) (3 * taps)
    let t := s.presetIn n base taps bs
    s.presetComplete = if crc32 bs = crc then { t.presetDone f with chm := { (t.presetDone f).chm with owed := o } } else t.presetBad f := by
  have hfetch := State.presetFetch_forwarded (s := s.presetOver (min ((s.boundary .chm).2 - k + 1) 255))
    ((s.passage_presetOver _ _).trans hp) hbad
  unfold State.presetOver at hfetch
  have hidle := fun bs => (congrArg ChmFilter.idle (s.filt_presetIn (min ((s.boundary .chm).2 - k + 1) 255) base taps bs f)).trans hload
  unfold State.presetIn State.presetOver at hidle
  refine ⟨min ((s.boundary .chm).2 - k + 1) 255, ?_⟩
  unfold State.presetComplete
  simp only [hq, hd, hs, hsrc, hfetch, hspan, State.putPreset_one, State.leaveLoading_one (hidle _)]
  cases l.swapAfter
  · exact ⟨_, rfl⟩
  · exact ⟨_, rfl⟩

theorem presetLoadComplete_ends : Gives .presetLoadComplete s (fun t => t.chm.queue = [] ∧ t.fld R.CHM_PRESET_STATUS_BUSY = 0 ∧
    (∀ j < taps, t.coef (base + j) = presetCoef (s.mem.dramRead (l.src.1 + 16) (3 * taps)) j) ∧
    (∀ i, i < base ∨ base + taps ≤ i → t.coef i = s.coef i) ∧
    (crc32 (s.mem.dramRead (l.src.1 + 16) (3 * taps)) = crc → (t.filt f).idle = .ready ∧ t.fld R.CHM_PRESET_STATUS_RESULT = 1 ∧
      bit (t.fld R.CHM_INT_STATUS_PRESET_DONE) 0 = 1) ∧
    (crc32 (s.mem.dramRead (l.src.1 + 16) (3 * taps)) ≠ crc → (t.filt f).idle = .invalid ∧ t.fld R.CHM_PRESET_STATUS_RESULT = 2 ∧
      bit (t.fld R.CHM_INT_STATUS_PRESET_FAIL) 0 = 1) ∧
    SameBut presetEndFlds { s with chm := t.chm } t) := by
  obtain ⟨n, o, hends⟩ := State.presetComplete_ends hq hd hs hspan hsrc hload hp hbad
  have hempty : s.chm.queue.drop 1 = [] := by rw [hq]; rfl
  dsimp only at hends
  generalize s.mem.dramRead (l.src.1 + 16) (3 * taps) = bs at hends ⊢
  by_cases hcrc : crc32 bs = crc
  · rw [if_pos hcrc] at hends
    obtain ⟨hframe, hready, hresult, hflag, hcoefs, hqueue⟩ := (s.presetIn n base taps bs).presetDone_shows f o
    obtain ⟨hpopped, hbusy, hin, hout, hsame⟩ := SameBut.presetIn hframe hcoefs hqueue
    exact ⟨_, congrArg Host.Outcome.next hends, hpopped.trans hempty, hbusy, hin, hout, fun _ => ⟨hready, hresult, hflag⟩,
      fun hne => absurd hcrc hne, hsame⟩
  · rw [if_neg hcrc] at hends
    obtain ⟨hframe, hinvalid, hresult, hflag, hcoefs, hqueue⟩ := (s.presetIn n base taps bs).presetBad_shows f
    obtain ⟨hpopped, hbusy, hin, hout, hsame⟩ := SameBut.presetIn hframe hcoefs hqueue
    exact ⟨_, congrArg Host.Outcome.next hends, hpopped.trans hempty, hbusy, hin, hout, fun heq => absurd heq hcrc,
      fun _ => ⟨hinvalid, hresult, hflag⟩, hsame⟩

end

end Sys2Proof.Machine
end

section
namespace Sys2Proof.Machine

/-! ### Bank selects that finished loads owe (R129, R133, R135) -/

/-- `s` with no select owed. -/
def State.owesNone (s : State) : State := { s with chm := { s.chm with owed := [] } }

section
variable {s : State} {f bank len at_ : Nat} (hm : s.mirrors 2 = false) (ho : s.chm.owed = [(f, [bank], len, at_, false)])
  (ha : at_ < (s.boundary .chm).2)
include hm ho ha

theorem State.presetSwapAfter_goes {t : State} (h : s.owesNone.selectAll [(f, bank)] len = some (.ok t)) : s.presetSwapAfter = t := by
  unfold State.owesNone at h
  simp [State.presetSwapAfter, hm, ho, ha, h]

theorem State.presetSwapAfter_discards (h : s.owesNone.selectAll [(f, bank)] len = some (.error ())) :
    s.presetSwapAfter = s.owesNone.chmReject := by
  unfold State.owesNone at h ⊢
  simp [State.presetSwapAfter, hm, ho, ha, h]

theorem presetSwapAfter_fades (hr : (s.filterRec? f).isSome = true) (hfade : (s.filt f).fade = none) (hact : (s.filt f).active ≠ bank)
    (hidle : (s.filt f).idle = .ready) (hlock : (s.filt f).locked = 0) : Gives .presetSwapAfter s (fun t => t.chm.owed = [] ∧
      t.filt f = { s.filt f with active := bank, idle := .busy, fade := some (0, len, false) } ∧
      t = { s with chm := { s.chm with owed := [], filters := t.chm.filters } }) := by
  have hgoes : s.owesNone.selectAll [(f, bank)] len = some (.ok (s.owesNone.selectBank f bank len)) := by
    refine State.selectAll_goes ?_ ?_ len ?_ <;> rw [List.forall_mem_singleton]
    · exact ⟨hr, hlock⟩
    · exact fun h => nomatch hidle.symm.trans h
    · exact fun h => nomatch hidle.symm.trans h
  rw [State.selectBank_still (s := s.owesNone) hfade, if_neg (show ¬ bank = (s.owesNone.filt f).active from Ne.symm hact)] at hgoes
  exact ⟨_, congrArg Host.Outcome.next (State.presetSwapAfter_goes hm ho ha hgoes), rfl, State.filt_setFilt_same .., rfl⟩

theorem presetSwapAfter_discards (hlock : (s.filt f).locked ≠ 0) :
    Turns .presetSwapAfter s [R.CHM_CMD_REJECT_COUNT, R.CHM_INT_STATUS_CMD_REJECT] { s with chm := { s.chm with owed := [] } } (fun t =>
      t.fld R.CHM_CMD_REJECT_COUNT = min (s.fld R.CHM_CMD_REJECT_COUNT + 1) (2 ^ 32 - 1)) := by
  have hdiscard : s.owesNone.selectAll [(f, bank)] len = some (.error ()) :=
    State.selectAll_discards ⟨_, List.mem_singleton.mpr rfl, fun hu => hlock hu.2⟩ len
  obtain ⟨hframe, hcount, -⟩ := s.owesNone.chmReject_shows
  exact ⟨_, congrArg Host.Outcome.next (State.presetSwapAfter_discards hm ho ha hdiscard), hframe, hcount⟩

end

/-! ### CHM_PRESET_REQ (R134, R137) -/

theorem chmPresetReqWrite_holds {s : State} (h : HostReaches s 0x14200024) {v : Word} (hgo : v.toNat % 2 = 1) :
    Gives (.chmPresetReqWrite v) s (fun t => (∃ c ∈ t.held, c.id = s.heldNext ∧ c.stamp = none ∧ c.cmd = chmPresetCmd v) ∧
      t.held.length = s.held.length + 1 ∧
      SameBut [R.XB_OUTSTANDING_PEAK 0] { s with held := t.held, heldNext := s.heldNext + 1 } t) := by
  have hnext : (s.touch 0).heldNext = s.heldNext := State.touch_heldNext ..
  have hwrite : (s.touch 0).chmPresetWrite v = (s.touch 0).hold (heldOf .chm (chmPresetCmd v) .notNeeded) :=
    if_pos (by rw [bit, pow_zero, Nat.div_one, hgo])
  have hexec : exec (.chmPresetReqWrite v) s = .next (s.answered 0 .ok ((s.touch 0).chmPresetWrite v)) :=
    congrArg Host.Outcome.next (hostSet_reach h v fun s => s.chmPresetWrite v)
  rw [hwrite] at hexec
  obtain ⟨c, hc, hcmd, hstamp, -, hid⟩ := (s.touch 0).held_tagHeld_hold (heldOf .chm (chmPresetCmd v) .notNeeded) 0
  rw [hnext] at hc hid
  refine ⟨_, hexec, ⟨c, hc, hid, hstamp, hcmd⟩, ?_, ?_⟩
  · rw [State.answered, State.emit_held, State.length_held_tagHeld]
    simp [State.hold]
  · exact (((SameBut.refl _ s).touch (by simp)).holdTagged hnext (s.touch 0).held _ 0).emit _

/-! ### The statement -/

/-- Settles O23: each event of a load changes the queue's head and the banks of its filters, the data of a load enter the bank that it
holds LOADING, and their CRC decides how that bank leaves LOADING. -/
theorem presetLoads : Obligations.PresetLoads := by
  refine ⟨fun s array preset flags len hb hp hflags h16 hlen => ⟨fun hw hk => ?_, fun hbad => ?_⟩,
    fun s l ls h rec hq hh hn hr => ⟨fun hp hbad => ⟨fun x => exec_presetHeaderFetchDone_passes hq hh hn hr hp hbad,
      presetHeaderFetchDone_rejected hq hh hn hr hp hbad⟩, presetHeaderFetchDone_refused hq hh hn hr⟩,
    fun s l ls h first count crc hq hh hs hd hlt ha hp hfree => presetLoadStart_starts hq hh hs hd hlt hfree ha hp,
    fun s l f crc b k r hq hd hs hspan hsrc hload hp hbad => presetLoadComplete_ends hq hd hs hspan hsrc hload hp hbad,
    fun s f bank len at_ hm ho ha hr hfade hact hidle => ⟨presetSwapAfter_fades hm ho ha hr hfade hact hidle,
      presetSwapAfter_discards hm ho ha⟩,
    fun s v h hgo => chmPresetReqWrite_holds h hgo⟩
  · have hswap : decide (flags % 2 = 1) = decide (flags = 1) := by rw [Nat.mod_eq_of_lt hflags]
    exact ⟨_, exec_presetLoad_queues hp h16 hlen hb hw hk, ⟨_, rfl, rfl, rfl, hswap, rfl, rfl⟩, rfl⟩
  · exact ⟨_, exec_presetLoad_fails hp h16 hlen hb hbad, (SameBut.refl _ s).presetFail (by simp) (by simp) 5,
      s.presetFail_shows (by decide)⟩

end Sys2Proof.Machine
end

section
namespace Sys2Proof.Machine

/-! ### A table written twice at one key -/

theorem Tbl.erase_of_find_none {α : Type} {k : Nat} : ∀ {t : Tbl α}, Tbl.find k t = none → Tbl.erase k t = t
  | [], _ => rfl
  | (k', v) :: t, h => by
    by_cases hk : k' = k
    · simp [Tbl.find, hk] at h
    · rw [Tbl.find, if_neg hk] at h
      rw [Tbl.erase, if_neg hk, Tbl.erase_of_find_none h]

theorem Tbl.erase_ins_same {α : Type} (k : Nat) (v : α) : ∀ t : Tbl α, Tbl.erase k (Tbl.ins k v t) = Tbl.erase k t
  | [] => by simp [Tbl.ins, Tbl.erase]
  | (k', v') :: t => by
    unfold Tbl.ins
    split
    · simp [Tbl.erase]
    · simp [Tbl.erase, Tbl.erase_ins_same k v t]

theorem Tbl.erase_erase_same {α : Type} (k : Nat) (t : Tbl α) : Tbl.erase k (Tbl.erase k t) = Tbl.erase k t :=
  Tbl.erase_of_find_none (Tbl.find_erase_same k t)

/-- The last write of a key decides. -/
theorem Tbl.set_set {α : Type} [DecidableEq α] (t : Tbl α) (k : Nat) (d v w : α) : Tbl.set (Tbl.set t k d v) k d w = Tbl.set t k d w := by
  have herase : Tbl.erase k (Tbl.set t k d v) = Tbl.erase k t := by
    unfold Tbl.set
    split
    · exact Tbl.erase_erase_same k t
    · rw [Tbl.erase_ins_same, Tbl.erase_erase_same]
  conv_lhs => rw [Tbl.set, herase]
  rfl

/-! ### One core of the clusters -/

@[simp] theorem State.core_setCore_same (s : State) (g : Nat) (c : Core) : (s.setCore g c).core g = c := Tbl.get_set_same ..

theorem State.core_setCore_ne (s : State) {g h : Nat} (c : Core) (hne : h ≠ g) : (s.setCore g c).core h = s.core h :=
  Tbl.get_set_ne _ _ _ _ hne

@[simp] theorem State.setCore_setCore (s : State) (g : Nat) (c d : Core) : (s.setCore g c).setCore g d = s.setCore g d := by
  simp only [State.setCore, Tbl.set_set]

theorem State.core_congr {s t : State} (h : t.mal.cores = s.mal.cores) (g : Nat) : t.core g = s.core g := by
  rw [State.core, h]; rfl

@[simp] theorem State.fld_setCore (s : State) (g : Nat) (c : Core) (f : Fld) : (s.setCore g c).fld f = s.fld f := rfl

@[simp] theorem State.progWord_setCore (s : State) (g : Nat) (c : Core) (h a : Nat) : (s.setCore g c).progWord h a = s.progWord h a := rfl

@[simp] theorem State.core_setFld (s : State) (f : Fld) (v g : Nat) : (s.setFld f v).core g = s.core g := rfl

@[simp] theorem State.core_bump (s : State) (f : Fld) (n g : Nat) : (s.bump f n).core g = s.core g := State.core_congr (by simp) g

@[simp] theorem State.core_raise (s : State) (f : Fld) (g : Nat) : (s.raise f).core g = s.core g := State.core_congr (by simp) g

theorem State.setFld_setCore (s : State) (g : Nat) (c : Core) (f : Fld) (v : Nat) :
    (s.setCore g c).setFld f v = (s.setFld f v).setCore g c := rfl

theorem State.bump_setCore (s : State) (g : Nat) (c : Core) (f : Fld) (n : Nat) :
    (s.setCore g c).bump f n = (s.bump f n).setCore g c := by
  unfold State.bump
  dsimp only
  split <;> rfl

/-- What a frame says of the state that one core is put into. -/
theorem SameBut.setCore {fs : List Fld} {u t : State} (h : SameBut fs u t) (g : Nat) (c : Core) :
    SameBut fs (u.setCore g c) (t.setCore g c) := by
  refine ⟨h.1, ?_⟩
  have hmal : t.mal = u.mal := (congrArg State.mal h.2 :)
  unfold State.setCore
  rw [hmal]
  conv_lhs => rw [h.2]

/-- With one core put into it, a state differs from the one before in its cores alone. -/
theorem State.setCore_eq_cores (s : State) (g : Nat) (c : Core) :
    s.setCore g c = { s with mal := { s.mal with cores := (s.setCore g c).mal.cores } } := rfl

/-- A core reads a register as it was written. -/
@[simp] theorem Core.rd_wr_same (c : Core) (r v : Nat) : (c.wr r v).rd r = v := Tbl.get_set_same ..

theorem Core.rd_wr_ne (c : Core) {r q : Nat} (v : Nat) (h : q ≠ r) : (c.wr r v).rd q = c.rd q := Tbl.get_set_ne _ _ _ _ h

/-! ### The cycles of a bundle (R141, R173) -/

/-- With TIMER at 0 cycles only count in CYCLES. -/
theorem State.addCycles_idle {s : State} {g : Nat} (h : s.fld (R.CCR_TIMER_COUNT g) = 0) (n : Nat) :
    s.addCycles g n = s.bump (R.CCR_CYCLES_COUNT g) n := by
  unfold State.addCycles
  simp only [h, if_true]

/-! ### A bundle issues (R150, R151) -/

/-- Core `g` comes to issue `b`: what `Runs` asks beside TIMER and the writes in flight. -/
structure Fetches (s : State) (g : Nat) (b : Bundle) : Prop where
  task : ∃ t, (s.core g).task = some t ∧ s.fld (R.CCR_CYCLES_COUNT g) < t.cost
  stall : (s.core g).stall = .none
  closing : (s.core g).closing = none
  loops : (s.core g).loops = [] ∨ (s.core g).rd 49 ≠ (s.core g).pc
  waited : (s.core g).waited = false
  decodes : decodeBundle (s.progWord g (s.core g).pc) (s.progWord g ((s.core g).pc + 1)) = some b

theorem Runs.fetches {s : State} {g : Nat} {b : Bundle} (h : Runs s g b) : Fetches s g b := by
  obtain ⟨htask, hstall, hclosing, hloops, hwaited, -, -, hdecodes⟩ := h
  exact ⟨htask, hstall, hclosing, hloops, hwaited, hdecodes⟩

theorem Runs.pend {s : State} {g : Nat} {b : Bundle} (h : Runs s g b) : (s.core g).pend = [] := by
  obtain ⟨-, -, -, -, -, hpend, -, -⟩ := h
  exact hpend

theorem Runs.timer {s : State} {g : Nat} {b : Bundle} (h : Runs s g b) : s.fld (R.CCR_TIMER_COUNT g) = 0 := by
  obtain ⟨-, -, -, -, -, -, htimer, -⟩ := h
  exact htimer

/-- The cycles that a bundle takes: one more for a long form at an odd address (R175). -/
def issueCycles (len pc : Nat) : Nat := if len = 2 ∧ pc % 2 = 1 then 2 else 1

@[simp] theorem issueCycles_one (pc : Nat) : issueCycles 1 pc = 1 := if_neg (by omega)

/-- The program words of a bundle. -/
def Bundle.words (b : Bundle) : Nat := if b.long then 2 else 1

/-- The state in which core `g` has issued `b`. -/
def State.issue (s : State) (g : Nat) (b : Bundle) : State :=
  let c := s.core g
  let s2 := (s.setCore g c).age g
  match s2.runBundle g b with
  | .error e => s2.malException g e
  | .ok s3 => (s3.addCycles g (issueCycles b.words c.pc)).afterIssue g c.pc b.words c.slots c.rpt c.after

section
variable {s : State} {g : Nat} {b : Bundle}

theorem Core.closeLoop_none {c : Core} (h : c.closing = none) : c.closeLoop = c := by
  unfold Core.closeLoop
  rw [h]

theorem Core.resumed_eq {c : Core} (h : c.closing = none) (hw : c.waited = false) : ({ c.closeLoop with waited := false } : Core) = c := by
  rw [Core.closeLoop_none h, ← hw]

theorem issueCycles_words (b : Bundle) (pc : Nat) : issueCycles b.words pc = if b.long ∧ pc % 2 = 1 then 2 else 1 := by
  cases h : b.long <;> simp [issueCycles, Bundle.words, h]

/-- The bundle that a core fetches is issued where it may stand there. -/
theorem malIssue_issue (h : Fetches s g b) (hfree : b.forbidden = true → (s.core g).slots = 0 ∧ (s.core g).rpt = 0)
    (hlong : b.long = true → (s.core g).rpt = 0) : s.malIssue g b.kind = s.issue g b := by
  obtain ⟨⟨t, ht, hcost⟩, hstall, hclosing, hloops, hwaited, hdecodes⟩ := h
  have hgoes : ¬((s.core g).stall ≠ .none ∨ t.cost ≤ s.fld (R.CCR_CYCLES_COUNT g) ∨
      ((s.core g).waited = true ∧ (s.acceptable g).isSome)) := by
    simp [hstall, hwaited, hcost]
  have hopen : ¬((s.core g).slots ≠ 0 ∧ ((s.core g).closing.isSome = true ∨ ((s.core g).loops ≠ [] ∧ (s.core g).rd 49 = (s.core g).pc))) := by
    rcases hloops with hl | hl <;> simp [hclosing, hl]
  have hstands : ¬((b.forbidden = true ∧ ((s.core g).slots ≠ 0 ∨ (s.core g).rpt ≠ 0)) ∨ (b.long = true ∧ (s.core g).rpt ≠ 0)) := by
    rintro (⟨hf, h1 | h1⟩ | ⟨hl, h1⟩)
    · exact h1 (hfree hf).1
    · exact h1 (hfree hf).2
    · exact h1 (hlong hl)
  have hself : s.setCore g { (s.core g).closeLoop with waited := false } = s.setCore g (s.core g) :=
    congrArg (s.setCore g) (Core.resumed_eq hclosing hwaited)
  unfold State.malIssue State.issue
  simp only [ht]
  rw [if_neg hgoes, if_neg hopen]
  simp only [hself, State.core_setCore_same, issueCycles_words]
  have hfetched : decodeBundle ((s.setCore g (s.core g)).progWord g (s.core g).pc)
      ((s.setCore g (s.core g)).progWord g ((s.core g).pc + 1)) = some b := hdecodes
  simp only [hfetched]
  rw [if_neg (by simp), if_neg hstands]
  rfl

/-- With no write in flight none lands. -/
theorem State.age_setCore_self (hpend : (s.core g).pend = []) : (s.setCore g (s.core g)).age g = s.setCore g (s.core g) := by
  have hself : ({ s.core g with pend := [] } : Core) = s.core g := by rw [← hpend]
  simp only [State.age, State.core_setCore_same, hpend, List.filter_nil, List.map_nil, List.foldl_nil, State.setCore_setCore, hself]

theorem State.issue_of_age {c : Core} {s2 s3 : State} (hc : s.core g = c) (hage : (s.setCore g c).age g = s2)
    (hrun : s2.runBundle g b = .ok s3) : s.issue g b =
      (s3.addCycles g (issueCycles b.words c.pc)).afterIssue g c.pc b.words c.slots c.rpt c.after := by
  subst hc hage
  unfold State.issue
  simp only [hrun]

theorem State.issue_ok (hpend : (s.core g).pend = []) {s3 : State} (hrun : (s.setCore g (s.core g)).runBundle g b = .ok s3) :
    s.issue g b = (s3.addCycles g (issueCycles b.words (s.core g).pc)).afterIssue g (s.core g).pc b.words (s.core g).slots (s.core g).rpt
      (s.core g).after := State.issue_of_age rfl (State.age_setCore_self hpend) hrun

/-- A core past a bundle of `len` words, of whose repeats `rpt` were left before it. -/
def Core.stepped (k : Core) (len rpt : Nat) : Core := { k with pc := (k.pc + len) % 16384, rpt := if rpt = 1 then 0 else k.rpt }

/-- After a bundle that is not to be repeated and does not end an open loop, the PC steps and the delay slots count down (R153, R155). -/
theorem State.afterIssue_steps {u : State} {k : Core} (hk : u.core g = k) {pc rpt : Nat} (hloops : k.loops = [] ∨ k.rd 49 ≠ pc)
    (hrpt : rpt ≤ 1) (len slots : Nat) (a : AfterSlots) : u.afterIssue g pc len slots rpt a =
      if slots = 0 then u.setCore g (k.stepped len rpt)
      else if slots = 1 then (u.setCore g { k.stepped len rpt with slots := 0, after := a }).resume g
      else u.setCore g { k.stepped len rpt with slots := slots - 1 } := by
  have hopen : ¬(k.loops ≠ [] ∧ Tbl.get k.regs 49 0 = pc) := by
    rcases hloops with hl | hl
    · simp [hl]
    · exact fun h => hl h.2
  unfold State.afterIssue
  rw [if_neg (by omega)]
  dsimp only [Core.rd]
  simp only [hk, if_neg hopen]
  rfl

theorem Core.stepped_zero (k : Core) (len : Nat) : k.stepped len 0 = { k with pc := (k.pc + len) % 16384 } := rfl

end

/-- Where CYCLES counts a bundle and core `g` is left as `k` past it, the bundle has issued. -/
theorem issues_of_exec {i : Instr} {s : State} {g len : Nat} {k : Core} (hexec : exec i s = .next
    ((s.bump (R.CCR_CYCLES_COUNT g) (issueCycles len (s.core g).pc)).setCore g { k with pc := (k.pc + len) % 16384 })) :
    Issues i s g len k := by
  refine ⟨_, hexec, State.core_setCore_same .., fun h hne => ?_, ?_, ?_⟩
  · rw [State.core_setCore_ne _ _ hne, State.core_bump]
  · rw [State.fld_setCore, State.fld_bump_same]
    rfl
  · have hframe := ((SameBut.refl _ s).bump (issueCycles len (s.core g).pc) (List.mem_singleton_self (R.CCR_CYCLES_COUNT g))).setCore g
      { k with pc := (k.pc + len) % 16384 }
    rw [State.setCore_eq_cores s] at hframe
    have hcores : (s.setCore g { k with pc := (k.pc + len) % 16384 }).mal.cores =
        ((s.bump (R.CCR_CYCLES_COUNT g) (issueCycles len (s.core g).pc)).setCore g { k with pc := (k.pc + len) % 16384 }).mal.cores := by
      simp [State.setCore]
    rwa [hcores] at hframe

/-- A bundle that only turns its core into `k` issues with `k` and the PC stepped. -/
theorem issues_of_runBundle {i : Instr} {s : State} {g : Nat} {b : Bundle} {k : Core} (h : Ready s g b)
    (hexec : exec i s = .next (s.malIssue g b.kind)) (hrun : (s.setCore g (s.core g)).runBundle g b = .ok (s.setCore g k))
    (hloops : k.loops = [] ∨ k.rd 49 ≠ (s.core g).pc) : Issues i s g b.words k := by
  obtain ⟨hr, hslots, hrpt⟩ := h
  refine issues_of_exec (hexec.trans (congrArg Host.Outcome.next ?_))
  rw [malIssue_issue hr.fetches (fun _ => ⟨hslots, hrpt⟩) (fun _ => hrpt), State.issue_ok hr.pend hrun, hslots, hrpt,
    State.addCycles_idle (s := s.setCore g k) hr.timer, State.bump_setCore, State.afterIssue_steps (State.core_setCore_same ..) hloops
      (Nat.zero_le 1), if_pos rfl, Core.stepped_zero, State.setCore_setCore]

end Sys2Proof.Machine
end

section
namespace Sys2Proof.Machine

/-! ### Control transfers (R153, R184, R185) -/

section
variable {s : State} {g : Nat}

theorem State.returnAddr_setCore (s : State) (g : Nat) (c : Core) (pc : Nat) : (s.setCore g c).returnAddr g pc = s.returnAddr g pc := rfl

/-- A call with a place on the stack: the return address and SR are pushed where the condition holds. -/
theorem State.callTo_goes {c : Core} (hstack : c.stack.length < 16) (cc t : Nat) : (s.setCore g c).callTo g cc t =
    .ok (s.setCore g (if c.cond cc = true then
        { c with stack := (s.returnAddr g c.pc, c.rd 50) :: c.stack, slots := 2, after := .jump (t % 16384) }
      else { c with slots := 2, after := .fall })) := by
  unfold State.callTo
  simp only [State.core_setCore_same, State.returnAddr_setCore, State.setCore_setCore, Core.transfer]
  by_cases hc : c.cond cc = true
  · simp only [hc, if_true, if_neg (show ¬ 16 ≤ c.stack.length by omega)]
  · simp only [hc, Bool.false_eq_true, if_false]

end

/-- Settles O29: each transfer only turns its core into one with two delay slots to go, and what follows them noted. -/
theorem controlTransfers : Obligations.ControlTransfers := by
  intro s g cc _ c go call
  have hcall : ∀ t, call t = if c.cond cc = true then
      { c with stack := (s.returnAddr g c.pc, c.rd 50) :: c.stack, slots := 2, after := .jump (t % 16384) } else go .fall := fun _ => rfl
  have hopen : ∀ b, Ready s g b → ∀ t, (call t).loops = [] ∨ (call t).rd 49 ≠ c.pc := by
    intro b h t
    rw [hcall]
    split <;> exact h.1.fetches.loops
  refine ⟨fun t h => issues_of_runBundle h rfl ?_ h.1.fetches.loops, fun p h => issues_of_runBundle h rfl ?_ h.1.fetches.loops,
    fun t hstack h => issues_of_runBundle h rfl (State.callTo_goes hstack cc t) (hopen _ h t),
    fun p hstack h => issues_of_runBundle h rfl ?_ (hopen _ h _),
    fun pc sr rest hstack => ⟨fun h => issues_of_runBundle h rfl ?_ ?_, fun h => issues_of_runBundle h rfl ?_ h.1.fetches.loops⟩,
    fun h => issues_of_runBundle h rfl ?_ h.1.fetches.loops, fun h => issues_of_runBundle h rfl ?_ h.1.fetches.loops⟩
  · simp [State.runBundle, Core.transfer, go, c]
  · simp [State.runBundle, Core.transfer, go, c]
  · simpa only [State.runBundle, State.core_setCore_same] using State.callTo_goes hstack cc _
  · by_cases hc : c.cond cc = true <;> simp [State.runBundle, Core.transfer, go, c, hstack, hc]
  · split <;> exact h.1.fetches.loops
  · simp [State.runBundle, Core.transfer, c, hstack]
  · simp [State.runBundle, Core.transfer, go, c]
  · simp [State.runBundle, Core.transfer, go, c]

end Sys2Proof.Machine
end

section
namespace Sys2Proof.Machine

/-! ### The exchange of the bank (R158) -/

/-- Entries put one after the other, of keys that rise: each key reads the entry put, or what it read before. -/
theorem Tbl.find_foldl_put {α : Type} (k : Nat) : ∀ (xs t : Tbl α), Tbl.sorted xs = true →
    Tbl.find k (xs.foldl (fun t e => Tbl.put t e.1 e.2) t) = (Tbl.find k xs).or (Tbl.find k t)
  | [], _, _ => rfl
  | (k', v) :: xs, t, h => by
    obtain ⟨hxs, hrise⟩ := Tbl.sorted_cons.mp h
    rw [List.foldl_cons, Tbl.find_foldl_put k xs _ hxs]
    by_cases hk : k' = k
    · subst hk
      have hall : xs.filter (fun e => decide (k' < e.1)) = xs := List.filter_eq_self.mpr fun e he => decide_eq_true (hrise e he)
      have hnone : Tbl.find k' xs = none := by
        rw [← hall]
        exact Tbl.find_filter_of_drop (fun _ => decide_eq_false (lt_irrefl k')) xs
      rw [hnone, Tbl.find_put_same, Tbl.find, if_pos rfl]
      rfl
    · rw [Tbl.find_put_ne _ _ (Ne.symm hk), Tbl.find, if_neg hk]

theorem Tbl.find_foldl_put_of_notMem {α : Type} {k : Nat} : ∀ (xs t : Tbl α), (∀ e ∈ xs, e.1 ≠ k) →
    Tbl.find k (xs.foldl (fun t e => Tbl.put t e.1 e.2) t) = Tbl.find k t
  | [], _, _ => rfl
  | e :: xs, t, h => by
    rw [List.foldl_cons, Tbl.find_foldl_put_of_notMem xs _ fun e he => h e (List.mem_cons_of_mem _ he),
      Tbl.find_put_ne _ _ (Ne.symm (h e List.mem_cons_self))]

/-- A register outside the bank stands after an exchange as before. -/
theorem Core.rd_exchange_keep (c : Core) {r : Nat} (h : ¬(r < 12 ∨ (16 ≤ r ∧ r < 24))) : c.exchange.rd r = c.rd r := by
  have hkey : ∀ e ∈ c.shadow.filter (fun e => decide (e.1 < 12 ∨ (16 ≤ e.1 ∧ e.1 < 24))), e.1 ≠ r := by
    rintro e he rfl
    exact h (by simpa using (List.mem_filter.mp he).2)
  unfold Core.rd Tbl.get Core.exchange
  dsimp only
  rw [Tbl.find_foldl_put_of_notMem _ _ hkey, Tbl.find_filter_of_keep fun _ => by rw [decide_eq_false h]; rfl]

/-- A register of the bank reads its shadow after an exchange. -/
theorem Core.rd_exchange_bank {c : Core} (hs : Tbl.sorted c.shadow = true) {r : Nat} (h : r < 12 ∨ (16 ≤ r ∧ r < 24)) :
    c.exchange.rd r = Tbl.get c.shadow r 0 := by
  unfold Core.rd Tbl.get Core.exchange
  dsimp only
  rw [Tbl.find_foldl_put _ _ _ (Tbl.sorted_filter _ hs), Tbl.find_filter_of_keep (fun _ => decide_eq_true h),
    Tbl.find_filter_of_drop (fun _ => by rw [decide_eq_true h]; rfl), Option.or_none]

@[simp] theorem Core.rd_returnSr_sr (c : Core) (v : Nat) : (c.returnSr v).rd 50 = v % 2 ^ 16 := Core.rd_wr_same ..

theorem Core.rd_returnSr_ne (c : Core) (v : Nat) {r : Nat} (h : r ≠ 50) : (c.returnSr v).rd r = c.rd r := Core.rd_wr_ne _ _ h

/-! ### The end of a task (R83, R141, R161) -/

/-- A core that has left its task, and of its posted transfers only the reads where `dropPosted`. -/
def Core.left (c : Core) (dropPosted : Bool) : Core :=
  { c with task := none, slots := 0, after := .fall, rpt := 0, stall := .none, loops := [], closing := none, stack := [], waited := false,
           written := [], posted := if dropPosted then c.posted.filter (fun p => decide (p.kind < 2)) else c.posted }

/-- A core that does not stall and has no write in flight leaves its task at once. -/
theorem State.leaveTask_idle {u : State} {g : Nat} {c : Core} (hc : u.core g = c) (hstall : c.stall = .none) (hpend : c.pend = []) (d : Bool) :
    u.leaveTask g d = u.setCore g (c.left d) := by
  unfold State.leaveTask State.drain Core.slowLoads Core.left
  simp only [hc, hstall, List.foldl_nil, hpend, State.core_setCore_same, State.setCore_setCore]

theorem State.hasEnded_markEnded (s : State) (task : Nat) (old : Bool) : (s.markEnded task old).hasEnded task old = true := by
  simp [State.markEnded, State.hasEnded]

/-- How a run of the live version of a task ended. -/
theorem State.hist_setTaskHist (s : State) (task cause : Nat) (gap : Bool) :
    Tbl.get (s.setTaskHist task false cause gap).mal.hist task (0, true) = (cause, gap) := by
  simp only [State.setTaskHist, taskKey, flag]
  exact Tbl.get_set_same ..

@[simp] theorem State.core_setTaskHist (s : State) (task cause : Nat) (old gap : Bool) (g : Nat) :
    (s.setTaskHist task old cause gap).core g = s.core g := rfl

@[simp] theorem State.core_markEnded (s : State) (task : Nat) (old : Bool) (g : Nat) : (s.markEnded task old).core g = s.core g := rfl

theorem State.sxm_setTaskHist (s : State) (task cause : Nat) (old gap : Bool) : (s.setTaskHist task old cause gap).sxm = s.sxm := rfl

theorem State.sxm_markEnded (s : State) (task : Nat) (old : Bool) : (s.markEnded task old).sxm = s.sxm := rfl

theorem State.sxm_setCore (s : State) (g : Nat) (c : Core) : (s.setCore g c).sxm = s.sxm := rfl

/-- A task that has written its buses ends with nothing in flight. -/
theorem State.tryFinish_done {u : State} {g : Nat} {c : Core} {rt : RunTask} {cf : Cfg} (hc : u.core g = c) (hstall : c.stall = .none)
    (hpend : c.pend = []) (hposted : c.posted = []) (htask : c.task = some rt) (hold : rt.old = false) (hcfg : u.cfg = some cf)
    (hwritten : ∀ b ∈ cf.taskBuses rt.task, b ∈ c.written) :
    u.tryFinish g = ((u.setCore g (c.left false)).markEnded rt.task false).setTaskHist rt.task false 0 false := by
  have hquiet : c.busWrites = false := by simp [Core.busWrites, hposted]
  have hmissing : (cf.taskBuses rt.task).filter (fun b => !decide (b ∈ c.written)) = [] := by simpa using hwritten
  unfold State.tryFinish State.finishTask State.verCfg
  simp only [hc, hquiet, htask, hold, Bool.false_eq_true, if_false, hcfg, hmissing, List.foldl_nil, State.leaveTask_idle hc hstall hpend]

/-! ### NOP in every place (R153, R155) -/

section
variable {s : State} {g : Nat}

/-- A core past its second delay slot, with nothing more to follow. -/
def Core.pastSlots (c : Core) : Core := { c with pc := (c.pc + 1) % 16384, slots := 0, after := .fall }

/-- What follows the second delay slot of a core that does not stall. -/
theorem State.resume_setCore (u : State) {k : Core} (hslots : k.slots = 0) (hstall : k.stall = .none) :
    (u.setCore g k).resume g = (u.setCore g { k with after := .fall }).afterSlots g k.after := by
  unfold State.resume
  simp only [State.core_setCore_same, hslots, hstall, and_self, if_true, State.setCore_setCore]

/-- A NOP counts its cycle and does nothing else but to step its core. -/
theorem malIssue_nop (h : Runs s g .nop) : s.malIssue g .nop =
    ((s.bump (R.CCR_CYCLES_COUNT g) 1).setCore g (s.core g)).afterIssue g (s.core g).pc 1 (s.core g).slots (s.core g).rpt (s.core g).after := by
  refine (malIssue_issue (b := .nop) h.fetches nofun nofun).trans ?_
  rw [State.issue_ok h.pend rfl, State.addCycles_idle (s := s.setCore g (s.core g)) h.timer, State.bump_setCore]
  rfl

theorem malIssue_nop_steps (h : Runs s g .nop) (hrpt : (s.core g).rpt ≤ 1) : let u := s.bump (R.CCR_CYCLES_COUNT g) 1; let c := s.core g
    s.malIssue g .nop = if c.slots = 0 then u.setCore g (c.stepped 1 c.rpt)
      else if c.slots = 1 then (u.setCore g { c.stepped 1 c.rpt with slots := 0, after := .fall }).afterSlots g c.after
      else u.setCore g { c.stepped 1 c.rpt with slots := c.slots - 1 } := by
  intro u c
  rw [malIssue_nop h, State.afterIssue_steps (State.core_setCore_same ..) h.fetches.loops hrpt]
  simp only [State.setCore_setCore]
  split
  · rfl
  · split
    · exact State.resume_setCore _ rfl h.fetches.stall
    · rfl

/-- The second delay slot hands over to what follows it. -/
theorem malIssue_nop_second (h : Runs s g .nop) (hslots : (s.core g).slots = 1) (hrpt : (s.core g).rpt = 0) : s.malIssue g .nop =
    ((s.bump (R.CCR_CYCLES_COUNT g) 1).setCore g (s.core g).pastSlots).afterSlots g (s.core g).after := by
  rw [malIssue_nop_steps h (by omega), if_neg (by omega), if_pos hslots]
  simp only [Core.pastSlots, Core.stepped, hrpt, if_neg (show ¬ (0 : Nat) = 1 by omega)]

theorem nop_alone (h : Runs s g .nop) (hslots : (s.core g).slots = 0) (hrpt : (s.core g).rpt ≤ 1) :
    Issues (.nop g) s g 1 { s.core g with rpt := if (s.core g).rpt = 1 then 0 else (s.core g).rpt } := by
  refine issues_of_exec (congrArg Host.Outcome.next ?_)
  rw [malIssue_nop_steps h hrpt, if_pos hslots]
  rfl

theorem nop_first (h : Runs s g .nop) (hslots : (s.core g).slots = 2) (hrpt : (s.core g).rpt = 0) :
    Issues (.nop g) s g 1 { s.core g with slots := 1 } := by
  refine issues_of_exec (congrArg Host.Outcome.next ?_)
  rw [malIssue_nop_steps h (by omega), if_neg (by omega), if_neg (by omega), hslots]
  simp only [Core.stepped, hrpt, if_neg (show ¬ (0 : Nat) = 1 by omega), issueCycles_one]

theorem nop_repeated (h : Runs s g .nop) (hrpt : 1 < (s.core g).rpt) :
    Gives (.nop g) s (fun u => u.core g = { s.core g with rpt := (s.core g).rpt - 1 }) := by
  refine ⟨_, congrArg Host.Outcome.next (malIssue_nop h), ?_⟩
  rw [State.afterIssue, if_pos hrpt]
  simp only [State.core_setCore_same]

theorem nop_tend (h : Runs s g .nop) (hslots : (s.core g).slots = 1) (hrpt : (s.core g).rpt = 0) (hafter : (s.core g).after = .tend)
    {rt : RunTask} {cf : Cfg} (htask : (s.core g).task = some rt) (hposted : (s.core g).posted = []) (hold : rt.old = false)
    (hcfg : s.cfg = some cf) (hwritten : ∀ b ∈ cf.taskBuses rt.task, b ∈ (s.core g).written) :
    Gives (.nop g) s (fun u => (u.core g).task = none ∧ u.hasEnded rt.task false = true ∧
      Tbl.get u.mal.hist rt.task (0, true) = (0, false) ∧ u.sxm = s.sxm) := by
  have hend := malIssue_nop_second h hslots hrpt
  have hlive : ((s.bump (R.CCR_CYCLES_COUNT g) 1).setCore g (s.core g).pastSlots).cfg = some cf := (State.bump_cfg s _ 1).trans hcfg
  have hdone := State.tryFinish_done (State.core_setCore_same (s.bump (R.CCR_CYCLES_COUNT g) 1) g (s.core g).pastSlots) h.fetches.stall h.pend
    hposted htask hold hlive hwritten
  rw [hafter, State.afterSlots, hdone] at hend
  refine ⟨_, congrArg Host.Outcome.next hend, ?_, State.hasEnded_markEnded .., ?_, ?_⟩
  · simp only [State.core_setTaskHist, State.core_markEnded, State.core_setCore_same]
    rfl
  · exact State.hist_setTaskHist ..
  · rw [State.sxm_setTaskHist, State.sxm_markEnded, State.sxm_setCore, State.sxm_setCore, State.bump_sxm]

theorem nop_jump (h : Runs s g .nop) (hslots : (s.core g).slots = 1) (hrpt : (s.core g).rpt = 0) {t : Nat} (hafter : (s.core g).after = .jump t) :
    Gives (.nop g) s (fun u => u.core g = { s.core g with slots := 0, after := .fall, pc := t }) := by
  have hend := malIssue_nop_second h hslots hrpt
  rw [hafter] at hend
  refine ⟨_, congrArg Host.Outcome.next hend, ?_⟩
  simp only [State.afterSlots, State.core_setCore_same]
  rfl

theorem nop_fall (h : Runs s g .nop) (hslots : (s.core g).slots = 1) (hrpt : (s.core g).rpt = 0) (hafter : (s.core g).after = .fall) :
    Issues (.nop g) s g 1 { s.core g with slots := 0 } := by
  refine issues_of_exec (congrArg Host.Outcome.next ?_)
  rw [malIssue_nop_second h hslots hrpt, hafter]
  simp only [State.afterSlots, Core.pastSlots, issueCycles_one]

theorem nop_rtin (h : Runs s g .nop) (hslots : (s.core g).slots = 1) (hrpt : (s.core g).rpt = 0) {pc sr : Nat}
    (hafter : (s.core g).after = .rtin pc sr) (hsr : sr < 65536) : Gives (.nop g) s (fun u =>
      (u.core g).pc = pc ∧ (u.core g).rd 50 = sr ∧ (u.core g).slots = 0 ∧ ∀ r, r ≠ 50 → (u.core g).rd r = (s.core g).rd r) := by
  have hend := malIssue_nop_second h hslots hrpt
  rw [hafter, State.afterSlots, State.core_setCore_same, State.setCore_setCore] at hend
  refine ⟨_, congrArg Host.Outcome.next hend, ?_⟩
  simp only [State.core_setCore_same]
  exact ⟨trivial, (Core.rd_returnSr_sr ..).trans (Nat.mod_eq_of_lt hsr), rfl, fun r hr => Core.rd_returnSr_ne (s.core g).pastSlots sr hr⟩

theorem nop_rtif (h : Runs s g .nop) (hslots : (s.core g).slots = 1) (hrpt : (s.core g).rpt = 0) {pc sr : Nat}
    (hafter : (s.core g).after = .rtif pc sr) (hshadow : Tbl.sorted (s.core g).shadow = true) : Gives (.nop g) s (fun u =>
      (u.core g).pc = pc ∧ (u.core g).rd 50 = sr &&& 0xDF1F ∧ (u.core g).slots = 0 ∧ ∀ r, r ≠ 50 → (u.core g).rd r =
        if r < 12 ∨ 16 ≤ r ∧ r < 24 then Tbl.get (s.core g).shadow r 0 else (s.core g).rd r) := by
  have hend := malIssue_nop_second h hslots hrpt
  rw [hafter, State.afterSlots, State.core_setCore_same, State.setCore_setCore] at hend
  refine ⟨_, congrArg Host.Outcome.next hend, ?_⟩
  simp only [State.core_setCore_same]
  have hmask : sr &&& 0xDF1F < 2 ^ 16 := Nat.and_lt_two_pow sr (by norm_num)
  refine ⟨trivial, (Core.rd_returnSr_sr ..).trans (Nat.mod_eq_of_lt hmask), rfl, fun r hr => ?_⟩
  refine (Core.rd_returnSr_ne (s.core g).pastSlots.exchange _ hr).trans ?_
  split
  · next hb => exact Core.rd_exchange_bank (c := (s.core g).pastSlots) hshadow hb
  · next hb => exact Core.rd_exchange_keep (s.core g).pastSlots hb

/-- A core with one write `p` in flight, one bundle later. -/
def Core.aged (c : Core) (p : PWrite) : Core :=
  if p.left ≤ 1 then c.wr p.reg (c.rd p.reg - (c.rd p.reg &&& p.mask) + (p.val &&& p.mask)) else { c with pend := [{ p with left := p.left - 1 }] }

theorem State.age_one {c : Core} (hpend : c.pend = []) {p : PWrite} (hp : p.reg < 0x40) :
    (s.setCore g { c with pend := [p] }).age g = s.setCore g (c.aged p) := by
  have hself : ({ c with pend := [] } : Core) = c := by rw [← hpend]
  unfold State.age Core.aged
  by_cases hl : p.left ≤ 1
  · simp [hl, State.landOne, hp, hself, maskWrite]
  · simp [hl]

/-- A write in flight comes one bundle nearer, or lands. -/
theorem nop_lands (h : Runs s g .nop) {c : Core} (hc : s.core g = c) (hslots : c.slots = 0) (hrpt : c.rpt = 0) (hloops : c.loops = [])
    {p : PWrite} (hp : p.reg < 0x40) : Gives (.nop g) (s.setCore g { c with pend := [p] }) (fun u =>
      u.core g = { c.aged p with pc := (c.pc + 1) % 16384 }) := by
  obtain ⟨htask, hstall, hclosing, -, hwaited, hdecodes⟩ := h.fetches
  have hpend := h.pend
  rw [hc] at htask hstall hclosing hwaited hdecodes hpend
  have hfetch : Fetches (s.setCore g { c with pend := [p] }) g .nop :=
    ⟨by simpa using htask, by simpa using hstall, by simpa using hclosing, by simp [hloops], by simpa using hwaited, by simpa using hdecodes⟩
  obtain ⟨hsame, hpc, hrest⟩ : (c.aged p).loops = [] ∧ (c.aged p).pc = c.pc ∧ (c.aged p).rpt = 0 := by
    unfold Core.aged
    split <;> exact ⟨hloops, rfl, hrpt⟩
  have hissue : (s.setCore g { c with pend := [p] }).malIssue g .nop = (s.bump (R.CCR_CYCLES_COUNT g) 1).setCore g ((c.aged p).stepped 1 0) := by
    refine (malIssue_issue (b := .nop) hfetch nofun nofun).trans ?_
    rw [State.issue_of_age (State.core_setCore_same ..) ((congrArg (State.age · g) (State.setCore_setCore ..)).trans (State.age_one hpend hp)) rfl,
      State.addCycles_idle (s := s.setCore g (c.aged p)) h.timer, State.bump_setCore]
    change State.afterIssue _ g c.pc 1 c.slots c.rpt c.after = _
    rw [State.afterIssue_steps (State.core_setCore_same ..) (Or.inl hsame) (by omega), hslots, hrpt, if_pos rfl, State.setCore_setCore]
    rfl
  refine ⟨_, congrArg Host.Outcome.next hissue, ?_⟩
  simp only [State.core_setCore_same, Core.stepped_zero, hpc]

end

end Sys2Proof.Machine
end

section
namespace Sys2Proof.Machine

/-! ### A task that is stopped (R83, R161) -/

section
variable {s : State} {g : Nat}

/-- The blocks that an overrun leaves on its buses are written in SXM alone. -/
theorem State.foldl_overrunBus (c : Cfg) (k : Nat) : ∀ (bs : List Nat) (s : State),
    ∃ x, bs.foldl (fun s b => s.overrunBus c k b) s = { s with sxm := x }
  | [], s => ⟨s.sxm, rfl⟩
  | _ :: bs, s => by
    obtain ⟨x, hx⟩ := State.foldl_overrunBus c k bs _
    exact ⟨x, hx⟩

theorem State.mal_markEnded (s : State) (task : Nat) (old : Bool) : (s.markEnded task old).mal = s.mal := rfl

theorem State.fld_markEnded (s : State) (task : Nat) (old : Bool) (f : Fld) : (s.markEnded task old).fld f = s.fld f := rfl

theorem State.fld_setTaskHist (s : State) (task cause : Nat) (old gap : Bool) (f : Fld) : (s.setTaskHist task old cause gap).fld f = s.fld f := rfl

/-- The registers in which a late task is noted (R86). -/
def lateFlds (island : Nat) : List Fld := [R.BLK_OVERRUN_TOTAL_COUNT, R.BLK_INT_STATUS_OVERRUN, R.BLK_ISL_LATE_COUNT island,
  R.BLK_LATE_LAST_OVERRUN, R.BLK_LATE_LAST_TASK, R.BLK_LATE_LAST_BLK_LO_BLK]

theorem State.countLate_sameBut (s : State) (task island k : Nat) : SameBut (lateFlds island) s (s.countLate true task island k) := by
  refine (((((SameBut.refl _ s).countAndRaise ?_ ?_).bump 1 ?_).setFld _ ?_).setFld _ ?_).setFld _ ?_ <;> simp [lateFlds]

theorem SameBut.mal {fs : List Fld} {u t : State} (h : SameBut fs u t) : t.mal = u.mal := (congrArg State.mal h.2 :)

/-- The stop of a live task: its buses, the counts of late tasks, and its end. -/
theorem State.overrunTask_live (s : State) (task island k : Nat) :
    ∃ x, s.overrunTask task false island k = (State.countLate { s with sxm := x } true task island k).markEnded task false := by
  unfold State.overrunTask State.inVersion
  dsimp only
  rw [if_neg Bool.false_ne_true]
  cases hcfg : s.cfg with
  | none => exact ⟨s.sxm, by dsimp only; rw [← hcfg]⟩
  | some c =>
    obtain ⟨x, hx⟩ := State.foldl_overrunBus c k (c.taskBuses task) s
    exact ⟨x, by dsimp only; rw [hx, ← hcfg]⟩

/-- What the stop of a live task leaves of the clusters and of the registers. -/
theorem State.overrunTask_keeps (s : State) (task island k : Nat) : let u := s.overrunTask task false island k
    u.mal = s.mal ∧ u.hasEnded task false = true ∧ ∀ f : Fld, (∀ h ∈ lateFlds island, f.key ≠ h.key) → u.fld f = s.fld f := by
  intro u
  obtain ⟨x, hx⟩ := State.overrunTask_live s task island k
  have hlate := State.countLate_sameBut { s with sxm := x } task island k
  have hu : u = (State.countLate { s with sxm := x } true task island k).markEnded task false := hx
  rw [hu]
  refine ⟨?_, State.hasEnded_markEnded .., fun f hf => ?_⟩
  · rw [State.mal_markEnded]
    exact hlate.mal
  · rw [State.fld_markEnded]
    exact hlate.1 f hf

/-- No register of a Mallet cluster notes a late task. -/
theorem lateFlds_below {f : Fld} (hf : 0x14800000 ≤ f.addr) {island : Nat} (hi : island < 26) : ∀ h ∈ lateFlds island, f.key ≠ h.key := by
  simp only [lateFlds, List.forall_mem_cons, List.not_mem_nil, false_implies, implies_true, and_true, Fld.key]
  omega

/-- A core that does not stall is stopped with its task. -/
theorem State.stopTask_live {u : State} {c : Core} {rt : RunTask} (hg : g < 64) (hc : u.core g = c) (htask : c.task = some rt) (hold : rt.old = false)
    (hstall : c.stall = .none) (hpend : c.pend = []) (cause : Nat) : let t := u.stopTask g cause
    (t.core g).task = none ∧ t.hasEnded rt.task false = true ∧ Tbl.get t.mal.hist rt.task (0, true) = (cause, false) ∧
      ∀ f : Fld, 0x14800000 ≤ f.addr → t.fld f = u.fld f := by
  obtain ⟨hmal, hended, hfld⟩ := State.overrunTask_keeps (u.setCore g (c.left true)) rt.task (8 + g / 16) rt.blk
  intro t
  have ht : t = ((u.setCore g (c.left true)).overrunTask rt.task false (8 + g / 16) rt.blk).setTaskHist rt.task false cause false := by
    simp only [t, State.stopTask, hc, htask, hold, State.leaveTask_idle hc hstall hpend]
  rw [ht]
  refine ⟨?_, hended, State.hist_setTaskHist .., fun f hf => ?_⟩
  · rw [State.core_setTaskHist, State.core_congr (congrArg Mal.cores hmal), State.core_setCore_same]
    rfl
  · rw [State.fld_setTaskHist, hfld f (lateFlds_below hf (by omega)), State.fld_setCore]

/-- What an exception leaves to see: its cause and place, its count, and the end of the task. -/
theorem State.malException_shows {u : State} {c : Core} {rt : RunTask} (hg : g < 64) (hc : u.core g = c) (htask : c.task = some rt)
    (hold : rt.old = false) (hstall : c.stall = .none) (hpend : c.pend = []) (hpc : c.pc < 16384) {e : Nat} (he : e < 16) :
    let t := u.malException g e
    t.fld (R.CCR_EXC_CAUSE g) = e ∧ t.fld (R.CCR_EXC_PC g) = c.pc ∧ (t.core g).task = none ∧ t.hasEnded rt.task false = true ∧
      t.fld (R.MAL_CL_EXC_COUNT_COUNT (g / 16)) = min (u.fld (R.MAL_CL_EXC_COUNT_COUNT (g / 16)) + 1) (2 ^ 32 - 1) ∧
      bit (t.fld (R.MAL_CL_INT_STATUS_EXC (g / 16))) 0 = 1 ∧ Tbl.get t.mal.hist rt.task (0, true) = (2, false) := by
  obtain ⟨htask', hended, hhist, hfld⟩ := State.stopTask_live (u := (((u.setFld (R.CCR_EXC_CAUSE g) e).setFld (R.CCR_EXC_PC g) (u.core g).pc).bump
    (R.MAL_CL_EXC_COUNT_COUNT (g / 16))).raise (R.MAL_CL_INT_STATUS_EXC (g / 16))) hg (by simp [hc]) htask hold hstall hpend 2
  refine ⟨(hfld (R.CCR_EXC_CAUSE g) (by simp only; omega)).trans ?_, (hfld (R.CCR_EXC_PC g) (by simp only; omega)).trans ?_, htask', hended,
    (hfld (R.MAL_CL_EXC_COUNT_COUNT (g / 16)) (by simp only; omega)).trans ?_,
    (congrArg (bit · 0) (hfld (R.MAL_CL_INT_STATUS_EXC (g / 16)) (by simp only; omega))).trans ?_, hhist⟩
  · rw [State.fld_raise_ne _ (by simp only [Fld.key]; omega), State.fld_bump_ne _ _ (by simp only [Fld.key]; omega),
      State.fld_setFld_ne _ _ (by simp only [Fld.key]; omega), State.fld_setFld_same]
    exact Nat.mod_eq_of_lt he
  · rw [State.fld_raise_ne _ (by simp only [Fld.key]; omega), State.fld_bump_ne _ _ (by simp only [Fld.key]; omega), State.fld_setFld_same, hc]
    exact Nat.mod_eq_of_lt hpc
  · rw [State.fld_raise_ne _ (by simp only [Fld.key]; omega), State.fld_bump_same, State.fld_setFld_ne _ _ (by simp only [Fld.key]; omega),
      State.fld_setFld_ne _ _ (by simp only [Fld.key]; omega)]
  · exact State.fld_raise_same _ Nat.one_pos

/-- Words that are no bundle stop the task under every row. -/
theorem malIssue_illegal {c : Core} {rt : RunTask} (hc : s.core g = c) (htask : c.task = some rt) (hcost : s.fld (R.CCR_CYCLES_COUNT g) < rt.cost)
    (hstall : c.stall = .none) (hclosing : c.closing = none) (hslots : c.slots = 0) (hwaited : c.waited = false)
    (hdecodes : decodeBundle (s.progWord g c.pc) (s.progWord g (c.pc + 1)) = none) (kind : MalKind) :
    s.malIssue g kind = (s.setCore g c).malException g 1 := by
  have hself : s.setCore g { c.closeLoop with waited := false } = s.setCore g c := congrArg (s.setCore g) (Core.resumed_eq hclosing hwaited)
  have hgoes : ¬(c.stall ≠ .none ∨ rt.cost ≤ s.fld (R.CCR_CYCLES_COUNT g) ∨ (c.waited = true ∧ (s.acceptable g).isSome)) := by
    simp [hstall, hwaited, hcost]
  unfold State.malIssue
  simp only [hc, htask]
  rw [if_neg hgoes, if_neg (fun h => h.1 hslots)]
  simp only [hself, State.core_setCore_same, State.progWord_setCore, hdecodes]

/-! ### Loops (R154, R185, R186) -/

/-- A loop that may open here: past it for a count of 0, or into it. -/
theorem State.openLoop_ok {c : Core} (hdepth : c.loops.length < 4) {len la : Nat} (hahead : c.pc < la) (hinside : len = 2 → la ≠ c.pc + 1)
    (hwalk : s.walkTo g la 16384 (c.pc + len) = la) (n : Nat) : (s.setCore g c).openLoop g len n la =
      .ok (s.setCore g (if n = 0 then { c with pc := la + bundleLen (s.progWord g la) - len }
        else { (c.wr 48 n).wr 49 la with loops := (c.rd 48, c.rd 49, c.pc + len) :: c.loops })) := by
  have hwalk' : (s.setCore g c).walkTo g la 16384 (c.pc + len) = la := by
    refine Eq.trans ?_ hwalk
    have hsame : ∀ n a, (s.setCore g c).walkTo g la n a = s.walkTo g la n a := by
      intro n
      induction n with
      | zero => exact fun _ => rfl
      | succ n ih => exact fun a => by rw [State.walkTo, State.walkTo, ih, State.progWord_setCore]
    exact hsame _ _
  have hlegal : ¬(la ≤ c.pc ∨ (len = 2 ∧ la = c.pc + 1) ∨ (s.setCore g c).walkTo g la 16384 (c.pc + len) ≠ la) := by
    rintro (h | ⟨h2, h1⟩ | h)
    · omega
    · exact hinside h2 h1
    · exact h hwalk'
  unfold State.openLoop
  simp only [State.core_setCore_same, State.setCore_setCore]
  rw [if_neg (by omega), if_neg hlegal]
  split <;> rfl

/-- Past the bundle that opened it, the core is not at the loop's last bundle. -/
theorem Core.opened_stays {c : Core} (hloops : c.loops = [] ∨ c.rd 49 ≠ c.pc) {la : Nat} (hahead : c.pc < la) (n p : Nat) (ls : List (Nat × Nat × Nat)) :
    let k : Core := if n = 0 then { c with pc := p } else { (c.wr 48 n).wr 49 la with loops := ls }
    k.loops = [] ∨ k.rd 49 ≠ c.pc := by
  intro k
  by_cases hn : n = 0
  · simp only [k, hn, if_true]
    exact hloops
  · refine Or.inr ?_
    simp only [k, hn, if_false]
    rw [show Core.rd { (c.wr 48 n).wr 49 la with loops := ls } 49 = la from Core.rd_wr_same ..]
    omega

/-- A bundle may open a loop at `la` that is neither too deep nor behind, nor ends inside a bundle. -/
def LoopLegal (s : State) (g : Nat) (c : Core) (la len : Nat) : Prop :=
  c.loops.length < 4 ∧ c.pc < la ∧ (len = 2 → la ≠ c.pc + 1) ∧ s.walkTo g la 16384 (c.pc + len) = la

/-- The core once a loop of `n` rounds to `la` is opened. -/
def Core.opened (s : State) (g : Nat) (c : Core) (n la len : Nat) : Core :=
  if n = 0 then { c with pc := la + bundleLen (s.progWord g la) - len }
  else { (c.wr 48 n).wr 49 la with loops := (c.rd 48, c.rd 49, c.pc + len) :: c.loops }

theorem issues_openLoop {i : Instr} {b : Bundle} {n la : Nat} (h : Ready s g b) (hlegal : LoopLegal s g (s.core g) la b.words)
    (hexec : exec i s = .next (s.malIssue g b.kind))
    (hrun : (s.setCore g (s.core g)).runBundle g b = (s.setCore g (s.core g)).openLoop g b.words n la) :
    Issues i s g b.words ((s.core g).opened s g n la b.words) := by
  obtain ⟨hdepth, hahead, hinside, hwalk⟩ := hlegal
  exact issues_of_runBundle h hexec (hrun.trans (State.openLoop_ok hdepth hahead hinside hwalk n)) (Core.opened_stays h.1.fetches.loops hahead n _ _)

/-- The closing test of the only open loop, at its last bundle. -/
theorem Core.closeLoop_one {c : Core} {a lc la start : Nat} (hclosing : c.closing = some a) (hloops : c.loops = [(lc, la, start)]) (hla : c.rd 49 = a) :
    c.closeLoop = if 1 < c.rd 48 then { c.wr 48 (c.rd 48 - 1) with pc := start, closing := none }
      else { (c.wr 48 lc).wr 49 la with loops := [], closing := none } := by
  unfold Core.closeLoop
  rw [hclosing]
  dsimp only
  unfold Core.closeAt
  rw [hloops]
  dsimp only
  rw [if_pos hla]
  split
  · rfl
  · unfold Core.popLoop
    rw [hloops]
    rfl

end

/-- Settles O30: a NOP in every place, words that are no bundle, and the loop, repeat and wait instructions. -/
theorem slotsLoopsRepeatsAndWaits : Obligations.SlotsLoopsRepeatsAndWaits := by
  refine ⟨⟨fun s g _ h => ?_, fun s g rt hg htask hcost hold _ hstall hclosing hslots hwaited hpend hpc hdecodes i hi => ?_⟩, fun s g _ => ?_⟩
  · refine ⟨fun hslots hrpt => ?_, fun hslots hrpt => nop_first h hslots hrpt, fun t hslots hrpt ha => nop_jump h hslots hrpt ha,
      fun hslots hrpt ha => nop_fall h hslots hrpt ha, fun pc sr hslots hrpt ha hsr => nop_rtin h hslots hrpt ha hsr,
      fun pc sr hslots hrpt ha _ hshadow => nop_rtif h hslots hrpt ha hshadow,
      fun rt cf hslots hrpt ha htask hposted hold hcfg hwritten => nop_tend h hslots hrpt ha htask hposted hold hcfg hwritten,
      fun _ hrpt => nop_repeated h hrpt, fun hslots hrpt => ?_, fun p hslots hrpt hloops hp => nop_lands h rfl hslots hrpt hloops hp⟩
    · have hself : ({ s.core g with rpt := 0 } : Core) = s.core g := by rw [← hrpt]
      simpa only [hrpt, if_neg (show ¬ (0 : Nat) = 1 by omega), hself] using nop_alone h hslots (by omega)
    · simpa only [hrpt, if_true] using nop_alone h hslots (by omega)
  · have hkind : ∃ kind, exec i s = .next (s.malIssue g kind) := by
      simp only [List.mem_cons, List.not_mem_nil, or_false] at hi
      rcases hi with rfl | rfl | rfl | rfl | rfl | rfl | rfl | rfl | rfl <;> exact ⟨_, rfl⟩
    obtain ⟨kind, hexec⟩ := hkind
    rw [malIssue_illegal rfl htask hcost hstall hclosing hslots hwaited hdecodes kind] at hexec
    exact ⟨_, hexec, State.malException_shows hg (State.core_setCore_same ..) htask hold hstall hpend hpc (by omega)⟩
  · intro c opened legal
    refine ⟨fun n la hl h => issues_openLoop h hl rfl ?_, fun rs la hl h => issues_openLoop h hl rfl ?_, fun n la hl h => issues_openLoop h hl rfl ?_,
      fun la lc start rest hloops hne h => issues_of_runBundle h rfl ?_ ?_,
      fun la lc start a htask hslots hstall hclosing hloops hla => ?_,
      fun n h => issues_of_runBundle h rfl ?_ h.1.fetches.loops, fun rs h => issues_of_runBundle h rfl ?_ h.1.fetches.loops,
      fun h => issues_of_runBundle h rfl ?_ ?_, fun h => issues_of_runBundle h rfl ?_ h.1.fetches.loops⟩
    · rfl
    · simp only [State.runBundle, State.core_setCore_same, Bundle.words, Bundle.long, c]
      rfl
    · rfl
    · have hl : (s.core g).loops = (lc, la, start) :: rest := hloops
      simp [State.runBundle, Core.popLoop, hl, c]
    · exact Or.inr ((Core.rd_wr_same ..).trans_ne hne)
    · have hexec : exec (.loopClose g) s = .next (s.setCore g (s.core g).closeLoop) := if_pos ⟨htask, hslots, hstall⟩
      refine ⟨_, hexec, ?_, fun h hne => State.core_setCore_ne _ _ hne, State.setCore_eq_cores ..⟩
      rw [State.core_setCore_same]
      exact Core.closeLoop_one hclosing hloops hla
    · simp [State.runBundle, c]
    · simp [State.runBundle, c]
    · simp [State.runBundle, c]
    · split <;> exact h.1.fetches.loops
    · simp only [State.runBundle, State.core_setCore_same, State.setCore_setCore, c]
      rw [h.1.fetches.stall]
      rfl

end Sys2Proof.Machine
end

section
namespace Sys2Proof.Machine

/-! ### The bus gate (R164, R165, R187) -/

section
variable {s : State} {g : Nat}

/-- A fault of the gate on a core that does not wait. -/
theorem State.gateFault_eq {u : State} (h : (u.core g).stall ≠ .wait) (cause b : Nat) : u.gateFault g cause b =
    ((((u.setFld (R.CCR_BUS_ERR_CAUSE g) cause).setFld (R.CCR_BUS_ERR_BUS g) b).bump (R.MAL_CL_BUSERR_COUNT_COUNT (g / 16))).raise
      (R.MAL_CL_INT_STATUS_BUSERR (g / 16))).pendSource g 5 := by
  unfold State.gateFault State.raiseSource
  refine if_neg fun hw => h ?_
  simpa [State.pendSource] using hw.1

@[simp] theorem State.core_pendSource (s : State) (g src h : Nat) : (s.pendSource g src).core h = s.core h := rfl

theorem State.bit_pendSource_same (s : State) (g : Nat) {src : Nat} (h : src < 16) :
    bit ((s.pendSource g src).fld (R.CCR_INT_PEND_PEND g)) src = 1 := by
  rw [State.pendSource, State.fld_setFld_same, bit_mod h, bit_withBit_same]

theorem State.fld_pendSource_ne (s : State) {g src : Nat} {f : Fld} (h : f.key ≠ (R.CCR_INT_PEND_PEND g).key) :
    (s.pendSource g src).fld f = s.fld f := State.fld_setFld_ne _ _ h

/-- What a fault of the gate leaves to see; TIMER is not of it. -/
theorem State.gateFault_shows {u : State} (h : (u.core g).stall ≠ .wait) {cause b : Nat} (hcause : cause < 8) (hb : b < 8192) :
    let t := u.gateFault g cause b
    t.core g = u.core g ∧ t.fld (R.CCR_TIMER_COUNT g) = u.fld (R.CCR_TIMER_COUNT g) ∧ t.fld (R.CCR_BUS_ERR_CAUSE g) = cause ∧
      t.fld (R.CCR_BUS_ERR_BUS g) = b ∧ bit (t.fld (R.MAL_CL_INT_STATUS_BUSERR (g / 16))) 0 = 1 ∧
      bit (t.fld (R.CCR_INT_PEND_PEND g)) 5 = 1 := by
  intro t
  have ht : t = _ := State.gateFault_eq h cause b
  rw [ht]
  refine ⟨by simp, ?_, ?_, ?_, ?_, State.bit_pendSource_same _ _ (by omega)⟩
  · rw [State.fld_pendSource_ne _ (by simp only [Fld.key]; omega), State.fld_raise_ne _ (by simp only [Fld.key]; omega),
      State.fld_bump_ne _ _ (by simp only [Fld.key]; omega), State.fld_setFld_ne _ _ (by simp only [Fld.key]; omega),
      State.fld_setFld_ne _ _ (by simp only [Fld.key]; omega)]
  · rw [State.fld_pendSource_ne _ (by simp only [Fld.key]; omega), State.fld_raise_ne _ (by simp only [Fld.key]; omega),
      State.fld_bump_ne _ _ (by simp only [Fld.key]; omega), State.fld_setFld_ne _ _ (by simp only [Fld.key]; omega), State.fld_setFld_same]
    exact Nat.mod_eq_of_lt hcause
  · rw [State.fld_pendSource_ne _ (by simp only [Fld.key]; omega), State.fld_raise_ne _ (by simp only [Fld.key]; omega),
      State.fld_bump_ne _ _ (by simp only [Fld.key]; omega), State.fld_setFld_same]
    exact Nat.mod_eq_of_lt hb
  · rw [State.fld_pendSource_ne _ (by simp only [Fld.key]; omega)]
    exact State.fld_raise_same _ Nat.one_pos

/-- The row under which a bus transfer of a kind issues. -/
theorem exec_bus {kind : Nat} (hkind : kind < 3) (p pm field : Nat) (rb : Bool) :
    exec (if kind = 0 then .bin g else if kind = 1 then .binp g else .bout g) s = .next (s.malIssue g (Bundle.bus kind p rb pm field).kind) := by
  interval_cases kind <;> rfl

/-- The bus that a transfer names. -/
def busOf (c : Core) (rb : Bool) (pm field : Nat) : Nat := if rb then (field + c.rd (16 + pm) % 8192) % 8192 else field

/-- A transfer of a bus that the task may make is posted. -/
theorem State.postBus_posts {kind p pm field : Nat} {rb : Bool} {t : RunTask} {cf : Cfg} {r : BusRec} {c : Core}
    (htask : c.task = some t) (hold : t.old = false) (hcfg : s.cfg = some cf) (hbus : cf.bus? (busOf c rb pm field) = some r) (hdomain : r.domain < 2)
    (hended : kind = 0 → s.writerEnded false (busOf c rb pm field) = true) (hwriter : kind = 2 → r.writer = t.task)
    (hword : c.rd (16 + p) < 0x10000) (hplace : c.posted.length < 8) : (s.setCore g c).postBus g kind p rb pm field =
      .ok (s.setCore g { c with
        posted := c.posted ++ [⟨kind, busOf c rb pm field, c.rd (16 + p), false, false, t.task, t.old, t.blk⟩]
        written := if kind = 2 then busOf c rb pm field :: c.written else c.written }) := by
  have hrec : ((s.setCore g c).verCfg t.old).bind (fun cf => cf.bus? (busOf c rb pm field)) = some r := by
    rw [hold]
    exact (congrArg (Option.bind · _) hcfg).trans hbus
  have hearly : (decide (kind = 0) && !false && !(s.setCore g c).writerEnded t.old (busOf c rb pm field)) = false := by
    by_cases hk : kind = 0
    · have he : (s.setCore g c).writerEnded t.old (busOf c rb pm field) = true := by
        rw [hold]
        exact hended hk
      simp [he]
    · simp [hk]
  have hforeign : decide (kind = 2 ∧ r.writer ≠ t.task) = false := decide_eq_false fun h => h.2 (hwriter h.1)
  have hmissing : decide (2 ≤ r.domain) = false := decide_eq_false (by omega)
  have hwritten : (kind = 2 ∧ (!false) = true ∧ (!false) = true) ↔ kind = 2 := by simp
  unfold State.postBus
  simp only [State.core_setCore_same, htask, if_neg (show ¬0x10000 ≤ c.rd (16 + p) by omega), if_neg (show ¬8 ≤ c.posted.length by omega),
    State.setCore_setCore]
  unfold busOf at hrec hearly ⊢
  simp only [hrec, hmissing, hforeign, hearly, hwritten, Bool.or_self, Bool.false_eq_true, if_false]

/-- A transfer of a bus that the plane has not is posted and a fault of the gate. -/
theorem State.postBus_missing {kind p pm field : Nat} {rb : Bool} {t : RunTask} {cf : Cfg} {c : Core}
    (htask : c.task = some t) (hold : t.old = false) (hcfg : s.cfg = some cf) (hbus : cf.bus? (busOf c rb pm field) = none)
    (hword : c.rd (16 + p) < 0x10000) : ∃ k : Core, k.loops = c.loops ∧ k.regs = c.regs ∧ (c.stall ≠ .wait → k.stall ≠ .wait) ∧
      (s.setCore g c).postBus g kind p rb pm field = .ok ((s.setCore g k).gateFault g 3 (busOf c rb pm field)) := by
  have hrec : ((s.setCore g c).verCfg t.old).bind (fun cf => cf.bus? (busOf c rb pm field)) = none := by
    rw [hold]
    exact (congrArg (Option.bind · _) hcfg).trans hbus
  refine ⟨{ c with posted := c.posted ++ [⟨kind, busOf c rb pm field, c.rd (16 + p), false, true, t.task, t.old, t.blk⟩]
                   stall := if 8 ≤ c.posted.length then .busFull else c.stall }, rfl, rfl, fun h => ?_, ?_⟩
  · dsimp only
    split
    · exact nofun
    · exact h
  · unfold State.postBus
    simp only [State.core_setCore_same, htask, if_neg (show ¬0x10000 ≤ c.rd (16 + p) by omega), State.setCore_setCore]
    unfold busOf at hrec ⊢
    simp only [hrec, Bool.not_true, Bool.and_false, Bool.false_and, Bool.true_or, Bool.false_eq_true, and_false, false_and, if_true, if_false]

/-! ### Words of local memory (R143) -/

theorem State.dataWord_setData_same (s : State) (g w v : Nat) : (s.setData g w v).dataWord g w = v % 2 ^ 24 := Tbl.get_set_same ..

theorem State.dataWord_setData_ne (s : State) {g w x : Nat} (v : Nat) (h : x % 65536 ≠ w % 65536) :
    (s.setData g w v).dataWord g x = s.dataWord g x := Tbl.get_set_ne _ _ _ _ (by omega)

/-- Words written one after the other are changed by no word before them. -/
theorem State.dataWord_putData_before {g x : Nat} : ∀ (ws : List Nat) (s : State) (w : Nat), x < w → w + ws.length ≤ 0x10000 →
    (s.putData g w ws).dataWord g x = s.dataWord g x
  | [], _, _, _, _ => rfl
  | v :: ws, s, w, hx, hw => by
    rw [List.length_cons] at hw
    rw [State.putData, State.dataWord_putData_before ws _ _ (by omega) (by omega), State.dataWord_setData_ne _ _ (by omega)]

/-- Words that fit into local memory read as written. -/
theorem State.dataWord_putData : ∀ (ws : List Nat) (s : State) (g w : Nat), w + ws.length ≤ 0x10000 → ∀ j < ws.length,
    (s.putData g w ws).dataWord g (w + j) = ws.getD j 0 % 2 ^ 24
  | [], _, _, _, _, _, hj => absurd hj (Nat.not_lt_zero _)
  | v :: ws, s, g, w, hw, 0, _ => by
    rw [List.length_cons] at hw
    rw [State.putData, State.dataWord_putData_before _ _ _ (by omega) (by omega)]
    exact State.dataWord_setData_same ..
  | v :: ws, s, g, w, hw, j + 1, hj => by
    rw [List.length_cons] at hw hj
    rw [State.putData, show w + (j + 1) = w + 1 + j by omega, State.dataWord_putData ws _ _ _ (by omega) j (by omega)]
    rfl

/-- Words of local memory are written in the data memories alone. -/
theorem State.putData_eq (g : Nat) : ∀ (ws : List Nat) (s : State) (w : Nat),
    ∃ d, s.putData g w ws = { s with mal := { s.mal with data := d } }
  | [], s, _ => ⟨s.mal.data, rfl⟩
  | v :: ws, s, w => by
    obtain ⟨d, hd⟩ := State.putData_eq g ws (s.setData g w v) (w + 1)
    exact ⟨d, hd⟩

/-! ### A posted transfer completes (R164) -/

/-- A posted BIN of a core that does not stall brings its words. -/
theorem State.busComplete_brings {q : Posted} {qs : List Posted} (hposted : (s.core g).posted = q :: qs) (hstall : (s.core g).stall = .none)
    (hkind : q.kind < 2) (cycles : Nat) :
    s.busComplete g cycles = (s.putData g q.word (s.binWords q)).setCore g { s.core g with posted := qs } := by
  obtain ⟨d, hd⟩ := State.putData_eq g (s.binWords q) s q.word
  have hcore : (s.putData g q.word (s.binWords q)).core g = s.core g := by rw [hd]; rfl
  unfold State.busComplete
  simp only [hposted, hstall, if_true, if_pos hkind, hcore]

/-- A posted BOUT of a core that does not stall writes its bus. -/
theorem State.busComplete_writes {q : Posted} {qs : List Posted} (hposted : (s.core g).posted = q :: qs) (hstall : (s.core g).stall = .none)
    (hkind : q.kind = 2) (hdead : q.dead = false) (hold : q.old = false) {cf : Cfg} (hcfg : s.cfg = some cf) (cycles : Nat) :
    s.busComplete g cycles = (s.writeBus cf q.blk q.bus ((List.range (busCount cf q.blk q.bus [])).map
      (fun j => ofCodeS 24 (s.dataWord g (q.word + 1 + j))))).setCore g { s.core g with posted := qs } := by
  have hcore : ∀ xs, (s.writeBus cf q.blk q.bus xs).core g = s.core g := fun _ => rfl
  unfold State.busComplete
  simp only [hposted, hstall, if_true, hkind, if_neg (show ¬(2 : Nat) < 2 by omega), hdead, hold, Bool.false_eq_true, if_false, State.inVersion,
    hcfg, hcore]

end

/-- Settles O31: a transfer only adds to the core's posted ones, or is a fault of the gate; one that completes writes memory or its bus. -/
theorem busTransfers : Obligations.BusTransfers := by
  refine ⟨fun s g kind p pm field bus rb t cf r _ hkind h hname htask hold hcfg hbus hdomain hended hwriter hword hplace => ?_,
    fun s g kind p pm field bus rb t cf _ hkind hlt h hname htask hold hcfg hbus hword => ?_,
    fun s g cycles q qs _ hposted hstall => ⟨fun hkind => ?_, fun cf hkind hdead hold hcfg => ?_⟩⟩
  · obtain rfl : bus = busOf (s.core g) rb pm field := hname
    refine issues_of_runBundle h (exec_bus hkind p pm field rb) ?_ h.1.fetches.loops
    exact State.postBus_posts htask hold hcfg hbus hdomain hended hwriter hword hplace
  · obtain rfl : bus = busOf (s.core g) rb pm field := hname
    obtain ⟨k, hloops, hregs, hwait, hpost⟩ := State.postBus_missing (s := s) (g := g) (kind := kind) htask hold hcfg hbus hword
    obtain ⟨hr, hslots, hrpt⟩ := h
    have hstall : ((s.setCore g k).core g).stall ≠ .wait := by
      rw [State.core_setCore_same]
      exact hwait (by rw [hr.fetches.stall]; exact nofun)
    obtain ⟨hcore, htimer, hcause, hfault, hstatus, hpending⟩ := State.gateFault_shows hstall (show 3 < 8 by omega) hlt
    have hissue : s.malIssue g (Bundle.bus kind p rb pm field).kind =
        (((s.setCore g k).gateFault g 3 (busOf (s.core g) rb pm field)).bump (R.CCR_CYCLES_COUNT g) 1).setCore g (k.stepped 1 0) := by
      rw [malIssue_issue hr.fetches (fun _ => ⟨hslots, hrpt⟩) (fun _ => hrpt), State.issue_ok (b := .bus kind p rb pm field) hr.pend hpost, hslots, hrpt,
        State.addCycles_idle (htimer.trans hr.timer), State.afterIssue_steps (k := k) ?_ ?_ (Nat.zero_le 1), if_pos rfl]
      · exact congrArg (fun n => (State.bump _ _ n).setCore g (k.stepped 1 0)) (issueCycles_one _)
      · rw [State.core_bump, hcore, State.core_setCore_same]
      · rw [hloops, Core.rd, hregs]
        exact hr.fetches.loops
    refine ⟨_, (exec_bus hkind p pm field rb).trans (congrArg Host.Outcome.next hissue), ?_, ?_, ?_, ?_⟩ <;> rw [State.fld_setCore]
    · rwa [State.fld_bump_ne _ _ (by simp only [Fld.key]; omega)]
    · rwa [State.fld_bump_ne _ _ (by simp only [Fld.key]; omega)]
    · rwa [State.fld_bump_ne _ _ (by simp only [Fld.key]; omega)]
    · rwa [State.fld_bump_ne _ _ (by simp only [Fld.key]; omega)]
  · obtain ⟨d, hd⟩ := State.putData_eq g (s.binWords q) s q.word
    refine ⟨_, congrArg Host.Outcome.next (State.busComplete_brings hposted hstall hkind cycles), ?_, fun j hj hfits => ?_, ?_, ?_⟩
    · rw [State.core_setCore_same]
    · exact State.dataWord_putData _ s g q.word hfits j hj
    · rw [hd]; rfl
    · rw [hd]; rfl
  · refine ⟨_, congrArg Host.Outcome.next (State.busComplete_writes hposted hstall hkind hdead hold hcfg cycles), ?_, rfl, rfl⟩
    rw [State.core_setCore_same]

end Sys2Proof.Machine
end

section
namespace Sys2Proof.Machine

/-! ### Two's complement -/

section
variable {w : Nat} {x : Int}

/-- A number has a two's complement code of `w` bits. -/
def InWidth (w : Nat) (x : Int) : Prop := -((2 ^ (w - 1) : Nat) : Int) ≤ x ∧ x < ((2 ^ (w - 1) : Nat) : Int)

theorem two_pow_half (hw : 0 < w) : (2 ^ w : Nat) = 2 * 2 ^ (w - 1) := by
  rw [← Nat.pow_succ', Nat.succ_eq_add_one, Nat.sub_add_cancel hw]

theorem inWidth_wrapS (hw : 0 < w) (x : Int) : InWidth w (wrapS w x) := by
  unfold InWidth wrapS
  rw [two_pow_half hw]
  have hp : 0 < 2 ^ (w - 1) := by positivity
  have hlo := Int.emod_nonneg x (show ((2 * 2 ^ (w - 1) : Nat) : Int) ≠ 0 by positivity)
  have hhi := Int.emod_lt_of_pos x (show 0 < ((2 * 2 ^ (w - 1) : Nat) : Int) by positivity)
  generalize 2 ^ (w - 1) = p at *
  dsimp only
  split <;> omega

theorem inWidth_ofCodeS (hw : 0 < w) (n : Nat) : InWidth w (ofCodeS w n) := inWidth_wrapS hw n

theorem satS_of_inWidth (h : InWidth w x) : satS w x = x := by
  obtain ⟨hlo, hhi⟩ := h
  unfold satS
  rw [if_neg (by omega), if_neg (by omega)]

theorem inWidth_satS (x : Int) : InWidth w (satS w x) := by
  have hp : 0 < 2 ^ (w - 1) := by positivity
  unfold InWidth satS
  generalize 2 ^ (w - 1) = p at *
  split
  · omega
  · split <;> omega

theorem wrapS_of_inWidth (hw : 0 < w) (h : InWidth w x) : wrapS w x = x := by
  obtain ⟨hlo, hhi⟩ := h
  unfold wrapS
  rw [two_pow_half hw]
  have hp : 0 < 2 ^ (w - 1) := by positivity
  generalize 2 ^ (w - 1) = p at *
  by_cases hx : 0 ≤ x
  · rw [Int.emod_eq_of_lt hx (by omega), if_pos hhi]
  · rw [← Int.add_emod_right, Int.emod_eq_of_lt (a := x + (2 * p : Nat)) (by omega) (by omega), if_neg (by omega)]
    omega

theorem wrapS_emod (w : Nat) (x : Int) : wrapS w x % (2 ^ w : Nat) = x % (2 ^ w : Nat) := by
  unfold wrapS
  dsimp only
  split
  · exact Int.emod_emod ..
  · rw [Int.sub_emod_right, Int.emod_emod]

theorem wrapS_emod_right (w : Nat) (x : Int) : wrapS w (x % (2 ^ w : Nat)) = wrapS w x := by
  unfold wrapS
  rw [Int.emod_emod]

theorem ofCodeS_codeS_eq (hw : 0 < w) (h : InWidth w x) : ofCodeS w (codeS w x) = x := by
  have hcast : ((codeS w x : Nat) : Int) = x % (2 ^ w : Nat) := Int.toNat_of_nonneg (Int.emod_nonneg x (by positivity))
  rw [ofCodeS, hcast, wrapS_emod_right, wrapS_of_inWidth hw h]

theorem codeS_ofCodeS_mod (w n : Nat) : codeS w (ofCodeS w n) = n % 2 ^ w := by
  rw [codeS, ofCodeS, wrapS_emod, ← Int.natCast_mod, Int.toNat_natCast]

end

end Sys2Proof.Machine
end

section
namespace Sys2Proof.Machine

/-! ### The slots of a bundle (R143-R145, R149, R180-R182) -/

section
variable {s : State} {g : Nat}

/-- A core whose slots have moved its pointers. -/
def Core.Moved (c c1 : Core) : Prop := c1 = { c with regs := c1.regs } ∧ ∀ r, r < 16 ∨ 32 ≤ r → c1.rd r = c.rd r

theorem Core.Moved.refl (c : Core) : c.Moved c := ⟨rfl, fun _ _ => rfl⟩

theorem Core.Moved.trans {c c1 c2 : Core} (h : c.Moved c1) (h' : c1.Moved c2) : c.Moved c2 := by
  obtain ⟨h1, h2⟩ := h
  obtain ⟨h1', h2'⟩ := h'
  rw [h1] at h1'
  exact ⟨h1', fun r hr => (h2' r hr).trans (h2 r hr)⟩

theorem Core.slotAddr_moved {c c1 : Core} {sl : Slot} {a : Nat} (hp : sl.p < 16) (h : c.slotAddr sl = some (a, c1)) : c.Moved c1 := by
  unfold Core.slotAddr at h
  dsimp only at h
  split at h
  · exact absurd h nofun
  · obtain ⟨-, rfl⟩ := Prod.mk.inj (Option.some.inj h)
    split
    · exact Core.Moved.refl c
    · exact ⟨rfl, fun r hr => Core.rd_wr_ne _ _ (by omega)⟩

/-- A word address of local or of shared memory. -/
def DataAddr.Legal : DataAddr → Prop
  | .loc w => w < 0x10000
  | .shared w => w < 0x40000
  | .bad => False

theorem dataAddr_legal {a : Nat} (h : dataAddr a ≠ .bad) : (dataAddr a).Legal := by
  unfold dataAddr at h ⊢
  split
  · assumption
  · next hloc =>
    rw [if_neg hloc] at h
    split
    · next hsh => simp only [DataAddr.Legal]; omega
    · next hsh => exact absurd (if_neg hsh) h

/-- Slots that have their addresses: which they are, where they lie, and what has moved. -/
theorem Core.slotAddrs_ok : ∀ {sls : List Slot} {c c1 : Core} {ds : List (Slot × DataAddr)}, (∀ sl ∈ sls, sl.p < 16) →
    c.slotAddrs sls = .ok (ds, c1) → ds.map Prod.fst = sls ∧ (∀ d ∈ ds, d.2.Legal) ∧ c.Moved c1
  | [], c, c1, ds, _, h => by
    obtain ⟨rfl, rfl⟩ := Prod.mk.inj (Except.ok.inj h)
    exact ⟨rfl, nofun, Core.Moved.refl _⟩
  | sl :: sls, c, c1, ds, hp, h => by
    obtain ⟨hsl, hsls⟩ := List.forall_mem_cons.mp hp
    rw [Core.slotAddrs] at h
    split at h
    · exact absurd h nofun
    · next a c' hslot =>
      split at h
      · exact absurd h nofun
      · next hbad =>
        split at h
        · exact absurd h nofun
        · next ds' c2 hrest =>
          obtain ⟨rfl, rfl⟩ := Prod.mk.inj (Except.ok.inj h)
          obtain ⟨hfst, hlegal, hmoved⟩ := Core.slotAddrs_ok hsls hrest
          refine ⟨by rw [List.map_cons, hfst], List.forall_mem_cons.mpr ⟨dataAddr_legal hbad, hlegal⟩, (Core.slotAddr_moved hsl hslot).trans hmoved⟩

/-! #### Loads -/

/-- The stall of a core that has issued slow-path loads. -/
def stallFor (l : List (Nat × Nat × Option Nat)) : Stall := if l = [] then .none else .slow l

/-- A core that stalls for slow-path loads. -/
def Core.stalled (k : Core) (l : List (Nat × Nat × Option Nat)) : Core := { k with stall := stallFor l }

@[simp] theorem Core.slowLoads_stalled (k : Core) (l : List (Nat × Nat × Option Nat)) : (k.stalled l).slowLoads = l := by
  cases l <;> rfl

theorem Core.stalled_more (k : Core) (l : List (Nat × Nat × Option Nat)) (e : Nat × Nat × Option Nat) :
    ({ k.stalled l with stall := .slow (l ++ [e]) } : Core) = k.stalled (l ++ [e]) := by
  unfold Core.stalled stallFor
  rw [if_neg (List.append_ne_nil_of_right_ne_nil l (List.cons_ne_nil e []))]

/-- What a core takes from local memory in a slot. -/
def nearLoad (d : Slot × DataAddr) : Option (Nat × Nat) :=
  match d.2 with
  | .loc w => if d.1.store then none else some (d.1.reg, w)
  | _ => none

/-- What a core takes from shared memory in a slot, and of what `before` holds. -/
def farLoad (before : Nat → Option Nat) (d : Slot × DataAddr) : Option (Nat × Nat × Option Nat) :=
  match d.2 with
  | .shared w => if d.1.store then none else some (d.1.reg, w, before w)
  | _ => none

/-- The core takes loads from local memory one after the other. -/
def State.takeNear (s : State) (g : Nat) (k : Core) (ls : List (Nat × Nat)) : Core := ls.foldl (fun k l => k.taking l.1 (s.dataWord g l.2)) k

/-- A load enters its register, or lowers BE.MIN. -/
theorem Core.taking_eq (k : Core) (r w : Nat) : k.taking r w = if r = 0x40 then k.minWith w else k.loadTo r (wordToReg r w) := by
  unfold Core.taking Core.minWith Core.loadTo wordToReg Core.later regMask regWidth
  by_cases h40 : r = 0x40
  · rw [if_pos h40, if_pos h40]
  · rw [if_neg h40, if_neg h40]
    by_cases h8 : r < 8
    · simp only [if_pos h8, if_pos (show r < 16 by omega)]
    · rw [if_neg h8]
      by_cases h16 : r < 16
      · simp only [if_pos h16, if_neg h8]
        norm_num
      · rw [if_neg h16, if_neg h16]
        by_cases h32 : r < 32
        · simp only [if_pos h32, if_neg h8, if_neg h16, if_neg (show ¬r = 50 by omega), if_neg (show ¬r = 51 by omega), if_pos (show r < 48 by omega)]
        · by_cases h48 : r < 48
          · simp only [if_pos h48, if_neg h8, if_neg h16, if_neg h32, if_neg (show ¬r = 50 by omega), if_neg (show ¬r = 51 by omega)]
          · simp only [if_neg h48, if_neg h8, if_neg h16, if_neg h32]

/-- A load changes registers, or the writes in flight, whatever the core stalls for. -/
theorem Core.taking_stalled (k : Core) (r w : Nat) (l : List (Nat × Nat × Option Nat)) : (k.stalled l).taking r w = (k.taking r w).stalled l := by
  unfold Core.taking
  by_cases h40 : r = 0x40
  · rw [if_pos h40, if_pos h40]
    exact apply_ite (Core.stalled · l) (lsc w < k.rd 51 % 32) (k.wr 51 (k.rd 51 - k.rd 51 % 32 + lsc w)) k |>.symm
  · rw [if_neg h40, if_neg h40]
    by_cases h8 : r < 8
    · rw [if_pos h8, if_pos h8]; rfl
    · rw [if_neg h8, if_neg h8]
      by_cases h16 : r < 16
      · rw [if_pos h16, if_pos h16]
        generalize codeS 56 _ = v
        rfl
      · rw [if_neg h16, if_neg h16]
        generalize (ite (r < 32) _ _ : PWrite) = p
        rfl

/-- A core that has worked on its registers, but not on LA. -/
def Core.Ran (c k : Core) : Prop := ∃ rs ps, k = { c with regs := rs, pend := ps } ∧ Tbl.get rs 49 0 = c.rd 49

theorem Core.Ran.refl (c : Core) : c.Ran c := ⟨c.regs, c.pend, rfl, rfl⟩

theorem Core.Ran.trans {c k k' : Core} (h : c.Ran k) (h' : k.Ran k') : c.Ran k' := by
  obtain ⟨rs, ps, rfl, hla⟩ := h
  obtain ⟨rs', ps', rfl, hla'⟩ := h'
  exact ⟨rs', ps', rfl, hla'.trans hla⟩

theorem Core.ran_wr (c : Core) {r : Nat} (h : r ≠ 49) (v : Nat) : c.Ran (c.wr r v) := ⟨_, c.pend, rfl, Core.rd_wr_ne c v h.symm⟩

theorem Core.ran_pend (c : Core) (ps : List PWrite) : c.Ran { c with pend := ps } := ⟨c.regs, ps, rfl, rfl⟩

theorem Core.ran_taking (k : Core) (r w : Nat) : k.Ran (k.taking r w) := by
  unfold Core.taking
  by_cases h40 : r = 0x40
  · rw [if_pos h40]
    split
    · exact k.ran_wr (by omega) _
    · exact Core.Ran.refl k
  · rw [if_neg h40]
    by_cases h8 : r < 8
    · rw [if_pos h8]
      exact k.ran_wr (by omega) _
    · rw [if_neg h8]
      by_cases h16 : r < 16
      · rw [if_pos h16]
        exact k.ran_wr (by omega) _
      · rw [if_neg h16]
        exact k.ran_pend _

theorem Core.posted_taking (k : Core) (r w : Nat) : (k.taking r w).posted = k.posted := by
  obtain ⟨rs, ps, h, -⟩ := k.ran_taking r w
  rw [h]

/-- No posted transfer is still to bring a word. -/
def State.Settled (s : State) (k : Core) (w : Nat) : Prop := ∀ p ∈ k.posted, p.kind < 2 → w < p.word ∨ p.word + (s.binWords p).length ≤ w

theorem State.loadLocal_settled {u : State} {w : Nat} (h : u.Settled (u.core g) w) : u.loadLocal g w = (u.dataWord g w, u) := by
  unfold State.loadLocal
  have hnone : (u.core g).posted.find? (fun p => decide (p.kind < 2 ∧ p.word ≤ w) && decide (w < p.word + (u.binWords p).length)) = none := by
    refine List.find?_eq_none.mpr fun p hp hpos => ?_
    simp only [Bool.and_eq_true, decide_eq_true_eq] at hpos
    rcases h p hp hpos.1.1 with hlt | hle <;> omega
  simp only [hnone]

/-- A store is no load. -/
theorem loads_of_store {d : Slot × DataAddr} (h : d.1.store = true) (before : Nat → Option Nat) : nearLoad d = none ∧ farLoad before d = none := by
  obtain ⟨sl, a⟩ := d
  cases a <;> simp_all [nearLoad, farLoad]

theorem State.doLoads_store {sl : Slot} (h : sl.store = true) (u : State) (g : Nat) (a : DataAddr) (ds : List (Slot × DataAddr)) :
    u.doLoads g ((sl, a) :: ds) = u.doLoads g ds := by
  cases a <;> exact if_pos h

/-- The loads of a bundle: those from local memory are taken, those from shared memory stall the core. -/
theorem State.doLoads_eq : ∀ (ds : List (Slot × DataAddr)) (k : Core) (l : List (Nat × Nat × Option Nat)),
    (∀ e ∈ ds.filterMap nearLoad, s.Settled k e.2) → (s.setCore g (k.stalled l)).doLoads g ds =
      s.setCore g ((s.takeNear g k (ds.filterMap nearLoad)).stalled (l ++ ds.filterMap (farLoad fun _ => none)))
  | [], k, l, _ => by
    rw [List.filterMap_nil, List.filterMap_nil, List.append_nil]
    rfl
  | (sl, a) :: ds, k, l, h => by
    by_cases hst : sl.store = true
    · obtain ⟨hnear, hfar⟩ := loads_of_store (d := (sl, a)) hst fun _ => none
      rw [List.filterMap_cons_none hnear] at h ⊢
      rw [List.filterMap_cons_none hfar, State.doLoads_store hst]
      exact State.doLoads_eq ds k l h
    · cases a with
      | loc w =>
        have hnear : nearLoad (sl, .loc w) = some (sl.reg, w) := if_neg hst
        have hfar : farLoad (fun _ => none) (sl, .loc w) = none := rfl
        rw [List.filterMap_cons_some hnear] at h ⊢
        obtain ⟨hw, hds⟩ := List.forall_mem_cons.mp h
        have hload : (s.setCore g (k.stalled l)).loadLocal g w = (s.dataWord g w, s.setCore g (k.stalled l)) :=
          State.loadLocal_settled (by rw [State.core_setCore_same]; exact hw)
        have hrest := State.doLoads_eq ds (k.taking sl.reg (s.dataWord g w)) l fun e he => by
          unfold State.Settled
          rw [Core.posted_taking]
          exact hds e he
        rw [List.filterMap_cons_none hfar, State.doLoads, if_neg hst]
        simp only [hload, State.core_setCore_same, State.setCore_setCore, ← Core.taking_eq, Core.taking_stalled]
        exact hrest
      | shared w =>
        have hnear : nearLoad (sl, .shared w) = none := rfl
        have hfar : farLoad (fun _ => none) (sl, .shared w) = some (sl.reg, w, none) := if_neg hst
        rw [List.filterMap_cons_none hnear] at h ⊢
        rw [List.filterMap_cons_some hfar, State.doLoads, if_neg hst]
        simp only [State.core_setCore_same, State.setCore_setCore, Core.slowLoads_stalled, Core.stalled_more]
        rw [State.doLoads_eq ds k _ h, List.append_assoc, List.singleton_append]
      | bad =>
        have hnear : nearLoad (sl, .bad) = none := rfl
        have hfar : farLoad (fun _ => none) (sl, .bad) = none := rfl
        rw [List.filterMap_cons_none hnear] at h ⊢
        rw [List.filterMap_cons_none hfar, State.doLoads, if_neg hst]
        exact State.doLoads_eq ds k l h

end

end Sys2Proof.Machine
end

section
namespace Sys2Proof.Machine

/-! #### Stores -/

section
variable {s : State} {g : Nat}

/-- Whether a slot of a bundle stores to `a`. -/
def storesTo (ds : List (Slot × DataAddr)) (a : DataAddr) : Bool := ds.any (fun d => d.1.store && decide (d.2 = a))

/-- With one store at most, a slot stores to `a` where that store does. -/
theorem storesTo_iff {a : DataAddr} : ∀ {ds : List (Slot × DataAddr)}, (ds.filter (·.1.store)).length ≤ 1 →
    (storesTo ds a = true ↔ (ds.find? (·.1.store)).map (·.2) = some a)
  | [], _ => by simp [storesTo]
  | d :: ds, h => by
    by_cases hd : d.1.store = true
    · rw [List.filter_cons_of_pos (a := d) (l := ds) hd, List.length_cons] at h
      have hnone : ∀ x ∈ ds, ¬x.1.store = true := List.filter_eq_nil_iff.mp (List.length_eq_zero_iff.mp (by omega))
      have hrest : storesTo ds a = false := List.any_eq_false.mpr fun x hx => by simp [hnone x hx]
      rw [List.find?_cons_of_pos (a := d) (l := ds) hd, storesTo, List.any_cons, ← storesTo, hrest]
      simp [hd]
    · rw [List.filter_cons_of_neg (a := d) (l := ds) hd] at h
      rw [List.find?_cons_of_neg (a := d) (l := ds) hd, ← storesTo_iff h]
      simp [storesTo, hd]

/-- The word that a slow-path load keeps from before its bundle's store to it (R144). -/
def State.heldWord (s : State) (g : Nat) (ds : List (Slot × DataAddr)) (w : Nat) : Option Nat :=
  if storesTo ds (.shared w) then some (s.sharedWord g w) else none

/-- The slow-path loads of a bundle once each keeps the word from before the bundle's own store. -/
theorem State.holdOld_eq (k : Core) (ds : List (Slot × DataAddr)) :
    (s.setCore g (k.stalled (ds.filterMap (farLoad fun _ => none)))).holdOld g ds = s.setCore g (k.stalled (ds.filterMap (farLoad (s.heldWord g ds)))) := by
  have hmap : ∀ (es : List (Slot × DataAddr)), (es.filterMap (farLoad fun _ => none)).map
      (fun e => if storesTo ds (.shared e.2.1) then (e.1, e.2.1, some (s.sharedWord g e.2.1)) else e) = es.filterMap (farLoad (s.heldWord g ds)) := by
    intro es
    rw [List.map_filterMap]
    congr 1
    funext d
    obtain ⟨sl, a⟩ := d
    cases a with
    | shared w =>
      by_cases hst : sl.store = true
      · simp [farLoad, hst]
      · by_cases hto : storesTo ds (.shared w) = true <;> simp [farLoad, hst, State.heldWord, hto]
    | loc w => rfl
    | bad => rfl
  rw [← hmap ds]
  generalize ds.filterMap (farLoad fun _ => none) = l
  cases l with
  | nil =>
    unfold State.holdOld
    simp only [State.core_setCore_same, Core.stalled, stallFor, if_true, List.map_nil]
  | cons e l =>
    unfold State.holdOld
    simp only [State.core_setCore_same, Core.stalled, stallFor, if_neg (List.cons_ne_nil _ _), List.map_cons, State.setCore_setCore]
    rfl

/-- One store of a bundle, of the values that `c0` held before it. -/
def State.storeSlot (s : State) (g : Nat) (c0 : Core) (d : Slot × DataAddr) : State :=
  let v := c0.storeValue d.1.reg
  let s1 := s.storeWord g d.2 v.1
  let c := s1.core g
  let c1 := if v.2 then c.flags 0x10 0x10 else c
  s1.setCore g (if c0.sr 9 = 1 then c1.minWith v.1 else c1)

theorem State.doStores_none (c0 : Core) : ∀ (ds : List (Slot × DataAddr)) (u : State), (∀ d ∈ ds, ¬d.1.store = true) → u.doStores g c0 ds = u
  | [], _, _ => rfl
  | (sl, a) :: ds, u, h => by
    obtain ⟨hd, hds⟩ := List.forall_mem_cons.mp h
    rw [State.doStores, if_neg hd, State.doStores_none c0 ds u hds]

/-- The one store of a bundle. -/
theorem State.doStores_one (c0 : Core) : ∀ (ds : List (Slot × DataAddr)) (u : State), (ds.filter (·.1.store)).length ≤ 1 →
    u.doStores g c0 ds = (ds.find? (·.1.store)).elim u (u.storeSlot g c0)
  | [], _, _ => rfl
  | (sl, a) :: ds, u, h => by
    by_cases hd : sl.store = true
    · rw [List.filter_cons_of_pos (l := ds) (a := (sl, a)) hd, List.length_cons] at h
      have hnone : ∀ x ∈ ds, ¬x.1.store = true := List.filter_eq_nil_iff.mp (List.length_eq_zero_iff.mp (by omega))
      rw [List.find?_cons_of_pos (l := ds) (a := (sl, a)) hd, State.doStores, if_pos hd]
      exact State.doStores_none c0 ds _ hnone
    · rw [List.filter_cons_of_neg (l := ds) (a := (sl, a)) hd] at h
      rw [List.find?_cons_of_neg (l := ds) (a := (sl, a)) hd, State.doStores, if_neg hd]
      exact State.doStores_one c0 ds u h

/-- What a store writes, and whether it saturates (R149). -/
theorem Core.storeValue_eq (c : Core) (r : Nat) :
    c.storeValue r = (codeS 24 (satS 24 (c.storing r)), decide (satS 24 (c.storing r) ≠ c.storing r)) := by
  unfold Core.storeValue Core.storing
  split
  · rfl
  · rw [satS_of_inWidth (inWidth_ofCodeS (by omega) _), codeS_ofCodeS_mod]
    simp

/-- A core after the bundle's store of register `r` of `c0` (R149, R162). -/
def Core.afterStore (c0 k : Core) (r : Nat) : Core :=
  let x := c0.storing r
  let k1 := if satS 24 x = x then k else { k with pend := k.pend ++ [⟨50, 0x10, 0x10, 4⟩] }
  if c0.sr 9 = 1 then k1.taking 0x40 (codeS 24 (satS 24 x)) else k1

theorem Core.ran_afterStore (c0 k : Core) (r : Nat) : k.Ran (c0.afterStore k r) := by
  have hsat : k.Ran (if satS 24 (c0.storing r) = c0.storing r then k else { k with pend := k.pend ++ [⟨50, 0x10, 0x10, 4⟩] }) := by
    split
    · exact Core.Ran.refl k
    · exact k.ran_pend _
  unfold Core.afterStore
  dsimp only
  split
  · exact hsat.trans (Core.ran_taking ..)
  · exact hsat

theorem State.putShared_eq (cl : Nat) : ∀ (bs : List (Option Byte)) (u : State) (i : Nat),
    ∃ sh, ∀ cs, State.putShared { u with mal := { u.mal with cores := cs } } cl i bs =
      { u with mal := { u.mal with cores := cs, shared := sh } }
  | [], u, _ => ⟨u.mal.shared, fun _ => rfl⟩
  | none :: bs, u, i => State.putShared_eq cl bs u (i + 1)
  | some b :: bs, u, i => by
    obtain ⟨sh, h⟩ := State.putShared_eq cl bs { u with mal := { u.mal with shared := Tbl.set u.mal.shared (1048576 * cl + i) 0 b } } (i + 1)
    exact ⟨sh, h⟩

/-- A store writes local or shared memory alone, whatever the cores hold. -/
theorem State.storeWord_eq (s : State) (g : Nat) (a : DataAddr) (v : Nat) : ∃ d sh, ∀ cs,
    State.storeWord { s with mal := { s.mal with cores := cs } } g a v = { s with mal := { s.mal with cores := cs, data := d, shared := sh } } := by
  cases a with
  | loc w => exact ⟨Tbl.set s.mal.data (65536 * g + w % 65536) 0 (v % 2 ^ 24), s.mal.shared, fun _ => rfl⟩
  | bad => exact ⟨s.mal.data, s.mal.shared, fun _ => rfl⟩
  | shared w =>
    obtain ⟨sh, h⟩ := State.putShared_eq (g / 16) ((leBytes 4 (codeS 32 (ofCodeS 24 v))).map some) s (4 * w)
    exact ⟨s.mal.data, sh, h⟩

theorem State.storeWord_setCore (s : State) (g : Nat) (k : Core) (a : DataAddr) (v : Nat) :
    (s.setCore g k).storeWord g a v = (s.storeWord g a v).setCore g k := by
  obtain ⟨d, sh, h⟩ := s.storeWord_eq g a v
  exact (h _).trans (congrArg (State.setCore · g k) (h s.mal.cores)).symm

/-- The store of a bundle on a core that may stall. -/
theorem State.storeSlot_eq (c0 k : Core) (l : List (Nat × Nat × Option Nat)) (d : Slot × DataAddr) : (s.setCore g (k.stalled l)).storeSlot g c0 d =
    (s.storeWord g d.2 (codeS 24 (satS 24 (c0.storing d.1.reg)))).setCore g ((c0.afterStore k d.1.reg).stalled l) := by
  unfold State.storeSlot
  dsimp only
  rw [Core.storeValue_eq, State.storeWord_setCore, State.core_setCore_same, State.setCore_setCore]
  have hmin : ∀ (c : Core) (w : Nat), c.minWith w = c.taking 0x40 w := fun c w => (Core.taking_eq c 0x40 w).symm ▸ rfl
  congr 1
  unfold Core.afterStore
  dsimp only
  by_cases hsat : satS 24 (c0.storing d.1.reg) = c0.storing d.1.reg
  · simp only [hsat, ne_eq, not_true_eq_false, decide_false, Bool.false_eq_true, if_false, if_true, hmin, Core.taking_stalled]
    split <;> rfl
  · simp only [hsat, ne_eq, not_false_eq_true, decide_true, if_false, if_true, hmin]
    split
    · exact Core.taking_stalled { k with pend := k.pend ++ [⟨50, 0x10, 0x10, 4⟩] } _ _ l
    · rfl

end

end Sys2Proof.Machine
end

section
namespace Sys2Proof.Machine

/-! #### What a store leaves in memory (R143, R145) -/

section
variable {s : State} {g : Nat}

/-- A byte of a number's little-endian bytes. -/
theorem getD_leBytes : ∀ (n x j : Nat), j < n → (leBytes n x).getD j 0 = BitVec.ofNat 8 (x / 2 ^ (8 * j))
  | 0, _, _, h => absurd h (Nat.not_lt_zero _)
  | n + 1, x, 0, _ => by simp [leBytes]
  | n + 1, x, j + 1, h => by
    have hrest := getD_leBytes n (x / 256) j (by omega)
    rw [Nat.div_div_eq_div_mul, show 256 * 2 ^ (8 * j) = 2 ^ (8 * (j + 1)) by rw [show 8 * (j + 1) = 8 + 8 * j by ring, pow_add]; norm_num] at hrest
    exact hrest

/-- Bytes of shared memory that fit into their cluster read as written. -/
theorem State.sharedByte_putShared {cl l b : Nat} (hb : b < 0x100000) : ∀ (bs : List Byte) (u : State) (i : Nat), i + bs.length ≤ 0x100000 →
    (u.putShared cl i (bs.map some)).sharedByte l b = if l = cl ∧ i ≤ b ∧ b < i + bs.length then bs.getD (b - i) 0 else u.sharedByte l b
  | [], u, i, _ => by
    rw [if_neg (by simp only [List.length_nil]; omega)]
    rfl
  | x :: bs, u, i, hi => by
    rw [List.length_cons] at hi
    rw [List.map_cons, State.putShared, State.sharedByte_putShared hb bs _ (i + 1) (by omega), List.length_cons]
    by_cases hin : l = cl ∧ i + 1 ≤ b ∧ b < i + 1 + bs.length
    · rw [if_pos hin, if_pos (by omega), show b - i = b - (i + 1) + 1 by omega]
      rfl
    · rw [if_neg hin]
      by_cases hat : l = cl ∧ i = b
      · obtain ⟨rfl, rfl⟩ := hat
        rw [if_pos (by omega), Nat.sub_self]
        exact Tbl.get_set_same ..
      · rw [if_neg (by omega)]
        exact Tbl.get_set_ne _ _ _ _ (by omega)

/-- The words of local memory after a store. -/
theorem State.dataWord_storeWord {a : DataAddr} (ha : a.Legal) (u : State) (x : Int) {h w : Nat} (hw : w < 0x10000) :
    (u.storeWord g a (codeS 24 x)).dataWord h w = if a = .loc w ∧ h = g then codeS 24 x else u.dataWord h w := by
  cases a with
  | bad => exact absurd ha id
  | shared v =>
    obtain ⟨sh, hsh⟩ := State.putShared_eq (g / 16) ((leBytes 4 (codeS 32 (ofCodeS 24 (codeS 24 x)))).map some) u (4 * v)
    have hdata : (u.storeWord g (.shared v) (codeS 24 x)).mal.data = u.mal.data := (congrArg (fun t : State => t.mal.data) (hsh u.mal.cores) :)
    rw [if_neg (by simp), State.dataWord, hdata]
    rfl
  | loc v =>
    have hv : v < 0x10000 := ha
    by_cases hat : v = w ∧ h = g
    · obtain ⟨rfl, rfl⟩ := hat
      rw [if_pos ⟨rfl, rfl⟩]
      exact (State.dataWord_setData_same u h v _).trans (Nat.mod_eq_of_lt (codeS_24_lt x))
    · rw [if_neg (by simpa using hat)]
      exact Tbl.get_set_ne _ _ _ _ (by omega)

/-- The bytes of shared memory after a store. -/
theorem State.sharedByte_storeWord {a : DataAddr} (ha : a.Legal) (u : State) {x : Int} (hx : InWidth 24 x) {l b : Nat} (hb : b < 0x100000) :
    (u.storeWord g a (codeS 24 x)).sharedByte l b = match a with
      | .shared v => if l = g / 16 ∧ 4 * v ≤ b ∧ b < 4 * v + 4 then BitVec.ofNat 8 (codeS 32 x / 2 ^ (8 * (b - 4 * v))) else u.sharedByte l b
      | _ => u.sharedByte l b := by
  cases a with
  | bad => exact absurd ha id
  | loc v => rfl
  | shared v =>
    have hv : v < 0x40000 := ha
    rw [State.storeWord, ofCodeS_codeS_eq (by omega) hx, State.sharedByte_putShared hb _ _ _ (by rw [length_leBytes]; omega), length_leBytes]
    dsimp only
    split
    · next hin => exact getD_leBytes 4 _ _ (by omega)
    · rfl

/-! #### A bundle with slots issues -/

theorem State.ran_takeNear : ∀ (ls : List (Nat × Nat)) (k : Core), k.Ran (s.takeNear g k ls)
  | [], k => Core.Ran.refl k
  | l :: ls, k => (Core.ran_taking k l.1 _).trans (State.ran_takeNear ls _)

/-- The core that a bundle's slots leave, but for its stall. -/
def State.slotCore (s : State) (g : Nat) (c k : Core) (ds : List (Slot × DataAddr)) : Core :=
  (ds.find? (·.1.store)).elim (s.takeNear g k (ds.filterMap nearLoad)) (fun d => c.afterStore (s.takeNear g k (ds.filterMap nearLoad)) d.1.reg)

/-- The state that a bundle's store leaves, but for the cores. -/
def State.slotStore (s : State) (g : Nat) (c : Core) (ds : List (Slot × DataAddr)) : State :=
  (ds.find? (·.1.store)).elim s (fun d => s.storeWord g d.2 (codeS 24 (satS 24 (c.storing d.1.reg))))

/-- A bundle's slots around an operation that leaves the core `k`. -/
theorem State.withSlots_ok {c c1 k : Core} {sls : List Slot} {ds : List (Slot × DataAddr)} {op : Core → Core} (haddr : c.slotAddrs sls = .ok (ds, c1))
    (hrpt : c.rpt = 0) (hop : op c1 = k) (hstall : k.stall = .none) (hone : (ds.filter (·.1.store)).length ≤ 1)
    (hnear : ∀ e ∈ ds.filterMap nearLoad, s.Settled k e.2) : (s.setCore g c).withSlots g sls op =
      .ok ((s.slotStore g c ds).setCore g ((s.slotCore g c k ds).stalled (ds.filterMap (farLoad (s.heldWord g ds))))) := by
  have hidle : k = k.stalled [] := by
    unfold Core.stalled stallFor
    rw [if_pos rfl, ← hstall]
  have hloads := (State.doLoads_eq (s := s) (g := g) ds k [] hnear).trans (congrArg (fun l => s.setCore g (Core.stalled _ l)) (List.nil_append _))
  rw [← hidle] at hloads
  unfold State.withSlots
  simp only [State.core_setCore_same, haddr, hrpt, lt_irrefl, decide_false, Bool.and_false, Bool.false_eq_true, if_false, State.setCore_setCore, hop,
    hloads, State.holdOld_eq, State.doStores_one c ds _ hone]
  unfold State.slotStore State.slotCore
  cases ds.find? (·.1.store) with
  | none => rfl
  | some d => exact congrArg Except.ok (State.storeSlot_eq ..)

theorem State.slotStore_legal {ds : List (Slot × DataAddr)} (hlegal : ∀ d ∈ ds, d.2.Legal) {d : Slot × DataAddr}
    (hd : ds.find? (·.1.store) = some d) : d.2.Legal := hlegal d (List.mem_of_find?_eq_some hd)

/-- A bundle's store writes local and shared memory alone. -/
theorem State.slotStore_eq (c : Core) (ds : List (Slot × DataAddr)) :
    ∃ d sh, s.slotStore g c ds = { s with mal := { s.mal with data := d, shared := sh } } := by
  unfold State.slotStore
  cases ds.find? (·.1.store) with
  | none => exact ⟨s.mal.data, s.mal.shared, rfl⟩
  | some e =>
    obtain ⟨d, sh, h⟩ := s.storeWord_eq g e.2 (codeS 24 (satS 24 (c.storing e.1.reg)))
    exact ⟨d, sh, h s.mal.cores⟩

theorem State.ran_slotCore (c k : Core) (ds : List (Slot × DataAddr)) : k.Ran (s.slotCore g c k ds) := by
  unfold State.slotCore
  cases ds.find? (·.1.store) with
  | none => exact State.ran_takeNear _ k
  | some d => exact (State.ran_takeNear _ k).trans (Core.ran_afterStore ..)

/-- The state in which core `g` has issued a bundle of one word with its slots. -/
def State.slotIssued (s : State) (g : Nat) (c k : Core) (ds : List (Slot × DataAddr)) : State :=
  ((s.slotStore g c ds).bump (R.CCR_CYCLES_COUNT g) 1).setCore g
    { (s.slotCore g c k ds).stalled (ds.filterMap (farLoad (s.heldWord g ds))) with pc := (c.pc + 1) % 16384 }

theorem malIssue_slots {b : Bundle} {sls : List Slot} {ds : List (Slot × DataAddr)} {c1 k : Core} {op : Core → Core} (hready : Ready s g b)
    (hlong : b.long = false) (hrun : (s.setCore g (s.core g)).runBundle g b = (s.setCore g (s.core g)).withSlots g sls op)
    (haddr : (s.core g).slotAddrs sls = .ok (ds, c1)) (hop : op c1 = k) (hran : (s.core g).Ran k) (hone : (ds.filter (·.1.store)).length ≤ 1)
    (hnear : ∀ e ∈ ds.filterMap nearLoad, s.Settled k e.2) : s.malIssue g b.kind = s.slotIssued g (s.core g) k ds := by
  obtain ⟨hr, hslots, hrpt⟩ := hready
  obtain ⟨rs, ps, hk, hla⟩ := hran.trans (State.ran_slotCore (s := s) (g := g) (s.core g) k ds)
  obtain ⟨d, sh, hstore⟩ := State.slotStore_eq (s := s) (g := g) (s.core g) ds
  have hstall : k.stall = .none := by
    obtain ⟨_, _, rfl, -⟩ := hran
    exact hr.fetches.stall
  have htimer : (s.slotStore g (s.core g) ds).fld (R.CCR_TIMER_COUNT g) = 0 := by
    rw [hstore]
    exact hr.timer
  have hopen : ((s.slotCore g (s.core g) k ds).stalled (ds.filterMap (farLoad (s.heldWord g ds)))).loops = (s.core g).loops := by
    rw [hk]
    rfl
  have hend : ((s.slotCore g (s.core g) k ds).stalled (ds.filterMap (farLoad (s.heldWord g ds)))).rd 49 = (s.core g).rd 49 := by
    rw [hk]
    exact hla
  rw [malIssue_issue hr.fetches (fun _ => ⟨hslots, hrpt⟩) (fun _ => hrpt),
    State.issue_ok hr.pend (hrun.trans (State.withSlots_ok haddr hrpt hop hstall hone hnear)), State.addCycles_idle (s := (s.slotStore g (s.core g) ds).setCore g _) htimer,
    State.bump_setCore, hslots, hrpt, State.afterIssue_steps (State.core_setCore_same ..) (by rw [hopen, hend]; exact hr.fetches.loops) (Nat.zero_le 1),
    if_pos rfl, State.setCore_setCore, Core.stepped_zero]
  unfold State.slotIssued Bundle.words
  rw [hlong, hk]
  simp only [Bool.false_eq_true, if_false, issueCycles_one, Core.stalled]

theorem State.dataWord_slotIssued (s : State) (g : Nat) (c k : Core) (ds : List (Slot × DataAddr)) (h w : Nat) :
    (s.slotIssued g c k ds).dataWord h w = (s.slotStore g c ds).dataWord h w := by
  change Tbl.get ((s.slotStore g c ds).bump (R.CCR_CYCLES_COUNT g) 1).mal.data _ _ = _
  rw [State.bump_mal]
  rfl

theorem State.sharedByte_slotIssued (s : State) (g : Nat) (c k : Core) (ds : List (Slot × DataAddr)) (l b : Nat) :
    (s.slotIssued g c k ds).sharedByte l b = (s.slotStore g c ds).sharedByte l b := by
  change Tbl.get ((s.slotStore g c ds).bump (R.CCR_CYCLES_COUNT g) 1).mal.shared _ _ = _
  rw [State.bump_mal]
  rfl

/-- A bundle with slots changes the memories of the clusters, its core and CYCLES alone. -/
theorem State.slotIssued_sameBut (c k : Core) (ds : List (Slot × DataAddr)) : let t := s.slotIssued g c k ds
    SameBut [R.CCR_CYCLES_COUNT g] { s with mal := { s.mal with cores := t.mal.cores, data := t.mal.data, shared := t.mal.shared } } t := by
  intro t
  obtain ⟨d, sh, hstore⟩ := State.slotStore_eq (s := s) (g := g) c ds
  have hframe : SameBut [R.CCR_CYCLES_COUNT g] ((s.slotStore g c ds).setCore g _) t :=
    ((SameBut.refl _ (s.slotStore g c ds)).bump 1 (List.mem_singleton_self (R.CCR_CYCLES_COUNT g))).setCore g _
  have hbefore : (s.slotStore g c ds).setCore g { (s.slotCore g c k ds).stalled (ds.filterMap (farLoad (s.heldWord g ds))) with pc := (c.pc + 1) % 16384 } =
      { s with mal := { s.mal with cores := t.mal.cores, data := t.mal.data, shared := t.mal.shared } } := by
    rw [hframe.mal, hstore]
    rfl
  rwa [hbefore] at hframe

/-- A bundle that runs its slots around an operation issues them with the writes that the operation leaves. -/
theorem issuesSlots_of_withSlots {i : Instr} {b : Bundle} {sls : List Slot} {op : Core → Core} {pend : List PWrite} (hready : Ready s g b)
    (hexec : exec i s = .next (s.malIssue g b.kind)) (hlong : b.long = false)
    (hrun : (s.setCore g (s.core g)).runBundle g b = (s.setCore g (s.core g)).withSlots g sls op) (hp : ∀ sl ∈ sls, sl.p < 16)
    (hop : ∀ c1, (s.core g).Moved c1 → op c1 = { c1 with pend := pend }) : IssuesSlots i s g sls pend := by
  unfold IssuesSlots
  intro c ds c1 haddr hone near hposted stored before far taken k
  obtain ⟨hfst, hlegal, hmoved⟩ := Core.slotAddrs_ok hp haddr
  have hone' : (ds.filter (·.1.store)).length ≤ 1 := by
    rw [← hfst, List.filter_map, List.length_map] at hone
    exact hone
  have hran : c.Ran { c1 with pend := pend } := by
    obtain ⟨hregs, hrd⟩ := hmoved
    exact ⟨c1.regs, pend, by rw [hregs], hrd 49 (by omega)⟩
  have hbefore : before = s.heldWord g ds := by
    funext w
    have hto := storesTo_iff (a := .shared w) hone'
    have hmap : stored.map (·.1) = (ds.find? (·.1.store)).map (·.2) := Option.map_map ..
    change (if stored.map (·.1) = some (.shared w) then _ else _) = s.heldWord g ds w
    rw [hmap, State.heldWord]
    by_cases h : storesTo ds (.shared w) = true
    · rw [if_pos h, if_pos (hto.mp h)]
    · rw [if_neg h, if_neg fun h' => h (hto.mpr h')]
  have hk : k = s.slotCore g c { c1 with pend := pend } ds := by
    simp only [k, stored, State.slotCore]
    cases ds.find? (·.1.store) <;> rfl
  have hfar : far = ds.filterMap (farLoad (s.heldWord g ds)) := by
    rw [← hbefore]
    rfl
  obtain ⟨d, sh, hstore⟩ := State.slotStore_eq (s := s) (g := g) c ds
  have hposted' : ({ c1 with pend := pend } : Core).posted = c.posted := by
    obtain ⟨_, _, h, -⟩ := hran
    rw [h]
  have hissue := malIssue_slots hready hlong hrun haddr (hop c1 hmoved) hran hone' fun e he p hpp hkind => hposted p (hposted' ▸ hpp) hkind e he
  refine ⟨_, hexec.trans (congrArg Host.Outcome.next hissue), ?_, fun h hne => ?_, ?_, ?_, fun h _ w hw => ?_, fun l _ b hb => ?_⟩
  · rw [State.slotIssued, State.core_setCore_same, hfar, hk]
    rfl
  · rw [State.slotIssued, State.core_setCore_ne _ _ hne, State.core_bump, hstore]
    rfl
  · rw [State.slotIssued, State.fld_setCore, State.fld_bump_same, hstore]
    rfl
  · exact State.slotIssued_sameBut ..
  · rw [State.dataWord_slotIssued, State.slotStore]
    simp only [stored]
    cases hfind : ds.find? (·.1.store) with
    | none => rfl
    | some e =>
      refine (State.dataWord_storeWord (State.slotStore_legal hlegal hfind) s _ hw).trans ?_
      obtain ⟨sl, a⟩ := e
      cases a with
      | loc v =>
        refine if_congr ?_ rfl rfl
        rw [DataAddr.loc.injEq, and_comm, eq_comm (a := v)]
      | shared v => exact if_neg (by simp)
      | bad => exact if_neg (by simp)
  · rw [State.sharedByte_slotIssued, State.slotStore]
    simp only [stored]
    cases hfind : ds.find? (·.1.store) with
    | none => rfl
    | some e =>
      refine (State.sharedByte_storeWord (State.slotStore_legal hlegal hfind) s (inWidth_satS _) hb).trans ?_
      obtain ⟨sl, a⟩ := e
      cases a <;> rfl

end

end Sys2Proof.Machine
end

section
namespace Sys2Proof.Machine

/-! ### What the decoder bounds (R180, R188-R190) -/

/-- The accumulators and registers that an operation reads are of its file. -/
def AluOp.Fits : AluOp → Prop
  | .copy n | .adds n _ | .subs n _ | .negt n | .magn n | .maxs n | .mins n | .comp n | .and n | .ior n | .xor n => n < 8
  | .mul x y | .mula x y | .muls x y => x < 4 ∧ y < 4
  | _ => True

/-- The registers, accumulators and pointers of an arithmetic bundle are of their files. -/
def Bundle.Fits : Bundle → Prop
  | .mac2 _ xa ya xb yb a1 a2 s1 s2 => xa < 4 ∧ ya < 4 ∧ xb < 4 ∧ yb < 4 ∧ a1 < 8 ∧ a2 < 8 ∧ ∀ sl ∈ s1.toList ++ s2.toList, sl.p < 16
  | .alu op ad slot _ => op.Fits ∧ ad < 8 ∧ ∀ sl ∈ slot.toList, sl.p < 16
  | _ => True

theorem bits_lt (n hi lo : Nat) : bits n hi lo < 2 ^ (hi - lo + 1) := Nat.mod_lt _ (by positivity)

theorem keepIf_eq_some {g : Bool} {a b : Bundle} : keepIf g a = some b ↔ g = true ∧ a = b := by
  cases g <;> simp [keepIf]

/-- No control bundle is arithmetic. -/
theorem decodeCtl_fits {w : Nat} : ∀ {b : Bundle}, decodeCtl w = some b → b.Fits := by
  unfold decodeCtl
  dsimp only
  split <;> simp [keepIf_eq_some, Bundle.Fits]

/-- No move is arithmetic. -/
theorem decodeMov_fits {w : Nat} : ∀ {b : Bundle}, decodeMov w = some b → b.Fits := by
  unfold decodeMov
  dsimp only
  split <;> (try split) <;> simp [keepIf_eq_some, Bundle.Fits]

/-- No BFE bundle multiplies. -/
theorem decodeBfe_fits {w : Nat} : ∀ {b : Bundle}, decodeBfe w = some b → b.Fits := by
  unfold decodeBfe
  dsimp only
  split <;> simp [keepIf_eq_some, Bundle.Fits]

/-- No long form is arithmetic. -/
theorem decodeLong_fits {w imm : Nat} : ∀ {b : Bundle}, decodeLong w imm = some b → b.Fits := by
  unfold decodeLong
  split <;> simp [keepIf_eq_some, Bundle.Fits]

theorem macSlot_p_lt {store : Bool} {reg p : Nat} (hp : p < 16) : ∀ sl ∈ (macSlot store reg p).toList, sl.p < 16 := by
  unfold macSlot
  split <;> simp [hp]

theorem decodeMac_fits {w : Nat} {b : Bundle} (h : decodeMac w = some b) : b.Fits := by
  obtain ⟨-, rfl⟩ := keepIf_eq_some.mp h
  refine ⟨bits_lt w 26 25, bits_lt w 24 23, bits_lt w 22 21, bits_lt w 20 19, bits_lt w 18 16, bits_lt w 15 13, fun sl hsl => ?_⟩
  rcases List.mem_append.mp hsl with h1 | h2
  · exact macSlot_p_lt ((bits_lt w 9 7).trans (by norm_num)) sl h1
  · exact macSlot_p_lt ((bits_lt w 2 0).trans (by norm_num)) sl h2

theorem decodeAluOp_fits {op src : Nat} {a : AluOp} (hsrc : src < 32) (h : decodeAluOp op src = some a) : a.Fits := by
  unfold decodeAluOp at h
  dsimp only at h
  split at h <;> (try split at h) <;> simp only [Option.some.injEq, reduceCtorEq] at h <;> subst h <;> simp only [AluOp.Fits] <;> omega

theorem decodeAlu_fits {w : Nat} {b : Bundle} (h : decodeAlu w = some b) : b.Fits := by
  unfold decodeAlu at h
  cases hop : decodeAluOp (bits w 28 24) (bits w 20 16) with
  | none => simp [hop] at h
  | some op =>
    rw [hop] at h
    obtain ⟨-, rfl⟩ := keepIf_eq_some.mp h
    refine ⟨decodeAluOp_fits (bits_lt w 20 16) hop, bits_lt w 23 21, fun sl hsl => ?_⟩
    split at hsl
    · obtain rfl := List.mem_singleton.mp hsl
      exact bits_lt w 9 6
    · exact absurd hsl nofun

theorem decodeBundle_fits {w imm : Nat} {b : Bundle} (h : decodeBundle w imm = some b) : b.Fits := by
  unfold decodeBundle at h
  split at h
  · exact decodeCtl_fits h
  · exact decodeMac_fits h
  · exact decodeAlu_fits h
  · exact decodeMov_fits h
  · exact decodeBfe_fits h
  · exact decodeLong_fits h
  · exact absurd h nofun

end Sys2Proof.Machine
end

section
namespace Sys2Proof.Machine

/-! ### Accumulator arithmetic (R148, R149, R188-R190) -/

section
variable {c c1 : Core}

theorem Core.Moved.pend (h : c.Moved c1) : c1.pend = c.pend := by
  obtain ⟨hregs, -⟩ := h
  rw [hregs]

theorem Core.Moved.sr (h : c.Moved c1) (i : Nat) : c1.sr i = c.sr i := by
  obtain ⟨-, hrd⟩ := h
  rw [Core.sr, Core.sr, hrd 50 (by omega)]

/-- With no write in flight an accumulator is read as it has landed, whatever pointers have moved. -/
theorem Core.Moved.accNew (h : c.Moved c1) (hpend : c.pend = []) {n : Nat} (hn : n < 8) : c1.accNew (8 + n) = c.acc n := by
  have hrd := h.2 (8 + n) (by omega)
  unfold Core.accNew Core.acc
  rw [h.pend, hpend, hrd]
  rfl

theorem Core.Moved.prod (h : c.Moved c1) {x y : Nat} (hx : x < 4) (hy : y < 4) :
    prod (c1.rd x) (c1.rd (4 + y)) = 2 * (ofCodeS 24 (c.rd x) * ofCodeS 24 (c.rd (4 + y))) := by
  rw [h.2 x (by omega), h.2 (4 + y) (by omega)]
  rfl

/-- A result is kept at 56 bits as R148 says, and overflows where that changes it. -/
theorem Core.Moved.narrow (h : c.Moved c1) (x : Int) : c1.narrow x = (c.kept x, decide (satS 56 x ≠ x)) := by
  unfold Core.narrow Core.kept
  rw [h.sr]
  by_cases hx : satS 56 x = x
  · simp only [hx, if_true, ne_eq, not_true_eq_false, decide_false]
  · simp only [hx, if_false, ne_eq, not_false_eq_true, decide_true]

theorem Core.kept_of_inWidth (c : Core) {x : Int} (h : InWidth 56 x) : c.kept x = x ∧ decide (satS 56 x ≠ x) = false := by
  have hx := satS_of_inWidth h
  exact ⟨if_pos hx, by simp [hx]⟩

/-- The writes of flags alone: Z, N, V and W where the result overflowed. -/
theorem Core.resultFlags_eq (k : Core) (v : Int) (o : Bool) : k.resultFlags v o o = { k with pend := k.pend ++ [flagWrite v o] } := rfl

theorem inWidth_acc (c : Core) (n : Nat) : InWidth 56 (c.acc n) := inWidth_ofCodeS (by omega) _

theorem inWidth_zero {w : Nat} : InWidth w 0 := by
  have hp : 0 < 2 ^ (w - 1) := by positivity
  unfold InWidth
  omega

theorem inWidth_ediv {w : Nat} {x : Int} (h : InWidth w x) (n : Nat) : InWidth w (x / 2 ^ n) := by
  obtain ⟨hlo, hhi⟩ := h
  have hn : (0 : Int) < 2 ^ n := by positivity
  refine ⟨(Int.le_ediv_iff_mul_le hn).mpr ?_, ?_⟩
  · have h1 : (1 : Int) ≤ 2 ^ n := hn
    nlinarith [show (0 : Int) ≤ ((2 ^ (w - 1) : Nat) : Int) by positivity]
  · exact Int.ediv_lt_of_lt_mul hn (by
      have h1 : (1 : Int) ≤ 2 ^ n := hn
      nlinarith [show (0 : Int) ≤ ((2 ^ (w - 1) : Nat) : Int) by positivity])

theorem inWidth_max {w : Nat} {x y : Int} (hx : InWidth w x) (hy : InWidth w y) : InWidth w (max x y) := by
  rcases max_choice x y with h | h <;> rw [h] <;> assumption

theorem inWidth_min {w : Nat} {x y : Int} (hx : InWidth w x) (hy : InWidth w y) : InWidth w (min x y) := by
  rcases min_choice x y with h | h <;> rw [h] <;> assumption

/-- The writes that an operation of exact result `x` leaves. -/
def Core.leaves (c : Core) (ad : Nat) (x : Int) : List PWrite := [accLater ad (c.kept x), flagWrite (c.kept x) (decide (satS 56 x ≠ x))]

/-- The operation has the exact result `x`, whatever pointers have moved. -/
def Core.Yields (c : Core) (op : AluOp) (ad : Nat) (x : Int) : Prop := ∀ c1, c.Moved c1 → c1.aluOp op ad = { c1 with pend := c.leaves ad x }

/-- An operation that narrows its result. -/
theorem Core.yields_of_narrow {op : AluOp} {ad : Nat} {x : Int} (hpend : c.pend = []) (h : ∀ c1, c.Moved c1 →
    c1.aluOp op ad = ((c1.accWrite (8 + ad) (c1.narrow x).1).resultFlags (c1.narrow x).1 (c1.narrow x).2 (c1.narrow x).2)) : c.Yields op ad x := by
  intro c1 hm
  have hp : c1.pend = [] := hm.pend.trans hpend
  rw [h c1 hm, hm.narrow, Core.resultFlags_eq, Core.accWrite, Core.later, hp]
  rfl

/-- An operation whose result has 56 bits. -/
theorem Core.yields_of_inWidth {op : AluOp} {ad : Nat} {x : Int} (hpend : c.pend = []) (hx : InWidth 56 x) (h : ∀ c1, c.Moved c1 →
    c1.aluOp op ad = (c1.accWrite (8 + ad) x).resultFlags x false false) : c.Yields op ad x := by
  intro c1 hm
  obtain ⟨hkept, hover⟩ := c.kept_of_inWidth hx
  have hp : c1.pend = [] := hm.pend.trans hpend
  rw [h c1 hm, Core.resultFlags_eq, Core.accWrite, Core.later, hp, Core.leaves, hkept, hover]
  rfl

end

section
variable {s : State} {g : Nat}

/-- An accumulator operation whose condition holds issues with the writes that it leaves. -/
theorem issuesSlots_alu {i : Instr} {op : AluOp} {ad cc : Nat} {slot : Option Slot} {pend : List PWrite} (h : Ready s g (.alu op ad slot cc))
    (hexec : exec i s = .next (s.malIssue g op.kind))
    (hop : ∀ c1, (s.core g).Moved c1 → (if (s.core g).cond cc then c1.aluOp op ad else c1) = { c1 with pend := pend }) :
    IssuesSlots i s g slot.toList pend := by
  obtain ⟨-, -, hp⟩ := decodeBundle_fits h.1.fetches.decodes
  refine issuesSlots_of_withSlots h hexec rfl ?_ hp hop
  simp only [State.runBundle, State.core_setCore_same]

theorem Ready.aluFits {op : AluOp} {ad cc : Nat} {slot : Option Slot} (h : Ready s g (.alu op ad slot cc)) : op.Fits ∧ ad < 8 := by
  obtain ⟨hop, had, -⟩ := decodeBundle_fits h.1.fetches.decodes
  exact ⟨hop, had⟩

theorem issuesSlots_of_yields {i : Instr} {op : AluOp} {ad cc : Nat} {slot : Option Slot} {x : Int} (hcc : (s.core g).cond cc = true)
    (hexec : exec i s = .next (s.malIssue g op.kind)) (h : Ready s g (.alu op ad slot cc))
    (hyields : op.Fits → ad < 8 → (s.core g).pend = [] → (s.core g).Yields op ad x) : IssuesSlots i s g slot.toList ((s.core g).leaves ad x) := by
  obtain ⟨hop, had⟩ := h.aluFits
  refine issuesSlots_alu h hexec fun c1 hm => ?_
  rw [if_pos hcc]
  exact hyields hop had h.1.pend c1 hm

/-- An operation whose condition does not hold leaves its slot alone to act. -/
theorem issuesSlots_skipped {i : Instr} {op : AluOp} {ad cc : Nat} {slot : Option Slot} (hcc : (s.core g).cond cc = false)
    (hexec : exec i s = .next (s.malIssue g op.kind)) (h : Ready s g (.alu op ad slot cc)) : IssuesSlots i s g slot.toList [] := by
  refine issuesSlots_alu h hexec fun c1 hm => ?_
  have hp : c1.pend = [] := hm.pend.trans h.1.pend
  rw [if_neg (by simp [hcc]), ← hp]

end

end Sys2Proof.Machine
end

section
namespace Sys2Proof.Machine

/-! ### The result of each accumulator operation (R188, R190) -/

section
variable {c : Core} {ad n : Nat} (hpend : c.pend = []) (had : ad < 8)
include hpend

include had in
theorem Core.yields_adds (hn : n < 8) (k : Nat) : c.Yields (.adds n k) ad (c.acc ad + c.acc n * 2 ^ k) :=
  Core.yields_of_narrow hpend fun c1 hm => by simp only [Core.aluOp, hm.accNew hpend had, hm.accNew hpend hn, Nat.cast_pow, Nat.cast_ofNat]

include had in
theorem Core.yields_subs (hn : n < 8) (k : Nat) : c.Yields (.subs n k) ad (c.acc ad - c.acc n * 2 ^ k) :=
  Core.yields_of_narrow hpend fun c1 hm => by simp only [Core.aluOp, hm.accNew hpend had, hm.accNew hpend hn, Nat.cast_pow, Nat.cast_ofNat]

theorem Core.yields_negt (hn : n < 8) : c.Yields (.negt n) ad (-c.acc n) :=
  Core.yields_of_narrow hpend fun c1 hm => by simp only [Core.aluOp, hm.accNew hpend hn]

theorem Core.yields_magn (hn : n < 8) : c.Yields (.magn n) ad (if c.acc n < 0 then -c.acc n else c.acc n) :=
  Core.yields_of_narrow hpend fun c1 hm => by simp only [Core.aluOp, hm.accNew hpend hn]

include had in
theorem Core.yields_shla : c.Yields (.shla n) ad (c.acc ad * 2 ^ n) :=
  Core.yields_of_narrow hpend fun c1 hm => by simp only [Core.aluOp, hm.accNew hpend had, Nat.cast_pow, Nat.cast_ofNat]

theorem Core.yields_mul {x y : Nat} (hx : x < 4) (hy : y < 4) : c.Yields (.mul x y) ad (2 * (ofCodeS 24 (c.rd x) * ofCodeS 24 (c.rd (4 + y)))) :=
  Core.yields_of_narrow hpend fun c1 hm => by simp only [Core.aluOp, hm.prod hx hy]

include had in
theorem Core.yields_mula {x y : Nat} (hx : x < 4) (hy : y < 4) : c.Yields (.mula x y) ad (c.acc ad + 2 * (ofCodeS 24 (c.rd x) * ofCodeS 24 (c.rd (4 + y)))) :=
  Core.yields_of_narrow hpend fun c1 hm => by simp only [Core.aluOp, hm.accNew hpend had, hm.prod hx hy]

include had in
theorem Core.yields_muls {x y : Nat} (hx : x < 4) (hy : y < 4) : c.Yields (.muls x y) ad (c.acc ad - 2 * (ofCodeS 24 (c.rd x) * ofCodeS 24 (c.rd (4 + y)))) :=
  Core.yields_of_narrow hpend fun c1 hm => by simp only [Core.aluOp, hm.accNew hpend had, hm.prod hx hy]

theorem Core.yields_zero : c.Yields .zero ad 0 :=
  Core.yields_of_inWidth hpend inWidth_zero fun c1 hm => by simp only [Core.aluOp]

theorem Core.yields_copy (hn : n < 8) : c.Yields (.copy n) ad (c.acc n) :=
  Core.yields_of_inWidth hpend (inWidth_acc c n) fun c1 hm => by simp only [Core.aluOp, hm.accNew hpend hn]

include had in
theorem Core.yields_shra : c.Yields (.shra n) ad (c.acc ad / 2 ^ n) :=
  Core.yields_of_inWidth hpend (inWidth_ediv (inWidth_acc c ad) n) fun c1 hm => by simp only [Core.aluOp, hm.accNew hpend had, Nat.cast_pow, Nat.cast_ofNat]

include had in
theorem Core.yields_maxs (hn : n < 8) : c.Yields (.maxs n) ad (max (c.acc ad) (c.acc n)) :=
  Core.yields_of_inWidth hpend (inWidth_max (inWidth_acc c ad) (inWidth_acc c n)) fun c1 hm => by simp only [Core.aluOp, hm.accNew hpend had, hm.accNew hpend hn]

include had in
theorem Core.yields_mins (hn : n < 8) : c.Yields (.mins n) ad (min (c.acc ad) (c.acc n)) :=
  Core.yields_of_inWidth hpend (inWidth_min (inWidth_acc c ad) (inWidth_acc c n)) fun c1 hm => by simp only [Core.aluOp, hm.accNew hpend had, hm.accNew hpend hn]

include had in
theorem Core.yields_and (hn : n < 8) : c.Yields (.and n) ad (ofCodeS 56 (codeS 56 (c.acc ad) &&& codeS 56 (c.acc n))) :=
  Core.yields_of_inWidth hpend (inWidth_ofCodeS (by omega) _) fun c1 hm => by simp only [Core.aluOp, hm.accNew hpend had, hm.accNew hpend hn]

include had in
theorem Core.yields_ior (hn : n < 8) : c.Yields (.ior n) ad (ofCodeS 56 (codeS 56 (c.acc ad) ||| codeS 56 (c.acc n))) :=
  Core.yields_of_inWidth hpend (inWidth_ofCodeS (by omega) _) fun c1 hm => by simp only [Core.aluOp, hm.accNew hpend had, hm.accNew hpend hn]

include had in
theorem Core.yields_xor (hn : n < 8) : c.Yields (.xor n) ad (ofCodeS 56 (codeS 56 (c.acc ad) ^^^ codeS 56 (c.acc n))) :=
  Core.yields_of_inWidth hpend (inWidth_ofCodeS (by omega) _) fun c1 hm => by simp only [Core.aluOp, hm.accNew hpend had, hm.accNew hpend hn]

end

end Sys2Proof.Machine
end

section
namespace Sys2Proof.Machine

section
variable {c c1 : Core} {ad n : Nat}

/-- RNDH rounds the narrowed sum to its upper 32 bits. -/
theorem Core.aluOp_rndh (hpend : c.pend = []) (had : ad < 8) (hm : c.Moved c1) :
    let d := c.acc ad
    let x := c.kept (d + 2 ^ 23) - c.kept (d + 2 ^ 23) % 2 ^ 24
    c1.aluOp .rndh ad = { c1 with pend := [accLater ad x, flagWrite x (decide (satS 56 (d + 2 ^ 23) ≠ d + 2 ^ 23))] } := by
  have hp : c1.pend = [] := hm.pend.trans hpend
  simp only [Core.aluOp, hm.accNew hpend had, hm.narrow, Nat.cast_pow, Nat.cast_ofNat, Core.resultFlags_eq, Core.accWrite, Core.later, hp]
  rfl

/-- The writes of flags alone: Z, N and V, and never W. -/
theorem Core.resultFlags_noWrap (k : Core) (v : Int) (o : Bool) : k.resultFlags v o false =
    { k with pend := k.pend ++ [{ flagWrite v false with val := (flagWrite v false).val + 4 * flag o }] } := by
  cases o <;> rfl

/-- COMP writes flags alone, and W never. -/
theorem Core.aluOp_comp (hpend : c.pend = []) (had : ad < 8) (hn : n < 8) (hm : c.Moved c1) :
    let x := c.acc ad - c.acc n
    c1.aluOp (.comp n) ad = { c1 with pend := [{ flagWrite (c.kept x) false with
      val := (flagWrite (c.kept x) false).val + 4 * flag (decide (satS 56 x ≠ x)) }] } := by
  have hp : c1.pend = [] := hm.pend.trans hpend
  simp only [Core.aluOp, hm.accNew hpend had, hm.accNew hpend hn, hm.narrow, Core.resultFlags_noWrap, hp, List.nil_append]

/-- TEST writes the flags of its accumulator alone. -/
theorem Core.aluOp_test (hpend : c.pend = []) (had : ad < 8) (hm : c.Moved c1) :
    c1.aluOp .test ad = { c1 with pend := [flagWrite (c.acc ad) false] } := by
  have hp : c1.pend = [] := hm.pend.trans hpend
  simp only [Core.aluOp, hm.accNew hpend had, Core.resultFlags_eq, hp]
  rfl

end

/-- The operations that narrow or keep one exact result, each with its row and its result. -/
def exactOps (c : Core) (g ad n k x y : Nat) : List (Instr × AluOp × Int) :=
  let d := c.acc ad
  let a := c.acc n
  let p := 2 * (ofCodeS 24 (c.rd x) * ofCodeS 24 (c.rd (4 + y)))
  let bitwise := fun (f : Nat → Nat → Nat) => ofCodeS 56 (f (codeS 56 d) (codeS 56 a))
  [(.zero g, .zero, 0), (.copy g, .copy n, a), (.adds g, .adds n k, d + a * 2 ^ k), (.subs g, .subs n k, d - a * 2 ^ k), (.negt g, .negt n, -a),
    (.magn g, .magn n, if a < 0 then -a else a), (.shla g, .shla n, d * 2 ^ n), (.shra g, .shra n, d / 2 ^ n), (.maxs g, .maxs n, max d a),
    (.mins g, .mins n, min d a), (.and g, .and n, bitwise (· &&& ·)), (.ior g, .ior n, bitwise (· ||| ·)), (.xor g, .xor n, bitwise (· ^^^ ·)),
    (.mul g, .mul x y, p), (.mula g, .mula x y, d + p), (.muls g, .muls x y, d - p)]

theorem exactOps_exec {c : Core} {s : State} {g ad n k x y : Nat} : ∀ e ∈ exactOps c g ad n k x y, exec e.1 s = .next (s.malIssue g e.2.1.kind) := by
  simp only [exactOps, List.forall_mem_cons, List.not_mem_nil, false_implies, implies_true, and_true]
  exact ⟨rfl, rfl, rfl, rfl, rfl, rfl, rfl, rfl, rfl, rfl, rfl, rfl, rfl, rfl, rfl, rfl⟩

theorem exactOps_yields {c : Core} {g ad n k x y : Nat} (hp : c.pend = []) (had : ad < 8) :
    ∀ e ∈ exactOps c g ad n k x y, e.2.1.Fits → c.Yields e.2.1 ad e.2.2 := by
  simp only [exactOps, List.forall_mem_cons, List.not_mem_nil, false_implies, implies_true, and_true, AluOp.Fits]
  exact ⟨fun _ => Core.yields_zero hp, fun hn => Core.yields_copy hp hn, fun hn => Core.yields_adds hp had hn k,
    fun hn => Core.yields_subs hp had hn k, fun hn => Core.yields_negt hp hn, fun hn => Core.yields_magn hp hn,
    fun _ => Core.yields_shla hp had, fun _ => Core.yields_shra hp had, fun hn => Core.yields_maxs hp had hn,
    fun hn => Core.yields_mins hp had hn, fun hn => Core.yields_and hp had hn, fun hn => Core.yields_ior hp had hn,
    fun hn => Core.yields_xor hp had hn, fun hxy => Core.yields_mul hp hxy.1 hxy.2, fun hxy => Core.yields_mula hp had hxy.1 hxy.2,
    fun hxy => Core.yields_muls hp had hxy.1 hxy.2⟩

/-- Settles O33: each operation's result by the rule of its row, put beside the slot. -/
theorem accumulatorOperations : Obligations.AccumulatorOperations := by
  intro s g ad n k x y cc slot _ c d a p bitwise rounded does
  refine ⟨fun hcc => ⟨fun e he h => ?_, fun h => ?_, fun h => ?_, fun h => ?_⟩, fun h => ?_, fun hcc => ?_⟩
  · exact issuesSlots_of_yields (op := e.2.1) (x := e.2.2) hcc (exactOps_exec (c := c) (k := k) (x := x) (y := y) e he) h
      fun hop had hp => exactOps_yields hp had (k := k) (x := x) (y := y) e he hop
  · exact issuesSlots_alu h rfl fun c1 hm => (if_pos hcc).trans (Core.aluOp_rndh h.1.pend h.aluFits.2 hm)
  · exact issuesSlots_alu h rfl fun c1 hm => (if_pos hcc).trans (Core.aluOp_comp h.1.pend h.aluFits.2 h.aluFits.1 hm)
  · exact issuesSlots_alu h rfl fun c1 hm => (if_pos hcc).trans (Core.aluOp_test h.1.pend h.aluFits.2 hm)
  · refine issuesSlots_alu h rfl fun c1 hm => ?_
    have hp : c1.pend = [] := hm.pend.trans h.1.pend
    rw [← hp]
    exact ite_self c1
  · simp only [List.forall_mem_cons, List.not_mem_nil, false_implies, implies_true, and_true]
    refine ⟨?_, ?_, ?_, ?_, ?_, ?_, ?_, ?_, ?_, ?_, ?_, ?_, ?_, ?_, ?_, ?_, ?_, ?_, ?_⟩ <;> exact fun h => issuesSlots_skipped hcc rfl h

/-! ### The dual multiplies (R148, R181, R182, R188) -/

/-- The exact results of a dual multiply of accumulators `d1` and `d2` and products `p1` and `p2`. -/
def MacOp.results (op : MacOp) (d1 d2 p1 p2 : Int) : Int × Int :=
  match op with
  | .mla2 => (d1 + p1, d2 + p2)
  | .mlas => (d1 + p1, d2 - p2)
  | .mul2 => (p1, p2)
  | .mls2 => (d1 - p1, d2 - p2)

/-- A dual multiply keeps both results and writes the flags of the first, with the overflow of either. -/
theorem Core.macOp_eq {c c1 : Core} (hpend : c.pend = []) (hm : c.Moved c1) {op : MacOp} {xa ya xb yb a1 a2 : Nat} (hxa : xa < 4) (hya : ya < 4)
    (hxb : xb < 4) (hyb : yb < 4) (ha1 : a1 < 8) (ha2 : a2 < 8) {r1 r2 : Int}
    (hr : op.results (c.acc a1) (c.acc a2) (2 * (ofCodeS 24 (c.rd xa) * ofCodeS 24 (c.rd (4 + ya))))
      (2 * (ofCodeS 24 (c.rd xb) * ofCodeS 24 (c.rd (4 + yb)))) = (r1, r2)) :
    c1.macOp op xa ya xb yb a1 a2 = { c1 with pend := [accLater a1 (c.kept r1), accLater a2 (c.kept r2),
      flagWrite (c.kept r1) (decide (satS 56 r1 ≠ r1) || decide (satS 56 r2 ≠ r2))] } := by
  have hp : c1.pend = [] := hm.pend.trans hpend
  obtain ⟨rfl, rfl⟩ := Prod.mk.inj hr
  cases op <;> simp only [Core.macOp, hm.accNew hpend ha1, hm.accNew hpend ha2, hm.prod hxa hya, hm.prod hxb hyb, hm.narrow,
    Core.resultFlags_eq, Core.accWrite, Core.later, hp] <;> rfl

/-- The dual multiplies, each with its row and its results. -/
def dualOps (g : Nat) (d1 d2 p1 p2 : Int) : List (Instr × MacOp × Int × Int) :=
  [(.mla2 g, .mla2, d1 + p1, d2 + p2), (.mlas g, .mlas, d1 + p1, d2 - p2), (.mul2 g, .mul2, p1, p2), (.mls2 g, .mls2, d1 - p1, d2 - p2)]

theorem dualOps_results {g : Nat} {d1 d2 p1 p2 : Int} : ∀ e ∈ dualOps g d1 d2 p1 p2, e.2.1.results d1 d2 p1 p2 = e.2.2 := by
  simp only [dualOps, List.forall_mem_cons, List.not_mem_nil, false_implies, implies_true, and_true, MacOp.results]

theorem dualOps_exec {s : State} {g : Nat} {d1 d2 p1 p2 : Int} (xa ya xb yb a1 a2 : Nat) (s1 s2 : Option Slot) :
    ∀ e ∈ dualOps g d1 d2 p1 p2, exec e.1 s = .next (s.malIssue g (Bundle.mac2 e.2.1 xa ya xb yb a1 a2 s1 s2).kind) := by
  simp only [dualOps, List.forall_mem_cons, List.not_mem_nil, false_implies, implies_true, and_true]
  exact ⟨rfl, rfl, rfl, rfl⟩

/-- Settles O32: the four dual multiplies are one rule with their exact results. -/
theorem dualMultiplies : Obligations.DualMultiplies := by
  intro s g xa ya xb yb a1 a2 s1 s2 _ c p1 p2 e he h
  obtain ⟨hxa, hya, hxb, hyb, ha1, ha2, hp⟩ := decodeBundle_fits h.1.fetches.decodes
  exact issuesSlots_of_withSlots h (dualOps_exec xa ya xb yb a1 a2 s1 s2 e he) rfl rfl hp fun c1 hm =>
    Core.macOp_eq h.1.pend hm hxa hya hxb hyb ha1 ha2 (dualOps_results e he)

end Sys2Proof.Machine
end

section
namespace Sys2Proof.Machine

/-! ### A slot without an address past the program memory (R143, R161) -/

/-- Core 0 of a machine stands past its 16384 program words with P7 at 0x10000, and the word there loads through P7. -/
def loadPastProgram : State :=
  let s := State.reset.setCore 0 { Core.idle with regs := [(23, 0x10000)], pc := 16384, task := some ⟨0, false, 2000, 0⟩ }
  { s with mal := { s.mal with prog := [(0, 3 * 2 ^ 29 + 4 * 2 ^ 26 + 7 * 2 ^ 15)] } }

theorem loadPastProgram_ready : Ready loadPastProgram 0 (.ldr 0 7 0) := by
  refine ⟨⟨⟨⟨0, false, 2000, 0⟩, ?_, ?_⟩, ?_⟩, ?_, ?_⟩ <;> decide +kernel

theorem loadPastProgram_refused : (loadPastProgram.core 0).slotAddrs [⟨false, 0, 7, 0⟩] = .error 6 := by rfl

/-- The exception records the address in EXC_PC's 14 bits. -/
theorem loadPastProgram_excPc : (loadPastProgram.malIssue 0 .ldr).fld (R.CCR_EXC_PC 0) = 0 := by decide +kernel

/-- Refutes O34: EXC_PC holds an address of 14 bits (R161), where the statement has a load without a legal address record a PC that
it does not hold to them: at 16384 the address recorded is 0. -/
theorem not_movesLoadsAndStores : ¬ Obligations.MovesLoadsAndStores := by
  rintro ⟨-, hslots⟩
  obtain ⟨-, -, -, -, -, -, -, -, hrefused⟩ := hslots loadPastProgram 0 (by decide)
  obtain ⟨t, hexec, -, hpc, -⟩ := hrefused 0 7 0 6 loadPastProgram_refused loadPastProgram_ready
  have hrecorded := loadPastProgram_excPc
  rw [Host.Outcome.next.inj hexec, hpc] at hrecorded
  exact absurd hrecorded (by decide)

end Sys2Proof.Machine
end

section
namespace Sys2Proof.Machine

/-! ### Accepts of interrupts (R156-R159) -/

section
variable {s : State} {g : Nat}

theorem bit_withBit_ne (n : Nat) {i j : Nat} (h : j ≠ i) : bit (withBit n i) j = bit n j := by
  unfold withBit
  split
  · rfl
  · next hi => exact bit_add_two_pow_ne hi h

theorem two_pow_le_of_bit {n i : Nat} (h : bit n i = 1) : 2 ^ i ≤ n := by
  by_contra hlt
  rw [bit, Nat.div_eq_of_lt (by omega)] at h
  exact absurd h (by decide)

theorem bit_withoutBit_same (n i : Nat) : bit (withoutBit n i) i = 0 := by
  unfold withoutBit
  split
  · next h =>
    obtain ⟨m, rfl⟩ := Nat.exists_eq_add_of_le' (two_pow_le_of_bit h)
    unfold bit at h ⊢
    rw [Nat.add_div_right _ (by positivity)] at h
    rw [Nat.add_sub_cancel]
    omega
  · next h => exact (Nat.mod_two_eq_zero_or_one _).resolve_right h

theorem bit_withoutBit_ne (n : Nat) {i j : Nat} (h : j ≠ i) : bit (withoutBit n i) j = bit n j := by
  have hsame := bit_withoutBit_same n i
  unfold withoutBit at hsame ⊢
  split
  · next hi =>
    rw [if_pos hi] at hsame
    conv_rhs => rw [← Nat.sub_add_cancel (two_pow_le_of_bit hi)]
    exact (bit_add_two_pow_ne (by omega) h).symm
  · rfl

/-- An accept at the fast level does not interrupt a fast handler (R157). -/
theorem State.acceptable_fast {src : Nat} (h : s.acceptable g = some (true, src)) : bit ((s.core g).rd 50) 13 = 0 := by
  unfold State.acceptable at h
  dsimp only at h
  split at h
  · exact absurd h nofun
  · by_cases hf : bit ((s.core g).rd 50) 13 = 0
    · exact hf
    · have h13 : (s.core g).sr 13 = 1 := (Nat.mod_two_eq_zero_or_one _).resolve_left hf
      simp [h13] at h

/-- An accept at the normal level interrupts no handler (R157). -/
theorem State.acceptable_normal {src : Nat} (h : s.acceptable g = some (false, src)) : bit ((s.core g).rd 50) 12 = 0 := by
  unfold State.acceptable at h
  dsimp only at h
  split at h
  · exact absurd h nofun
  · by_cases hf : bit ((s.core g).rd 50) 12 = 0
    · exact hf
    · have h12 : (s.core g).sr 12 = 1 := (Nat.mod_two_eq_zero_or_one _).resolve_left hf
      split at h
      · exact absurd h (by simp)
      · simp [h12] at h

/-- SR as an accept leaves it: the bits of `mask` cleared, and of them bit `i` set, which was clear. -/
theorem setSr_accept {sr i mask : Nat} (hsr : sr < 65536) (hi : i < 16) (hbit : bit sr i = 0) (hmask : 2 ^ i &&& mask = 2 ^ i) :
    maskWrite sr mask (2 ^ i) % 2 ^ 16 = sr - (sr &&& mask) + 2 ^ i := by
  have hroom : sr + 2 ^ i < 2 ^ 16 := by
    unfold bit at hbit
    interval_cases i <;> omega
  rw [maskWrite, hmask]
  exact Nat.mod_eq_of_lt (by omega)

/-- The source that an accept takes is cleared, and no other. -/
theorem State.takeSource_bits (s : State) (g : Nat) {src : Nat} (h : src < 16) : bit ((s.takeSource g src).fld (R.CCR_INT_PEND_PEND g)) src = 0 ∧
    ∀ i < 16, i ≠ src → bit ((s.takeSource g src).fld (R.CCR_INT_PEND_PEND g)) i = bit (s.fld (R.CCR_INT_PEND_PEND g)) i := by
  refine ⟨?_, fun i hi hne => ?_⟩
  · rw [State.takeSource, State.fld_setFld_same, bit_mod h, bit_withoutBit_same]
  · rw [State.takeSource, State.fld_setFld_same, bit_mod hi, bit_withoutBit_ne _ hne]

theorem State.fld_takeSource_ne (s : State) {g src : Nat} {f : Fld} (h : f.key ≠ (R.CCR_INT_PEND_PEND g).key) :
    (s.takeSource g src).fld f = s.fld f := State.fld_setFld_ne _ _ h

/-- A core without a closing test to make and without writes in flight has nothing to drain. -/
theorem State.drain_idle (hpend : (s.core g).pend = []) (hclosing : (s.core g).closing = none) :
    (s.setCore g (s.core g).closeLoop).drain g = s.setCore g (s.core g) := by
  have hself : ({ s.core g with pend := [] } : Core) = s.core g := by rw [← hpend]
  unfold State.drain
  simp only [Core.closeLoop_none hclosing, State.core_setCore_same, hpend, List.foldl_nil, State.setCore_setCore, hself]

theorem State.takeSource_setCore (s : State) (g : Nat) (c : Core) (src : Nat) :
    (s.setCore g c).takeSource g src = (s.takeSource g src).setCore g c := rfl

/-- A fast accept saves PC and SR, exchanges the bank and goes to the vector. -/
theorem fastAccept_eq {src : Nat} (h : s.acceptable g = some (true, src)) (hpend : (s.core g).pend = []) (hclosing : (s.core g).closing = none)
    (htimer : s.fld (R.CCR_TIMER_COUNT g) = 0) : let c := s.core g
    let s2 := ((s.takeSource g src).setFld (R.CCR_FPC_PC g) c.pc).setFld (R.CCR_FSR_SR g) (c.rd 50)
    s.fastAccept g = (s2.bump (R.CCR_CYCLES_COUNT g) 1).setCore g
      { c.exchange.setSr (maskWrite (c.rd 50) 0x2200 0x2000) with pc := s2.fld (R.CCR_VEC_ADDR g src), waited := false } := by
  intro c s2
  have hidle : (s2.setCore g { c.exchange.setSr (maskWrite (c.rd 50) 0x2200 0x2000) with pc := s2.fld (R.CCR_VEC_ADDR g src), waited := false }).fld
      (R.CCR_TIMER_COUNT g) = 0 := by
    rw [State.fld_setCore, State.fld_setFld_ne _ _ (by simp only [Fld.key]; omega), State.fld_setFld_ne _ _ (by simp only [Fld.key]; omega),
      State.fld_takeSource_ne _ (by simp only [Fld.key]; omega), htimer]
  rw [← State.bump_setCore, ← State.addCycles_idle hidle]
  unfold State.fastAccept
  simp only [h, State.drain_idle hpend hclosing, State.core_setCore_same, State.takeSource_setCore, State.setFld_setCore, State.setCore_setCore,
    State.fld_setCore, s2, c]

/-- A normal accept stacks PC and SR and goes to the vector. -/
theorem normalAccept_eq {src : Nat} (h : s.acceptable g = some (false, src)) (hpend : (s.core g).pend = []) (hclosing : (s.core g).closing = none)
    (htimer : s.fld (R.CCR_TIMER_COUNT g) = 0) (hstack : (s.core g).stack.length < 16) : let c := s.core g
    s.normalAccept g = ((s.takeSource g src).bump (R.CCR_CYCLES_COUNT g) 1).setCore g { c.setSr (maskWrite (c.rd 50) 0x1200 0x1000) with
      stack := (c.pc, c.rd 50) :: c.stack, pc := (s.takeSource g src).fld (R.CCR_VEC_ADDR g src), waited := false } := by
  intro c
  have hidle : ((s.takeSource g src).setCore g { c.setSr (maskWrite (c.rd 50) 0x1200 0x1000) with
      stack := (c.pc, c.rd 50) :: c.stack, pc := (s.takeSource g src).fld (R.CCR_VEC_ADDR g src), waited := false }).fld
      (R.CCR_TIMER_COUNT g) = 0 := by
    rw [State.fld_setCore, State.fld_takeSource_ne _ (by simp only [Fld.key]; omega), htimer]
  rw [← State.bump_setCore, ← State.addCycles_idle hidle]
  unfold State.normalAccept
  simp only [h, State.drain_idle hpend hclosing, State.core_setCore_same, if_neg (show ¬16 ≤ (s.core g).stack.length by omega),
    State.takeSource_setCore, State.setCore_setCore, State.fld_setCore, c]

theorem fastAccept_shows {src : Nat} (hsrc : src < 16) (h : s.acceptable g = some (true, src)) (hpend : (s.core g).pend = [])
    (hclosing : (s.core g).closing = none) (htimer : s.fld (R.CCR_TIMER_COUNT g) = 0) (hpc : (s.core g).pc < 16384) (hsr : (s.core g).rd 50 < 65536) :
    let c := s.core g
    let t := s.fastAccept g
    t.fld (R.CCR_FPC_PC g) = c.pc ∧ t.fld (R.CCR_FSR_SR g) = c.rd 50 ∧ (t.core g).pc = s.fld (R.CCR_VEC_ADDR g src) ∧
      (t.core g).rd 50 = (c.rd 50 - (c.rd 50 &&& 0x2200)) + 0x2000 ∧
      (bit (t.fld (R.CCR_INT_PEND_PEND g)) src = 0 ∧
        ∀ i < 16, i ≠ src → bit (t.fld (R.CCR_INT_PEND_PEND g)) i = bit (s.fld (R.CCR_INT_PEND_PEND g)) i) ∧ (t.core g).stack = c.stack ∧
      (∀ r, 12 ≤ r → ¬(16 ≤ r ∧ r < 24) → r ≠ 50 → (t.core g).rd r = c.rd r) ∧
      (∀ r, r < 12 ∨ (16 ≤ r ∧ r < 24) → Tbl.sorted c.shadow = true → Tbl.sorted c.regs = true → (t.core g).rd r = Tbl.get c.shadow r 0) ∧
      (∀ h, h ≠ g → t.core h = s.core h) := by
  intro c t
  have ht : t = _ := fastAccept_eq h hpend hclosing htimer
  have hrd : ∀ (k : Core) (pc : Nat) (r : Nat), ({ k with pc := pc, waited := false } : Core).rd r = k.rd r := fun _ _ _ => rfl
  have hstack : ∀ v, (c.exchange.wr 50 v).stack = c.stack := fun _ => rfl
  rw [ht]
  simp only [State.core_setCore_same, State.fld_setCore, hrd, Core.setSr]
  refine ⟨?_, ?_, ?_, ?_, ?_, hstack _, fun r h12 h16 hr => ?_, fun r hr hsorted _ => ?_, fun h' hne => ?_⟩
  · rw [State.fld_bump_ne _ _ (by simp only [Fld.key]; omega), State.fld_setFld_ne _ _ (by simp only [Fld.key]; omega), State.fld_setFld_same]
    exact Nat.mod_eq_of_lt hpc
  · rw [State.fld_bump_ne _ _ (by simp only [Fld.key]; omega), State.fld_setFld_same]
    exact Nat.mod_eq_of_lt hsr
  · rw [State.fld_setFld_ne _ _ (by simp only [Fld.key]; omega), State.fld_setFld_ne _ _ (by simp only [Fld.key]; omega),
      State.fld_takeSource_ne _ (by simp only [Fld.key]; omega)]
  · rw [Core.rd_wr_same]
    exact setSr_accept hsr (i := 13) (by omega) (State.acceptable_fast h) (by decide)
  · rw [State.fld_bump_ne _ _ (by simp only [Fld.key]; omega), State.fld_setFld_ne _ _ (by simp only [Fld.key]; omega),
      State.fld_setFld_ne _ _ (by simp only [Fld.key]; omega)]
    exact s.takeSource_bits g hsrc
  · rw [Core.rd_wr_ne _ _ hr, Core.rd_exchange_keep _ (by omega)]
  · rw [Core.rd_wr_ne _ _ (by omega), Core.rd_exchange_bank hsorted hr]
  · rw [State.core_setCore_ne _ _ hne, State.core_bump]
    rfl

theorem normalAccept_shows {src : Nat} (hsrc : src < 16) (h : s.acceptable g = some (false, src)) (hpend : (s.core g).pend = [])
    (hclosing : (s.core g).closing = none) (htimer : s.fld (R.CCR_TIMER_COUNT g) = 0) (hstack : (s.core g).stack.length < 16)
    (hsr : (s.core g).rd 50 < 65536) : let c := s.core g
    let t := s.normalAccept g
    (t.core g).stack = (c.pc, c.rd 50) :: c.stack ∧ (t.core g).pc = s.fld (R.CCR_VEC_ADDR g src) ∧
      (t.core g).rd 50 = (c.rd 50 - (c.rd 50 &&& 0x1200)) + 0x1000 ∧
      (bit (t.fld (R.CCR_INT_PEND_PEND g)) src = 0 ∧
        ∀ i < 16, i ≠ src → bit (t.fld (R.CCR_INT_PEND_PEND g)) i = bit (s.fld (R.CCR_INT_PEND_PEND g)) i) ∧
      (∀ r, r ≠ 50 → (t.core g).rd r = c.rd r) ∧ (∀ h, h ≠ g → t.core h = s.core h) := by
  intro c t
  have ht : t = _ := normalAccept_eq h hpend hclosing htimer hstack
  have hrd : ∀ (k : Core) (st : List (Nat × Nat)) (pc : Nat) (r : Nat), ({ k with stack := st, pc := pc, waited := false } : Core).rd r = k.rd r :=
    fun _ _ _ _ => rfl
  rw [ht]
  simp only [State.core_setCore_same, State.fld_setCore, hrd, Core.setSr]
  refine ⟨rfl, ?_, ?_, ?_, fun r hr => Core.rd_wr_ne _ _ hr, fun h' hne => ?_⟩
  · rw [State.fld_takeSource_ne _ (by simp only [Fld.key]; omega)]
  · rw [Core.rd_wr_same]
    exact setSr_accept hsr (i := 12) (by omega) (State.acceptable_normal h) (by decide)
  · rw [State.fld_bump_ne _ _ (by simp only [Fld.key]; omega)]
    exact s.takeSource_bits g hsrc
  · rw [State.core_setCore_ne _ _ hne, State.core_bump]
    rfl

end

end Sys2Proof.Machine
end

section
namespace Sys2Proof.Machine

/-! ### TIMER and the end of a WAIT (R156, R173, R186) -/

section
variable {s : State} {g : Nat}

/-- The cycles counted: CYCLES up, TIMER down, and source 8 at TIMER's step to 0. -/
def State.counted (s : State) (g n : Nat) : State :=
  let s1 := s.bump (R.CCR_CYCLES_COUNT g) n
  let t := s.fld (R.CCR_TIMER_COUNT g)
  if t = 0 then s1 else if t ≤ n then (s1.setFld (R.CCR_TIMER_COUNT g) 0).pendSource g 8 else s1.setFld (R.CCR_TIMER_COUNT g) (t - n)

/-- Cycles that take TIMER to 0 may end a WAIT as well. -/
theorem State.addCycles_eq (s : State) (g n : Nat) : s.addCycles g n =
    if 0 < s.fld (R.CCR_TIMER_COUNT g) ∧ s.fld (R.CCR_TIMER_COUNT g) ≤ n then (s.counted g n).endWait g else s.counted g n := by
  unfold State.addCycles State.counted
  dsimp only
  generalize s.fld (R.CCR_TIMER_COUNT g) = t
  by_cases h0 : t = 0
  · rw [if_pos h0, if_pos h0, if_neg (by omega)]
  · rw [if_neg h0, if_neg h0]
    by_cases hn : t ≤ n
    · rw [if_pos hn, if_pos hn, if_pos (by omega)]
    · rw [if_neg hn, if_neg hn, if_neg (by omega)]

/-- The registers in which cycles count. -/
def cycleFlds (g : Nat) : List Fld := [R.CCR_CYCLES_COUNT g, R.CCR_TIMER_COUNT g, R.CCR_INT_PEND_PEND g]

theorem SameBut.pendSource {fs : List Fld} {u t : State} (h : SameBut fs u t) {g : Nat} (hf : R.CCR_INT_PEND_PEND g ∈ fs) (src : Nat) :
    SameBut fs u (t.pendSource g src) := h.setFld _ hf

theorem State.counted_sameBut (s : State) (g n : Nat) : SameBut (cycleFlds g) s (s.counted g n) := by
  have hb : SameBut (cycleFlds g) s (s.bump (R.CCR_CYCLES_COUNT g) n) := (SameBut.refl _ s).bump n (by simp [cycleFlds])
  unfold State.counted
  dsimp only
  split
  · exact hb
  · split
    · exact (hb.setFld 0 (by simp [cycleFlds])).pendSource (by simp [cycleFlds]) 8
    · exact hb.setFld _ (by simp [cycleFlds])

theorem SameBut.core {fs : List Fld} {u t : State} (h : SameBut fs u t) (g : Nat) : t.core g = u.core g :=
  State.core_congr (congrArg Mal.cores h.mal) g

theorem State.counted_cycles (s : State) (g n : Nat) :
    (s.counted g n).fld (R.CCR_CYCLES_COUNT g) = min (s.fld (R.CCR_CYCLES_COUNT g) + n) (2 ^ 32 - 1) := by
  unfold State.counted
  dsimp only
  split
  · exact State.fld_bump_same ..
  · split
    · rw [State.fld_pendSource_ne _ (by simp only [Fld.key]; omega), State.fld_setFld_ne _ _ (by simp only [Fld.key]; omega), State.fld_bump_same]
    · rw [State.fld_setFld_ne _ _ (by simp only [Fld.key]; omega), State.fld_bump_same]

theorem State.counted_timer (s : State) (g n : Nat) (ht : s.fld (R.CCR_TIMER_COUNT g) - n < 2 ^ 32) :
    (s.counted g n).fld (R.CCR_TIMER_COUNT g) = s.fld (R.CCR_TIMER_COUNT g) - n := by
  unfold State.counted
  dsimp only
  split
  · next h0 => rw [State.fld_bump_ne _ _ (by simp only [Fld.key]; omega), h0, Nat.zero_sub]
  · split
    · next hn =>
      rw [State.fld_pendSource_ne _ (by simp only [Fld.key]; omega), State.fld_setFld_same, Nat.zero_mod, Nat.sub_eq_zero_of_le hn]
    · rw [State.fld_setFld_same]
      exact Nat.mod_eq_of_lt ht

/-- Of the sources only the timer's is raised, where TIMER steps to 0. -/
theorem State.bit_counted (s : State) (g n : Nat) {i : Nat} (hi : i < 16) : bit ((s.counted g n).fld (R.CCR_INT_PEND_PEND g)) i =
    if i = 8 ∧ 0 < s.fld (R.CCR_TIMER_COUNT g) ∧ s.fld (R.CCR_TIMER_COUNT g) ≤ n then 1 else bit (s.fld (R.CCR_INT_PEND_PEND g)) i := by
  unfold State.counted
  dsimp only
  split
  · next h0 => rw [if_neg (by omega), State.fld_bump_ne _ _ (by simp only [Fld.key]; omega)]
  · split
    · next h0 hn =>
      have hpend : ((s.bump (R.CCR_CYCLES_COUNT g) n).setFld (R.CCR_TIMER_COUNT g) 0).fld (R.CCR_INT_PEND_PEND g) = s.fld (R.CCR_INT_PEND_PEND g) := by
        rw [State.fld_setFld_ne _ _ (by simp only [Fld.key]; omega), State.fld_bump_ne _ _ (by simp only [Fld.key]; omega)]
      rw [State.pendSource, State.fld_setFld_same, bit_mod hi, hpend]
      by_cases h8 : i = 8
      · rw [if_pos (by omega), h8, bit_withBit_same]
      · rw [if_neg (by omega), bit_withBit_ne _ h8]
    · next h0 hn =>
      rw [if_neg (by omega), State.fld_setFld_ne _ _ (by simp only [Fld.key]; omega), State.fld_bump_ne _ _ (by simp only [Fld.key]; omega)]

/-- A core that does not wait has no WAIT to end. -/
theorem State.endWait_of_ne (h : (s.core g).stall ≠ .wait) : s.endWait g = s := if_neg fun hw => h hw.1

/-- A source that is pending and enabled ends a WAIT. -/
theorem State.endWait_of_bit (h : (s.core g).stall = .wait) {i : Nat} (hp : bit (s.fld (R.CCR_INT_PEND_PEND g)) i = 1)
    (he : bit (s.fld (R.CCR_INT_EN_EN g)) i = 1) : s.endWait g = s.setCore g { s.core g with stall := .none } := by
  refine if_pos ⟨h, fun h0 => ?_⟩
  have htest : ∀ n, bit n i = 1 ↔ n.testBit i = true := fun n => by rw [Nat.testBit_eq_decide_div_mod_eq, decide_eq_true_iff]; rfl
  have hand : (s.readySources g).testBit i = true := by
    rw [State.readySources, Nat.testBit_and, (htest _).mp hp, (htest _).mp he]
    rfl
  rw [h0, Nat.zero_testBit] at hand
  exact absurd hand (by decide)

theorem State.fld_endWait (s : State) (g : Nat) (f : Fld) : (s.endWait g).fld f = s.fld f := by
  unfold State.endWait
  dsimp only
  split <;> rfl

/-- Whether or not a WAIT ends, only its core has changed. -/
theorem SameBut.endWait {fs : List Fld} {u t : State} (h : SameBut fs u t) (g : Nat) : SameBut fs { u with mal := { u.mal with cores := (t.endWait g).mal.cores } } (t.endWait g) := by
  unfold State.endWait
  dsimp only
  split
  · have hframe := h.setCore g { t.core g with stall := .none }
    have hcores : (u.setCore g { t.core g with stall := .none }).mal.cores = (t.setCore g { t.core g with stall := .none }).mal.cores := by
      simp only [State.setCore, h.mal]
    rw [State.setCore_eq_cores u, hcores] at hframe
    exact hframe
  · rw [h.mal]
    exact h

/-- TIMER counts a bundle's cycle. -/
theorem nop_timed {n : Nat} (h : Ready s g .nop) (h0 : 0 < n) (hn : n < 2 ^ 32) :
    Turns (.nop g) (s.setFld (R.CCR_TIMER_COUNT g) n) (cycleFlds g)
      { s with mal := (s.setCore g { s.core g with pc := ((s.core g).pc + 1) % 16384 }).mal } (fun t =>
        t.fld (R.CCR_TIMER_COUNT g) = n - 1 ∧ bit (t.fld (R.CCR_INT_PEND_PEND g)) 8 = if n = 1 then 1 else bit (s.fld (R.CCR_INT_PEND_PEND g)) 8) := by
  obtain ⟨hr, hslots, hrpt⟩ := h
  obtain ⟨⟨t, ht, hcost⟩, hstall, hclosing, hloops, hwaited, hdecodes⟩ := hr.fetches
  have hcycles : (s.setFld (R.CCR_TIMER_COUNT g) n).fld (R.CCR_CYCLES_COUNT g) = s.fld (R.CCR_CYCLES_COUNT g) :=
    State.fld_setFld_ne _ _ (by simp only [Fld.key]; omega)
  have htimer : (s.setFld (R.CCR_TIMER_COUNT g) n).fld (R.CCR_TIMER_COUNT g) = n := (State.fld_setFld_same ..).trans (Nat.mod_eq_of_lt hn)
  have hfetch : Fetches (s.setFld (R.CCR_TIMER_COUNT g) n) g .nop := ⟨⟨t, ht, hcycles ▸ hcost⟩, hstall, hclosing, hloops, hwaited, hdecodes⟩
  have hadd : ((s.setFld (R.CCR_TIMER_COUNT g) n).setCore g (s.core g)).addCycles g 1 =
      ((s.setFld (R.CCR_TIMER_COUNT g) n).setCore g (s.core g)).counted g 1 := by
    rw [State.addCycles_eq, State.endWait_of_ne, ite_self]
    rw [(State.counted_sameBut _ g 1).core, State.core_setCore_same, hstall]
    exact nofun
  have hissue : (s.setFld (R.CCR_TIMER_COUNT g) n).malIssue g .nop = (((s.setFld (R.CCR_TIMER_COUNT g) n).setCore g (s.core g)).counted g 1).setCore g
      { s.core g with pc := ((s.core g).pc + 1) % 16384 } := by
    refine (malIssue_issue (b := .nop) hfetch nofun nofun).trans ?_
    rw [State.issue_ok (s := s.setFld (R.CCR_TIMER_COUNT g) n) hr.pend rfl]
    change State.afterIssue (((s.setFld (R.CCR_TIMER_COUNT g) n).setCore g (s.core g)).addCycles g 1) g (s.core g).pc 1 (s.core g).slots
      (s.core g).rpt (s.core g).after = _
    rw [hadd, hslots, hrpt, State.afterIssue_steps (((State.counted_sameBut _ g 1).core g).trans (State.core_setCore_same ..)) hloops (Nat.zero_le 1),
      if_pos rfl, Core.stepped_zero]
  have hframe : SameBut (cycleFlds g) s (s.setFld (R.CCR_TIMER_COUNT g) n) := (SameBut.refl _ s).setFld n (by simp [cycleFlds])
  have hsame := ((hframe.setCore g (s.core g)).trans (State.counted_sameBut _ g 1)).setCore g { s.core g with pc := ((s.core g).pc + 1) % 16384 }
  rw [State.setCore_setCore] at hsame
  refine ⟨_, congrArg Host.Outcome.next hissue, hsame, ?_, ?_⟩
  · rw [State.fld_setCore, State.counted_timer _ _ _ (by rw [State.fld_setCore, htimer]; omega), State.fld_setCore, htimer]
  · rw [State.fld_setCore, State.bit_counted _ _ _ (by omega), State.fld_setCore, State.fld_setCore, htimer,
      State.fld_setFld_ne _ _ (by simp only [Fld.key]; omega)]
    exact if_congr (by omega) rfl rfl

/-- TIMER runs out while a task stands in a stall. -/
theorem timerExpiry_shows {rt : RunTask} (htask : (s.core g).task = some rt)
    (hstall : (s.core g).stall = .wait ∨ (s.core g).stall = .bsync ∨ (s.core g).stall = .busFull ∨ (s.core g).stall = .tend)
    (h0 : 0 < s.fld (R.CCR_TIMER_COUNT g)) (hcost : s.fld (R.CCR_CYCLES_COUNT g) + s.fld (R.CCR_TIMER_COUNT g) ≤ rt.cost) :
    let t := s.timerExpiry g
    t.fld (R.CCR_TIMER_COUNT g) = 0 ∧ bit (t.fld (R.CCR_INT_PEND_PEND g)) 8 = 1 ∧
      t.fld (R.CCR_CYCLES_COUNT g) = min (s.fld (R.CCR_CYCLES_COUNT g) + s.fld (R.CCR_TIMER_COUNT g)) (2 ^ 32 - 1) ∧
      ((s.core g).stall = .wait → bit (s.fld (R.CCR_INT_EN_EN g)) 8 = 1 → (t.core g).stall = .none) ∧
      SameBut (cycleFlds g) { s with mal := { s.mal with cores := t.mal.cores } } t := by
  intro t
  have hstands : (s.core g).stands = true := by
    unfold Core.stands
    rcases hstall with h | h | h | h <;> rw [h]
  have hleft : s.fld (R.CCR_TIMER_COUNT g) ≤ s.cyclesLeft g := by
    unfold State.cyclesLeft
    rw [htask]
    exact Nat.le_sub_of_add_le' hcost
  have ht : t = (s.counted g (s.fld (R.CCR_TIMER_COUNT g))).endWait g :=
    (if_pos ⟨hstands, h0, hleft⟩).trans ((s.addCycles_eq g _).trans (if_pos ⟨h0, le_refl _⟩))
  have hsame := s.counted_sameBut g (s.fld (R.CCR_TIMER_COUNT g))
  have hbit : bit ((s.counted g (s.fld (R.CCR_TIMER_COUNT g))).fld (R.CCR_INT_PEND_PEND g)) 8 = 1 := by
    rw [State.bit_counted _ _ _ (by omega), if_pos ⟨rfl, h0, le_refl _⟩]
  rw [ht]
  refine ⟨?_, ?_, ?_, fun hwait hen => ?_, hsame.endWait g⟩
  · rw [State.fld_endWait, State.counted_timer _ _ _ (by rw [Nat.sub_self]; norm_num), Nat.sub_self]
  · rw [State.fld_endWait, hbit]
  · rw [State.fld_endWait, State.counted_cycles]
  · have hen' : bit ((s.counted g (s.fld (R.CCR_TIMER_COUNT g))).fld (R.CCR_INT_EN_EN g)) 8 = 1 := by
      rw [hsame.1 _ (by simp [cycleFlds, Fld.key])]
      exact hen
    rw [State.endWait_of_bit ((congrArg Core.stall (hsame.core g)).trans hwait) hbit hen', State.core_setCore_same]

end

end Sys2Proof.Machine
end

section
namespace Sys2Proof.Machine

/-! ### Sources raised from outside (R156, R168, R173, R186) -/

section
variable {s : State} {g : Nat}

/-- `t` differs from `s` in the fields `fs`, in the cores and in the free values drawn. -/
def SourcesBut (fs : List Fld) (s t : State) : Prop :=
  SameBut fs { s with mal := { s.mal with cores := t.mal.cores }, freeCtr := t.freeCtr } t

theorem SameBut.withCores {fs : List Fld} {u t : State} (h : SameBut fs u t) (cs : Tbl Core) (n : Nat) :
    SameBut fs { u with mal := { u.mal with cores := cs }, freeCtr := n } { t with mal := { t.mal with cores := cs }, freeCtr := n } := by
  refine ⟨h.1, ?_⟩
  rw [h.mal]
  conv_lhs => rw [h.2]

theorem SourcesBut.refl (fs : List Fld) (s : State) : SourcesBut fs s s := SameBut.refl _ s

theorem SourcesBut.trans {fs : List Fld} {s t u : State} (h : SourcesBut fs s t) (h' : SourcesBut fs t u) : SourcesBut fs s u :=
  (SameBut.withCores h u.mal.cores u.freeCtr).trans h'

theorem SourcesBut.mono {fs gs : List Fld} {s t : State} (h : SourcesBut fs s t) (hs : ∀ f ∈ fs, f ∈ gs) : SourcesBut gs s t := SameBut.mono h hs

theorem SameBut.sources {fs : List Fld} {s t : State} (h : SameBut fs s t) : SourcesBut fs s t := by
  have hfree : t.freeCtr = s.freeCtr := (congrArg State.freeCtr h.2 :)
  unfold SourcesBut
  rw [h.mal, hfree]
  exact h

theorem SourcesBut.fld {fs : List Fld} {s t : State} (h : SourcesBut fs s t) {f : Fld} (hf : ∀ k ∈ fs, f.key ≠ k.key) : t.fld f = s.fld f := h.1 f hf

theorem SourcesBut.setCore (s : State) (g : Nat) (c : Core) (fs : List Fld) : SourcesBut fs s (s.setCore g c) := SameBut.refl _ (s.setCore g c)

/-- A source that finds its core waiting for it ends the WAIT. -/
def State.wakes (s : State) (g src : Nat) : Prop := (s.core g).stall = .wait ∧ bit (s.fld (R.CCR_INT_EN_EN g)) src = 1

theorem State.fld_pendSource_en (s : State) (g src : Nat) : (s.pendSource g src).fld (R.CCR_INT_EN_EN g) = s.fld (R.CCR_INT_EN_EN g) :=
  State.fld_pendSource_ne _ (by simp only [Fld.key]; omega)

theorem raiseSource_quiet {src : Nat} (h : ¬s.wakes g src) : s.raiseSource g src = s.pendSource g src := by
  unfold State.raiseSource
  dsimp only
  rw [State.core_pendSource, State.fld_pendSource_en]
  exact if_neg h

/-- A source that ends a WAIT: for a time that is free, cycles have counted before. -/
theorem raiseSource_wakes {src : Nat} (hsrc : src < 16) (h : s.wakes g src) : ∃ n,
    s.raiseSource g src = ((s.pendSource g src).fresh.2.counted g n).setCore g { s.core g with stall := .none } := by
  obtain ⟨hwait, hen⟩ := h
  refine ⟨(s.pendSource g src).fresh.1 % max 1 ((s.pendSource g src).waitLimit g), ?_⟩
  generalize hn : (s.pendSource g src).fresh.1 % max 1 ((s.pendSource g src).waitLimit g) = n
  have hraise : s.raiseSource g src = ((s.pendSource g src).fresh.2.addCycles g n).endWait g := by
    unfold State.raiseSource
    dsimp only
    rw [State.core_pendSource, State.fld_pendSource_en, if_pos ⟨hwait, hen⟩, hn]
  have hsame := (s.pendSource g src).fresh.2.counted_sameBut g n
  have hcore : ((s.pendSource g src).fresh.2.counted g n).core g = s.core g := hsame.core g
  have hbit : bit (((s.pendSource g src).fresh.2.counted g n).fld (R.CCR_INT_PEND_PEND g)) src = 1 := by
    rw [State.bit_counted _ _ _ hsrc]
    split
    · rfl
    · exact State.bit_pendSource_same s g hsrc
  have hen' : bit (((s.pendSource g src).fresh.2.counted g n).fld (R.CCR_INT_EN_EN g)) src = 1 := by
    rw [hsame.1 _ (by simp [cycleFlds, Fld.key])]
    exact (congrArg (bit · src) (State.fld_pendSource_en s g src)).trans hen
  have hend : ((s.pendSource g src).fresh.2.counted g n).endWait g =
      ((s.pendSource g src).fresh.2.counted g n).setCore g { s.core g with stall := .none } := by
    rw [State.endWait_of_bit (by rw [hcore]; exact hwait) hbit hen', hcore]
  rw [hraise, State.addCycles_eq]
  split
  · rw [hend]
    exact State.endWait_of_ne (by rw [State.core_setCore_same]; exact nofun)
  · exact hend

/-- What a source that is raised leaves. -/
theorem raiseSource_shows {src : Nat} (hsrc : src < 16) : let t := s.raiseSource g src
    bit (t.fld (R.CCR_INT_PEND_PEND g)) src = 1 ∧ (s.wakes g src → t.core g = { s.core g with stall := .none } ∧ t.freeCtr = s.freeCtr + 1) ∧
      (∀ h, h ≠ g → t.core h = s.core h) ∧ SourcesBut (cycleFlds g) s t := by
  intro t
  have hpend : SameBut (cycleFlds g) s (s.pendSource g src) := (SameBut.refl _ s).pendSource (by simp [cycleFlds]) src
  by_cases hw : s.wakes g src
  · obtain ⟨n, ht⟩ := raiseSource_wakes hsrc hw
    have hsame := (s.pendSource g src).fresh.2.counted_sameBut g n
    rw [show t = _ from ht]
    refine ⟨?_, fun _ => ⟨State.core_setCore_same .., (congrArg State.freeCtr hsame.2 :)⟩, fun h hne => ?_, ?_⟩
    · rw [State.fld_setCore, State.bit_counted _ _ _ hsrc]
      split
      · rfl
      · exact State.bit_pendSource_same s g hsrc
    · rw [State.core_setCore_ne _ _ hne, hsame.core]
      rfl
    · have hfresh : SourcesBut (cycleFlds g) (s.pendSource g src) (s.pendSource g src).fresh.2 := SameBut.refl _ (s.pendSource g src).fresh.2
      exact ((hpend.sources.trans hfresh).trans hsame.sources).trans (SourcesBut.setCore ..)
  · rw [show t = _ from raiseSource_quiet hw]
    exact ⟨State.bit_pendSource_same s g hsrc, fun h => absurd h hw, fun h _ => State.core_pendSource .., hpend.sources⟩

end

end Sys2Proof.Machine
end

section
namespace Sys2Proof.Machine

section
variable {s : State} {g : Nat}

/-- The peak of a port's outstanding requests is no register of a Mallet cluster. -/
theorem outstandingPeak_below {f : Fld} (hf : 0x14800000 ≤ f.addr) {m : Nat} (hm : m < 24) : f.key ≠ (R.XB_OUTSTANDING_PEAK m).key := by
  simp only [Fld.key]
  omega

theorem State.core_touch (s : State) (m g : Nat) : (s.touch m).core g = s.core g := State.core_congr (by rw [State.touch_mal]) g

/-- A source that is raised with other fields changed before wakes what it would have woken. -/
theorem SameBut.wakes_iff {fs : List Fld} {s t : State} (h : SameBut fs s t) (hf : ∀ k ∈ fs, (R.CCR_INT_EN_EN g).key ≠ k.key) (src : Nat) :
    t.wakes g src ↔ s.wakes g src := by
  unfold State.wakes
  rw [h.core, h.1 _ hf]

/-- A write of MBOX_IN that reached its register. -/
theorem mboxInWrite_shows (hg : g < 64) (v : Word) : let t := (s.touch 0).mboxInWrite g v
    let fs := [R.XB_OUTSTANDING_PEAK 0, R.CCR_MBOX_IN_DATA g, R.CCR_INT_PEND_PEND g]
    t.fld (R.CCR_MBOX_IN_DATA g) = v.toNat ∧ bit (t.fld (R.CCR_INT_PEND_PEND g)) 6 = 1 ∧ (¬s.wakes g 6 → SameBut fs s t) ∧
      (s.wakes g 6 → t.core g = { s.core g with stall := .none } ∧ SameBut (fs ++ [R.CCR_CYCLES_COUNT g, R.CCR_TIMER_COUNT g])
        { s with mal := { s.mal with cores := t.mal.cores }, freeCtr := s.freeCtr + 1 } t) := by
  intro t fs
  have hdata : SameBut [R.XB_OUTSTANDING_PEAK 0, R.CCR_MBOX_IN_DATA g] s ((s.touch 0).setFld (R.CCR_MBOX_IN_DATA g) v.toNat) :=
    ((SameBut.refl _ s).touch (by simp)).setFld _ (by simp)
  have hwakes := hdata.wakes_iff (g := g) (by
    simp only [List.forall_mem_cons, List.not_mem_nil, false_implies, implies_true, and_true]
    exact ⟨outstandingPeak_below (by simp only; omega) (by omega), by simp only [Fld.key]; omega⟩) 6
  obtain ⟨hbit, hwoken, -, hsources⟩ := raiseSource_shows (s := (s.touch 0).setFld (R.CCR_MBOX_IN_DATA g) v.toNat) (g := g) (show 6 < 16 by omega)
  refine ⟨?_, hbit, fun hn => ?_, fun hw => ?_⟩
  · refine (hsources.fld (f := R.CCR_MBOX_IN_DATA g) (by simp [cycleFlds, Fld.key])).trans ?_
    rw [State.fld_setFld_same]
    exact Nat.mod_eq_of_lt v.isLt
  · have ht : t = ((s.touch 0).setFld (R.CCR_MBOX_IN_DATA g) v.toNat).pendSource g 6 := raiseSource_quiet (fun h => hn (hwakes.mp h))
    rw [ht]
    exact (hdata.mono (by simp [fs])).pendSource (by simp [fs]) 6
  · obtain ⟨hcore, hfree⟩ := hwoken (hwakes.mpr hw)
    refine ⟨hcore.trans (by rw [hdata.core]), ?_⟩
    have hall : SourcesBut (fs ++ [R.CCR_CYCLES_COUNT g, R.CCR_TIMER_COUNT g]) s t :=
      (hdata.mono (by simp [fs])).sources.trans (hsources.mono (by simp [fs, cycleFlds]))
    have hn : t.freeCtr = s.freeCtr + 1 := hfree.trans (congrArg (· + 1) (congrArg State.freeCtr hdata.2 :))
    unfold SourcesBut at hall
    rwa [hn] at hall

/-- A read of MBOX_OUT clears the bit of its core, and no other. -/
theorem mboxOutRead_bits (u : State) (g : Nat) {i : Nat} (hi : i < 16) :
    bit ((u.mboxOutRead g).2.fld (R.MAL_CL_MBOX_PEND_PEND (g / 16))) i =
      if i = g % 16 then 0 else bit (u.fld (R.MAL_CL_MBOX_PEND_PEND (g / 16))) i := by
  unfold State.mboxOutRead
  dsimp only
  rw [State.fld_setFld_same, bit_mod hi]
  split
  · next h => rw [h, bit_withoutBit_same]
  · next h => exact bit_withoutBit_ne _ h

/-- The registers in which the sources of core `16 * cl + n` count. -/
def sourceFlds (cl n : Nat) : List Fld := [R.CCR_INT_PEND_PEND (16 * cl + n), R.CCR_CYCLES_COUNT (16 * cl + n), R.CCR_TIMER_COUNT (16 * cl + n)]

/-- The registers of the sources of one core of a cluster are no register of another. -/
theorem sourceFlds_ne {cl n x : Nat} (hn : n < 16) (hx : x < 16) (hne : n ≠ x) {f : Fld}
    (hf : f ∈ [R.CCR_INT_PEND_PEND (16 * cl + n), R.CCR_INT_EN_EN (16 * cl + n)]) : ∀ k ∈ sourceFlds cl x, f.key ≠ k.key := by
  simp only [List.mem_cons, List.not_mem_nil, or_false] at hf
  simp only [sourceFlds, List.forall_mem_cons, List.not_mem_nil, false_implies, implies_true, and_true, Fld.key]
  rcases hf with rfl | rfl <;> simp only <;> omega

/-- One core of a mask. -/
theorem raiseMask_step {cl src mask x : Nat} (hsrc : src < 16) (s : State) :
    let t := if bit mask x = 1 then s.raiseSource (16 * cl + x) src else s
    (bit mask x = 1 → bit (t.fld (R.CCR_INT_PEND_PEND (16 * cl + x))) src = 1 ∧
      (s.wakes (16 * cl + x) src → (t.core (16 * cl + x)).stall = .none)) ∧
    (bit mask x = 0 → t = s) ∧ (∀ n < 16, n ≠ x → t.core (16 * cl + n) = s.core (16 * cl + n)) ∧ SourcesBut (sourceFlds cl x) s t := by
  intro t
  by_cases hbit : bit mask x = 1
  · obtain ⟨hpend, hwoken, hcores, hsources⟩ := raiseSource_shows (s := s) (g := 16 * cl + x) hsrc
    rw [show t = _ from if_pos hbit]
    exact ⟨fun _ => ⟨hpend, fun hw => by rw [(hwoken hw).1]⟩, fun h0 => absurd hbit (by omega), fun n hn hne => hcores _ (by omega),
      hsources.mono (by simp [cycleFlds, sourceFlds])⟩
  · rw [show t = _ from if_neg hbit]
    exact ⟨fun h => absurd h hbit, fun _ => rfl, fun _ _ _ => rfl, SourcesBut.refl _ s⟩

/-- A source raised in the cores of a mask, one after the other. -/
theorem raiseMask_shows {cl src mask : Nat} (hsrc : src < 16) : ∀ (ns : List Nat) (s : State), ns.Nodup → (∀ n ∈ ns, n < 16) →
    let t := ns.foldl (fun s n => if bit mask n = 1 then s.raiseSource (16 * cl + n) src else s) s
    (∀ n ∈ ns, bit mask n = 1 → bit (t.fld (R.CCR_INT_PEND_PEND (16 * cl + n))) src = 1 ∧
      (s.wakes (16 * cl + n) src → (t.core (16 * cl + n)).stall = .none)) ∧
    (∀ n < 16, n ∉ ns ∨ bit mask n = 0 → t.fld (R.CCR_INT_PEND_PEND (16 * cl + n)) = s.fld (R.CCR_INT_PEND_PEND (16 * cl + n)) ∧
      t.core (16 * cl + n) = s.core (16 * cl + n)) ∧ SourcesBut (ns.flatMap (sourceFlds cl)) s t
  | [], s, _, _ => ⟨nofun, fun _ _ _ => ⟨rfl, rfl⟩, SourcesBut.refl _ s⟩
  | x :: ns, s, hnodup, hlt => by
    obtain ⟨hx, hns⟩ := List.nodup_cons.mp hnodup
    obtain ⟨hx16, hlt'⟩ := List.forall_mem_cons.mp hlt
    obtain ⟨hset, hclear, hcores, hstep⟩ := raiseMask_step (cl := cl) (mask := mask) (x := x) hsrc s
    intro t
    have ht : t = ns.foldl (fun s n => if bit mask n = 1 then s.raiseSource (16 * cl + n) src else s)
      (if bit mask x = 1 then s.raiseSource (16 * cl + x) src else s) := rfl
    generalize (if bit mask x = 1 then s.raiseSource (16 * cl + x) src else s) = s' at ht hset hclear hcores hstep
    obtain ⟨hset', hclear', hrest⟩ := raiseMask_shows (cl := cl) (mask := mask) hsrc ns s' hns hlt'
    rw [← ht] at hset' hclear' hrest
    have hpend : ∀ n < 16, n ≠ x → s'.fld (R.CCR_INT_PEND_PEND (16 * cl + n)) = s.fld (R.CCR_INT_PEND_PEND (16 * cl + n)) :=
      fun n hn hne => hstep.fld (sourceFlds_ne hn hx16 hne (by simp))
    have hen : ∀ n < 16, n ≠ x → s'.fld (R.CCR_INT_EN_EN (16 * cl + n)) = s.fld (R.CCR_INT_EN_EN (16 * cl + n)) :=
      fun n hn hne => hstep.fld (sourceFlds_ne hn hx16 hne (by simp))
    refine ⟨List.forall_mem_cons.mpr ⟨fun hbit => ?_, fun n hn hbit => ?_⟩, fun n hn hout => ?_, ?_⟩
    · obtain ⟨hkeptFld, hkeptCore⟩ := hclear' x hx16 (Or.inl hx)
      rw [hkeptFld, hkeptCore]
      exact hset hbit
    · have hne : n ≠ x := fun he => hx (he ▸ hn)
      obtain ⟨hraised, hwoken⟩ := hset' n hn hbit
      refine ⟨hraised, fun hw => hwoken ?_⟩
      unfold State.wakes
      rw [hcores n (hlt' n hn) hne, hen n (hlt' n hn) hne]
      exact hw
    · have hout' : n ∉ ns ∨ bit mask n = 0 := hout.imp (fun h hn => h (List.mem_cons_of_mem x hn)) id
      obtain ⟨hkeptFld, hkeptCore⟩ := hclear' n hn hout'
      by_cases hne : n = x
      · subst hne
        have hs : s' = s := hclear (hout.resolve_left fun h => h List.mem_cons_self)
        rw [hkeptFld, hkeptCore, hs]
        exact ⟨rfl, rfl⟩
      · exact ⟨hkeptFld.trans (hpend n hn hne), hkeptCore.trans (hcores n hn hne)⟩
    · rw [List.flatMap_cons]
      exact (hstep.mono fun f hf => List.mem_append_left _ hf).trans (hrest.mono fun f hf => List.mem_append_right _ hf)

end

end Sys2Proof.Machine
end

section
namespace Sys2Proof.Machine

/-! ### A master's port while its requests count as outstanding (R227, R245) -/

theorem State.targetNumber_touch (s : State) (m a : Nat) : (s.touch m).targetNumber a = s.targetNumber a := by
  unfold State.targetNumber
  rw [State.touch_dpl]

theorem State.xbPort_touch (s : State) {m : Nat} (hm : m < 24) (p : Nat) : (s.touch m).xbPort p = s.xbPort p := by
  have hen : (s.touch m).xbEnabled p = s.xbEnabled p := by
    unfold State.xbEnabled
    rw [State.touch_cfg, State.mode_touch s hm, State.domainOn_touch s hm, State.domainOn_touch s hm]
  unfold State.xbPort
  rw [hen, State.touch_hif, State.fld_touch_ne s (by simp only [Fld.key]; omega)]

theorem State.passage_touch (s : State) {m : Nat} (hm : m < 24) (p a : Nat) : (s.touch m).passage p a = s.passage p a := by
  have hbusy : (s.touch m).portBusy p a = s.portBusy p a := by
    unfold State.portBusy State.outstanding State.admittedAt
    simp only [State.targetNumber_touch, State.touch_hif]
  unfold State.passage
  rw [State.domainOn_touch s hm, State.xbPort_touch s hm, hbusy]

theorem Through.touch {s : State} {p a m : Nat} (h : Through s p a) (hm : m < 24) : Through (s.touch m) p a := by
  obtain ⟨hp, hpass, hq⟩ := h
  exact ⟨hp, (State.passage_touch s hm p a).trans hpass, by rw [State.touch_hif, hq]⟩

/-- What a port makes of a request does not hang on what DRAM holds. -/
theorem Through.mem {s : State} {p a : Nat} (h : Through s p a) (m : Mems) : Through { s with mem := m } p a := h

/-! ### DMA of a Mallet core (R166) -/

section
variable {s : State} {g ch : Nat}

/-- Bus words read from plain DRAM, each as it goes through the port. -/
theorem State.dmaIn_plain {m : Nat} (hm : m < 24) (ok : Bool) : ∀ (n : Nat) (s : State) (a : Nat) (ext : List Byte),
    PlainDram s a (4 * n) → (∀ i < n, Through s m (a + 4 * i)) → ∃ u, s.dmaIn m a ext ok n = (s.mem.dramRead a (4 * n), true, u) ∧
      u.mem = s.mem ∧ SameBut [R.XB_OUTSTANDING_PEAK m] s u
  | 0, s, a, ext, _, _ => ⟨s, rfl, rfl, SameBut.refl _ s⟩
  | n + 1, s, a, ext, hplain, hthrough => by
    have hfirst : Through s m a := hthrough 0 (by omega)
    have hword : PlainDram (s.touch m) a 4 := (hplain.part le_rfl (by omega)).touch hm
    obtain ⟨u, hu, hmem, hsame⟩ := State.dmaIn_plain hm ok n (s.touch m) (a + 4) (ext.drop 4)
      ((hplain.part (x := a + 4) (k := 4 * n) (by omega) (by omega)).touch hm) fun i hi => by
        have h := (hthrough (i + 1) (by omega)).touch hm
        rwa [show a + 4 * (i + 1) = a + 4 + 4 * i by ring] at h
    refine ⟨u, ?_, hmem.trans (State.touch_mem ..), ((SameBut.refl _ s).touch (by simp)).trans hsame⟩
    have hread := busRead_plain hword (if ok then .data (ext.take 4) else .error)
    have hjoin := joinReads_plain hword (if ok then .data (ext.take 4) else .error)
    rw [State.dmaIn]
    simp only [reach_eq hfirst, if_true, hjoin]
    rw [hread]
    simp only [hu, State.touch_mem]
    rw [show 4 * (n + 1) = 4 + 4 * n by ring, Mems.dramRead_add]

/-- Bus words written to plain DRAM, each as it goes through the port. -/
theorem State.dmaOut_plain {m : Nat} (hm : m < 24) : ∀ (bs : List (List Byte)) (s : State) (a : Nat), (∀ b ∈ bs, b.length ≤ 4) →
    (∀ i, i + 1 < bs.length → (bs.getD i []).length = 4) → PlainDram s a (4 * bs.length) → (∀ i < bs.length, Through s m (a + 4 * i)) →
    ∃ u, s.dmaOut m a bs = (bs.length, true, u) ∧ s.mem.Stored a (bs.flatten.map some) u.mem ∧
      SameBut [R.XB_OUTSTANDING_PEAK m] { s with mem := u.mem } u
  | [], s, a, _, _, _, _ => ⟨s, rfl, Mems.Stored.nil .., SameBut.refl _ s⟩
  | b :: bs, s, a, hle, hfull, hplain, hthrough => by
    have hfirst : Through s m a := hthrough 0 (by rw [List.length_cons]; omega)
    obtain ⟨hb, hbs⟩ := List.forall_mem_cons.mp hle
    rw [List.length_cons] at hplain
    have hlen : (b.map some).length = b.length := List.length_map _
    obtain ⟨m1, hm1, hwrite⟩ := busWrite_plain (s := s.touch m) (a := a) (data := b.map some)
      (by rw [hlen]; exact (hplain.part le_rfl (by omega)).touch hm) m
    have hnext : bs ≠ [] → b.length = 4 := fun hne =>
      hfull 0 (by rw [List.length_cons]; have := List.length_pos_of_ne_nil hne; omega)
    obtain ⟨u, hu, hstored, hsame⟩ := State.dmaOut_plain hm bs { s.touch m with mem := m1 } (a + 4) hbs
      (fun i hi => hfull (i + 1) (by rw [List.length_cons]; omega))
      (((hplain.part (x := a + 4) (k := 4 * bs.length) (by omega) (by omega)).touch hm).stored hm1) fun i hi => by
        have h := ((hthrough (i + 1) (by rw [List.length_cons]; omega)).touch hm).mem m1
        rwa [show a + 4 * (i + 1) = a + 4 + 4 * i by ring] at h
    refine ⟨u, ?_, ?_, ?_⟩
    · rw [State.dmaOut]
      simp only [reach_eq hfirst, if_true, hwrite, joinWrites_ok, hu, List.length_cons]
    · rw [List.flatten_cons, List.map_append]
      rw [State.touch_mem] at hm1
      by_cases hne : bs = []
      · subst hne
        have hsm : u.mem = m1 := by
          have hu' := hu
          simp only [State.dmaOut, Prod.mk.injEq, true_and] at hu'
          rw [← hu'.2]
        rw [hsm, List.flatten_nil, List.map_nil, List.append_nil]
        exact hm1
      · refine hm1.append ?_
        rw [hlen, hnext hne]
        exact hstored
    · have htouch : SameBut [R.XB_OUTSTANDING_PEAK m] { s with mem := u.mem } { s.touch m with mem := u.mem } := by
        obtain ⟨hfld, heq⟩ := (SameBut.refl [R.XB_OUTSTANDING_PEAK m] s).touch (m := m) (by simp)
        refine ⟨hfld, ?_⟩
        conv_lhs => rw [heq]
      exact htouch.trans hsame

end

end Sys2Proof.Machine
end

section
namespace Sys2Proof.Machine

/-! ### The bytes of a transfer (R166) -/

theorem slice_dramRead (m : Mems) (a : Nat) {n off k : Nat} (h : off + k ≤ n) : slice (m.dramRead a n) off k = m.dramRead (a + off) k := by
  obtain ⟨r, rfl⟩ := Nat.exists_eq_add_of_le h
  rw [Nat.add_assoc, Mems.dramRead_add, Mems.dramRead_add, slice, List.drop_append_of_le_length (by rw [Mems.length_dramRead]),
    List.drop_of_length_le (by rw [Mems.length_dramRead]), List.nil_append, List.take_append_of_le_length (by rw [Mems.length_dramRead]),
    List.take_of_length_le (by rw [Mems.length_dramRead])]

/-- The bus words of some bytes carry them in order. -/
theorem flatten_slices (bs : List Byte) (k : Nat) : ((List.range k).map (fun i => slice bs (4 * i) 4)).flatten = bs.take (4 * k) := by
  induction k with
  | zero => simp
  | succ k ih =>
    rw [List.range_succ, List.map_append, List.flatten_append, ih, show 4 * (k + 1) = 4 * k + 4 by ring, List.take_add]
    simp [slice]

theorem flatten_busBeats (bs : List Byte) : (busBeats bs).flatten = bs := by
  rw [busBeats, flatten_slices, List.take_of_length_le]
  unfold ceilDiv
  omega

theorem length_busBeats (bs : List Byte) : (busBeats bs).length = (bs.length + 3) / 4 := by
  rw [busBeats, List.length_map, List.length_range]
  rfl

theorem length_slice (bs : List Byte) (off n : Nat) : (slice bs off n).length = min n (bs.length - off) := by
  rw [slice, List.length_take, List.length_drop]

theorem busBeats_le {bs b : List Byte} (h : b ∈ busBeats bs) : b.length ≤ 4 := by
  obtain ⟨i, -, rfl⟩ := List.mem_map.mp h
  rw [length_slice]
  exact min_le_left _ _

/-- Every bus word but the last is whole. -/
theorem busBeats_full (bs : List Byte) {i : Nat} (h : i + 1 < (busBeats bs).length) : ((busBeats bs).getD i []).length = 4 := by
  rw [length_busBeats] at h
  have hi : i < ceilDiv bs.length 4 := by
    unfold ceilDiv
    omega
  rw [busBeats, List.getD_eq_getElem?_getD, List.getElem?_map, List.getElem?_range hi, Option.map_some, Option.getD_some, length_slice]
  omega

/-- The pieces of one length of which a list is made. -/
theorem slice_flatMap {α : Type} {k : Nat} {f : α → List Byte} (hf : ∀ w, (f w).length = k) :
    ∀ (ws : List α) (j : Nat) (w : α), ws[j]? = some w → slice (ws.flatMap f) (k * j) k = f w
  | [], j, w, h => absurd h (by simp)
  | v :: ws, 0, w, h => by
    obtain rfl : v = w := by simpa using h
    rw [List.flatMap_cons, slice, Nat.mul_zero, List.drop_zero, List.take_append_of_le_length (by rw [hf]), List.take_of_length_le (by rw [hf])]
  | v :: ws, j + 1, w, h => by
    have hrest := slice_flatMap hf ws j w (by simpa using h)
    rw [List.flatMap_cons, slice, show k * (j + 1) = (f v).length + k * j by rw [hf]; ring, List.drop_append]
    rw [slice] at hrest
    simpa [List.drop_of_length_le] using hrest

/-- The bytes of one word outside the core. -/
def dmaWordBytes (pack : Bool) (w : Nat) : List Byte := if pack then leBytes 3 w else leBytes 4 (codeS 32 (ofCodeS 24 w))

theorem length_dmaWordBytes (pack : Bool) (w : Nat) : (dmaWordBytes pack w).length = if pack then 3 else 4 := by
  cases pack <;> rfl

theorem length_dmaBytes (pack : Bool) (ws : List Nat) : (dmaBytes pack ws).length = ws.length * if pack then 3 else 4 := by
  induction ws with
  | nil => simp [dmaBytes]
  | cons w ws ih =>
    have hcons : dmaBytes pack (w :: ws) = dmaWordBytes pack w ++ dmaBytes pack ws := rfl
    rw [hcons, List.length_append, ih, length_dmaWordBytes, List.length_cons]
    ring

end Sys2Proof.Machine
end

section
namespace Sys2Proof.Machine

/-! ### The end of a channel (R166, R210) -/

section
variable {s : State} {g ch : Nat}

/-- The registers in which accesses beyond a region's share are noted (R210). -/
def shareFlds : List Fld := [R.DPL_RT_EXCESS_COUNT, R.DPL_INT_STATUS_RT_EXCESS]

theorem SameBut.withDpl {fs : List Fld} {u t : State} (h : SameBut fs u t) (d : Dpl) : SameBut fs { u with dpl := d } { t with dpl := d } := by
  refine ⟨h.1, ?_⟩
  conv_lhs => rw [h.2]

theorem State.shareUse_sameBut (s : State) (r : RegionRec) (n : Nat) :
    SameBut shareFlds { s with dpl := (s.shareUse r n).dpl } (s.shareUse r n) := by
  obtain ⟨d, hd⟩ : ∃ d, SameBut shareFlds { s with dpl := d } (s.shareUse r n) := by
    refine ⟨{ s.dpl with rtUsed := Tbl.set s.dpl.rtUsed r.region 0 (Tbl.get s.dpl.rtUsed r.region 0 + n) }, ?_⟩
    have hbase := SameBut.refl shareFlds
      { s with dpl := { s.dpl with rtUsed := Tbl.set s.dpl.rtUsed r.region 0 (Tbl.get s.dpl.rtUsed r.region 0 + n) } }
    unfold State.shareUse
    dsimp only
    split
    · exact hbase
    · split
      · exact (hbase.bump _ (by simp [shareFlds])).raise (by simp [shareFlds])
      · exact hbase.bump _ (by simp [shareFlds])
  have hdpl : (s.shareUse r n).dpl = d := (congrArg State.dpl hd.2 :)
  rwa [hdpl]

/-- The accesses of a transfer are counted in the delay pool's registers and shares alone. -/
theorem State.regionAccess_sameBut (s : State) (cl a n : Nat) :
    SameBut shareFlds { s with dpl := (s.regionAccess cl a n).dpl } (s.regionAccess cl a n) := by
  have hfold : ∀ (rs : List RegionRec) (s : State), ∃ d, SameBut shareFlds { s with dpl := d } (rs.foldl (fun s r =>
      let lo := max a r.base
      let k := unitsOf lo (min (a + n) (r.base + r.size) - lo)
      if k = 0 then s else s.shareUse r k) s) := by
    intro rs
    induction rs with
    | nil => exact fun s => ⟨s.dpl, SameBut.refl _ s⟩
    | cons r rs ih =>
      intro s
      rw [List.foldl_cons]
      dsimp only
      split
      · exact ih s
      · obtain ⟨d, hd⟩ := ih (s.shareUse r (unitsOf (max a r.base) (min (a + n) (r.base + r.size) - max a r.base)))
        exact ⟨d, ((s.shareUse_sameBut r _).withDpl d).trans hd⟩
  obtain ⟨d, hd⟩ : ∃ d, SameBut shareFlds { s with dpl := d } (s.regionAccess cl a n) := by
    unfold State.regionAccess
    split
    · exact ⟨s.dpl, SameBut.refl _ s⟩
    · exact hfold _ s
  have hdpl : (s.regionAccess cl a n).dpl = d := (congrArg State.dpl hd.2 :)
  rwa [hdpl]

/-- What an access leaves of the memories, the cores and the registers of the clusters. -/
theorem State.regionAccess_keeps (s : State) (cl a n : Nat) : (s.regionAccess cl a n).mem = s.mem ∧ (s.regionAccess cl a n).mal = s.mal ∧
    ∀ f : Fld, 0x14800000 ≤ f.addr → (s.regionAccess cl a n).fld f = s.fld f := by
  have h := s.regionAccess_sameBut cl a n
  refine ⟨(congrArg State.mem h.2 :), h.mal, fun f hf => h.1 f ?_⟩
  simp only [shareFlds, List.forall_mem_cons, List.not_mem_nil, false_implies, implies_true, and_true, Fld.key]
  omega

/-- A source that is raised leaves memories and channels alone. -/
theorem raiseSource_keeps {src : Nat} (hsrc : src < 16) : (s.raiseSource g src).mem = s.mem ∧ (s.raiseSource g src).mal.data = s.mal.data ∧
    ((s.raiseSource g src).core g).dma = (s.core g).dma := by
  obtain ⟨-, hwoken, -, hsources⟩ := raiseSource_shows (s := s) (g := g) hsrc
  refine ⟨(congrArg State.mem hsources.2 :), (congrArg (fun t : State => t.mal.data) hsources.2 :), ?_⟩
  by_cases hw : s.wakes g src
  · rw [(hwoken hw).1]
  · rw [raiseSource_quiet hw, State.core_pendSource]

theorem find_erased (u : State) : Tbl.find ch ((u.setCore g { u.core g with dma := Tbl.erase ch (u.core g).dma }).core g).dma = none := by
  rw [State.core_setCore_same]
  exact Tbl.find_erase_same ..

/-- A channel ends with DONE. -/
theorem State.dmaEnd_done (u : State) (hch : ch < 4) (left : Nat) : let t := u.dmaEnd g ch false left
    t.fld (R.CCR_DMA_STATUS_BUSY g ch) = 0 ∧ t.fld (R.CCR_DMA_STATUS_DONE g ch) = 1 ∧ t.fld (R.CCR_DMA_STATUS_REMAIN g ch) = left % 2 ^ 17 ∧
      bit (t.fld (R.CCR_INT_PEND_PEND g)) ch = 1 ∧ Tbl.find ch (t.core g).dma = none ∧ t.mem = u.mem ∧ t.mal.data = u.mal.data := by
  have hsrc : ch < 16 := by omega
  intro t
  have ht : t = ((((u.setCore g { u.core g with dma := Tbl.erase ch (u.core g).dma }).setFld (R.CCR_DMA_STATUS_BUSY g ch) 0).setFld
    (R.CCR_DMA_STATUS_REMAIN g ch) left).setFld (R.CCR_DMA_STATUS_DONE g ch) 1).raiseSource g ch := rfl
  generalize hv : (((u.setCore g { u.core g with dma := Tbl.erase ch (u.core g).dma }).setFld (R.CCR_DMA_STATUS_BUSY g ch) 0).setFld
    (R.CCR_DMA_STATUS_REMAIN g ch) left).setFld (R.CCR_DMA_STATUS_DONE g ch) 1 = v at ht
  obtain ⟨hbit, -, -, hsources⟩ := raiseSource_shows (s := v) (g := g) hsrc
  obtain ⟨hmem, hdata, hdma⟩ := raiseSource_keeps (s := v) (g := g) hsrc
  have hkept : ∀ f : Fld, (∀ k ∈ cycleFlds g, f.key ≠ k.key) → t.fld f = v.fld f := fun f hf => ht ▸ hsources.fld hf
  have hother : ∀ f ∈ [R.CCR_DMA_STATUS_BUSY g ch, R.CCR_DMA_STATUS_DONE g ch, R.CCR_DMA_STATUS_REMAIN g ch], ∀ k ∈ cycleFlds g, f.key ≠ k.key := by
    simp only [cycleFlds, List.forall_mem_cons, List.not_mem_nil, false_implies, implies_true, and_true, Fld.key]
    omega
  refine ⟨?_, ?_, ?_, ht ▸ hbit, ?_, ht ▸ hmem.trans (hv ▸ rfl), ht ▸ hdata.trans (hv ▸ rfl)⟩
  · rw [hkept _ (hother _ (by simp)), ← hv, State.fld_setFld_ne _ _ (by simp only [Fld.key]; omega),
      State.fld_setFld_ne _ _ (by simp only [Fld.key]; omega), State.fld_setFld_same, Nat.zero_mod]
  · rw [hkept _ (hother _ (by simp)), ← hv, State.fld_setFld_same]
    rfl
  · rw [hkept _ (hother _ (by simp)), ← hv, State.fld_setFld_ne _ _ (by simp only [Fld.key]; omega), State.fld_setFld_same]
  · rw [ht, hdma, ← hv]
    exact find_erased u

/-- A channel ends with ERR. -/
theorem State.dmaEnd_failed (u : State) (hch : ch < 4) (left : Nat) : let t := u.dmaEnd g ch true left
    t.fld (R.CCR_DMA_STATUS_BUSY g ch) = 0 ∧ t.fld (R.CCR_DMA_STATUS_ERR g ch) = 1 ∧ t.fld (R.CCR_DMA_STATUS_REMAIN g ch) = left % 2 ^ 17 ∧
      bit (t.fld (R.CCR_INT_PEND_PEND g)) 4 = 1 ∧
      t.fld (R.MAL_CL_DMA_ERR_COUNT_COUNT (g / 16)) = min (u.fld (R.MAL_CL_DMA_ERR_COUNT_COUNT (g / 16)) + 1) (2 ^ 32 - 1) ∧
      bit (t.fld (R.MAL_CL_INT_STATUS_DMA_ERR (g / 16))) 0 = 1 ∧ t.mem = u.mem ∧ t.mal.data = u.mal.data := by
  intro t
  have ht : t = (((((u.setCore g { u.core g with dma := Tbl.erase ch (u.core g).dma }).setFld (R.CCR_DMA_STATUS_BUSY g ch) 0).setFld
    (R.CCR_DMA_STATUS_REMAIN g ch) left).setFld (R.CCR_DMA_STATUS_ERR g ch) 1).raiseSource g 4).countAndRaise
      (R.MAL_CL_DMA_ERR_COUNT_COUNT (g / 16)) (R.MAL_CL_INT_STATUS_DMA_ERR (g / 16)) := rfl
  generalize hv : (((u.setCore g { u.core g with dma := Tbl.erase ch (u.core g).dma }).setFld (R.CCR_DMA_STATUS_BUSY g ch) 0).setFld
    (R.CCR_DMA_STATUS_REMAIN g ch) left).setFld (R.CCR_DMA_STATUS_ERR g ch) 1 = v at ht
  obtain ⟨hbit, -, -, hsources⟩ := raiseSource_shows (s := v) (g := g) (show 4 < 16 by omega)
  obtain ⟨hmem, hdata, -⟩ := raiseSource_keeps (s := v) (g := g) (show 4 < 16 by omega)
  have hkept : ∀ f ∈ [R.CCR_DMA_STATUS_BUSY g ch, R.CCR_DMA_STATUS_ERR g ch, R.CCR_DMA_STATUS_REMAIN g ch], t.fld f = v.fld f := by
    intro f hf
    rw [ht, State.fld_countAndRaise_ne]
    · refine hsources.fld ?_
      revert f
      simp only [cycleFlds, List.forall_mem_cons, List.not_mem_nil, false_implies, implies_true, and_true, Fld.key]
      omega
    · revert f
      simp only [List.forall_mem_cons, List.not_mem_nil, false_implies, implies_true, and_true, Fld.key]
      omega
    · revert f
      simp only [List.forall_mem_cons, List.not_mem_nil, false_implies, implies_true, and_true, Fld.key]
      omega
  refine ⟨?_, ?_, ?_, ?_, ?_, ?_, ?_, ?_⟩
  · rw [hkept _ (by simp), ← hv, State.fld_setFld_ne _ _ (by simp only [Fld.key]; omega),
      State.fld_setFld_ne _ _ (by simp only [Fld.key]; omega), State.fld_setFld_same, Nat.zero_mod]
  · rw [hkept _ (by simp), ← hv, State.fld_setFld_same]
    rfl
  · rw [hkept _ (by simp), ← hv, State.fld_setFld_ne _ _ (by simp only [Fld.key]; omega), State.fld_setFld_same]
  · rw [ht, State.fld_countAndRaise_ne _ (by simp only [Fld.key]; omega) (by simp only [Fld.key]; omega)]
    exact hbit
  · rw [ht, State.fld_countAndRaise_count _ (by simp only [Fld.key]; omega), hsources.fld (by
      simp only [cycleFlds, List.forall_mem_cons, List.not_mem_nil, false_implies, implies_true, and_true, Fld.key]; omega), ← hv,
      State.fld_setFld_ne _ _ (by simp only [Fld.key]; omega), State.fld_setFld_ne _ _ (by simp only [Fld.key]; omega),
      State.fld_setFld_ne _ _ (by simp only [Fld.key]; omega), State.fld_setCore]
  · rw [ht]
    exact State.fld_countAndRaise_flag _ Nat.one_pos
  · rw [ht, State.countAndRaise_mem, hmem, ← hv]
    rfl
  · rw [ht, State.countAndRaise_mal, hdata, ← hv]
    rfl

end

end Sys2Proof.Machine
end

section
namespace Sys2Proof.Machine

/-! ### A channel from GO to its end (R166) -/

section
variable {s : State} {g ch : Nat}

theorem bits_word_count (v : Nat) : bits v 15 0 = v % 65536 := by simp [bits]

/-- A write of DMA_CTRL with GO starts a channel that is not busy. -/
theorem dmaStart_shows {v : Word} (hgo : bit v.toNat 31 = 1) (hidle : s.fld (R.CCR_DMA_STATUS_BUSY g ch) = 0) :
    Gives (.dmaStart g ch v) s (fun t => t.fld (R.CCR_DMA_STATUS_BUSY g ch) = 1 ∧ t.fld (R.CCR_DMA_STATUS_REMAIN g ch) = v.toNat % 65536 + 1 ∧
      Tbl.find ch (t.core g).dma = some ⟨s.fld (R.CCR_DMA_LOCAL_WORD g ch), s.fld (R.CCR_DMA_EXT_ADDR g ch), bit v.toNat 30 == 1,
        bit v.toNat 29 == 1, v.toNat % 65536 + 1⟩ ∧ t.mem = s.mem ∧ t.mal.data = s.mal.data) := by
  refine ⟨s.dmaCtrlWrite g ch v.toNat, rfl, ?_⟩
  unfold State.dmaCtrlWrite
  rw [if_pos ⟨hgo, hidle⟩, bits_word_count]
  refine ⟨?_, ?_, ?_, rfl, rfl⟩
  · rw [State.fld_setFld_ne _ _ (by simp only [Fld.key]; omega), State.fld_setFld_same]
    rfl
  · rw [State.fld_setFld_same]
    exact Nat.mod_eq_of_lt (show v.toNat % 65536 + 1 < 2 ^ 17 by omega)
  · rw [State.core_setFld, State.core_setFld, State.core_setCore_same]
    dsimp only
    rw [Tbl.find_put_same, State.fld_setFld_ne _ _ (by simp only [Fld.key]; omega), State.fld_setFld_ne _ _ (by simp only [Fld.key]; omega),
      State.fld_setFld_ne _ _ (by simp only [Fld.key]; omega), State.fld_setFld_ne _ _ (by simp only [Fld.key]; omega),
      State.fld_setFld_ne _ _ (by simp only [Fld.key]; omega), State.fld_setFld_ne _ _ (by simp only [Fld.key]; omega)]

/-- The bytes of one word of a transfer. -/
def Dma.size (d : Dma) : Nat := if d.pack then 3 else 4

theorem Dma.size_bounds (d : Dma) : 3 ≤ d.size ∧ d.size ≤ 4 := by
  unfold Dma.size
  split <;> omega

theorem leNat_lt_pow (bs : List Byte) : leNat bs < 256 ^ bs.length := by
  have h := leNat_leBytes bs.length (leNat bs)
  rw [leBytes_leNat] at h
  rw [h]
  exact Nat.mod_lt _ (by positivity)

theorem leAt_three_lt (bs : List Byte) (off : Nat) : leAt bs off 3 < 2 ^ 24 := by
  have hlen : (slice bs off 3).length ≤ 3 := by
    rw [length_slice]
    exact min_le_left _ _
  calc leAt bs off 3 < 256 ^ (slice bs off 3).length := leNat_lt_pow _
    _ ≤ 256 ^ 3 := Nat.pow_le_pow_right (by omega) hlen

/-- The words of a transfer into the core, one by one. -/
theorem getD_dmaWords (d : Dma) {n j : Nat} (bs : List Byte) (hj : j < n) : (dmaWords d.pack n bs).getD j 0 = leAt bs (d.size * j) 3 := by
  unfold dmaWords Dma.size
  rw [List.getD_eq_getElem?_getD, List.getElem?_map, List.getElem?_range hj]
  cases d.pack <;> rfl

theorem length_dmaWords (pack : Bool) (n : Nat) (bs : List Byte) : (dmaWords pack n bs).length = n := by
  simp [dmaWords]

theorem leAt_dramRead (m : Mems) (a off : Nat) {n k : Nat} (h : off + k ≤ n) : leAt (m.dramRead a n) off k = leNat (m.dramRead (a + off) k) := by
  rw [leAt, slice_dramRead m a h]

/-- A transfer whose words are each admitted, or each refused, does not wait. -/
theorem dmaHeld_eq_false {m : Nat} {d : Dma} {n : Nat} (h : ∀ i < (n + 3) / 4, s.passage m (d.ext + 4 * i) ≠ .held ∧
    s.passage m (d.ext + 4 * i) ≠ .stopped) : s.dmaHeld m d n = false := by
  unfold State.dmaHeld
  rw [List.any_eq_false]
  intro i hi
  obtain ⟨hheld, hstopped⟩ := h i (List.mem_range.mp hi)
  simp [hheld, hstopped]

end

end Sys2Proof.Machine
end

section
namespace Sys2Proof.Machine

/-- The bytes that a transfer asked of its target when `moved` of them came, with the failed bus word where the port let it through. -/
def State.dmaAsked (s : State) (m : Nat) (d : Dma) (moved : Nat) (ok : Bool) : Nat :=
  if ok then d.count * d.size else moved + if s.passage m (d.ext + moved) = .forwarded then 4 else 0

section
variable {s : State} {g ch : Nat} {d : Dma}

/-- A transfer into the core that does not wait: its bus words, its words in local memory, and its end. -/
theorem dmaRun_in {bs : List Byte} {ok : Bool} {p : State → Prop} (hheld : s.dmaHeld (6 + g / 16) d (d.count * d.size) = false)
    (hdir : d.toExt = false)
    (hin : ∀ ext full, ∃ u, s.dmaIn (6 + g / 16) d.ext ext full (ceilDiv (d.count * d.size) 4) = (bs, ok, u) ∧ p u) (resp : FetchResp) :
    ∃ u k, p u ∧ s.dmaRun g ch d resp = ((u.regionAccess (g / 16) d.ext k).putData g d.local0
      (dmaWords d.pack (min d.count (bs.length / d.size)) bs)).dmaEnd g ch (!ok) (d.count - min d.count (bs.length / d.size)) := by
  obtain ⟨ext, full, hrun⟩ : ∃ ext full, let r := s.dmaIn (6 + g / 16) d.ext ext full (ceilDiv (d.count * d.size) 4)
      s.dmaRun g ch d resp = ((r.2.2.regionAccess (g / 16) d.ext (s.dmaAsked (6 + g / 16) d r.1.length r.2.1)).putData g d.local0
        (dmaWords d.pack (min d.count (r.1.length / d.size)) r.1)).dmaEnd g ch (!r.2.1) (d.count - min d.count (r.1.length / d.size)) := by
    refine ⟨match resp with | .data bs => bs | .error => [], match resp with | .data _ => true | .error => false, ?_⟩
    unfold State.dmaAsked
    unfold Dma.size at hheld ⊢
    unfold State.dmaRun
    simp only [hheld, hdir, Bool.false_eq_true, if_false] <;> rfl
  obtain ⟨u, hu, hp⟩ := hin ext full
  simp only [hu] at hrun
  exact ⟨u, _, hp, hrun⟩

/-- The words of local memory that a transfer out of the core moves. -/
def Dma.words (s : State) (g : Nat) (d : Dma) : List Nat := (List.range d.count).map (fun j => s.dataWord g (d.local0 + j))

theorem length_words : (Dma.words s g d).length = d.count := by simp [Dma.words]

/-- A transfer out of the core that does not wait. -/
theorem dmaRun_out {k : Nat} {ok : Bool} {u : State} (hheld : s.dmaHeld (6 + g / 16) d (d.count * d.size) = false) (hdir : d.toExt = true)
    (hout : s.dmaOut (6 + g / 16) d.ext (busBeats (dmaBytes d.pack (Dma.words s g d))) = (k, ok, u)) (resp : FetchResp) :
    ∃ n, s.dmaRun g ch d resp = (u.regionAccess (g / 16) d.ext n).dmaEnd g ch (!ok) (if ok then 0 else d.count - 4 * k / d.size) := by
  refine ⟨s.dmaAsked (6 + g / 16) d (4 * k) ok, ?_⟩
  unfold State.dmaAsked
  unfold Dma.size at hheld ⊢
  unfold Dma.words at hout
  unfold State.dmaRun
  simp only [hheld, hdir, Bool.false_eq_true, if_false, if_true, hout]

theorem dmaComplete_eq (hd : Tbl.find ch (s.core g).dma = some d) (resp : FetchResp) :
    exec (.dmaComplete g ch resp) s = .next (s.dmaRun g ch d resp) := by
  have h : exec (.dmaComplete g ch resp) s = match Tbl.find ch (s.core g).dma with
    | none => .next s
    | some d => .next (s.dmaRun g ch d resp) := rfl
  rw [h, hd]

/-- The bytes of a word, as a transfer out of the core carries it. -/
theorem slice_dmaBytes {j : Nat} (hj : j < d.count) : slice (dmaBytes d.pack (Dma.words s g d)) (d.size * j) d.size =
    dmaWordBytes d.pack (s.dataWord g (d.local0 + j)) := by
  have hw : (Dma.words s g d)[j]? = some (s.dataWord g (d.local0 + j)) := by
    rw [Dma.words, List.getElem?_map, List.getElem?_range hj, Option.map_some]
  exact slice_flatMap (f := dmaWordBytes d.pack) (fun w => length_dmaWordBytes _ w) _ _ _ hw

/-- The registers that the end of a channel shows. -/
def State.dmaEnded (t : State) (g ch : Nat) : Prop := t.fld (R.CCR_DMA_STATUS_BUSY g ch) = 0 ∧ t.fld (R.CCR_DMA_STATUS_DONE g ch) = 1 ∧
  t.fld (R.CCR_DMA_STATUS_REMAIN g ch) = 0 ∧ bit (t.fld (R.CCR_INT_PEND_PEND g)) ch = 1 ∧ Tbl.find ch (t.core g).dma = none

theorem dmaEnd_ended (u : State) (hch : ch < 4) : (u.dmaEnd g ch false 0).dmaEnded g ch ∧ (u.dmaEnd g ch false 0).mem = u.mem ∧
    (u.dmaEnd g ch false 0).mal.data = u.mal.data := by
  obtain ⟨hbusy, hdone, hremain, hpend, hfind, hmem, hdata⟩ := u.dmaEnd_done (g := g) hch 0
  exact ⟨⟨hbusy, hdone, hremain.trans (Nat.zero_mod _), hpend, hfind⟩, hmem, hdata⟩

theorem State.dataWord_congr {s t : State} (h : t.mal.data = s.mal.data) (g w : Nat) : t.dataWord g w = s.dataWord g w := by
  rw [State.dataWord, h, State.dataWord]

/-- A transfer into the core brings its words. -/
theorem dmaComplete_in (hg : g < 64) (hch : ch < 4) (hd : Tbl.find ch (s.core g).dma = some d) (hdir : d.toExt = false)
    (hlocal : d.local0 + d.count ≤ 0x10000) (hplain : PlainDram s d.ext (4 * ((d.size * d.count + 3) / 4)))
    (hthrough : ∀ i < (d.size * d.count + 3) / 4, Through s (6 + g / 16) (d.ext + 4 * i)) (resp : FetchResp) :
    ∃ t, exec (.dmaComplete g ch resp) s = .next t ∧ t.dmaEnded g ch ∧ t.mem = s.mem ∧
      ∀ j < d.count, t.dataWord g (d.local0 + j) = leAt (s.mem.dramRead d.ext (d.size * d.count)) (d.size * j) 3 := by
  obtain ⟨hlow, hhigh⟩ := d.size_bounds
  have hheld : s.dmaHeld (6 + g / 16) d (d.count * d.size) = false := by
    refine dmaHeld_eq_false fun i hi => ?_
    rw [Nat.mul_comm] at hi
    obtain ⟨-, hpass, -⟩ := hthrough i hi
    rw [hpass]
    exact ⟨nofun, nofun⟩
  have hbeats : ceilDiv (d.count * d.size) 4 = (d.size * d.count + 3) / 4 := by
    rw [Nat.mul_comm]
    rfl
  generalize hk : (d.size * d.count + 3) / 4 = k at *
  have hcover : d.size * d.count ≤ 4 * k := by omega
  obtain ⟨u, n, hu, hrun⟩ := dmaRun_in (ch := ch) (p := fun u => u.mem = s.mem) (bs := s.mem.dramRead d.ext (4 * k)) (ok := true) hheld hdir (fun ext full => by
    obtain ⟨u, hu, hmem, -⟩ := State.dmaIn_plain (by omega) full k s d.ext ext hplain hthrough
    exact ⟨u, hbeats ▸ hu, hmem⟩) resp
  have hmoved : min d.count ((s.mem.dramRead d.ext (4 * k)).length / d.size) = d.count := by
    rw [Mems.length_dramRead]
    refine min_eq_left ((Nat.le_div_iff_mul_le (by omega)).mpr ?_)
    rwa [Nat.mul_comm]
  rw [hmoved, Nat.sub_self, Bool.not_true] at hrun
  obtain ⟨hregion, -, -⟩ := u.regionAccess_keeps (g / 16) d.ext n
  obtain ⟨data, hput⟩ := State.putData_eq g (dmaWords d.pack d.count (s.mem.dramRead d.ext (4 * k))) (u.regionAccess (g / 16) d.ext n) d.local0
  obtain ⟨hended, hmem, hdata⟩ := dmaEnd_ended (g := g) ((u.regionAccess (g / 16) d.ext n).putData g d.local0
    (dmaWords d.pack d.count (s.mem.dramRead d.ext (4 * k)))) hch
  refine ⟨_, (dmaComplete_eq hd resp).trans (congrArg _ hrun), hended, ?_, fun j hj => ?_⟩
  · rw [hmem, hput]
    exact hregion.trans hu
  · have hword : d.size * j + d.size ≤ d.size * d.count := by
      rw [← Nat.mul_succ]
      exact Nat.mul_le_mul_left _ hj
    rw [State.dataWord_congr hdata, State.dataWord_putData _ _ _ _ (by rw [length_dmaWords]; exact hlocal) _ (by rw [length_dmaWords]; exact hj),
      getD_dmaWords _ _ hj, Nat.mod_eq_of_lt (leAt_three_lt _ _), leAt_dramRead _ _ _ (by omega), leAt_dramRead _ _ _ (by omega)]

/-- A transfer out of the core writes its words, and nothing beside them. -/
theorem dmaComplete_out (hg : g < 64) (hch : ch < 4) (hd : Tbl.find ch (s.core g).dma = some d) (hdir : d.toExt = true)
    (hplain : PlainDram s d.ext (4 * ((d.size * d.count + 3) / 4)))
    (hthrough : ∀ i < (d.size * d.count + 3) / 4, Through s (6 + g / 16) (d.ext + 4 * i)) (resp : FetchResp) :
    ∃ t, exec (.dmaComplete g ch resp) s = .next t ∧ t.dmaEnded g ch ∧ t.mal.data = s.mal.data ∧
      (∀ j < d.count, t.mem.dramRead (d.ext + d.size * j) d.size = dmaWordBytes d.pack (s.dataWord g (d.local0 + j))) ∧
      ∀ x, x < d.ext ∨ d.ext + d.size * d.count ≤ x → t.mem.dramByte x = s.mem.dramByte x := by
  have hheld : s.dmaHeld (6 + g / 16) d (d.count * d.size) = false := by
    refine dmaHeld_eq_false fun i hi => ?_
    rw [Nat.mul_comm] at hi
    obtain ⟨-, hpass, -⟩ := hthrough i hi
    rw [hpass]
    exact ⟨nofun, nofun⟩
  have hlen : (dmaBytes d.pack (Dma.words s g d)).length = d.size * d.count := by
    rw [length_dmaBytes, length_words, Nat.mul_comm]
    rfl
  have hbeats : (busBeats (dmaBytes d.pack (Dma.words s g d))).length = (d.size * d.count + 3) / 4 := by rw [length_busBeats, hlen]
  obtain ⟨u, hout, hstored, hsame⟩ := State.dmaOut_plain (m := 6 + g / 16) (by omega) (busBeats (dmaBytes d.pack (Dma.words s g d))) s d.ext
    (fun _ hb => busBeats_le hb) (fun _ hi => busBeats_full _ hi) (by rwa [hbeats]) (by rwa [hbeats])
  rw [flatten_busBeats] at hstored
  obtain ⟨n, hrun⟩ := dmaRun_out (ch := ch) hheld hdir hout resp
  rw [if_pos rfl, Bool.not_true] at hrun
  obtain ⟨hregion, hmal, -⟩ := u.regionAccess_keeps (g / 16) d.ext n
  obtain ⟨hended, hmem, hdata⟩ := dmaEnd_ended (g := g) (u.regionAccess (g / 16) d.ext n) hch
  rw [hregion] at hmem
  refine ⟨_, (dmaComplete_eq hd resp).trans (congrArg _ hrun), hended, ?_, fun j hj => ?_, fun x hx => ?_⟩
  · rw [hdata, hmal, hsame.mal]
  · have hword : d.size * j + d.size ≤ d.size * d.count := by
      rw [← Nat.mul_succ]
      exact Nat.mul_le_mul_left _ hj
    have hread := hstored.read
    rw [hlen] at hread
    rw [hmem, ← slice_dramRead _ _ hword, hread, slice_dmaBytes hj]
  · rw [hmem]
    refine hstored.outside ?_
    rwa [List.length_map, hlen]

/-- A transfer whose first request is refused moves nothing and ends with ERR. -/
theorem dmaComplete_refused (hd : Tbl.find ch (s.core g).dma = some d) (hcount : 0 < d.count) (hq : s.hif.queue = [])
    (hrefused : ∀ i < (d.size * d.count + 3) / 4, s.passage (6 + g / 16) (d.ext + 4 * i) = .refused) (resp : FetchResp) :
    ∃ u : State, exec (.dmaComplete g ch resp) s = .next (u.dmaEnd g ch true d.count) ∧ u.mem = s.mem ∧ u.mal.data = s.mal.data ∧
      ∀ f : Fld, 0x14800000 ≤ f.addr → u.fld f = s.fld f := by
  obtain ⟨hlow, -⟩ := d.size_bounds
  have hsize : 3 ≤ d.size * d.count := hlow.trans (Nat.le_mul_of_pos_right _ hcount)
  have hheld : s.dmaHeld (6 + g / 16) d (d.count * d.size) = false := by
    refine dmaHeld_eq_false fun i hi => ?_
    rw [Nat.mul_comm] at hi
    rw [hrefused i hi]
    exact ⟨nofun, nofun⟩
  have hreach : s.reach (6 + g / 16) d.ext = (.refused, s) := by
    have hfirst := hrefused 0 (by omega)
    rw [Nat.mul_zero, Nat.add_zero] at hfirst
    simp [State.reach, hq, hfirst]
  by_cases hdir : d.toExt = true
  · have hout : s.dmaOut (6 + g / 16) d.ext (busBeats (dmaBytes d.pack (Dma.words s g d))) = (0, false, s) := by
      have hlen : (busBeats (dmaBytes d.pack (Dma.words s g d))).length = (d.size * d.count + 3) / 4 := by
        rw [length_busBeats, length_dmaBytes, length_words, Nat.mul_comm]
        rfl
      generalize busBeats (dmaBytes d.pack (Dma.words s g d)) = bs at hlen
      cases bs with
      | nil => rw [List.length_nil] at hlen; omega
      | cons b bs => rw [State.dmaOut, hreach]; simp
    obtain ⟨n, hrun⟩ := dmaRun_out (ch := ch) hheld hdir hout resp
    rw [if_neg Bool.false_ne_true, Nat.mul_zero, Nat.zero_div, Nat.sub_zero] at hrun
    obtain ⟨hmem, hmal, hfld⟩ := s.regionAccess_keeps (g / 16) d.ext n
    exact ⟨_, (dmaComplete_eq hd resp).trans (congrArg _ hrun), hmem, by rw [hmal], hfld⟩
  · have hin : ∀ ext full, s.dmaIn (6 + g / 16) d.ext ext full (ceilDiv (d.count * d.size) 4) = ([], false, s) := by
      intro ext full
      have hbeats : ceilDiv (d.count * d.size) 4 = (d.size * d.count + 3) / 4 - 1 + 1 := by
        rw [Nat.mul_comm, Nat.sub_add_cancel (by omega)]
        rfl
      rw [hbeats, State.dmaIn, hreach]
      simp
    obtain ⟨u, n, rfl, hrun⟩ := dmaRun_in (ch := ch) (p := (· = s)) hheld (Bool.not_eq_true _ ▸ hdir) (fun ext full => ⟨s, hin ext full, rfl⟩) resp
    rw [List.length_nil, Nat.zero_div, Nat.min_zero, Nat.sub_zero] at hrun
    obtain ⟨hmem, hmal, hfld⟩ := u.regionAccess_keeps (g / 16) d.ext n
    exact ⟨_, (dmaComplete_eq hd resp).trans (congrArg _ hrun), hmem, by rw [← hmal]; rfl, hfld⟩

end

end Sys2Proof.Machine
end

section
namespace Sys2Proof.Machine

section
variable {s : State} {g ch : Nat} {d : Dma}

/-- The end of a transfer whose words all go through their port. -/
theorem dmaComplete_shows (hg : g < 64) (hch : ch < 4) (hd : Tbl.find ch (s.core g).dma = some d) (hlocal : d.local0 + d.count ≤ 0x10000)
    (hplain : PlainDram s d.ext (4 * ((d.size * d.count + 3) / 4)))
    (hthrough : ∀ i < (d.size * d.count + 3) / 4, Through s (6 + g / 16) (d.ext + 4 * i)) (resp : FetchResp) :
    Gives (.dmaComplete g ch resp) s (fun t => t.fld (R.CCR_DMA_STATUS_BUSY g ch) = 0 ∧ t.fld (R.CCR_DMA_STATUS_DONE g ch) = 1 ∧
      t.fld (R.CCR_DMA_STATUS_REMAIN g ch) = 0 ∧ bit (t.fld (R.CCR_INT_PEND_PEND g)) ch = 1 ∧ Tbl.find ch (t.core g).dma = none ∧
      (d.toExt = false → t.mem = s.mem ∧ ∀ j < d.count, t.dataWord g (d.local0 + j) =
        leAt (s.mem.dramRead d.ext (d.size * d.count)) (d.size * j) 3) ∧
      (d.toExt = true → t.mal.data = s.mal.data ∧ (∀ j < d.count, t.mem.dramRead (d.ext + d.size * j) d.size =
          if d.pack then leBytes 3 (s.dataWord g (d.local0 + j)) else leBytes 4 (codeS 32 (ofCodeS 24 (s.dataWord g (d.local0 + j))))) ∧
        ∀ x, x < d.ext ∨ d.ext + d.size * d.count ≤ x → t.mem.dramByte x = s.mem.dramByte x)) := by
  cases hdir : d.toExt with
  | false =>
    obtain ⟨t, hexec, ⟨hbusy, hdone, hremain, hpend, hfind⟩, hmem, hwords⟩ := dmaComplete_in hg hch hd hdir hlocal hplain hthrough resp
    exact ⟨t, hexec, hbusy, hdone, hremain, hpend, hfind, fun _ => ⟨hmem, hwords⟩, nofun⟩
  | true =>
    obtain ⟨t, hexec, ⟨hbusy, hdone, hremain, hpend, hfind⟩, hdata, hwords, hrest⟩ := dmaComplete_out hg hch hd hdir hplain hthrough resp
    exact ⟨t, hexec, hbusy, hdone, hremain, hpend, hfind, nofun, fun _ => ⟨hdata, hwords, hrest⟩⟩

/-- The end of a transfer whose port refuses it. -/
theorem dmaComplete_fails (hch : ch < 4) (hd : Tbl.find ch (s.core g).dma = some d) (hcount : 0 < d.count)
    (hq : s.hif.queue = []) (hrefused : ∀ i < (d.size * d.count + 3) / 4, s.passage (6 + g / 16) (d.ext + 4 * i) = .refused)
    (resp : FetchResp) :
    Gives (.dmaComplete g ch resp) s (fun t => t.fld (R.CCR_DMA_STATUS_BUSY g ch) = 0 ∧ t.fld (R.CCR_DMA_STATUS_ERR g ch) = 1 ∧
      t.fld (R.CCR_DMA_STATUS_REMAIN g ch) = d.count % 2 ^ 17 ∧ bit (t.fld (R.CCR_INT_PEND_PEND g)) 4 = 1 ∧
      t.fld (R.MAL_CL_DMA_ERR_COUNT_COUNT (g / 16)) = min (s.fld (R.MAL_CL_DMA_ERR_COUNT_COUNT (g / 16)) + 1) (2 ^ 32 - 1) ∧
      bit (t.fld (R.MAL_CL_INT_STATUS_DMA_ERR (g / 16))) 0 = 1 ∧ t.mem = s.mem ∧ t.mal.data = s.mal.data) := by
  obtain ⟨u, hexec, hmem, hdata, hfld⟩ := dmaComplete_refused hd hcount hq hrefused resp
  obtain ⟨hbusy, herr, hremain, hpend, herrs, hflag, hmem', hdata'⟩ := u.dmaEnd_failed (g := g) hch d.count
  have haddr : 0x14800000 ≤ (R.MAL_CL_DMA_ERR_COUNT_COUNT (g / 16)).addr := by
    show 0x14800000 ≤ _ + _
    omega
  exact ⟨_, hexec, hbusy, herr, hremain, hpend, hfld _ haddr ▸ herrs, hflag, hmem'.trans hmem, hdata'.trans hdata⟩

end

end Sys2Proof.Machine
end

section
namespace Sys2Proof.Machine

/-! ### Parameter words (R170, R171) -/

/-- Words of other cores, and words that none of the writes names, stay. -/
theorem State.dataWord_foldl_setData_ne {g h x : Nat} : ∀ (ws : List (Nat × Nat)) (s : State),
    (∀ w ∈ ws, h ≠ g ∨ x % 65536 ≠ w.1 % 65536) → (ws.foldl (fun s w => s.setData g w.1 w.2) s).dataWord h x = s.dataWord h x
  | [], _, _ => rfl
  | w :: ws, s, hne => by
    obtain ⟨hw, hws⟩ := List.forall_mem_cons.mp hne
    rw [List.foldl_cons, State.dataWord_foldl_setData_ne ws _ hws]
    exact Tbl.get_set_ne _ _ _ _ (by omega)

/-- Each of the words that are written reads as written, where no two of them are one. -/
theorem State.dataWord_foldl_setData_mem {g : Nat} {v : Nat × Nat} : ∀ (ws : List (Nat × Nat)) (s : State),
    ws.Pairwise (fun v w => v.1 % 65536 ≠ w.1 % 65536) → v ∈ ws →
      (ws.foldl (fun s w => s.setData g w.1 w.2) s).dataWord g v.1 = v.2 % 2 ^ 24
  | [], _, _, hv => absurd hv List.not_mem_nil
  | w :: ws, s, hpair, hv => by
    obtain ⟨hfirst, hrest⟩ := List.pairwise_cons.mp hpair
    rw [List.foldl_cons]
    obtain rfl | hv := List.mem_cons.mp hv
    · rw [State.dataWord_foldl_setData_ne ws _ fun w hw => .inr (hfirst w hw), State.dataWord_setData_same]
    · exact State.dataWord_foldl_setData_mem ws _ hrest hv

theorem State.foldl_setData_eq (g : Nat) : ∀ (ws : List (Nat × Nat)) (s : State),
    ∃ d, ws.foldl (fun s w => s.setData g w.1 w.2) s = { s with mal := { s.mal with data := d } }
  | [], s => ⟨s.mal.data, rfl⟩
  | w :: ws, s => by
    obtain ⟨d, hd⟩ := State.foldl_setData_eq g ws (s.setData g w.1 w.2)
    exact ⟨d, hd⟩

section
variable {s : State} {g count start : Nat} {values : List Word}

/-- The words that a PARAM_SET writes. -/
def paramWords (count start : Nat) (values : List Word) : List (Nat × Nat) :=
  (List.range count).map (fun j => (start + j, (values.getD j 0).toNat % 2 ^ 24))

theorem length_paramWords : (paramWords count start values).length = count := by simp [paramWords]

theorem mem_paramWords {w : Nat × Nat} (h : w ∈ paramWords count start values) : start ≤ w.1 ∧ w.1 < start + count := by
  obtain ⟨j, hj, rfl⟩ := List.mem_map.mp h
  have := List.mem_range.mp hj
  exact ⟨Nat.le_add_right _ _, by dsimp only; omega⟩

theorem pairwise_paramWords (hend : start + count ≤ 0x10000) :
    (paramWords count start values).Pairwise (fun v w => v.1 % 65536 ≠ w.1 % 65536) := by
  rw [paramWords, List.pairwise_map]
  refine List.Pairwise.imp_of_mem ?_ (List.pairwise_lt_range (n := count))
  intro a b ha hb hab
  have := List.mem_range.mp ha
  have := List.mem_range.mp hb
  dsimp only
  omega

/-- Whether a PARAM_SET names 1 to 3 words of PARAMETER ranges. -/
def State.paramFits (s : State) (g count start : Nat) : Prop := 0 < count ∧ count ≤ 3 ∧ ∀ j < count, s.isParam g (start + j) = true

theorem all_isParam : (paramWords count start values).all (fun w => s.isParam g w.1) = true ↔ ∀ j < count, s.isParam g (start + j) = true := by
  simp [paramWords]

/-- What PARAM_SET does at a boundary. -/
theorem malApply_paramSet (hg : g < 64) (cl : Nat) : (s.paramFits g count start →
      s.malApply cl (.paramSet g count start values) .notNeeded = (s.putParams g (paramWords count start values)).map (fun t => (0, t))) ∧
    (¬s.paramFits g count start → s.malApply cl (.paramSet g count start values) .notNeeded = some (2, s.malRefuse cl)) := by
  have hfits : (g ≤ 63 ∧ 1 ≤ count ∧ count ≤ 3 ∧ (paramWords count start values).all (fun w => s.isParam g w.1) = true) ↔
      s.paramFits g count start := by
    rw [all_isParam]
    exact ⟨fun ⟨_, h1, h3, hall⟩ => ⟨h1, h3, hall⟩, fun ⟨h1, h3, hall⟩ => ⟨by omega, h1, h3, hall⟩⟩
  exact ⟨fun h => if_pos (hfits.mpr h), fun h => if_neg (mt hfits.mp h)⟩

theorem exec_paramSet (hg : g < 64) : exec (.paramSet g count start values) s = .next (s.malCommand (g / 16) (.paramSet g count start values)) := by
  have h : exec (.paramSet g count start values) s = .next (s.malCommand (g / 16 % 4) (.paramSet g count start values)) := rfl
  rwa [Nat.mod_eq_of_lt (by omega : g / 16 < 4)] at h

/-- Later in the block PARAM_SET is held for the next boundary. -/
theorem paramSet_later (hg : g < 64) (hb : s.atBoundary (.mal (g / 16)) 1 = false) :
    Gives (.paramSet g count start values) s (fun t => (∃ h, t.held = s.held ++ [h] ∧ h.eng = .mal (g / 16) ∧
      h.cmd = .paramSet g count start values ∧ h.late = false) ∧ t = { s with held := t.held, heldNext := s.heldNext + 1 }) := by
  refine ⟨s.hold (heldOf (.mal (g / 16)) (.paramSet g count start values) .notNeeded), ?_, ⟨_, rfl, rfl, rfl, rfl⟩, rfl⟩
  rw [exec_paramSet hg, State.malCommand, hb]
  rfl

/-- At its boundary PARAM_SET writes its words where the 64 words allow. -/
theorem paramSet_writes (hg : g < 64) (hb : s.atBoundary (.mal (g / 16)) 1 = true) (hfits : s.paramFits g count start)
    (hend : start + count ≤ 0x10000) (hroom : Tbl.get s.mal.applied g 0 + count ≤ 64) :
    Gives (.paramSet g count start values) s (fun t =>
      (∀ j < count, t.dataWord g (start + j) = (values.getD j 0).toNat % 2 ^ 24) ∧
      (∀ h x, h < 64 → x < 0x10000 → h ≠ g ∨ x < start ∨ start + count ≤ x → t.dataWord h x = s.dataWord h x) ∧
      Tbl.get t.mal.applied g 0 = Tbl.get s.mal.applied g 0 + count ∧
      t = { s with mal := { s.mal with data := t.mal.data, applied := t.mal.applied } }) := by
  generalize hu : (paramWords count start values).foldl (fun s w => s.setData g w.1 w.2) s = u
  obtain ⟨d, hd⟩ := State.foldl_setData_eq g (paramWords count start values) s
  rw [hu] at hd
  refine ⟨{ u with mal := { u.mal with applied := Tbl.set u.mal.applied g 0 (Tbl.get s.mal.applied g 0 + count) } }, ?_, ?_, ?_, ?_, ?_⟩
  · rw [exec_paramSet hg, State.malCommand, if_pos hb, (malApply_paramSet hg _).1 hfits, State.putParams, length_paramWords, if_pos hroom, hu]
    rfl
  · intro j hj
    have hmem : (start + j, (values.getD j 0).toNat % 2 ^ 24) ∈ paramWords count start values :=
      List.mem_map.mpr ⟨j, List.mem_range.mpr hj, rfl⟩
    have hword := State.dataWord_foldl_setData_mem (g := g) _ s (pairwise_paramWords hend) hmem
    rw [hu, Nat.mod_mod] at hword
    exact hword
  · intro h x _ hx hout
    have hword := State.dataWord_foldl_setData_ne (g := g) (h := h) (x := x) (paramWords count start values) s fun w hw => by
      have := mem_paramWords hw
      omega
    rw [hu] at hword
    exact hword
  · rw [hd]
    exact Tbl.get_set_same ..
  · rw [hd]

/-- Where the 64 words do not take them, PARAM_SET waits. -/
theorem paramSet_waits (hg : g < 64) (hb : s.atBoundary (.mal (g / 16)) 1 = true) (hfits : s.paramFits g count start)
    (hroom : 64 < Tbl.get s.mal.applied g 0 + count) :
    Gives (.paramSet g count start values) s (fun t => (∃ h, t.held = s.held ++ [h] ∧ h.eng = .mal (g / 16) ∧
        h.cmd = .paramSet g count start values ∧ h.late = true) ∧
      t.fld (R.MAL_CL_PARAM_DEFER_COUNT (g / 16)) = min (s.fld (R.MAL_CL_PARAM_DEFER_COUNT (g / 16)) + 1) (2 ^ 32 - 1) ∧
      bit (t.fld (R.MAL_CL_INT_STATUS_PARAM_DEFER (g / 16))) 0 = 1 ∧
      SameBut [R.MAL_CL_PARAM_DEFER_COUNT (g / 16), R.MAL_CL_INT_STATUS_PARAM_DEFER (g / 16)]
        { s with held := t.held, heldNext := s.heldNext + 1 } t) := by
  generalize hu : s.holdLate (.mal (g / 16)) (.paramSet g count start values) = u
  have hheld : (u.malDefer (g / 16)).held = u.held := State.countAndRaise_held ..
  refine ⟨u.malDefer (g / 16), ?_, ?_, ?_, State.fld_countAndRaise_flag _ Nat.one_pos, ?_⟩
  · rw [exec_paramSet hg, State.malCommand, if_pos hb, (malApply_paramSet hg _).1 hfits, State.putParams, length_paramWords,
      if_neg (by omega), ← hu]
    rfl
  · rw [hheld, ← hu]
    exact ⟨_, rfl, rfl, rfl, rfl⟩
  · rw [State.malDefer, State.fld_countAndRaise_count _ (by simp only [Fld.key]; omega), ← hu]
    rfl
  · rw [hheld, ← hu]
    exact (SameBut.refl _ _).countAndRaise (by simp) (by simp)

/-- PARAM_SET outside PARAMETER ranges, or of no word or more than 3, is refused. -/
theorem paramSet_refused (hg : g < 64) (hb : s.atBoundary (.mal (g / 16)) 1 = true) (hfits : ¬s.paramFits g count start) :
    Turns (.paramSet g count start values) s [R.MAL_CL_REFUSED_COUNT_COUNT (g / 16), R.MAL_CL_INT_STATUS_REFUSED (g / 16)] s (fun t =>
      t.fld (R.MAL_CL_REFUSED_COUNT_COUNT (g / 16)) = min (s.fld (R.MAL_CL_REFUSED_COUNT_COUNT (g / 16)) + 1) (2 ^ 32 - 1) ∧
      bit (t.fld (R.MAL_CL_INT_STATUS_REFUSED (g / 16))) 0 = 1) := by
  refine ⟨s.malRefuse (g / 16), ?_, (SameBut.refl _ s).countAndRaise (by simp) (by simp), ?_, State.fld_countAndRaise_flag _ Nat.one_pos⟩
  · rw [exec_paramSet hg, State.malCommand, if_pos hb, (malApply_paramSet hg _).2 hfits]
  · exact State.fld_countAndRaise_count _ (by simp only [Fld.key]; omega)

/-- PARAM_LIST is taken in, and its fetch starts. -/
theorem paramList_held (n a : Nat) : Gives (.paramList g n a) s (fun t => ∃ h, t.held = s.held ++ [h] ∧ h.cmd = .paramList g n a ∧
    h.fetch = .running ∧ h.id = s.heldNext ∧ t = { s with held := t.held, heldNext := s.heldNext + 1 }) :=
  ⟨_, rfl, _, rfl, rfl, rfl, rfl, rfl⟩

end

end Sys2Proof.Machine
end

section
namespace Sys2Proof.Machine

/-! ### The data window and the protected words of a cluster (R168, R169, R170) -/

section
variable {s : State} {m cl w : Nat} {v : Word}

/-- Where no command is new, a write leaves the held commands as they are. -/
theorem State.tagHeld_of_lt {u : State} {n : Nat} (h : ∀ c ∈ u.held, c.id < n) (m : Nat) : u.tagHeld n m none = u := by
  have hheld : u.held.map (fun c => if n ≤ c.id then { c with master := m, mirrorAt := none } else c) = u.held :=
    (List.map_congr_left fun c hc => if_neg (Nat.not_le.mpr (h c hc))).trans (List.map_id u.held)
  unfold State.tagHeld
  dsimp only
  rw [hheld]

theorem State.isParam_touch (s : State) (m g w : Nat) : (s.touch m).isParam g w = s.isParam g w := by
  unfold State.isParam
  rw [State.touch_cfg]

/-- The commands of the data window that wait for the boundary of a cluster. -/
def State.windowQueue (s : State) (cl : Nat) : Nat :=
  (s.held.filter (fun h => h.eng == .mal cl && (match h.cmd with | .paramWrite .. => true | _ => false))).length

/-- The three ends of a write through the data window. -/
theorem dataWindowWrite_cases (u : State) (cl w : Nat) (v : Word) : let target := u.fld (R.MAL_CL_DWIN_SEL_TARGET cl)
    (target < 16 → u.isParam (16 * cl + target) w = true → u.windowQueue cl < 256 → u.dataWindowWrite cl w v =
      (.ok, u.hold (heldOf (.mal cl) (.paramWrite (16 * cl + target) w (BitVec.ofNat 24 v.toNat)) .notNeeded))) ∧
    (target < 16 → u.isParam (16 * cl + target) w = false ∨ 256 ≤ u.windowQueue cl → u.dataWindowWrite cl w v = (.targetErr, u.malRefuse cl)) ∧
    (target = 16 → u.dataWindowWrite cl w v = (.ok, u.putShared cl (262144 * u.fld (R.MAL_CL_DWIN_SEL_PAGE cl) + 4 * w)
      ((leBytes 4 (codeS 32 (low24 v))).map some))) ∧
    (16 < target → u.dataWindowWrite cl w v = (.targetErr, u.malRefuse cl)) := by
  intro target
  have hmid : target < 16 → u.dataWindowWrite cl w v = if u.isParam (16 * cl + target) w = true ∧ u.windowQueue cl < 256 then
      (.ok, u.hold (heldOf (.mal cl) (.paramWrite (16 * cl + target) w (BitVec.ofNat 24 v.toNat)) .notNeeded))
      else (.targetErr, u.malRefuse cl) := fun ht => if_pos ht
  refine ⟨fun ht hp hq => ?_, fun ht hno => ?_, fun ht => ?_, fun ht => ?_⟩
  · rw [hmid ht, if_pos ⟨hp, hq⟩]
  · rw [hmid ht, if_neg]
    rintro ⟨hp, hq⟩
    rcases hno with hno | hno
    · rw [hp] at hno
      exact absurd hno nofun
    · omega
  · exact (if_neg (show ¬target < 16 by omega)).trans (if_pos ht)
  · exact (if_neg (show ¬target < 16 by omega)).trans (if_neg (show ¬target = 16 by omega))

/-- A refusal as its counter and its flag show it once it is answered. -/
theorem answer_malRefuse (u : State) (hcl : cl < 4) (n m a : Nat) : let t := ((u.malRefuse cl).tagHeld n m none).answer m a .targetErr
    .response m .targetErr ∈ t.sent ∧ t.mal = u.mal ∧ ((∀ h ∈ u.held, h.id < n) → t.held = u.held) ∧
      t.fld (R.MAL_CL_REFUSED_COUNT_COUNT cl) = min (u.fld (R.MAL_CL_REFUSED_COUNT_COUNT cl) + 1) (2 ^ 32 - 1) ∧
      bit (t.fld (R.MAL_CL_INT_STATUS_REFUSED cl)) 0 = 1 := by
  intro t
  have hframe := ((u.malRefuse cl).tagHeld n m none).answer_frame m a .targetErr
  have hheld : (u.malRefuse cl).held = u.held := State.countAndRaise_held ..
  have hother : ∀ f ∈ [R.MAL_CL_REFUSED_COUNT_COUNT cl, R.MAL_CL_INT_STATUS_REFUSED cl], ∀ k ∈ hostErrFlds, f.key ≠ k.key := by
    simp only [hostErrFlds, List.forall_mem_cons, List.not_mem_nil, false_implies, implies_true, and_true, Fld.key]
    omega
  refine ⟨List.mem_cons_self, hframe.mal.trans ?_, fun hids => hframe.held.trans ?_, ?_, ?_⟩
  · rw [State.tagHeld_mal, State.malRefuse, State.countAndRaise_mal]
  · rw [State.tagHeld_of_lt (by rwa [hheld]), hheld]
  · rw [hframe.1 _ (hother _ (by simp)), State.fld_tagHeld]
    exact State.fld_countAndRaise_count u (by simp only [Fld.key]; omega)
  · rw [hframe.1 _ (hother _ (by simp)), State.fld_tagHeld]
    exact State.fld_countAndRaise_flag u Nat.one_pos

theorem fld_touch_mal (hm : m < 24) {f : Fld} (hf : 0x14800000 ≤ f.addr) : (s.touch m).fld f = s.fld f :=
  State.fld_touch_ne s (outstandingPeak_below hf hm)

end

end Sys2Proof.Machine
end

section
namespace Sys2Proof.Machine

section
variable {s : State} {m cl w : Nat} {v : Word}

theorem exec_malDataWindowWrite (hcl : cl < 4) (hw : w < 0x10000) (h : Reaches s m (0x14B00000 + 0x400000 * cl + 4 * w)) (hf : s.flmState = 0)
    {r : XbResp} {u : State} (hwrite : (s.touch m).dataWindowWrite cl w v = (r, u)) :
    exec (.malDataWindowWrite m cl w v) s = .next ((u.tagHeld s.heldNext m none).answer m (0x14B00000 + 0x400000 * cl + 4 * w) r) := by
  have hexec : exec (.malDataWindowWrite m cl w v) s = .next (s.through m (0x14B00000 + 0x400000 * cl + 4 * w) v
      fun s => s.dataWindowWrite cl w v) := if_pos ⟨hcl, hw⟩
  rw [hexec, through_reach h hf, hwrite]

/-- A write of a parameter word is queued. -/
theorem dataWindow_queues (hcl : cl < 4) (hw : w < 0x10000) (h : Reaches s m (0x14B00000 + 0x400000 * cl + 4 * w)) (hf : s.flmState = 0)
    (htarget : s.fld (R.MAL_CL_DWIN_SEL_TARGET cl) < 16) (hparam : s.isParam (16 * cl + s.fld (R.MAL_CL_DWIN_SEL_TARGET cl)) w = true)
    (hroom : s.windowQueue cl < 256) :
    ∃ t, exec (.malDataWindowWrite m cl w v) s = .next (s.answered m .ok t) ∧
      (∃ h, t.held = s.held ++ [h] ∧ h.cmd = .paramWrite (16 * cl + s.fld (R.MAL_CL_DWIN_SEL_TARGET cl)) w (BitVec.ofNat 24 v.toNat) ∧
        h.stamp = none) ∧
      SameBut [R.XB_OUTSTANDING_PEAK m] { s with held := t.held, heldNext := s.heldNext + 1 } t := by
  obtain ⟨⟨hm, -, -⟩, -, -⟩ := id h
  have hsel : (s.touch m).fld (R.MAL_CL_DWIN_SEL_TARGET cl) = s.fld (R.MAL_CL_DWIN_SEL_TARGET cl) := fld_touch_mal hm (by simp only; omega)
  have hqueue : (s.touch m).windowQueue cl = s.windowQueue cl := by rw [State.windowQueue, State.touch_held]; rfl
  obtain ⟨hqueued, -⟩ := dataWindowWrite_cases (s.touch m) cl w v
  rw [hsel, State.isParam_touch, hqueue] at hqueued
  generalize s.fld (R.MAL_CL_DWIN_SEL_TARGET cl) = target at *
  refine ⟨(s.touch m).hold (heldOf (.mal cl) (.paramWrite (16 * cl + target) w (BitVec.ofNat 24 v.toNat)) .notNeeded), ?_, ?_, ?_⟩
  · rw [exec_malDataWindowWrite hcl hw h hf (hqueued htarget hparam hroom), answer_ok]
    rfl
  · exact ⟨_, by rw [State.hold, State.touch_held], rfl, rfl⟩
  · have hframe := ((SameBut.refl [R.XB_OUTSTANDING_PEAK m] s).touch (m := m) (by simp)).withHeld
      ((s.touch m).hold (heldOf (.mal cl) (.paramWrite (16 * cl + target) w (BitVec.ofNat 24 v.toNat)) .notNeeded)).held (s.heldNext + 1)
    rwa [← State.touch_heldNext s m] at hframe ⊢

/-- Any other write of local memory, and a write of a target that is none, is refused. -/
theorem dataWindow_refuses (hcl : cl < 4) (hw : w < 0x10000) (h : Reaches s m (0x14B00000 + 0x400000 * cl + 4 * w)) (hf : s.flmState = 0)
    (hids : ∀ h ∈ s.held, h.id < s.heldNext)
    (hno : (s.fld (R.MAL_CL_DWIN_SEL_TARGET cl) < 16 ∧
      (s.isParam (16 * cl + s.fld (R.MAL_CL_DWIN_SEL_TARGET cl)) w = false ∨ 256 ≤ s.windowQueue cl)) ∨
      16 < s.fld (R.MAL_CL_DWIN_SEL_TARGET cl)) :
    Gives (.malDataWindowWrite m cl w v) s (fun t => .response m .targetErr ∈ t.sent ∧ t.mal = s.mal ∧ t.held = s.held ∧
      t.fld (R.MAL_CL_REFUSED_COUNT_COUNT cl) = min (s.fld (R.MAL_CL_REFUSED_COUNT_COUNT cl) + 1) (2 ^ 32 - 1) ∧
      bit (t.fld (R.MAL_CL_INT_STATUS_REFUSED cl)) 0 = 1) := by
  obtain ⟨⟨hm, -, -⟩, -, -⟩ := id h
  have hsel : (s.touch m).fld (R.MAL_CL_DWIN_SEL_TARGET cl) = s.fld (R.MAL_CL_DWIN_SEL_TARGET cl) := fld_touch_mal hm (by simp only; omega)
  have hqueue : (s.touch m).windowQueue cl = s.windowQueue cl := by rw [State.windowQueue, State.touch_held]; rfl
  have hwrite : (s.touch m).dataWindowWrite cl w v = (.targetErr, (s.touch m).malRefuse cl) := by
    obtain ⟨-, hlocal, -, hnone⟩ := dataWindowWrite_cases (s.touch m) cl w v
    rw [hsel, State.isParam_touch, hqueue] at hlocal
    rw [hsel] at hnone
    exact hno.elim (fun h => hlocal h.1 h.2) hnone
  obtain ⟨hsent, hmal, hheld, hcount, hflag⟩ := answer_malRefuse (s.touch m) hcl s.heldNext m (0x14B00000 + 0x400000 * cl + 4 * w)
  rw [State.touch_mal] at hmal
  rw [State.touch_held] at hheld
  rw [fld_touch_mal hm (by simp only; omega)] at hcount
  exact ⟨_, exec_malDataWindowWrite hcl hw h hf hwrite, hsent, hmal, hheld hids, hcount, hflag⟩

theorem SameBut.withShared {fs : List Fld} {u t : State} (h : SameBut fs u t) (sh : Tbl Byte) :
    SameBut fs { u with mal := { u.mal with shared := sh } } { t with mal := { t.mal with shared := sh } } := by
  refine ⟨h.1, ?_⟩
  rw [h.mal]
  conv_lhs => rw [h.2]

/-- Bytes written to shared memory read back. -/
theorem sharedRead_putShared (u : State) (cl : Nat) (bs : List Byte) {i : Nat} (hi : i + bs.length ≤ 0x100000) :
    (u.putShared cl i (bs.map some)).sharedRead cl i bs.length = bs := by
  refine List.ext_getElem (by simp [State.sharedRead]) fun j _ hj => ?_
  simp only [State.sharedRead, List.getElem_map, List.getElem_range]
  rw [State.sharedByte_putShared (by omega) bs u i hi, if_pos ⟨rfl, by omega, by omega⟩, Nat.add_sub_cancel_left,
    List.getD_eq_getElem?_getD, List.getElem?_eq_getElem hj, Option.getD_some]

/-- A write of shared memory acts at once. -/
theorem dataWindow_writesShared (hcl : cl < 4) (hw : w < 0x10000) (h : Reaches s m (0x14B00000 + 0x400000 * cl + 4 * w)) (hf : s.flmState = 0)
    (htarget : s.fld (R.MAL_CL_DWIN_SEL_TARGET cl) = 16) (hpage : s.fld (R.MAL_CL_DWIN_SEL_PAGE cl) < 4)
    (hids : ∀ h ∈ s.held, h.id < s.heldNext) :
    Gives (.malDataWindowWrite m cl w v) s (fun t =>
      let o := 262144 * s.fld (R.MAL_CL_DWIN_SEL_PAGE cl) + 4 * w
      .response m .ok ∈ t.sent ∧ t.sharedRead cl o 4 = leBytes 4 (codeS 32 (low24 v)) ∧
      (∀ l b, l < 4 → b < 0x100000 → l ≠ cl ∨ b < o ∨ o + 4 ≤ b → t.sharedByte l b = s.sharedByte l b) ∧
      SameBut [R.XB_OUTSTANDING_PEAK m] { s with mal := { s.mal with shared := t.mal.shared } } t) := by
  obtain ⟨⟨hm, -, -⟩, -, -⟩ := id h
  have hsel : (s.touch m).fld (R.MAL_CL_DWIN_SEL_TARGET cl) = s.fld (R.MAL_CL_DWIN_SEL_TARGET cl) := fld_touch_mal hm (by simp only; omega)
  have hpageSel : (s.touch m).fld (R.MAL_CL_DWIN_SEL_PAGE cl) = s.fld (R.MAL_CL_DWIN_SEL_PAGE cl) := fld_touch_mal hm (by simp only; omega)
  obtain ⟨-, -, hshared, -⟩ := dataWindowWrite_cases (s.touch m) cl w v
  rw [hsel, hpageSel] at hshared
  have hwrite := hshared htarget
  generalize leBytes 4 (codeS 32 (low24 v)) = bs, (show (leBytes 4 (codeS 32 (low24 v))).length = 4 from length_leBytes ..) = hlen at *
  generalize s.fld (R.MAL_CL_DWIN_SEL_PAGE cl) = page at *
  obtain ⟨sh, hput⟩ := State.putShared_eq cl (bs.map some) (s.touch m) (262144 * page + 4 * w)
  replace hput : (s.touch m).putShared cl (262144 * page + 4 * w) (bs.map some) =
    { s.touch m with mal := { (s.touch m).mal with shared := sh } } := hput (s.touch m).mal.cores
  have hend : 262144 * page + 4 * w + bs.length ≤ 0x100000 := by omega
  have hread := sharedRead_putShared (s.touch m) cl bs hend
  have hbytes := fun l b (hb : b < 0x100000) => State.sharedByte_putShared (cl := cl) (l := l) hb bs (s.touch m) (262144 * page + 4 * w) hend
  rw [hput] at hwrite hread hbytes
  have hkept : State.tagHeld { s.touch m with mal := { (s.touch m).mal with shared := sh } } s.heldNext m none =
      { s.touch m with mal := { (s.touch m).mal with shared := sh } } :=
    State.tagHeld_of_lt (by rw [show State.held _ = s.held from s.touch_held m]; exact hids) m
  refine ⟨State.emit { s.touch m with mal := { (s.touch m).mal with shared := sh } } (.response m .ok), ?_, List.mem_cons_self, ?_, ?_, ?_⟩
  · rw [exec_malDataWindowWrite hcl hw h hf hwrite, hkept, answer_ok]
  · rw [hlen] at hread
    exact hread
  · intro l b _ hb hout
    refine (hbytes l b hb).trans ((if_neg (by omega)).trans ?_)
    rw [State.sharedByte, State.touch_mal, State.sharedByte]
  · exact (((SameBut.refl _ s).touch (by simp)).withShared sh).emit _

/-- Programs and CCRs refuse writes from outside. -/
theorem programCcrWrite_refused (hcl : cl < 4) {o : Nat} (ho : (0x100000 ≤ o ∧ o < 0x200000) ∨
      (0x200000 ≤ o ∧ o < 0x210000 ∧ o % 4096 < 1024 ∧ o % 4096 ≠ 60))
    (h : Reaches s m (0x14800000 + 0x400000 * cl + o)) (hf : s.flmState = 0) :
    Gives (.malProgramCcrWrite m (0x14800000 + 0x400000 * cl + o)) s (fun t => .response m .targetErr ∈ t.sent ∧ t.mal = s.mal ∧
      t.fld (R.MAL_CL_REFUSED_COUNT_COUNT cl) = min (s.fld (R.MAL_CL_REFUSED_COUNT_COUNT cl) + 1) (2 ^ 32 - 1) ∧
      bit (t.fld (R.MAL_CL_INT_STATUS_REFUSED cl)) 0 = 1) := by
  obtain ⟨⟨hm, -, -⟩, -, -⟩ := id h
  have hoff : (0x14800000 + 0x400000 * cl + o - 0x14800000) % 0x400000 = o := by omega
  have hcluster : (0x14800000 + 0x400000 * cl + o - 0x14800000) / 0x400000 = cl := by omega
  have hprot : malProtected ((0x14800000 + 0x400000 * cl + o - 0x14800000) % 0x400000) = true := by
    rw [hoff]
    exact decide_eq_true ho
  have hexec : exec (.malProgramCcrWrite m (0x14800000 + 0x400000 * cl + o)) s = .next (s.through m (0x14800000 + 0x400000 * cl + o) 0
      fun s => (.targetErr, s.malRefuse ((0x14800000 + 0x400000 * cl + o - 0x14800000) / 0x400000))) :=
    if_pos ⟨by omega, by omega, hprot⟩
  rw [through_reach h hf, hcluster] at hexec
  obtain ⟨hsent, hmal, -, hcount, hflag⟩ := answer_malRefuse (s.touch m) hcl s.heldNext m (0x14800000 + 0x400000 * cl + o)
  rw [State.touch_mal] at hmal
  rw [fld_touch_mal hm (by simp only; omega)] at hcount
  exact ⟨_, hexec, hsent, hmal, hcount, hflag⟩

theorem malCounts_nodup (hcl : cl < 4) : ((malCounts cl).map Fld.key).Nodup := by
  interval_cases cl <;> decide

/-- The counts of a cluster are cleared. -/
theorem malClCountClear_sets (hcl : cl < 4) (h : HostReaches s (0x14800024 + 0x400000 * cl)) :
    HostSets (.malClCountClear cl) s (malCounts cl) s (fun t => t.fld (R.MAL_CL_EXC_COUNT_COUNT cl) = 0 ∧
      t.fld (R.MAL_CL_BUSERR_COUNT_COUNT cl) = 0 ∧ t.fld (R.MAL_CL_REFUSED_COUNT_COUNT cl) = 0 ∧
      t.fld (R.MAL_CL_DMA_ERR_COUNT_COUNT cl) = 0 ∧ t.fld (R.MAL_CL_PARAM_DEFER_COUNT cl) = 0) := by
  obtain ⟨t, hexec, hframe, hzero⟩ := hostClear_sets h (show exec (.malClCountClear cl) s = _ from if_pos hcl) (malCounts_nodup hcl)
  exact ⟨t, hexec, hframe, hzero _ (by simp [malCounts]), hzero _ (by simp [malCounts]), hzero _ (by simp [malCounts]),
    hzero _ (by simp [malCounts]), hzero _ (by simp [malCounts])⟩

end

end Sys2Proof.Machine
end

section
namespace Sys2Proof.Machine

section
variable {s : State} {g m cl : Nat}

/-- The host writes a core's mailbox. -/
theorem exec_mboxInWrite (hg : g < 64) (h : HostReaches s (ccrAddr g 0x0F)) (v : Word) :
    exec (.mboxInWrite g v) s = .next (s.answered 0 .ok ((s.touch 0).mboxInWrite g v)) := by
  have hexec : exec (.mboxInWrite g v) s = .next (s.hostSet (ccrAddr g 0x0F) v fun s => s.mboxInWrite g v) := if_pos hg
  rw [hexec]
  exact congrArg _ (hostSet_reach h v _)

/-- A master reads a core's mailbox. -/
theorem mboxOutRead_clears (hg : g < 64) (h : Reaches s m (ccrAddr g 0x10)) :
    Turns (.mboxOutRead m g) s [R.XB_OUTSTANDING_PEAK m, R.MAL_CL_MBOX_PEND_PEND (g / 16)] s (fun t =>
      t.sent = .response m (.data (leBytes 4 (s.fld (R.CCR_MBOX_OUT_DATA g)))) :: s.sent ∧
      ∀ i < 16, bit (t.fld (R.MAL_CL_MBOX_PEND_PEND (g / 16))) i =
        if i = g % 16 then 0 else bit (s.fld (R.MAL_CL_MBOX_PEND_PEND (g / 16))) i) := by
  obtain ⟨⟨hm, -, -⟩, -, -⟩ := id h
  have hexec : exec (.mboxOutRead m g) s = .next (s.throughRead m (ccrAddr g 0x10) fun s => s.mboxOutRead g) := if_pos hg
  have hword : ((s.touch m).mboxOutRead g).1 = s.fld (R.CCR_MBOX_OUT_DATA g) := fld_touch_mal hm (by simp only; omega)
  rw [throughRead_reach h, hword] at hexec
  refine ⟨_, hexec, ?_, ?_, fun i hi => ?_⟩
  · exact (((SameBut.refl _ s).touch (m := m) (by simp)).setFld _ (by simp)).emit _
  · show State.sent _ = _
    exact congrArg _ (State.touch_sent s m)
  · have hbits := mboxOutRead_bits (s.touch m) g hi
    rwa [fld_touch_mal hm (by simp only; omega)] at hbits

theorem bit_bits_low {n i : Nat} (hi : i < 16) : bit (bits n 15 0) i = bit n i := by
  rw [bits_word_count]
  exact bit_mod hi

/-- The host raises source 9 in the cores of a mask. -/
theorem broadcast_raises (hcl : cl < 4) (h : HostReaches s (0x14800008 + 0x400000 * cl)) (v : Word) :
    ∃ t, exec (.malClBroadcastWrite cl v) s = .next (s.answered 0 .ok t) ∧
      (∀ n < 16, bit v.toNat n = 1 → bit (t.fld (R.CCR_INT_PEND_PEND (16 * cl + n))) 9 = 1 ∧
        ((s.core (16 * cl + n)).stall = .wait → bit (s.fld (R.CCR_INT_EN_EN (16 * cl + n))) 9 = 1 → (t.core (16 * cl + n)).stall = .none)) ∧
      (∀ n < 16, bit v.toNat n = 0 → t.fld (R.CCR_INT_PEND_PEND (16 * cl + n)) = s.fld (R.CCR_INT_PEND_PEND (16 * cl + n)) ∧
        t.core (16 * cl + n) = s.core (16 * cl + n)) ∧
      SameBut (R.XB_OUTSTANDING_PEAK 0 :: (List.range 16).flatMap (sourceFlds cl))
        { s with mal := { s.mal with cores := t.mal.cores }, freeCtr := t.freeCtr } t := by
  have hexec : exec (.malClBroadcastWrite cl v) s = .next (s.hostSet (0x14800008 + 0x400000 * cl) v
      fun s => s.raiseMask cl 9 (bits v.toNat 15 0)) := if_pos hcl
  rw [State.hostSet, hostSet_reach h] at hexec
  obtain ⟨hset, hclear, hsources⟩ := raiseMask_shows (cl := cl) (src := 9) (mask := bits v.toNat 15 0) (by omega) (List.range 16) (s.touch 0)
    List.nodup_range fun n hn => List.mem_range.mp hn
  have hkept : ∀ {f : Fld}, 0x14800000 ≤ f.addr → (s.touch 0).fld f = s.fld f := fun hf => fld_touch_mal (by omega) hf
  have htouch : SourcesBut [R.XB_OUTSTANDING_PEAK 0] s (s.touch 0) := ((SameBut.refl _ s).touch (by simp)).sources
  refine ⟨_, hexec, fun n hn hbit => ?_, fun n hn hbit => ?_, ?_⟩
  · obtain ⟨hpend, hwoken⟩ := hset n (List.mem_range.mpr hn) (by rwa [bit_bits_low hn])
    refine ⟨hpend, fun hwait hen => hwoken ⟨?_, ?_⟩⟩
    · rwa [State.core_touch]
    · rwa [hkept (by simp only; omega)]
  · obtain ⟨hpend, hcore⟩ := hclear n hn (.inr (by rwa [bit_bits_low hn]))
    rw [hkept (by simp only; omega)] at hpend
    rw [State.core_touch] at hcore
    exact ⟨hpend, hcore⟩
  · exact (htouch.mono (by simp)).trans (hsources.mono fun f hf => List.mem_cons_of_mem _ hf)

end

/-- Settles O35: each command's own rule, in the order of the statement. -/
theorem malletInterruptsDmaAndParameters : Obligations.MalletInterruptsDmaAndParameters := by
  unfold Obligations.MalletInterruptsDmaAndParameters
  refine ⟨⟨?_, ?_, ?_, ?_, ?_, ?_⟩, ?_, ?_, ?_, ?_, ?_, ?_, ?_⟩
  · intro s g src _ hsrc hpend hclosing htimer
    exact ⟨fun h hpc hsr => ⟨_, rfl, fastAccept_shows hsrc h hpend hclosing htimer hpc hsr⟩,
      fun h hstack hsr => ⟨_, rfl, normalAccept_shows hsrc h hpend hclosing htimer hstack hsr⟩⟩
  · intro s g n _ hready h0 hn
    exact nop_timed hready h0 hn
  · intro s g rt _ htask hstall h0 hcost
    obtain ⟨htimer, hpend, hcycles, hwoken, hframe⟩ := timerExpiry_shows htask hstall h0 hcost
    exact ⟨_, rfl, htimer, hpend, hcycles, hwoken, hframe.mono (by simp [cycleFlds])⟩
  · intro s g v hg h
    exact ⟨_, exec_mboxInWrite hg h v, mboxInWrite_shows hg v⟩
  · intro s m g hg h
    exact mboxOutRead_clears hg h
  · intro s cl v hcl h
    exact broadcast_raises hcl h v
  · intro s g ch v _ _ hgo hidle
    exact dmaStart_shows hgo hidle
  · intro s g ch d resp hg hch hd
    exact ⟨fun hlocal hplain hthrough => dmaComplete_shows hg hch hd hlocal hplain hthrough resp,
      fun hcount hq hrefused => dmaComplete_fails hch hd hcount hq hrefused resp⟩
  · intro s g count start values hg
    refine ⟨paramSet_later hg, fun hb h0 h3 hall hend => ?_, fun hb hno => paramSet_refused hg hb ?_⟩
    · exact ⟨paramSet_writes hg hb ⟨h0, h3, hall⟩ hend, paramSet_waits hg hb ⟨h0, h3, hall⟩⟩
    · rintro ⟨h0, h3, hall⟩
      obtain hzero | hmany | ⟨j, hj, hout⟩ := hno
      · omega
      · omega
      · exact absurd (hall j hj) (by rw [hout]; nofun)
  · intro s g n a
    exact paramList_held n a
  · intro s m cl w v hcl hw h hf
    exact ⟨dataWindow_queues hcl hw h hf, fun ht hno hids => dataWindow_refuses hcl hw h hf hids (.inl ⟨ht, hno⟩),
      dataWindow_writesShared hcl hw h hf, fun ht hids => dataWindow_refuses hcl hw h hf hids (.inr ht)⟩
  · intro s m cl o hcl ho h hf
    exact programCcrWrite_refused hcl ho h hf
  · intro s cl hcl h
    exact malClCountClear_sets hcl h

end Sys2Proof.Machine
end

section
namespace Sys2Proof.Machine

/-! ### DRAM: where an address lies, and words that hold errors (R206, R211) -/

/-- An address of DRAM is its row, its bank, its channel and the byte of its unit. -/
theorem dramAddr_eq {a : Nat} (h : a < 2 ^ 28) : a = 2 ^ 12 * bits a 27 12 + 2 ^ 8 * bits a 11 8 + 2 ^ 6 * bits a 7 6 + a % 64 := by
  simp only [bits]
  omega

/-- Under one seed a place names its address: the row and the byte stand in it as they are, and the row gives back the words that
channel and bank are folded with. -/
theorem dramPlace_injective {seed a b : Nat} (ha : a < 2 ^ 28) (hb : b < 2 ^ 28) (h : dramPlace seed a = dramPlace seed b) : a = b := by
  simp only [dramPlace, Prod.mk.injEq] at h
  obtain ⟨hchannel, hbank, hrow, hbyte⟩ := h
  simp only [dramChannel, dramBank, hrow, Nat.xor_left_inj] at hchannel hbank
  rw [dramAddr_eq ha, dramAddr_eq hb, hchannel, hbank, hrow, hbyte]

theorem mem_insertAsc {w x : Nat} {l : List Nat} : x ∈ insertAsc w l ↔ x = w ∨ x ∈ l := by
  induction l with
  | nil => simp [insertAsc]
  | cons v vs ih =>
    unfold insertAsc
    split_ifs with hlt heq
    · simp
    · simp [heq]
    · simp only [List.mem_cons, ih]
      tauto

/-- The registers that an uncorrectable error is shown in. -/
def ueFlds : List Fld := [R.DPL_ECC_UE_COUNT, R.DPL_ECC_LAST_ADDR, R.DPL_ECC_LAST_LINE_VALID, R.DPL_INT_STATUS_ECC_UE]

theorem State.countUe_frame (s : State) (w : Nat) : SameBut ueFlds s (s.countUe w) :=
  ((((SameBut.refl _ s).bump 1 (by simp [ueFlds])).setFld _ (by simp [ueFlds])).raise (by simp [ueFlds])).setFld _ (by simp [ueFlds])

/-- An uncorrectable error at a word of DRAM is counted, with its address, and no line. -/
theorem State.countUe_shows (s : State) {w : Nat} (hw : 8 * w < 2 ^ 28) : let t := s.countUe w
    t.fld R.DPL_ECC_UE_COUNT = min (s.fld R.DPL_ECC_UE_COUNT + 1) (2 ^ 32 - 1) ∧ t.fld R.DPL_ECC_LAST_ADDR = 8 * w ∧
    t.fld R.DPL_ECC_LAST_LINE_VALID = 0 ∧ bit (t.fld R.DPL_INT_STATUS_ECC_UE) 0 = 1 := by
  simp only [State.countUe]
  refine ⟨?_, ?_, ?_, ?_⟩
  · rw [State.fld_setFld_ne _ _ (by decide), State.fld_raise_ne _ (by decide), State.fld_setFld_ne _ _ (by decide), State.fld_bump_same]
  · rw [State.fld_setFld_ne _ _ (by decide), State.fld_raise_ne _ (by decide), State.fld_setFld_same, Nat.mod_eq_of_lt hw]
  · rw [State.fld_setFld_same, Nat.zero_mod]
  · rw [State.fld_setFld_ne _ _ (by decide)]
    exact State.fld_raise_same _ Nat.one_pos

/-! ### Reads of the scrubber (R211, R213) -/

section
variable {s : State} {a : Nat}

theorem scrubRead_stopped (h : s.fld R.DPL_SCRUB_CTRL_PERIOD = 0) (err : EccErr) : exec (.scrubRead a err) s = .next s :=
  congrArg Host.Outcome.next (if_pos (.inl h))

variable (hp : s.fld R.DPL_SCRUB_CTRL_PERIOD ≠ 0) (hon : s.domainOn 12 = true) (ha : a < 0x10000000)
include hp hon ha

/-- What a read does while the scrubber runs. -/
theorem exec_scrubRead_running : exec (.scrubRead a .none) s = .next s ∧
    exec (.scrubRead a .corrected) s = .next (s.countAndRaise R.DPL_ECC_CE_COUNT R.DPL_INT_STATUS_ECC_CE) ∧
    exec (.scrubRead a .uncorrectable) s = .next ({ s with mem := s.mem.markBad (a / 8) }.countUe (a / 8)) := by
  have hruns : ¬(s.fld R.DPL_SCRUB_CTRL_PERIOD = 0 ∨ s.domainOn 12 = false ∨ 0x10000000 ≤ a) := by
    rintro (hstopped | hoff | hout)
    · exact hp hstopped
    · rw [hon] at hoff
      cases hoff
    · omega
  exact ⟨congrArg Host.Outcome.next (if_neg hruns), congrArg Host.Outcome.next (if_neg hruns), congrArg Host.Outcome.next (if_neg hruns)⟩

theorem scrubRead_corrected : Turns (.scrubRead a .corrected) s [R.DPL_ECC_CE_COUNT, R.DPL_INT_STATUS_ECC_CE] s (fun t =>
    t.fld R.DPL_ECC_CE_COUNT = min (s.fld R.DPL_ECC_CE_COUNT + 1) (2 ^ 32 - 1) ∧ bit (t.fld R.DPL_INT_STATUS_ECC_CE) 0 = 1) := by
  obtain ⟨-, hexec, -⟩ := exec_scrubRead_running hp hon ha
  exact ⟨_, hexec, (SameBut.refl _ s).countAndRaise (by simp) (by simp), State.fld_countAndRaise_count s (by decide),
    State.fld_countAndRaise_flag s Nat.one_pos⟩

theorem scrubRead_uncorrectable : Gives (.scrubRead a .uncorrectable) s (fun t =>
    (∀ w, w ∈ t.mem.dramBad ↔ w = a / 8 ∨ w ∈ s.mem.dramBad) ∧
    t.fld R.DPL_ECC_UE_COUNT = min (s.fld R.DPL_ECC_UE_COUNT + 1) (2 ^ 32 - 1) ∧ t.fld R.DPL_ECC_LAST_ADDR = a / 8 * 8 ∧
    t.fld R.DPL_ECC_LAST_LINE_VALID = 0 ∧ bit (t.fld R.DPL_INT_STATUS_ECC_UE) 0 = 1 ∧
    SameBut ueFlds { s with mem := { s.mem with dramBad := t.mem.dramBad } } t) := by
  obtain ⟨-, -, hexec⟩ := exec_scrubRead_running hp hon ha
  have hframe := State.countUe_frame { s with mem := s.mem.markBad (a / 8) } (a / 8)
  have hmem : (State.countUe { s with mem := s.mem.markBad (a / 8) } (a / 8)).mem = s.mem.markBad (a / 8) := (congrArg State.mem hframe.2 :)
  obtain ⟨hcount, haddr, hline, hflag⟩ := State.countUe_shows { s with mem := s.mem.markBad (a / 8) } (w := a / 8) (by omega)
  refine ⟨_, hexec, fun w => ?_, hcount, haddr.trans (Nat.mul_comm ..), hline, hflag, ?_⟩
  · rw [hmem]
    exact mem_insertAsc
  · rw [hmem]
    exact hframe

end

end Sys2Proof.Machine
end

section
namespace Sys2Proof.Machine

/-! ### Lines and their fades (R202, R203) -/

theorem State.lineSt_setLine_same (s : State) (l : Nat) (x : DplLine) : (s.setLine l x).lineSt l = x := Tbl.get_set_same ..

theorem State.lineSt_setLine_ne (s : State) {l k : Nat} (h : k ≠ l) (x : DplLine) : (s.setLine l x).lineSt k = s.lineSt k :=
  Tbl.get_set_ne _ _ _ _ h

theorem SameBut.dpl {fs : List Fld} {u t : State} (h : SameBut fs u t) : t.dpl = u.dpl := (congrArg State.dpl h.2 :)

theorem SameBut.lineSt {fs : List Fld} {u t : State} (h : SameBut fs u t) (l : Nat) : t.lineSt l = u.lineSt l := by
  rw [State.lineSt, h.dpl, State.lineSt]

/-- A line written beside register fields is one more change of the lines. -/
theorem SameBut.setLine {fs : List Fld} {s u : State} (h : SameBut fs s u) (l : Nat) (x : DplLine) :
    SameBut fs { s with dpl := { s.dpl with lines := (u.setLine l x).dpl.lines } } (u.setLine l x) := by
  rw [← h.dpl]
  exact h.withDpl (u.setLine l x).dpl

/-- The fields in which a replaced pending value of line `l` is counted. -/
def State.deferFlds (s : State) (l : Nat) : List Fld :=
  if s.fld (R.DPL_LINE0_PENDING l) = 1 then [R.DPL_DELAY_DEFER_COUNT, R.DPL_INT_STATUS_DELAY_DEFER] else []

/-- `s` with the pending value of line `l`, if there is one, counted as replaced. -/
def State.deferCounted (s : State) (l : Nat) : State :=
  if s.fld (R.DPL_LINE0_PENDING l) = 1 then s.countAndRaise R.DPL_DELAY_DEFER_COUNT R.DPL_INT_STATUS_DELAY_DEFER else s

section
variable {s : State} {l d len : Nat}

theorem State.setDelay_pending (h : (s.lineSt l).fade.isSome = true) : s.setDelay l d len =
    (((s.deferCounted l).setFld (R.DPL_LINE0_PENDING l) 1).setFld (R.DPL_LINE2_PEND l) d).setLine l { s.lineSt l with pendLen := len } :=
  if_pos h

theorem State.setDelay_inForce (h : (s.lineSt l).fade = none) (hd : d = s.fld (R.DPL_LINE1_DELAY l)) : s.setDelay l d len = s :=
  (if_neg (by simp [h])).trans (if_pos hd)

theorem State.setDelay_fades (h : (s.lineSt l).fade = none) (hd : d ≠ s.fld (R.DPL_LINE1_DELAY l)) : s.setDelay l d len =
    (s.setLine l { s.lineSt l with fade := some (s.fld (R.DPL_LINE1_DELAY l), 0, len) }).setFld (R.DPL_LINE1_DELAY l) d :=
  (if_neg (by simp [h])).trans (if_neg hd)

theorem State.deferCounted_frame (s : State) (l : Nat) : SameBut (s.deferFlds l) s (s.deferCounted l) := by
  unfold State.deferFlds State.deferCounted
  split_ifs
  · exact (SameBut.refl _ s).countAndRaise (by simp) (by simp)
  · exact SameBut.refl _ s

theorem State.deferCounted_shows (h : s.fld (R.DPL_LINE0_PENDING l) = 1) :
    (s.deferCounted l).fld R.DPL_DELAY_DEFER_COUNT = min (s.fld R.DPL_DELAY_DEFER_COUNT + 1) (2 ^ 32 - 1) ∧
    bit ((s.deferCounted l).fld R.DPL_INT_STATUS_DELAY_DEFER) 0 = 1 := by
  rw [State.deferCounted, if_pos h]
  exact ⟨State.fld_countAndRaise_count s (by decide), State.fld_countAndRaise_flag s Nat.one_pos⟩

/-- The counters and status bits of the delay pool stand below its line table. -/
theorem dplKey_ne_line {f : Fld} (ha : f.addr < 0x14088000) (hlo : f.lo < 32) (l : Nat) :
    f.key ≠ (R.DPL_LINE0_PENDING l).key ∧ f.key ≠ (R.DPL_LINE2_PEND l).key := by
  simp only [Fld.key]
  omega

/-- A delay that is not in force starts a crossfade from the one that is. -/
theorem State.setDelay_crossfades (hlt : d < 2 ^ 26) (h : (s.lineSt l).fade = none) (hd : d ≠ s.fld (R.DPL_LINE1_DELAY l)) :
    let t := s.setDelay l d len
    t.fld (R.DPL_LINE1_DELAY l) = d ∧ t.lineSt l = { s.lineSt l with fade := some (s.fld (R.DPL_LINE1_DELAY l), 0, len) } ∧
    (∀ k, k ≠ l → t.lineSt k = s.lineSt k) ∧
    SameBut [R.DPL_LINE1_DELAY l] { s with dpl := { s.dpl with lines := t.dpl.lines } } t := by
  rw [State.setDelay_fades h hd]
  refine ⟨?_, s.lineSt_setLine_same l _, fun k hk => s.lineSt_setLine_ne hk _, ?_⟩
  · rw [State.fld_setFld_same, Nat.mod_eq_of_lt hlt]
  · exact ((SameBut.refl _ s).setLine l _).setFld d List.mem_cons_self

/-- While a fade runs a delay becomes the pending value, and one that it replaces is counted. -/
theorem State.setDelay_pends (hlt : d < 2 ^ 26) (h : (s.lineSt l).fade.isSome = true) : let t := s.setDelay l d len
    t.fld (R.DPL_LINE0_PENDING l) = 1 ∧ t.fld (R.DPL_LINE2_PEND l) = d ∧ t.lineSt l = { s.lineSt l with pendLen := len } ∧
    (∀ k, k ≠ l → t.lineSt k = s.lineSt k) ∧
    (s.fld (R.DPL_LINE0_PENDING l) = 1 → t.fld R.DPL_DELAY_DEFER_COUNT = min (s.fld R.DPL_DELAY_DEFER_COUNT + 1) (2 ^ 32 - 1) ∧
      bit (t.fld R.DPL_INT_STATUS_DELAY_DEFER) 0 = 1) ∧
    SameBut ([R.DPL_LINE0_PENDING l, R.DPL_LINE2_PEND l] ++ s.deferFlds l) { s with dpl := { s.dpl with lines := t.dpl.lines } } t := by
  intro t
  have ht : t = _ := State.setDelay_pending h
  have hcounted : SameBut ([R.DPL_LINE0_PENDING l, R.DPL_LINE2_PEND l] ++ s.deferFlds l) s (s.deferCounted l) :=
    (s.deferCounted_frame l).mono fun _ hf => List.mem_append_right _ hf
  have hset := (hcounted.setFld (f := R.DPL_LINE0_PENDING l) 1 (by simp)).setFld (f := R.DPL_LINE2_PEND l) d (by simp)
  have hother : ∀ f : Fld, f.addr < 0x14088000 → f.lo < 32 → t.fld f = (s.deferCounted l).fld f := fun f ha hlo => by
    obtain ⟨hpending, hpend⟩ := dplKey_ne_line ha hlo l
    rw [ht]
    exact (State.fld_setFld_ne _ _ hpend).trans (State.fld_setFld_ne _ _ hpending)
  refine ⟨?_, ?_, ?_, fun k hk => ?_, fun hp => ?_, ?_⟩
  · rw [ht]
    exact (State.fld_setFld_ne _ _ (by simp only [Fld.key]; omega)).trans (State.fld_setFld_same ..)
  · rw [ht]
    exact (State.fld_setFld_same ..).trans (Nat.mod_eq_of_lt hlt)
  · rw [ht, State.lineSt_setLine_same]
  · rw [ht, State.lineSt_setLine_ne _ hk, hset.lineSt]
  · rw [hother _ (by decide) (by decide), hother _ (by decide) (by decide)]
    exact State.deferCounted_shows hp
  · rw [ht]
    exact hset.setLine l _

/-! ### DELAY_SET and DELAY_LIST given as rows (R203, R204) -/

variable {xf a : Nat}

theorem delaySet_later (hb : s.atBoundary .dpl 4 = false) : Gives (.delaySet l xf d) s (fun t =>
    (∃ h, t.held = s.held ++ [h] ∧ h.eng = .dpl ∧ h.cmd = .delaySet l xf d ∧ h.stamp = none) ∧
    t = { s with held := t.held, heldNext := s.heldNext + 1 }) :=
  ⟨s.hold (heldOf .dpl (.delaySet l xf d) .notNeeded), congrArg Host.Outcome.next (if_neg (by simp [hb])), ⟨_, rfl, rfl, rfl, rfl⟩, rfl⟩

/-- At its boundary the delay pool takes a delay to which nothing is wrong, and discards any other. -/
theorem exec_delaySet (hb : s.atBoundary .dpl 4 = true) : exec (.delaySet l xf d) s = .next
    (if s.dplPresent && xfOk xf && s.delayOk l d then s.setDelay l d (s.xfOf l xf) else s.dplReject) := by
  refine congrArg Host.Outcome.next ((if_pos hb).trans ?_)
  simp only [State.dplApply]
  split_ifs <;> rfl

theorem exec_delaySet_valid (hb : s.atBoundary .dpl 4 = true) (hp : s.dplPresent = true) (hxf : xf ≤ 7 ∨ xf = 0xFF)
    (hd : s.delayOk l d = true) : exec (.delaySet l xf d) s = .next (s.setDelay l d (s.xfOf l xf)) := by
  rw [exec_delaySet hb, if_pos (by simp [hp, xfOk, hxf, hd])]

theorem delaySet_rejected (hb : s.atBoundary .dpl 4 = true)
    (h : s.dplPresent = false ∨ (7 < xf ∧ xf ≠ 0xFF) ∨ s.delayOk l d = false) :
    Turns (.delaySet l xf d) s [R.DPL_CMD_REJECT_COUNT, R.DPL_INT_STATUS_CMD_REJECT] s (fun t =>
      t.fld R.DPL_CMD_REJECT_COUNT = min (s.fld R.DPL_CMD_REJECT_COUNT + 1) (2 ^ 32 - 1) ∧ bit (t.fld R.DPL_INT_STATUS_CMD_REJECT) 0 = 1) := by
  have hbad : ¬(s.dplPresent && xfOk xf && s.delayOk l d) = true := by
    rcases h with h | ⟨hxf, hne⟩ | h
    · simp [h]
    · simp [xfOk, hne, Nat.not_le.mpr hxf]
    · simp [h]
  refine ⟨s.dplReject, by rw [exec_delaySet hb, if_neg hbad], (SameBut.refl _ s).countAndRaise (by simp) (by simp),
    State.fld_countAndRaise_count s (by decide), State.fld_countAndRaise_flag s Nat.one_pos⟩

theorem delayList_held (n : Nat) : Gives (.delayList n xf a) s (fun t => (∃ h, t.held = s.held ++ [h] ∧ h.cmd = .delayList n xf a ∧
    h.fetch = .running ∧ h.id = s.heldNext) ∧ t = { s with held := t.held, heldNext := s.heldNext + 1 }) :=
  ⟨_, rfl, ⟨_, rfl, rfl, rfl, rfl⟩, rfl⟩

theorem delayFadeEnd_ends {old k : Nat} (h : (s.lineSt l).fade = some (old, k, len)) (hk : len ≤ k) : Gives (.delayFadeEnd l) s (fun t =>
    t.lineSt l = { s.lineSt l with fade := none } ∧ (∀ j, j ≠ l → t.lineSt j = s.lineSt j) ∧
    t = { s with dpl := { s.dpl with lines := t.dpl.lines } }) := by
  have hend : (s.lineSt l).fadeAtEnd = true := by
    rw [DplLine.fadeAtEnd, h]
    exact decide_eq_true hk
  exact ⟨_, if_pos hend, s.lineSt_setLine_same l _, fun j hj => s.lineSt_setLine_ne hj _, rfl⟩

end

end Sys2Proof.Machine
end

section
namespace Sys2Proof.Machine

/-! ### The registers of the delay pool and the storage of its lines (R195, R203, R214) -/

section
variable {s : State} (v : Word)

theorem dplDelaySetWrite_holds (h : HostReaches s 0x14080014) : ∃ t, exec (.dplDelaySetWrite v) s = .next (s.answered 0 .ok t) ∧
    (∃ h, t.held = s.held ++ [h] ∧ h.stamp = none ∧ h.cmd = .delaySet (s.fld R.DPL_LINE_SEL_LINE)
      (if bit v.toNat 28 = 1 then 0xFF else bits v.toNat 31 29) (v.toNat % 2 ^ 26)) ∧
    t.fld R.DPL_DELAY_SET_XF = bits v.toNat 31 29 ∧ t.fld R.DPL_DELAY_SET_XF_LINE = bit v.toNat 28 ∧
    SameBut [R.XB_OUTSTANDING_PEAK 0, R.DPL_DELAY_SET_XF, R.DPL_DELAY_SET_XF_LINE]
      { s with held := t.held, heldNext := s.heldNext + 1 } t := by
  have hnext : (s.touch 0).heldNext = s.heldNext := State.touch_heldNext ..
  have hcmd : (s.touch 0).delayRegCmd v = .delaySet (s.fld R.DPL_LINE_SEL_LINE)
      (if bit v.toNat 28 = 1 then 0xFF else bits v.toNat 31 29) (v.toNat % 2 ^ 26) := by
    rw [State.delayRegCmd, State.fld_touch_ne s (by decide), show bits v.toNat 25 0 = v.toNat % 2 ^ 26 by simp [bits]]
  have hframe := ((SameBut.refl [R.XB_OUTSTANDING_PEAK 0, R.DPL_DELAY_SET_XF, R.DPL_DELAY_SET_XF_LINE] s).touch (m := 0) (by simp)).withHeld
    ((s.touch 0).delaySetWrite v).held (s.heldNext + 1)
  rw [← hnext] at hframe ⊢
  refine ⟨_, congrArg Host.Outcome.next (hostSet_reach h v fun s => s.delaySetWrite v), ⟨_, congrArg (· ++ _) (s.touch_held 0), rfl, hcmd⟩,
    ?_, ?_, (hframe.setFld _ (by simp)).setFld _ (by simp)⟩
  · exact (State.fld_setFld_ne _ _ (by decide)).trans ((State.fld_setFld_same ..).trans (Nat.mod_eq_of_lt (bits_lt ..)))
  · exact (State.fld_setFld_same ..).trans (Nat.mod_eq_of_lt (bit_lt_two ..))

theorem dplHashSeedWrite_test (h : HostReaches s 0x1408000C) (hm : s.mode = .test) :
    ∃ t, exec (.dplHashSeedWrite v) s = .next (s.answered 0 .ok t) ∧ t.dpl = { s.dpl with seed := v.toNat } ∧
      t.mem.dramEpoch = s.mem.dramEpoch + 1 ∧ t.mem.dram = [] ∧
      SameBut [R.XB_OUTSTANDING_PEAK 0] { s with dpl := t.dpl, mem := { s.mem with dram := t.mem.dram, dramEpoch := t.mem.dramEpoch } } t := by
  have htest : (s.touch 0).mode = .test := (s.mode_touch (by norm_num)).trans hm
  have hwrite : (s.touch 0).hashSeedWrite v = { s.touch 0 with
      dpl := { s.dpl with seed := v.toNat }, mem := { s.mem with dram := [], dramEpoch := s.mem.dramEpoch + 1 } } := by
    rw [State.hashSeedWrite, if_pos htest, State.touch_dpl, State.touch_mem]
  have htouch := (SameBut.refl [R.XB_OUTSTANDING_PEAK 0] s).touch (m := 0) (by simp)
  refine ⟨_, congrArg Host.Outcome.next (hostSet_reach h v fun s => s.hashSeedWrite v), ?_⟩
  rw [hwrite]
  refine ⟨rfl, rfl, rfl, htouch.1, ?_⟩
  conv_lhs => rw [htouch.2]

theorem dplHashSeedWrite_elsewhere (h : HostReaches s 0x1408000C) (hm : s.mode ≠ .test) :
    exec (.dplHashSeedWrite v) s = .next (s.answered 0 .ok (s.touch 0)) := by
  have hother : (s.touch 0).mode ≠ .test := (s.mode_touch (by norm_num)).trans_ne hm
  refine congrArg Host.Outcome.next ((hostSet_reach h v fun s => s.hashSeedWrite v).trans ?_)
  rw [State.hashSeedWrite, if_neg hother]

end

section
variable {s : State} {m a : Nat}

/-- The fields in which the host port records an error response of a target. -/
def targetErrFlds : List Fld := [R.HIF_ERR_ADDR_ADDR, R.HIF_ERR_COUNT_COUNT, R.HIF_ERR_STATUS_TARGET_ERR]

theorem State.answer_targetErr_frame (s : State) (m a : Nat) : SameBut targetErrFlds s (s.answer m a .targetErr) := by
  unfold State.answer
  split
  · exact ((((SameBut.refl _ s).setFld _ (by simp [targetErrFlds])).bump 1 (by simp [targetErrFlds])).raise
      (by simp [targetErrFlds])).emit _
  · exact (SameBut.refl _ s).emit _

theorem lineStorageWrite_refused (ha : a < 0x10000000) (hm : m ≠ 10) (h : Reaches s m a) (hf : s.flmState = 0)
    (hl : s.lineProtected a = true) : Gives (.lineStorageWrite m a) s (fun t => t.mem = s.mem ∧
      bit (t.fld R.DPL_INT_STATUS_LINE_WRITE) 0 = 1 ∧ .response m .targetErr ∈ t.sent ∧
      SameBut [R.XB_OUTSTANDING_PEAK m, R.DPL_INT_STATUS_LINE_WRITE, R.HIF_ERR_ADDR_ADDR, R.HIF_ERR_COUNT_COUNT,
        R.HIF_ERR_STATUS_TARGET_ERR] { s with held := t.held } t) := by
  have hexec : exec (.lineStorageWrite m a) s = .next ((((s.touch m).raise R.DPL_INT_STATUS_LINE_WRITE).tagHeld s.heldNext m none).answer
      m a .targetErr) := (if_pos ⟨ha, hl, hm⟩).trans (congrArg Host.Outcome.next (through_reach h hf 0 _))
  have hanswer := (((s.touch m).raise R.DPL_INT_STATUS_LINE_WRITE).tagHeld s.heldNext m none).answer_targetErr_frame m a
  have hraised : SameBut [R.XB_OUTSTANDING_PEAK m, R.DPL_INT_STATUS_LINE_WRITE] s ((s.touch m).raise R.DPL_INT_STATUS_LINE_WRITE) :=
    ((SameBut.refl _ s).touch (by simp)).raise (by simp)
  have hframe := ((hraised.tagHeld s.heldNext m).mono (gs := [R.XB_OUTSTANDING_PEAK m, R.DPL_INT_STATUS_LINE_WRITE] ++ targetErrFlds)
    fun _ hk => List.mem_append_left _ hk).trans (hanswer.mono fun _ hk => List.mem_append_right _ hk)
  refine ⟨_, hexec, (congrArg State.mem hframe.2 :), ?_, List.mem_cons_self, ?_⟩
  · rw [hanswer.1 _ (by decide), State.fld_tagHeld]
    exact State.fld_raise_same _ Nat.one_pos
  · rw [hanswer.held]
    exact hframe

theorem dplCounts_nodup : (dplCounts.map Fld.key).Nodup := by decide

end

/-- Settles O36: a valid delay at the boundary is one `setDelay`, which crossfades, does nothing or pends as the line's fade and its delay
in force say; the hash is folded from the row alone, which the place keeps. -/
theorem delayPoolCommands : Obligations.DelayPoolCommands := by
  refine ⟨fun s l xf d hb => delaySet_later hb, fun s l xf d _ hd hb hp hxf hok => ?_, fun s l xf d hb h => delaySet_rejected hb h,
    fun s n xf a => delayList_held n, fun s v h => dplDelaySetWrite_holds v h, fun s l old k len h hk => delayFadeEnd_ends h hk,
    fun s m a ha hm h hf hp => lineStorageWrite_refused ha hm h hf hp,
    fun s v h => ⟨fun hm => dplHashSeedWrite_test v h hm, fun hm => dplHashSeedWrite_elsewhere v h hm⟩,
    fun seed a b ha hb h => dramPlace_injective ha hb h,
    fun s a hp hon ha => ⟨(exec_scrubRead_running hp hon ha).1, scrubRead_corrected hp hon ha, scrubRead_uncorrectable hp hon ha⟩,
    fun s a err hp => scrubRead_stopped hp err, fun s h => hostClear_sets h rfl dplCounts_nodup⟩
  have hexec := exec_delaySet_valid hb hp hxf hok
  exact ⟨fun hf hne => ⟨_, hexec, State.setDelay_crossfades hd hf hne⟩, fun hf heq => by rw [hexec, State.setDelay_inForce hf heq],
    fun hf => ⟨_, hexec, State.setDelay_pends hd hf⟩⟩

end Sys2Proof.Machine
end
